-- ==== Sys2Proof/Word.lean ====
section
/-!
DEFINITION. The machine words of the part and the one sparse store that every memory, register map and
pool of the model is kept in.
-/
namespace Sys2Proof

abbrev Byte := BitVec 8
abbrev Half := BitVec 16
abbrev Word := BitVec 32
abbrev Dword := BitVec 64

/-- A sparse store: key and value pairs with strictly rising keys, none of them equal to the value an
unlisted key reads as (`Sparse.Wf`), so that equal stores are equal data. -/
abbrev Sparse (α : Type) := List (Nat × α)

end Sys2Proof
end

