-- ==== Sys2Proof/Fields.lean ====
section
/-!
DEFINITION. The operand fields of the commands: the fields of the core instruction words (R114 to R135) and
the fabric packet (R332).
-/
namespace Sys2Proof

/-- Format A (R114). -/
structure FmtA where
  rd : BitVec 5
  ra : BitVec 5
  rb : BitVec 5
  i : BitVec 1
  imm : BitVec 32
  deriving DecidableEq, Repr

/-- The registers format A reads besides rd. -/
def FmtA.sources (f : FmtA) : List Nat := if f.i = 1 then [f.ra.toNat] else [f.ra.toNat, f.rb.toNat]

/-- BR: the condition stands in rd, the target in imm[15:0] (R118). -/
structure BrF where
  cond : BitVec 5
  ra : BitVec 5
  rb : BitVec 5
  target : BitVec 16
  deriving DecidableEq, Repr

/-- JAL (R118). -/
structure JalF where
  rd : BitVec 5
  target : BitVec 16
  deriving DecidableEq, Repr

/-- JALR (R118). -/
structure JalrF where
  rd : BitVec 5
  ra : BitVec 5
  deriving DecidableEq, Repr

/-- LDG and STG (R116). -/
structure IrrF where
  rd : BitVec 5
  ra : BitVec 5
  rb : BitVec 5
  evEn : BitVec 1
  ev : BitVec 5
  deriving DecidableEq, Repr

/-- RDSYS (R115, R117). -/
structure RdsysF where
  rd : BitVec 5
  sel : BitVec 8
  deriving DecidableEq, Repr

/-- MLOAD (R120). -/
structure MloadF where
  buf : BitVec 1
  fmt : BitVec 3
  cmp : BitVec 1
  ra : BitVec 5
  rb : BitVec 5
  offset : BitVec 19
  deriving DecidableEq, Repr

/-- MAC (R121). -/
structure MacF where
  buf : BitVec 1
  axis : BitVec 1
  init : BitVec 1
  close : BitVec 1
  cmp : BitVec 1
  ra : BitVec 5
  rb : BitVec 5
  fmt : BitVec 3
  rows : BitVec 5
  group : BitVec 4
  first : BitVec 5
  offset : BitVec 19
  deriving DecidableEq, Repr

/-- SETVL: format A with rd = 0 (R122). -/
structure SetvlF where
  ra : BitVec 5
  rb : BitVec 5
  i : BitVec 1
  imm : BitVec 32
  deriving DecidableEq, Repr

/-- UDEF (R123). -/
structure UdefF where
  slot : BitVec 3
  new : BitVec 1
  fn : BitVec 5
  a : BitVec 4
  b : BitVec 4
  c : BitVec 4
  imm : BitVec 32
  deriving DecidableEq, Repr

/-- VSTREAM (R126). -/
structure VstreamF where
  slot : BitVec 3
  rd : BitVec 5
  ra : BitVec 5
  rb : BitVec 5
  rc : BitVec 5
  fmtOut : BitVec 3
  fmt0 : BitVec 3
  fmt1 : BitVec 3
  fmt2 : BitVec 3
  mode : BitVec 2
  sat : BitVec 1
  deriving DecidableEq, Repr

/-- VDRAIN (R128). -/
structure VdrainF where
  rc : BitVec 5
  ra : BitVec 5
  rb : BitVec 5
  fmt : BitVec 3
  mode : BitVec 2
  sat : BitVec 1
  pset : BitVec 3
  int : BitVec 1
  offset : BitVec 19
  deriving DecidableEq, Repr

/-- DSET (R127). -/
structure DsetF where
  pset : BitVec 3
  item : BitVec 3
  value : BitVec 32
  deriving DecidableEq, Repr

/-- RACK (R130). -/
structure RackF where
  rc : BitVec 5
  ra : BitVec 5
  rb : BitVec 5
  ev : BitVec 5
  sig : BitVec 2
  deriving DecidableEq, Repr

/-- UREQ (R131). -/
structure UreqF where
  unit : BitVec 3
  ra : BitVec 5
  ev : BitVec 5
  evEn : BitVec 1
  offset : BitVec 19
  deriving DecidableEq, Repr

/-- ASK (R132). -/
structure AskF where
  rd : BitVec 5
  ra : BitVec 5
  offset : BitVec 19
  deriving DecidableEq, Repr

/-- SUBMIT (R132). -/
structure SubmitF where
  remote : BitVec 1
  ra : BitVec 5
  rb : BitVec 5
  offset : BitVec 19
  deriving DecidableEq, Repr

/-- DONE (R132). -/
structure DoneF where
  ra : BitVec 5
  offset : BitVec 19
  deriving DecidableEq, Repr

/-- SIGNAL (R133). -/
structure SignalF where
  remote : BitVec 1
  self : BitVec 1
  rb : BitVec 5
  ev : BitVec 5
  deriving DecidableEq, Repr

/-- WAIT (R133). -/
structure WaitF where
  ev : BitVec 5
  n : BitVec 4
  deriving DecidableEq, Repr

/-- HERD (R133). -/
structure HerdF where
  mode : BitVec 2
  line : BitVec 6
  deriving DecidableEq, Repr

/-- MARK: format A with rd = rb = 0 and i = 1 (R135). -/
structure MarkF where
  ra : BitVec 5
  imm : BitVec 32
  deriving DecidableEq, Repr

/-- A core instruction as its word spells it (R109, R110): what the decoder of Decode.lean reads. -/
inductive CoreOp where
  | nop
  | br (f : BrF)
  | jal (f : JalF)
  | jalr (f : JalrF)
  | halt
  | add (f : FmtA)
  | sub (f : FmtA)
  | mul (f : FmtA)
  | and (f : FmtA)
  | or (f : FmtA)
  | xor (f : FmtA)
  | shl (f : FmtA)
  | shr (f : FmtA)
  | sra (f : FmtA)
  | slt (f : FmtA)
  | sltu (f : FmtA)
  | lds (f : FmtA)
  | sts (f : FmtA)
  | ldg (f : IrrF)
  | stg (f : IrrF)
  | rdsys (f : RdsysF)
  | mload (f : MloadF)
  | mac (f : MacF)
  | setvl (f : SetvlF)
  | udef (f : UdefF)
  | vstream (f : VstreamF)
  | vdrain (f : VdrainF)
  | dset (f : DsetF)
  | rack (f : RackF)
  | ureq (f : UreqF)
  | ask (f : AskF)
  | submit (f : SubmitF)
  | done (f : DoneF)
  | closeq (rb : BitVec 5)
  | signal (f : SignalF)
  | wait (f : WaitF)
  | herd (f : HerdF)
  | fence (kind : BitVec 2)
  | tag (imm : BitVec 32)
  | mark (f : MarkF)
  deriving DecidableEq, Repr

/-- A fabric packet (R332): the header's fields and the payload. -/
structure Packet where
  route : Nat
  src : Nat
  dst : Nat
  epoch : Nat
  cls : Nat
  window : Nat
  kind : Nat
  ref : Nat
  poison : Nat
  payload : List Byte
  deriving DecidableEq, Repr

/-- What a tick token carries (R17), and in `halt` that no further token follows it, which is how this model tells every part
that ticks stop (R33: the means are not stated). -/
structure TokenMsg where
  count : Nat
  replay : Bool
  held : Bool
  len : Nat
  stretch : Nat
  master : Nat
  halt : Bool
  deriving DecidableEq, Repr

/-- What comes with a control message (R350): its correction field, and whether it is the second copy. -/
structure CtlHead where
  corr : Nat
  second : Bool
  deriving DecidableEq, Repr

/-- A control message's arrival (R350): the bundle it comes by, and what comes with it. -/
structure CtlRx where
  bundle : Nat
  head : CtlHead
  deriving DecidableEq, Repr

/-- What the link says of a whole packet that has come in (R344): its bundle sequence number, the virtual channel it came on, and whether
it checks. -/
structure LinkHead where
  seq : Nat
  vc : Nat
  good : Bool
  deriving DecidableEq, Repr

/-- A transient fault of an arithmetic unit while it works (R485, R486): where in the work it strikes, the bits it turns
over there, and the adder-tree node a residue check would name. -/
structure Upset where
  row : Nat
  col : Nat
  mask : BitVec 32
  node : Nat
  deriving DecidableEq, Repr

/-- What the two ends of a link exchange (R330): the neighbour's identifier, its port, its FAB_TOPO and the latency
measured. -/
structure Neighbour where
  chip : Nat
  port : Nat
  topo : Nat
  latency : Nat
  deriving DecidableEq, Repr

/-- What a neighbour presents when it is authenticated (R331, R471): whether its chain verifies to the root digest it
names, the alias key, firmware security version and owner digest of its alias certificate, its signature over the
transcript, and its own challenge. -/
structure Credential where
  root : BitVec 256
  chainOk : Bool
  keyX : BitVec 256
  keyY : BitVec 256
  r : BitVec 256
  s : BitVec 256
  svn : Nat
  owner : BitVec 256
  challenge : List Byte
  deriving DecidableEq, Repr

/-- What a full retrain ends in (R345): whether the stages up to the identity exchange passed, and what the neighbour gave in it and in
authentication. -/
structure Retrained where
  ok : Bool
  neighbour : Neighbour
  credential : Credential
  deriving DecidableEq, Repr

/-- Bytes the host has stored in its own memory before the part reads them: address, data, and whether CXL marks
them as poison (R399). -/
structure HostLine where
  addr : Nat
  data : List Byte
  poison : Bool
  deriving DecidableEq, Repr

/-- The host-side resets of R419. -/
inductive HostResetKind where
  | flr | hotReset | linkDown
  deriving DecidableEq, Repr

/-- An MCTP transport (R464). -/
inductive Transport where
  | smbus | cxl
  deriving DecidableEq, Repr

/-- What every vendor-defined command carries (R465 to R467): its transport and tag, whether it comes inside the owner's
secured session, and how many commands wait at the controller when it arrives. -/
structure MgtReq where
  via : Transport
  tag : BitVec 8
  inSession : Bool
  waiting : Nat
  deriving DecidableEq, Repr

/-- An SPDM request (R469): its code, its two parameters and data, and what the controller's checks of a requester's
chain and signature find. -/
structure SpdmReq where
  code : BitVec 8
  param1 : BitVec 8
  param2 : BitVec 8
  data : List Byte
  ownerChain : BitVec 256
  sigOk : Bool
  deriving DecidableEq, Repr

/-- One round of sensor readings (R473): input voltage and current in 10 mV and 10 mA units, the rails as (rail, mV,
100 mA), and the die, stack and power-stage sensors as (index, °C). -/
structure Sample where
  centivolts : Nat
  centiamps : Nat
  rails : List (Nat × Nat × Nat)
  die : List (Nat × Nat)
  hbm : List (Nat × Nat)
  stage : List (Nat × Nat)
  deriving DecidableEq, Repr

end Sys2Proof
end

