-- ==== Sys2Proof/Syntax.lean ====
section
/-!
DEFINITION. The commands of the part: one constructor for every row of the opcode table, with the row's operands.
A command names what happens at the part: an instruction a core issues, a step one of its units takes, a message or packet
that arrives, a register access, or an event on a pin.
-/
namespace Sys2Proof

/-- The commands. -/
inductive Instr where
  /-- TICK_TOKEN_SEND (R17). -/
  | tickTokenSend
  /-- TICK_ISSUE (R544). -/
  | tickIssue
  /-- TICK_TOKEN (R18). -/
  | tickToken (rx : CtlRx) (t : TokenMsg)
  /-- TICK_IN_EDGE (R20). -/
  | tickInEdge
  /-- TICK_APPLY (R18). -/
  | tickApply
  /-- TICK_FALLBACK (R20). -/
  | tickFallback
  /-- STRAY_EDGE_DISCARD (R20). -/
  | strayEdgeDiscard
  /-- JOURNAL_UNWIND_DONE (R306). -/
  | journalUnwindDone
  /-- PHASE_START (R24). -/
  | phaseStart (phase : Nat)
  /-- COMMIT_POINT (R24). -/
  | commitPoint
  /-- GUARD_BOUNDARY (R25). -/
  | guardBoundary
  /-- FRAME_STATUS_RECEIVE (R26). -/
  | frameStatusReceive
  /-- STANDBY_TAKEOVER (R35). -/
  | standbyTakeover
  /-- STRETCH_REQUEST_RECEIVE (R42). -/
  | stretchRequestReceive
  /-- HOLD_PACKET_RECEIVE (R44). -/
  | holdPacketReceive
  /-- RELEASE_PACKET_RECEIVE (R44). -/
  | releasePacketReceive
  /-- HOLD_NOTICE (R44). -/
  | holdNotice (rx : CtlRx)
  /-- CORE_START (R53). -/
  | coreStart
  /-- NOP (R118). -/
  | nop (core : BitVec 13)
  /-- BR (R118). -/
  | br (core : BitVec 13) (f : BrF)
  /-- JAL (R118). -/
  | jal (core : BitVec 13) (f : JalF)
  /-- JALR (R118). -/
  | jalr (core : BitVec 13) (f : JalrF)
  /-- HALT (R63). -/
  | halt (core : BitVec 13)
  /-- ADD (R115). -/
  | add (core : BitVec 13) (f : FmtA)
  /-- SUB (R115). -/
  | sub (core : BitVec 13) (f : FmtA)
  /-- MUL (R115). -/
  | mul (core : BitVec 13) (f : FmtA)
  /-- AND (R115). -/
  | and (core : BitVec 13) (f : FmtA)
  /-- OR (R115). -/
  | or (core : BitVec 13) (f : FmtA)
  /-- XOR (R115). -/
  | xor (core : BitVec 13) (f : FmtA)
  /-- SHL (R115). -/
  | shl (core : BitVec 13) (f : FmtA)
  /-- SHR (R115). -/
  | shr (core : BitVec 13) (f : FmtA)
  /-- SRA (R115). -/
  | sra (core : BitVec 13) (f : FmtA)
  /-- SLT (R115). -/
  | slt (core : BitVec 13) (f : FmtA)
  /-- SLTU (R115). -/
  | sltu (core : BitVec 13) (f : FmtA)
  /-- LDS (R115). -/
  | lds (core : BitVec 13) (f : FmtA)
  /-- STS (R115). -/
  | sts (core : BitVec 13) (f : FmtA)
  /-- LDG (R116). -/
  | ldg (core : BitVec 13) (f : IrrF)
  /-- STG (R116). -/
  | stg (core : BitVec 13) (f : IrrF)
  /-- RDSYS (R117). -/
  | rdsys (core : BitVec 13) (f : RdsysF)
  /-- MLOAD (R120). -/
  | mload (core : BitVec 13) (f : MloadF)
  /-- MAC (R121). -/
  | mac (core : BitVec 13) (f : MacF)
  /-- SETVL (R122). -/
  | setvl (core : BitVec 13) (f : SetvlF)
  /-- UDEF (R123). -/
  | udef (core : BitVec 13) (f : UdefF)
  /-- VSTREAM (R126). -/
  | vstream (core : BitVec 13) (f : VstreamF)
  /-- VDRAIN (R128). -/
  | vdrain (core : BitVec 13) (f : VdrainF)
  /-- DSET (R127). -/
  | dset (core : BitVec 13) (f : DsetF)
  /-- RACK (R130). -/
  | rack (core : BitVec 13) (f : RackF)
  /-- UREQ (R131). -/
  | ureq (core : BitVec 13) (f : UreqF)
  /-- ASK (R132). -/
  | ask (core : BitVec 13) (f : AskF)
  /-- SUBMIT (R132). -/
  | submit (core : BitVec 13) (f : SubmitF)
  /-- DONE (R132). -/
  | done (core : BitVec 13) (f : DoneF)
  /-- CLOSEQ (R132). -/
  | closeq (core : BitVec 13) (rb : BitVec 5)
  /-- SIGNAL (R133). -/
  | signal (core : BitVec 13) (f : SignalF)
  /-- WAIT (R133). -/
  | wait (core : BitVec 13) (f : WaitF)
  /-- HERD (R133). -/
  | herd (core : BitVec 13) (f : HerdF)
  /-- FENCE (R133). -/
  | fence (core : BitVec 13) (kind : BitVec 2)
  /-- TAG (R134). -/
  | tag (core : BitVec 13) (imm : BitVec 32)
  /-- MARK (R135). -/
  | mark (core : BitVec 13) (f : MarkF)
  /-- MATRIX_LOAD_START (R57). -/
  | matrixLoadStart (core : BitVec 13)
  /-- MATRIX_LOAD_DONE (R57). -/
  | matrixLoadDone (core : BitVec 13)
  /-- MATRIX_PASS_START (R57). -/
  | matrixPassStart (core : BitVec 13) (upset : Option Upset)
  /-- MATRIX_PASS_DONE (R58). -/
  | matrixPassDone (core : BitVec 13)
  /-- DRAIN_START (R59). -/
  | drainStart (core : BitVec 13) (upset : Option Upset)
  /-- DRAIN_DONE (R58). -/
  | drainDone (core : BitVec 13)
  /-- VECTOR_STREAM_START (R126). -/
  | vectorStreamStart (core : BitVec 13) (upset : Option Upset)
  /-- EV_SIGNAL_ARRIVE (R65). -/
  | evSignalArrive (core : BitVec 13) (ev : BitVec 5)
  /-- WAIT_COMPLETE (R65). -/
  | waitComplete (core : BitVec 13)
  /-- HERD_RELEASE (R70). -/
  | herdRelease (line : BitVec 6)
  /-- LDG_RETURN (R116). -/
  | ldgReturn (core : BitVec 13)
  /-- STG_COMPLETE (R116). -/
  | stgComplete (core : BitVec 13)
  /-- FENCE_COMPLETE (R74). -/
  | fenceComplete (core : BitVec 13)
  /-- PRELOAD (R184). -/
  | preload (sector : BitVec 2)
  /-- DESC_ENTER_QUEUE (R168). -/
  | descEnterQueue (sector : BitVec 2)
  /-- REMOTE_SUBMISSION (R169). -/
  | remoteSubmission (sector : BitVec 2)
  /-- DESC_HANDOVER (R173). -/
  | descHandover (core : BitVec 13)
  /-- COMPLETION_RELEASE (R178). -/
  | completionRelease (sector : BitVec 2) (flow : BitVec 12)
  /-- DC_ZERO_RELEASE (R172). -/
  | dcZeroRelease (sector : BitVec 2)
  /-- DELAY_RELEASE (R182). -/
  | delayRelease (sector : BitVec 2)
  /-- SAMPLE_REQUEST_START (R200). -/
  | sampleRequestStart (sector : BitVec 2)
  /-- ROW_GATHER_START (R210). -/
  | rowGatherStart (sector : BitVec 2)
  /-- TILE_FETCH_START (R217). -/
  | tileFetchStart (sector : BitVec 2)
  /-- TILE_STORE_START (R218). -/
  | tileStoreStart (sector : BitVec 2)
  /-- ROW_SCATTER_START (R219). -/
  | rowScatterStart (sector : BitVec 2)
  /-- POOLED_LOOKUP_START (R237). -/
  | pooledLookupStart (sector : BitVec 2)
  /-- ROW_ARRIVE (R212). -/
  | rowArrive (sector : BitVec 2) (req fetch : Nat)
  /-- REMOTE_ROW_REQUEST (R211). -/
  | remoteRowRequest
  /-- RUN_AHEAD_FETCH (R214). -/
  | runAheadFetch (sector : BitVec 2)
  /-- UNIT_REQUEST_COMPLETE (R191). -/
  | unitRequestComplete (sector : BitVec 2) (req : Nat)
  /-- RC_HALVE (R242). -/
  | rcHalve (sector : BitVec 2)
  /-- LEVEL_PASS (R249). -/
  | levelPass (sector : BitVec 2)
  /-- PRESS_SORT_START (R260). -/
  | pressSortStart (sector : BitVec 2)
  /-- CONTRIBUTION_ARRIVE (R263). -/
  | contributionArrive (sector : BitVec 2)
  /-- PRESS_END_MARKER (R264). -/
  | pressEndMarker
  /-- PRESS_END_MARKER_ARRIVE (R264). -/
  | pressEndMarkerArrive
  /-- OWNER_MERGE (R265). -/
  | ownerMerge (sector : BitVec 2)
  /-- COMPOSED_RUN (R266). -/
  | composedRun (sector : BitVec 2)
  /-- GRAD_ARRAY_CLEAR (R267). -/
  | gradArrayClear (sector : BitVec 2)
  /-- OPT_ROW_JOB (R271). -/
  | optRowJob (sector : BitVec 2) (upset : Option Upset)
  /-- OPT_BLOCK_JOB (R278). -/
  | optBlockJob (sector : BitVec 2) (ctl : BitVec 1)
  /-- PATROL_SCRUB (R295). -/
  | patrolScrub (sector : BitVec 2) (ctl : BitVec 1) (errs : List (Nat × Nat))
  /-- HBM_REFRESH (R317). -/
  | hbmRefresh (sector : BitVec 2) (ctl : BitVec 1)
  /-- HBM_TRAINING_DONE (R535). -/
  | hbmTrainingDone
  /-- HBM_ZERO (R319). -/
  | hbmZero
  /-- RACK_UNIT_READ_DONE (R312). -/
  | rackUnitReadDone (sector : BitVec 2) (tag : Nat)
  /-- REMOTE_RACK_OPEN (R313). -/
  | remoteRackOpen
  /-- RACK_OPEN_REPLY (R313). -/
  | rackOpenReply
  /-- RACK_PULL_REQUEST (R313). -/
  | rackPullRequest
  /-- RACK_PUSH_UNIT (R313). -/
  | rackPushUnit
  /-- RACK_PUSH_ACK (R314). -/
  | rackPushAck
  /-- RACK_COMPLETE (R314). -/
  | rackComplete (sector : BitVec 2) (tag : Nat)
  /-- REMOTE_LDG_STG (R309). -/
  | remoteLdgStg
  /-- FAB_TRAIN (R329). -/
  | fabTrain
  /-- FAB_TRAIN_STOP (R329). -/
  | fabTrainStop
  /-- ELECTRICAL_TRAINING_DONE (R329). -/
  | electricalTrainingDone (port : Nat)
  /-- IDENTITY_EXCHANGE (R330). -/
  | identityExchange (port : Nat) (n : Neighbour)
  /-- PORT_AUTHENTICATE (R331). -/
  | portAuthenticate (port : Nat) (n : Credential)
  /-- TICK_PATH_PROBE (R351). -/
  | tickPathProbe (rx : CtlRx) (standby : Bool) (latency hops : Nat)
  /-- TICK_PATH_STAGE_END (R351). -/
  | tickPathStageEnd
  /-- PORT_RETRAIN (R345). -/
  | portRetrain (port : Nat)
  /-- PACKET_INJECT (R337). -/
  | packetInject
  /-- FABRIC_PACKET_ARRIVE (R333). -/
  | fabricPacketArrive (port : Nat) (h : LinkHead) (pkt : Packet)
  /-- FLAG_ACK_ARRIVE (R342). -/
  | flagAckArrive
  /-- LINK_ACK (R344). -/
  | linkAck (port seq : Nat)
  /-- LINK_REJECT (R344). -/
  | linkReject (port seq : Nat)
  /-- RECEIVE_STALL (R345). -/
  | receiveStall (port : Nat)
  /-- ACK_TIMEOUT (R345). -/
  | ackTimeout (port : Nat)
  /-- FAST_RETRAIN_DONE (R345). -/
  | fastRetrainDone (port : Nat) (ok : Bool)
  /-- FULL_RETRAIN_DONE (R345). -/
  | fullRetrainDone (port : Nat) (r : Retrained)
  /-- ACCOUNTING_SEND (R347). -/
  | accountingSend
  /-- LOSS_NOTICE_ARRIVE (R348). -/
  | lossNoticeArrive
  /-- FABRIC_FREEZE (R353). -/
  | fabricFreeze (rx : CtlRx)
  /-- BUCKET_START (R360). -/
  | bucketStart (bucket : Nat)
  /-- REDUCE_STEP (R361). -/
  | reduceStep (bucket : Nat)
  /-- REDUCE_BLOCK_ARRIVE (R364). -/
  | reduceBlockArrive
  /-- ONEBIT_CONTRIB_ARRIVE (R367). -/
  | onebitContribArrive
  /-- ONEBIT_RESULT_ARRIVE (R367). -/
  | onebitResultArrive
  /-- BUCKET_COMPLETE (R365). -/
  | bucketComplete (bucket : Nat)
  /-- LOSS_DECLARATION_RECEIVE (R380). -/
  | lossDeclarationReceive
  /-- TWIN_JOB_RECORD (R375). -/
  | twinJobRecord
  /-- TWIN_RAW_LINES (R375). -/
  | twinRawLines
  /-- TWIN_END_MARKER (R377). -/
  | twinEndMarker
  /-- TWIN_ACK_RECEIVE (R377). -/
  | twinAckReceive
  /-- TWIN_RESTORE (R382). -/
  | twinRestore
  /-- TWIN_RESTORE_DONE (R382). -/
  | twinRestoreDone
  /-- LINK_TRAINING (R389). -/
  | linkTraining (cxl : Bool) (rate width : Nat)
  /-- HDM_DECODER_COMMIT (R396). -/
  | hdmDecoderCommit (decoder : BitVec 1) (base size skip ways : Nat)
  /-- CXL_MEM_READ (R397). -/
  | cxlMemRead (addr : Nat) (errs : List (Nat × Nat))
  /-- CXL_MEM_WRITE (R397). -/
  | cxlMemWrite (addr : Nat) (data : List Byte) (poison : Bool)
  /-- H2D_SNOOP (R391). -/
  | h2dSnoop (addr : Nat)
  /-- SQ_DOORBELL (R401). -/
  | sqDoorbell (queue : BitVec 3) (tail : BitVec 16) (host : List HostLine)
  /-- QUEUE_DISABLE (R401). -/
  | queueDisable (queue : BitVec 3)
  /-- CMD_NOP (R403). -/
  | cmdNop (queue : BitVec 3)
  /-- COPY_IN (R403). -/
  | copyIn (queue : BitVec 3) (host : List HostLine)
  /-- COPY_OUT (R403). -/
  | copyOut (queue : BitVec 3)
  /-- HOST_SUBMIT (R408). -/
  | hostSubmit (queue : BitVec 3) (host : List HostLine)
  /-- GRAFT_LOAD (R436). -/
  | graftLoad (queue : BitVec 3) (host : List HostLine)
  /-- TXN_BEGIN (R439). -/
  | txnBegin (queue : BitVec 3)
  /-- TXN_STAGE (R439). -/
  | txnStage (queue : BitVec 3) (host : List HostLine)
  /-- TXN_COMMIT (R442). -/
  | txnCommit (queue : BitVec 3)
  /-- TXN_VALIDATION_DONE (R443). -/
  | txnValidationDone
  /-- TXN_ROLLBACK (R447). -/
  | txnRollback (queue : BitVec 3)
  /-- QUIESCE (R403). -/
  | quiesce (queue : BitVec 3)
  /-- RESUME (R403). -/
  | resume (queue : BitVec 3)
  /-- COMPLETION_RECORD_WRITE (R406). -/
  | completionRecordWrite (queue : BitVec 3)
  /-- CR_HEAD_WRITE (R407). -/
  | crHeadWrite (queue : BitVec 3) (head : BitVec 16)
  /-- IN_COMMIT (R412). -/
  | inCommit (channel : BitVec 4) (word : BitVec 64)
  /-- BLOCK_DELIVERY (R413). -/
  | blockDelivery (channel : BitVec 4)
  /-- STATUS_RECORD_WRITE (R409). -/
  | statusRecordWrite
  /-- HOST_RESET (R419). -/
  | hostReset (kind : HostResetKind)
  /-- REGISTER_WRITE (R15). -/
  | registerWrite (offset size : Nat) (value : BitVec 64)
  /-- POWER_UP (R535). -/
  | powerUp (strap : BitVec 3)
  /-- BOOT (R457). -/
  | boot
  /-- FW_READY (R457). -/
  | fwReady
  /-- GET_INFO (R467). -/
  | getInfo (m : MgtReq)
  /-- GET_TELEMETRY (R467). -/
  | getTelemetry (m : MgtReq)
  /-- GET_ERRREC (R467). -/
  | getErrrec (m : MgtReq) (seq : Nat)
  /-- GET_LIMITS (R467). -/
  | getLimits (m : MgtReq)
  /-- SET_LIMITS (R467). -/
  | setLimits (m : MgtReq) (watts dieC hbmC holdC : Nat)
  /-- SET_GRAFT_KEY (R467). -/
  | setGraftKey (m : MgtReq) (slot : Nat) (key : Option (List Byte))
  /-- SET_POLICY (R467). -/
  | setPolicy (m : MgtReq) (signedOnly linkMatch : Bool) (minSvn : Nat)
  /-- OWNER_SET (R468). -/
  | ownerSet (m : MgtReq) (digest : BitVec 256)
  /-- OWNER_CLEAR (R468). -/
  | ownerClear (m : MgtReq)
  /-- FW_BEGIN (R460). -/
  | fwBegin (m : MgtReq) (length : Nat)
  /-- FW_WRITE (R460). -/
  | fwWrite (m : MgtReq) (offset : Nat) (chunk : List Byte)
  /-- FW_VERIFY (R460). -/
  | fwVerify (m : MgtReq)
  /-- FW_ACTIVATE (R460). -/
  | fwActivate (m : MgtReq)
  /-- FW_COMMIT_SVN (R460). -/
  | fwCommitSvn (m : MgtReq)
  /-- TEST_LOAD (R504). -/
  | testLoad (m : MgtReq) (container : List Byte)
  /-- SPDM_REQUEST (R469). -/
  | spdmRequest (via : Transport) (r : SpdmReq)
  /-- SESSION_TIMEOUT (R466). -/
  | sessionTimeout (via : Transport)
  /-- TELEMETRY_SAMPLE (R473). -/
  | telemetrySample (t : Sample)
  /-- THERMAL_RELEASE (R477). -/
  | thermalRelease
  /-- THERMAL_TRIP (R478). -/
  | thermalTrip (sensor : Nat)
  /-- FIRMWARE_FAULT (R480). -/
  | firmwareFault
  /-- DUP_CHECK (R490). -/
  | dupCheck (sector : BitVec 2) (spare : Nat) (err : BitVec 64)
  /-- DUP_ARBITRATE (R491). -/
  | dupArbitrate (sector : BitVec 2) (spare : Nat) (err : BitVec 64)
  /-- INTEGRITY_NOTICE_RECEIVE (R494). -/
  | integrityNoticeReceive
  /-- SELFTEST_SLICE (R501). -/
  | selftestSlice (sector : BitVec 2) (spare : Bool) (unit pattern : Nat) (pass : Bool)
  /-- FULL_TEST_REQUEST (R503). -/
  | fullTestRequest
  /-- FULL_TEST_CANCEL (R503). -/
  | fullTestCancel
  /-- FULL_TEST_RUN (R503). -/
  | fullTestRun (failedCores failedPatterns : List Nat)
  /-- FREEZE (R512). -/
  | freeze
  /-- FREEZE_IN (R512). -/
  | freezeIn
  /-- THAW (R514). -/
  | thaw
  /-- SCAN_READ (R515). -/
  | scanRead (jtag : Bool)
  /-- BYPASS (R546). -/
  | bypass
  /-- IDCODE (R546). -/
  | idcode
  /-- SAMPLE_PRELOAD (R546). -/
  | samplePreload (cells : List Byte)
  /-- EXTEST (R546). -/
  | extest (cells : List Byte)
  /-- CLAMP (R546). -/
  | clamp
  /-- HIGHZ (R546). -/
  | highz
  /-- EXTEST_PULSE (R546). -/
  | extestPulse (cells : List Byte)
  /-- EXTEST_TRAIN (R546). -/
  | extestTrain (cells : List Byte)
  /-- SCAN_WIN (R515). -/
  | scanWin
  /-- SUPPLY_WARNING (R526). -/
  | supplyWarning (centivolts : Nat)
  /-- RECOVERY_TIMER (R528). -/
  | recoveryTimer (centivolts : Nat)
  /-- HOLD_REPEAT (R529). -/
  | holdRepeat
  /-- HOLD_LAPSE (R529). -/
  | holdLapse (chip source : Nat)
  /-- UNDERVOLTAGE_RESET (R530). -/
  | undervoltageReset (centivolts : Nat)
  /-- OVERVOLTAGE_FLAG (R522). -/
  | overvoltageFlag (centivolts : Nat)
  /-- RAIL_FAULT (R525). -/
  | railFault (rail millivolts : Nat)
  /-- FREFCLK_LOSS (R538). -/
  | frefclkLoss
  /-- REFCLK100_LOSS (R538). -/
  | refclk100Loss
  /-- RESET_N (R533). -/
  | resetN
  /-- PERST_N (R533). -/
  | perstN
  /-- CCLK_STOP (R540). -/
  | cclkStop
  /-- CCLK_RESTART (R540). -/
  | cclkRestart
  /-- ILLEGAL_OR_RESERVED_ENCODING (R109). -/
  | illegalOrReservedEncoding (core : BitVec 13)
  /-- VECTOR_STREAM_DONE (R62). -/
  | vectorStreamDone (core : BitVec 13)
  /-- LANE_LOSES_LOCK (R325). -/
  | laneLosesLock (port : Nat)
  /-- STACK_SENSOR_READ (R317). -/
  | stackSensorRead (sector : BitVec 2) (ctl : BitVec 1) (celsius : Nat)
  /-- INPUT_FALLS_BELOW_20V (R534). -/
  | inputFallsBelow20v
  /-- PCI_POWER_STATE_CHANGE (R419). -/
  | pciPowerStateChange (d3hot busMaster : Bool)
  /-- MCTP_CONTROL_MESSAGE (R464). -/
  | mctpControlMessage (via : Transport) (eid : BitVec 8)
  /-- TWIN_RESTORE_PULL (R382). -/
  | twinRestorePull
  deriving DecidableEq, Repr

end Sys2Proof
end

