-- ==== Sys2Proof/Decode.lean ====
section
/-!
DEFINITION. The words of core instructions (R109 to R135): an encoder and a decoder written from the same tables. The rows of the
opcode table give no bits, so no word spells a command (`decodeTableWord`).
-/
namespace Sys2Proof

/-- The command that a word spells by the opcode table's bits: the table gives none.
DESIGN CHOICE (log 16, safe): decodeTableWord answers none and withFetchWord leaves the state as it is: no row of the table gives bits. -/
def decodeTableWord (_nbits _w : Nat) : Option Instr := none

/-- Format A (R114): an opcode over its fields. -/
def wordA (op : BitVec 8) (rd ra rb : BitVec 5) (i : BitVec 1) (imm : BitVec 32) : Dword := op ++ rd ++ ra ++ rb ++ i ++ 0#8 ++ imm

/-- A scalar instruction in format A. -/
def wordF (op : BitVec 8) (f : FmtA) : Dword := wordA op f.rd f.ra f.rb f.i f.imm

/-- LDG and STG (R116). -/
def wordIrr (op : BitVec 8) (f : IrrF) : Dword := op ++ f.rd ++ f.ra ++ f.rb ++ 0#9 ++ f.evEn ++ f.ev ++ 0#26

/-- The word of an instruction (R109, R110, R114 to R135); reserved bits are zero. -/
def encodeWord (o : CoreOp) : Dword :=
  match o with
  | .nop => 0#64
  | .br f => wordA 0x01 f.cond f.ra f.rb 0 (0#16 ++ f.target)
  | .jal f => wordA 0x02 f.rd 0 0 0 (0#16 ++ f.target)
  | .jalr f => wordA 0x03 f.rd f.ra 0 0 0
  | .halt => 0x04#8 ++ 0#56
  | .add f => wordF 0x10 f
  | .sub f => wordF 0x11 f
  | .mul f => wordF 0x12 f
  | .and f => wordF 0x13 f
  | .or f => wordF 0x14 f
  | .xor f => wordF 0x15 f
  | .shl f => wordF 0x16 f
  | .shr f => wordF 0x17 f
  | .sra f => wordF 0x18 f
  | .slt f => wordF 0x19 f
  | .sltu f => wordF 0x1A f
  | .lds f => wordF 0x1B f
  | .sts f => wordF 0x1C f
  | .ldg f => wordIrr 0x1D f
  | .stg f => wordIrr 0x1E f
  | .rdsys f => wordA 0x1F f.rd 0 0 1 (0#24 ++ f.sel)
  | .mload f => 0x20#8 ++ f.buf ++ f.fmt ++ f.cmp ++ f.ra ++ f.rb ++ 0#17 ++ f.offset ++ 0#5
  | .mac f =>
    0x21#8 ++ f.buf ++ f.axis ++ f.init ++ f.close ++ f.cmp ++ f.ra ++ f.rb ++ f.fmt ++ f.rows ++ f.group ++ f.first ++ f.offset ++ 0#5
  | .setvl f => wordA 0x30 0 f.ra f.rb f.i f.imm
  | .udef f => 0x31#8 ++ f.slot ++ f.new ++ f.fn ++ f.a ++ f.b ++ f.c ++ 0#3 ++ f.imm
  | .vstream f =>
    0x32#8 ++ f.slot ++ f.rd ++ f.ra ++ f.rb ++ f.rc ++ f.fmtOut ++ f.fmt0 ++ f.fmt1 ++ f.fmt2 ++ f.mode ++ f.sat ++ 0#18
  | .vdrain f =>
    0x33#8 ++ f.rc ++ f.ra ++ f.rb ++ f.fmt ++ f.mode ++ f.sat ++ f.pset ++ f.int ++ 0#7 ++ f.offset ++ 0#5
  | .dset f => 0x34#8 ++ f.pset ++ f.item ++ 0#18 ++ f.value
  | .rack f => 0x40#8 ++ f.rc ++ f.ra ++ f.rb ++ f.ev ++ f.sig ++ 0#34
  | .ureq f => 0x41#8 ++ f.unit ++ 0#2 ++ f.ra ++ 0#5 ++ f.ev ++ f.evEn ++ 0#11 ++ f.offset ++ 0#5
  | .ask f => 0x50#8 ++ f.rd ++ f.ra ++ 0#22 ++ f.offset ++ 0#5
  | .submit f => 0x51#8 ++ f.remote ++ 0#4 ++ f.ra ++ f.rb ++ 0#17 ++ f.offset ++ 0#5
  | .done f => 0x52#8 ++ 0#5 ++ f.ra ++ 0#22 ++ f.offset ++ 0#5
  | .closeq rb => 0x53#8 ++ 0#10 ++ rb ++ 0#41
  | .signal f => 0x60#8 ++ f.remote ++ f.self ++ 0#8 ++ f.rb ++ f.ev ++ 0#36
  | .wait f => 0x61#8 ++ 0#15 ++ f.ev ++ f.n ++ 0#32
  | .herd f => 0x62#8 ++ f.mode ++ f.line ++ 0#48
  | .fence kind => 0x63#8 ++ kind ++ 0#54
  | .tag imm => wordA 0x70 0 0 0 1 imm
  | .mark f => wordA 0x71 0 f.ra 0 1 f.imm

/-- Bits `[lo + n - 1 : lo]` of a word. -/
def bits (w : Dword) (lo n : Nat) : BitVec n := w.extractLsb' lo n

/-- The fields of format A. -/
def readA (w : Dword) : FmtA := ⟨bits w 51 5, bits w 46 5, bits w 41 5, bits w 40 1, bits w 0 32⟩

/-- The fields of LDG and STG. -/
def readIrr (w : Dword) : IrrF := ⟨bits w 51 5, bits w 46 5, bits w 41 5, bits w 31 1, bits w 26 5⟩

/-- The control and scalar instructions by opcode (R110, R115 to R118). -/
def readScalar (op : Nat) (w : Dword) : Option CoreOp :=
  match op with
  | 0x00 => some .nop
  | 0x01 => some (.br ⟨bits w 51 5, bits w 46 5, bits w 41 5, bits w 0 16⟩)
  | 0x02 => some (.jal ⟨bits w 51 5, bits w 0 16⟩)
  | 0x03 => some (.jalr ⟨bits w 51 5, bits w 46 5⟩)
  | 0x04 => some .halt
  | 0x10 => some (.add (readA w))
  | 0x11 => some (.sub (readA w))
  | 0x12 => some (.mul (readA w))
  | 0x13 => some (.and (readA w))
  | 0x14 => some (.or (readA w))
  | 0x15 => some (.xor (readA w))
  | 0x16 => some (.shl (readA w))
  | 0x17 => some (.shr (readA w))
  | 0x18 => some (.sra (readA w))
  | 0x19 => some (.slt (readA w))
  | 0x1A => some (.sltu (readA w))
  | 0x1B => some (.lds (readA w))
  | 0x1C => some (.sts (readA w))
  | 0x1D => some (.ldg (readIrr w))
  | 0x1E => some (.stg (readIrr w))
  | 0x1F => some (.rdsys ⟨bits w 51 5, bits w 0 8⟩)
  | _ => none

/-- The matrix and vector instructions by opcode (R120 to R128). -/
def readMatVec (op : Nat) (w : Dword) : Option CoreOp :=
  match op with
  | 0x20 => some (.mload ⟨bits w 55 1, bits w 52 3, bits w 51 1, bits w 46 5, bits w 41 5, bits w 5 19⟩)
  | 0x21 =>
    some (.mac ⟨bits w 55 1, bits w 54 1, bits w 53 1, bits w 52 1, bits w 51 1, bits w 46 5, bits w 41 5, bits w 38 3, bits w 33 5,
      bits w 29 4, bits w 24 5, bits w 5 19⟩)
  | 0x30 => some (.setvl ⟨bits w 46 5, bits w 41 5, bits w 40 1, bits w 0 32⟩)
  | 0x31 => some (.udef ⟨bits w 53 3, bits w 52 1, bits w 47 5, bits w 43 4, bits w 39 4, bits w 35 4, bits w 0 32⟩)
  | 0x32 =>
    some (.vstream ⟨bits w 53 3, bits w 48 5, bits w 43 5, bits w 38 5, bits w 33 5, bits w 30 3, bits w 27 3, bits w 24 3, bits w 21 3,
      bits w 19 2, bits w 18 1⟩)
  | 0x33 =>
    some (.vdrain ⟨bits w 51 5, bits w 46 5, bits w 41 5, bits w 38 3, bits w 36 2, bits w 35 1, bits w 32 3, bits w 31 1, bits w 5 19⟩)
  | 0x34 => some (.dset ⟨bits w 53 3, bits w 50 3, bits w 0 32⟩)
  | _ => none

/-- The racking, scheduler, synchronisation and observation instructions by opcode (R130 to R135). -/
def readOther (op : Nat) (w : Dword) : Option CoreOp :=
  match op with
  | 0x40 => some (.rack ⟨bits w 51 5, bits w 46 5, bits w 41 5, bits w 36 5, bits w 34 2⟩)
  | 0x41 => some (.ureq ⟨bits w 53 3, bits w 46 5, bits w 36 5, bits w 35 1, bits w 5 19⟩)
  | 0x50 => some (.ask ⟨bits w 51 5, bits w 46 5, bits w 5 19⟩)
  | 0x51 => some (.submit ⟨bits w 55 1, bits w 46 5, bits w 41 5, bits w 5 19⟩)
  | 0x52 => some (.done ⟨bits w 46 5, bits w 5 19⟩)
  | 0x53 => some (.closeq (bits w 41 5))
  | 0x60 => some (.signal ⟨bits w 55 1, bits w 54 1, bits w 41 5, bits w 36 5⟩)
  | 0x61 => some (.wait ⟨bits w 36 5, bits w 32 4⟩)
  | 0x62 => some (.herd ⟨bits w 54 2, bits w 48 6⟩)
  | 0x63 => some (.fence (bits w 54 2))
  | 0x70 => some (.tag (bits w 0 32))
  | 0x71 => some (.mark ⟨bits w 46 5, bits w 0 32⟩)
  | _ => none

/-- The opcode of a word (R109). -/
def opcodeOf (w : Dword) : Nat := (bits w 56 8).toNat

/-- The instruction a word names, its reserved bits not yet looked at. -/
def readFields (w : Dword) : Option CoreOp :=
  let op := opcodeOf w
  if op < 0x20 then readScalar op w else if op < 0x40 then readMatVec op w else readOther op w

/-- Bits that no rule makes reserved and no field reads: rb of RDSYS (R115). -/
def freeBits (w : Dword) : Dword := if opcodeOf w = 0x1F then w &&& ~~~(0x1F#64 <<< 41) else w

/-- The instruction that a word spells (R109): none for a missing opcode or a reserved bit that is not zero, which fault the core with
code 1. -/
def decodeWord (w : Dword) : Option CoreOp :=
  match readFields w with
  | some o => if encodeWord o = freeBits w then some o else none
  | none => none

end Sys2Proof
end

