-- ==== Sys2Proof/Config.lean ====
section
/-!
DEFINITION. What the spec leaves open and the machine goes on with: constants with no body, applied to the
counter `free` of the state, so that nothing can be proved about a value they give.
-/
namespace Sys2Proof

/-- A number the spec does not fix (an undefined or unstated value), for one use of the counter. -/
opaque Config.freeNat : Nat → Nat

/-- A choice the spec does not fix. -/
opaque Config.freeBool : Nat → Bool

/-- A 32-bit word the spec does not fix, by use of the counter and index within the use. -/
opaque Config.freeWord : Nat → Nat → Nat

/-- Whether a weighted sampling key that is not a number ranks above the key given (R202): the spec states no rank for it. -/
opaque Config.nanAbove : Nat → Bool

/-- Bytes the spec does not fix (a nonce, a signature, a measurement), by use and length. -/
opaque Config.freeBytes : Nat → Nat → List Byte

/-- Bytes that are a function of what they stand for in an encoding the spec does not give (a digest over state whose
layout is not stated, a certificate chain): by measurement index or 0 for the chain, and the contents.
DESIGN CHOICE (log 10, safe): Values whose encoding the manual does not give are Config.encoding of their contents. -/
opaque Config.encoding : Nat → List Byte → List Byte

end Sys2Proof
end

