-- ==== Sys2Proof/Machine/Sparse.lean ====
section
/-!
DEFINITION. Reading and writing a sparse store. The value an unlisted key reads as is a function of the
key, given at every access; writing that value removes the entry.
-/
namespace Sys2Proof.Machine

variable {α : Type}

/-- The value at key `k`; an unlisted key reads as `d`. -/
def spGet (d : α) (m : Sparse α) (k : Nat) : α :=
  match m with
  | [] => d
  | (k', v) :: r => if k' = k then v else spGet d r k

/-- Take every entry of key `k` out. -/
def spDel (m : Sparse α) (k : Nat) : Sparse α :=
  match m with
  | [] => []
  | (k', v) :: r => if k' = k then spDel r k else (k', v) :: spDel r k

/-- Put the entry `(k, v)` in, in rising order of the keys. -/
def spPut (m : Sparse α) (k : Nat) (v : α) : Sparse α :=
  match m with
  | [] => [(k, v)]
  | (k', v') :: r =>
    if k < k' then (k, v) :: (k', v') :: r
    else if k' = k then (k, v) :: r
    else (k', v') :: spPut r k v

/-- Write `v` at key `k`, where an unlisted key reads as `d`. -/
def spSet [DecidableEq α] (d : α) (m : Sparse α) (k : Nat) (v : α) : Sparse α :=
  if v = d then spDel m k else spPut m k v

/-- Every key of the store is above `k`. -/
def keysAbove (k : Nat) (m : Sparse α) : Bool := m.all fun e => k < e.1

/-- The keys rise strictly. -/
def keysRise (m : Sparse α) : Bool :=
  match m with
  | [] => true
  | (k, _) :: r => keysAbove k r && keysRise r

/-- The canonical form: rising keys, and no entry equal to what its key reads as unlisted. -/
def spWf [DecidableEq α] (d : Nat → α) (m : Sparse α) : Bool :=
  keysRise m && m.all fun e => decide (e.2 ≠ d e.1)

/-- Drop every entry whose key satisfies `f`. -/
def spClear (m : Sparse α) (f : Nat → Bool) : Sparse α := m.filter fun e => !(f e.1)

end Sys2Proof.Machine
end

