-- ==== Sys2Proof/Machine/Bits.lean ====
section
/-!
DEFINITION. Bit fields of numbers, little-endian bytes, and the small list helpers the whole model shares.
-/
namespace Sys2Proof.Machine

/-- Bits `[lo + w - 1 : lo]` of a number. -/
def fld (n lo w : Nat) : Nat := (n >>> lo) % 2 ^ w

/-- One bit of a number. -/
def bit (n i : Nat) : Bool := (n >>> i) % 2 == 1

/-- `n` with bits `[lo + w - 1 : lo]` replaced by `v`. -/
def putFld (n lo w v : Nat) : Nat :=
  (n >>> (lo + w)) <<< (lo + w) + (v % 2 ^ w) <<< lo + n % 2 ^ lo

/-- A Boolean as a bit. -/
def b2n (b : Bool) : Nat := if b then 1 else 0

/-- Add to a counter that stops at its largest value. -/
def satAdd (max n k : Nat) : Nat := if n + k ≤ max then n + k else max

/-- The two's-complement value of the low `w` bits. -/
def sext (w n : Nat) : Int :=
  let m := n % 2 ^ w
  if m < 2 ^ (w - 1) then (m : Int) else (m : Int) - (2 ^ w : Nat)

/-- An integer modulo `2^w`. -/
def wrapN (w : Nat) (i : Int) : Nat := (i % (2 ^ w : Nat)).toNat

/-- Little-endian bytes of the low `k` bytes of `n`. -/
def leBytes (k n : Nat) : List Byte :=
  match k with
  | 0 => []
  | k + 1 => BitVec.ofNat 8 n :: leBytes k (n / 256)

/-- The number little-endian bytes spell. -/
def leNat (bs : List Byte) : Nat :=
  match bs with
  | [] => 0
  | b :: r => b.toNat + 256 * leNat r

/-- The number big-endian bytes spell. -/
def beNat (bs : List Byte) : Nat := bs.foldl (fun a b => 256 * a + b.toNat) 0

/-- `k` big-endian bytes of `n`. -/
def beBytes (k n : Nat) : List Byte := (leBytes k n).reverse

/-- The little-endian number in bytes `[lo, lo + k)` of a list. -/
def leAt (bs : List Byte) (lo k : Nat) : Nat := leNat ((bs.drop lo).take k)

/-- Element `i`, or `d` past the end. -/
def nth {α : Type} (l : List α) (i : Nat) (d : α) : α := l.getD i d

/-- Cut a list into pieces of `n` (`fuel` pieces at most). -/
def chunks {α : Type} (n fuel : Nat) (l : List α) : List (List α) :=
  match fuel with
  | 0 => []
  | fuel + 1 => if l.isEmpty then [] else l.take n :: chunks n fuel (l.drop n)

/-- Insert into a list sorted by `le`, after its equals. -/
def insertBy {α : Type} (le : α → α → Bool) (x : α) (l : List α) : List α :=
  match l with
  | [] => [x]
  | y :: r => if le y x then y :: insertBy le x r else x :: y :: r

/-- A stable sort. -/
def sortBy {α : Type} (le : α → α → Bool) (l : List α) : List α :=
  l.foldl (fun acc x => insertBy le x acc) []

/-- The first of each run of equals kept (for a sorted list: the distinct elements). -/
def dedupAdj {α : Type} [DecidableEq α] (l : List α) : List α :=
  match l with
  | [] => []
  | x :: r =>
    match dedupAdj r with
    | [] => [x]
    | y :: t => if x = y then y :: t else x :: y :: t

/-- Group neighbours with equal keys. -/
def groupAdj {α : Type} (key : α → Nat) (l : List α) : List (Nat × List α) :=
  match l with
  | [] => []
  | x :: r =>
    match groupAdj key r with
    | [] => [(key x, [x])]
    | (k, g) :: t => if key x = k then (k, x :: g) :: t else (key x, [x]) :: (k, g) :: t

/-- The least element, or 0 of an empty list. -/
def minList (l : List Nat) : Nat :=
  match l with
  | [] => 0
  | x :: r => r.foldl min x

/-- Rounding a quotient up. -/
def ceilDiv (a b : Nat) : Nat := (a + b - 1) / b

/-- `a` with its low `k` bits cleared. -/
def alignDown (k a : Nat) : Nat := (a >>> k) <<< k

end Sys2Proof.Machine
end

