-- ==== Sys2Proof/Machine/Flags.lean ====
section
/-!
DEFINITION. The arithmetic events of R87 and R108: the six bits of COR_FMT_STICKY and the count of flushed
operands and results. Every unit that does arithmetic records them in registers of this one layout.
-/
namespace Sys2Proof.Machine

/-- The events of one operation: the bits of R108 and the flush count of R87. -/
structure Events where
  bits : BitVec 6
  flushes : Nat
  deriving DecidableEq, Repr

/-- No event. -/
def Events.none : Events := ⟨0, 0⟩

/-- Both sets of events. -/
def Events.join (a b : Events) : Events := ⟨a.bits ||| b.bits, a.flushes + b.flushes⟩

/-- Bit [0]: a subnormal operand was read as zero (R86). -/
def Events.flushIn : Events := ⟨1, 1⟩
/-- Bit [1]: a subnormal result was replaced by zero (R86). -/
def Events.flushOut : Events := ⟨2, 1⟩
/-- Bit [2]: an invalid operation, or a NaN converted to an integer (R85, R92). -/
def Events.invalid : Events := ⟨4, 0⟩
/-- Bit [3]: a result overflowed or an infinity saturated (R90, R101). -/
def Events.overflow : Events := ⟨8, 0⟩
/-- Bit [4]: a conversion to an integer format clamped (R92). -/
def Events.intSat : Events := ⟨16, 0⟩
/-- Bit [5]: an integer accumulation wrapped (R102). -/
def Events.intWrap : Events := ⟨32, 0⟩

/-- The event when it happened. -/
def Events.when (b : Bool) (e : Events) : Events := if b then e else .none

end Sys2Proof.Machine
end

