-- ==== Sys2Proof/Machine/Num.lean ====
section
/-!
DEFINITION. The number formats and the arithmetic of chapter 03 (R79 to R97): exact values, the rounding
modes, conversions, binary32 lane arithmetic, the reciprocal, root, exponential and logarithm steps, and the
generator of stochastic rounding. Every unit of the part that does arithmetic calls these definitions.
-/
namespace Sys2Proof.Machine

/-- The data formats of R79, with the codes of R119. -/
inductive Fmt where
  | t8e | t8r | t16 | t16m | i8 | i16 | b32
  deriving DecidableEq, Repr

/-- The format a 3-bit code names; 7 is "none" (R119). -/
def Fmt.ofCode (n : Nat) : Option Fmt :=
  match n with
  | 0 => some .t8e
  | 1 => some .t8r
  | 2 => some .t16
  | 3 => some .t16m
  | 4 => some .i8
  | 5 => some .i16
  | 6 => some .b32
  | _ => none

/-- The width of an element in bytes (R79). -/
def Fmt.bytes (f : Fmt) : Nat :=
  match f with
  | .t8e | .t8r | .i8 => 1
  | .t16 | .t16m | .i16 => 2
  | .b32 => 4

/-- The two integer formats. -/
def Fmt.isInt (f : Fmt) : Bool :=
  match f with
  | .i8 | .i16 => true
  | _ => false

/-- Mantissa width of a floating format (R79). -/
def Fmt.mant (f : Fmt) : Nat :=
  match f with
  | .t8e => 3
  | .t8r => 2
  | .t16 => 7
  | .t16m => 9
  | _ => 23

/-- Exponent bias of a floating format (R79). -/
def Fmt.bias (f : Fmt) : Nat :=
  match f with
  | .t8e => 7
  | .t8r => 15
  | .t16 => 127
  | .t16m => 31
  | _ => 127

/-- The encoding of the largest finite value (R81). -/
def Fmt.maxFinite (f : Fmt) : Nat :=
  match f with
  | .t8e => 0x7E
  | .t8r => 0x7B
  | .t16 => 0x7F7F
  | .t16m => 0x7DFF
  | _ => 0x7F7FFFFF

/-- The canonical NaN (R81, R82). -/
def Fmt.nan (f : Fmt) : Nat :=
  match f with
  | .t8e => 0x7F
  | .t8r => 0x7E
  | .t16 => 0x7FC0
  | .t16m => 0x7F00
  | _ => 0x7FC00000

/-- The encoding of +infinity; T8e has none and gives the canonical NaN (R81, R90). -/
def Fmt.inf (f : Fmt) : Nat :=
  match f with
  | .t8e => 0x7F
  | .t8r => 0x7C
  | .t16 => 0x7F80
  | .t16m => 0x7E00
  | _ => 0x7F800000

/-- An exact value: not a number, a signed infinity, or `(-1)^neg × m × 2^e`. -/
inductive FVal where
  | nan
  | inf (neg : Bool)
  | fin (neg : Bool) (m : Nat) (e : Int)
  deriving DecidableEq, Repr

/-- The sign bit's position. -/
def Fmt.signBit (f : Fmt) : Nat := 8 * f.bytes - 1

/-- The exact value of an encoding (R80, R79). -/
def FVal.decode (f : Fmt) (n : Nat) : FVal :=
  if f.isInt then
    let i := sext (8 * f.bytes) n
    .fin (i < 0) i.natAbs 0
  else
    let neg := bit n f.signBit
    let mag := n % 2 ^ f.signBit
    if mag > f.maxFinite then
      if mag = f.inf ∧ f ≠ .t8e then .inf neg else .nan
    else
      let e := mag >>> f.mant
      let m := mag % 2 ^ f.mant
      let b : Int := f.bias
      if e = 0 then .fin neg m (1 - b - f.mant)
      else .fin neg (2 ^ f.mant + m) ((e : Int) - b - f.mant)

/-- A subnormal encoding of a floating format. -/
def isSubnormal (f : Fmt) (n : Nat) : Bool :=
  let mag := n % 2 ^ f.signBit
  mag != 0 && mag < 2 ^ f.mant

/-- The rounding modes: the codes of R88, and round-to-odd, which no code selects (R95). -/
inductive Mode where
  | rne
  | sr (u : Nat)
  | rtz
  | rto
  deriving DecidableEq, Repr

/-- Choose `a` or `a + 1` for a magnitude `m × 2^e` in units of `2^q` (R88, R89). -/
def roundUnit (mode : Mode) (m : Nat) (e q : Int) : Nat :=
  if q ≤ e then m <<< (e - q).toNat
  else
    let k := (q - e).toNat
    let a := m >>> k
    let rem := m % 2 ^ k
    match mode with
    | .rtz => a
    | .rto => if rem = 0 then a else a ||| 1
    | .rne =>
      let half := 2 ^ (k - 1)
      if rem > half ∨ (rem = half ∧ a % 2 = 1) then a + 1 else a
    | .sr u =>
      let d := if 12 ≤ k then rem >>> (k - 12) else rem <<< (12 - k)
      if d + u ≥ 4096 then a + 1 else a

/-- The encoding, on the format's scale continued upwards, of a magnitude rounded by `mode` (R88, R91). -/
def roundMag (f : Fmt) (mode : Mode) (m : Nat) (e : Int) : Nat :=
  if m = 0 then 0
  else
    let emin : Int := 1 - (f.bias : Int)
    let ex : Int := (Nat.log2 m : Int) + e
    let q : Int := (if ex < emin then emin else ex) - f.mant
    let n := roundUnit mode m e q
    if n < 2 ^ f.mant then n
    else ((q + f.mant + f.bias).toNat) * 2 ^ f.mant + (n - 2 ^ f.mant)

/-- A sign put on an encoding. -/
def withSign (f : Fmt) (neg : Bool) (n : Nat) : Nat := if neg then n + 2 ^ f.signBit else n

/-- Round an exact value to a floating format (R88 to R91), with the flush of results of R86 where `flush`
holds. -/
def roundF (f : Fmt) (mode : Mode) (sat flush : Bool) (v : FVal) : Nat × Events :=
  match v with
  | .nan => (f.nan, .none)
  | .inf neg =>
    if sat then (withSign f neg f.maxFinite, .overflow)
    else if f = .t8e then (f.nan, .overflow)
    else (withSign f neg f.inf, .none)
  | .fin neg m e =>
    let n := roundMag f mode m e
    if n > f.maxFinite then
      match mode with
      | .rtz => (withSign f neg f.maxFinite, .none)
      | .rto => (withSign f neg f.maxFinite, .none)
      | _ =>
        if sat then (withSign f neg f.maxFinite, .overflow)
        else if f = .t8e then (f.nan, .overflow)
        else (withSign f neg f.inf, .overflow)
    else if flush ∧ n ≠ 0 ∧ n < 2 ^ f.mant then (withSign f neg 0, .flushOut)
    else (withSign f neg n, .none)

/-- Round to an integer of `w` bits by `mode` and clamp (R92); the two's-complement bits. -/
def roundI (w : Nat) (mode : Mode) (v : FVal) : Nat × Events :=
  match v with
  | .nan => (0, .invalid)
  | .inf neg => (if neg then 2 ^ (w - 1) else 2 ^ (w - 1) - 1, .intSat)
  | .fin neg m e =>
    let n := roundUnit mode m e 0
    if neg then
      if n > 2 ^ (w - 1) then (2 ^ (w - 1), .intSat) else ((2 ^ w - n) % 2 ^ w, .none)
    else if n > 2 ^ (w - 1) - 1 then (2 ^ (w - 1) - 1, .intSat) else (n, .none)

/-- Round to any format (R88 to R92). -/
def roundTo (f : Fmt) (mode : Mode) (sat flush : Bool) (v : FVal) : Nat × Events :=
  if f.isInt then roundI (8 * f.bytes) mode v else roundF f mode sat flush v

/-- Round-to-odd to binary32: an infinity and a NaN stay, a larger finite magnitude gives the largest
finite (R95, R103). -/
def rtoB32 (v : FVal) : Nat := (roundF .b32 .rto false false v).1

/-- A binary32 result rounded to nearest even (R83), with the overflow event of R90 and the flush of R86. -/
def rneB32 (keep : Bool) (v : FVal) : Nat × Events := roundF .b32 .rne false (!keep) v

/-- The value an arithmetic operation reads from a floating operand (R86): in flush mode a subnormal reads
as zero of its sign. -/
def readF (keep : Bool) (f : Fmt) (n : Nat) : FVal × Events :=
  if !keep && !f.isInt && isSubnormal f n then (.fin (bit n f.signBit) 0 0, .flushIn)
  else (FVal.decode f n, .none)

/-- Bring two exact values to one exponent: signed mantissas and the exponent. -/
def alignSum (s1 : Bool) (m1 : Nat) (e1 : Int) (s2 : Bool) (m2 : Nat) (e2 : Int) : Int × Int :=
  let e := if e1 ≤ e2 then e1 else e2
  let a : Int := ((m1 <<< (e1 - e).toNat : Nat) : Int)
  let b : Int := ((m2 <<< (e2 - e).toNat : Nat) : Int)
  ((if s1 then -a else a) + (if s2 then -b else b), e)

/-- Exact addition with the invalid cases of R85; an exact zero sum of opposite signs is +0. -/
def FVal.add (a b : FVal) : FVal × Bool :=
  match a, b with
  | .nan, _ => (.nan, true)
  | _, .nan => (.nan, true)
  | .inf s, .inf t => if s = t then (.inf s, false) else (.nan, true)
  | .inf s, .fin .. => (.inf s, false)
  | .fin .., .inf t => (.inf t, false)
  | .fin s m e, .fin t k g =>
    let (z, x) := alignSum s m e t k g
    if z = 0 then (.fin (s && t && m = 0 && k = 0) 0 0, false)
    else (.fin (z < 0) z.natAbs x, false)

/-- Exact multiplication with the invalid cases of R85. -/
def FVal.mul (a b : FVal) : FVal × Bool :=
  match a, b with
  | .nan, _ => (.nan, true)
  | _, .nan => (.nan, true)
  | .inf s, .inf t => (.inf (s != t), false)
  | .inf s, .fin t k _ => if k = 0 then (.nan, true) else (.inf (s != t), false)
  | .fin s m _, .inf t => if m = 0 then (.nan, true) else (.inf (s != t), false)
  | .fin s m e, .fin t k g => (.fin (s != t) (m * k) (e + g), false)

/-- The sign changed. -/
def FVal.neg (a : FVal) : FVal :=
  match a with
  | .nan => .nan
  | .inf s => .inf (!s)
  | .fin s m e => .fin (!s) m e

/-- `a < b` of two numbers (a NaN compares false). -/
def FVal.lt (a b : FVal) : Bool :=
  match a, b with
  | .nan, _ => false
  | _, .nan => false
  | .inf s, .inf t => s && !t
  | .inf s, .fin .. => s
  | .fin .., .inf t => !t
  | .fin s m e, .fin t k g =>
    let (z, _) := alignSum s m e (!t) k g
    z < 0

/-- Equality of two numbers (a NaN equals nothing, −0 equals +0). -/
def FVal.eq (a b : FVal) : Bool :=
  match a, b with
  | .nan, _ => false
  | _, .nan => false
  | .inf s, .inf t => s == t
  | .inf _, .fin .. => false
  | .fin .., .inf _ => false
  | .fin s m e, .fin t k g => (alignSum s m e (!t) k g).1 == 0

/-- Whether a value carries the sign bit. -/
def FVal.isNeg (a : FVal) : Bool :=
  match a with
  | .nan => false
  | .inf s => s
  | .fin s _ _ => s

/-- Maximum with −0 below +0 (R84). -/
def FVal.max (a b : FVal) : FVal :=
  match a, b with
  | .nan, _ => .nan
  | _, .nan => .nan
  | a, b => if FVal.lt a b then b else if FVal.lt b a then a else if a.isNeg then b else a

/-- Minimum with −0 below +0 (R84). -/
def FVal.min (a b : FVal) : FVal :=
  match a, b with
  | .nan, _ => .nan
  | _, .nan => .nan
  | a, b => if FVal.lt a b then a else if FVal.lt b a then b else if a.isNeg then a else b

/-- A value that stands for an irrational one: the kept bits with a lowest bit that says "more follows". -/
def sticky (neg : Bool) (m : Nat) (e : Int) : FVal := .fin neg (2 * m + 1) (e - 1)

/-- Integer square root, bit by bit (`fuel` result bits). -/
def isqrtBits (fuel n r : Nat) : Nat :=
  match fuel with
  | 0 => r
  | fuel + 1 =>
    let t := r + 2 ^ fuel
    if t * t ≤ n then isqrtBits fuel n t else isqrtBits fuel n r

/-- The largest `r` with `r × r ≤ n`. -/
def isqrt (n : Nat) : Nat := isqrtBits (Nat.log2 n / 2 + 1) n 0

/-- 1 / a (R125). -/
def FVal.rcp (a : FVal) : FVal × Bool :=
  match a with
  | .nan => (.nan, true)
  | .inf s => (.fin s 0 0, false)
  | .fin s m e =>
    if m = 0 then (.inf s, false)
    else
      let k := Nat.log2 m + 100
      let q := 2 ^ k / m
      if q * m = 2 ^ k then (.fin s q (-(k : Int) - e), false)
      else (sticky s q (-(k : Int) - e), false)

/-- 1 / √a (R125). -/
def FVal.rsq (a : FVal) : FVal × Bool :=
  match a with
  | .nan => (.nan, true)
  | .inf s => if s then (.nan, true) else (.fin false 0 0, false)
  | .fin s m e =>
    if m = 0 then (.inf s, false)
    else if s then (.nan, true)
    else
      let m2 := if e % 2 = 0 then m else 2 * m
      let h : Int := if e % 2 = 0 then e / 2 else (e - 1) / 2
      let k := Nat.log2 m2 + 100
      let q := isqrt (2 ^ (2 * k) / m2)
      if q * q * m2 = 2 ^ (2 * k) then (.fin false q (-(k : Int) - h), false)
      else (sticky false q (-(k : Int) - h), false)

/-- Square root (used by the optimiser programs). -/
def FVal.sqrt (a : FVal) : FVal × Bool :=
  match a with
  | .nan => (.nan, true)
  | .inf s => if s then (.nan, true) else (.inf false, false)
  | .fin s m e =>
    if m = 0 then (.fin s 0 0, false)
    else if s then (.nan, true)
    else
      let m2 := if e % 2 = 0 then m else 2 * m
      let h : Int := if e % 2 = 0 then e / 2 else (e - 1) / 2
      let q := isqrt (m2 * 2 ^ 200)
      if q * q = m2 * 2 ^ 200 then (.fin false q (h - 100), false)
      else (sticky false q (h - 100), false)

/-- a / b of two numbers. -/
def FVal.div (a b : FVal) : FVal × Bool :=
  match a, b with
  | .nan, _ => (.nan, true)
  | _, .nan => (.nan, true)
  | .inf _, .inf _ => (.nan, true)
  | .inf s, .fin t _ _ => (.inf (s != t), false)
  | .fin s _ _, .inf t => (.fin (s != t) 0 0, false)
  | .fin s m e, .fin t k g =>
    if k = 0 then (if m = 0 then (.nan, true) else (.inf (s != t), false))
    else
      let j := Nat.log2 k + 100
      let q := (m * 2 ^ j) / k
      if q * k = m * 2 ^ j then (.fin (s != t) q (e - g - (j : Int)), false)
      else (sticky (s != t) q (e - g - (j : Int)), false)

/-- Fraction bits of the fixed-point series below. -/
def fxBits : Nat := 320

/-- Sum of the exponential series of `y` in fixed point, from term `n` on, the term so far given. -/
def expSeries (fuel n y term : Nat) : Nat :=
  match fuel with
  | 0 => 0
  | fuel + 1 =>
    let t := (term * y) >>> fxBits
    let t := t / n
    t + expSeries fuel (n + 1) y t

/-- Square `k` times in fixed point. -/
def fxSquare (k x : Nat) : Nat :=
  match k with
  | 0 => x
  | k + 1 => fxSquare k ((x * x) >>> fxBits)

/-- e^x in fixed point for a magnitude below 128 given in fixed point. -/
def fxExp (x : Nat) : Nat :=
  let one := 2 ^ fxBits
  fxSquare 10 (one + expSeries 100 1 (x >>> 10) one)

/-- e^a (R125): kept to far more bits than binary32 holds, with a lowest bit that says the rest is not zero. -/
def FVal.exp (a : FVal) : FVal × Bool :=
  match a with
  | .nan => (.nan, true)
  | .inf s => if s then (.fin false 0 0, false) else (.inf false, false)
  | .fin s m e =>
    if m = 0 then (.fin false 1 0, false)
    else if (Nat.log2 m : Int) + e ≥ 7 then
      if s then (sticky false 0 (-400), false) else (sticky false 1 400, false)
    else
      let x := if (fxBits : Int) + e ≥ 0 then m <<< ((fxBits : Int) + e).toNat else m >>> (-((fxBits : Int) + e)).toNat
      let r := fxExp x
      if s then (sticky false (2 ^ (2 * fxBits) / r) (-(fxBits : Int)), false)
      else (sticky false r (-(fxBits : Int)), false)

/-- The series of `atanh z` for a fixed-point `z`: `z + z³/3 + …`. -/
def atanhSeries (fuel n z2 pow : Nat) : Nat :=
  match fuel with
  | 0 => 0
  | fuel + 1 => pow / n + atanhSeries fuel (n + 2) z2 ((pow * z2) >>> fxBits)

/-- 2 × atanh(z) in fixed point. -/
def fxAtanh2 (z : Nat) : Nat := 2 * atanhSeries 110 1 ((z * z) >>> fxBits) z

/-- ln 2 in fixed point. -/
def fxLn2 : Nat := fxAtanh2 (2 ^ fxBits / 3)

/-- ln a (R125). -/
def FVal.log (a : FVal) : FVal × Bool :=
  match a with
  | .nan => (.nan, true)
  | .inf s => if s then (.nan, true) else (.inf false, false)
  | .fin s m e =>
    if m = 0 then (.inf true, false)
    else if s then (.nan, true)
    else
      let l := Nat.log2 m
      -- m × 2^e = c × 2^x with c in (3/4, 3/2]
      let up := 2 * m > 3 * 2 ^ l
      let d := if up then 2 ^ (l + 1) else 2 ^ l
      let x : Int := (l : Int) + e + (if up then 1 else 0)
      if m = d ∧ x = 0 then (.fin false 0 0, false)
      else
        let num : Int := (m : Int) - d
        let z := (num.natAbs <<< fxBits) / (m + d)
        let lnc : Int := (fxAtanh2 z : Int)
        let tot : Int := x * (fxLn2 : Int) + (if num < 0 then -lnc else lnc)
        (sticky (tot < 0) tot.natAbs (-(fxBits : Int)), false)

/-- The invalid event of an operation (R85). -/
def invalidIf (b : Bool) : Events := Events.when b .invalid

/-- Binary32 bits of a value rounded to nearest even, with the events of the operation. -/
def finishB32 (keep : Bool) (r : FVal × Bool) (e : Events) : Nat × Events :=
  let (n, e') := rneB32 keep r.1
  (n, (e.join (invalidIf r.2)).join e')

/-- Binary32 addition (R83). -/
def addB32 (keep : Bool) (x y : Nat) : Nat × Events :=
  let (a, e1) := readF keep .b32 x
  let (b, e2) := readF keep .b32 y
  finishB32 keep (a.add b) (e1.join e2)

/-- Binary32 subtraction (R83). -/
def subB32 (keep : Bool) (x y : Nat) : Nat × Events :=
  let (a, e1) := readF keep .b32 x
  let (b, e2) := readF keep .b32 y
  finishB32 keep (a.add b.neg) (e1.join e2)

/-- Binary32 multiplication (R83). -/
def mulB32 (keep : Bool) (x y : Nat) : Nat × Events :=
  let (a, e1) := readF keep .b32 x
  let (b, e2) := readF keep .b32 y
  finishB32 keep (a.mul b) (e1.join e2)

/-- The exact a × b + c with its invalid case (R83, R85). -/
def FVal.fma (a b c : FVal) : FVal × Bool :=
  let (p, i) := a.mul b
  let (s, j) := p.add c
  (s, i || j)

/-- Binary32 fused multiply-add (R83). -/
def fmaB32 (keep : Bool) (x y z : Nat) : Nat × Events :=
  let (a, e1) := readF keep .b32 x
  let (b, e2) := readF keep .b32 y
  let (c, e3) := readF keep .b32 z
  finishB32 keep (FVal.fma a b c) ((e1.join e2).join e3)

/-- Convert one element between formats with one rounding (R93, R94): a conversion to the same format copies
the bits. -/
def convert (src dst : Fmt) (mode : Mode) (sat keep : Bool) (n : Nat) : Nat × Events :=
  if src = dst then (n, .none) else roundTo dst mode sat (!keep) (FVal.decode src n)

/-- The mixing function of R96. -/
def mix64 (z : Dword) : Dword :=
  let z := (z ^^^ (z >>> 30)) * 0xBF58476D1CE4E5B9#64
  let z := (z ^^^ (z >>> 27)) * 0x94D049BB133111EB#64
  z ^^^ (z >>> 31)

/-- The step of the generator of R96. -/
def gamma64 : Dword := 0x9E3779B97F4A7C15#64

/-- The state a generator holds from cycle 0 of a frame (R97). -/
def srSeed (graftSeed frameNo : Dword) (unit chip inst lane : Nat) : Dword :=
  let key := BitVec.ofNat 64 ((unit <<< 60) ||| (chip <<< 44) ||| (inst <<< 28) ||| (lane <<< 20))
  mix64 (graftSeed ^^^ mix64 (frameNo ^^^ mix64 key))

/-- Draw number `n` of a frame of the generator whose state at cycle 0 is `s` (R96): five draws of 12 bits
from each output. -/
def srDraw (s : Dword) (n : Nat) : Nat :=
  let out := mix64 (s + gamma64 * BitVec.ofNat 64 (n / 5 + 1))
  (out >>> (12 * (n % 5))).toNat % 4096

/-- The mode a 2-bit code selects, with the draw that stochastic rounding would take (R88); 3 is reserved. -/
def Mode.ofCode (code u : Nat) : Mode :=
  match code with
  | 1 => .sr u
  | 2 => .rtz
  | _ => .rne

end Sys2Proof.Machine
end

