-- ==== Sys2Proof/Machine/CoreState.lean ====
section
/-!
DEFINITION. The state of one Ngavy core (chapters 02 to 05): registers, program counter, command queues,
stationary buffers, accumulator groups, the finished-tile queue, vector state, event counters and what the
core waits for. The registers of its sub-block that only count or configure stand in the register map.
-/
namespace Sys2Proof.Machine

/-- COR_STATUS.state (R77). -/
inductive CoreSt where
  | noRole | clearing | running | inAsk | evWait | herdWait | stalled | ldgWait | inFence | halted | faulted
  deriving DecidableEq, Repr

/-- The code COR_STATUS.state shows (R77). -/
def CoreSt.code (s : CoreSt) : Nat :=
  match s with
  | .noRole => 0
  | .clearing => 1
  | .running => 2
  | .inAsk => 3
  | .evWait => 4
  | .herdWait => 5
  | .stalled => 6
  | .ldgWait => 7
  | .inFence => 8
  | .halted => 9
  | .faulted => 10

/-- What every queued matrix or vector instruction carries: its place in program order, its address and
the layer and operator pair of the core when it issued (R113, R134). -/
structure OpHead where
  seq : Nat
  pc : Nat
  pair : Nat
  deriving DecidableEq, Repr

/-- A queued MLOAD with its addresses resolved at issue (R111, R120). -/
structure LoadOp where
  head : OpHead
  buf : Nat
  fmt : Fmt
  cmp : Bool
  base : Nat
  stride : Nat
  deriving DecidableEq, Repr

/-- A queued MAC (R121). -/
structure PassOp where
  head : OpHead
  buf : Nat
  axis : Bool
  init : Bool
  close : Bool
  cmp : Bool
  base : Nat
  stride : Nat
  fmt : Fmt
  rows : Nat
  group : Nat
  first : Nat
  deriving DecidableEq, Repr

/-- An entry of the matrix command queue. -/
inductive MOp where
  | load (o : LoadOp)
  | pass (o : PassOp)
  deriving DecidableEq, Repr

/-- One micro-program step (R123). -/
structure UStep where
  fn : Nat
  a : Nat
  b : Nat
  c : Nat
  imm : Nat
  deriving DecidableEq, Repr

/-- A drain parameter set (R127). -/
structure DrainSet where
  scale : Nat
  bias : Nat
  lo : Nat
  hi : Nat
  biasMode : Nat
  clip : Bool
  deriving DecidableEq, Repr

/-- What a set holds from cycle 0 of every frame (R127). -/
def DrainSet.reset : DrainSet := ⟨0x3F800000, 0, 0xFF800000, 0x7F800000, 0, false⟩

/-- A queued VSTREAM (R126); an input format is `none` when unused. -/
structure StreamOp where
  head : OpHead
  slot : Nat
  out : Nat
  in0 : Nat
  in1 : Nat
  in2 : Nat
  fmtOut : Fmt
  fmt0 : Option Fmt
  fmt1 : Option Fmt
  fmt2 : Option Fmt
  mode : Nat
  sat : Bool
  deriving DecidableEq, Repr

/-- A queued VDRAIN (R128). -/
structure DrainOp where
  head : OpHead
  biasAddr : Nat
  base : Nat
  stride : Nat
  fmt : Fmt
  mode : Nat
  sat : Bool
  pset : Nat
  int : Bool
  deriving DecidableEq, Repr

/-- An entry of the vector command queue (R129), each with its place in program order. -/
inductive VOp where
  | setvl (seq vl : Nat)
  | udef (seq slot : Nat) (new : Bool) (step : UStep)
  | dset (seq pset item value : Nat)
  | stream (o : StreamOp)
  | drain (o : DrainOp)
  deriving DecidableEq, Repr

/-- The tile a stationary buffer holds (R56, R120, R140): its elements by reduction position or value row and
column, the 2-bit positions of a compressed tile, and the first poison token it took (R300).
DESIGN CHOICE (log 57, safe): Element values the manual does not state (a scale of a row out of range, an element past its stored values) are free. -/
structure Tile where
  fmt : Fmt
  cmp : Bool
  vals : List (List Nat)
  idx : List (List Nat)
  poison : Option Nat
  deriving DecidableEq, Repr

/-- The states of an accumulator group (R58). -/
inductive GroupSt where
  | free | open | queued | draining
  deriving DecidableEq, Repr

/-- COR_ACC_STATE's code (R77). -/
def GroupSt.code (g : GroupSt) : Nat :=
  match g with
  | .free => 0
  | .open => 1
  | .queued => 2
  | .draining => 3

/-- One accumulator group besides its words: its state, whether it holds integers (R102), the first poison
token it took (R300), whether every pass since it opened was T8r by T8r (R152), its duplication sequence
number when sampled (R488), the passes captured for it (R489), and the rows written since it opened (bit i
for row i). -/
structure Group where
  st : GroupSt
  isInt : Bool
  poison : Option Nat
  outlook : Bool
  sample : Option Nat
  passes : Nat
  written : Nat
  deriving DecidableEq, Repr

/-- A group at reset. -/
def Group.reset : Group := ⟨.free, false, none, true, none, 0, 0⟩

/-- A pass in the array: its instruction and the sums of its rows, computed from the operands it read, with the events of each
row. -/
structure PassRun where
  op : PassOp
  isInt : Bool
  sums : List (List Nat)
  events : List Events
  poison : Option Nat
  deriving DecidableEq, Repr

/-- What a running vector instruction will have written when it retires: pieces of bytes at scratchpad
addresses, each granule's poison token where it is poison (R299, R300), and the arithmetic events of the values in it. -/
structure SpWrite where
  addr : Nat
  bytes : List Byte
  poison : Option Nat
  events : Events
  deriving DecidableEq, Repr

/-- The running vector instruction: a stream or a drain, the scratchpad ranges it reads and writes (R62), what it
writes, the vector-engine cycles it takes and the arithmetic events of what it does not write. -/
structure VRun where
  op : VOp
  group : Nat
  reads : List (Nat × Nat)
  wrote : List (Nat × Nat)
  writes : List SpWrite
  cycles : Nat
  events : Events
  deriving DecidableEq, Repr

/-- An LDG or STG of the core (R116): global address, the register it loads or the value it stores, its
counter, and whether it has returned or become visible. -/
structure IrrOp where
  seq : Nat
  isLoad : Bool
  rd : Nat
  gaddr : Nat
  value : Nat
  ev : Option Nat
  pair : Nat
  slot : Nat
  done : Bool
  deriving DecidableEq, Repr

/-- The state of one core. `seq` numbers the instructions of a frame in program order, `opened` counts the
groups opened in the frame (R488), `heldBy` is the sector whose full queue stalls its SUBMIT (R169), `closing` lists the groups whose closes have found the finished-tile queue full
(R59), the first to close first; they serve rules that speak of program order and of sequence numbers. `evNew` holds for a counter the
last cycle in which it accepted signals and how many it did (R67), `evTook` the same for the core as a whole (R68). -/
structure Core where
  st : CoreSt
  heldBy : Option Nat
  waitId : Nat
  waitN : Nat
  pc : Nat
  g : Sparse Word
  pair : Nat
  seq : Nat
  faultCode : Nat
  faultPc : Nat
  faultSeq : Option Nat
  endSeen : Bool
  askRd : Nat
  askAddr : Nat
  fence : Nat
  arrived : Nat
  ev : Sparse Nat
  evNew : Sparse (Nat × Nat)
  evTook : Nat × Nat
  irr : List IrrOp
  mq : List MOp
  loading : Option LoadOp
  loadTile : Option Tile
  buf0 : Option Tile
  buf1 : Option Tile
  passes : List PassRun
  closing : List Nat
  acc : Sparse Word
  groups : Sparse Group
  opened : Nat
  ftq : List Nat
  vq : List VOp
  vrun : Option VRun
  vl : Nat
  slots : Sparse (List UStep)
  psets : Sparse DrainSet
  draws : Sparse Nat
  estSeq : Sparse Nat
  deriving DecidableEq, Repr

/-- A core at reset: no role, every register zero, nothing queued (R77).
DESIGN CHOICE (log 8, unsafe): Registers of a core whose reset value the manual does not give (g0 to g31, vector length, micro-program slots, parameter sets, tiles): 0 or empty. -/
def Core.reset : Core :=
  ⟨.noRole, none, 0, 0, 0, [], 0, 0, 0, 0, none, false, 0, 0, 0, 0, [], [], (0, 0), [], [], none, none, none, none, [],
   [], [], [], 0, [], [], none, 0, [], [], [], []⟩

end Sys2Proof.Machine
end

