-- ==== Sys2Proof/Machine/CoreMath.lean ====
section
/-!
DEFINITION. What a matrix pass, a drain and a micro-program compute (R56, R100 to R103, R124 to R126, R139 to
R145), as functions of their operands alone.
-/
namespace Sys2Proof.Machine

/-- Fold a function over a list, joining the events of every call. -/
def mapEv {α β : Type} (f : α → β × Events) (l : List α) : List β × Events :=
  match l with
  | [] => ([], .none)
  | x :: r =>
    let (y, e) := f x
    let (ys, e') := mapEv f r
    (y :: ys, e.join e')

/-- One level of the summation tree: neighbours added pairwise. -/
def pairUp (f : Nat → Nat → Nat × Events) (l : List Nat) : List Nat × Events :=
  match l with
  | a :: b :: r =>
    let (x, e) := f a b
    let (xs, e') := pairUp f r
    (x :: xs, e.join e')
  | l => (l, .none)

/-- The fixed binary tree of R101, `levels` levels deep. -/
def treeSum (f : Nat → Nat → Nat × Events) (levels : Nat) (l : List Nat) : List Nat × Events :=
  match levels with
  | 0 => (l, .none)
  | k + 1 =>
    let (x, e) := pairUp f l
    let (y, e') := treeSum f k x
    (y, e.join e')

/-- Addition of the summation tree: the operands are taken exactly, the result rounded to nearest even and
flushed where R86 says so. -/
def treeAdd (keep : Bool) (x y : Nat) : Nat × Events :=
  finishB32 keep ((FVal.decode .b32 x).add (FVal.decode .b32 y)) .none

/-- Integer addition modulo 2^32 with the wrap event of R102. -/
def intAdd (x y : Nat) : Nat × Events :=
  let t := sext 32 x + sext 32 y
  (wrapN 32 t, Events.when (t < -(2 ^ 31 : Nat) || t ≥ (2 ^ 31 : Nat)) .intWrap)

/-- One product of a pass: exact, then rounded once to binary32 (R101), or exact in integers (R102). -/
def product (keep : Bool) (fx fs : Fmt) (x s : Nat) : Nat × Events :=
  if fx.isInt then (wrapN 32 (sext (8 * fx.bytes) x * sext (8 * fs.bytes) s), .none)
  else
    let (a, e1) := readF keep fx x
    let (b, e2) := readF keep fs s
    finishB32 keep (a.mul b) (e1.join e2)

/-- The addition of a pass's content type. -/
def accAdd (isInt keep : Bool) : Nat → Nat → Nat × Events := if isInt then intAdd else treeAdd keep

/-- The stationary operands of output column `j` in the order of the products: dense as stored or transposed
(R56), or the 32 retained elements of a compressed tile (R141). -/
def stationary (t : Tile) (axis : Bool) (j : Nat) : List Nat :=
  (List.range 32).map fun k =>
    if axis && !t.cmp then nth (nth t.vals j []) k 0 else nth (nth t.vals k []) j 0

/-- The moving operands of output column `j`: the row itself, or the elements the index block selects
(R141). -/
def moving (t : Tile) (x : List Nat) (j : Nat) : List Nat :=
  (List.range 32).map fun r =>
    if t.cmp then nth x (4 * (r / 2) + nth (nth t.idx r []) j 0) 0 else nth x r 0

/-- The sum of one moving row and output column (R101, R102). -/
def passWord (keep : Bool) (fx : Fmt) (t : Tile) (axis : Bool) (x : List Nat) (j : Nat) : Nat × Events :=
  let (ps, e) := mapEv (fun q : Nat × Nat => product keep fx t.fmt q.1 q.2) ((moving t x j).zip (stationary t axis j))
  let (s, e') := treeSum (accAdd fx.isInt keep) 5 ps
  (nth s 0 0, e.join e')

/-- The sums of the moving rows over all 32 columns, with the events of each row. -/
def passSums (keep : Bool) (fx : Fmt) (t : Tile) (axis : Bool) (rows : List (List Nat)) : List (List Nat) × List Events :=
  (rows.map fun x => mapEv (passWord keep fx t axis x) (List.range 32)).unzip

/-- The value class a stream value carries (R124). -/
structure SVal where
  bits : Nat
  isInt : Bool
  deriving DecidableEq, Repr

/-- The result of a step before any rounding: bits that are final, or an exact value still to be rounded. -/
inductive StepRes where
  | bits (v : SVal)
  | exact (v : FVal)
  deriving DecidableEq, Repr

/-- Binary32 bits of 1.0 or +0 for a comparison (R124). -/
def cmpRes (b : Bool) : StepRes := .exact (if b then .fin false 1 0 else .fin false 0 0)

/-- A finite exponent above 0x42B17217, where EXP overflows to +infinity (R125). -/
def expOverflows (a : FVal) : Bool :=
  match a with
  | .fin _ _ _ => FVal.lt (FVal.decode .b32 0x42B17217) a
  | _ => false

/-- One step function on the bits of its operands (R124, R125).
DEDUCED (log 130, unsafe): An operand field that names a subnormal value counts once for each field that names it (R86, R87), so MUL of a value by itself counts two. -/
def stepFn (keep : Bool) (fn : Nat) (a b c : SVal) : StepRes × Events :=
  let ra := readF keep .b32 a.bits
  let rb := readF keep .b32 b.bits
  let rc := readF keep .b32 c.bits
  let ab := ra.2.join rb.2
  let un (f : FVal → FVal × Bool) : StepRes × Events :=
    let (v, i) := f ra.1
    (.exact v, ra.2.join (invalidIf i))
  let bin (r : FVal × Bool) : StepRes × Events := (.exact r.1, ab.join (invalidIf r.2))
  let int (n : Nat) : StepRes × Events := (.bits ⟨n % 2 ^ 32, true⟩, .none)
  let nan := (FVal.decode .b32 a.bits) == .nan
  match fn with
  | 0 => (.bits a, .none)
  | 1 => bin (ra.1.add rb.1)
  | 2 => bin (ra.1.add rb.1.neg)
  | 3 => bin (ra.1.mul rb.1)
  | 4 =>
    let r := FVal.fma ra.1 rb.1 rc.1
    (.exact r.1, (ab.join rc.2).join (invalidIf r.2))
  | 5 => (.exact (ra.1.max rb.1), ab)
  | 6 => (.exact (ra.1.min rb.1), ab)
  | 7 => (.bits ⟨if nan then Fmt.nan .b32 else a.bits % 2 ^ 31, false⟩, .none)
  | 8 => (.bits ⟨if nan then Fmt.nan .b32 else a.bits ^^^ 2 ^ 31, false⟩, .none)
  | 9 => un FVal.rcp
  | 10 => un FVal.rsq
  | 11 => if expOverflows ra.1 then (.exact (.inf false), ra.2.join .overflow) else un FVal.exp
  | 12 => un FVal.log
  | 13 => (cmpRes (ra.1.lt rb.1), ab)
  | 14 => (cmpRes (ra.1.eq rb.1), ab)
  | 15 => (cmpRes (!(ra.1.eq rb.1)), ab)
  | 16 =>
    let nz := if c.isInt then c.bits != 0 else c.bits % 2 ^ 31 != 0
    (.bits ⟨if nz then a.bits else b.bits, a.isInt⟩, .none)
  | 17 => int (a.bits + b.bits)
  | 18 => int (wrapN 32 ((a.bits : Int) - b.bits))
  | 19 => int (a.bits * b.bits)
  | 20 => int (a.bits &&& b.bits)
  | 21 => int (a.bits ||| b.bits)
  | 22 => int (a.bits ^^^ b.bits)
  | 23 => int (a.bits <<< (b.bits % 32))
  | 24 => int (a.bits >>> (b.bits % 32))
  | 25 => int (wrapN 32 (sext 32 a.bits / (2 ^ (b.bits % 32) : Nat)))
  | 26 =>
    let i := sext 32 a.bits
    (.exact (.fin (i < 0) i.natAbs 0), .none)
  | _ =>
    let (n, e) := roundI 32 .rne ra.1
    (.bits ⟨n, true⟩, ra.2.join e)

/-- A result rounded to binary32 by nearest even, as every step but a narrow last one gives it (R83). -/
def stepFinal (keep : Bool) (r : StepRes) : SVal × Events :=
  match r with
  | .bits v => (v, .none)
  | .exact v =>
    let (n, e) := rneB32 keep v
    (⟨n, false⟩, e)

/-- The operand a 4-bit selector names (R123): an earlier step, an input stream, or the immediate. -/
def stepArg (done : List SVal) (ins : List SVal) (imm sel : Nat) (immInt : Bool) : SVal :=
  if sel < 12 then nth done sel ⟨0, false⟩
  else if sel < 15 then nth ins (sel - 12) ⟨0, false⟩
  else ⟨imm, immInt⟩

/-- The class an immediate takes (R124): integer for the integer functions and ITOF, else floating; as the operand c of SEL it takes
the class of a. -/
def immIsInt (fn : Nat) : Bool := 17 ≤ fn && fn ≤ 26

/-- Run the steps of a program; `done` holds the earlier results, the newest first. The last step's
result is left unrounded. -/
def runSteps (keep : Bool) (ins : List SVal) (done : List SVal) (steps : List UStep) : StepRes × Events :=
  match steps with
  | [] => (.bits (nth done 0 ⟨0, false⟩), .none)
  | st :: r =>
    let i := immIsInt st.fn
    let a := stepArg done ins st.imm st.a i
    let b := stepArg done ins st.imm st.b i
    let c := stepArg done ins st.imm st.c (if st.fn = 16 then a.isInt else i)
    let (x, e) := stepFn keep st.fn a b c
    if r.isEmpty then (x, e)
    else
      let (v, e') := stepFinal keep x
      let (y, e'') := runSteps keep ins (v :: done) r
      (y, (e.join e').join e'')

/-- A stream input widened exactly to binary32 or to a 32-bit integer (R86, R94, R124). -/
def widen (f : Fmt) (n : Nat) : SVal :=
  if f.isInt then ⟨wrapN 32 (sext (8 * f.bytes) n), true⟩
  else if f = .b32 then ⟨n, false⟩
  else ⟨(roundF .b32 .rne false false (FVal.decode f n)).1, false⟩

/-- Whether the final conversion of a stream is one to which the selected mode applies, and so draws under
stochastic rounding (R96, R126). -/
def streamDraws (r : StepRes) (out : Fmt) : Bool :=
  match r with
  | .bits v => v.isInt || out != .b32
  | .exact _ => out != .b32

/-- The final conversion of a stream's last result (R95, R126). -/
def streamOut (keep : Bool) (out : Fmt) (mode : Mode) (sat : Bool) (r : StepRes) : Nat × Events :=
  match r with
  | .bits v =>
    if v.isInt then
      let x := FVal.decode .i16 0
      let i := sext 32 v.bits
      let val := if v.bits = 0 then x else FVal.fin (i < 0) i.natAbs 0
      if out.isInt then roundTo out mode sat (!keep) val
      else if out = .b32 then roundTo out mode sat (!keep) val
      else roundTo out mode sat (!keep) (FVal.decode .b32 (rtoB32 val))
    else if out = .b32 then (v.bits, .none)
    else roundTo out mode sat (!keep) (FVal.decode .b32 v.bits)
  | .exact v =>
    if out = .b32 then rneB32 keep v
    else roundTo out mode sat (!keep) (FVal.decode .b32 (rtoB32 v))

/-- Clip (R103): NaN passes through. -/
def clipVal (on : Bool) (lo hi : Nat) (x : FVal) : FVal :=
  if on && x != .nan then (x.max (FVal.decode .b32 lo)).min (FVal.decode .b32 hi) else x

/-- Binary32 bits of a value that is already a binary32 value. -/
def exactB32 (v : FVal) : Nat := (roundF .b32 .rtz false false v).1

/-- One word of a drain (R103): the element written, and the binary32 value before the final rounding that
R154 compares, with the word's events: those of its product with the scale and its sum with the bias (a NaN word is invalid there,
R85) and of its rounding. -/
def drainWord (keep isInt : Bool) (d : DrainSet) (bias : Nat) (out : Fmt) (mode : Mode) (sat : Bool) (w : Nat) :
    Nat × Nat × Events :=
  let (x, e0) :=
    if isInt then
      let i := sext 32 w
      (FVal.fin (i < 0) i.natAbs 0, Events.none)
    else readF keep .b32 w
  let (t, inv) := FVal.fma x (FVal.decode .b32 d.scale) (FVal.decode .b32 bias)
  let e1 := e0.join (invalidIf inv)
  if out = .b32 then
    let (u, e2) := roundF .b32 mode sat (!keep) t
    let y := exactB32 (clipVal d.clip d.lo d.hi (FVal.decode .b32 u))
    (y, y, e1.join e2)
  else
    let c := exactB32 (clipVal d.clip d.lo d.hi (FVal.decode .b32 (rtoB32 t)))
    let (y, e2) := roundTo out mode sat (!keep) (FVal.decode .b32 c)
    (y, c, e1.join e2)

/-- A row of a drain (R103). -/
def drainRow (keep isInt : Bool) (d : DrainSet) (bias : List Nat) (out : Fmt) (modes : List Mode) (sat : Bool)
    (ws : List Nat) : List (Nat × Nat) × Events :=
  mapEv (fun j =>
    let (y, v, e) := drainWord keep isInt d (nth bias j 0) out (nth modes j .rne) sat (nth ws j 0)
    ((y, v), e)) (List.range 32)

/-- Magnitude at or above a threshold, or NaN (R154). -/
def significant (thr v : Nat) : Bool :=
  match FVal.decode .b32 v with
  | .nan => true
  | .inf _ => true
  | .fin _ m e => !(FVal.lt (.fin false m e) (FVal.decode .b32 thr))

end Sys2Proof.Machine
end

