-- ==== Sys2Proof/Machine/SchState.lean ====
section
/-!
DEFINITION. The state of one sector's task scheduler (chapter 06): queues, dependence counters, tickets,
flows, held completions, submissions on their way, the inbound buffer and the delay lists.
-/
namespace Sys2Proof.Machine

/-- A descriptor held in a queue or waiting to enter it: its number in the order of submission, its 64 bytes, the tag
field already written (R166), and whether it entered with a stale ticket and is never handed over (R175). -/
structure Desc where
  n : Nat
  bytes : List Byte
  stale : Bool
  deriving DecidableEq, Repr

/-- Where a submission comes from (R168): a SUBMIT, a forward made at a release, the preload list of a sector, a host
command, another part, or a delay list. -/
inductive SubSrc where
  | core | forward | preload (sector : Nat) | host | remote | delay
  deriving DecidableEq, Repr

/-- A submission on its way to its target sector: the queue within the sector and the descriptor with its
tag written. -/
structure Sub where
  queue : Nat
  src : SubSrc
  bytes : List Byte
  deriving DecidableEq, Repr

/-- A queue in the current frame (R165): closed, violated, holding a stale ticket (R175), its ready
descriptors in the order they entered and those waiting on a counter. -/
structure Queue where
  closed : Bool
  violated : Bool
  stale : Bool
  ready : List Desc
  waiting : List Desc
  deriving DecidableEq, Repr

/-- A queue at the start of a frame (R165). -/
def Queue.reset : Queue := ⟨false, false, false, [], []⟩

/-- A flow: its next sequence number, and whether a window violation stopped it (R178, R180). -/
structure Flow where
  next : Nat
  broken : Bool
  deriving DecidableEq, Repr

/-- A flow at cycle 0 (R178). -/
def Flow.reset : Flow := ⟨0, false⟩

/-- A completion awaiting release (R177): the copy DONE named, the pair of the DONE and its core. -/
structure Completion where
  bytes : List Byte
  pair : Nat
  core : Nat
  deriving DecidableEq, Repr

/-- An entry of a delay list (R181, R182): due time, frame kind, queue, ticket, and its slot of the delay
store. -/
structure DelayEntry where
  due : Nat
  kind : Nat
  queue : Nat
  ticket : Nat
  slot : Nat
  deriving DecidableEq, Repr

/-- The scheduler of a sector. `delaySaved` is the delay lists as the last committed frame left them: what
a replay verdict returns to (R183). `preloaded` says that the preload list and the host descriptors are on their way, `loaded` that the
last of them has been submitted (R184). `dcZero` lists the counters that have reached zero and whose waiting
descriptors have yet to enter (R172). -/
structure Sched where
  queues : Sparse Queue
  dc : Sparse Nat
  h : Sparse Nat
  flows : Sparse Flow
  held : List Completion
  subs : List Sub
  inbound : List Sub
  dcZero : List Nat
  preloaded : Bool
  loaded : Bool
  nextN : Nat
  delay : List DelayEntry
  delaySaved : List DelayEntry
  deriving DecidableEq, Repr

/-- A scheduler at reset: nothing queued, every counter zero. -/
def Sched.reset : Sched := ⟨[], [], [], [], [], [], [], [], false, false, 0, [], []⟩

end Sys2Proof.Machine
end

