-- ==== Sys2Proof/Machine/UnitState.lean ====
section
/-!
DEFINITION. The state of one sector's sampler, gather–scatter engine and table unit (chapters 07 and 08): the
request queues, the running requests with the rows they wait for, and the row cache.
-/
namespace Sys2Proof.Machine

/-- A request as a UREQ hands it over (R131, R189): an identity of the model's own, the unit, the issuing core,
the counter to signal, the pair, the descriptor copy with the poison it carries, and the first press slot a row scatter was given
(R258) or the place in the working area a sampler request was given (R206). -/
structure Ureq where
  id : Nat
  unit : Nat
  core : Nat
  ev : Option Nat
  pair : Nat
  desc : List Byte
  poison : Option Nat
  slot : Option Nat
  deriving DecidableEq, Repr

/-- One distinct row a running request waits for (R211): its table, owner and key, the output rows that take
it (by index), whether it was asked of another part and by which request tag and place in it, and the decoded row once it is here. `kind` is 0 for a
row, 1 for the default row of a missing key, 2 for an invalid key (R231), 3 for a row that joins a fetch in flight for another request
(R211). -/
structure RowFetch where
  table : Nat
  owner : Nat
  key : Nat
  outs : List Nat
  remote : Bool
  ref : Nat
  pos : Nat
  kind : Nat
  arrived : Bool
  row : Option (List Byte)
  poison : Option Nat
  deriving DecidableEq, Repr

/-- A running request (R189): its status and counts for the record of R193, the rows it waits for, and the
header a sampler request writes last (R205), or the offsets and weights a lookup has read (R237). -/
structure RunReq where
  req : Ureq
  status : Nat
  done : Nat
  fetched : Nat
  remote : Nat
  fetches : List RowFetch
  header : List Byte
  deriving DecidableEq, Repr

/-- One entry of the row cache (R240 to R243): its tag, and for a row of this part the local address ranges it came
from. -/
structure RcEntry where
  valid : Bool
  table : Nat
  owner : Nat
  key : Nat
  seg : Nat
  vintage : Nat
  freq : Nat
  src : List (Nat × Nat)
  bytes : List Byte
  deriving DecidableEq, Repr

/-- An invalid entry. -/
def RcEntry.empty : RcEntry := ⟨false, 0, 0, 0, 0, 0, 0, [], []⟩

/-- The request units of a sector. `rcLookups` counts lookups since the last halving (R242); `ahead` lists the
rows run-ahead has asked of other parts (R214). Requests are numbered from 1. -/
structure Units where
  smpQ : List Ureq
  gatQ : List Ureq
  scaQ : List Ureq
  lkpQ : List Ureq
  running : List RunReq
  nextId : Nat
  nextRef : Nat
  rc : Sparse RcEntry
  rcLookups : Nat
  ahead : List RowFetch
  deriving DecidableEq, Repr

/-- Nothing queued, nothing cached. -/
def Units.reset : Units := ⟨[], [], [], [], [], 0, 0, [], 0, []⟩

end Sys2Proof.Machine
end

