-- ==== Sys2Proof/Machine/PressState.lean ====
section
/-!
DEFINITION. The state of one sector's scatter press and optimiser update units (chapter 09).
-/
namespace Sys2Proof.Machine

/-- A contribution to a row (R263): the table, the local row at its owner, where it comes from, the pair it
carries, its binary32 elements, and the poison it carries (R270). -/
structure Contribution where
  table : Nat
  row : Nat
  chip : Nat
  sector : Nat
  pair : Nat
  vals : List Nat
  poison : Option Nat
  deriving DecidableEq, Repr

/-- A composed contribution (R266): the table, the sub-table (0 for A, 1 for B), its row, the source local row. -/
structure Composed where
  table : Nat
  sub : Nat
  subRow : Nat
  src : Nat
  pair : Nat
  vals : List Nat
  poison : Option Nat
  deriving DecidableEq, Repr

/-- A row with its merged gradient, ready for its row job (R271): `kind` is 0 for a table row, 1 and 2 for a row
of sub-table A and B. -/
structure RowJob where
  table : Nat
  kind : Nat
  x : Nat
  pair : Nat
  vals : List Nat
  poison : Option Nat
  deriving DecidableEq, Repr

/-- The press of a sector: the records in its record log in the staging area (R268), slots allocated to each core (R258), sort records in
the order of acceptance (R259, R260), the pair of each entry by slot, the logged and recorded contributions,
the composed run, the merged rows of mode-1 tables still to be written, whether the gradient arrays are clear,
and whether a run limit stopped the press (R268). -/
structure Press where
  logged : Nat
  alloc : Sparse Nat
  recs : List Nat
  pairs : Sparse Nat
  sent : Bool
  owner : List Contribution
  composed : List Composed
  ownerDone : Bool
  composedDone : Bool
  cleared : Bool
  stopped : Bool
  jobs : List RowJob
  deriving DecidableEq, Repr

/-- A press in which nothing has been accepted. -/
def Press.reset : Press := ⟨0, [], [], [], false, [], [], false, false, false, false, []⟩

/-- The optimiser units of a sector: for each unit, the block descriptors of its list already run in the frame
(by index), and which mode-1 rows have had their job. -/
structure Optim where
  blk0 : Nat
  blk1 : Nat
  rows1 : Sparse Bool
  deriving DecidableEq, Repr

/-- No job run. -/
def Optim.reset : Optim := ⟨0, 0, []⟩

end Sys2Proof.Machine
end

