-- ==== Sys2Proof/Machine/FabState.lean ====
section
/-!
DEFINITION. The state of the fabric router and links (chapter 11): ports with their replay buffers, bundles,
the flag windows at a source and at a destination, open blocks, and messages on their way out.
-/
namespace Sys2Proof.Machine

/-- A control message (R350): a tick token with the contents of R17, a hold notice (R44), a tick-path probe with
the latency it has summed (R351), or a freeze (R353). -/
inductive CtlMsg where
  | token (t : TokenMsg)
  | holdNotice
  | probe (standby : Bool) (latency hops : Nat)
  | freeze
  deriving DecidableEq, Repr

/-- A packet sent and not acknowledged (R344): its link sequence number, its virtual channel (R336), and how often it has been resent. -/
structure Sent where
  seq : Nat
  vc : Nat
  resent : Nat
  pkt : Packet
  deriving DecidableEq, Repr

/-- A packet that waits for a port of a bundle, with its virtual channel, and its sequence number where a port that failed had sent it. -/
structure Waiting where
  bundle : Nat
  vc : Nat
  seq : Option Nat
  pkt : Packet
  deriving DecidableEq, Repr

/-- The authentication of a port as its stage began (R331, R471): the challenge sent, and the policy in force. -/
structure AuthStage where
  challenge : List Byte
  minSvn : Nat
  ownerMatch : Bool
  deriving DecidableEq, Repr

/-- What a link sends back for a packet (R344): the port it leaves by, an acknowledgement or a rejection, and the sequence number. -/
structure LinkReply where
  port : Nat
  ok : Bool
  seq : Nat
  deriving DecidableEq, Repr

/-- A copy of a control message as it leaves (R350): bundle and port, cycle, correction field, and whether it is the second copy. -/
structure CtlOut where
  bundle : Nat
  port : Nat
  cycle : Nat
  head : CtlHead
  msg : CtlMsg
  deriving DecidableEq, Repr

/-- A wave of probes (R351): the cycle its first copy came at, and the least latency seen. -/
structure Wave where
  since : Nat
  best : Nat
  deriving DecidableEq, Repr

/-- A link port: its replay buffer (R344), how many fast retrains the frame has seen, whether a full retrain is in progress (R345),
its authentication in progress, and the bytes it has sent in authentication: challenges, and chain and signature (R331). -/
structure Port where
  replay : List Sent
  fasts : Nat
  full : Bool
  auth : Option AuthStage
  sent : List (List Byte)
  deriving DecidableEq, Repr

/-- A port with nothing in it. -/
def Port.reset : Port := ⟨[], 0, false, none, []⟩

/-- A bundle's link sequence numbers (R344): the next one to send, those already received, and the lowest not received. -/
structure Bundle where
  tx : Nat
  rx : List Nat
  next : Nat
  deriving DecidableEq, Repr

/-- A bundle at reset. -/
def Bundle.reset : Bundle := ⟨0, [], 0⟩

/-- The flag window toward a destination (R342): its number, the counted packets sent in it, the flagged
packets not acknowledged (window and kind), whether counted packets were sent at all, and whether the
accounting packet has been sent. -/
structure TxWin where
  w : Nat
  n : Nat
  unacked : List (Nat × Nat)
  counted : Bool
  acctSent : Bool
  deriving DecidableEq, Repr

/-- The windows toward a destination at cycle 0 (R342). -/
def TxWin.reset : TxWin := ⟨0, 0, [], false, false⟩

/-- The flag windows from a source (R342): the next window to deliver, the arrivals of each open window, and
the flagged packets held. -/
structure RxWin where
  next : Nat
  arrived : Sparse Nat
  held : List Packet
  deriving DecidableEq, Repr

/-- The windows from a source at cycle 0 (R342). -/
def RxWin.reset : RxWin := ⟨0, [], []⟩

/-- A block whose segments are arriving (R334). -/
structure OpenBlock where
  src : Nat
  kind : Nat
  block : Nat
  total : Nat
  segs : Sparse (List Byte)
  poison : Sparse Nat
  deriving DecidableEq, Repr

/-- The fabric. `txq` holds packets the part's units have sent and the hub has not injected; `fwd` packets that wait for a port of
their bundle; `rx` delivered packets that wait for their unit's step; `waitIn` flagged packets that found the hold buffer full and wait
in their input buffer (R343); `linkOut` what the links have sent back; `ctlOut` the control messages sent; `firstCopy`, by bundle, the
control message whose first copy was used (R350); `probes` and `probesStandby` the latencies and depths of R351, by bundle, and `waves`
the two waves; `rerouted` and `reroutedS` that the second parent has taken the parent's place in the tick master's tree and in the
standby's, and `standbyTree` that the standby's tree is followed (R35, R352); `accounted` that the frame's accounting has been sent
(R347). -/
structure Fabric where
  ports : Sparse Port
  bundles : Sparse Bundle
  txWin : Sparse TxWin
  rxWin : Sparse RxWin
  blocks : List OpenBlock
  nextBlock : Sparse Nat
  txq : List Packet
  fwd : List Waiting
  rx : List Packet
  waitIn : List Packet
  linkOut : List LinkReply
  ctlOut : List CtlOut
  firstCopy : Sparse (Option CtlMsg)
  probes : Sparse (Nat × Nat)
  probesStandby : Sparse (Nat × Nat)
  waves : Sparse Wave
  probing : Bool
  rerouted : Bool
  reroutedS : Bool
  standbyTree : Bool
  accounted : Bool
  lossFrom : List Nat
  frozenSeen : Bool
  idInForce : Nat
  topoInForce : Nat
  deriving DecidableEq, Repr

/-- A fabric with every port down. -/
def Fabric.reset : Fabric :=
  { ports := [], bundles := [], txWin := [], rxWin := [], blocks := [], nextBlock := [], txq := [], fwd := [], rx := [], waitIn := [],
    linkOut := [], ctlOut := [], firstCopy := [], probes := [], probesStandby := [], waves := [], probing := false, rerouted := false,
    reroutedS := false, standbyTree := false, accounted := false, lossFrom := [], frozenSeen := false, idInForce := 0, topoInForce := 0 }

end Sys2Proof.Machine
end

