-- ==== Sys2Proof/Machine/RedState.lean ====
section
/-!
DEFINITION. The state of the reduction engine and of the twin mirror unit (chapter 12).
-/
namespace Sys2Proof.Machine

/-- A piece of a one-bit contribution an owner has received (R367): source, first element, sign bits, scale, and poison. -/
structure OneBit where
  src : Nat
  first : Nat
  bits : List Bool
  scale : Nat
  poison : Option Nat
  deriving DecidableEq, Repr

/-- A bucket in flight (R360 to R367): the stage RED_BKT_STATE shows, the step within the stage, the values of the range the
part holds in the current dimension, the poison tokens by granule of eight elements of the bucket (R371),
the blocks that have arrived in scratch or output as (header stage, step, first element, count), the contributions an owner
holds, the output elements written, whether its last block is sent, and whether it has written poison. -/
structure Bucket where
  stage : Nat
  step : Nat
  vals : List Nat
  poison : Sparse Nat
  got : List (Nat × Nat × Nat × Nat)
  contribs : List OneBit
  written : Nat
  sent : Bool
  poisonSeen : Bool
  deriving DecidableEq, Repr

/-- A bucket not in flight. -/
def Bucket.reset : Bucket := ⟨0, 0, [], [], [], [], 0, false, false⟩

/-- A raw line for the twin waiting to be sent (R375): its kind, its address and line, and whether it is poison. -/
structure TwinRec where
  kind : Nat
  payload : List Byte
  poison : Nat
  deriving DecidableEq, Repr

/-- A window of the twin partner onto the mirror area held here (R373): base on the partner, size in 4 KiB
granules, and the mirror address on this part. -/
structure MirWin where
  base : Nat
  granules : Nat
  mirror : Nat
  deriving DecidableEq, Repr

/-- The twin mirror unit. `ack` is 0 until an answer to the end marker arrives, 1 for an acknowledgement and 2 for
a gap answer (R377). `carry` lists the lines of `out` that stood in it when the frame began. -/
structure Twin where
  out : List TwinRec
  carry : List TwinRec
  seq : Nat
  recs : Nat
  bytes : Nat
  endSent : Bool
  ack : Nat
  rxNext : Nat
  rxRecs : Nat
  rxBytes : Nat
  partner : List MirWin
  partnerSeen : Bool
  restoring : Bool
  deriving DecidableEq, Repr

/-- A twin unit with nothing sent and no partner known. -/
def Twin.reset : Twin := ⟨[], [], 0, 0, 0, false, 0, 0, 0, 0, [], false, false⟩

end Sys2Proof.Machine
end

