-- ==== Sys2Proof/Machine/HifState.lean ====
section
/-!
DEFINITION. The state of the host interface (chapter 13): command queues, decoders, accepted descriptors, the
block inbox, and the host's own memory as the part sees it.
-/
namespace Sys2Proof.Machine

/-- A command fetched from a submission ring (R401, R402): its 64 bytes, the ring head after it was fetched, and
whether its line was poisoned (R399), whether it has started; once it has ended, its status and result (R405, R406) with
the tick count and frame number at its end. -/
structure HostCmd where
  bytes : List Byte
  head : Nat
  poisoned : Bool
  running : Bool
  status : Nat
  result : Nat
  tick : Nat
  frame : Nat
  deriving DecidableEq, Repr

/-- A command queue beside its registers: the commands fetched and not ended, those that ended and whose record
waits to be written, in the order they ended, the phase of the next record, how many records the host has not returned
(R407), and whether the queue is in error (R401). -/
structure CmdQueue where
  cmds : List HostCmd
  ended : List HostCmd
  phase : Bool
  unret : Nat
  qerr : Bool
  deriving DecidableEq, Repr

/-- A queue after a reset: empty, phase 1 (R407). -/
def CmdQueue.reset : CmdQueue := ⟨[], [], true, 0, false⟩

/-- A descriptor accepted for a target frame (R408). -/
structure Accepted where
  q : Nat
  frame : Nat
  queue : Nat
  bytes : List Byte
  deriving DecidableEq, Repr

/-- A block held by an inbox slot (R412 to R415): slot, target frame, index, length in bytes, whether it has been
delivered in this attempt, whether it is late, and the committed frames a late block is still held for. -/
structure HeldBlock where
  slot : Nat
  frame : Nat
  index : Nat
  len : Nat
  delivered : Bool
  late : Bool
  left : Nat
  deriving DecidableEq, Repr

/-- An HDM decoder (R396): host base, size, skip, and the two result bits of its commit. -/
structure Hdm where
  base : Nat
  size : Nat
  skip : Nat
  committed : Bool
  error : Bool
  deriving DecidableEq, Repr

/-- A decoder at reset. -/
def Hdm.reset : Hdm := ⟨0, 0, 0, false, false⟩

/-- The host interface. `mem` and `memPoison` are host memory, as the part's own writes and the host's stores
leave it; `deniedRead` and `deniedWrite` say that the first denial of the frame has had its record (R397);
`snoops` counts the RspIHitI answers (R391); `lastRead` and `lastPoison` are what the last CXL.mem read returned;
`statusDue` says that the tick's status record has not been written, and `summary` holds its block bits (R409). -/
structure Hif where
  queues : Sparse CmdQueue
  accepted : List Accepted
  blocks : Sparse (List HeldBlock)
  mem : Sparse Byte
  memPoison : Sparse Bool
  hdm0 : Hdm
  hdm1 : Hdm
  memInfoValid : Bool
  memActive : Bool
  busMaster : Bool
  linkUp : Bool
  deniedRead : Bool
  deniedWrite : Bool
  snoops : Nat
  lastRead : List Byte
  lastPoison : Bool
  statusDue : Bool
  summary : Nat
  deriving DecidableEq, Repr

/-- The host interface at reset: every queue disabled, nothing held, Bus Master Enable 0.
DESIGN CHOICE (log 7, unsafe): Host memory: a byte that neither the host nor the part has written reads 0. -/
def Hif.reset : Hif :=
  ⟨[], [], [], [], [], .reset, .reset, false, false, false, false, false, false, 0, [], false, false, 0⟩

end Sys2Proof.Machine
end

