-- ==== Sys2Proof/Machine/MgtState.lean ====
section
/-!
DEFINITION. The state of the management and security controller (chapter 15), of power, reset and clocks
(chapter 17), of the fuses (R455) and of the non-volatile store (R454).
-/
namespace Sys2Proof.Machine

/-- A P-256 public key. -/
structure PubKey where
  x : Nat
  y : Nat
  deriving DecidableEq, Repr

/-- The fuses (R455, R4, R5): the unique device secret, the digests of the Tardin root key and of the two
firmware signing keys with their revocation fuses, the thermometer code of the minimum security version, the
grade (true: FN-6144), and the spare cores that test found in each of the four sectors. `romKey0` and `romKey1` are the firmware signing keys as the
boot ROM holds them, which the digests are taken of. -/
structure Fuses where
  uds : BitVec 256
  root : BitVec 256
  fwKey0 : BitVec 256
  fwKey1 : BitVec 256
  romKey0 : PubKey
  romKey1 : PubKey
  revoked0 : Bool
  revoked1 : Bool
  svnBits : Dword
  big : Bool
  spares0 : Nat
  spares1 : Nat
  spares2 : Nat
  spares3 : Nat
  deriving DecidableEq, Repr

/-- A firmware slot: its bytes as written, and whether it has been marked invalid (R460). -/
structure FwSlot where
  bytes : List Byte
  usable : Bool
  deriving DecidableEq, Repr

/-- An erased slot. -/
def FwSlot.empty : FwSlot := ⟨[], false⟩

/-- The non-volatile store (R454). -/
structure Nv where
  slotA : FwSlot
  slotB : FwSlot
  preferred : Bool
  trial : Bool
  trialBoots : Nat
  cert : List Byte
  owner : Option (BitVec 256)
  key0 : Option PubKey
  key1 : Option PubKey
  key2 : Option PubKey
  key3 : Option PubKey
  signedOnly : Bool
  linkOwnerMatch : Bool
  linkMinSvn : Nat
  deriving DecidableEq, Repr

/-- A message the controller sends: its transport and bytes. -/
structure MgtMsg where
  via : Transport
  bytes : List Byte
  deriving DecidableEq, Repr

/-- What the controller keeps of an SPDM connection on one transport (R466, R469): how far negotiation has come
(0 nothing, 1 version, 2 capabilities, 3 algorithms), the messages so far, whether a session is being opened or is open
with mutual authentication, and the time of its last message. -/
structure Spdm where
  stage : Nat
  opening : Bool
  mutAuth : Bool
  session : Bool
  last : Nat
  eid : Nat
  deriving DecidableEq, Repr

/-- No connection. -/
def Spdm.reset : Spdm := ⟨0, false, false, false, 0, 0⟩

/-- The running firmware (R456, R461): version, security version, and the digest of header and body. -/
structure Firmware where
  version : Nat
  svn : Nat
  digest : List Byte
  deriving DecidableEq, Repr

/-- The controller: the running image and its recovery state, the update in progress (R460), the connections,
messages sent, keys and policy as the loader sees them and as it will from the next tick (R472), with what measurement 4 is taken over (R470), the image that recovery holds in SRAM
(R458), the owner digest and the minimum security version in the alias certificate (R462), limits, telemetry and stretch state (R473, R476)
and the last moment any die sensor was above hold_c − 10 (R477). `energy` holds the frame's input energy in nJ
by the microsecond it ended, newest first; `temps` the die sensors by index. -/
structure Mgt where
  fw : Option Firmware
  ready : Bool
  afterTrial : Bool
  stopped : Bool
  updLen : Option Nat
  updAt : Nat
  updOk : Bool
  smb : Spdm
  cxl : Spdm
  out : List MgtMsg
  keys : List (Option PubKey)
  signedOnly : Bool
  nextKeys : List (Option PubKey)
  nextSigned : Bool
  pol : List Byte
  polNext : List Byte
  sram : List Byte
  ownerCert : Option (BitVec 256)
  certMin : Nat
  ownerW : Nat
  hostW : Nat
  dieC : Nat
  hbmC : Nat
  holdC : Nat
  temps : Sparse Nat
  hbmTemps : Sparse Nat
  stageTemps : Sparse Nat
  energy : List (Nat × Nat)
  peak : Nat
  guardMw : Option Nat
  extT : Nat
  thermHold : Bool
  coolSince : Nat
  chain6 : List Byte
  aliasKey : Option PubKey
  deriving DecidableEq, Repr

/-- The controller at part reset. -/
def Mgt.reset : Mgt :=
  { fw := none, ready := false, afterTrial := false, stopped := false, updLen := none, updAt := 0, updOk := false,
    smb := .reset, cxl := .reset, out := [], keys := [none, none, none, none], signedOnly := false, nextKeys := [none, none, none, none],
    nextSigned := false, pol := [], polNext := [], sram := [],
    ownerCert := none, certMin := 0, ownerW := 900, hostW := 0, dieC := 100, hbmC := 95, holdC := 110,
    temps := [], hbmTemps := [], stageTemps := [], energy := [], peak := 0, guardMw := none, extT := 0,
    thermHold := false, coolSince := 0, chain6 := List.replicate 32 0, aliasKey := none }

/-- The TAP (R546): the instruction in force and the levels a boundary-scan instruction drives. -/
structure Tap where
  ir : Nat
  sample : List Byte
  driven : List Byte
  out : List Byte
  deriving DecidableEq, Repr

/-- The TAP after its reset: IDCODE selected (IEEE 1149.1). -/
def Tap.reset : Tap := ⟨0, [], [], []⟩

/-- Power, reset, clocks and pins beside the PWR registers: whether the rails are up, whether HBM is trained, the cycles the supply hold was
sent and the holds are next repeated, when the input rose to 36.0 V, the pins the part drives, the input levels of the GPIO pins, and the
TAP. -/
structure Power where
  up : Bool
  hbmTrained : Bool
  holdAt : Nat
  repeatAt : Nat
  thermRepeatAt : Nat
  recoverAt : Option Nat
  tickOut : Nat
  freezeOut : Bool
  tripOut : Bool
  gpioIn : Nat
  tap : Tap
  deriving DecidableEq, Repr

/-- An unpowered part. -/
def Power.reset : Power := ⟨false, false, 0, 0, 0, none, 0, false, false, 0, .reset⟩

end Sys2Proof.Machine
end

