-- ==== Sys2Proof/Machine/ObsState.lean ====
section
/-!
DEFINITION. The state of the observation and integrity unit (chapter 16): error records, trace, attribution,
duplication, self-test, freeze and the full test.
-/
namespace Sys2Proof.Machine

/-- An error record (R496) without its signature, which is computed from it (R498). -/
structure ErrRec where
  seq : Nat
  chip : Nat
  block : Nat
  event : Nat
  severity : Nat
  sector : Nat
  core : Nat
  tick : Nat
  frame : Nat
  pair : Nat
  cycle : Nat
  addr : Nat
  aux : Nat
  char0 : Nat
  char1 : Nat
  loc0 : Nat
  loc1 : Nat
  count : Nat
  deriving DecidableEq, Repr

/-- A trace record (R509). -/
structure TraceRec where
  cycle : Nat
  pair : Nat
  kind : Nat
  sector : Nat
  core : Nat
  a : Nat
  b : Nat
  deriving DecidableEq, Repr

/-- What an attempt adds to one entry of the pair table (R507, R508). -/
structure PairAcc where
  poisoned : Bool
  mismatch : Bool
  mac : Nat
  vec : Nat
  hbm : Nat
  fab : Nat
  pcons : Nat
  dmis : Nat
  deriving DecidableEq, Repr

/-- Nothing counted. -/
def PairAcc.zero : PairAcc := ⟨false, false, 0, 0, 0, 0, 0, 0⟩

/-- A captured pass (R489): its fields, the tile as loaded and the moving rows. -/
structure CapPass where
  op : PassOp
  tile : Tile
  rows : List (List Nat)
  keep : Bool
  deriving DecidableEq, Repr

/-- A sampled group in a sector's duplication area (R488 to R492): where it came from, its passes, and once it has
drained the drain, its set, its bias vector, the draws and the rows as written. `stage` is 0 while it gathers
passes, 1 while it waits for a spare, 2 when a first spare has found a mismatch; `spare` is that spare and
`result1` the rows it computed. -/
structure DupCap where
  core : Nat
  group : Nat
  n : Nat
  frame : Nat
  tick : Nat
  pair : Nat
  passes : List CapPass
  drain : Option DrainOp
  pset : DrainSet
  bias : List Nat
  keep : Bool
  draws : List (List Nat)
  rows : List (List Nat)
  bytes : Nat
  stage : Nat
  spare : Nat
  result1 : List Byte
  deriving DecidableEq, Repr

/-- A loaded test-pattern package (R504, R505): its digest and its patterns, as (number, section bytes). -/
structure TestPack where
  digest : List Byte
  patterns : List (Nat × List Byte)
  bad : Bool
  deriving DecidableEq, Repr

/-- What the next integrity notice about a frame reports (R494): the frame, the four counts, and the sequence number and signature of
the first record. -/
structure Note where
  frame : Nat
  prim : Nat
  res : Nat
  test : Nat
  undec : Nat
  first : Nat
  sig : List Byte
  deriving DecidableEq, Repr

/-- The observation and integrity unit. `recs` holds the records of the ring, newest first; `distinct` counts the
records the attempt has written and `first` the sequence number they start after. `stage` holds trace records not yet in HBM, `pairs`
what the attempt has counted, `dups` the captures and `retired` the spares retired by sector. `notes` gather the next
integrity notices (R494); `noticeFrame` and `noticeFrom` are the latest notified frame and the parts that named it, and `scanOut`
is what the last read of OBS_SCAN_DATA returned (R515). -/
structure Obs where
  recs : List ErrRec
  distinct : Nat
  first : Nat
  stage : Sparse (List TraceRec)
  pairs : Sparse PairAcc
  poisonJobs : List Nat
  dups : Sparse (List DupCap)
  retired : Sparse (List Nat)
  notes : List Note
  noticeFrame : Nat
  noticeFrom : List Nat
  frozen : Bool
  clearPending : Bool
  testQueued : Bool
  packs : List TestPack
  scanOut : List Byte
  deriving DecidableEq, Repr

/-- Nothing recorded. -/
def Obs.reset : Obs :=
  { recs := [], distinct := 0, first := 0, stage := [], pairs := [], poisonJobs := [], dups := [], retired := [], notes := [],
    noticeFrame := 0, noticeFrom := [], frozen := false, clearPending := false, testQueued := false, packs := [], scanOut := [] }

end Sys2Proof.Machine
end

