-- ==== Sys2Proof/Machine/RegMap.lean ====
section
/-!
DEFINITION. The registers of the part (R47, R77, R108, R162, R187, R221, R223, R256, R286, R287, R322, R323, R356, R385, R386,
R420, R452, R481, R519 to R521, R549), at the BAR0 offsets of R394. A register of a sector takes the
sector, a register of a core its logical core identifier (R3). `hubRows`, `secRows` and `coreRows` give every
register's place, width, reset value and the bits that each access code of R15 lets software write.
-/
namespace Sys2Proof.Machine

/-- The window of sector `s` (R394). -/
def secBase (s : Nat) : Nat := 0x2000000 + 0x800000 * s

/-- The sub-block of logical core `c` (R3, R77). -/
def corBase (c : Nat) : Nat := secBase (c / 2048) + 0x400 * (c % 2048)

/-- TIK_CTRL (R47). -/
def TIK_CTRL : Nat := 0x20000
/-- TIK_STATUS (R47). -/
def TIK_STATUS : Nat := 0x20004
/-- TIK_FRAME_LEN (R47). -/
def TIK_FRAME_LEN : Nat := 0x20008
/-- TIK_LEAD (R47). -/
def TIK_LEAD : Nat := 0x2000C
/-- TIK_DELAY_COMP (R47). -/
def TIK_DELAY_COMP : Nat := 0x20010
/-- TIK_TOKEN_LAT (R47). -/
def TIK_TOKEN_LAT : Nat := 0x20014
/-- TIK_MASTER (R47). -/
def TIK_MASTER : Nat := 0x20018
/-- TIK_REPLAY (R47). -/
def TIK_REPLAY : Nat := 0x2001C
/-- TIK_COUNT (R47). -/
def TIK_COUNT : Nat := 0x20020
/-- TIK_FRAME_NO (R47). -/
def TIK_FRAME_NO : Nat := 0x20028
/-- TIK_SEASON_POS (R47). -/
def TIK_SEASON_POS : Nat := 0x20030
/-- TIK_VINTAGE (R47). -/
def TIK_VINTAGE : Nat := 0x20034
/-- TIK_FAIL_CAUSE (R47). -/
def TIK_FAIL_CAUSE : Nat := 0x20038
/-- TIK_STRETCH (R47). -/
def TIK_STRETCH : Nat := 0x2003C
/-- TIK_HERD_STATE (R47). -/
def TIK_HERD_STATE : Nat := 0x20040
/-- TIK_STICKY (R47). -/
def TIK_STICKY : Nat := 0x20048
/-- TIK_STAT_COMMIT (R47). -/
def TIK_STAT_COMMIT : Nat := 0x20050
/-- TIK_STAT_FAIL (R47). -/
def TIK_STAT_FAIL : Nat := 0x20058
/-- TIK_STAT_STRETCH (R47). -/
def TIK_STAT_STRETCH : Nat := 0x20060
/-- TIK_STAT_HOLD (R47). -/
def TIK_STAT_HOLD : Nat := 0x20068
/-- TIK_MEMBERS (R47). -/
def TIK_MEMBERS : Nat := 0x20070
/-- TIK_STAT_LATE (R47). -/
def TIK_STAT_LATE : Nat := 0x20078
/-- TIK_OFFS_C (R47). -/
def TIK_OFFS_C (k : Nat) : Nat := 0x20100 + 0x10 * k
/-- TIK_OFFS_D (R47). -/
def TIK_OFFS_D (k : Nat) : Nat := 0x20104 + 0x10 * k
/-- TIK_OFFS_G (R47). -/
def TIK_OFFS_G (k : Nat) : Nat := 0x20108 + 0x10 * k
/-- TIK_SPAN (R47). -/
def TIK_SPAN (n : Nat) : Nat := 0x20200 + 4 * n
/-- COR_CTRL (R77). -/
def COR_CTRL (c : Nat) : Nat := corBase c + 0
/-- COR_STATUS (R77). -/
def COR_STATUS (c : Nat) : Nat := corBase c + 4
/-- COR_PART (R77). -/
def COR_PART (c : Nat) : Nat := corBase c + 8
/-- COR_FAULT (R77). -/
def COR_FAULT (c : Nat) : Nat := corBase c + 0xC
/-- COR_ENTRY (R77). -/
def COR_ENTRY (c k : Nat) : Nat := corBase c + 0x10 + 4 * k
/-- COR_PC (R77). -/
def COR_PC (c : Nat) : Nat := corBase c + 0x1C
/-- COR_JOIN (R77). -/
def COR_JOIN (c k : Nat) : Nat := corBase c + 0x20 + 8 * k
/-- COR_ARRIVED (R77). -/
def COR_ARRIVED (c : Nat) : Nat := corBase c + 0x38
/-- COR_CYCLE (R77). -/
def COR_CYCLE (c : Nat) : Nat := corBase c + 0x40
/-- COR_EV_STICKY (R77). -/
def COR_EV_STICKY (c : Nat) : Nat := corBase c + 0x48
/-- COR_EV_FRAME_OVF (R77). -/
def COR_EV_FRAME_OVF (c : Nat) : Nat := corBase c + 0x4C
/-- COR_EV_COUNT (R77). -/
def COR_EV_COUNT (c j : Nat) : Nat := corBase c + 0x50 + 4 * j
/-- COR_ACC_STATE (R77). -/
def COR_ACC_STATE (c : Nat) : Nat := corBase c + 0x70
/-- COR_FTQ (R77). -/
def COR_FTQ (c : Nat) : Nat := corBase c + 0x74
/-- COR_STAT_MAC (R77). -/
def COR_STAT_MAC (c : Nat) : Nat := corBase c + 0x80
/-- COR_STAT_VEC (R77). -/
def COR_STAT_VEC (c : Nat) : Nat := corBase c + 0x88
/-- COR_STAT_ASK (R77). -/
def COR_STAT_ASK (c : Nat) : Nat := corBase c + 0x90
/-- COR_STAT_WAIT (R77). -/
def COR_STAT_WAIT (c : Nat) : Nat := corBase c + 0x98
/-- COR_STAT_HERD (R77). -/
def COR_STAT_HERD (c : Nat) : Nat := corBase c + 0xA0
/-- COR_STAT_BANK (R77). -/
def COR_STAT_BANK (c : Nat) : Nat := corBase c + 0xA8
/-- COR_STAT_FTQ (R77). -/
def COR_STAT_FTQ (c : Nat) : Nat := corBase c + 0xB0
/-- COR_STAT_EVLEFT (R77). -/
def COR_STAT_EVLEFT (c : Nat) : Nat := corBase c + 0xB8
/-- COR_STAT_LDG (R77). -/
def COR_STAT_LDG (c : Nat) : Nat := corBase c + 0xC0
/-- COR_FMT (R108). -/
def COR_FMT (c : Nat) : Nat := corBase c + 0x100
/-- COR_FMT_STICKY (R108). -/
def COR_FMT_STICKY (c : Nat) : Nat := corBase c + 0x104
/-- COR_FMT_FRAME (R108). -/
def COR_FMT_FRAME (c : Nat) : Nat := corBase c + 0x108
/-- COR_STAT_FLUSH (R108). -/
def COR_STAT_FLUSH (c : Nat) : Nat := corBase c + 0x110
/-- COR_SEED (R108). -/
def COR_SEED (s : Nat) : Nat := secBase s + 0x200000
/-- COR_OLK_ID (R162). -/
def COR_OLK_ID (c e : Nat) : Nat := corBase c + 0x200 + 0x40 * e
/-- COR_OLK_CTRL (R162). -/
def COR_OLK_CTRL (c e : Nat) : Nat := corBase c + 0x204 + 0x40 * e
/-- COR_OLK_THR (R162). -/
def COR_OLK_THR (c e : Nat) : Nat := corBase c + 0x208 + 0x40 * e
/-- COR_OLK_REQ (R162). -/
def COR_OLK_REQ (c e : Nat) : Nat := corBase c + 0x20C + 0x40 * e
/-- COR_OLK_EST (R162). -/
def COR_OLK_EST (c e : Nat) : Nat := corBase c + 0x210 + 0x40 * e
/-- COR_OLK_SEL (R162). -/
def COR_OLK_SEL (c e : Nat) : Nat := corBase c + 0x214 + 0x40 * e
/-- COR_OLK_AUD (R162). -/
def COR_OLK_AUD (c e : Nat) : Nat := corBase c + 0x218 + 0x40 * e
/-- COR_OLK_STRAY (R162). -/
def COR_OLK_STRAY (c e : Nat) : Nat := corBase c + 0x21C + 0x40 * e
/-- COR_OLK_UNEST (R162). -/
def COR_OLK_UNEST (c e : Nat) : Nat := corBase c + 0x220 + 0x40 * e
/-- COR_OLK_MTR_N (R162). -/
def COR_OLK_MTR_N (c e : Nat) : Nat := corBase c + 0x224 + 0x40 * e
/-- COR_OLK_MTR_MISS (R162). -/
def COR_OLK_MTR_MISS (c e : Nat) : Nat := corBase c + 0x228 + 0x40 * e
/-- COR_OLK_MTR_FALSE (R162). -/
def COR_OLK_MTR_FALSE (c e : Nat) : Nat := corBase c + 0x22C + 0x40 * e
/-- COR_OLK_SIG (R162). -/
def COR_OLK_SIG (c e : Nat) : Nat := corBase c + 0x230 + 0x40 * e
/-- COR_OLK_AUD_N (R162). -/
def COR_OLK_AUD_N (c e : Nat) : Nat := corBase c + 0x234 + 0x40 * e
/-- COR_OLK_AUD_SIG (R162). -/
def COR_OLK_AUD_SIG (c e : Nat) : Nat := corBase c + 0x238 + 0x40 * e
/-- COR_OLK_MTR_PEAK (R162). -/
def COR_OLK_MTR_PEAK (c e : Nat) : Nat := corBase c + 0x23C + 0x40 * e
/-- SCH_CTRL (R187). -/
def SCH_CTRL (s : Nat) : Nat := secBase s + 0x400000
/-- SCH_STATUS (R187). -/
def SCH_STATUS (s : Nat) : Nat := secBase s + 0x400004
/-- SCH_STICKY (R187). -/
def SCH_STICKY (s : Nat) : Nat := secBase s + 0x400008
/-- SCH_FRAME_ERR (R187). -/
def SCH_FRAME_ERR (s : Nat) : Nat := secBase s + 0x40000C
/-- SCH_PRELOAD (R187). -/
def SCH_PRELOAD (s k : Nat) : Nat := secBase s + 0x400010 + 8 * k
/-- SCH_DELAY (R187). -/
def SCH_DELAY (s : Nat) : Nat := secBase s + 0x400028
/-- SCH_DELAY_USE (R187). -/
def SCH_DELAY_USE (s : Nat) : Nat := secBase s + 0x400030
/-- SCH_ST_BASE (R187). -/
def SCH_ST_BASE (s : Nat) : Nat := secBase s + 0x400038
/-- SCH_STAT_SUBMIT (R187). -/
def SCH_STAT_SUBMIT (s : Nat) : Nat := secBase s + 0x400040
/-- SCH_STAT_HANDOVER (R187). -/
def SCH_STAT_HANDOVER (s : Nat) : Nat := secBase s + 0x400048
/-- SCH_STAT_RELEASE (R187). -/
def SCH_STAT_RELEASE (s : Nat) : Nat := secBase s + 0x400050
/-- SCH_STAT_BP (R187). -/
def SCH_STAT_BP (s : Nat) : Nat := secBase s + 0x400058
/-- SCH_STAT_DROP (R187). -/
def SCH_STAT_DROP (s : Nat) : Nat := secBase s + 0x400060
/-- SCH_STAT_LEFT (R187). -/
def SCH_STAT_LEFT (s : Nat) : Nat := secBase s + 0x400068
/-- SCH_STAT_UNDERFLOW (R187). -/
def SCH_STAT_UNDERFLOW (s : Nat) : Nat := secBase s + 0x400070
/-- SCH_STAT_DELAY (R187). -/
def SCH_STAT_DELAY (s : Nat) : Nat := secBase s + 0x400078
/-- SCH_QCFG (R187). -/
def SCH_QCFG (s q : Nat) : Nat := secBase s + 0x410000 + 8 * q
/-- SCH_QSTAT (R187). -/
def SCH_QSTAT (s q : Nat) : Nat := secBase s + 0x430000 + 4 * q
/-- SCH_BIND (R187). -/
def SCH_BIND (s i k : Nat) : Nat := secBase s + 0x440000 + 0x20 * i + 8 * k
/-- SCH_DC_INIT (R187). -/
def SCH_DC_INIT (s k j : Nat) : Nat := secBase s + 0x450000 + 0x8000 * k + 4 * j
/-- SCH_DC (R187). -/
def SCH_DC (s j : Nat) : Nat := secBase s + 0x468000 + 4 * j
/-- SCH_FLOW (R187). -/
def SCH_FLOW (s f : Nat) : Nat := secBase s + 0x470000 + 8 * f
/-- SCH_TICKET (R187). -/
def SCH_TICKET (s i : Nat) : Nat := secBase s + 0x478000 + 4 * i
/-- SMP_CTRL (R222). -/
def SMP_CTRL (s : Nat) : Nat := secBase s + 0x520000
/-- SMP_STATUS (R222). -/
def SMP_STATUS (s : Nat) : Nat := secBase s + 0x520004
/-- SMP_STICKY (R222). -/
def SMP_STICKY (s : Nat) : Nat := secBase s + 0x520008
/-- SMP_FRAME_ERR (R222). -/
def SMP_FRAME_ERR (s : Nat) : Nat := secBase s + 0x52000C
/-- SMP_WORK (R222). -/
def SMP_WORK (s : Nat) : Nat := secBase s + 0x520010
/-- SMP_STAT_REQ (R222). -/
def SMP_STAT_REQ (s : Nat) : Nat := secBase s + 0x520040
/-- SMP_STAT_VERT (R222). -/
def SMP_STAT_VERT (s : Nat) : Nat := secBase s + 0x520048
/-- SMP_STAT_EDGE (R222). -/
def SMP_STAT_EDGE (s : Nat) : Nat := secBase s + 0x520050
/-- SMP_STAT_DUP (R222). -/
def SMP_STAT_DUP (s : Nat) : Nat := secBase s + 0x520058
/-- SMP_STAT_TRUNC (R222). -/
def SMP_STAT_TRUNC (s : Nat) : Nat := secBase s + 0x520060
/-- SMP_STAT_INELIG (R222). -/
def SMP_STAT_INELIG (s : Nat) : Nat := secBase s + 0x520068
/-- SMP_STAT_BAD (R222). -/
def SMP_STAT_BAD (s : Nat) : Nat := secBase s + 0x520070
/-- SMP_STAT_LIMIT (R222). -/
def SMP_STAT_LIMIT (s : Nat) : Nat := secBase s + 0x520078
/-- SMP_GVIDX (R222). -/
def SMP_GVIDX (s n : Nat) : Nat := secBase s + 0x520100 + 0x40 * n
/-- SMP_GEDGE (R222). -/
def SMP_GEDGE (s n : Nat) : Nat := secBase s + 0x520108 + 0x40 * n
/-- SMP_GWGT (R222). -/
def SMP_GWGT (s n : Nat) : Nat := secBase s + 0x520110 + 0x40 * n
/-- SMP_GTS (R222). -/
def SMP_GTS (s n : Nat) : Nat := secBase s + 0x520118 + 0x40 * n
/-- SMP_GVCOUNT (R222). -/
def SMP_GVCOUNT (s n : Nat) : Nat := secBase s + 0x520120 + 0x40 * n
/-- SMP_GCFG (R222). -/
def SMP_GCFG (s n : Nat) : Nat := secBase s + 0x520124 + 0x40 * n
/-- SMP_GECOUNT (R222). -/
def SMP_GECOUNT (s n : Nat) : Nat := secBase s + 0x520128 + 0x40 * n
/-- GSE_CTRL (R224). -/
def GSE_CTRL (s : Nat) : Nat := secBase s + 0x530000
/-- GSE_STATUS (R224). -/
def GSE_STATUS (s : Nat) : Nat := secBase s + 0x530004
/-- GSE_STICKY (R224). -/
def GSE_STICKY (s : Nat) : Nat := secBase s + 0x530008
/-- GSE_FRAME_ERR (R224). -/
def GSE_FRAME_ERR (s : Nat) : Nat := secBase s + 0x53000C
/-- GSE_STAT_GREQ (R224). -/
def GSE_STAT_GREQ (s : Nat) : Nat := secBase s + 0x530040
/-- GSE_STAT_ROWS (R224). -/
def GSE_STAT_ROWS (s : Nat) : Nat := secBase s + 0x530048
/-- GSE_STAT_FETCH (R224). -/
def GSE_STAT_FETCH (s : Nat) : Nat := secBase s + 0x530050
/-- GSE_STAT_JOIN (R224). -/
def GSE_STAT_JOIN (s : Nat) : Nat := secBase s + 0x530058
/-- GSE_STAT_HIT (R224). -/
def GSE_STAT_HIT (s : Nat) : Nat := secBase s + 0x530060
/-- GSE_STAT_REMOTE (R224). -/
def GSE_STAT_REMOTE (s : Nat) : Nat := secBase s + 0x530068
/-- GSE_STAT_RA (R224). -/
def GSE_STAT_RA (s : Nat) : Nat := secBase s + 0x530070
/-- GSE_STAT_RA_DROP (R224). -/
def GSE_STAT_RA_DROP (s : Nat) : Nat := secBase s + 0x530078
/-- GSE_STAT_SREQ (R224). -/
def GSE_STAT_SREQ (s : Nat) : Nat := secBase s + 0x530080
/-- GSE_STAT_SROWS (R224). -/
def GSE_STAT_SROWS (s : Nat) : Nat := secBase s + 0x530088
/-- GSE_STAT_TDEC (R224). -/
def GSE_STAT_TDEC (s : Nat) : Nat := secBase s + 0x530090
/-- GSE_STAT_TENC (R224). -/
def GSE_STAT_TENC (s : Nat) : Nat := secBase s + 0x530098
/-- GSE_STAT_TFALL (R224). -/
def GSE_STAT_TFALL (s : Nat) : Nat := secBase s + 0x5300A0
/-- GSE_STAT_PEAK (R224). -/
def GSE_STAT_PEAK (s : Nat) : Nat := secBase s + 0x5300A8
/-- TBL_CTRL (R255). -/
def TBL_CTRL (s : Nat) : Nat := secBase s + 0x480000
/-- TBL_STATUS (R255). -/
def TBL_STATUS (s : Nat) : Nat := secBase s + 0x480004
/-- TBL_STICKY (R255). -/
def TBL_STICKY (s : Nat) : Nat := secBase s + 0x480008
/-- TBL_FRAME_ERR (R255). -/
def TBL_FRAME_ERR (s : Nat) : Nat := secBase s + 0x48000C
/-- TBL_FMT_STICKY (R255). -/
def TBL_FMT_STICKY (s : Nat) : Nat := secBase s + 0x480010
/-- TBL_FMT_FRAME (R255). -/
def TBL_FMT_FRAME (s : Nat) : Nat := secBase s + 0x480014
/-- TBL_RC_CFG (R255). -/
def TBL_RC_CFG (s : Nat) : Nat := secBase s + 0x480018
/-- TBL_STAT_LOOKUP (R255). -/
def TBL_STAT_LOOKUP (s : Nat) : Nat := secBase s + 0x480040
/-- TBL_STAT_KEYS (R255). -/
def TBL_STAT_KEYS (s : Nat) : Nat := secBase s + 0x480048
/-- TBL_STAT_SERVED (R255). -/
def TBL_STAT_SERVED (s : Nat) : Nat := secBase s + 0x480050
/-- TBL_STAT_RC_FILL (R255). -/
def TBL_STAT_RC_FILL (s : Nat) : Nat := secBase s + 0x480058
/-- TBL_STAT_RC_EVICT (R255). -/
def TBL_STAT_RC_EVICT (s : Nat) : Nat := secBase s + 0x480060
/-- TBL_STAT_RC_INVAL (R255). -/
def TBL_STAT_RC_INVAL (s : Nat) : Nat := secBase s + 0x480068
/-- TBL_STAT_LEVEL (R255). -/
def TBL_STAT_LEVEL (s : Nat) : Nat := secBase s + 0x480070
/-- TBL_STAT_EMPTY (R255). -/
def TBL_STAT_EMPTY (s : Nat) : Nat := secBase s + 0x480078
/-- TBL_STAT_WDROP (R255). -/
def TBL_STAT_WDROP (s : Nat) : Nat := secBase s + 0x480080
/-- TBL_STAT_FLUSH (R255). -/
def TBL_STAT_FLUSH (s : Nat) : Nat := secBase s + 0x480088
/-- TBL_TCFG (R255). -/
def TBL_TCFG (s t : Nat) : Nat := secBase s + 0x490000 + 0x40 * t
/-- TBL_TBASE0 (R255). -/
def TBL_TBASE0 (s t : Nat) : Nat := secBase s + 0x490008 + 0x40 * t
/-- TBL_TBASE1 (R255). -/
def TBL_TBASE1 (s t : Nat) : Nat := secBase s + 0x490010 + 0x40 * t
/-- TBL_TDIR (R255). -/
def TBL_TDIR (s t : Nat) : Nat := secBase s + 0x490018 + 0x40 * t
/-- TBL_TSIZE (R255). -/
def TBL_TSIZE (s t : Nat) : Nat := secBase s + 0x490020 + 0x40 * t
/-- TBL_TSLOTS (R255). -/
def TBL_TSLOTS (s t : Nat) : Nat := secBase s + 0x490028 + 0x40 * t
/-- TBL_TMAP (R255). -/
def TBL_TMAP (s t : Nat) : Nat := secBase s + 0x490030 + 0x40 * t
/-- TBL_TDEF (R255). -/
def TBL_TDEF (s t : Nat) : Nat := secBase s + 0x490038 + 0x40 * t
/-- TBL_TSTAT_INV (R255). -/
def TBL_TSTAT_INV (s t : Nat) : Nat := secBase s + 0x4A0000 + 0x20 * t
/-- TBL_TSTAT_MISS (R255). -/
def TBL_TSTAT_MISS (s t : Nat) : Nat := secBase s + 0x4A0008 + 0x20 * t
/-- TBL_TPEND (R255). -/
def TBL_TPEND (s t : Nat) : Nat := secBase s + 0x4A0010 + 0x20 * t
/-- PRS_CTRL (R285). -/
def PRS_CTRL (s : Nat) : Nat := secBase s + 0x4C0000
/-- PRS_STATUS (R285). -/
def PRS_STATUS (s : Nat) : Nat := secBase s + 0x4C0004
/-- PRS_STICKY (R285). -/
def PRS_STICKY (s : Nat) : Nat := secBase s + 0x4C0008
/-- PRS_FRAME_ERR (R285). -/
def PRS_FRAME_ERR (s : Nat) : Nat := secBase s + 0x4C000C
/-- PRS_STAGE (R285). -/
def PRS_STAGE (s : Nat) : Nat := secBase s + 0x4C0010
/-- PRS_PEER (R285). -/
def PRS_PEER (s : Nat) : Nat := secBase s + 0x4C0018
/-- PRS_FMT_STICKY (R285). -/
def PRS_FMT_STICKY (s : Nat) : Nat := secBase s + 0x4C0020
/-- PRS_FMT_FRAME (R285). -/
def PRS_FMT_FRAME (s : Nat) : Nat := secBase s + 0x4C0024
/-- PRS_STAT_ACCEPT (R285). -/
def PRS_STAT_ACCEPT (s : Nat) : Nat := secBase s + 0x4C0040
/-- PRS_STAT_CONTRIB (R285). -/
def PRS_STAT_CONTRIB (s : Nat) : Nat := secBase s + 0x4C0048
/-- PRS_STAT_ADDS (R285). -/
def PRS_STAT_ADDS (s : Nat) : Nat := secBase s + 0x4C0050
/-- PRS_STAT_HOT (R285). -/
def PRS_STAT_HOT (s : Nat) : Nat := secBase s + 0x4C0058
/-- PRS_STAT_OUT (R285). -/
def PRS_STAT_OUT (s : Nat) : Nat := secBase s + 0x4C0060
/-- PRS_STAT_IN (R285). -/
def PRS_STAT_IN (s : Nat) : Nat := secBase s + 0x4C0068
/-- PRS_STAT_INVALID (R285). -/
def PRS_STAT_INVALID (s : Nat) : Nat := secBase s + 0x4C0070
/-- PRS_STAT_MISSING (R285). -/
def PRS_STAT_MISSING (s : Nat) : Nat := secBase s + 0x4C0078
/-- PRS_STAT_COMPOSED (R285). -/
def PRS_STAT_COMPOSED (s : Nat) : Nat := secBase s + 0x4C0080
/-- PRS_STAT_SPILL (R285). -/
def PRS_STAT_SPILL (s : Nat) : Nat := secBase s + 0x4C0088
/-- PRS_STAT_UNSORTED (R285). -/
def PRS_STAT_UNSORTED (s : Nat) : Nat := secBase s + 0x4C0090
/-- PRS_QUOTA (R285). -/
def PRS_QUOTA (s i : Nat) : Nat := secBase s + 0x4D0000 + 8 * i
/-- PRS_TCFG (R285). -/
def PRS_TCFG (s t : Nat) : Nat := secBase s + 0x4E0000 + 4 * t
/-- OPT_CTRL (R286). -/
def OPT_CTRL (s : Nat) : Nat := secBase s + 0x500000
/-- OPT_STATUS (R286). -/
def OPT_STATUS (s : Nat) : Nat := secBase s + 0x500004
/-- OPT_STICKY (R286). -/
def OPT_STICKY (s : Nat) : Nat := secBase s + 0x500008
/-- OPT_FRAME_ERR (R286). -/
def OPT_FRAME_ERR (s : Nat) : Nat := secBase s + 0x50000C
/-- OPT_FMT_STICKY (R286). -/
def OPT_FMT_STICKY (s : Nat) : Nat := secBase s + 0x500010
/-- OPT_FMT_FRAME (R286). -/
def OPT_FMT_FRAME (s : Nat) : Nat := secBase s + 0x500014
/-- OPT_BLK (R286). -/
def OPT_BLK (s c : Nat) : Nat := secBase s + 0x500020 + 8 * c
/-- OPT_STAT_ROWS (R286). -/
def OPT_STAT_ROWS (s : Nat) : Nat := secBase s + 0x500040
/-- OPT_STAT_TILES (R286). -/
def OPT_STAT_TILES (s : Nat) : Nat := secBase s + 0x500048
/-- OPT_STAT_ELEM (R286). -/
def OPT_STAT_ELEM (s : Nat) : Nat := secBase s + 0x500050
/-- OPT_STAT_SKIP (R286). -/
def OPT_STAT_SKIP (s : Nat) : Nat := secBase s + 0x500058
/-- OPT_STAT_NANROW (R286). -/
def OPT_STAT_NANROW (s : Nat) : Nat := secBase s + 0x500060
/-- OPT_STAT_ZROW (R286). -/
def OPT_STAT_ZROW (s : Nat) : Nat := secBase s + 0x500068
/-- OPT_STAT_STREAM (R286). -/
def OPT_STAT_STREAM (s : Nat) : Nat := secBase s + 0x500070
/-- OPT_PCFG (R286). -/
def OPT_PCFG (s p : Nat) : Nat := secBase s + 0x500100 + 0x20 * p
/-- OPT_PLR (R286). -/
def OPT_PLR (s p : Nat) : Nat := secBase s + 0x500104 + 0x20 * p
/-- OPT_PBETA1 (R286). -/
def OPT_PBETA1 (s p : Nat) : Nat := secBase s + 0x500108 + 0x20 * p
/-- OPT_PBETA2 (R286). -/
def OPT_PBETA2 (s p : Nat) : Nat := secBase s + 0x50010C + 0x20 * p
/-- OPT_PPOW1 (R286). -/
def OPT_PPOW1 (s p : Nat) : Nat := secBase s + 0x500110 + 0x20 * p
/-- OPT_PPOW2 (R286). -/
def OPT_PPOW2 (s p : Nat) : Nat := secBase s + 0x500114 + 0x20 * p
/-- OPT_PSTEP (R286). -/
def OPT_PSTEP (s p : Nat) : Nat := secBase s + 0x500118 + 0x20 * p
/-- OPT_PROG (R286). -/
def OPT_PROG (s p k : Nat) : Nat := secBase s + 0x500800 + 0x80 * p + 8 * k
/-- OPT_TCFG (R286). -/
def OPT_TCFG (s t : Nat) : Nat := secBase s + 0x510000 + 0x40 * t
/-- OPT_TMASTER (R286). -/
def OPT_TMASTER (s t : Nat) : Nat := secBase s + 0x510008 + 0x40 * t
/-- OPT_TMOM1 (R286). -/
def OPT_TMOM1 (s t : Nat) : Nat := secBase s + 0x510010 + 0x40 * t
/-- OPT_TMOM2 (R286). -/
def OPT_TMOM2 (s t : Nat) : Nat := secBase s + 0x510018 + 0x40 * t
/-- OPT_TGRAD (R286). -/
def OPT_TGRAD (s t : Nat) : Nat := secBase s + 0x510020 + 0x40 * t
/-- MEM_STATUS (R322). -/
def MEM_STATUS (s : Nat) : Nat := secBase s + 0x540000
/-- MEM_STICKY (R322). -/
def MEM_STICKY (s : Nat) : Nat := secBase s + 0x540008
/-- MEM_FRAME_ERR (R322). -/
def MEM_FRAME_ERR (s : Nat) : Nat := secBase s + 0x54000C
/-- MEM_SCRUB (R322). -/
def MEM_SCRUB (s : Nat) : Nat := secBase s + 0x540010
/-- MEM_THERM (R322). -/
def MEM_THERM (s : Nat) : Nat := secBase s + 0x540014
/-- MEM_TEMP (R322). -/
def MEM_TEMP (s : Nat) : Nat := secBase s + 0x540018
/-- MEM_JOURNAL (R322). -/
def MEM_JOURNAL (s : Nat) : Nat := secBase s + 0x540020
/-- MEM_JOURNAL_USE (R322). -/
def MEM_JOURNAL_USE (s : Nat) : Nat := secBase s + 0x540028
/-- MEM_ERRLOG (R322). -/
def MEM_ERRLOG (s : Nat) : Nat := secBase s + 0x540030
/-- MEM_STAT_RD (R322). -/
def MEM_STAT_RD (s : Nat) : Nat := secBase s + 0x540040
/-- MEM_STAT_WR (R322). -/
def MEM_STAT_WR (s : Nat) : Nat := secBase s + 0x540048
/-- MEM_STAT_CE (R322). -/
def MEM_STAT_CE (s : Nat) : Nat := secBase s + 0x540050
/-- MEM_STAT_CE2 (R322). -/
def MEM_STAT_CE2 (s : Nat) : Nat := secBase s + 0x540058
/-- MEM_STAT_UE (R322). -/
def MEM_STAT_UE (s : Nat) : Nat := secBase s + 0x540060
/-- MEM_STAT_PREAD (R322). -/
def MEM_STAT_PREAD (s : Nat) : Nat := secBase s + 0x540068
/-- MEM_STAT_PCONS (R322). -/
def MEM_STAT_PCONS (s : Nat) : Nat := secBase s + 0x540070
/-- MEM_STAT_SCRUB (R322). -/
def MEM_STAT_SCRUB (s : Nat) : Nat := secBase s + 0x540078
/-- MEM_STAT_DENY (R322). -/
def MEM_STAT_DENY (s : Nat) : Nat := secBase s + 0x540080
/-- MEM_STAT_RA_DROP (R322). -/
def MEM_STAT_RA_DROP (s : Nat) : Nat := secBase s + 0x540088
/-- MEM_STAT_JOURNAL (R322). -/
def MEM_STAT_JOURNAL (s : Nat) : Nat := secBase s + 0x540090
/-- MEM_STAT_LDG (R322). -/
def MEM_STAT_LDG (s : Nat) : Nat := secBase s + 0x540098
/-- MEM_STAT_THROTTLE (R322). -/
def MEM_STAT_THROTTLE (s : Nat) : Nat := secBase s + 0x5400A0
/-- MEM_SLICE (R322). -/
def MEM_SLICE (s n : Nat) : Nat := secBase s + 0x541000 + 4 * n
/-- MEM_RGN_BASE (R322). -/
def MEM_RGN_BASE (s n : Nat) : Nat := secBase s + 0x542000 + 0x20 * n
/-- MEM_RGN_LIMIT (R322). -/
def MEM_RGN_LIMIT (s n : Nat) : Nat := secBase s + 0x542008 + 0x20 * n
/-- MEM_RGN_ATTR (R322). -/
def MEM_RGN_ATTR (s n : Nat) : Nat := secBase s + 0x542010 + 0x20 * n
/-- RCK_CTRL (R323). -/
def RCK_CTRL (s : Nat) : Nat := secBase s + 0x550000
/-- RCK_STATUS (R323). -/
def RCK_STATUS (s : Nat) : Nat := secBase s + 0x550004
/-- RCK_STICKY (R323). -/
def RCK_STICKY (s : Nat) : Nat := secBase s + 0x550008
/-- RCK_FRAME_ERR (R323). -/
def RCK_FRAME_ERR (s : Nat) : Nat := secBase s + 0x55000C
/-- RCK_STAT_XFER (R323). -/
def RCK_STAT_XFER (s : Nat) : Nat := secBase s + 0x550040
/-- RCK_STAT_BYTES (R323). -/
def RCK_STAT_BYTES (s : Nat) : Nat := secBase s + 0x550048
/-- RCK_STAT_REMOTE (R323). -/
def RCK_STAT_REMOTE (s : Nat) : Nat := secBase s + 0x550050
/-- RCK_STAT_REFUSED (R323). -/
def RCK_STAT_REFUSED (s : Nat) : Nat := secBase s + 0x550058
/-- RCK_STAT_TAGSTALL (R323). -/
def RCK_STAT_TAGSTALL (s : Nat) : Nat := secBase s + 0x550060
/-- RCK_STAT_PEAK (R323). -/
def RCK_STAT_PEAK (s : Nat) : Nat := secBase s + 0x550068
/-- FAB_CTRL (R356). -/
def FAB_CTRL : Nat := 0x800000
/-- FAB_STATUS (R356). -/
def FAB_STATUS : Nat := 0x800004
/-- FAB_STICKY (R356). -/
def FAB_STICKY : Nat := 0x800008
/-- FAB_FRAME_ERR (R356). -/
def FAB_FRAME_ERR : Nat := 0x80000C
/-- FAB_ID (R356). -/
def FAB_ID : Nat := 0x800010
/-- FAB_TOPO (R356). -/
def FAB_TOPO : Nat := 0x800014
/-- FAB_TREE (R356). -/
def FAB_TREE : Nat := 0x800018
/-- FAB_TICK_ACCT (R356). -/
def FAB_TICK_ACCT : Nat := 0x80001C
/-- FAB_FLAG (R356). -/
def FAB_FLAG : Nat := 0x800020
/-- FAB_STAT_INJ (R356). -/
def FAB_STAT_INJ : Nat := 0x800040
/-- FAB_STAT_EJ (R356). -/
def FAB_STAT_EJ : Nat := 0x800048
/-- FAB_STAT_FWD (R356). -/
def FAB_STAT_FWD : Nat := 0x800050
/-- FAB_STAT_DROP (R356). -/
def FAB_STAT_DROP : Nat := 0x800058
/-- FAB_STAT_BAD (R356). -/
def FAB_STAT_BAD : Nat := 0x800060
/-- FAB_STAT_NOROUTE (R356). -/
def FAB_STAT_NOROUTE : Nat := 0x800068
/-- FAB_STAT_EPOCH (R356). -/
def FAB_STAT_EPOCH : Nat := 0x800070
/-- FAB_STAT_ACCT (R356). -/
def FAB_STAT_ACCT : Nat := 0x800078
/-- FAB_STAT_SWITCH (R356). -/
def FAB_STAT_SWITCH : Nat := 0x800080
/-- FAB_STAT_HOLDPEAK (R356). -/
def FAB_STAT_HOLDPEAK : Nat := 0x800088
/-- FAB_PCTRL (R356). -/
def FAB_PCTRL (p : Nat) : Nat := 0x801000 + 0x40 * p
/-- FAB_PSTATUS (R356). -/
def FAB_PSTATUS (p : Nat) : Nat := 0x801004 + 0x40 * p
/-- FAB_PLAT (R356). -/
def FAB_PLAT (p : Nat) : Nat := 0x801008 + 0x40 * p
/-- FAB_PSTAT_TX (R356). -/
def FAB_PSTAT_TX (p : Nat) : Nat := 0x801010 + 0x40 * p
/-- FAB_PSTAT_RX (R356). -/
def FAB_PSTAT_RX (p : Nat) : Nat := 0x801018 + 0x40 * p
/-- FAB_PSTAT_CRC (R356). -/
def FAB_PSTAT_CRC (p : Nat) : Nat := 0x801020 + 0x40 * p
/-- FAB_PSTAT_RETRY (R356). -/
def FAB_PSTAT_RETRY (p : Nat) : Nat := 0x801028 + 0x40 * p
/-- FAB_PSTAT_STALL (R356). -/
def FAB_PSTAT_STALL (p : Nat) : Nat := 0x801030 + 0x40 * p
/-- FAB_PSTAT_RETRAIN (R356). -/
def FAB_PSTAT_RETRAIN (p : Nat) : Nat := 0x801038 + 0x40 * p
/-- FAB_ALT (R356). -/
def FAB_ALT (j : Nat) : Nat := 0x802000 + 8 * j
/-- FAB_RT (R356). -/
def FAB_RT (d w : Nat) : Nat := 0xC00000 + 0x40 * d + 8 * w
/-- RED_CTRL (R385). -/
def RED_CTRL : Nat := 0x80000
/-- RED_STATUS (R385). -/
def RED_STATUS : Nat := 0x80004
/-- RED_STICKY (R385). -/
def RED_STICKY : Nat := 0x80008
/-- RED_FRAME_ERR (R385). -/
def RED_FRAME_ERR : Nat := 0x8000C
/-- RED_BOX (R385). -/
def RED_BOX : Nat := 0x80010
/-- RED_FMT_STICKY (R385). -/
def RED_FMT_STICKY : Nat := 0x80014
/-- RED_FMT_FRAME (R385). -/
def RED_FMT_FRAME : Nat := 0x80018
/-- RED_STAT_BKT (R385). -/
def RED_STAT_BKT : Nat := 0x80040
/-- RED_STAT_TX (R385). -/
def RED_STAT_TX : Nat := 0x80048
/-- RED_STAT_RX (R385). -/
def RED_STAT_RX : Nat := 0x80050
/-- RED_STAT_ADDS (R385). -/
def RED_STAT_ADDS : Nat := 0x80058
/-- RED_STAT_OBRESET (R385). -/
def RED_STAT_OBRESET : Nat := 0x80060
/-- RED_BKT_CFG (R385). -/
def RED_BKT_CFG (b : Nat) : Nat := 0x90000 + 0x20 * b
/-- RED_BKT_IN (R385). -/
def RED_BKT_IN (b : Nat) : Nat := 0x90008 + 0x20 * b
/-- RED_BKT_OUT (R385). -/
def RED_BKT_OUT (b : Nat) : Nat := 0x90010 + 0x20 * b
/-- RED_BKT_AUX (R385). -/
def RED_BKT_AUX (b : Nat) : Nat := 0x90018 + 0x20 * b
/-- RED_BKT_STATE (R385). -/
def RED_BKT_STATE (b : Nat) : Nat := 0xB0000 + 4 * b
/-- TWN_CTRL (R386). -/
def TWN_CTRL : Nat := 0x50000
/-- TWN_STATUS (R386). -/
def TWN_STATUS : Nat := 0x50004
/-- TWN_STICKY (R386). -/
def TWN_STICKY : Nat := 0x50008
/-- TWN_FRAME_ERR (R386). -/
def TWN_FRAME_ERR : Nat := 0x5000C
/-- TWN_LOSS (R386). -/
def TWN_LOSS : Nat := 0x50010
/-- TWN_RESTORE (R386). -/
def TWN_RESTORE : Nat := 0x50014
/-- TWN_QUEUE (R386). -/
def TWN_QUEUE : Nat := 0x50018
/-- TWN_STAT_TX (R386). -/
def TWN_STAT_TX : Nat := 0x50040
/-- TWN_STAT_RX (R386). -/
def TWN_STAT_RX : Nat := 0x50048
/-- TWN_STAT_JOBS (R386). -/
def TWN_STAT_JOBS : Nat := 0x50050
/-- TWN_STAT_RAW (R386). -/
def TWN_STAT_RAW : Nat := 0x50058
/-- TWN_STAT_NOACK (R386). -/
def TWN_STAT_NOACK : Nat := 0x50060
/-- TWN_STAT_RESTORE (R386). -/
def TWN_STAT_RESTORE : Nat := 0x50068
/-- TWN_WIN_BASE (R386). -/
def TWN_WIN_BASE (w : Nat) : Nat := 0x50100 + 0x10 * w
/-- TWN_WIN_MIR (R386). -/
def TWN_WIN_MIR (w : Nat) : Nat := 0x50108 + 0x10 * w
/-- HIF_CTRL (R422). -/
def HIF_CTRL : Nat := 0
/-- HIF_STATUS (R422). -/
def HIF_STATUS : Nat := 4
/-- HIF_STICKY (R422). -/
def HIF_STICKY : Nat := 8
/-- HIF_FRAME_ERR (R422). -/
def HIF_FRAME_ERR : Nat := 0xC
/-- HIF_STATUS_ADDR (R422). -/
def HIF_STATUS_ADDR : Nat := 0x10
/-- HIF_SQ_BASE (R422). -/
def HIF_SQ_BASE (q : Nat) : Nat := 0x1000 + 0x40 * q
/-- HIF_Q_CFG (R422). -/
def HIF_Q_CFG (q : Nat) : Nat := 0x1008 + 0x40 * q
/-- HIF_SQ_TAIL (R422). -/
def HIF_SQ_TAIL (q : Nat) : Nat := 0x100C + 0x40 * q
/-- HIF_SQ_HEAD (R422). -/
def HIF_SQ_HEAD (q : Nat) : Nat := 0x1010 + 0x40 * q
/-- HIF_Q_STATE (R422). -/
def HIF_Q_STATE (q : Nat) : Nat := 0x1014 + 0x40 * q
/-- HIF_CR_BASE (R422). -/
def HIF_CR_BASE (q : Nat) : Nat := 0x1018 + 0x40 * q
/-- HIF_CR_HEAD (R422). -/
def HIF_CR_HEAD (q : Nat) : Nat := 0x1020 + 0x40 * q
/-- HIF_CR_TAIL (R422). -/
def HIF_CR_TAIL (q : Nat) : Nat := 0x1024 + 0x40 * q
/-- HIF_IN_BASE (R422). -/
def HIF_IN_BASE (c : Nat) : Nat := 0x2000 + 0x40 * c
/-- HIF_IN_CFG (R422). -/
def HIF_IN_CFG (c : Nat) : Nat := 0x2008 + 0x40 * c
/-- HIF_IN_COMMIT (R422). -/
def HIF_IN_COMMIT (c : Nat) : Nat := 0x2010 + 0x40 * c
/-- HIF_IN_STATE (R422). -/
def HIF_IN_STATE (c : Nat) : Nat := 0x2018 + 0x40 * c
/-- HIF_OUT_CFG (R422). -/
def HIF_OUT_CFG (o : Nat) : Nat := 0x3000 + 0x20 * o
/-- HIF_OUT_ACK (R422). -/
def HIF_OUT_ACK (o : Nat) : Nat := 0x3008 + 0x20 * o
/-- HIF_OUT_IDX (R422). -/
def HIF_OUT_IDX (o : Nat) : Nat := 0x300C + 0x20 * o
/-- HIF_STAT_ACCERR (R422). -/
def HIF_STAT_ACCERR : Nat := 0x40
/-- HIF_STAT_CMD (R422). -/
def HIF_STAT_CMD : Nat := 0x48
/-- HIF_STAT_MEMRD (R422). -/
def HIF_STAT_MEMRD : Nat := 0x50
/-- HIF_STAT_MEMWR (R422). -/
def HIF_STAT_MEMWR : Nat := 0x58
/-- HIF_STAT_DENY (R422). -/
def HIF_STAT_DENY : Nat := 0x60
/-- HIF_STAT_BLOCK (R422). -/
def HIF_STAT_BLOCK : Nat := 0x68
/-- HIF_STAT_LATE (R422). -/
def HIF_STAT_LATE : Nat := 0x70
/-- HIF_STAT_BADCOMMIT (R422). -/
def HIF_STAT_BADCOMMIT : Nat := 0x78
/-- HIF_STAT_SLOTWR (R422). -/
def HIF_STAT_SLOTWR : Nat := 0x80
/-- HIF_STAT_CRWAIT (R422). -/
def HIF_STAT_CRWAIT : Nat := 0x88
/-- HIF_STAT_STATUSSKIP (R422). -/
def HIF_STAT_STATUSSKIP : Nat := 0x90
/-- TIK_GRAFT_ID (R452). -/
def TIK_GRAFT_ID : Nat := 0x20400
/-- TIK_GRAFT_VER (R452). -/
def TIK_GRAFT_VER : Nat := 0x20408
/-- TIK_GRAFT_STATUS (R452). -/
def TIK_GRAFT_STATUS : Nat := 0x2040C
/-- TIK_TXN_STATE (R452). -/
def TIK_TXN_STATE : Nat := 0x20410
/-- TIK_TXN_USED (R452). -/
def TIK_TXN_USED : Nat := 0x20414
/-- TIK_TXN_T (R452). -/
def TIK_TXN_T : Nat := 0x20418
/-- TIK_TXN_APPLIED (R452). -/
def TIK_TXN_APPLIED : Nat := 0x20420
/-- TIK_TXN_ERR (R452). -/
def TIK_TXN_ERR : Nat := 0x20428
/-- TIK_STAT_TXN (R452). -/
def TIK_STAT_TXN : Nat := 0x20430
/-- TIK_STAT_TXNFAIL (R452). -/
def TIK_STAT_TXNFAIL : Nat := 0x20438
/-- TIK_STAT_ROLLBACK (R452). -/
def TIK_STAT_ROLLBACK : Nat := 0x20440
/-- MGT_STATUS (R482). -/
def MGT_STATUS : Nat := 0x30000
/-- MGT_STICKY (R482). -/
def MGT_STICKY : Nat := 0x30004
/-- MGT_FW (R482). -/
def MGT_FW : Nat := 0x30008
/-- MGT_SERIAL (R482). -/
def MGT_SERIAL : Nat := 0x30010
/-- MGT_PLIM (R482). -/
def MGT_PLIM : Nat := 0x30018
/-- MGT_PLIM_HOST (R482). -/
def MGT_PLIM_HOST : Nat := 0x3001C
/-- MGT_THERM (R482). -/
def MGT_THERM : Nat := 0x30020
/-- MGT_STRETCH (R482). -/
def MGT_STRETCH : Nat := 0x30024
/-- MGT_POLICY (R482). -/
def MGT_POLICY : Nat := 0x30028
/-- MGT_TEL_VIN (R482). -/
def MGT_TEL_VIN : Nat := 0x30030
/-- MGT_TEL_PIN (R482). -/
def MGT_TEL_PIN : Nat := 0x30034
/-- MGT_TEL_TEMP (R482). -/
def MGT_TEL_TEMP : Nat := 0x30038
/-- MGT_TEL_TICK (R482). -/
def MGT_TEL_TICK : Nat := 0x30040
/-- MGT_TEL_E (R482). -/
def MGT_TEL_E (p : Nat) : Nat := 0x30048 + 8 * p
/-- MGT_TEL_T (R482). -/
def MGT_TEL_T (p : Nat) : Nat := 0x30068 + 4 * p
/-- MGT_STAT_STRETCH (R482). -/
def MGT_STAT_STRETCH : Nat := 0x30080
/-- MGT_STAT_HOLD (R482). -/
def MGT_STAT_HOLD : Nat := 0x30088
/-- MGT_STAT_CMD (R482). -/
def MGT_STAT_CMD : Nat := 0x30090
/-- MGT_STAT_DENY (R482). -/
def MGT_STAT_DENY : Nat := 0x30098
/-- MGT_GKEY (R482). -/
def MGT_GKEY (k : Nat) : Nat := 0x30100 + 8 * k
/-- OBS_CTRL (R519). -/
def OBS_CTRL : Nat := 0x100000
/-- OBS_STATUS (R519). -/
def OBS_STATUS : Nat := 0x100004
/-- OBS_STICKY (R519). -/
def OBS_STICKY : Nat := 0x100008
/-- OBS_FRAME_ERR (R519). -/
def OBS_FRAME_ERR : Nat := 0x10000C
/-- OBS_FREEZE (R519). -/
def OBS_FREEZE : Nat := 0x100010
/-- OBS_FREEZE_CMD (R519). -/
def OBS_FREEZE_CMD : Nat := 0x100014
/-- OBS_FREEZE_MARK (R519). -/
def OBS_FREEZE_MARK : Nat := 0x100018
/-- OBS_TEST (R519). -/
def OBS_TEST : Nat := 0x10001C
/-- OBS_TEST_STATUS (R519). -/
def OBS_TEST_STATUS : Nat := 0x100020
/-- OBS_TEST_SAVE (R519). -/
def OBS_TEST_SAVE : Nat := 0x100028
/-- OBS_ERR_HOST (R519). -/
def OBS_ERR_HOST : Nat := 0x100030
/-- OBS_ERR_SEQ (R519). -/
def OBS_ERR_SEQ : Nat := 0x100038
/-- OBS_NOTICE (R519). -/
def OBS_NOTICE : Nat := 0x100040
/-- OBS_SCAN (R519). -/
def OBS_SCAN : Nat := 0x100048
/-- OBS_TRACE_BASE (R519). -/
def OBS_TRACE_BASE : Nat := 0x100100
/-- OBS_TRACE_CFG (R519). -/
def OBS_TRACE_CFG : Nat := 0x100108
/-- OBS_TRACE_HEAD (R519). -/
def OBS_TRACE_HEAD : Nat := 0x100110
/-- OBS_STAT_TDROP (R519). -/
def OBS_STAT_TDROP : Nat := 0x100118
/-- OBS_SCAN_DATA (R519). -/
def OBS_SCAN_DATA (j : Nat) : Nat := 0x101000 + 4 * j
/-- OBS_STAT_DUP (R520). -/
def OBS_STAT_DUP : Nat := 0x100080
/-- OBS_STAT_DUPSKIP (R520). -/
def OBS_STAT_DUPSKIP : Nat := 0x100088
/-- OBS_STAT_DUPMIS (R520). -/
def OBS_STAT_DUPMIS : Nat := 0x100090
/-- OBS_STAT_RESMIS (R520). -/
def OBS_STAT_RESMIS : Nat := 0x100098
/-- OBS_STAT_RETIRED (R520). -/
def OBS_STAT_RETIRED : Nat := 0x1000A0
/-- OBS_STAT_SLICE (R520). -/
def OBS_STAT_SLICE : Nat := 0x1000A8
/-- OBS_STAT_ERRREC (R520). -/
def OBS_STAT_ERRREC : Nat := 0x1000B0
/-- OBS_STAT_ERRDROP (R520). -/
def OBS_STAT_ERRDROP : Nat := 0x1000B8
/-- OBS_STAT_TS (R520). -/
def OBS_STAT_TS : Nat := 0x1000C0
/-- PWR_CTRL (R549). -/
def PWR_CTRL : Nat := 0x40000
/-- PWR_STATUS (R549). -/
def PWR_STATUS : Nat := 0x40004
/-- PWR_STICKY (R549). -/
def PWR_STICKY : Nat := 0x40008
/-- PWR_FRAME_ERR (R549). -/
def PWR_FRAME_ERR : Nat := 0x4000C
/-- PWR_VIN (R549). -/
def PWR_VIN : Nat := 0x40014
/-- PWR_VIN_MIN (R549). -/
def PWR_VIN_MIN : Nat := 0x40018
/-- PWR_GPIO (R549). -/
def PWR_GPIO : Nat := 0x4001C
/-- PWR_STAT_WARN (R549). -/
def PWR_STAT_WARN : Nat := 0x40040
/-- PWR_STAT_HOLD (R549). -/
def PWR_STAT_HOLD : Nat := 0x40048
/-- PWR_STAT_MARK (R549). -/
def PWR_STAT_MARK : Nat := 0x40050
/-- PWR_RAIL (R549). -/
def PWR_RAIL (r : Nat) : Nat := 0x40100 + 8 * r
/-- OBS_PAIR_ID (R521). -/
def OBS_PAIR_ID (i : Nat) : Nat := 0x140000 + 0x80 * i
/-- OBS_PAIR_FLAGS (R521). -/
def OBS_PAIR_FLAGS (i : Nat) : Nat := 0x140004 + 0x80 * i
/-- OBS_PAIR_MAC (R521). -/
def OBS_PAIR_MAC (i : Nat) : Nat := 0x140008 + 0x80 * i
/-- OBS_PAIR_VEC (R521). -/
def OBS_PAIR_VEC (i : Nat) : Nat := 0x140010 + 0x80 * i
/-- OBS_PAIR_HBM (R521). -/
def OBS_PAIR_HBM (i : Nat) : Nat := 0x140018 + 0x80 * i
/-- OBS_PAIR_FAB (R521). -/
def OBS_PAIR_FAB (i : Nat) : Nat := 0x140020 + 0x80 * i
/-- OBS_PAIR_PCONS_DMIS (R521). -/
def OBS_PAIR_PCONS_DMIS (i : Nat) : Nat := 0x140028 + 0x80 * i
/-- OBS_PAIR_SEL_EST (R521). -/
def OBS_PAIR_SEL_EST (i : Nat) : Nat := 0x140030 + 0x80 * i
/-- OBS_PAIR_SIG_AUDSIG (R521). -/
def OBS_PAIR_SIG_AUDSIG (i : Nat) : Nat := 0x140038 + 0x80 * i
/-- OBS_PAIR_AUD_MISS (R521). -/
def OBS_PAIR_AUD_MISS (i : Nat) : Nat := 0x140040 + 0x80 * i
/-- OBS_PAIR_MTR_N (R521). -/
def OBS_PAIR_MTR_N (i : Nat) : Nat := 0x140048 + 0x80 * i
/-- OBS_ERRREC (R519). -/
def OBS_ERRREC (i w : Nat) : Nat := 0x180000 + 0x80 * i + 8 * w
/-- OBS_DUP (R520). -/
def OBS_DUP (s : Nat) : Nat := secBase s + 0x600000
/-- OBS_SSTATUS (R520). -/
def OBS_SSTATUS (s : Nat) : Nat := secBase s + 0x600008
/-- SOBS_TRACE_BASE (R520). -/
def SOBS_TRACE_BASE (s : Nat) : Nat := secBase s + 0x600100
/-- SOBS_TRACE_CFG (R520). -/
def SOBS_TRACE_CFG (s : Nat) : Nat := secBase s + 0x600108
/-- SOBS_TRACE_HEAD (R520). -/
def SOBS_TRACE_HEAD (s : Nat) : Nat := secBase s + 0x600110
/-- SOBS_STAT_TDROP (R520). -/
def SOBS_STAT_TDROP (s : Nat) : Nat := secBase s + 0x600118
/-- PWR_RESET_CAUSE (R549). -/
def PWR_RESET_CAUSE : Nat := 0x40010

/-- One register or array of registers: the offset of the first, two array dimensions as count and stride,
the width in bytes, the reset value, and the bits of the codes RWT, RW and WO (R15). -/
structure RegRow where
  name : String
  base : Nat
  n1 : Nat
  st1 : Nat
  n2 : Nat
  st2 : Nat
  bytes : Nat
  reset : Nat
  rwt : Nat
  rw : Nat
  wo : Nat
  deriving DecidableEq, Repr

/-- Registers TIK_CTRL to TIK_OFFS_D. -/
def hubRowsTik : List RegRow :=
  [ ⟨"TIK_CTRL", 0x20000, 1, 0, 1, 0, 4, 0, 0xF, 0, 0⟩,
    ⟨"TIK_STATUS", 0x20004, 1, 0, 1, 0, 4, 0x10, 0, 0, 0⟩,
    ⟨"TIK_FRAME_LEN", 0x20008, 1, 0, 1, 0, 4, 0x30D40, 0x7FFFFFF, 0, 0⟩,
    ⟨"TIK_LEAD", 0x2000C, 1, 0, 1, 0, 4, 0x1388, 0xFFFF, 0, 0⟩,
    ⟨"TIK_DELAY_COMP", 0x20010, 1, 0, 1, 0, 4, 0, 0xFFFF, 0, 0⟩,
    ⟨"TIK_TOKEN_LAT", 0x20014, 1, 0, 1, 0, 4, 0, 0, 0, 0⟩,
    ⟨"TIK_MASTER", 0x20018, 1, 0, 1, 0, 4, 0, 0xFFFFFFFF, 0, 0⟩,
    ⟨"TIK_REPLAY", 0x2001C, 1, 0, 1, 0, 4, 0x303, 0xFFFF, 0, 0⟩,
    ⟨"TIK_COUNT", 0x20020, 1, 0, 1, 0, 8, 0, 0, 0, 0⟩,
    ⟨"TIK_FRAME_NO", 0x20028, 1, 0, 1, 0, 8, 0, 0, 0, 0⟩,
    ⟨"TIK_SEASON_POS", 0x20030, 1, 0, 1, 0, 4, 0, 0, 0, 0⟩,
    ⟨"TIK_VINTAGE", 0x20034, 1, 0, 1, 0, 4, 0, 0, 0, 0⟩,
    ⟨"TIK_FAIL_CAUSE", 0x20038, 1, 0, 1, 0, 4, 0, 0, 0, 0⟩,
    ⟨"TIK_STRETCH", 0x2003C, 1, 0, 1, 0, 4, 0, 0, 0, 0⟩,
    ⟨"TIK_HERD_STATE", 0x20040, 1, 0, 1, 0, 8, 0, 0, 0, 0⟩,
    ⟨"TIK_STICKY", 0x20048, 1, 0, 1, 0, 4, 0, 0, 0, 0⟩,
    ⟨"TIK_STAT_COMMIT", 0x20050, 1, 0, 1, 0, 8, 0, 0, 0, 0⟩,
    ⟨"TIK_STAT_FAIL", 0x20058, 1, 0, 1, 0, 8, 0, 0, 0, 0⟩,
    ⟨"TIK_STAT_STRETCH", 0x20060, 1, 0, 1, 0, 8, 0, 0, 0, 0⟩,
    ⟨"TIK_STAT_HOLD", 0x20068, 1, 0, 1, 0, 8, 0, 0, 0, 0⟩,
    ⟨"TIK_MEMBERS", 0x20070, 1, 0, 1, 0, 8, 0, 0xFFFFFFFFFF, 0, 0⟩,
    ⟨"TIK_STAT_LATE", 0x20078, 1, 0, 1, 0, 8, 0, 0, 0, 0⟩,
    ⟨"TIK_OFFS_C", 0x20100, 3, 0x10, 1, 0, 4, 0, 0x3FFFFFFF, 0, 0⟩,
    ⟨"TIK_OFFS_D", 0x20104, 3, 0x10, 1, 0, 4, 0, 0x3FFFFFFF, 0, 0⟩ ]

/-- Registers TIK_OFFS_G to TIK_STAT_ROLLBACK. -/
def hubRowsTik1 : List RegRow :=
  [ ⟨"TIK_OFFS_G", 0x20108, 3, 0x10, 1, 0, 4, 0, 0x3FFFFFFF, 0, 0⟩,
    ⟨"TIK_SPAN", 0x20200, 16, 4, 1, 0, 4, 0, 0x3FFFF, 0, 0⟩,
    ⟨"TIK_GRAFT_ID", 0x20400, 1, 0, 1, 0, 8, 0, 0, 0, 0⟩,
    ⟨"TIK_GRAFT_VER", 0x20408, 1, 0, 1, 0, 4, 0, 0, 0, 0⟩,
    ⟨"TIK_GRAFT_STATUS", 0x2040C, 1, 0, 1, 0, 4, 0, 0, 0, 0⟩,
    ⟨"TIK_TXN_STATE", 0x20410, 1, 0, 1, 0, 4, 0, 0, 0, 0⟩,
    ⟨"TIK_TXN_USED", 0x20414, 1, 0, 1, 0, 4, 0, 0, 0, 0⟩,
    ⟨"TIK_TXN_T", 0x20418, 1, 0, 1, 0, 8, 0, 0, 0, 0⟩,
    ⟨"TIK_TXN_APPLIED", 0x20420, 1, 0, 1, 0, 8, 0, 0, 0, 0⟩,
    ⟨"TIK_TXN_ERR", 0x20428, 1, 0, 1, 0, 8, 0, 0, 0, 0⟩,
    ⟨"TIK_STAT_TXN", 0x20430, 1, 0, 1, 0, 8, 0, 0, 0, 0⟩,
    ⟨"TIK_STAT_TXNFAIL", 0x20438, 1, 0, 1, 0, 8, 0, 0, 0, 0⟩,
    ⟨"TIK_STAT_ROLLBACK", 0x20440, 1, 0, 1, 0, 8, 0, 0, 0, 0⟩ ]

/-- Registers COR_CTRL to COR_FMT. -/
def coreRowsCor : List RegRow :=
  [ ⟨"COR_CTRL", 0, 1, 0, 1, 0, 4, 0, 0xF, 0, 0⟩,
    ⟨"COR_STATUS", 4, 1, 0, 1, 0, 4, 0, 0, 0, 0⟩,
    ⟨"COR_PART", 8, 1, 0, 1, 0, 4, 0x5001, 0x7F1F, 0, 0⟩,
    ⟨"COR_FAULT", 0xC, 1, 0, 1, 0, 4, 0, 0, 0, 0⟩,
    ⟨"COR_ENTRY", 0x10, 3, 4, 1, 0, 4, 0, 0xFFF8, 0, 0⟩,
    ⟨"COR_PC", 0x1C, 1, 0, 1, 0, 4, 0, 0, 0, 0⟩,
    ⟨"COR_JOIN", 0x20, 3, 8, 1, 0, 8, 0, 0xFFFFFFFFFFFF, 0, 0⟩,
    ⟨"COR_ARRIVED", 0x38, 1, 0, 1, 0, 8, 0, 0, 0, 0⟩,
    ⟨"COR_CYCLE", 0x40, 1, 0, 1, 0, 8, 0, 0, 0, 0⟩,
    ⟨"COR_EV_STICKY", 0x48, 1, 0, 1, 0, 4, 0, 0, 0, 0⟩,
    ⟨"COR_EV_FRAME_OVF", 0x4C, 1, 0, 1, 0, 4, 0, 0, 0, 0⟩,
    ⟨"COR_EV_COUNT", 0x50, 8, 4, 1, 0, 4, 0, 0, 0, 0⟩,
    ⟨"COR_ACC_STATE", 0x70, 1, 0, 1, 0, 4, 0, 0, 0, 0⟩,
    ⟨"COR_FTQ", 0x74, 1, 0, 1, 0, 4, 0, 0, 0, 0⟩,
    ⟨"COR_STAT_MAC", 0x80, 1, 0, 1, 0, 8, 0, 0, 0, 0⟩,
    ⟨"COR_STAT_VEC", 0x88, 1, 0, 1, 0, 8, 0, 0, 0, 0⟩,
    ⟨"COR_STAT_ASK", 0x90, 1, 0, 1, 0, 8, 0, 0, 0, 0⟩,
    ⟨"COR_STAT_WAIT", 0x98, 1, 0, 1, 0, 8, 0, 0, 0, 0⟩,
    ⟨"COR_STAT_HERD", 0xA0, 1, 0, 1, 0, 8, 0, 0, 0, 0⟩,
    ⟨"COR_STAT_BANK", 0xA8, 1, 0, 1, 0, 8, 0, 0, 0, 0⟩,
    ⟨"COR_STAT_FTQ", 0xB0, 1, 0, 1, 0, 8, 0, 0, 0, 0⟩,
    ⟨"COR_STAT_EVLEFT", 0xB8, 1, 0, 1, 0, 8, 0, 0, 0, 0⟩,
    ⟨"COR_STAT_LDG", 0xC0, 1, 0, 1, 0, 8, 0, 0, 0, 0⟩,
    ⟨"COR_FMT", 0x100, 1, 0, 1, 0, 4, 1, 1, 0, 0⟩ ]

/-- Registers COR_FMT_STICKY to COR_OLK_MTR_PEAK. -/
def coreRowsCor1 : List RegRow :=
  [ ⟨"COR_FMT_STICKY", 0x104, 1, 0, 1, 0, 4, 0, 0, 0, 0⟩,
    ⟨"COR_FMT_FRAME", 0x108, 1, 0, 1, 0, 4, 0, 0, 0, 0⟩,
    ⟨"COR_STAT_FLUSH", 0x110, 1, 0, 1, 0, 8, 0, 0, 0, 0⟩,
    ⟨"COR_OLK_ID", 0x200, 8, 0x40, 1, 0, 4, 0, 0xFFFFFFFF, 0, 0⟩,
    ⟨"COR_OLK_CTRL", 0x204, 8, 0x40, 1, 0, 4, 1, 0xF307FF, 0, 0⟩,
    ⟨"COR_OLK_THR", 0x208, 8, 0x40, 1, 0, 4, 0, 0xFFFFFFFF, 0, 0⟩,
    ⟨"COR_OLK_REQ", 0x20C, 8, 0x40, 1, 0, 4, 0, 0, 0, 0⟩,
    ⟨"COR_OLK_EST", 0x210, 8, 0x40, 1, 0, 4, 0, 0, 0, 0⟩,
    ⟨"COR_OLK_SEL", 0x214, 8, 0x40, 1, 0, 4, 0, 0, 0, 0⟩,
    ⟨"COR_OLK_AUD", 0x218, 8, 0x40, 1, 0, 4, 0, 0, 0, 0⟩,
    ⟨"COR_OLK_STRAY", 0x21C, 8, 0x40, 1, 0, 4, 0, 0, 0, 0⟩,
    ⟨"COR_OLK_UNEST", 0x220, 8, 0x40, 1, 0, 4, 0, 0, 0, 0⟩,
    ⟨"COR_OLK_MTR_N", 0x224, 8, 0x40, 1, 0, 4, 0, 0, 0, 0⟩,
    ⟨"COR_OLK_MTR_MISS", 0x228, 8, 0x40, 1, 0, 4, 0, 0, 0, 0⟩,
    ⟨"COR_OLK_MTR_FALSE", 0x22C, 8, 0x40, 1, 0, 4, 0, 0, 0, 0⟩,
    ⟨"COR_OLK_SIG", 0x230, 8, 0x40, 1, 0, 4, 0, 0, 0, 0⟩,
    ⟨"COR_OLK_AUD_N", 0x234, 8, 0x40, 1, 0, 4, 0, 0, 0, 0⟩,
    ⟨"COR_OLK_AUD_SIG", 0x238, 8, 0x40, 1, 0, 4, 0, 0, 0, 0⟩,
    ⟨"COR_OLK_MTR_PEAK", 0x23C, 8, 0x40, 1, 0, 4, 0, 0, 0, 0⟩ ]

/-- Registers COR_SEED to COR_SEED. -/
def secRowsCor : List RegRow :=
  [ ⟨"COR_SEED", 0x200000, 1, 0, 1, 0, 8, 0, 0xFFFFFFFFFFFFFFFF, 0, 0⟩ ]

/-- Registers SCH_CTRL to SCH_TICKET. -/
def secRowsSch : List RegRow :=
  [ ⟨"SCH_CTRL", 0x400000, 1, 0, 1, 0, 4, 2, 3, 0, 0⟩,
    ⟨"SCH_STATUS", 0x400004, 1, 0, 1, 0, 4, 0, 0, 0, 0⟩,
    ⟨"SCH_STICKY", 0x400008, 1, 0, 1, 0, 4, 0, 0, 0, 0⟩,
    ⟨"SCH_FRAME_ERR", 0x40000C, 1, 0, 1, 0, 4, 0, 0, 0, 0⟩,
    ⟨"SCH_PRELOAD", 0x400010, 3, 8, 1, 0, 8, 0, 0x7FFF00FFFFFFFFFF, 0, 0⟩,
    ⟨"SCH_DELAY", 0x400028, 1, 0, 1, 0, 8, 0, 0xFFFFFFFFFF, 0, 0⟩,
    ⟨"SCH_DELAY_USE", 0x400030, 1, 0, 1, 0, 4, 0, 0, 0, 0⟩,
    ⟨"SCH_ST_BASE", 0x400038, 1, 0, 1, 0, 8, 0, 0, 0, 0⟩,
    ⟨"SCH_STAT_SUBMIT", 0x400040, 1, 0, 1, 0, 8, 0, 0, 0, 0⟩,
    ⟨"SCH_STAT_HANDOVER", 0x400048, 1, 0, 1, 0, 8, 0, 0, 0, 0⟩,
    ⟨"SCH_STAT_RELEASE", 0x400050, 1, 0, 1, 0, 8, 0, 0, 0, 0⟩,
    ⟨"SCH_STAT_BP", 0x400058, 1, 0, 1, 0, 8, 0, 0, 0, 0⟩,
    ⟨"SCH_STAT_DROP", 0x400060, 1, 0, 1, 0, 8, 0, 0, 0, 0⟩,
    ⟨"SCH_STAT_LEFT", 0x400068, 1, 0, 1, 0, 8, 0, 0, 0, 0⟩,
    ⟨"SCH_STAT_UNDERFLOW", 0x400070, 1, 0, 1, 0, 8, 0, 0, 0, 0⟩,
    ⟨"SCH_STAT_DELAY", 0x400078, 1, 0, 1, 0, 8, 0, 0, 0, 0⟩,
    ⟨"SCH_QCFG", 0x410000, 16384, 8, 1, 0, 8, 0, 0xFFFFF0000007BFFF, 0, 0⟩,
    ⟨"SCH_QSTAT", 0x430000, 16384, 4, 1, 0, 4, 0, 0, 0, 0⟩,
    ⟨"SCH_BIND", 0x440000, 2048, 0x20, 3, 8, 8, 0, 0xBFFFBFFFBFFFBFFF, 0, 0⟩,
    ⟨"SCH_DC_INIT", 0x450000, 3, 0x8000, 8192, 4, 4, 0, 0xFFFFFFFF, 0, 0⟩,
    ⟨"SCH_DC", 0x468000, 8192, 4, 1, 0, 4, 0, 0, 0, 0⟩,
    ⟨"SCH_FLOW", 0x470000, 4096, 8, 1, 0, 8, 0, 0, 0, 0⟩,
    ⟨"SCH_TICKET", 0x478000, 2048, 4, 1, 0, 4, 0, 0, 0, 0⟩ ]

/-- Registers SMP_CTRL to SMP_GECOUNT. -/
def secRowsSmp : List RegRow :=
  [ ⟨"SMP_CTRL", 0x520000, 1, 0, 1, 0, 4, 0, 1, 0, 0⟩,
    ⟨"SMP_STATUS", 0x520004, 1, 0, 1, 0, 4, 0, 0, 0, 0⟩,
    ⟨"SMP_STICKY", 0x520008, 1, 0, 1, 0, 4, 0, 0, 0, 0⟩,
    ⟨"SMP_FRAME_ERR", 0x52000C, 1, 0, 1, 0, 4, 0, 0, 0, 0⟩,
    ⟨"SMP_WORK", 0x520010, 1, 0, 1, 0, 8, 0, 0xFFFFFFFFFF, 0, 0⟩,
    ⟨"SMP_STAT_REQ", 0x520040, 1, 0, 1, 0, 8, 0, 0, 0, 0⟩,
    ⟨"SMP_STAT_VERT", 0x520048, 1, 0, 1, 0, 8, 0, 0, 0, 0⟩,
    ⟨"SMP_STAT_EDGE", 0x520050, 1, 0, 1, 0, 8, 0, 0, 0, 0⟩,
    ⟨"SMP_STAT_DUP", 0x520058, 1, 0, 1, 0, 8, 0, 0, 0, 0⟩,
    ⟨"SMP_STAT_TRUNC", 0x520060, 1, 0, 1, 0, 8, 0, 0, 0, 0⟩,
    ⟨"SMP_STAT_INELIG", 0x520068, 1, 0, 1, 0, 8, 0, 0, 0, 0⟩,
    ⟨"SMP_STAT_BAD", 0x520070, 1, 0, 1, 0, 8, 0, 0, 0, 0⟩,
    ⟨"SMP_STAT_LIMIT", 0x520078, 1, 0, 1, 0, 8, 0, 0, 0, 0⟩,
    ⟨"SMP_GVIDX", 0x520100, 16, 0x40, 1, 0, 8, 0, 0xFFFFFFFFFF, 0, 0⟩,
    ⟨"SMP_GEDGE", 0x520108, 16, 0x40, 1, 0, 8, 0, 0xFFFFFFFFFF, 0, 0⟩,
    ⟨"SMP_GWGT", 0x520110, 16, 0x40, 1, 0, 8, 0, 0xFFFFFFFFFF, 0, 0⟩,
    ⟨"SMP_GTS", 0x520118, 16, 0x40, 1, 0, 8, 0, 0xFFFFFFFFFF, 0, 0⟩,
    ⟨"SMP_GVCOUNT", 0x520120, 16, 0x40, 1, 0, 4, 0, 0xFFFFFFFF, 0, 0⟩,
    ⟨"SMP_GCFG", 0x520124, 16, 0x40, 1, 0, 4, 0, 7, 0, 0⟩,
    ⟨"SMP_GECOUNT", 0x520128, 16, 0x40, 1, 0, 8, 0, 0xFFFFFFFFFF, 0, 0⟩ ]

/-- Registers GSE_CTRL to GSE_STAT_PEAK. -/
def secRowsGse : List RegRow :=
  [ ⟨"GSE_CTRL", 0x530000, 1, 0, 1, 0, 4, 0, 0xF1, 0, 0⟩,
    ⟨"GSE_STATUS", 0x530004, 1, 0, 1, 0, 4, 0, 0, 0, 0⟩,
    ⟨"GSE_STICKY", 0x530008, 1, 0, 1, 0, 4, 0, 0, 0, 0⟩,
    ⟨"GSE_FRAME_ERR", 0x53000C, 1, 0, 1, 0, 4, 0, 0, 0, 0⟩,
    ⟨"GSE_STAT_GREQ", 0x530040, 1, 0, 1, 0, 8, 0, 0, 0, 0⟩,
    ⟨"GSE_STAT_ROWS", 0x530048, 1, 0, 1, 0, 8, 0, 0, 0, 0⟩,
    ⟨"GSE_STAT_FETCH", 0x530050, 1, 0, 1, 0, 8, 0, 0, 0, 0⟩,
    ⟨"GSE_STAT_JOIN", 0x530058, 1, 0, 1, 0, 8, 0, 0, 0, 0⟩,
    ⟨"GSE_STAT_HIT", 0x530060, 1, 0, 1, 0, 8, 0, 0, 0, 0⟩,
    ⟨"GSE_STAT_REMOTE", 0x530068, 1, 0, 1, 0, 8, 0, 0, 0, 0⟩,
    ⟨"GSE_STAT_RA", 0x530070, 1, 0, 1, 0, 8, 0, 0, 0, 0⟩,
    ⟨"GSE_STAT_RA_DROP", 0x530078, 1, 0, 1, 0, 8, 0, 0, 0, 0⟩,
    ⟨"GSE_STAT_SREQ", 0x530080, 1, 0, 1, 0, 8, 0, 0, 0, 0⟩,
    ⟨"GSE_STAT_SROWS", 0x530088, 1, 0, 1, 0, 8, 0, 0, 0, 0⟩,
    ⟨"GSE_STAT_TDEC", 0x530090, 1, 0, 1, 0, 8, 0, 0, 0, 0⟩,
    ⟨"GSE_STAT_TENC", 0x530098, 1, 0, 1, 0, 8, 0, 0, 0, 0⟩,
    ⟨"GSE_STAT_TFALL", 0x5300A0, 1, 0, 1, 0, 8, 0, 0, 0, 0⟩,
    ⟨"GSE_STAT_PEAK", 0x5300A8, 1, 0, 1, 0, 8, 0, 0, 0, 0⟩ ]

/-- Registers TBL_CTRL to TBL_TMAP. -/
def secRowsTbl : List RegRow :=
  [ ⟨"TBL_CTRL", 0x480000, 1, 0, 1, 0, 4, 0x402, 0xF03, 0, 0⟩,
    ⟨"TBL_STATUS", 0x480004, 1, 0, 1, 0, 4, 0, 0, 0, 0⟩,
    ⟨"TBL_STICKY", 0x480008, 1, 0, 1, 0, 4, 0, 0, 0, 0⟩,
    ⟨"TBL_FRAME_ERR", 0x48000C, 1, 0, 1, 0, 4, 0, 0, 0, 0⟩,
    ⟨"TBL_FMT_STICKY", 0x480010, 1, 0, 1, 0, 4, 0, 0, 0, 0⟩,
    ⟨"TBL_FMT_FRAME", 0x480014, 1, 0, 1, 0, 4, 0, 0, 0, 0⟩,
    ⟨"TBL_RC_CFG", 0x480018, 1, 0, 1, 0, 4, 0x114, 0x11F, 0, 0⟩,
    ⟨"TBL_STAT_LOOKUP", 0x480040, 1, 0, 1, 0, 8, 0, 0, 0, 0⟩,
    ⟨"TBL_STAT_KEYS", 0x480048, 1, 0, 1, 0, 8, 0, 0, 0, 0⟩,
    ⟨"TBL_STAT_SERVED", 0x480050, 1, 0, 1, 0, 8, 0, 0, 0, 0⟩,
    ⟨"TBL_STAT_RC_FILL", 0x480058, 1, 0, 1, 0, 8, 0, 0, 0, 0⟩,
    ⟨"TBL_STAT_RC_EVICT", 0x480060, 1, 0, 1, 0, 8, 0, 0, 0, 0⟩,
    ⟨"TBL_STAT_RC_INVAL", 0x480068, 1, 0, 1, 0, 8, 0, 0, 0, 0⟩,
    ⟨"TBL_STAT_LEVEL", 0x480070, 1, 0, 1, 0, 8, 0, 0, 0, 0⟩,
    ⟨"TBL_STAT_EMPTY", 0x480078, 1, 0, 1, 0, 8, 0, 0, 0, 0⟩,
    ⟨"TBL_STAT_WDROP", 0x480080, 1, 0, 1, 0, 8, 0, 0, 0, 0⟩,
    ⟨"TBL_STAT_FLUSH", 0x480088, 1, 0, 1, 0, 8, 0, 0, 0, 0⟩,
    ⟨"TBL_TCFG", 0x490000, 256, 0x40, 1, 0, 8, 0, 0x7F003F, 0, 0⟩,
    ⟨"TBL_TBASE0", 0x490008, 256, 0x40, 1, 0, 8, 0, 0xFFFFFFFFFF, 0, 0⟩,
    ⟨"TBL_TBASE1", 0x490010, 256, 0x40, 1, 0, 8, 0, 0xFFFFFFFFFF, 0, 0⟩,
    ⟨"TBL_TDIR", 0x490018, 256, 0x40, 1, 0, 8, 0, 0xFFFFFFFFFF, 0, 0⟩,
    ⟨"TBL_TSIZE", 0x490020, 256, 0x40, 1, 0, 8, 0, 0xFFFFFF00FFFFFFFF, 0, 0⟩,
    ⟨"TBL_TSLOTS", 0x490028, 256, 0x40, 1, 0, 8, 0, 0xFFFFFFFFFFFFFFFF, 0, 0⟩,
    ⟨"TBL_TMAP", 0x490030, 256, 0x40, 1, 0, 8, 0, 0xFFFFFFFFFFFFFFFF, 0, 0⟩ ]

/-- Registers TBL_TDEF to TBL_TPEND. -/
def secRowsTbl1 : List RegRow :=
  [ ⟨"TBL_TDEF", 0x490038, 256, 0x40, 1, 0, 8, 0, 0xFFFFFFFFFF, 0, 0⟩,
    ⟨"TBL_TSTAT_INV", 0x4A0000, 256, 0x20, 1, 0, 8, 0, 0, 0, 0⟩,
    ⟨"TBL_TSTAT_MISS", 0x4A0008, 256, 0x20, 1, 0, 8, 0, 0, 0, 0⟩,
    ⟨"TBL_TPEND", 0x4A0010, 256, 0x20, 1, 0, 8, 0, 0, 0, 0⟩ ]

/-- Registers PRS_CTRL to PRS_TCFG. -/
def secRowsPrs : List RegRow :=
  [ ⟨"PRS_CTRL", 0x4C0000, 1, 0, 1, 0, 4, 2, 3, 0, 0⟩,
    ⟨"PRS_STATUS", 0x4C0004, 1, 0, 1, 0, 4, 0, 0, 0, 0⟩,
    ⟨"PRS_STICKY", 0x4C0008, 1, 0, 1, 0, 4, 0, 0, 0, 0⟩,
    ⟨"PRS_FRAME_ERR", 0x4C000C, 1, 0, 1, 0, 4, 0, 0, 0, 0⟩,
    ⟨"PRS_STAGE", 0x4C0010, 1, 0, 1, 0, 8, 0, 0xFF0000FFFFFFFFFF, 0, 0⟩,
    ⟨"PRS_PEER", 0x4C0018, 1, 0, 1, 0, 4, 0, 0xFFFFFFFF, 0, 0⟩,
    ⟨"PRS_FMT_STICKY", 0x4C0020, 1, 0, 1, 0, 4, 0, 0, 0, 0⟩,
    ⟨"PRS_FMT_FRAME", 0x4C0024, 1, 0, 1, 0, 4, 0, 0, 0, 0⟩,
    ⟨"PRS_STAT_ACCEPT", 0x4C0040, 1, 0, 1, 0, 8, 0, 0, 0, 0⟩,
    ⟨"PRS_STAT_CONTRIB", 0x4C0048, 1, 0, 1, 0, 8, 0, 0, 0, 0⟩,
    ⟨"PRS_STAT_ADDS", 0x4C0050, 1, 0, 1, 0, 8, 0, 0, 0, 0⟩,
    ⟨"PRS_STAT_HOT", 0x4C0058, 1, 0, 1, 0, 8, 0, 0, 0, 0⟩,
    ⟨"PRS_STAT_OUT", 0x4C0060, 1, 0, 1, 0, 8, 0, 0, 0, 0⟩,
    ⟨"PRS_STAT_IN", 0x4C0068, 1, 0, 1, 0, 8, 0, 0, 0, 0⟩,
    ⟨"PRS_STAT_INVALID", 0x4C0070, 1, 0, 1, 0, 8, 0, 0, 0, 0⟩,
    ⟨"PRS_STAT_MISSING", 0x4C0078, 1, 0, 1, 0, 8, 0, 0, 0, 0⟩,
    ⟨"PRS_STAT_COMPOSED", 0x4C0080, 1, 0, 1, 0, 8, 0, 0, 0, 0⟩,
    ⟨"PRS_STAT_SPILL", 0x4C0088, 1, 0, 1, 0, 8, 0, 0, 0, 0⟩,
    ⟨"PRS_STAT_UNSORTED", 0x4C0090, 1, 0, 1, 0, 8, 0, 0, 0, 0⟩,
    ⟨"PRS_QUOTA", 0x4D0000, 2048, 8, 1, 0, 8, 0, 0x1FFFFF000FFFFF, 0, 0⟩,
    ⟨"PRS_TCFG", 0x4E0000, 256, 4, 1, 0, 4, 0, 1, 0, 0⟩ ]

/-- Registers OPT_CTRL to OPT_TMASTER. -/
def secRowsOpt : List RegRow :=
  [ ⟨"OPT_CTRL", 0x500000, 1, 0, 1, 0, 4, 2, 3, 0, 0⟩,
    ⟨"OPT_STATUS", 0x500004, 1, 0, 1, 0, 4, 0, 0, 0, 0⟩,
    ⟨"OPT_STICKY", 0x500008, 1, 0, 1, 0, 4, 0, 0, 0, 0⟩,
    ⟨"OPT_FRAME_ERR", 0x50000C, 1, 0, 1, 0, 4, 0, 0, 0, 0⟩,
    ⟨"OPT_FMT_STICKY", 0x500010, 1, 0, 1, 0, 4, 0, 0, 0, 0⟩,
    ⟨"OPT_FMT_FRAME", 0x500014, 1, 0, 1, 0, 4, 0, 0, 0, 0⟩,
    ⟨"OPT_BLK", 0x500020, 2, 8, 1, 0, 8, 0, 0x7FFF00FFFFFFFFFF, 0, 0⟩,
    ⟨"OPT_STAT_ROWS", 0x500040, 1, 0, 1, 0, 8, 0, 0, 0, 0⟩,
    ⟨"OPT_STAT_TILES", 0x500048, 1, 0, 1, 0, 8, 0, 0, 0, 0⟩,
    ⟨"OPT_STAT_ELEM", 0x500050, 1, 0, 1, 0, 8, 0, 0, 0, 0⟩,
    ⟨"OPT_STAT_SKIP", 0x500058, 1, 0, 1, 0, 8, 0, 0, 0, 0⟩,
    ⟨"OPT_STAT_NANROW", 0x500060, 1, 0, 1, 0, 8, 0, 0, 0, 0⟩,
    ⟨"OPT_STAT_ZROW", 0x500068, 1, 0, 1, 0, 8, 0, 0, 0, 0⟩,
    ⟨"OPT_STAT_STREAM", 0x500070, 1, 0, 1, 0, 8, 0, 0, 0, 0⟩,
    ⟨"OPT_PCFG", 0x500100, 8, 0x20, 1, 0, 4, 0, 0x3FFFF, 0, 0⟩,
    ⟨"OPT_PLR", 0x500104, 8, 0x20, 1, 0, 4, 0, 0xFFFFFFFF, 0, 0⟩,
    ⟨"OPT_PBETA1", 0x500108, 8, 0x20, 1, 0, 4, 0, 0xFFFFFFFF, 0, 0⟩,
    ⟨"OPT_PBETA2", 0x50010C, 8, 0x20, 1, 0, 4, 0, 0xFFFFFFFF, 0, 0⟩,
    ⟨"OPT_PPOW1", 0x500110, 8, 0x20, 1, 0, 4, 0, 0, 0, 0⟩,
    ⟨"OPT_PPOW2", 0x500114, 8, 0x20, 1, 0, 4, 0, 0, 0, 0⟩,
    ⟨"OPT_PSTEP", 0x500118, 8, 0x20, 1, 0, 8, 0, 0, 0, 0⟩,
    ⟨"OPT_PROG", 0x500800, 8, 0x80, 16, 8, 8, 0, 0xFFFFFFFFFFFFFFFF, 0, 0⟩,
    ⟨"OPT_TCFG", 0x510000, 256, 0x40, 1, 0, 8, 0, 0xFFF003F, 0, 0⟩,
    ⟨"OPT_TMASTER", 0x510008, 256, 0x40, 1, 0, 8, 0, 0xFFFFFFFFFF, 0, 0⟩ ]

/-- Registers OPT_TMOM1 to OPT_TGRAD. -/
def secRowsOpt1 : List RegRow :=
  [ ⟨"OPT_TMOM1", 0x510010, 256, 0x40, 1, 0, 8, 0, 0xFFFFFFFFFF, 0, 0⟩,
    ⟨"OPT_TMOM2", 0x510018, 256, 0x40, 1, 0, 8, 0, 0xFFFFFFFFFF, 0, 0⟩,
    ⟨"OPT_TGRAD", 0x510020, 256, 0x40, 1, 0, 8, 0, 0xFFFFFFFFFF, 0, 0⟩ ]

/-- Registers MEM_STATUS to MEM_RGN_BASE. -/
def secRowsMem : List RegRow :=
  [ ⟨"MEM_STATUS", 0x540000, 1, 0, 1, 0, 4, 0, 0, 0, 0⟩,
    ⟨"MEM_STICKY", 0x540008, 1, 0, 1, 0, 4, 0, 0, 0, 0⟩,
    ⟨"MEM_FRAME_ERR", 0x54000C, 1, 0, 1, 0, 4, 0, 0, 0, 0⟩,
    ⟨"MEM_SCRUB", 0x540010, 1, 0, 1, 0, 4, 0x40001010, 0xFF00FFFF, 0, 0⟩,
    ⟨"MEM_THERM", 0x540014, 1, 0, 1, 0, 4, 0x64, 0xFF, 0, 0⟩,
    ⟨"MEM_TEMP", 0x540018, 1, 0, 1, 0, 4, 0, 0, 0, 0⟩,
    ⟨"MEM_JOURNAL", 0x540020, 1, 0, 1, 0, 8, 0, 0xFFFF00FFFFFFFFFF, 0, 0⟩,
    ⟨"MEM_JOURNAL_USE", 0x540028, 1, 0, 1, 0, 4, 0, 0, 0, 0⟩,
    ⟨"MEM_ERRLOG", 0x540030, 1, 0, 1, 0, 8, 0, 0, 0, 0⟩,
    ⟨"MEM_STAT_RD", 0x540040, 1, 0, 1, 0, 8, 0, 0, 0, 0⟩,
    ⟨"MEM_STAT_WR", 0x540048, 1, 0, 1, 0, 8, 0, 0, 0, 0⟩,
    ⟨"MEM_STAT_CE", 0x540050, 1, 0, 1, 0, 8, 0, 0, 0, 0⟩,
    ⟨"MEM_STAT_CE2", 0x540058, 1, 0, 1, 0, 8, 0, 0, 0, 0⟩,
    ⟨"MEM_STAT_UE", 0x540060, 1, 0, 1, 0, 8, 0, 0, 0, 0⟩,
    ⟨"MEM_STAT_PREAD", 0x540068, 1, 0, 1, 0, 8, 0, 0, 0, 0⟩,
    ⟨"MEM_STAT_PCONS", 0x540070, 1, 0, 1, 0, 8, 0, 0, 0, 0⟩,
    ⟨"MEM_STAT_SCRUB", 0x540078, 1, 0, 1, 0, 8, 0, 0, 0, 0⟩,
    ⟨"MEM_STAT_DENY", 0x540080, 1, 0, 1, 0, 8, 0, 0, 0, 0⟩,
    ⟨"MEM_STAT_RA_DROP", 0x540088, 1, 0, 1, 0, 8, 0, 0, 0, 0⟩,
    ⟨"MEM_STAT_JOURNAL", 0x540090, 1, 0, 1, 0, 8, 0, 0, 0, 0⟩,
    ⟨"MEM_STAT_LDG", 0x540098, 1, 0, 1, 0, 8, 0, 0, 0, 0⟩,
    ⟨"MEM_STAT_THROTTLE", 0x5400A0, 1, 0, 1, 0, 8, 0, 0, 0, 0⟩,
    ⟨"MEM_SLICE", 0x541000, 512, 4, 1, 0, 4, 0, 7, 0, 0⟩,
    ⟨"MEM_RGN_BASE", 0x542000, 64, 0x20, 1, 0, 8, 0, 0xFFFFFFF000, 0, 0⟩ ]

/-- Registers MEM_RGN_LIMIT to MEM_RGN_ATTR. -/
def secRowsMem1 : List RegRow :=
  [ ⟨"MEM_RGN_LIMIT", 0x542008, 64, 0x20, 1, 0, 8, 0, 0xFFFFFFF000, 0, 0⟩,
    ⟨"MEM_RGN_ATTR", 0x542010, 64, 0x20, 1, 0, 4, 0, 0x1FF, 0, 0⟩ ]

/-- Registers RCK_CTRL to RCK_STAT_PEAK. -/
def secRowsRck : List RegRow :=
  [ ⟨"RCK_CTRL", 0x550000, 1, 0, 1, 0, 4, 0, 1, 0, 0⟩,
    ⟨"RCK_STATUS", 0x550004, 1, 0, 1, 0, 4, 0, 0, 0, 0⟩,
    ⟨"RCK_STICKY", 0x550008, 1, 0, 1, 0, 4, 0, 0, 0, 0⟩,
    ⟨"RCK_FRAME_ERR", 0x55000C, 1, 0, 1, 0, 4, 0, 0, 0, 0⟩,
    ⟨"RCK_STAT_XFER", 0x550040, 1, 0, 1, 0, 8, 0, 0, 0, 0⟩,
    ⟨"RCK_STAT_BYTES", 0x550048, 1, 0, 1, 0, 8, 0, 0, 0, 0⟩,
    ⟨"RCK_STAT_REMOTE", 0x550050, 1, 0, 1, 0, 8, 0, 0, 0, 0⟩,
    ⟨"RCK_STAT_REFUSED", 0x550058, 1, 0, 1, 0, 8, 0, 0, 0, 0⟩,
    ⟨"RCK_STAT_TAGSTALL", 0x550060, 1, 0, 1, 0, 8, 0, 0, 0, 0⟩,
    ⟨"RCK_STAT_PEAK", 0x550068, 1, 0, 1, 0, 8, 0, 0, 0, 0⟩ ]

/-- Registers FAB_CTRL to FAB_PSTAT_RX. -/
def hubRowsFab : List RegRow :=
  [ ⟨"FAB_CTRL", 0x800000, 1, 0, 1, 0, 4, 0, 0, 3, 0⟩,
    ⟨"FAB_STATUS", 0x800004, 1, 0, 1, 0, 4, 0, 0, 0, 0⟩,
    ⟨"FAB_STICKY", 0x800008, 1, 0, 1, 0, 4, 0, 0, 0, 0⟩,
    ⟨"FAB_FRAME_ERR", 0x80000C, 1, 0, 1, 0, 4, 0, 0, 0, 0⟩,
    ⟨"FAB_ID", 0x800010, 1, 0, 1, 0, 4, 0, 0, 0xFFFF, 0⟩,
    ⟨"FAB_TOPO", 0x800014, 1, 0, 1, 0, 4, 0, 0, 0xFFFF, 0⟩,
    ⟨"FAB_TREE", 0x800018, 1, 0, 1, 0, 4, 0xFF00, 0, 0, 0⟩,
    ⟨"FAB_TICK_ACCT", 0x80001C, 1, 0, 1, 0, 4, 0, 0, 0, 0⟩,
    ⟨"FAB_FLAG", 0x800020, 1, 0, 1, 0, 4, 0, 0, 0, 0⟩,
    ⟨"FAB_STAT_INJ", 0x800040, 1, 0, 1, 0, 8, 0, 0, 0, 0⟩,
    ⟨"FAB_STAT_EJ", 0x800048, 1, 0, 1, 0, 8, 0, 0, 0, 0⟩,
    ⟨"FAB_STAT_FWD", 0x800050, 1, 0, 1, 0, 8, 0, 0, 0, 0⟩,
    ⟨"FAB_STAT_DROP", 0x800058, 1, 0, 1, 0, 8, 0, 0, 0, 0⟩,
    ⟨"FAB_STAT_BAD", 0x800060, 1, 0, 1, 0, 8, 0, 0, 0, 0⟩,
    ⟨"FAB_STAT_NOROUTE", 0x800068, 1, 0, 1, 0, 8, 0, 0, 0, 0⟩,
    ⟨"FAB_STAT_EPOCH", 0x800070, 1, 0, 1, 0, 8, 0, 0, 0, 0⟩,
    ⟨"FAB_STAT_ACCT", 0x800078, 1, 0, 1, 0, 8, 0, 0, 0, 0⟩,
    ⟨"FAB_STAT_SWITCH", 0x800080, 1, 0, 1, 0, 8, 0, 0, 0, 0⟩,
    ⟨"FAB_STAT_HOLDPEAK", 0x800088, 1, 0, 1, 0, 8, 0, 0, 0, 0⟩,
    ⟨"FAB_PCTRL", 0x801000, 34, 0x40, 1, 0, 4, 0, 0, 1, 2⟩,
    ⟨"FAB_PSTATUS", 0x801004, 34, 0x40, 1, 0, 4, 0, 0, 0, 0⟩,
    ⟨"FAB_PLAT", 0x801008, 34, 0x40, 1, 0, 4, 0, 0, 0, 0⟩,
    ⟨"FAB_PSTAT_TX", 0x801010, 34, 0x40, 1, 0, 8, 0, 0, 0, 0⟩,
    ⟨"FAB_PSTAT_RX", 0x801018, 34, 0x40, 1, 0, 8, 0, 0, 0, 0⟩ ]

/-- Registers FAB_PSTAT_CRC to FAB_RT. -/
def hubRowsFab1 : List RegRow :=
  [ ⟨"FAB_PSTAT_CRC", 0x801020, 34, 0x40, 1, 0, 8, 0, 0, 0, 0⟩,
    ⟨"FAB_PSTAT_RETRY", 0x801028, 34, 0x40, 1, 0, 8, 0, 0, 0, 0⟩,
    ⟨"FAB_PSTAT_STALL", 0x801030, 34, 0x40, 1, 0, 8, 0, 0, 0, 0⟩,
    ⟨"FAB_PSTAT_RETRAIN", 0x801038, 34, 0x40, 1, 0, 8, 0, 0, 0, 0⟩,
    ⟨"FAB_ALT", 0x802000, 1024, 8, 1, 0, 8, 0, 0, 0, 0⟩,
    ⟨"FAB_RT", 0xC00000, 65536, 0x40, 8, 8, 8, 0, 0xFFFFFFFFFFFFFFFF, 0, 0⟩ ]

/-- Registers RED_CTRL to RED_BKT_STATE. -/
def hubRowsRed : List RegRow :=
  [ ⟨"RED_CTRL", 0x80000, 1, 0, 1, 0, 4, 2, 3, 0, 0⟩,
    ⟨"RED_STATUS", 0x80004, 1, 0, 1, 0, 4, 0, 0, 0, 0⟩,
    ⟨"RED_STICKY", 0x80008, 1, 0, 1, 0, 4, 0, 0, 0, 0⟩,
    ⟨"RED_FRAME_ERR", 0x8000C, 1, 0, 1, 0, 4, 0, 0, 0, 0⟩,
    ⟨"RED_BOX", 0x80010, 1, 0, 1, 0, 4, 0, 0xFFFFFFFF, 0, 0⟩,
    ⟨"RED_FMT_STICKY", 0x80014, 1, 0, 1, 0, 4, 0, 0, 0, 0⟩,
    ⟨"RED_FMT_FRAME", 0x80018, 1, 0, 1, 0, 4, 0, 0, 0, 0⟩,
    ⟨"RED_STAT_BKT", 0x80040, 1, 0, 1, 0, 8, 0, 0, 0, 0⟩,
    ⟨"RED_STAT_TX", 0x80048, 1, 0, 1, 0, 8, 0, 0, 0, 0⟩,
    ⟨"RED_STAT_RX", 0x80050, 1, 0, 1, 0, 8, 0, 0, 0, 0⟩,
    ⟨"RED_STAT_ADDS", 0x80058, 1, 0, 1, 0, 8, 0, 0, 0, 0⟩,
    ⟨"RED_STAT_OBRESET", 0x80060, 1, 0, 1, 0, 8, 0, 0, 0, 0⟩,
    ⟨"RED_BKT_CFG", 0x90000, 4096, 0x20, 1, 0, 8, 0, 0xFFFFFFFF0001FFFF, 0, 0⟩,
    ⟨"RED_BKT_IN", 0x90008, 4096, 0x20, 1, 0, 8, 0, 0xFFFFFFFFFFFFFFFF, 0, 0⟩,
    ⟨"RED_BKT_OUT", 0x90010, 4096, 0x20, 1, 0, 8, 0, 0xFFFFFFFFFF, 0, 0⟩,
    ⟨"RED_BKT_AUX", 0x90018, 4096, 0x20, 1, 0, 8, 0, 0xFFFFFFFFFF, 0, 0⟩,
    ⟨"RED_BKT_STATE", 0xB0000, 4096, 4, 1, 0, 4, 0, 0, 0, 0⟩ ]

/-- Registers TWN_CTRL to TWN_WIN_MIR. -/
def hubRowsTwn : List RegRow :=
  [ ⟨"TWN_CTRL", 0x50000, 1, 0, 1, 0, 4, 0, 0xFFFF0001, 0, 0⟩,
    ⟨"TWN_STATUS", 0x50004, 1, 0, 1, 0, 4, 0, 0, 0, 0⟩,
    ⟨"TWN_STICKY", 0x50008, 1, 0, 1, 0, 4, 0, 0, 0, 0⟩,
    ⟨"TWN_FRAME_ERR", 0x5000C, 1, 0, 1, 0, 4, 0, 0, 0, 0⟩,
    ⟨"TWN_LOSS", 0x50010, 1, 0, 1, 0, 4, 2, 0xF, 0, 0⟩,
    ⟨"TWN_RESTORE", 0x50014, 1, 0, 1, 0, 4, 0, 0, 0, 1⟩,
    ⟨"TWN_QUEUE", 0x50018, 1, 0, 1, 0, 8, 0, 0xFFFF00FFFFFFFFFF, 0, 0⟩,
    ⟨"TWN_STAT_TX", 0x50040, 1, 0, 1, 0, 8, 0, 0, 0, 0⟩,
    ⟨"TWN_STAT_RX", 0x50048, 1, 0, 1, 0, 8, 0, 0, 0, 0⟩,
    ⟨"TWN_STAT_JOBS", 0x50050, 1, 0, 1, 0, 8, 0, 0, 0, 0⟩,
    ⟨"TWN_STAT_RAW", 0x50058, 1, 0, 1, 0, 8, 0, 0, 0, 0⟩,
    ⟨"TWN_STAT_NOACK", 0x50060, 1, 0, 1, 0, 8, 0, 0, 0, 0⟩,
    ⟨"TWN_STAT_RESTORE", 0x50068, 1, 0, 1, 0, 8, 0, 0, 0, 0⟩,
    ⟨"TWN_WIN_BASE", 0x50100, 16, 0x10, 1, 0, 8, 0, 0xFFFFFFFFFFFFFFFF, 0, 0⟩,
    ⟨"TWN_WIN_MIR", 0x50108, 16, 0x10, 1, 0, 8, 0, 0xFFFFFFFFFF, 0, 0⟩ ]

/-- Registers HIF_CTRL to HIF_STAT_MEMWR. -/
def hubRowsHif : List RegRow :=
  [ ⟨"HIF_CTRL", 0, 1, 0, 1, 0, 4, 4, 0, 7, 0⟩,
    ⟨"HIF_STATUS", 4, 1, 0, 1, 0, 4, 0, 0, 0, 0⟩,
    ⟨"HIF_STICKY", 8, 1, 0, 1, 0, 4, 0, 0, 0, 0⟩,
    ⟨"HIF_FRAME_ERR", 0xC, 1, 0, 1, 0, 4, 0, 0, 0, 0⟩,
    ⟨"HIF_STATUS_ADDR", 0x10, 1, 0, 1, 0, 8, 0, 0, 0xFFFFFFFFFFFFFF00, 0⟩,
    ⟨"HIF_SQ_BASE", 0x1000, 8, 0x40, 1, 0, 8, 0, 0, 0xFFFFFFFFFFFFF000, 0⟩,
    ⟨"HIF_Q_CFG", 0x1008, 8, 0x40, 1, 0, 4, 0x40004, 0, 0x801F001F, 0⟩,
    ⟨"HIF_SQ_TAIL", 0x100C, 8, 0x40, 1, 0, 4, 0, 0, 0xFFFF, 0⟩,
    ⟨"HIF_SQ_HEAD", 0x1010, 8, 0x40, 1, 0, 4, 0, 0, 0, 0⟩,
    ⟨"HIF_Q_STATE", 0x1014, 8, 0x40, 1, 0, 4, 1, 0, 0, 0⟩,
    ⟨"HIF_CR_BASE", 0x1018, 8, 0x40, 1, 0, 8, 0, 0, 0xFFFFFFFFFFFFF000, 0⟩,
    ⟨"HIF_CR_HEAD", 0x1020, 8, 0x40, 1, 0, 4, 0, 0, 0xFFFF, 0⟩,
    ⟨"HIF_CR_TAIL", 0x1024, 8, 0x40, 1, 0, 4, 0, 0, 0, 0⟩,
    ⟨"HIF_IN_BASE", 0x2000, 16, 0x40, 1, 0, 8, 0, 0xFFFFFFFFFF, 0, 0⟩,
    ⟨"HIF_IN_CFG", 0x2008, 16, 0x40, 1, 0, 8, 0xA00000000000000, 0xFFFFFFFFFFFFFFFF, 0, 0⟩,
    ⟨"HIF_IN_COMMIT", 0x2010, 16, 0x40, 1, 0, 8, 0, 0, 0, 0xFFFFFFFFFFFFFFFF⟩,
    ⟨"HIF_IN_STATE", 0x2018, 16, 0x40, 1, 0, 8, 0, 0, 0, 0⟩,
    ⟨"HIF_OUT_CFG", 0x3000, 8, 0x20, 1, 0, 8, 0, 0x1FFFFFFFFFF, 0, 0⟩,
    ⟨"HIF_OUT_ACK", 0x3008, 8, 0x20, 1, 0, 4, 0, 0, 0xFFFFFFFF, 0⟩,
    ⟨"HIF_OUT_IDX", 0x300C, 8, 0x20, 1, 0, 4, 0, 0, 0, 0⟩,
    ⟨"HIF_STAT_ACCERR", 0x40, 1, 0, 1, 0, 8, 0, 0, 0, 0⟩,
    ⟨"HIF_STAT_CMD", 0x48, 1, 0, 1, 0, 8, 0, 0, 0, 0⟩,
    ⟨"HIF_STAT_MEMRD", 0x50, 1, 0, 1, 0, 8, 0, 0, 0, 0⟩,
    ⟨"HIF_STAT_MEMWR", 0x58, 1, 0, 1, 0, 8, 0, 0, 0, 0⟩ ]

/-- Registers HIF_STAT_DENY to HIF_STAT_STATUSSKIP. -/
def hubRowsHif1 : List RegRow :=
  [ ⟨"HIF_STAT_DENY", 0x60, 1, 0, 1, 0, 8, 0, 0, 0, 0⟩,
    ⟨"HIF_STAT_BLOCK", 0x68, 1, 0, 1, 0, 8, 0, 0, 0, 0⟩,
    ⟨"HIF_STAT_LATE", 0x70, 1, 0, 1, 0, 8, 0, 0, 0, 0⟩,
    ⟨"HIF_STAT_BADCOMMIT", 0x78, 1, 0, 1, 0, 8, 0, 0, 0, 0⟩,
    ⟨"HIF_STAT_SLOTWR", 0x80, 1, 0, 1, 0, 8, 0, 0, 0, 0⟩,
    ⟨"HIF_STAT_CRWAIT", 0x88, 1, 0, 1, 0, 8, 0, 0, 0, 0⟩,
    ⟨"HIF_STAT_STATUSSKIP", 0x90, 1, 0, 1, 0, 8, 0, 0, 0, 0⟩ ]

/-- Registers MGT_STATUS to MGT_GKEY. -/
def hubRowsMgt : List RegRow :=
  [ ⟨"MGT_STATUS", 0x30000, 1, 0, 1, 0, 4, 0, 0, 0, 0⟩,
    ⟨"MGT_STICKY", 0x30004, 1, 0, 1, 0, 4, 0, 0, 0, 0⟩,
    ⟨"MGT_FW", 0x30008, 1, 0, 1, 0, 8, 0, 0, 0, 0⟩,
    ⟨"MGT_SERIAL", 0x30010, 1, 0, 1, 0, 8, 0, 0, 0, 0⟩,
    ⟨"MGT_PLIM", 0x30018, 1, 0, 1, 0, 4, 0x3840384, 0, 0, 0⟩,
    ⟨"MGT_PLIM_HOST", 0x3001C, 1, 0, 1, 0, 4, 0, 0, 0x3FF, 0⟩,
    ⟨"MGT_THERM", 0x30020, 1, 0, 1, 0, 4, 0x6E5F6400, 0, 0, 0⟩,
    ⟨"MGT_STRETCH", 0x30024, 1, 0, 1, 0, 4, 0, 0, 0, 0⟩,
    ⟨"MGT_POLICY", 0x30028, 1, 0, 1, 0, 4, 0, 0, 0, 0⟩,
    ⟨"MGT_TEL_VIN", 0x30030, 1, 0, 1, 0, 4, 0, 0, 0, 0⟩,
    ⟨"MGT_TEL_PIN", 0x30034, 1, 0, 1, 0, 4, 0, 0, 0, 0⟩,
    ⟨"MGT_TEL_TEMP", 0x30038, 1, 0, 1, 0, 4, 0, 0, 0, 0⟩,
    ⟨"MGT_TEL_TICK", 0x30040, 1, 0, 1, 0, 8, 0, 0, 0, 0⟩,
    ⟨"MGT_TEL_E", 0x30048, 4, 8, 1, 0, 8, 0, 0, 0, 0⟩,
    ⟨"MGT_TEL_T", 0x30068, 4, 4, 1, 0, 4, 0, 0, 0, 0⟩,
    ⟨"MGT_STAT_STRETCH", 0x30080, 1, 0, 1, 0, 8, 0, 0, 0, 0⟩,
    ⟨"MGT_STAT_HOLD", 0x30088, 1, 0, 1, 0, 8, 0, 0, 0, 0⟩,
    ⟨"MGT_STAT_CMD", 0x30090, 1, 0, 1, 0, 8, 0, 0, 0, 0⟩,
    ⟨"MGT_STAT_DENY", 0x30098, 1, 0, 1, 0, 8, 0, 0, 0, 0⟩,
    ⟨"MGT_GKEY", 0x30100, 4, 8, 1, 0, 8, 0, 0, 0, 0⟩ ]

/-- Registers OBS_CTRL to OBS_STAT_RETIRED. -/
def hubRowsObs : List RegRow :=
  [ ⟨"OBS_CTRL", 0x100000, 1, 0, 1, 0, 4, 0x2A00, 0x11FFF07, 0, 0⟩,
    ⟨"OBS_STATUS", 0x100004, 1, 0, 1, 0, 4, 0, 0, 0, 0⟩,
    ⟨"OBS_STICKY", 0x100008, 1, 0, 1, 0, 4, 0, 0, 0, 0⟩,
    ⟨"OBS_FRAME_ERR", 0x10000C, 1, 0, 1, 0, 4, 0, 0, 0, 0⟩,
    ⟨"OBS_FREEZE", 0x100010, 1, 0, 1, 0, 4, 6, 0, 0xF6, 0⟩,
    ⟨"OBS_FREEZE_CMD", 0x100014, 1, 0, 1, 0, 4, 0, 0, 0, 3⟩,
    ⟨"OBS_FREEZE_MARK", 0x100018, 1, 0, 1, 0, 4, 0, 0, 0xFFFFFFFF, 0⟩,
    ⟨"OBS_TEST", 0x10001C, 1, 0, 1, 0, 4, 0, 0, 0, 3⟩,
    ⟨"OBS_TEST_STATUS", 0x100020, 1, 0, 1, 0, 4, 0, 0, 0, 0⟩,
    ⟨"OBS_TEST_SAVE", 0x100028, 1, 0, 1, 0, 8, 0, 0xFFFFFFFFFF, 0, 0⟩,
    ⟨"OBS_ERR_HOST", 0x100030, 1, 0, 1, 0, 8, 6, 0, 0xFFFFFFFFFFFFF03F, 0⟩,
    ⟨"OBS_ERR_SEQ", 0x100038, 1, 0, 1, 0, 8, 0, 0, 0, 0⟩,
    ⟨"OBS_NOTICE", 0x100040, 1, 0, 1, 0, 8, 0, 0, 0, 0⟩,
    ⟨"OBS_SCAN", 0x100048, 1, 0, 1, 0, 8, 0, 0, 0x18FFFC00FFFFFFFF, 0⟩,
    ⟨"OBS_TRACE_BASE", 0x100100, 1, 0, 1, 0, 8, 0, 0xFFFF00FFFFFFFFFF, 0, 0⟩,
    ⟨"OBS_TRACE_CFG", 0x100108, 1, 0, 1, 0, 4, 0, 0xFFFF0003, 0, 0⟩,
    ⟨"OBS_TRACE_HEAD", 0x100110, 1, 0, 1, 0, 8, 0, 0, 0, 0⟩,
    ⟨"OBS_STAT_TDROP", 0x100118, 1, 0, 1, 0, 8, 0, 0, 0, 0⟩,
    ⟨"OBS_SCAN_DATA", 0x101000, 1024, 4, 1, 0, 4, 0, 0, 0, 0⟩,
    ⟨"OBS_STAT_DUP", 0x100080, 1, 0, 1, 0, 8, 0, 0, 0, 0⟩,
    ⟨"OBS_STAT_DUPSKIP", 0x100088, 1, 0, 1, 0, 8, 0, 0, 0, 0⟩,
    ⟨"OBS_STAT_DUPMIS", 0x100090, 1, 0, 1, 0, 8, 0, 0, 0, 0⟩,
    ⟨"OBS_STAT_RESMIS", 0x100098, 1, 0, 1, 0, 8, 0, 0, 0, 0⟩,
    ⟨"OBS_STAT_RETIRED", 0x1000A0, 1, 0, 1, 0, 8, 0, 0, 0, 0⟩ ]

/-- Registers OBS_STAT_SLICE to OBS_ERRREC. -/
def hubRowsObs1 : List RegRow :=
  [ ⟨"OBS_STAT_SLICE", 0x1000A8, 1, 0, 1, 0, 8, 0, 0, 0, 0⟩,
    ⟨"OBS_STAT_ERRREC", 0x1000B0, 1, 0, 1, 0, 8, 0, 0, 0, 0⟩,
    ⟨"OBS_STAT_ERRDROP", 0x1000B8, 1, 0, 1, 0, 8, 0, 0, 0, 0⟩,
    ⟨"OBS_STAT_TS", 0x1000C0, 1, 0, 1, 0, 8, 0, 0, 0, 0⟩,
    ⟨"OBS_PAIR_ID", 0x140000, 1024, 0x80, 1, 0, 4, 0, 0xFFFFFFFF, 0, 0⟩,
    ⟨"OBS_PAIR_FLAGS", 0x140004, 1024, 0x80, 1, 0, 4, 0, 0, 0, 0⟩,
    ⟨"OBS_PAIR_MAC", 0x140008, 1024, 0x80, 1, 0, 8, 0, 0, 0, 0⟩,
    ⟨"OBS_PAIR_VEC", 0x140010, 1024, 0x80, 1, 0, 8, 0, 0, 0, 0⟩,
    ⟨"OBS_PAIR_HBM", 0x140018, 1024, 0x80, 1, 0, 8, 0, 0, 0, 0⟩,
    ⟨"OBS_PAIR_FAB", 0x140020, 1024, 0x80, 1, 0, 8, 0, 0, 0, 0⟩,
    ⟨"OBS_PAIR_PCONS_DMIS", 0x140028, 1024, 0x80, 1, 0, 8, 0, 0, 0, 0⟩,
    ⟨"OBS_PAIR_SEL_EST", 0x140030, 1024, 0x80, 1, 0, 8, 0, 0, 0, 0⟩,
    ⟨"OBS_PAIR_SIG_AUDSIG", 0x140038, 1024, 0x80, 1, 0, 8, 0, 0, 0, 0⟩,
    ⟨"OBS_PAIR_AUD_MISS", 0x140040, 1024, 0x80, 1, 0, 8, 0, 0, 0, 0⟩,
    ⟨"OBS_PAIR_MTR_N", 0x140048, 1024, 0x80, 1, 0, 8, 0, 0, 0, 0⟩,
    ⟨"OBS_ERRREC", 0x180000, 4096, 0x80, 16, 8, 8, 0, 0, 0, 0⟩ ]

/-- Registers PWR_CTRL to PWR_RESET_CAUSE. -/
def hubRowsPwr : List RegRow :=
  [ ⟨"PWR_CTRL", 0x40000, 1, 0, 1, 0, 4, 0, 0, 1, 0⟩,
    ⟨"PWR_STATUS", 0x40004, 1, 0, 1, 0, 4, 0, 0, 0, 0⟩,
    ⟨"PWR_STICKY", 0x40008, 1, 0, 1, 0, 4, 0, 0, 0, 0⟩,
    ⟨"PWR_FRAME_ERR", 0x4000C, 1, 0, 1, 0, 4, 0, 0, 0, 0⟩,
    ⟨"PWR_VIN", 0x40014, 1, 0, 1, 0, 4, 0, 0, 0, 0⟩,
    ⟨"PWR_VIN_MIN", 0x40018, 1, 0, 1, 0, 4, 0, 0, 0, 0⟩,
    ⟨"PWR_GPIO", 0x4001C, 1, 0, 1, 0, 4, 0, 0, 0xFFFF, 0⟩,
    ⟨"PWR_STAT_WARN", 0x40040, 1, 0, 1, 0, 8, 0, 0, 0, 0⟩,
    ⟨"PWR_STAT_HOLD", 0x40048, 1, 0, 1, 0, 8, 0, 0, 0, 0⟩,
    ⟨"PWR_STAT_MARK", 0x40050, 1, 0, 1, 0, 8, 0, 0, 0, 0⟩,
    ⟨"PWR_RAIL", 0x40100, 17, 8, 1, 0, 8, 0, 0, 0, 0⟩,
    ⟨"PWR_RESET_CAUSE", 0x40010, 1, 0, 1, 0, 4, 0, 0, 0, 0⟩ ]

/-- Registers OBS_DUP to OBS_SSTATUS. -/
def secRowsObs : List RegRow :=
  [ ⟨"OBS_DUP", 0x600000, 1, 0, 1, 0, 8, 0, 0xFFFFFFFFFF, 0, 0⟩,
    ⟨"OBS_SSTATUS", 0x600008, 1, 0, 1, 0, 4, 0, 0, 0, 0⟩ ]

/-- Registers SOBS_TRACE_BASE to SOBS_STAT_TDROP. -/
def secRowsSobs : List RegRow :=
  [ ⟨"SOBS_TRACE_BASE", 0x600100, 1, 0, 1, 0, 8, 0, 0xFFFF00FFFFFFFFFF, 0, 0⟩,
    ⟨"SOBS_TRACE_CFG", 0x600108, 1, 0, 1, 0, 4, 0, 0xFFFF0003, 0, 0⟩,
    ⟨"SOBS_TRACE_HEAD", 0x600110, 1, 0, 1, 0, 8, 0, 0, 0, 0⟩,
    ⟨"SOBS_STAT_TDROP", 0x600118, 1, 0, 1, 0, 8, 0, 0, 0, 0⟩ ]

/-- The registers of the hub. -/
def hubRows : List RegRow :=
  hubRowsTik ++ hubRowsTik1 ++ hubRowsFab ++ hubRowsFab1 ++ hubRowsRed ++ hubRowsTwn ++ hubRowsHif ++ hubRowsHif1 ++ hubRowsMgt ++ hubRowsObs ++ hubRowsObs1 ++ hubRowsPwr

/-- The registers of a sector, offsets from its window. -/
def secRows : List RegRow :=
  secRowsCor ++ secRowsSch ++ secRowsSmp ++ secRowsGse ++ secRowsTbl ++ secRowsTbl1 ++ secRowsPrs ++ secRowsOpt ++ secRowsOpt1 ++ secRowsMem ++ secRowsMem1 ++ secRowsRck ++ secRowsObs ++ secRowsSobs

/-- The registers of a core, offsets from its sub-block. -/
def coreRows : List RegRow :=
  coreRowsCor ++ coreRowsCor1

/-- Whether offset `o` is a register of the row. -/
def RegRow.at (r : RegRow) (o : Nat) : Bool :=
  if o < r.base then false
  else
    let d := o - r.base
    if r.n1 = 1 then d == 0
    else
      let i := if r.st1 = 0 then 0 else d / r.st1
      let rem := d - i * r.st1
      -- the outer stride is the larger one; the inner index takes the rest
      if r.st2 = 0 then i < r.n1 && rem == 0
      else if r.st2 ≤ r.st1 then i < r.n1 && rem % r.st2 == 0 && rem / r.st2 < r.n2
      else
        let j := d / r.st2
        let rest := d - j * r.st2
        j < r.n2 && rest % r.st1 == 0 && rest / r.st1 < r.n1

/-- The sector, 0 to 3, whose window holds a BAR0 offset. -/
def secOf (off : Nat) : Nat := (off - 0x2000000) / 0x800000

/-- The register that starts at a BAR0 offset (R394). -/
def regAt (off : Nat) : Option RegRow :=
  if off < 0x2000000 then hubRows.find? (·.at off)
  else if off < 0x4000000 then
    let o := (off - 0x2000000) % 0x800000
    if o < 0x200000 then coreRows.find? (·.at (o % 0x400)) else secRows.find? (·.at o)
  else none

/-- The registers of `hubRows` whose reset value is not zero. -/
def hubResets : List RegRow :=
  [ ⟨"TIK_STATUS", 0x20004, 1, 0, 1, 0, 4, 0x10, 0, 0, 0⟩,
    ⟨"TIK_FRAME_LEN", 0x20008, 1, 0, 1, 0, 4, 0x30D40, 0x7FFFFFF, 0, 0⟩,
    ⟨"TIK_LEAD", 0x2000C, 1, 0, 1, 0, 4, 0x1388, 0xFFFF, 0, 0⟩,
    ⟨"TIK_REPLAY", 0x2001C, 1, 0, 1, 0, 4, 0x303, 0xFFFF, 0, 0⟩,
    ⟨"FAB_TREE", 0x800018, 1, 0, 1, 0, 4, 0xFF00, 0, 0, 0⟩,
    ⟨"RED_CTRL", 0x80000, 1, 0, 1, 0, 4, 2, 3, 0, 0⟩,
    ⟨"TWN_LOSS", 0x50010, 1, 0, 1, 0, 4, 2, 0xF, 0, 0⟩,
    ⟨"HIF_CTRL", 0, 1, 0, 1, 0, 4, 4, 0, 7, 0⟩,
    ⟨"HIF_Q_CFG", 0x1008, 8, 0x40, 1, 0, 4, 0x40004, 0, 0x801F001F, 0⟩,
    ⟨"HIF_Q_STATE", 0x1014, 8, 0x40, 1, 0, 4, 1, 0, 0, 0⟩,
    ⟨"HIF_IN_CFG", 0x2008, 16, 0x40, 1, 0, 8, 0xA00000000000000, 0xFFFFFFFFFFFFFFFF, 0, 0⟩,
    ⟨"MGT_PLIM", 0x30018, 1, 0, 1, 0, 4, 0x3840384, 0, 0, 0⟩,
    ⟨"MGT_THERM", 0x30020, 1, 0, 1, 0, 4, 0x6E5F6400, 0, 0, 0⟩,
    ⟨"OBS_CTRL", 0x100000, 1, 0, 1, 0, 4, 0x2A00, 0x11FFF07, 0, 0⟩,
    ⟨"OBS_FREEZE", 0x100010, 1, 0, 1, 0, 4, 6, 0, 0xF6, 0⟩,
    ⟨"OBS_ERR_HOST", 0x100030, 1, 0, 1, 0, 8, 6, 0, 0xFFFFFFFFFFFFF03F, 0⟩ ]

/-- The registers of `secRows` whose reset value is not zero. -/
def secResets : List RegRow :=
  [ ⟨"SCH_CTRL", 0x400000, 1, 0, 1, 0, 4, 2, 3, 0, 0⟩,
    ⟨"TBL_CTRL", 0x480000, 1, 0, 1, 0, 4, 0x402, 0xF03, 0, 0⟩,
    ⟨"TBL_RC_CFG", 0x480018, 1, 0, 1, 0, 4, 0x114, 0x11F, 0, 0⟩,
    ⟨"PRS_CTRL", 0x4C0000, 1, 0, 1, 0, 4, 2, 3, 0, 0⟩,
    ⟨"OPT_CTRL", 0x500000, 1, 0, 1, 0, 4, 2, 3, 0, 0⟩,
    ⟨"MEM_SCRUB", 0x540010, 1, 0, 1, 0, 4, 0x40001010, 0xFF00FFFF, 0, 0⟩,
    ⟨"MEM_THERM", 0x540014, 1, 0, 1, 0, 4, 0x64, 0xFF, 0, 0⟩ ]

/-- The registers of `coreRows` whose reset value is not zero. -/
def coreResets : List RegRow :=
  [ ⟨"COR_PART", 8, 1, 0, 1, 0, 4, 0x5001, 0x7F1F, 0, 0⟩,
    ⟨"COR_FMT", 0x100, 1, 0, 1, 0, 4, 1, 1, 0, 0⟩,
    ⟨"COR_OLK_CTRL", 0x204, 8, 0x40, 1, 0, 4, 1, 0xF307FF, 0, 0⟩ ]

/-- The reset value of the register at a BAR0 offset (R16). -/
def regReset (off : Nat) : Nat :=
  let pick (l : List RegRow) (o : Nat) : Nat :=
    match l.find? (·.at o) with
    | some r => r.reset
    | none => 0
  if off < 0x2000000 then pick hubResets off
  else
    let o := (off - 0x2000000) % 0x800000
    if o < 0x200000 then pick coreResets (o % 0x400) else pick secResets o

end Sys2Proof.Machine
end

