-- ==== Sys2Proof/Machine/Rs.lean ====
section
/-!
DEFINITION. The line code of R293 and R294: the Reed–Solomon code over GF(2^8) of 64 data and 8 check bytes.
The model keeps, for each line, the difference between the check bytes stored and the check bytes of the
data stored; zero is a codeword, and Q is the mark of a poisoned line.
-/
namespace Sys2Proof.Machine

/-- Multiply by α in GF(2^8) with the primitive polynomial 0x11D (R293). -/
def gfDouble (a : Nat) : Nat := if a < 128 then 2 * a else (2 * a) ^^^ 0x11D

/-- Multiplication in GF(2^8), `fuel` bits of `b`. -/
def gfMulBits (fuel a b : Nat) : Nat :=
  match fuel with
  | 0 => 0
  | fuel + 1 => (if b % 2 = 1 then a else 0) ^^^ gfMulBits fuel (gfDouble a) (b / 2)

/-- Multiplication in GF(2^8). -/
def gfMul (a b : Nat) : Nat := gfMulBits 8 a b

/-- α to a power. -/
def gfExp (n : Nat) : Nat :=
  match n with
  | 0 => 1
  | n + 1 => gfDouble (gfExp n)

/-- A power in GF(2^8). -/
def gfPow (a n : Nat) : Nat :=
  match n with
  | 0 => 1
  | n + 1 => gfMul a (gfPow a n)

/-- The inverse of a non-zero element: a^254. -/
def gfInv (a : Nat) : Nat := gfPow a 254

/-- The coefficients of the generator polynomial (x + α^0) … (x + α^7) below x^8, from x^7 down (R293). -/
def rsGen : List Nat :=
  let mulLin (p : List Nat) (r : Nat) : List Nat :=
    ((p ++ [0]).zip (0 :: p)).map fun (q : Nat × Nat) => q.1 ^^^ gfMul r q.2
  ((List.range 8).foldl (fun p i => mulLin p (gfExp i)) [1]).drop 1

/-- One division step of the systematic encoder: the remainder after one more symbol. -/
def rsStep (r : List Nat) (d : Nat) : List Nat :=
  let fb := d ^^^ nth r 0 0
  ((r.drop 1 ++ [0]).zip rsGen).map fun (q : Nat × Nat) => q.1 ^^^ gfMul fb q.2

/-- The 8 check bytes of 64 data bytes, check byte 0 first (R293). -/
def rsCheck (data : List Nat) : List Nat := data.foldl rsStep (List.replicate 8 0)

/-- Eight bytes as one 64-bit number, byte k in bits [8k + 7 : 8k]. -/
def pack8 (l : List Nat) : Nat := l.foldr (fun b a => b % 256 + 256 * a) 0

/-- The poison mark Q (R294). -/
def poisonQ : Nat := 0xE7215C9A0DB348F6

/-- How a symbol error at position `pos` (data byte `pos`, or check byte `pos − 64`) with value `e` changes the
difference a line carries. -/
def errDiff (pos e : Nat) : Nat :=
  if pos < 64 then pack8 (rsCheck ((List.range 64).map fun i => if i = pos then e else 0))
  else (e % 256) <<< (8 * (pos - 64))

/-- The eight syndromes of a difference. -/
def syndromes (diff : Nat) : List Nat :=
  (List.range 8).map fun i =>
    (List.range 8).foldl (fun a k => a ^^^ gfMul ((diff >>> (8 * k)) % 256) (gfExp (i * (7 - k)))) 0

/-- Whether the error pattern has exactly these syndromes. -/
def patternFits (s : List Nat) (p : List (Nat × Nat)) : Bool :=
  (List.range 8).all fun i =>
    p.foldl (fun a q => a ^^^ gfMul q.2 (gfExp (i * (71 - q.1)))) 0 == nth s i 0

/-- The one pattern of at most two symbol errors with the syndromes of `diff`, if there is one (R293). -/
def rsLocate (diff : Nat) : Option (List (Nat × Nat)) :=
  let s := syndromes diff
  let s0 := nth s 0 0
  let s1 := nth s 1 0
  let s2 := nth s 2 0
  let s3 := nth s 3 0
  if s.all (· == 0) then some []
  else
    match (List.range 72).find? fun p => s0 != 0 && patternFits s [(p, s0)] with
    | some p => some [(p, s0)]
    | none =>
      let det := gfMul s1 s1 ^^^ gfMul s0 s2
      if det = 0 then none
      else
        let inv := gfInv det
        let g1 := gfMul (gfMul s1 s2 ^^^ gfMul s0 s3) inv
        let g2 := gfMul (gfMul s2 s2 ^^^ gfMul s1 s3) inv
        let roots := (List.range 72).filter fun p =>
          let x := gfExp (71 - p)
          (gfMul x x ^^^ gfMul g1 x ^^^ g2) == 0
        match roots with
        | [p, q] =>
          let x := gfExp (71 - p)
          let y := gfExp (71 - q)
          let e := gfMul (s1 ^^^ gfMul s0 y) (gfInv (x ^^^ y))
          let pat := [(p, e), (q, s0 ^^^ e)]
          if patternFits s pat then some pat else none
        | _ => none

/-- What decoding a line finds (R293, R294). -/
inductive LineCode where
  | clean
  | corrected (errs : List (Nat × Nat))
  | poisoned (errs : List (Nat × Nat))
  | uncorrectable
  deriving DecidableEq, Repr

/-- Decode a line by the difference it carries (R293). -/
def rsDecode (diff : Nat) : LineCode :=
  if diff = 0 then .clean
  else if diff = poisonQ then .poisoned []
  else
    match rsLocate diff with
    | some errs => .corrected errs
    | none =>
      match rsLocate (diff ^^^ poisonQ) with
      | some errs => .poisoned errs
      | none => .uncorrectable

/-- Take the located errors off the 64 data bytes. -/
def rsCorrect (errs : List (Nat × Nat)) (data : List Byte) : List Byte :=
  data.zipIdx.map fun q => errs.foldl (fun b e => if e.1 = q.2 then b ^^^ BitVec.ofNat 8 e.2 else b) q.1

end Sys2Proof.Machine
end

