-- ==== Sys2Proof/Machine/MemState.lean ====
section
/-!
DEFINITION. The state of the memory complex and of the racking engines (chapter 10).
-/
namespace Sys2Proof.Machine

/-- The memory of the part (R288, R293, R299). `bytes` holds HBM and the scratchpads by local address, an
unlisted byte reading 0; `chk` the difference of each HBM line's check bytes (0 clean, Q poisoned), keyed by line
address; `granules` the poisoned 32-byte granules of scratchpads, by local address. `ready` is false from a
part reset until the controllers have zeroed every line: until then a line reads as an undefined value
(R319). -/
structure Mem where
  bytes : Sparse Byte
  chk : Sparse Nat
  granules : Sparse Bool
  ready : Bool
  deriving DecidableEq, Repr

/-- Nothing listed, nothing zeroed yet.
DESIGN CHOICE (log 6, unsafe): Scratchpads after a part reset: no contents stated; a byte nothing has written reads 0. -/
def Mem.reset : Mem := ⟨[], [], [], false⟩

/-- One entry of the commit journal: the line's local address, its old 64 bytes and whether it was poison
(R306). The entry also stands in HBM, in the group of its number. -/
structure JEntry where
  addr : Nat
  old : List Byte
  poison : Bool
  deriving DecidableEq, Repr

/-- The two controllers of a sector: journal entries of the frame, newest first, the journal filters of 4,096
addresses, newest first, the next line each scrub reads, the lines corrected in the frame by each stack, and
whether the frame's threshold record of each has been written, and the refresh intervals counted (R295, R296, R306, R317). -/
structure MemCtl where
  journal : List JEntry
  filter0 : List Nat
  filter1 : List Nat
  scrub0 : Nat
  scrub1 : Nat
  ce0 : Nat
  ce1 : Nat
  ceRec0 : Bool
  ceRec1 : Bool
  refreshes : Nat
  refreshes1 : Nat
  deriving DecidableEq, Repr

/-- The controllers at reset. -/
def MemCtl.reset : MemCtl := ⟨[], [], [], 0, 0, 0, 0, false, false, 0, 0⟩

/-- A racking transfer holding a tag (R311 to R314): source and destination global addresses, length, the
signals to send, where it stands (0 moving local units, 1 waiting for an open reply, 2 pushing, 3 pulling) and the units still to
move and those asked for or pushed and not yet answered, as numbered offsets into the transfer with their lengths. -/
structure Transfer where
  tag : Nat
  core : Nat
  pair : Nat
  src : Nat
  dst : Nat
  len : Nat
  ev : Nat
  sig : Nat
  stage : Nat
  units : List (Nat × Nat × Nat)
  waiting : List (Nat × Nat × Nat)
  poisonSeen : Bool
  deriving DecidableEq, Repr

/-- The racking engine of a sector. -/
structure Rack where
  transfers : List Transfer
  deriving DecidableEq, Repr

/-- No transfer. -/
def Rack.reset : Rack := ⟨[]⟩

end Sys2Proof.Machine
end

