-- ==== Sys2Proof/Machine/TickState.lean ====
section
/-!
DEFINITION. The state of the tick and barrier unit (chapter 01) beside its registers, and of the transaction
unit (chapter 14).
-/
namespace Sys2Proof.Machine

/-- A tick token that has been received and awaits its tick (R17, R18), and the cycle at which the tick falls by the token. -/
structure Token where
  msg : TokenMsg
  due : Nat
  deriving DecidableEq, Repr

/-- A frame status held by the tick master or standby (R25, R26): the reporting part, pass or fail, cause, and
whether it carried the supply mark. -/
structure Status where
  chip : Nat
  pass : Bool
  cause : Nat
  mark : Bool
  deriving DecidableEq, Repr

/-- A hold the tick master and standby keep (R44, R529): part, source, and the cycle it was last heard. -/
structure Hold where
  chip : Nat
  source : Nat
  heard : Nat
  deriving DecidableEq, Repr

/-- The tick and barrier unit. `frame*` describe the frame in progress as its token announced it; `done0` to
`done2` the cycles at which compute, reduce and commit work completed; `cause` the first failure cause of the
frame with every cause's count (R34); `sent` the frame status sent (0 none, 1 pass, 2 fail). The rest serves the
tick master and the standby: held statuses, holds, the largest stretch received, the member set (R27), the count
of the last token sent or seen and its cycle, the count of the last tick issued, the replay verdicts sent in a row since ticks began
or resumed (R33), whether ticks are stopped after the tick in progress, and the
consecutive replays without a status of each part (R380). `lapses` counts the holds that lapsed (R529), `holdSince` is the cycle the hold in force began, `heldFrame` says that a
hold has been in force since the last token, `holdNoticed` that the notice of it is out. `unwinding` says that the journal of a replay
has not been unwound. `codeAt` gives, by core, the cycle by which the images a tick brought are written (R445). `herd` lists the released lines with the cores that
have arrived at each line not yet released. `markerSent` and `markersFrom` are the hub's press-end markers of the frame (R264). -/
structure Tick where
  token : Option Token
  edge : Option Nat
  treeEdge : Option Nat
  frameStart : Nat
  frameLen : Nat
  frameStretch : Nat
  done0 : Option Nat
  done1 : Option Nat
  done2 : Option Nat
  overrun : Bool
  cause : Nat
  causes : Sparse Nat
  sent : Nat
  guardDone : Bool
  countErr : Bool
  coresStarted : Bool
  codeAt : Sparse Nat
  unwinding : Bool
  statuses : List Status
  holds : List Hold
  lapses : Nat
  holdNoticed : Bool
  holdSince : Nat
  heldFrame : Bool
  stretch : Nat
  members : List Nat
  tokenSent : Nat
  tokenSentAt : Nat
  tokenSeenAt : Nat
  issued : Nat
  runs : Nat
  stopAfter : Bool
  quiesced : Bool
  resumeReplay : Bool
  missing : Sparse Nat
  arrived : Sparse (List Nat)
  signals : List (Nat × Nat)
  markerSent : Bool
  markersFrom : List Nat
  deriving DecidableEq, Repr

/-- Before the first tick. -/
def Tick.reset : Tick :=
  { token := none, edge := none, treeEdge := none, frameStart := 0, frameLen := 0, frameStretch := 0,
    done0 := none, done1 := none, done2 := none, overrun := false, cause := 0, causes := [], sent := 0,
    guardDone := false, countErr := false, coresStarted := false, codeAt := [], unwinding := false, statuses := [],
    holds := [], lapses := 0, holdNoticed := false, holdSince := 0, heldFrame := false, stretch := 0, members := [],
    tokenSent := 0, tokenSentAt := 0, tokenSeenAt := 0, issued := 0, runs := 0, stopAfter := true, quiesced := false,
    resumeReplay := false, missing := [], arrived := [], signals := [], markerSent := false, markersFrom := [] }

/-- A staged write (R440): a register write, or a code image for the masked cores of the masked sectors. -/
inductive Staged where
  | reg (off width value : Nat)
  | image (sectors : Nat) (cores : List Byte) (offset : Nat) (bytes : List Byte)
  deriving DecidableEq, Repr

/-- What a container brings to the applied state when it takes effect (R432, R470): its identifier, version,
the signer's slot and the SHA-256 digest of the container. -/
structure GraftId where
  id : Nat
  version : Nat
  slot : Nat
  digest : List Byte
  deriving DecidableEq, Repr

/-- The transaction unit: staged writes in order of acceptance, the containers among them, whether a write
without a signature is among them, the staging bytes in use, the armed tick, and the command whose validation is running
(queue and T) or whose graft load is in its last steps. `tokenSeen`: the token of the tick that applies the transaction has been
received (R447). `chain` is the running digest of measurement 5 (R470), `applied` says that a graft has been applied since the
part reset, and `mapStore` is the mode-3 map of each table (R229). -/
structure Txn where
  staged : List Staged
  grafts : List GraftId
  unsigned : Bool
  used : Nat
  armedFor : Nat
  validating : Option (Nat × Nat)
  tokenSeen : Bool
  chain : List Byte
  mapStore : Sparse (List (Nat × Nat))
  loadPending : Option Nat
  applied : Bool
  deriving DecidableEq, Repr

/-- No transaction, no graft. -/
def Txn.reset : Txn := ⟨[], [], false, 0, 0, none, false, List.replicate 32 0, [], none, false⟩

end Sys2Proof.Machine
end

