-- ==== Sys2Proof/Machine/Part.lean ====
section
/-!
DEFINITION. The part: all of its state but the fuses, the non-volatile store, the reset latches and the queue of
waiting commands. A part reset (R16) returns exactly this to its reset value.
-/
namespace Sys2Proof.Machine

/-- The state a part reset clears. `cycle` counts CCLK cycles and drives COR_CYCLE; `free` numbers the values the
spec leaves open (Config). Cores and sectors that are not listed are as at reset. -/
structure Part where
  cycle : Nat
  free : Nat
  big : Bool
  regs : Sparse Dword
  cores : Sparse Core
  sched : Sparse Sched
  units : Sparse Units
  press : Sparse Press
  optim : Sparse Optim
  mem : Mem
  mctl : Sparse MemCtl
  rack : Sparse Rack
  tick : Tick
  txn : Txn
  obs : Obs
  fab : Fabric
  buckets : Sparse Bucket
  twin : Twin
  hif : Hif
  mgt : Mgt
  power : Power
  deriving DecidableEq, Repr

/-- The part right after a part reset, of the grade given. -/
def Part.reset (big : Bool) : Part :=
  { cycle := 0, free := 0, big := big, regs := [], cores := [], sched := [], units := [], press := [], optim := [],
    mem := .reset, mctl := [], rack := [], tick := .reset, txn := .reset, obs := .reset, fab := .reset,
    buckets := [], twin := .reset, hif := .reset, mgt := .reset, power := .reset }

end Sys2Proof.Machine
end

