-- ==== Sys2Proof/Machine/Sha256.lean ====
section
/-!
DEFINITION. SHA-256 and HMAC-SHA-256, which the failure signatures (R498), grafts (R429), identity (R461), measurements
(R470) and test patterns (R505) use by name.
-/
namespace Sys2Proof.Machine

/-- Round constants 0 to 15. -/
def shaK0 : List Nat :=
  [ 0x428A2F98, 0x71374491, 0xB5C0FBCF, 0xE9B5DBA5, 0x3956C25B, 0x59F111F1, 0x923F82A4, 0xAB1C5ED5,
    0xD807AA98, 0x12835B01, 0x243185BE, 0x550C7DC3, 0x72BE5D74, 0x80DEB1FE, 0x9BDC06A7, 0xC19BF174 ]

/-- Round constants 16 to 31. -/
def shaK1 : List Nat :=
  [ 0xE49B69C1, 0xEFBE4786, 0x0FC19DC6, 0x240CA1CC, 0x2DE92C6F, 0x4A7484AA, 0x5CB0A9DC, 0x76F988DA,
    0x983E5152, 0xA831C66D, 0xB00327C8, 0xBF597FC7, 0xC6E00BF3, 0xD5A79147, 0x06CA6351, 0x14292967 ]

/-- Round constants 32 to 47. -/
def shaK2 : List Nat :=
  [ 0x27B70A85, 0x2E1B2138, 0x4D2C6DFC, 0x53380D13, 0x650A7354, 0x766A0ABB, 0x81C2C92E, 0x92722C85,
    0xA2BFE8A1, 0xA81A664B, 0xC24B8B70, 0xC76C51A3, 0xD192E819, 0xD6990624, 0xF40E3585, 0x106AA070 ]

/-- Round constants 48 to 63. -/
def shaK3 : List Nat :=
  [ 0x19A4C116, 0x1E376C08, 0x2748774C, 0x34B0BCB5, 0x391C0CB3, 0x4ED8AA4A, 0x5B9CCA4F, 0x682E6FF3,
    0x748F82EE, 0x78A5636F, 0x84C87814, 0x8CC70208, 0x90BEFFFA, 0xA4506CEB, 0xBEF9A3F7, 0xC67178F2 ]

/-- The 64 round constants. -/
def shaK : List Nat := shaK0 ++ shaK1 ++ shaK2 ++ shaK3

/-- The initial hash value. -/
def shaH : List Nat :=
  [ 0x6A09E667, 0xBB67AE85, 0x3C6EF372, 0xA54FF53A, 0x510E527F, 0x9B05688C, 0x1F83D9AB, 0x5BE0CD19 ]

/-- A 32-bit word turned right by `n`. -/
def rotr32 (n x : Nat) : Nat := (x >>> n) ||| ((x <<< (32 - n)) % 2 ^ 32)

/-- The next word of the message schedule, from the sixteen before it (the newest first). -/
def shaNext (w : List Nat) : Nat :=
  let w2 := nth w 1 0
  let w7 := nth w 6 0
  let w15 := nth w 14 0
  let w16 := nth w 15 0
  let s0 := rotr32 7 w15 ^^^ rotr32 18 w15 ^^^ (w15 >>> 3)
  let s1 := rotr32 17 w2 ^^^ rotr32 19 w2 ^^^ (w2 >>> 10)
  (w16 + s0 + w7 + s1) % 2 ^ 32

/-- The message schedule with `fuel` words still to add; `w` holds the words so far, newest first. -/
def shaSchedule (fuel : Nat) (w : List Nat) : List Nat :=
  match fuel with
  | 0 => w.reverse
  | fuel + 1 => shaSchedule fuel (shaNext w :: w)

/-- One round on the eight working words. -/
def shaRound (st : List Nat) (kw : Nat × Nat) : List Nat :=
  match st with
  | [a, b, c, d, e, f, g, h] =>
    let s1 := rotr32 6 e ^^^ rotr32 11 e ^^^ rotr32 25 e
    let ch := (e &&& f) ^^^ ((2 ^ 32 - 1 - e) &&& g)
    let t1 := h + s1 + ch + kw.1 + kw.2
    let s0 := rotr32 2 a ^^^ rotr32 13 a ^^^ rotr32 22 a
    let mj := (a &&& b) ^^^ (a &&& c) ^^^ (b &&& c)
    [(t1 + s0 + mj) % 2 ^ 32, a, b, c, (d + t1) % 2 ^ 32, e, f, g]
  | st => st

/-- One 64-byte block. -/
def shaBlock (h : List Nat) (block : List Byte) : List Nat :=
  let w := ((List.range 16).map fun i => beNat ((block.drop (4 * i)).take 4)).reverse
  let st := (shaK.zip (shaSchedule 48 w)).foldl shaRound h
  (h.zip st).map fun q => (q.1 + q.2) % 2 ^ 32

/-- The message padded to whole blocks. -/
def shaPad (m : List Byte) : List Byte :=
  let n := m.length
  m ++ [0x80#8] ++ List.replicate ((119 - n % 64) % 64) 0#8 ++ beBytes 8 (8 * n)

/-- Hash `fuel` blocks. -/
def shaLoop (fuel : Nat) (h : List Nat) (m : List Byte) : List Nat :=
  match fuel with
  | 0 => h
  | fuel + 1 => shaLoop fuel (shaBlock h (m.take 64)) (m.drop 64)

/-- SHA-256: the 32 digest bytes. -/
def sha256 (m : List Byte) : List Byte :=
  let p := shaPad m
  (shaLoop (p.length / 64) shaH p).flatMap (beBytes 4)

/-- HMAC-SHA-256 for keys of at most 64 bytes. -/
def hmacSha256 (k m : List Byte) : List Byte :=
  let pad := k ++ List.replicate (64 - k.length) 0#8
  sha256 (pad.map (· ^^^ 0x5C#8) ++ sha256 (pad.map (· ^^^ 0x36#8) ++ m))

/-- The digest as one big-endian number, the form in which fuses and policy hold it. -/
def digestNat (m : List Byte) : Nat := beNat (sha256 m)

end Sys2Proof.Machine
end

