-- ==== Sys2Proof/Machine/Ops.lean ====
section
/-!
DEFINITION. The named operations the meanings share: registers, sectors and cores, free values, frame facts, error
records, trace, attribution and freeze.
-/
namespace Sys2Proof.Machine

/-- The value of the register at a BAR0 offset (R394); one never written holds its reset value. -/
def Part.rd (p : Part) (off : Nat) : Nat :=
  (spGet (BitVec.ofNat 64 (regReset off)) p.regs off).toNat

/-- Set the register at a BAR0 offset. -/
def Part.wr (p : Part) (off v : Nat) : Part :=
  { p with regs := spSet (BitVec.ofNat 64 (regReset off)) p.regs off (BitVec.ofNat 64 v) }

/-- Field `[lo + w - 1 : lo]` of a register. -/
def Part.getF (p : Part) (off lo w : Nat) : Nat := fld (p.rd off) lo w

/-- One bit of a register. -/
def Part.getB (p : Part) (off i : Nat) : Bool := bit (p.rd off) i

/-- Set a field of a register. -/
def Part.putF (p : Part) (off lo w v : Nat) : Part := p.wr off (putFld (p.rd off) lo w v)

/-- Set or clear one bit of a register. -/
def Part.putB (p : Part) (off i : Nat) (b : Bool) : Part := p.putF off i 1 (b2n b)

/-- Add to a 64-bit statistics register. -/
def Part.bump (p : Part) (off k : Nat) : Part := p.wr off (p.rd off + k)

/-- Add to a 32-bit statistics register, modulo 2^32. -/
def Part.bump32 (p : Part) (off k : Nat) : Part := p.wr off ((p.rd off + k) % 2 ^ 32)

/-- Raise a statistics register to at least `v`. -/
def Part.peak (p : Part) (off v : Nat) : Part := if p.rd off < v then p.wr off v else p

/-- Set bit `i` of a STICKY register and of the FRAME_ERR register 4 bytes above it, the layout every block
uses.
DEDUCED (log 117, safe): TIK_STICKY and MGT_STICKY have no FRAME_ERR register beside them. -/
def Part.stick (p : Part) (off i : Nat) : Part :=
  (p.putB off i true).putB (off + 4) i true

/-- A value of the spec's silence: the next number of the counter.
DESIGN CHOICE (log 9, safe): The free counter: Part.free numbers the uses of values the manual leaves open. -/
def Part.fresh (p : Part) : Nat × Part := (p.free, { p with free := p.free + 1 })

/-- Core `c`. -/
def Part.core (p : Part) (c : Nat) : Core := spGet .reset p.cores c
/-- Replace core `c`. -/
def Part.setCore (p : Part) (c : Nat) (k : Core) : Part := { p with cores := spSet .reset p.cores c k }
/-- Change core `c`. -/
def Part.modCore (p : Part) (c : Nat) (f : Core → Core) : Part := p.setCore c (f (p.core c))

/-- The scheduler of sector `s`. -/
def Part.sch (p : Part) (s : Nat) : Sched := spGet .reset p.sched s
/-- Replace the scheduler of sector `s`. -/
def Part.setSch (p : Part) (s : Nat) (x : Sched) : Part := { p with sched := spSet .reset p.sched s x }
/-- Change the scheduler of sector `s`. -/
def Part.modSch (p : Part) (s : Nat) (f : Sched → Sched) : Part := p.setSch s (f (p.sch s))

/-- The request units of sector `s`. -/
def Part.unit (p : Part) (s : Nat) : Units := spGet .reset p.units s
/-- Replace the request units of sector `s`. -/
def Part.setUnit (p : Part) (s : Nat) (x : Units) : Part := { p with units := spSet .reset p.units s x }
/-- Change the request units of sector `s`. -/
def Part.modUnit (p : Part) (s : Nat) (f : Units → Units) : Part := p.setUnit s (f (p.unit s))

/-- The press of sector `s`. -/
def Part.prs (p : Part) (s : Nat) : Press := spGet .reset p.press s
/-- Replace the press of sector `s`. -/
def Part.setPrs (p : Part) (s : Nat) (x : Press) : Part := { p with press := spSet .reset p.press s x }
/-- Change the press of sector `s`. -/
def Part.modPrs (p : Part) (s : Nat) (f : Press → Press) : Part := p.setPrs s (f (p.prs s))

/-- The optimiser units of sector `s`. -/
def Part.opt (p : Part) (s : Nat) : Optim := spGet .reset p.optim s
/-- Replace the optimiser units of sector `s`. -/
def Part.setOpt (p : Part) (s : Nat) (x : Optim) : Part := { p with optim := spSet .reset p.optim s x }

/-- The memory controllers of sector `s`. -/
def Part.ctl (p : Part) (s : Nat) : MemCtl := spGet .reset p.mctl s
/-- Replace the memory controllers of sector `s`. -/
def Part.setCtl (p : Part) (s : Nat) (x : MemCtl) : Part := { p with mctl := spSet .reset p.mctl s x }
/-- Change the memory controllers of sector `s`. -/
def Part.modCtl (p : Part) (s : Nat) (f : MemCtl → MemCtl) : Part := p.setCtl s (f (p.ctl s))

/-- The racking engine of sector `s`. -/
def Part.rck (p : Part) (s : Nat) : Rack := spGet .reset p.rack s
/-- Replace the racking engine of sector `s`. -/
def Part.setRck (p : Part) (s : Nat) (x : Rack) : Part := { p with rack := spSet .reset p.rack s x }

/-- Bucket `b` of the reduction engine. -/
def Part.bkt (p : Part) (b : Nat) : Bucket := spGet .reset p.buckets b
/-- Replace bucket `b`. -/
def Part.setBkt (p : Part) (b : Nat) (x : Bucket) : Part := { p with buckets := spSet .reset p.buckets b x }

/-- Change the tick unit. -/
def Part.modTick (p : Part) (f : Tick → Tick) : Part := { p with tick := f p.tick }
/-- Change the observation unit. -/
def Part.modObs (p : Part) (f : Obs → Obs) : Part := { p with obs := f p.obs }
/-- Change the fabric. -/
def Part.modFab (p : Part) (f : Fabric → Fabric) : Part := { p with fab := f p.fab }
/-- Change the twin unit. -/
def Part.modTwin (p : Part) (f : Twin → Twin) : Part := { p with twin := f p.twin }
/-- Change the host interface. -/
def Part.modHif (p : Part) (f : Hif → Hif) : Part := { p with hif := f p.hif }
/-- Change the controller. -/
def Part.modMgt (p : Part) (f : Mgt → Mgt) : Part := { p with mgt := f p.mgt }
/-- Change the power state. -/
def Part.modPower (p : Part) (f : Power → Power) : Part := { p with power := f p.power }
/-- Change the transaction unit. -/
def Part.modTxn (p : Part) (f : Txn → Txn) : Part := { p with txn := f p.txn }

/-- Fold a change of the part over a list. -/
def Part.each {α : Type} (p : Part) (l : List α) (f : Part → α → Part) : Part := l.foldl f p

/-- The four sectors (R1). -/
def sectors : List Nat := [0, 1, 2, 3]

/-- Logical cores per sector of the grade (R2). -/
def Part.coresPerSector (p : Part) : Nat := if p.big then 1536 else 1280

/-- Whether a 13-bit identifier names a logical core of the grade (R3). -/
def Part.validCore (p : Part) (c : Nat) : Bool := c < 8192 && c % 2048 < p.coresPerSector

/-- The sector of a core (R3). -/
def coreSector (c : Nat) : Nat := c / 2048

/-- The chip identifier in force (R10, R328). -/
def Part.chip (p : Part) : Nat := p.fab.idInForce

/-- TIK_COUNT. -/
def Part.tickCount (p : Part) : Nat := p.rd TIK_COUNT
/-- TIK_FRAME_NO. -/
def Part.frameNo (p : Part) : Nat := p.rd TIK_FRAME_NO
/-- The frame epoch: the low 4 bits of the tick count (R28). -/
def Part.epoch (p : Part) : Nat := p.tickCount % 16
/-- The kind of the frame in progress: the kind of the span of the season position (R37). -/
def Part.kind (p : Part) : Nat := p.getF (TIK_SPAN (p.getF TIK_SEASON_POS 16 4)) 16 2
/-- TIK_STATUS.phase. -/
def Part.phase (p : Part) : Nat := p.getF TIK_STATUS 2 3
/-- TIK_STATUS.role: 0 member, 1 tick master, 2 standby. -/
def Part.role (p : Part) : Nat := p.getF TIK_STATUS 5 2
/-- TIK_STATUS.running. -/
def Part.running (p : Part) : Bool := p.getB TIK_STATUS 0
/-- A frame is in progress: the first tick has been applied. -/
def Part.inFrame (p : Part) : Bool := p.phase != 4
/-- The cycle within the frame. -/
def Part.frameCycle (p : Part) : Nat := p.cycle - p.tick.frameStart
/-- COR_SEED as sector 0 holds it; the four sectors hold one value (R99). -/
def Part.seed (p : Part) : Nat := p.rd (COR_SEED 0)

/-- Global address of a local one (R11). -/
def Part.gaddr (p : Part) (a : Nat) : Nat := (p.chip <<< 40) + a

/-- An error record with every field but block, event and severity at "none": hub, no core, no pair. -/
def mkErr (block event severity : Nat) : ErrRec :=
  { seq := 0, chip := 0, block := block, event := event, severity := severity, sector := 4, core := 0xFFFF,
    tick := 0, frame := 0, pair := 0, cycle := 0, addr := 0, aux := 0, char0 := 0, char1 := 0, loc0 := 0,
    loc1 := 0, count := 1 }

/-- What the signature of a record is taken over (R498): bytes 10 to 12 and 56 to 71. -/
def ErrRec.sigBytes (e : ErrRec) : List Byte :=
  leBytes 1 e.block ++ leBytes 1 e.event ++ leBytes 1 e.severity ++ leBytes 8 e.char0 ++ leBytes 8 e.char1

/-- The failure signature (R498). -/
def ErrRec.signature (e : ErrRec) : List Byte := (sha256 e.sigBytes).take 8

/-- The 128 bytes of a record (R496). -/
def ErrRec.bytes (e : ErrRec) : List Byte :=
  leBytes 8 e.seq ++ leBytes 2 e.chip ++ leBytes 1 e.block ++ leBytes 1 e.event ++ leBytes 1 e.severity ++
  leBytes 1 e.sector ++ leBytes 2 e.core ++ leBytes 8 e.tick ++ leBytes 8 e.frame ++
  leBytes 2 (e.pair >>> 16) ++ leBytes 2 e.pair ++ leBytes 4 e.cycle ++ leBytes 8 e.addr ++ leBytes 8 e.aux ++
  leBytes 8 e.char0 ++ leBytes 8 e.char1 ++ leBytes 8 e.loc0 ++ leBytes 8 e.loc1 ++ leBytes 4 e.count ++
  leBytes 4 0 ++ e.signature ++ leBytes 24 0

/-- The 32 bytes of a trace record (R509). -/
def TraceRec.bytes (t : TraceRec) : List Byte :=
  leBytes 8 t.cycle ++ leBytes 2 (t.pair >>> 16) ++ leBytes 2 t.pair ++ leBytes 1 t.kind ++ leBytes 1 t.sector ++
  leBytes 2 t.core ++ leBytes 8 t.a ++ leBytes 8 t.b

/-- The trace configuration of a buffer: 0 to 3 the sectors, 4 the hub (R509, R519, R520). -/
def traceCfg (b : Nat) : Nat := if b = 4 then OBS_TRACE_CFG else SOBS_TRACE_CFG b
/-- The trace base of a buffer. -/
def traceBase (b : Nat) : Nat := if b = 4 then OBS_TRACE_BASE else SOBS_TRACE_BASE b
/-- The trace head of a buffer. -/
def traceHead (b : Nat) : Nat := if b = 4 then OBS_TRACE_HEAD else SOBS_TRACE_HEAD b
/-- The drop counter of a buffer. -/
def traceDrop (b : Nat) : Nat := if b = 4 then OBS_STAT_TDROP else SOBS_STAT_TDROP b

/-- Stage a trace record in a buffer, or drop and count it when 256 are staged (R510). -/
def Part.trace (p : Part) (b kind pair core a v : Nat) : Part :=
  if p.getB (traceCfg b) 0 && p.getB (traceCfg b) (16 + kind) then
    let st := spGet [] p.obs.stage b
    if st.length ≥ 256 then (p.bump (traceDrop b) 1).stick OBS_STICKY 6
    else
      let r : TraceRec := ⟨p.cycle, pair, kind, b, core, a, v⟩
      p.modObs fun o => { o with stage := spSet [] o.stage b (st ++ [r]) }
  else p

/-- The ports of a bundle (R326): 0 to 7 the torus bundles, 8 the two twin ports. -/
def bundlePorts (b : Nat) : List Nat := if b < 8 then [4 * b, 4 * b + 1, 4 * b + 2, 4 * b + 3] else [32, 33]

/-- A port is up with its four lanes locked (R325). -/
def Part.portRuns (p : Part) (n : Nat) : Bool := p.getF (FAB_PSTATUS n) 0 4 == 5 && p.getF (FAB_PSTATUS n) 4 4 == 15

/-- A bundle is up: any of its ports runs (R326). -/
def Part.bundleUp (p : Part) (b : Nat) : Bool := (bundlePorts b).any p.portRuns

/-- The port of a bundle that takes control messages: the lowest that is up (R350). -/
def Part.ctlPort (p : Part) (b : Nat) : Option Nat := (bundlePorts b).find? p.portRuns

/-- The two copies of a control message, 4 cycles apart, on the lowest up port of a bundle (R350).
DESIGN CHOICE (log 147, unsafe): A control message never waits for a packet being serialised: the wait added to the correction field is 0. -/
def Part.ctlCopies (p : Part) (corr : Nat) (m : CtlMsg) (b : Nat) : List CtlOut :=
  match p.ctlPort b with
  | none => []
  | some n => [⟨b, n, p.cycle, ⟨corr, false⟩, m⟩, ⟨b, n, p.cycle + 4, ⟨corr, true⟩, m⟩]

/-- Send a control message with its correction on every up torus bundle but one (R350 to R353). -/
def Part.flood (p : Part) (except : Option Nat) (corr : Nat) (m : CtlMsg) : Part :=
  let bs := (List.range 8).filter fun b => p.bundleUp b && except != some b
  p.modFab fun f => { f with ctlOut := f.ctlOut ++ bs.flatMap (p.ctlCopies corr m) }

/-- Assert a freeze from a source (R512, R513): the part freezes, drives FREEZE_OUT, floods the freeze on every up bundle but
the one it came by, with the correction `corr`, abandons a full test (R517), and is halted, with no token after the one announced. -/
def Part.freezeFrom (p : Part) (source : Nat) (from' : Option Nat) (corr : Nat) : Part :=
  if p.obs.frozen then p
  else
    let p := p.modObs fun o => { o with frozen := true }
    let p := (p.putB OBS_STATUS 5 true).stick OBS_STICKY 7
    let p := p.modPower fun w => { w with freezeOut := true }
    let p := (p.flood from' corr .freeze).modFab fun f => { f with frozenSeen := true }
    let p := if p.getB OBS_STATUS 4 then (p.putB OBS_STATUS 4 false).putF OBS_TEST_STATUS 0 4 7 else p
    let p := (p.putB TIK_STATUS 11 true).modTick fun t => { t with stopAfter := true }
    p.trace 4 8 0 0xFFFF source 0

/-- Assert a freeze that this part is the first to see. -/
def Part.freeze (p : Part) (source : Nat) : Part := p.freezeFrom source none 0

/-- Write an error record (R495, R496): merge it with an earlier one of the attempt with the same sector, signature
and pair, drop and count it past 256 distinct ones, else put it into the ring; a record at or above sev_level
asserts a freeze (R512).
DEDUCED (log 116, unsafe): Error records that set no sticky bit carry event 255; failure causes carry 64 plus the cause in block 13 with severity 2.
DEDUCED (log 121, safe): Records are kept newest first up to 4,096; the ring register shows the record of each slot. -/
def Part.err (p : Part) (e : ErrRec) : Part :=
  let same (x : ErrRec) : Bool :=
    x.seq > p.obs.first && x.sector == e.sector && x.pair == e.pair && x.block == e.block && x.event == e.event &&
      x.severity == e.severity && x.char0 == e.char0 && x.char1 == e.char1
  if p.obs.recs.any same then
    p.modObs fun o =>
      { o with recs := o.recs.map fun x => if same x then { x with count := (x.count + 1) % 2 ^ 32 } else x }
  else if p.obs.distinct ≥ 256 then (p.bump OBS_STAT_ERRDROP 1).stick OBS_STICKY 5
  else
    let seq := p.rd OBS_ERR_SEQ + 1
    let e := { e with seq := seq, chip := p.chip, tick := p.tickCount, frame := p.frameNo, cycle := p.frameCycle }
    let p := p.modObs fun o => { o with recs := (e :: o.recs).take 4096, distinct := o.distinct + 1 }
    let p := (p.wr OBS_ERR_SEQ seq).bump OBS_STAT_ERRREC 1
    let p := p.trace e.sector 7 e.pair e.core seq (leNat e.signature)
    let lvl := p.getF OBS_FREEZE 5 3
    if lvl ≠ 0 ∧ e.severity ≥ lvl then p.freeze 3 else p

/-- Note an event that sets bit `i` of a STICKY register with a record of the same bit (R497). -/
def Part.noteErr (p : Part) (sticky i : Nat) (e : ErrRec) : Part := (p.stick sticky i).err { e with event := i }

/-- Add what an event counts to its pair (R507). -/
def Part.addPair (p : Part) (pair : Nat) (f : PairAcc → PairAcc) : Part :=
  p.modObs fun o => { o with pairs := spSet .zero o.pairs pair (f (spGet .zero o.pairs pair)) }

/-- Hand a packet to the hub for injection (R337).
DESIGN CHOICE (log 60, unsafe): Formats of packets the manual names but does not lay out: remote LDG and STG, rows, racking, signals, statuses, holds, stretches, loss, restore. -/
def Part.sendPacket (p : Part) (dst cls kind ref poison : Nat) (payload : List Byte) : Part :=
  p.modFab fun f =>
    { f with txq := f.txq ++ [⟨0, p.chip, dst, p.epoch, cls, 0, kind, ref, poison, payload⟩] }

/-- Send a posted block (class 2) in segments of up to 2,048 bytes, with its poison flags by granule: the number it
takes toward its destination (R334). -/
def Part.sendBlock (p : Part) (dst kind poison : Nat) (payload : List Byte) : Nat × Part :=
  let b := spGet 0 p.fab.nextBlock dst
  let p := p.modFab fun f => { f with nextBlock := spSet 0 f.nextBlock dst ((b + 1) % 256) }
  let segs := chunks 2048 64 payload
  let n := segs.length
  (b, p.each ((List.range n).zip segs) fun p q =>
    p.sendPacket dst 2 kind (b <<< 12 + q.1 <<< 6 + (n - 1)) (fld poison (64 * q.1) 64) q.2)

/-- Fabric payload bytes sent for a pair (R507). -/
def Part.sentFor (p : Part) (pair n : Nat) : Part := p.addPair pair fun a => { a with fab := a.fab + n }

/-- Cut or fill bytes to `n`. -/
def fitBytes (n : Nat) (bs : List Byte) : List Byte := (bs ++ List.replicate n 0#8).take n

/-- Bytes of a nonce, a challenge, a signature or a key share: any. -/
def Part.anyBytes (p : Part) (n : Nat) : List Byte × Part :=
  let (u, p) := p.fresh
  (fitBytes n (Config.freeBytes u n), p)

/-- Put padding behind a payload up to whole 32-byte units (R332). -/
def pad32 (bs : List Byte) : List Byte := bs ++ List.replicate ((32 - bs.length % 32) % 32) 0

/-- Take one delivered packet out of the ones that wait. -/
def Part.takeRx (p : Part) (q : Packet) : Part := p.modFab fun f => { f with rx := f.rx.erase q }

/-- The tick master and the standby that TIK_MASTER names. -/
def Part.masters (p : Part) : List Nat :=
  let m := p.getF TIK_MASTER 0 16
  let b := p.getF TIK_MASTER 16 16
  if m = b then [m] else [m, b]

/-- Send the same flagged packet (class 3) to the tick master and the standby. -/
def Part.toMasters (p : Part) (kind ref : Nat) (payload : List Byte) : Part :=
  p.each p.masters fun p d => p.sendPacket d 3 kind ref 0 payload

/-- The payload of a frame status (R25, R45, R301): tick count, fail, cause, supply mark and poison mark. -/
def Part.statusBytes (p : Part) (pass : Bool) (cause : Nat) : List Byte :=
  leBytes 8 p.tickCount ++ leBytes 1 (b2n (!pass)) ++ leBytes 1 cause ++
  leBytes 1 (b2n (p.getB TIK_STATUS 10) + 2 * b2n (!p.obs.poisonJobs.isEmpty)) ++ leBytes 21 0

/-- Send the part's frame status (R25). -/
def Part.sendStatus (p : Part) (pass : Bool) (cause : Nat) : Part :=
  let p := p.toMasters 4 0 (p.statusBytes pass cause)
  p.modTick fun t => { t with sent := if pass then 1 else 2 }

/-- Detect a failure cause of the frame (R25, R34): the first is kept, each is counted, a record of severity 2 is
written, and a fail is sent unless one has been. -/
def Part.failCause (p : Part) (cause : Nat) : Part :=
  let first := p.tick.cause = 0
  let p := p.modTick fun t =>
    { t with cause := if t.cause = 0 then cause else t.cause,
             causes := spSet 0 t.causes cause (spGet 0 t.causes cause + 1) }
  let p := p.err (mkErr 13 (64 + cause) 2)
  if first && p.inFrame then
    let p := p.wr TIK_FAIL_CAUSE (if p.role = 0 then (p.chip <<< 8) + cause else p.rd TIK_FAIL_CAUSE)
    if p.tick.sent = 2 then p else p.sendStatus false cause
  else p

/-- Record arithmetic events in a FMT_STICKY register and the FMT_FRAME register above it (R87, R108). -/
def Part.events (p : Part) (sticky : Nat) (e : Events) : Part :=
  if e.bits = 0 then p
  else
    let p := p.wr sticky ((p.rd sticky) ||| e.bits.toNat)
    p.wr (sticky + 4) ((p.rd (sticky + 4)) ||| e.bits.toNat)

/-- Record the arithmetic events of a core, with its flush count (R87, R108). -/
def Part.coreEvents (p : Part) (c : Nat) (e : Events) : Part :=
  (p.events (COR_FMT_STICKY c) e).bump (COR_STAT_FLUSH c) e.flushes

/-- The poison token of R298 for a line at global address `origin`. -/
def Part.token (p : Part) (origin pair agent : Nat) : Nat :=
  let pr := if agent = 0 ∨ agent = 10 then 0 else pair
  origin + ((pr >>> 16) % 65536) <<< 64 + (pr % 65536) <<< 80 + (p.frameNo % 2 ^ 32) <<< 96 + agent <<< 128

/-- The origin a token names. -/
def tokenOrigin (t : Nat) : Nat := t % 2 ^ 64

/-- The 32 bytes of a token. -/
def tokenBytes (t : Nat) : List Byte := leBytes 32 t

/-- A unit consumes poison for a pair (R301): the job's first consumption writes a record, each further one counts
in the sector. -/
def Part.consume (p : Part) (s agent core pair token : Nat) : Part :=
  let p := p.stick (MEM_STICKY s) 2
  let p := p.addPair pair fun a => { a with poisoned := true, pcons := a.pcons + 1 }
  if p.obs.poisonJobs.contains pair then p.bump (MEM_STAT_PCONS s) 1
  else
    let p := p.modObs fun o => { o with poisonJobs := pair :: o.poisonJobs }
    p.err { mkErr 6 2 1 with sector := s, core := core, pair := pair, aux := tokenOrigin token, char0 := agent }

/-- The product of the extents of the topology in force (R327). -/
def Part.topoSize (p : Part) : Nat :=
  (List.range 4).foldl (fun a i => a * (fld p.fab.topoInForce (4 * i) 4 + 1)) 1

/-- The arithmetic checks in force, 1 to 4 (R483). -/
def Part.checkMode (p : Part) : Nat :=
  let m := p.getF OBS_CTRL 0 3
  if m = 0 then (if p.topoSize ≤ 1024 then 2 else 3) else m

/-- Sampled duplication is in force (R483). -/
def Part.dupOn (p : Part) : Bool := p.checkMode == 2 || p.checkMode == 4
/-- Residue codes are in force (R483). -/
def Part.resOn (p : Part) : Bool := p.checkMode == 3 || p.checkMode == 4

/-- char0 of an integrity event (R498): unit, opcode or step function, formats, mode, axis, cmp and tree node. -/
def char0Of (unit op fx fs mode axis cmp node : Nat) : Nat :=
  unit % 256 + (op % 256) <<< 8 + (fx % 8) <<< 16 + (fs % 8) <<< 19 + (mode % 4) <<< 22 + (axis % 2) <<< 24 +
    (cmp % 2) <<< 25 + (node % 256) <<< 40

/-- Add a finding about a frame to its next integrity notice (R494); the notice's first record is the newest of a finding, severity 3 or 4,
when the notice begins. -/
def Part.note (p : Part) (frame : Nat) (f : Note → Note) : Part :=
  let r := p.obs.recs.find? fun e => 3 ≤ e.severity
  let fresh : Note := ⟨frame, 0, 0, 0, 0, (r.map (·.seq)).getD 0, (r.map (·.signature)).getD []⟩
  p.modObs fun o =>
    { o with notes := if o.notes.any (·.frame == frame) then o.notes.map fun n => if n.frame == frame then f n else n
                      else o.notes ++ [f fresh] }

/-- A residue check fails (R486): a severity-3 record, res_mismatch and its counters, and the pair's mismatch. -/
def Part.residueFails (p : Part) (e : ErrRec) : Part :=
  let p := (p.bump OBS_STAT_RESMIS 1).stick OBS_STICKY 1
  let p := p.addPair e.pair fun a => { a with mismatch := true, dmis := a.dmis + 1 }
  (p.err { e with event := 1, severity := 3 }).note p.frameNo fun n => { n with res := n.res + 1 }

/-- What a fault of an arithmetic unit makes of a value, and whether the residues miss it (R486).
DEDUCED (log 26, unsafe): Residue codes detect an upset unless it changes a value by a multiple of 93. -/
def upsetHit (u : Upset) (v : Nat) : Nat × Bool :=
  let w := v ^^^ u.mask.toNat
  (w, ((w : Int) - v) % 93 == 0)

/-- Turn the bits of an upset over in one value of a list of rows, and say whether the residue codes would show
it. -/
def upsetRows (up : Option Upset) (rows : List (List Nat)) : List (List Nat) × Option Upset :=
  match up with
  | none => (rows, none)
  | some u =>
    match rows[u.row]? with
    | none => (rows, none)
    | some r =>
      match r[u.col]? with
      | none => (rows, none)
      | some v =>
        let (w, missed) := upsetHit u v
        (rows.set u.row (r.set u.col w), if missed then none else some u)

end Sys2Proof.Machine
end

