-- ==== Sys2Proof/Machine/MemOps.lean ====
section
/-!
DEFINITION. The operations on memory (chapter 10): the address map, the region map, decoded line reads, line and
partial writes with their journal entries, scratchpad granules, and moving data with its poison.
-/
namespace Sys2Proof.Machine

/-- The first local address above HBM (R288). -/
def hbmTop : Nat := 0x8000000000
/-- The first local address above the scratchpad windows (R288). -/
def windowTop : Nat := 0x8100000000
/-- The bytes of a scratchpad (R49). -/
def spadBytes : Nat := 0x50000

/-- The local address of scratchpad byte `a` of core `c` (R289). -/
def spadAddr (c a : Nat) : Nat := hbmTop + 0x80000 * c + a
/-- The core whose window holds a local address. -/
def windowCore (a : Nat) : Nat := (a - hbmTop) / 0x80000
/-- The scratchpad offset of a local address in a window. -/
def windowOff (a : Nat) : Nat := (a - hbmTop) % 0x80000
/-- An address in the HBM range. -/
def isHbm (a : Nat) : Bool := a < hbmTop
/-- An address in the window range. -/
def isWindow (a : Nat) : Bool := hbmTop ≤ a && a < windowTop

/-- The valid region whose granules include a local address (R302).
DEDUCED (log 53, unsafe): Region and slice registers are read from sector 0's copy. -/
def Part.region (p : Part) (a : Nat) : Option Nat :=
  (List.range 64).find? fun n =>
    p.getB (MEM_RGN_ATTR 0 n) 0 && p.getF (MEM_RGN_BASE 0 n) 12 28 ≤ a >>> 12 && a >>> 12 ≤ p.getF (MEM_RGN_LIMIT 0 n) 12 28

/-- Attribute bit `i` of the region of an HBM address (R303); an unmapped address has none. -/
def Part.attr (p : Part) (a i : Nat) : Bool :=
  match p.region a with
  | some n => isHbm a && p.getB (MEM_RGN_ATTR 0 n) i
  | none => false

/-- Every 4 KiB granule of a range satisfies a test. -/
def granulesAll (a len : Nat) (f : Nat → Bool) : Bool :=
  (List.range ((a + len - 1) / 4096 - a / 4096 + 1)).all fun i => f ((a / 4096 + i) * 4096)

/-- Every byte of an HBM range lies in a valid region with attribute `i`, region by region (`fuel` of them). -/
def Part.covered (fuel : Nat) (p : Part) (a top i : Nat) : Bool :=
  match fuel with
  | 0 => false
  | fuel + 1 =>
    if top ≤ a then true
    else
      match p.region a with
      | some n => isHbm a && p.attr a i && Part.covered fuel p ((p.getF (MEM_RGN_LIMIT 0 n) 12 28 + 1) <<< 12) top i
      | none => false

/-- The range lies wholly in one valid region. -/
def Part.oneRegion (p : Part) (a len : Nat) : Bool :=
  match p.region a with
  | some n => isHbm a && (a + len - 1) >>> 12 ≤ p.getF (MEM_RGN_LIMIT 0 n) 12 28
  | none => false

/-- The range lies in the readable bytes of one window of the grade (R288, R289). -/
def Part.inWindow (p : Part) (a len : Nat) : Bool :=
  isWindow a && p.validCore (windowCore a) && windowOff a + len ≤ spadBytes

/-- The range lies in the inbound partition of one core (R50). -/
def Part.inInbound (p : Part) (a len : Nat) : Bool :=
  p.inWindow a len && p.getF (COR_PART (windowCore a)) 8 7 * 4096 ≤ windowOff a

/-- The data plane of any part may read the range (R304). -/
def Part.mayRead (p : Part) (a len : Nat) : Bool :=
  if isHbm a then granulesAll a len fun g => p.attr g 1 else p.inWindow a len

/-- The data plane of this part may write the range (R304, R50). -/
def Part.mayWrite (p : Part) (a len : Nat) : Bool :=
  if isHbm a then granulesAll a len fun g => p.attr g 2 && !p.attr g 6 else p.inInbound a len

/-- A write arriving from another part may write the range (R304, R50). -/
def Part.mayInbound (p : Part) (a len : Nat) : Bool :=
  if isHbm a then granulesAll a len fun g => p.attr g 3 else p.inInbound a len

/-- The stack, 0 to 7, that holds an HBM address (R291). -/
def Part.stack (p : Part) (a : Nat) : Nat :=
  let mode := p.getF (MEM_SLICE 0 (a >>> 30)) 0 3
  if mode ≥ 4 then 2 * (mode - 4) + (fld a 8 1 ^^^ fld a 18 1) else fld a 8 3 ^^^ fld a 18 3

/-- The share of slice `n` in stack `h`, in bytes (R290). -/
def Part.share (p : Part) (h n : Nat) : Nat :=
  let mode := p.getF (MEM_SLICE 0 n) 0 3
  if mode = 1 then 2 ^ 27 else if mode = 4 + h / 2 then 2 ^ 29 else 0

/-- The local address at physical offset `off` of stack `h`, searching `fuel` slices from `n` (R290, R291). -/
def Part.physAddr (p : Part) (fuel h n off : Nat) : Option Nat :=
  match fuel with
  | 0 => none
  | fuel + 1 =>
    let sz := p.share h n
    if off < sz then
      let hi := off >>> 8
      if p.getF (MEM_SLICE 0 n) 0 3 = 1 then
        let o := hi <<< 11
        some ((n <<< 30) + o + ((h ^^^ fld o 18 3) <<< 8) + off % 256)
      else
        let o := hi <<< 9
        some ((n <<< 30) + o + ((h % 2 ^^^ fld o 18 1) <<< 8) + off % 256)
    else p.physAddr fuel h (n + 1) (off - sz)

/-- The bytes listed at an address. -/
def Part.rawBytes (p : Part) (a n : Nat) : List Byte := (List.range n).map fun i => spGet 0#8 p.mem.bytes (a + i)

/-- Put bytes at an address, one by one. -/
def putBytes (m : Sparse Byte) (a : Nat) (bs : List Byte) : Sparse Byte :=
  match bs with
  | [] => m
  | b :: r => putBytes (spSet 0#8 m a b) (a + 1) r

/-- Put bytes at an address and leave everything else. -/
def Part.putRaw (p : Part) (a : Nat) (bs : List Byte) : Part :=
  { p with mem := { p.mem with bytes := putBytes p.mem.bytes a bs } }

/-- Store a line with a fresh codeword, or as poison with its token (R293, R294, R297). -/
def Part.putLine (p : Part) (a : Nat) (bs : List Byte) (poison : Option Nat) : Part :=
  match poison with
  | none => { p with mem := { p.mem with bytes := putBytes p.mem.bytes a bs, chk := spSet 0 p.mem.chk a 0 } }
  | some t =>
    { p with
      mem := { p.mem with bytes := putBytes p.mem.bytes a (tokenBytes t ++ tokenBytes t),
                          chk := spSet 0 p.mem.chk a poisonQ } }

/-- Invalidate the row-cache entries of every sector that a write of `n` bytes at `a` touches (R243). -/
def Part.rcInvalidate (p : Part) (a n : Nat) : Part :=
  p.each sectors fun p s =>
    let u := p.unit s
    let hit (e : RcEntry) : Bool := e.valid && e.src.any fun r => r.1 < a + n && a < r.2
    let k := (u.rc.filter fun e => hit e.2).length
    if k = 0 then p
    else (p.setUnit s { u with rc := u.rc.filter fun e => !(hit e.2) }).bump (TBL_STAT_RC_INVAL s) k

/-- Write a line in HBM, by whatever agent (R243, R293, R297, R322): the row caches let go of it and the write counts. -/
def Part.putHbm (p : Part) (a : Nat) (bs : List Byte) (poison : Option Nat) : Part :=
  ((p.putLine a bs poison).rcInvalidate a 64).bump (MEM_STAT_WR (p.stack a / 2)) 1

/-- MEM_ERRLOG (R296, R322). -/
def Part.errLog (p : Part) (h kind a : Nat) : Part :=
  p.wr (MEM_ERRLOG (h / 2)) ((kind <<< 60) + ((h % 2) <<< 40) + a)

/-- Count a corrected line of stack `h`, with the record of R296 when the frame's count reaches the threshold. -/
def Part.countCe (p : Part) (h n : Nat) : Part :=
  let s := h / 2
  let p := p.bump (MEM_STAT_CE s) 1
  let p := if n = 2 then p.bump (MEM_STAT_CE2 s) 1 else p
  let c := p.ctl s
  let k := (if h % 2 = 0 then c.ce0 else c.ce1) + 1
  let done := if h % 2 = 0 then c.ceRec0 else c.ceRec1
  let hit := !done && k ≥ p.getF (MEM_SCRUB s) 24 8
  let p := p.setCtl s (if h % 2 = 0 then { c with ce0 := k, ceRec0 := done || hit } else { c with ce1 := k, ceRec1 := done || hit })
  if hit then p.noteErr (MEM_STICKY s) 3 { mkErr 6 3 0 with sector := s, loc0 := h % 2 } else p

/-- A decoded read of the line at `a` for an agent and pair (R293, R296 to R298): the data with corrections made, and
the poison it carries. `kind` is what MEM_ERRLOG shows for an uncorrectable line: 1 for a read, 2 for scrub.
DESIGN CHOICE (log 5, unsafe): HBM before every line has been zeroed (R319): a line reads as free bytes. -/
def Part.readLine (p : Part) (kind agent pair a : Nat) : (List Byte × Option Nat) × Part :=
  let h := p.stack a
  let s := h / 2
  let p := p.bump (MEM_STAT_RD s) 1
  let p := p.addPair pair fun x => { x with hbm := x.hbm + 64 }
  if !p.mem.ready then
    let (u, p) := p.fresh
    ((((List.range 64).map fun i => BitVec.ofNat 8 (Config.freeWord u i)), none), p)
  else
    let bs := p.rawBytes a 64
    match rsDecode (spGet 0 p.mem.chk a) with
    | .clean => ((bs, none), p)
    | .corrected errs => ((rsCorrect errs bs, none), p.countCe h errs.length)
    | .poisoned errs =>
      let t := leNat ((rsCorrect errs bs).take 32)
      let p := p.bump (MEM_STAT_PREAD s) 1
      let p := p.errLog h 3 a
      let p := p.noteErr (MEM_STICKY s) 1
        { mkErr 6 1 0 with sector := s, pair := pair, addr := p.gaddr a, aux := tokenOrigin t, char0 := agent }
      ((tokenBytes t ++ tokenBytes t, some t), p)
    | .uncorrectable =>
      let t := p.token (p.gaddr a) pair agent
      let p := p.putHbm a bs (some t)
      let p := p.bump (MEM_STAT_UE s) 1
      let p := p.errLog h kind a
      let p := p.noteErr (MEM_STICKY s) 0
        { mkErr 6 0 0 with sector := s, pair := pair, addr := p.gaddr a, char0 := agent }
      ((tokenBytes t ++ tokenBytes t, some t), p)

/-- Whether the journal of any sector has overflowed in the frame: then no later write into a journalled region is
applied (R30). -/
def Part.journalFull (p : Part) : Bool := sectors.any fun s => p.getB (MEM_FRAME_ERR s) 5

/-- How many entries the journal area of a sector holds: eight in each 576 bytes (R306). -/
def Part.journalRoom (p : Part) (s : Nat) : Nat := p.getF (MEM_JOURNAL s) 48 16 * 2 ^ 20 / 576 * 8

/-- Put journal entry `n` of a sector, the newest of its journal, into its group in HBM (R306): the line of addresses, with those of the
group's earlier entries, and the old line. -/
def Part.putJournal (p : Part) (s n : Nat) (e : JEntry) : Part :=
  let g := p.getF (MEM_JOURNAL s) 0 40 + n / 8 * 576
  let k := n % 8 + 1
  let addrs := (((p.ctl s).journal.take k).reverse).flatMap fun x => leBytes 8 x.addr
  let p := p.putHbm g (addrs ++ (p.rawBytes g 64).drop (8 * k)) none
  p.putHbm (g + 64 * (1 + n % 8)) e.old (if e.poison then some (leNat (e.old.take 32)) else none)

/-- Journal the line at `a` before a write (R306, R30): whether the write may be applied, and the part after.
DEDUCED (log 54, unsafe): Journal rules: a line is journalled once a frame while its address is in the filter of 4,096; a full journal refuses further lines and fails the frame. -/
def Part.journalLine (p : Part) (agent pair a : Nat) : Bool × Part :=
  if !p.attr a 5 then (true, p)
  else if p.journalFull then (false, p)
  else
    let h := p.stack a
    let s := h / 2
    let c := p.ctl s
    let filter := if h % 2 = 0 then c.filter0 else c.filter1
    if filter.contains a then (true, p)
    else
      let n := p.rd (MEM_JOURNAL_USE s)
      if n ≥ p.journalRoom s then (false, (p.stick (MEM_STICKY s) 5).failCause 9)
      else
        let ((old, poison), p) := p.readLine 1 agent pair a
        let e : JEntry := ⟨a, old, poison.isSome⟩
        let p := p.modCtl s fun c =>
          let c := { c with journal := e :: c.journal }
          if h % 2 = 0 then { c with filter0 := (a :: c.filter0).take 4096 }
          else { c with filter1 := (a :: c.filter1).take 4096 }
        let p := p.putJournal s n e
        (true, (p.wr (MEM_JOURNAL_USE s) (n + 1)).bump (MEM_STAT_JOURNAL s) 1)

/-- A window of the twin covers a local address (R373). -/
def Part.inTwinWin (p : Part) (a : Nat) : Bool :=
  p.getB TWN_CTRL 0 && (List.range 16).any fun w =>
    let base := p.getF (TWN_WIN_BASE w) 0 40
    base ≤ a && a < base + 4096 * p.getF (TWN_WIN_BASE w) 40 24

/-- A line accepted into a window waits to be sent to the twin (R375). -/
def Part.rawLine (p : Part) (a : Nat) (bs : List Byte) (poison : Option Nat) : Part :=
  if p.inTwinWin a then
    let data := match poison with
      | some t => tokenBytes t ++ tokenBytes t
      | none => bs
    p.modTwin fun t => { t with out := t.out ++ [⟨1, leBytes 8 a ++ data, b2n poison.isSome⟩] }
  else p

/-- Make writes that are not sent to the twin as raw lines (R375): those of job records, level writes and their bitmap bits. -/
def Part.quiet (p : Part) (f : Part → Part) : Part :=
  let q := f p
  q.modTwin fun t => { t with out := p.twin.out }

/-- Write a whole line (R293, R297, R306): journalled first where its region says so. -/
def Part.writeLine (p : Part) (agent pair a : Nat) (bs : List Byte) (poison : Option Nat) : Part :=
  let (ok, p) := p.journalLine agent pair a
  if !ok then p
  else
    let p := (p.putHbm a bs poison).rawLine a bs poison
    p.addPair pair fun x => { x with hbm := x.hbm + 64 }

/-- Write part of a line: a read-modify-write, lost when the line is poison (R308); poison in the part makes the whole line poison
(R299). -/
def Part.writePart (p : Part) (agent pair a : Nat) (bs : List Byte) (poison : Option Nat) : Part :=
  let line := a / 64 * 64
  let ((old, was), p) := p.readLine 1 agent pair line
  match was with
  | some _ => p
  | none => p.writeLine agent pair line (old.take (a % 64) ++ bs ++ old.drop (a % 64 + bs.length)) poison

/-- What a decoded read of a line would return, with none of its effects; none for a line that is poison or would become so. -/
def Part.peekLine (p : Part) (a : Nat) : Option (List Byte) :=
  if !p.mem.ready then none
  else
    match rsDecode (spGet 0 p.mem.chk a) with
    | .clean => some (p.rawBytes a 64)
    | .corrected errs => some (rsCorrect errs (p.rawBytes a 64))
    | _ => none

/-- Whether the scratchpad granule of an address is poison. -/
def Part.granPoison (p : Part) (a : Nat) : Bool := spGet false p.mem.granules (a / 32 * 32)

/-- The token a poisoned scratchpad granule holds (R299). -/
def Part.granToken (p : Part) (a : Nat) : Nat := leNat (p.rawBytes (a / 32 * 32) 32)

/-- Write within one scratchpad granule (R299): a write of part of a poisoned granule is lost and the granule keeps its token;
poison fills the granule with its token; a write of a whole granule replaces its poison. -/
def Part.writeGran (p : Part) (a : Nat) (bs : List Byte) (poison : Option Nat) : Part :=
  let g := a / 32 * 32
  if bs.length < 32 ∧ p.granPoison a then p
  else
    match poison with
    | some t =>
      { p with mem := { p.mem with bytes := putBytes p.mem.bytes g (tokenBytes t),
                                   granules := spSet false p.mem.granules g true } }
    | none =>
      { p with mem := { p.mem with bytes := putBytes p.mem.bytes a bs,
                                   granules := if bs.length < 32 then p.mem.granules
                                               else spSet false p.mem.granules g false } }

/-- Write within one HBM line: poison in any of it makes the whole line poison (R299, R308). -/
def Part.writeInLine (p : Part) (agent pair a : Nat) (bs : List Byte) (poison : Option Nat) : Part :=
  if bs.length = 64 then p.writeLine agent pair a bs poison else p.writePart agent pair a bs poison

/-- Write bytes at a local address, piece by piece: lines in HBM, granules in a window (`fuel` pieces). -/
def Part.storeLoop (fuel : Nat) (p : Part) (agent pair a : Nat) (bs : List Byte) (poison : Option Nat) : Part :=
  match fuel with
  | 0 => p
  | fuel + 1 =>
    if bs.isEmpty then p
    else
      let g := if isHbm a then 64 else 32
      let n := g - a % g
      let b := bs.take n
      let p := if isHbm a then p.writeInLine agent pair a b poison else p.writeGran a b poison
      Part.storeLoop fuel p agent pair (a + n) (bs.drop n) poison

/-- Write bytes at a local address, poisoned throughout when a token is given. -/
def Part.store (p : Part) (agent pair a : Nat) (bs : List Byte) (poison : Option Nat) : Part :=
  Part.storeLoop (bs.length / 32 + 2) p agent pair a bs poison

/-- Read within one line or granule: the bytes and the poison. -/
def Part.readPiece (p : Part) (agent pair a n : Nat) : (List Byte × Option Nat) × Part :=
  if isHbm a then
    let ((bs, poison), p) := p.readLine 1 agent pair (a / 64 * 64)
    (((bs.drop (a % 64)).take n, poison), p)
  else ((p.rawBytes a n, if p.granPoison a then some (p.granToken a) else none), p)

/-- The pieces of a read: data and poison, piece by piece (`fuel` pieces). -/
def Part.loadLoop (fuel : Nat) (p : Part) (agent pair a len : Nat) : List (List Byte × Option Nat) × Part :=
  match fuel with
  | 0 => ([], p)
  | fuel + 1 =>
    if len = 0 then ([], p)
    else
      let g := if isHbm a then 64 else 32
      let n := min (g - a % g) len
      let (r, p) := p.readPiece agent pair a n
      let (rs, p) := Part.loadLoop fuel p agent pair (a + n) (len - n)
      (r :: rs, p)

/-- The bytes at a local address as a clean read would return them, with none of its effects. -/
def Part.peek (p : Part) (a n : Nat) : Option (List Byte) :=
  if isHbm a then
    let ls := (List.range ((a + n - 1) / 64 - a / 64 + 1)).map fun i => p.peekLine ((a / 64 + i) * 64)
    if ls.all (·.isSome) then some (((ls.filterMap id).flatten.drop (a % 64)).take n) else none
  else if (List.range ((a + n - 1) / 32 - a / 32 + 1)).any fun i => p.granPoison ((a / 32 + i) * 32) then none
  else some (p.rawBytes a n)

/-- The first poison of a list of pieces. -/
def firstPoison (l : List (List Byte × Option Nat)) : Option Nat := l.findSome? fun q => q.2

/-- Read bytes at a local address: the data and the first poison met. -/
def Part.load (p : Part) (agent pair a len : Nat) : (List Byte × Option Nat) × Part :=
  let (rs, p) := Part.loadLoop (len / 32 + 2) p agent pair a len
  ((rs.flatMap (·.1), firstPoison rs), p)

/-- The line or scratchpad granule of a range in which a reader met poison; the first of the range where none is poison. -/
def Part.poisonAt (p : Part) (a len : Nat) : Nat :=
  let g := if isHbm a then 64 else 32
  let bad (x : Nat) : Bool :=
    if isHbm a then
      match rsDecode (spGet 0 p.mem.chk x) with
      | .poisoned _ | .uncorrectable => true
      | _ => false
    else p.granPoison x
  let l := (List.range ((a + len - 1) / g - a / g + 1)).map fun i => (a / g + i) * g
  (l.find? bad).getD (a / g * g)

/-- A little-endian number read from memory, with poison. -/
def Part.loadN (p : Part) (agent pair a k : Nat) : (Nat × Option Nat) × Part :=
  let ((bs, t), p) := p.load agent pair a k
  ((leNat bs, t), p)

/-- Cut pieces into 32-byte granules, each with the poison of its piece. -/
def toGrans (l : List (List Byte × Option Nat)) : List (List Byte × Option Nat) :=
  l.flatMap fun q => (chunks 32 (q.1.length / 32 + 1) q.1).map fun c => (c, q.2)

/-- Read aligned bytes as granules with their poison, for a movement of data (R299). -/
def Part.loadGrans (p : Part) (agent pair a len : Nat) : List (List Byte × Option Nat) × Part :=
  let (rs, p) := Part.loadLoop (len / 32 + 2) p agent pair a len
  (toGrans rs, p)

/-- Write granules at an aligned address: in HBM a line with one poisoned granule is written as poison whole
(R299). -/
def Part.storeGrans (fuel : Nat) (p : Part) (agent pair a : Nat) (gs : List (List Byte × Option Nat)) : Part :=
  match fuel with
  | 0 => p
  | fuel + 1 =>
    match gs with
    | [] => p
    | g :: r =>
      if isHbm a && a % 64 == 0 then
        match r with
        | g2 :: r2 =>
          let t := firstPoison [g, g2]
          Part.storeGrans fuel (p.writeInLine agent pair a (g.1 ++ g2.1) t) agent pair (a + 64) r2
        | [] => p.writeInLine agent pair a g.1 g.2
      else if isHbm a then Part.storeGrans fuel (p.writeInLine agent pair a g.1 g.2) agent pair (a + 32) r
      else Part.storeGrans fuel (p.writeGran a g.1 g.2) agent pair (a + 32) r

/-- Write a movement's granules. -/
def Part.putGrans (p : Part) (agent pair a : Nat) (gs : List (List Byte × Option Nat)) : Part :=
  Part.storeGrans (gs.length + 1) p agent pair a gs

/-- Count an access the region map refused (R304). -/
def Part.denied (p : Part) (s : Nat) : Part := (p.bump (MEM_STAT_DENY s) 1).stick (MEM_STICKY s) 4

/-- A write refused outside an inbound partition (R50): the record of R497, event 128. -/
def Part.refuseExternal (p : Part) (a pair : Nat) : Part :=
  let c := windowCore a
  p.err { mkErr 12 128 0 with sector := coreSector c % 4, core := c % 8192, pair := pair, addr := p.gaddr a }

/-- Store bytes from the core's own side (R50, R299): its private or inbound partition. -/
def Part.spadStore (p : Part) (c a : Nat) (bs : List Byte) : Part := p.store 1 0 (spadAddr c a) bs none

end Sys2Proof.Machine
end

