-- ==== Sys2Proof/Machine/CycleOps.lean ====
section
/-!
DEFINITION. The passing of CCLK cycles: what counts while a state lasts (R47, R59, R77, R169, R187, R317, R407), and how the clock is
brought up to an event.
-/
namespace Sys2Proof.Machine

/-- The scheduler of a sector serves (R188). -/
def Part.schOn (p : Part) (s : Nat) : Bool := p.getB (SCH_CTRL s) 0

/-- Queue `q` of a sector. -/
def Part.queue (p : Part) (s q : Nat) : Queue := spGet .reset (p.sch s).queues q

/-- The queue is enabled in the frame's kind (R165, R188). -/
def Part.queueOn (p : Part) (s q : Nat) : Bool := p.schOn s && p.inFrame && p.getB (SCH_QCFG s q) (16 + p.kind)

/-- The slots of a queue (R163). -/
def Part.queueSlots (p : Part) (s q : Nat) : Nat := 2 ^ p.getF (SCH_QCFG s q) 44 4

/-- The descriptors a queue holds (R163). -/
def Queue.held (x : Queue) : Nat := x.ready.length + x.waiting.length

/-- The control bits of a descriptor (R166): 0 delay, 1 forward, 2 and 3 the decrements. -/
def dCtrl (d : List Byte) (i : Nat) : Bool := bit (leAt d 28 4) i

/-- The delay store of a sector has no free entry (R183). -/
def Part.delayFull (p : Part) (s : Nat) : Bool := (p.sch s).delay.length ≥ 65536

/-- A submission can be judged: its queue or delay list takes it or discards it (R169, R170, R183). -/
def Part.subReady (p : Part) (s : Nat) (u : Sub) : Bool :=
  let x := p.queue s u.queue
  if dCtrl u.bytes 0 then !(p.schOn s && p.delayFull s)
  else !(p.queueOn s u.queue && !x.closed && !x.violated && x.held ≥ p.queueSlots s u.queue)

/-- A submission to a sector is held for want of a slot (R169): one on its way, one in the inbound buffer, or a SUBMIT that stalls. -/
def Part.subHeld (p : Part) (s : Nat) : Bool :=
  let h := p.sch s
  h.subs.any (fun u => !p.subReady s u) || h.inbound.any (fun u => !p.subReady s u) ||
    p.cores.any fun e => e.2.st == .stalled && e.2.heldBy == some s

/-- Command queue `q`. -/
def Part.cq (p : Part) (q : Nat) : CmdQueue := spGet .reset p.hif.queues q
/-- Entries of the completion ring. -/
def Part.crSize (p : Part) (q : Nat) : Nat := 2 ^ p.getF (HIF_Q_CFG q) 16 5

/-- A record waits for room in its completion ring (R407). -/
def Part.recordWaits (p : Part) : Bool := (List.range 8).any fun q => !(p.cq q).ended.isEmpty && (p.cq q).unret ≥ p.crSize q

/-- What a cycle of a core counts (R59, R77): the time it is blocked, and the time its finished-tile queue holds a close back. -/
def Core.cycleCounts (c : Nat) (k : Core) : List Nat :=
  (match k.st with
   | .inAsk => [COR_STAT_ASK c]
   | .evWait => [COR_STAT_WAIT c]
   | .herdWait => [COR_STAT_HERD c]
   | _ => []) ++ (if k.closing.isEmpty then [] else [COR_STAT_FTQ c])

/-- The statistics registers that count a cycle in the present state: blocked cores, held submissions (R187) and throttled stacks
(R317). -/
def Part.cycleCounts (p : Part) : List Nat :=
  (if p.obs.frozen then []
   else (p.cores.flatMap fun e => e.2.cycleCounts e.1) ++ (sectors.filter p.subHeld).map SCH_STAT_BP) ++
    sectors.flatMap fun s => ([4, 5].filter fun i => p.getB (MEM_STATUS s) i).map fun _ => MEM_STAT_THROTTLE s

/-- `n` cycles pass in the present state: every register of `cycleCounts` counts each of them, and HIF_STAT_CRWAIT each microsecond in
which a record waits (R407). -/
def Part.elapse (p : Part) (n : Nat) : Part :=
  let us := (p.cycle + n) / 1000 - p.cycle / 1000
  let q := p.each p.cycleCounts fun q r => q.bump r n
  { (if p.recordWaits then q.bump HIF_STAT_CRWAIT us else q) with cycle := p.cycle + n }

/-- Bring the clock up to a cycle that the spec fixes for an event.
DESIGN CHOICE (log 12, unsafe): Clock: an event whose cycle the manual fixes brings the clock up to that cycle; no other command takes time. -/
def Part.clockTo (p : Part) (t : Nat) : Part := if t ≤ p.cycle then p else p.elapse (t - p.cycle)

/-- A unit that writes a scratchpad holds the write until cycle 128 of the frame, when the clearing of the scratchpads is done (R51). -/
def Part.toSpad (p : Part) (a : Nat) : Part := if isWindow a then p.clockTo (p.tick.frameStart + 128) else p

/-- A unit's store of bytes (R51, R299). -/
def Part.unitStore (p : Part) (agent pair a : Nat) (bs : List Byte) (poison : Option Nat) : Part :=
  (p.toSpad a).store agent pair a bs poison

/-- A unit's movement of granules (R51, R299). -/
def Part.unitGrans (p : Part) (agent pair a : Nat) (gs : List (List Byte × Option Nat)) : Part :=
  (p.toSpad a).putGrans agent pair a gs

end Sys2Proof.Machine
end

