-- ==== Sys2Proof/Machine/CoreOps.lean ====
section
/-!
DEFINITION. What the core instructions share (chapters 02 and 04): registers, issue, the scratchpad checks of R112, the
interlock of R62, faults (R55, R113) and the signals of R65.
-/
namespace Sys2Proof.Machine

/-- CCLK runs, the part is not in the stop state and not frozen (R8, R512, R531). -/
def Part.live (p : Part) : Bool := p.getB PWR_STATUS 4 && !p.getB PWR_STATUS 7 && !p.obs.frozen

/-- Data-plane work of a frame may start: in compute, reduce or commit (R28). -/
def Part.working (p : Part) : Bool := p.live && p.phase < 3

/-- Reads of HBM for the frame may be made: those of journalled regions wait until a replay's journal is unwound (R306).
DEDUCED (log 44, unsafe): While the journal of a replay is unwound, reads of the new frame from other regions wait as well. -/
def Part.serves (p : Part) : Bool := p.working && !p.tick.unwinding

/-- The core has a role in the current frame kind (R77). -/
def Part.hasRole (p : Part) (c : Nat) : Bool :=
  p.validCore c && p.getB (COR_CTRL c) 0 && p.getB (COR_CTRL c) (1 + p.kind)

/-- The first byte past the code partition (R50). -/
def Part.codeEnd (p : Part) (c : Nat) : Nat := p.getF (COR_PART c) 0 5 * 4096
/-- The first byte of the inbound partition (R50). -/
def Part.inBase (p : Part) (c : Nat) : Nat := p.getF (COR_PART c) 8 7 * 4096
/-- COR_FMT.sub_keep (R86). -/
def Part.keep (p : Part) (c : Nat) : Bool := p.getB (COR_FMT c) 0

/-- The value of register `r`; g0 reads zero (R53). -/
def Core.reg (k : Core) (r : Nat) : Nat := if r = 0 then 0 else (spGet 0#32 k.g r).toNat

/-- Write register `r`; g0 ignores writes (R53). -/
def Core.setReg (k : Core) (r v : Nat) : Core :=
  if r = 0 then k else { k with g := spSet 0#32 k.g r (BitVec.ofNat 32 v) }

/-- Register `r` is the destination of a load that has not returned (R111). -/
def Core.awaits (k : Core) (r : Nat) : Bool := r != 0 && k.irr.any fun i => i.isLoad && !i.done && i.rd == r

/-- The word of accumulator group `g`, row `r`, column `j`; a row not written since the group opened reads as a
free value.
DEDUCED (log 21, safe): An accumulator row that no pass has written since its group opened drains as free words. -/
def Core.accWord (k : Core) (u g r j : Nat) : Nat :=
  if bit (spGet .reset k.groups g).written r then (spGet 0#32 k.acc (1024 * g + 32 * r + j)).toNat
  else Config.freeWord u (1024 * g + 32 * r + j) % 2 ^ 32

/-- The group record of group `g`. -/
def Core.group (k : Core) (g : Nat) : Group := spGet .reset k.groups g
/-- Replace the group record of group `g`. -/
def Core.setGroup (k : Core) (g : Nat) (x : Group) : Core := { k with groups := spSet .reset k.groups g x }

/-- Two half-open ranges overlap. -/
def overlaps (a b : Nat × Nat) : Bool := a.1 < b.2 && b.1 < a.2
/-- Some range of one list overlaps one of another. -/
def anyOverlap (a b : List (Nat × Nat)) : Bool := a.any fun x => b.any fun y => overlaps x y

/-- The 32 rows of a tile or drain: start addresses at a stride, each with its low 5 bits ignored (R112). -/
def rowRanges (base stride n len : Nat) : List (Nat × Nat) :=
  (List.range n).map fun i =>
    let a := alignDown 5 ((base + i * stride) % 2 ^ 32)
    (a, a + len)

/-- Address of row `i` (R112). -/
def rowAddr (base stride i : Nat) : Nat := alignDown 5 ((base + i * stride) % 2 ^ 32)

/-- Index rows of a compressed tile (R140): 4 for 2-byte elements, 8 for 1-byte ones. -/
def idxRows (w : Nat) : Nat := if w = 2 then 4 else 8

/-- The ranges an MLOAD reads. -/
def LoadOp.reads (o : LoadOp) : List (Nat × Nat) :=
  let w := o.fmt.bytes
  rowRanges o.base o.stride (if o.cmp then 32 + idxRows w else 32) (32 * w)

/-- The ranges a MAC reads. -/
def PassOp.reads (o : PassOp) : List (Nat × Nat) :=
  rowRanges o.base o.stride o.rows ((if o.cmp then 64 else 32) * o.fmt.bytes)

/-- The range of a stream of `n` elements. -/
def streamRange (base w n : Nat) : Nat × Nat := let a := base / w * w; (a, a + n * w)

/-- The range of an input stream, if it is used. -/
def inRange (f : Option Fmt) (base n : Nat) : List (Nat × Nat) :=
  match f with
  | some f => [streamRange base f.bytes n]
  | none => []

/-- The ranges a VSTREAM reads at length `n`.
DESIGN CHOICE (log 129, unsafe): An input whose format is not 7 is range-checked and interlocked whether or not a step names it. -/
def StreamOp.reads (o : StreamOp) (n : Nat) : List (Nat × Nat) :=
  inRange o.fmt0 o.in0 n ++ inRange o.fmt1 o.in1 n ++ inRange o.fmt2 o.in2 n
/-- The range a VSTREAM writes at length `n`. -/
def StreamOp.writes (o : StreamOp) (n : Nat) : List (Nat × Nat) := [streamRange o.out o.fmtOut.bytes n]

/-- The entry, if any, that puts drains of this pair in outlook mode (R151). -/
def Part.outlook (p : Part) (c pair : Nat) : Option Nat :=
  (List.range 8).find? fun e => p.getB (COR_OLK_CTRL c e) 16 && p.rd (COR_OLK_ID c e) == pair

/-- The ranges a VDRAIN reads: its bias vector, and in outlook mode its record and rows (R112, R152). -/
def DrainOp.reads (o : DrainOp) (vecBias olk : Bool) : List (Nat × Nat) :=
  (if vecBias then [(alignDown 7 o.biasAddr, alignDown 7 o.biasAddr + 128)] else []) ++
  (if olk then (rowAddr o.base o.stride 32, rowAddr o.base o.stride 32 + 32) :: rowRanges o.base o.stride 32 (32 * o.fmt.bytes)
   else [])
/-- The ranges a VDRAIN writes. -/
def DrainOp.writes (o : DrainOp) (olk : Bool) : List (Nat × Nat) :=
  rowRanges o.base o.stride 32 (32 * o.fmt.bytes) ++
  (if olk then [(rowAddr o.base o.stride 32, rowAddr o.base o.stride 32 + 32)] else [])

/-- One instruction in flight, for the interlock of R62. -/
structure Flight where
  seq : Nat
  reads : List (Nat × Nat)
  writes : List (Nat × Nat)
  deriving DecidableEq, Repr

/-- The vector state as the queue will leave it: VL, slots and sets after every configuration entry (R129). -/
structure VView where
  vl : Nat
  slots : Sparse (List UStep)
  psets : Sparse DrainSet
  deriving DecidableEq, Repr

/-- The vector state now. -/
def Core.view (k : Core) : VView := ⟨k.vl, k.slots, k.psets⟩

/-- Set an item of a parameter set (R127). -/
def DrainSet.put (d : DrainSet) (item v : Nat) : DrainSet :=
  match item with
  | 0 => { d with scale := v }
  | 1 => { d with bias := v }
  | 2 => { d with lo := v }
  | 3 => { d with hi := v }
  | _ => { d with biasMode := v % 4, clip := bit v 2 }

/-- What a configuration entry of the vector queue does to the vector state (R122, R123, R127). -/
def VView.apply (w : VView) (o : VOp) : VView :=
  match o with
  | .setvl _ n => { w with vl := n }
  | .udef _ slot new st => { w with slots := spSet [] w.slots slot (if new then [st] else spGet [] w.slots slot ++ [st]) }
  | .dset _ ps item v => { w with psets := spSet .reset w.psets ps ((spGet .reset w.psets ps).put item v) }
  | _ => w

/-- Put a view into the core. -/
def Core.setView (k : Core) (w : VView) : Core := { k with vl := w.vl, slots := w.slots, psets := w.psets }

/-- The instructions of the vector queue in flight, from the view that holds before them. -/
def vqFlights (olk : Nat → Bool) (w : VView) (q : List VOp) : List Flight :=
  match q with
  | [] => []
  | o :: r =>
    let rest := vqFlights olk (w.apply o) r
    match o with
    | .stream s => ⟨s.head.seq, s.reads w.vl, s.writes w.vl⟩ :: rest
    | .drain d =>
      let vec := (spGet .reset w.psets d.pset).biasMode == 2
      ⟨d.head.seq, d.reads vec (olk d.head.pair), d.writes (olk d.head.pair)⟩ :: rest
    | _ => rest

/-- The place in program order of a vector entry. -/
def VOp.seq (o : VOp) : Nat :=
  match o with
  | .setvl n _ => n
  | .udef n _ _ _ => n
  | .dset n _ _ _ => n
  | .stream s => s.head.seq
  | .drain d => d.head.seq

/-- A configuration entry of the vector queue, which takes effect as soon as the entries before it have. -/
def VOp.isConfig (o : VOp) : Bool :=
  match o with
  | .setvl _ _ => true
  | .udef _ _ _ _ => true
  | .dset _ _ _ _ => true
  | _ => false

/-- The place in program order of a matrix entry. -/
def MOp.seq (o : MOp) : Nat :=
  match o with
  | .load l => l.head.seq
  | .pass q => q.head.seq

/-- The instructions of a core in flight (R62): a pass that has started has read its rows. -/
def Part.flights (p : Part) (c : Nat) : List Flight :=
  let k := p.core c
  let olk (pair : Nat) : Bool := (p.outlook c pair).isSome
  (k.mq.map fun o =>
    match o with
    | .load l => Flight.mk l.head.seq l.reads []
    | .pass q => Flight.mk q.head.seq q.reads []) ++
  (match k.vrun with
   | some v => [⟨v.op.seq, v.reads, v.wrote⟩]
   | none => []) ++
  vqFlights olk k.view k.vq

/-- An instruction at place `seq` that reads and writes these ranges must wait for one before it (R62). -/
def Part.mustWait (p : Part) (c seq : Nat) (reads writes : List (Nat × Nat)) : Bool :=
  (p.flights c).any fun f =>
    f.seq < seq && (anyOverlap f.writes reads || anyOverlap f.writes writes || anyOverlap f.reads writes)

/-- Apply what a running vector instruction has written. -/
def Part.applyWrites (p : Part) (c : Nat) (ws : List SpWrite) : Part :=
  p.each ws fun p w => p.store 1 0 (spadAddr c w.addr) w.bytes w.poison

/-- Add the first `n` rows of a pass to its group (R56, R101, R102), with the events of the additions. -/
def accRows (keep : Bool) (u : Nat) (k : Core) (r : PassRun) (n : Nat) : Core × Events :=
  let g := r.op.group
  (List.range n).foldl
    (fun (q : Core × Events) i =>
      let row := r.op.first + i
      let gr := q.1.group g
      let put := (List.range 32).foldl
        (fun (x : Sparse Word × Events) j =>
          let s := nth (nth r.sums i []) j 0
          let (v, e) := if r.op.init then (s, Events.none) else accAdd r.isInt keep (q.1.accWord u g row j) s
          (spSet 0#32 x.1 (1024 * g + 32 * row + j) (BitVec.ofNat 32 v), x.2.join e))
        (q.1.acc, q.2)
      (({ q.1 with acc := put.1 }).setGroup g { gr with written := gr.written ||| 2 ^ row }, put.2))
    (k, .none)

/-- Join a list of events. -/
def joinEvents (l : List Events) : Events := l.foldl Events.join .none

/-- A stopped pass keeps the rows it has accumulated (R113): how many, the spec leaves open. -/
def stopPass (keep : Bool) (u : Nat) (q : Core × Events) (r : PassRun) : Core × Events :=
  let n := Config.freeWord u r.op.head.seq % (r.op.rows + 1)
  let (k, e) := accRows keep u q.1 r n
  (k, q.2.join ((joinEvents (r.events.take n)).join e))

/-- Discard every matrix and vector instruction after place `seq` (R113): a started pass keeps the rows it has
accumulated and a started vector instruction what it has written, with their events (R87).
DESIGN CHOICE (log 22, safe): A job stopped by a fault: how many rows of the operation running then had been done is free. -/
def Part.discardAfter (p : Part) (c seq : Nat) : Part :=
  let (u, p) := p.fresh
  let k := p.core c
  let (k, ev) := (k.passes.filter fun r => r.op.head.seq > seq).foldl (stopPass (p.keep c) u) (k, .none)
  let k :=
    { k with mq := k.mq.filter fun o => o.seq < seq, passes := k.passes.filter fun r => r.op.head.seq < seq,
             vq := k.vq.filter fun o => o.seq < seq }
  let k := match k.loading with
    | some l => if l.head.seq > seq then { k with loading := none, loadTile := none } else k
    | none => k
  match k.vrun with
  | some v =>
    if v.op.seq > seq then
      let ws := v.writes.take (Config.freeWord u v.op.seq % (v.writes.length + 1))
      ((p.setCore c { k with vrun := none }).applyWrites c ws).coreEvents c (ev.join (joinEvents (ws.map (·.events))))
    else (p.setCore c k).coreEvents c ev
  | none => (p.setCore c k).coreEvents c ev

/-- A core faults (R55, R113): the earliest faulting instruction in program order is recorded, later matrix and vector
work is discarded, and the core issues nothing more in the frame. `pair` is the pair that the faulting instruction carries (R134).
DEDUCED (log 32, unsafe): The fault that is kept is the earliest in program order (R55). -/
def Part.fault (p : Part) (c code pc seq pair : Nat) : Part :=
  let k := p.core c
  let earlier : Bool := match k.faultSeq with
    | some s => s ≤ seq
    | none => false
  if earlier then p
  else
    let pc := pc % 65536
    let p := p.modCore c fun k =>
      { k with st := .faulted, waitId := 0, faultCode := code, faultPc := pc, faultSeq := some seq }
    let p := p.wr (COR_FAULT c) ((code <<< 16) + pc)
    let p := p.discardAfter c seq
    let p := p.trace (coreSector c) 4 pair c code pc
    p.err { mkErr 12 (32 + code) 2 with sector := coreSector c, core := c, pair := pair, loc0 := pc }

/-- A core that may issue: it has a role, its frame runs, and it is neither blocked, halted nor faulted (R63, R71). -/
def Part.mayIssue (p : Part) (c : Nat) : Bool :=
  p.working && p.hasRole c &&
    (match (p.core c).st with
     | .running | .stalled | .ldgWait => true
     | _ => false)

/-- Fault the instruction a core is issuing.
DESIGN CHOICE (log 126, unsafe): Where one instruction breaks several rules that are checked at the same moment, the meaning's order of checks fixes the code recorded (R113 gives none). -/
def Part.faultNow (p : Part) (c code : Nat) : Part := p.fault c code (p.core c).pc (p.core c).seq (p.core c).pair

/-- The core runs: it is neither stalled nor waiting. -/
def Core.runs (k : Core) : Core := { k with st := .running }

/-- Issue an instruction that names these registers (R111): a fetch past the code partition faults with code 1; a
register awaiting a load stalls the core in state 7; else `body` acts.
DEDUCED (log 128, unsafe): A MARK whose ra awaits a load stalls as R111 says of every reader of such a register; "never stalls" (R135) is read of MARK's own work.
DESIGN CHOICE (log 14, unsafe): A core instruction command names the core and the fields; the word in the code partition at the program counter is not compared with it. -/
def Part.issue (p : Part) (c : Nat) (regs : List Nat) (body : Part → Part) : Part :=
  if !p.mayIssue c then p
  else if (p.core c).pc ≥ p.codeEnd c then p.faultNow c 1
  else if regs.any (p.core c).awaits then p.modCore c fun k => { k with st := .ldgWait }
  else body (p.modCore c Core.runs)

/-- The instruction has issued: the next one follows it. The program counter does not wrap past the code partition's last word (R111). -/
def Core.next (k : Core) : Core := { k with pc := k.pc + 8, seq := k.seq + 1 }

/-- The instruction stalls on a full queue and will be tried again (R130 to R132).
DEDUCED (log 18, unsafe): An instruction that must wait stalls the core: its command changes only the core's status, and the same command is sent again. -/
def Core.stall (k : Core) : Core := { k with st := .stalled, heldBy := none }

/-- A SUBMIT stalls on a full queue or delay store of sector `s` (R169, R183). -/
def Core.stallOn (s : Nat) (k : Core) : Core := { k with st := .stalled, heldBy := some s }

/-- What an instruction hands to a queue or unit of its place, address and pair. -/
def Core.opHead (k : Core) : OpHead := ⟨k.seq, k.pc, k.pair⟩

/-- The second operand of format A (R115). -/
def Core.opB (k : Core) (f : FmtA) : Nat := if f.i = 1 then f.imm.toNat else k.reg f.rb.toNat

/-- A register plus an offset, modulo 2^32 (R112). -/
def Core.addr (k : Core) (r off : Nat) : Nat := (k.reg r + off) % 2 ^ 32

/-- The local half of a 64-byte descriptor address check: in the private partition (R64, R131, R132). -/
def Part.inPrivate (p : Part) (c a len : Nat) : Bool := p.codeEnd c ≤ a && a + len ≤ p.inBase c && a + len ≤ spadBytes

/-- Whether ranges lie in the scratchpad (R112). -/
def inSpad (l : List (Nat × Nat)) : Bool := l.all fun r => r.2 ≤ spadBytes
/-- Whether ranges stay out of the code partition (R50, R112). -/
def Part.outOfCode (p : Part) (c : Nat) (l : List (Nat × Nat)) : Bool := l.all fun r => p.codeEnd c ≤ r.1

/-- Read a core's scratchpad for the core. -/
def Part.spad (p : Part) (c a n : Nat) : List Byte := p.rawBytes (spadAddr c a) n

/-- The token of the first poisoned granule of a range of a core's scratchpad. -/
def Part.spadPoison (p : Part) (c : Nat) (r : Nat × Nat) : Option Nat :=
  if r.2 ≤ r.1 then none
  else
    (List.range ((r.2 - 1) / 32 - r.1 / 32 + 1)).findSome? fun i =>
      let a := spadAddr c ((r.1 / 32 + i) * 32)
      if p.granPoison a then some (p.granToken a) else none

/-- The first poisoned granule of several ranges. -/
def Part.spadPoisons (p : Part) (c : Nat) (l : List (Nat × Nat)) : Option Nat := l.findSome? (p.spadPoison c)

/-- Cut bytes into elements of `w` bytes. -/
def elems (w : Nat) (bs : List Byte) : List Nat := (chunks w bs.length bs).map leNat

/-- The 64 entries of a core's arrival buffer are taken, or would be with `n` more signals (R68): a sender is held back. -/
def Part.evFull (p : Part) (c n : Nat) : Bool := (p.tick.signals.filter fun q => q.1 == c).length + n > 64

/-- A signal enters the arrival buffer of a local core (R65, R68).
DESIGN CHOICE (log 127, unsafe): A signal on its way to a counter of this part counts against the 64 entries of the arrival buffer from the moment it is sent. -/
def Part.signal (p : Part) (c ev : Nat) : Part :=
  p.modTick fun t => { t with signals := t.signals ++ [(c, ev)] }

/-- The cores with a role in the current frame kind: those whose COR_CTRL says so (R77). -/
def Part.roleCores (p : Part) : List Nat :=
  p.regs.filterMap fun e =>
    let o := e.1 - 0x2000000
    if 0x2000000 ≤ e.1 && e.1 < 0x4000000 && o % 0x800000 < 0x200000 && o % 0x400 == 0 then
      let c := 2048 * (o / 0x800000) + o % 0x800000 / 0x400
      if p.hasRole c then some c else none
    else none

/-- Deliver a signal that names a core of this part from outside (R69): a core outside the grade or with no role discards
it, with a record. -/
def Part.signalIn (p : Part) (pair c ev : Nat) : Part :=
  if p.hasRole c then p.signal c ev
  else p.err { mkErr 12 129 0 with sector := coreSector c % 4, core := c, pair := pair }

/-- Send a signal to a core of any part (R65, R133): to another part as a flagged packet. -/
def Part.signalTo (p : Part) (pair chip c ev : Nat) : Part :=
  if chip = p.chip then p.signalIn pair c ev
  else (p.sendPacket chip 3 0 0 0 (leBytes 2 c ++ leBytes 2 ev ++ leBytes 4 pair ++ leBytes 24 0)).sentFor pair 32

/-- A core accepts 8 signals a cycle (R68): the next one comes a cycle later. -/
def Part.acceptSlot (p : Part) (c : Nat) : Part :=
  let t := (p.core c).evTook
  let p := if t.1 = p.cycle ∧ t.2 ≥ 8 then p.clockTo (p.cycle + 1) else p
  p.modCore c fun k => { k with evTook := (p.cycle, if t.1 = p.cycle then t.2 + 1 else 1) }

/-- The signals of a counter that a wait sees (R67): those accepted in this cycle are visible from the next. -/
def Core.visible (k : Core) (now ev : Nat) : Nat :=
  let x := spGet (0, 0) k.evNew ev
  spGet 0 k.ev ev - (if x.1 = now then x.2 else 0)

/-- A signal accepted by a counter (R65 to R67). -/
def Part.countSignal (p : Part) (c ev : Nat) : Part :=
  let p := p.acceptSlot c
  let n := spGet 0 (p.core c).ev ev
  if n ≥ 255 then
    let p := p.putB (COR_EV_STICKY c) ev true
    let p := p.putB (COR_EV_FRAME_OVF c) ev true
    p.failCause 2
  else
    p.modCore c fun k =>
      let x := spGet (0, 0) k.evNew ev
      { k with ev := spSet 0 k.ev ev (n + 1), evNew := spSet (0, 0) k.evNew ev (p.cycle, if x.1 = p.cycle then x.2 + 1 else 1) }

/-- Core `c` has retired all of its matrix, vector and irregular work (R63). -/
def Core.idle (k : Core) : Bool :=
  k.mq.isEmpty && k.loading.isNone && k.passes.isEmpty && k.closing.isEmpty && k.vq.isEmpty && k.vrun.isNone &&
    k.irr.all (·.done)

end Sys2Proof.Machine
end

