-- ==== Sys2Proof/Machine/Dup.lean ====
section
/-!
DEFINITION. The captures of sampled duplicate execution (R488 to R493): which groups are sampled, what a capture holds, and
when a sample is abandoned.
-/
namespace Sys2Proof.Machine

/-- The hash of R155 and R488: two nested mixings of the graft seed, the frame number and a key. -/
def sampleHash (seed frame key n : Nat) : Nat :=
  (mix64 (BitVec.ofNat 64 seed ^^^ mix64 (BitVec.ofNat 64 frame ^^^ mix64 (BitVec.ofNat 64 key) ^^^ BitVec.ofNat 64 n))).toNat

/-- Whether group number `n` of core `c` is sampled (R488). -/
def Part.sampled (p : Part) (c n : Nat) : Bool :=
  p.dupOn &&
    sampleHash p.seed p.frameNo ((p.chip <<< 48) ||| (1 <<< 47) ||| (c <<< 32)) n % 2 ^ p.getF OBS_CTRL 8 4 == 0

/-- The captures of a sector. -/
def Part.dups (p : Part) (s : Nat) : List DupCap := spGet [] p.obs.dups s
/-- Replace the captures of a sector. -/
def Part.setDups (p : Part) (s : Nat) (l : List DupCap) : Part := p.modObs fun o => { o with dups := spSet [] o.dups s l }

/-- The capture of a group that still gathers. -/
def DupCap.is (d : DupCap) (c g : Nat) : Bool := d.core == c && d.group == g && d.stage == 0

/-- Abandon a sample (R489). -/
def Part.dupDrop (p : Part) (c g : Nat) : Part :=
  let l := p.dups (coreSector c)
  if l.any (·.is c g) then (p.setDups (coreSector c) (l.filter fun d => !(d.is c g))).bump OBS_STAT_DUPSKIP 1 else p

/-- Start the capture of a group that has just opened, when it is sampled. -/
def Part.dupOpen (p : Part) (c g n pair : Nat) : Part :=
  if !p.sampled c n then p
  else
    let d : DupCap :=
      { core := c, group := g, n := n, frame := p.frameNo, tick := p.tickCount, pair := pair, passes := [], drain := none,
        pset := .reset, bias := [], keep := p.keep c, draws := [], rows := [], bytes := 0, stage := 0, spare := 0,
        result1 := [] }
    p.setDups (coreSector c) (p.dups (coreSector c) ++ [d])

/-- The bytes of a captured pass (R489): tile and moving rows.
DEDUCED (log 28, unsafe): The sizes are those of the example after R518: 256 bytes for the instructions, the parameter set, the bias and the draw positions of a capture, and 32 rows of output. -/
def CapPass.size (q : CapPass) : Nat :=
  (if q.tile.cmp then 1024 * q.tile.fmt.bytes + 256 else 1024 * q.tile.fmt.bytes) +
    q.op.rows * (if q.op.cmp then 64 else 32) * q.op.fmt.bytes

/-- The 64 MiB of an area are full. -/
def dupFull (l : List DupCap) : Bool := (l.map (·.bytes)).foldl (· + ·) 0 > 64 * 2 ^ 20

/-- Capture a pass into a group (R489): past 64 passes, on poison, or past 64 MiB the sample is abandoned. -/
def Part.dupPass (p : Part) (c g : Nat) (q : CapPass) (poison : Bool) : Part :=
  let s := coreSector c
  let l := (p.dups s).map fun d =>
    if d.is c g then { d with passes := d.passes ++ [q], bytes := d.bytes + q.size } else d
  let p := p.setDups s l
  if l.any (fun d => d.is c g && d.passes.length > 64) || (poison && l.any (·.is c g)) || dupFull l then p.dupDrop c g else p

/-- Capture the drain of a group as it starts (R489). -/
def Part.dupDrain (p : Part) (c g : Nat) (f : DupCap → DupCap) : Part :=
  let s := coreSector c
  let l := (p.dups s).map fun d => if d.is c g then f d else d
  let p := p.setDups s l
  if dupFull l then p.dupDrop c g else p

/-- A capture whose drain ends stands in its sector's duplication area (R489), and costs no pair anything (R507). The spec lays out
neither the area nor a capture: the place and the bytes are free.
DESIGN CHOICE (log 158, unsafe): A capture reaches the area as its drain ends, and one abandoned before that writes nothing. -/
def Part.saveCapture (p : Part) (c g : Nat) : Part :=
  match (p.dups (coreSector c)).find? fun d => d.is c g && d.drain.isSome with
  | none => p
  | some d =>
    let (u, p) := p.fresh
    let a := p.getF (OBS_DUP (coreSector c)) 0 40 + 64 * (Config.freeNat u % ((2 ^ 26 - d.bytes) / 64 + 1))
    (p.store 14 0 a (fitBytes d.bytes (Config.freeBytes u d.bytes)) none).modObs fun o => { o with pairs := p.obs.pairs }

/-- The drain has written its rows: the capture waits for a spare (R489, R490). -/
def Part.dupReady (p : Part) (c g : Nat) : Part :=
  let s := coreSector c
  p.setDups s ((p.dups s).map fun d => if d.is c g && d.drain.isSome then { d with stage := 1 } else d)

end Sys2Proof.Machine
end

