-- ==== Sys2Proof/Machine/Operands.lean ====
section
/-!
DEFINITION. The operand forms of the core instructions (R111 to R118, R130 to R132) and the views of a core that its
registers show and RDSYS reads.
-/
namespace Sys2Proof.Machine

/-- COR_ACC_STATE (R77). -/
def Core.accState (k : Core) : Nat :=
  (List.range 16).foldl (fun a g => a + (k.group g).st.code <<< (2 * g)) 0

/-- COR_FTQ (R77). -/
def Core.ftqReg (k : Core) : Nat := (nth k.ftq 0 0) <<< 8 + k.ftq.length

/-- COR_EV_COUNT[j] (R77). -/
def Core.evCount (k : Core) (j : Nat) : Nat :=
  (List.range 4).foldl (fun a i => a + (spGet 0 k.ev (4 * j + i)) <<< (8 * i)) 0

/-- COR_STATUS (R77). -/
def Core.status (k : Core) : Nat :=
  k.st.code + (k.waitId % 256) <<< 8 +
  (b2n (!(k.mq.isEmpty && k.loading.isNone && k.passes.isEmpty && k.closing.isEmpty))) <<< 16 +
  (b2n (!(k.vq.isEmpty && k.vrun.isNone))) <<< 17

/-- LDG and STG outstanding (R117). -/
def Core.outstanding (k : Core) : Nat := (k.irr.filter fun i => !i.done).length

/-- The condition of a BR (R118); none for a reserved code. -/
def brCond (cond : Nat) (a b : Word) : Option Bool :=
  match cond with
  | 0 => some true
  | 1 => some (a == b)
  | 2 => some (a != b)
  | 3 => some (a.slt b)
  | 4 => some (!(a.slt b))
  | 5 => some (a.ult b)
  | 6 => some (!(a.ult b))
  | _ => none

/-- A branch target that lies on an instruction of the code partition (R118). -/
def Part.targetOk (p : Part) (c t : Nat) : Bool := t % 8 == 0 && t < p.codeEnd c

/-- The value an RDSYS selector names (R117); none for a reserved one. -/
def Part.sysValue (p : Part) (c sel : Nat) : Option Nat :=
  let k := p.core c
  match sel with
  | 0 => some (p.cycle % 2 ^ 32)
  | 1 => some ((p.cycle >>> 32) % 2 ^ 32)
  | 2 => some (p.frameNo % 2 ^ 32)
  | 3 => some (p.frameNo >>> 32)
  | 4 => some c
  | 5 => some p.chip
  | 6 => some (p.rd TIK_SEASON_POS)
  | 7 => some (p.rd TIK_VINTAGE)
  | 8 => some k.accState
  | 9 => some k.ftqReg
  | 10 => some k.outstanding
  | _ => none

/-- The global address of LDG and STG: rb[23:0] above ra, the two low bits ignored (R116). -/
def Core.irrAddr (k : Core) (f : IrrF) : Nat :=
  alignDown 2 ((k.reg f.rb.toNat % 2 ^ 24) <<< 32 + k.reg f.ra.toNat)

/-- The chip a global address names (R11). -/
def gChip (g : Nat) : Nat := g >>> 40
/-- The local address within it. -/
def gLocal (g : Nat) : Nat := g % 2 ^ 40

/-- The global address a register pair holds (R130). -/
def Core.pairAddr (k : Core) (r : Nat) : Nat := (k.reg (r + 1) % 2 ^ 24) <<< 32 + k.reg r

/-- The scratchpad address of LDS and STS (R112, R115). -/
def Core.wordAddr (k : Core) (f : FmtA) : Nat := alignDown 2 ((k.reg f.ra.toNat + k.opB f) % 2 ^ 32)

/-- The scratchpad address of a 64-byte descriptor (R112). -/
def Core.descAddr (k : Core) (ra off : Nat) : Nat := alignDown 6 (k.addr ra off)

end Sys2Proof.Machine
end

