-- ==== Sys2Proof/Machine/State.lean ====
section
/-!
DEFINITION. The state of the machine: the queue of waiting commands, the fuses, the non-volatile store, the reset latches
and the part; the reasons for a fault or a refusal; the state after reset.
-/
namespace Sys2Proof.Machine

/-- Why a step may fault. No command of this part faults: the spec gives every one of them an effect, and the part has
no step that stops the machine.
DESIGN CHOICE (log 15, safe): No command of the model ends in a fault or a refusal. -/
inductive Fault where
  /-- Raised by no meaning: kept so that the type of faults is a closed one with a name (safe). -/
  | unreachable
  deriving DecidableEq, Repr

/-- Why a step may be refused. -/
inductive Refusal where
  /-- Raised by an arm of `exec` whose meaning is not written (safe: the machine stops). -/
  | notModelled (mnemonic : String)
  deriving DecidableEq, Repr

/-- The machine. `pending` is the queue of commands that wait, first in, first out; `fuses` are written by
manufacturing test and FW_COMMIT_SVN alone (R455, R460); `nv` is the non-volatile store (R454); `resetCause` holds the
latches of PWR_RESET_CAUSE (R534); `p` is everything a part reset clears (R16). -/
structure State where
  pending : List Instr
  fuses : Fuses
  nv : Nv
  resetCause : Nat
  p : Part
  deriving DecidableEq, Repr

/-- Fuses of a part before it leaves manufacturing test, of the larger grade with the guaranteed spares (R2, R5).
DESIGN CHOICE (log 2, unsafe): Fuses of the reset part: none are stated; zeros, the grade FN-6144, 16 spares in each sector, and firmware keys (0, 0). -/
def Fuses.reset : Fuses := ⟨0, 0, 0, 0, ⟨0, 0⟩, ⟨0, 0⟩, false, false, 0, true, 16, 16, 16, 16⟩

/-- The non-volatile store of a part with no firmware written and no owner (R468).
DESIGN CHOICE (log 3, unsafe): The non-volatile store of the reset part: no firmware, slot A preferred, no owner, no keys, signed_only 0, link policy 0. -/
def Nv.reset : Nv :=
  ⟨.empty, .empty, false, false, 0, [], none, none, none, none, none, false, false, 0⟩

/-- The machine right after a part reset, with an empty queue.
DESIGN CHOICE (log 1, unsafe): The state after reset: R16 gives register reset values, not the state of power, queues or pins; the model starts unpowered, every list empty, every counter 0.
DESIGN CHOICE (log 4, unsafe): PWR_RESET_CAUSE has the reset value Kept (R549): State.reset holds 0, the latches after the input fell below 20.0 V. -/
def State.reset : State := ⟨[], .reset, .reset, 0, Part.reset true⟩

end Sys2Proof.Machine
end

