-- ==== Sys2Proof/Machine/Run.lean ====
section
/-!
DEFINITION. How a meaning answers: the step is a next state, with the part changed.
-/
namespace Sys2Proof.Machine

/-- What a step answers. -/
abbrev Answer := Host.Outcome State Fault Refusal

/-- Answer the next state with the part changed by `f`.
DESIGN CHOICE (log 13, unsafe): A command whose event cannot happen in the state changes nothing. -/
def State.run (s : State) (f : Part → Part) : Answer := .next { s with p := f s.p }

end Sys2Proof.Machine
end

