-- ==== Sys2Proof/Machine/CoreMatrix.lean ====
section
/-!
DEFINITION. The matrix instructions (R120, R121) and what the matrix unit does with them (R56 to R59, R100 to R102, R139 to
R144).
-/
namespace Sys2Proof.Machine

/-- A matrix operand format (R119): every format but binary32. -/
def matFmt (code : Nat) : Option Fmt :=
  match Fmt.ofCode code with
  | some .b32 => none
  | f => f

/-- Put an entry into the matrix command queue, or stall while its 8 entries are taken. -/
def Part.pushM (p : Part) (c : Nat) (o : MOp) : Part :=
  p.modCore c fun k => if k.mq.length ≥ 8 then k.stall else { k with mq := k.mq ++ [o] }.next

/-- The stride register's row stride: 16 bits, the low 5 ignored (R112, R120). -/
def Core.stride (k : Core) (r : Nat) : Nat := alignDown 5 (k.reg r % 65536)

/-- MLOAD (R120). -/
def execMload (core : BitVec 13) (f : MloadF) (s : State) : Answer :=
  s.run fun p => p.issue core.toNat [f.ra.toNat, f.rb.toNat] fun p =>
    let c := core.toNat
    let k := p.core c
    match matFmt f.fmt.toNat with
    | none => p.faultNow c 1
    | some fmt =>
      let o : LoadOp := ⟨k.opHead, f.buf.toNat, fmt, f.cmp == 1, k.addr f.ra.toNat f.offset.toNat, k.stride f.rb.toNat⟩
      if !inSpad o.reads then p.faultNow c 2 else p.pushM c (.load o)

/-- MAC (R121): a compressed transposed pass faults with code 1 (R142), rows past the group with code 4. -/
def execMac (core : BitVec 13) (f : MacF) (s : State) : Answer :=
  s.run fun p => p.issue core.toNat [f.ra.toNat, f.rb.toNat] fun p =>
    let c := core.toNat
    let k := p.core c
    match matFmt f.fmt.toNat with
    | none => p.faultNow c 1
    | some fmt =>
      let o : PassOp :=
        ⟨k.opHead, f.buf.toNat, f.axis == 1, f.init == 1, f.close == 1, f.cmp == 1, k.addr f.ra.toNat f.offset.toNat,
          k.stride f.rb.toNat, fmt, f.rows.toNat + 1, f.group.toNat, f.first.toNat⟩
      if o.cmp && o.axis then p.faultNow c 1
      else if o.first + o.rows > 32 then p.faultNow c 4
      else if !inSpad o.reads then p.faultNow c 2
      else p.pushM c (.pass o)

/-- The 2-bit positions of a compressed tile (R140): idx(r, j) at bit 64 r + 2 j of the index block. -/
def tileIdx (block : List Byte) : List (List Nat) :=
  (List.range 32).map fun r =>
    let row := leAt block (8 * r) 8
    (List.range 32).map fun j => fld row (2 * j) 2

/-- The tile an MLOAD reads (R120, R140). -/
def Part.readTile (p : Part) (c : Nat) (o : LoadOp) : Tile :=
  let w := o.fmt.bytes
  let row (i : Nat) : List Byte := p.spad c (rowAddr o.base o.stride i) (32 * w)
  { fmt := o.fmt, cmp := o.cmp, vals := (List.range 32).map fun i => elems w (row i),
    idx := if o.cmp then tileIdx ((List.range (idxRows w)).flatMap fun t => row (32 + t)) else [],
    poison := p.spadPoisons c o.reads }

/-- Consume poison when an operand carries it.
DESIGN CHOICE (log 27, unsafe): One poison token is consumed per operand fetch of an instruction: the first in operand order. -/
def Part.consumeIf (p : Part) (c pair : Nat) (t : Option Nat) : Part :=
  match t with
  | some t => p.consume (coreSector c) 1 c pair t
  | none => p

/-- The first queued load and the queue without it, unless an earlier queued pass reads its buffer (R57). -/
def takeLoad (l : List MOp) : Option (LoadOp × List MOp) :=
  match l with
  | [] => none
  | .load o :: r => some (o, r)
  | .pass q :: r => (takeLoad r).bind fun x => if q.buf = x.1.buf then none else some (x.1, .pass q :: x.2)

/-- The first queued pass and the queue without it, unless an earlier queued load fills its buffer (R57). -/
def takePass (l : List MOp) : Option (PassOp × List MOp) :=
  match l with
  | [] => none
  | .pass o :: r => some (o, r)
  | .load q :: r => (takePass r).bind fun x => if q.buf = x.1.buf then none else some (x.1, .load q :: x.2)

/-- MATRIX_LOAD_START (R57): the first queued load starts once every earlier pass that reads its buffer has started, the loader is
free and every earlier write of its rows has retired. -/
def execMatrixLoadStart (core : BitVec 13) (s : State) : Answer :=
  s.run fun p =>
    let c := core.toNat
    let k := p.core c
    match takeLoad k.mq with
    | some (o, rest) =>
      if !p.working || k.loading.isSome || p.mustWait c o.head.seq o.reads [] then p
      else
        let t := p.readTile c o
        let p := p.setCore c { k with mq := rest, loading := some o, loadTile := some t }
        p.consumeIf c o.head.pair t.poison
    | none => p

/-- MATRIX_LOAD_DONE (R57): the buffer holds the tile. -/
def execMatrixLoadDone (core : BitVec 13) (s : State) : Answer :=
  s.run fun p =>
    let c := core.toNat
    let k := p.core c
    match k.loading with
    | some o =>
      if !p.live then p
      else if o.buf = 0 then p.setCore c { k with buf0 := k.loadTile, loading := none, loadTile := none }
      else p.setCore c { k with buf1 := k.loadTile, loading := none, loadTile := none }
    | none => p

/-- The stationary buffer a pass names. -/
def Core.buf (k : Core) (b : Nat) : Option Tile := if b = 0 then k.buf0 else k.buf1

/-- A pass must wait before it starts (R57, R59, R62): a close has found the finished-tile queue full, its buffer is being
loaded, its group is queued, draining or about to be queued, or an earlier write of its rows has not retired. -/
def Part.passWaits (p : Part) (c : Nat) (o : PassOp) : Bool :=
  let k := p.core c
  let g := (k.group o.group).st
  !k.closing.isEmpty || k.loading.any (fun l => l.buf == o.buf) || g == .queued || g == .draining ||
    k.passes.any (fun r => r.op.group == o.group && r.op.close) || p.mustWait c o.head.seq o.reads []

/-- The code with which a pass faults when it starts (R121).
DESIGN CHOICE (log 126, unsafe): a pass that several of these checks stop takes the code of the first of them in this order. -/
def passFault (g : Group) (t : Option Tile) (o : PassOp) : Option Nat :=
  match t with
  | none => some 1
  | some t =>
    if t.cmp != o.cmp then some 1
    else if t.fmt.isInt != o.fmt.isInt then some 1
    else if !o.init && g.st == .free then some 5
    else if !o.init && g.isInt != o.fmt.isInt then some 1
    else none

/-- The group as a pass that starts leaves it (R58, R102, R152, R300). -/
def Group.take (g : Group) (o : PassOp) (t : Tile) (sample poison : Option Nat) : Group :=
  let est := o.fmt == .t8r && t.fmt == .t8r
  if g.st == .free then ⟨.open, o.fmt.isInt, poison, est, sample, 1, 0⟩
  else
    { g with isInt := if o.init then o.fmt.isInt else g.isInt,
             poison := if g.poison.isSome then g.poison else poison, outlook := g.outlook && est, passes := g.passes + 1 }

/-- A residue mismatch of core work, when the codes are in force and show it. -/
def Part.coreResidue (p : Part) (c : Nat) (hit : Option Upset) (h : OpHead) (char0 : Nat → Nat) : Part :=
  match hit with
  | some u =>
    if p.resOn then
      p.residueFails { mkErr 12 1 3 with sector := coreSector c, core := c, pair := h.pair, char0 := char0 u.node, loc0 := h.pc }
    else p
  | none => p

/-- The code of a format (R119). -/
def Fmt.code (f : Fmt) : Nat :=
  match f with
  | .t8e => 0
  | .t8r => 1
  | .t16 => 2
  | .t16m => 3
  | .i8 => 4
  | .i16 => 5
  | .b32 => 6

/-- Start a pass (R56, R100 to R102): its rows are read and its sums formed; the group opens, or takes them. -/
def Part.startPass (p : Part) (c : Nat) (o : PassOp) (t : Tile) (rest : List MOp) (upset : Option Upset) : Part :=
  let k := p.core c
  let w := o.fmt.bytes
  let rows := (List.range o.rows).map fun i => elems w (p.spad c (rowAddr o.base o.stride i) ((if o.cmp then 64 else 32) * w))
  let moving := p.spadPoisons c o.reads
  let poison := if moving.isSome then moving else t.poison
  let (sums, evs) := passSums (p.keep c) o.fmt t o.axis rows
  let (sums, hit) := upsetRows upset sums
  let g := k.group o.group
  let opens := g.st == .free
  let sample := if opens && p.sampled c k.opened then some k.opened else none
  let k := { k with mq := rest, passes := k.passes ++ [PassRun.mk o o.fmt.isInt sums evs poison],
                    opened := if opens then k.opened + 1 else k.opened }
  let n := (p.core c).opened
  let p := p.setCore c (k.setGroup o.group (g.take o t sample poison))
  let p := if opens then p.dupOpen c o.group n o.head.pair else p
  let p := p.dupPass c o.group (CapPass.mk o t rows (p.keep c)) poison.isSome
  let p := p.bump (COR_STAT_MAC c) o.rows
  let p := p.addPair o.head.pair fun a => { a with mac := a.mac + o.rows }
  let p := p.coreResidue c hit o.head fun node => char0Of 12 0x21 o.fmt.code t.fmt.code 0 (b2n o.axis) (b2n o.cmp) node
  p.consumeIf c o.head.pair poison

/-- MATRIX_PASS_START (R57): the first queued pass starts, or faults (R113, R121).
DEDUCED (log 19, unsafe): Matrix and vector operations read and compute at their START command and write at their DONE command. -/
def execMatrixPassStart (core : BitVec 13) (upset : Option Upset) (s : State) : Answer :=
  s.run fun p =>
    let c := core.toNat
    let k := p.core c
    match takePass k.mq with
    | some (o, rest) =>
      if !p.working || p.passWaits c o then p
      else
        match passFault (k.group o.group) (k.buf o.buf) o, k.buf o.buf with
        | some code, _ => (p.setCore c { k with mq := rest }).fault c code o.head.pc o.head.seq o.head.pair
        | none, some t => p.startPass c o t rest upset
        | none, none => p
    | none => p

/-- Push a closed group onto the finished-tile queue, or leave the close waiting while its 8 entries are taken or an earlier close
waits (R59). -/
def Core.close (k : Core) (g : Nat) : Core :=
  if k.closing.isEmpty && k.ftq.length < 8 then { (k.setGroup g { k.group g with st := .queued }) with ftq := k.ftq ++ [g] }
  else { k with closing := k.closing ++ [g] }

/-- MATRIX_PASS_DONE (R58): the last row of the oldest pass has been accumulated; a close pushes the group. -/
def execMatrixPassDone (core : BitVec 13) (s : State) : Answer :=
  s.run fun p =>
    let c := core.toNat
    match (p.core c).passes with
    | r :: rest =>
      if !p.live then p
      else
        let (u, p) := p.fresh
        let (k, ev) := accRows (p.keep c) u { p.core c with passes := rest } r r.op.rows
        let p := p.setCore c (if r.op.close then k.close r.op.group else k)
        p.coreEvents c ((joinEvents r.events).join ev)
    | [] => p

end Sys2Proof.Machine
end

