-- ==== Sys2Proof/Machine/CoreScalar.lean ====
section
/-!
DEFINITION. The control and scalar instructions (R114 to R118), the irregular loads and stores (R116, R308, R309) and the
illegal encoding (R109).
-/
namespace Sys2Proof.Machine

/-- A scalar instruction of format A whose result is a function of its operands (R115). -/
def Part.alu (p : Part) (c : Nat) (f : FmtA) (op : Word → Word → Word) : Part :=
  p.issue c (f.rd.toNat :: f.sources) fun p =>
    p.modCore c fun k =>
      (k.setReg f.rd.toNat (op (BitVec.ofNat 32 (k.reg f.ra.toNat)) (BitVec.ofNat 32 (k.opB f))).toNat).next

/-- NOP (R118). -/
def execNop (core : BitVec 13) (s : State) : Answer :=
  s.run fun p => p.issue core.toNat [] fun p => p.modCore core.toNat Core.next

/-- BR (R118). -/
def execBr (core : BitVec 13) (f : BrF) (s : State) : Answer :=
  s.run fun p => p.issue core.toNat [f.ra.toNat, f.rb.toNat] fun p =>
    let c := core.toNat
    let k := p.core c
    match brCond f.cond.toNat (BitVec.ofNat 32 (k.reg f.ra.toNat)) (BitVec.ofNat 32 (k.reg f.rb.toNat)) with
    | none => p.faultNow c 1
    | some taken =>
      if !p.targetOk c f.target.toNat then p.faultNow c 1
      else p.setCore c { k.next with pc := if taken then f.target.toNat else k.next.pc }

/-- JAL (R118). -/
def execJal (core : BitVec 13) (f : JalF) (s : State) : Answer :=
  s.run fun p => p.issue core.toNat [f.rd.toNat] fun p =>
    let c := core.toNat
    let k := p.core c
    if !p.targetOk c f.target.toNat then p.faultNow c 1
    else p.setCore c { (k.setReg f.rd.toNat (k.pc + 8)).next with pc := f.target.toNat }

/-- JALR (R118): the target is read before rd is written. -/
def execJalr (core : BitVec 13) (f : JalrF) (s : State) : Answer :=
  s.run fun p => p.issue core.toNat [f.rd.toNat, f.ra.toNat] fun p =>
    let c := core.toNat
    let k := p.core c
    let t := k.reg f.ra.toNat
    if !p.targetOk c t then p.faultNow c 1
    else p.setCore c { (k.setReg f.rd.toNat (k.pc + 8)).next with pc := t }

/-- HALT (R63): the core issues nothing more until the next tick. -/
def execHalt (core : BitVec 13) (s : State) : Answer :=
  s.run fun p => p.issue core.toNat [] fun p =>
    let c := core.toNat
    let p := p.modCore c fun k => { k.next with st := .halted }
    p.trace (coreSector c) 3 (p.core c).pair c 0 0

/-- ADD (R115). -/
def execAdd (core : BitVec 13) (f : FmtA) (s : State) : Answer :=
  s.run fun p => p.alu core.toNat f fun a b => a + b
/-- SUB (R115). -/
def execSub (core : BitVec 13) (f : FmtA) (s : State) : Answer :=
  s.run fun p => p.alu core.toNat f fun a b => a - b
/-- MUL (R115). -/
def execMul (core : BitVec 13) (f : FmtA) (s : State) : Answer :=
  s.run fun p => p.alu core.toNat f fun a b => a * b
/-- AND (R115). -/
def execAnd (core : BitVec 13) (f : FmtA) (s : State) : Answer :=
  s.run fun p => p.alu core.toNat f fun a b => a &&& b
/-- OR (R115). -/
def execOr (core : BitVec 13) (f : FmtA) (s : State) : Answer :=
  s.run fun p => p.alu core.toNat f fun a b => a ||| b
/-- XOR (R115). -/
def execXor (core : BitVec 13) (f : FmtA) (s : State) : Answer :=
  s.run fun p => p.alu core.toNat f fun a b => a ^^^ b
/-- SHL (R115). -/
def execShl (core : BitVec 13) (f : FmtA) (s : State) : Answer :=
  s.run fun p => p.alu core.toNat f fun a b => a <<< (b.toNat % 32)
/-- SHR (R115). -/
def execShr (core : BitVec 13) (f : FmtA) (s : State) : Answer :=
  s.run fun p => p.alu core.toNat f fun a b => a >>> (b.toNat % 32)
/-- SRA (R115). -/
def execSra (core : BitVec 13) (f : FmtA) (s : State) : Answer :=
  s.run fun p => p.alu core.toNat f fun a b => a.sshiftRight (b.toNat % 32)
/-- SLT (R115). -/
def execSlt (core : BitVec 13) (f : FmtA) (s : State) : Answer :=
  s.run fun p => p.alu core.toNat f fun a b => if a.slt b then 1 else 0
/-- SLTU (R115). -/
def execSltu (core : BitVec 13) (f : FmtA) (s : State) : Answer :=
  s.run fun p => p.alu core.toNat f fun a b => if a.ult b then 1 else 0

/-- Read a word of the core's own scratchpad (R112, R300): a poisoned granule gives 0 and is consumed. -/
def Part.readWord (p : Part) (c a : Nat) : Nat × Part :=
  match p.spadPoison c (a, a + 4) with
  | some t => (0, p.consume (coreSector c) 1 c (p.core c).pair t)
  | none => (leNat (p.spad c a 4), p)

/-- LDS (R115): faults with code 2 out of range, waits for earlier writes of the word (R62). -/
def execLds (core : BitVec 13) (f : FmtA) (s : State) : Answer :=
  s.run fun p => p.issue core.toNat (f.rd.toNat :: f.sources) fun p =>
    let c := core.toNat
    let k := p.core c
    let a := k.wordAddr f
    if a + 4 > spadBytes then p.faultNow c 2
    else if p.mustWait c k.seq [(a, a + 4)] [] then p
    else
      let (v, p) := p.readWord c a
      p.modCore c fun k => (k.setReg f.rd.toNat v).next

/-- STS (R115): register rd is stored. -/
def execSts (core : BitVec 13) (f : FmtA) (s : State) : Answer :=
  s.run fun p => p.issue core.toNat (f.rd.toNat :: f.sources) fun p =>
    let c := core.toNat
    let k := p.core c
    let a := k.wordAddr f
    if a + 4 > spadBytes then p.faultNow c 2
    else if a < p.codeEnd c then p.faultNow c 3
    else if p.mustWait c k.seq [] [(a, a + 4)] then p
    else (p.spadStore c a (leBytes 4 (k.reg f.rd.toNat))).modCore c Core.next

/-- Whether a word lies in a region mapped for an LDG, or for an STG: a window the STG may not write is refused when
the store arrives and does not fault the core (R50, R304). -/
def Part.irrMapped (p : Part) (load : Bool) (a : Nat) : Bool :=
  if isHbm a then (if load then p.mayRead a 4 else p.mayWrite a 4) else p.inWindow a 4

/-- The packet tag of an irregular access: the core and the access's place among the outstanding ones. -/
def irrRef (c slot : Nat) : Nat := c + 8192 * slot

/-- A place that no outstanding access of the core has (R116: at most four are outstanding). -/
def Core.irrSlot (k : Core) : Nat := ((List.range 4).find? fun n => !(k.irr.any fun i => !i.done && i.slot == n)).getD 0

/-- An earlier access of the core to the word is outstanding (R309). -/
def Core.irrBehind (k : Core) (i : IrrOp) : Bool := k.irr.any fun j => !j.done && j.seq < i.seq && j.gaddr == i.gaddr

/-- Send the request of an access to another part (R116, R332). -/
def Part.irrSend (p : Part) (c : Nat) (i : IrrOp) : Part :=
  (p.sendPacket (gChip i.gaddr) 0 (if i.isLoad then 3 else 4) (irrRef c i.slot) 0
    (leBytes 8 i.gaddr ++ leBytes 4 i.value ++ leBytes 4 i.pair ++ leBytes 16 0)).sentFor i.pair 32

/-- Issue an LDG or STG (R116, R309): four outstanding stall the core in state 7; an unmapped word of this part faults
with code 8; a word of another part goes out as a request packet.
DESIGN CHOICE (log 142, unsafe): The request for a word of another part is sent when every earlier access of the core to that word has been answered, which keeps them in program order (R309). -/
def Part.issueIrr (p : Part) (c : Nat) (f : IrrF) (load : Bool) : Part :=
  p.issue c [f.rd.toNat, f.ra.toNat, f.rb.toNat] fun p =>
    let k := p.core c
    if k.outstanding ≥ 4 then p.setCore c { k with st := .ldgWait }
    else
      let g := k.irrAddr f
      let own := gChip g == p.chip
      if own && !p.irrMapped load (gLocal g) then (p.denied (coreSector c)).faultNow c 8
      else
        let v := k.reg f.rd.toNat
        let op : IrrOp := ⟨k.seq, load, f.rd.toNat, g, v, if f.evEn = 1 then some f.ev.toNat else none, k.pair, k.irrSlot, false⟩
        let p := p.setCore c { k with irr := k.irr ++ [op] }
        let p := p.bump (COR_STAT_LDG c) 1
        let p := if own || k.irrBehind op then p else p.irrSend c op
        p.modCore c Core.next

/-- LDG (R116). -/
def execLdg (core : BitVec 13) (f : IrrF) (s : State) : Answer :=
  s.run fun p => p.issueIrr core.toNat f true

/-- STG (R116). -/
def execStg (core : BitVec 13) (f : IrrF) (s : State) : Answer :=
  s.run fun p => p.issueIrr core.toNat f false

/-- RDSYS (R117): a reserved selector faults with code 1. -/
def execRdsys (core : BitVec 13) (f : RdsysF) (s : State) : Answer :=
  s.run fun p => p.issue core.toNat [f.rd.toNat] fun p =>
    match p.sysValue core.toNat f.sel.toNat with
    | none => p.faultNow core.toNat 1
    | some v => p.modCore core.toNat fun k => (k.setReg f.rd.toNat v).next

/-- ILLEGAL_OR_RESERVED_ENCODING (R109, R111): the core faults with code 1. -/
def execIllegalOrReservedEncoding (core : BitVec 13) (s : State) : Answer :=
  s.run fun p => if p.mayIssue core.toNat then p.faultNow core.toNat 1 else p

/-- The packet of a reply to an irregular access (class 1), if it has been delivered. -/
def Part.irrReply (p : Part) (c : Nat) (i : IrrOp) : Option Packet :=
  p.fab.rx.find? fun q => q.cls == 1 && q.kind == (if i.isLoad then 3 else 4) && q.ref == irrRef c i.slot && q.src == gChip i.gaddr

/-- The first irregular access of the kind that can complete: one of this part with no earlier access of the core to its
word outstanding (R309), or one whose reply has come. -/
def Part.irrReady (p : Part) (c : Nat) (load : Bool) : Option IrrOp :=
  let l := (p.core c).irr
  l.find? fun i =>
    !i.done && i.isLoad == load &&
      (if gChip i.gaddr == p.chip then !((p.core c).irrBehind i) else (p.irrReply c i).isSome)

/-- Send the signals of completed batches and drop what is settled (R116): an access with a counter signals when it and
every earlier one of its kind have completed. -/
def settleIrr (load earlier : Bool) (l : List IrrOp) : List IrrOp × List Nat :=
  match l with
  | [] => ([], [])
  | i :: r =>
    if i.isLoad != load then
      let (r', e) := settleIrr load earlier r
      (i :: r', e)
    else if i.done && earlier then
      let (r', e) := settleIrr load true r
      (r', i.ev.toList ++ e)
    else
      let (r', e) := settleIrr load false r
      (i :: r', e)

/-- The accesses of a core once `i` has completed, and the signals that then go out. -/
def Core.settled (k : Core) (i : IrrOp) : List IrrOp × List Nat :=
  settleIrr i.isLoad true (k.irr.map fun j => if j.seq = i.seq then { j with done := true } else j)

/-- Mark an access complete and settle its kind; the next access of the core to that word of another part goes out (R309). -/
def Part.irrDone (p : Part) (c : Nat) (i : IrrOp) : Part :=
  let k := p.core c
  let (l, evs) := k.settled i
  let p := (p.setCore c { k with irr := l }).each evs fun p ev => p.signal c ev
  match (if gChip i.gaddr == p.chip then none else k.irr.find? fun j => !j.done && j.seq > i.seq && j.gaddr == i.gaddr) with
  | some j => p.irrSend c j
  | none => p

/-- The signals of an access that completes find the arrival buffer full (R68): it waits. -/
def Part.irrHeld (p : Part) (c : Nat) (i : IrrOp) : Bool := p.evFull c ((p.core c).settled i).2.length

/-- Another part refused an access of a core (R304, R309): the requesting part writes a record; the core does not fault. -/
def Part.irrRefused (p : Part) (c : Nat) (i : IrrOp) : Part :=
  p.err { mkErr 6 4 0 with sector := coreSector c, core := c, pair := i.pair, addr := i.gaddr }

/-- The word an LDG returns: from this part's memory, or from the reply (R308, R309). -/
def Part.ldgValue (p : Part) (c : Nat) (i : IrrOp) : (Nat × Option Nat) × Part :=
  let s := coreSector c
  if gChip i.gaddr == p.chip then
    let p := p.bump (MEM_STAT_LDG (if isHbm (gLocal i.gaddr) then p.stack (gLocal i.gaddr) / 2 else s)) 1
    p.loadN 1 i.pair (gLocal i.gaddr) 4
  else
    match p.irrReply c i with
    | some q =>
      let p := if leAt q.payload 4 1 = 1 && q.poison == 0 then p.irrRefused c i else p
      ((leAt q.payload 0 4, if q.poison = 0 then none else some (leAt q.payload 0 32)), p.takeRx q)
    | none => ((0, none), p)

/-- LDG_RETURN (R116, R300): the word goes into rd, or 0 when its line is poison. -/
def execLdgReturn (core : BitVec 13) (s : State) : Answer :=
  s.run fun p =>
    let c := core.toNat
    match p.irrReady c true with
    | none => p
    | some i =>
      if !p.live || p.irrHeld c i || (p.tick.unwinding && gChip i.gaddr == p.chip) then p
      else
        let ((v, t), p) := p.ldgValue c i
        let p := match t with
          | some t => p.consume (coreSector c) 1 c i.pair t
          | none => p
        let p := p.modCore c fun k => k.setReg i.rd (if t.isSome then 0 else v)
        p.irrDone c i

/-- STG_COMPLETE (R116, R308): the word is visible at its destination; a write into a window outside its inbound partition
is refused with a record (R50). -/
def execStgComplete (core : BitVec 13) (s : State) : Answer :=
  s.run fun p =>
    let c := core.toNat
    match p.irrReady c false with
    | none => p
    | some i =>
      if !p.live || p.irrHeld c i then p
      else
        let a := gLocal i.gaddr
        let p :=
          if gChip i.gaddr == p.chip then
            let p := p.bump (MEM_STAT_LDG (if isHbm a then p.stack a / 2 else coreSector c)) 1
            if isHbm a || p.inInbound a 4 then p.store 1 i.pair a (leBytes 4 i.value) none
            else p.refuseExternal a i.pair
          else
            match p.irrReply c i with
            | some q => (if leAt q.payload 4 1 = 1 then p.irrRefused c i else p).takeRx q
            | none => p
        p.irrDone c i

end Sys2Proof.Machine
end

