-- ==== Sys2Proof/Machine/SchOps.lean ====
section
/-!
DEFINITION. The operations of the task scheduler that its steps share (R163 to R185): queues and their states, submission,
entry, counters, delay lists and releases.
-/
namespace Sys2Proof.Machine

/-- Fields of a descriptor (R166). -/
def dTicket (d : List Byte) : Nat := leAt d 0 2
/-- The dependence counter a descriptor waits on. -/
def dWait (d : List Byte) : Option Nat := if bit (leAt d 2 2) 15 then some (leAt d 2 2 % 16384) else none
/-- The ordered flow. -/
def dFlow (d : List Byte) : Option Nat := if bit (leAt d 4 2) 15 then some (leAt d 4 2 % 4096) else none
/-- The sequence number within the flow. -/
def dSeq (d : List Byte) : Nat := leAt d 6 2
/-- The delay in µs. -/
def dDelay (d : List Byte) : Nat := leAt d 8 4 % 2 ^ 24
/-- The frame kind of release. -/
def dKind (d : List Byte) : Nat := fld (leAt d 8 4) 24 2
/-- A descriptor that breaks R167: a reserved bit set, delay kind 3, or a delay on a forward. -/
def descBad (d : List Byte) (forward : Bool) : Bool :=
  bit (leAt d 2 2) 14 || fld (leAt d 4 2) 12 3 != 0 || fld (leAt d 8 4) 26 6 != 0 || fld (leAt d 28 4) 4 28 != 0 ||
    dKind d == 3 || (forward && dCtrl d 0)

/-- The tag field written (R166). -/
def withTag (d : List Byte) (pair : Nat) : List Byte := d.take 24 ++ leBytes 4 pair ++ d.drop 28
/-- The tag field. -/
def dTag (d : List Byte) : Nat := leAt d 24 4

/-- Replace queue `q`. -/
def Part.setQueue (p : Part) (s q : Nat) (x : Queue) : Part :=
  p.modSch s fun h => { h with queues := spSet .reset h.queues q x }

/-- A queue that would take a descriptor has no free slot, counting those on their way to it (R169). -/
def Part.queueFull (p : Part) (s q : Nat) : Bool :=
  let x := p.queue s q
  p.queueOn s q && !x.closed && !x.violated &&
    x.held + ((p.sch s).subs.filter (·.queue == q)).length ≥ p.queueSlots s q

/-- The queues of a sector that the graft has configured. -/
def Part.cfgQueues (p : Part) (s : Nat) : List Nat :=
  p.regs.filterMap fun e => if SCH_QCFG s 0 ≤ e.1 && e.1 < SCH_QCFG s 16384 then some ((e.1 - SCH_QCFG s 0) / 8) else none

/-- The queues bound to a core in the frame's kind (R164). -/
def Part.boundQueues (p : Part) (c : Nat) : List Nat :=
  let w := p.rd (SCH_BIND (coreSector c) (c % 2048) p.kind)
  (List.range 4).filterMap fun e => if bit w (16 * e + 15) then some (fld w (16 * e) 14) else none

/-- The core a queue feeds (R164). -/
def Part.boundCore (p : Part) (s q : Nat) : Option Nat :=
  p.roleCores.find? fun c => coreSector c == s && (p.boundQueues c).contains q

/-- The value of a dependence counter. -/
def Part.dcVal (p : Part) (s j : Nat) : Nat := spGet 0 (p.sch s).dc j

/-- The next ticket of a core (R173). -/
def Part.ticket (p : Part) (c : Nat) : Nat := spGet 0 (p.sch (coreSector c)).h (c % 2048)

/-- A scheduler event that sets bit `i` of SCH_STICKY, with its record. -/
def Part.schErr (p : Part) (s i pair : Nat) : Part :=
  p.noteErr (SCH_STICKY s) i { mkErr 0 i 0 with sector := s, pair := pair }

/-- A descriptor refused or discarded (R167, R170). -/
def Part.schDrop (p : Part) (s i pair : Nat) : Part := (p.bump (SCH_STAT_DROP s) 1).schErr s i pair

/-- A descriptor becomes ready in its queue (R172, R175): with a ticket below its core's next, or one that another held
descriptor of the core carries, it stays for good. -/
def Part.becomeReady (p : Part) (s q : Nat) (d : Desc) : Part :=
  let stale : Bool := match p.boundCore s q with
    | none => false
    | some c =>
      dTicket d.bytes < p.ticket c ||
        (p.boundQueues c).any fun q2 => (p.queue s q2).ready.any fun e => dTicket e.bytes == dTicket d.bytes
  let x := p.queue s q
  let p := p.setQueue s q { x with ready := x.ready ++ [{ d with stale := stale }], stale := x.stale || stale }
  if stale then p.schErr s 3 (dTag d.bytes) else p

/-- A descriptor takes a slot of its queue (R168, R170): discarded where the queue is disabled, closed or violated. One
released from a delay list has been counted as accepted before. -/
def Part.enterQueue (p : Part) (s q : Nat) (bytes : List Byte) (counted : Bool) : Part :=
  let x := p.queue s q
  if !p.queueOn s q then p.schDrop s 1 (dTag bytes)
  else if x.closed || x.violated then (p.setQueue s q { x with closed := false, violated := true }).schDrop s 2 (dTag bytes)
  else
    let d : Desc := ⟨(p.sch s).nextN, bytes, false⟩
    let p := p.modSch s fun h => { h with nextN := h.nextN + 1 }
    let p := if counted then p else p.bump (SCH_STAT_SUBMIT s) 1
    match dWait bytes with
    | some j => if p.dcVal s j = 0 then p.becomeReady s q d else p.setQueue s q { x with waiting := x.waiting ++ [d] }
    | none => p.becomeReady s q d

/-- The lowest free slot of the delay store. -/
def freeSlot (l : List DelayEntry) : Nat :=
  ((List.range (l.length + 1)).find? fun i => !(l.any fun e => e.slot == i)).getD 0

/-- Put a descriptor into the delay list of its kind (R168, R182): its 64 bytes go to the delay store by a journalled
write. -/
def Part.delayPut (p : Part) (s q : Nat) (bytes : List Byte) : Part :=
  let slot := freeSlot (p.sch s).delay
  let e : DelayEntry := ⟨p.rd (SCH_ST_BASE s) + dDelay bytes, dKind bytes, q, dTicket bytes, slot⟩
  let p := p.store 12 (dTag bytes) (p.getF (SCH_DELAY s) 0 40 + 64 * slot) bytes none
  let p := p.modSch s fun h => { h with delay := h.delay ++ [e] }
  (p.wr (SCH_DELAY_USE s) (p.sch s).delay.length).bump (SCH_STAT_SUBMIT s) 1

/-- A delayed descriptor goes into its list, or is discarded where the scheduler serves nothing (R168, R188). -/
def Part.enterDelay (p : Part) (s q : Nat) (bytes : List Byte) : Part :=
  if p.schOn s then p.delayPut s q bytes else p.schDrop s 1 (dTag bytes)

/-- A submission to queue name `name` of this part (R166 to R168): refused under R167; delayed; or on its way to its queue,
which an entry without latency takes at once. One that finds the delay store full waits (R169). -/
def Part.submitLocal (p : Part) (src : SubSrc) (name pair : Nat) (bytes : List Byte) (atOnce : Bool) : Part :=
  let s := fld name 14 2
  let q := name % 16384
  let bytes := withTag bytes pair
  if descBad bytes (src == .forward) then p.schDrop s 4 pair
  else if dCtrl bytes 0 && !(p.schOn s && p.delayFull s) then p.enterDelay s q bytes
  else if atOnce && !(dCtrl bytes 0) && !(p.queueFull s q) then p.enterQueue s q bytes false
  else p.modSch s fun h => { h with subs := h.subs ++ [⟨q, src, bytes⟩] }

/-- Decrement a counter of this part for a completion of the pair given (R134, R171): at zero it counts an underflow; a counter that reaches zero releases its
descriptors by DC_ZERO_RELEASE. -/
def Part.decDc (p : Part) (pair s j : Nat) : Part :=
  let v := p.dcVal s j
  if v = 0 then (p.bump (SCH_STAT_UNDERFLOW s) 1).schErr s 0 pair
  else
    p.modSch s fun h =>
      { h with dc := spSet 0 h.dc j (v - 1), dcZero := if v = 1 then h.dcZero ++ [j] else h.dcZero }

/-- A submission that was on its way reaches its queue or its delay list. -/
def Part.arrive (p : Part) (s : Nat) (u : Sub) : Part :=
  if dCtrl u.bytes 0 then p.enterDelay s u.queue u.bytes else p.enterQueue s u.queue u.bytes false

/-- A completion's sequence number lies outside its flow's window (R180). -/
def Part.outsideWindow (p : Part) (s : Nat) (d : List Byte) : Bool :=
  match dFlow d with
  | some f => (dSeq d + 65536 - (spGet .reset (p.sch s).flows f).next) % 65536 ≥ 1024
  | none => false

/-- A completion of flow `f` is discarded for its window (R180): the flow releases nothing more in the frame. -/
def Part.flowOverrun (p : Part) (s f pair : Nat) : Part :=
  (p.modSch s fun h => { h with flows := spSet .reset h.flows f { spGet .reset h.flows f with broken := true } }).schErr s 5 pair

/-- Close an open queue (R165). -/
def Part.closeQueue (p : Part) (s q : Nat) : Part :=
  let x := p.queue s q
  if x.closed || x.violated then p else p.setQueue s q { x with closed := true }

/-- Close the queues whose close counter is `j` (R172). -/
def Part.closeOn (p : Part) (s j : Nat) : Part :=
  p.each (p.cfgQueues s) fun p q =>
    if p.queueOn s q && p.getB (SCH_QCFG s q) 15 && p.getF (SCH_QCFG s q) 0 14 == j then p.closeQueue s q else p

/-- A core's bound queues are all closed and hold nothing (R174), or its scheduler serves nothing (R188). -/
def Part.endOfWork (p : Part) (c : Nat) : Bool :=
  let s := coreSector c
  !p.schOn s || (p.boundQueues c).all fun q => (p.queue s q).closed && (p.queue s q).held == 0

/-- An ASK returns the end-of-work value (R63). -/
def Part.returnEnd (p : Part) (c : Nat) : Part :=
  p.modCore c fun k => { (k.setReg k.askRd 0xFFFFFFFF) with st := .running, endSeen := true }

/-- Read a descriptor of a core at issue: its bytes, or its poison. -/
def Part.coreDesc (p : Part) (c a : Nat) : List Byte × Option Nat := (p.spad c a 64, p.spadPoison c (a, a + 64))

end Sys2Proof.Machine
end

