-- ==== Sys2Proof/Machine/CoreSync.lean ====
section
/-!
DEFINITION. The scheduler, synchronisation and observation instructions (R132 to R135) and the events that complete them: asks
(R63, R64), event counters (R65 to R69), herd lines (R70, R71) and fences (R74).
-/
namespace Sys2Proof.Machine

/-- ASK (R63, R64, R132): it blocks until a hand-over, or returns the end-of-work value at once. -/
def execAsk (core : BitVec 13) (f : AskF) (s : State) : Answer :=
  s.run fun p => p.issue core.toNat [f.rd.toNat, f.ra.toNat] fun p =>
    let c := core.toNat
    let k := p.core c
    let a := k.descAddr f.ra.toNat f.offset.toNat
    if k.endSeen then p.faultNow c 10
    else if !p.inPrivate c a 64 then p.faultNow c 2
    else
      let p := p.setCore c { k.next with st := .inAsk, askRd := f.rd.toNat, askAddr := a }
      if p.endOfWork c then p.returnEnd c else p

/-- A descriptor of a core that carries poison is used in control: its part consumes it and drops the descriptor (R300,
R184).
DESIGN CHOICE (log 135, unsafe): A SUBMIT or DONE of a poisoned descriptor is dropped with SCH_STICKY.poison and consumed as the scheduler's (agent 12); the manual states this for preload and delay entries only. -/
def Part.poisonDesc (p : Part) (c t : Nat) : Part :=
  let s := coreSector c
  let p := p.consume s 12 c (p.core c).pair t
  (p.schDrop s 7 (p.core c).pair).modCore c Core.next

/-- SUBMIT (R132, R166 to R169): the copy taken at issue goes to its queue, or to another part. -/
def execSubmit (core : BitVec 13) (f : SubmitF) (s : State) : Answer :=
  s.run fun p => p.issue core.toNat [f.ra.toNat, f.rb.toNat] fun p =>
    let c := core.toNat
    let k := p.core c
    let a := k.descAddr f.ra.toNat f.offset.toNat
    let name := k.reg f.rb.toNat % 65536
    let chip := if f.remote = 1 then k.reg f.rb.toNat >>> 16 else p.chip
    let ts := name / 16384
    let d := p.coreDesc c a
    if !p.inPrivate c a 64 then p.faultNow c 2
    else if p.mustWait c k.seq [(a, a + 64)] [] then p
    else
      match d.2 with
      | some t => p.poisonDesc c t
      | none =>
        if chip = p.chip then
          if !(descBad d.1 false) && (if dCtrl d.1 0 then p.schOn ts && p.delayFull ts else p.queueFull ts (name % 16384)) then
            p.modCore c (Core.stallOn ts)
          else (p.submitLocal .core name k.pair d.1 false).modCore c Core.next
        else
          let (b, p) := p.sendBlock chip 2 0 (withTag d.1 k.pair)
          let p := p.sendPacket chip 4 0 0 0 (leBytes 4 name ++ leBytes 4 b ++ leBytes 56 0)
          (p.sentFor k.pair 128).modCore c Core.next

/-- DONE (R132, R177, R180): the copy taken at issue is held until its release. -/
def execDone (core : BitVec 13) (f : DoneF) (s : State) : Answer :=
  s.run fun p => p.issue core.toNat [f.ra.toNat] fun p =>
    let c := core.toNat
    let k := p.core c
    let s := coreSector c
    let a := k.descAddr f.ra.toNat f.offset.toNat
    let d := p.coreDesc c a
    if !p.inPrivate c a 64 then p.faultNow c 2
    else if p.mustWait c k.seq [(a, a + 64)] [] then p
    else
      match d.2 with
      | some t => p.poisonDesc c t
      | none =>
        if !p.schOn s then p.modCore c Core.next
        else if (p.sch s).held.length ≥ 4096 then p.modCore c Core.stall
        else if p.outsideWindow s d.1 then (p.flowOverrun s ((dFlow d.1).getD 0) k.pair).modCore c Core.next
        else (p.modSch s fun h => { h with held := h.held ++ [⟨d.1, k.pair, c⟩] }).modCore c Core.next

/-- CLOSEQ (R132, R170): ignored on a disabled queue, nothing on a closed or violated one. -/
def execCloseq (core : BitVec 13) (rb : BitVec 5) (s : State) : Answer :=
  s.run fun p => p.issue core.toNat [rb.toNat] fun p =>
    let c := core.toNat
    let k := p.core c
    let name := k.reg rb.toNat % 65536
    let ts := name / 16384
    let q := name % 16384
    let p := if p.queueOn ts q then p.closeQueue ts q else p.schErr ts 6 k.pair
    p.modCore c Core.next

/-- SIGNAL (R133): an index outside the grade faults with code 7; a full arrival buffer stalls the core (R68). -/
def execSignal (core : BitVec 13) (f : SignalF) (s : State) : Answer :=
  s.run fun p => p.issue core.toNat (if f.self = 1 then [] else [f.rb.toNat]) fun p =>
    let c := core.toNat
    let k := p.core c
    let v := k.reg f.rb.toNat
    let t := v % 8192
    if f.self = 1 then (if p.evFull c 1 then p.modCore c Core.stall else (p.signal c f.ev.toNat).modCore c Core.next)
    else if f.remote = 1 then
      if fld v 13 16 = p.chip && p.evFull t 1 then p.modCore c Core.stall
      else (p.signalTo k.pair (fld v 13 16) t f.ev.toNat).modCore c Core.next
    else if !p.validCore t then p.faultNow c 7
    else if p.evFull t 1 then p.modCore c Core.stall
    else (p.signal t f.ev.toNat).modCore c Core.next

/-- Take `n` from a counter (R65). -/
def Core.takeEv (k : Core) (ev n : Nat) : Core := { k with ev := spSet 0 k.ev ev (spGet 0 k.ev ev - n) }

/-- WAIT (R65, R133): it completes at once on a sufficient count, and else blocks; a count of 0 faults with code 1.
A signal accepted in the same cycle is not visible yet (R67).
DEDUCED (log 23, unsafe): A WAIT whose count is already there completes at issue, and else blocks until WAIT_COMPLETE; a FENCE always blocks until FENCE_COMPLETE. -/
def execWait (core : BitVec 13) (f : WaitF) (s : State) : Answer :=
  s.run fun p => p.issue core.toNat [] fun p =>
    let c := core.toNat
    let n := f.n.toNat
    if n = 0 then p.faultNow c 1
    else
      p.modCore c fun k =>
        if k.visible p.cycle f.ev.toNat ≥ n then (k.takeEv f.ev.toNat n).next
        else { k.next with st := .evWait, waitId := f.ev.toNat, waitN := n }

/-- A wait takes its n and ends (R65). -/
def Core.waitEnds (k : Core) : Core := { (k.takeEv k.waitId k.waitN) with st := .running, waitId := 0, waitN := 0 }

/-- A core that waits on a count it sees takes its n and runs (R65). -/
def Part.endWait (p : Part) (c : Nat) : Part :=
  let k := p.core c
  if k.st == .evWait && k.visible p.cycle k.waitId ≥ k.waitN then p.setCore c k.waitEnds else p

/-- WAIT_COMPLETE (R65, R67): the count suffices, and the wait takes its n; signals accepted in this cycle are seen in the next. -/
def execWaitComplete (core : BitVec 13) (s : State) : Answer :=
  s.run fun p =>
    let k := p.core core.toNat
    if p.live && k.st == .evWait && spGet 0 k.ev k.waitId ≥ k.waitN then
      (if k.visible p.cycle k.waitId ≥ k.waitN then p else p.clockTo (p.cycle + 1)).modCore core.toNat Core.waitEnds
    else p

/-- Take the first entry that satisfies a test out of a list. -/
def takeFirst {α : Type} (f : α → Bool) (l : List α) : Option (α × List α) :=
  match l with
  | [] => none
  | x :: r => if f x then some (x, r) else (takeFirst f r).map fun q => (q.1, x :: q.2)

/-- EV_SIGNAL_ARRIVE (R65 to R68): the counter accepts a signal that is on its way, after the subtraction of a wait that completes in the
cycle. -/
def execEvSignalArrive (core : BitVec 13) (ev : BitVec 5) (s : State) : Answer :=
  s.run fun p =>
    match takeFirst (fun q : Nat × Nat => q.1 == core.toNat && q.2 == ev.toNat) p.tick.signals with
    | some (_, rest) =>
      let p := p.modTick fun t => { t with signals := rest }
      (if p.live then p.endWait core.toNat else p).countSignal core.toNat ev.toNat
    | none => p

/-- The core joins a herd line in the frame's kind (R70). -/
def Part.joins (p : Part) (c line : Nat) : Bool := p.getB (COR_JOIN c p.kind) line

/-- HERD (R71, R133): an arrival marks the line, and one made before the line has released from the last blocks until it
does; a herd-wait blocks until the line has released since the core's last arrival.
DEDUCED (log 24, unsafe): A herd line whose joined cores have all left passes a waiting core at once; a core that waits without having arrived passes at once. -/
def execHerd (core : BitVec 13) (f : HerdF) (s : State) : Answer :=
  s.run fun p => p.issue core.toNat [] fun p =>
    let c := core.toNat
    let i := f.line.toNat
    let m := f.mode.toNat
    if i ≥ 48 || m == 0 then p.faultNow c 1
    else if !p.joins c i then p.faultNow c (if m = 2 then 1 else 6)
    else
      p.modCore c fun k =>
        let here := bit k.arrived i
        if m = 2 then (if here then { k.next with st := .herdWait, waitId := i, waitN := 0 } else k.next)
        else if here then { k.next with st := .herdWait, waitId := i, waitN := m }
        else if m = 1 then { k.next with arrived := k.arrived ||| 2 ^ i }
        else { k.next with arrived := k.arrived ||| 2 ^ i, st := .herdWait, waitId := i, waitN := 0 }

/-- What a release of line `i` does to a joined core: its arrival is taken, a wait on the line ends, and an arrival that
waited for the release is made (R70, R71). -/
def Core.released (k : Core) (i : Nat) : Core :=
  let k := { k with arrived := k.arrived &&& (2 ^ 48 - 1 - 2 ^ i) }
  if k.st == .herdWait && k.waitId == i then
    if k.waitN = 0 then { k with st := .running, waitId := 0 }
    else if k.waitN = 1 then { k with arrived := k.arrived ||| 2 ^ i, st := .running, waitId := 0, waitN := 0 }
    else { k with arrived := k.arrived ||| 2 ^ i, waitN := 0 }
  else k

/-- HERD_RELEASE (R70): every core joined to the line has arrived since it last released. -/
def execHerdRelease (line : BitVec 6) (s : State) : Answer :=
  s.run fun p =>
    let i := line.toNat
    let joined := p.roleCores.filter fun c => p.joins c i
    if i ≥ 48 || !p.live || joined.isEmpty || !(joined.all fun c => bit (p.core c).arrived i) then p
    else (p.each joined fun p c => p.modCore c fun k => k.released i).putB TIK_HERD_STATE i true

/-- FENCE (R74, R133). -/
def execFence (core : BitVec 13) (kind : BitVec 2) (s : State) : Answer :=
  s.run fun p => p.issue core.toNat [] fun p =>
    p.modCore core.toNat fun k => { k.next with st := .inFence, fence := kind.toNat }

/-- Every write of the core's own engines to its scratchpad has retired (FENCE.S). -/
def Core.writesDone (k : Core) : Bool := k.vrun.isNone && k.vq.all VOp.isConfig

/-- The fence a core waits in is complete (R74, R75): FENCE.S waits for scratchpad writes, the core's STGs to windows of this part among
them, FENCE.M for STGs to HBM and FENCE.F for STGs to other parts. -/
def Part.fenceDone (p : Part) (c : Nat) : Bool :=
  let k := p.core c
  let stores := k.irr.filter fun i => !i.isLoad && !i.done
  let own (i : IrrOp) : Bool := gChip i.gaddr == p.chip
  let s := k.writesDone && stores.all fun i => !own i || !isWindow (gLocal i.gaddr)
  let m := stores.all fun i => !own i || isWindow (gLocal i.gaddr)
  let f := stores.all own
  match k.fence with
  | 0 => s
  | 1 => m
  | 2 => f
  | _ => s && m && f

/-- FENCE_COMPLETE (R74). -/
def execFenceComplete (core : BitVec 13) (s : State) : Answer :=
  s.run fun p =>
    if p.live && (p.core core.toNat).st == .inFence && p.fenceDone core.toNat then
      p.modCore core.toNat fun k => { k with st := .running, fence := 0 }
    else p

/-- TAG (R134). -/
def execTag (core : BitVec 13) (imm : BitVec 32) (s : State) : Answer :=
  s.run fun p => p.issue core.toNat [] fun p => p.modCore core.toNat fun k => { k with pair := imm.toNat }.next

/-- MARK (R135, R512): a trace mark when trace is enabled, and a freeze when its immediate is the freeze mark. -/
def execMark (core : BitVec 13) (f : MarkF) (s : State) : Answer :=
  s.run fun p => p.issue core.toNat [f.ra.toNat] fun p =>
    let c := core.toNat
    let k := p.core c
    let p := p.trace (coreSector c) 0 k.pair c (f.imm.toNat + k.pc <<< 32) (k.reg f.ra.toNat)
    let p := p.modCore c Core.next
    if p.getB OBS_FREEZE 4 && p.rd OBS_FREEZE_MARK == f.imm.toNat then p.freeze 4 else p

end Sys2Proof.Machine
end

