-- ==== Sys2Proof/Machine/CoreVector.lean ====
section
/-!
DEFINITION. The vector instructions (R122 to R129), streams and drains (R59 to R62, R94 to R97, R103, R126), and the outlook
drains (R151 to R160).
-/
namespace Sys2Proof.Machine

/-- Apply the configuration entries of a queue up to its first stream or drain.
DEDUCED (log 20, unsafe): Configuration entries of the vector queue (SETVL, UDEF, DSET) take effect in queue order as soon as no operation stands before them, and at once on an idle engine. -/
def advanceQ (w : VView) (q : List VOp) : VView × List VOp :=
  match q with
  | [] => (w, [])
  | o :: r => if o.isConfig then advanceQ (w.apply o) r else (w, o :: r)

/-- The engine takes the configuration entries at the head of its queue while it runs nothing (R129). -/
def Core.advance (k : Core) : Core :=
  if k.vrun.isSome then k
  else
    let (w, q) := advanceQ k.view k.vq
    { (k.setView w) with vq := q }

/-- The vector state as every queued entry leaves it: what an instruction that issues now will run under (R129). -/
def Core.viewIssue (k : Core) : VView := k.vq.foldl VView.apply k.view

/-- Put an entry into the vector command queue, or stall while its 8 entries are taken. -/
def Part.pushV (p : Part) (c : Nat) (o : VOp) : Part :=
  p.modCore c fun k =>
    let k := k.advance
    if k.vq.length ≥ 8 then k.stall else ({ k with vq := k.vq ++ [o] }.advance).next

/-- SETVL (R122): the unsigned sum saturates at 65,535.
DEDUCED (log 25, unsafe): SETVL adds exactly before it saturates at 65,535. -/
def execSetvl (core : BitVec 13) (f : SetvlF) (s : State) : Answer :=
  s.run fun p => p.issue core.toNat (f.ra.toNat :: (if f.i = 1 then [] else [f.rb.toNat])) fun p =>
    let k := p.core core.toNat
    p.pushV core.toNat (.setvl k.seq (min 65535 (k.reg f.ra.toNat + if f.i = 1 then f.imm.toNat else k.reg f.rb.toNat)))

/-- The operand selectors a step function uses (R123, R124). -/
def stepUses (fn : Nat) (a b c : Nat) : List Nat :=
  if fn = 4 ∨ fn = 16 then [a, b, c]
  else if fn = 0 ∨ (7 ≤ fn ∧ fn ≤ 12) ∨ fn = 26 ∨ fn = 27 then [a]
  else [a, b]

/-- UDEF (R123): a reserved function faults with code 1; a selector before step 0 or a 17th step with code 9. -/
def execUdef (core : BitVec 13) (f : UdefF) (s : State) : Answer :=
  s.run fun p => p.issue core.toNat [] fun p =>
    let c := core.toNat
    let len := if f.new = 1 then 0 else (spGet [] (p.core c).viewIssue.slots f.slot.toNat).length
    if f.fn.toNat ≥ 28 then p.faultNow c 1
    else if len ≥ 16 || (stepUses f.fn.toNat f.a.toNat f.b.toNat f.c.toNat).any (fun x => x < 12 && x ≥ len) then p.faultNow c 9
    else p.pushV c (.udef (p.core c).seq f.slot.toNat (f.new == 1) ⟨f.fn.toNat, f.a.toNat, f.b.toNat, f.c.toNat, f.imm.toNat⟩)

/-- DSET (R127): items 5 to 7, bias mode 3 and reserved control bits fault with code 1. -/
def execDset (core : BitVec 13) (f : DsetF) (s : State) : Answer :=
  s.run fun p => p.issue core.toNat [] fun p =>
    let v := f.value.toNat
    if f.item.toNat ≥ 5 || (f.item.toNat == 4 && (v ≥ 8 || v % 4 == 3)) then p.faultNow core.toNat 1
    else p.pushV core.toNat (.dset (p.core core.toNat).seq f.pset.toNat f.item.toNat v)

/-- The input streams, 0 to 2, that the steps of a program name. -/
def usedInputs (steps : List UStep) : List Nat :=
  (List.range 3).filter fun i => steps.any fun st => (stepUses st.fn st.a st.b st.c).contains (12 + i)

/-- An input format: none when unused (R119). -/
def inFmt (code : BitVec 3) : Option Fmt := Fmt.ofCode code.toNat

/-- Ranges that hold at least one byte. -/
def someBytes (l : List (Nat × Nat)) : List (Nat × Nat) := l.filter fun r => r.1 < r.2

/-- VSTREAM (R126): checks of its formats, its mode, its inputs and its ranges at issue. -/
def execVstream (core : BitVec 13) (f : VstreamF) (s : State) : Answer :=
  s.run fun p => p.issue core.toNat [f.rd.toNat, f.ra.toNat, f.rb.toNat, f.rc.toNat] fun p =>
    let c := core.toNat
    let k := p.core c
    match Fmt.ofCode f.fmtOut.toNat with
    | none => p.faultNow c 1
    | some out =>
      let o : StreamOp :=
        ⟨k.opHead, f.slot.toNat, k.reg f.rd.toNat, k.reg f.ra.toNat, k.reg f.rb.toNat, k.reg f.rc.toNat, out, inFmt f.fmt0,
          inFmt f.fmt1, inFmt f.fmt2, f.mode.toNat, f.sat == 1⟩
      let w := k.viewIssue
      let missing (i : Nat) : Bool := (nth [o.fmt0, o.fmt1, o.fmt2] i none).isNone
      if f.mode = 3 || (usedInputs (spGet [] w.slots o.slot)).any missing then p.faultNow c 1
      else if !inSpad (someBytes (o.reads w.vl ++ o.writes w.vl)) then p.faultNow c 2
      else if !p.outOfCode c (someBytes (o.writes w.vl)) then p.faultNow c 3
      else p.pushV c (.stream o)

/-- VDRAIN (R128): checks of its target, its mode and its ranges at issue; the record of an outlook drain is among the
bytes it writes (R152). -/
def execVdrain (core : BitVec 13) (f : VdrainF) (s : State) : Answer :=
  s.run fun p => p.issue core.toNat [f.rc.toNat, f.ra.toNat, f.rb.toNat] fun p =>
    let c := core.toNat
    let k := p.core c
    match Fmt.ofCode f.fmt.toNat with
    | none => p.faultNow c 1
    | some fmt =>
      let o : DrainOp :=
        ⟨k.opHead, k.reg f.rc.toNat, k.addr f.ra.toNat f.offset.toNat, k.stride f.rb.toNat, fmt, f.mode.toNat, f.sat == 1,
          f.pset.toNat, f.int == 1⟩
      let olk := (p.outlook c k.pair).isSome
      let vec := (spGet .reset k.viewIssue.psets o.pset).biasMode == 2
      if f.mode = 3 then p.faultNow c 1
      else if !inSpad (o.reads vec olk ++ o.writes olk) then p.faultNow c 2
      else if !p.outOfCode c (o.writes olk) then p.faultNow c 3
      else p.pushV c (.drain o)

/-- The draw a lane of a core takes as its number `n` of the frame (R96, R97). -/
def Part.coreDraw (p : Part) (c lane n : Nat) : Nat :=
  srDraw (srSeed (BitVec.ofNat 64 p.seed) (BitVec.ofNat 64 p.frameNo) 0 p.chip c lane) n

/-- One input element of a stream with its poison (R124, R300). -/
def Part.inElem (p : Part) (c : Nat) (f : Option Fmt) (base e : Nat) : SVal × Option Nat :=
  match f with
  | none => (⟨0, false⟩, none)
  | some f =>
    let w := f.bytes
    let a := base / w * w + e * w
    (widen f (leNat (p.spad c a w)), p.spadPoison c (a, a + w))

/-- Cut the elements of one group into pieces within scratchpad granules: address, bytes, the first poison and the events. -/
def granPieces (addr : Nat) (els : List (List Byte × Option Nat × Events)) : List SpWrite :=
  match els with
  | [] => []
  | (bs, t, e) :: r =>
    match granPieces (addr + bs.length) r with
    | [] => [⟨addr, bs, t, e⟩]
    | q :: qs =>
      if q.addr / 32 = addr / 32 then ⟨addr, bs ++ q.bytes, if t.isSome then t else q.poison, e.join q.events⟩ :: qs
      else ⟨addr, bs, t, e⟩ :: q :: qs

/-- What a running stream carries from group to group: the scratchpad as its groups see it (R126), the writes in
order, the draws of each lane and the first poison met. -/
structure StreamRun where
  view : Part
  writes : List SpWrite
  draws : Sparse Nat
  poison : Option Nat

/-- One element of a stream (R124 to R126). -/
def Part.streamElem (p : Part) (c : Nat) (o : StreamOp) (steps : List UStep) (used : List Nat) (e n : Nat) :
    (List Byte × Option Nat × Events) × Bool :=
  let i0 := p.inElem c o.fmt0 o.in0 e
  let i1 := p.inElem c o.fmt1 o.in1 e
  let i2 := p.inElem c o.fmt2 o.in2 e
  let (r, ev) := runSteps (p.keep c) [i0.1, i1.1, i2.1] [] steps
  let draws := o.mode == 1 && streamDraws r o.fmtOut
  let (v, ev') := streamOut (p.keep c) o.fmtOut (Mode.ofCode o.mode (p.coreDraw c (e % 32) n)) o.sat r
  let t := used.findSome? fun i => (nth [i0.2, i1.2, i2.2] i none)
  ((leBytes o.fmtOut.bytes v, t, ev.join ev'), draws)

/-- One group of up to 32 elements of a stream, read whole before it is written (R126). -/
def streamGroup (c : Nat) (o : StreamOp) (steps : List UStep) (used : List Nat) (up : Option Upset) (vl : Nat)
    (r : StreamRun) (g : Nat) : StreamRun :=
  let n := min 32 (vl - 32 * g)
  let els := (List.range n).map fun j =>
    let d := spGet 0 r.draws j
    (j, d, r.view.streamElem c o steps used (32 * g + j) d)
  let draws := els.foldl (fun m x => if x.2.2.2 then spSet 0 m x.1 (x.2.1 + 1) else m) r.draws
  let bytes := els.map fun x =>
    let b := x.2.2.1
    match up with
    | some u => if u.row = g ∧ u.col = x.1 then (leBytes b.1.length (upsetHit u (leNat b.1)).1, b.2) else b
    | none => b
  let ws := granPieces (o.out / o.fmtOut.bytes * o.fmtOut.bytes + 32 * g * o.fmtOut.bytes) bytes
  { view := r.view.applyWrites c ws, writes := r.writes ++ ws, draws := draws,
    poison := if r.poison.isSome then r.poison else bytes.findSome? (·.2.1) }

/-- The step functions the residue codes cover (R485). -/
def resCovers (fn : Nat) : Bool := (1 ≤ fn && fn ≤ 4) || (17 ≤ fn && fn ≤ 19)

/-- Start a stream (R126): all of it is computed; its bytes are written when it retires. -/
def Part.startStream (p : Part) (c : Nat) (o : StreamOp) (steps : List UStep) (up : Option Upset) : Part :=
  let k := p.core c
  let vl := k.vl
  let used := usedInputs steps
  let r := (List.range (ceilDiv vl 32)).foldl (streamGroup c o steps used up vl) ⟨p, [], k.draws, none⟩
  let cycles := ceilDiv vl 32 * ceilDiv steps.length 4
  let p := p.setCore c
    { k with vq := k.vq.drop 1, draws := r.draws,
             vrun := some ⟨.stream o, 16, someBytes (o.reads vl), someBytes (o.writes vl), r.writes, ceilDiv vl 32, .none⟩ }
  let p := p.addPair o.head.pair fun a => { a with vec := a.vec + cycles }
  let fn := (steps.getLast?.map (·.fn)).getD 0
  let hit := up.filter fun u => u.mask != 0 && 32 * u.row + u.col < vl && u.col < 32 && resCovers fn
  let p := p.coreResidue c hit o.head fun node => char0Of 12 fn ((o.fmt0.map Fmt.code).getD 7) 0 o.mode 0 0 node
  p.consumeIf c o.head.pair r.poison

/-- What the record of an outlook drain says (R153). -/
structure OlkRec where
  seq : Nat
  entry : Nat
  audit : Bool
  selected : Bool
  state : Nat
  count : Nat
  peak : Nat
  deriving DecidableEq, Repr

/-- The 32 bytes of a record (R153). -/
def OlkRec.bytes (r : OlkRec) : List Byte :=
  leBytes 4 ((r.seq % 65536) <<< 16 + r.entry <<< 4 + b2n r.audit <<< 3 + b2n r.selected <<< 2 + r.state) ++
    leBytes 4 r.count ++ leBytes 4 r.peak ++ leBytes 20 0

/-- Read a record. -/
def OlkRec.read (bs : List Byte) : OlkRec :=
  let w := leAt bs 0 4
  ⟨fld w 16 16, fld w 4 3, bit w 3, bit w 2, fld w 0 2, leAt bs 4 4, leAt bs 8 4⟩

/-- The largest magnitude of a list of binary32 values, or the canonical NaN if one is a NaN (R153). -/
def peakOf (l : List Nat) : Nat :=
  if l.any fun v => FVal.decode .b32 v == .nan then Fmt.nan .b32 else (l.map (· % 2 ^ 31)).foldl max 0

/-- A binary32 counterpart of a stored element (R157). -/
def estValue (f : Fmt) (n : Nat) : FVal := if f.isInt then .fin (sext (8 * f.bytes) n < 0) (sext (8 * f.bytes) n).natAbs 0 else FVal.decode f n

/-- Significance of an exact value (R154). -/
def significantVal (thr : Nat) (v : FVal) : Bool :=
  match v with
  | .nan => true
  | .inf _ => true
  | .fin _ m e => !(FVal.lt (.fin false m e) (FVal.decode .b32 thr))

/-- The difference of R157, binary32 by RNE; none where either value is a NaN.
DESIGN CHOICE (log 131, unsafe): Two infinities of one sign have no stated difference (R157); the model leaves the element out of MTR_PEAK. -/
def meterDiff (v e : FVal) : Option Nat :=
  match (v.add e.neg).1 with
  | .nan => none
  | d => some ((roundF .b32 .rne false false d).1 % 2 ^ 31)

/-- Count in an outlook counter (R162). -/
def Part.olkCount (p : Part) (off k : Nat) : Part := p.wr off (satAdd 0xFFFFFFFF (p.rd off) k)

/-- What a metered full drain counts (R156, R157). -/
def Part.meter (p : Part) (c e thr : Nat) (f : Fmt) (vs ests : List Nat) : Part :=
  let ps := vs.zip ests
  let miss := ps.filter fun q => !(significantVal thr (estValue f q.2)) && significant thr q.1
  let false_ := ps.filter fun q => significantVal thr (estValue f q.2) && !(significant thr q.1)
  let diffs := ps.filterMap fun q => meterDiff (FVal.decode .b32 q.1) (estValue f q.2)
  let p := p.olkCount (COR_OLK_MTR_N c e) ps.length
  let p := p.olkCount (COR_OLK_MTR_MISS c e) miss.length
  let p := p.olkCount (COR_OLK_MTR_FALSE c e) false_.length
  p.peak (COR_OLK_MTR_PEAK c e) (diffs.foldl max 0)

/-- The outlook entry of a core with its threshold, least count, audit rate and meter bit (R162). -/
structure OlkEntry where
  e : Nat
  thr : Nat
  minCount : Nat
  audit : Nat
  meter : Bool
  deriving DecidableEq, Repr

/-- Entry `e` of a core. -/
def Part.olkEntry (p : Part) (c e : Nat) : OlkEntry :=
  ⟨e, p.rd (COR_OLK_THR c e), p.getF (COR_OLK_CTRL c e) 0 11, p.getF (COR_OLK_CTRL c e) 20 4, p.getB (COR_OLK_CTRL c e) 17⟩

/-- Whether tile `n` of an entry is chosen for audit (R155). -/
def Part.auditTile (p : Part) (c pair : Nat) (x : OlkEntry) (n : Nat) : Bool :=
  x.audit != 0 &&
    sampleHash p.seed p.frameNo ((p.chip <<< 48) ||| (c <<< 32) ||| pair) n % 2 ^ x.audit == 0

/-- What a drain does beyond converting: whether it writes its rows, the record it leaves, and the part with its
counters moved (R154 to R158).
DESIGN CHOICE (log 132, unsafe): A full drain that sets state 2 leaves the other fields of the record as the estimate drain wrote them; R156 names the state alone. -/
def Part.outlookDrain (p : Part) (c : Nat) (o : DrainOp) (est : Bool) (x : OlkEntry) (vs ests : List Nat) (old : OlkRec) :
    Bool × Option OlkRec × Part :=
  let cnt := (vs.filter (significant x.thr)).length
  if est then
    let k := p.core c
    let n := spGet 0 k.estSeq x.e
    let sel := cnt ≥ x.minCount
    let aud := !sel && p.auditTile c o.head.pair x n
    let p := p.setCore c { k with estSeq := spSet 0 k.estSeq x.e (n + 1) }
    let p := p.olkCount (COR_OLK_EST c x.e) 1
    let p := if sel || aud then p.olkCount (COR_OLK_REQ c x.e) 1 else p
    (true, some ⟨n, x.e, aud, sel, 1, cnt, peakOf vs⟩, p)
  else if old.state = 1 ∧ old.entry = x.e then
    if old.selected then
      let p := p.olkCount (COR_OLK_SEL c x.e) 1
      let p := p.olkCount (COR_OLK_SIG c x.e) cnt
      let p := if x.meter then p.meter c x.e x.thr o.fmt vs ests else p
      (true, some { old with state := 2 }, p)
    else if old.audit then
      let p := p.olkCount (COR_OLK_AUD c x.e) 1
      let p := p.olkCount (COR_OLK_AUD_N c x.e) vs.length
      let p := p.olkCount (COR_OLK_AUD_SIG c x.e) cnt
      (false, some { old with state := 2 }, p)
    else (false, none, p.olkCount (COR_OLK_STRAY c x.e) 1)
  else (true, none, p.olkCount (COR_OLK_UNEST c x.e) 1)

/-- The cycles an outlook drain takes (R159), and an ordinary one (R136). -/
def drainCycles (olk : Option OlkEntry) (est : Bool) (old : OlkRec) : Nat :=
  match olk with
  | none => 32
  | some x =>
    if est then 33
    else if old.state = 1 ∧ old.entry = x.e then
      if old.selected then (if x.meter then 66 else 34) else if old.audit then 34 else 33
    else 33

/-- What a drain reads as bias (R103, R127): one value a column.
DEDUCED (log 133, unsafe): Bias mode none adds +0 in the formula of R103, so a word of −0 under scale 1.0 drains as +0. -/
def Part.biasOf (p : Part) (c : Nat) (d : DrainSet) (o : DrainOp) : List Nat :=
  match d.biasMode with
  | 1 => List.replicate 32 d.bias
  | 2 => elems 4 (p.spad c (alignDown 7 o.biasAddr) 128)
  | _ => List.replicate 32 0

/-- The rows of a group converted (R103): element and the value before the final rounding, row by row. -/
def Part.drainRows (p : Part) (c u : Nat) (d : DrainSet) (o : DrainOp) (isInt : Bool) (g : Nat) (bias : List Nat) :
    List (List (Nat × Nat) × Events) :=
  let k := p.core c
  (List.range 32).map fun i =>
    let modes := (List.range 32).map fun j =>
      Mode.ofCode o.mode (if o.mode = 1 then p.coreDraw c j (spGet 0 k.draws j + i) else 0)
    drainRow (p.keep c) isInt d bias o.fmt modes o.sat ((List.range 32).map fun j => k.accWord u g i j)

/-- Every lane takes 32 draws for a drain in SR mode (R103). -/
def Core.drainDraws (k : Core) : Core :=
  { k with draws := (List.range 32).foldl (fun m j => spSet 0 m j (spGet 0 m j + 32)) k.draws }

/-- Pop the head of the finished-tile queue for a drain; a close that waited for the room takes it (R59). -/
def Core.popTile (k : Core) (g : Nat) : Core :=
  let k := { (k.setGroup g { k.group g with st := .draining }) with ftq := k.ftq.drop 1, vq := k.vq.drop 1 }
  match k.closing with
  | g2 :: r => { ({ k with closing := [] }.close g2) with closing := r }
  | [] => k

/-- The estimate rows that a drain reads before it acts on its record (R156, R159): those of a metered selected tile and of an audited
one. -/
def estRows (o : DrainOp) (old : OlkRec) (x : OlkEntry) : List (Nat × Nat) :=
  if old.state = 1 ∧ old.entry = x.e ∧ ((old.selected ∧ x.meter) ∨ (!old.selected ∧ old.audit)) then
    rowRanges o.base o.stride 32 (32 * o.fmt.bytes)
  else []

/-- Start a drain of group `g` (R59, R103, R128, R156): its rows are converted, and written when it finishes. What it writes is
poison where its group, its bias or its record is (R300); poison in the estimate rows is consumed and changes nothing it writes (R161).
DESIGN CHOICE (log 134, unsafe): A full drain that finds its record poisoned takes it as state 0 (R156), and writes its rows as poison carrying the record's token. -/
def Part.startDrain (p : Part) (c : Nat) (o : DrainOp) (g : Nat) (up : Option Upset) : Part :=
  let (u, p) := p.fresh
  let k := p.core c
  let gr := k.group g
  let d := spGet .reset k.psets o.pset
  let bias := p.biasOf c d o
  let olk := (p.outlook c o.head.pair).map (p.olkEntry c)
  let w := o.fmt.bytes
  let recAt := rowAddr o.base o.stride 32
  let pairs := p.drainRows c u d o gr.isInt g bias
  let (rows, hit) := upsetRows up (pairs.map fun r => r.1.map (·.1 % 2 ^ (8 * w)))
  let rows := rows.map fun r => r.map (· % 2 ^ (8 * w))
  let vs := pairs.flatMap fun r => r.1.map (·.2)
  let est := gr.outlook
  let full := olk.isSome && !est
  let recPoison := if full then p.spadPoison c (recAt, recAt + 32) else none
  let old := if recPoison.isSome || !full then ⟨0, 0, false, false, 0, 0, 0⟩ else OlkRec.read (p.spad c recAt 32)
  let reads := (if d.biasMode = 2 then [(alignDown 7 o.biasAddr, alignDown 7 o.biasAddr + 128)] else [])
  let estReads := if full then (olk.map (estRows o old)).getD [] else []
  let met := (gr.poison.toList ++ (p.spadPoisons c reads).toList ++ recPoison.toList).head?
  let seen := if met.isSome then met else p.spadPoisons c estReads
  let ests := (List.range 32).flatMap fun i => elems w (p.spad c (rowAddr o.base o.stride i) (32 * w))
  let (writes, record, p) :=
    match olk with
    | some x => p.outlookDrain c o est x vs ests old
    | none => (true, none, p)
  let dup : DupCap → DupCap := fun q =>
    { q with drain := some o, pset := d, bias := bias, draws := [(List.range 32).map fun j => spGet 0 k.draws j, [p.seed]], rows := rows,
             bytes := q.bytes + 256 + 32 * 32 * w }
  let p := if olk.isSome || met.isSome then p.dupDrop c g else p.dupDrain c g dup
  let evs := pairs.map (·.2)
  let rowWrites := if writes then (List.range 32).flatMap fun i =>
      granPieces (rowAddr o.base o.stride i) (((List.range 32).zip (nth rows i [])).map fun q =>
        (leBytes w q.2, met, if q.1 = 0 then nth evs i .none else .none)) else []
  let recWrites := match record with
    | some r => [SpWrite.mk recAt r.bytes met .none]
    | none => []
  let k := (p.core c).popTile g
  let k := if o.mode = 1 then k.drainDraws else k
  let run : VRun := ⟨.drain o, g, o.reads (d.biasMode == 2) olk.isSome, o.writes olk.isSome, rowWrites ++ recWrites, 32, if writes then .none else joinEvents evs⟩
  let p := p.setCore c { k with vrun := some run }
  let p := p.addPair o.head.pair fun a => { a with vec := a.vec + drainCycles olk est old }
  let p := p.coreResidue c hit o.head fun node => char0Of 12 0x33 7 7 o.mode 0 0 node
  p.consumeIf c o.head.pair seen

/-- DRAIN_START (R59): the drain at the head of the queue pops the finished-tile queue once it has an entry; a content type
that differs, or clip bounds that cross, fault with code 1 (R128). -/
def execDrainStart (core : BitVec 13) (upset : Option Upset) (s : State) : Answer :=
  s.run fun p =>
    let c := core.toNat
    if !p.working then p
    else
      let p := p.modCore c Core.advance
      let k := p.core c
      match k.vrun, k.vq, k.ftq with
      | none, .drain o :: rest, g :: _ =>
        let d := spGet .reset k.psets o.pset
        let olk := (p.outlook c o.head.pair).isSome
        if p.mustWait c o.head.seq (o.reads (d.biasMode == 2) olk) (o.writes olk) then p
        else if o.int != (k.group g).isInt || (d.clip && FVal.lt (FVal.decode .b32 d.hi) (FVal.decode .b32 d.lo)) then
          (p.setCore c { k with vq := rest }).fault c 1 o.head.pc o.head.seq o.head.pair
        else p.startDrain c o g upset
      | _, _, _ => p

/-- Retire the running vector instruction: its bytes are written and its events recorded (R62, R87). -/
def Part.retireVector (p : Part) (c : Nat) (v : VRun) : Part :=
  let p := p.modCore c fun k => { k with vrun := none }
  let p := (p.applyWrites c v.writes).coreEvents c (v.events.join (joinEvents (v.writes.map (·.events))))
  (p.bump (COR_STAT_VEC c) v.cycles).modCore c Core.advance

/-- DRAIN_DONE (R58): the rows are written and the group is free. -/
def execDrainDone (core : BitVec 13) (s : State) : Answer :=
  s.run fun p =>
    let c := core.toNat
    match (p.core c).vrun with
    | some v =>
      match v.op with
      | .drain _ =>
        if !p.live then p
        else (((p.saveCapture c v.group).retireVector c v).modCore c fun k => k.setGroup v.group .reset).dupReady c v.group
      | _ => p
    | none => p

/-- VECTOR_STREAM_START (R126): the stream at the head of the queue starts; an empty slot faults with code 9. -/
def execVectorStreamStart (core : BitVec 13) (upset : Option Upset) (s : State) : Answer :=
  s.run fun p =>
    let c := core.toNat
    if !p.working then p
    else
      let p := p.modCore c Core.advance
      let k := p.core c
      match k.vrun, k.vq with
      | none, .stream o :: rest =>
        let steps := spGet [] k.slots o.slot
        if p.mustWait c o.head.seq (someBytes (o.reads k.vl)) (someBytes (o.writes k.vl)) then p
        else if steps.isEmpty then (p.setCore c { k with vq := rest }).fault c 9 o.head.pc o.head.seq o.head.pair
        else p.startStream c o steps upset
      | _, _ => p

/-- VECTOR_STREAM_DONE (R62): the stream has written its output and retires. -/
def execVectorStreamDone (core : BitVec 13) (s : State) : Answer :=
  s.run fun p =>
    let c := core.toNat
    match (p.core c).vrun with
    | some v =>
      match v.op with
      | .stream _ => if !p.live then p else p.retireVector c v
      | _ => p
    | none => p

end Sys2Proof.Machine
end

