-- ==== Sys2Proof/Machine/FabOps.lean ====
section
/-!
DEFINITION. The operations of the fabric router and links (chapter 11): routes, ports, sending on a bundle, the flag windows, block
assembly and delivery to the units.
-/
namespace Sys2Proof.Machine

/-- The bundle of a port. -/
def portBundle (n : Nat) : Nat := if n < 32 then n / 4 else 8

/-- Port `n`. -/
def Part.port (p : Part) (n : Nat) : Port := spGet .reset p.fab.ports n
/-- Replace port `n`. -/
def Part.setPort (p : Part) (n : Nat) (x : Port) : Part := p.modFab fun f => { f with ports := spSet .reset f.ports n x }
/-- The state of a port (FAB_PSTATUS). -/
def Part.pstate (p : Part) (n : Nat) : Nat := p.getF (FAB_PSTATUS n) 0 4
/-- Set the state of a port. -/
def Part.setPstate (p : Part) (n st : Nat) : Part := p.putF (FAB_PSTATUS n) 0 4 st
/-- Bundle `b`. -/
def Part.bundle (p : Part) (b : Nat) : Bundle := spGet .reset p.fab.bundles b
/-- Replace bundle `b`. -/
def Part.setBundle (p : Part) (b : Nat) (x : Bundle) : Part := p.modFab fun f => { f with bundles := spSet .reset f.bundles b x }

/-- A fabric event that sets bit `i` of FAB_STICKY, with its record. -/
def Part.fabErr (p : Part) (i l0 l1 : Nat) : Part := p.noteErr FAB_STICKY i { mkErr 8 i 0 with loc0 := l0, loc1 := l1 }

/-- The path to a destination: `w` 0 the primary, 4 the alternate; none where it is not valid (R336). -/
def Part.path (p : Part) (d w : Nat) : Option Nat :=
  if p.getB (FAB_RT d (w + 3)) 63 then
    some (p.rd (FAB_RT d w) + p.rd (FAB_RT d (w + 1)) <<< 64 + p.rd (FAB_RT d (w + 2)) <<< 128 +
      (p.rd (FAB_RT d (w + 3)) % 2 ^ 48) <<< 192)
  else none

/-- FAB_ALT marks a destination (R348). -/
def Part.alt (p : Part) (d : Nat) : Bool := p.getB (FAB_ALT (d / 64)) (d % 64)

/-- The path a packet to `d` is given (R337). -/
def Part.route (p : Part) (d : Nat) : Option Nat :=
  match (if p.alt d then p.path d 4 else none) with
  | some r => some r
  | none => p.path d 0

/-- The change of a coordinate that a hop makes (R326, R333): its dimension, and whether it goes up. -/
def hopDim (code : Nat) : Nat × Bool := ((code - 1) / 2, (code - 1) % 2 == 0)

/-- A hop from this part crosses its dimension's wrap link (R327). -/
def Part.crosses (p : Part) (code : Nat) : Bool :=
  let (d, up) := hopDim code
  let c := fld p.chip (4 * d) 4
  if up then c == fld p.fab.topoInForce (4 * d) 4 else c == 0

/-- The virtual channel of a packet on its first link (R336). -/
def Part.firstVc (p : Part) (code : Nat) : Nat := b2n (p.crosses code)

/-- The virtual channel on the next link of a packet that came by port `n` on channel `vc` (R336): 2 × leg + w. A lower dimension begins
a leg; w stays 1 to the end of the run that crossed its wrap link. -/
def Part.nextVc (p : Part) (n vc code : Nat) : Nat :=
  let (d, up) := hopDim code
  let (e, was) := hopDim ((portBundle n ^^^ 1) + 1)
  2 * (if d < e then 1 else vc / 2) + b2n (p.crosses code || (d == e && up == was && vc % 2 == 1))

/-- The header of R332. -/
def packetHeader (q : Packet) : List Byte :=
  leBytes 30 q.route ++ leBytes 2 q.src ++ leBytes 2 q.dst ++ leBytes 1 (q.epoch <<< 4 + q.cls) ++ leBytes 1 (q.payload.length / 32) ++
    leBytes 1 q.window ++ leBytes 3 (q.kind <<< 20 + q.ref) ++ leBytes 8 q.poison

/-- The packet that the bytes of a header and its payload spell (R332); none where bit 7 of byte 35 is set, or the payload is not of the
length given. -/
def readPacket (bs : List Byte) : Option Packet :=
  let len := leAt bs 35 1
  if bs.length ≠ 48 + 32 * len ∨ len ≥ 128 then none
  else
    some { route := leAt bs 0 30, src := leAt bs 30 2, dst := leAt bs 32 2, epoch := leAt bs 34 1 / 16, cls := leAt bs 34 1 % 16,
           window := leAt bs 36 1, kind := leAt bs 37 3 / 2 ^ 20, ref := leAt bs 37 3 % 2 ^ 20, poison := leAt bs 40 8,
           payload := bs.drop 48 }

/-- A packet with its header, in credits of 16 bytes (R340). -/
def packetUnits (q : Packet) : Nat := ((packetHeader q).length + q.payload.length) / 16

/-- Credits reserved for each virtual channel of a class: one packet of its largest size (R340). -/
def reservedUnits (c : Nat) : Nat :=
  match c with
  | 0 => 19
  | 1 => 131
  | 2 => 131
  | 3 => 11
  | 4 => 7
  | _ => 0

/-- Credits a class and virtual channel of a port's neighbour holds for packets not acknowledged. -/
def Port.usedBy (x : Port) (c vc : Nat) : Nat :=
  ((x.replay.filter fun e => e.pkt.cls == c && e.vc == vc).map fun e => packetUnits e.pkt).foldl (· + ·) 0

/-- The credit free at a port for a class and virtual channel (R338, R340): what is left of its reserve and of the 900 shared credits;
at a twin port, of all 2,096.
DEDUCED (log 157, unsafe): A packet's credits are out from when it is sent until it is acknowledged: no other sign of a return is described. -/
def Port.credit (x : Port) (twin : Bool) (c vc : Nat) : Nat :=
  if twin then 2096 - (x.replay.map fun e => packetUnits e.pkt).foldl (· + ·) 0
  else
    let shared := ((List.range 5).flatMap fun c => (List.range 4).map fun v => x.usedBy c v - reservedUnits c).foldl (· + ·) 0
    (reservedUnits c - x.usedBy c vc) + (900 - shared)

/-- The up port of a bundle that a packet takes (R338): the one with the most free credit for its class and virtual channel, the lowest
on a tie; none while no port that is up has the credit for it and a place in its replay buffer (R344).
DEDUCED (log 66, unsafe): A port with less credit than the packet needs, or with 16 packets unacknowledged, is not a choice. -/
def Part.outPort (p : Part) (b vc : Nat) (q : Packet) : Option Nat :=
  let credit (n : Nat) : Nat := (p.port n).credit (n ≥ 32) q.cls vc
  let up := (bundlePorts b).filter fun n => p.portRuns n && (p.port n).replay.length < 16 && packetUnits q ≤ credit n
  let most := (up.map credit).foldl max 0
  up.find? fun n => credit n == most

/-- Put a packet on a port (R344): under the next sequence number of its bundle, or, sent before on a port that failed, under its own. -/
def Part.putOnPort (p : Part) (n : Nat) (w : Waiting) : Part :=
  let b := portBundle n
  let x := p.port n
  match w.seq with
  | some k => (p.setPort n { x with replay := x.replay ++ [⟨k, w.vc, 0, w.pkt⟩] }).bump (FAB_PSTAT_RETRY n) 1
  | none =>
    let k := (p.bundle b).tx
    let p := p.setBundle b { p.bundle b with tx := (k + 1) % 4096 }
    (p.setPort n { x with replay := x.replay ++ [⟨k, w.vc, 0, w.pkt⟩] }).bump (FAB_PSTAT_TX n) 1

/-- A packet waits for its bundle behind the ones that came before it (R340). -/
def Part.queueFor (p : Part) (w : Waiting) : Part := p.modFab fun f => { f with fwd := f.fwd ++ [w] }

/-- Send a packet on its bundle (R338, R340): discarded where no port of it is up; else on a port, or behind those that wait.
DESIGN CHOICE (log 65, unsafe): Packets of all classes, injected and in transit, leave a bundle in one order. -/
def Part.sendWaiting (p : Part) (w : Waiting) : Part :=
  if !p.bundleUp w.bundle then (p.bump FAB_STAT_DROP 1).fabErr 3 w.bundle w.pkt.dst
  else if p.fab.fwd.any (·.bundle == w.bundle) then p.queueFor w
  else
    match p.outPort w.bundle w.vc w.pkt with
    | some n => p.putOnPort n w
    | none => p.queueFor w

/-- Send a packet on a bundle and virtual channel. -/
def Part.sendOn (p : Part) (b vc : Nat) (q : Packet) : Part := p.sendWaiting ⟨b, vc, none, q⟩

/-- Packets that wait for a bundle go on while it has room; they are discarded once no port of it is up (R338). -/
def Part.drainFwd (p : Part) (b : Nat) : Part :=
  let mine := p.fab.fwd.filter fun e => e.bundle == b
  let p := p.modFab fun f => { f with fwd := f.fwd.filter fun e => e.bundle != b }
  p.each mine Part.sendWaiting

/-- Take one of the parents a stage picked (R351): the bundle of least latency, the lowest on a tie. -/
def bestProbe (l : Sparse (Nat × Nat)) : Option (Nat × Nat × Nat) :=
  l.foldl
    (fun (b : Option (Nat × Nat × Nat)) e =>
      match b with
      | none => some e
      | some x => if e.2.1 < x.2.1 then some e else some x) none

/-- In token mode the part sets its own delay compensation (R19). -/
def Part.setDelayComp (p : Part) : Part :=
  if p.getB TIK_CTRL 1 then p.wr TIK_DELAY_COMP (p.rd TIK_LEAD - p.rd TIK_TOKEN_LAT) else p

/-- The parent bundles of a wave of probes, nearest first; 15 none (R351). -/
def probeParents (l : Sparse (Nat × Nat)) : Nat × Nat :=
  match bestProbe l with
  | none => (15, 15)
  | some (b, _, _) =>
    match bestProbe (l.filter fun e => e.1 != b) with
    | none => (b, 15)
    | some (b2, _, _) => (b, b2)

/-- The parents toward the tick master or, for the standby's messages, toward the standby.
DEDUCED (log 70, unsafe): A part with a tick-path parent takes tokens only from its parent bundle; one sent by the standby from the standby's parent. -/
def Part.parents (p : Part) (standby : Bool) : Nat × Nat :=
  if standby then probeParents p.fab.probesStandby else (p.getF FAB_TREE 8 4, p.getF FAB_TREE 12 4)

/-- The latency of R351 by way of a bundle. -/
def latVia (l : Sparse (Nat × Nat)) (b : Nat) : Nat :=
  match l.find? fun e => e.1 == b with
  | some e => min (40 + e.2.1) 65535
  | none => 40

/-- The bundle that messages of the tick master's tree, or of the standby's, are taken from (R352). -/
def Part.parent (p : Part) (standby : Bool) : Nat :=
  let (b1, b2) := p.parents standby
  if (if standby then p.fab.reroutedS else p.fab.rerouted) then b2 else b1

/-- Load the latency of the tree that is followed, by the parent in use (R35, R351, R352). -/
def Part.loadLat (p : Part) : Part :=
  let st := p.fab.standbyTree
  (p.wr TIK_TOKEN_LAT (latVia (if st then p.fab.probesStandby else p.fab.probes) (p.parent st))).setDelayComp

/-- The parent bundle has gone down (R352): the second parent takes its place at once, until the next graft load rebuilds the tree. The
latency loaded is that of the tree that is followed. -/
def Part.reroute (p : Part) (standby : Bool) : Part :=
  let done := if standby then p.fab.reroutedS else p.fab.rerouted
  let (b1, b2) := p.parents standby
  if done || b1 ≥ 8 || b2 ≥ 8 || p.bundleUp b1 then p
  else
    let p := p.modFab fun f => if standby then { f with reroutedS := true } else { f with rerouted := true }
    if standby == p.fab.standbyTree then p.loadLat.putB TIK_STICKY 5 true else p

/-- A port no longer carries packets: what waits for its bundle is discarded if no other port of it is up (R338), and a parent bundle
that is down gives way to the second parent (R352). -/
def Part.portLost (p : Part) (n : Nat) : Part :=
  let p := if p.bundleUp (portBundle n) then p else p.drainFwd (portBundle n)
  (p.reroute false).reroute true

/-- A control message by bundle `b` (R350): nothing where it is the second copy of one that was used; else it is used, and the second
copy of a first copy will be dropped. -/
def Part.takeCtl (p : Part) (b : Nat) (h : CtlHead) (m : CtlMsg) : Option Part :=
  let mark (x : Option CtlMsg) : Part := p.modFab fun f => { f with firstCopy := spSet none f.firstCopy b x }
  if h.second && spGet none p.fab.firstCopy b == some m then none else some (mark (if h.second then none else some m))

/-- The correction a control message is forwarded with (R350): the second copy came 4 cycles after the first. -/
def passOn (h : CtlHead) : Nat := h.corr + (if h.second then 4 else 0)

/-- The time a control message that is used now came at (R350): its physical arrival minus the correction. -/
def Part.ctlTime (p : Part) (h : CtlHead) : Nat := p.cycle - passOn h

/-- A packet of the classes that flag windows count (R334, R342). -/
def countedCls (q : Packet) : Bool := q.cls ≤ 4 && !(q.cls == 3 && (q.kind == 6 || q.kind == 7))
/-- A flagged packet that R342 orders. -/
def flagged (q : Packet) : Bool := q.cls == 3 && q.kind != 6 && q.kind != 7

/-- The largest payload of a class (R334). -/
def classMax (c : Nat) : Nat :=
  match c with
  | 0 => 256
  | 3 => 128
  | 4 => 64
  | _ => 2048

/-- A kind that a class assigns (R334, R369, R374, R375). -/
def kindOk (c k : Nat) : Bool :=
  match c with
  | 0 => k ≤ 4
  | 1 => k ≤ 8
  | 2 => k ≤ 6
  | 3 => k ≤ 10 || k == 15
  | 4 => k == 0
  | 5 => k ≤ 8
  | _ => false

/-- A packet a destination discards (R333, R334). -/
def badPacket (q : Packet) : Bool := !(kindOk q.cls q.kind) || q.payload.length > classMax q.cls || q.payload.length % 32 != 0

/-- Packets that guard does not hold back (R25, R28, R44, R342, R348, R380): statuses, stretches, holds, releases, notices and
declarations, the acknowledgements of flags, loss notices, and what twins exchange in pairing and restore. -/
def ctlPlane (q : Packet) : Bool :=
  (q.cls == 3 && [4, 5, 6, 7, 9, 10].contains q.kind) || (q.cls == 1 && (q.kind == 6 || q.kind == 7)) || (q.cls == 5 && q.kind ≥ 5)

/-- Work of a failed frame that guard discards (R28). -/
def Part.dropsWork (p : Part) (q : Packet) : Bool := p.phase == 3 && p.tick.guardDone && p.tick.cause != 0 && !(ctlPlane q)

/-- Hand a delivered packet to its unit: a signal, a decrement and a forward act at once, any other waits for its unit's step. Work of a failed frame is discarded in guard. -/
def Part.hand (p : Part) (q : Packet) : Part :=
  let keep (p : Part) : Part := p.modFab fun f => { f with rx := f.rx ++ [q] }
  if p.dropsWork q then p
  else if q.cls = 3 then
    match q.kind with
    | 0 => p.signalIn (leAt q.payload 4 4) (leAt q.payload 0 2) (leAt q.payload 2 2 % 32)
    | 1 => let d := leAt q.payload 0 4; p.decDc (leAt q.payload 4 4) (fld d 14 2) (d % 16384)
    | 2 => p.submitLocal .forward (leAt q.payload 64 2) (dTag (q.payload.take 64)) (q.payload.take 64) false
    | 8 => p
    | 15 => p
    | _ => keep p
  else keep p

/-- The open block a segment belongs to (R334). -/
def OpenBlock.is (b : OpenBlock) (q : Packet) : Bool := b.src == q.src && b.kind == q.kind && b.block == fld q.ref 12 8

/-- A segment of a posted block arrives (R334): the unit sees the block once it is whole. -/
def Part.segment (p : Part) (q : Packet) : Part :=
  let i := fld q.ref 6 6
  let fresh : OpenBlock := ⟨q.src, q.kind, fld q.ref 12 8, q.ref % 64 + 1, [], []⟩
  let b := (p.fab.blocks.find? fun b => b.is q).getD fresh
  let b := { b with segs := spSet [] b.segs i q.payload, poison := spSet 0 b.poison i q.poison }
  let p := p.modFab fun f => { f with blocks := f.blocks.filter fun b => !(b.is q) }
  if b.segs.length < b.total then p.modFab fun f => { f with blocks := f.blocks ++ [b] }
  else
    let idx := List.range b.total
    let poison := idx.foldl (fun a k => a + (spGet 0 b.poison k) <<< (64 * k)) 0
    p.hand { q with poison := poison, payload := idx.flatMap fun k => spGet [] b.segs k }

/-- Flagged packets in the hold buffer (FAB_FLAG). -/
def Part.heldFlags (p : Part) : Nat := (p.fab.rxWin.map fun e => e.2.held.length).foldl (· + ·) 0

/-- Put a flagged packet into the hold buffer. -/
def Part.holdFlag (p : Part) (q : Packet) : Part :=
  let w := spGet .reset p.fab.rxWin q.src
  let p := p.modFab fun f => { f with rxWin := spSet .reset f.rxWin q.src { w with held := w.held ++ [q] } }
  p.peak FAB_STAT_HOLDPEAK p.heldFlags

/-- The hold buffer has room again: the oldest packets that wait in their input buffers move into it (R343). -/
def Part.refillHold (p : Part) : Part :=
  let n := 4096 - p.heldFlags
  let l := p.fab.waitIn.take n
  (p.modFab fun f => { f with waitIn := f.waitIn.drop n }).each l Part.holdFlag

/-- A flagged packet's turn has come (R342): its window is the next of its source, and all its counted packets have arrived. -/
def Part.flagDue (p : Part) (q : Packet) : Bool :=
  let w := spGet .reset p.fab.rxWin q.src
  q.window == w.next % 256 && q.ref == spGet 0 w.arrived (w.next % 8)

/-- Deliver a flagged packet (R342): its slot is free, and its acknowledgement goes to the source. -/
def Part.deliverFlag (p : Part) (q : Packet) : Part :=
  let w := spGet .reset p.fab.rxWin q.src
  let w := { w with next := w.next + 1, arrived := spSet 0 w.arrived (w.next % 8) 0 }
  let p := p.modFab fun f => { f with rxWin := spSet .reset f.rxWin q.src w }
  (p.hand q).sendPacket q.src 1 6 q.window 0 []

/-- Deliver the flagged packets of a source whose turn has come (R342), held or waiting in an input buffer (`fuel` windows). -/
def Part.deliverFlags (fuel : Nat) (p : Part) (src : Nat) : Part :=
  match fuel with
  | 0 => p
  | fuel + 1 =>
    let w := spGet .reset p.fab.rxWin src
    match w.held.find? p.flagDue with
    | some q =>
      let p := p.modFab fun f => { f with rxWin := spSet .reset f.rxWin src { w with held := w.held.erase q } }
      Part.deliverFlags fuel ((p.deliverFlag q).refillHold) src
    | none =>
      match p.fab.waitIn.find? fun q => q.src == src && p.flagDue q with
      | none => p
      | some q =>
        let p := p.modFab fun f => { f with waitIn := f.waitIn.erase q }
        Part.deliverFlags fuel (p.deliverFlag q) src

/-- A flagged packet arrives (R342, R343): delivered if its turn has come; else it takes a place of the hold buffer's 4,096, or waits in
its input buffer. -/
def Part.flagArrives (p : Part) (q : Packet) : Part :=
  if p.flagDue q then Part.deliverFlags 16 (p.deliverFlag q) q.src
  else if p.heldFlags < 4096 then p.holdFlag q
  else (p.modFab fun f => { f with waitIn := f.waitIn ++ [q] }).fabErr 9 q.src 0

/-- The hash of a counted packet (R511). -/
def packetHash (q : Packet) : Nat :=
  let w0 := q.src + q.dst <<< 16 + q.cls <<< 32 + q.window <<< 36 + q.ref <<< 44
  let w (i : Nat) : Dword := BitVec.ofNat 64 (leAt q.payload (8 * i) 8)
  (mix64 (BitVec.ofNat 64 w0 ^^^ mix64 (w 0 ^^^ mix64 (w 1 ^^^ mix64 (w 2 ^^^ mix64 (w 3)))))).toNat % 2 ^ 32

/-- Log a counted packet whose hash samples it (R511): `kind` 5 at injection, 6 at ejection. -/
def Part.samplePacket (p : Part) (kind peer : Nat) (q : Packet) : Part :=
  let t := p.getF OBS_CTRL 16 5
  let h := packetHash q
  if countedCls q && 4 ≤ t && t ≤ 20 && h % 2 ^ t == 0 then (p.bump OBS_STAT_TS 1).trace 4 kind 0 0xFFFF (h + peer <<< 32) q.window
  else p

/-- What the registers of R374 hold on a part, digested: the RWT registers of TBL_T, OPT_ and COR_SEED. -/
def Part.pairDigest (p : Part) : List Byte :=
  let mine (off : Nat) : Bool :=
    let o := (off - 0x2000000) % 0x800000
    0x2000000 ≤ off && ((0x490000 ≤ o && o < 0x4A0000) || (0x500000 ≤ o && o < 0x520000) || o == 0x200000) &&
      (match regAt off with
       | some r => r.rwt != 0
       | none => false)
  sha256 ((p.regs.filter fun e => mine e.1).flatMap fun e => leBytes 8 e.1 ++ leBytes 8 e.2.toNat)

/-- The window list of this part, 16 bytes a window (R373). -/
def Part.winBytes (p : Part) : List Byte :=
  (List.range 16).flatMap fun w => leBytes 8 (p.rd (TWN_WIN_BASE w)) ++ leBytes 8 (p.rd (TWN_WIN_MIR w))

/-- Send the pairing packet of the registers that `c` holds (R374), for the transaction at tick `t` or for a graft load (0). -/
def Part.sendPairing (p c : Part) (t : Nat) : Part :=
  p.sendPacket (c.getF TWN_CTRL 16 16) 5 8 (t % 2 ^ 20) 0 (c.winBytes ++ c.pairDigest)

/-- The twin has found a fault in the pairing after this part's graft load was complete: it fails here too (R374). -/
def Part.pairRefused (p : Part) : Part :=
  if p.getB TIK_GRAFT_STATUS 1 && !p.running then (p.stick TWN_STICKY 4).putB TIK_GRAFT_STATUS 1 false else p

/-- A packet of another part is ejected here (R342, R343); a carrying twin answers a pairing packet with its own (R382). -/
def Part.eject (p : Part) (q : Packet) : Part :=
  let p := (p.bump FAB_STAT_EJ 1).samplePacket 6 q.src q
  let pairing : Bool := q.cls == 5 && q.kind == 8
  let p := if pairing && q.payload.length < 288 then p.pairRefused else p
  let p := if pairing && p.getF TWN_STATUS 0 3 == 2 then p.sendPairing p 0 else p
  if flagged q then p.flagArrives q
  else if countedCls q then
    let w := spGet .reset p.fab.rxWin q.src
    let slot := q.window % 8
    let w := { w with arrived := spSet 0 w.arrived slot (spGet 0 w.arrived slot + 1) }
    let p := p.modFab fun f => { f with rxWin := spSet .reset f.rxWin q.src w }
    let p := if q.cls = 2 then p.segment q else p.hand q
    Part.deliverFlags 16 p q.src
  else p.hand q

end Sys2Proof.Machine
end

