-- ==== Sys2Proof/Machine/TableOps.lean ====
section
/-!
DEFINITION. Embedding tables (R225 to R236), the row cache (R240 to R244) and the bitmaps of a versioned table (R246 to
R248).
-/
namespace Sys2Proof.Machine

/-- A table as its registers describe it (R225, R256), as held by part `me`: this part, or the partner whose mirror this part
holds, with the windows its addresses go through (R375). -/
structure Tbl where
  me : Nat
  wins : List MirWin
  t : Nat
  valid : Bool
  versioned : Bool
  mode : Nat
  tiered : Bool
  cur0 : Nat
  dim : Nat
  base0 : Nat
  base1 : Nat
  dir : Nat
  rows : Nat
  subrows : Nat
  slots0 : Nat
  slots1 : Nat
  map : Nat
  dflt : Nat
  deriving DecidableEq, Repr

/-- Table `t`; the four sectors hold the same description. -/
def Part.tbl (p : Part) (t : Nat) : Tbl :=
  let c := p.rd (TBL_TCFG 0 t)
  { me := p.chip, wins := [], t := t, valid := bit c 0, versioned := bit c 1, mode := fld c 2 2, tiered := bit c 4, cur0 := fld c 5 1,
    dim := 16 * fld c 16 7, base0 := p.getF (TBL_TBASE0 0 t) 0 40, base1 := p.getF (TBL_TBASE1 0 t) 0 40,
    dir := p.getF (TBL_TDIR 0 t) 0 40, rows := p.getF (TBL_TSIZE 0 t) 0 32, subrows := p.getF (TBL_TSIZE 0 t) 40 24,
    slots0 := p.getF (TBL_TSLOTS 0 t) 0 32, slots1 := p.getF (TBL_TSLOTS 0 t) 32 32, map := p.rd (TBL_TMAP 0 t),
    dflt := p.getF (TBL_TDEF 0 t) 0 40 }

/-- The partner's table `t`, whose mirror this part holds (R374, R375): the registers of the two parts agree. -/
def Part.mirTbl (p : Part) (t : Nat) : Tbl := { p.tbl t with me := p.getF TWN_CTRL 16 16, wins := p.twin.partner }

/-- A partner's address in the mirror area here (R373). -/
def mirAt (wins : List MirWin) (a : Nat) : Nat :=
  match wins.find? fun w => w.base ≤ a && a < w.base + 4096 * w.granules with
  | some w => w.mirror + (a - w.base)
  | none => a

/-- Where an address of the table's owner lies in this part's memory. -/
def Tbl.at (T : Tbl) (a : Nat) : Nat := mirAt T.wins a

/-- Bytes of a tier-0 row (R233). -/
def Tbl.w0 (T : Tbl) : Nat := 2 * T.dim
/-- Bytes of a tier-1 row. -/
def Tbl.w1 (T : Tbl) : Nat := ceilDiv T.dim 32 * 32
/-- A size padded to a multiple of 64. -/
def pad64 (n : Nat) : Nat := ceilDiv n 64 * 64
/-- Offsets of the parts of a copy (R233). -/
def Tbl.o1 (T : Tbl) : Nat := T.w0 * T.slots0
def Tbl.o1s (T : Tbl) : Nat := T.o1 + T.w1 * T.slots1
def Tbl.oA (T : Tbl) : Nat := T.o1s + pad64 (4 * T.slots1)
def Tbl.oAs (T : Tbl) : Nat := T.oA + T.w1 * T.subrows
def Tbl.oB (T : Tbl) : Nat := T.oAs + pad64 (4 * T.subrows)
def Tbl.oBs (T : Tbl) : Nat := T.oB + T.w1 * T.subrows
/-- Bytes of a whole copy. -/
def Tbl.size (T : Tbl) : Nat := T.oBs + pad64 (4 * T.subrows)

/-- The base of copy `c`. -/
def Tbl.base (T : Tbl) (c : Nat) : Nat := if c = 0 then T.base0 else T.base1
/-- The current copy (R245). -/
def Part.curCopy (p : Part) (T : Tbl) : Nat := if T.versioned then (p.rd TIK_VINTAGE % 2 + T.cur0) % 2 else 0
/-- The copy that learning writes (R245). -/
def Part.nextCopy (p : Part) (T : Tbl) : Nat := if T.versioned then 1 - p.curCopy T else 0

/-- Rows per shard of mode 2. -/
def Tbl.rps (T : Tbl) : Nat := fld T.map 32 32
/-- Extent `i` of the sub-torus of mode 2 (R228). -/
def Tbl.ext (T : Tbl) (i : Nat) : Nat := fld T.map (4 * i) 4 + 1
/-- Coordinate `i` of the origin of mode 2. -/
def Tbl.origin (T : Tbl) (i : Nat) : Nat := fld T.map (16 + 4 * i) 4

/-- The chip that owns shard `s` of mode 2 (R228). -/
def Tbl.shardChip (T : Tbl) (s : Nat) : Nat :=
  let c0 := s % T.ext 0
  let c1 := s / T.ext 0 % T.ext 1
  let c2 := s / (T.ext 0 * T.ext 1) % T.ext 2
  let c3 := s / (T.ext 0 * T.ext 1 * T.ext 2)
  (T.origin 0 + c0) % 16 + 16 * ((T.origin 1 + c1) % 16) + 256 * ((T.origin 2 + c2) % 16) + 4096 * ((T.origin 3 + c3) % 16)

/-- The map of a mode-3 table: owner and first key of each shard (R229). -/
def Part.tmap (p : Part) (T : Tbl) : List (Nat × Nat) := spGet [] p.txn.mapStore T.t

/-- The owner and the local row of a valid key (R227 to R229). -/
def Part.place (p : Part) (T : Tbl) (k : Nat) : Nat × Nat :=
  match T.mode with
  | 2 => if T.rps = 0 then (T.me, k) else (T.shardChip (k / T.rps), k % T.rps)
  | 3 =>
    let e := ((p.tmap T).filter fun e => e.2 ≤ k).getLast?.getD (T.me, 0)
    (e.1, k - e.2)
  | _ => (T.me, k)

/-- The shards of mode 2 this part may own: the largest number of local rows of one (R228). -/
def Tbl.shardRows (T : Tbl) : Nat :=
  let n := T.ext 0 * T.ext 1 * T.ext 2 * T.ext 3
  match (List.range n).find? fun s => T.shardChip s == T.me with
  | some s => min T.rps (T.rows - s * T.rps)
  | none => 0

/-- The rows of a table held on this part (R227 to R229). -/
def Part.localRows (p : Part) (T : Tbl) : Nat :=
  match T.mode with
  | 2 => T.shardRows
  | 3 =>
    let m := p.tmap T
    ((List.range m.length).map fun i =>
      let e := nth m i (0, 0)
      if e.1 = T.me then (nth m (i + 1) (0, T.rows)).2 - e.2 else 0).foldl (· + ·) 0
  | _ => T.rows

/-- Where the stored row of a directory entry lies: tier 0, 1 or 2 with its slot, or missing (R231). -/
inductive Tier where
  | full (slot : Nat)
  | scaled (slot : Nat)
  | composed
  | missing (bad : Bool)
  deriving DecidableEq, Repr

/-- A directory entry read as a tier (R231, R232). -/
def Tbl.tierOf (T : Tbl) (w : Nat) : Tier :=
  let slot := fld w 0 30
  match fld w 30 2 with
  | 0 => if slot < T.slots0 then .full slot else .missing true
  | 1 => if slot < T.slots1 then .scaled slot else .missing true
  | 2 => if T.subrows = 0 then .missing true else .composed
  | _ => .missing false

/-- The sub-table rows of a composed row (R234). -/
def Tbl.hashRows (T : Tbl) (r : Nat) : Nat × Nat :=
  let z := (mix64 (BitVec.ofNat 64 r)).toNat
  ((fld z 32 32 * T.subrows) >>> 32, (fld z 0 32 * T.subrows) >>> 32)

/-- A row as it was read: its T16 bytes, the poison it carries, the local ranges it came from, and whether it is the
default row of a missing key. -/
structure RowRead where
  bytes : List Byte
  poison : Option Nat
  src : List (Nat × Nat)
  missing : Bool
  events : Events
  deriving DecidableEq, Repr

/-- One decoded element of a sum of scaled elements (R234). -/
def decodeElem (keep : Bool) (terms : List (Nat × Nat)) : Nat × Events :=
  let r := terms.foldl
    (fun (q : Option FVal × Events) t =>
      let (s, e1) := readF keep .b32 t.1
      let (a, e2) := readF keep .t8e t.2
      let (m, i1) := s.mul a
      let (v, i2) := match q.1 with
        | none => (m, false)
        | some x => x.add m
      (some v, ((q.2.join e1).join e2).join ((invalidIf i1).join (invalidIf i2))))
    (none, Events.none)
  let (y, e) := roundTo .t16 .rne true (!keep) (FVal.decode .b32 (rtoB32 (r.1.getD (.fin false 0 0))))
  (y, r.2.join e)

/-- Read the row and the scale of a tier-1 or sub-table entry: elements, scale, poison and ranges. -/
def Part.readScaled (p : Part) (agent pair : Nat) (T : Tbl) (rowAt scaleAt : Nat) :
    (List Nat × Nat × Option Nat × List (Nat × Nat)) × Part :=
  let ((bs, t1), p) := p.load agent pair (T.at rowAt) T.w1
  let ((s, t2), p) := p.loadN agent pair (T.at scaleAt) 4
  (((bs.take T.dim).map (·.toNat), s, if t1.isSome then t1 else t2, [(rowAt, rowAt + T.w1), (scaleAt, scaleAt + 4)]), p)

/-- The default row of a table (R235). -/
def Part.defaultRow (p : Part) (agent pair : Nat) (T : Tbl) : RowRead × Part :=
  let ((bs, t), p) := p.load agent pair T.dflt T.w0
  (⟨bs, t, [], true, .none⟩, p)

/-- The tier of local row `r` (R231), with the poison of its directory entry. -/
def Part.tierRow (p : Part) (agent pair : Nat) (T : Tbl) (r : Nat) : (Tier × Option Nat) × Part :=
  if !T.tiered then ((if r < T.slots0 then .full r else .missing true, none), p)
  else
    let ((w, t), p) := p.loadN agent pair (T.at (T.dir + 4 * r)) 4
    ((T.tierOf w, t), p)

/-- TBL_CTRL.sub_keep of a sector (R234). -/
def Part.tblKeep (p : Part) (s : Nat) : Bool := p.getB (TBL_CTRL s) 1

/-- Read and decode local row `r` from copy `c` (R231, R233, R234); a missing row gives the default row, counted in
sector `s`. -/
def Part.readRow (p : Part) (s agent pair : Nat) (T : Tbl) (c r : Nat) : RowRead × Part :=
  let ((tier, dirPoison), p) := p.tierRow agent pair T r
  let base := T.base c
  let keep := p.tblKeep s
  match dirPoison with
  | some t => (⟨tokenBytes t ++ List.replicate (T.w0 - 32) 0, some t, [], false, .none⟩, p)
  | none =>
    match tier with
    | .full slot =>
      let a := base + T.w0 * slot
      let ((bs, t), p) := p.load agent pair a T.w0
      (⟨bs, t, [(a, a + T.w0)], false, .none⟩, p)
    | .scaled slot =>
      let ((els, sc, t, src), p) := p.readScaled agent pair T (base + T.o1 + T.w1 * slot) (base + T.o1s + 4 * slot)
      let (vs, e) := mapEv (fun x => decodeElem keep [(sc, x)]) els
      (⟨vs.flatMap (leBytes 2), t, src, false, e⟩, p)
    | .composed =>
      let (ha, hb) := T.hashRows r
      let ((ea, sa, ta, ra), p) := p.readScaled agent pair T (base + T.oA + T.w1 * ha) (base + T.oAs + 4 * ha)
      let ((eb, sb, tb, rb), p) := p.readScaled agent pair T (base + T.oB + T.w1 * hb) (base + T.oBs + 4 * hb)
      let (vs, e) := mapEv (fun x : Nat × Nat => decodeElem keep [(sa, x.1), (sb, x.2)]) (ea.zip eb)
      (⟨vs.flatMap (leBytes 2), if ta.isSome then ta else tb, ra ++ rb, false, e⟩, p)
    | .missing bad =>
      let p := p.bump (TBL_TSTAT_MISS s T.t) 1
      let p := if bad then p.noteErr (TBL_STICKY s) 3 { mkErr 3 3 0 with sector := s, pair := pair, loc0 := T.t, loc1 := r } else p
      p.defaultRow agent pair T

/-- A table unit event that says a row was poisoned (R236). -/
def Part.tblPoison (p : Part) (s pair t key token : Nat) : Part :=
  p.noteErr (TBL_STICKY s) 2
    { mkErr 3 2 0 with sector := s, pair := pair, aux := tokenOrigin token, char0 := 4, loc0 := t, loc1 := key }

/-- Record the events of table arithmetic in a sector (R234). -/
def Part.tblEvents (p : Part) (s : Nat) (e : Events) : Part :=
  (p.events (TBL_FMT_STICKY s) e).bump (TBL_STAT_FLUSH s) e.flushes

/-- Segments of a row in the row cache (R240). -/
def Tbl.segs (T : Tbl) : Nat := ceilDiv T.w0 256

/-- The set of a segment (R240). -/
def rcSet (t owner key seg : Nat) : Nat :=
  (fld (mix64 (BitVec.ofNat 64 ((t <<< 56) ||| (owner <<< 40) ||| (key <<< 3) ||| seg))).toNat 32 32 * 12288) >>> 32

/-- The vintage tag of a table's entries (R241). -/
def Part.rcVintage (p : Part) (T : Tbl) : Nat := if T.versioned then p.rd TIK_VINTAGE else 0xFFFFFFFF

/-- The row cache of a sector works (R256). -/
def Part.rcOn (p : Part) (s : Nat) : Bool := p.getB (TBL_RC_CFG s) 8

/-- The slot of the row cache that holds a segment, if one matches (R241). -/
def Part.rcFind (p : Part) (s : Nat) (T : Tbl) (owner key seg : Nat) : Option Nat :=
  ((List.range 16).map fun w => 16 * rcSet T.t owner key seg + w).find? fun i =>
    let e := spGet .empty (p.unit s).rc i
    e.valid && e.table == T.t && e.owner == owner && e.key == key && e.seg == seg && e.vintage == p.rcVintage T

/-- Look a row up: all of its segments must match; each lookup counts toward the halving and each match adds to the
entry's frequency (R241, R242). -/
def Part.rcLookup (p : Part) (s : Nat) (T : Tbl) (owner key : Nat) : Option (List Byte) × Part :=
  if !p.rcOn s then (none, p)
  else
    let hits := (List.range T.segs).map fun g => p.rcFind s T owner key g
    let p := p.modUnit s fun u =>
      { u with rcLookups := u.rcLookups + T.segs,
               rc := hits.foldl (fun m h => match h with
                 | some i => let e := spGet .empty m i; spSet .empty m i { e with freq := satAdd 255 e.freq 1 }
                 | none => m) u.rc }
    if hits.all (·.isSome) then
      (some ((hits.flatMap fun h => (spGet .empty (p.unit s).rc (h.getD 0)).bytes).take T.w0), p)
    else (none, p)

/-- The way a fill takes (R242): an invalid one, one of an old vintage, else the least frequent; the lowest on a tie. -/
def Part.rcVictim (p : Part) (s set : Nat) : Nat :=
  let ways := (List.range 16).map fun w => (16 * set + w, spGet .empty (p.unit s).rc (16 * set + w))
  let old (e : RcEntry) : Bool := e.vintage != 0xFFFFFFFF && e.vintage != p.rd TIK_VINTAGE
  match ways.find? fun q => !q.2.valid with
  | some q => q.1
  | none =>
    match ways.find? fun q => old q.2 with
    | some q => q.1
    | none =>
      let least := minList (ways.map (·.2.freq))
      ((ways.find? fun q => q.2.freq == least).map (·.1)).getD (16 * set)

/-- The bytes outside its stored form that placed a row: its directory entry, where this part holds it, and the map (R229, R231, R252). -/
def Part.placedBy (p : Part) (T : Tbl) (owner key : Nat) : List (Nat × Nat) :=
  let d := T.dir + 4 * (p.place T key).2
  let m := fld T.map 0 40
  (if T.tiered && owner == p.chip then [(d, d + 4)] else []) ++
    (if T.mode = 3 then [(m, m + 8 * (fld T.map 40 13 + 1))] else [])

/-- The bytes of a table on this part that requests read: the current copy, the directory and the default row (R231, R233, R235). -/
def Part.tblReads (p : Part) (T : Tbl) : List (Nat × Nat) :=
  [(T.base (p.curCopy T), T.base (p.curCopy T) + T.size), (T.dflt, T.dflt + T.w0)] ++
    (if T.tiered then [(T.dir, T.dir + 4 * p.localRows T)] else [])

/-- The data plane may read a table (R304). -/
def Part.tblReadable (p : Part) (T : Tbl) : Bool := (p.tblReads T).all fun r => Part.covered 64 p r.1 r.2 1

/-- Fill the segments of a row (R240, R242). -/
def Part.rcFill (p : Part) (s : Nat) (T : Tbl) (owner key : Nat) (r : RowRead) : Part :=
  if !p.rcOn s || r.poison.isSome || r.missing then p
  else
    p.each (List.range T.segs) fun p g =>
      if (p.rcFind s T owner key g).isSome then p
      else
        let i := p.rcVictim s (rcSet T.t owner key g)
        let ev := (spGet .empty (p.unit s).rc i).valid
        let p := p.modUnit s fun u =>
          { u with rc := spSet .empty u.rc i ⟨true, T.t, owner, key, g, p.rcVintage T, 1, r.src ++ p.placedBy T owner key, (r.bytes.drop (256 * g)).take 256⟩ }
        let p := p.bump (TBL_STAT_RC_FILL s) 1
        if ev then p.bump (TBL_STAT_RC_EVICT s) 1 else p

/-- Rows of another part may be cached: the table is versioned, or its region is read-only for the data plane (R213). -/
def Part.remoteCacheable (p : Part) (T : Tbl) : Bool :=
  T.versioned || (p.attr T.base0 0 && !p.attr T.base0 2 && !p.attr T.base0 3 && !p.attr T.base0 6)

/-- Invalidate the entries of a table in every sector (R244). -/
def Part.rcDropTable (p : Part) (t : Nat) : Part :=
  p.each sectors fun p s => p.modUnit s fun u => { u with rc := u.rc.filter fun e => e.2.table != t }

/-- Read a row of this part through the row cache of sector `s` (R211, R213): whether it was a hit. -/
def Part.fetchRow (p : Part) (s agent pair : Nat) (T : Tbl) (key r : Nat) (noCache : Bool) : (RowRead × Bool) × Part :=
  let (hit, p) := if noCache then (none, p) else p.rcLookup s T p.chip key
  match hit with
  | some bs => ((⟨bs, none, [], false, .none⟩, true), p)
  | none =>
    let (row, p) := p.readRow s agent pair T (p.curCopy T) r
    let p := p.tblEvents s row.events
    let p := if noCache then p else p.rcFill s T p.chip key row
    ((row, false), p)

/-- The bitmaps of a versioned table: bits in each, and the address of one (R246). -/
def Part.bitmapBits (p : Part) (T : Tbl) : Nat := ceilDiv (p.localRows T + 2 * T.subrows) 512 * 512
/-- Address of bitmap `b` (0 or 1), where it lies in this part's memory. -/
def Part.bitmapAt (p : Part) (T : Tbl) (b : Nat) : Nat :=
  T.at ((if T.tiered then T.dir + pad64 (4 * p.localRows T) else T.dir) + b * (p.bitmapBits T / 8))
/-- The bitmap that serves as D (R246). -/
def Part.roleD (p : Part) (t : Nat) : Nat := p.getF (TBL_TPEND 0 t) 63 1

/-- Read a bit of a bitmap. -/
def Part.bitmapGet (p : Part) (pair : Nat) (T : Tbl) (b i : Nat) : Bool × Part :=
  let ((w, _), p) := p.loadN 4 pair (p.bitmapAt T b + i / 8) 1
  (bit w (i % 8), p)

/-- Set or clear a bit of a bitmap by a journalled write (R246) that the twin derives for itself (R375). -/
def Part.bitmapPut (p : Part) (pair : Nat) (T : Tbl) (b i : Nat) (v : Bool) : Part :=
  let a := p.bitmapAt T b + i / 8
  let ((w, _), p) := p.loadN 4 pair a 1
  p.quiet fun p => p.store 4 pair a [BitVec.ofNat 8 (putFld w (i % 8) 1 (b2n v))] none

/-- The sector that homes bit `i` of a table's bitmaps (R230). -/
def Part.bitHome (p : Part) (T : Tbl) (i : Nat) : Nat :=
  let l := p.localRows T
  if i < l then i % 4 else if i < l + T.subrows then (i - l) % 4 else (i - l - T.subrows) % 4

end Sys2Proof.Machine
end

