-- ==== Sys2Proof/Machine/UnitOps.lean ====
section
/-!
DEFINITION. What the sampler, the gather–scatter engine and the table unit share (R189 to R194): request queues, destination
checks, completion records and signals.
-/
namespace Sys2Proof.Machine

/-- An address field of a descriptor: its 40 bits, and whether its upper bits are zero. -/
def addrAt (d : List Byte) (i : Nat) : Nat := leAt d i 5
/-- The upper bits of an address field are zero. -/
def addrOk (d : List Byte) (i : Nat) : Bool := leAt d (i + 5) 3 == 0

/-- The local core a notify field names and its counter (R191). -/
def notifyOf (s w : Nat) : Nat × Nat := (2048 * s + w % 2048, fld w 11 5)

/-- A notified core is in the grade and has a role in the frame's kind (R191). -/
def Part.notifyOk (p : Part) (s w : Nat) (en : Bool) : Bool := !en || p.hasRole (notifyOf s w).1

/-- A destination lies wholly in this part's HBM that the data plane may write, or in the inbound partition of one core
of the sector (R199, R212). -/
def Part.destOk (p : Part) (s a len : Nat) : Bool :=
  if len = 0 then true
  else if isHbm a then a + len ≤ hbmTop && p.mayWrite a len
  else p.inInbound a len && coreSector (windowCore a) == s

/-- A destination refused in a core's window is reported as R50 requires, one in HBM as R304 does. -/
def Part.reportDest (p : Part) (s a len pair : Nat) : Part :=
  if p.destOk s a len then p
  else if isHbm a then p.denied s
  else if isWindow a then p.refuseExternal a pair
  else p

/-- Bytes the data plane may read (R304). -/
def Part.srcOk (p : Part) (a len : Nat) : Bool :=
  len == 0 || (if isHbm a then a + len ≤ hbmTop && p.mayRead a len else p.mayRead a len)

/-- A source that the data plane may not read is refused, and the refusal counts (R304). -/
def Part.reportSrc (p : Part) (s a len : Nat) : Part := if p.srcOk a len then p else p.denied s

/-- Send the signals of a request that completes (R191). -/
def Part.reqSignals (p : Part) (s : Nat) (q : Ureq) (notify : Option Nat) : Part :=
  let p := match q.ev with
    | some ev => p.signal q.core ev
    | none => p
  match notify with
  | some w => if p.hasRole (notifyOf s w).1 then p.signal (notifyOf s w).1 (notifyOf s w).2 else p
  | none => p

/-- The 16-byte completion record (R193). -/
def recordBytes (r : RunReq) : List Byte :=
  leBytes 1 r.status ++ leBytes 1 (r.req.unit <<< 4 + leAt r.req.desc 0 1 % 16) ++ leBytes 2 0 ++ leBytes 4 r.done ++
    leBytes 4 r.fetched ++ leBytes 4 r.remote

/-- A request refused as it starts (R192). -/
def refusedReq (q : Ureq) : RunReq := ⟨q, 2, 0, 0, 0, [], []⟩

/-- A unit notes that a request met poison in the line at `a` (R207, R215, R236): its poison bit, with a record that names the line. -/
def Part.poisonNote (p : Part) (s t a : Nat) (q : Ureq) : Part :=
  let e (b i agent : Nat) : ErrRec :=
    { mkErr b i 0 with sector := s, core := q.core, pair := q.pair, addr := if a = 0 then 0 else p.gaddr a, aux := tokenOrigin t, char0 := agent }
  match q.unit with
  | 0 => p.noteErr (SMP_STICKY s) 3 (e 1 3 2)
  | 3 => p.noteErr (TBL_STICKY s) 2 (e 3 2 4)
  | _ => p.noteErr (GSE_STICKY s) 3 (e 2 3 3)

/-- A request whose descriptor, or whose list in the line at `a`, is poison: it writes nothing and completes with status 3 (R300). -/
def Part.poisonReq (p : Part) (s agent t a : Nat) (q : Ureq) : RunReq × Part :=
  (⟨q, 3, 0, 0, 0, [], []⟩, (p.consume s agent q.core q.pair t).poisonNote s t a q)

/-- A started request joins the running ones. -/
def Part.runReq (p : Part) (s : Nat) (r : RunReq) : Part := p.modUnit s fun u => { u with running := u.running ++ [r] }

/-- Running requests of a unit. -/
def Units.active (u : Units) (unit : Nat) : Nat := (u.running.filter fun r => r.req.unit == unit).length

/-- Read a list of 4-byte numbers. -/
def Part.loadList (p : Part) (agent pair a n : Nat) : (List Nat × Option Nat) × Part :=
  let ((bs, t), p) := p.load agent pair a (4 * n)
  ((elems 4 bs, t), p)

/-- A fetch of a distinct row that has not come: no hit, no default row and no join. -/
def RowFetch.open (f : RowFetch) : Bool := !f.arrived && f.kind == 0 && f.row.isNone

/-- Distinct row fetches outstanding in a sector, run-ahead among them (R211, R214). -/
def Units.outstanding (u : Units) : Nat :=
  (u.running.flatMap fun r => r.fetches.filter (·.open)).length + (u.ahead.filter fun f => !f.arrived).length

end Sys2Proof.Machine
end

