-- ==== Sys2Proof/Machine/RowOps.lean ====
section
/-!
DEFINITION. Fetching the distinct rows of a request (R211 to R215): planning the fetches, asking other parts for rows and
serving theirs, and taking a row as it arrives.
-/
namespace Sys2Proof.Machine

/-- The rows one packet asks for: 2 KiB of them (R211). -/
def keysPer (w : Nat) : Nat := 2048 / w

/-- The keys of a row request as its payload; table, flags (1 run-ahead, 2 no cache), key count and pair stand in the place of its poison
field. -/
def rowRequest (keys : List Nat) : List Byte := pad32 (keys.flatMap (leBytes 4))
/-- The fields of a row request beside its keys. -/
def rowFields (t flags n pair : Nat) : Nat := t + flags <<< 8 + n <<< 16 + pair <<< 32

/-- A new tag for a row request of a sector; bit 17 says that its rows fill a packet, so that the mask of missing rows takes another. -/
def Part.rowRef (p : Part) (s : Nat) (full : Bool) : Nat × Part :=
  let n := (p.unit s).nextRef
  (s * 2 ^ 18 + b2n full * 2 ^ 17 + n % 2 ^ 17, p.modUnit s fun u => { u with nextRef := n + 1 })

/-- Ask an owner for rows; the fetches take the tag and their place in it. -/
def Part.askRows (p : Part) (s pair flags : Nat) (T : Tbl) (fs : List RowFetch) : List RowFetch × Part :=
  match fs with
  | [] => ([], p)
  | f :: _ =>
    let (ref, p) := p.rowRef s (fs.length * T.w0 > 2016)
    let pay := rowRequest (fs.map (·.key))
    let p := (p.sendPacket f.owner 0 2 ref (rowFields T.t flags fs.length pair) pay).sentFor pair pay.length
    (((List.range fs.length).zip fs).map fun q => { q.2 with ref := ref, pos := q.1 }, p)

/-- Ask for every remote row of a list, one packet per owner per packet of rows. -/
def Part.askAll (p : Part) (s pair flags : Nat) (T : Tbl) (groups : List (List RowFetch)) : List RowFetch × Part :=
  groups.foldl (fun (q : List RowFetch × Part) g =>
    let (fs, p) := q.2.askRows s pair flags T g
    (q.1 ++ fs, p)) ([], p)

/-- A fetch asks for the row of a key. -/
def RowFetch.is (f : RowFetch) (t owner key : Nat) : Bool := f.table == t && f.owner == owner && f.key == key

/-- A row in flight in the sector, for a request or run ahead (R211, R214). -/
def Units.inFlight (u : Units) (t owner key : Nat) : Bool :=
  (u.running.any fun r => r.fetches.any fun f => !f.arrived && f.row.isNone && f.kind == 0 && f.is t owner key) ||
    u.ahead.any fun f => !f.arrived && f.is t owner key

/-- Every segment of a row stands in the row cache of the sector (R241). -/
def Part.rcHolds (p : Part) (s : Nat) (T : Tbl) (owner key : Nat) : Bool :=
  p.rcOn s && (List.range T.segs).all fun g => (p.rcFind s T owner key g).isSome

/-- The distinct row fetches that keys need: those that are valid, not in the row cache and not in flight (R211, R213). -/
def Part.fetchNeed (p : Part) (s : Nat) (T : Tbl) (noCache : Bool) (keys : List Nat) : Nat :=
  ((dedupAdj (sortBy (· ≤ ·) keys)).filter fun k =>
    let owner := (p.place T k).1
    k < T.rows && !(!noCache && (owner == p.chip || p.remoteCacheable T) && p.rcHolds s T owner k) &&
      !(p.unit s).inFlight T.t owner k).length

/-- Free slots for what a key list at `a` needs (R211); a list that cannot be read needs none. -/
def Part.roomFor (p : Part) (s : Nat) (T : Tbl) (noCache : Bool) (a n : Nat) : Bool :=
  n > 8192 ||
    match p.peek a (4 * n) with
    | some bs => (p.unit s).outstanding + p.fetchNeed s T noCache (elems 4 bs) ≤ 16384
    | none => true

/-- The fetch of one distinct key with the outputs it serves (R211, R213, R231): an invalid key; a hit of the row cache; a
join; or a fetch of its own.
DESIGN CHOICE (log 55, unsafe): Row fetches: a row asked for by two requests is fetched once, and the second joins (R211). -/
def Part.planKey (p : Part) (s : Nat) (T : Tbl) (noCache : Bool) (key : Nat) (outs : List Nat) : RowFetch × Part :=
  let base : RowFetch := ⟨T.t, p.chip, key, outs, false, 0, 0, 0, false, none, none⟩
  let p := p.bump (GSE_STAT_JOIN s) (outs.length - 1)
  if key ≥ T.rows then ({ base with kind := 2 }, p.bump (TBL_TSTAT_INV s T.t) outs.length)
  else
    let (owner, _) := p.place T key
    let f := { base with owner := owner, remote := owner != p.chip }
    let use := !noCache && (!f.remote || p.remoteCacheable T)
    let (hit, p) := if use then p.rcLookup s T owner key else (none, p)
    match hit with
    | some bs => ({ f with row := some bs, remote := false }, p.bump (GSE_STAT_HIT s) 1)
    | none =>
      if (p.unit s).inFlight T.t owner key then ({ f with kind := 3 }, p.bump (GSE_STAT_JOIN s) 1)
      else
        let p := p.bump (GSE_STAT_FETCH s) 1
        (f, if f.remote then p.bump (GSE_STAT_REMOTE s) 1 else p)

/-- Sort the keys of a request and put equal ones together: each distinct key with the outputs that take it. -/
def distinctKeys (keys : List Nat) : List (Nat × List Nat) :=
  (groupAdj (·.1) (sortBy (fun a b => a.1 ≤ b.1) (keys.zip (List.range keys.length)))).map fun g => (g.1, g.2.map (·.2))

/-- Plan the fetches of a request and send its row requests (R211).
DEDUCED (log 56, unsafe): Counts of the gather record: fetched and remote exclude rows that hit the row cache. -/
def Part.planRows (p : Part) (s pair : Nat) (T : Tbl) (noCache : Bool) (keys : List Nat) : List RowFetch × Part :=
  let (fs, p) := (distinctKeys keys).foldl
    (fun (q : List RowFetch × Part) k =>
      let (f, p) := q.2.planKey s T noCache k.1 k.2
      (q.1 ++ [f], p)) ([], p)
  let ask := fs.filter fun f => f.remote && f.kind == 0
  let rest := fs.filter fun f => !(f.remote && f.kind == 0)
  let owners := groupAdj (·.owner) (sortBy (fun a b => a.owner ≤ b.owner) ask)
  let groups := owners.flatMap fun g => chunks (keysPer T.w0) g.2.length g.2
  let (asked, p) := p.askAll s pair (2 * b2n noCache) T groups
  let p := p.peak (GSE_STAT_PEAK s) ((p.unit s).outstanding + (fs.filter (·.open)).length)
  (rest ++ asked, p)

/-- The packets of rows that answer the request of a fetch. -/
def Part.rowReplies (p : Part) (f : RowFetch) : List Packet :=
  p.fab.rx.filter fun q => q.cls == 1 && q.kind == 2 && q.ref == f.ref && q.src == f.owner

/-- The row of a fetch in its reply, and whether it is the default row of a missing key (R334): behind a mask of missing rows in one
packet, or, where the rows fill a packet, beside one of the mask. -/
def Part.replyRow (p : Part) (T : Tbl) (f : RowFetch) : Option RowRead :=
  let w := T.w0
  let l := p.rowReplies f
  let full := bit f.ref 17
  let rows := l.find? fun q => if full then q.payload.length == 2048 else q.payload.length ≥ 32 + w
  let mask := if full then l.find? fun q => q.payload.length == 32 else rows
  match rows, mask with
  | some q, some m =>
    let lo := (if full then 0 else 32) + w * f.pos
    let bs := (q.payload.drop lo).take w
    let bad := (List.range (w / 32)).find? fun i => bit q.poison (lo / 32 + i)
    some ⟨bs, bad.map fun i => leAt bs (32 * i) 32, [], bit (leAt m.payload (f.pos / 8) 1) (f.pos % 8), .none⟩
  | _, _ => none

/-- The row a fetch waits for, when it is here (R212): already delivered, read from this part, or in a reply; with the part
after, and whether it was read now. -/
def Part.takeRow (p : Part) (s agent pair : Nat) (T : Tbl) (noCache : Bool) (f : RowFetch) : Option (RowRead × Part) :=
  match f.row with
  | some bs => some (⟨bs, f.poison, [], f.kind == 1, .none⟩, p)
  | none =>
    if f.kind = 3 then none
    else if f.kind = 2 then
      some (p.defaultRow agent pair T)
    else if f.remote then
      match p.replyRow T f with
      | none => none
      | some row =>
        some (row, if noCache || !p.remoteCacheable T then p else p.rcFill s T f.owner f.key row)
    else
      let (row, p) := p.readRow s agent pair T (p.curCopy T) (p.place T f.key).2
      let p := p.tblEvents s row.events
      some (row, if noCache then p else p.rcFill s T f.owner f.key row)

/-- Deliver a row to the fetches of the sector that joined (R211). -/
def Part.deliverJoined (p : Part) (s : Nat) (f : RowFetch) (row : RowRead) : Part :=
  let give (g : RowFetch) : RowFetch :=
    if g.kind == 3 && g.table == f.table && g.owner == f.owner && g.key == f.key && !g.arrived then
      { g with kind := b2n row.missing, row := some row.bytes, poison := row.poison }
    else g
  p.modUnit s fun u => { u with running := u.running.map fun r => { r with fetches := r.fetches.map give } }

/-- A reply all of whose rows have been taken leaves. -/
def Part.dropReply (p : Part) (s : Nat) (f : RowFetch) : Part :=
  let waits (g : RowFetch) : Bool := g.remote && !g.arrived && g.ref == f.ref && g.owner == f.owner
  let u := p.unit s
  if !f.remote || u.running.any (fun r => r.fetches.any waits) || u.ahead.any waits then p
  else
    p.modFab fun b =>
      { b with rx := b.rx.filter fun q => !(q.cls == 1 && (q.kind == 2 || q.kind == 8) && q.ref == f.ref && q.src == f.owner) }

/-- The tier of local row `r` as a read of its directory entry would find it, with no memory access (R307); none where the entry is
poison. -/
def Part.peekTier (p : Part) (T : Tbl) (r : Nat) : Option Tier :=
  if !T.tiered then some (if r < T.slots0 then .full r else .missing true)
  else (p.peek (T.at (T.dir + 4 * r)) 4).map fun bs => T.tierOf (leNat bs)

/-- Where the stored form of local row `r` lies in copy `c` (R231, R233, R234). -/
def Part.rowPlaces (p : Part) (T : Tbl) (c r : Nat) : List (Nat × Nat) :=
  let b := T.base c
  match p.peekTier T r with
  | some (.full slot) => [(b + T.w0 * slot, b + T.w0 * (slot + 1))]
  | some (.scaled slot) =>
    [(b + T.o1 + T.w1 * slot, b + T.o1 + T.w1 * (slot + 1)), (b + T.o1s + 4 * slot, b + T.o1s + 4 * slot + 4)]
  | some .composed =>
    let (ha, hb) := T.hashRows r
    [(b + T.oA + T.w1 * ha, b + T.oA + T.w1 * (ha + 1)), (b + T.oAs + 4 * ha, b + T.oAs + 4 * ha + 4),
      (b + T.oB + T.w1 * hb, b + T.oB + T.w1 * (hb + 1)), (b + T.oBs + 4 * hb, b + T.oBs + 4 * hb + 4)]
  | _ => []

/-- A run-ahead fetch may read a row (R307): it lies wholly in one region with dp_read and prefetch. -/
def Part.prefetchOk (p : Part) (places : List (Nat × Nat)) : Bool :=
  match places with
  | [] => false
  | a :: _ =>
    places.all fun b => p.oneRegion b.1 (b.2 - b.1) && p.region b.1 == p.region a.1 && p.attr b.1 1 && p.attr b.1 4

/-- A row as poison: every granule holds the token. -/
def poisonRow (w t : Nat) : List Byte := (List.replicate (w / 32) (tokenBytes t)).flatten

/-- Serve one row to another part (R211, R230): the row, its poison and whether it is missing. -/
def Part.serveRow (p : Part) (pair : Nat) (T : Tbl) (noCache : Bool) (key : Nat) : RowRead × Part :=
  let r := (p.place T key).2
  let ((row, _), p) := p.fetchRow (r % 4) 11 pair T key r noCache
  let p := p.bump (TBL_STAT_SERVED (r % 4)) 1
  match row.poison with
  | some t => ({ row with bytes := poisonRow T.w0 t }, p.tblPoison (r % 4) pair T.t key t)
  | none => (row, p)

/-- Serve a list of rows. -/
def Part.serveRows (p : Part) (pair : Nat) (T : Tbl) (noCache : Bool) (keys : List Nat) : List RowRead × Part :=
  match keys with
  | [] => ([], p)
  | k :: r =>
    let (x, p) := p.serveRow pair T noCache k
    let (xs, p) := Part.serveRows p pair T noCache r
    (x :: xs, p)

/-- The packets of a reply with these rows, as payload and poison flags: rows of 2,048 bytes in all fill one, and the mask of missing rows
takes another; fewer follow the mask. -/
def replyPackets (w : Nat) (rows : List RowRead) : List (List Byte × Nat) :=
  let at' := (List.range rows.length).zip rows
  let mask := leBytes 32 (at'.foldl (fun a q => if q.2.missing then a + 2 ^ q.1 else a) 0)
  let flags := at'.foldl (fun a q => if q.2.poison.isSome then a + (2 ^ (w / 32) - 1) <<< (q.1 * (w / 32)) else a) 0
  let bytes := rows.flatMap (·.bytes)
  if bytes.length > 2016 then [(bytes, flags), (mask, 0)] else [(mask ++ bytes, flags <<< 1)]

/-- Send the rows that answer a request. -/
def Part.sendRows (p : Part) (q : Packet) (pair w : Nat) (rows : List RowRead) : Part :=
  p.each (replyPackets w rows) fun p x => (p.sendPacket q.src 1 2 q.ref x.2 x.1).sentFor pair x.1.length

/-- Refuse another part's row request (R225, R256, R304): a reply without rows, with a record here. -/
def Part.refuseRows (p : Part) (q : Packet) (pair s i : Nat) : Part :=
  (p.noteErr (TBL_STICKY s) i { mkErr 3 i 0 with sector := s, pair := pair }).sendPacket q.src 1 2 q.ref 0 []

/-- Answer a run-ahead request for one row (R307): a row it may not read is dropped with a mark, with no memory access. -/
def Part.serveAhead (p : Part) (q : Packet) (pair : Nat) (T : Tbl) (key : Nat) : Part :=
  let r := (p.place T key).2
  if p.prefetchOk (p.rowPlaces T (p.curCopy T) r) then
    let (row, p) := p.serveRow pair T false key
    p.sendRows q pair T.w0 [row]
  else (p.bump (MEM_STAT_RA_DROP (r % 4)) 1).sendPacket q.src 1 8 q.ref 0 []

/-- Answer a row request of another part (R211, R225, R230, R256, R304, R307). -/
def Part.serveRequest (p : Part) (q : Packet) : Part :=
  let T := p.tbl (fld q.poison 0 8)
  let flags := fld q.poison 8 8
  let pair := fld q.poison 32 32
  let keys := (elems 4 q.payload).take (min 64 (fld q.poison 16 16))
  let home (k : Nat) : Nat := (p.place T k).2 % 4
  let s0 := home (keys.headD 0)
  if !T.valid then p.refuseRows q pair s0 1
  else if keys.any fun k => !p.getB (TBL_CTRL (home k)) 0 then p.refuseRows q pair s0 0
  else if bit flags 0 then p.serveAhead q pair T (keys.headD 0)
  else if !p.tblReadable T then (p.denied s0).refuseRows q pair s0 0
  else
    let (rows, p) := p.serveRows pair T (bit flags 1) keys
    p.sendRows q pair T.w0 rows

end Sys2Proof.Machine
end

