-- ==== Sys2Proof/Machine/Gather.lean ====
section
/-!
DEFINITION. UREQ (R131), and the gather–scatter engine: row gathers, row scatters and run-ahead (R209 to R216, R219), and the
completion of requests (R191).
-/
namespace Sys2Proof.Machine

/-- The requests a unit has queued. -/
def Units.queued (u : Units) (unit : Nat) : List Ureq :=
  match unit with
  | 0 => u.smpQ
  | 1 => u.gatQ
  | 2 => u.scaQ
  | _ => u.lkpQ

/-- Replace the requests a unit has queued. -/
def Units.setQueued (u : Units) (unit : Nat) (l : List Ureq) : Units :=
  match unit with
  | 0 => { u with smpQ := l }
  | 1 => { u with gatQ := l }
  | 2 => { u with scaQ := l }
  | _ => { u with lkpQ := l }

/-- Press slots for a row scatter that issues (R258): its first slot, or none past the quota of its core. -/
def Part.allocSlots (p : Part) (c count : Nat) : Option Nat × Part :=
  let s := coreSector c
  let q := PRS_QUOTA s (c % 2048)
  let n := spGet 0 (p.prs s).alloc (c % 2048)
  if n + count > p.getF q 32 21 then (none, p)
  else (some (p.getF q 0 20 + n), p.modPrs s fun x => { x with alloc := spSet 0 x.alloc (c % 2048) (n + count) })

/-- UREQ (R131): the descriptor copied at issue enters the queue of its unit. -/
def execUreq (core : BitVec 13) (f : UreqF) (s : State) : Answer :=
  s.run fun p => p.issue core.toNat [f.ra.toNat] fun p =>
    let c := core.toNat
    let k := p.core c
    let x := coreSector c
    let a := k.descAddr f.ra.toNat f.offset.toNat
    let unit := f.unit.toNat
    if unit ≥ 4 then p.faultNow c 1
    else if !p.inPrivate c a 64 then p.faultNow c 2
    else if p.mustWait c k.seq [(a, a + 64)] [] then p
    else if ((p.unit x).queued unit).length ≥ 64 then p.modCore c Core.stall
    else
      let (d, t) := p.coreDesc c a
      let scatter := unit == 2 && leAt d 0 1 == 0 && t.isNone
      let (slot, p) := if scatter then p.allocSlots c (leAt d 4 4) else (none, p)
      let id := (p.unit x).nextId + 1
      let q : Ureq := ⟨id, unit, c, if f.evEn = 1 then some f.ev.toNat else none, k.pair, d, t, slot⟩
      let p := p.modUnit x fun u => { u.setQueued unit (u.queued unit ++ [q]) with nextId := id }
      p.modCore c Core.next

/-- Flags and fields of a gather or scatter descriptor (R209). -/
def gFlag (d : List Byte) (i : Nat) : Bool := bit (leAt d 1 1) i
/-- The spec field. -/
def gSpec (d : List Byte) : Nat := leAt d 2 2
/-- The count. -/
def gCount (d : List Byte) : Nat := leAt d 4 4
/-- param0 to param2. -/
def gParam (d : List Byte) (i : Nat) : Nat := leAt d (24 + 4 * i) 4

/-- The completion record of a gather or scatter descriptor has a valid place (R192, R193). -/
def Part.recordOk (p : Part) (s : Nat) (d : List Byte) : Bool :=
  addrOk d 40 && addrAt d 40 % 16 == 0 && p.destOk s (addrAt d 40) 16

/-- What R209 asks of every descriptor: reserved fields zero, addresses of 40 bits, strides of whole granules, a valid
record and notified core, and the engine enabled. -/
def Part.descOk (p : Part) (s : Nat) (d : List Byte) (maxCount : Nat) (flags : List Nat) : Bool :=
  (List.range 8).all (fun i => !gFlag d i || i < 2 || flags.contains i) && gCount d ≥ 1 && gCount d ≤ maxCount &&
    addrOk d 8 && addrOk d 16 && gParam d 0 % 32 == 0 && leAt d 38 2 == 0 && leAt d 48 8 == 0 && leAt d 56 8 == 0 &&
    (!gFlag d 0 || p.recordOk s d) && p.notifyOk s (leAt d 36 2) (gFlag d 1) && p.getB (GSE_CTRL s) 0

/-- The table of a row operation may be used (R225). -/
def Part.tableOk (p : Part) (spec : Nat) : Bool := spec < 256 && (p.tbl (spec % 256)).valid

/-- Report a refused request (R192): the sticky bits of the engine, with a record for each. -/
def Part.gseRefuse (p : Part) (s : Nat) (q : Ureq) (i : Nat) : Part :=
  p.noteErr (GSE_STICKY s) i { mkErr 2 i 0 with sector := s, pair := q.pair, core := q.core }

/-- A table unit refusal: bit 1 for an invalid table (R225), else bit 0. -/
def Part.tblRefuse (p : Part) (s : Nat) (q : Ureq) (i : Nat) : Part :=
  p.noteErr (TBL_STICKY s) i { mkErr 3 i 0 with sector := s, pair := q.pair, core := q.core }

/-- Whether the row operations of a sector may use a table, with what a refusal reports. -/
def Part.tableCheck (p : Part) (s : Nat) (q : Ureq) : Bool × Part :=
  if !p.tableOk (gSpec q.desc) then (false, p.tblRefuse s q 1)
  else if !p.getB (TBL_CTRL s) 0 then (false, p.tblRefuse s q 0)
  else (true, p)

/-- First column and width in bytes that a row gather moves (R210). -/
def gatherCols (T : Tbl) (d : List Byte) : Nat × Nat :=
  let first := 32 * (gParam d 1 % 65536)
  let n := 32 * (gParam d 1 / 65536)
  (first, if n = 0 then T.w0 - first else n)

/-- Start a row gather (R210 to R213). -/
def Part.startGather (p : Part) (s : Nat) (q : Ureq) : RunReq × Part :=
  let d := q.desc
  let T := p.tbl (gSpec d % 256)
  let (first, width) := gatherCols T d
  let span := (gCount d - 1) * gParam d 0 + width
  let (okT, p) := p.tableCheck s q
  let ok := okT && p.descOk s d 8192 [2] && gParam d 2 == 0 && first < T.w0 && first + width ≤ T.w0 && gParam d 0 ≥ width &&
    p.srcOk (addrAt d 8) (4 * gCount d)
  if !ok then (refusedReq q, (p.reportSrc s (addrAt d 8) (4 * gCount d)).gseRefuse s q 0)
  else if !p.tblReadable T then (refusedReq q, (p.denied s).gseRefuse s q 0)
  else if !p.destOk s (addrAt d 16) span then
    (refusedReq q, (p.reportDest s (addrAt d 16) span q.pair).gseRefuse s q 1)
  else
    let ((ids, t), p) := p.loadList 3 q.pair (addrAt d 8) (gCount d)
    match t with
    | some t => p.poisonReq s 3 t (p.poisonAt (addrAt d 8) (4 * gCount d)) q
    | none =>
      let (fs, p) := p.planRows s q.pair T (gFlag d 2) ids
      let mine := fs.filter fun f => f.kind == 0 && f.row.isNone
      (⟨q, 0, gCount d, mine.length, (mine.filter (·.remote)).length, fs, []⟩, p)

/-- Take the oldest request of a unit that has free places, when its op is the one named (R189). -/
def Part.takeReq (p : Part) (s unit op : Nat) (f : Part → Ureq → RunReq × Part) : Part :=
  let u := p.unit s
  match u.queued unit with
  | [] => p
  | q :: rest =>
    let isOp := if op = 0 then leAt q.desc 0 1 != 1 else leAt q.desc 0 1 == 1
    if !p.serves || u.active unit ≥ 32 || (unit != 3 && !isOp) then p
    else
      let p := p.setUnit s (u.setQueued unit rest)
      match q.poison with
      | some t =>
        let (r, p) := p.poisonReq s (if unit = 3 then 4 else 3) t 0 q
        p.runReq s r
      | none =>
        let (r, p) := f p q
        p.runReq s r

/-- ROW_GATHER_START (R210): the oldest gather request starts, when it is a row gather (any op but tile fetch: an unknown op is
refused). It waits for free fetch slots (R211). -/
def execRowGatherStart (sector : BitVec 2) (s : State) : Answer :=
  s.run fun p =>
    let x := sector.toNat
    let room : Bool := match (p.unit x).gatQ with
      | q :: _ => p.roomFor x (p.tbl (gSpec q.desc % 256)) (gFlag q.desc 2) (addrAt q.desc 8) (gCount q.desc)
      | [] => true
    if !room then p
    else
      p.takeReq x 1 0 fun p q =>
        if leAt q.desc 0 1 = 0 then p.startGather x q else (refusedReq q, p.gseRefuse x q 0)

/-- Write the rows of an arrived fetch of a row gather (R212, R215). -/
def Part.putRows (p : Part) (s : Nat) (r : RunReq) (T : Tbl) (f : RowFetch) (row : RowRead) : Part :=
  let d := r.req.desc
  let (first, width) := gatherCols T d
  let p := p.each f.outs fun p i =>
    p.unitStore 3 r.req.pair (addrAt d 16 + i * gParam d 0) ((row.bytes.drop first).take width) row.poison
  p.bump (GSE_STAT_ROWS s) f.outs.length

/-- The table unit and the engine report a poisoned row (R215, R236).
DEDUCED (log 58, unsafe): A poisoned row or tile that a request skips counts as a consumption by agent 6. -/
def Part.rowPoison (p : Part) (s : Nat) (r : RunReq) (T : Tbl) (key t : Nat) : Part :=
  let p := p.tblPoison s r.req.pair T.t key t
  if r.req.unit = 3 then p
  else
    p.noteErr (GSE_STICKY s) 3
      { mkErr 2 3 0 with sector := s, core := r.req.core, pair := r.req.pair, aux := tokenOrigin t, char0 := 3, loc0 := T.t, loc1 := key }

/-- A fetch of a running request has its row (R212): written at once for a gather, kept for a lookup. -/
def Part.arriveRow (p : Part) (s : Nat) (r : RunReq) (i : Nat) (f : RowFetch) : Part :=
  let T := p.tbl f.table
  let look := r.req.unit == 3
  let noCache := if look then bit (leAt r.req.desc 1 1) 4 else gFlag r.req.desc 2
  match p.takeRow s (if look then 4 else 3) r.req.pair T noCache f with
  | none => p
  | some (row, p) =>
    let p := match row.poison with
      | some t => p.rowPoison s r T f.key t
      | none => p
    let kind := if f.kind = 2 then 2 else b2n row.missing
    let f' := { f with kind := kind, arrived := true, row := some row.bytes, poison := row.poison }
    let p := p.modUnit s fun u =>
      { u with running := u.running.map fun x =>
          if x.req.id = r.req.id then
            { x with fetches := x.fetches.set i f', status := if row.poison.isSome then 3 else x.status }
          else x }
    let p := if f.kind = 0 && f.row.isNone then p.deliverJoined s { f with kind := 3 } row else p
    let p := p.dropReply s f
    if look then p else p.putRows s r T f row

/-- A fetch that joined a run-ahead one whose owner dropped it becomes a fetch of its own (R211, R214). -/
def Part.promote (p : Part) (s : Nat) (f : RowFetch) : Part :=
  let joined (g : RowFetch) : Bool := g.kind == 3 && !g.arrived && g.is f.table f.owner f.key
  match (p.unit s).running.find? fun r => r.fetches.any joined with
  | none => p
  | some r =>
    let (fs, p) := p.askRows s r.req.pair 0 (p.tbl f.table) ((r.fetches.filter joined).map fun g => { g with kind := 0 })
    let p := (p.bump (GSE_STAT_FETCH s) 1).bump (GSE_STAT_REMOTE s) 1
    p.modUnit s fun u =>
      { u with running := u.running.map fun x =>
          if x.req.id = r.req.id then { x with fetches := x.fetches.map fun g => if joined g then fs.headD g else g } else x }

/-- A row that run-ahead asked another part for arrives (R214): it fills the row cache and goes to the fetches that joined; a drop mark is
counted. -/
def Part.arriveAhead (p : Part) (s i : Nat) (f : RowFetch) : Part :=
  let T := p.tbl f.table
  let gone (p : Part) : Part := (p.modUnit s fun u => { u with ahead := u.ahead.eraseIdx i }).dropReply s f
  if p.fab.rx.any fun q => q.cls == 1 && q.kind == 8 && q.ref == f.ref && q.src == f.owner then
    ((gone p).bump (GSE_STAT_RA_DROP s) 1).promote s f
  else
    match p.replyRow T f with
    | some row => gone ((p.rcFill s T f.owner f.key row).deliverJoined s f row)
    | none => p

/-- A refusal that another part answered a row request with is recorded (R304); its rows stay missing. -/
def Part.takeRefusal (p : Part) (s pair : Nat) (f : RowFetch) : Part :=
  match (p.rowReplies f).find? fun q => q.payload.isEmpty with
  | some q => (p.takeRx q).err { mkErr 3 255 0 with sector := s, pair := pair, loc0 := f.table, loc1 := f.key }
  | none => p

/-- ROW_ARRIVE (R212): fetch `fetch` of request `req` of the sector, or row `fetch` that run-ahead waits for where `req` is
0. -/
def execRowArrive (sector : BitVec 2) (req fetch : Nat) (s : State) : Answer :=
  s.run fun p =>
    let x := sector.toNat
    let u := p.unit x
    if !p.serves then p
    else if req = 0 then
      match u.ahead[fetch]? with
      | some f => p.arriveAhead x fetch f
      | none => p
    else
      match u.running.find? fun r => r.req.id == req with
      | none => p
      | some r =>
        match r.fetches[fetch]? with
        | some f => if f.arrived then p else (p.takeRefusal x r.req.pair f).arriveRow x r fetch f
        | none => p

/-- REMOTE_ROW_REQUEST (R211, R230): the owner answers the oldest row request that waits. -/
def execRemoteRowRequest (s : State) : Answer :=
  s.run fun p =>
    match p.fab.rx.find? fun q => q.cls == 0 && q.kind == 2 with
    | none => p
    | some q => if p.serves then (p.takeRx q).serveRequest q else p

/-- One row of run-ahead (R214, R307): read into the row cache, asked of its owner, dropped, or not issued. -/
def Part.aheadKey (p : Part) (s : Nat) (T : Tbl) (pair key : Nat) : Part :=
  let (owner, r) := p.place T key
  let remote := owner != p.chip
  let u := p.unit s
  if key ≥ T.rows || p.rcHolds s T owner key || u.outstanding ≥ 12288 || (remote && !p.remoteCacheable T) || !p.rcOn s ||
      u.inFlight T.t owner key then p
  else
    let p := (p.bump (GSE_STAT_RA s) 1).peak (GSE_STAT_PEAK s) (u.outstanding + 1)
    if remote then
      let f : RowFetch := ⟨T.t, owner, key, [], true, 0, 0, 0, false, none, none⟩
      let (fs, p) := p.askRows s pair 1 T [f]
      p.modUnit s fun u => { u with ahead := u.ahead ++ fs }
    else if p.prefetchOk (p.rowPlaces T (p.curCopy T) r) then
      let (row, p) := p.readRow s 3 pair T (p.curCopy T) r
      (p.tblEvents s row.events).rcFill s T owner key row
    else (p.bump (MEM_STAT_RA_DROP s) 1).bump (GSE_STAT_RA_DROP s) 1

/-- RUN_AHEAD_FETCH (R214): the rows named by the row gathers at the front of the queue are read ahead. A list that may not be
read, or that is poison, is left alone. -/
def execRunAheadFetch (sector : BitVec 2) (s : State) : Answer :=
  s.run fun p =>
    let x := sector.toNat
    if !p.serves || !p.getB (GSE_CTRL x) 0 then p
    else
      let n := p.getF (GSE_CTRL x) 4 4
      let gathers := ((p.unit x).gatQ.filter fun q => leAt q.desc 0 1 == 0 && q.poison.isNone).take n
      p.each gathers fun p q =>
        let d := q.desc
        if !p.tableOk (gSpec d) || !p.srcOk (addrAt d 8) (4 * gCount d) || gCount d > 8192 || gFlag d 2 then p
        else
          let T := p.tbl (gSpec d)
          let ((ids, t), p) := p.loadList 3 q.pair (addrAt d 8) (gCount d)
          if t.isSome then p else p.each (dedupAdj (sortBy (· ≤ ·) ids)) fun p k => p.aheadKey x T q.pair k

/-- The source format of a row scatter (R209). -/
def scatterFmt (d : List Byte) : Option Fmt := if [0, 1, 2, 3, 6].contains (gParam d 1) then Fmt.ofCode (gParam d 1) else none

/-- The press accepts an entry (R259): its binary32 row goes to the staging area and its sort record to the buffer. -/
def Part.pressAccept (p : Part) (s : Nat) (T : Tbl) (key slot pair : Nat) (vals : List Nat) (poison : Option Nat) : Part :=
  let p := p.store 5 pair (p.getF (PRS_STAGE s) 0 40 + 4096 * slot) (vals.flatMap (leBytes 4)) poison
  let p := p.modPrs s fun x =>
    { x with recs := x.recs ++ [(T.t <<< 56) + (key <<< 24) + slot], pairs := spSet 0 x.pairs slot pair }
  let p := if key ≥ T.rows then p.bump (PRS_STAT_INVALID s) 1 else p
  p.bump (PRS_STAT_ACCEPT s) 1

/-- Hand the rows of a row scatter to the press, in key-list order (R219). -/
def Part.scatterRows (p : Part) (s : Nat) (q : Ureq) (T : Tbl) (f : Fmt) (slot : Nat) (keys : List Nat) : Bool × Part :=
  ((List.range keys.length).zip keys).foldl
    (fun (r : Bool × Part) k =>
      let ((bs, t), p) := r.2.load 3 q.pair (addrAt q.desc 16 + k.1 * gParam q.desc 0) (T.dim * f.bytes)
      let vals := (elems f.bytes bs).map fun x => (convert f .b32 .rne false true x).1
      let a := addrAt q.desc 16 + k.1 * gParam q.desc 0
      let p := match t with
        | some t => p.poisonNote s t (p.poisonAt a (T.dim * f.bytes)) q
        | none => p
      (r.1 || t.isSome, p.pressAccept s T k.2 (slot + k.1) q.pair vals t)) (false, p)

/-- The press takes no entries for the tables and frames that R257 names; a row scatter past its core's range is refused (R258). -/
def Part.pressRefuses (p : Part) (s : Nat) (q : Ureq) : List Nat :=
  (if p.kind ≠ 2 || gSpec q.desc ≥ 256 || !p.getB (OPT_TCFG s (gSpec q.desc % 256)) 0 then [0] else []) ++
    (if q.slot.isNone then [1] else [])

/-- ROW_SCATTER_START (R219, R257, R258): the oldest scatter request starts, when it is a row scatter (an unknown op is
refused). -/
def execRowScatterStart (sector : BitVec 2) (s : State) : Answer :=
  s.run fun p =>
    let x := sector.toNat
    p.takeReq x 2 0 fun p q =>
      let d := q.desc
      let T := p.tbl (gSpec d % 256)
      if leAt d 0 1 ≠ 0 then (refusedReq q, p.gseRefuse x q 0)
      else
        let bits := p.pressRefuses x q
        let p := p.each bits fun p i => p.noteErr (PRS_STICKY x) i { mkErr 4 i 0 with sector := x, pair := q.pair, core := q.core }
        let (okT, p) := p.tableCheck x q
        let width := T.dim * ((scatterFmt d).map Fmt.bytes).getD 1
        let span := (gCount d - 1) * gParam d 0 + width
        let ok := okT && p.descOk x d 8192 [] && gParam d 2 == 0 && gParam d 0 ≥ width &&
          p.srcOk (addrAt d 8) (4 * gCount d) && p.srcOk (addrAt d 16) span && p.getB (PRS_CTRL x) 0
        match ok, q.slot, scatterFmt d with
        | true, some slot, some f =>
          if !bits.isEmpty then (refusedReq q, p)
          else
            let ((keys, t), p) := p.loadList 3 q.pair (addrAt d 8) (gCount d)
            match t with
            | some t => p.poisonReq x 3 t (p.poisonAt (addrAt d 8) (4 * gCount d)) q
            | none =>
              let (_, p) := p.scatterRows x q T f slot keys
              (⟨q, 0, gCount d, 0, 0, [], []⟩, p.bump (GSE_STAT_SROWS x) (gCount d))
        | true, none, some _ => (refusedReq q, p)
        | _, _, _ =>
          (refusedReq q, ((p.reportSrc x (addrAt d 8) (4 * gCount d)).reportSrc x (addrAt d 16) span).gseRefuse x q 0)

end Sys2Proof.Machine
end

