-- ==== Sys2Proof/Machine/Sampler.lean ====
section
/-!
DEFINITION. The neighbourhood sampler (R195 to R207).
-/
namespace Sys2Proof.Machine

/-- A graph as its registers describe it (R195, R222). -/
structure Graph where
  vidx : Nat
  edge : Nat
  wgt : Nat
  ts : Nat
  v : Nat
  e : Nat
  hasTs : Bool
  hasWgt : Bool
  valid : Bool
  deriving DecidableEq, Repr

/-- Graph `n` of a sector. -/
def Part.graph (p : Part) (s n : Nat) : Graph :=
  let c := p.rd (SMP_GCFG s n)
  ⟨p.rd (SMP_GVIDX s n), p.rd (SMP_GEDGE s n), p.rd (SMP_GWGT s n), p.rd (SMP_GTS s n), p.rd (SMP_GVCOUNT s n),
    p.rd (SMP_GECOUNT s n), bit c 2, bit c 1, bit c 0⟩

/-- Draw `i` of vertex `v` at hop `h` (R201). -/
def sampleDraw (seed frame salt v h i : Nat) : Nat :=
  let inner := mix64 (BitVec.ofNat 64 salt ^^^ mix64 (BitVec.ofNat 64 ((h <<< 32) ||| v)))
  let stream := mix64 (BitVec.ofNat 64 seed ^^^ mix64 (BitVec.ofNat 64 frame ^^^ inner))
  (mix64 (stream + BitVec.ofNat 64 (i + 1) * gamma64)).toNat

/-- Uniform selection of `f` of `d` positions (R202). -/
def uniformPick (draw : Nat → Nat) (d f : Nat) : List Nat :=
  (List.range f).foldl
    (fun chosen i =>
      let j := d - f + i
      let t := (fld (draw i) 32 32 * (j + 1)) >>> 32
      if chosen.contains t then chosen ++ [j] else chosen ++ [t]) []

/-- The weighted key of position `p` (R202), as binary32 bits. -/
def weightKey (draw : Nat → Nat) (w pos : Nat) : Nat :=
  let u : FVal := .fin false (fld (draw pos) 40 24 + 1) (-24)
  let l := (rneB32 true (FVal.log u).1).1
  let r := (rneB32 true (FVal.rcp (FVal.decode .b32 w)).1).1
  (mulB32 true l r).1

/-- One key ranks above another; a key that is a NaN, for which the spec states no rank, ranks against a number as a free value of
that number says. -/
def keyAbove (a b : Nat) : Bool :=
  let va := FVal.decode .b32 a
  let vb := FVal.decode .b32 b
  if va == .nan then vb != .nan && Config.nanAbove b else if vb == .nan then !(Config.nanAbove a) else FVal.lt vb va

/-- Keep the `f` first of the positions in rank order, then in ascending position. -/
def topPositions (above : Nat × Nat → Nat × Nat → Bool) (f : Nat) (l : List (Nat × Nat)) : List Nat :=
  sortBy (· ≤ ·) (((sortBy (fun a b => !(above b a)) l).take f).map (·.1))

/-- A weight that mode 1 may select: finite and above +0 (R202). -/
def eligibleWeight (w : Nat) : Bool :=
  match FVal.decode .b32 w with
  | .fin neg m _ => !neg && m != 0
  | _ => false

/-- What sampling a vertex found: its edges as (position, neighbour), what it counts, and the poison it met, as token and line. -/
structure VertexSample where
  edges : List (Nat × Nat)
  first : Nat
  trunc : Nat
  inelig : Nat
  bad : Nat
  poison : Option (Nat × Nat)
  deriving DecidableEq, Repr

/-- A vertex without neighbours. -/
def VertexSample.none (bad : Nat) (t : Option (Nat × Nat)) : VertexSample := ⟨[], 0, 0, 0, bad, t⟩

/-- The positions mode `m` selects among `d` (R202), with those cut and those not eligible, and the poison met. -/
def Part.selectEdges (p : Part) (pair : Nat) (g : Graph) (m f d first tmax : Nat) (draw : Nat → Nat) :
    (List Nat × Nat × Nat × Option (Nat × Nat)) × Part :=
  match m with
  | 0 => ((if d ≤ f then List.range d else sortBy (· ≤ ·) (uniformPick draw d f), 0, 0, none), p)
  | 1 =>
    let ((ws, t), p) := p.loadList 2 pair (g.wgt + 4 * first) d
    let el := ((List.range d).zip ws).filter fun q => eligibleWeight q.2
    let ranked := el.map fun q => (q.1, weightKey draw q.2 q.1)
    let above (a b : Nat × Nat) : Bool :=
      keyAbove a.2 b.2 || (!(keyAbove b.2 a.2) && a.1 < b.1)
    ((if el.length ≤ f then el.map (·.1) else topPositions above f ranked, 0, d - el.length,
      t.map fun t => (t, p.poisonAt (g.wgt + 4 * first) (4 * d))), p)
  | 2 =>
    let ((ts, t), p) := p.loadList 2 pair (g.ts + 4 * first) d
    let el := ((List.range d).zip ts).filter fun q => q.2 ≤ tmax
    let above (a b : Nat × Nat) : Bool := a.2 > b.2 || (a.2 == b.2 && a.1 > b.1)
    ((if el.length ≤ f then el.map (·.1) else topPositions above f el, 0, d - el.length,
      t.map fun t => (t, p.poisonAt (g.ts + 4 * first) (4 * d))), p)
  | _ => ((List.range (min d f), if d > f then 1 else 0, 0, none), p)

/-- Sample one vertex (R197, R202, R203). -/
def Part.sampleVertex (p : Part) (pair : Nat) (g : Graph) (m f tmax : Nat) (draw : Nat → Nat) (v : Nat) :
    VertexSample × Part :=
  if v ≥ g.v then (.none 1 none, p)
  else
    let ((bs, t0), p) := p.load 2 pair (g.vidx + 8 * v) 16
    match t0 with
    | some t => (.none 0 (some (t, p.poisonAt (g.vidx + 8 * v) 16)), p)
    | none =>
      let lo := leAt bs 0 5
      let hi := leAt bs 8 5
      if hi < lo ∨ hi > g.e then (.none 1 none, p)
      else
        let ((pos, trunc, inelig, t1), p) := p.selectEdges pair g m f (hi - lo) lo tmax draw
        if t1.isSome then (.none 0 t1, p)
        else
          let (nbrs, p) := pos.foldl
            (fun (q : List (Nat × Nat × Option (Nat × Nat)) × Part) i =>
              let a := g.edge + 4 * (lo + i)
              let ((n, t), p) := q.2.loadN 2 pair a 4
              (q.1 ++ [(i, n, t.map fun t => (t, a / 64 * 64))], p)) ([], p)
          let clean := nbrs.filter fun q => q.2.2.isNone
          let good := clean.filter fun q => q.2.1 < g.v
          (⟨good.map fun q => (q.1, q.2.1), lo, trunc, inelig, clean.length - good.length, nbrs.findSome? fun q => q.2.2⟩, p)

/-- Sample every vertex of a frontier, stopping at poison. -/
def Part.sampleHop (p : Part) (pair : Nat) (g : Graph) (m f tmax : Nat) (draw : Nat → Nat → Nat)
    (front : List Nat) : List VertexSample × Part :=
  match front with
  | [] => ([], p)
  | v :: r =>
    let (x, p) := p.sampleVertex pair g m f tmax (draw v) v
    if x.poison.isSome then ([x], p)
    else
      let (xs, p) := p.sampleHop pair g m f tmax draw r
      (x :: xs, p)

/-- The position of an identifier in a list. -/
def indexOf (l : List Nat) (x : Nat) : Nat := (l.findIdx? (· == x)).getD 0

/-- Each identifier once, at its first occurrence (R200). -/
def dedupKeep (l : List Nat) : List Nat := (l.foldl (fun acc x => if acc.contains x then acc else x :: acc) []).reverse

/-- Bytes padded with zeros to a 64-byte multiple (R204). -/
def padBlock (bs : List Byte) : List Byte := bs ++ List.replicate ((64 - bs.length % 64) % 64) 0

/-- The block of a hop (R204): offsets, sources and edge indices. -/
def hopBlock (eid : Bool) (front : List Nat) (xs : List VertexSample) : List Byte :=
  let offs := (xs.foldl (fun (q : List Nat × Nat) x => (q.1 ++ [q.2 + x.edges.length], q.2 + x.edges.length)) ([0], 0)).1
  let src := xs.flatMap fun x => x.edges.map fun e => indexOf front e.2
  let ids := xs.flatMap fun x => x.edges.map fun e => x.first + e.1
  padBlock (offs.flatMap (leBytes 4)) ++ padBlock (src.flatMap (leBytes 4)) ++
    (if eid then padBlock (ids.flatMap (leBytes 8)) else [])

/-- A sampler request as it runs: what its header will say, the vertices so far and the end of the block region
written. -/
structure SampleRun where
  part : Part
  status : Nat
  stopped : Bool
  front : List Nat
  used : Nat
  hops : List (Nat × Nat × Nat)
  poison : Option (Nat × Nat)
  badRec : Bool

/-- The working area of a request that runs (R206): 8 MiB of the sector's 64, by the request's place among those in flight. -/
def Part.workArea (p : Part) (s : Nat) (q : Ureq) : Nat := p.getF (SMP_WORK s) 0 40 + 2 ^ 23 * q.slot.getD 0

/-- The sampler keeps the de-duplication set of a frontier in the request's working area (R206). The spec does not lay the set out: its
bytes are a free function of the identifiers. -/
def Part.keepSet (p : Part) (s : Nat) (q : Ureq) (front : List Nat) : Part :=
  p.unitStore 2 q.pair (p.workArea s q) ((Config.encoding 8 (front.flatMap (leBytes 4))).take (2 ^ 23)) none

/-- What the vertices sampled for a hop count, emitted or not (R197, R202, R223).
DESIGN CHOICE (log 139, unsafe): A hop that a poisoned line stops counts the vertices sampled before it, and no duplicates. -/
def Part.countHop (p : Part) (s : Nat) (xs : List VertexSample) : Part :=
  let xs := xs.filter fun x => x.poison.isNone
  let p := p.bump (SMP_STAT_VERT s) xs.length
  let p := p.bump (SMP_STAT_TRUNC s) ((xs.map (·.trunc)).foldl (· + ·) 0)
  p.bump (SMP_STAT_INELIG s) ((xs.map (·.inelig)).foldl (· + ·) 0)

/-- One hop of a request (R200, R206, R207). -/
def sampleStep (s : Nat) (q : Ureq) (g : Graph) (r : SampleRun) (h : Nat) : SampleRun :=
  if r.stopped then r
  else
    let d := q.desc
    let p := r.part
    let mode := fld (leAt d 3 1) (2 * (h - 1)) 2
    let f := leAt d (4 + 2 * (h - 1)) 2
    let draw (v i : Nat) : Nat := sampleDraw p.seed p.frameNo (leAt d 48 8) v h i
    let (xs, p) := p.sampleHop q.pair g mode f (leAt d 56 4) draw r.front
    let p := p.countHop s xs
    let bad := (xs.map (·.bad)).foldl (· + ·) 0
    let p := if bad = 0 then p else (p.bump (SMP_STAT_BAD s) bad).stick (SMP_STICKY s) 2
    let p := if bad = 0 ∨ r.badRec then p else p.err { mkErr 1 2 0 with sector := s, pair := q.pair, core := q.core }
    let r := { r with part := p, badRec := r.badRec || bad != 0 }
    match xs.findSome? (·.poison) with
    | some t => { r with stopped := true, status := 3, poison := some t }
    | none =>
      let nbrs := xs.flatMap fun x => x.edges.map (·.2)
      let new := dedupAdj (sortBy (· ≤ ·) (nbrs.filter fun n => !(r.front.contains n)))
      let front := r.front ++ new
      let p := (r.part.bump (SMP_STAT_DUP s) (nbrs.length - new.length)).keepSet s q front
      let r := { r with part := p }
      let block := hopBlock (bit (leAt d 62 1) 0) front xs
      if front.length > leAt d 32 4 ∨ r.used + block.length > leAt d 44 4 ∨ front.length > 2 ^ 20 ∨ nbrs.length > 2 ^ 20 then
        { r with stopped := true, status := 1 }
      else
        let p := p.unitStore 2 q.pair (addrAt d 24 + 4 * r.front.length) (new.flatMap (leBytes 4)) none
        let p := p.unitStore 2 q.pair (addrAt d 36 + r.used) block none
        let p := p.bump (SMP_STAT_EDGE s) nbrs.length
        { r with part := p, front := front, used := r.used + block.length,
                 hops := r.hops ++ [(r.used, front.length, nbrs.length)] }

/-- The header of the block region (R205). -/
def sampleHeader (status f0 vcount : Nat) (hops : List (Nat × Nat × Nat)) : List Byte :=
  leBytes 4 status ++ leBytes 4 f0 ++ leBytes 4 hops.length ++ leBytes 4 vcount ++
    (List.range 4).flatMap fun i =>
      let h := nth hops i (0, 0, 0)
      leBytes 4 h.1 ++ leBytes 4 h.2.1 ++ leBytes 4 h.2.2

/-- A rule of R198 that concerns the descriptor alone. -/
def sampleDescBad (d : List Byte) : Bool :=
  let hops := leAt d 2 1
  leAt d 0 1 != 0 || leAt d 1 1 > 15 || hops == 0 || hops > 4 ||
    (List.range 4).any (fun i =>
      let f := leAt d (4 + 2 * i) 2
      if i < hops then f == 0 || f > 1024 else f != 0) ||
    leAt d 12 4 == 0 || leAt d 12 4 > 8192 || !(addrOk d 16) || !(addrOk d 24) || !(addrOk d 36) ||
    addrAt d 16 % 4 != 0 || addrAt d 24 % 64 != 0 || addrAt d 36 % 64 != 0 || leAt d 44 4 % 64 != 0 || leAt d 44 4 < 64 ||
    leAt d 62 1 ≥ 4 || leAt d 63 1 != 0

/-- The block region of a request is a valid place for its header (R192, R199). -/
def Part.sampleBlockOk (p : Part) (s : Nat) (d : List Byte) : Bool :=
  addrOk d 36 && addrAt d 36 % 64 == 0 && leAt d 44 4 ≥ 64 && p.destOk s (addrAt d 36) (leAt d 44 4)

/-- The modes of the hops of a request (R198). -/
def sampleModes (d : List Byte) : List Nat := (List.range (min 4 (leAt d 2 1))).map fun i => fld (leAt d 3 1) (2 * i) 2

/-- The arrays a request reads (R195): they are read by the data plane (R304). -/
def Part.graphReads (p : Part) (s : Nat) (d : List Byte) : List (Nat × Nat) :=
  let g := p.graph s (leAt d 1 1 % 16)
  if !g.valid then []
  else
    [(g.vidx, 8 * (g.v + 1)), (g.edge, 4 * g.e)] ++ (if (sampleModes d).contains 1 && g.hasWgt then [(g.wgt, 4 * g.e)] else []) ++
      (if (sampleModes d).contains 2 && g.hasTs then [(g.ts, 4 * g.e)] else [])

/-- The sticky bits of a refusal (R199): none for a request that may run. -/
def Part.sampleRefusal (p : Part) (s : Nat) (d : List Byte) : List Nat :=
  let g := p.graph s (leAt d 1 1 % 16)
  let modes := sampleModes d
  let missing := leAt d 1 1 ≤ 15 && (!g.valid || (modes.contains 1 && !g.hasWgt) || (modes.contains 2 && !g.hasTs))
  let desc := sampleDescBad d || !p.getB (SMP_CTRL s) 0 || !((p.graphReads s d).all fun r => Part.covered 64 p r.1 (r.1 + r.2) 1) || !(p.destOk s (addrAt d 24) (4 * leAt d 32 4)) ||
    !(p.destOk s (addrAt d 36) (leAt d 44 4)) || !(p.notifyOk s (leAt d 60 2) (bit (leAt d 62 1) 1)) ||
    !(p.srcOk (addrAt d 16) (4 * leAt d 12 4))
  (if desc || missing then [0] else []) ++ if missing then [1] else []

/-- The lowest place of the working area that no running request of the sampler holds (R206). -/
def Units.freePlace (u : Units) : Nat :=
  ((List.range 8).find? fun i => !(u.running.any fun r => r.req.unit == 0 && r.req.slot == some i)).getD 0

/-- Run a sampler request (R200 to R207): it writes its vertex list and blocks; the header is written as it completes. -/
def Part.runSample (p : Part) (s : Nat) (q : Ureq) : RunReq × Part :=
  let d := q.desc
  let g := p.graph s (leAt d 1 1)
  let q := { q with slot := some (p.unit s).freePlace }
  let ((seeds, t), p) := p.loadList 2 q.pair (addrAt d 16) (leAt d 12 4)
  match t with
  | some t =>
    let (r, p) := p.poisonReq s 2 t (p.poisonAt (addrAt d 16) (4 * leAt d 12 4)) q
    ({ r with header := sampleHeader 3 0 0 [] }, p)
  | none =>
    let f0 := dedupKeep seeds
    let p := (p.bump (SMP_STAT_DUP s) (seeds.length - f0.length)).keepSet s q f0
    if f0.length > leAt d 32 4 then (⟨q, 1, 0, 0, 0, [], sampleHeader 1 f0.length 0 []⟩, p.bump (SMP_STAT_LIMIT s) 1)
    else
      let p := p.unitStore 2 q.pair (addrAt d 24) (f0.flatMap (leBytes 4)) none
      let r := (List.range (leAt d 2 1)).foldl (fun r h => sampleStep s q g r (h + 1)) ⟨p, 0, false, f0, 64, [], none, false⟩
      let p := match r.poison with
        | some (t, a) => (r.part.consume s 2 q.core q.pair t).poisonNote s t a q
        | none => r.part
      let p := if r.status = 1 then p.bump (SMP_STAT_LIMIT s) 1 else p
      (⟨q, r.status, 0, 0, 0, [], sampleHeader r.status f0.length r.front.length r.hops⟩, p)

/-- Refuse a sampler request (R192, R199). -/
def Part.refuseSample (p : Part) (s : Nat) (q : Ureq) (bits : List Nat) : RunReq × Part :=
  let d := q.desc
  let p := p.reportDest s (addrAt d 24) (4 * leAt d 32 4) q.pair
  let p := (p.reportDest s (addrAt d 36) (leAt d 44 4) q.pair).reportSrc s (addrAt d 16) (4 * leAt d 12 4)
  let p := if (p.graphReads s d).all fun r => Part.covered 64 p r.1 (r.1 + r.2) 1 then p else p.denied s
  let p := p.each bits fun p i => p.stick (SMP_STICKY s) i
  let p := p.err { mkErr 1 (minList bits) 0 with sector := s, pair := q.pair, core := q.core }
  ({ refusedReq q with header := if p.sampleBlockOk s d then sampleHeader 2 0 0 [] else [] }, p)

/-- SAMPLE_REQUEST_START (R189, R200): the sampler starts its oldest request while fewer than 8 run.
DEDUCED (log 30, safe): NaN keys of the sampler rank against a number by a free function of that number. -/
def execSampleRequestStart (sector : BitVec 2) (s : State) : Answer :=
  s.run fun p =>
    let x := sector.toNat
    match (p.unit x).smpQ with
    | [] => p
    | q :: rest =>
      if !p.serves || (p.unit x).active 0 ≥ 8 then p
      else
        let p := p.modUnit x fun u => { u with smpQ := rest }
        match q.poison with
        | some t =>
          let (r, p) := p.poisonReq x 2 t 0 q
          p.runReq x r
        | none =>
          let bits := p.sampleRefusal x q.desc
          let (r, p) := if bits.isEmpty then p.runSample x q else p.refuseSample x q bits
          p.runReq x r

end Sys2Proof.Machine
end

