-- ==== Sys2Proof/Machine/Tables.lean ====
section
/-!
DEFINITION. The table unit's own steps: pooled lookups (R237 to R239), the completion of every unit's requests (R191 to R193), the
halving of the row cache's counts (R242) and the level pass (R249, R250).
-/
namespace Sys2Proof.Machine

/-- Bags of a lookup. -/
def lBags (d : List Byte) : Nat := leAt d 4 2
/-- Keys of a lookup. -/
def lCount (d : List Byte) : Nat := leAt d 8 4
/-- Output row stride of a lookup. -/
def lStride (d : List Byte) : Nat := leAt d 12 4
/-- The output format of a lookup: T16 or binary32 (R237). -/
def lFmt (d : List Byte) : Option Fmt :=
  match leAt d 6 2 % 8 with
  | 2 => some .t16
  | 6 => some .b32
  | _ => none

/-- Bytes of a lookup's destination, its record included (R237). -/
def lSpan (d : List Byte) (width : Nat) : Nat :=
  if bit (leAt d 1 1) 0 then lBags d * lStride d + 16 else (lBags d - 1) * lStride d + width

/-- What R237 asks of a lookup descriptor. -/
def Part.lookupOk (p : Part) (s : Nat) (d : List Byte) (T : Tbl) : Bool :=
  let out := leAt d 6 2
  let width := T.dim * ((lFmt d).map Fmt.bytes).getD 0
  leAt d 0 1 == 0 && leAt d 1 1 < 32 && lBags d ≥ 1 && lBags d ≤ 4096 && (lFmt d).isSome && fld out 3 2 != 3 && out < 64 &&
    lCount d ≥ 1 && lCount d ≤ 8192 && lStride d % 32 == 0 && lStride d ≥ width &&
    addrOk d 16 && addrAt d 16 % 4 == 0 && addrOk d 24 && addrAt d 24 % 4 == 0 && addrOk d 32 &&
    (!bit (leAt d 1 1) 2 || addrAt d 32 % 4 == 0) && addrOk d 40 && addrAt d 40 % 32 == 0 && leAt d 58 6 == 0 &&
    p.notifyOk s (leAt d 56 2) (bit (leAt d 1 1) 1) && p.srcOk (addrAt d 24) (4 * (lBags d + 1)) &&
    p.srcOk (addrAt d 16) (4 * lCount d) && (!bit (leAt d 1 1) 2 || p.srcOk (addrAt d 32) (4 * lCount d))

/-- The offsets rise from 0 to the key count (R237). -/
def offsOk (offs : List Nat) (n : Nat) : Bool :=
  offs.headD 1 == 0 && offs.getLastD 0 == n && (offs.zip (offs.drop 1)).all fun q => q.1 ≤ q.2

/-- Start a pooled lookup (R237). -/
def Part.startLookup (p : Part) (s : Nat) (q : Ureq) : RunReq × Part :=
  let d := q.desc
  let T := p.tbl (leAt d 2 2 % 256)
  let width := T.dim * ((lFmt d).map Fmt.bytes).getD 0
  let (okT, p) := p.tableCheck s q
  if !okT then (refusedReq q, p)
  else if !p.lookupOk s d T then
    let p := (p.reportSrc s (addrAt d 24) (4 * (lBags d + 1))).reportSrc s (addrAt d 16) (4 * lCount d)
    (refusedReq q, (if bit (leAt d 1 1) 2 then p.reportSrc s (addrAt d 32) (4 * lCount d) else p).tblRefuse s q 0)
  else if !p.tblReadable T then (refusedReq q, (p.denied s).tblRefuse s q 0)
  else if !p.destOk s (addrAt d 40) (lSpan d width) then
    (refusedReq q, (p.reportDest s (addrAt d 40) (lSpan d width) q.pair).tblRefuse s q 0)
  else
    let ((offs, t0), p) := p.loadList 4 q.pair (addrAt d 24) (lBags d + 1)
    match t0 with
    | some t => p.poisonReq s 4 t (p.poisonAt (addrAt d 24) (4 * (lBags d + 1))) q
    | none =>
      if !offsOk offs (lCount d) then (refusedReq q, p.tblRefuse s q 0)
      else
        let ((keys, t1), p) := p.loadList 4 q.pair (addrAt d 16) (lCount d)
        let weighted := bit (leAt d 1 1) 2
        let ((wgts, t2), p) := if weighted then p.loadList 4 q.pair (addrAt d 32) (lCount d) else (([], none), p)
        match t1, t2 with
        | some t, _ => p.poisonReq s 4 t (p.poisonAt (addrAt d 16) (4 * lCount d)) q
        | none, some t => p.poisonReq s 4 t (p.poisonAt (addrAt d 32) (4 * lCount d)) q
        | none, none =>
          let (fs, p) := p.planRows s q.pair T (bit (leAt d 1 1) 4) keys
          let ws := if weighted then wgts else List.replicate (lCount d) 0x3F800000
          (⟨q, 0, lCount d, 0, 0, fs, (offs ++ ws).flatMap (leBytes 4)⟩, p)

/-- POOLED_LOOKUP_START (R237): the oldest lookup starts while fewer than 32 run. -/
def execPooledLookupStart (sector : BitVec 2) (s : State) : Answer :=
  s.run fun p =>
    let x := sector.toNat
    let room : Bool := match (p.unit x).lkpQ with
      | q :: _ => p.roomFor x (p.tbl (leAt q.desc 2 2 % 256)) (bit (leAt q.desc 1 1) 4) (addrAt q.desc 16) (lCount q.desc)
      | [] => true
    if !room then p else p.takeReq x 3 0 fun p q => p.startLookup x q

/-- Draw for element `j` of bag `b` in a stochastic rounding (R239). -/
def Part.lookupDraw (p : Part) (s : Nat) (d : List Byte) (dim b j : Nat) : Nat :=
  let l := j % 32
  let start := srSeed (BitVec.ofNat 64 p.seed) (BitVec.ofNat 64 p.frameNo) 3 p.chip s l
  srDraw (mix64 (start ^^^ BitVec.ofNat 64 (leAt d 48 8))) (b * ceilDiv (dim - l) 32 + j / 32)

/-- Add one weighted row to the sums of a bag (R238). -/
def poolRow (keep : Bool) (w : Nat) (row acc : List Nat) : List Nat × Events :=
  mapEv (fun q : Nat × Nat => fmaB32 keep w (convert .t16 .b32 .rne false true q.1).1 q.2) (row.zip acc)

/-- The sums of one bag: the arrived rows of its keys in key-list order (R238). -/
def poolBag (keep drop : Bool) (dim : Nat) (keys : List (Nat × RowFetch)) : List Nat × Events :=
  keys.foldl
    (fun (q : List Nat × Events) k =>
      if drop && (k.2.kind == 1 || k.2.kind == 2) then q
      else
        let (acc, e) := poolRow keep k.1 (elems 2 (k.2.row.getD [])) q.1
        (acc, q.2.join e)) (List.replicate dim 0, .none)

/-- The fetch that serves key `i` of a request. -/
def RunReq.fetchOf (r : RunReq) (i : Nat) : RowFetch :=
  (r.fetches.find? fun f => f.outs.contains i).getD ⟨0, 0, 0, [], false, 0, 0, 2, true, none, none⟩

/-- Compute and write one output row (R238, R239). -/
def Part.poolOut (p : Part) (s : Nat) (r : RunReq) (b lo hi : Nat) : Part :=
  let d := r.req.desc
  let T := p.tbl (leAt d 2 2 % 256)
  let keep := p.tblKeep s
  let drop := bit (leAt d 1 1) 3
  let wAt (i : Nat) : Nat := leAt r.header (4 * (lBags d + 1 + i)) 4
  let keys := (List.range (hi - lo)).map fun i => (wAt (lo + i), r.fetchOf (lo + i))
  let used := keys.filter fun k => !(drop && (k.2.kind == 1 || k.2.kind == 2))
  let poison := used.findSome? fun k => k.2.poison
  let (acc, e) := poolBag keep drop T.dim keys
  let out := (lFmt d).getD .t16
  let mode := fld (leAt d 6 2) 3 2
  let (vals, e2) :=
    if out = .b32 then (acc, Events.none)
    else
      mapEv (fun q : Nat × Nat =>
        convert .b32 .t16 (Mode.ofCode mode (if mode = 1 then p.lookupDraw s d T.dim b q.1 else 0)) (bit (leAt d 6 2) 5) keep q.2)
        ((List.range acc.length).zip acc)
  let p := if lo = hi then p.bump (TBL_STAT_EMPTY s) 1 else p
  let p := p.unitStore 4 r.req.pair (addrAt d 40 + b * lStride d) (vals.flatMap (leBytes out.bytes)) poison
  match poison with
  | some t => p.consume s 4 r.req.core r.req.pair t
  | none => p.tblEvents s (e.join e2)

/-- Write every output row of a lookup that was not refused or stopped. -/
def Part.poolAll (p : Part) (s : Nat) (r : RunReq) : Part :=
  if r.header.isEmpty then p
  else
    p.each (List.range (lBags r.req.desc)) fun p b =>
      p.poolOut s r b (leAt r.header (4 * b) 4) (leAt r.header (4 * b + 4) 4)

/-- The record, statistics and notification of a request that completes, by unit (R191, R193, R205). -/
def Part.finishReq (p : Part) (s : Nat) (r : RunReq) : Option Nat × Part :=
  let d := r.req.desc
  let pair := r.req.pair
  let known := r.req.poison.isNone
  match r.req.unit with
  | 0 =>
    let p := if r.header.isEmpty || !known || !p.sampleBlockOk s d then p else p.unitStore 2 pair (addrAt d 36) r.header none
    (if bit (leAt d 62 1) 1 then some (leAt d 60 2) else none, p.bump (SMP_STAT_REQ s) 1)
  | 3 =>
    let p := p.poolAll s r
    let at' := addrAt d 40 + lBags d * lStride d
    let p :=
      if known && bit (leAt d 1 1) 0 && addrOk d 40 && at' % 16 == 0 && p.destOk s at' 16 then p.unitStore 4 pair at' (recordBytes r) none
      else p
    let p := (p.bump (TBL_STAT_LOOKUP s) 1).bump (TBL_STAT_KEYS s) r.done
    (if bit (leAt d 1 1) 1 then some (leAt d 56 2) else none, p)
  | _ =>
    let p := if known && gFlag d 0 && p.recordOk s d then p.unitStore 3 pair (addrAt d 40) (recordBytes r) none else p
    let p := p.bump (if r.req.unit = 1 then GSE_STAT_GREQ s else GSE_STAT_SREQ s) 1
    let p := if r.req.unit = 1 && leAt d 0 1 == 0 then p.bump (TBL_STAT_KEYS s) r.done else p
    (if gFlag d 1 then some (leAt d 36 2) else none, p)

/-- UNIT_REQUEST_COMPLETE (R191): a running request that waits for no row writes its record and sends its signals. -/
def execUnitRequestComplete (sector : BitVec 2) (req : Nat) (s : State) : Answer :=
  s.run fun p =>
    let x := sector.toNat
    match (p.unit x).running.find? fun r => r.req.id == req with
    | none => p
    | some r =>
      if !p.working || r.fetches.any fun f => !f.arrived then p
      else
        let p := p.modUnit x fun u => { u with running := u.running.filter fun q => q.req.id != req }
        let (notify, p) := p.finishReq x r
        p.reqSignals x r.req (if r.req.poison.isSome then none else notify)

/-- RC_HALVE (R242): after 2^halve_log2 lookups every count of the sector is halved. -/
def execRcHalve (sector : BitVec 2) (s : State) : Answer :=
  s.run fun p =>
    let x := sector.toNat
    let n := 2 ^ p.getF (TBL_RC_CFG x) 0 5
    if (p.unit x).rcLookups < n then p
    else
      p.modUnit x fun u =>
        { u with rcLookups := u.rcLookups - n, rc := u.rc.map fun e => (e.1, { e.2 with freq := e.2.freq / 2 }) }

/-- The frame in progress ends a learning span (R37, R250). -/
def Part.spanEnding (p : Part) : Bool :=
  p.kind == 2 && p.getF TIK_SEASON_POS 0 16 + 1 == p.getF (TIK_SPAN (p.getF TIK_SEASON_POS 16 4)) 0 16

/-- The lines of bitmap `b` of a table that hold anything but clean zeros, ascending. -/
def Part.bitLines (p : Part) (T : Tbl) (b : Nat) : List Nat :=
  let lo := p.bitmapAt T b
  let hi := lo + p.bitmapBits T / 8
  dedupAdj (sortBy (· ≤ ·)
    (((p.mem.bytes.filter fun e => lo ≤ e.1 && e.1 < hi).map fun e => e.1 / 64 * 64) ++
      (p.mem.chk.filter fun e => lo ≤ e.1 && e.1 < hi).map fun e => e.1))

/-- The set bits of bitmap `b` of a table, ascending, as clean reads of its lines show them (R293).
DESIGN CHOICE (log 137, unsafe): The bits of a bitmap line that is poison, or that the line code cannot correct, are taken as clear. -/
def Part.setBits (p : Part) (T : Tbl) (b : Nat) : List Nat :=
  (p.bitLines T b).flatMap fun a =>
    match p.peekLine a with
    | some bs => ((List.range 64).zip bs).flatMap fun e =>
        (List.range 8).filterMap fun i => if bit e.2.toNat i then some (8 * (a + e.1 - p.bitmapAt T b) + i) else none
    | none => []

/-- The lines of P that the level pass finds neither clean, correctable nor poisoned: reading one makes it poison (R297). -/
def Part.brokenLines (p : Part) (T : Tbl) : List Nat :=
  (p.bitLines T (1 - p.roleD T.t)).filter fun a =>
    match rsDecode (spGet 0 p.mem.chk a) with
    | .uncorrectable => true
    | _ => false

/-- The bits of P of a table that sector `s` homes (R249, TBL_TPEND). -/
def Part.pendingBits (p : Part) (s : Nat) (T : Tbl) : List Nat :=
  if T.valid && T.versioned then (p.setBits T (1 - p.roleD T.t)).filter fun i => p.bitHome T i == s else []

/-- The versioned tables, in ascending number, and behind them those of the partner whose mirror this part holds (R375). -/
def Part.versionedTables (p : Part) : List Tbl :=
  ((List.range 256).map p.tbl ++ (if p.twin.partnerSeen then (List.range 256).map p.mirTbl else [])).filter fun T =>
    T.valid && T.versioned

/-- P is empty for every versioned table (R250). -/
def Part.levelled (p : Part) : Bool := p.versionedTables.all fun T => (p.setBits T (1 - p.roleD T.t)).isEmpty

/-- The stored parts of the row a bitmap bit stands for, as offsets into a copy with their lengths (R233, R246); none where a poisoned
directory entry does not say where the row lies. -/
def Part.bitPlaces (p : Part) (T : Tbl) (i : Nat) : Option (List (Nat × Nat)) × Part :=
  let l := p.localRows T
  if i < l then
    let ((tier, t), p) := p.tierRow 4 0 T i
    match t, tier with
    | some _, _ => (none, p)
    | none, .full slot => (some [(T.w0 * slot, T.w0)], p)
    | none, .scaled slot => (some [(T.o1 + T.w1 * slot, T.w1), (T.o1s + 4 * slot, 4)], p)
    | none, _ => (some [], p)
  else if i < l + T.subrows then (some [(T.oA + T.w1 * (i - l), T.w1), (T.oAs + 4 * (i - l), 4)], p)
  else
    let j := i - l - T.subrows
    (some [(T.oB + T.w1 * j, T.w1), (T.oBs + 4 * j, 4)], p)

/-- Copy the row of one bit from the current copy to the next, and clear the bit (R249).
DESIGN CHOICE (log 140, unsafe): A row whose directory entry is poison is not copied, and its pending bit stays: its place is not known. -/
def Part.levelRow (p : Part) (s : Nat) (T : Tbl) (i : Nat) : Part :=
  match p.bitPlaces T i with
  | (none, p) => p
  | (some places, p) =>
    let p := p.each places fun p q =>
      let ((bs, t), p) := p.load 4 0 (T.at (T.base (p.curCopy T) + q.1)) q.2
      p.quiet fun p => p.store 4 0 (T.at (T.base (p.nextCopy T) + q.1)) bs t
    let p := p.bitmapPut 0 T (1 - p.roleD T.t) i false
    if places.isEmpty then p else p.bump (TBL_STAT_LEVEL s) 1

/-- The level pass can place the row of a bit: its directory entry is not poison. -/
def Part.bitPlaced (p : Part) (T : Tbl) (i : Nat) : Bool := i ≥ p.localRows T || (p.peekTier T i).isSome

/-- A level pass may run (R249, R250): from cycle 128 to the guard boundary, at rate 0 only from D of a span-ending frame. -/
def Part.levelRuns (p : Part) (s : Nat) : Bool :=
  p.serves && p.tick.coresStarted && (p.getF (TBL_CTRL s) 8 4 != 0 || (p.spanEnding && (p.phase == 2 || p.frameCycle ≥ p.rd (TIK_OFFS_D p.kind))))

/-- LEVEL_PASS (R249): the sector's level pass copies its next pending row; a line of P that its scan finds uncorrectable becomes
poison first (R297). -/
def execLevelPass (sector : BitVec 2) (s : State) : Answer :=
  s.run fun p =>
    let x := sector.toNat
    if !p.levelRuns x then p
    else
      match (p.versionedTables.flatMap p.brokenLines).head? with
      | some a => (p.readLine 1 4 0 a).2
      | none =>
        match p.versionedTables.findSome? fun T => ((p.pendingBits x T).find? (p.bitPlaced T)).map fun i => (T, i) with
        | some (T, i) => p.levelRow x T i
        | none => p

end Sys2Proof.Machine
end

