-- ==== Sys2Proof/Machine/Press.lean ====
section
/-!
DEFINITION. The scatter press (R257 to R270): the sort and merge of a sector's entries, contributions and end markers, the owner
merge, the composed run and the clearing of gradient arrays.
-/
namespace Sys2Proof.Machine

/-- The press works in the frame: it is a learning frame (R257). PRS_CTRL.enable decides the acceptance of entries alone. -/
def Part.pressOn (p : Part) : Bool := p.kind == 2

/-- R86 for the merges of a sector. -/
def Part.prsKeep (p : Part) (s : Nat) : Bool := p.getB (PRS_CTRL s) 1

/-- Element-wise addition of two rows (R261). -/
def addRows (keep : Bool) (a b : List Nat) : List Nat × Events := mapEv (fun q : Nat × Nat => addB32 keep q.1 q.2) (a.zip b)

/-- Fold a value into the partial rows of the tree, the latest partial first (R261). -/
def treePush (keep : Bool) (x : List Nat) (lvl : Nat) (e : Events) (st : List (List Nat × Nat)) : List (List Nat × Nat) × Events :=
  match st with
  | [] => ([(x, lvl)], e)
  | (y, l) :: r =>
    if l = lvl then
      let (z, e') := addRows keep y x
      treePush keep z (lvl + 1) (e.join e') r
    else ((x, lvl) :: (y, l) :: r, e)

/-- The merge tree of R261 over the rows of a run. -/
def foldTree (keep : Bool) (rows : List (List Nat)) : List Nat × Events :=
  let (st, e) := rows.foldl (fun (q : List (List Nat × Nat) × Events) x => treePush keep x 0 q.2 q.1) ([], .none)
  match st with
  | [] => ([], e)
  | (x, _) :: r =>
    r.foldl (fun (q : List Nat × Events) y =>
      let (z, e') := addRows keep y.1 q.1
      (z, q.2.join e')) (x, e)

/-- A sequential sum of rows (R265, R269). -/
def foldSeq (keep : Bool) (rows : List (List Nat)) : List Nat × Events :=
  match rows with
  | [] => ([], .none)
  | x :: r =>
    r.foldl (fun (q : List Nat × Events) y =>
      let (z, e') := addRows keep q.1 y
      (z, q.2.join e')) (x, .none)

/-- Record the events of a sector's press. -/
def Part.prsEvents (p : Part) (s : Nat) (e : Events) : Part := p.events (PRS_FMT_STICKY s) e

/-- A poisoned entry has been merged (R270, R301): the job's consumption, and the sticky bit with its record. -/
def Part.prsPoison (p : Part) (s pair t key tok : Nat) : Part :=
  (p.consume s 5 0xFFFF pair tok).noteErr (PRS_STICKY s) 3
    { mkErr 4 3 0 with sector := s, pair := pair, aux := tokenOrigin tok, char0 := 5, loc0 := t, loc1 := key }

/-- The payload of a contribution block: table, source sector, row, pair and values, a poisoned one as tokens behind its first
granule. -/
def contribBytes (c : Contribution) : List Byte :=
  leBytes 1 c.table ++ leBytes 1 c.sector ++ leBytes 2 0 ++ leBytes 4 c.row ++ leBytes 4 c.pair ++
    leBytes 4 (b2n c.poison.isSome) ++ leBytes 16 0 ++
    (match c.poison with
     | some t => poisonRow (4 * c.vals.length) t
     | none => c.vals.flatMap (leBytes 4))

/-- The poison flags of a contribution block of `n` value bytes. -/
def contribFlags (c : Contribution) : Nat := if c.poison.isSome then 2 ^ (c.vals.length / 8 + 1) - 2 else 0

/-- A contribution read from its block. -/
def readContrib (q : Packet) : Contribution :=
  let bs := q.payload.drop 32
  { table := leAt q.payload 0 1, row := leAt q.payload 4 4, chip := q.src, sector := leAt q.payload 1 1,
    pair := leAt q.payload 8 4, vals := elems 4 bs,
    poison := if q.poison = 0 then none else some (leNat (bs.take 32)) }

/-- The 16-byte record of a contribution in an owner or composed run (R268). The spec does not lay it out: its bytes are a free function of
the contribution. -/
def pressRecord (bs : List Byte) : List Byte := (Config.encoding 9 bs ++ List.replicate 16 0).take 16

/-- A run that needs more than the staging area, or than 16 spilled runs, stops the press (R268). -/
def Part.runLimit (p : Part) (s : Nat) : Part :=
  (p.modPrs s fun h => { h with stopped := true }).noteErr (PRS_STICKY s) 2 { mkErr 4 2 0 with sector := s }

/-- The bytes of a sector's staging area above the 4 GiB of its slots (R268). -/
def Part.stagingRoom (p : Part) (s : Nat) : Nat := p.getF (PRS_STAGE s) 56 8 * 2 ^ 30 - 2 ^ 32

/-- The address of byte `n` of the staging area above the slots. -/
def Part.stagingAt (p : Part) (s n : Nat) : Nat := p.getF (PRS_STAGE s) 0 40 + 2 ^ 32 + n

/-- A record that arrives before the buffers are free for its run goes to the record log (R268). -/
def Part.logRecord (p : Part) (s pair : Nat) (bs : List Byte) : Part :=
  let n := 16 * (p.prs s).logged
  if (p.prs s).stopped then p
  else if n + 16 > p.stagingRoom s then p.runLimit s
  else (p.store 5 pair (p.stagingAt s n) (pressRecord bs) none).modPrs s fun h => { h with logged := h.logged + 1 }

/-- A contribution is recorded in its home sector (R263, R268): in the record log while the sector's stage-1 merge lasts. -/
def Part.ownRecord (p : Part) (s : Nat) (c : Contribution) : Part :=
  let p := if (p.prs s).sent then p else p.logRecord s c.pair (contribBytes c)
  p.modPrs s fun x => { x with owner := x.owner ++ [c] }

/-- Send a contribution to its home (R263): a sector of this part, or a block to its owner. -/
def Part.sendContrib (p : Part) (s owner : Nat) (c : Contribution) : Part :=
  if owner = p.chip then p.ownRecord (c.row % 4) c
  else
    let bs := contribBytes c
    let (_, p) := p.sendBlock owner 1 (contribFlags c) bs
    (p.bump (PRS_STAT_OUT s) 1).sentFor c.pair bs.length

/-- Read the staged row of a slot. -/
def Part.stagedRow (p : Part) (s dim slot : Nat) : (List Nat × Option Nat) × Part :=
  let ((bs, t), p) := p.load 5 (spGet 0 (p.prs s).pairs slot) (p.getF (PRS_STAGE s) 0 40 + 4096 * slot) (4 * dim)
  ((elems 4 bs, t), p)

/-- Read the staged rows of a run. -/
def Part.stagedRows (p : Part) (s dim : Nat) (slots : List Nat) : List (Nat × List Nat × Option Nat) × Part :=
  slots.foldl (fun (q : List (Nat × List Nat × Option Nat) × Part) slot =>
    let ((v, t), p) := q.2.stagedRow s dim slot
    (q.1 ++ [(slot, v, t)], p)) ([], p)

/-- Merge the run of one key and send its contribution (R261 to R263, R269, R270). -/
def Part.mergeKey (p : Part) (s : Nat) (recs : List Nat) : Part :=
  let head := recs.headD 0
  let t := fld head 56 8
  let key := fld head 24 32
  let T := p.tbl t
  let p := p.peak (PRS_STAT_HOT s) recs.length
  if key ≥ T.rows then p
  else
    let unsorted := p.getB (PRS_TCFG s t) 0
    let (rows, p) := p.stagedRows s T.dim (recs.map fun r => fld r 0 20)
    let vals := rows.map fun r => r.2.1
    let (v, e) := if unsorted then foldSeq (p.prsKeep s) vals else foldTree (p.prsKeep s) vals
    let bad := rows.find? fun r => r.2.2.isSome
    let slot := (bad.map (·.1)).getD ((rows.map (·.1)).headD 0)
    let pair := spGet 0 (p.prs s).pairs slot
    let tok := bad.bind fun r => r.2.2
    let p := match tok with
      | some k => p.prsPoison s pair t key k
      | none => p.prsEvents s e
    let p := (p.bump (PRS_STAT_ADDS s) (recs.length - 1)).bump (PRS_STAT_CONTRIB s) 1
    let p := if unsorted then p.bump (PRS_STAT_UNSORTED s) recs.length else p
    let (owner, r) := p.place T key
    p.sendContrib s owner ⟨t, r, p.chip, s, pair, v, tok⟩

/-- PRESS_SORT_START (R260 to R263): when reduce begins, the sector's entries are sorted, merged by key and sent. The keys of a table
whose sort is off keep the order of acceptance within each key (R269). -/
def execPressSortStart (sector : BitVec 2) (s : State) : Answer :=
  s.run fun p =>
    let x := sector.toNat
    let h := p.prs x
    if !p.serves || p.phase = 0 || !p.pressOn || h.sent then p
    else
      let off (r : Nat) : Bool := p.getB (PRS_TCFG x (fld r 56 8)) 0
      let sorted := sortBy (fun a b => if off a && off b then a >>> 24 ≤ b >>> 24 else a ≤ b) h.recs
      let p := p.each (groupAdj (fun r => r >>> 24) sorted) fun p g => p.mergeKey x g.2
      p.modPrs x fun h => { h with sent := true, recs := [] }

/-- CONTRIBUTION_ARRIVE (R263): a whole contribution from another part is recorded in its home sector. -/
def execContributionArrive (sector : BitVec 2) (s : State) : Answer :=
  s.run fun p =>
    let x := sector.toNat
    match p.fab.rx.find? fun q => q.cls == 2 && q.kind == 1 && leAt q.payload 4 4 % 4 == x with
    | none => p
    | some q =>
      if !p.working then p
      else
        let p := (p.takeRx q).ownRecord x (readContrib q)
        p.bump (PRS_STAT_IN x) 1

/-- The parts of the press box (R264): its origin and extents, around the torus in force.
DEDUCED (log 61, unsafe): Press: the box of parts wraps around each torus dimension; the owner merge folds by source sector and part in ascending order. -/
def Part.pressBox (p : Part) : List Nat :=
  let c := p.rd (PRS_PEER 0)
  let dims (i : Nat) : List Nat :=
    (List.range (fld c (4 * i) 4 + 1)).map fun k => (fld c (16 + 4 * i) 4 + k) % (fld p.fab.topoInForce (4 * i) 4 + 1)
  (dims 3).flatMap fun d => (dims 2).flatMap fun c => (dims 1).flatMap fun b => (dims 0).map fun a =>
    a + 16 * b + 256 * c + 4096 * d

/-- The other parts of the box. -/
def Part.pressPeers (p : Part) : List Nat := (dedupAdj (sortBy (· ≤ ·) p.pressBox)).filter (· != p.chip)

/-- All four sectors have sent their last contribution. -/
def Part.pressSent (p : Part) : Bool := sectors.all fun s => (p.prs s).sent

/-- PRESS_END_MARKER (R264). -/
def execPressEndMarker (s : State) : Answer :=
  s.run fun p =>
    if !p.working || !p.pressOn || !p.pressSent || p.tick.markerSent then p
    else
      let p := p.each p.pressPeers fun p d => p.sendPacket d 3 3 0 0 []
      p.modTick fun t => { t with markerSent := true }

/-- PRESS_END_MARKER_ARRIVE (R264). -/
def execPressEndMarkerArrive (s : State) : Answer :=
  s.run fun p =>
    match p.fab.rx.find? fun q => q.cls == 3 && q.kind == 3 with
    | none => p
    | some q =>
      if !p.working then p
      else
        (p.takeRx q).modTick fun t =>
          { t with markersFrom := if t.markersFrom.contains q.src then t.markersFrom else q.src :: t.markersFrom }

/-- The owner merge may begin (R264). -/
def Part.markersIn (p : Part) : Bool := p.pressSent && p.pressPeers.all fun d => p.tick.markersFrom.contains d

/-- The records of a run past one buffer are sorted in runs of 524,288 and spilled behind the record log; a run past 16 spilled runs, or
past the staging area, stops the press (R268). -/
def Part.spill (p : Part) (s : Nat) (recs : List (List Byte)) : Bool × Part :=
  let n := recs.length
  let at' := 16 * (p.prs s).logged
  let k := ceilDiv n 524288
  if n ≤ 524288 then (true, p)
  else if k > 16 || at' + 16 * n > p.stagingRoom s then (false, p.runLimit s)
  else
    let p := p.each ((List.range n).zip recs) fun p q => p.store 5 0 (p.stagingAt s (at' + 16 * q.1)) (pressRecord q.2) none
    (true, p.bump (PRS_STAT_SPILL s) k)

/-- A composed contribution as the bytes its record stands for. -/
def composedBytes (c : Composed) : List Byte :=
  leBytes 1 c.table ++ leBytes 1 c.sub ++ leBytes 4 c.subRow ++ leBytes 4 c.src ++ leBytes 4 c.pair ++ c.vals.flatMap (leBytes 4)

/-- A composed contribution is recorded in its home sector (R266, R268): in the record log while the sector's owner fold lasts. -/
def Part.composeRecord (p : Part) (s : Nat) (c : Composed) : Part :=
  let p := if (p.prs s).ownerDone then p else p.logRecord s c.pair (composedBytes c)
  p.modPrs s fun h => { h with composed := h.composed ++ [c] }

/-- What becomes of one merged row at its home (R266, R267): dropped, a row job, or two composed contributions. -/
def Part.routeRow (p : Part) (s : Nat) (j : RowJob) : Part :=
  let T := p.tbl j.table
  let ((tier, dt), p) := p.tierRow 5 j.pair T j.x
  let j := match dt with
    | some t => { j with poison := some t }
    | none => j
  if dt.isSome then p.modPrs s fun h => { h with jobs := h.jobs ++ [j] }
  else
    match tier with
    | .missing _ => p.bump (PRS_STAT_MISSING s) 1
    | .composed =>
      let (ha, hb) := T.hashRows j.x
      let give (p : Part) (sub i : Nat) : Part :=
        p.composeRecord (i % 4) ⟨j.table, sub, i, j.x, j.pair, j.vals, j.poison⟩
      (give (give p 0 ha) 1 hb).bump (PRS_STAT_COMPOSED s) 2
    | _ => p.modPrs s fun h => { h with jobs := h.jobs ++ [j] }

/-- The order of an owner run (R265). -/
def contribLe (a b : Contribution) : Bool :=
  let k (c : Contribution) : Nat := (c.table <<< 52) + (c.row <<< 20) + (c.chip <<< 4) + c.sector
  k a ≤ k b

/-- Fold one row's contributions (R265, R270). -/
def Part.ownerRow (p : Part) (s : Nat) (cs : List Contribution) : Part :=
  match cs with
  | [] => p
  | c :: _ =>
    let (v, e) := foldSeq (p.prsKeep s) (cs.map (·.vals))
    let bad := cs.find? fun x => x.poison.isSome
    let p := p.bump (PRS_STAT_ADDS s) (cs.length - 1)
    match bad with
    | some b =>
      let p := if cs.length > 1 then p.prsPoison s b.pair c.table c.row (b.poison.getD 0) else p
      p.routeRow s ⟨c.table, 0, c.row, b.pair, v, b.poison⟩
    | none => (p.prsEvents s e).routeRow s ⟨c.table, 0, c.row, c.pair, v, none⟩

/-- OWNER_MERGE (R265, R266). -/
def execOwnerMerge (sector : BitVec 2) (s : State) : Answer :=
  s.run fun p =>
    let x := sector.toNat
    let h := p.prs x
    if !p.serves || !p.pressOn || !p.markersIn || h.ownerDone || h.stopped then p
    else
      let sorted := sortBy contribLe h.owner
      let (ok, p) := p.spill x (sorted.map contribBytes)
      if !ok then p
      else
        let runs := groupAdj (fun c : Contribution => (c.table <<< 32) + c.row) sorted
        let p := p.each runs fun p g => p.ownerRow x g.2
        p.modPrs x fun h => { h with ownerDone := true, owner := [] }

/-- The order of a composed run (R266). -/
def composedLe (a b : Composed) : Bool :=
  let k (c : Composed) : Nat := (c.table <<< 60) + (c.sub <<< 59) + (c.subRow <<< 32) + c.src
  k a ≤ k b

/-- Merge one sub-table row's contributions (R266). -/
def Part.composedRow (p : Part) (s : Nat) (cs : List Composed) : Part :=
  match cs with
  | [] => p
  | c :: _ =>
    let (v, e) := foldTree (p.prsKeep s) (cs.map (·.vals))
    let bad := cs.find? fun x => x.poison.isSome
    let p := p.bump (PRS_STAT_ADDS s) (cs.length - 1)
    let p := match bad with
      | some b => if cs.length > 1 then p.prsPoison s b.pair c.table c.subRow (b.poison.getD 0) else p
      | none => p.prsEvents s e
    let pair := (bad.map (·.pair)).getD c.pair
    p.modPrs s fun h => { h with jobs := h.jobs ++ [⟨c.table, 1 + c.sub, c.subRow, pair, v, bad.bind (·.poison)⟩] }

/-- The master index of a row (R272): `kind` 0 a table row, 1 and 2 rows of sub-tables A and B. -/
def Part.masterIndex (p : Part) (pair : Nat) (T : Tbl) (kind x : Nat) : Option Nat × Part :=
  match kind with
  | 0 =>
    if !T.tiered then (some x, p)
    else
      let ((tier, _), p) := p.tierRow 6 pair T x
      (match tier with
       | .full slot => some slot
       | .scaled slot => some (T.slots0 + slot)
       | _ => none, p)
  | 1 => (some (T.slots0 + T.slots1 + x), p)
  | _ => (some (T.slots0 + T.slots1 + T.subrows + x), p)

/-- Write a merged row of a mode-1 table into its gradient array (R267). -/
def Part.gradRow (p : Part) (s : Nat) (j : RowJob) : Part :=
  let T := p.tbl j.table
  let (mi, p) := p.masterIndex j.pair T j.kind j.x
  match mi with
  | some i =>
    p.store 5 j.pair (p.getF (OPT_TGRAD s j.table) 0 40 + 4 * T.dim * i) (j.vals.flatMap (leBytes 4)) j.poison
  | none =>
    match j.poison with
    | some t => p.prsPoison s j.pair j.table j.x t
    | none => p

/-- COMPOSED_RUN (R266, R267): the sector's composed contributions are merged, and the rows of mode-1 tables go to their gradient
arrays once the sectors have cleared them. -/
def execComposedRun (sector : BitVec 2) (s : State) : Answer :=
  s.run fun p =>
    let x := sector.toNat
    let h := p.prs x
    let ready := sectors.all fun s => (p.prs s).ownerDone && (p.prs s).cleared
    if !p.serves || !p.pressOn || !ready || h.composedDone || h.stopped then p
    else
      let sorted := sortBy composedLe h.composed
      let (ok, p) := p.spill x (sorted.map composedBytes)
      if !ok then p
      else
        let runs := groupAdj (fun c : Composed => (c.table <<< 28) + (c.sub <<< 27) + c.subRow) sorted
        let p := p.each runs fun p g => p.composedRow x g.2
        let isGrad (j : RowJob) : Bool := (p.tbl j.table).mode == 1
        let p := p.each ((p.prs x).jobs.filter isGrad) fun p j => p.gradRow x j
        p.modPrs x fun h =>
          { h with composedDone := true, composed := [], jobs := h.jobs.filter fun j => !(isGrad j) }

/-- Master rows of a table on this part (R272). -/
def Part.masterRows (p : Part) (T : Tbl) : Nat :=
  if T.tiered then T.slots0 + T.slots1 + 2 * T.subrows else p.localRows T

/-- The learned mode-1 tables of a sector. -/
def Part.gradTables (p : Part) (s : Nat) : List Tbl :=
  ((List.range 256).map p.tbl).filter fun T => T.valid && T.mode == 1 && p.getB (OPT_TCFG s T.t) 0

/-- GRAD_ARRAY_CLEAR (R267): from cycle 128 of a learning frame the sector clears its rows of every gradient array. -/
def execGradArrayClear (sector : BitVec 2) (s : State) : Answer :=
  s.run fun p =>
    let x := sector.toNat
    if !p.serves || p.kind ≠ 2 || !p.tick.coresStarted || (p.prs x).cleared then p
    else
      let p := p.each (p.gradTables x) fun p T =>
        p.each ((List.range (p.masterRows T)).filter fun i => i % 4 == x) fun p i =>
          p.store 5 0 (p.getF (OPT_TGRAD x T.t) 0 40 + 4 * T.dim * i) (List.replicate (4 * T.dim) 0) none
      p.modPrs x fun h => { h with cleared := true }

/-- The press has finished its part of the frame (R24, R268). -/
def Part.pressDone (p : Part) : Bool :=
  !p.pressOn || (p.tick.markerSent && sectors.all fun s => (p.prs s).composedDone)

/-- PRS_STATUS.stage (R285): 1 from cycle 128 of a learning frame, 2 from the reduce phase until the sector has sent its contributions,
3 until the markers are in, 4 until the owner fold is done, 5 until the composed run is done, then 6. -/
def Part.pressStage (p : Part) (s : Nat) : Nat :=
  let h := p.prs s
  if !p.pressOn || !p.inFrame then 0
  else if h.composedDone then 6
  else if h.ownerDone then 5
  else if h.sent then (if p.markersIn then 4 else 3)
  else if 1 ≤ p.phase then 2
  else if p.tick.coresStarted then 1
  else 0

end Sys2Proof.Machine
end

