-- ==== Sys2Proof/Machine/Tiles.lean ====
section
/-!
DEFINITION. Stored tiles: the container of R146 to R149, pruning (R145), and the tile fetch and tile store of the gather–scatter
engine (R217, R218).
-/
namespace Sys2Proof.Machine

/-- The header of a container (R146). -/
structure TileHead where
  form : Nat
  fmt : Fmt
  rows : Nat
  nnz : Nat
  len : Nat
  deriving DecidableEq, Repr

/-- Bytes of a payload (R147). -/
def payloadBytes (form rows w nnz : Nat) : Nat :=
  match form with
  | 0 => rows * 32 * w
  | 1 => 1024 * w + 256
  | _ => ceilDiv (rows * 4 + nnz * w) 32 * 32

/-- Read a header; none for one that R149 refuses. -/
def tileHead (bs : List Byte) : Option TileHead :=
  let form := leAt bs 0 1
  let rows := leAt bs 2 1
  let nnz := leAt bs 4 2
  match Fmt.ofCode (leAt bs 1 1) with
  | none => none
  | some f =>
    let ok := form < 3 && (rows == 64 || (rows == 32 && form != 1)) && leAt bs 1 1 ≤ (if form = 1 then 5 else 6) &&
      leAt bs 3 1 == 0 && 32 * leAt bs 6 2 == payloadBytes form rows f.bytes nnz
    if ok then some ⟨form, f, rows, nnz, leAt bs 6 2⟩ else none

/-- The bytes of a header. -/
def TileHead.bytes (h : TileHead) (fmtCode : Nat) : List Byte :=
  leBytes 1 h.form ++ leBytes 1 fmtCode ++ leBytes 1 h.rows ++ leBytes 1 0 ++ leBytes 2 h.nnz ++ leBytes 2 h.len

/-- Decode a form 2 payload (R147): the dense elements. An element past the end of the payload, which a bitmap of more bits than
nnz asks for, is a free value. -/
def bitmapDecode (u w rows : Nat) (payload : List Byte) : List Nat :=
  let map := leNat (payload.take (4 * rows))
  let els := elems w (payload.drop (4 * rows))
  ((List.range (32 * rows)).foldl
    (fun (q : List Nat × Nat) i =>
      if bit map i then ((els[q.2]?).getD (Config.freeWord u q.2 % 2 ^ (8 * w)) :: q.1, q.2 + 1) else (0 :: q.1, q.2))
    ([], 0)).1.reverse

/-- The slot position that an index block holds for value row `r`, column `j` (R140). -/
def idxAt (block : Nat) (r j : Nat) : Nat := fld block (64 * r + 2 * j) 2

/-- The 64 dense rows of a two-of-four payload (R140, R217). Where both slots of a group name one position, for which the spec
states no dense element, it is a free value.
DEDUCED (log 31, safe): Indices beyond the values stored in a compressed tile give free values. -/
def densify (u w : Nat) (payload : List Byte) : List Nat :=
  let els := elems w (payload.take (1024 * w))
  let block := leNat (payload.drop (1024 * w))
  (List.range 2048).map fun i =>
    let k := i / 32
    let j := i % 32
    let r0 := 2 * (k / 4)
    let hit0 := idxAt block r0 j == k % 4
    let hit1 := idxAt block (r0 + 1) j == k % 4
    if hit0 && hit1 then Config.freeWord u i % 2 ^ (8 * w)
    else if hit0 then nth els (32 * r0 + j) 0
    else if hit1 then nth els (32 * (r0 + 1) + j) 0
    else 0

/-- How pruning ranks an element (R145): its magnitude, with a NaN above every number. -/
def pruneRank (f : Fmt) (n : Nat) : Nat :=
  if f.isInt then (sext (8 * f.bytes) n).natAbs
  else if FVal.decode f n == .nan then 2 ^ 32
  else n % 2 ^ f.signBit

/-- The two positions of four that pruning keeps (R145). -/
def prunePick (ranks : List Nat) : Nat × Nat :=
  let l := (sortBy (fun a b => nth ranks b 0 ≤ nth ranks a 0) [0, 1, 2, 3]).take 2
  let a := nth l 0 0
  let b := nth l 1 0
  (min a b, max a b)

/-- Prune a dense 64-row tile to a two-of-four payload (R140, R145). -/
def prune (f : Fmt) (dense : List Nat) : List Byte :=
  let pick (g j : Nat) : Nat × Nat :=
    prunePick ((List.range 4).map fun i => pruneRank f (nth dense (32 * (4 * g + i) + j) 0))
  let cell (r j : Nat) : Nat := let q := pick (r / 2) j; if r % 2 = 0 then q.1 else q.2
  let vals := (List.range 1024).map fun i => nth dense (32 * (4 * (i / 64) + cell (i / 32) (i % 32)) + i % 32) 0
  let block := (List.range 1024).foldl (fun a i => a + (cell (i / 32) (i % 32)) <<< (64 * (i / 32) + 2 * (i % 32))) 0
  vals.flatMap (leBytes f.bytes) ++ leBytes 256 block

/-- Encode a dense tile in a form (R145, R147, R148): the header and the payload. -/
def encodeTile (form : Nat) (f : Fmt) (rows : Nat) (dense : List Nat) : TileHead × List Byte :=
  let w := f.bytes
  let raw := dense.flatMap (leBytes w)
  let plain : TileHead × List Byte := (⟨0, f, rows, 0, rows * w⟩, raw)
  match form with
  | 0 => plain
  | 1 => (⟨1, f, rows, 0, 32 * w + 8⟩, prune f dense)
  | _ =>
    let nz := dense.filter (· != 0)
    let n := payloadBytes 2 rows w nz.length
    if n ≥ rows * 32 * w then plain
    else
      let map := ((List.range dense.length).zip dense).foldl (fun a q => if q.2 = 0 then a else a + 2 ^ q.1) 0
      (⟨2, f, rows, nz.length, n / 32⟩, pad32 (leBytes (4 * rows) map ++ nz.flatMap (leBytes w)))

/-- A decoded tile: rows of granules with their poison, the row length in bytes, or nothing for a container that may not be
used, with the poison that is the reason (none: its header is bad). -/
inductive TileRead where
  | rows (w : Nat) (l : List (List (List Byte × Option Nat)))
  | bad (address : Nat) (token : Option Nat)
  deriving DecidableEq, Repr

/-- Cut granules into rows of `n` bytes. -/
def granRows (n : Nat) (gs : List (List Byte × Option Nat)) : List (List (List Byte × Option Nat)) :=
  chunks (n / 32) gs.length gs

/-- Read and decode the container at `a` (R217). -/
def Part.readTileAt (p : Part) (pair a : Nat) (dense : Bool) : TileRead × Part :=
  let ((hb, t), p) := p.load 3 pair a 8
  match t with
  | some t => (.bad a (some t), p)
  | none =>
    match tileHead hb with
    | none => (.bad a none, p)
    | some h =>
      let w := h.fmt.bytes
      let (gs, p) := p.loadGrans 3 pair (a + 8) (32 * h.len)
      let (u, p) := p.fresh
      let whole (els : List Nat) : TileRead :=
        let t := firstPoison gs
        .rows w (granRows (32 * w) (toGrans [(els.flatMap (leBytes w), t)]))
      if h.form = 0 ∨ (h.form = 1 ∧ !dense) then (.rows w (granRows (32 * w) gs), p)
      else if h.form = 1 then (whole (densify u w (gs.flatMap (·.1))), p)
      else (whole (bitmapDecode u w h.rows (gs.flatMap (·.1))), p)

/-- Read the containers of a request in turn. -/
def Part.readTiles (p : Part) (pair a pitch n : Nat) (dense : Bool) : List TileRead × Part :=
  (List.range n).foldl
    (fun (q : List TileRead × Part) t =>
      let (x, p) := q.2.readTileAt pair (a + t * pitch) dense
      (q.1 ++ [x], p)) ([], p)

/-- Write one row of granules. -/
def Part.putRow (p : Part) (pair a : Nat) (gs : List (List Byte × Option Nat)) : Part :=
  (gs.foldl (fun (q : Part × Nat) g => (q.1.unitStore 3 pair q.2 g.1 g.2, q.2 + g.1.length)) (p, a)).1

/-- Write the tiles read (R217), reporting the bad and the poisoned. -/
def Part.putTiles (p : Part) (s : Nat) (q : Ureq) (tiles : List TileRead) : Bool × Part :=
  let d := q.desc
  let note (p : Part) (i : Nat) (addr tok : Nat) : Part :=
    p.noteErr (GSE_STICKY s) i
      { mkErr 2 i 0 with sector := s, pair := q.pair, core := q.core, addr := p.gaddr addr, aux := tok, char0 := 3 }
  ((List.range tiles.length).zip tiles).foldl
    (fun (r : Bool × Part) x =>
      let p := r.2
      match x.2 with
      | .bad a t =>
        let p := if t.isNone then note p 2 a 0 else p
        (true, note p 3 a (tokenOrigin (t.getD 0)))
      | .rows _ l =>
        let base := addrAt d 16 + x.1 * gParam d 2
        let p := p.each ((List.range l.length).zip l) fun p y => p.putRow q.pair (base + y.1 * gParam d 0) y.2
        let p := p.bump (GSE_STAT_TDEC s) 1
        match firstPoison l.flatten with
        | some t => (true, note p 3 (addrAt d 8 + x.1 * gParam d 1) (tokenOrigin t))
        | none => (r.1, p)) (false, p)

/-- The range a tile of `n` rows of `len` bytes takes at a stride. -/
def tileSpan (n len stride : Nat) : Nat := if n = 0 then 0 else (n - 1) * stride + len

/-- What a tile fetch will read of the container at `a`: its header, with no memory access; none for one it may not use. -/
def Part.peekHead (p : Part) (a : Nat) : Option TileHead := (p.peek a 8).bind tileHead

/-- Rows and bytes a row of the tile that a container holds, as it is written (R217). -/
def TileHead.shape (h : TileHead) (dense : Bool) : Nat × Nat :=
  let w := 32 * h.fmt.bytes
  if h.form = 0 then (ceilDiv (32 * h.len) w, w)
  else if h.form = 1 ∧ !dense then (ceilDiv (32 * h.len) w, w)
  else (h.rows, w)

/-- The containers of a tile fetch that may be used, by number. -/
def Part.fetchHeads (p : Part) (d : List Byte) : List (Nat × TileHead) :=
  (List.range (gCount d)).filterMap fun t => (p.peekHead (addrAt d 8 + t * gParam d 1)).map fun h => (t, h)

/-- A tile of a fetch whose rows are wider than the stride, or whose container does not fit the pitch (R209). -/
def fetchNarrow (d : List Byte) (h : TileHead) : Bool :=
  gParam d 0 < 32 * h.fmt.bytes || gParam d 1 < h.rows * 32 * h.fmt.bytes + 32

/-- The bytes from row 0 of tile 0 that a tile fetch may write (R212). -/
def fetchSpan (d : List Byte) (heads : List (Nat × TileHead)) : Nat :=
  (heads.map fun x => x.1 * gParam d 2 + tileSpan (x.2.shape (gFlag d 3)).1 (x.2.shape (gFlag d 3)).2 (gParam d 0)).foldl max 0

/-- TILE_FETCH_START (R192, R212, R217): the oldest gather request starts, when it is a tile fetch. It is refused before it reads any
container; its destination is one range. -/
def execTileFetchStart (sector : BitVec 2) (s : State) : Answer :=
  s.run fun p =>
    let x := sector.toNat
    p.takeReq x 1 1 fun p q =>
      let d := q.desc
      let n := gCount d
      let src := (n - 1) * gParam d 1 + 8
      let ok := p.descOk x d 256 [3] && gSpec d == 0 && gParam d 1 % 32 == 0 && gParam d 2 % 32 == 0 && gParam d 0 ≥ 32 &&
        addrAt d 8 % 32 == 24
      if !ok then (refusedReq q, p.gseRefuse x q 0)
      else
        let heads := p.fetchHeads d
        let reads := (addrAt d 8, src) :: heads.map fun h => (addrAt d 8 + h.1 * gParam d 1, 8 + 32 * h.2.len)
        if reads.any fun r => !p.srcOk r.1 r.2 then (refusedReq q, (p.denied x).gseRefuse x q 0)
        else if heads.any fun h => fetchNarrow d h.2 then (refusedReq q, p.gseRefuse x q 0)
        else if !p.destOk x (addrAt d 16) (fetchSpan d heads) then
          (refusedReq q, (p.reportDest x (addrAt d 16) (fetchSpan d heads) q.pair).gseRefuse x q 1)
        else
          let (tiles, p) := p.readTiles q.pair (addrAt d 8) (gParam d 1) n (gFlag d 3)
          let (bad, p) := p.putTiles x q tiles
          (⟨q, if bad then 3 else 0, n, 0, 0, [], []⟩, p)

/-- Store one tile (R218): a poisoned source makes the container poison. -/
def Part.storeTile (p : Part) (s : Nat) (q : Ureq) (form : Nat) (f : Fmt) (rows t : Nat) : (Bool × Bool) × Part :=
  let d := q.desc
  let w := f.bytes
  let src := addrAt d 8 + t * gParam d 2
  let dst := addrAt d 16 + t * gParam d 1
  let (got, p) := (List.range rows).foldl
    (fun (r : List (List Byte × Option Nat) × Part) i =>
      let (x, p) := r.2.load 3 q.pair (src + i * gParam d 0) (32 * w)
      (r.1 ++ [x], p)) ([], p)
  match firstPoison got with
  | some tok =>
    let n := payloadBytes (if form = 1 then 1 else 0) rows w 0
    let p := p.unitStore 3 q.pair dst (List.replicate (8 + n) 0) (some tok)
    let p := p.noteErr (GSE_STICKY s) 3
      { mkErr 2 3 0 with sector := s, pair := q.pair, core := q.core, addr := p.gaddr src, aux := tokenOrigin tok, char0 := 3 }
    ((true, false), p.bump (GSE_STAT_TENC s) 1)
  | none =>
    let (h, payload) := encodeTile form f rows (elems w (got.flatMap (·.1)))
    let p := p.unitStore 3 q.pair dst (h.bytes (leAt d 2 2 / 4 % 8) ++ payload) none
    let p := p.bump (GSE_STAT_TENC s) 1
    ((false, h.form == form), if h.form = form then p else p.bump (GSE_STAT_TFALL s) 1)

/-- The element format of a tile store that R146 allows for its form. -/
def storeFmt (spec : Nat) : Option Fmt :=
  let code := fld spec 2 3
  if code > 6 || (spec % 4 == 1 && code > 5) then none else Fmt.ofCode code

/-- TILE_STORE_START (R218): the oldest scatter request starts, when it is a tile store. -/
def execTileStoreStart (sector : BitVec 2) (s : State) : Answer :=
  s.run fun p =>
    let x := sector.toNat
    p.takeReq x 2 1 fun p q =>
      let d := q.desc
      let n := gCount d
      let spec := gSpec d
      let rows := if bit spec 5 then 64 else 32
      match storeFmt spec with
      | none => (refusedReq q, p.gseRefuse x q 0)
      | some f =>
        let w := f.bytes
        let form := spec % 4
        let ok := p.descOk x d 256 [] && spec < 64 && form != 3 && (form != 1 || rows == 64) && gParam d 1 % 32 == 0 &&
          gParam d 2 % 32 == 0 && gParam d 1 ≥ rows * 32 * w + 32 && addrAt d 16 % 32 == 24 &&
          p.srcOk (addrAt d 8) ((n - 1) * gParam d 2 + tileSpan rows (32 * w) (gParam d 0))
        let span := (n - 1) * gParam d 1 + 8 + rows * 32 * w
        if !ok then
          (refusedReq q, (p.reportSrc x (addrAt d 8) ((n - 1) * gParam d 2 + tileSpan rows (32 * w) (gParam d 0))).gseRefuse x q 0)
        else if !p.destOk x (addrAt d 16) span then
          (refusedReq q, (p.reportDest x (addrAt d 16) span q.pair).gseRefuse x q 1)
        else
          let ((bad, kept), p) := (List.range n).foldl
            (fun (r : (Bool × Nat) × Part) t =>
              let ((b, k), p) := r.2.storeTile x q form f rows t
              ((r.1.1 || b, r.1.2 + b2n k), p)) ((false, 0), p)
          (⟨q, if bad then 3 else 0, n, kept, 0, [], []⟩, p)

end Sys2Proof.Machine
end

