-- ==== Sys2Proof/Machine/OptOps.lean ====
section
/-!
DEFINITION. What the optimiser update units do to one row or one master tile (R272 to R281), for this part's own state and, run on
behalf of the twin, for the mirror (R375).
-/
namespace Sys2Proof.Machine

/-- A program with the registers it reads (R273, R274). -/
structure OptProg where
  steps : List Nat
  p1 : Nat
  p2 : Nat
  lr : Nat
  outM : Nat
  outV1 : Nat
  outV2 : Nat
  v1 : Bool
  v2 : Bool
  keep : Bool
  deriving DecidableEq, Repr

/-- Program `n` of a sector. -/
def Part.optProg (p : Part) (s n : Nat) : OptProg :=
  let c := p.rd (OPT_PCFG s n)
  { steps := (List.range (fld c 0 4 + 1)).map fun k => p.rd (OPT_PROG s n k), p1 := p.rd (OPT_PPOW1 s n),
    p2 := p.rd (OPT_PPOW2 s n), lr := p.rd (OPT_PLR s n), outM := fld c 4 4, outV1 := fld c 8 4, outV2 := fld c 12 4,
    v1 := bit c 16, v2 := bit c 17, keep := p.getB (OPT_CTRL s) 1 }

/-- The operand a selector names (R273); `done` lists the results so far, the latest first. -/
def OptProg.arg (o : OptProg) (done : List SVal) (g m v1 v2 imm sel : Nat) : SVal :=
  match sel with
  | 8 => ⟨g, false⟩
  | 9 => ⟨m, false⟩
  | 10 => ⟨v1, false⟩
  | 11 => ⟨v2, false⟩
  | 12 => ⟨o.p1, false⟩
  | 13 => ⟨o.p2, false⟩
  | 14 => ⟨o.lr, false⟩
  | 15 => ⟨imm, false⟩
  | k => nth done k ⟨0, false⟩

/-- Run the steps on one element (R273, R275): the results, the latest first. -/
def OptProg.run (o : OptProg) (g m v1 v2 : Nat) (steps : List Nat) (done : List SVal) : List SVal × Events :=
  match steps with
  | [] => (done, .none)
  | w :: r =>
    let a (lo : Nat) : SVal := o.arg done g m v1 v2 (fld w 0 32) (fld w lo 4)
    let (x, e) := stepFn o.keep (fld w 59 5) (a 55) (a 51) (a 47)
    let (v, e') := stepFinal o.keep x
    let (d, e'') := o.run g m v1 v2 r (v :: done)
    (d, (e.join e').join e'')

/-- The new master and moments of one element (R275). -/
def OptProg.elem (o : OptProg) (g m v1 v2 : Nat) : (Nat × Nat × Nat) × Events :=
  let (d, e) := o.run g m v1 v2 o.steps []
  let out (k : Nat) : Nat := (nth d.reverse k ⟨0, false⟩).bits
  ((out o.outM, out o.outV1, out o.outV2), e)

/-- Where the arrays of a job lie in this part's memory. -/
structure OptPlace where
  master : Nat
  mom1 : Nat
  mom2 : Nat
  n : Nat
  deriving DecidableEq, Repr

/-- Update `n` masters and their moments in place through the journal (R275), or say which poison stops it (R280). The upset is a
fault of an adder in the update. -/
def Part.optUpdate (p : Part) (s prog pair : Nat) (pl : OptPlace) (g : List Nat) (upset : Option Upset) :
    Except Nat (List Nat × Option Upset) × Part :=
  let o := p.optProg s prog
  let rd (p : Part) (use : Bool) (a : Nat) : (List Nat × Option Nat) × Part :=
    if use then
      let ((bs, t), p) := p.load 6 pair a (4 * pl.n)
      ((elems 4 bs, t), p)
    else ((List.replicate pl.n 0, none), p)
  let ((m, t0), p) := rd p true pl.master
  let ((v1, t1), p) := rd p o.v1 pl.mom1
  let ((v2, t2), p) := rd p o.v2 pl.mom2
  match [t0, t1, t2].findSome? id with
  | some t => (.error t, p)
  | none =>
    let (res, e) := mapEv (fun i => o.elem (nth g i 0) (nth m i 0) (nth v1 i 0) (nth v2 i 0)) (List.range pl.n)
    let (ms, hit) := upsetRows upset [res.map (·.1)]
    let ms := ms.headD []
    let p := p.quiet fun p =>
      let p := p.store 6 pair pl.master (ms.flatMap (leBytes 4)) none
      let p := if o.v1 then p.store 6 pair pl.mom1 (res.flatMap fun r => leBytes 4 r.2.1) none else p
      if o.v2 then p.store 6 pair pl.mom2 (res.flatMap fun r => leBytes 4 r.2.2) none else p
    (.ok (ms, hit), p.events (OPT_FMT_STICKY s) e)

/-- The generator of a lane for a row or tile (R276), for the part `chip` and instance `u`. -/
def Part.optLane (p : Part) (chip u rid l : Nat) : Dword :=
  mix64 (srSeed (BitVec.ofNat 64 p.seed) (BitVec.ofNat 64 p.frameNo) 1 chip u l ^^^ mix64 (BitVec.ofNat 64 rid))

/-- Round the binary32 elements a test keeps, lane by lane in ascending order (R93, R276, R278); the others give 0.
DEDUCED (log 141, unsafe): a rounding outside the cores reads its value exactly, and in flush mode replaces a subnormal result by zero with flush_out. -/
def roundKept (lane : Nat → Dword) (f : Fmt) (mode : Nat) (sat keep : Bool) (kept : Nat → Bool) (vals : List Nat) :
    List Nat × Events :=
  let r := ((List.range vals.length).zip vals).foldl
    (fun (q : (List Nat × Events) × Sparse Nat) x =>
      if kept x.1 then
        let l := x.1 % 64
        let n := spGet 0 q.2 l
        let u := if mode = 1 then srDraw (lane l) n else 0
        let (y, e) := convert .b32 f (Mode.ofCode mode u) sat keep x.2
        ((y :: q.1.1, q.1.2.join e), spSet 0 q.2 l (n + 1))
      else ((0 :: q.1.1, q.1.2), q.2)) (([], .none), [])
  (r.1.1.reverse, r.1.2)

/-- A scaled working row (R277): its scale and elements, and whether it was a NaN row or a zero row. -/
def scaledRow (lane : Nat → Dword) (mode : Nat) (keep : Bool) (ms : List Nat) : (Nat × List Nat × Nat) × Events :=
  let amax := (ms.map fun m => FVal.decode .b32 (m % 2 ^ 31)).foldl FVal.max (.fin false 0 0)
  let bad : Bool := match amax with
    | .fin _ _ _ => false
    | _ => true
  if bad then ((0x7FC00000, ms.map fun _ => 0x7F, 1), .none)
  else
    let (scale, e1) := mulB32 keep (roundF .b32 .rne false false amax).1 0x3B124925
    if scale < 0x00800000 then ((0, ms.map fun _ => 0, 2), e1)
    else
      let inv := FVal.decode .b32 (rneB32 true (FVal.rcp (FVal.decode .b32 scale)).1).1
      let (ws, e2) := mapEv (fun m => let (v, e) := readF keep .b32 m; (rtoB32 (v.mul inv).1, e)) ms
      let (qs, e3) := roundKept lane .t8e mode true keep (fun _ => true) ws
      ((scale, qs, 0), (e1.join e2).join e3)

/-- Set the bit of a row in D and clear it in P (R247). -/
def Part.markRow (p : Part) (pair : Nat) (T : Tbl) (i : Nat) : Part :=
  (p.bitmapPut pair T (p.roleD T.t) i true).bitmapPut pair T (1 - p.roleD T.t) i false

/-- Write a working row into the next copy (R247, R277): `kind` 0 a table row, 1 and 2 sub-table rows. -/
def Part.workingCopy (p : Part) (s u pair : Nat) (T : Tbl) (kind x mi : Nat) (ms : List Nat) : Part :=
  let mode := p.getF (OPT_TCFG s T.t) 4 2
  let keep := p.getB (OPT_CTRL s) 1
  let lane := p.optLane T.me u ((T.t <<< 48) ||| mi)
  let next := T.base (p.nextCopy T)
  let put (p : Part) (a : Nat) (bs : List Byte) : Part := p.quiet fun p => p.store 6 pair (T.at (next + a)) bs none
  let scaled (p : Part) (rowAt scaleAt b : Nat) : Part :=
    let ((sc, qs, what), e) := scaledRow lane mode keep ms
    let p := p.events (OPT_FMT_STICKY s) e
    let p := if what = 1 then p.bump (OPT_STAT_NANROW s) 1 else if what = 2 then p.bump (OPT_STAT_ZROW s) 1 else p
    let row := qs.flatMap (leBytes 1) ++ List.replicate (T.w1 - T.dim) 0
    (put (put p rowAt row) scaleAt (leBytes 4 sc)).markRow pair T b
  match kind with
  | 0 =>
    let ((tier, _), p) := p.tierRow 6 pair T x
    match tier with
    | .full slot =>
      let (qs, e) := roundKept lane .t16 mode true keep (fun _ => true) ms
      (put (p.events (OPT_FMT_STICKY s) e) (T.w0 * slot) (qs.flatMap (leBytes 2))).markRow pair T x
    | .scaled slot => scaled p (T.o1 + T.w1 * slot) (T.o1s + 4 * slot) x
    | _ => p.bump (TBL_STAT_WDROP (x % 4)) 1
  | 1 => scaled p (T.oA + T.w1 * x) (T.oAs + 4 * x) (p.localRows T + x)
  | _ => scaled p (T.oB + T.w1 * x) (T.oBs + 4 * x) (p.localRows T + T.subrows + x)

/-- A record of the mirror stream (R375, R376): packets of up to 2,048 bytes with consecutive numbers. -/
def Part.twinSend (p : Part) (kind poison : Nat) (payload : List Byte) : Part :=
  if !p.getB TWN_CTRL 0 then p
  else
    let p := p.each (chunks 2048 64 payload) fun p c =>
      let n := p.twin.seq
      (p.sendPacket (p.getF TWN_CTRL 16 16) 5 kind (n % 2 ^ 20) poison (pad32 c)).modTwin fun t => { t with seq := n + 1 }
    let p := p.modTwin fun t => { t with recs := t.recs + 1, bytes := t.bytes + payload.length }
    p.bump TWN_STAT_TX payload.length

/-- The header of a job record (R281): kind (0 table row, 1 and 2 sub-table rows, 3 block tile), marks (1 skipped, 2 the pair's
container skipped), table or block, master index or tile, program, instance, and the row or the descriptor's number. -/
def jobHeader (kind marks tb mi prog u x : Nat) : List Byte :=
  leBytes 1 kind ++ leBytes 1 marks ++ leBytes 2 tb ++ leBytes 4 mi ++ leBytes 1 prog ++ leBytes 1 u ++ leBytes 2 0 ++ leBytes 4 x

/-- Stream a job to the twin (R281). -/
def Part.streamJob (p : Part) (s : Nat) (head : List Byte) (g : List Nat) : Part :=
  if p.getB TWN_CTRL 0 then
    let bs := head ++ g.flatMap (leBytes 4)
    (p.twinSend 0 0 bs).bump (OPT_STAT_STREAM s) bs.length
  else p

/-- The send half of the twin's queue is full (R376): the optimiser units stall. -/
def Part.twinFull (p : Part) : Bool :=
  p.getB TWN_CTRL 0 &&
    ((p.fab.txq.filter fun q => q.cls == 5).map fun q => q.payload.length).foldl (· + ·) (72 * p.twin.out.length) ≥
      p.getF TWN_QUEUE 48 16 * 2 ^ 19

/-- The layer and operator pair in a poison token (R298). -/
def tokenPair (t : Nat) : Nat := fld t 64 16 <<< 16 + fld t 80 16

/-- The pair of a row job's skip (R280): the row's own, or for a row of a gradient array, which carries none, the token's.
DEDUCED (log 144, unsafe): A row of a gradient array and a block tile carry no pair of their own; their skip names the pair in the poison token. -/
def Tbl.skipPair (T : Tbl) (pair t : Nat) : Nat := if T.mode = 1 then tokenPair t else pair

/-- A row or tile is skipped for poison (R280). -/
def Part.optSkip (p : Part) (s pair a b tok : Nat) : Part :=
  let p := p.bump (OPT_STAT_SKIP s) 1
  let p := p.consume s 6 0xFFFF pair tok
  p.noteErr (OPT_STICKY s) 0 { mkErr 5 0 0 with sector := s, pair := pair, aux := tokenOrigin tok, char0 := 6, loc0 := a, loc1 := b }

/-- The arrays of row `mi` of a table (R272). -/
def Part.rowPlace (p : Part) (s : Nat) (T : Tbl) (mi : Nat) : OptPlace :=
  let at' (r : Nat) : Nat := T.at (p.getF r 0 40 + 4 * T.dim * mi)
  ⟨at' (OPT_TMASTER s T.t), at' (OPT_TMOM1 s T.t), at' (OPT_TMOM2 s T.t), T.dim⟩

/-- Run a row job on unit `u` (R271, R275, R277): skipped on poison; `known` says that a directory entry names the row, whose
working copy is then written. It answers whether the row was skipped, and the fault a residue check would see. -/
def Part.rowJob (p : Part) (s u : Nat) (T : Tbl) (kind x mi pair : Nat) (known : Bool) (g : List Nat) (poison : Option Nat)
    (upset : Option Upset) : (Bool × Option Upset) × Part :=
  match poison with
  | some t => ((true, none), p.optSkip s (T.skipPair pair t) T.t x t)
  | none =>
    match p.optUpdate s (p.getF (OPT_TCFG s T.t) 1 3) pair (p.rowPlace s T mi) g upset with
    | (.error t, p) => ((true, none), p.optSkip s (T.skipPair pair t) T.t x t)
    | (.ok (ms, hit), p) =>
      let p := if known then p.workingCopy s u pair T kind x mi ms else p
      ((false, hit), (p.bump (OPT_STAT_ROWS s) 1).bump (OPT_STAT_ELEM s) T.dim)

/-- The fields of a block descriptor (R278). -/
structure BlockDesc where
  idx : Nat
  bytes : List Byte
  wins : List MirWin
  chip : Nat
  deriving DecidableEq, Repr

/-- Program. -/
def BlockDesc.prog (d : BlockDesc) : Nat := leAt d.bytes 1 1 % 8
/-- Master tiles. -/
def BlockDesc.tiles (d : BlockDesc) : Nat := leAt d.bytes 4 4
/-- Block identifier. -/
def BlockDesc.block (d : BlockDesc) : Nat := leAt d.bytes 8 2
/-- Form of emission `e`. -/
def BlockDesc.form (d : BlockDesc) (e : Nat) : Nat := leAt d.bytes (64 + 32 * e) 1
/-- Format code of emission `e`. -/
def BlockDesc.fmt (d : BlockDesc) (e : Nat) : Nat := leAt d.bytes (65 + 32 * e) 1
/-- Rounding byte of emission `e`. -/
def BlockDesc.rnd (d : BlockDesc) (e : Nat) : Nat := leAt d.bytes (66 + 32 * e) 1
/-- Pitch of emission `e`. -/
def BlockDesc.pitch (d : BlockDesc) (e : Nat) : Nat := leAt d.bytes (68 + 32 * e) 4

/-- An emission breaks R278. -/
def BlockDesc.emitBad (d : BlockDesc) (e : Nat) : Bool :=
  let b := 64 + 32 * e
  if leAt d.bytes (b + 3) 1 != 0 || leAt d.bytes (b + 24) 8 != 0 || leAt d.bytes (b + 13) 3 != 0 || leAt d.bytes (b + 21) 3 != 0 ||
    d.rnd e ≥ 8 then true
  else if d.form e = 0xFF then false
  else
    match Fmt.ofCode (d.fmt e) with
    | none => true
    | some f =>
      let rows := if d.form e = 1 then 64 else 32
      d.form e > 1 || d.fmt e > (if d.form e = 1 then 5 else 6) || d.rnd e % 4 == 3 ||
        d.pitch e % 32 != 0 || d.pitch e < rows * 32 * f.bytes + 32 || (d.form e == 1 && d.tiles % 2 == 1) ||
        leAt d.bytes (b + 8) 5 % 32 != 24 || leAt d.bytes (b + 16) 5 % 32 != 24 || (bit (leAt d.bytes 2 1) 0 && d.rnd e % 4 == 1)

/-- A descriptor that R278 refuses. -/
def BlockDesc.bad (d : BlockDesc) : Bool :=
  leAt d.bytes 0 1 != 0 || leAt d.bytes 1 1 ≥ 8 || leAt d.bytes 2 1 ≥ 2 || leAt d.bytes 3 1 != 0 || d.tiles == 0 ||
    d.tiles > 65536 || leAt d.bytes 10 6 != 0 || (List.range 4).any (fun i => leAt d.bytes (21 + 8 * i) 3 != 0) ||
    leAt d.bytes 48 8 != 0 || leAt d.bytes 56 8 != 0 || d.emitBad 0 || d.emitBad 1

/-- Address of tile `t` of array `i` (0 masters, 1 and 2 moments, 3 gradients). -/
def BlockDesc.tileAt (d : BlockDesc) (i t : Nat) : Nat := mirAt d.wins (leAt d.bytes (16 + 8 * i) 5 + 4096 * t)

/-- The arrays of tile `t`. -/
def BlockDesc.place (d : BlockDesc) (t : Nat) : OptPlace := ⟨d.tileAt 0 t, d.tileAt 1 t, d.tileAt 2 t, 1024⟩

/-- Container `n` of emission `e` in the copy that programs do not read. -/
def BlockDesc.container (d : BlockDesc) (vintage e n : Nat) : Nat :=
  mirAt d.wins (leAt d.bytes (if vintage % 2 = 1 then 72 + 32 * e else 80 + 32 * e) 5 + n * d.pitch e)

/-- The number R276 gives a tile. -/
def BlockDesc.rid (d : BlockDesc) (t : Nat) : Nat := (1 <<< 63) ||| (d.block <<< 24) ||| t

/-- Emit a form 0 container of one tile (R278). -/
def Part.emitDense (p : Part) (s u : Nat) (d : BlockDesc) (e t : Nat) (f : Fmt) (ms : List Nat) : Part :=
  let keep := p.getB (OPT_CTRL s) 1
  let (qs, ev) := roundKept (p.optLane d.chip u (d.rid t)) f (d.rnd e % 4) (bit (d.rnd e) 2) keep (fun _ => true) ms
  let h : TileHead := ⟨0, f, 32, 0, 32 * f.bytes⟩
  (p.events (OPT_FMT_STICKY s) ev).quiet fun p =>
    p.store 6 0 (d.container (p.rd TIK_VINTAGE) e t) (h.bytes (d.fmt e) ++ qs.flatMap (leBytes f.bytes)) none

/-- Emit a form 1 container of tiles `2i` and `2i + 1` (R145, R278): pruned as binary32, then rounded tile by tile. -/
def Part.emitPair (p : Part) (s u : Nat) (d : BlockDesc) (e i : Nat) (f : Fmt) (ms : List Nat) : Part :=
  let keep := p.getB (OPT_CTRL s) 1
  let pick (g j : Nat) : Nat × Nat := prunePick ((List.range 4).map fun k => pruneRank .b32 (nth ms (32 * (4 * g + k) + j) 0))
  let cell (r j : Nat) : Nat := let q := pick (r / 2) j; 4 * (r / 2) + (if r % 2 = 0 then q.1 else q.2)
  let kept (base n : Nat) : Bool :=
    let row := (base + n) / 32
    let q := pick (row / 4) (n % 32)
    row % 4 == q.1 || row % 4 == q.2
  let half (h : Nat) : List Nat × Events :=
    roundKept (p.optLane d.chip u (d.rid (2 * i + h))) f (d.rnd e % 4) (bit (d.rnd e) 2) keep (kept (1024 * h))
      ((ms.drop (1024 * h)).take 1024)
  let (a, ea) := half 0
  let (b, eb) := half 1
  let qs := a ++ b
  let vals := (List.range 1024).map fun n => nth qs (32 * cell (n / 32) (n % 32) + n % 32) 0
  let block := (List.range 1024).foldl (fun x n => x + (cell (n / 32) (n % 32) % 4) <<< (64 * (n / 32) + 2 * (n % 32))) 0
  let h : TileHead := ⟨1, f, 64, 0, 32 * f.bytes + 8⟩
  (p.events (OPT_FMT_STICKY s) (ea.join eb)).quiet fun p =>
    p.store 6 0 (d.container (p.rd TIK_VINTAGE) e i) (h.bytes (d.fmt e) ++ vals.flatMap (leBytes f.bytes) ++ leBytes 256 block) none

/-- Emit what tile `t` completes: its own container, and behind an odd tile the pair's unless the pair's first tile was skipped. -/
def Part.emitTile (p : Part) (s u : Nat) (d : BlockDesc) (t : Nat) (ms : List Nat) (pairOk : Bool) : Part :=
  p.each [0, 1] fun p e =>
    match Fmt.ofCode (d.fmt e) with
    | none => p
    | some f =>
      if d.form e = 0 then p.emitDense s u d e t f ms
      else if d.form e = 1 && t % 2 == 1 && pairOk then
        let ((bs, _), p) := p.load 6 0 (d.tileAt 0 (t - 1)) 4096
        p.emitPair s u d e (t / 2) f (elems 4 bs ++ ms)
      else p

/-- Run a block job on one tile (R275, R278, R280): whether it was skipped.
DEDUCED (log 62, unsafe): Block jobs restart the stochastic generator at each block. -/
def Part.tileJob (p : Part) (s u : Nat) (d : BlockDesc) (t : Nat) (g : List Nat) (poison : Option Nat) (pairOk : Bool) : Bool × Part :=
  match poison with
  | some k => (true, p.optSkip s (tokenPair k) d.block t k)
  | none =>
    match p.optUpdate s d.prog 0 (d.place t) g none with
    | (.error k, p) => (true, p.optSkip s (tokenPair k) d.block t k)
    | (.ok (ms, _), p) =>
      let p := p.emitTile s u d t ms pairOk
      (false, (p.bump (OPT_STAT_TILES s) 1).bump (OPT_STAT_ELEM s) 1024)

/-- Descriptor `i` of unit `u`'s list, with the poison of its lines (R278). -/
def Part.blockDesc (p : Part) (s ctl i : Nat) : (BlockDesc × Option Nat) × Part :=
  let ((bs, t), p) := p.load 6 0 (p.getF (OPT_BLK s ctl) 0 40 + 128 * i) 128
  ((⟨i, bs, [], p.chip⟩, t), p)

end Sys2Proof.Machine
end

