-- ==== Sys2Proof/Machine/Optim.lean ====
section
/-!
DEFINITION. The jobs of the optimiser update units (R271 to R281).
-/
namespace Sys2Proof.Machine

/-- Jobs of a sector may run (R271): in the commit phase of a learning frame, with room in the twin's queue. -/
def Part.optOn (p : Part) (s : Nat) : Bool :=
  p.serves && p.phase == 2 && p.kind == 2 && p.getB (OPT_CTRL s) 0 && !p.twinFull

/-- The place in a tier that a master index below the sub-tables' stands for (R272). -/
def Tbl.slotOf (T : Tbl) (i : Nat) : Tier := if i < T.slots0 then .full i else .scaled (i - T.slots0)

/-- The row of a mode-1 table that a master index stands for (R272), given how the row of a slot is found: its kind, its number, and
whether a directory entry names it. -/
def Tbl.masterRow (T : Tbl) (i : Nat) (find : Tier → Option Nat) : Nat × Nat × Bool :=
  if !T.tiered then (0, i, true)
  else if i < T.slots0 + T.slots1 then
    match find (T.slotOf i) with
    | some r => (0, r, true)
    | none => (0, i, false)
  else
    let j := i - T.slots0 - T.slots1
    if j < T.subrows then (1, j, true) else (2, j - T.subrows, true)

/-- The row of a master index as the directory now reads. -/
def Part.masterRow (p : Part) (T : Tbl) (i : Nat) : Nat × Nat × Bool :=
  T.masterRow i fun want => (List.range (p.localRows T)).find? fun r =>
    match p.peek (T.at (T.dir + 4 * r)) 4 with
    | some bs => T.tierOf (leNat bs) == want
    | none => false

/-- Read directory entries until one names a slot, by decoded reads (R293). -/
def Part.slotRow (p : Part) (T : Tbl) (want : Tier) (rows : List Nat) : Option Nat × Part :=
  match rows with
  | [] => (none, p)
  | r :: rest =>
    let ((w, t), p) := p.loadN 6 0 (T.at (T.dir + 4 * r)) 4
    if t.isNone && T.tierOf w == want then (some r, p) else p.slotRow T want rest

/-- The unit finds the row of a master index.
DESIGN CHOICE (log 145, unsafe): The unit reads the directory from row 0 on until an entry names the slot; an entry on a poisoned line names none. -/
def Part.readMasterRow (p : Part) (T : Tbl) (i : Nat) : (Nat × Nat × Bool) × Part :=
  if T.tiered && i < T.slots0 + T.slots1 then
    let (r, p) := p.slotRow T (T.slotOf i) (List.range (p.localRows T))
    (T.masterRow i fun _ => r, p)
  else (T.masterRow i fun _ => none, p)

/-- The next row of a mode-1 table of the sector that has had no job (R271). -/
def Part.nextGradRow (p : Part) (s : Nat) : Option (Tbl × Nat) :=
  (p.gradTables s).findSome? fun T =>
    ((List.range (p.masterRows T)).find? fun i =>
      (p.masterRow T i).2.1 % 4 == s && !(spGet false (p.opt s).rows1 ((T.t <<< 40) + i))).map fun i => (T, i)

/-- The instance that runs the job of row `x` (R271). -/
def rowUnit (s x : Nat) : Nat := 2 * s + (x >>> 2) % 2

/-- Report an update whose residues do not agree (R485, R486). -/
def Part.optResidue (p : Part) (s pair prog : Nat) (hit : Option Upset) : Part :=
  match hit with
  | some u =>
    if p.resOn then p.residueFails { mkErr 5 1 3 with sector := s, pair := pair, char0 := char0Of 5 prog 6 6 0 0 0 u.node }
    else p
  | none => p

/-- Run a row job of this part and stream it. -/
def Part.ownRowJob (p : Part) (s : Nat) (T : Tbl) (kind x mi pair : Nat) (known : Bool) (g : List Nat) (poison : Option Nat)
    (upset : Option Upset) : Part :=
  let u := rowUnit s x
  let prog := p.getF (OPT_TCFG s T.t) 1 3
  let ((skipped, hit), p) := p.rowJob s u T kind x mi pair known g poison upset
  let p := p.optResidue s pair prog hit
  p.streamJob s (jobHeader kind (b2n skipped) T.t mi prog u x) (if skipped then [] else g)

/-- OPT_ROW_JOB (R271): the sector runs its next row job, a merged row first, then the rows of gradient arrays. -/
def execOptRowJob (sector : BitVec 2) (upset : Option Upset) (s : State) : Answer :=
  s.run fun p =>
    let x := sector.toNat
    if !p.optOn x || !p.pressDone then p
    else
      match (p.prs x).jobs with
      | j :: rest =>
        let p := p.modPrs x fun h => { h with jobs := rest }
        let T := p.tbl j.table
        let (mi, p) := p.masterIndex j.pair T j.kind j.x
        match mi with
        | some i => p.ownRowJob x T j.kind j.x i j.pair true j.vals j.poison upset
        | none =>
          match j.poison with
          | some t => p.optSkip x j.pair j.table j.x t
          | none => p.bump (TBL_STAT_WDROP x) 1
      | [] =>
        match p.nextGradRow x with
        | none => p
        | some (T, i) =>
          let ((kind, r, known), p) := p.readMasterRow T i
          let ((bs, t), p) := p.load 6 0 (p.getF (OPT_TGRAD x T.t) 0 40 + 4 * T.dim * i) (4 * T.dim)
          let o := p.opt x
          let p := p.setOpt x { o with rows1 := spSet false o.rows1 ((T.t <<< 40) + i) true }
          p.ownRowJob x T kind r i 0 known (elems 4 bs) t upset

/-- Run the tiles of a block in turn, each streamed as it completes (R278, R281). -/
def Part.runTiles (p : Part) (s u : Nat) (d : BlockDesc) : Part :=
  ((List.range d.tiles).foldl
    (fun (q : Bool × Part) t =>
      let ((bs, k), p) := q.2.load 6 0 (d.tileAt 3 t) 4096
      let g := elems 4 bs
      let (skipped, p) := p.tileJob s u d t g k (!q.1)
      let marks := b2n skipped + 2 * b2n (t % 2 == 1 && q.1)
      (skipped, p.streamJob s (jobHeader 3 marks d.block t d.prog u d.idx) (if skipped then [] else g))) (false, p)).2

/-- OPT_BLOCK_JOB (R278): the unit reads its next descriptor and runs it, or refuses it. -/
def execOptBlockJob (sector : BitVec 2) (ctl : BitVec 1) (s : State) : Answer :=
  s.run fun p =>
    let x := sector.toNat
    let o := p.opt x
    let i := if ctl = 0 then o.blk0 else o.blk1
    if !p.optOn x || i ≥ p.getF (OPT_BLK x ctl.toNat) 48 15 then p
    else
      let p := p.setOpt x (if ctl = 0 then { o with blk0 := i + 1 } else { o with blk1 := i + 1 })
      let ((d, t), p) := p.blockDesc x ctl.toNat i
      match t with
      | some k => p.optSkip x (tokenPair k) 0xFFFF i k
      | none =>
        if d.bad then p.noteErr (OPT_STICKY x) 1 { mkErr 5 1 0 with sector := x, loc0 := i }
        else p.runTiles x (2 * x + ctl.toNat) d

/-- Every job of a sector has run (R24, R271). -/
def Part.optDone (p : Part) (s : Nat) : Bool :=
  p.kind != 2 || !p.getB (OPT_CTRL s) 0 ||
    ((p.prs s).jobs.isEmpty && (p.nextGradRow s).isNone && (p.opt s).blk0 ≥ p.getF (OPT_BLK s 0) 48 15 &&
      (p.opt s).blk1 ≥ p.getF (OPT_BLK s 1) 48 15)

/-- A unit of a sector has jobs in flight (R286): row jobs of rows that run on it, or block jobs of its list. -/
def Part.unitBusy (p : Part) (s c : Nat) : Bool :=
  let mine (x : Nat) : Bool := rowUnit s x == 2 * s + c
  p.optOn s && ((p.prs s).jobs.any (fun j => mine j.x) ||
    ((p.gradTables s).any fun T => (List.range (p.masterRows T)).any fun i =>
      let x := (p.masterRow T i).2.1
      x % 4 == s && mine x && !(spGet false (p.opt s).rows1 ((T.t <<< 40) + i))) ||
    (if c = 0 then (p.opt s).blk0 else (p.opt s).blk1) < p.getF (OPT_BLK s c) 48 15)

end Sys2Proof.Machine
end

