-- ==== Sys2Proof/Machine/Reduce.lean ====
section
/-!
DEFINITION. The reduction engine (R358 to R371): the box, rings and gathers of a bucket, one-bit reduction, and the blocks they exchange.
-/
namespace Sys2Proof.Machine

/-- Extent of dimension `i` of the box (R358). -/
def Part.boxM (p : Part) (i : Nat) : Nat := p.getF RED_BOX (4 * i) 4 + 1

/-- Parts of the box. -/
def Part.boxN (p : Part) : Nat := p.boxM 0 * p.boxM 1 * p.boxM 2 * p.boxM 3

/-- Position of a part in dimension `i` of the box (R358). -/
def Part.boxPos (p : Part) (chip i : Nat) : Nat := (fld chip (4 * i) 4 + 16 - p.getF RED_BOX (16 + 4 * i) 4) % 16

/-- A part at other positions of the box: `f i` in dimension `i`. -/
def Part.boxChip (p : Part) (f : Nat → Nat) : Nat :=
  (List.range 4).foldl (fun c i => c + ((p.getF RED_BOX (16 + 4 * i) 4 + f i) % 16) <<< (4 * i)) 0

/-- The rank of a part in the box (R366). -/
def Part.boxRank (p : Part) (chip : Nat) : Nat :=
  p.boxPos chip 0 + p.boxM 0 * (p.boxPos chip 1 + p.boxM 1 * (p.boxPos chip 2 + p.boxM 2 * p.boxPos chip 3))

/-- The part of a rank. -/
def Part.rankChip (p : Part) (r : Nat) : Nat :=
  let m0 := p.boxM 0
  let m1 := p.boxM 1
  let m2 := p.boxM 2
  p.boxChip fun i =>
    match i with
    | 0 => r % m0
    | 1 => r / m0 % m1
    | 2 => r / (m0 * m1) % m2
    | _ => r / (m0 * m1 * m2)

/-- A bucket runs in frames of the frame's kind (R360). -/
def Part.bktOn (p : Part) (b : Nat) : Bool :=
  b < 4096 && p.getB RED_CTRL 0 && p.getB (RED_BKT_CFG b) 0 && p.getB (RED_BKT_CFG b) (1 + p.kind)

/-- The buckets of the frame. -/
def Part.bktsOn (p : Part) : List Nat := (List.range 4096).filter p.bktOn

/-- Elements of a bucket (R358). -/
def Part.bktN (p : Part) (b : Nat) : Nat := 32 * p.getF (RED_BKT_IN b) 40 24

/-- The pair a bucket's work is charged to. -/
def Part.bktPair (p : Part) (b : Nat) : Nat := p.getF (RED_BKT_CFG b) 32 32

/-- Bucket mode: one-bit. -/
def Part.bktOneBit (p : Part) (b : Nat) : Bool := p.getF (RED_BKT_CFG b) 14 2 == 1

/-- Bytes of an element in a format field of RED_BKT_CFG: 2 for T16, 4 for binary32. -/
def Part.bktWidth (p : Part) (b lo : Nat) : Nat := if p.getF (RED_BKT_CFG b) lo 3 = 2 then 2 else 4

/-- The press lets a bucket start (R360). -/
def Part.bktPress (p : Part) (b : Nat) : Bool :=
  !p.getB (RED_BKT_CFG b) 16 || sectors.all fun s => (p.prs s).composedDone

/-- The first element and the length of range R_{i-1} of this part (R361). -/
def Part.bktRange (p : Part) (b i : Nat) : Nat × Nat :=
  match i with
  | 0 => (0, p.bktN b)
  | i + 1 =>
    let (s, e) := p.bktRange b i
    let m := p.boxM i
    (s + (p.boxPos p.chip i + 1) % m * (e / m), e / m)

/-- Where the sub-area of dimension `i` begins in the scratch area (R364). -/
def Part.bktScratch (p : Part) (b i : Nat) : Nat :=
  p.getF (RED_BKT_AUX b) 0 40 +
    4 * ((List.range i).map fun k => if p.boxM k = 1 then 0 else (p.bktRange b k).2).foldl (· + ·) 0

/-- The stage a reduce takes from dimension `i` on: 2 to 5, or 6 when no dimension is left (R361). -/
def Part.nextReduce (p : Part) (i : Nat) : Nat :=
  match ([0, 1, 2, 3].filter fun k => k ≥ i && p.boxM k > 1) with
  | k :: _ => 2 + k
  | [] => 6

/-- The gather stage from dimension `i` down: 7 to 10, or none (R363). -/
def Part.nextGather (p : Part) (i : Nat) : Option Nat :=
  ([3, 2, 1, 0].find? fun k => k ≤ i && p.boxM k > 1).map fun k => 10 - k

/-- Bytes of numbers in granules of 32 bytes, a poisoned granule as its token: `g` gives the token of a granule. -/
def granBytes (w : Nat) (vals : List Nat) (g : Nat → Option Nat) : List (List Byte × Option Nat) :=
  let cs := chunks 32 vals.length (vals.flatMap (leBytes w))
  ((List.range cs.length).zip cs).map fun q =>
    match g q.1 with
    | some t => (tokenBytes t, some t)
    | none => (q.2, none)

/-- The poison flags of granules, the first of them granule 1 of the block. -/
def granFlags (gs : List (List Byte × Option Nat)) : Nat :=
  ((List.range gs.length).zip gs).foldl (fun a q => if q.2.2.isSome then a + 2 ^ (q.1 + 1) else a) 0

/-- The header of a reduction block (R369). -/
def redHeader (b stage step first count count32 scale : Nat) : List Byte :=
  leBytes 2 b ++ leBytes 1 stage ++ leBytes 1 step ++ leBytes 4 first ++ leBytes 4 count ++ leBytes 4 count32 ++ leBytes 4 scale ++
    leBytes 12 0

/-- Send granules as reduction blocks of up to `per` elements, `gw` of them in a granule (R334, R369). -/
def Part.redSend (fuel : Nat) (p : Part) (b dst kind stage step first scale per gw count : Nat) (gs : List (List Byte × Option Nat)) :
    Part :=
  match fuel with
  | 0 => p
  | fuel + 1 =>
    if count = 0 then p
    else
      let n := min per count
      let mine := gs.take (ceilDiv n gw)
      let bytes := redHeader b stage step first n (p.getF (RED_BKT_IN b) 40 24) scale ++ mine.flatMap (·.1)
      let (_, p) := p.sendBlock dst kind (granFlags mine) bytes
      let p := (p.bump RED_STAT_TX bytes.length).sentFor (p.bktPair b) bytes.length
      Part.redSend fuel p b dst kind stage step (first + n) scale per gw (count - n) (gs.drop (ceilDiv n gw))

/-- The next part of the ring of dimension `i` (R361). -/
def Part.ringNext (p : Part) (i : Nat) : Nat :=
  p.boxChip fun k => let x := p.boxPos p.chip k; if k = i then (x + 1) % p.boxM i else x

/-- The first output granule of a bucket written as poison (R371). -/
def Part.redPoison (p : Part) (b tok : Nat) : Part :=
  let x := p.bkt b
  if x.poisonSeen then p
  else
    let p := p.setBkt b { x with poisonSeen := true }
    let p := p.consume (p.stack (p.getF (RED_BKT_OUT b) 0 40) / 2) 8 0xFFFF (p.bktPair b) tok
    p.noteErr RED_STICKY 1 { mkErr 9 1 0 with pair := p.bktPair b, aux := tokenOrigin tok, char0 := 8, loc0 := b }

/-- Write output granules of a bucket (R363, R371). -/
def Part.redOut (p : Part) (b a : Nat) (gs : List (List Byte × Option Nat)) : Part :=
  let p := p.putGrans 8 (p.bktPair b) a gs
  match firstPoison gs with
  | some t => p.redPoison b t
  | none => p

/-- A bucket's own input as binary32 values, with the poison of each granule of eight (R361, R371). -/
def Part.redInput (p : Part) (b : Nat) : (List Nat × Sparse Nat) × Part :=
  let w := p.bktWidth b 4
  let n := p.bktN b
  let (gs, p) := p.loadGrans 8 (p.bktPair b) (p.getF (RED_BKT_IN b) 0 40) (w * n)
  let wide (x : Nat) : Nat := if w = 4 then x else (rneB32 true (FVal.decode .t16 x)).1
  let vals := gs.flatMap fun g => (elems w g.1).map wide
  let per := 32 / w / 8
  let toks := ((List.range gs.length).zip gs).foldl
    (fun (m : Sparse Nat) q =>
      match q.2.2 with
      | some t => (List.range per).foldl (fun m k => spPut m (per * q.1 + k) t) m
      | none => m) []
  ((vals, toks), p)

/-- Elements of `l` from `a`, `n` of them. -/
def slice {α : Type} (l : List α) (a n : Nat) : List α := (l.drop a).take n

/-- Whether a stage and step's blocks cover `n` elements. -/
def Bucket.has (x : Bucket) (stage step n : Nat) : Bool :=
  ((x.got.filter fun g => g.1 == stage && g.2.1 == step).map fun g => g.2.2.2).foldl (· + ·) 0 ≥ n

/-- received + own for a chunk of `n` elements at `at'` of the range that begins at element `s` (R361, R371). -/
def Part.redAdd (p : Part) (b i s at' n : Nat) : Part :=
  let x := p.bkt b
  let (gs, p) := p.loadGrans 8 (p.bktPair b) (p.bktScratch b i + 4 * at') (4 * n)
  let keep := p.getB RED_CTRL 1
  let step (q : (List Nat × Sparse Nat) × Events) (e : Nat × (List Byte × Option Nat)) : (List Nat × Sparse Nat) × Events :=
    let g := (s + at') / 8 + e.1
    let own := slice x.vals (at' + 8 * e.1) 8
    match e.2.2, q.1.2.find? fun m => m.1 == g with
    | some t, _ => ((q.1.1 ++ own, spPut q.1.2 g t), q.2)
    | none, some _ => ((q.1.1 ++ own, q.1.2), q.2)
    | none, none =>
      let (v, ev) := mapEv (fun z : Nat × Nat => addB32 keep z.1 z.2) ((elems 4 e.2.1).zip own)
      ((q.1.1 ++ v, q.1.2), q.2.join ev)
  let ((vs, toks), ev) := ((List.range gs.length).zip gs).foldl step (([], x.poison), Events.none)
  let p := p.setBkt b { x with vals := x.vals.take at' ++ vs ++ x.vals.drop (at' + n), poison := toks }
  (p.events RED_FMT_STICKY ev).bump RED_STAT_ADDS n

/-- Send a chunk of the range as reduce-stage blocks to the next position (R361).
DESIGN CHOICE (log 63, unsafe): Reduction blocks: 16,384 elements in a reduce block and 524,288 bits in a one-bit block; the gather ring starts at chunk p + 1 − t. -/
def Part.redSendChunk (p : Part) (b i t s at' n : Nat) : Part :=
  let x := p.bkt b
  let gs := granBytes 4 (slice x.vals at' n) fun k => (x.poison.find? fun m => m.1 == (s + at') / 8 + k).map (·.2)
  p.redSend (n / 16384 + 1) b (p.ringNext i) 3 i t (s + at') 0 16384 8 n gs

/-- A reduce step of dimension `i` (R361): the chunk received in the step before is added, and the sum is sent on, or after the last
step kept as R_i. -/
def Part.reduceRing (p : Part) (b i : Nat) : Part :=
  let x := p.bkt b
  let t := x.step
  let m := p.boxM i
  let pos := p.boxPos p.chip i
  let (s, e) := p.bktRange b i
  let n := e / m
  let c := (pos + m - t % m) % m
  if t > 0 && !x.has i (t - 1) n then p
  else
    let p := if t > 0 then p.redAdd b i s (c * n) n else p
    if t + 1 < m then
      let p := p.redSendChunk b i t s (c * n) n
      p.setBkt b { p.bkt b with step := t + 1 }
    else
      let y := p.bkt b
      p.setBkt b { y with stage := p.nextReduce (i + 1), step := 0, vals := slice y.vals (c * n) n }

/-- The final rounding (R363): the owner's range in the output format.
DEDUCED (log 141, unsafe): a rounding outside the cores reads its value exactly, and in flush mode replaces a subnormal result by zero with flush_out. -/
def Part.finalRound (p : Part) (b : Nat) : Part :=
  let x := p.bkt b
  let (s, n) := p.bktRange b 4
  let w := p.bktWidth b 7
  let cfg := RED_BKT_CFG b
  let keep := p.getB RED_CTRL 1
  let mode := p.getF cfg 10 2
  let tok (j : Nat) : Option Nat := (x.poison.find? fun m => m.1 == j / 8).map (·.2)
  let lane (j : Nat) : Dword :=
    mix64 (srSeed (BitVec.ofNat 64 p.seed) (BitVec.ofNat 64 p.frameNo) 2 p.chip 0 (j % 64) ^^^
      mix64 (BitVec.ofNat 64 ((b <<< 40) ||| (j >>> 6))))
  let conv (q : Nat × Nat) : Nat × Events :=
    if w = 4 || (tok q.1).isSome then (q.2, .none)
    else
      let u := if mode = 1 then srDraw (lane q.1) 0 else 0
      convert .b32 .t16 (Mode.ofCode mode u) (p.getB cfg 12) keep q.2
  let (vs, ev) := mapEv conv (((List.range n).map (s + ·)).zip x.vals)
  let per := 32 / w
  let gs := granBytes w vs fun k => (List.range (per / 8)).findSome? fun i => tok (s + per * k + 8 * i)
  let gather := p.getB cfg 13
  let p := (p.events RED_FMT_STICKY ev).redOut b (p.getF (RED_BKT_OUT b) 0 40 + (if gather then w * s else 0)) gs
  let y := p.bkt b
  let y := { y with written := y.written + n, vals := [], poison := [], step := 0 }
  match (if gather then p.nextGather 3 else none) with
  | some st => p.setBkt b { y with stage := st }
  | none => p.setBkt b { y with sent := true }

/-- A gather step of dimension `i` (R363): the chunk of R_i, then each chunk received, is sent on unchanged. -/
def Part.gatherRing (p : Part) (b i : Nat) : Part :=
  let x := p.bkt b
  let t := x.step
  let m := p.boxM i
  let pos := p.boxPos p.chip i
  let (s, e) := p.bktRange b i
  let n := e / m
  let h := 7 - i
  if t > 0 && !x.has h (t - 1) n then p
  else if t + 1 < m then
    let c := (pos + 1 + m - t % m) % m
    let w := p.bktWidth b 7
    let first := s + c * n
    let (gs, p) := p.loadGrans 8 (p.bktPair b) (p.getF (RED_BKT_OUT b) 0 40 + w * first) (w * n)
    let p := p.redSend (n / 16384 + 1) b (p.ringNext i) 4 h t first 0 16384 (32 / w) n gs
    p.setBkt b { p.bkt b with step := t + 1 }
  else
    match (if i = 0 then none else p.nextGather (i - 1)) with
    | some st => p.setBkt b { x with stage := st, step := 0 }
    | none => p.setBkt b { x with sent := true }

/-- REDUCE_STEP (R361, R363): the bucket's next ring step, or its final rounding, once its inputs are there. -/
def execReduceStep (bucket : Nat) (s : State) : Answer :=
  s.run fun p =>
    let x := p.bkt bucket
    if !p.serves || !p.bktOn bucket || x.sent then p
    else
      match x.stage with
      | 2 => p.reduceRing bucket 0
      | 3 => p.reduceRing bucket 1
      | 4 => p.reduceRing bucket 2
      | 5 => p.reduceRing bucket 3
      | 6 => p.finalRound bucket
      | 7 => p.gatherRing bucket 3
      | 8 => p.gatherRing bucket 2
      | 9 => p.gatherRing bucket 1
      | 10 => p.gatherRing bucket 0
      | _ => p

/-- A magnitude. -/
def absB32 (x : Nat) : Nat := x % 2 ^ 31

/-- The one-bit split of R366: the mean magnitude of `es`, their sign bits and the errors left.
DEDUCED (log 141, unsafe): the division is no addition, multiplication or fused multiply-add, so it flushes nothing. -/
def oneBitSplit (keep : Bool) (es : List Nat) : (Nat × List Bool × List Nat) × Events :=
  let (sum, e1) := match es with
    | [] => (0, Events.none)
    | x :: r => r.foldl (fun (q : Nat × Events) y =>
        let (z, e) := addB32 keep q.1 (absB32 y)
        (z, q.2.join e)) (absB32 x, .none)
  let (scale, e3) := finishB32 true ((FVal.decode .b32 sum).div (.fin false es.length 0)) .none
  let bits : List Bool := es.map fun x => bit x 31
  let (left, e4) := mapEv (fun q : Nat × Bool => subB32 keep q.1 (if q.2 then scale ^^^ 2 ^ 31 else scale)) (es.zip bits)
  ((scale, bits, left), (e1.join e3).join e4)

/-- ±scale by sign bits. -/
def oneBitVals (scale : Nat) (bits : List Bool) : List Nat := bits.map fun s => if s then scale ^^^ 2 ^ 31 else scale

/-- Sign bits packed least significant first (R366). -/
def packBits (bits : List Bool) : List Byte :=
  (chunks 8 bits.length bits).map fun c => BitVec.ofNat 8 (((List.range c.length).zip c).foldl (fun a q => if q.2 then a + 2 ^ q.1 else a) 0)

/-- Sign bits of packed bytes. -/
def unpackBits (n : Nat) (bs : List Byte) : List Bool := (bs.flatMap fun b => (List.range 8).map fun i => bit b.toNat i).take n

/-- Send the sign bits of a chunk, all of it poison when its scale is (R366, R371). -/
def Part.sendBits (p : Part) (b dst kind stage first scale : Nat) (bits : List Bool) (poison : Option Nat) : Part :=
  let gs := (chunks 32 bits.length (pad32 (packBits bits))).map fun c =>
    match poison with
    | some t => (tokenBytes t, some t)
    | none => (c, none)
  p.redSend (bits.length / 524288 + 1) b dst kind stage 0 first scale 524288 256 bits.length gs

/-- Read `n` binary32 values with the first poison among them. -/
def Part.redLoad (p : Part) (b a n : Nat) : (List Nat × Option Nat) × Part :=
  let ((bs, t), p) := p.load 8 (p.bktPair b) a (4 * n)
  ((elems 4 bs, t), p)

/-- Write binary32 values, all of them poison when a token is given. -/
def Part.redStore (p : Part) (b a : Nat) (vals : List Nat) (poison : Option Nat) : Part :=
  p.store 8 (p.bktPair b) a (vals.flatMap (leBytes 4)) poison

/-- Write a chunk of the one-bit result (R367). -/
def Part.oneBitOut (p : Part) (b a scale : Nat) (bits : List Bool) (poison : Option Nat) : Part :=
  let p := p.redOut b a (granBytes 4 (oneBitVals scale bits) fun _ => poison)
  p.setBkt b { p.bkt b with written := (p.bkt b).written + bits.length }

/-- The pieces of one source's contribution, in the order of their elements. -/
def Bucket.fromSrc (x : Bucket) (src : Nat) : List OneBit :=
  sortBy (fun a b : OneBit => a.first ≤ b.first) (x.contribs.filter fun c => c.src == src)

/-- The owner's part of a one-bit bucket (R367), once every part of the box has contributed to its chunk. -/
def Part.oneBitOwner (p : Part) (b : Nat) : Part :=
  let x := p.bkt b
  let n := p.bktN b / p.boxN
  let chips := sortBy (· ≤ ·) ((List.range p.boxN).map p.rankChip)
  let whole (c : Nat) : Bool := ((x.fromSrc c).map fun o => o.bits.length).foldl (· + ·) 0 ≥ n
  if x.stage ≠ 12 || !chips.all whole then p
  else
    let keep := p.getB RED_CTRL 1
    let rows := chips.map fun c => (x.fromSrc c).flatMap fun o => oneBitVals o.scale o.bits
    let (acc, e1) := foldSeq keep rows
    let eoAt := p.getF (RED_BKT_AUX b) 0 40 + 4 * p.bktN b
    let ((eo, t), p) := p.redLoad b eoAt n
    let tok := (x.contribs.findSome? fun o => o.poison).or t
    let (d, e2) := mapEv (fun q : Nat × Nat => addB32 keep q.1 q.2) (acc.zip eo)
    let ((scale, bits, left), e3) := oneBitSplit keep d
    let p := p.redStore b eoAt left tok
    let p := if tok.isSome then p else p.events RED_FMT_STICKY ((e1.join e2).join e3)
    let p := p.bump RED_STAT_ADDS (n * chips.length)
    let r := p.boxRank p.chip
    let gather := p.getB (RED_BKT_CFG b) 13
    let p := p.setBkt b { p.bkt b with stage := 13, contribs := [], sent := true }
    let p :=
      if gather then p.each (chips.filter (· != p.chip)) fun p c => p.sendBits b c 6 9 (r * n) scale bits tok
      else p
    p.oneBitOut b (p.getF (RED_BKT_OUT b) 0 40 + (if gather then 4 * r * n else 0)) scale bits tok

/-- The error memory of a one-bit bucket is made its own (R368): zeroed when its header is another box's or count's.
DEDUCED (log 151, unsafe): A poisoned header counts as one that differs. -/
def Part.oneBitMemory (p : Part) (b : Nat) : Part :=
  let n := p.bktN b
  let aux := p.getF (RED_BKT_AUX b) 0 40
  let eo := 4 * (n / p.boxN)
  let want := leBytes 4 (p.rd RED_BOX) ++ leBytes 4 (p.getF (RED_BKT_IN b) 40 24) ++ leBytes 24 0
  let ((bs, t), p) := p.load 8 (p.bktPair b) (aux + 4 * n + eo) 32
  if t.isNone && bs == want then p
  else
    let p := p.store 8 (p.bktPair b) aux (List.replicate (4 * n + eo) 0) none
    let p := p.store 8 (p.bktPair b) (aux + 4 * n + eo) want none
    (p.bump RED_STAT_OBRESET 1).noteErr RED_STICKY 2 { mkErr 9 2 0 with pair := p.bktPair b, loc0 := b }

/-- The sender's part of a one-bit bucket (R366).
DEDUCED (log 152, unsafe): RED_STAT_ADDS counts an element once for e = g + es, and once for each contribution an owner takes. -/
def Part.oneBitSend (p : Part) (b : Nat) : Part :=
  let p := p.oneBitMemory b
  let n := p.bktN b
  let keep := p.getB RED_CTRL 1
  let aux := p.getF (RED_BKT_AUX b) 0 40
  let ((g, t1), p) := p.redLoad b (p.getF (RED_BKT_IN b) 0 40) n
  let ((es, t2), p) := p.redLoad b aux n
  let tok := t1.or t2
  let (e, e1) := mapEv (fun q : Nat × Nat => addB32 keep q.1 q.2) (g.zip es)
  let ((scale, bits, left), e2) := oneBitSplit keep e
  let p := p.redStore b aux left tok
  let p := if tok.isSome then p else p.events RED_FMT_STICKY (e1.join e2)
  let p := p.bump RED_STAT_ADDS n
  let k := n / p.boxN
  let p := p.each (List.range p.boxN) fun p r =>
    let mine := slice bits (r * k) k
    if p.rankChip r = p.chip then
      let x := p.bkt b
      p.setBkt b { x with contribs := x.contribs ++ [⟨p.chip, r * k, mine, scale, tok⟩] }
    else p.sendBits b (p.rankChip r) 5 8 (r * k) scale mine tok
  (p.setBkt b { p.bkt b with stage := 12 }).oneBitOwner b

/-- BUCKET_START (R360): in ascending number, from the reduce phase on, and after the press where wait_press is set. -/
def execBucketStart (bucket : Nat) (s : State) : Answer :=
  s.run fun p =>
    let ready (b : Nat) : Bool := p.bktOn b && p.bktPress b
    let before := (List.range bucket).any fun b => ready b && (p.bkt b).stage == 0
    if !p.serves || p.phase = 0 || !ready bucket || (p.bkt bucket).stage ≠ 0 || before then p
    else if p.bktOneBit bucket then (p.setBkt bucket { p.bkt bucket with stage := 11 }).oneBitSend bucket
    else
      let ((vals, toks), p) := p.redInput bucket
      p.setBkt bucket { p.bkt bucket with stage := p.nextReduce 0, step := 0, vals := vals, poison := toks }

/-- A block that R370 discards. -/
def Part.bktMismatch (p : Part) (b src : Nat) : Part := p.noteErr RED_STICKY 3 { mkErr 9 3 0 with loc0 := b, loc1 := src }

/-- A reduction block waiting to be taken: its packet, if any of the kinds. -/
def Part.redBlock (p : Part) (kinds : List Nat) : Option Packet := p.fab.rx.find? fun q => q.cls == 2 && kinds.contains q.kind

/-- Whether a ring block is one this part's configuration expects (R370): the bucket, its count, the chunk of the step, and no element of it
twice. -/
def Part.ringBlockOk (p : Part) (q : Packet) : Bool :=
  let b := leAt q.payload 0 2
  let h := leAt q.payload 2 1
  let t := leAt q.payload 3 1
  let first := leAt q.payload 4 4
  let count := leAt q.payload 8 4
  let i := if h < 4 then h else 7 - h
  let m := p.boxM i
  let pos := p.boxPos p.chip i
  let (s, e) := p.bktRange b i
  let n := e / m
  let c := if h < 4 then (pos + 2 * m - 1 - t) % m else (pos + m - t) % m
  let lo := s + c * n
  let w := if h < 4 then 4 else p.bktWidth b 7
  p.bktOn b && (p.bkt b).stage != 14 && !p.bktOneBit b && h < 8 && (if q.kind = 3 then h < 4 else h ≥ 4 && p.getB (RED_BKT_CFG b) 13) &&
    leAt q.payload 12 4 == p.getF (RED_BKT_IN b) 40 24 && m > 1 && t + 1 < m && lo ≤ first && first + count ≤ lo + n && count > 0 &&
    count % 32 == 0 && q.payload.length == 32 + w * count &&
    (p.bkt b).got.all fun g => g.1 != h || first + count ≤ g.2.2.1 || g.2.2.1 + g.2.2.2 ≤ first

/-- The granules of a block behind its header, with their poison. -/
def blockGrans (q : Packet) : List (List Byte × Option Nat) :=
  let cs := chunks 32 (q.payload.length / 32 + 1) (q.payload.drop 32)
  ((List.range cs.length).zip cs).map fun c => (c.2, if bit q.poison (c.1 + 1) then some (leNat c.2) else none)

/-- REDUCE_BLOCK_ARRIVE (R364, R370): a reduce-stage block goes to scratch, a gather-stage block to the output area. -/
def execReduceBlockArrive (s : State) : Answer :=
  s.run fun p =>
    match p.redBlock [3, 4] with
    | none => p
    | some q =>
      let b := leAt q.payload 0 2
      if !p.working then p
      else if !p.ringBlockOk q then (p.takeRx q).bktMismatch b q.src
      else
        let h := leAt q.payload 2 1
        let first := leAt q.payload 4 4
        let count := leAt q.payload 8 4
        let p := (p.takeRx q).bump RED_STAT_RX q.payload.length
        let p :=
          if h < 4 then p.putGrans 8 (p.bktPair b) (p.bktScratch b h + 4 * (first - (p.bktRange b h).1)) (blockGrans q)
          else
            let p := p.redOut b (p.getF (RED_BKT_OUT b) 0 40 + p.bktWidth b 7 * first) (blockGrans q)
            p.setBkt b { p.bkt b with written := (p.bkt b).written + count }
        let x := p.bkt b
        p.setBkt b { x with got := (h, leAt q.payload 3 1, first, count) :: x.got }

/-- Whether a one-bit block is one this part expects (R370). -/
def Part.bitBlockOk (p : Part) (q : Packet) (owner : Nat) : Bool :=
  let b := leAt q.payload 0 2
  let first := leAt q.payload 4 4
  let count := leAt q.payload 8 4
  let n := p.bktN b / p.boxN
  let r := p.boxRank owner
  p.bktOn b && (p.bkt b).stage != 14 && p.bktOneBit b && leAt q.payload 12 4 == p.getF (RED_BKT_IN b) 40 24 && r < p.boxN && r * n ≤ first &&
    first + count ≤ (r + 1) * n && count > 0 && q.payload.length == 32 + 32 * ceilDiv count 256

/-- ONEBIT_CONTRIB_ARRIVE (R367): a contribution to this part's chunk is kept; with the last one the owner sums them. -/
def execOnebitContribArrive (s : State) : Answer :=
  s.run fun p =>
    match p.redBlock [5] with
    | none => p
    | some q =>
      let b := leAt q.payload 0 2
      let x := p.bkt b
      let first := leAt q.payload 4 4
      if !p.working then p
      else if !p.bitBlockOk q p.chip || leAt q.payload 2 1 ≠ 8 || x.stage = 13 ||
          x.contribs.any (fun c => c.src == q.src && c.first == first) then (p.takeRx q).bktMismatch b q.src
      else
        let gs := blockGrans q
        let o : OneBit :=
          ⟨q.src, first, unpackBits (leAt q.payload 8 4) (gs.flatMap (·.1)), leAt q.payload 16 4, firstPoison gs⟩
        let p := (p.takeRx q).bump RED_STAT_RX q.payload.length
        (p.setBkt b { x with contribs := x.contribs ++ [o] }).oneBitOwner b

/-- ONEBIT_RESULT_ARRIVE (R367): the chunk's elements are written as ±scale_o. -/
def execOnebitResultArrive (s : State) : Answer :=
  s.run fun p =>
    match p.redBlock [6] with
    | none => p
    | some q =>
      let b := leAt q.payload 0 2
      let x := p.bkt b
      let first := leAt q.payload 4 4
      let count := leAt q.payload 8 4
      if !p.working then p
      else if !p.bitBlockOk q q.src || leAt q.payload 2 1 ≠ 9 || !p.getB (RED_BKT_CFG b) 13 || q.src = p.chip ||
          x.got.any (fun g => g.2.2.1 == first) then (p.takeRx q).bktMismatch b q.src
      else
        let gs := blockGrans q
        let p := (p.takeRx q).bump RED_STAT_RX q.payload.length
        let p := p.setBkt b { x with got := (9, 0, first, count) :: x.got }
        p.oneBitOut b (p.getF (RED_BKT_OUT b) 0 40 + 4 * first) (leAt q.payload 16 4) (unpackBits count (gs.flatMap (·.1)))
          (firstPoison gs)

/-- Output elements a part writes (R363, R367). -/
def Part.bktOutputs (p : Part) (b : Nat) : Nat := if p.getB (RED_BKT_CFG b) 13 then p.bktN b else p.bktN b / p.boxN

/-- BUCKET_COMPLETE (R365). -/
def execBucketComplete (bucket : Nat) (s : State) : Answer :=
  s.run fun p =>
    let x := p.bkt bucket
    if !p.working || !p.bktOn bucket || x.stage < 2 || x.stage = 14 || !x.sent || x.written < p.bktOutputs bucket then p
    else (p.setBkt bucket { x with stage := 14 }).bump RED_STAT_BKT 1

/-- The reduce work of the part is complete (R365). -/
def Part.reduceDone (p : Part) : Bool := p.pressDone && p.bktsOn.all fun b => (p.bkt b).stage == 14

/-- RED_BKT_STATE of a bucket.
DEDUCED (log 152, unsafe): A bucket of the frame that has not started shows waiting from the reduce phase on; RED_STATUS.active counts those started and not complete. -/
def Part.bktState (p : Part) (b : Nat) : Nat :=
  let x := p.bkt b
  let st := if x.stage = 0 && p.bktOn b && 1 ≤ p.phase then 1 else x.stage
  (st <<< 28) + (p.bktRange b 4).1 / 32

end Sys2Proof.Machine
end

