-- ==== Sys2Proof/Machine/FrameOps.lean ====
section
/-!
DEFINITION. When a part's work of a frame is complete (R24, R63, R347, R365, R377).
-/
namespace Sys2Proof.Machine

/-- A core with a role has halted and all of its operations have retired (R63): a finished tile that no drain pops is no operation; a
pass whose close waits for room in the queue is one. -/
def Core.retired (k : Core) : Bool :=
  k.st == .halted && k.mq.isEmpty && k.loading.isNone && k.passes.isEmpty && k.closing.isEmpty && k.vq.isEmpty &&
    k.vrun.isNone && k.irr.all (·.done)

/-- No queue has been violated or holds a stale ticket, and no flow has overrun its window: any of these fails the frame (R170, R175,
R186).
DEDUCED (log 124, unsafe): The means by which a violated queue, a stale ticket and a flow-window overrun always fail the frame (R170, R175, R186): the part's compute work is not complete while any of them stands, so it fails with cause 1 at G. -/
def Part.orderKept (p : Part) : Bool :=
  sectors.all fun s =>
    ((p.sch s).queues.all fun e => !e.2.violated && !e.2.stale) && (p.sch s).flows.all fun e => !e.2.broken

/-- The part's compute work is complete (R63, R186). -/
def Part.computeDone (p : Part) : Bool :=
  p.orderKept && p.roleCores.all (fun c => (p.core c).retired) &&
    sectors.all fun s =>
      let u := p.unit s
      u.smpQ.isEmpty && u.gatQ.isEmpty && u.scaQ.isEmpty && u.lkpQ.isEmpty && u.running.isEmpty && (p.rck s).transfers.isEmpty

/-- A packet of the data plane, accounting and acknowledgements of flags apart (R347). -/
def dataPacket (q : Packet) : Bool := countedCls q && !(q.cls == 3 && (q.kind == 4 || q.kind == 5 || q.kind == 8 || q.kind == 9)) && !(q.cls == 1 && q.kind == 6)

/-- All of the part's data-plane sending for the frame is complete (R347). -/
def Part.sendingDone (p : Part) : Bool := p.computeDone && p.reduceDone && !(p.fab.txq.any dataPacket)

/-- The accounting toward a destination has closed (R347). -/
def TxWin.closed (w : TxWin) : Bool := !w.counted || (w.acctSent && w.unacked.all fun u => u.2 != 8)

/-- The part's accounting has closed. -/
def Part.acctClosed (p : Part) : Bool :=
  p.sendingDone && (p.fab.txq.all fun q => !(q.cls == 3 && q.kind == 8)) && p.fab.txWin.all fun e => e.2.closed

/-- All jobs of the optimiser units have run (R271). -/
def Part.jobsDone (p : Part) : Bool := sectors.all p.optDone

/-- The twin has acknowledged the frame's mirror stream (R377). -/
def Part.twinDone (p : Part) : Bool := !p.getB TWN_CTRL 0 || p.twin.ack == 1

/-- The part's commit work is complete (R24, R250). -/
def Part.commitDone (p : Part) : Bool :=
  p.jobsDone && p.twinDone && p.acctClosed && (!p.spanEnding || p.levelled)

end Sys2Proof.Machine
end

