-- ==== Sys2Proof/Machine/Twin.lean ====
section
/-!
DEFINITION. The twin mirror unit (R373 to R382): the mirror stream at its sender and at the twin, loss declarations, and restore.
-/
namespace Sys2Proof.Machine

/-- Raw lines packed into records (R375): up to 28 entries of 72 bytes; a poisoned line travels alone, with the granule of its first
whole 32 bytes flagged.
DEDUCED (log 64, unsafe): A raw line packet to the twin carries at most 28 entries (R375). -/
def packLines (fuel : Nat) (l : List TwinRec) : List (Nat × List Byte) :=
  match fuel with
  | 0 => []
  | fuel + 1 =>
    match l with
    | [] => []
    | r :: rest =>
      if r.poison = 1 then (2, r.payload) :: packLines fuel rest
      else
        let clean := (l.takeWhile fun x => x.poison == 0).take 28
        (0, clean.flatMap (·.payload)) :: packLines fuel (l.drop clean.length)

/-- What a record of raw lines holds: address, line and poison of each entry. -/
def unpackLines (q : Packet) : List (Nat × List Byte × Option Nat) :=
  (chunks 72 (q.payload.length / 72) q.payload).map fun c =>
    let line := c.drop 8
    (leAt c 0 8, line, if q.poison = 0 then none else some (leNat (line.take 32)))

/-- The unit sends the raw lines that wait, and behind them the end marker once the frame's jobs and lines are all sent (R375, R377). -/
def Part.twinPump (p : Part) : Part :=
  if !p.getB TWN_CTRL 0 || !p.working || p.twin.endSent then p
  else
    let lines := p.twin.out
    let p := p.modTwin fun t => { t with out := [] }
    let p := p.each (packLines lines.length lines) fun p r => p.twinSend 1 r.1 r.2
    if p.phase = 2 && p.computeDone && p.reduceDone && p.jobsDone then
      let mark := leBytes 8 p.twin.recs ++ leBytes 8 p.twin.bytes ++ leBytes 16 0
      let n := p.twin.seq
      let p := p.sendPacket (p.getF TWN_CTRL 16 16) 5 2 (n % 2 ^ 20) 0 mark
      p.modTwin fun t => { t with seq := n + 1, endSent := true }
    else p

/-- The part applies its twin's records (R376, R381): in the commit phase, unless it carries. -/
def Part.mirrors (p : Part) : Bool :=
  p.working && p.phase == 2 && p.getB TWN_CTRL 0 && p.getF TWN_STATUS 0 3 == 1

/-- The record packet with sequence number `n` of the frame (R376). -/
def Part.twinPacket (p : Part) (n : Nat) : Option Packet :=
  p.fab.rx.find? fun q => q.cls == 5 && q.kind ≤ 2 && q.ref == n % 2 ^ 20

/-- The packets of one job record from sequence number `n` on, once all of them are here. -/
def Part.jobPackets (fuel : Nat) (p : Part) (n left : Nat) : Option (List Packet) :=
  match fuel with
  | 0 => none
  | fuel + 1 =>
    if left = 0 then some []
    else
      match p.twinPacket n with
      | some q => (Part.jobPackets fuel p (n + 1) (left - min left 2048)).map (q :: ·)
      | none => none

/-- Bytes of a job record: its header alone where the job was skipped. -/
def Part.jobLen (p : Part) (h : List Byte) : Nat :=
  if bit (leAt h 1 1) 0 then 16
  else if leAt h 0 1 = 3 then 16 + 4096
  else 16 + 4 * (p.tbl (leAt h 2 2 % 256)).dim

/-- Run a partner's job on the mirror (R281, R375). -/
def Part.mirrorJob (p : Part) (h : List Byte) (g : List Nat) : Part :=
  let kind := leAt h 0 1
  let u := leAt h 9 1 % 8
  let s := u / 2
  if bit (leAt h 1 1) 0 then p
  else if kind = 3 then
    let ((d, _), p) := p.blockDesc s (u % 2) (leAt h 12 4)
    (p.tileJob s u { d with wins := p.twin.partner, chip := p.getF TWN_CTRL 16 16 } (leAt h 4 4) g none (!bit (leAt h 1 1) 1)).2
  else
    let T := p.mirTbl (leAt h 2 2 % 256)
    let mi := leAt h 4 4
    let known : Bool := if T.mode = 1 then (p.masterRow T mi).2.2 else true
    (p.rowJob s u T kind (leAt h 12 4) mi 0 known g none none).2

/-- The unit has taken a record of `k` packets and `n` bytes. -/
def Part.tookRecord (p : Part) (qs : List Packet) (n : Nat) : Part :=
  let p := p.each qs fun p q => p.takeRx q
  let p := p.modTwin fun t => { t with rxNext := t.rxNext + qs.length, rxRecs := t.rxRecs + 1, rxBytes := t.rxBytes + n }
  p.bump TWN_STAT_RX n

/-- TWIN_JOB_RECORD (R375, R376): the next record in sequence, a job of the partner. -/
def execTwinJobRecord (s : State) : Answer :=
  s.run fun p =>
    match p.twinPacket p.twin.rxNext with
    | none => p
    | some q =>
      if !p.mirrors || q.kind ≠ 0 then p
      else
        let n := p.jobLen q.payload
        match Part.jobPackets 64 p p.twin.rxNext n with
        | none => p
        | some qs =>
          let bytes := (qs.flatMap (·.payload)).take n
          let p := p.tookRecord qs n
          (p.mirrorJob (bytes.take 16) (elems 4 (bytes.drop 16))).bump TWN_STAT_JOBS 1

/-- The mirror address of a partner's address, if a window covers it (R373). -/
def Part.inMirror (p : Part) (a : Nat) : Option Nat :=
  (p.twin.partner.find? fun w => w.base ≤ a && a < w.base + 4096 * w.granules).map fun w => w.mirror + (a - w.base)

/-- TWIN_RAW_LINES (R375, R378, R379): the next record in sequence, lines of the partner, through this part's journal. -/
def execTwinRawLines (s : State) : Answer :=
  s.run fun p =>
    match p.twinPacket p.twin.rxNext with
    | none => p
    | some q =>
      if !p.mirrors || q.kind ≠ 1 then p
      else
        let ls := unpackLines q
        let p := p.tookRecord [q] (72 * ls.length)
        p.each ls fun p l =>
          match p.inMirror l.1 with
          | some a => (p.writeLine 9 0 a l.2.1 l.2.2).bump TWN_STAT_RAW 1
          | none => p

/-- TWIN_END_MARKER (R377): acknowledged where every record up to its counts has been applied; a gap answer where a record before it
is not here or a count differs. -/
def execTwinEndMarker (s : State) : Answer :=
  s.run fun p =>
    match p.fab.rx.find? fun q => q.cls == 5 && q.kind == 2 with
    | none => p
    | some q =>
      if !p.mirrors then p
      else
        let t := p.twin
        let twin := p.getF TWN_CTRL 16 16
        if q.ref = t.rxNext % 2 ^ 20 ∧ leAt q.payload 0 8 = t.rxRecs ∧ leAt q.payload 8 8 = t.rxBytes then
          (p.takeRx q).sendPacket twin 5 3 q.ref 0 []
        else if q.ref ≠ t.rxNext % 2 ^ 20 ∧ (p.twinPacket t.rxNext).isSome then p
        else
          let p := (p.takeRx q).sendPacket twin 5 4 q.ref 0 []
          p.noteErr TWN_STICKY 2 { mkErr 10 2 0 with loc0 := q.ref, loc1 := t.rxNext }

/-- Cause 8 (R377): no acknowledgement, or a gap answer. -/
def Part.noAck (p : Part) : Part :=
  ((p.bump TWN_STAT_NOACK 1).stick TWN_STICKY 1).failCause 8

/-- TWIN_ACK_RECEIVE (R377). -/
def execTwinAckReceive (s : State) : Answer :=
  s.run fun p =>
    match p.fab.rx.find? fun q => q.cls == 5 && (q.kind == 3 || q.kind == 4) with
    | none => p
    | some q =>
      if !p.live || !p.twin.endSent then p
      else
        let p := (p.takeRx q).modTwin fun t => { t with ack := if q.kind = 3 then 1 else 2 }
        if q.kind = 3 then p else p.noAck

/-- LOSS_DECLARATION_RECEIVE (R380, R381): the lost part is recorded and the part is halted; the lost part's twin carries. -/
def execLossDeclarationReceive (s : State) : Answer :=
  s.run fun p =>
    match p.fab.rx.find? fun q => q.cls == 3 && q.kind == 10 with
    | none => p
    | some q =>
      let x := leAt q.payload 0 2
      let p := (p.takeRx q).noteErr TWN_STICKY 0 { mkErr 10 0 0 with loc0 := x }
      let p := (p.putF TWN_STATUS 15 17 (2 * x + 1)).putB TIK_STATUS 11 true
      if p.getB TWN_CTRL 0 && p.getF TWN_CTRL 16 16 == x then p.putF TWN_STATUS 0 3 2 else p

/-- The unit's restore fails (R382). -/
def Part.restoreFail (p : Part) : Part := (p.modTwin fun t => { t with restoring := false }).noteErr TWN_STICKY 3 (mkErr 10 3 0)

/-- Begin a restore (R382): the spare asks its twin for every window.
DESIGN CHOICE (log 74, unsafe): Restore packets are of class 5, kinds 5 to 7: request, lines, state. -/
def Part.restoreStart (p : Part) : Part :=
  if !p.getB TWN_CTRL 0 || p.running && !p.getB TIK_STATUS 11 || p.twin.restoring then p
  else if !p.bundleUp 8 then p.restoreFail
  else
    let p := p.sendPacket (p.getF TWN_CTRL 16 16) 5 5 0 0 p.winBytes
    (p.putF TWN_STATUS 0 3 4).modTwin fun t => { t with restoring := true }

/-- TWIN_RESTORE (R382): TWN_RESTORE.start is written. -/
def execTwinRestore (s : State) : Answer := s.run Part.restoreStart

/-- The windows a list of 16-byte entries names, the unused ones left out. -/
def readWins (bs : List Byte) : List MirWin :=
  ((chunks 16 16 bs).map fun c =>
    let b := leAt c 0 8
    (⟨b % 2 ^ 40, b >>> 40, leAt c 8 8 % 2 ^ 40⟩ : MirWin)).filter fun w => w.granules != 0

/-- Send the lines of `n` granules from `src`, addressed for the other part at `dst` (R382). -/
def Part.sendLines (p : Part) (src dst n : Nat) : Part :=
  let (recs, p) := (List.range (64 * n)).foldl
    (fun (q : List TwinRec × Part) i =>
      let ((bs, t), p) := q.2.readLine 1 9 0 (src + 64 * i)
      (q.1 ++ [⟨1, leBytes 8 (dst + 64 * i) ++ bs, b2n t.isSome⟩], p)) ([], p)
  let p := p.each (packLines recs.length recs) fun p r => p.sendPacket (p.getF TWN_CTRL 16 16) 5 6 0 r.1 (pad32 r.2)
  p.bump TWN_STAT_RESTORE (64 * recs.length)

/-- The state a restore takes from the twin (R382), behind a mark that it is granted and the number of lines sent. -/
def Part.restoreState (p : Part) (lines : Nat) : List Byte :=
  leBytes 4 1 ++ leBytes 4 lines ++ leBytes 8 (p.rd TIK_COUNT) ++ leBytes 8 (p.rd TIK_FRAME_NO) ++ leBytes 4 (p.rd TIK_SEASON_POS) ++
    leBytes 4 (p.rd TIK_VINTAGE) ++ leBytes 8 (p.rd (SCH_ST_BASE 0)) ++
    (List.range 8).flatMap (fun n => leBytes 4 (p.rd (OPT_PPOW1 0 n)) ++ leBytes 4 (p.rd (OPT_PPOW2 0 n)) ++ leBytes 8 (p.rd (OPT_PSTEP 0 n))) ++
    (List.range 256).flatMap (fun t => leBytes 1 (p.getF (TBL_TPEND 0 t) 63 1))

/-- TWIN_RESTORE_PULL (R382): the carrying twin returns the lost part's windows and state and pushes its own windows, or refuses windows
that are not those it holds. -/
def execTwinRestorePull (s : State) : Answer :=
  s.run fun p =>
    match p.fab.rx.find? fun q => q.cls == 5 && q.kind == 5 with
    | none => p
    | some q =>
      if p.getF TWN_STATUS 0 3 ≠ 2 then p
      else
        let p := p.takeRx q
        let ws := readWins q.payload
        if ws ≠ p.twin.partner then
          let p := p.sendPacket (p.getF TWN_CTRL 16 16) 5 7 0 0 (leBytes 32 0)
          p.restoreFail
        else
          let mine := readWins p.winBytes
          let p := p.putF TWN_STATUS 0 3 3
          let p := p.each ws fun p w => p.sendLines w.mirror w.base w.granules
          let p := p.each mine fun p w => p.sendLines w.base w.mirror w.granules
          let n := ((ws ++ mine).map fun w => 64 * w.granules).foldl (· + ·) 0
          p.sendPacket (p.getF TWN_CTRL 16 16) 5 7 0 0 (pad32 (p.restoreState n))

/-- Take the twin's state (R382). -/
def Part.takeState (p : Part) (bs : List Byte) : Part :=
  let p := ((p.wr TIK_COUNT (leAt bs 8 8)).wr TIK_FRAME_NO (leAt bs 16 8)).wr TIK_SEASON_POS (leAt bs 24 4)
  let p := p.wr TIK_VINTAGE (leAt bs 28 4)
  p.each sectors fun p s =>
    let p := p.wr (SCH_ST_BASE s) (leAt bs 32 8)
    let p := p.each (List.range 8) fun p n =>
      ((p.wr (OPT_PPOW1 s n) (leAt bs (40 + 16 * n) 4)).wr (OPT_PPOW2 s n) (leAt bs (44 + 16 * n) 4)).wr (OPT_PSTEP s n)
        (leAt bs (48 + 16 * n) 8)
    p.each (List.range 256) fun p t => p.putF (TBL_TPEND s t) 63 1 (leAt bs (168 + t) 1)

/-- TWIN_RESTORE_DONE (R382): at the spare, once every line is here, the lines and the state are taken and the twin is told; at the twin,
the answer ends its part. -/
def execTwinRestoreDone (s : State) : Answer :=
  s.run fun p =>
    let st := p.getF TWN_STATUS 0 3
    match p.fab.rx.find? fun q => q.cls == 5 && q.kind == 7 with
    | none => if p.twin.restoring && !p.bundleUp 8 then p.restoreFail else p
    | some q =>
      if st = 3 then (p.takeRx q).putF TWN_STATUS 0 3 1
      else if !p.twin.restoring then p
      else if leAt q.payload 0 4 = 0 then (p.takeRx q).restoreFail
      else
        let qs := p.fab.rx.filter fun q => q.cls == 5 && q.kind == 6
        let ls := qs.flatMap unpackLines
        if ls.length < leAt q.payload 4 4 then p
        else
          let p := p.each (q :: qs) fun p q => p.takeRx q
          let p := p.each ls fun p l => p.putHbm l.1 l.2.1 l.2.2
          let p := (p.bump TWN_STAT_RESTORE (64 * ls.length)).takeState q.payload
          let p := (p.putF TWN_STATUS 0 3 1).modTwin fun t => { t with restoring := false }
          p.sendPacket (p.getF TWN_CTRL 16 16) 5 7 0 0 (leBytes 32 1)

end Sys2Proof.Machine
end

