-- ==== Sys2Proof/Machine/FabEnd.lean ====
section
/-!
DEFINITION. The fabric end of the hub: injection under the flag windows (R337, R342), accounting (R347), the checks of the guard boundary
(R346, R348), and what the tick does with the fabric's state (R339, R342, R348).
-/
namespace Sys2Proof.Machine

/-- The window toward a destination. -/
def Part.win (p : Part) (d : Nat) : TxWin := spGet .reset p.fab.txWin d

/-- A packet waits while the flagged packet of the window eight before its own is unacknowledged (R342). -/
def Part.windowShut (p : Part) (q : Packet) : Bool :=
  (countedCls q || flagged q) && q.dst != p.chip && (p.win q.dst).unacked.any fun u => u.1 + 8 ≤ (p.win q.dst).w

/-- Replace the window toward a destination. -/
def Part.setWin (p : Part) (d : Nat) (w : TxWin) : Part := p.modFab fun f => { f with txWin := spSet .reset f.txWin d w }

/-- The header a packet leaves with, and the window behind it (R342). A destination is owed an accounting packet once it has been sent a
counted packet (R347): any before the frame's accounting has been sent, and after it one of the data plane.
DEDUCED (log 149, unsafe): The acknowledgements, notices and statuses sent after a part's accounting need no accounting of their own. -/
def TxWin.send (w : TxWin) (accounted : Bool) (q : Packet) : Packet × TxWin :=
  let counts := w.counted || dataPacket q || !accounted && !(q.cls == 3 && q.kind == 8)
  if flagged q then
    ({ q with window := w.w % 256, ref := w.n },
     { w with w := w.w + 1, n := 0, unacked := w.unacked ++ [(w.w, q.kind)], counted := counts, acctSent := w.acctSent || q.kind == 8 })
  else ({ q with window := w.w % 256 }, { w with n := w.n + 1, counted := counts })

/-- Put a packet with its path on the fabric (R337, R338). -/
def Part.launch (p : Part) (route : Nat) (q : Packet) : Part :=
  let q := { q with route := route >>> 5 }
  ((p.bump FAB_STAT_INJ 1).samplePacket 5 q.dst q).sendOn (route % 32 - 1) (p.firstVc (route % 32)) q

/-- Inject a packet for another part on a path (R342). -/
def Part.injectOn (p : Part) (route : Nat) (q : Packet) : Part :=
  if countedCls q || flagged q then
    let (q, w) := (p.win q.dst).send p.fab.accounted q
    (p.setWin q.dst w).launch route q
  else p.launch route q

/-- Deliver a packet that a part addresses to itself (R337). -/
def Part.deliverLocal (p : Part) (q : Packet) : Part := if q.cls = 2 then p.segment q else p.hand q

/-- Inject one packet (R337). -/
def Part.inject (p : Part) (q : Packet) : Part :=
  if q.dst = p.chip then p.deliverLocal q
  else if q.cls = 5 then (p.bump FAB_STAT_INJ 1).sendOn 8 0 { q with route := 0 }
  else
    match (if q.route = 0 then p.route q.dst else some q.route) with
    | some r => p.injectOn r q
    | none => (p.bump FAB_STAT_NOROUTE 1).fabErr 7 q.dst 0

/-- A window mark goes before a counted packet that would take the count past 1,048,575 (R342): it delivers nothing, and opens the next
window. -/
def Part.markFirst (p : Part) (q : Packet) : Part :=
  if countedCls q && !flagged q && q.dst != p.chip && (p.win q.dst).n ≥ 1048575 then
    p.inject ⟨0, p.chip, q.dst, q.epoch, 3, 0, 15, 0, 0, []⟩
  else p

/-- A segment of a block whose number an earlier block to the same destination still has open (R334): 256 blocks toward it are open.
DESIGN CHOICE (log 148, unsafe): A source takes a block as open until each of its segments has been acknowledged on its first link. -/
def Part.blockShut (p : Part) (q : Packet) : Bool :=
  let same (x : Packet) : Bool := x.cls == 2 && x.src == p.chip && x.dst == q.dst && fld x.ref 12 8 == fld q.ref 12 8
  q.cls == 2 && fld q.ref 6 6 == 0 && q.dst != p.chip &&
    (p.fab.fwd.any (fun w => same w.pkt) || p.fab.ports.any fun e => e.2.replay.any fun x => same x.pkt)

/-- PACKET_INJECT (R337): the oldest packet of the hub that nothing holds back; the twin's stream joins the queue first. Behind a window
mark the packet goes if its new window may open (R342). -/
def execPacketInject (s : State) : Answer :=
  s.run fun p =>
    let p := p.twinPump
    match p.fab.txq.find? fun q => !p.windowShut q && !p.blockShut q && (p.phase != 3 || ctlPlane q) with
    | none => p
    | some q =>
      let p := p.markFirst q
      if p.windowShut q then p else (p.modFab fun f => { f with txq := f.txq.erase q }).inject q

/-- ACCOUNTING_SEND (R347). -/
def execAccountingSend (s : State) : Answer :=
  s.run fun p =>
    if !p.working || !p.sendingDone || p.fab.txq.any (fun q => q.cls == 3 && q.kind == 8) then p
    else
      let p := p.each (p.fab.txWin.filter fun e => e.2.counted && !e.2.acctSent) fun p e => p.sendPacket e.1 3 8 0 0 []
      p.modFab fun f => { f with accounted := true }

/-- Destinations with an accounting packet unacknowledged. -/
def Part.acctOpen (p : Part) : List Nat := (p.fab.txWin.filter fun e => e.2.unacked.any fun u => u.2 == 8).map (·.1)

/-- Sources of flagged packets that have not been delivered. -/
def Part.flagSources (p : Part) : List Nat :=
  dedupAdj (sortBy (· ≤ ·) ((p.fab.rxWin.filter fun e => !e.2.held.isEmpty).map (·.1) ++ p.fab.waitIn.map (·.src)))

/-- Send a loss notice to a source on its primary and its alternate path (R348). -/
def Part.lossNotice (p : Part) (d : Nat) : Part :=
  let q (route : Nat) : Packet := ⟨route, p.chip, d, p.epoch, 1, 0, 7, 0, 0, []⟩
  let l := [p.path d 0, p.path d 4].filterMap id
  p.modFab fun f => { f with txq := f.txq ++ l.map q }

/-- FABRIC_END_CHECK and LOSS_NOTICE_SEND (R346, R348). -/
def Part.fabricEndCheck (p : Part) : Part :=
  let held := (p.fab.rxWin.flatMap fun e => e.2.held) ++ p.fab.waitIn
  let p :=
    if held.any (fun q => q.kind == 8) || !p.acctOpen.isEmpty then ((p.bump FAB_STAT_ACCT 1).fabErr 5 0 0).failCause 3
    else if !p.fab.blocks.isEmpty || !held.isEmpty then (p.fabErr 4 0 0).failCause 4
    else p
  p.each p.flagSources fun p d => p.lossNotice d

/-- ALT_ROUTE_SWITCH (R348): at a replay tick the peers of a lost packet move to their alternate paths. -/
def Part.altSwitch (p : Part) : Part :=
  let peers := dedupAdj (sortBy (· ≤ ·) (p.acctOpen ++ p.fab.lossFrom))
  match peers with
  | [] => p
  | first :: _ =>
    let p := p.wr FAB_TICK_ACCT ((first <<< 16) + min peers.length 65535)
    p.each peers fun p d =>
      if p.alt d || (p.path d 4).isNone then p.fabErr 6 d 0
      else (p.putB (FAB_ALT (d / 64)) (d % 64) true).bump FAB_STAT_SWITCH 1

/-- FAB_ALT clears for every destination (R339). -/
def Part.altClear (p : Part) : Part :=
  { p with regs := p.regs.filter fun e => !(FAB_ALT 0 ≤ e.1 && e.1 < FAB_ALT 1024) }

/-- The fabric's state of the frame that ends is gone (R28, R342): packets of the ended frame that have not left or not been taken, open
blocks and windows. Holds and releases stay, and of what has been delivered statuses, requests, notices and declarations. -/
def Part.fabTick (p : Part) : Part :=
  let stays (q : Packet) : Bool := (q.cls == 3 && (q.kind == 6 || q.kind == 7)) || (q.cls == 5 && q.kind ≥ 5)
  let kept (q : Packet) : Bool := stays q || (q.cls == 3 && (q.kind == 4 || q.kind == 5 || q.kind == 9 || q.kind == 10))
  p.modFab fun f =>
    { f with txq := f.txq.filter stays, rx := f.rx.filter kept, txWin := [], rxWin := [], waitIn := [], accounted := false,
             blocks := [], nextBlock := [],
             ports := (f.ports.map fun e => (e.1, { e.2 with fasts := 0 })).filter (fun e => e.2 != .reset), lossFrom := [],
             frozenSeen := false }

/-- The part takes its parents from the probes (R351): FAB_TREE and TIK_TOKEN_LAT. The tick master has no parent and latency 40. -/
def Part.pickParents (p : Part) : Part :=
  if p.role = 1 then (p.wr FAB_TREE 0xFF00).wr TIK_TOKEN_LAT 40
  else
    match bestProbe p.fab.probes with
    | none => (p.wr FAB_TREE 0xFF00).wr TIK_TOKEN_LAT 0
    | some (b, lat, hops) =>
      let second := match bestProbe (p.fab.probes.filter fun e => e.1 != b) with
        | some e => e.1
        | none => 15
      (p.wr FAB_TREE ((second <<< 12) + (b <<< 8) + min hops 255)).wr TIK_TOKEN_LAT (min (40 + lat) 65535)

/-- The probes start (R351): the tick master sends its wave, the standby the second. -/
def Part.startProbes (p : Part) : Part :=
  let p := p.modFab fun f =>
    { f with probes := [], probesStandby := [], waves := [], probing := true, rerouted := false, reroutedS := false,
             standbyTree := false }
  let p := p.putB FAB_STATUS 2 false
  if p.role = 1 then p.flood none 0 (.probe false 0 0)
  else if p.role = 2 then p.flood none 0 (.probe true 0 0)
  else p

end Sys2Proof.Machine
end

