-- ==== Sys2Proof/Machine/P256.lean ====
section
/-!
DEFINITION. The curve P-256 and ECDSA verification over it (R429, R461).
-/
namespace Sys2Proof.Machine

/-- The field prime. -/
def p256P : Nat := 0xFFFFFFFF00000001000000000000000000000000FFFFFFFFFFFFFFFFFFFFFFFF
/-- The coefficient b. -/
def p256B : Nat := 0x5AC635D8AA3A93E7B3EBBD55769886BC651D06B0CC53B0F63BCE3C3E27D2604B
/-- The group order n. -/
def p256N : Nat := 0xFFFFFFFF00000000FFFFFFFFFFFFFFFFBCE6FAADA7179E84F3B9CAC2FC632551
/-- The base point. -/
def p256Gx : Nat := 0x6B17D1F2E12C4247F8BCE6E563A440F277037D812DEB33A0F4A13945D898C296
def p256Gy : Nat := 0x4FE342E2FE1A7F9B8EE7EB4A7C0F9E162BCE33576B315ECECBB6406837BF51F5

/-- `a^e mod m`, `fuel` bits of the exponent. -/
def powMod (fuel m a e : Nat) : Nat :=
  match fuel with
  | 0 => 1 % m
  | fuel + 1 =>
    let r := powMod fuel m ((a * a) % m) (e / 2)
    if e % 2 = 1 then (a * r) % m else r

/-- The inverse modulo a prime. -/
def invMod (m a : Nat) : Nat := powMod 256 m a (m - 2)

/-- Subtraction in the field. -/
def subP (a b : Nat) : Nat := (a + p256P - b % p256P) % p256P

/-- A point in Jacobian coordinates; z = 0 is the point at infinity. -/
structure JPoint where
  x : Nat
  y : Nat
  z : Nat
  deriving DecidableEq, Repr

/-- Doubling. -/
def jDouble (p : JPoint) : JPoint :=
  if p.z = 0 ∨ p.y = 0 then ⟨1, 1, 0⟩
  else
    let delta := p.z * p.z % p256P
    let gamma := p.y * p.y % p256P
    let beta := p.x * gamma % p256P
    let al := 3 * (subP p.x delta * ((p.x + delta) % p256P)) % p256P
    let x3 := subP (al * al) (8 * beta)
    let z3 := 2 * p.y * p.z % p256P
    let y3 := subP (al * subP (4 * beta) x3) (8 * gamma * gamma)
    ⟨x3, y3, z3⟩

/-- Addition. -/
def jAdd (p q : JPoint) : JPoint :=
  if p.z = 0 then q
  else if q.z = 0 then p
  else
    let z1 := p.z * p.z % p256P
    let z2 := q.z * q.z % p256P
    let u1 := p.x * z2 % p256P
    let u2 := q.x * z1 % p256P
    let s1 := p.y * q.z % p256P * z2 % p256P
    let s2 := q.y * p.z % p256P * z1 % p256P
    if u1 = u2 then (if s1 = s2 then jDouble p else ⟨1, 1, 0⟩)
    else
      let h := subP u2 u1
      let r := subP s2 s1
      let h2 := h * h % p256P
      let h3 := h2 * h % p256P
      let v := u1 * h2 % p256P
      let x3 := subP (r * r) (h3 + 2 * v)
      ⟨x3, subP (r * subP v x3) (s1 * h3), h * p.z % p256P * q.z % p256P⟩

/-- `k` times a point, `fuel` bits of `k`. -/
def jMul (fuel k : Nat) (p : JPoint) : JPoint :=
  match fuel with
  | 0 => ⟨1, 1, 0⟩
  | fuel + 1 =>
    let r := jMul fuel (k / 2) (jDouble p)
    if k % 2 = 1 then jAdd p r else r

/-- Affine coordinates. -/
def jAffine (p : JPoint) : PubKey :=
  let zi := invMod p256P p.z
  let z2 := zi * zi % p256P
  ⟨p.x * z2 % p256P, p.y * z2 % p256P * zi % p256P⟩

/-- The public key of a private scalar. -/
def p256Pub (k : Nat) : PubKey := jAffine (jMul 256 k ⟨p256Gx, p256Gy, 1⟩)

/-- Whether a pair of coordinates is a point of the curve. -/
def p256OnCurve (k : PubKey) : Bool :=
  k.x < p256P && k.y < p256P &&
    k.y * k.y % p256P == (k.x * k.x * k.x + (p256P - 3) * k.x + p256B) % p256P

/-- The uncompressed form of a public key: 0x04, x, y. -/
def keyBytes (k : PubKey) : List Byte := [0x04#8] ++ beBytes 32 k.x ++ beBytes 32 k.y

/-- Bytes [7:0] of the SHA-256 of the uncompressed form, as a little-endian field (R429). -/
def keyId (k : PubKey) : Nat := leAt (sha256 (keyBytes k)) 0 8

/-- ECDSA over P-256 with SHA-256; r or s outside [1, n − 1] is rejected (R429). -/
def ecdsaVerify (k : PubKey) (msg : List Byte) (r s : Nat) : Bool :=
  if r = 0 ∨ s = 0 ∨ r ≥ p256N ∨ s ≥ p256N ∨ !p256OnCurve k then false
  else
    let e := digestNat msg % p256N
    let w := invMod p256N s
    let pt := jAdd (jMul 256 (e * w % p256N) ⟨p256Gx, p256Gy, 1⟩) (jMul 256 (r * w % p256N) ⟨k.x, k.y, 1⟩)
    if pt.z = 0 then false else (jAffine pt).x % p256N == r

/-- The scalar of R461: the first HMAC in range, counting up from `i`. -/
def keyScalar (fuel i : Nat) (k label : List Byte) : Nat :=
  match fuel with
  | 0 => 1
  | fuel + 1 =>
    let x := beNat (hmacSha256 k (label ++ [BitVec.ofNat 8 i]))
    if 1 ≤ x ∧ x ≤ p256N - 1 then x else keyScalar fuel (i + 1) k label

end Sys2Proof.Machine
end

