-- ==== Sys2Proof/Machine/Fabric.lean ====
section
/-!
DEFINITION. The fabric's ports and router (chapter 11): training, identity, authentication, packets in transit and at their end, link
retry and retraining.
-/
namespace Sys2Proof.Machine

/-- The extent of a port's dimension in the topology in force; a twin port counts as cabled (R327). -/
def Part.cabled (p : Part) (n : Nat) : Bool := n ≥ 32 || fld p.fab.topoInForce (4 * (n / 8)) 4 ≥ 1

/-- A port's packets, neighbour, lanes and latency are gone. -/
def Part.clearPort (p : Part) (n st : Nat) : Part :=
  ((p.setPort n .reset).wr (FAB_PSTATUS n) st).wr (FAB_PLAT n) 0

/-- Start training (R328, R329): the identifier and topology written take effect, every port that is neither disabled nor without
a cable trains, and the link sequence numbers start at 0.
DEDUCED (log 69, unsafe): Sequence numbers start at 0 with training, and with the full retrain of a bundle that has no port up. -/
def Part.fabTrain (p : Part) : Part :=
  if p.getB FAB_CTRL 0 then p
  else
    let p := p.putB FAB_CTRL 0 true
    let p := p.modFab fun f => { f with idInForce := p.rd FAB_ID % 65536, topoInForce := p.rd FAB_TOPO % 65536, bundles := [] }
    p.each (List.range 34) fun p n =>
      p.clearPort n (if p.getB (FAB_PCTRL n) 0 then 0 else if p.cabled n then 2 else 1)

/-- Stop (R329): every port goes down. -/
def Part.fabStop (p : Part) : Part :=
  let p := p.putB FAB_CTRL 0 false
  let p := p.each (List.range 34) fun p n => p.clearPort n (if p.getB (FAB_PCTRL n) 0 then 0 else 1)
  let p := p.modFab fun f => { f with fwd := [] }
  (p.reroute false).reroute true

/-- FAB_TRAIN (R329). -/
def execFabTrain (s : State) : Answer := s.run Part.fabTrain

/-- FAB_TRAIN_STOP (R329). -/
def execFabTrainStop (s : State) : Answer := s.run Part.fabStop

/-- ELECTRICAL_TRAINING_DONE (R329): the four lanes of a port in training are locked. -/
def execElectricalTrainingDone (port : Nat) (s : State) : Answer :=
  s.run fun p =>
    if port ≥ 34 || p.pstate port ≠ 2 then p else (p.putF (FAB_PSTATUS port) 4 4 15).setPstate port 3

/-- The neighbour a torus port expects on bundle `b` (R327). -/
def Part.expects (p : Part) (b : Nat) : Nat :=
  let i := b / 2
  let n := fld p.fab.topoInForce (4 * i) 4 + 1
  let c := fld p.chip (4 * i) 4
  putFld p.chip (4 * i) 4 (if b % 2 = 0 then (c + 1) % n else (c + n - 1) % n)

/-- The certificate chain of slot 0 (R462): the stored certificates and what the alias certificate names, which stands as it was issued at boot. -/
def State.chain (s : State) : List Byte :=
  let p := s.p
  let key : List Byte := (p.mgt.aliasKey.map keyBytes).getD []
  let fw := p.mgt.fw.getD ⟨0, 0, []⟩
  Config.encoding 0 (s.nv.cert ++ key ++ fw.digest ++ leBytes 4 fw.version ++ leBytes 1 fw.svn ++ leBytes 1 p.mgt.certMin ++
    beBytes 32 (p.mgt.ownerCert.getD 0).toNat)

/-- A port's authentication begins (R331, R471): it sends a fresh challenge, and the policy in force is the one it will be judged by. -/
def Part.beginAuth (p : Part) (nv : Nv) (n : Nat) : Part :=
  let (ch, p) := p.anyBytes 32
  let x := p.port n
  p.setPort n { x with auth := some ⟨ch, nv.linkMinSvn, nv.linkOwnerMatch⟩, sent := x.sent ++ [ch] }

/-- What identity exchange finds (R330): 0 the port expected, 1 another port of the expected bundle, 2 anything else. A twin port takes
what it sees. -/
def Part.identity (p : Part) (port : Nat) (n : Neighbour) : Nat :=
  let b := portBundle port
  if port ≥ 32 then 0
  else if n.chip ≠ p.expects b ∨ n.topo % 65536 ≠ p.fab.topoInForce ∨ n.port ≥ 32 ∨ n.port / 4 ≠ b ^^^ 1 then 2
  else if n.port % 4 ≠ port % 4 then 1
  else 0

/-- The identity and latency that a port records (R329, R330), and the events. -/
def Part.takeIdentity (p : Part) (port : Nat) (n : Neighbour) : Part :=
  let p := p.putF (FAB_PSTATUS port) 16 16 n.chip
  let p := p.putF (FAB_PSTATUS port) 8 6 n.port
  let p := p.wr (FAB_PLAT port) (min n.latency 4095)
  match p.identity port n with
  | 0 => p
  | 1 => p.fabErr 10 port n.port
  | _ => p.fabErr 0 ((p.chip <<< 16) + port) ((n.chip <<< 16) + n.port)

/-- IDENTITY_EXCHANGE (R330): on to authentication or up, also on another index of the expected bundle; else miscabled. -/
def execIdentityExchange (port : Nat) (n : Neighbour) (s : State) : Answer :=
  s.run fun p =>
    if port ≥ 34 || p.pstate port ≠ 3 then p
    else
      let q := p.takeIdentity port n
      if p.identity port n = 2 then q.setPstate port 7
      else if p.getB FAB_CTRL 1 then (q.beginAuth s.nv port).setPstate port 4
      else q.setPstate port 5

/-- The transcript a neighbour signs (R331): what the two ends told each other, and this part's challenge. -/
def Part.transcript (p : Part) (port : Nat) (challenge : List Byte) : List Byte :=
  Config.encoding 11 (leBytes 2 p.chip ++ leBytes 1 port ++ leBytes 2 (p.getF (FAB_PSTATUS port) 16 16) ++
    leBytes 1 (p.getF (FAB_PSTATUS port) 8 6) ++ leBytes 2 p.fab.topoInForce ++ leBytes 2 (p.rd (FAB_PLAT port)) ++ challenge)

/-- A neighbour is accepted (R471): its chain verifies to the fused root, its signature over the transcript verifies by its alias key, its
firmware is new enough, and where owners must match, its owner is this part's. -/
def credentialOk (root : BitVec 256) (owner : Option (BitVec 256)) (a : AuthStage) (transcript : List Byte) (c : Credential) : Bool :=
  c.chainOk && c.root == root && ecdsaVerify ⟨c.keyX.toNat, c.keyY.toNat⟩ transcript c.r.toNat c.s.toNat && c.svn ≥ a.minSvn &&
    (!a.ownerMatch || (owner == some c.owner && c.owner != 0))

/-- The neighbour of a port is accepted in the authentication that has begun. -/
def State.accepts (s : State) (p : Part) (port : Nat) (c : Credential) : Bool :=
  match (p.port port).auth with
  | none => false
  | some a => credentialOk s.fuses.root s.nv.owner a (p.transcript port a.challenge) c

/-- The part's own side of authentication (R331): its chain, and its signature over the transcript with the neighbour's challenge. -/
def State.answerAuth (s : State) (p : Part) (port : Nat) (c : Credential) : Part :=
  let x := p.port port
  p.setPort port { x with auth := none, sent := x.sent ++ [s.chain ++ fitBytes 64 (Config.encoding 12 (p.transcript port c.challenge))] }

/-- PORT_AUTHENTICATE (R331, R471). -/
def execPortAuthenticate (port : Nat) (c : Credential) (s : State) : Answer :=
  s.run fun p =>
    if port ≥ 34 || p.pstate port ≠ 4 then p
    else
      let q := s.answerAuth p port c
      if s.accepts p port c then q.setPstate port 5
      else (q.setPstate port 8).fabErr 1 port (p.getF (FAB_PSTATUS port) 16 16)

/-- Start a full retrain of a port that is failed, miscabled or not authenticated (R345, FAB_PCTRL.retrain). -/
def Part.startRetrain (p : Part) (n : Nat) : Part :=
  if p.pstate n < 7 then p
  else
    let b := portBundle n
    let p := if (bundlePorts b).any fun m => p.pstate m == 5 || p.pstate m == 6 then p else p.setBundle b .reset
    ((p.setPstate n 6).setPort n { p.port n with full := true }).bump (FAB_PSTAT_RETRAIN n) 1

/-- PORT_RETRAIN (R345). -/
def execPortRetrain (port : Nat) (s : State) : Answer := s.run fun p => if port < 34 then p.startRetrain port else p

/-- Discard a packet that R333 or R334 refuses. -/
def Part.discardBad (p : Part) (q : Packet) : Part := (p.bump FAB_STAT_BAD 1).fabErr 8 q.src q.dst

/-- A stale epoch that a part in frames discards (R335): holds and releases are exempt, and so are, in a part that is not yet running,
the packets of pairing and restore (R374, R382).
DEDUCED (log 68, unsafe): A part that is not yet running takes packets of class 5 of kind 5 and above whatever their epoch: the two parts of pairing and restore are in no common frame. -/
def Part.stale (p : Part) (q : Packet) : Bool :=
  p.getB TIK_CTRL 0 && q.epoch != p.epoch && !(q.cls == 3 && (q.kind == 6 || q.kind == 7)) && !(q.cls == 5 && q.kind ≥ 5 && !p.running)

/-- What a router does with a packet that came by port `n` on channel `vc` (R333 to R336, R338): forward it, eject it, or discard it. -/
def Part.routePacket (p : Part) (n vc : Nat) (q : Packet) : Part :=
  let code := q.route % 32
  let next := { q with route := q.route >>> 5 }
  if p.stale q then p.bump FAB_STAT_EPOCH 1
  else if n ≥ 32 && q.cls ≠ 5 then p.discardBad q
  else if code = 0 then (if q.dst = p.chip && !(badPacket q) then p.eject next else p.discardBad q)
  else if code ≤ 8 then (p.bump FAB_STAT_FWD 1).sendOn (code - 1) (p.nextVc n vc code) next
  else p.discardBad q

/-- A link answers a packet (R344). -/
def Part.linkReply (p : Part) (port : Nat) (ok : Bool) (seq : Nat) : Part :=
  p.modFab fun f => { f with linkOut := f.linkOut ++ [⟨port, ok, seq⟩] }

/-- A sequence number leaves a gap (R344): on a bundle of one trained port it is not the next; on one with more, whose packets may pass one
another and are resent on another when a port fails, it is further ahead than their replay buffers can hold.
DEDUCED (log 69, unsafe): What a gap is in the numbers of a bundle of several ports. -/
def Part.gap (p : Part) (b seq : Nat) : Bool :=
  let k := ((bundlePorts b).filter fun n => 5 ≤ p.pstate n).length
  let ahead := (seq + 4096 - (p.bundle b).next) % 4096
  if k ≤ 1 then ahead ≠ 0 else ahead ≥ 16 * k

/-- The lowest number of a bundle not received, `fuel` numbers on at most. -/
def Bundle.advance (fuel : Nat) (b : Bundle) : Bundle :=
  match fuel with
  | 0 => b
  | fuel + 1 => if b.rx.contains b.next then Bundle.advance fuel { b with next := (b.next + 1) % 4096 } else b

/-- A packet that checks and is in sequence has been received (R344). -/
def Bundle.take (b : Bundle) (seq : Nat) : Bundle := Bundle.advance 64 { b with rx := (seq :: b.rx).take 2048 }

/-- FABRIC_PACKET_ARRIVE (R333, R344): a whole packet on a port. One that fails its check or leaves a gap is rejected; one whose bundle
sequence number has been received already is acknowledged and dropped; any other is acknowledged and goes to the router.
DESIGN CHOICE (log 65, unsafe): FEC, lane encodings and the value of the CRC are out of the model: the command says whether the packet checks, and which virtual channel it came on.
DEDUCED (log 69, unsafe): A receiver remembers the last 2,048 sequence numbers of a bundle (R344).
DESIGN CHOICE (log 123, safe): Scope: other parts. What a neighbour, the tick master or the twin does is operands of commands and packets that arrive. -/
def execFabricPacketArrive (port : Nat) (h : LinkHead) (pkt : Packet) (s : State) : Answer :=
  s.run fun p =>
    let b := portBundle port
    let seq := h.seq % 4096
    if port ≥ 34 || !p.portRuns port then p
    else if !h.good then (p.bump (FAB_PSTAT_CRC port) 1).linkReply port false seq
    else if (p.bundle b).rx.contains seq then p.linkReply port true seq
    else if p.gap b seq then p.linkReply port false seq
    else
      let p := (p.setBundle b ((p.bundle b).take seq)).linkReply port true seq
      (p.bump (FAB_PSTAT_RX port) 1).routePacket port h.vc pkt

/-- FLAG_ACK_ARRIVE (R342): the window is free at the source. -/
def execFlagAckArrive (s : State) : Answer :=
  s.run fun p =>
    match p.fab.rx.find? fun q => q.cls == 1 && q.kind == 6 with
    | none => p
    | some q =>
      let w := spGet .reset p.fab.txWin q.src
      let w := { w with unacked := w.unacked.filter fun u => u.1 % 256 != q.ref }
      (p.takeRx q).modFab fun f => { f with txWin := spSet .reset f.txWin q.src w }

/-- LINK_ACK (R344): the replay buffer lets go of the packets up to the one acknowledged. -/
def execLinkAck (port seq : Nat) (s : State) : Answer :=
  s.run fun p =>
    let x := p.port port
    match x.replay.findIdx? fun e => e.seq == seq with
    | some i => (p.setPort port { x with replay := x.replay.drop (i + 1) }).drainFwd (portBundle port)
    | none => p

/-- Start a fast retrain (R345): the third of a frame leads to a full one. -/
def Part.fastRetrain (p : Part) (n : Nat) : Part :=
  if p.pstate n ≠ 5 then p
  else
    let x := p.port n
    (((p.setPstate n 6).setPort n { x with fasts := x.fasts + 1, full := x.fasts + 1 ≥ 3 }).bump (FAB_PSTAT_RETRAIN n) 1).portLost n

/-- Count one resend of each of the packets given. -/
def resend (l : List Sent) : List Sent := l.map fun e => { e with resent := e.resent + 1 }

/-- LINK_REJECT (R344, R345): the sender resends from the packet rejected onward; once one has been resent eight times, a fast retrain
starts. -/
def execLinkReject (port seq : Nat) (s : State) : Answer :=
  s.run fun p =>
    let x := p.port port
    match x.replay.findIdx? fun e => e.seq == seq with
    | some i =>
      let again := resend (x.replay.drop i)
      let p := (p.setPort port { x with replay := x.replay.take i ++ again }).bump (FAB_PSTAT_RETRY port) again.length
      if again.any fun e => e.resent ≥ 8 then p.fastRetrain port else p
    | none => p

/-- RECEIVE_STALL (R345): the part of a packet received is discarded. -/
def execReceiveStall (port : Nat) (s : State) : Answer :=
  s.run fun p => if port < 34 && p.pstate port = 5 then p.bump (FAB_PSTAT_STALL port) 1 else p

/-- ACK_TIMEOUT (R345). -/
def execAckTimeout (port : Nat) (s : State) : Answer :=
  s.run fun p => if (p.port port).replay.isEmpty then p else p.fastRetrain port

/-- LANE_LOSES_LOCK (R325): one of the port's four lanes, a free choice, loses lock, and the port carries no packet.
DESIGN CHOICE (log 67, safe): Which lane of a port loses lock is a free choice. -/
def execLaneLosesLock (port : Nat) (s : State) : Answer :=
  s.run fun p =>
    if port ≥ 34 || p.pstate port ≠ 5 then p
    else
      let (u, p) := p.fresh
      (p.putB (FAB_PSTATUS port) (4 + Config.freeNat u % 4) false).portLost port

/-- The port is up with its lanes locked, and resends its replay buffer whole, oldest first (R345): the resends of a packet count anew. -/
def Part.comeUp (p : Part) (n : Nat) : Part :=
  let p := (p.putF (FAB_PSTATUS n) 4 4 15).setPstate n 5
  let p := p.bump (FAB_PSTAT_RETRY n) (p.port n).replay.length
  let x := p.port n
  (p.setPort n { x with full := false, replay := x.replay.map fun e => { e with resent := 0 } }).drainFwd (portBundle n)

/-- FAST_RETRAIN_DONE (R345): of a port still up here, the partner has begun the retrain. -/
def execFastRetrainDone (port : Nat) (ok : Bool) (s : State) : Answer :=
  s.run fun p =>
    let p := p.fastRetrain port
    let x := p.port port
    if p.pstate port ≠ 6 || x.full && x.fasts < 3 then p
    else if ok && !x.full then p.comeUp port
    else (p.setPort port { x with full := true, fasts := 0 }).bump (FAB_PSTAT_RETRAIN port) 1

/-- A port leaves the up state for good (R345), for state `st`: its packets are resent whole, under their numbers, on the other up
ports of its bundle, or discarded. -/
def Part.failPort (p : Part) (n st : Nat) : Part :=
  let b := portBundle n
  let left := (p.port n).replay.map fun e => ⟨b, e.vc, some e.seq, e.pkt⟩
  let p := ((p.setPort n .reset).setPstate n st).fabErr 2 n 0
  ((p.modFab fun f => { f with fwd := left ++ f.fwd }).drainFwd b).portLost n

/-- FULL_RETRAIN_DONE (R345): the stages of R329 up to authentication have run again. The port is up, or it has failed.
DEDUCED (log 146, unsafe): A full retrain that ends in another identity leaves the port miscabled, one refused by authentication auth_failed, any other failed. -/
def execFullRetrainDone (port : Nat) (r : Retrained) (s : State) : Answer :=
  s.run fun p =>
    if p.pstate port ≠ 6 || !(p.port port).full then p
    else if !r.ok then p.failPort port 9
    else
      let p := p.setPort port { p.port port with fasts := 0 }
      let q := p.takeIdentity port r.neighbour
      if p.identity port r.neighbour = 2 then q.failPort port 7
      else if p.getB FAB_CTRL 1 then
        let q := q.beginAuth s.nv port
        let a := s.answerAuth q port r.credential
        if s.accepts q port r.credential then a.comeUp port
        else (a.fabErr 1 port (q.getF (FAB_PSTATUS port) 16 16)).failPort port 8
      else q.comeUp port

/-- LOSS_NOTICE_ARRIVE (R348): its sender is marked for the next replay tick. -/
def execLossNoticeArrive (s : State) : Answer :=
  s.run fun p =>
    match p.fab.rx.find? fun q => q.cls == 1 && q.kind == 7 with
    | none => p
    | some q =>
      (p.takeRx q).modFab fun f => { f with lossFrom := if f.lossFrom.contains q.src then f.lossFrom else q.src :: f.lossFrom }

/-- FABRIC_FREEZE (R353, R512): the first copy of a freeze is forwarded and, where fabric_in is set, applied. -/
def execFabricFreeze (rx : CtlRx) (s : State) : Answer :=
  s.run fun p =>
    if p.fab.frozenSeen || !p.bundleUp rx.bundle || rx.bundle ≥ 8 then p
    else if p.getB OBS_FREEZE 1 then p.freezeFrom 2 (some rx.bundle) (passOn rx.head)
    else (p.flood (some rx.bundle) (passOn rx.head) .freeze).modFab fun f => { f with frozenSeen := true }

/-- The latency a control message takes over a bundle: its lowest up port's, and the forwarding (R351, R354). -/
def Part.ctlHop (p : Part) (b : Nat) : Nat := ((p.ctlPort b).map fun n => p.rd (FAB_PLAT n)).getD 0 + 30

/-- Add a probe's latency and depth to those seen, by bundle, where it is the bundle's first or better (R351). -/
def probeSeen (seen : Sparse (Nat × Nat)) (b lat hops : Nat) : Sparse (Nat × Nat) :=
  match seen.find? fun e => e.1 == b with
  | some e => if lat < e.2.1 then spPut seen b (lat, hops) else seen
  | none => spPut seen b (lat, hops)

/-- The wave a copy of a probe belongs to now, and whether the copy is its first or better than the ones before (R351). A stage lasts
1 ms: a later copy is of another wave.
DEDUCED (log 70, unsafe): A copy of a probe more than 1 ms after the first of its wave begins another wave. -/
def Part.inWave (p : Part) (w lat : Nat) : Bool × Wave :=
  match p.fab.waves.find? fun e => e.1 == w with
  | some (_, x) => if p.cycle ≤ x.since + 1000000 then (lat < x.best, { x with best := min x.best lat }) else (true, ⟨p.cycle, lat⟩)
  | none => (true, ⟨p.cycle, lat⟩)

/-- TICK_PATH_PROBE (R351): the first copy of a wave's probe, and any of lower latency, is forwarded on every other up bundle; a part in
its own tick-path stage keeps the latencies. -/
def execTickPathProbe (rx : CtlRx) (standby : Bool) (latency hops : Nat) (s : State) : Answer :=
  s.run fun p =>
    if !p.bundleUp rx.bundle || rx.bundle ≥ 8 then p
    else
      match p.takeCtl rx.bundle rx.head (.probe standby latency hops) with
      | none => p
      | some p =>
        let lat := latency + p.ctlHop rx.bundle
        let (best, wave) := p.inWave (b2n standby) lat
        let p := p.modFab fun f =>
          { f with waves := spPut f.waves (b2n standby) wave,
                   probes := if f.probing && !standby then probeSeen f.probes rx.bundle lat (hops + 1) else f.probes,
                   probesStandby := if f.probing && standby then probeSeen f.probesStandby rx.bundle lat (hops + 1) else f.probesStandby }
        if best then p.flood (some rx.bundle) (passOn rx.head) (.probe standby lat (hops + 1)) else p

end Sys2Proof.Machine
end

