-- ==== Sys2Proof/Machine/Container.lean ====
section
/-!
DEFINITION. The container (R423 to R429): framing, sections, signature, and the staged writes its sections spell.
-/
namespace Sys2Proof.Machine

/-- A failure of R449: code, section index (0xFFFF none) and BAR0 offset (0 none). -/
structure TxnErr where
  code : Nat
  sec : Nat
  off : Nat
  deriving DecidableEq, Repr

/-- A failure that names no section and no register. -/
def TxnErr.of (code : Nat) : TxnErr := ⟨code, 0xFFFF, 0⟩

/-- The result field of a failure (R449). -/
def TxnErr.word (e : TxnErr) : Nat := e.code + e.sec <<< 8 + (e.off % 2 ^ 32) <<< 24

/-- A section: type, param and payload (R425). -/
structure Section where
  ty : Nat
  param : Nat
  payload : List Byte
  deriving DecidableEq, Repr

/-- A container in its parts (R424, R429): `msg` is the signed message. -/
structure Container where
  ty : Nat
  full : Bool
  anyChip : Bool
  chipId : Nat
  grade : Nat
  topo : Nat
  version : Nat
  graftId : Nat
  base : Nat
  sections : List Section
  msg : List Byte
  keyId : Nat
  r : Nat
  s : Nat
  deriving DecidableEq, Repr

/-- Every byte is zero. -/
def allZero (bs : List Byte) : Bool := bs.all (· == 0#8)

/-- The sections of `n` left to read from bytes that run to the signature block, from section `i` on (R425): type, length,
param, payload and zero padding. -/
def readSections (n : Nat) (i : Nat) (bs : List Byte) : Except TxnErr (List Section) :=
  match n with
  | 0 => if bs.isEmpty then .ok [] else .error (.of 1)
  | n + 1 =>
    if bs.length < 16 then .error ⟨1, i, 0⟩
    else
      let len := 16 + leAt bs 4 4
      let padded := ceilDiv len 64 * 64
      if leAt bs 2 2 ≠ 0 ∨ padded > bs.length then .error ⟨1, i, 0⟩
      else if !allZero ((bs.take padded).drop len) then .error ⟨1, i, 0⟩
      else
        match readSections n (i + 1) (bs.drop padded) with
        | .ok l => .ok (⟨leAt bs 0 2, leAt bs 8 8, (bs.take len).drop 16⟩ :: l)
        | .error e => .error e

/-- The signature block is well formed (R429). -/
def sigOk (b : List Byte) : Bool := leAt b 0 1 == 1 && allZero ((b.take 8).drop 1) && allZero (b.drop 80)

/-- Read a container (R423 to R425): every fault of form is code 1. -/
def readContainer (b : List Byte) : Except TxnErr Container :=
  let n := b.length
  let flags := leAt b 7 1
  let full := bit flags 0
  if n % 64 ≠ 0 ∨ n < 320 ∨ n > 20 * 2 ^ 20 then .error (.of 1)
  else if leAt b 0 4 ≠ 0x46524754 ∨ leAt b 4 2 ≠ 1 ∨ flags ≥ 4 ∨ leAt b 8 4 ≠ n then .error (.of 1)
  else if leAt b 12 2 = 0 ∨ !allZero ((b.take 128).drop 36) ∨ (full ∧ leAt b 32 4 ≠ 0) then .error (.of 1)
  else
    let sig := b.drop (n - 128)
    match readSections (leAt b 12 2) 0 ((b.take (n - 128)).drop 128) with
    | .error e => .error e
    | .ok l =>
      if !sigOk sig then .error (.of 1)
      else
        .ok { ty := leAt b 6 1, full := full, anyChip := bit flags 1, chipId := leAt b 14 2, grade := leAt b 16 2, topo := leAt b 18 2,
              version := leAt b 20 4, graftId := leAt b 24 8, base := leAt b 32 4, sections := l, msg := b.take (n - 128),
              keyId := leAt sig 8 8, r := beNat ((sig.drop 16).take 32), s := beNat ((sig.drop 48).take 32) }

/-- The bits of the register at an offset that a graft or transaction may write (R427): some registers or words of them take
none (R188, R356, R521). -/
def Part.rwtAt (p : Part) (off : Nat) (r : RegRow) : Nat :=
  let o := (off - 0x2000000) % 0x800000
  let outside (i : Nat) : Bool := i ≥ p.coresPerSector
  if FAB_RT 0 0 ≤ off ∧ off < FAB_RT 65536 0 then (if (off - FAB_RT 0 0) / 8 % 4 = 3 then 0x80FFFFFFFFFFFFFF else 2 ^ 64 - 1)
  else if off = OBS_PAIR_ID 0 ∨ off = OBS_PAIR_ID 1023 then 0
  else if 0x2000000 ≤ off ∧ o < 0x200000 ∧ outside (o / 0x400) then 0
  else if 0x2000000 ≤ off ∧ 0x440000 ≤ o ∧ o < 0x450000 ∧ outside ((o - 0x440000) / 0x20) then 0
  else r.rwt

/-- A register write as an entry names it: an RWT register of the entry's width (R427).
DEDUCED (log 91, unsafe): A four-byte entry whose value has bits above 31 is malformed (code 1). -/
def regEntry (sec off width value : Nat) : Except TxnErr Staged :=
  if width = 4 ∧ value ≥ 2 ^ 32 then .error ⟨1, sec, off⟩
  else
    match regAt off with
    | some r => if r.rwt ≠ 0 ∧ r.bytes = width then .ok (.reg off width value) else .error ⟨7, sec, off⟩
    | none => .error ⟨7, sec, off⟩

/-- Collect entries, up to the first failure. -/
def collect {α : Type} (f : α → Except TxnErr (List Staged)) (l : List α) : Except TxnErr (List Staged) :=
  match l with
  | [] => .ok []
  | x :: r =>
    match f x with
    | .error e => .error e
    | .ok a =>
      match collect f r with
      | .error e => .error e
      | .ok b => .ok (a ++ b)

/-- One entry as a list. -/
def oneEntry (x : Except TxnErr Staged) : Except TxnErr (List Staged) :=
  match x with
  | .ok a => .ok [a]
  | .error e => .error e

/-- Register-write entries of 16 bytes (R427). -/
def regEntries (sec : Nat) (bs : List Byte) : Except TxnErr (List Staged) :=
  if bs.length % 16 ≠ 0 then .error ⟨1, sec, 0⟩
  else
    collect (fun e => if leAt e 5 3 ≠ 0 then .error ⟨1, sec, 0⟩ else oneEntry (regEntry sec (leAt e 0 4) (leAt e 4 1) (leAt e 8 8)))
      (chunks 16 bs.length bs)

/-- Sector-replicated entries (R426). -/
def sectorEntries (sec : Nat) (bs : List Byte) : Except TxnErr (List Staged) :=
  if bs.length % 16 ≠ 0 then .error ⟨1, sec, 0⟩
  else
    collect (fun e =>
      let off := leAt e 0 4
      if leAt e 5 3 ≠ 0 then .error ⟨1, sec, 0⟩
      else if off ≥ 0x800000 then .error ⟨7, sec, off⟩
      else collect (fun s => oneEntry (regEntry sec (secBase s + off) (leAt e 4 1) (leAt e 8 8))) sectors) (chunks 16 bs.length bs)

/-- Fill entries of 32 bytes (R426). -/
def fillEntries (sec : Nat) (bs : List Byte) : Except TxnErr (List Staged) :=
  if bs.length % 32 ≠ 0 then .error ⟨1, sec, 0⟩
  else
    collect (fun e =>
      if leAt e 5 3 ≠ 0 ∨ leAt e 24 8 ≠ 0 then .error ⟨1, sec, 0⟩
      else
        collect (fun k => oneEntry (regEntry sec (leAt e 0 4 + k * leAt e 12 4) (leAt e 4 1) (leAt e 16 8))) (List.range (leAt e 8 4)))
      (chunks 32 bs.length bs)

/-- Route entries of 72 bytes (R426). -/
def routeEntries (sec : Nat) (bs : List Byte) : Except TxnErr (List Staged) :=
  if bs.length % 72 ≠ 0 then .error ⟨1, sec, 0⟩
  else
    collect (fun e =>
      if leAt e 2 6 ≠ 0 then .error ⟨1, sec, 0⟩
      else collect (fun w => oneEntry (regEntry sec (FAB_RT (leAt e 0 2) w) 8 (leAt e (8 + 8 * w) 8))) (List.range 8))
      (chunks 72 bs.length bs)

/-- The staged writes of section `i` (R426 to R428). -/
def sectionWrites (i : Nat) (x : Section) : Except TxnErr (List Staged) :=
  match x.ty with
  | 1 => if x.param ≠ 0 then .error ⟨1, i, 0⟩ else regEntries i x.payload
  | 2 => if x.param ≠ 0 then .error ⟨1, i, 0⟩ else sectorEntries i x.payload
  | 3 => if x.param ≠ 0 then .error ⟨1, i, 0⟩ else fillEntries i x.payload
  | 4 => if x.param ≠ 0 then .error ⟨1, i, 0⟩ else routeEntries i x.payload
  | 5 =>
    if x.param >>> 36 ≠ 0 ∨ x.param % 8 ≠ 0 ∨ x.payload.length < 256 then .error ⟨1, i, 0⟩
    else .ok [.image (fld x.param 32 4) (x.payload.take 256) (x.param % 2 ^ 32) (x.payload.drop 256)]
  | _ => .error ⟨1, i, 0⟩

/-- The staged writes of a container, in order. -/
def containerWrites (c : Container) : Except TxnErr (List Staged) :=
  collect (fun q => sectionWrites q.1 q.2) ((List.range c.sections.length).zip c.sections)

/-- The staging bytes of a container: its sections' payloads (R441). -/
def Container.staging (c : Container) : Nat := (c.sections.map fun x => x.payload.length).foldl (· + ·) 0

/-- The slot of the installed key that a container names (R429, R430), as the loader sees the keys. -/
def Part.signerSlot (p : Part) (id : Nat) : Option Nat :=
  (List.range 4).find? fun k => match nth p.mgt.keys k none with
    | some key => keyId key == id
    | none => false

/-- Binding, version, signer and signature of a container (R429 to R432): the slot of its signer.
DEDUCED (log 89, unsafe): FAB_ID and FAB_TOPO as their registers hold them are used in binding and validation.
DEDUCED (log 90, unsafe): A grade other than 5120 or 6144 fails the binding with code 4; a 5120 container loads on both grades. -/
def Part.checkContainer (p : Part) (c : Container) : Except TxnErr Nat :=
  let applied := p.txn.applied
  let id := p.rd TIK_GRAFT_ID
  let ver := p.rd TIK_GRAFT_VER
  if !c.anyChip ∧ c.chipId ≠ p.rd FAB_ID then .error (.of 4)
  else if (c.grade ≠ 5120 ∧ c.grade ≠ 6144) ∨ (c.grade = 6144 ∧ !p.big) ∨ c.topo ≠ p.rd FAB_TOPO then .error (.of 4)
  else if c.full ∧ applied ∧ c.graftId = id ∧ c.version < ver then .error (.of 5)
  else if !c.full ∧ (!applied ∨ c.graftId ≠ id ∨ c.base ≠ ver ∨ c.version ≤ c.base) then .error (.of 5)
  else
    match p.signerSlot c.keyId with
    | none => .error (.of 3)
    | some k =>
      match nth p.mgt.keys k none with
      | none => .error (.of 3)
      | some key => if ecdsaVerify key c.msg c.r c.s then .ok k else .error (.of 2)

end Sys2Proof.Machine
end

