-- ==== Sys2Proof/Machine/HostOps.lean ====
section
/-!
DEFINITION. The operations of the host interface that its commands share (chapter 13): host memory, the checks of R397 and R416, and the
queues.
-/
namespace Sys2Proof.Machine

/-- Set a bit of HIF_STICKY and of HIF_FRAME_ERR. -/
def Part.hifStick (p : Part) (i : Nat) : Part := p.stick HIF_STICKY i

/-- The part reaches host memory (R419). -/
def Part.hostBus (p : Part) : Bool := p.hif.linkUp && p.hif.busMaster && !p.getB HIF_STATUS 2

/-- Write host memory: bytes, and whether the lines they touch hold poison (R399). -/
def Part.hostPut (p : Part) (a : Nat) (bs : List Byte) (poison : Bool) : Part :=
  if bs.isEmpty then p
  else
    let lines := (List.range ((a + bs.length - 1) / 64 - a / 64 + 1)).map fun i => (a / 64 + i) * 64
    p.modHif fun h =>
      { h with mem := putBytes h.mem a bs, memPoison := lines.foldl (fun m l => spSet false m l poison) h.memPoison }

/-- What the host has stored in its own memory. -/
def Part.hostStores (p : Part) (l : List HostLine) : Part := p.each l fun p x => p.hostPut x.addr x.data x.poison

/-- Read a line of host memory with its poison (R391). -/
def Part.hostLine (p : Part) (a : Nat) : List Byte × Bool :=
  ((List.range 64).map fun i => spGet 0#8 p.hif.mem (a + i), spGet false p.hif.memPoison a)

/-- Read whole lines of host memory. -/
def Part.hostRead (p : Part) (a n : Nat) : List Byte × Bool :=
  let ls := (List.range (ceilDiv n 64)).map fun i => p.hostLine (a + 64 * i)
  ((ls.flatMap (·.1)).take n, ls.any (·.2))

/-- HBM is usable from the host: its slice is mapped and the lines of its sector have been zeroed (R290, R397). -/
def Part.hostMapped (p : Part) (a : Nat) : Bool :=
  isHbm a && p.getF (MEM_SLICE 0 (a >>> 30)) 0 3 != 0 && p.getB (MEM_STATUS (p.stack a / 2)) 0

/-- A host access of the line at `a` is allowed (R397). -/
def Part.hostMay (p : Part) (write : Bool) (a : Nat) : Bool :=
  p.hostMapped a && ((!p.running && p.getB HIF_CTRL 2) || p.attr a (if write then 8 else 7))

/-- A refused host access (R397): counted, and the first in its direction in the frame recorded. -/
def Part.hostDenied (p : Part) (write : Bool) (a : Nat) : Part :=
  let p := (p.bump HIF_STAT_DENY 1).hifStick 2
  if (if write then p.hif.deniedWrite else p.hif.deniedRead) then p
  else
    let p := p.modHif fun h => if write then { h with deniedWrite := true } else { h with deniedRead := true }
    p.err { mkErr 11 2 0 with addr := p.gaddr a }

/-- An inbox channel is enabled (R411). -/
def Part.inOn (p : Part) (c : Nat) : Bool := p.getB (HIF_IN_CFG c) 31
/-- The base of a channel's area. -/
def Part.inBaseOf (p : Part) (c : Nat) : Nat := p.getF (HIF_IN_BASE c) 0 40
/-- The bytes of a slot of a channel. -/
def Part.slotBytes (p : Part) (c : Nat) : Nat := p.getF (HIF_IN_CFG c) 0 8 * 4096
/-- The address of a slot (R411). -/
def Part.slotAt (p : Part) (c k : Nat) : Nat := p.inBaseOf c + 4096 + k * p.slotBytes c
/-- The blocks a channel holds. -/
def Part.heldBlocks (p : Part) (c : Nat) : List HeldBlock := spGet [] p.hif.blocks c
/-- Replace the blocks of a channel. -/
def Part.setBlocks (p : Part) (c : Nat) (l : List HeldBlock) : Part := p.modHif fun h => { h with blocks := spSet [] h.blocks c l }

/-- A host write of the line at `a` would touch a held slot or a delivery table while ticks are received (R416). -/
def Part.slotLocked (p : Part) (a : Nat) : Bool :=
  p.running && (List.range 16).any fun c =>
    p.inOn c && ((p.inBaseOf c ≤ a && a < p.inBaseOf c + 4096) ||
      (p.heldBlocks c).any fun b => p.slotAt c b.slot ≤ a && a < p.slotAt c b.slot + p.slotBytes c)

/-- A host write of a whole line (R397, R399, R416): whether it was stored. -/
def Part.hostWriteLine (p : Part) (a : Nat) (bs : List Byte) (poison : Bool) : Bool × Part :=
  if !p.hostMay true a then (false, p.hostDenied true a)
  else if p.slotLocked a then (false, (p.bump HIF_STAT_SLOTWR 1).hifStick 3)
  else
    let t := if poison then some (p.token (p.gaddr a) 0 10) else none
    (true, (if poison then p.hifStick 1 else p).writeLine 10 0 a (fitBytes 64 bs) t)

/-- A host read of a line (R397, R399): none where it is refused. -/
def Part.hostReadLine (p : Part) (a : Nat) : Option (List Byte × Bool) × Part :=
  if !p.hostMay false a then (none, p.hostDenied false a)
  else
    let ((bs, t), p) := p.readLine 1 10 0 a
    (some (bs, t.isSome), if t.isSome then p.hifStick 1 else p)

/-- Replace command queue `q`. -/
def Part.setCq (p : Part) (q : Nat) (x : CmdQueue) : Part := p.modHif fun h => { h with queues := spSet .reset h.queues q x }
/-- Entries of the submission ring. -/
def Part.sqSize (p : Part) (q : Nat) : Nat := 2 ^ p.getF (HIF_Q_CFG q) 0 5
/-- The queue is enabled. -/
def Part.cqOn (p : Part) (q : Nat) : Bool := p.getB (HIF_Q_CFG q) 31

/-- The opcode of a command (R402). -/
def HostCmd.op (c : HostCmd) : Nat := leAt c.bytes 0 1
/-- The fence flag. -/
def HostCmd.fence (c : HostCmd) : Bool := bit (leAt c.bytes 1 1) 0
/-- The command identifier. -/
def HostCmd.cid (c : HostCmd) : Nat := if c.poisoned then 0xFFFF else leAt c.bytes 2 2
/-- Operand `i`. -/
def HostCmd.arg (c : HostCmd) (i : Nat) : Nat := leAt c.bytes (8 + 8 * i) 8
/-- A reserved field is not zero, or the command identifier is the reserved one (R402, R403).
DEDUCED (log 76, unsafe): A host command with the identifier 0xFFFF, or with unnamed operand bits set in SUBMIT, ends with status 1. -/
def HostCmd.bad (c : HostCmd) : Bool :=
  leAt c.bytes 1 1 >>> 1 != 0 || leAt c.bytes 4 4 != 0 || (c.bytes.drop 40).any (· != 0#8) || c.cid == 0xFFFF
/-- The opcodes of R403. -/
def hostOps : List Nat := [0, 1, 2, 3, 0x10, 0x11, 0x12, 0x13, 0x14, 0x20, 0x21]
/-- A command of the kind that runs one at a time (R404). -/
def HostCmd.serial (c : HostCmd) : Bool := !c.poisoned && 0x10 ≤ c.op && c.op ≤ 0x21

/-- Commands that run in the part. -/
def Part.runningCmds (p : Part) : List HostCmd := p.hif.queues.flatMap fun e => e.2.cmds.filter (·.running)

/-- The next command of a queue in ring order, when it may start (R404, R419); a rollback may start while a commit validates (R447).
DEDUCED (log 84, unsafe): A rollback may start while a commit validates (R404, R447). -/
def Part.startable (p : Part) (q : Nat) : Option HostCmd :=
  let x := p.cq q
  let run := x.cmds.filter (·.running)
  match x.cmds.find? (fun c => !c.running) with
  | none => none
  | some c =>
    if p.hostBus && (c.poisoned || !c.fence || run.isEmpty) && run.length < 4 && p.runningCmds.length < 16 &&
        (!c.serial || !p.runningCmds.any fun r => r.serial && !(c.op == 0x14 && r.op == 0x13)) && run.length + x.ended.length + x.unret < p.crSize q
    then some c else none

/-- The next command of a queue, when it may start and carries the opcode given. -/
def Part.nextCmd (p : Part) (q op : Nat) : Option HostCmd :=
  match p.startable q with
  | some c => if !c.poisoned && c.op == op then some c else none
  | none => none

/-- A disabled queue whose commands and records are done reads as zero in its indices (R401). -/
def Part.settle (p : Part) (q : Nat) : Part :=
  let x := p.cq q
  if p.cqOn q || x.cmds.any (·.running) || !x.ended.isEmpty then p
  else
    let p := p.setCq q .reset
    (((p.wr (HIF_SQ_HEAD q) 0).wr (HIF_SQ_TAIL q) 0).wr (HIF_CR_HEAD q) 0).wr (HIF_CR_TAIL q) 0

/-- A command ends with a status and a result (R405, R406). -/
def Part.endOne (p : Part) (q : Nat) (c : HostCmd) (status result : Nat) : Part :=
  let x := p.cq q
  let done := { c with running := false, status := status, result := result, tick := p.tickCount, frame := p.frameNo }
  let p := (p.setCq q { x with cmds := x.cmds.erase c, ended := x.ended ++ [done] }).bump HIF_STAT_CMD 1
  if status = 1 then p.hifStick 0 else if status = 3 then p.hifStick 1 else p

/-- Commands at the front of a queue that have no row of their own end as soon as they may start: a poisoned line with status 3, a
reserved opcode with status 1 (R399, R403). -/
def Part.sweep (fuel : Nat) (p : Part) (q : Nat) : Part :=
  match fuel with
  | 0 => p
  | fuel + 1 =>
    match p.startable q with
    | none => p
    | some c =>
      if c.poisoned then Part.sweep fuel (p.endOne q c 3 0) q
      else if hostOps.contains c.op then p
      else Part.sweep fuel (p.endOne q c 1 0) q

/-- Sweep every queue. -/
def Part.sweepAll (p : Part) : Part := p.each (List.range 8) fun p q => Part.sweep ((p.cq q).cmds.length + 1) p q

/-- End a command; what stood behind it may now end too. -/
def Part.endCmd (p : Part) (q : Nat) (c : HostCmd) (status result : Nat) : Part := (p.endOne q c status result).sweepAll

/-- A command starts and goes on running. -/
def Part.startCmd (p : Part) (q : Nat) (c : HostCmd) : Part :=
  let x := p.cq q
  p.setCq q { x with cmds := x.cmds.map fun d => if d == c then { d with running := true } else d }

/-- Fetch commands up to the tail (`fuel` at most) (R401). -/
def Part.fetchLoop (fuel : Nat) (p : Part) (q : Nat) : Part :=
  match fuel with
  | 0 => p
  | fuel + 1 =>
    let h := p.getF (HIF_SQ_HEAD q) 0 16
    if h = p.getF (HIF_SQ_TAIL q) 0 16 then p
    else
      let (bs, poison) := p.hostLine (p.getF (HIF_SQ_BASE q) 12 52 * 4096 + 64 * h)
      let h := (h + 1) % p.sqSize q
      let x := p.cq q
      let p := p.setCq q { x with cmds := x.cmds ++ [HostCmd.mk bs h poison false 0 0 0 0] }
      Part.fetchLoop fuel (p.wr (HIF_SQ_HEAD q) h) q

/-- A queue fetches what it may (R401, R419). -/
def Part.fetchQueue (p : Part) (q : Nat) : Part :=
  if p.getB HIF_CTRL 0 && p.cqOn q && !(p.cq q).qerr && p.hostBus then Part.fetchLoop 65536 p q else p

/-- Every queue fetches what it may. -/
def Part.fetchAll (p : Part) : Part := (p.each (List.range 8) fun p q => p.fetchQueue q).sweepAll

/-- A queue is disabled (R401): nothing more is fetched, and commands that have not started are dropped.
DEDUCED (log 79, unsafe): qerr clears when a disabled queue settles; commands not started are dropped when a queue is disabled. -/
def Part.disableQueue (p : Part) (q : Nat) : Part :=
  let p := p.putB (HIF_Q_CFG q) 31 false
  let x := p.cq q
  (p.setCq q { x with cmds := x.cmds.filter (·.running) }).settle q

/-- The tail of a submission ring is written (R401). -/
def Part.setTail (p : Part) (q tail : Nat) : Part :=
  let p := p.wr (HIF_SQ_TAIL q) tail
  if tail ≥ p.sqSize q then (p.setCq q { p.cq q with qerr := true }).hifStick 7
  else (p.fetchQueue q).sweepAll

/-- The head of a completion ring is written (R407). -/
def Part.setCrHead (p : Part) (q head : Nat) : Part :=
  let p := p.wr (HIF_CR_HEAD q) head
  let t := p.getF (HIF_CR_TAIL q) 0 16
  (p.setCq q { p.cq q with unret := (t + p.crSize q - head % p.crSize q) % p.crSize q }).sweepAll

/-- HIF_Q_STATE (R422). -/
def Part.qState (p : Part) (q : Nat) : Nat :=
  let x := p.cq q
  let run := (x.cmds.filter (·.running)).length
  let idle := x.cmds.isEmpty && (!p.cqOn q || p.getF (HIF_SQ_HEAD q) 0 16 == p.getF (HIF_SQ_TAIL q) 0 16)
  b2n idle + 2 * b2n x.qerr + 16 * run

/-- HIF_IN_STATE (R422). -/
def Part.inState (p : Part) (c : Nat) : Nat :=
  let l := p.heldBlocks c
  (l.filter (·.delivered)).length % 256 * 256 + (l.filter (·.late)).length * 2 ^ 32 + l.length * 2 ^ 48

/-- The frame a commit word names (R412), around the frame in progress; none below frame 0.
DEDUCED (log 82, unsafe): A commit word that would name a frame below 0 is refused. -/
def Part.wordFrame (p : Part) (low : Nat) : Option Nat :=
  let n := p.frameNo
  let d := (low + 2 ^ 24 - n % 2 ^ 24) % 2 ^ 24
  if d < 2 ^ 23 then some (n + d) else if n + d < 2 ^ 24 then none else some (n + d - 2 ^ 24)

/-- A commit word is refused (R412). -/
def Part.badCommit (p : Part) : Part := (p.bump HIF_STAT_BADCOMMIT 1).noteErr HIF_STICKY 6 (mkErr 11 6 0)

/-- A commit word of a channel (R412, R415). -/
def Part.commitWord (p : Part) (c w : Nat) : Part :=
  let slot := fld w 0 12
  let index := fld w 32 8
  let len := fld w 16 16
  let cfg := p.rd (HIF_IN_CFG c)
  let l := p.heldBlocks c
  match p.wordFrame (fld w 40 24) with
  | none => p.badCommit
  | some f =>
    if !p.inOn c || fld w 12 4 != 0 || slot ≥ 2 ^ fld cfg 8 5 || index > 254 || len = 0 || len > fld cfg 0 8 * 128 ||
        l.any (fun b => b.slot == slot || (b.frame == f && b.index == index))
    then p.badCommit
    else p.setBlocks c (l ++ [HeldBlock.mk slot f index (32 * len) false (p.frameNo > f) (fld cfg 56 8)])

end Sys2Proof.Machine
end

