-- ==== Sys2Proof/Machine/MemEvents.lean ====
section
/-!
DEFINITION. What the memory controllers do by themselves (chapter 10): patrol scrub, refresh, the stack sensors and the zeroing after
training.
-/
namespace Sys2Proof.Machine

/-- Symbol errors of a stack's cells strike a line (R293): a position up to 63 a data byte, above it a check byte. -/
def Part.strike (p : Part) (a : Nat) (errs : List (Nat × Nat)) : Part :=
  p.each (errs.filter fun e => e.1 < 72 && e.2 % 256 != 0) fun p e =>
    let x := e.2 % 256
    let bytes :=
      if e.1 < 64 then
        spSet 0#8 p.mem.bytes (a + e.1) (spGet 0#8 p.mem.bytes (a + e.1) ^^^ BitVec.ofNat 8 x)
      else p.mem.bytes
    { p with mem := { p.mem with bytes := bytes, chk := spSet 0 p.mem.chk a (spGet 0 p.mem.chk a ^^^ errDiff e.1 x) } }

/-- The lines of a stack of 64 GiB (R4, R319). -/
def stackLines : Nat := 2 ^ 30

/-- The local address of physical line `n` of a stack, where a slice places it (R290, R291, R295). -/
def Part.scrubLine (p : Part) (h n : Nat) : Option Nat := p.physAddr 512 h 0 (64 * n)

/-- Read the line for scrub and write a corrected one back (R295). -/
def Part.scrubRead (p : Part) (a : Nat) : Part :=
  let code := rsDecode (spGet 0 p.mem.chk a)
  let ((bs, _), p) := p.readLine 2 0 0 a
  match code with
  | .corrected _ => p.putHbm a bs none
  | _ => p

/-- Scrub reads a line that no slice places, with the errors given: it is counted and recorded as any other.
DESIGN CHOICE (log 138, unsafe): The contents of a line that no slice of the map places are not kept; scrub finds it clean but for the errors of the moment. -/
def Part.scrubBare (p : Part) (h : Nat) (errs : List (Nat × Nat)) : Part :=
  let p := p.bump (MEM_STAT_RD (h / 2)) 1
  match rsDecode ((errs.filter fun e => e.1 < 72).foldl (fun d e => d ^^^ errDiff e.1 (e.2 % 256)) 0) with
  | .clean => p
  | .corrected l => p.countCe h l.length
  | _ => (p.bump (MEM_STAT_UE (h / 2)) 1).noteErr (MEM_STICKY (h / 2)) 0 { mkErr 6 0 0 with sector := h / 2 }

/-- PATROL_SCRUB (R295): the controller reads the next line of its stack in ascending physical order, from the start again past the last,
on which the errors given have come up. -/
def execPatrolScrub (sector : BitVec 2) (ctl : BitVec 1) (errs : List (Nat × Nat)) (s : State) : Answer :=
  s.run fun p =>
    let x := sector.toNat
    let h := 2 * x + ctl.toNat
    let c := p.ctl x
    let n := if ctl = 0 then c.scrub0 else c.scrub1
    let off := p.getF (MEM_SCRUB x) (8 * ctl.toNat) 8 == 0
    if off || !p.mem.ready || p.getB (MEM_STATUS x) 1 then p
    else
      let next := (n + 1) % stackLines
      let p := p.setCtl x (if ctl = 0 then { c with scrub0 := next } else { c with scrub1 := next })
      let p := match p.scrubLine h n with
        | some a => (p.strike a errs).scrubRead a
        | none => p.scrubBare h errs
      p.bump (MEM_STAT_SCRUB x) 1

/-- HBM_REFRESH (R317): one refresh interval of a stack. Refresh costs bandwidth alone; the model counts it. -/
def execHbmRefresh (sector : BitVec 2) (ctl : BitVec 1) (s : State) : Answer :=
  s.run fun p =>
    if p.power.hbmTrained && !p.getB (MEM_STATUS sector.toNat) 1 then
      p.modCtl sector.toNat fun c =>
        if ctl = 0 then { c with refreshes := c.refreshes + 1 } else { c with refreshes1 := c.refreshes1 + 1 }
    else p

/-- STACK_SENSOR_READ (R317): the controller reads its stack's sensor; above 85 °C the stack is hot, above throttle_c it is
throttled. -/
def execStackSensorRead (sector : BitVec 2) (ctl : BitVec 1) (celsius : Nat) (s : State) : Answer :=
  s.run fun p =>
    let x := sector.toNat
    let i := ctl.toNat
    if !p.power.hbmTrained then p
    else
      let p := p.putF (MEM_TEMP x) (8 * i) 8 (min celsius 255)
      let p := p.putB (MEM_STATUS x) (2 + i) (celsius > 85)
      p.putB (MEM_STATUS x) (4 + i) (celsius > p.getF (MEM_THERM x) 0 8)

/-- HBM_ZERO (R319): every line of the eight stacks holds zeros with a fresh codeword. -/
def execHbmZero (s : State) : Answer :=
  s.run fun p =>
    if !p.power.hbmTrained || p.mem.ready then p
    else
      let p := { p with mem := { p.mem with bytes := p.mem.bytes.filter (fun e => hbmTop ≤ e.1), chk := [], ready := true } }
      let p := p.each sectors fun p s => (p.putB (MEM_STATUS s) 0 true).bump (MEM_STAT_WR s) (2 * stackLines)
      (p.putB HIF_STATUS 1 true).modHif fun h => { h with memActive := true }

end Sys2Proof.Machine
end

