-- ==== Sys2Proof/Machine/HostIf.lean ====
section
/-!
DEFINITION. The commands of the host interface (chapter 13): the link, CXL.mem, the command queues with the commands that move data,
submit descriptors and stop or start ticks, the inbox, the status record and the host-side resets.
-/
namespace Sys2Proof.Machine

/-- CCLK runs and the part is not stopped (R531, R540). -/
def Part.clocked (p : Part) : Bool := p.getB PWR_STATUS 4 && !p.getB PWR_STATUS 7

/-- LINK_TRAINING (R389): CXL mode at 32 GT/s on ×16 or ×8 where the host accepts all three protocols, else PCIe mode. -/
def execLinkTraining (cxl : Bool) (rate width : Nat) (s : State) : Answer :=
  s.run fun p =>
    if p.hif.linkUp || !p.power.hbmTrained || p.getB PWR_STATUS 7 then p
    else
      let on := cxl && rate == 4 && width ≥ 3
      let p := ((p.putB HIF_STATUS 0 on).putF HIF_STATUS 3 3 width).putF HIF_STATUS 6 3 rate
      (p.modHif fun h => { h with linkUp := true }).fetchAll

/-- Where a decoder's device range starts (R396). -/
def Hif.dpaStart (h : Hif) (decoder : BitVec 1) : Nat :=
  if decoder = 0 then h.hdm0.skip else (if h.hdm0.committed then h.hdm0.skip + h.hdm0.size else 0) + h.hdm1.skip

/-- HDM_DECODER_COMMIT (R396).
DEDUCED (log 81, unsafe): HDM decoders are not touched by FLR, hot reset or link down; a part reset clears them. -/
def execHdmDecoderCommit (decoder : BitVec 1) (base size skip ways : Nat) (s : State) : Answer :=
  s.run fun p =>
    p.modHif fun h =>
      let d : Hdm := ⟨alignDown 28 base, alignDown 28 size, skip, false, false⟩
      let h1 := if decoder = 0 then { h with hdm0 := d } else { h with hdm1 := d }
      let ok := ways == 1 && h1.dpaStart decoder + d.size ≤ hbmTop
      let d := { d with committed := ok, error := !ok }
      if decoder = 0 then { h with hdm0 := d } else { h with hdm1 := d }

/-- The local address that a committed decoder gives a host address (R396). -/
def Hif.decode (h : Hif) (decoder : BitVec 1) (x : Nat) : Option Nat :=
  let d := if decoder = 0 then h.hdm0 else h.hdm1
  if d.committed ∧ d.base ≤ x ∧ x < d.base + d.size then some (h.dpaStart decoder + (x - d.base)) else none

/-- The local line of a host access, if it reaches the part (R396, R400): in CXL mode its host address by way of the decoders, in PCIe
mode its offset in BAR4/5. -/
def Part.hostAddr (p : Part) (x : Nat) : Option Nat :=
  if !p.hif.linkUp || !p.clocked then none
  else
    let a := if p.getB HIF_STATUS 0 then (p.hif.decode 0 x).or (p.hif.decode 1 x) else some x
    (a.filter isHbm).map (alignDown 6)

/-- What a host read of a line returns (R397, R399): zeros without poison where it is refused. -/
def Part.cxlRead (p : Part) (a : Nat) : Part :=
  match p.hostReadLine a with
  | (none, p) => p.modHif fun h => { h with lastRead := List.replicate 64 0#8, lastPoison := false }
  | (some (bs, t), p) => (p.modHif fun h => { h with lastRead := bs, lastPoison := t }).bump HIF_STAT_MEMRD 1

/-- CXL_MEM_READ (R397, R399, R400). -/
def execCxlMemRead (addr : Nat) (errs : List (Nat × Nat)) (s : State) : Answer :=
  s.run fun p =>
    match p.hostAddr addr with
    | none => p
    | some a => (p.strike a errs).cxlRead a

/-- CXL_MEM_WRITE (R397, R399, R400, R416). -/
def execCxlMemWrite (addr : Nat) (data : List Byte) (poison : Bool) (s : State) : Answer :=
  s.run fun p =>
    match p.hostAddr addr with
    | none => p
    | some a =>
      let (ok, p) := p.hostWriteLine a data poison
      if ok then p.bump HIF_STAT_MEMWR 1 else p

/-- H2D_SNOOP (R391): the part never holds a host line and answers RspIHitI. -/
def execH2dSnoop (_addr : Nat) (s : State) : Answer :=
  s.run fun p =>
    if p.hif.linkUp && p.getB HIF_STATUS 0 then p.modHif fun h => { h with snoops := h.snoops + 1 } else p

/-- SQ_DOORBELL (R401): the host has stored its commands and writes the tail. -/
def execSqDoorbell (queue : BitVec 3) (tail : BitVec 16) (host : List HostLine) (s : State) : Answer :=
  s.run fun p => if p.hif.linkUp then (p.hostStores host).setTail queue.toNat tail.toNat else p.hostStores host

/-- QUEUE_DISABLE (R401). -/
def execQueueDisable (queue : BitVec 3) (s : State) : Answer :=
  s.run fun p => if p.hif.linkUp then p.disableQueue queue.toNat else p

/-- Run the next command of a queue when it carries the opcode given: with a reserved field set it ends with status 1. -/
def Part.runCmd (p : Part) (q op : Nat) (f : Part → HostCmd → Part) : Part :=
  match p.nextCmd q op with
  | none => p
  | some c => if c.bad then p.endCmd q c 1 0 else f p c

/-- CMD_NOP (R403). -/
def execCmdNop (queue : BitVec 3) (s : State) : Answer :=
  s.run fun p => p.runCmd queue.toNat 0 fun p c => p.endCmd queue.toNat c 0 0

/-- The operands of a copy are in range (R391, R403). -/
def copyOk (c : HostCmd) : Bool :=
  c.arg 0 % 64 == 0 && c.arg 1 % 64 == 0 && c.arg 2 % 64 == 0 && 64 ≤ c.arg 2 && c.arg 2 ≤ 2 ^ 32 && c.arg 1 + c.arg 2 ≤ hbmTop

/-- What a copy has come to: lines moved, lines refused, poison met. -/
structure CopySum where
  moved : Nat
  refused : Bool
  poison : Bool
  deriving DecidableEq, Repr

/-- The status of a copy (R399, R403): a refused line before poison.
DEDUCED (log 77, unsafe): A copy that meets a refused line and poison ends with status 2. -/
def CopySum.status (x : CopySum) : Nat := if x.refused then 2 else if x.poison then 3 else 0

/-- Copy lines in from host memory, `n` of them (R399, R403, R416).
DEDUCED (log 78, unsafe): Copies are not counted in HIF_STAT_MEMRD and HIF_STAT_MEMWR. -/
def Part.copyInLoop (n : Nat) (p : Part) (h a : Nat) (x : CopySum) : CopySum × Part :=
  match n with
  | 0 => (x, p)
  | n + 1 =>
    let (bs, t) := p.hostLine h
    let (ok, p) := p.hostWriteLine a bs t
    let x := if ok then { x with moved := x.moved + 1, poison := x.poison || t } else { x with refused := true }
    Part.copyInLoop n p (h + 64) (a + 64) x

/-- Copy lines out to host memory, `n` of them (R399, R403). -/
def Part.copyOutLoop (n : Nat) (p : Part) (h a : Nat) (x : CopySum) : CopySum × Part :=
  match n with
  | 0 => (x, p)
  | n + 1 =>
    match p.hostReadLine a with
    | (none, p) => Part.copyOutLoop n p (h + 64) (a + 64) { x with refused := true }
    | (some (bs, t), p) =>
      Part.copyOutLoop n (p.hostPut h bs t) (h + 64) (a + 64) { x with moved := x.moved + 1, poison := x.poison || t }

/-- Run a copy from its start to its end. -/
def Part.runCopy (p : Part) (q op : Nat) (f : Part → HostCmd → CopySum × Part) : Part :=
  p.runCmd q op fun p c =>
    if !p.clocked then p
    else if !copyOk c then p.endCmd q c 1 0
    else
      let (x, p) := f p c
      p.endCmd q c x.status (64 * x.moved)

/-- COPY_IN (R403). -/
def execCopyIn (queue : BitVec 3) (host : List HostLine) (s : State) : Answer :=
  s.run fun p =>
    (p.hostStores host).runCopy queue.toNat 1 fun p c => p.copyInLoop (c.arg 2 / 64) (c.arg 0) (c.arg 1) ⟨0, false, false⟩

/-- COPY_OUT (R403). -/
def execCopyOut (queue : BitVec 3) (s : State) : Answer :=
  s.run fun p =>
    p.runCopy queue.toNat 2 fun p c => p.copyOutLoop (c.arg 2 / 64) (c.arg 0) (c.arg 1) ⟨0, false, false⟩

/-- Put accepted descriptors in ascending command queue, behind those of the same queue (R408). -/
def acceptInto (l : List Accepted) (new : List Accepted) : List Accepted :=
  new.foldl (fun acc a => insertBy (fun x y => x.q ≤ y.q) a acc) l

/-- HOST_SUBMIT (R408): the descriptors are read whole, then accepted while the target frame has not begun and the hub has room. -/
def execHostSubmit (queue : BitVec 3) (host : List HostLine) (s : State) : Answer :=
  s.run fun p =>
    let q := queue.toNat
    (p.hostStores host).runCmd q 3 fun p c =>
      let n := fld (c.arg 1) 32 16
      let extra := fld (c.arg 1) 16 16 != 0 || fld (c.arg 1) 48 16 != 0
      if c.arg 0 % 64 ≠ 0 ∨ extra ∨ n = 0 ∨ n > 16384 then p.endCmd q c 1 0
      else
        let (bs, poison) := p.hostRead (c.arg 0) (64 * n)
        if poison then p.endCmd q c 3 0
        else if p.frameNo ≥ c.arg 2 then p.endCmd q c 4 0
        else if p.hif.accepted.length + n > 16384 then p
        else
          let new := (chunks 64 n bs).map fun d => Accepted.mk q (c.arg 2) (c.arg 1 % 65536) d
          (p.modHif fun h => { h with accepted := acceptInto h.accepted new }).endCmd q c 0 n

/-- A QUIESCE whose ticks have stopped completes (R403). -/
def Part.quiesceDone (p : Part) : Part :=
  if !p.tick.quiesced || !p.tick.stopAfter || p.tick.token.isSome then p
  else
    let p := p.modTick fun t => { t with quiesced := false }
    p.each (List.range 8) fun p q =>
      match (p.cq q).cmds.find? (fun c => c.running && c.op == 0x20) with
      | some c => p.endCmd q c 0 p.tickCount
      | none => p

/-- QUIESCE (R403): the tick master stops ticks after the next commit tick; the command ends once they have stopped. -/
def execQuiesce (queue : BitVec 3) (s : State) : Answer :=
  s.run fun p =>
    let q := queue.toNat
    p.runCmd q 0x20 fun p c =>
      if p.role ≠ 1 then p.endCmd q c 5 0
      else ((p.startCmd q c).modTick fun t => { t with quiesced := true }).quiesceDone

/-- Ticks are to start or resume (R33, R403, R437): after a halt or QUIESCE the first frame is a replay.
DEDUCED (log 47, unsafe): The replay count starts again at resumption; the first frame after RESUME is a replay when a tick has been applied. -/
def Part.resumeTicks (p : Part) : Part :=
  if !p.tick.stopAfter then p
  else
    (p.putB TIK_STATUS 11 false).modTick fun t =>
      { t with stopAfter := false, quiesced := false, resumeReplay := p.tickCount != 0 }

/-- RESUME (R403, R437).
DEDUCED (log 83, unsafe): RESUME with ticks not stopped lifts nothing and answers TIK_COUNT + 1; QUIESCE with ticks stopped ends at once. -/
def execResume (queue : BitVec 3) (s : State) : Answer :=
  s.run fun p =>
    let q := queue.toNat
    p.runCmd q 0x21 fun p c =>
      if !p.clocked then p
      else if p.role ≠ 1 then p.endCmd q c 5 0
      else p.resumeTicks.endCmd q c 0 (p.tickCount + 1)

/-- The 64 bytes of a completion record (R406). -/
def completionBytes (q : Nat) (c : HostCmd) (phase : Bool) : List Byte :=
  leBytes 2 c.cid ++ leBytes 2 c.head ++ leBytes 1 q ++ leBytes 1 c.status ++ leBytes 2 0 ++ leBytes 8 c.result ++
    leBytes 8 c.tick ++ leBytes 8 c.frame ++ leBytes 31 0 ++ leBytes 1 (b2n phase)

/-- COMPLETION_RECORD_WRITE (R406, R407): the oldest record of a queue, into an entry the host has returned. -/
def execCompletionRecordWrite (queue : BitVec 3) (s : State) : Answer :=
  s.run fun p =>
    let q := queue.toNat
    let x := p.cq q
    match x.ended with
    | [] => p
    | c :: rest =>
      if !p.hostBus || x.unret ≥ p.crSize q then p
      else
        let t := p.getF (HIF_CR_TAIL q) 0 16
        let t2 := (t + 1) % p.crSize q
        let p := p.hostPut (p.getF (HIF_CR_BASE q) 12 52 * 4096 + 64 * t) (completionBytes q c x.phase) false
        let p := p.setCq q { x with ended := rest, unret := x.unret + 1, phase := if t2 = 0 then !x.phase else x.phase }
        ((p.wr (HIF_CR_TAIL q) t2).settle q).sweepAll

/-- CR_HEAD_WRITE (R407). -/
def execCrHeadWrite (queue : BitVec 3) (head : BitVec 16) (s : State) : Answer :=
  s.run fun p => if p.hif.linkUp then p.setCrHead queue.toNat head.toNat else p

/-- IN_COMMIT (R412). -/
def execInCommit (channel : BitVec 4) (word : BitVec 64) (s : State) : Answer :=
  s.run fun p => if p.hif.linkUp then p.commitWord channel.toNat word.toNat else p

/-- The next block of a channel to deliver in this attempt: the lowest index (R413). -/
def Part.nextBlock (p : Part) (c : Nat) : Option HeldBlock :=
  (p.heldBlocks c).foldl
    (fun best b =>
      if b.frame = p.frameNo ∧ !b.late ∧ !b.delivered then
        match best with
        | none => some b
        | some x => if b.index < x.index then some b else some x
      else best) none

/-- BLOCK_DELIVERY (R413): the delivery-table entry, then the signal. -/
def execBlockDelivery (channel : BitVec 4) (s : State) : Answer :=
  s.run fun p =>
    let c := channel.toNat
    if !p.working || !p.inOn c || p.tick.unwinding then p
    else
      match p.nextBlock c with
      | none => p
      | some b =>
        let p := p.clockTo (p.tick.frameStart + 128)
        let p := p.store 10 0 (p.inBaseOf c + 16 * b.index) (leBytes 4 b.slot ++ leBytes 4 b.len ++ leBytes 8 b.frame) none
        let l := (p.heldBlocks c).map fun x => if x == b then { x with delivered := true } else x
        let cfg := p.rd (HIF_IN_CFG c)
        ((p.setBlocks c l).signalIn 0 (fld cfg 13 13) (fld cfg 26 5)).bump HIF_STAT_BLOCK 1

/-- The 192 bytes of the status record (R409). -/
def Part.statusRecord (p : Part) : List Byte :=
  leBytes 8 p.tickCount ++ leBytes 8 p.frameNo ++ leBytes 4 (p.rd TIK_STATUS) ++ leBytes 4 (p.rd TIK_FAIL_CAUSE) ++
    leBytes 4 (p.rd TIK_VINTAGE) ++ leBytes 4 (p.rd TIK_SEASON_POS) ++ leBytes 4 p.hif.summary ++ leBytes 28 0 ++
    ((List.range 8).flatMap fun o => leBytes 4 (p.rd (HIF_OUT_IDX o))) ++
    ((List.range 16).flatMap fun c => leBytes 2 (p.heldBlocks c).length) ++ leBytes 8 p.tickCount ++ leBytes 56 0

/-- STATUS_RECORD_WRITE (R409, R410): three lines, bytes [63:0] last; skipped where host memory cannot be reached. -/
def execStatusRecordWrite (s : State) : Answer :=
  s.run fun p =>
    if !p.hif.statusDue then p
    else
      let p := p.modHif fun h => { h with statusDue := false }
      if !p.hostBus then p.bump HIF_STAT_STATUSSKIP 1
      else
        let a := p.getF HIF_STATUS_ADDR 8 56 * 256
        let r := p.statusRecord
        let p := p.hostPut (a + 128) (r.drop 128) false
        let p := p.hostPut (a + 64) ((r.drop 64).take 64) false
        p.hostPut a (r.take 64) false

/-- The registers of the host interface that a host-side reset returns to their reset values (R419). -/
def hifReset : List Nat :=
  HIF_CTRL :: HIF_STATUS_ADDR :: ((List.range 8).flatMap fun q =>
    [HIF_SQ_BASE q, HIF_Q_CFG q, HIF_SQ_TAIL q, HIF_SQ_HEAD q, HIF_CR_BASE q, HIF_CR_HEAD q, HIF_CR_TAIL q, HIF_OUT_ACK q])

/-- FLR, hot reset and link down (R419, R450, R466): running commands are abandoned without a record.
PRESUMED (log 80, unsafe): FLR, hot reset and link down clear Bus Master Enable and D3hot, as PCI Express does. -/
def Part.hostReset (p : Part) (down : Bool) : Part :=
  let p := p.each hifReset fun p r => p.wr r (regReset r)
  let p := p.modHif fun h => { h with queues := [], busMaster := false, linkUp := h.linkUp && !down }
  let p := p.putB HIF_STATUS 2 false
  let p := if p.txn.validating.isSome then p.putF TIK_TXN_STATE 0 2 1 else p
  let p := p.modTxn fun t => { t with validating := none, loadPending := none }
  let p := p.modTick fun t => { t with quiesced := false }
  p.modMgt fun m => { m with cxl := .reset }

/-- HOST_RESET (R419). -/
def execHostReset (kind : HostResetKind) (s : State) : Answer := s.run fun p => p.hostReset (kind == .linkDown)

/-- PCI_POWER_STATE_CHANGE (R419). -/
def execPciPowerStateChange (d3hot busMaster : Bool) (s : State) : Answer :=
  s.run fun p =>
    if !p.hif.linkUp then p
    else ((p.putB HIF_STATUS 2 d3hot).modHif fun h => { h with busMaster := busMaster }).fetchAll

end Sys2Proof.Machine
end

