-- ==== Sys2Proof/Machine/Validate.lean ====
section
/-!
DEFINITION. Validation (R444): every rule that makes a graft fail, checked on the part as the staged writes would leave its registers. A
rule answers the lowest register offset it names when it is broken.
-/
namespace Sys2Proof.Machine

/-- A rule broken at a register. -/
def bad (b : Bool) (off : Nat) : Option Nat := if b then some off else none

/-- The offsets of the registers listed in a range. -/
def Part.listed (p : Part) (lo hi : Nat) : List Nat := p.regs.filterMap fun e => if lo ≤ e.1 && e.1 < hi then some e.1 else none

/-- The cores of the grade with any register that is not at its reset value. -/
def Part.regCores (p : Part) : List Nat :=
  dedupAdj ((p.listed 0x2000000 0x4000000).filterMap fun a =>
    let o := a - 0x2000000
    let c := 2048 * (o / 0x800000) + o % 0x800000 / 0x400
    if o % 0x800000 < 0x200000 && p.validCore c then some c else none)

/-- A core has a role in frames of kind `k` (R77). -/
def Part.roleIn (p : Part) (c k : Nat) : Bool := p.validCore c && p.getB (COR_CTRL c) 0 && p.getB (COR_CTRL c) (1 + k)

/-- The cores of a sector that the graft gives any role. -/
def Part.coresOf (p : Part) (s : Nat) : List Nat := p.regCores.filter fun c => coreSector c == s

/-- A range lies wholly in one valid region that has the attributes `need` and none of `no` (R302, R303); an empty range does. -/
def Part.inRegion (p : Part) (a len : Nat) (need no : List Nat) : Bool :=
  len == 0 || (p.oneRegion a len && need.all (p.attr a) && !no.any (p.attr a))

/-- A range touches a region with an attribute. -/
def Part.touches (p : Part) (a len i : Nat) : Bool := len != 0 && !(granulesAll a len fun g => !p.attr g i)

/-- A chip identifier inside FAB_TOPO (R327, R328). -/
def Part.inTopo (p : Part) (chip : Nat) : Bool :=
  (List.range 4).all fun i => fld chip (4 * i) 4 ≤ p.getF FAB_TOPO (4 * i) 4

/-- Two ranges overlap. -/
def overlap (a m b n : Nat) : Bool := a < b + n && b < a + m

/-- Kinds of frames. -/
def kinds3 : List Nat := [0, 1, 2]

/-- R23: TIK_LEAD and the offsets of a kind. -/
def Part.badOffsets (p : Part) (k : Nat) : Bool :=
  let c := p.rd (TIK_OFFS_C k)
  let d := p.rd (TIK_OFFS_D k)
  let g := p.rd (TIK_OFFS_G k)
  c == 0 || c > d || d > g || 10 * p.rd TIK_FRAME_LEN < g + 2 * p.rd TIK_LEAD

/-- The spans up to the first count of 0 (R37). -/
def Part.spans (p : Part) : List Nat := (List.range 16).takeWhile fun n => p.getF (TIK_SPAN n) 0 16 != 0

/-- The season plan (R23, R434). -/
def Part.ruleSeason (p : Part) : Option Nat :=
  bad (p.rd TIK_LEAD < 1000) TIK_LEAD <|> bad (p.getF (TIK_SPAN 0) 0 16 == 0) (TIK_SPAN 0) <|>
    (p.spans.findSome? fun n => bad (p.getF (TIK_SPAN n) 16 2 == 3) (TIK_SPAN n)) <|>
    (p.spans.findSome? fun n => bad (p.badOffsets (p.getF (TIK_SPAN n) 16 2)) TIK_FRAME_LEN)

/-- The member bitmap lies where R27 asks. -/
def Part.ruleMembers (p : Part) : Option Nat :=
  let a := p.getF TIK_MEMBERS 0 40
  let role := p.getF TIK_CTRL 2 2
  bad ((role == 1 || role == 2) && (a % 64 != 0 || !p.inRegion a 8192 [] [2, 3, 6])) TIK_MEMBERS

/-- The parts that a bitmap names (R27). -/
def namedIn (bs : List Byte) : List Nat :=
  ((List.range bs.length).zip bs).flatMap fun q => (List.range 8).filterMap fun i => if bit q.2.toNat i then some (8 * q.1 + i) else none

/-- A copy of the member bitmap (R27): none where a line is poison. -/
def Part.readMembers (p : Part) : Option (List Nat) × Part :=
  let ((bs, t), q) := p.load 13 0 (p.getF TIK_MEMBERS 0 40) 8192
  (if t.isSome then none else some (namedIn bs), q)

/-- The members a bitmap names are as R27 asks. -/
def Part.membersOk (p : Part) (l : List Nat) : Bool :=
  l.all p.inTopo && l.contains (p.getF TIK_MASTER 0 16) && l.contains (p.getF TIK_MASTER 16 16)

/-- A core's partition, entries, herd lines and outlook entries (R72, R78, R151). -/
def Part.ruleCore (p : Part) (c : Nat) : Option Nat :=
  let size := p.getF (COR_PART c) 0 5
  let olk := (List.range 8).filter fun e => p.getB (COR_OLK_CTRL c e) 16
  bad (size == 0 || size > 16 || p.getF (COR_PART c) 8 7 < size) (COR_PART c) <|>
    (kinds3.findSome? fun k => bad (p.rd (COR_ENTRY c k) ≥ 4096 * size) (COR_PART c)) <|>
    (kinds3.findSome? fun k => bad (p.rd (COR_JOIN c k) != 0 && !p.roleIn c k) (COR_CTRL c)) <|>
    (olk.findSome? fun e =>
      let id := p.rd (COR_OLK_ID c e)
      let n := p.getF (COR_OLK_CTRL c e) 0 11
      let thr := p.rd (COR_OLK_THR c e)
      bad (id == 0 || olk.any (fun f => f < e && p.rd (COR_OLK_ID c f) == id) || n == 0 || n > 1024 ||
        p.getF (COR_OLK_CTRL c e) 20 4 > 12 || (bit thr 31 && thr != 2 ^ 31) || fld thr 23 8 == 255) (COR_OLK_ID c e))

/-- COR_SEED holds one value in the four sectors (R99). -/
def Part.ruleSeed (p : Part) : Option Nat := bad (sectors.any fun s => p.rd (COR_SEED s) != p.rd (COR_SEED 0)) (COR_SEED 0)

/-- The configured queues of a sector with their slots, kinds (R163, R164). -/
def Part.slotsOf (p : Part) (s q : Nat) : Nat × Nat := (p.getF (SCH_QCFG s q) 48 16, 2 ^ p.getF (SCH_QCFG s q) 44 4)

/-- Slot ranges of a sector's queues (R164, R187). -/
def Part.ruleSlots (p : Part) (s : Nat) : Option Nat :=
  let qs := p.cfgQueues s
  let one (q : Nat) : Option Nat :=
    let (b, n) := p.slotsOf s q
    let on := p.getF (SCH_QCFG s q) 16 3 != 0
    bad (p.getF (SCH_QCFG s q) 44 4 > 12 || (on && (b % n != 0 || b + n > 65536))) (SCH_QCFG s q)
  let two (k : Nat) : Option Nat :=
    let on := qs.filter fun q => p.getB (SCH_QCFG s q) (16 + k)
    on.findSome? fun q =>
      bad (on.any fun r => q < r && overlap (p.slotsOf s q).1 (p.slotsOf s q).2 (p.slotsOf s r).1 (p.slotsOf s r).2) (SCH_QCFG s q)
  qs.findSome? one <|> kinds3.findSome? two

/-- The queues a core binds in a kind. -/
def Part.binds (p : Part) (c k : Nat) : List Nat :=
  let w := p.rd (SCH_BIND (coreSector c) (c % 2048) k)
  (List.range 4).filterMap fun e => if bit w (16 * e + 15) then some (fld w (16 * e) 14) else none

/-- The bindings of a sector, as (core, kind, queue). -/
def Part.bindings (p : Part) (s : Nat) : List (Nat × Nat × Nat) :=
  (p.listed (SCH_BIND s 0 0) (SCH_BIND s 2048 0)).flatMap fun a =>
    let c := 2048 * s + (a - SCH_BIND s 0 0) / 0x20
    let k := (a - SCH_BIND s 0 0) % 0x20 / 8
    (p.binds c k).map fun q => (c, k, q)

/-- Bindings, preload lists and the delay store of a sector (R164, R184, R305). -/
def Part.ruleSched (p : Part) (s : Nat) : Option Nat :=
  let bs := p.bindings s
  let at' (b : Nat × Nat × Nat) : Nat := SCH_BIND s (b.1 % 2048) b.2.1
  p.ruleSlots s <|>
    (bs.findSome? fun b =>
      bad (!p.roleIn b.1 b.2.1 || !p.getB (SCH_QCFG s b.2.2) (16 + b.2.1) ||
        bs.any fun d => d.1 != b.1 && d.2 == b.2) (at' b)) <|>
    (kinds3.findSome? fun k =>
      bad (p.getF (SCH_PRELOAD s k) 48 15 > 16384 || p.getF (SCH_PRELOAD s k) 0 40 % 64 != 0) (SCH_PRELOAD s k)) <|>
    bad (!p.inRegion (p.getF (SCH_DELAY s) 0 40) (64 * 65536) [5] []) (SCH_DELAY s)

/-- A graph of a sector (R195, R196). -/
def Part.ruleGraph (p : Part) (s n : Nat) : Option Nat :=
  let cfg := p.rd (SMP_GCFG s n)
  let v := p.rd (SMP_GVCOUNT s n)
  let e := p.getF (SMP_GECOUNT s n) 0 40
  let arrays := [(SMP_GVIDX s n, 8 * (v + 1)), (SMP_GEDGE s n, 4 * e)] ++ (if bit cfg 1 then [(SMP_GWGT s n, 4 * e)] else []) ++
    (if bit cfg 2 then [(SMP_GTS s n, 4 * e)] else [])
  if !bit cfg 0 then none
  else
    bad (v == 0 || v == 2 ^ 32 - 1) (SMP_GVCOUNT s n) <|>
      arrays.findSome? fun a => bad (p.getF a.1 0 40 % 64 != 0 || !p.inRegion (p.getF a.1 0 40) a.2 [] []) a.1

/-- The sampler and the gather–scatter engine of a sector (R196, R223, R305). -/
def Part.ruleSampler (p : Part) (s : Nat) : Option Nat :=
  let w := p.getF (SMP_WORK s) 0 40
  (List.range 16).findSome? (p.ruleGraph s) <|>
    bad (w % 2 ^ 26 != 0 || !p.inRegion w (2 ^ 26) [2] [4]) (SMP_WORK s) <|>
    bad (p.getF (GSE_CTRL s) 4 4 > 8) (GSE_CTRL s)

/-- The registers that describe table `t` in a sector (R225). -/
def tblRegs (s t : Nat) : List Nat := (List.range 8).map fun i => TBL_TCFG s t + 8 * i

/-- The chips that own shards of a table (R227 to R229). -/
def Part.owners (p : Part) (T : Tbl) : List Nat :=
  match T.mode with
  | 2 => if T.rps = 0 then [] else (List.range (ceilDiv T.rows T.rps)).map T.shardChip
  | 3 => (p.tmap T).map (·.1)
  | _ => []

/-- First keys rise strictly from 0 and stay below `rows` (R229). -/
def mapOk (rows : Nat) (m : List (Nat × Nat)) : Bool :=
  (match m with
    | [] => false
    | e :: _ => e.2 == 0) &&
    (m.all fun e => e.2 < rows) && ((m.zip (m.drop 1)).all fun q => q.1.2 < q.2.2)

/-- A table's alignment and size (R226 to R233, R256). -/
def Part.ruleTableForm (p : Part) (T : Tbl) : Option Nat :=
  let copies := if T.versioned then [T.base0, T.base1] else [T.base0]
  bad (T.dim == 0 || T.dim > 1024) (TBL_TCFG 0 T.t) <|>
    bad (T.base0 % 4096 != 0 || T.base1 % 4096 != 0 || T.dir % 64 != 0 || T.dflt % 32 != 0) (TBL_TBASE0 0 T.t) <|>
    bad (T.mode == 1 && T.size > 2 ^ 28) (TBL_TSIZE 0 T.t) <|>
    bad (T.mode == 2 && T.rows > T.rps * (T.ext 0 * T.ext 1 * T.ext 2 * T.ext 3)) (TBL_TSIZE 0 T.t) <|>
    bad (T.mode < 2 && p.rd (TBL_TMAP 0 T.t) != 0) (TBL_TMAP 0 T.t) <|>
    bad (T.mode == 3 && (T.map % 8 != 0 || !mapOk T.rows (p.tmap T))) (TBL_TMAP 0 T.t) <|>
    bad (!(p.owners T).all p.inTopo) (TBL_TMAP 0 T.t) <|>
    bad (!T.tiered && T.slots0 < p.localRows T) (TBL_TSLOTS 0 T.t) <|>
    bad (!copies.all fun b => p.inRegion b T.size (if T.versioned then [6] else []) []) (TBL_TBASE0 0 T.t) <|>
    bad (T.versioned && !p.inRegion T.dir (p.bitmapAt T 1 + p.bitmapBits T / 8 - T.dir) [6] []) (TBL_TDIR 0 T.t)

/-- One table number (R225, R256). -/
def Part.ruleTable (p : Part) (t : Nat) : Option Nat :=
  bad (([1, 2, 3].any fun s => (tblRegs s t).any fun a => p.rd a != p.rd (a - 0x800000 * s))) (TBL_TCFG 0 t) <|>
    (if (p.tbl t).valid then p.ruleTableForm (p.tbl t) else none)

/-- The tables of which any register is listed; any other is as at reset, in every sector alike and not valid. -/
def Part.regTables (p : Part) : List Nat :=
  dedupAdj (sortBy (· ≤ ·) (sectors.flatMap fun s =>
    (p.listed (TBL_TCFG s 0) (TBL_TCFG s 256)).map fun a => (a - TBL_TCFG s 0) / 0x40))

/-- All tables, the map store and the row cache (R225 to R233, R256). -/
def Part.ruleTables (p : Part) : Option Nat :=
  let total := (p.regTables.map fun t => if (p.tbl t).valid && (p.tbl t).mode == 3 then p.getF (TBL_TMAP 0 t) 40 13 + 1 else 0).foldl (· + ·) 0
  (sectors.findSome? fun s => bad (p.getF (TBL_RC_CFG s) 0 5 < 16 || p.getF (TBL_RC_CFG s) 0 5 > 30) (TBL_RC_CFG s)) <|>
    bad (total > 8192) (TBL_TMAP 0 0) <|> p.regTables.findSome? p.ruleTable

/-- The tables of which OPT_TCFG is listed. -/
def Part.optTables (p : Part) : List Tbl :=
  ((p.listed (OPT_TCFG 0 0) (OPT_TCFG 0 256)).filter fun a => (a - OPT_TCFG 0 0) % 0x40 == 0).map fun a => p.tbl ((a - OPT_TCFG 0 0) / 0x40)

/-- The learned tables (R257). -/
def Part.learned (p : Part) : List Tbl := p.optTables.filter fun T => p.getB (OPT_TCFG 0 T.t) 0

/-- A chip lies in a box of RED_BOX or PRS_PEER form inside FAB_TOPO. -/
def Part.inBox (p : Part) (w chip : Nat) : Bool :=
  (List.range 4).all fun i =>
    (fld chip (4 * i) 4 + p.getF FAB_TOPO (4 * i) 4 + 1 - fld w (16 + 4 * i) 4) % (p.getF FAB_TOPO (4 * i) 4 + 1) ≤ fld w (4 * i) 4

/-- A box lies inside FAB_TOPO: its origin does, and it is no longer than the torus in any dimension. -/
def Part.boxFits (p : Part) (w : Nat) : Bool :=
  p.inTopo (w >>> 16) && (List.range 4).all fun i => fld w (4 * i) 4 ≤ p.getF FAB_TOPO (4 * i) 4

/-- The press of a sector (R258, R264, R305, R328). -/
def Part.rulePress (p : Part) (s : Nat) : Option Nat :=
  let qs := (p.listed (PRS_QUOTA s 0) (PRS_QUOTA s 2048)).filter fun a => p.getF a 32 21 != 0
  let owners := (p.learned.flatMap p.owners)
  let w := p.rd (PRS_PEER s)
  let st := p.rd (PRS_STAGE s)
  (qs.findSome? fun a =>
    let c := 2048 * s + (a - PRS_QUOTA s 0) / 8
    bad (p.getF a 0 20 + p.getF a 32 21 > 2 ^ 20 || !p.roleIn c 2 ||
      qs.any fun b => b != a && overlap (p.getF a 0 20) (p.getF a 32 21) (p.getF b 0 20) (p.getF b 32 21)) a) <|>
    bad (!p.boxFits w || !p.inBox w (p.rd FAB_ID) || !owners.all (p.inBox w)) (PRS_PEER s) <|>
    bad ((p.getB (PRS_CTRL s) 0 && fld st 56 8 < 5) || fld st 0 30 != 0 || !p.inRegion (fld st 0 40) (max 1 (fld st 56 8 * 2 ^ 30)) [2] [4])
      (PRS_STAGE s)

/-- How many of a, b and c a step function reads (R124). -/
def fnReads (fn : Nat) : Nat :=
  if fn = 4 ∨ fn = 16 then 3 else if fn = 0 ∨ (7 ≤ fn ∧ fn ≤ 12) then 1 else 2

/-- A program of the optimiser is used: a learned table names it, or a register of it has been written. -/
def Part.progUsed (p : Part) (n : Nat) : Bool :=
  (p.learned.any fun T => p.getF (OPT_TCFG 0 T.t) 1 3 == n) || p.rd (OPT_PCFG 0 n) != 0 ||
    (List.range 16).any fun k => p.rd (OPT_PROG 0 n k) != 0

/-- A program of the optimiser (R273, R275). -/
def Part.ruleProg (p : Part) (n : Nat) : Option Nat :=
  let c := p.rd (OPT_PCFG 0 n)
  let last := fld c 0 4
  bad (fld c 4 4 > last || (bit c 16 && fld c 8 4 > last) || (bit c 17 && fld c 12 4 > last)) (OPT_PCFG 0 n) <|>
    (List.range (last + 1)).findSome? fun k =>
      let w := p.rd (OPT_PROG 0 n k)
      let fn := fld w 59 5
      let sel (i : Nat) : Nat := fld w (55 - 4 * i) 4
      bad (fn > 16 || (List.range (fnReads fn)).any fun i => sel i < 8 && sel i + 1 > k) (OPT_PCFG 0 n)

/-- A learned table (R272, R275, R305). -/
def Part.ruleLearned (p : Part) (T : Tbl) : Option Nat :=
  let c := p.rd (OPT_TCFG 0 T.t)
  let prog := p.rd (OPT_PCFG 0 (fld c 1 3))
  let n := if T.tiered then T.slots0 + T.slots1 + 2 * T.subrows else p.localRows T + 2 * T.subrows
  let area (r : Nat) : Bool := p.getF r 0 40 % 64 == 0 && p.inRegion (p.getF r 0 40) (4 * T.dim * n) [5] []
  bad (!T.versioned) (OPT_TCFG 0 T.t) <|>
    bad (!area (OPT_TMASTER 0 T.t)) (OPT_TMASTER 0 T.t) <|>
    bad (bit prog 16 && !area (OPT_TMOM1 0 T.t)) (OPT_TMOM1 0 T.t) <|>
    bad (bit prog 17 && !area (OPT_TMOM2 0 T.t)) (OPT_TMOM2 0 T.t)

/-- The rounding of a table's working copies (R275), learned or not. -/
def Part.ruleRounding (p : Part) (T : Tbl) : Option Nat :=
  let m := p.getF (OPT_TCFG 0 T.t) 4 2
  bad (m == 3 || (m == 1 && T.mode == 1)) (OPT_TCFG 0 T.t)

/-- The optimiser (R275, R305): OPT_PROG, OPT_PCFG and OPT_T are alike in the four sectors. -/
def Part.ruleOpt (p : Part) : Option Nat :=
  let shared (s : Nat) : List Nat :=
    (p.listed (OPT_PROG s 0 0) (OPT_PROG s 8 0)) ++ (p.listed (OPT_TCFG s 0) (OPT_TCFG s 256)) ++
      (List.range 8).map fun n => OPT_PCFG s n
  let differs (a : Nat) : Bool := sectors.any fun s => p.rd (secBase s + (a - 0x2000000) % 0x800000) != p.rd a
  (sectors.findSome? fun s => (shared s).findSome? fun a => bad (differs a) (0x2000000 + (a - 0x2000000) % 0x800000)) <|>
    ((List.range 8).findSome? fun n => if p.progUsed n then p.ruleProg n else none) <|> p.optTables.findSome? p.ruleRounding <|>
    p.learned.findSome? p.ruleLearned

/-- The slice map (R290, R292). -/
def Part.ruleSlices (p : Part) : Option Nat :=
  let m (s n : Nat) : Nat := p.rd (MEM_SLICE s n)
  let count (v : Nat) : Nat := ((p.listed (MEM_SLICE 0 0) (MEM_SLICE 0 512)).filter fun a => p.rd a == v).length
  (sectors.findSome? fun s => (p.listed (MEM_SLICE s 0) (MEM_SLICE s 512)).findSome? fun a =>
    let n := (a - MEM_SLICE s 0) / 4
    bad (m s n == 2 || m s n == 3 || sectors.any fun r => m r n != m s n) (MEM_SLICE 0 n)) <|>
    bad (sectors.any fun s => count 1 + 4 * count (4 + s) > 512) (MEM_SLICE 0 0)

/-- The bounds of region `n`: first byte and length. -/
def Part.rgn (p : Part) (n : Nat) : Nat × Nat :=
  let b := p.getF (MEM_RGN_BASE 0 n) 12 28
  let l := p.getF (MEM_RGN_LIMIT 0 n) 12 28
  (4096 * b, 4096 * (l + 1 - b))

/-- The valid regions. -/
def Part.rgns (p : Part) : List Nat := (List.range 64).filter fun n => p.getB (MEM_RGN_ATTR 0 n) 0

/-- The region map (R292, R302, R305). -/
def Part.ruleRegions (p : Part) : Option Nat :=
  let a (n i : Nat) : Bool := p.getB (MEM_RGN_ATTR 0 n) i
  ([1, 2, 3].findSome? fun s => (List.range 64).findSome? fun n =>
    [MEM_RGN_BASE, MEM_RGN_LIMIT, MEM_RGN_ATTR].findSome? fun r => bad (p.rd (r s n) != p.rd (r 0 n)) (r 0 n)) <|>
    p.rgns.findSome? fun n =>
      let (lo, len) := p.rgn n
      let top := lo + len
      bad (len == 0 || top > hbmTop || (List.range ((top - 1) / 2 ^ 30 + 1 - lo / 2 ^ 30)).any (fun i => p.rd (MEM_SLICE 0 (lo / 2 ^ 30 + i)) == 0) ||
        p.rgns.any (fun m => m != n && overlap lo len (p.rgn m).1 (p.rgn m).2) || (a n 4 && a n 3) ||
        (a n 6 && (a n 2 || a n 3 || a n 4 || !a n 5))) (MEM_RGN_BASE 0 n)

/-- The journal area of a sector (R305, R306). -/
def Part.ruleJournal (p : Part) (s : Nat) : Option Nat :=
  let b := p.getF (MEM_JOURNAL s) 0 40
  let n := p.getF (MEM_JOURNAL s) 48 16 * 2 ^ 20
  bad (n != 0 && (b % 2 ^ 20 != 0 || !p.inRegion b n [2] [4, 5])) (MEM_JOURNAL s)

/-- Where a walk along a path stands: the chip, the legs begun, the dimension and direction of the run, whether the run has crossed its
wrap link, and whether a rule is broken (R336). -/
structure Walk where
  chip : Nat
  legs : Nat
  dim : Option Nat
  up : Bool
  wraps : Nat
  broken : Bool
  deriving DecidableEq, Repr

/-- One hop of a path (R336). -/
def Part.hop (p : Part) (w : Walk) (code : Nat) : Walk :=
  let (d, up) := hopDim code
  let n := p.getF FAB_TOPO (4 * d) 4 + 1
  let c := fld w.chip (4 * d) 4
  let same : Bool := w.dim == some d
  let legs := match w.dim with
    | some e => if d < e then w.legs + 1 else w.legs
    | none => 1
  let wraps := (if same then w.wraps else 0) + b2n (if up then c + 1 == n else c == 0)
  let c' := if up then (c + 1) % n else (c + n - 1) % n
  { chip := putFld w.chip (4 * d) 4 c', legs := legs, dim := some d, up := up, wraps := wraps,
    broken := w.broken || code == 0 || code > 8 || n == 1 || legs > 2 || (same && up != w.up) || wraps > 1 }

/-- A path is valid (R336). -/
def Part.pathOk (p : Part) (dst route hops : Nat) : Bool :=
  let w := (List.range hops).foldl (fun w i => p.hop w (fld route (5 * i) 5)) ⟨p.rd FAB_ID, 0, none, false, 0, false⟩
  1 ≤ hops && hops ≤ 48 && route >>> (5 * hops) == 0 && !w.broken && w.chip == dst

/-- The path of a destination at word `w` (0 primary, 4 alternate) breaks R336. -/
def Part.badPath (p : Part) (d w : Nat) : Bool :=
  let w3 := p.rd (FAB_RT d (w + 3))
  let r := p.rd (FAB_RT d w) + p.rd (FAB_RT d (w + 1)) <<< 64 + p.rd (FAB_RT d (w + 2)) <<< 128 + fld w3 0 48 <<< 192
  if bit w3 63 then !p.pathOk d r (fld w3 48 8) else w == 0

/-- Every part of FAB_TOPO. -/
def Part.topoChips (p : Part) : List Nat :=
  let dim (i : Nat) : List Nat := List.range (p.getF FAB_TOPO (4 * i) 4 + 1)
  (dim 3).flatMap fun d => (dim 2).flatMap fun c => (dim 1).flatMap fun b => (dim 0).map fun a => a + 16 * b + 256 * c + 4096 * d

/-- Identifiers and routes (R328, R336). -/
def Part.ruleFabric (p : Part) : Option Nat :=
  bad (!p.inTopo (p.getF TIK_MASTER 0 16) || !p.inTopo (p.getF TIK_MASTER 16 16)) TIK_MASTER <|>
    ((p.listed (FAB_RT 0 0) (FAB_RT 65536 0)).findSome? fun a =>
      let d := (a - FAB_RT 0 0) / 0x40
      bad ((a - FAB_RT 0 0) % 0x20 == 0x18 && p.getB a 63 && !p.inTopo d && d != p.rd FAB_ID) (FAB_RT d 0)) <|>
    ((p.topoChips.filter (· != p.rd FAB_ID)).findSome? fun d => bad (p.badPath d 0 || p.badPath d 4) (FAB_RT d 0))

/-- A bucket (R358, R359, R364, R368). -/
def Part.ruleBucket (p : Part) (b : Nat) : Option Nat :=
  let c := p.rd (RED_BKT_CFG b)
  let n := p.bktN b
  let one := p.bktOneBit b
  let win := p.bktWidth b 4
  let wout := if one then 4 else p.bktWidth b 7
  let outs := if bit c 13 then n else n / p.boxN
  let fmtOk (x : Nat) : Bool := x == 2 || x == 6
  let aux := if one then 4 * n + 4 * (n / p.boxN) + 32 else 8 * n
  let area (r len : Nat) : Bool := p.getF r 0 40 % 64 == 0 && p.inRegion (p.getF r 0 40) len [2] [4]
  let auxAt := p.getF (RED_BKT_AUX b) 0 40
  bad (fld c 14 2 > 1 || !fmtOk (fld c 4 3) || !fmtOk (fld c 7 3) || fld c 10 2 == 3 || n % (32 * p.boxN) != 0 || n > 2 ^ 28 ||
      (one && fld c 4 3 != 6) || (bit c 13 && !one && fld c 7 3 == 2 && fld c 10 2 == 1)) (RED_BKT_CFG b) <|>
    bad (!area (RED_BKT_IN b) (win * n)) (RED_BKT_IN b) <|> bad (!area (RED_BKT_OUT b) (wout * outs)) (RED_BKT_OUT b) <|>
    bad (!area (RED_BKT_AUX b) aux || (if one then !p.inRegion auxAt aux [5] [] else !p.inRegion auxAt aux [] [3, 5])) (RED_BKT_AUX b)

/-- The reduction engine (R359). -/
def Part.ruleReduce (p : Part) : Option Nat :=
  let bs := (p.listed (RED_BKT_CFG 0) (RED_BKT_CFG 4096)).filterMap fun a =>
    if (a - RED_BKT_CFG 0) % 0x20 == 0 && p.getB a 0 then some ((a - RED_BKT_CFG 0) / 0x20) else none
  if bs.isEmpty then none
  else bad (!p.boxFits (p.rd RED_BOX) || !p.inBox (p.rd RED_BOX) (p.rd FAB_ID)) RED_BOX <|> bs.findSome? p.ruleBucket

/-- The windows of this part (R373). -/
def Part.windows (p : Part) : List MirWin := readWins p.winBytes

/-- A region with journal = 1 lies inside one window, or receives the twin's mirror (R373).
DEDUCED (log 75, unsafe): Journalled regions must lie in the mirror windows once the partner is known. -/
def Part.journalMirrored (p : Part) (partner : List MirWin) : Bool :=
  p.rgns.all fun n =>
    let (lo, len) := p.rgn n
    !p.getB (MEM_RGN_ATTR 0 n) 5 || (p.windows.any fun w => w.base ≤ lo && lo + len ≤ w.base + 4096 * w.granules) ||
      partner.any fun w => overlap lo len w.mirror (4096 * w.granules)

/-- The twin that the graft pairs was seen on T0 or T1 (R330, R373). -/
def Part.twinSeen (p : Part) : Bool := [32, 33].any fun n => p.portRuns n && p.getF (FAB_PSTATUS n) 16 16 == p.getF TWN_CTRL 16 16

/-- The twin (R328, R373, R380, R386). -/
def Part.ruleTwin (p : Part) : Option Nat :=
  let ws := p.windows
  let queue := p.getF TWN_QUEUE 0 40
  let size := p.getF TWN_QUEUE 48 16
  let k := p.getF TWN_LOSS 0 4
  bad (k == 0 || k > 14 || k ≥ p.getF TIK_REPLAY 0 8) TIK_REPLAY <|>
    if !p.getB TWN_CTRL 0 then none
    else
      bad (!p.inTopo (p.getF TWN_CTRL 16 16) || !p.twinSeen) TWN_CTRL <|>
        bad (ws.any (fun w => w.base % 4096 != 0 || w.mirror % 4096 != 0) ||
          (List.range ws.length).any (fun i => (ws.drop (i + 1)).any fun v =>
            let w := nth ws i ⟨0, 0, 0⟩
            overlap w.base (4096 * w.granules) v.base (4096 * v.granules))) (TWN_WIN_BASE 0) <|>
        bad (size < 2 || size % 2 != 0 || queue % 2 ^ 20 != 0 || !p.inRegion queue (size * 2 ^ 20) [2] [4, 5]) TWN_QUEUE <|>
        bad (p.twin.partnerSeen && !p.journalMirrored p.twin.partner) (TWN_WIN_BASE 0)

/-- An inbox channel (R411). -/
def Part.ruleInbox (p : Part) (c : Nat) : Option Nat :=
  let w := p.rd (HIF_IN_CFG c)
  let base := p.getF (HIF_IN_BASE c) 0 40
  let len := 4096 + 2 ^ fld w 8 5 * (fld w 0 8 * 4096)
  if !bit w 31 then none
  else
    bad (fld w 0 8 == 0 || fld w 8 5 > 12 || fld w 56 8 == 0 || base % 65536 != 0 || !p.inRegion base len [8, 1] [2, 3, 4, 5] ||
      kinds3.any fun k => fld w (32 + 8 * k) 8 > 0 && !p.roleIn (fld w 13 13) k) (HIF_IN_BASE c)

/-- An outbox (R417). -/
def Part.ruleOutbox (p : Part) (o : Nat) : Option Nat :=
  let base := p.getF (HIF_OUT_CFG o) 0 40
  bad (p.getB (HIF_OUT_CFG o) 40 && (base % 16 != 0 || !p.inRegion base 16 [2, 5, 7] [4])) (HIF_OUT_CFG o)

/-- Trace areas, duplication areas and the rest of observation (R520): a base that is zero names no area. -/
def Part.ruleObs (p : Part) : Option Nat :=
  let c := p.rd OBS_CTRL
  let ts := fld c 16 5
  let area (a len : Nat) : Bool := p.inRegion a len [2] [4, 5]
  let save := p.getF OBS_TEST_SAVE 0 40
  bad (fld c 8 4 < 6 || fld c 8 4 > 12 || fld c 12 4 > 8 || fld c 0 3 > 4 || (1 ≤ ts && ts ≤ 3) || ts > 20) OBS_CTRL <|>
    bad (save != 0 && (save % 2 ^ 30 != 0 || !area save (2 ^ 29))) OBS_TEST_SAVE <|>
    (sectors.findSome? fun s =>
      let a := p.getF (OBS_DUP s) 0 40
      bad (a != 0 && (a % 2 ^ 26 != 0 || !area a (2 ^ 26))) (OBS_DUP s)) <|>
    ([0, 1, 2, 3, 4].findSome? fun b =>
      let w := p.rd (traceBase b)
      bad (p.getB (traceCfg b) 0 && (fld w 48 16 == 0 || fld w 0 20 != 0 || !area (fld w 0 40) (fld w 48 16 * 2 ^ 20))) (traceBase b))

/-- The rules of chapter 1 (R444). -/
def Part.ruleFrames (p : Part) : Option Nat := p.ruleSeason <|> p.ruleMembers

/-- The first broken rule of the chapters from the Ngavy core to the host interface (R444), in their order.
DEDUCED (log 88, unsafe): Validation checks each rule where its unit is enabled: delay store always, the press's and the sampler's areas always and the press's least size only when it is enabled, OBS_DUP and OBS_TEST_SAVE when not zero, trace areas when on, the journal when its size is not zero, programs when used. The chapters come in their order, the member bitmap with chapter 1, code images with chapter 14. -/
def Part.ruleUnits (p : Part) : Option Nat :=
  p.regCores.findSome? p.ruleCore <|> p.ruleSeed <|> sectors.findSome? p.ruleSched <|>
    sectors.findSome? p.ruleSampler <|> p.ruleTables <|> sectors.findSome? p.rulePress <|> p.ruleOpt <|> p.ruleSlices <|>
    p.ruleRegions <|> sectors.findSome? p.ruleJournal <|> p.ruleFabric <|> p.ruleReduce <|> p.ruleTwin <|>
    (List.range 16).findSome? p.ruleInbox <|> (List.range 8).findSome? p.ruleOutbox

end Sys2Proof.Machine
end

