-- ==== Sys2Proof/Machine/TxnOps.lean ====
section
/-!
DEFINITION. Applying and checking staged writes (R36, R436, R440, R444, R445), and how the commands of chapter 14 report a
failure (R449).
-/
namespace Sys2Proof.Machine

/-- Set the RWT bits of a register (R427); its other bits keep their value. -/
def Part.putRwt (p : Part) (off v : Nat) : Part :=
  match regAt off with
  | none => p
  | some r =>
    let m := p.rwtAt off r
    p.wr off ((p.rd off &&& (2 ^ 64 - 1 - m)) ||| (v &&& m))

/-- Every RWT bit takes its reset value (R436). -/
def Part.dropRwt (p : Part) : Part :=
  let one (e : Nat × Dword) : Option (Nat × Dword) :=
    match regAt e.1 with
    | none => some e
    | some r =>
      let m := p.rwtAt e.1 r
      let d := regReset e.1
      let v := BitVec.ofNat 64 ((e.2.toNat &&& (2 ^ 64 - 1 - m)) ||| (d &&& m))
      if v = BitVec.ofNat 64 d then none else some (e.1, v)
  { p with regs := p.regs.filterMap one }

/-- One staged register write takes effect. -/
def Part.putStaged (p : Part) (x : Staged) : Part :=
  match x with
  | .reg off _ v => p.putRwt off v
  | .image _ _ _ _ => p

/-- A staged write reaches a register for which `f` holds. -/
def stagedAny (l : List Staged) (f : Nat → Bool) : Bool :=
  l.any fun x =>
    match x with
    | .reg off _ _ => f off
    | .image _ _ _ _ => false

/-- The tables whose TBL_T registers differ between two parts. -/
def Part.tblDiffers (p q : Part) (t : Nat) : Bool := sectors.any fun s => (tblRegs s t).any fun a => p.rd a != q.rd a

/-- The tables whose registers differ, ascending. -/
def Part.tblChanged (p q : Part) : List Nat := (dedupAdj (sortBy (· ≤ ·) (p.regTables ++ q.regTables))).filter (p.tblDiffers q)

/-- The map of a mode-3 table as memory holds it (R229), from the register that describes it; one with a poisoned line is empty, which no
rule accepts. -/
def Part.readMap (p : Part) (tmap : Nat) : List (Nat × Nat) × Part :=
  let ((bs, tok), p) := p.load 4 0 (fld tmap 0 40) (8 * (fld tmap 40 13 + 1))
  (if tok.isSome then [] else (chunks 8 8192 bs).map fun e => (leAt e 6 2, leAt e 0 4), p)

/-- Copy the maps of the mode-3 tables named into the map store (R229). -/
def Part.copyMaps (p : Part) (ts : List Nat) : Part :=
  p.each ts fun p t =>
    if (p.tbl t).valid && (p.tbl t).mode == 3 then
      let (m, p) := p.readMap (p.rd (TBL_TMAP 0 t))
      p.modTxn fun x => { x with mapStore := spSet [] x.mapStore t m }
    else p.modTxn fun x => { x with mapStore := spSet [] x.mapStore t [] }

/-- What a write puts into bits [63:53] of TBL_TMAP, reserved in mode 3, is ignored (R14, R256). -/
def Part.dropRsv (p : Part) : Part :=
  p.each p.regTables fun p t =>
    if (p.tbl t).mode == 3 then p.each sectors fun p s => p.putF (TBL_TMAP s t) 53 11 0 else p

/-- The part with the registers that the staged writes leave: a graft load (`full`) returns every RWT bit to reset first. In token mode
writes to TIK_DELAY_COMP are ignored (R47). -/
def Part.stagedRegs (p : Part) (full : Bool) (l : List Staged) : Part :=
  let q := ((if full then p.dropRwt else p).each l Part.putStaged).dropRsv
  if q.getB TIK_CTRL 1 then q.wr TIK_DELAY_COMP (p.rd TIK_DELAY_COMP) else q

/-- The tables whose maps staged writes make the sectors copy. -/
def Part.mapsCopied (p q : Part) (full : Bool) : List Nat := if full then List.range 256 else p.tblChanged q

/-- The part as the staged writes leave it, the maps of mode-3 tables copied (R229). -/
def Part.withStaged (p : Part) (full : Bool) (l : List Staged) : Part :=
  let q := p.stagedRegs full l
  q.copyMaps (p.mapsCopied q full)

/-- The cores an image is for. -/
def imageCores (ss : Nat) (mask : List Byte) : List Nat :=
  (sectors.filter (bit ss)).flatMap fun s => (namedIn mask).map fun c => 2048 * s + c

/-- A role or an image for a core index outside the grade (R428, R431). -/
def Part.outsideGrade (p : Part) (x : Staged) : Bool :=
  match x with
  | .reg off _ v =>
    let o := (off - 0x2000000) % 0x800000
    0x2000000 ≤ off && o < 0x200000 && o % 0x400 == COR_CTRL 0 - 0x2000000 && o / 0x400 ≥ p.coresPerSector && bit v 0 && fld v 1 3 != 0
  | .image _ mask _ _ => (namedIn mask).any fun i => i ≥ p.coresPerSector

/-- The refusal of writes and images outside the grade (R431, R449), at the lowest register that they write. -/
def Part.gradeFault (p : Part) (l : List Staged) : Option TxnErr :=
  let offs := l.filterMap fun x => if !p.outsideGrade x then none else
    match x with
    | .reg off _ _ => some off
    | .image _ _ _ _ => some 0
  if offs.isEmpty then none else some ⟨4, 0xFFFF, ((sortBy (· ≤ ·) offs).find? (· != 0)).getD 0⟩

/-- The lowest core whose code partition an image runs past (R428), by its COR_PART. -/
def Part.imageLong (p : Part) (x : Staged) : Option Nat :=
  match x with
  | .reg _ _ _ => none
  | .image ss mask off bs => (imageCores ss mask).findSome? fun c => bad (off + bs.length > p.codeEnd c) (COR_PART c)

/-- The registers that only the first graft load may change (R292, R328, R436): the lowest one that differs. -/
def Part.fixedChange (p q : Part) : Option Nat :=
  bad (p.rd TIK_MASTER != q.rd TIK_MASTER) TIK_MASTER <|>
    (sectors.findSome? fun s =>
      (sortBy (· ≤ ·) (p.listed (MEM_SLICE s 0) (MEM_SLICE s 512) ++ q.listed (MEM_SLICE s 0) (MEM_SLICE s 512))).findSome? fun a =>
        bad (p.rd a != q.rd a) a)

/-- The members a bitmap must name are checked where the bitmap is copied (R27). -/
def Part.membersBroken (p : Part) : Bool :=
  let role := p.getF TIK_CTRL 2 2
  (role == 1 || role == 2) &&
    match p.readMembers.1 with
    | none => true
    | some l => !p.membersOk l

/-- The decoded reads that validation makes (R444): the map areas and the member bitmap that the staged writes name, with all that such
reads leave in the part (R293, R296, R297). -/
def Part.validReads (p : Part) (full : Bool) (l : List Staged) : Part :=
  let q := p.stagedRegs full l
  let maps := (p.mapsCopied q full).filter fun t => (q.tbl t).valid && (q.tbl t).mode == 3
  let p := p.each maps fun p t => (p.readMap (q.rd (TBL_TMAP 0 t))).2
  let role := q.getF TIK_CTRL 2 2
  if (full || stagedAny l (· == TIK_MEMBERS)) && (role == 1 || role == 2) then (p.load 13 0 (q.getF TIK_MEMBERS 0 40) 8192).2 else p

/-- Validation (R444) of staged writes: the first failure. -/
def Part.validate (p : Part) (full : Bool) (l : List Staged) : Option TxnErr :=
  let q := p.withStaged full l
  match p.gradeFault l with
  | some e => some e
  | none =>
    match (if full && !p.txn.applied then none else p.fixedChange q) with
    | some off => some ⟨7, 0xFFFF, off⟩
    | none =>
      (q.ruleFrames <|> bad ((full || stagedAny l (· == TIK_MEMBERS)) && q.membersBroken) TIK_MEMBERS <|> q.ruleUnits <|>
        l.findSome? q.imageLong <|> q.ruleObs).map fun off => ⟨8, 0xFFFF, off⟩

/-- The twin registers whose change repeats the pairing check (R387). -/
def Part.pairingChanges (p q : Part) : Bool :=
  q.getB TWN_CTRL 0 && (p.rd TWN_CTRL != q.rd TWN_CTRL || p.winBytes != q.winBytes)

/-- The pairing packets that wait, for tick `t` (0: a graft load), newest last. -/
def Part.pairPackets (p : Part) (t : Nat) : List Packet := p.fab.rx.filter fun q => q.cls == 5 && q.kind == 8 && q.ref == t % 2 ^ 20

/-- The mirror areas that the partner names are as R374 asks, in the region map of `c`, and every journalled region of it is mirrored. -/
def Part.areasOk (c : Part) (ws : List MirWin) : Bool :=
  ws.all (fun w => c.inRegion w.mirror (4096 * w.granules) [2, 5] [6, 4]) && c.journalMirrored ws

/-- The pairing check (R374) of what the twin sent against the registers of `c`.
DEDUCED (log 73, unsafe): The pairing digest covers the RWT registers TBL_T, OPT_ and COR_SEED as written; a pairing refusal is a short packet of kind 8. -/
def pairingOk (c : Part) (q : Packet) : Bool :=
  q.payload.length ≥ 288 && c.areasOk (readWins (q.payload.take 256)) && (q.payload.drop 256).take 32 == c.pairDigest

/-- Take up the partner's windows from the pairing packet of tick `t`, and drop the packets of that exchange. -/
def Part.takePairing (p : Part) (t : Nat) : Part :=
  match (p.pairPackets t).getLast? with
  | none => p
  | some q =>
    let p := p.each (p.pairPackets t) Part.takeRx
    if q.payload.length < 288 then p
    else p.modTwin fun x => { x with partner := readWins (q.payload.take 256), partnerSeen := true }

/-- Code images are written (R428, R445).
DEDUCED (log 94, unsafe): A code image starts nothing by itself; its bytes are in place when the tick that applies it has been applied, and the time their writing takes holds back the start of their cores alone. -/
def Part.putImage (p : Part) (x : Staged) : Part :=
  match x with
  | .reg _ _ _ => p
  | .image ss mask off bs => p.each (imageCores ss mask) fun p c => p.spadStore c off bs

/-- Write zeros over whole lines, beside the journal. -/
def Part.zeroLines (p : Part) (a n : Nat) : Part := p.each (List.range n) fun p i => p.putHbm (a + 64 * i) (List.replicate 64 0#8) none

/-- A table whose registers change (R244, R251): its cached rows go, and both bitmaps of a versioned one clear, in this part's storage
and in the twin's mirror of them.
DEDUCED (log 72, unsafe): Bitmaps of versioned tables and their mirrors are cleared beside the journal at a table change (R251). -/
def Part.tableChanged (p : Part) (full : Bool) (t : Nat) : Part :=
  let p := p.rcDropTable t
  let p := if full then p.each sectors fun p s => p.putF (TBL_TPEND s t) 63 1 0 else p
  let T := p.tbl t
  if !(T.valid && T.versioned) then p
  else
    let n := p.bitmapBits T / 512
    let p := p.zeroLines (p.bitmapAt T 0) (2 * n)
    if p.getB TWN_CTRL 0 && p.twin.partnerSeen then p.zeroLines (p.bitmapAt (p.mirTbl t) 0) (2 * n) else p

/-- The powers of a sector's program of the optimiser start at its β values (R274, R438). -/
def Part.startPowers (p : Part) (s n : Nat) : Part :=
  ((p.wr (OPT_PPOW1 s n) (p.rd (OPT_PBETA1 s n))).wr (OPT_PPOW2 s n) (p.rd (OPT_PBETA2 s n))).wr (OPT_PSTEP s n) 1

/-- Whether staged writes start the powers of a sector's program (R274, R438): they write a β of it, or a graft load on a part whose
TIK_COUNT is not zero changes one. -/
def Part.startsPowers (p q : Part) (full : Bool) (l : List Staged) (s n : Nat) : Bool :=
  let writes := stagedAny l fun a => a == OPT_PBETA1 s n || a == OPT_PBETA2 s n
  let differs := p.rd (OPT_PBETA1 s n) != q.rd (OPT_PBETA1 s n) || p.rd (OPT_PBETA2 s n) != q.rd (OPT_PBETA2 s n)
  if full then differs || (p.rd TIK_COUNT == 0 && writes) else writes

/-- Copy the member bitmap (R27): a poisoned line keeps the set whole. -/
def Part.copyMembers (p : Part) : Part :=
  let role := p.getF TIK_CTRL 2 2
  if role = 1 ∨ role = 2 then
    let (r, p) := p.readMembers
    match r with
    | some l => p.modTick fun t => { t with members := l }
    | none => (p.putB TIK_STICKY 6 true).err (mkErr 13 6 0)
  else p

/-- The signers, identifiers and measurement that the applied containers leave (R432, R452, R470). -/
def Part.takeGrafts (p : Part) (full : Bool) (gs : List GraftId) (unsigned : Bool) : Part :=
  let p := p.each gs fun p g =>
    let p := ((p.wr TIK_GRAFT_ID g.id).wr TIK_GRAFT_VER g.version).putF TIK_GRAFT_STATUS 4 2 g.slot
    p.modTxn fun t => { t with chain := sha256 ((if full then List.replicate 32 0 else t.chain) ++ g.digest) }
  let p := p.putB TIK_GRAFT_STATUS 3 p.mgt.signedOnly
  p.putB TIK_GRAFT_STATUS 2 (unsigned || (!full && p.getB TIK_GRAFT_STATUS 2))

/-- TIK_CTRL.enable = 0 holds the part at tick count 0 (R47): no frame is in progress and no token waits.
DEDUCED (log 136, unsafe): A transaction or graft that leaves TIK_CTRL.enable 0 returns TIK_COUNT to 0 and the part to the phase before the first tick. -/
def Part.holdAtZero (p : Part) : Part :=
  if p.getB TIK_CTRL 0 then p
  else
    let p := { p.wr TIK_COUNT 0 with cores := [] }
    ((p.putF TIK_STATUS 2 3 4).putB TIK_STATUS 0 false).modTick fun t => { t with token := none, edge := none, treeEdge := none }

/-- Staged writes take effect (R36, R436, R438, R445): the registers, the code images, and everything a change of a register brings with
it.
DEDUCED (log 46, unsafe): The season position returns to span 0 only when a transaction changes a TIK_SPAN register (R438). -/
def Part.applyStaged (p : Part) (full : Bool) (l : List Staged) (gs : List GraftId) (unsigned : Bool) : Part :=
  let old := p
  let p := (p.withStaged full l).each l Part.putImage
  let changed := old.tblChanged p
  let p := p.each changed fun p t => p.tableChanged full t
  let p := p.each sectors fun p s => p.each ((List.range 8).filter (old.startsPowers p full l s)) fun p n => p.startPowers s n
  let p := if full || stagedAny l (fun a => FAB_RT 0 0 ≤ a && a < FAB_RT 65536 0) then p.altClear else p
  let spans := (List.range 16).any fun n => old.rd (TIK_SPAN n) != p.rd (TIK_SPAN n)
  let p := if spans then p.wr TIK_SEASON_POS 0 else p
  let p := if full || old.getF TIK_CTRL 2 2 != p.getF TIK_CTRL 2 2 then p.putF TIK_STATUS 5 2 (p.getF TIK_CTRL 2 2) else p
  let p := if full || stagedAny l (· == TIK_MEMBERS) then p.copyMembers else p
  let p := p.each [0, 1, 2, 3, 4] fun p b => if p.getB (traceCfg b) 0 && !old.getB (traceCfg b) 0 then p.wr (traceHead b) 0 else p
  let p := if !p.getB TWN_CTRL 0 && old.getB TWN_CTRL 0 then p.putF TWN_STATUS 0 3 0 else p
  let p := (p.takeGrafts full gs unsigned).modTxn fun t => { t with applied := t.applied || full }
  ((p.bump TIK_STAT_TXN 1).wr TIK_TXN_APPLIED (p.rd TIK_FRAME_NO)).holdAtZero

/-- The staging area is empty and the transaction idle. -/
def Part.txnIdle (p : Part) : Part :=
  ((p.putF TIK_TXN_STATE 0 2 0).wr TIK_TXN_USED 0).modTxn fun t =>
    { t with staged := [], grafts := [], unsigned := false, used := 0, armedFor := 0, validating := none, tokenSeen := false }

/-- The cycle of the frame by which the images of each core are written (R445): a sector writes 2,048 bytes a cycle.
DEDUCED (log 94, unsafe): A sector writes an image for each of its cores in turn, in ascending order, and images in the order they were staged. -/
def imageTimes (l : List Staged) : Sparse Nat :=
  sectors.foldl (fun m s =>
    (l.foldl (fun (q : Nat × Sparse Nat) x =>
      match x with
      | .reg _ _ _ => q
      | .image ss mask _ bs =>
        ((imageCores ss mask).filter fun c => coreSector c == s).foldl
          (fun (q : Nat × Sparse Nat) c => (q.1 + bs.length, spPut q.2 c (ceilDiv (q.1 + bs.length) 2048))) q) (0, m)).2) []

/-- TXN_APPLY (R445): the transaction takes effect in the frame whose number TIK_FRAME_NO holds. -/
def Part.applyTxn (p : Part) : Part :=
  let x := p.txn
  let q := p.withStaged false x.staged
  let p := if p.pairingChanges q then (p.takePairing x.armedFor).putF TWN_STATUS 0 3 1 else p
  let p := p.modTick fun t => { t with codeAt := imageTimes x.staged }
  ((p.applyStaged false x.staged x.grafts x.unsigned).wr TIK_TXN_T (p.rd TIK_COUNT)).txnIdle

/-- The status of a failure (R449). -/
def TxnErr.status (e : TxnErr) : Nat := if e.code = 11 then 4 else if e.code = 12 then 1 else 6

/-- A failure is kept, counted and recorded (R449, R497). -/
def Part.txnFail (p : Part) (e : TxnErr) : Part :=
  let p := p.wr TIK_TXN_ERR e.word
  if e.code > 11 then p
  else
    let p := p.bump TIK_STAT_TXNFAIL 1
    if e.code = 10 then (p.putB TIK_STICKY 4 true).err (mkErr 13 4 0) else p.err (mkErr 13 (144 + e.code) 0)

/-- A command of chapter 14 fails. -/
def Part.txnRefuse (p : Part) (q : Nat) (c : HostCmd) (e : TxnErr) : Part := (p.txnFail e).endCmd q c e.status e.word

/-- TIK_TXN_STATE.state. -/
def Part.txnState (p : Part) : Nat := p.getF TIK_TXN_STATE 0 2

/-- Stage writes in the open transaction (R440, R441). -/
def Part.stage (p : Part) (l : List Staged) (bytes : Nat) : Part :=
  let used := p.txn.used + bytes
  (p.wr TIK_TXN_USED used).modTxn fun t => { t with staged := t.staged ++ l, used := used }

/-- The staging area (R441). -/
def stagingBytes : Nat := 16 * 2 ^ 20

/-- The running command of an opcode, with its queue. -/
def Part.runningOp (p : Part) (op : Nat) : Option (Nat × HostCmd) :=
  (List.range 8).findSome? fun q => ((p.cq q).cmds.find? fun c => c.running && c.op == op).map fun c => (q, c)

/-- Validation that has not ended when the token of its tick arrives is abandoned (R443). -/
def Part.abandonValidation (p : Part) (e : TxnErr) (status : Nat) : Part :=
  let p := (p.putF TIK_TXN_STATE 0 2 1).modTxn fun t => { t with validating := none }
  match p.runningOp 0x13 with
  | none => p
  | some (q, c) => (p.txnFail e).endCmd q c status e.word

end Sys2Proof.Machine
end

