-- ==== Sys2Proof/Machine/FrameEnd.lean ====
section
/-!
DEFINITION. What a tick does to the part (chapter 01): the frame that ends is closed, its outstanding work discarded, the
journal discarded or unwound, and the next frame begun.
-/
namespace Sys2Proof.Machine

/-- Keep the registers whose offset does not satisfy `f`; the others return to their reset value. -/
def Part.dropRegs (p : Part) (f : Nat → Bool) : Part := { p with regs := spClear p.regs f }

/-- The entry of the pair table that counts a pair (R507). -/
def Part.pairEntry (p : Part) (pair : Nat) : Nat :=
  if pair = 0 then 0
  else (((List.range 1022).find? fun i => p.rd (OBS_PAIR_ID (i + 1)) == pair).map (· + 1)).getD 1023

/-- Add to the two 32-bit halves of a register, each modulo 2^32 (R508). -/
def Part.addHalves (p : Part) (off hi lo : Nat) : Part :=
  p.wr off (((p.getF off 32 32 + hi) % 2 ^ 32) <<< 32 + (p.getF off 0 32 + lo) % 2 ^ 32)

/-- Add what an attempt counted for a pair to its entry (R508). -/
def Part.addEntry (p : Part) (i : Nat) (a : PairAcc) : Part :=
  let p := if a.poisoned then p.putB (OBS_PAIR_FLAGS i) 31 true else p
  let p := if a.mismatch then p.putB (OBS_PAIR_FLAGS i) 30 true else p
  let p := ((p.bump (OBS_PAIR_MAC i) a.mac).bump (OBS_PAIR_VEC i) a.vec).bump (OBS_PAIR_HBM i) a.hbm
  (p.bump (OBS_PAIR_FAB i) a.fab).addHalves (OBS_PAIR_PCONS_DMIS i) a.pcons a.dmis

/-- Add the outlook counters of one entry of a core to the pair table (R162, R508). -/
def Part.addOutlook (p : Part) (c e : Nat) : Part :=
  let i := p.pairEntry (p.rd (COR_OLK_ID c e))
  let p := p.addHalves (OBS_PAIR_SEL_EST i) (p.rd (COR_OLK_SEL c e)) (p.rd (COR_OLK_EST c e))
  let p := p.addHalves (OBS_PAIR_SIG_AUDSIG i) (p.rd (COR_OLK_SIG c e)) (p.rd (COR_OLK_AUD_SIG c e))
  let p := p.addHalves (OBS_PAIR_AUD_MISS i) (p.rd (COR_OLK_AUD c e)) (p.rd (COR_OLK_MTR_MISS c e))
  p.bump (OBS_PAIR_MTR_N i) (p.rd (COR_OLK_MTR_N c e))

/-- A register of a core that counts the current frame (R66, R77, R87, R162): overflow and event bits, the fault, and the outlook
counters. -/
def coreFrameReg (o : Nat) : Bool :=
  let r := o % 0x400
  r == COR_EV_FRAME_OVF 0 - 0x2000000 || r == COR_FMT_FRAME 0 - 0x2000000 || r == COR_FAULT 0 - 0x2000000 ||
    (0x200 ≤ r && 0xC ≤ r % 0x40)

/-- The cores of which the outlook registers count something. -/
def Part.outlookCores (p : Part) : List Nat := p.regCores.filter fun c => (List.range 8).any fun e => p.getB (COR_OLK_CTRL c e) 16

/-- PAIR_TABLE_UPDATE (R508): the attempt that ended is added into the pair table. -/
def Part.pairTable (p : Part) : Part :=
  let p := p.dropRegs fun a => OBS_PAIR_FLAGS 0 ≤ a && a < OBS_PAIR_FLAGS 1024 && (a - OBS_PAIR_FLAGS 0) % 128 == 0
  let p := p.each p.obs.pairs fun p e => p.addEntry (p.pairEntry e.1) e.2
  let p := p.each p.outlookCores fun p c => p.each (List.range 8) fun p e => p.addOutlook c e
  p.modObs fun o => { o with pairs := [] }

/-- ERROR_RING_HOST_WRITE (R500): the records of the frame that ended go into the host ring, and the merging of records starts
again (R495). -/
def Part.errorRing (p : Part) : Part :=
  let new := (p.obs.recs.filter fun e => e.seq > p.obs.first).reverse
  let n := 2 ^ p.getF OBS_ERR_HOST 0 5
  let p :=
    if p.getB OBS_ERR_HOST 5 && p.hostBus then
      p.each new fun p e => p.hostPut (p.getF OBS_ERR_HOST 12 52 * 4096 + 128 * (e.seq % n)) e.bytes false
    else p
  p.modObs fun o => { o with first := p.rd OBS_ERR_SEQ, distinct := 0 }

/-- The FRAME_ERR registers of the status record's summary (R409), block by block, of sector `s`. -/
def sectorFrameErrs (s : Nat) : List Nat :=
  [SCH_FRAME_ERR s, SMP_FRAME_ERR s, GSE_FRAME_ERR s, TBL_FRAME_ERR s, PRS_FRAME_ERR s, OPT_FRAME_ERR s, MEM_FRAME_ERR s, RCK_FRAME_ERR s]
/-- The FRAME_ERR registers of the hub in the summary's order. -/
def hubFrameErrs : List Nat := [FAB_FRAME_ERR, RED_FRAME_ERR, TWN_FRAME_ERR, HIF_FRAME_ERR]

/-- The summary bits of the status record (R409). -/
def Part.summaryBits (p : Part) : Nat :=
  let sec := (List.range 8).map fun i => b2n (sectors.any fun s => p.rd (nth (sectorFrameErrs s) i 0) != 0) * 2 ^ i
  let hub := (List.range 4).map fun i => b2n (p.rd (nth hubFrameErrs i 0) != 0) * 2 ^ (8 + i)
  (sec ++ hub).foldl (· + ·) 0

/-- The registers that clear at each tick. -/
def Part.clearFrameRegs (p : Part) : Part :=
  let l := (sectors.flatMap fun s =>
    sectorFrameErrs s ++ [TBL_FMT_FRAME s, PRS_FMT_FRAME s, OPT_FMT_FRAME s, MEM_JOURNAL_USE s]) ++ hubFrameErrs ++
      [RED_FMT_FRAME, OBS_FRAME_ERR, PWR_FRAME_ERR, TIK_HERD_STATE]
  p.dropRegs fun a => l.contains a || (0x2000000 ≤ a && (a - 0x2000000) % 0x800000 < 0x200000 && coreFrameReg (a - 0x2000000))

/-- The phase in force at a cycle of the frame that ends (R24). -/
def Part.phaseAt (p : Part) (t : Nat) : Nat :=
  let k := p.kind
  let late (off : Nat) (d : Option Nat) : Bool := t > off && (match d with
    | some x => t > x
    | none => false)
  if t > p.rd (TIK_OFFS_G k) then 3
  else if late (p.rd (TIK_OFFS_D k)) p.tick.done1 then 2
  else if late (p.rd (TIK_OFFS_C k)) p.tick.done0 then 1
  else 0

/-- TELEMETRY_LATCH (R9, R473): the controller latches energy and completion of the phases of the frame that ends.
DEDUCED (log 51, unsafe): The guard power of R476 is kept in whole milliwatts, energies in nanojoules.
DESIGN CHOICE (log 155, unsafe): MGT_TEL_T of a phase whose work did not complete in the frame is 0. -/
def Part.telemetryLatch (p : Part) : Part :=
  if !p.inFrame || !p.mgt.ready || p.mgt.stopped then p
  else
    let e (i : Nat) : Nat := ((p.mgt.energy.filter fun x => p.phaseAt (x.1 - p.tick.frameStart) == i).map (·.2)).foldl (· + ·) 0
    let len := p.frameCycle
    let guard := len - p.rd (TIK_OFFS_G p.kind)
    let ts := [p.tick.done0.getD 0, p.tick.done1.getD 0, p.tick.done2.getD 0, len]
    let es := [0, 1, 2, 3].map e
    let p := p.wr MGT_TEL_TICK p.tickCount
    let p := p.each [0, 1, 2, 3] fun p i => (p.wr (MGT_TEL_E i) (nth es i 0 / 1000)).wr (MGT_TEL_T i) (nth ts i 0 % 2 ^ 32)
    let p := p.putF MGT_TEL_PIN 16 16 p.mgt.peak
    p.modMgt fun m => { m with energy := [], peak := 0, guardMw := if guard = 0 then none else some (nth es 3 0 * 1000 / guard) }

/-- Counts left in the counters of the cores (R69). -/
def Part.evLeft (p : Part) : Part :=
  p.each p.cores fun p e =>
    let n := (e.2.ev.map (·.2)).foldl (· + ·) 0
    if n = 0 then p else p.bump (COR_STAT_EVLEFT e.1) n

/-- Descriptors and completions of the frame that are discarded count (R185): those in queues, on their way and held. -/
def Part.schLeft (p : Part) (s : Nat) : Part :=
  let h := p.sch s
  p.bump (SCH_STAT_LEFT s)
    ((h.queues.map fun q => q.2.held).foldl (· + ·) 0 + h.held.length + h.subs.length + h.inbound.length)

/-- The counters as SCH_DC_INIT loads them for the frame's kind (R171). -/
def Part.dcLoad (p : Part) (s : Nat) : Sparse Nat :=
  let lo := SCH_DC_INIT s p.kind 0
  (p.listed lo (lo + 4 * 8192)).foldl
    (fun m a => spSet 0 (spSet 0 m ((a - lo) / 2) (p.getF a 0 16)) ((a - lo) / 2 + 1) (p.getF a 16 16)) []

/-- SCH_FRAME_RESET (R184): queues, counters, tickets, flows and the release buffer of a new frame. -/
def Part.schReset (p : Part) (s : Nat) : Part :=
  p.modSch s fun h => { Sched.reset with dc := p.dcLoad s, delay := h.delay, delaySaved := h.delaySaved }

/-- Discard the outstanding work of the frame (R28, R64, R69, R72, R185): cores, scheduler, request units, press, optimiser, racking,
reduction, herd lines and signals. The row cache stays. -/
def Part.discardWork (p : Part) : Part :=
  let p := (p.evLeft.each sectors Part.schLeft).each sectors Part.schReset
  let p := p.each sectors fun p s =>
    p.modUnit s fun u => { u with smpQ := [], gatQ := [], scaQ := [], lkpQ := [], running := [], ahead := [] }
  let p := { p with cores := [], press := [], optim := [], rack := [], buckets := [] }
  p.modTick fun t => { t with arrived := [], signals := [], markerSent := false, markersFrom := [], coresStarted := false }

/-- SCRATCHPAD_CLEAR (R51): private and inbound partitions of every core with a role in the frame.
DEDUCED (log 45, unsafe): At a tick the scratchpads of cores with a role are cleared, and no others (R51). -/
def Part.clearSpads (p : Part) : Part :=
  let rs := p.roleCores
  let gone (a : Nat) : Bool := isWindow a && rs.contains (windowCore a) && p.codeEnd (windowCore a) ≤ windowOff a
  { p with mem := { p.mem with bytes := spClear p.mem.bytes gone, granules := spClear p.mem.granules gone } }

/-- The new frame's work begins (R51, R53): scratchpads clear, and every core with a role waits for cycle 128. -/
def Part.beginWork (p : Part) : Part :=
  let p := p.discardWork.clearSpads
  p.each p.roleCores fun p c => p.modCore c fun k => { k with st := .clearing }

/-- JOURNAL_UNWIND (R306): the entries of a sector are restored, newest first.
DEDUCED (log 44, unsafe): The journal of a replay is applied at TICK_APPLY; the part is unwinding until JOURNAL_UNWIND_DONE. -/
def Part.unwindSector (p : Part) (s : Nat) : Part :=
  p.each (p.ctl s).journal fun p e =>
    p.putHbm e.addr e.old (if e.poison then some (leNat (e.old.take 32)) else none)

/-- The journal and the counts of the controllers are empty at the start of a frame (R29, R296, R306). -/
def Part.ctlTick (p : Part) (s : Nat) : Part :=
  p.modCtl s fun c => { c with journal := [], filter0 := [], filter1 := [], ce0 := 0, ce1 := 0, ceRec0 := false, ceRec1 := false }

/-- SEASON_ADVANCE (R37). -/
def Part.seasonAdvance (p : Part) : Part :=
  let n := p.getF TIK_SEASON_POS 16 4
  let pos := p.getF TIK_SEASON_POS 0 16
  if pos + 1 < p.getF (TIK_SPAN n) 0 16 then p.wr TIK_SEASON_POS ((n <<< 16) + pos + 1)
  else p.wr TIK_SEASON_POS (if n + 1 < 16 ∧ p.getF (TIK_SPAN (n + 1)) 0 16 ≠ 0 then (n + 1) <<< 16 else 0)

/-- VINTAGE_SWITCH and BITMAP_ROLE_SWAP (R39, R248). -/
def Part.vintageSwitch (p : Part) : Part :=
  let p := p.bump32 TIK_VINTAGE 1
  let ts := (List.range 256).filter fun t => (p.tbl t).valid && (p.tbl t).versioned
  p.each ts fun p t => p.each sectors fun p s => p.putF (TBL_TPEND s t) 63 1 (1 - p.getF (TBL_TPEND s t) 63 1)

/-- OPT_POWER_UPDATE (R274): the powers of the programs whose β have been written advance at the end of a learning frame. -/
def Part.optPowers (p : Part) : Part :=
  p.each sectors fun p s =>
    let keep := p.getB (OPT_CTRL s) 1
    p.each ((List.range 8).filter fun n => p.rd (OPT_PSTEP s n) != 0) fun p n =>
      let p := p.wr (OPT_PPOW1 s n) (mulB32 keep (p.rd (OPT_PPOW1 s n)) (p.rd (OPT_PBETA1 s n))).1
      let p := p.wr (OPT_PPOW2 s n) (mulB32 keep (p.rd (OPT_PPOW2 s n)) (p.rd (OPT_PBETA2 s n))).1
      p.bump (OPT_PSTEP s n) 1

/-- SCH_TIME_ADVANCE (R181), and the delay lists of a committed frame (R183): without carry, what was not released is discarded. -/
def Part.schCommit (p : Part) (ends : Bool) (s : Nat) : Part :=
  let p := if ends then p.bump (SCH_ST_BASE s) (10 * p.tick.frameLen / 1000) else p
  let l := (p.sch s).delay
  let keep := p.getB (SCH_CTRL s) 1
  let p := if keep then p else p.bump (SCH_STAT_LEFT s) l.length
  let p := p.modSch s fun h => { h with delay := if keep then l else [], delaySaved := if keep then l else [] }
  p.wr (SCH_DELAY_USE s) (p.sch s).delay.length

/-- A replay returns every delay list to what the last committed frame left (R183). -/
def Part.schReplay (p : Part) (s : Nat) : Part :=
  let p := p.modSch s fun h => { h with delay := h.delaySaved }
  p.wr (SCH_DELAY_USE s) (p.sch s).delay.length

/-- A late block that has stood for its time is dropped (R415). -/
def Part.lateDrop (p : Part) (c : Nat) (b : HeldBlock) : Part :=
  (p.bump HIF_STAT_LATE 1).noteErr HIF_STICKY 5 { mkErr 11 5 0 with loc0 := c, loc1 := b.index, addr := p.gaddr (p.slotAt c b.slot) }

/-- The inbox of a channel at the commit of frame `f` (R31, R415): delivered blocks free their slots, blocks that were not are late, and
late ones that have stood for late_frames further frames are dropped. -/
def Part.inboxCommit (p : Part) (f c : Nat) : Part :=
  let step (b : HeldBlock) : HeldBlock := if b.late then { b with left := b.left - 1 } else b
  let l := ((p.heldBlocks c).filter fun b => !(b.frame == f && b.delivered)).map step
  let gone := l.filter fun b => b.late && b.left == 0
  let l := (l.filter fun b => !(b.late && b.left == 0)).map fun b => if b.frame ≤ f then { b with late := true } else b
  (p.setBlocks c l).each gone fun p b => p.lateDrop c b

/-- Blocks delivered in an attempt that failed are to be delivered again (R413). -/
def Part.inboxReplay (p : Part) (c : Nat) : Part :=
  p.setBlocks c ((p.heldBlocks c).map fun b => { b with delivered := false })

/-- OUTBOX_PUBLISH at a commit (R417): the program's write index becomes the host's.
DESIGN CHOICE (log 153, unsafe): A poisoned write index is not published: HIF_OUT_IDX keeps its value. -/
def Part.outboxCommit (p : Part) (o : Nat) : Part :=
  if !p.getB (HIF_OUT_CFG o) 40 then p
  else
    let ((v, t), p) := p.loadN 10 0 (p.getF (HIF_OUT_CFG o) 0 40) 4
    if t.isSome then p else p.wr (HIF_OUT_IDX o) v

/-- OUTBOX_PUBLISH at every tick (R417): the host's read index goes into the pair. -/
def Part.outboxAck (p : Part) (o : Nat) : Part :=
  if p.getB (HIF_OUT_CFG o) 40 then p.store 10 0 (p.getF (HIF_OUT_CFG o) 0 40 + 8) (leBytes 4 (p.rd (HIF_OUT_ACK o))) none else p

/-- The twin unit at a tick (R376): sequences start again, and a replay keeps only the lines that stood before the frame. -/
def Part.twinTick (p : Part) (replay : Bool) : Part :=
  p.modTwin fun t =>
    let out := if replay then t.carry else t.out
    { t with out := out, carry := out, seq := 0, recs := 0, bytes := 0, endSent := false, ack := 0, rxNext := 0, rxRecs := 0, rxBytes := 0 }

/-- Samples whose group has not drained by the tick are abandoned (R489). -/
def Part.dupTick (p : Part) : Part :=
  p.each sectors fun p s =>
    let l := p.dups s
    (p.setDups s (l.filter fun d => d.stage != 0)).bump OBS_STAT_DUPSKIP (l.filter fun d => d.stage == 0).length

/-- What the frame that ends hands over before anything of it goes (R9, R409, R473, R500, R508, R549). -/
def Part.closeFrame (p : Part) : Part :=
  let p := p.telemetryLatch.pairTable.errorRing.dupTick
  let sum := p.summaryBits
  let p := p.modHif fun h =>
    { h with summary := sum, statusDue := p.getB HIF_CTRL 1, deniedRead := false, deniedWrite := false }
  let p := p.wr PWR_VIN_MIN (p.getF PWR_VIN 0 16)
  ((p.modObs fun o => { o with poisonJobs := [] }).clearFrameRegs).modTick fun t => { t with codeAt := [] }

/-- The verdict commit (R29, R37, R39, R181, R274, R415, R417); `ends` is false at the first tick (R22). -/
def Part.commitTick (p : Part) (ends : Bool) : Part :=
  let f := p.frameNo
  let learning := ends && p.kind == 2
  let switches := ends && p.spanEnding
  let p := (p.bump TIK_STAT_COMMIT 1).putF TIK_STATUS 12 4 0
  let p := p.each sectors (fun p s => p.schCommit ends s)
  let p := if learning then p.optPowers else p
  let p :=
    if ends then
      let p := (p.wr TIK_FRAME_NO (f + 1)).each (List.range 16) (fun p c => p.inboxCommit f c)
      let p := p.modHif fun h => { h with accepted := h.accepted.filter fun a => a.frame > f }
      let p := if switches then p.vintageSwitch else p
      p.seasonAdvance
    else p
  p.each (List.range 8) Part.outboxCommit

/-- The verdict replay (R29, R32, R183, R306, R348, R413). -/
def Part.replayTick (p : Part) : Part :=
  let p := p.bump TIK_STAT_FAIL 1
  let p := p.putF TIK_STATUS 12 4 (min 15 (p.getF TIK_STATUS 12 4 + 1))
  let p := (p.each sectors Part.unwindSector).each sectors Part.schReplay
  let p := p.altSwitch.each (List.range 16) Part.inboxReplay
  p.modTick fun t => { t with unwinding := true }

/-- TIK_STATUS and the unit's own state as the frame a token announced begins (R42, R44, R47).
DEDUCED (log 35, unsafe): supply_mark clears at the tick of a held token, and PWR_STAT_MARK counts there (R45, R527). -/
def Part.tickStatus (p : Part) (t : TokenMsg) : Part :=
  let marked := p.getB TIK_STATUS 10 && t.held
  let p := if marked then (p.putB TIK_STATUS 10 false).bump PWR_STAT_MARK 1 else p
  let p := ((p.putF TIK_STATUS 0 1 (b2n !t.halt)).putB TIK_STATUS 1 false).putF TIK_STATUS 2 3 0
  let p := (p.putB TIK_STATUS 7 t.replay).putB TIK_STATUS 8 (t.stretch != 0)
  let p := if t.halt then p.putB TIK_STATUS 11 true else p.putB TIK_STATUS 11 p.obs.frozen
  let p := (p.wr TIK_STRETCH t.stretch).bump TIK_STAT_STRETCH (b2n (t.stretch != 0))
  p.modTick fun k =>
    { k with token := none, edge := none, treeEdge := none, frameStart := p.cycle, frameLen := t.len, frameStretch := t.stretch,
             done0 := none, done1 := none, done2 := none, overrun := false, cause := 0, causes := [], sent := 0, guardDone := false,
             countErr := false }

/-- MGT_PLIM.effective (R474). -/
def Part.effectiveLimit (p : Part) : Nat :=
  if 1 ≤ p.mgt.hostW ∧ p.mgt.hostW ≤ 899 then min p.mgt.ownerW p.mgt.hostW else p.mgt.ownerW

/-- The loader sees the keys and the policy that were set last (R430, R472). -/
def Part.loaderSees (p : Part) : Part :=
  let p := p.modMgt fun m => { m with keys := m.nextKeys, signedOnly := m.nextSigned, pol := m.polNext }
  p.putB TIK_GRAFT_STATUS 3 p.mgt.signedOnly

/-- At a tick the host limit reaches the management plane, and keys and policy the loader (R9, R472, R482). -/
def Part.hostLimit (p : Part) : Part :=
  let p := (p.modMgt fun m => { m with hostW := p.getF MGT_PLIM_HOST 0 10 }).loaderSees
  p.putF MGT_PLIM 16 16 p.effectiveLimit

/-- The part applies a tick (R18, R21, R22): one frame ends, with the verdict of the token, and the next begins. -/
def Part.applyTick (p : Part) (t : TokenMsg) : Part :=
  let ends := p.inFrame
  let wrong := p.tick.countErr
  let p := p.closeFrame
  let p := if t.replay then p.replayTick else p.commitTick ends
  let p := (p.each sectors Part.ctlTick).twinTick t.replay
  let p := p.wr TIK_COUNT t.count
  let p := if !t.replay && p.txnState == 3 && p.txn.armedFor ≤ t.count then p.applyTxn else p
  let p := (p.fabTick.tickStatus t).hostLimit
  let p := if p.obs.frozen then p.modObs fun o => { o with clearPending := true } else p.beginWork
  let p := p.each (List.range 8) Part.outboxAck
  let p := (p.trace 4 1 0 0xFFFF p.tickCount p.frameNo).trace 4 2 0 0xFFFF 0 0
  let p := if wrong then p.failCause 7 else p
  p.quiesceDone.holdAtZero

end Sys2Proof.Machine
end

