-- ==== Sys2Proof/Machine/TickOps.lean ====
section
/-!
DEFINITION. What the steps of the tick and barrier unit share (chapter 01): the verdict, the token, its receipt, and holds.
-/
namespace Sys2Proof.Machine

/-- A hold begins to show at this part (R44): TIK_STATUS.hold_active and supply_mark. -/
def Part.showHold (p : Part) : Part :=
  let p := if p.getB TIK_STATUS 9 || p.role ≠ 0 then p else p.modTick fun t => { t with holdSince := p.cycle }
  (p.putB TIK_STATUS 9 true).putB TIK_STATUS 10 true

/-- hold_active clears (R44); a part that keeps no holds itself counts the cycles it was set (R47). -/
def Part.endShow (p : Part) : Part :=
  if p.getB TIK_STATUS 9 then
    (if p.role = 0 then p.bump TIK_STAT_HOLD (p.cycle - p.tick.holdSince) else p).putB TIK_STATUS 9 false
  else p

/-- The tick master and the standby keep other holds than before; the last one gone, the cycles of the hold are counted (R44, R47), and
are no part of the time without a token (R35).
DEDUCED (log 39, unsafe): TIK_STAT_HOLD on the tick master and standby counts from the receipt of the first hold to the last release; on a member, the cycles hold_active was set. -/
def Part.setHolds (p : Part) (l : List Hold) : Part :=
  let p :=
    if p.tick.holds.isEmpty && !l.isEmpty then p.modTick fun t => { t with holdSince := p.cycle, heldFrame := true }
    else if !p.tick.holds.isEmpty && l.isEmpty then
      (p.bump TIK_STAT_HOLD (p.cycle - p.tick.holdSince)).modTick fun t =>
        { t with tokenSeenAt := t.tokenSeenAt + (p.cycle - max t.holdSince t.tokenSeenAt) }
    else p
  p.modTick fun t => { t with holds := l }

/-- The part sends a hold of a source (R44): 0 supply, 1 thermal, 2 full test. -/
def Part.holdSend (p : Part) (source : Nat) : Part := (p.toMasters 6 source []).showHold

/-- The part releases its hold of a source (R44). -/
def Part.releaseSend (p : Part) (source : Nat) : Part := p.toMasters 7 source []

/-- TIK_FRAME_LEN as it will stand after a commit tick of the count given (R17). -/
def Part.nextLen (p : Part) (count : Nat) (replay : Bool) : Nat :=
  if !replay && p.txnState == 3 && p.txn.armedFor ≤ count then (p.withStaged false p.txn.staged).rd TIK_FRAME_LEN else p.rd TIK_FRAME_LEN

/-- The member's status of the frame is a pass (R26). -/
def Part.passed (p : Part) (m : Nat) : Bool := p.tick.statuses.any fun x => x.chip == m && x.pass

/-- No status of a part is held. -/
def Part.silent (p : Part) (m : Nat) : Bool := !p.tick.statuses.any fun x => x.chip == m

/-- TIK_FAIL_CAUSE on the tick master and the standby as the token is sent (R47): the lowest-numbered member whose status was fail or
missing. The tick master records a missing status as cause 6. -/
def Part.frameCause (p : Part) : Part :=
  match (sortBy (· ≤ ·) p.tick.members).find? fun m => !p.passed m with
  | none => p
  | some m =>
    let cause := match p.tick.statuses.find? fun x => x.chip == m with
      | some x => x.cause
      | none => 6
    let p := p.wr TIK_FAIL_CAUSE ((m <<< 8) + cause)
    if p.role = 1 && p.tick.members.any p.silent then p.err (mkErr 13 70 2) else p

/-- Count the replays in a row at which each member was silent (R380). -/
def Part.countSilent (p : Part) (replay : Bool) : Part :=
  let one (m : Sparse Nat) (x : Nat) : Sparse Nat := if replay && p.silent x then spSet 0 m x (spGet 0 m x + 1) else spSet 0 m x 0
  p.modTick fun t => { t with missing := t.members.foldl one t.missing }

/-- The members that are declared lost (R380). -/
def Part.lostMembers (p : Part) : List Nat :=
  let k := p.getF TWN_LOSS 0 4
  p.tick.members.filter fun m => spGet 0 p.tick.missing m ≥ k && k != 0

/-- Every part of the topology (R327). -/
def Part.topoParts (p : Part) : List Nat :=
  (List.range 65536).filter fun c => (List.range 4).all fun i => fld c (4 * i) 4 ≤ fld p.fab.topoInForce (4 * i) 4

/-- Send the loss declaration of a part to every part of FAB_TOPO (R380). -/
def Part.declareLoss (p : Part) (x : Nat) : Part :=
  p.each p.topoParts fun p d => p.sendPacket d 3 10 0 0 (pad32 (leBytes 2 x))

/-- A transaction meets the token of its tick (R443, R447): validation still running is abandoned, an armed one is on its way. -/
def Part.tokenMeetsTxn (p : Part) (t : TokenMsg) : Part :=
  let p :=
    match p.txn.validating with
    | some (_, T) => if T ≤ t.count then p.abandonValidation (.of 11) 4 else p
    | none => p
  if p.txnState = 3 ∧ p.txn.armedFor ≤ t.count ∧ !t.replay then p.modTxn fun x => { x with tokenSeen := true } else p

/-- The held bit of a token (R44): hold_active clears, and a part that has not seen the notice sets supply_mark. -/
def Part.tokenHeld (p : Part) (t : TokenMsg) : Part := if t.held then p.endShow.putB TIK_STATUS 10 true else p

/-- The cycle at which a tick falls by its token (R18 to R20), for a token received at cycle `at'`: in token mode with the compensation, in
tree mode the token-scheduled edge. -/
def Part.tokenDue (p : Part) (at' : Nat) : Nat :=
  if p.getB TIK_CTRL 1 then at' + p.rd TIK_DELAY_COMP else at' + p.rd TIK_LEAD - p.rd TIK_TOKEN_LAT

/-- The standby keeps what the tick master keeps, up to the token (R35, R47). -/
def Part.standbySees (p : Part) (t : TokenMsg) (at' : Nat) : Part :=
  if p.role ≠ 2 then p
  else
    let p := (if t.replay then p.frameCause else p).countSilent t.replay
    p.modTick fun k =>
      { k with statuses := [], stretch := 0, tokenSent := t.count, issued := t.count, tokenSeenAt := at',
               runs := if t.replay then k.runs + 1 else 0, heldFrame := !k.holds.isEmpty }

/-- The distance of two cycles. -/
def cycleGap (a b : Nat) : Nat := (a - b) + (b - a)

/-- Count an ignored TICK_IN edge (R20, R47). -/
def Part.strayEdge (p : Part) : Part := p.putF TIK_STATUS 24 8 (min 255 (p.getF TIK_STATUS 24 8 + 1))

/-- An edge held for longer than TIK_LEAD when a token arrives has been discarded (R20). -/
def Part.expireEdge (p : Part) (at' : Nat) : Part :=
  match p.tick.edge with
  | some e => if e + p.rd TIK_LEAD < at' then (p.modTick fun t => { t with edge := none }).strayEdge else p
  | none => p

/-- A held tree edge and the token's schedule differ by more than 4 cycles (R20). -/
def Part.heldSkew (p : Part) (due : Nat) : Part :=
  match p.tick.edge with
  | some e => if cycleGap (e + p.rd TIK_DELAY_COMP) due > 4 then p.putB TIK_STICKY 1 true else p
  | none => p

/-- A part that takes part in ticks receives a token at cycle `at'` (R18, R20, R21, R44). -/
def Part.receiveToken (p : Part) (t : TokenMsg) (at' : Nat) : Part :=
  if p.tick.token.isSome || !p.getB TIK_CTRL 0 then p
  else
    let p := ((p.expireEdge at').standbySees t at').tokenHeld t |>.tokenMeetsTxn t
    let wrong : Bool := t.count != p.tickCount + 1
    let p := if wrong then p.putB TIK_STICKY 3 true else p
    let p := (p.heldSkew (p.tokenDue at')).modTick fun k => { k with token := some ⟨t, p.tokenDue at'⟩, countErr := wrong }
    if p.tick.edge.isSome then ((p.clockTo at').putB TIK_STICKY 2 true).applyTick t else p

/-- The end of the frame in progress by its token. -/
def Part.frameEnd (p : Part) : Nat := if p.inFrame then p.tick.frameStart + 10 * (p.tick.frameLen + p.tick.frameStretch) else 0

/-- The token of the next tick (R17, R26, R33, R42, R380), and what sending it leaves.
DEDUCED (log 36, unsafe): The tick master receives its own token 40 cycles after it sends it; in tree mode a token's tick is due at receipt + TIK_LEAD − TIK_TOKEN_LAT. -/
def Part.sendToken (p : Part) : Part :=
  let count := p.tickCount + 1
  let first : Bool := p.tickCount == 0 && !p.inFrame
  let replay : Bool := !first && (p.tick.resumeReplay || !p.tick.members.all p.passed)
  let p := (if replay then p.frameCause else p).countSilent (replay && !first)
  let lost := p.lostMembers
  let runs := if replay then p.tick.runs + 1 else 0
  let halt : Bool := (replay && runs ≥ p.getF TIK_REPLAY 0 8) || !lost.isEmpty || (!replay && p.tick.quiesced)
  let len := p.nextLen count replay
  let stretch := min p.tick.stretch (10 ^ 8 - len)
  let t : TokenMsg := ⟨count, replay, p.tick.heldFrame, len, stretch, p.chip, halt⟩
  let p := (p.each lost Part.declareLoss).flood none 0 (.token t)
  let p := p.modTick fun k =>
    { k with statuses := [], stretch := 0, heldFrame := false, holdNoticed := false, tokenSent := count, tokenSentAt := p.cycle,
             runs := runs, resumeReplay := false, stopAfter := halt }
  p.receiveToken t (p.cycle + 40)

end Sys2Proof.Machine
end

