-- ==== Sys2Proof/Machine/PowerOps.lean ====
section
/-!
DEFINITION. What the steps of power, reset and clocks share (chapter 17): the stop state, the clock, the part reset and the latches of its
cause, and the supply and thermal holds.
-/
namespace Sys2Proof.Machine

/-- The part has power: its rails came up at POWER_UP and have not been lost since. -/
def Part.pgood (p : Part) : Bool := p.power.up

/-- Power good (R525) after the rails `seen` were sampled: lost with one of them outside 5 % of its nominal value, back with all rails
inside. -/
def Part.seeRails (p : Part) (seen : List Nat) : Part :=
  if seen.any fun r => r < 17 && !p.getB (PWR_RAIL r) 0 then p.putB PWR_STATUS 5 false
  else if (List.range 17).all fun r => p.getB (PWR_RAIL r) 0 then p.putB PWR_STATUS 5 true
  else p

/-- CCLK stops or runs, and the stacks enter or leave self-refresh (R318, R540). -/
def Part.setClock (p : Part) (run : Bool) : Part :=
  (p.putB PWR_STATUS 4 run).each sectors fun p s => p.putB (MEM_STATUS s) 1 (!run)

/-- Enter the stop state (R531). -/
def Part.enterStop (p : Part) : Part := (p.putB PWR_STATUS 7 true).setClock false

/-- PWR_CTRL.cclk_stop is written 1 (R540): ignored and counted while ticks are running. -/
def Part.cclkStop (p : Part) : Part :=
  if p.running then p.bump HIF_STAT_ACCERR 1 else (p.putB PWR_CTRL 0 true).setClock false

/-- PWR_CTRL.cclk_stop is written 0 (R540): CCLK runs again where HBM has been trained and the part is not stopped. -/
def Part.cclkRestart (p : Part) : Part :=
  let p := p.putB PWR_CTRL 0 false
  if p.power.hbmTrained && !p.getB PWR_STATUS 7 then p.setClock true else p

/-- A part reset (R16, R533): everything of the part returns to its reset value. Host memory, the levels on the input pins and the TAP are
not the part's to reset, and power stays good where the rails stay up.
DEDUCED (log 71, unsafe): Packets that a stop or a part reset leaves in flight toward other parts are lost with the part.
DEDUCED (log 112, unsafe): A reset by a pin keeps the rails and sets PWR_STATUS.pgood, PWR_RAIL reads 0 until the next sample; PWR_GPIO.strap returns to 0, as R16 says of every field.
DEDUCED (log 115, unsafe): The TAP keeps its state through a part reset that keeps power. -/
def Part.partReset (p : Part) (big up : Bool) : Part :=
  let q := Part.reset big
  let q : Part :=
    { q with free := p.free,
             hif := { q.hif with mem := p.hif.mem, memPoison := p.hif.memPoison },
             power := { q.power with up := up, gpioIn := p.power.gpioIn, tap := if up then p.power.tap else .reset } }
  q.putB PWR_STATUS 5 up

/-- The latches of PWR_RESET_CAUSE as a source of reset is asserted (R534): a reset that interrupts a part that has begun to boot records its
own source; in a reset that goes on, sources add up, but not to power_on, and before power-up nothing is recorded.
DEDUCED (log 113, unsafe): PWR_RESET_CAUSE: a reset that interrupts a part that has begun to boot records its source; sources add up until then, and add nothing to power_on. -/
def causeWith (cause : Nat) (began : Bool) (i : Nat) : Nat :=
  if began then 2 ^ i else if cause = 0 ∨ cause = 8 then cause else cause ||| 2 ^ i

/-- The controller has begun to boot (R457). -/
def Part.began (p : Part) : Bool := p.mgt.fw.isSome || p.getF MGT_STATUS 12 4 != 0

/-- A part reset by source `i` of PWR_RESET_CAUSE; `keep` says that the rails stay up. -/
def State.resetBy (s : State) (i : Nat) (keep : Bool) : State :=
  { s with resetCause := causeWith s.resetCause s.p.began i, p := s.p.partReset s.fuses.big (keep && s.p.power.up) }

/-- A power event with a sticky bit and a record (R497, R522, R526). -/
def Part.pwrErr (p : Part) (i severity : Nat) : Part := p.noteErr PWR_STICKY i (mkErr 16 i severity)

/-- The input voltage is seen (R549): the present level, the lowest since the tick, and whether it is below 35.0 V.
DEDUCED (log 109, unsafe): PWR_VIN and PWR_VIN_MIN follow the voltages that the events of chapter 17 carry, beside the telemetry. -/
def Part.seeInput (p : Part) (centivolts : Nat) : Part :=
  let p := p.putF PWR_VIN 0 16 centivolts
  let low := p.getF PWR_VIN_MIN 0 16
  (p.putF PWR_VIN_MIN 0 16 (if low = 0 then centivolts else min low centivolts)).putB PWR_STATUS 0 (centivolts < 3500)

/-- The period of hold repeats (R529). -/
def holdPeriod : Nat := 100000

/-- The supply monitor sends a hold (R527). -/
def Part.supplyHold (p : Part) : Part :=
  let p := (p.putB PWR_STATUS 2 true).stick PWR_STICKY 1
  (p.modPower fun w => { w with holdAt := p.cycle, repeatAt := p.cycle + holdPeriod }).holdSend 0

/-- The supply hold ends (R528). -/
def Part.supplyRelease (p : Part) : Part :=
  if p.getB PWR_STATUS 2 then ((p.putB PWR_STATUS 2 false).bump PWR_STAT_HOLD (p.cycle - p.power.holdAt)).releaseSend 0 else p

/-- The hold repeats that are due at a cycle (R529). -/
def Part.repeatHolds (p : Part) (t : Nat) : Part :=
  let p :=
    if p.getB PWR_STATUS 2 && p.power.repeatAt ≤ t then
      (p.modPower fun w => { w with repeatAt := w.repeatAt + holdPeriod }).holdSend 0
    else p
  if p.mgt.thermHold && p.power.thermRepeatAt ≤ t then
    (p.modPower fun w => { w with thermRepeatAt := w.thermRepeatAt + holdPeriod }).holdSend 1
  else p

/-- The cycles at which the holds in force are repeated next. -/
def Part.repeatsDue (p : Part) : List Nat :=
  (if p.getB PWR_STATUS 2 then [p.power.repeatAt] else []) ++ (if p.mgt.thermHold then [p.power.thermRepeatAt] else [])

end Sys2Proof.Machine
end

