-- ==== Sys2Proof/Machine/Firmware.lean ====
section
/-!
DEFINITION. Firmware images, the boot ROM and identity (R454 to R463), and what the controller shows of its owner, keys and policy.
-/
namespace Sys2Proof.Machine

/-- The fused minimum security version: the ones of the thermometer code (R455). -/
def Fuses.svnMin (f : Fuses) : Nat := ((List.range 64).filter (bit f.svnBits.toNat)).length

/-- An unrevoked Tardin firmware signing key with a key_id (R455, R456): the digest of the key the ROM holds is the fused one. -/
def Fuses.fwKey (f : Fuses) (id : Nat) : Option PubKey :=
  let good (k : PubKey) (digest : BitVec 256) (revoked : Bool) : Bool := !revoked && digestNat (keyBytes k) == digest.toNat && keyId k == id
  if good f.romKey0 f.fwKey0 f.revoked0 then some f.romKey0
  else if good f.romKey1 f.fwKey1 f.revoked1 then some f.romKey1
  else none

/-- Header plus body of an image, in bytes (R456). -/
def imageLen (bs : List Byte) : Nat := leAt bs 4 4
/-- The security version an image names. -/
def imageSvn (bs : List Byte) : Nat := leAt bs 12 1
/-- The firmware an image holds: its version, security version, and the digest of header and body. -/
def imageFw (bs : List Byte) : Firmware := ⟨leAt bs 8 4, imageSvn bs, sha256 (bs.take (imageLen bs))⟩

/-- The signature block of an image. -/
def imageSig (bs : List Byte) : List Byte := (bs.drop (imageLen bs)).take 128

/-- The form of an image (R456). -/
def imageForm (bs : List Byte) : Bool :=
  let n := imageLen bs
  leAt bs 0 4 == 0x46574D54 && n % 64 == 0 && 192 ≤ n && n ≤ 3 * 2 ^ 20 - 128 && n + 128 ≤ bs.length && imageSvn bs ≤ 63 &&
    allZero ((bs.take 128).drop 13) && sigOk (imageSig bs)

/-- The signature of an image (R429, R456). -/
def Fuses.imageSigned (f : Fuses) (bs : List Byte) : Bool :=
  let sig := imageSig bs
  match f.fwKey (leAt sig 8 8) with
  | none => false
  | some k => ecdsaVerify k (bs.take (imageLen bs)) (beNat ((sig.drop 16).take 32)) (beNat ((sig.drop 48).take 32))

/-- An image may run (R456). -/
def Fuses.imageValid (f : Fuses) (bs : List Byte) : Bool := imageForm bs && f.imageSigned bs && f.svnMin ≤ imageSvn bs

/-- Slot A (false) or B (true). -/
def Nv.slot (n : Nv) (b : Bool) : FwSlot := if b then n.slotB else n.slotA
/-- Replace a slot. -/
def Nv.setSlot (n : Nv) (b : Bool) (x : FwSlot) : Nv := if b then { n with slotB := x } else { n with slotA := x }
/-- Graft signer key `k`. -/
def Nv.key (n : Nv) (k : Nat) : Option PubKey :=
  match k with
  | 0 => n.key0
  | 1 => n.key1
  | 2 => n.key2
  | 3 => n.key3
  | _ => none
/-- Replace graft signer key `k`. -/
def Nv.setKey (n : Nv) (k : Nat) (x : Option PubKey) : Nv :=
  match k with
  | 0 => { n with key0 := x }
  | 1 => { n with key1 := x }
  | 2 => { n with key2 := x }
  | 3 => { n with key3 := x }
  | _ => n
/-- The four graft signer keys. -/
def Nv.keys (n : Nv) : List (Option PubKey) := [n.key0, n.key1, n.key2, n.key3]
/-- The owner, key and policy state as bytes, what measurement 4 is taken over (R470): owner root digest, key_ids, signed_only and the link
policy. -/
def Nv.policyBytes (n : Nv) : List Byte :=
  beBytes 32 (n.owner.getD 0).toNat ++ (n.keys.flatMap fun k => leBytes 8 ((k.map keyId).getD 0)) ++
    [BitVec.ofNat 8 (b2n n.signedOnly), BitVec.ofNat 8 (b2n n.linkOwnerMatch), BitVec.ofNat 8 n.linkMinSvn]

/-- The registers show owner, keys and policy (R482), and the loader sees them from the next tick, or at once while ticks are not running
(R472). -/
def Part.showPolicy (p : Part) (n : Nv) : Part :=
  let p := p.each [0, 1, 2, 3] fun p k => p.wr (MGT_GKEY k) (((n.key k).map keyId).getD 0)
  let p := p.putB MGT_STATUS 9 n.owner.isSome
  let valid := ([0, 1, 2, 3].map fun k => b2n (n.key k).isSome * 2 ^ (2 + k)).foldl (· + ·) 0
  let p := p.wr MGT_POLICY (n.linkMinSvn <<< 8 + valid + 2 * b2n n.linkOwnerMatch + b2n n.signedOnly)
  let p := p.modMgt fun m => { m with nextKeys := n.keys, nextSigned := n.signedOnly, polNext := n.policyBytes }
  if p.running then p else p.loaderSees

/-- The bytes of an ASCII string. -/
def asciiBytes (s : String) : List Byte := s.toList.map fun c => BitVec.ofNat 8 c.toNat

/-- The DeviceID public key (R461).
DEDUCED (log 95, unsafe): The unique device secret enters the key derivation big-endian. -/
def deviceKey (uds : BitVec 256) : PubKey := p256Pub (keyScalar 256 0 (beBytes 32 uds.toNat) (asciiBytes "Tardin DeviceID"))

/-- The alias public key of a firmware (R461). -/
def aliasPub (uds : BitVec 256) (digest : List Byte) : PubKey :=
  p256Pub (keyScalar 256 0 (hmacSha256 (beBytes 32 uds.toNat) digest) (asciiBytes "Tardin Alias"))

/-- MGT_SERIAL (R463). -/
def serialOf (uds : BitVec 256) : Nat := leAt (sha256 (keyBytes (deviceKey uds))) 0 8

/-- MGT_FW (R482). -/
def fwReg (f : Fuses) (x : Firmware) : Nat := f.svnMin <<< 40 + x.svn <<< 32 + x.version

/-- The boot ROM derives identity and starts an image (R457, R461, R462): `b` is its slot. -/
def State.startFw (s : State) (n : Nv) (b : Bool) (bs : List Byte) : State :=
  let fw := imageFw bs
  let p := (s.p.putF MGT_STATUS 12 4 3).putB MGT_STATUS 0 b
  let p := p.putB MGT_STATUS 8 (n.trial && b == n.preferred)
  let p := (p.wr MGT_FW (fwReg s.fuses fw)).wr MGT_SERIAL (serialOf s.fuses.uds)
  let p := p.modMgt fun m =>
    { m with fw := some fw, aliasKey := some (aliasPub s.fuses.uds fw.digest), ownerCert := n.owner, certMin := s.fuses.svnMin,
             updLen := none, updOk := false, sram := [] }
  { s with nv := n, p := p.showPolicy n }

/-- What the trial state makes of the preferred slot at a boot (R457), and whether it falls back. -/
def Nv.tryBoot (n : Nv) : Nv × Bool :=
  if !n.trial then (n, false)
  else if n.trialBoots ≥ 1 then ({ n with preferred := !n.preferred, trial := false }, true)
  else ({ n with trialBoots := n.trialBoots + 1 }, false)

/-- A slot holds an image that may run. -/
def State.slotValid (s : State) (b : Bool) : Bool := (s.nv.slot b).usable && s.fuses.imageValid (s.nv.slot b).bytes

/-- BOOT (R457, R458). -/
def execBoot (s : State) : Answer :=
  if !s.p.pgood || s.p.began then .next s
  else
    let (n, fell) := s.nv.tryBoot
    match [n.preferred, !n.preferred].find? s.slotValid with
    | some b =>
      let s := s.startFw n b (n.slot b).bytes
      .next { s with p := if fell || b != n.preferred then s.p.putB MGT_STICKY 0 true else s.p }
    | none =>
      let p := if fell then s.p.putB MGT_STICKY 0 true else s.p
      .next { s with nv := n, p := (p.putF MGT_STATUS 12 4 5).putB MGT_STICKY 1 true }

/-- FW_READY (R457, R459): the trial state clears, and HBM training starts. -/
def execFwReady (s : State) : Answer :=
  if s.p.getF MGT_STATUS 12 4 ≠ 3 then .next s
  else
    let trial := s.p.getB MGT_STATUS 8
    let p := (s.p.putF MGT_STATUS 12 4 4).putB MGT_STATUS 8 false
    .next { s with nv := { s.nv with trial := false, trialBoots := 0 },
                   p := p.modMgt fun m => { m with ready := true, afterTrial := trial } }

/-- FIRMWARE_FAULT (R480). -/
def execFirmwareFault (s : State) : Answer :=
  s.run fun p =>
    if !p.mgt.ready || p.mgt.stopped then p
    else
      let p := ((p.modMgt fun m => { m with stopped := true }).putF MGT_STATUS 12 4 6).putB MGT_STICKY 7 true
      p.err (mkErr 14 7 4)

end Sys2Proof.Machine
end

