-- ==== Sys2Proof/Machine/Checks.lean ====
section
/-!
DEFINITION. What integrity checking shares (chapter 16): the spares, the replay of a captured group (R490), and the findings of R491 and
R502.
-/
namespace Sys2Proof.Machine

/-- The spare cores that manufacturing test found in a sector (R5). -/
def Fuses.spares (f : Fuses) (s : Nat) : Nat :=
  match s with
  | 0 => f.spares0
  | 1 => f.spares1
  | 2 => f.spares2
  | _ => f.spares3

/-- The spares of a sector that are not retired (R491), of those its fuses count. -/
def Part.goodSpares (p : Part) (n : Nat → Nat) (s : Nat) : List Nat := (List.range (n s)).filter fun k => !(spGet [] p.obs.retired s).contains k

/-- The spares that run online self-test (R493): the lowest-numbered. -/
def Part.testSpares (p : Part) (n : Nat → Nat) (s : Nat) : List Nat := (p.goodSpares n s).take (p.getF OBS_CTRL 12 4)

/-- The spares that duplicate (R493). -/
def Part.dupSpares (p : Part) (n : Nat → Nat) (s : Nat) : List Nat := (p.goodSpares n s).drop (p.getF OBS_CTRL 12 4)

/-- A spare core as the core field of a record names it (R496). -/
def spareName (s k : Nat) : Nat := 2 ^ 15 + (s <<< 11) + k

/-- Retire a spare until part reset (R491, R502). -/
def Part.retireSpare (p : Part) (s k : Nat) : Part :=
  let l := k :: spGet [] p.obs.retired s
  let p := p.modObs fun o => { o with retired := spSet [] o.retired s l }
  let p := (p.putF (OBS_SSTATUS s) 9 9 l.length).bump OBS_STAT_RETIRED 1
  p.noteErr OBS_STICKY 2 { mkErr 15 2 0 with sector := s, core := spareName s k }

/-- Replay a captured pass into group 0 of a scratch core (R490). -/
def replayPass (k : Core) (q : CapPass) : Core :=
  let (sums, evs) := passSums q.keep q.op.fmt q.tile q.op.axis q.rows
  let op := { q.op with group := 0 }
  (accRows q.keep 0 k ⟨op, q.op.fmt.isInt, sums, evs, none⟩ op.rows).1

/-- The group's rows as the passes leave them. -/
def DupCap.sums (d : DupCap) : Core := d.passes.foldl replayPass .reset

/-- The content type of a captured group (R102): that of its last pass with init = 1. -/
def DupCap.isInt (d : DupCap) : Bool :=
  ((d.passes.filter fun q => q.op.init).getLast?.map fun q => q.op.fmt.isInt).getD false

/-- The rows that the passes have fixed: what a row holds that no pass has written since the group opened is the spec's silence, and
nothing is compared there. -/
def DupCap.fixedRows (d : DupCap) : List Nat := (List.range 32).filter fun i => bit (d.sums.group 0).written i

/-- What a spare computes for the rows that are compared (R490), when nothing of it fails. -/
def Part.dupRows (p : Part) (d : DupCap) (o : DrainOp) : List Byte :=
  let k := d.sums
  let seed := BitVec.ofNat 64 (nth (nth d.draws 1 []) 0 0)
  d.fixedRows.flatMap fun i =>
    let modes := (List.range 32).map fun j =>
      Mode.ofCode o.mode (if o.mode = 1 then
        srDraw (srSeed seed (BitVec.ofNat 64 d.frame) 0 p.chip d.core j) (nth (nth d.draws 0 []) j 0 + i) else 0)
    let (vs, _) := drainRow d.keep d.isInt d.pset d.bias o.fmt modes o.sat ((List.range 32).map fun j => k.accWord 0 0 i j)
    vs.flatMap fun v => leBytes o.fmt.bytes (v.1 % 2 ^ (8 * o.fmt.bytes))

/-- The captured rows that are compared. -/
def DupCap.captured (d : DupCap) (w : Nat) : List Byte := d.fixedRows.flatMap fun i => (nth d.rows i []).flatMap fun v => leBytes w v

/-- What a spare answers that turns bits over in the first 8 bytes. -/
def faulty (bs : List Byte) (err : Nat) : List Byte := leBytes 8 (leNat (bs.take 8) ^^^ err) ++ bs.drop 8

/-- The XOR of the first 8 bytes, on an 8-byte place, in which two results differ (R498).
DEDUCED (log 118, unsafe): The first difference of a duplicated group is taken between the captured rows and the first spare's; rows no pass wrote are not compared. -/
def firstDiff (a b : List Byte) : Nat :=
  (((chunks 8 (a.length / 8) a).zip (chunks 8 (a.length / 8) b)).findSome? fun q => if q.1 != q.2 then some (leNat q.1 ^^^ leNat q.2) else none).getD 0

/-- The record of a mismatch (R496 to R498). -/
def DupCap.record (d : DupCap) (s severity x : Nat) : ErrRec :=
  let o := d.drain
  let mode := (o.map (·.mode)).getD 0
  { mkErr 15 0 severity with sector := s, core := d.core, pair := d.pair, char0 := char0Of 12 0x33 7 7 mode 0 0 0, char1 := x, loc0 := d.group,
                             loc1 := d.n }

/-- A mismatch that no second spare has decided (R491). -/
def Part.undecided (p : Part) (s : Nat) (d : DupCap) : Part :=
  let w := (d.drain.map (·.fmt.bytes)).getD 1
  let p := (p.stick OBS_STICKY 0).err (d.record s 3 (firstDiff (d.captured w) d.result1))
  (p.addPair d.pair fun a => { a with mismatch := true, dmis := a.dmis + 1 }).note d.frame fun n => { n with undec := n.undec + 1 }

/-- The primary of a group is wrong (R491). -/
def Part.primaryWrong (p : Part) (s : Nat) (d : DupCap) : Part :=
  let w := (d.drain.map (·.fmt.bytes)).getD 1
  let p := ((p.stick OBS_STICKY 0).bump OBS_STAT_DUPMIS 1).err (d.record s 3 (firstDiff (d.captured w) d.result1))
  (p.addPair d.pair fun a => { a with mismatch := true, dmis := a.dmis + 1 }).note d.frame fun n => { n with prim := n.prim + 1 }

/-- A logical core fails self-test (R502). -/
def Part.coreFailsTest (p : Part) (c : Nat) : Part :=
  (p.noteErr OBS_STICKY 3 { mkErr 15 3 4 with sector := coreSector c, core := c }).note p.frameNo fun n => { n with test := n.test + 1 }

/-- What a self-test leaves in the partitions of a core that a tick clears (R501): values the spec does not state.
DEDUCED (log 33, safe): The test area of a core reads as free bytes after a self-test slice or a full test (R501, R506). -/
def Part.testArea (p : Part) (c : Nat) : Part :=
  let (u, p) := p.fresh
  let lo := p.codeEnd c
  let bytes := fitBytes (spadBytes - lo) (Config.freeBytes u (spadBytes - lo))
  { p with mem := { p.mem with bytes := putBytes p.mem.bytes (spadAddr c lo) bytes } }

end Sys2Proof.Machine
end

