-- ==== Sys2Proof/Machine/Observe.lean ====
section
/-!
DEFINITION. The steps of integrity checking and observation (chapter 16).
-/
namespace Sys2Proof.Machine

/-- Replace the oldest capture of a sector that is in a stage. -/
def Part.putDup (p : Part) (s : Nat) (old : DupCap) (new : Option DupCap) : Part :=
  p.setDups s ((p.dups s).flatMap fun d => if d == old then new.toList else [d])

/-- DUP_CHECK (R490): a duplicating spare replays the oldest capture that waits and compares its rows; `err` is what a fault of the spare
turns over in them. A difference waits for a second spare (R491).
DEDUCED (log 156, unsafe): The order of capture of R493 is the order in which the groups opened. -/
def execDupCheck (sector : BitVec 2) (spare : Nat) (err : BitVec 64) (s : State) : Answer :=
  s.run fun p =>
    let x := sector.toNat
    match (p.dups x).find? fun d => d.stage == 1 with
    | none => p
    | some d =>
      match d.drain with
      | none => p
      | some o =>
        if !p.live || !(p.dupSpares s.fuses.spares x).contains spare then p
        else
          let got := faulty (p.dupRows d o) err.toNat
          if got = d.captured o.fmt.bytes then (p.putDup x d none).bump OBS_STAT_DUP 1
          else p.putDup x d (some { d with stage := 2, spare := spare, result1 := got })

/-- DUP_ARBITRATE (R491): a second spare replays a group that a first one found to differ. -/
def execDupArbitrate (sector : BitVec 2) (spare : Nat) (err : BitVec 64) (s : State) : Answer :=
  s.run fun p =>
    let x := sector.toNat
    match (p.dups x).find? fun d => d.stage == 2 with
    | none => p
    | some d =>
      match d.drain with
      | none => p
      | some o =>
        if !p.live || spare = d.spare || !(p.dupSpares s.fuses.spares x).contains spare then p
        else
          let got := faulty (p.dupRows d o) err.toNat
          let p := (p.putDup x d none).bump OBS_STAT_DUP 1
          if got = d.result1 then p.primaryWrong x d
          else if got = d.captured o.fmt.bytes then p.retireSpare x d.spare
          else p.undecided x d

/-- INTEGRITY_NOTICE_RECEIVE (R494): the latest notified frame, with the parts that named it. -/
def execIntegrityNoticeReceive (s : State) : Answer :=
  s.run fun p =>
    match p.fab.rx.find? fun q => q.cls == 3 && q.kind == 9 with
    | none => p
    | some q =>
      let p := p.takeRx q
      let f := leAt q.payload 0 8
      if p.role = 0 || (!p.obs.noticeFrom.isEmpty && f < p.obs.noticeFrame) then p
      else
        let from' := if p.obs.noticeFrom.isEmpty || p.obs.noticeFrame < f then [] else p.obs.noticeFrom
        let from' := if from'.contains q.src then from' else q.src :: from'
        let p := p.modObs fun o => { o with noticeFrame := f, noticeFrom := from' }
        p.wr OBS_NOTICE ((f % 2 ^ 32) <<< 32 + (minList from') <<< 16 + min from'.length 65535)

/-- A package pattern and not the built-in set (R505). -/
def Part.packagePattern (p : Part) (pattern : Nat) : Bool := p.obs.packs.any fun k => k.patterns.any fun q => q.1 == pattern

/-- SELFTEST_SLICE (R501, R502, R506): a slice on a self-test spare, or in the guard on a halted core. A failing package pattern fails the
core by its digest or counts against the package: which of the two, the command leaves open.
DESIGN CHOICE (log 50, safe): Which of core or package a failing package pattern counts against is a free choice. -/
def execSelftestSlice (sector : BitVec 2) (spare : Bool) (unit pattern : Nat) (pass : Bool) (s : State) : Answer :=
  s.run fun p =>
    let x := sector.toNat
    let c := 2048 * x + unit
    let may : Bool :=
      if spare then (p.testSpares s.fuses.spares x).contains unit
      else p.getB OBS_CTRL 24 && p.validCore c && unit < 2048 && (p.core c).st == .halted && p.phase == 3 && p.getB TIK_STATUS 1 &&
        p.cycle + 6096 ≤ p.frameEnd
    if !p.live || !may then p
    else
      let p := p.bump OBS_STAT_SLICE 1
      let p := if spare then p else p.testArea c
      if pass then p
      else
        let (u, p) := p.fresh
        if p.packagePattern pattern && Config.freeBool u then p.stick OBS_STICKY 4
        else if spare then p.retireSpare x unit
        else p.coreFailsTest c

/-- A full test is requested (R503, R517): twice, one test is queued. -/
def Part.testRequest (p : Part) : Part :=
  if p.obs.testQueued then p
  else ((p.putB OBS_STATUS 3 true).putF OBS_TEST_STATUS 0 4 1).modObs fun o => { o with testQueued := true }

/-- A queued full test is cancelled (R503). -/
def Part.testCancel (p : Part) : Part :=
  if !p.obs.testQueued then p
  else ((p.putB OBS_STATUS 3 false).putF OBS_TEST_STATUS 0 4 7).modObs fun o => { o with testQueued := false }

/-- FULL_TEST_REQUEST (R503). -/
def execFullTestRequest (s : State) : Answer := s.run fun p => if p.hif.linkUp then p.testRequest else p

/-- FULL_TEST_CANCEL (R503). -/
def execFullTestCancel (s : State) : Answer := s.run fun p => if p.hif.linkUp then p.testCancel else p

/-- Save the code partition of a core to OBS_TEST_SAVE, 64 KiB a core (R503). -/
def Part.saveCode (p : Part) (c : Nat) : Part :=
  let n := p.codeEnd c
  let a := p.getF OBS_TEST_SAVE 0 40 + 65536 * c
  if n = 0 then p
  else p.each ((List.range (n / 64)).zip (chunks 64 (n / 64) (p.spad c 0 n))) fun p q => p.putHbm (a + 64 * q.1) q.2 none

/-- What a full test finds in a core (R502): a logical core that fails, or a spare that is retired. -/
def Part.testFinding (p : Part) (n : Nat → Nat) (c : Nat) : Part :=
  if c < 2 ^ 15 then (if p.validCore c then p.coreFailsTest c else p)
  else
    let x := fld c 11 2
    let k := c % 512
    if (p.goodSpares n x).contains k then p.retireSpare x k else p

/-- FULL_TEST_RUN (R503): with ticks halted or stopped the part holds, saves the code partitions, tests every core, restores and releases;
the operands are what the test finds.
DESIGN CHOICE (log 49, unsafe): The full test runs as one step with the findings as operands; it needs phase 3 or no frame and ticks halted or stopped. -/
def execFullTestRun (failedCores failedPatterns : List Nat) (s : State) : Answer :=
  s.run fun p =>
    if !p.live || !p.obs.testQueued || p.phase < 3 || (p.running && !p.getB TIK_STATUS 11) then p
    else
      let cores := (List.range 8192).filter p.validCore
      let p := ((p.holdSend 2).putB OBS_STATUS 3 false).modObs fun o => { o with testQueued := false }
      let p := (p.each cores Part.saveCode).each cores Part.testArea
      let p := p.each failedCores fun p c => p.testFinding s.fuses.spares c
      let p := if failedPatterns.isEmpty then p else p.stick OBS_STICKY 4
      let ok : Bool := failedCores.isEmpty && failedPatterns.isEmpty
      let p := p.wr OBS_TEST_STATUS ((min 255 failedCores.length) <<< 24 + (min 255 failedPatterns.length) <<< 16 + (if ok then 5 else 6))
      p.releaseSend 2

/-- FREEZE (R512): OBS_FREEZE_CMD.freeze. -/
def execFreeze (s : State) : Answer := s.run fun p => if p.hif.linkUp then p.freeze 0 else p

/-- FREEZE_IN (R512). -/
def execFreezeIn (s : State) : Answer := s.run fun p => if p.power.up && p.getB OBS_FREEZE 2 then p.freeze 1 else p

/-- OBS_FREEZE_CMD.thaw (R513, R514): the frozen work is discarded as at a tick, scratchpads clear where a tick has passed, and the part
waits, halted; no core starts before the next tick.
DEDUCED (log 48, unsafe): A frozen part applies ticks but leaves the clear and its restart until THAW; after THAW its cores have no role running until the next tick. -/
def Part.thaw (p : Part) : Part :=
  if !p.obs.frozen then p
  else
    let clear := p.obs.clearPending
    let p := p.modObs fun o => { o with frozen := false, clearPending := false }
    let p := (p.putB OBS_STATUS 5 false).modPower fun w => { w with freezeOut := false }
    let p := p.dupTick.discardWork
    let p := if clear then p.clearSpads else p
    let p := p.modFab fun f => { f with rx := f.rx.filter (!dataPacket ·), txq := f.txq.filter (!dataPacket ·) }
    ((p.putB TIK_STATUS 11 true).putB TIK_STATUS 0 false).modTick fun t => { t with coresStarted := true, stopAfter := true }

/-- THAW (R514). -/
def execThaw (s : State) : Answer := s.run fun p => if p.hif.linkUp then p.thaw else p

/-- Scratchpad bytes as a scan shows them, each poisoned granule as its token (R299, R515). -/
def Part.scanSpad (p : Part) (c off : Nat) : List Byte :=
  (List.range 128).flatMap fun i =>
    let a := off + 32 * i
    match p.spadPoison c (a, a + 32) with
    | some t => tokenBytes t
    | none => p.spad c a 32

/-- Control state as a scan shows it: g0 to g31, the program counter and COR_CYCLE, then queue contents whose layout the spec does not
state.
DESIGN CHOICE (log 119, unsafe): Control state in the scan window (R515): g0 to g31, pc, COR_CYCLE, then free bytes for queue contents. -/
def Part.scanControl (p : Part) (u c : Nat) : List Byte :=
  let k := p.core c
  fitBytes 4096 (((List.range 32).flatMap fun r => leBytes 4 (k.reg r)) ++ leBytes 4 k.pc ++ leBytes 8 p.cycle ++ fitBytes 3952 (Config.freeBytes u 3952))

/-- The 4 KiB that OBS_SCAN selects (R515); what a spare holds is not state of this model and is left open.
DEDUCED (log 29, safe): Spare cores are not logical cores: what a spare holds is left open, and its work is the part's (R490, R501). -/
def Part.scanWindow (p : Part) (u : Nat) : List Byte :=
  let v := p.rd OBS_SCAN
  let c := fld v 43 13
  let off := fld v 0 32 / 4096 * 4096
  if bit v 42 then fitBytes 4096 (Config.freeBytes u 4096)
  else if !p.validCore c then List.replicate 4096 0
  else
    match fld v 59 2 with
    | 0 => if off + 4096 ≤ spadBytes then p.scanSpad c off else List.replicate 4096 0
    | 1 => if off < 65536 then (List.range 1024).flatMap fun i => leBytes 4 ((p.core c).accWord u (off / 4096) (i / 32) (i % 32)) else List.replicate 4096 0
    | 2 => if off = 0 then p.scanControl u c else List.replicate 4096 0
    | _ => List.replicate 4096 0

/-- Read OBS_SCAN_DATA (R515): outside a freeze zeros, counted in HIF_STAT_ACCERR. -/
def Part.scanRead (p : Part) : List Byte × Part :=
  if p.obs.frozen then
    let (u, p) := p.fresh
    (p.scanWindow u, p)
  else (List.replicate 4096 0, p.bump HIF_STAT_ACCERR 1)

end Sys2Proof.Machine
end

