-- ==== Sys2Proof/Machine/Phases.lean ====
section
/-!
DEFINITION. The phases of a frame (R24, R25): when they start, the commit point, and what happens at the guard boundary, with the
stretch the controller asks for (R476).
-/
namespace Sys2Proof.Machine

/-- Count an overrun of C or D, once a frame (R24, R47). -/
def Part.overrun (p : Part) : Part :=
  if p.tick.overrun then p
  else (p.putF TIK_STATUS 16 8 (min 255 (p.getF TIK_STATUS 16 8 + 1))).modTick fun t => { t with overrun := true }

/-- Enter a phase whose offset is `off` (R24): at the offset, or now if that is later. -/
def Part.enterPhase (p : Part) (ph off : Nat) : Part :=
  let p := if p.frameCycle > off then p.overrun else p
  let p := (p.clockTo (p.tick.frameStart + off)).putF TIK_STATUS 2 3 ph
  p.trace 4 2 0 0xFFFF ph 0

/-- PHASE_START (R24): reduce starts when compute work is complete, commit when reduce work is; where the work is not complete at its
offset, the overrun is counted.
DEDUCED (log 41, unsafe): The completion cycle of a phase is the cycle at which PHASE_START or COMMIT_POINT finds its work complete. -/
def execPhaseStart (phase : Nat) (s : State) : Answer :=
  s.run fun p =>
    if !p.clocked then p
    else if phase = 1 ∧ p.phase = 0 then
      let off := p.rd (TIK_OFFS_C p.kind)
      if !p.computeDone then (if p.frameCycle > off then p.overrun else p)
      else (p.modTick fun t => { t with done0 := some p.frameCycle }).enterPhase 1 off
    else if phase = 2 ∧ p.phase = 1 then
      let off := p.rd (TIK_OFFS_D p.kind)
      if !p.reduceDone then (if p.frameCycle > off then p.overrun else p)
      else (p.modTick fun t => { t with done1 := some p.frameCycle }).enterPhase 2 off
    else p

/-- COMMIT_POINT (R24, R25): all compute, reduce and commit work is complete; the part sends a pass unless its frame has failed.
DEDUCED (log 42, unsafe): The frame status of a pass is sent by COMMIT_POINT; causes found at G are taken in the order fabric 3 and 4, blocks 5, twin 8, overrun 1. -/
def execCommitPoint (s : State) : Answer :=
  s.run fun p =>
    if !p.clocked || p.phase ≠ 2 || p.getB TIK_STATUS 1 || !(p.computeDone && p.reduceDone && p.commitDone) then p
    else
      let p := (p.putB TIK_STATUS 1 true).modTick fun t => { t with done2 := some p.frameCycle }
      if p.tick.cause = 0 then p.sendStatus true 0 else p

/-- An enabled inbox channel has not delivered every block that the frame requires (R414). -/
def Part.blockMissing (p : Part) : Bool :=
  (List.range 16).any fun c =>
    p.inOn c && (List.range (p.getF (HIF_IN_CFG c) (32 + 8 * p.kind) 8)).any fun i =>
      !(p.heldBlocks c).any fun b => b.frame == p.frameNo && b.index == i && b.delivered

/-- DUP_ABANDON (R492): at G of a frame, checks on groups of an earlier frame are over. Those a first spare has found to differ stay
undecided (R491). -/
def Part.dupAbandon (p : Part) : Part :=
  p.each sectors fun p s =>
    let l := p.dups s
    let old := l.filter fun d => d.stage != 0 && d.frame < p.frameNo
    let p := p.setDups s (l.filter fun d => !(d.stage != 0 && d.frame < p.frameNo))
    p.each old fun p d =>
      if d.stage = 1 then p.bump OBS_STAT_DUPSKIP 1
      else p.undecided s d

/-- INTEGRITY_NOTICE_SEND (R494): one packet for every frame with findings. -/
def Part.sendNotices (p : Part) : Part :=
  let p := p.each p.obs.notes fun p n =>
    p.toMasters 9 0 (leBytes 8 n.frame ++ leBytes 4 n.prim ++ leBytes 4 n.res ++ leBytes 4 n.test ++ leBytes 4 n.undec ++
      leBytes 8 n.first ++ fitBytes 8 n.sig ++ leBytes 24 0)
  p.modObs fun o => { o with notes := [] }

/-- Energy of the frame up to a cycle of it, in nJ (R473). -/
def Part.energyTo (p : Part) (t : Nat) : Nat :=
  ((p.mgt.energy.filter fun e => p.tick.frameStart < e.1 && e.1 ≤ p.tick.frameStart + t).map (·.2)).foldl (· + ·) 0

/-- The power term of R476 for a limit of `lim` W: energies in pJ, powers in mW, times in ns; the extension in 10 ns units and whether the
limit cannot be met. -/
def powerExt (work guardMw len g lim : Nat) : Nat × Bool :=
  let pred := 1000 * work + guardMw * (len - g)
  let room := 1000 * lim * len
  if pred ≤ room then (0, false)
  else if 1000 * lim > guardMw then (ceilDiv (pred - room) (10 * (1000 * lim - guardMw)), false)
  else (10 ^ 8 - len / 10, true)

/-- The thermal term of R476: 10 µs more above a limit, 10 µs less once both are 3 °C below. -/
def thermExt (ext die hbm dieC hbmC : Nat) : Nat :=
  if die > dieC ∨ hbm > hbmC then ext + 1000
  else if die + 3 ≤ dieC ∧ hbm + 3 ≤ hbmC then ext - 1000
  else ext

/-- STRETCH_COMPUTE (R476).
DESIGN CHOICE (log 154, unsafe): MGT_STRETCH.cause is 1 where the power and the thermal term are equal. -/
def Part.stretchCompute (p : Part) : Part :=
  if !p.mgt.ready || p.mgt.stopped then p
  else
    let len := 10 * p.tick.frameLen
    let g := p.rd (TIK_OFFS_G p.kind)
    let p := p.putF MGT_PLIM 16 16 p.effectiveLimit
    let (extP, unmet) := powerExt (p.energyTo g) (p.mgt.guardMw.getD 210000) len g p.effectiveLimit
    let p := if unmet then p.putB MGT_STICKY 6 true else p
    let extT := thermExt p.mgt.extT (p.getF MGT_TEL_TEMP 8 8) (p.getF MGT_TEL_TEMP 16 8) p.mgt.dieC p.mgt.hbmC
    let p := p.modMgt fun m => { m with extT := extT }
    let ext := min (max extP extT) (10 ^ 8 - p.tick.frameLen)
    if ext = 0 then p
    else
      let p := p.wr MGT_STRETCH ((if extP ≥ extT then 1 else 2) <<< 30 + ext)
      (p.bump MGT_STAT_STRETCH 1).toMasters 5 0 (pad32 (leBytes 4 ext))

/-- A core lets go of its outstanding work (R28): its queues, the operations in its units, and its loads and stores. -/
def Core.letGo (k : Core) : Core :=
  { k with mq := [], loading := none, loadTile := none, passes := [], closing := [], ftq := [], vq := [], vrun := none, irr := [] }

/-- A scheduler lets go of its descriptors and completions (R28). -/
def Sched.letGo (h : Sched) : Sched :=
  { h with queues := (h.queues.map fun (e : Nat × Queue) => (e.1, { e.2 with ready := [], waiting := [] })).filter fun e => e.2 != .reset,
           held := [], subs := [], inbound := [] }

/-- The outstanding work of a failed frame is discarded in guard (R28): of the cores, schedulers, units and racking engines, and the
packets of the data plane that wait in the hub.
DEDUCED (log 43, unsafe): A failed frame's outstanding work is dropped at GUARD_BOUNDARY (R28).
DEDUCED (log 150, unsafe): What a discarded request has written (R194) is undone where it is journalled, cleared in a scratchpad, and left in a region with journal = 0, whose data no later frame reads unwritten (R29). -/
def Part.discardFailed (p : Part) : Part :=
  let p := { p with cores := p.cores.map fun (e : Nat × Core) => (e.1, e.2.letGo), press := [], optim := [], rack := [], buckets := [] }
  let p := p.each sectors fun p s => p.modUnit s fun u => { u with smpQ := [], gatQ := [], scaQ := [], lkpQ := [], running := [], ahead := [] }
  let p := (p.each sectors Part.schLeft).each sectors fun p s => p.modSch s Sched.letGo
  let p := p.modFab fun f => { f with txq := f.txq.filter ctlPlane, rx := f.rx.filter ctlPlane, blocks := [] }
  p.modTick fun t => { t with signals := [] }

/-- Compute or reduce work that is not complete at G has overrun C or D (R24). -/
def Part.lateWork (p : Part) : Part :=
  if (p.phase = 0 ∧ !p.computeDone) ∨ (p.phase < 2 ∧ !p.reduceDone) then p.overrun else p

/-- GUARD_BOUNDARY (R25): the fabric's checks, the inbox, the twin and then the commit point are judged at G, the controller computes its
stretch and the notices go out. -/
def execGuardBoundary (s : State) : Answer :=
  s.run fun p =>
    if !p.clocked || !p.inFrame || p.tick.guardDone then p
    else
      let p := p.clockTo (p.tick.frameStart + p.rd (TIK_OFFS_G p.kind))
      let p := p.lateWork
      let p := (p.putF TIK_STATUS 2 3 3).modTick fun t => { t with guardDone := true }
      let p := p.trace 4 2 0 0xFFFF 3 0
      let short : Bool := !p.getB TIK_STATUS 1 || !p.orderKept
      let bucketsOpen : Bool := p.bktsOn.any fun b => (p.bkt b).stage != 14
      let late : Bool := p.spanEnding && !p.levelled
      let p := p.fabricEndCheck
      let p := if p.blockMissing then (p.stick HIF_STICKY 4).failCause 5 else p
      let p := if !p.twinDone && p.twin.ack != 2 then p.noAck else p
      let p := if bucketsOpen then p.stick RED_STICKY 0 else p
      let p := if late then p.each sectors (fun p s => if p.versionedTables.any (fun T => !(p.pendingBits s T).isEmpty) then p.stick (TBL_STICKY s) 4 else p) else p
      let p := if short then p.failCause 1 else p
      let p := p.dupAbandon.stretchCompute.sendNotices
      if p.tick.cause != 0 then p.discardFailed else p

/-- A core with a role starts at its entry (R53). -/
def Part.startCore (p : Part) (c : Nat) : Part :=
  p.modCore c fun k =>
    let k := { k with st := .running, pc := p.rd (COR_ENTRY c p.kind) }
    (((k.setReg 1 (p.frameNo % 2 ^ 32)).setReg 2 c).setReg 3 (p.rd TIK_SEASON_POS)).setReg 4 (p.rd TIK_VINTAGE)

/-- The cycle of the frame at which a core may start (R53, R445): 128, or when the images it receives at the tick are written. -/
def Part.startCycle (p : Part) (c : Nat) : Nat := max 128 (spGet 0 p.tick.codeAt c)

/-- The cores with a role that have not started. -/
def Part.coresWaiting (p : Part) : List Nat := p.roleCores.filter fun c => (p.core c).st == .clearing

/-- CORE_START (R53, R445): at cycle 128 the cores with a role start; those whose code is still being written start later, the earliest
of them with the next CORE_START. -/
def execCoreStart (s : State) : Answer :=
  s.run fun p =>
    let at' := if p.tick.coresStarted then minList (p.coresWaiting.map p.startCycle) else 128
    if !p.live || !p.inFrame || (p.tick.coresStarted && p.coresWaiting.isEmpty) then p
    else
      let p := (p.clockTo (p.tick.frameStart + at')).modTick fun t => { t with coresStarted := true }
      p.each (p.coresWaiting.filter fun c => p.startCycle c ≤ at') Part.startCore

end Sys2Proof.Machine
end

