-- ==== Sys2Proof/Machine/Rack.lean ====
section
/-!
DEFINITION. The racking engine (R130, R310 to R314), and the LDG and STG of other parts (R309).
-/
namespace Sys2Proof.Machine

/-- A range lies wholly in one region, or wholly in the readable bytes of one window, and this part's data plane may read it
(R304, R310). -/
def Part.rackSrcOk (p : Part) (a len : Nat) : Bool :=
  if isHbm a then p.oneRegion a len && p.mayRead a len else p.inWindow a len

/-- A range that a transfer of this part may write (R50, R304, R310). -/
def Part.rackDstOk (p : Part) (a len : Nat) : Bool :=
  if isHbm a then p.oneRegion a len && p.mayWrite a len else p.inInbound a len

/-- A range that a transfer of another part may write (R304). -/
def Part.rackInOk (p : Part) (a len : Nat) : Bool :=
  if isHbm a then p.oneRegion a len && p.mayInbound a len else p.inInbound a len

/-- The units of a transfer: cut at 2 KiB boundaries of the destination (R312), as (number, offset, length). -/
def rackUnits (fuel n dst off len : Nat) : List (Nat × Nat × Nat) :=
  match fuel with
  | 0 => []
  | fuel + 1 =>
    if off ≥ len then []
    else
      let k := min (2048 - (dst + off) % 2048) (len - off)
      (n, off, k) :: rackUnits fuel (n + 1) dst (off + k) len

/-- All the units of a transfer. -/
def rackCut (dst len : Nat) : List (Nat × Nat × Nat) := rackUnits (len / 2048 + 2) 0 dst 0 len

/-- Units of a sector's buffer in use (R312, RCK_STATUS). -/
def Rack.buffered (r : Rack) : Nat := ((r.transfers.filter fun t => t.stage == 3).map fun t => t.waiting.length).foldl (· + ·) 0

/-- The lowest free tag of a sector, if one is free (R311). -/
def Rack.freeTag (r : Rack) : Option Nat :=
  (List.range (min 8192 (r.transfers.length + 1))).find? fun n => !(r.transfers.any fun t => t.tag == n)

/-- The reference of a transfer's packets: the tag with its sector, and the unit's place among the 32 that may be outstanding. -/
def rackRef (s tag slot : Nat) : Nat := slot <<< 15 + s <<< 13 + tag

/-- A unit takes the lowest place that none of its transfer's outstanding units has. -/
def Transfer.place (t : Transfer) (u : Nat × Nat × Nat) : Nat × Nat × Nat :=
  (((List.range 32).find? fun n => !(t.waiting.any fun w => w.1 == n)).getD 0, u.2)

/-- The transfer of a sector with a tag. -/
def Part.xfer (p : Part) (s tag : Nat) : Option Transfer := (p.rck s).transfers.find? fun t => t.tag == tag

/-- Replace a transfer. -/
def Part.setXfer (p : Part) (s : Nat) (t : Transfer) : Part :=
  let r := p.rck s
  p.setRck s { r with transfers := r.transfers.map fun x => if x.tag = t.tag then t else x }

/-- Whether a global address lies in a core's scratchpad (R130): in the readable bytes of a window, of a core of the grade on this part.
DESIGN CHOICE (log 143, unsafe): The grade of another part is not known here: every core number of the window map counts as a core there. -/
def Part.inSpadOf (p : Part) (g : Nat) : Bool :=
  if gChip g = p.chip then p.inWindow (gLocal g) 1 else isWindow (gLocal g) && windowOff (gLocal g) < spadBytes

/-- Send the signals of a transfer (R130): the issuing core, the core whose scratchpad holds the destination, or both. -/
def Part.rackSignals (p : Part) (c pair dst ev sig : Nat) : Part :=
  let chip := gChip dst
  let dc := windowCore (gLocal dst)
  if sig = 0 then p
  else if !p.inSpadOf dst || (chip = p.chip && dc = c) then p.signal c ev
  else
    let p := if bit sig 0 then p.signal c ev else p
    if bit sig 1 then p.signalTo pair chip dc ev else p

/-- A racking event that sets bit `i` of RCK_STICKY, with its record. -/
def Part.rckErr (p : Part) (s i c pair addr : Nat) : Part :=
  p.noteErr (RCK_STICKY s) i { mkErr 7 i 0 with sector := s, core := c, pair := pair, addr := addr }

/-- A transfer refused as it is taken (R310): it moves nothing and sends its signals. -/
def Part.rackRefuse (p : Part) (s c pair dst ev sig : Nat) : Part :=
  (p.rackSignals c pair dst ev sig).bump (RCK_STAT_REFUSED s) 1

/-- A local range that R304 or R50 refuses is counted, or reported. -/
def Part.rackDenied (p : Part) (s a pair : Nat) (write : Bool) : Part :=
  if write && isWindow a then p.refuseExternal a pair else p.denied s

/-- Whether a transfer of this length between these global addresses breaks the length and alignment rules (R310). -/
def rackLenBad (src dst len : Nat) : Bool :=
  len % 32 != 0 || len == 0 || len > 2 ^ 26 || src % 32 != 0 || dst % 32 != 0

/-- Whether the two local ranges of a transfer overlap (R310). -/
def rackOverlap (chip src dst len : Nat) : Bool :=
  gChip src == chip && gChip dst == chip && src < dst + len && dst < src + len

/-- Take a transfer (R310, R311, R313). -/
def Part.takeRack (p : Part) (c pair src dst len ev sig tag : Nat) : Part :=
  let s := coreSector c
  let far (g : Nat) : Bool := gChip g != p.chip
  if !p.getB (RCK_CTRL s) 0 then
    (p.err { mkErr 7 131 0 with sector := s, core := c, pair := pair }).rackRefuse s c pair dst ev sig
  else if rackLenBad src dst len then (p.rckErr s 0 c pair src).rackRefuse s c pair dst ev sig
  else if far src && far dst then (p.rckErr s 1 c pair src).rackRefuse s c pair dst ev sig
  else if rackOverlap p.chip src dst len then (p.rckErr s 2 c pair src).rackRefuse s c pair dst ev sig
  else if !far src && !p.rackSrcOk (gLocal src) len then
    ((p.rackDenied s (gLocal src) pair false).rckErr s 2 c pair src).rackRefuse s c pair dst ev sig
  else if !far dst && !p.rackDstOk (gLocal dst) len then
    ((p.rackDenied s (gLocal dst) pair true).rckErr s 2 c pair dst).rackRefuse s c pair dst ev sig
  else
    let remote := far src || far dst
    let t : Transfer := ⟨tag, c, pair, src, dst, len, ev, sig, if remote then 1 else 0, rackCut dst len, [], false⟩
    let r := p.rck s
    let p := p.setRck s { r with transfers := r.transfers ++ [t] }
    let p := p.peak (RCK_STAT_PEAK s) (p.rck s).transfers.length
    if remote then
      let g := if far src then src else dst
      let p := p.bump (RCK_STAT_REMOTE s) 1
      (p.sendPacket (gChip g) 0 0 (rackRef s tag 0) 0
        (leBytes 8 g ++ leBytes 4 len ++ leBytes 4 pair ++ leBytes 1 (b2n (far dst)) ++ leBytes 47 0)).sentFor pair 64
    else p

/-- RACK (R130): it takes a tag, or stalls while none is free.
DEDUCED (log 59, unsafe): RCK_STAT_TAGSTALL counts each attempt of a RACK that finds no tag; RACK with RCK_CTRL.enable = 0 is refused with a record of block 7, event 131. -/
def execRack (core : BitVec 13) (f : RackF) (s : State) : Answer :=
  let ra := f.ra.toNat
  let rb := f.rb.toNat
  s.run fun p => p.issue core.toNat [f.rc.toNat, ra, ra + 1, rb, rb + 1] fun p =>
    let c := core.toNat
    let k := p.core c
    let x := coreSector c
    if ra % 2 = 1 ∨ rb % 2 = 1 then p.faultNow c 1
    else
      match (p.rck x).freeTag with
      | none => (p.bump (RCK_STAT_TAGSTALL x) 1).modCore c Core.stall
      | some tag =>
        (p.takeRack c k.pair (k.pairAddr ra) (k.pairAddr rb) (k.reg f.rc.toNat) f.ev.toNat f.sig.toNat tag).modCore c Core.next

/-- Units of a transfer carried poison (R314): noted once. -/
def Transfer.carry (t : Transfer) (gs : List (List Byte × Option Nat)) : Transfer :=
  { t with poisonSeen := t.poisonSeen || (firstPoison gs).isSome }

/-- Write a unit at its destination on this part. -/
def Part.rackWrite (p : Part) (s : Nat) (t : Transfer) (off : Nat) (gs : List (List Byte × Option Nat)) : Part :=
  (p.unitGrans 7 t.pair (gLocal t.dst + off) gs).bump (RCK_STAT_BYTES s) (32 * gs.length)

/-- The poison flags of granules, from granule `base` of a payload on. -/
def rackFlags (base : Nat) (gs : List (List Byte × Option Nat)) : Nat :=
  ((List.range gs.length).zip gs).foldl (fun a q => if q.2.2.isSome then a + 2 ^ (base + q.1) else a) 0

/-- The bytes of granules, a poisoned one holding its token. -/
def rackBytes (gs : List (List Byte × Option Nat)) : List Byte :=
  gs.flatMap fun g => match g.2 with
    | some t => tokenBytes t
    | none => g.1

/-- Granules from a payload and its flags. -/
def payloadGrans (flags base : Nat) (bs : List Byte) : List (List Byte × Option Nat) :=
  let cs := chunks 32 (bs.length / 32 + 1) bs
  ((List.range cs.length).zip cs).map fun q => (q.2, if bit flags (base + q.1) then some (leNat q.2) else none)

/-- Ask for or push units while fewer than 32 of the transfer, and 512 of the sector, are outstanding (R312, R313). -/
def Part.pullUnits (fuel : Nat) (p : Part) (s : Nat) (t : Transfer) : Part :=
  match fuel with
  | 0 => p
  | fuel + 1 =>
    match t.units with
    | [] => p
    | u :: rest =>
      if t.waiting.length ≥ 32 || (p.rck s).buffered ≥ 512 then p
      else
        let u := t.place u
        let t := { t with units := rest, waiting := t.waiting ++ [u] }
        let p := (p.setXfer s t).sendPacket (gChip t.src) 0 1 (rackRef s t.tag u.1) 0
          (leBytes 8 (t.src + u.2.1) ++ leBytes 4 u.2.2 ++ leBytes 4 t.pair ++ leBytes 16 0)
        Part.pullUnits fuel (p.sentFor t.pair 32) s t

/-- The reply to a pull of one of a transfer's units. -/
def Part.pullReply (p : Part) (s : Nat) (t : Transfer) : Option (Packet × (Nat × Nat × Nat)) :=
  t.waiting.findSome? fun u =>
    (p.fab.rx.find? fun q => q.cls == 1 && q.kind == 1 && q.src == gChip t.src && q.ref == rackRef s t.tag u.1).map fun q => (q, u)

/-- Move one unit of a transfer (R312): within this part, out to another part, or in from a reply. -/
def Part.moveUnit (p : Part) (s : Nat) (t : Transfer) : Part :=
  if t.stage = 3 then
    match p.pullReply s t with
    | none => p.pullUnits 32 s t
    | some (q, u) =>
      let gs := payloadGrans q.poison 0 (q.payload.take u.2.2)
      let t := ({ t with waiting := t.waiting.erase u }).carry gs
      let p := ((p.takeRx q).rackWrite s t u.2.1 gs).setXfer s t
      p.pullUnits 32 s t
  else if t.stage = 1 || !p.serves then p
  else
    match t.units with
    | [] => p
    | u :: rest =>
      if t.stage = 2 && t.waiting.length ≥ 32 then p
      else
        let (gs, p) := p.loadGrans 7 t.pair (gLocal t.src + u.2.1) u.2.2
        let t := ({ t with units := rest }).carry gs
        if t.stage = 0 then (p.rackWrite s t u.2.1 gs).setXfer s t
        else
          let u := t.place u
          let head := leBytes 8 (t.dst + u.2.1) ++ leBytes 4 u.2.2 ++ leBytes 4 t.pair ++ leBytes 4 (rackRef s t.tag u.1) ++ leBytes 12 0
          let (_, p) := p.sendBlock (gChip t.dst) 0 (rackFlags 1 gs) (head ++ rackBytes gs)
          ((p.sentFor t.pair (32 + u.2.2)).setXfer s { t with waiting := t.waiting ++ [u] }).bump (RCK_STAT_BYTES s) u.2.2

/-- RACK_UNIT_READ_DONE (R312): a unit of the transfer is whole in the buffer and goes to its destination. -/
def execRackUnitReadDone (sector : BitVec 2) (tag : Nat) (s : State) : Answer :=
  s.run fun p =>
    match p.xfer sector.toNat tag with
    | none => p
    | some t => if p.working then p.moveUnit sector.toNat t else p

/-- A packet of a class and kind that waits, its unit working. -/
def Part.waiting (p : Part) (cls kind : Nat) : Option Packet :=
  if p.working then p.fab.rx.find? fun q => q.cls == cls && q.kind == kind else none

/-- The sector that checks an access of another part to a local address. -/
def Part.checkSector (p : Part) (a : Nat) : Nat := if isHbm a then p.stack a / 2 else coreSector (windowCore a) % 4

/-- An access of another part that R304 or R50 refuses: counted, with an error record. -/
def Part.refuseRemote (p : Part) (a pair : Nat) (write : Bool) : Part :=
  let s := p.checkSector a
  if write && isWindow a then p.refuseExternal a pair
  else (p.denied s).err { mkErr 6 4 0 with sector := s, pair := pair, addr := p.gaddr a }

/-- REMOTE_RACK_OPEN (R313): the remote part checks the range and replies. -/
def execRemoteRackOpen (s : State) : Answer :=
  s.run fun p =>
    match p.waiting 0 0 with
    | none => p
    | some q =>
      let g := leAt q.payload 0 8
      let len := leAt q.payload 8 4
      let pair := leAt q.payload 12 4
      let push := leAt q.payload 16 1 == 1
      let ok := gChip g == p.chip && (if push then p.rackInOk (gLocal g) len else p.rackSrcOk (gLocal g) len)
      let p := p.takeRx q
      let p := if ok then p else p.refuseRemote (gLocal g) pair push
      p.sendPacket q.src 1 0 q.ref 0 (leBytes 32 (b2n ok))

/-- The sector and tag a reference names. -/
def refSector (ref : Nat) : Nat := fld ref 13 2
def refTag (ref : Nat) : Nat := fld ref 0 13

/-- RACK_OPEN_REPLY (R313): a refused transfer ends, and its signals are sent; an accepted one moves its units. -/
def execRackOpenReply (s : State) : Answer :=
  s.run fun p =>
    match p.waiting 1 0 with
    | none => p
    | some q =>
      let x := refSector q.ref
      let p := p.takeRx q
      match p.xfer x (refTag q.ref) with
      | none => p
      | some t =>
        if t.stage ≠ 1 then p
        else if leAt q.payload 0 1 = 1 then
          if gChip t.src = p.chip then p.setXfer x { t with stage := 2 }
          else
            let t := { t with stage := 3 }
            (p.setXfer x t).pullUnits 32 x t
        else
          let r := p.rck x
          let p := p.setRck x { r with transfers := r.transfers.filter fun y => y.tag != t.tag }
          let far := if gChip t.src = p.chip then t.dst else t.src
          (p.rckErr x 3 t.core t.pair far).rackRefuse x t.core t.pair t.dst t.ev t.sig

/-- RACK_PULL_REQUEST (R313): the remote part reads the unit whole and returns it. -/
def execRackPullRequest (s : State) : Answer :=
  s.run fun p =>
    match (if p.serves then p.waiting 0 1 else none) with
    | none => p
    | some q =>
      let a := gLocal (leAt q.payload 0 8)
      let len := leAt q.payload 8 4
      let pair := leAt q.payload 12 4
      let p := p.takeRx q
      if !p.rackSrcOk a len then p.refuseRemote a pair false
      else
        let (gs, p) := p.loadGrans 11 pair a len
        (p.sendPacket q.src 1 1 q.ref (rackFlags 0 gs) (rackBytes gs)).sentFor pair len

/-- RACK_PUSH_UNIT (R313): a pushed unit is written whole and acknowledged; one that the map refuses is discarded whole (R304). -/
def execRackPushUnit (s : State) : Answer :=
  s.run fun p =>
    match p.waiting 2 0 with
    | none => p
    | some q =>
      let a := gLocal (leAt q.payload 0 8)
      let len := leAt q.payload 8 4
      let pair := leAt q.payload 12 4
      let p := p.takeRx q
      if !p.rackInOk a len then p.refuseRemote a pair true
      else
        let p := p.unitGrans 11 pair a (payloadGrans q.poison 1 ((q.payload.drop 32).take len))
        p.sendPacket q.src 1 5 (leAt q.payload 16 4) 0 (leBytes 32 0)

/-- RACK_PUSH_ACK (R314): the destination has a unit of a push. -/
def execRackPushAck (s : State) : Answer :=
  s.run fun p =>
    match p.waiting 1 5 with
    | none => p
    | some q =>
      let x := refSector q.ref
      let p := p.takeRx q
      match p.xfer x (refTag q.ref) with
      | none => p
      | some t => p.setXfer x { t with waiting := t.waiting.filter fun u => u.1 != q.ref >>> 15 }

/-- RACK_COMPLETE (R314): every unit is visible, so the signals are sent and the tag frees. -/
def execRackComplete (sector : BitVec 2) (tag : Nat) (s : State) : Answer :=
  s.run fun p =>
    let x := sector.toNat
    match p.xfer x tag with
    | none => p
    | some t =>
      if !p.working || t.stage = 1 || !t.units.isEmpty || !t.waiting.isEmpty then p
      else
        let r := p.rck x
        let p := p.setRck x { r with transfers := r.transfers.filter fun y => y.tag != tag }
        let p := if t.poisonSeen then p.rckErr x 4 t.core t.pair t.src else p
        (p.rackSignals t.core t.pair t.dst t.ev t.sig).bump (RCK_STAT_XFER x) 1

/-- The oldest LDG or STG of another part that waits, its unit working (R309). -/
def Part.irrRequest (p : Part) : Option Packet :=
  if p.serves then p.fab.rx.find? fun q => q.cls == 0 && (q.kind == 3 || q.kind == 4) else none

/-- REMOTE_LDG_STG (R304, R308, R309): a word of this part for another part; a refused LDG receives 0 and a refused STG is
discarded. -/
def execRemoteLdgStg (s : State) : Answer :=
  s.run fun p =>
    match p.irrRequest with
    | none => p
    | some q =>
      let a := gLocal (leAt q.payload 0 8)
      let v := leAt q.payload 8 4
      let pair := leAt q.payload 12 4
      let s := p.checkSector a
      let p := p.takeRx q
      if q.kind = 3 then
        if !p.mayRead a 4 then (p.refuseRemote a pair false).sendPacket q.src 1 3 q.ref 0 (leBytes 32 (2 ^ 32))
        else
          let ((w, t), p) := (p.bump (MEM_STAT_LDG s) 1).loadN 11 pair a 4
          let body := match t with
            | some t => tokenBytes t
            | none => leBytes 32 w
          (p.sendPacket q.src 1 3 q.ref (b2n t.isSome) body).sentFor pair 32
      else
        let ok := p.mayInbound a 4
        let p :=
          if ok then (p.bump (MEM_STAT_LDG s) 1).unitStore 11 pair a (leBytes 4 v) none
          else p.refuseRemote a pair true
        p.sendPacket q.src 1 4 q.ref 0 (leBytes 32 (if ok then 0 else 2 ^ 32))

end Sys2Proof.Machine
end

