-- ==== Sys2Proof/Machine/RegView.lean ====
section
/-!
DEFINITION. What a read of a register returns (R13, R15, R395): the value kept for it, or for a register that shows a unit's state, that
state.
-/
namespace Sys2Proof.Machine

/-- Registers whose value is computed from a unit's state: the offset of the first, how many, their stride, and the value of each. -/
structure View where
  base : Nat
  n : Nat
  stride : Nat
  value : Nat → Nat

/-- The value a list of views gives for an offset. -/
def viewAt (l : List View) (off : Nat) : Option Nat :=
  l.findSome? fun v =>
    if v.base ≤ off ∧ off < v.base + v.n * v.stride ∧ (off - v.base) % v.stride = 0 then some (v.value ((off - v.base) / v.stride)) else none

/-- A view of one register. -/
def view1 (base : Nat) (v : Nat) : View := ⟨base, 1, 4, fun _ => v⟩

/-- The views of a core's sub-block (R77). -/
def Part.coreViews (p : Part) (c : Nat) : List View :=
  let k := p.core c
  [ view1 (COR_STATUS c) k.status, view1 (COR_PC c) (k.pc % 65536), view1 (COR_ACC_STATE c) k.accState, view1 (COR_FTQ c) k.ftqReg,
    view1 (COR_ARRIVED c) k.arrived, view1 (COR_CYCLE c) p.cycle, ⟨COR_EV_COUNT c 0, 8, 4, k.evCount⟩ ]

/-- SCH_QSTAT (R187). -/
def Part.qStat (p : Part) (s q : Nat) : Nat :=
  let x := p.queue s q
  let st := if !p.queueOn s q then 0 else if x.violated then 3 else if x.closed then 2 else 1
  st <<< 30 + b2n x.stale <<< 29 + x.waiting.length <<< 13 + x.ready.length

/-- SCH_STATUS.preloading (R184, R187): from cycle 128 on until the preload is complete, where the list holds something. -/
def Part.preloading (p : Part) (s : Nat) : Bool :=
  p.schOn s && p.inFrame && 128 ≤ p.frameCycle && p.getF (SCH_PRELOAD s p.kind) 48 15 != 0 && !(p.sch s).loaded

/-- SCH_FLOW (R187). -/
def Part.flowReg (p : Part) (s f : Nat) : Nat :=
  let x := spGet .reset (p.sch s).flows f
  b2n x.broken <<< 48 + (((p.sch s).held.filter fun d => dFlow d.bytes == some f).length <<< 32) + x.next

/-- SCH_TICKET (R187). -/
def Part.ticketReg (p : Part) (s i : Nat) : Nat :=
  let k := p.core (2048 * s + i)
  b2n k.endSeen <<< 17 + b2n (k.st == .inAsk) <<< 16 + p.ticket (2048 * s + i) % 65536

/-- The pending rows of a table homed in a sector. -/
def Part.pendingOf (p : Part) (s t : Nat) : Nat := (p.pendingBits s (p.tbl t)).length

/-- The views of a sector (R187, R222, R224, R255, R285, R286, R323). -/
def Part.sectorViews (p : Part) (s : Nat) : List View :=
  let u := p.unit s
  let r := p.rck s
  [ view1 (SCH_STATUS s) (b2n p.inFrame + 2 * b2n (p.preloading s) + 4 * b2n (p.phase == 3)),
    ⟨SCH_QSTAT s 0, 16384, 4, p.qStat s⟩,
    ⟨SCH_DC s 0, 8192, 4, fun j => p.dcVal s (2 * j) + p.dcVal s (2 * j + 1) <<< 16⟩,
    ⟨SCH_FLOW s 0, 4096, 8, p.flowReg s⟩,
    ⟨SCH_TICKET s 0, 2048, 4, p.ticketReg s⟩,
    view1 (SMP_STATUS s) (u.smpQ.length <<< 8 + u.active 0),
    view1 (GSE_STATUS s) (u.outstanding <<< 16 + (u.gatQ.length + u.scaQ.length) <<< 8 + (u.active 1 + u.active 2)),
    view1 (TBL_STATUS s) (b2n ((List.range 256).any fun t => p.pendingOf s t != 0) <<< 16 + u.lkpQ.length <<< 8 + u.active 3),
    ⟨TBL_TPEND s 0, 256, TBL_TPEND s 1 - TBL_TPEND s 0, fun t => p.getF (TBL_TPEND s t) 63 1 <<< 63 + p.pendingOf s t⟩,
    view1 (PRS_STATUS s) (p.pressStage s),
    view1 (OPT_STATUS s) (b2n (p.unitBusy s 0) + 2 * b2n (p.unitBusy s 1)),
    view1 (RCK_STATUS s) (r.transfers.length <<< 16 + r.buffered) ]

/-- The ports in one of the states given. -/
def Part.portsIn (p : Part) (l : List Nat) : Nat := ((List.range 34).filter fun n => l.contains (p.pstate n)).length

/-- OBS_ERRREC: word `w` of the record that slot `i` of the ring holds (R495, R519). -/
def Part.recWord (p : Part) (i w : Nat) : Nat :=
  match p.obs.recs.find? fun e => e.seq % 4096 == i with
  | some e => leAt e.bytes (8 * w) 8
  | none => 0

/-- PWR_GPIO (R545, R549): a pin that drives reads its own level, any other the level on the pin. -/
def Part.gpioReg (p : Part) : Nat :=
  let oe := p.getF PWR_GPIO 8 8
  putFld (p.rd PWR_GPIO) 16 8 ((p.getF PWR_GPIO 0 8 &&& oe) ||| (p.power.gpioIn &&& (255 - oe)))

/-- TIK_STAT_HOLD (R47): the holds that are over and what has passed of the one in force. -/
def Part.holdCycles (p : Part) : Nat :=
  let held := if p.role = 0 then p.getB TIK_STATUS 9 else !p.tick.holds.isEmpty
  p.rd TIK_STAT_HOLD + (if held then p.cycle - p.tick.holdSince else 0)

/-- The views of the hub (R47, R356, R385, R422, R519, R549).
DEDUCED (log 125, unsafe): OBS_STATUS.mode and dup_spares and OBS_SSTATUS.spares show their reset value 0 (R520) until the first tick, and the mode in force and the spares from then on (R483). -/
def State.hubViews (s : State) : List View :=
  let p := s.p
  let spares := (sectors.map fun x => (p.dupSpares s.fuses.spares x).length).foldl (· + ·) 0
  let shown := p.rd OBS_STATUS / 8 % 8 * 8
  [ view1 FAB_STATUS (p.portsIn [5] <<< 24 + p.portsIn [7, 8, 9] <<< 16 + p.rd FAB_STATUS % 8 / 4 * 4 +
      2 * b2n (p.getB FAB_CTRL 0 && p.portsIn [2, 3, 4] == 0) + b2n (p.portsIn [2, 3, 4] != 0)),
    view1 FAB_FLAG p.heldFlags,
    view1 RED_STATUS (p.buckets.filter fun (e : Nat × Bucket) => e.2.stage != 0 && e.2.stage != 14).length,
    ⟨RED_BKT_STATE 0, 4096, RED_BKT_STATE 1 - RED_BKT_STATE 0, p.bktState⟩,
    ⟨HIF_Q_STATE 0, 8, 0x40, p.qState⟩,
    ⟨HIF_IN_STATE 0, 16, 0x40, p.inState⟩,
    view1 OBS_STATUS (if p.inFrame then shown + p.checkMode + spares <<< 20 else shown),
    view1 TIK_STAT_HOLD p.holdCycles,
    view1 PWR_RESET_CAUSE s.resetCause,
    view1 PWR_GPIO p.gpioReg,
    ⟨OBS_SCAN_DATA 0, 1024, 4, fun j => if p.obs.frozen then leAt (p.scanWindow p.fresh.1) (4 * j) 4 else 0⟩,
    ⟨OBS_ERRREC 0 0, 65536, 8, fun i => p.recWord (i / 16) (i % 16)⟩ ]

/-- The values that R392 and R393 give the configuration space and the BARs; where their capabilities' own layouts place them is CXL's
and PCI Express's. -/
structure ConfigSpace where
  vendor : Nat
  device : Nat
  classCode : Nat
  headerType : Nat
  interruptPin : Nat
  noSoftReset : Bool
  serial : Nat
  cacheCapable : Bool
  memCapable : Bool
  hdmCount : Nat
  rangeSize : Nat
  memInfoValid : Bool
  memActive : Bool
  locatorOffset : Nat
  grade : Nat
  fabId : Nat
  mapVersion : Nat
  bar0Size : Nat
  bar2 : Nat
  bar4Size : Option Nat
  deriving DecidableEq, Repr

/-- What configuration space shows (R388, R392, R393): no interrupt pin, and BAR4/5 in PCIe mode alone. -/
def Part.config (p : Part) : ConfigSpace :=
  { vendor := 0x1F6E, device := if p.big then 0x6144 else 0x5120, classCode := 0x120000, headerType := 0, interruptPin := 0,
    noSoftReset := true, serial := p.rd MGT_SERIAL, cacheCapable := true, memCapable := true, hdmCount := 1, rangeSize := hbmTop,
    memInfoValid := p.hif.memInfoValid, memActive := p.hif.memActive, locatorOffset := 0x10000, grade := if p.big then 6144 else 5120,
    fabId := p.rd FAB_ID, mapVersion := 1, bar0Size := 2 ^ 26, bar2 := 0,
    bar4Size := if p.getB HIF_STATUS 0 then none else some (2 ^ 39) }

/-- The bits of a register that read back: write-only bits read zero (R15). -/
def readable (r : RegRow) (v : Nat) : Nat := v &&& (2 ^ 64 - 1 - r.wo)

/-- The value of the register that starts at an offset; the sub-blocks of cores outside the grade read zero (R77). -/
def State.regValue (s : State) (off : Nat) (r : RegRow) : Nat :=
  let p := s.p
  let sec := secOf off
  let o := (off - 0x2000000) % 0x800000
  let c := 2048 * sec + o / 0x400
  let views :=
    if off < 0x2000000 then s.hubViews
    else if o < 0x200000 then p.coreViews c
    else p.sectorViews sec ++
      [view1 (OBS_SSTATUS sec) (p.getF (OBS_SSTATUS sec) 9 9 <<< 9 + (if p.inFrame then s.fuses.spares sec else 0))]
  if 0x2000000 ≤ off && o < 0x200000 && !p.validCore c then 0 else readable r ((viewAt views off).getD (p.rd off))

/-- A BAR0 read (R13, R395): a whole register, or 32 bits of a 64-bit one; any other access reads zero.
DESIGN CHOICE (log 17, unsafe): A BAR0 or stack read is a function of the state, not a command: the table has no row for one. -/
def State.readReg (s : State) (off size : Nat) : Nat :=
  if (size ≠ 4 ∧ size ≠ 8) ∨ off % size ≠ 0 then 0
  else
    match regAt off, regAt (off - 4) with
    | some r, _ => if r.bytes = size then s.regValue off r else if size = 4 then s.regValue off r % 2 ^ 32 else 0
    | none, some r => if size = 4 ∧ r.bytes = 8 ∧ off % 8 = 4 then s.regValue (off - 4) r >>> 32 else 0
    | none, none => 0

/-- A read touches a register (R13): a whole one, or either half of a 64-bit one. -/
def readTouches (off size : Nat) : Bool :=
  (size == 4 || size == 8) && off % size == 0 &&
    match regAt off, regAt (off - 4) with
    | some r, _ => r.bytes == size || size == 4
    | none, some r => size == 4 && r.bytes == 8 && off % 8 == 4
    | none, none => false

/-- OBS_SCAN_DATA outside a freeze (R515): a read returns zero and counts. -/
def Part.scanShut (p : Part) (off : Nat) : Bool := !p.obs.frozen && OBS_SCAN_DATA 0 ≤ off && off < OBS_SCAN_DATA 1024

/-- A BAR0 read with what it leaves (R13, R395, R515): one that touches no register reads zero and counts. -/
def State.bar0Read (s : State) (off size : Nat) : Nat × State :=
  (s.readReg off size, if readTouches off size && !s.p.scanShut off then s else { s with p := s.p.bump HIF_STAT_ACCERR 1 })

end Sys2Proof.Machine
end

