-- ==== Sys2Proof/Machine/Jtag.lean ====
section
/-!
DEFINITION. The TAP (R515, R546). `Tap.ir` numbers the instructions 0 IDCODE, 1 BYPASS, 2 SAMPLE/PRELOAD, 3 EXTEST, 4 CLAMP, 5 HIGHZ,
6 EXTEST_PULSE, 7 EXTEST_TRAIN, 8 SCAN_WIN; `Tap.out` is what the selected data register shifts out, `Tap.sample` what is preloaded and
`Tap.driven` what the boundary cells drive onto the pins, none where the part drives them itself.
-/
namespace Sys2Proof.Machine

/-- The IDCODE of the grade (R546). -/
def idCode (big : Bool) : Nat := if big then 0x16144A3D else 0x15120A3D

/-- The TAP takes an instruction, while the part has power. -/
def State.tapRun (s : State) (f : Part → Tap → Tap × Part) : Answer :=
  s.run fun p =>
    if !p.pgood then p
    else
      let (t, p) := f p p.power.tap
      p.modPower fun w => { w with tap := t }

/-- What the boundary cells capture: the levels of pins, whose order in the chain the spec does not state. -/
def Part.captureCells (p : Part) : List Byte × Part :=
  let (u, p) := p.fresh
  (Config.freeBytes u 128, p)

/-- BYPASS (R546): the one-bit register shifts out a zero.
PRESUMED (log 114, unsafe): The TAP: IDCODE is selected after its reset, BYPASS, CLAMP and HIGHZ select the one-bit register, the boundary cells' order and number are open. -/
def execBypass (s : State) : Answer := s.tapRun fun p t => ({ t with ir := 1, driven := [], out := [0#8] }, p)

/-- IDCODE (R546). -/
def execIdcode (s : State) : Answer := s.tapRun fun p t => ({ t with ir := 0, driven := [], out := leBytes 4 (idCode p.big) }, p)

/-- SAMPLE/PRELOAD (R546): the pins are captured and the cells are preloaded; the part goes on driving its pins. -/
def execSamplePreload (cells : List Byte) (s : State) : Answer :=
  s.tapRun fun p t =>
    let (bs, p) := p.captureCells
    ({ t with ir := 2, sample := cells, driven := [], out := bs }, p)

/-- EXTEST (R546): the cells drive the pins, and the input pins are captured. -/
def execExtest (cells : List Byte) (s : State) : Answer :=
  s.tapRun fun p t =>
    let (bs, p) := p.captureCells
    ({ t with ir := 3, sample := cells, driven := cells, out := bs }, p)

/-- CLAMP (R546): the preloaded cells drive the pins, with the bypass register selected. -/
def execClamp (s : State) : Answer := s.tapRun fun p t => ({ t with ir := 4, driven := t.sample, out := [0#8] }, p)

/-- HIGHZ (R546): no pin drives, with the bypass register selected. -/
def execHighz (s : State) : Answer := s.tapRun fun p t => ({ t with ir := 5, driven := [], out := [0#8] }, p)

/-- EXTEST_PULSE (R546): as EXTEST, with a pulse on the AC-coupled lanes. -/
def execExtestPulse (cells : List Byte) (s : State) : Answer :=
  s.tapRun fun p t =>
    let (bs, p) := p.captureCells
    ({ t with ir := 6, sample := cells, driven := cells, out := bs }, p)

/-- EXTEST_TRAIN (R546): as EXTEST, with a train of pulses on the AC-coupled lanes. -/
def execExtestTrain (cells : List Byte) (s : State) : Answer :=
  s.tapRun fun p t =>
    let (bs, p) := p.captureCells
    ({ t with ir := 7, sample := cells, driven := cells, out := bs }, p)

/-- SCAN_WIN (R515): the private instruction selects the scan window, which shifts out. -/
def execScanWin (s : State) : Answer :=
  s.tapRun fun p t =>
    let (bs, p) := p.scanRead
    ({ t with ir := 8, driven := [], out := bs }, p)

end Sys2Proof.Machine
end

