-- ==== Sys2Proof/Machine/MgtOps.lean ====
section
/-!
DEFINITION. How the controller answers a vendor-defined command (R465 to R467), and error records in CBOR (R499).
-/
namespace Sys2Proof.Machine

/-- The connection of a transport. -/
def Mgt.conn (m : Mgt) (via : Transport) : Spdm := if via = .smbus then m.smb else m.cxl
/-- Replace the connection of a transport. -/
def Mgt.setConn (m : Mgt) (via : Transport) (x : Spdm) : Mgt := if via = .smbus then { m with smb := x } else { m with cxl := x }
/-- The session bits of MGT_STATUS: an owner session is open (R482). -/
def Part.showSessions (p : Part) : Part :=
  (p.putB MGT_STATUS 10 (p.mgt.smb.session && p.mgt.smb.mutAuth)).putB MGT_STATUS 11 (p.mgt.cxl.session && p.mgt.cxl.mutAuth)
/-- Change the connection of a transport. -/
def Part.modConn (p : Part) (via : Transport) (f : Spdm → Spdm) : Part :=
  (p.modMgt fun m => m.setConn via (f (m.conn via))).showSessions

/-- The transport reaches the controller: SMBus always, CXL.io while the link is up. -/
def Part.reaches (p : Part) (via : Transport) : Bool := p.pgood && (via == .smbus || p.hif.linkUp)

/-- A command inside a session that completed mutual authentication (R466). -/
def Part.byOwner (p : Part) (m : MgtReq) : Bool := m.inSession && (p.mgt.conn m.via).session && (p.mgt.conn m.via).mutAuth

/-- The owner principal (R466): such a command, while an owner is installed. -/
def State.fromOwner (s : State) (m : MgtReq) : Bool := s.nv.owner.isSome && s.p.byOwner m

/-- The controller sends a message. -/
def Part.reply (p : Part) (via : Transport) (bytes : List Byte) : Part :=
  (p.modMgt fun m => { m with out := m.out ++ [⟨via, bytes⟩] }).modConn via fun c => { c with last := p.cycle }

/-- The response to a command (R467): command, tag, completion code and data; each answered command counts, and a denial too (R466).
DESIGN CHOICE (log 101, unsafe): The layout of response data: the fields in the order R467 and R473 name them, little-endian, with the widths of their registers; the MCTP vendor header is not part of the message kept. -/
def Part.respond (p : Part) (m : MgtReq) (cmd code : Nat) (data : List Byte) : Part :=
  let p := p.bump MGT_STAT_CMD 1
  let p := if code = 2 then (p.bump MGT_STAT_DENY 1).putB MGT_STICKY 3 true else p
  p.reply m.via ([BitVec.ofNat 8 cmd, m.tag, BitVec.ofNat 8 code] ++ data)

/-- What a command's work gives: its completion code, the data of its response, and the state. -/
abbrev Work := Nat × List Byte × State

/-- A command that is answered with a code and changes nothing. -/
def State.only (s : State) (code : Nat) : Work := (code, [], s)

/-- Answer a command (R465 to R467): busy when 16 wait, denied where `may` does not hold, else with what `f` does. -/
def State.command (s : State) (m : MgtReq) (cmd : Nat) (ready may : Bool) (f : State → Work) : Answer :=
  if !s.p.reaches m.via || !ready then .next s
  else if m.waiting ≥ 16 then .next { s with p := s.p.respond m cmd 3 [] }
  else if !may then .next { s with p := s.p.respond m cmd 2 [] }
  else
    let (code, data, t) := f s
    .next { t with p := t.p.respond m cmd code data }

/-- The running firmware answers commands.
DEDUCED (log 104, unsafe): The management controller answers while the part is in the stop state. -/
def Part.answers (p : Part) : Bool := p.mgt.ready && !p.mgt.stopped
/-- The boot ROM answers the update commands (R458). -/
def Part.inRecovery (p : Part) : Bool := p.getF MGT_STATUS 12 4 == 5

/-- A command for any requester. -/
def State.publicCommand (s : State) (m : MgtReq) (cmd : Nat) (f : State → Work) : Answer := s.command m cmd s.p.answers true f
/-- A command for the owner principal. -/
def State.ownerCommand (s : State) (m : MgtReq) (cmd : Nat) (f : State → Work) : Answer := s.command m cmd s.p.answers (s.fromOwner m) f
/-- An update command: for the owner, or in recovery for any requester on SMBus (R458, R460).
DEDUCED (log 98, unsafe): The update commands are answered in recovery on SMBus alone; FW_ACTIVATE and FW_COMMIT_SVN there answer code 5. -/
def State.updateCommand (s : State) (m : MgtReq) (cmd : Nat) (f : State → Work) : Answer :=
  if s.p.inRecovery then s.command m cmd (m.via == .smbus) true f else s.ownerCommand m cmd f

/-- A CBOR head in deterministic encoding (RFC 8949): major type and argument. -/
def cborHead (major n : Nat) : List Byte :=
  let t := 32 * major
  if n < 24 then [BitVec.ofNat 8 (t + n)]
  else if n < 256 then BitVec.ofNat 8 (t + 24) :: beBytes 1 n
  else if n < 2 ^ 16 then BitVec.ofNat 8 (t + 25) :: beBytes 2 n
  else if n < 2 ^ 32 then BitVec.ofNat 8 (t + 26) :: beBytes 4 n
  else BitVec.ofNat 8 (t + 27) :: beBytes 8 n

/-- The fields of a record by CBOR key (R496). -/
def ErrRec.cborFields (e : ErrRec) : List (Nat × Nat) :=
  [(1, e.seq), (2, e.chip), (3, e.block), (4, e.event), (5, e.severity), (6, e.sector), (7, e.core), (8, e.tick), (9, e.frame),
   (10, e.pair >>> 16), (11, e.pair % 65536), (12, e.cycle), (13, e.addr), (14, e.aux), (15, e.char0), (16, e.char1), (17, e.loc0),
   (18, e.loc1), (19, e.count)]

/-- The CBOR form of a record (R499): keys 1 to 5 always, any other where its field is not zero, and the signature as a byte string. -/
def ErrRec.cbor (e : ErrRec) : List Byte :=
  let fs := e.cborFields.filter fun f => f.1 ≤ 5 || f.2 != 0
  let sig := if allZero e.signature then [] else cborHead 0 20 ++ cborHead 2 8 ++ e.signature
  cborHead 5 (fs.length + b2n (!sig.isEmpty)) ++ (fs.flatMap fun f => cborHead 0 f.1 ++ cborHead 0 f.2) ++ sig

/-- As many records as a message of `room` bytes holds, oldest first. -/
def fitRecords (room : Nat) (l : List ErrRec) : List Byte :=
  match l with
  | [] => []
  | e :: r =>
    let bs := e.cbor
    if bs.length ≤ room then bs ++ fitRecords (room - bs.length) r else []

end Sys2Proof.Machine
end

