-- ==== Sys2Proof/Machine/MgtUnit.lean ====
section
/-!
DEFINITION. The vendor-defined commands of the controller (R460, R465 to R468, R472, R475, R504).
-/
namespace Sys2Proof.Machine

/-- GET_INFO (R467). -/
def execGetInfo (m : MgtReq) (s : State) : Answer :=
  s.publicCommand m 0x01 fun s =>
    let p := s.p
    (0, leBytes 2 (if p.big then 6144 else 5120) ++ leBytes 8 (p.rd MGT_SERIAL) ++ leBytes 8 (p.rd MGT_FW) ++ leBytes 4 (p.rd MGT_STATUS) ++
      leBytes 4 (p.rd FAB_ID), s)

/-- GET_TELEMETRY (R467, R473). -/
def execGetTelemetry (m : MgtReq) (s : State) : Answer :=
  s.publicCommand m 0x02 fun s =>
    let p := s.p
    (0, leBytes 4 (p.rd MGT_TEL_VIN) ++ leBytes 4 (p.rd MGT_TEL_PIN) ++ leBytes 4 (p.rd MGT_TEL_TEMP) ++ leBytes 8 (p.rd MGT_TEL_TICK) ++
      ([0, 1, 2, 3].flatMap fun i => leBytes 8 (p.rd (MGT_TEL_E i))) ++ ([0, 1, 2, 3].flatMap fun i => leBytes 4 (p.rd (MGT_TEL_T i))) ++
      ((List.range 17).flatMap fun r => leBytes 8 (p.rd (PWR_RAIL r))), s)

/-- GET_ERRREC (R467, R499): records from a sequence number, as many as a message of 1,024 bytes holds (R464). -/
def execGetErrrec (m : MgtReq) (seq : Nat) (s : State) : Answer :=
  s.publicCommand m 0x03 fun s => (0, fitRecords 1021 ((s.p.obs.recs.filter fun e => e.seq ≥ seq).reverse), s)

/-- GET_LIMITS (R467). -/
def execGetLimits (m : MgtReq) (s : State) : Answer :=
  s.publicCommand m 0x04 fun s =>
    let p := s.p
    (0, leBytes 4 (p.rd MGT_PLIM) ++ leBytes 4 (p.rd MGT_PLIM_HOST) ++ leBytes 4 (p.rd MGT_THERM) ++ leBytes 4 (p.rd MGT_POLICY), s)

/-- The limits are in their ranges (R467, R475). -/
def Part.limitsOk (p : Part) (watts dieC hbmC holdC : Nat) : Bool :=
  300 ≤ watts && watts ≤ 900 && 85 ≤ dieC && dieC ≤ 110 && 80 ≤ hbmC && hbmC ≤ 100 &&
    sectors.all (fun s => hbmC + 3 ≤ p.getF (MEM_THERM s) 0 8) && dieC + 5 ≤ holdC && holdC ≤ 118

/-- SET_LIMITS (R467, R474, R475).
DEDUCED (log 105, unsafe): MGT_PLIM.effective changes at once with the owner limit, at the tick with the host limit. -/
def execSetLimits (m : MgtReq) (watts dieC hbmC holdC : Nat) (s : State) : Answer :=
  s.ownerCommand m 0x10 fun s =>
    if !s.p.limitsOk watts dieC hbmC holdC then s.only 1
    else
      let p := s.p.modMgt fun x => { x with ownerW := watts, dieC := dieC, hbmC := hbmC, holdC := holdC }
      let p := p.wr MGT_THERM (holdC <<< 24 + hbmC <<< 16 + dieC <<< 8)
      let p := p.wr MGT_PLIM (p.effectiveLimit <<< 16 + watts)
      (0, [], { s with p := p })

/-- Change owner, keys or policy (R454, R472). -/
def State.setPolicyTo (s : State) (n : Nv) : State := { s with nv := n, p := s.p.showPolicy n }

/-- The key that 64 bytes spell: two big-endian coordinates of a point on the curve. -/
def pubKeyOf (bs : List Byte) : Option PubKey :=
  let k : PubKey := ⟨beNat (bs.take 32), beNat (bs.drop 32)⟩
  if bs.length = 64 ∧ p256OnCurve k then some k else none

/-- SET_GRAFT_KEY (R467, R468): none clears the slot; without an owner there is no owner principal, so no key can be installed. -/
def execSetGraftKey (m : MgtReq) (slot : Nat) (key : Option (List Byte)) (s : State) : Answer :=
  s.ownerCommand m 0x11 fun s =>
    if slot > 3 then s.only 1
    else
      match key with
      | none => (0, [], s.setPolicyTo (s.nv.setKey slot none))
      | some bs =>
        match pubKeyOf bs with
        | none => s.only 1
        | some k => (0, [], s.setPolicyTo (s.nv.setKey slot (some k)))

/-- SET_POLICY (R467). -/
def execSetPolicy (m : MgtReq) (signedOnly linkMatch : Bool) (minSvn : Nat) (s : State) : Answer :=
  s.ownerCommand m 0x12 fun s =>
    if minSvn > 63 then s.only 1
    else (0, [], s.setPolicyTo { s.nv with signedOnly := signedOnly, linkOwnerMatch := linkMatch, linkMinSvn := minSvn })

/-- Sessions that authenticated to an owner who is no longer the owner have no owner principal (R466).
DEDUCED (log 99, unsafe): A change of owner ends the owner principal of open sessions. -/
def Part.ownerGone (p : Part) : Part := (p.modConn .smbus fun c => { c with mutAuth := false }).modConn .cxl fun c => { c with mutAuth := false }

/-- OWNER_SET (R468): without an owner, over SMBus and outside a session; else by the owner.
DEDUCED (log 100, unsafe): OWNER_SET with no owner is accepted outside a session on SMBus alone; any other way it is denied. -/
def execOwnerSet (m : MgtReq) (digest : BitVec 256) (s : State) : Answer :=
  s.command m 0x13 s.p.answers (if s.nv.owner.isNone then m.via == .smbus && !m.inSession else s.fromOwner m) fun s =>
    let t := s.setPolicyTo { s.nv with owner := some digest }
    (0, [], { t with p := if s.nv.owner = some digest then t.p else t.p.ownerGone })

/-- The non-volatile store with no owner (R468). -/
def Nv.noOwner (n : Nv) : Nv :=
  { n with owner := none, key0 := none, key1 := none, key2 := none, key3 := none, signedOnly := false, linkOwnerMatch := false }

/-- OWNER_CLEAR (R468). -/
def execOwnerClear (m : MgtReq) (s : State) : Answer :=
  s.ownerCommand m 0x14 fun s =>
    let t := s.setPolicyTo s.nv.noOwner
    (0, [], { t with p := t.p.ownerGone })

/-- The slot that is not running. -/
def Part.spareSlot (p : Part) : Bool := !p.getB MGT_STATUS 0

/-- The bytes of the update so far: in SRAM in recovery, else in the slot that is not running (R458, R460). -/
def State.updBytes (s : State) : List Byte := if s.p.inRecovery then s.p.mgt.sram else (s.nv.slot s.p.spareSlot).bytes

/-- Replace the bytes of the update. -/
def State.putUpd (s : State) (bs : List Byte) (usable : Bool) : State :=
  if s.p.inRecovery then { s with p := s.p.modMgt fun x => { x with sram := bs } }
  else { s with nv := s.nv.setSlot s.p.spareSlot ⟨bs, usable⟩ }

/-- FW_BEGIN (R460): the whole image is `length` bytes, signature block and all.
DEDUCED (log 96, unsafe): FW_BEGIN's length is the whole image with its signature block, 320 bytes to 3 MiB, a multiple of 64; the 2 MiB of SRAM do not limit recovery. -/
def execFwBegin (m : MgtReq) (length : Nat) (s : State) : Answer :=
  s.updateCommand m 0x20 fun s =>
    if length % 64 ≠ 0 ∨ length < 320 ∨ length > 3 * 2 ^ 20 then s.only 1
    else
      let t := s.putUpd [] false
      (0, [], { t with p := t.p.modMgt fun x => { x with updLen := some length, updAt := 0, updOk := false } })

/-- FW_WRITE (R460): bytes that no chunk writes are what the store holds there, which the spec does not state.
DESIGN CHOICE (log 97, safe): Bytes that no FW_WRITE chunk covers are free bytes. -/
def execFwWrite (m : MgtReq) (offset : Nat) (chunk : List Byte) (s : State) : Answer :=
  s.updateCommand m 0x21 fun s =>
    match s.p.mgt.updLen with
    | none => s.only 5
    | some n =>
      if chunk.isEmpty ∨ chunk.length > 1024 ∨ offset < s.p.mgt.updAt ∨ offset + chunk.length > n then s.only 1
      else
        let gap := offset - s.p.mgt.updAt
        let (u, p) := s.p.fresh
        let fill := if gap = 0 then [] else fitBytes gap (Config.freeBytes u gap)
        let s := { s with p := if gap = 0 then s.p else p }
        let t := s.putUpd (s.updBytes ++ fill ++ chunk) false
        (0, [], { t with p := t.p.modMgt fun x => { x with updAt := offset + chunk.length, updOk := false } })

/-- The image of the update, whole and of the length announced. -/
def State.updImage (s : State) : Option (List Byte) :=
  match s.p.mgt.updLen with
  | none => none
  | some n => if s.updBytes.length = n then some s.updBytes else none

/-- A valid image in recovery goes to slot A and starts (R458). -/
def State.recoverWith (s : State) (bs : List Byte) : State := s.startFw { s.nv with slotA := ⟨bs, true⟩, preferred := false } false bs

/-- FW_VERIFY (R456, R460). -/
def execFwVerify (m : MgtReq) (s : State) : Answer :=
  s.updateCommand m 0x22 fun s =>
    if s.p.mgt.updLen.isNone then s.only 5
    else
      match s.updImage with
      | none => s.only 4
      | some bs =>
        if s.fuses.imageValid bs then
          if s.p.inRecovery then (0, [], s.recoverWith bs)
          else
            let t := s.putUpd bs true
            (0, [], { t with p := t.p.modMgt fun x => { x with updOk := true } })
        else if imageForm bs && imageSvn bs < s.fuses.svnMin then (4, [], { s with p := s.p.putB MGT_STICKY 2 true })
        else s.only 4

/-- FW_ACTIVATE (R460). -/
def execFwActivate (m : MgtReq) (s : State) : Answer :=
  s.updateCommand m 0x23 fun s =>
    if !s.p.mgt.updOk then s.only 5
    else
      (0, [], { s with nv := { s.nv with preferred := s.p.spareSlot, trial := true, trialBoots := 0 },
                       p := s.p.modMgt fun x => { x with updLen := none, updOk := false } })

/-- The fuses with the minimum security version raised (R455, R460). -/
def Fuses.burnSvn (f : Fuses) (svn : Nat) : Fuses := { f with svnBits := f.svnBits ||| BitVec.ofNat 64 (2 ^ svn - 1) }

/-- FW_COMMIT_SVN (R460). -/
def execFwCommitSvn (m : MgtReq) (s : State) : Answer :=
  s.updateCommand m 0x24 fun s =>
    match s.p.mgt.fw with
    | none => s.only 5
    | some fw =>
      if !s.p.mgt.afterTrial then s.only 5
      else
        let f := s.fuses.burnSvn fw.svn
        (0, [], { s with fuses := f, p := s.p.wr MGT_FW (fwReg f fw) })

/-- A pattern section is well formed (R505). -/
def patternOk (x : Section) : Bool :=
  let b := x.payload
  let code := leAt b 0 4
  let data := leAt b 4 4
  x.ty == 0x0101 && x.param < 65536 && b.length == 64 + code + data && code % 8 == 0 && code ≤ 16384 && data ≤ 131072 &&
    leAt b 8 4 + leAt b 12 4 ≤ data && leAt b 16 4 ≤ (if bit (leAt b 20 4) 0 then 4096 else 1000000) && leAt b 20 4 ≤ 1 && leAt b 24 8 == 0

/-- A key that may sign a package: an installed graft signer, or an unrevoked Tardin firmware signing key (R504). -/
def State.packageKey (s : State) (id : Nat) : Option PubKey :=
  match s.nv.keys.find? fun k => k.any fun key => keyId key == id with
  | some k => k
  | none => s.fuses.fwKey id

/-- A test-pattern package passes its checks (R431, R504, R505). -/
def State.packageOk (s : State) (c : Container) : Bool :=
  c.ty == 2 && (c.anyChip || c.chipId == s.p.rd FAB_ID) && (c.grade == 5120 || (c.grade == 6144 && s.p.big)) && c.sections.all patternOk &&
    (match s.packageKey c.keyId with
     | none => false
     | some k => ecdsaVerify k c.msg c.r c.s)

/-- A package is loaded (R504): four are held, and the digest chain of measurement 6 goes on. -/
def Part.loadPackage (p : Part) (bs : List Byte) (c : Container) : Part :=
  let pack : TestPack := ⟨sha256 bs, c.sections.map fun x => (x.param, x.payload), false⟩
  let p := p.modObs fun o => { o with packs := (pack :: o.packs).take 4 }
  p.modMgt fun x => { x with chain6 := sha256 (x.chain6 ++ sha256 bs) }

/-- TEST_LOAD (R504). -/
def execTestLoad (m : MgtReq) (container : List Byte) (s : State) : Answer :=
  s.ownerCommand m 0x30 fun s =>
    let bad : Work := (4, [], { s with p := s.p.stick OBS_STICKY 4 })
    if container.length > 2 ^ 20 then bad
    else
      match readContainer container with
      | .error _ => bad
      | .ok c => if s.packageOk c then (0, [], { s with p := s.p.loadPackage container c }) else bad

/-- MCTP_CONTROL_MESSAGE (R464). -/
def execMctpControlMessage (via : Transport) (eid : BitVec 8) (s : State) : Answer :=
  s.run fun p => if p.reaches via && p.answers then p.modConn via fun c => { c with eid := eid.toNat } else p

end Sys2Proof.Machine
end

