-- ==== Sys2Proof/Machine/PowerUnit.lean ====
section
/-!
DEFINITION. The steps of power, reset, clocks and pins (chapter 17).
-/
namespace Sys2Proof.Machine

/-- POWER_UP (R535, R545): the rails reach power good and the strap is sampled; a reset that began below 20.0 V records power_on alone
(R534). -/
def execPowerUp (strap : BitVec 3) (s : State) : Answer :=
  if s.p.pgood then .next s
  else
    let p := s.p.modPower fun w => { w with up := true, gpioIn := (w.gpioIn >>> 3) <<< 3 + strap.toNat }
    let p := (p.putB PWR_STATUS 5 true).putF PWR_GPIO 24 3 strap.toNat
    let p := p.each (List.range 17) fun p r => p.putB (PWR_RAIL r) 0 true
    .next { s with resetCause := if s.resetCause = 0 then 8 else s.resetCause, p := p }

/-- HBM_TRAINING_DONE (R535): CCLK starts, unless PWR_CTRL.cclk_stop holds it. -/
def execHbmTrainingDone (s : State) : Answer :=
  s.run fun p =>
    if !p.mgt.ready || p.power.hbmTrained || p.getB PWR_STATUS 7 then p
    else ((p.modPower fun w => { w with hbmTrained := true }).modHif fun h => { h with memInfoValid := true }).setClock (!p.getB PWR_CTRL 0)

/-- SUPPLY_WARNING (R526, R527): pin, sticky bit, count and record, and a hold where the part takes ticks; a warning under a hold only
counts.
DEDUCED (log 108, unsafe): A supply warning while a supply hold is in force only counts: no new sticky bit, no record.
DEDUCED (log 110, unsafe): A warning before power good is not seen by the model: POWER_UP is one step. -/
def execSupplyWarning (centivolts : Nat) (s : State) : Answer :=
  s.run fun p =>
    if !p.pgood || centivolts ≥ 3500 then p
    else
      let p := (((p.seeInput centivolts).putB PWR_STATUS 1 true).putB PWR_STATUS 3 false).modPower fun w => { w with recoverAt := none }
      let p := p.bump PWR_STAT_WARN 1
      if p.getB PWR_STATUS 2 then p
      else
        let p := p.pwrErr 0 0
        if p.getB TIK_CTRL 0 && p.running && p.clocked then p.supplyHold else p

/-- RECOVERY_TIMER (R528): the input has held 36.0 V for 1 ms.
DEDUCED (log 111, unsafe): RECOVERY_TIMER with no sample that showed the rise counts its 1 ms from the present cycle. -/
def execRecoveryTimer (centivolts : Nat) (s : State) : Answer :=
  s.run fun p =>
    if !p.pgood || centivolts < 3600 || !p.getB PWR_STATUS 1 then p
    else
      let p := p.seeInput centivolts
      let p := if p.clocked then p.clockTo ((p.power.recoverAt.getD p.cycle) + 1000000) else p
      let p := ((p.putB PWR_STATUS 1 false).putB PWR_STATUS 3 false).modPower fun w => { w with recoverAt := none }
      p.supplyRelease

/-- HOLD_REPEAT (R529). -/
def execHoldRepeat (s : State) : Answer :=
  s.run fun p =>
    if !p.clocked || p.repeatsDue.isEmpty then p
    else
      let t := minList p.repeatsDue
      (p.clockTo t).repeatHolds t

/-- UNDERVOLTAGE_RESET (R530): HBM and the rails are lost until POWER_UP. -/
def execUndervoltageReset (centivolts : Nat) (s : State) : Answer :=
  if centivolts ≥ 3200 then .next s else .next (s.resetBy 2 false)

/-- INPUT_FALLS_BELOW_20V (R534): the latches clear, and the part has no power. -/
def execInputFallsBelow20v (s : State) : Answer :=
  .next { s with resetCause := 0, p := s.p.partReset s.fuses.big false }

/-- RESET_N (R533). -/
def execResetN (s : State) : Answer := .next (s.resetBy 0 true)

/-- PERST_N (R533). -/
def execPerstN (s : State) : Answer := .next (s.resetBy 1 true)

/-- OVERVOLTAGE_FLAG (R522). -/
def execOvervoltageFlag (centivolts : Nat) (s : State) : Answer :=
  s.run fun p => if p.pgood && centivolts > 4450 then (p.seeInput centivolts).pwrErr 2 0 else p

/-- The nominal voltages of the rails in mV (R524). -/
def railNominal : List Nat := [750, 750, 750, 750, 850, 850, 850, 850, 750, 900, 1200, 1050, 500, 1800, 1800, 1800, 6000]

/-- A voltage lies within so many percent of a rail's nominal value. -/
def railWithin (rail mv percent : Nat) : Bool :=
  let n := nth railNominal rail 0
  100 * mv ≤ n * (100 + percent) && n * (100 - percent) ≤ 100 * mv

/-- RAIL_FAULT (R525, R531). -/
def execRailFault (rail millivolts : Nat) (s : State) : Answer :=
  s.run fun p =>
    if !p.pgood || rail ≥ 17 || railWithin rail millivolts 8 then p
    else
      let p := ((p.putF (PWR_RAIL rail) 8 16 millivolts).putB (PWR_RAIL rail) 1 true).putB (PWR_RAIL rail) 0 false
      ((p.seeRails [rail]).noteErr PWR_STICKY 3 { mkErr 16 3 4 with loc0 := rail }).enterStop

/-- FREFCLK_LOSS (R538). -/
def execFrefclkLoss (s : State) : Answer := s.run fun p => if p.pgood then (p.pwrErr 4 4).enterStop else p

/-- REFCLK100_LOSS (R538). -/
def execRefclk100Loss (s : State) : Answer := s.run fun p => if p.hif.linkUp then p.hostReset true else p

/-- THERMAL_TRIP (R478, R531, R532). -/
def execThermalTrip (sensor : Nat) (s : State) : Answer :=
  s.run fun p =>
    if !p.pgood || sensor ≥ 72 then p
    else
      let p := ((p.putB PWR_STATUS 6 true).putB MGT_STICKY 5 true).modPower fun w => { w with tripOut := true }
      (p.noteErr PWR_STICKY 5 { mkErr 16 5 4 with loc0 := sensor }).enterStop

/-- CCLK_STOP (R540). -/
def execCclkStop (s : State) : Answer := s.run fun p => if p.hif.linkUp then p.cclkStop else p

/-- CCLK_RESTART (R540). -/
def execCclkRestart (s : State) : Answer := s.run fun p => if p.hif.linkUp then p.cclkRestart else p

end Sys2Proof.Machine
end

