-- ==== Sys2Proof/Machine/Regs.lean ====
section
/-!
DEFINITION. Writes of registers over BAR0 (R13 to R15, R357, R395, R401, R430, R440, R441), and the scan window (R515).
-/
namespace Sys2Proof.Machine

/-- A register access that is ignored counts (R395). -/
def Part.ignoreAccess (p : Part) : Part := p.bump HIF_STAT_ACCERR 1

/-- Take the RW bits of a written value; the others keep theirs (R14, R15). -/
def Part.putRw (p : Part) (off : Nat) (r : RegRow) (v : Nat) : Part :=
  p.wr off ((p.rd off &&& (2 ^ 64 - 1 - r.rw)) ||| (v &&& r.rw))

/-- The index of an offset in an array of registers. -/
def indexIn (base n stride off : Nat) : Option Nat :=
  if base ≤ off ∧ off < base + n * stride ∧ (off - base) % stride = 0 then some ((off - base) / stride) else none

/-- FAB_CTRL (R329, R331): auth, and a change of train. -/
def Part.writeFabCtrl (p : Part) (v : Nat) : Part :=
  let p := p.putB FAB_CTRL 1 (bit v 1)
  if bit v 0 then p.fabTrain else if p.getB FAB_CTRL 0 then p.fabStop else p

/-- FAB_PCTRL (R345, R356): disable, and a retrain.
DEDUCED (log 87, unsafe): FAB_PCTRL.disable of a running port takes effect at the next training. -/
def Part.writePctrl (p : Part) (n v : Nat) : Part :=
  let p := p.putB (FAB_PCTRL n) 0 (bit v 0)
  if bit v 1 then p.startRetrain n else p

/-- HIF_Q_CFG (R401): the sizes are ignored while the queue is enabled; enabling it starts fetching, disabling it stops it.
DEDUCED (log 86, unsafe): A write to HIF_Q_CFG of an enabled queue that keeps enable set is ignored and counted; one that clears it disables the queue and leaves the sizes. -/
def Part.writeQcfg (p : Part) (q : Nat) (r : RegRow) (v : Nat) : Part :=
  if p.cqOn q then (if bit v 31 then p.ignoreAccess else p.disableQueue q)
  else
    let p := p.putRw (HIF_Q_CFG q) r v
    if bit v 31 then (p.fetchQueue q).sweepAll else p

/-- OBS_FREEZE_CMD (R512, R514). -/
def Part.writeFreeze (p : Part) (v : Nat) : Part :=
  let p := if bit v 0 then p.freeze 0 else p
  if bit v 1 then p.thaw else p

/-- OBS_TEST (R503). -/
def Part.writeTest (p : Part) (v : Nat) : Part :=
  let p := if bit v 0 then p.testRequest else p
  if bit v 1 then p.testCancel else p

/-- A command queue's registers (R401, R407). -/
def Part.writeQueueReg (p : Part) (off : Nat) (r : RegRow) (v : Nat) : Option Part :=
  let go (base : Nat) (f : Nat → Part) : Option Part := (indexIn base 8 0x40 off).map f
  go (HIF_Q_CFG 0) (fun q => p.writeQcfg q r v) <|>
    go (HIF_SQ_BASE 0) (fun q => if p.cqOn q then p.ignoreAccess else p.putRw off r v) <|>
    go (HIF_CR_BASE 0) (fun q => if p.cqOn q then p.ignoreAccess else p.putRw off r v) <|>
    go (HIF_SQ_TAIL 0) (fun q => p.setTail q (v % 65536)) <|>
    go (HIF_CR_HEAD 0) (fun q => p.setCrHead q (v % 65536)) <|>
    (indexIn (HIF_IN_COMMIT 0) 16 0x40 off).map (fun c => p.commitWord c v)

/-- A register whose write does more than keep a value. -/
def Part.writeSpecial (p : Part) (off : Nat) (r : RegRow) (v : Nat) : Option Part :=
  if off = FAB_CTRL then some (p.writeFabCtrl v)
  else if off = FAB_ID ∨ off = FAB_TOPO then some (if p.getB FAB_CTRL 0 then p.ignoreAccess else p.putRw off r v)
  else if off = TWN_RESTORE then some (if bit v 0 then p.restoreStart else p)
  else if off = HIF_CTRL then some (p.putRw off r v).fetchAll
  else if off = OBS_FREEZE_CMD then some (p.writeFreeze v)
  else if off = OBS_TEST then some (p.writeTest v)
  else if off = PWR_CTRL then some (if bit v 0 then p.cclkStop else p.cclkRestart)
  else (indexIn (FAB_PCTRL 0) 34 0x40 off).map (fun n => p.writePctrl n v) <|> p.writeQueueReg off r v

/-- A BAR0 write of an RWT register (R15, R430, R440, R441): staged in an open transaction as one entry; refused under signed_only; else
ignored and counted.
DEDUCED (log 85, unsafe): A BAR0 write of an RWT register under signed_only fails with code 3 and is not counted in HIF_STAT_ACCERR; one in no open transaction, or past 16 MiB, is ignored and counted. -/
def Part.writeRwt (p : Part) (off width v : Nat) : Part :=
  if p.txnState ≠ 1 then p.ignoreAccess
  else if p.mgt.signedOnly then p.txnFail ⟨3, 0xFFFF, off⟩
  else if p.txn.used + 16 > stagingBytes then p.ignoreAccess
  else (p.stage [.reg off width v] 16).modTxn fun t => { t with unsigned := true }

/-- A write of a register of the width it has. -/
def Part.writeReg (p : Part) (off : Nat) (r : RegRow) (v : Nat) : Part :=
  if p.rwtAt off r ≠ 0 then p.writeRwt off r.bytes v
  else if r.rw = 0 ∧ r.wo = 0 then p.ignoreAccess
  else (p.writeSpecial off r v).getD (p.putRw off r v)

/-- REGISTER_WRITE (R13, R15, R395). -/
def execRegisterWrite (offset size : Nat) (value : BitVec 64) (s : State) : Answer :=
  s.run fun p =>
    if !p.hif.linkUp then p
    else if (size ≠ 4 ∧ size ≠ 8) ∨ offset % size ≠ 0 then p.ignoreAccess
    else
      match regAt offset with
      | none => p.ignoreAccess
      | some r => if r.bytes = size then p.writeReg offset r (value.toNat % 2 ^ (8 * size)) else p.ignoreAccess

/-- SCAN_READ (R515): over BAR0, or over the TAP with SCAN_WIN selected. -/
def execScanRead (jtag : Bool) (s : State) : Answer :=
  s.run fun p =>
    if jtag then
      if p.pgood && p.power.tap.ir = 8 then
        let (bs, p) := p.scanRead
        p.modPower fun w => { w with tap := { w.tap with out := bs } }
      else p
    else if p.hif.linkUp then
      let (bs, p) := p.scanRead
      p.modObs fun o => { o with scanOut := bs }
    else p

end Sys2Proof.Machine
end

