-- ==== Sys2Proof/Machine/Scheduler.lean ====
section
/-!
DEFINITION. The steps of the task scheduler (R168 to R184).
-/
namespace Sys2Proof.Machine

/-- The scheduler of the sector may start work in the frame (R28, R185). -/
def Part.schRuns (p : Part) (s : Nat) : Bool := p.working && p.schOn s

/-- Submit entry `i` of the preload list (R184): one read from a poisoned line is dropped. -/
def Part.preloadEntry (p : Part) (s base i : Nat) : Part :=
  let ((d, t), p) := p.load 12 0 (base + 64 * i) 64
  match t with
  | some _ => p.schDrop s 7 0
  | none =>
    let name := leAt d 24 2
    p.submitLocal (.preload s) name 0 d (name / 16384 == s)

/-- Submit a host descriptor accepted for the frame (R184, R408). -/
def Part.preloadHost (p : Part) (s : Nat) (a : Accepted) : Part :=
  if a.frame = p.frameNo ∧ a.queue / 16384 = s then p.submitLocal .host a.queue 0 a.bytes true else p

/-- The queues whose close counter loads as zero close once the preload is complete (R172). -/
def Part.closeLoaded (p : Part) (s : Nat) : Part :=
  p.each (p.cfgQueues s) fun p q =>
    let j := p.getF (SCH_QCFG s q) 0 14
    if p.queueOn s q && p.getB (SCH_QCFG s q) 15 && p.getF (SCH_DC_INIT s p.kind (j / 2)) (16 * (j % 2)) 16 == 0 then
      p.closeQueue s q
    else p

/-- A descriptor that the preload of sector `s` submitted still waits for a slot, or is on its way (R184). -/
def Part.preloadWaits (p : Part) (s : Nat) : Bool :=
  (sectors.any fun t => (p.sch t).subs.any fun u => u.src == .preload s) || (p.sch s).subs.any fun u => u.src == .host

/-- The preload of a sector is complete once the last of its descriptors has been submitted (R184). -/
def Part.preloadEnd (p : Part) (s : Nat) : Part :=
  let h := p.sch s
  if !h.preloaded || h.loaded || p.preloadWaits s then p
  else (p.modSch s fun h => { h with loaded := true }).closeLoaded s

/-- PRELOAD (R184, R306): from cycle 128 on, once a replay's journal is unwound, the list of the frame's kind, then the host descriptors accepted for the frame. -/
def execPreload (sector : BitVec 2) (s : State) : Answer :=
  s.run fun p =>
    let x := sector.toNat
    if !p.schRuns x || p.tick.unwinding || (p.sch x).preloaded then p
    else
      let p := p.clockTo (p.tick.frameStart + 128)
      let r := p.rd (SCH_PRELOAD x p.kind)
      let p := p.each (List.range (fld r 48 15)) fun p i => p.preloadEntry x (fld r 0 40) i
      let p := p.each p.hif.accepted fun p a => p.preloadHost x a
      (p.modSch x fun h => { h with preloaded := true }).preloadEnd x

/-- Take the first submission that can be judged, of those from this part, else of the inbound buffer. -/
def Part.takeSub (p : Part) (s : Nat) : Option (Sub × Part) :=
  let h := p.sch s
  let rec go (pre l : List Sub) : Option (Sub × List Sub) :=
    match l with
    | [] => none
    | u :: r => if p.subReady s u then some (u, pre.reverse ++ r) else go (u :: pre) r
  match go [] h.subs with
  | some (u, l) => some (u, p.setSch s { h with subs := l })
  | none =>
    match go [] h.inbound with
    | some (u, l) => some (u, p.setSch s { h with inbound := l })
    | none => none

/-- DESC_ENTER_QUEUE (R28, R168, R170, R175): the oldest submission on its way that its queue can judge enters it. -/
def execDescEnterQueue (sector : BitVec 2) (s : State) : Answer :=
  s.run fun p =>
    if !p.working then p
    else
      match p.takeSub sector.toNat with
      | some (u, p) => (p.arrive sector.toNat u).each sectors Part.preloadEnd
      | none => p

/-- A delivered remote submission for a sector with its descriptor body (R169). -/
def Part.remoteSub (p : Part) (s : Nat) : Option (Packet × Packet) :=
  p.fab.rx.findSome? fun q =>
    if q.cls == 4 && q.kind == 0 && fld (leAt q.payload 0 4) 14 2 == s then
      (p.fab.rx.find? fun b => b.cls == 2 && b.kind == 2 && b.src == q.src && fld b.ref 12 8 == leAt q.payload 4 4).map
        fun b => (q, b)
    else none

/-- REMOTE_SUBMISSION (R169): a submission from another part takes one of the sector's 64 buffer places. -/
def execRemoteSubmission (sector : BitVec 2) (s : State) : Answer :=
  s.run fun p =>
    let x := sector.toNat
    match p.remoteSub x with
    | none => p
    | some (q, b) =>
      let h := p.sch x
      let d := b.payload.take 64
      if !p.live || h.inbound.length ≥ 64 then p
      else
        let p := p.modFab fun f => { f with rx := (f.rx.erase q).erase b }
        if b.poison ≠ 0 then (p.consume x 12 0xFFFF (dTag d) (leNat (d.take 32))).schDrop x 7 (dTag d)
        else if descBad d false then p.schDrop x 4 (dTag d)
        else if dCtrl d 0 && !(p.schOn x && p.delayFull x) then p.enterDelay x (leAt q.payload 0 2 % 16384) d
        else p.modSch x fun h => { h with inbound := h.inbound ++ [⟨leAt q.payload 0 2 % 16384, .remote, d⟩] }

/-- The ready descriptor that carries the core's next ticket, with its queue (R173). -/
def Part.nextDesc (p : Part) (c : Nat) : Option (Nat × Desc) :=
  let s := coreSector c
  (p.boundQueues c).findSome? fun q =>
    ((p.queue s q).ready.find? fun d => !d.stale && dTicket d.bytes == p.ticket c).map fun d => (q, d)

/-- DESC_HANDOVER (R173, R174): the core that asks receives the descriptor with its next ticket, or the end of work. -/
def execDescHandover (core : BitVec 13) (s : State) : Answer :=
  s.run fun p =>
    let c := core.toNat
    let x := coreSector c
    let k := p.core c
    if !p.working || k.st != .inAsk then p
    else if p.endOfWork c then p.returnEnd c
    else
      match p.nextDesc c with
      | none => p
      | some (q, d) =>
        if p.mustWait c k.seq [] [(k.askAddr, k.askAddr + 64)] then p
        else
          let w := p.queue x q
          let p := p.setQueue x q { w with ready := w.ready.erase d }
          let p := p.modSch x fun h => { h with h := spSet 0 h.h (c % 2048) (p.ticket c + 1) }
          let p := p.spadStore c k.askAddr d.bytes
          let p := p.modCore c fun k => { (k.setReg k.askRd (16384 * x + q)) with st := .running }
          (p.bump (SCH_STAT_HANDOVER x) 1).trace x 9 k.pair c (16384 * x + q) (dTicket d.bytes)

/-- A held completion that may be released by a release of flow `f` (R178): of no flow, or next in the flow; and a
forward within the part has room. -/
def Part.releasable (p : Part) (s f : Nat) (d : Completion) : Bool :=
  let inOrder : Bool := match dFlow d.bytes with
    | none => true
    | some g =>
      let x := spGet .reset (p.sch s).flows g
      g == f && !x.broken && dSeq d.bytes == x.next
  let fwd := leAt d.bytes 12 4
  let full := dCtrl d.bytes 1 && fwd >>> 16 == p.chip && !(descBad d.bytes true) && p.queueFull (fld fwd 14 2) (fwd % 16384)
  inOrder && !full

/-- Forward the copy of a completion (R177). -/
def Part.forward (p : Part) (s : Nat) (d : Completion) : Part :=
  let fwd := leAt d.bytes 12 4
  if !(dCtrl d.bytes 1) then p
  else if fwd >>> 16 = p.chip then p.submitLocal .forward (fwd % 65536) d.pair d.bytes (fld fwd 14 2 == s)
  else
    (p.sendPacket (fwd >>> 16) 3 2 0 0 (withTag d.bytes d.pair ++ leBytes 4 fwd ++ leBytes 28 0)).sentFor d.pair 96

/-- Apply or send one decrement of a completion (R177). -/
def Part.decrement (p : Part) (d : Completion) (i : Nat) : Part :=
  let w := leAt d.bytes (16 + 4 * i) 4
  if !(dCtrl d.bytes (2 + i)) then p
  else if w >>> 16 = p.chip then p.decDc d.pair (fld w 14 2) (w % 16384)
  else (p.sendPacket (w >>> 16) 3 1 0 0 (leBytes 4 w ++ leBytes 4 d.pair ++ leBytes 24 0)).sentFor d.pair 32

/-- The held completions that a release has left outside the window of their flow are discarded (R180). -/
def Part.windowCheck (p : Part) (s : Nat) : Part :=
  let out := (p.sch s).held.filter fun d => p.outsideWindow s d.bytes
  let p := p.modSch s fun h => { h with held := h.held.filter fun d => !(out.contains d) }
  p.each out fun p d => p.flowOverrun s ((dFlow d.bytes).getD 0) d.pair

/-- COMPLETION_RELEASE (R177, R178, R180): the first completion that may be released forwards its copy, then decrements. -/
def execCompletionRelease (sector : BitVec 2) (flow : BitVec 12) (s : State) : Answer :=
  s.run fun p =>
    let x := sector.toNat
    match (p.sch x).held.find? (p.releasable x flow.toNat) with
    | none => p
    | some d =>
      if !p.schRuns x then p
      else
        let p := p.modSch x fun h =>
          { h with held := h.held.erase d,
                   flows := match dFlow d.bytes with
                     | some g => spSet .reset h.flows g { spGet .reset h.flows g with next := (dSeq d.bytes + 1) % 65536 }
                     | none => h.flows }
        let p := (p.windowCheck x).forward x d
        let p := p.decrement d 0
        let p := p.decrement d 1
        p.bump (SCH_STAT_RELEASE x) 1

/-- The descriptors of a sector that wait on a counter, with their queues, in the order in which they were submitted. -/
def Part.waitingOn (p : Part) (s j : Nat) : List (Nat × Desc) :=
  sortBy (fun a b => a.2.n ≤ b.2.n)
    ((p.sch s).queues.flatMap fun e => (e.2.waiting.filter fun d => dWait d.bytes == some j).map fun d => (e.1, d))

/-- DC_ZERO_RELEASE (R172): the descriptors that waited on the oldest counter to reach zero enter, then its queues
close. -/
def execDcZeroRelease (sector : BitVec 2) (s : State) : Answer :=
  s.run fun p =>
    let x := sector.toNat
    match (p.sch x).dcZero with
    | [] => p
    | j :: rest =>
      if !p.working then p
      else
        let l := p.waitingOn x j
        let p := p.modSch x fun h => { h with dcZero := rest }
        let p := p.each l fun p q =>
          let w := p.queue x q.1
          (p.setQueue x q.1 { w with waiting := w.waiting.erase q.2 }).becomeReady x q.1 q.2
        p.closeOn x j

/-- The order in which delayed descriptors are released (R182). -/
def DelayEntry.before (a b : DelayEntry) : Bool :=
  a.due < b.due || (a.due == b.due && (a.queue < b.queue || (a.queue == b.queue && a.ticket ≤ b.ticket)))

/-- The delayed descriptors of the frame's kind that fall due in the frame, in order (R182). -/
def Part.dueNow (p : Part) (s : Nat) : List DelayEntry :=
  sortBy DelayEntry.before ((p.sch s).delay.filter fun e =>
    e.kind == p.kind && e.due < p.rd (SCH_ST_BASE s) + p.rd (TIK_OFFS_G p.kind) / 1000)

/-- The cycle of the frame at which a delayed descriptor is released (R182). -/
def Part.releaseCycle (p : Part) (s : Nat) (e : DelayEntry) : Nat := max 128 (1000 * (e.due - p.rd (SCH_ST_BASE s)))

/-- DELAY_RELEASE (R182, R184): the first delayed descriptor due in the frame enters its queue at its cycle, once that has room. -/
def execDelayRelease (sector : BitVec 2) (s : State) : Answer :=
  s.run fun p =>
    let x := sector.toNat
    match p.dueNow x with
    | [] => p
    | e :: _ =>
      if !p.schRuns x || p.tick.unwinding || !(p.sch x).loaded || p.queueFull x e.queue then p
      else
        let p := p.clockTo (p.tick.frameStart + p.releaseCycle x e)
        let ((d, t), p) := p.load 12 0 (p.getF (SCH_DELAY x) 0 40 + 64 * e.slot) 64
        let p := p.modSch x fun h => { h with delay := h.delay.erase e }
        let p := p.wr (SCH_DELAY_USE x) (p.sch x).delay.length
        match t with
        | some _ => p.schDrop x 7 0
        | none => (p.bump (SCH_STAT_DELAY x) 1).enterQueue x e.queue d true

end Sys2Proof.Machine
end

