-- ==== Sys2Proof/Machine/SpdmUnit.lean ====
section
/-!
DEFINITION. The SPDM 1.2 responder (R466, R469, R470). The spec names the protocol, its capabilities and algorithms; the codes and the
layout of the messages are DSP0274's. PRESUMED (log 102).
-/
namespace Sys2Proof.Machine

/-- A response: version 1.2, code, two parameters, and data. -/
def spdmMsg (code p1 p2 : Nat) (data : List Byte) : List Byte :=
  [0x12#8, BitVec.ofNat 8 code, BitVec.ofNat 8 p1, BitVec.ofNat 8 p2] ++ data

/-- An ERROR response. -/
def spdmError (reason data : Nat) : List Byte := spdmMsg 0x7F reason data []

/-- The capabilities of R469 as DSP0274 numbers them. -/
def spdmCaps : Nat := 0x23F6

/-- The algorithms of R469 as DSP0274 numbers them: ECDSA P-256 and SHA-256 of the base, then secp256r1 and AES-256-GCM. -/
def spdmAlgorithms : List Byte :=
  leBytes 2 52 ++ leBytes 1 1 ++ leBytes 1 2 ++ leBytes 4 2 ++ leBytes 4 0x10 ++ leBytes 4 1 ++ leBytes 12 0 ++ leBytes 4 0 ++
    leBytes 4 0x00082002 ++ leBytes 4 0x00022003 ++ leBytes 4 0x00102004 ++ leBytes 4 0x00012005

/-- The raw or digest value of measurement `i` (R470). -/
def State.measurement (s : State) (i : Nat) : List Byte :=
  let p := s.p
  match i with
  | 1 => Config.encoding 1 []
  | 2 => (p.mgt.fw.map (·.digest)).getD []
  | 3 => leBytes 1 ((p.mgt.fw.map (·.svn)).getD 0) ++ leBytes 1 s.fuses.svnMin
  | 4 => Config.encoding 4 p.mgt.pol
  | 5 => leBytes 8 (p.rd TIK_GRAFT_ID) ++ leBytes 4 (p.rd TIK_GRAFT_VER) ++ p.txn.chain
  | 6 => p.mgt.chain6
  | _ =>
    Config.encoding 7 (leBytes 2 (if p.big then 6144 else 5120) ++ beBytes 32 s.fuses.root.toNat ++ beBytes 32 s.fuses.fwKey0.toNat ++
      beBytes 32 s.fuses.fwKey1.toNat ++ [BitVec.ofNat 8 (b2n s.fuses.revoked0), BitVec.ofNat 8 (b2n s.fuses.revoked1)])

/-- A measurement block: index, DMTF form, its size, its value type (raw where R470 says so) and the value. -/
def State.measurementBlock (s : State) (i : Nat) : List Byte :=
  let v := s.measurement i
  let raw : Nat := if i = 3 ∨ i = 5 ∨ i = 7 then 128 else 0
  leBytes 1 i ++ leBytes 1 1 ++ leBytes 2 (v.length + 3) ++ leBytes 1 (raw + i % 8) ++ leBytes 2 v.length ++ v

/-- Send a response on a connection that goes to stage `f`. -/
def Part.spdmReply (p : Part) (via : Transport) (bytes : List Byte) (f : Spdm → Spdm) : Part := (p.reply via bytes).modConn via f

/-- GET_DIGESTS: slot 0 alone. -/
def State.spdmDigests (s : State) (via : Transport) : Part := s.p.spdmReply via (spdmMsg 0x01 0 1 (sha256 s.chain)) id

/-- GET_CERTIFICATE: a portion of the chain of slot 0. -/
def State.spdmCertificate (s : State) (via : Transport) (r : SpdmReq) : Part :=
  let off := leAt r.data 0 2
  let chain := s.chain
  if r.param1.toNat % 16 ≠ 0 ∨ off > chain.length then s.p.spdmReply via (spdmError 0x01 0) id
  else
    let part := (chain.drop off).take (min (leAt r.data 2 2) 1008)
    s.p.spdmReply via (spdmMsg 0x02 0 0 (leBytes 2 part.length ++ leBytes 2 (chain.length - off - part.length) ++ part)) id

/-- CHALLENGE on slot 0: digest of the chain, nonce and signature. -/
def State.spdmChallenge (s : State) (via : Transport) (r : SpdmReq) : Part :=
  if r.param1.toNat % 16 ≠ 0 then s.p.spdmReply via (spdmError 0x01 0) id
  else
    let (bs, p) := s.p.anyBytes 130
    p.spdmReply via (spdmMsg 0x03 0 1 (sha256 s.chain ++ bs)) id

/-- GET_MEASUREMENTS (R470): their number, all of them, or one; signed where asked. -/
def State.spdmMeasurements (s : State) (via : Transport) (r : SpdmReq) : Part :=
  let i := r.param2.toNat
  if i > 7 ∧ i ≠ 0xFF then s.p.spdmReply via (spdmError 0x01 0) id
  else
    let ids := if i = 0 then [] else if i = 0xFF then [1, 2, 3, 4, 5, 6, 7] else [i]
    let rec' := ids.flatMap s.measurementBlock
    let (tail, p) := if bit r.param1.toNat 0 then s.p.anyBytes 98 else s.p.anyBytes 34
    p.spdmReply via (spdmMsg 0x60 (if i = 0 then 7 else 0) 0 (leBytes 1 ids.length ++ leBytes 3 rec'.length ++ rec' ++ tail)) id

/-- KEY_EXCHANGE: one session on a transport (R466); mutual authentication is asked for. -/
def State.spdmKeyExchange (s : State) (via : Transport) (r : SpdmReq) : Part :=
  let c := s.p.mgt.conn via
  if c.session || c.opening then s.p.spdmReply via (spdmError 0x0A 0) id
  else if r.param2.toNat % 16 ≠ 0 then s.p.spdmReply via (spdmError 0x01 0) id
  else
    let (bs, p) := s.p.anyBytes 198
    p.spdmReply via (spdmMsg 0x64 60 0 bs) fun c => { c with opening := true }

/-- FINISH: the session opens; it is the owner's where the requester's chain verifies to the installed owner root key (R466).
DEDUCED (log 103, unsafe): A session that is the owner's is one whose FINISH verified and whose requester chain verifies to the installed owner root. -/
def State.spdmFinish (s : State) (via : Transport) (r : SpdmReq) : Part :=
  if !(s.p.mgt.conn via).opening then s.p.spdmReply via (spdmError 0x04 0) id
  else if !r.sigOk then s.p.spdmReply via (spdmError 0x06 0) fun c => { c with opening := false }
  else
    s.p.spdmReply via (spdmMsg 0x65 0 0 []) fun c =>
      { c with opening := false, session := true, mutAuth := s.nv.owner == some r.ownerChain }

/-- A request of a connection whose negotiation is done. -/
def State.spdmOpen (s : State) (via : Transport) (r : SpdmReq) : Part :=
  let c := s.p.mgt.conn via
  match r.code.toNat with
  | 0x81 => s.spdmDigests via
  | 0x82 => s.spdmCertificate via r
  | 0x83 => s.spdmChallenge via r
  | 0xE0 => s.spdmMeasurements via r
  | 0xE4 => s.spdmKeyExchange via r
  | 0xE5 => s.spdmFinish via r
  | 0xE8 => if c.session then s.p.spdmReply via (spdmMsg 0x68 0 0 []) id else s.p.spdmReply via (spdmError 0x04 0) id
  | 0xEC =>
    if c.session then s.p.spdmReply via (spdmMsg 0x6C 0 0 []) fun c => { c with session := false, mutAuth := false }
    else s.p.spdmReply via (spdmError 0x04 0) id
  | n => s.p.spdmReply via (spdmError 0x07 n) id

/-- SPDM_REQUEST (R469): version, capabilities and algorithms in this order, then the rest.
PRESUMED (log 102, unsafe): SPDM codes, parameters and message layouts are those of DSP0274 1.2. -/
def execSpdmRequest (via : Transport) (r : SpdmReq) (s : State) : Answer :=
  if !s.p.reaches via || !s.p.answers then .next s
  else
    let c := s.p.mgt.conn via
    let p : Part :=
      match r.code.toNat with
      | 0x84 => s.p.spdmReply via (spdmMsg 0x04 0 0 (leBytes 1 0 ++ leBytes 1 1 ++ leBytes 2 0x1200)) fun c => { c with stage := 1 }
      | 0xE1 =>
        if c.stage = 1 then
          s.p.spdmReply via (spdmMsg 0x61 0 0 (leBytes 1 0 ++ leBytes 1 20 ++ leBytes 2 0 ++ leBytes 4 spdmCaps ++ leBytes 4 1024 ++ leBytes 4 1024))
            fun c => { c with stage := 2 }
        else s.p.spdmReply via (spdmError 0x04 0) id
      | 0xE3 =>
        if c.stage = 2 then s.p.spdmReply via (spdmMsg 0x63 4 0 spdmAlgorithms) fun c => { c with stage := 3 }
        else s.p.spdmReply via (spdmError 0x04 0) id
      | _ => if c.stage = 3 then s.spdmOpen via r else s.p.spdmReply via (spdmError 0x04 0) id
    .next { s with p := p }

/-- SESSION_TIMEOUT (R466): 60 s without a message. -/
def execSessionTimeout (via : Transport) (s : State) : Answer :=
  s.run fun p =>
    let c := p.mgt.conn via
    if !c.session then p
    else
      let p := if p.clocked then p.clockTo (c.last + 60000000000) else p
      p.modConn via fun c => { c with session := false, mutAuth := false, opening := false }

end Sys2Proof.Machine
end

