-- ==== Sys2Proof/Machine/Telemetry.lean ====
section
/-!
DEFINITION. Telemetry and the thermal hold (R473, R477).
-/
namespace Sys2Proof.Machine

/-- Keep sensor readings by index. -/
def keepTemps (m : Sparse Nat) (l : List (Nat × Nat)) : Sparse Nat := l.foldl (fun m e => spSet 0 m e.1 e.2) m

/-- The hottest sensor and its index, the lowest on a tie. -/
def hottest (m : Sparse Nat) : Nat × Nat := m.foldl (fun (b : Nat × Nat) e => if b.1 < e.2 then (e.2, e.1) else b) (0, 0)

/-- The end of the sampling period in progress: the next multiple of 10 µs (R473). -/
def Part.sampleAt (p : Part) : Nat := (p.cycle / 10000 + 1) * 10000

/-- The input energy of each microsecond of the period that ends, in nJ (R473).
DEDUCED (log 52, unsafe): Each microsecond of a 10 µs sample carries the sampled power (R473). -/
def Part.addEnergy (p : Part) (nj : Nat) : Part :=
  p.modMgt fun m => { m with energy := ((List.range 10).map fun i => (p.cycle - 1000 * i, nj)) ++ m.energy }

/-- Input voltage, current and power are sampled (R473, R482, R549). -/
def Part.sampleInput (p : Part) (cv ca : Nat) : Part :=
  let tenths := cv * ca / 1000
  let p := p.wr MGT_TEL_VIN ((ca % 65536) <<< 16 + cv % 65536)
  let p := (p.putF MGT_TEL_PIN 0 16 (min tenths 65535)).modMgt fun m => { m with peak := max m.peak (min tenths 65535) }
  let p := (p.putF PWR_VIN 16 16 ca).seeInput cv
  if p.getB PWR_STATUS 1 && cv ≥ 3600 then
    if p.power.recoverAt.isSome then p else (p.putB PWR_STATUS 3 true).modPower fun w => { w with recoverAt := some p.cycle }
  else (p.putB PWR_STATUS 3 false).modPower fun w => { w with recoverAt := none }

/-- A rail is sampled (R524, R525). -/
def Part.sampleRail (p : Part) (x : Nat × Nat × Nat) : Part :=
  let (r, mv, da) := x
  if r ≥ 17 then p
  else
    let p := (p.putF (PWR_RAIL r) 24 16 da).putF (PWR_RAIL r) 8 16 mv
    p.putB (PWR_RAIL r) 0 (railWithin r mv 5)

/-- The temperatures are sampled (R473, R482). -/
def Part.sampleTemps (p : Part) (t : Sample) : Part :=
  let p := p.modMgt fun m =>
    { m with temps := keepTemps m.temps (t.die.filter (·.1 < 72)), hbmTemps := keepTemps m.hbmTemps (t.hbm.filter (·.1 < 8)),
             stageTemps := keepTemps m.stageTemps (t.stage.filter (·.1 < 4)) }
  let die := hottest p.mgt.temps
  let b (n : Nat) : Nat := min n 255
  p.wr MGT_TEL_TEMP (b (hottest p.mgt.stageTemps).1 <<< 24 + b (hottest p.mgt.hbmTemps).1 <<< 16 + b die.1 <<< 8 + die.2)

/-- THERMAL_HOLD (R477): the hottest die sensor has reached hold_c; `coolSince` is the last sample at which one was above hold_c − 10. -/
def Part.thermalCheck (p : Part) : Part :=
  let hot := (hottest p.mgt.temps).1
  let p := if hot + 10 > p.mgt.holdC then p.modMgt fun m => { m with coolSince := p.cycle } else p
  if hot < p.mgt.holdC || p.mgt.thermHold then p
  else
    let p := ((p.modMgt fun m => { m with thermHold := true }).putB MGT_STICKY 4 true).bump MGT_STAT_HOLD 1
    (p.modPower fun w => { w with thermRepeatAt := p.cycle + holdPeriod }).holdSend 1

/-- TELEMETRY_SAMPLE (R473, R477): one round of 10 µs, while the controller runs.
DEDUCED (log 106, unsafe): The telemetry tick is 10 µs of CCLK; with CCLK stopped a sample passes no cycles and adds no energy. -/
def execTelemetrySample (t : Sample) (s : State) : Answer :=
  s.run fun p =>
    if !p.pgood || !p.mgt.ready || p.mgt.stopped then p
    else
      let p := if p.clocked then (p.clockTo p.sampleAt).addEnergy (t.centivolts * t.centiamps / 10) else p
      let p := (p.sampleInput t.centivolts t.centiamps).each t.rails Part.sampleRail
      ((p.seeRails (t.rails.map (·.1))).sampleTemps t).thermalCheck

/-- THERMAL_RELEASE (R477): every die sensor has stayed at or below hold_c − 10 for 1 ms.
DEDUCED (log 107, unsafe): THERMAL_RELEASE and SESSION_TIMEOUT bring the clock to the end of their interval. -/
def execThermalRelease (s : State) : Answer :=
  s.run fun p =>
    if !p.mgt.thermHold || p.mgt.stopped || (hottest p.mgt.temps).1 + 10 > p.mgt.holdC then p
    else
      let p := if p.clocked then p.clockTo (p.mgt.coolSince + 1000000) else p
      (p.modMgt fun m => { m with thermHold := false }).releaseSend 1

end Sys2Proof.Machine
end

