-- ==== Sys2Proof/Machine/TickUnit.lean ====
section
/-!
DEFINITION. The tick and barrier unit's steps that make, carry and apply ticks (chapter 01).
-/
namespace Sys2Proof.Machine

/-- TICK_TOKEN_SEND (R17, R26, R33, R44): the tick master announces the next tick; while a hold is in force it sends the notice of it
instead.
DESIGN CHOICE (log 34, unsafe): How a part learns that no token follows (R33): the last token carries a halt bit. -/
def execTickTokenSend (s : State) : Answer :=
  s.run fun p =>
    if p.role ≠ 1 || !p.clocked || !p.getB TIK_GRAFT_STATUS 1 || !p.getB TIK_CTRL 0 || p.tick.stopAfter || p.tick.token.isSome ||
        p.tick.tokenSent > p.tickCount then p
    else
      let p := p.clockTo (p.frameEnd - p.rd TIK_LEAD)
      if p.tick.holds.isEmpty then p.sendToken
      else if p.tick.holdNoticed then p
      else ((p.flood none 0 .holdNotice).showHold).modTick fun t => { t with holdNoticed := true }

/-- TICK_ISSUE (R544): TIK_LEAD cycles after its token the tick master drives the edge on TICK_OUT. -/
def execTickIssue (s : State) : Answer :=
  s.run fun p =>
    if p.role ≠ 1 || !p.clocked || p.tick.issued ≥ p.tick.tokenSent then p
    else
      let p := (p.clockTo (p.tick.tokenSentAt + p.rd TIK_LEAD)).modTick fun t => { t with issued := t.tokenSent }
      p.modPower fun w => { w with tickOut := w.tickOut + 1 }

/-- The standby's first token (R35, R351): its tree is followed from then on, with the latency kept for it. -/
def Part.follow (p : Part) (standby : Bool) : Part :=
  if standby == p.fab.standbyTree then p else (p.modFab fun f => { f with standbyTree := standby }).loadLat

/-- A part that takes no part in frames has forwarded a token: the next freeze it sees is another one (R349, R353). -/
def Part.freezeOver (p : Part) : Part := if p.getB TIK_CTRL 0 then p else p.modFab fun f => { f with frozenSeen := false }

/-- TICK_TOKEN (R18, R350, R352): a token that comes by the parent bundle is taken and forwarded; copies from other bundles are ignored.
DEDUCED (log 37, unsafe): A second token while one waits for its tick is ignored; in token mode an edge on TICK_IN does nothing but go on to TICK_OUT. -/
def execTickToken (rx : CtlRx) (t : TokenMsg) (s : State) : Answer :=
  s.run fun p =>
    let standby : Bool := t.master == p.getF TIK_MASTER 16 16 && t.master != p.getF TIK_MASTER 0 16
    if p.role = 1 || !p.clocked || rx.bundle ≠ p.parent standby || rx.bundle ≥ 8 || !p.bundleUp rx.bundle then p
    else
      match p.takeCtl rx.bundle rx.head (.token t) with
      | none => p
      | some p => (((p.follow standby).freezeOver).flood (some rx.bundle) (passOn rx.head) (.token t)).receiveToken t (p.ctlTime rx.head)

/-- An edge with no token pending is held, or ignored where one is held (R20). -/
def Part.holdEdge (p : Part) : Part :=
  if p.tick.edge.isSome then p.strayEdge else p.modTick fun t => { t with edge := some p.cycle }

/-- No edge came within 64 cycles of the token-scheduled one: the tick is applied there (R20). -/
def Part.fallback (p : Part) (k : Token) : Part := ((p.clockTo (k.due + 64)).putB TIK_STICKY 0 true).applyTick k.msg

/-- TICK_IN_EDGE (R18, R20): the part forwards the edge on TICK_OUT; in tree mode it dates the tick of the token that waits, or is held.
One more than 64 cycles behind the token's edge finds the tick applied and no token pending. -/
def execTickInEdge (s : State) : Answer :=
  s.run fun p =>
    if !p.clocked then p
    else
      let p := p.modPower fun w => { w with tickOut := w.tickOut + 1 }
      if p.getB TIK_CTRL 1 || !p.getB TIK_CTRL 0 then p
      else
        match p.tick.token with
        | none => p.holdEdge
        | some k =>
          let e := p.cycle + p.rd TIK_DELAY_COMP
          if p.tick.treeEdge.isSome then p.strayEdge
          else if e > k.due + 64 then (p.fallback k).holdEdge
          else
            let p := if cycleGap e k.due > 4 then p.putB TIK_STICKY 1 true else p
            p.modTick fun t => { t with treeEdge := some e }

/-- TICK_APPLY (R18): on the edge that the token or the tree gives. -/
def execTickApply (s : State) : Answer :=
  s.run fun p =>
    match p.tick.token with
    | none => p
    | some k =>
      if !p.clocked then p
      else if p.getB TIK_CTRL 1 then (p.clockTo k.due).applyTick k.msg
      else
        match p.tick.treeEdge with
        | some e => (p.clockTo e).applyTick k.msg
        | none => p

/-- TICK_FALLBACK (R20): no edge has come within 64 cycles of the token-scheduled edge. -/
def execTickFallback (s : State) : Answer :=
  s.run fun p =>
    match p.tick.token with
    | none => p
    | some k =>
      if !p.clocked || p.getB TIK_CTRL 1 || p.tick.treeEdge.isSome then p else p.fallback k

/-- STRAY_EDGE_DISCARD (R20): no token has come within TIK_LEAD cycles of a held edge. -/
def execStrayEdgeDiscard (s : State) : Answer :=
  s.run fun p =>
    match p.tick.edge with
    | none => p
    | some e =>
      if !p.clocked then p
      else ((p.clockTo (e + p.rd TIK_LEAD)).modTick fun t => { t with edge := none }).strayEdge

/-- JOURNAL_UNWIND_DONE (R306). -/
def execJournalUnwindDone (s : State) : Answer :=
  s.run fun p => if p.clocked then p.modTick fun t => { t with unwinding := false } else p

/-- Keep a frame status that a member sent (R25, R26): a fail takes the place of a pass. -/
def Part.keepStatus (p : Part) (x : Status) : Part :=
  match p.tick.statuses.find? fun y => y.chip == x.chip with
  | none => p.modTick fun t => { t with statuses := t.statuses ++ [x] }
  | some y =>
    if y.pass && !x.pass then p.modTick fun t => { t with statuses := t.statuses.map fun z => if z.chip == x.chip then x else z } else p

/-- The oldest delivered flagged packet of a kind (R334). -/
def Part.flagPacket (p : Part) (kind : Nat) : Option Packet := p.fab.rx.find? fun q => q.cls == 3 && q.kind == kind

/-- FRAME_STATUS_RECEIVE (R25, R26): one that comes after the token, or from a part that is not a member, is discarded and counted. -/
def execFrameStatusReceive (s : State) : Answer :=
  s.run fun p =>
    match p.flagPacket 4 with
    | none => p
    | some q =>
      if p.role = 0 then p.takeRx q
      else
        let p := p.takeRx q
        let n := leAt q.payload 0 8
        if n ≠ p.tickCount || p.tick.tokenSent > p.tickCount || !p.tick.members.contains q.src then p.bump TIK_STAT_LATE 1
        else p.keepStatus ⟨q.src, leAt q.payload 8 1 == 0, leAt q.payload 9 1, bit (leAt q.payload 10 1) 0⟩

/-- STANDBY_TAKEOVER (R35): no token for TIK_REPLAY.takeover frame lengths while no hold is active.
DEDUCED (log 38, unsafe): The standby does not take over while ticks are halted (R33, R35). -/
def execStandbyTakeover (s : State) : Answer :=
  s.run fun p =>
    if p.role ≠ 2 || !p.clocked || !p.inFrame || p.getB TIK_STATUS 11 || !p.tick.holds.isEmpty || p.tick.token.isSome then p
    else
      let p := p.clockTo (p.tick.tokenSeenAt + p.getF TIK_REPLAY 8 8 * 10 * (p.tick.frameLen + p.tick.frameStretch))
      (p.putF TIK_STATUS 5 2 1).modTick fun t => { t with resumeReplay := true, stopAfter := false }

/-- STRETCH_REQUEST_RECEIVE (R42): the largest extension counts. -/
def execStretchRequestReceive (s : State) : Answer :=
  s.run fun p =>
    match p.flagPacket 5 with
    | none => p
    | some q => (p.takeRx q).modTick fun t => if p.role = 0 then t else { t with stretch := max t.stretch (leAt q.payload 0 4 % 2 ^ 27) }

/-- HOLD_PACKET_RECEIVE (R44, R529): a hold of a part and source begins, or is heard again. -/
def execHoldPacketReceive (s : State) : Answer :=
  s.run fun p =>
    match p.flagPacket 6 with
    | none => p
    | some q =>
      if p.role = 0 then p.takeRx q
      else
        (p.takeRx q).setHolds ((p.tick.holds.filter fun h => !(h.chip == q.src && h.source == q.ref)) ++ [⟨q.src, q.ref, p.cycle⟩])

/-- RELEASE_PACKET_RECEIVE (R44): only the hold of its own part and source ends. -/
def execReleasePacketReceive (s : State) : Answer :=
  s.run fun p =>
    match p.flagPacket 7 with
    | none => p
    | some q => (p.takeRx q).setHolds (p.tick.holds.filter fun h => !(h.chip == q.src && h.source == q.ref))

/-- HOLD_NOTICE (R44, R350, R352): one that comes by the parent bundle of the tree that is followed marks the hold and is forwarded. -/
def execHoldNotice (rx : CtlRx) (s : State) : Answer :=
  s.run fun p =>
    if p.role = 1 || !p.clocked || rx.bundle ≥ 8 || !p.bundleUp rx.bundle || rx.bundle ≠ p.parent p.fab.standbyTree then p
    else
      match p.takeCtl rx.bundle rx.head .holdNotice with
      | none => p
      | some p => p.showHold.flood (some rx.bundle) (passOn rx.head) .holdNotice

/-- HOLD_LAPSE (R529): the tick master ends a hold it has not heard of for 1 ms.
DESIGN CHOICE (log 40, safe): Lapsed holds are counted in a field of the model: R529 counts the lapse and no register is named. -/
def execHoldLapse (chip source : Nat) (s : State) : Answer :=
  s.run fun p =>
    match p.tick.holds.find? fun h => h.chip == chip && h.source == source with
    | none => p
    | some h =>
      if p.role ≠ 1 then p
      else
        let p := p.clockTo (h.heard + 1000000)
        let p := (p.setHolds (p.tick.holds.erase h)).modTick fun t => { t with lapses := t.lapses + 1 }
        p.err { mkErr 13 130 0 with loc0 := chip, loc1 := source }

end Sys2Proof.Machine
end

