-- ==== Sys2Proof/Machine/Transactions.lean ====
section
/-!
DEFINITION. The commands of chapter 14: graft load, the tick-path stage that ends it, and the transaction commands.
-/
namespace Sys2Proof.Machine

/-- A full container (R435, R436): checked, validated and applied; the twin exchange and the tick-path stage follow. -/
def Part.loadFull (p : Part) (q : Nat) (c : HostCmd) (x : Container) (slot : Nat) (digest : List Byte) : Part :=
  match containerWrites x with
  | .error e => p.txnRefuse q c e
  | .ok l =>
    let p := p.validReads true l
    match p.validate true l with
    | some e => p.txnRefuse q c e
    | none =>
      let p := p.applyStaged true l [⟨x.graftId, x.version, slot, digest⟩] false
      let p := p.putB TIK_GRAFT_STATUS 1 false
      let p := if p.getB TWN_CTRL 0 then p.sendPairing p 0 else p
      (p.startProbes.startCmd q c).modTxn fun t => { t with loadPending := some q }

/-- A partial container in an open transaction (R440, R441). -/
def Part.loadPartial (p : Part) (q : Nat) (c : HostCmd) (x : Container) (slot : Nat) (digest : List Byte) : Part :=
  match containerWrites x with
  | .error e => p.txnRefuse q c e
  | .ok l =>
    match p.gradeFault l with
    | some e => p.txnRefuse q c e
    | none =>
      if p.txn.used + x.staging > stagingBytes then p.txnRefuse q c (.of 6)
      else
        let p := (p.stage l x.staging).modTxn fun t => { t with grafts := t.grafts ++ [⟨x.graftId, x.version, slot, digest⟩] }
        p.endCmd q c 0 p.txn.used

/-- A container that the part has fetched (R423, R435, R439, R440). -/
def Part.loadContainer (p : Part) (q : Nat) (c : HostCmd) (bs : List Byte) : Part :=
  match readContainer bs with
  | .error e => p.txnRefuse q c e
  | .ok x =>
    if x.ty ≠ 1 then p.txnRefuse q c (.of 1)
    else if x.full ∧ p.txnState ≠ 0 then p.txnRefuse q c (.of 7)
    else if x.full ∧ p.running then p.txnRefuse q c (.of 12)
    else if !x.full ∧ p.txnState ≠ 1 then p.txnRefuse q c (.of 12)
    else
      match p.checkContainer x with
      | .error e => p.txnRefuse q c e
      | .ok slot => if x.full then p.loadFull q c x slot (sha256 bs) else p.loadPartial q c x slot (sha256 bs)

/-- GRAFT_LOAD (R436, R440). -/
def execGraftLoad (queue : BitVec 3) (host : List HostLine) (s : State) : Answer :=
  s.run fun p =>
    let q := queue.toNat
    (p.hostStores host).runCmd q 0x10 fun p c =>
      let n := c.arg 1
      if !p.clocked then p
      else if c.arg 0 % 64 ≠ 0 ∨ n % 64 ≠ 0 then p.endCmd q c 1 0
      else if p.txnState = 0 ∧ p.running then p.txnRefuse q c (.of 12)
      else if n < 320 ∨ n > 20 * 2 ^ 20 then p.txnRefuse q c (.of 1)
      else
        let (bs, poison) := p.hostRead (c.arg 0) n
        if poison then p.endCmd q c 3 0 else p.loadContainer q c bs

/-- The pairing step of a graft load fails here and at the twin (R374, R436). -/
def Part.pairingFails (p : Part) (q : Nat) (c : HostCmd) : Part :=
  let p := p.sendPacket (p.getF TWN_CTRL 16 16) 5 8 0 0 (leBytes 32 0)
  ((p.stick TWN_STICKY 4).each (p.pairPackets 0) Part.takeRx).txnRefuse q c (.of 9)

/-- The tick-path stage ends (R19, R351): parents, latency, lead check; the graft load is complete.
DEDUCED (log 93, unsafe): A member without a probe passes the lead check (R19, code 10). -/
def Part.endStage (p : Part) (q : Nat) (c : HostCmd) : Part :=
  let p := (p.pickParents).modFab fun f => { f with probing := false }
  if p.rd TIK_TOKEN_LAT > p.rd TIK_LEAD then p.txnRefuse q c (.of 10)
  else
    let p := (p.setDelayComp.putB FAB_STATUS 2 true).putB TIK_GRAFT_STATUS 1 true
    p.endCmd q c 0 0

/-- TICK_PATH_STAGE_END (R351): the pairing exchange of a graft load is judged, then its tick-path stage ends. -/
def execTickPathStageEnd (s : State) : Answer :=
  s.run fun p =>
    match p.txn.loadPending, p.runningOp 0x10 with
    | some _, some (q, c) =>
      if !p.getB TWN_CTRL 0 then (p.modTxn fun t => { t with loadPending := none }).endStage q c
      else
        match (p.pairPackets 0).getLast? with
        | none => p
        | some k =>
          let p := p.modTxn fun t => { t with loadPending := none }
          if pairingOk p k then ((p.takePairing 0).putF TWN_STATUS 0 3 1).endStage q c else p.pairingFails q c
    | _, _ => p

/-- TXN_BEGIN (R439). -/
def execTxnBegin (queue : BitVec 3) (s : State) : Answer :=
  s.run fun p =>
    let q := queue.toNat
    p.runCmd q 0x11 fun p c =>
      if p.txnState ≠ 0 ∨ p.txn.loadPending.isSome then p.txnRefuse q c (.of 12)
      else (p.txnIdle.putF TIK_TXN_STATE 0 2 1).endCmd q c 0 0

/-- TXN_STAGE (R430, R439 to R441). -/
def execTxnStage (queue : BitVec 3) (host : List HostLine) (s : State) : Answer :=
  s.run fun p =>
    let q := queue.toNat
    (p.hostStores host).runCmd q 0x12 fun p c =>
      let n := c.arg 1
      if c.arg 0 % 64 ≠ 0 ∨ n = 0 ∨ n > 2 ^ 20 then p.endCmd q c 1 0
      else if p.txnState ≠ 1 then p.txnRefuse q c (.of 12)
      else if p.mgt.signedOnly then p.txnRefuse q c (.of 3)
      else
        let (bs, poison) := p.hostRead (c.arg 0) (16 * n)
        if poison then p.endCmd q c 3 0
        else
          match regEntries 0xFFFF bs with
          | .error e => p.txnRefuse q c e
          | .ok l =>
            match p.gradeFault l with
            | some e => p.txnRefuse q c e
            | none =>
              if p.txn.used + 16 * n > stagingBytes then p.txnRefuse q c (.of 6)
              else
                let p := (p.stage l (16 * n)).modTxn fun t => { t with unsigned := true }
                p.endCmd q c 0 p.txn.used

/-- TXN_COMMIT (R442): validation begins, and where the twin must agree the exchange with it.
DEDUCED (log 92, unsafe): TXN_COMMIT fails with code 11 for a T below TIK_COUNT + 2 while ticks run, and with ticks stopped for any T but 0 and, where ticks are halted, TIK_COUNT + 1; a pairing packet missing at the end of validation fails with code 9; the tick-path stage ends only when a pairing packet has come. -/
def execTxnCommit (queue : BitVec 3) (s : State) : Answer :=
  s.run fun p =>
    let q := queue.toNat
    p.runCmd q 0x13 fun p c =>
      let t := c.arg 0
      let late : Bool := if p.running then t < p.tickCount + 2 else !(t == 0 || (p.getB TIK_STATUS 11 && t == p.tickCount + 1))
      if p.txnState ≠ 1 then p.txnRefuse q c (.of 12)
      else if late then p.txnRefuse q c (.of 11)
      else
        let c' := p.withStaged false p.txn.staged
        let p := if p.pairingChanges c' then p.sendPairing c' t else p
        ((p.putF TIK_TXN_STATE 0 2 2).modTxn fun x => { x with validating := some (q, t), armedFor := t }).startCmd q c

/-- What validation of the open transaction finds: the rules, then the twin (R444, R387). -/
def Part.validateTxn (p : Part) (t : Nat) : Option TxnErr :=
  match p.validate false p.txn.staged with
  | some e => some e
  | none =>
    let c := p.withStaged false p.txn.staged
    if !p.pairingChanges c then none
    else
      match (p.pairPackets t).getLast? with
      | none => some (.of 9)
      | some k => if pairingOk c k then none else some (.of 9)

/-- TXN_VALIDATION_DONE (R442, R443). -/
def execTxnValidationDone (s : State) : Answer :=
  s.run fun p =>
    match p.txn.validating, p.runningOp 0x13 with
    | some (_, t), some (q, c) =>
      let p := p.validReads false p.txn.staged
      match p.validateTxn t with
      | some e =>
        let p := (p.putF TIK_TXN_STATE 0 2 1).modTxn fun x => { x with validating := none }
        let p := if e.code = 9 then p.stick TWN_STICKY 4 else p
        p.txnRefuse q c e
      | none =>
        if t = 0 then p.applyTxn.endCmd q c 0 0
        else
          let p := ((p.putF TIK_TXN_STATE 0 2 3).wr TIK_TXN_T t).modTxn fun x => { x with validating := none, armedFor := t }
          let p := if p.getB TIK_STATUS 11 && !p.running && t == p.tickCount + 1 && p.role == 1 then p.resumeTicks else p
          p.endCmd q c 0 t
    | _, _ => p

/-- TXN_ROLLBACK (R447). -/
def execTxnRollback (queue : BitVec 3) (s : State) : Answer :=
  s.run fun p =>
    let q := queue.toNat
    p.runCmd q 0x14 fun p c =>
      if p.txnState = 0 then p.txnRefuse q c (.of 12)
      else if p.txnState = 3 ∧ p.txn.tokenSeen then p.txnRefuse q c (.of 11)
      else
        let used := p.txn.used
        let t := p.txn.armedFor
        let p := if p.txnState = 2 then p.abandonValidation (.of 12) 6 else p
        let p := p.each (p.pairPackets t) Part.takeRx
        (p.txnIdle.bump TIK_STAT_ROLLBACK 1).endCmd q c 0 used

end Sys2Proof.Machine
end

