-- ==== Sys2Proof/Machine/Dispatch.lean ====
section
/-!
DEFINITION. Every command has its meaning: one arm for each constructor.
-/
namespace Sys2Proof.Machine

/-- The effect of a command on everything but the queue. -/
def exec (i : Instr) (s : State) : Host.Outcome State Fault Refusal :=
  match i with
  | .tickTokenSend => Sys2Proof.Machine.execTickTokenSend s
  | .tickIssue => Sys2Proof.Machine.execTickIssue s
  | .tickToken rx t => Sys2Proof.Machine.execTickToken rx t s
  | .tickInEdge => Sys2Proof.Machine.execTickInEdge s
  | .tickApply => Sys2Proof.Machine.execTickApply s
  | .tickFallback => Sys2Proof.Machine.execTickFallback s
  | .strayEdgeDiscard => Sys2Proof.Machine.execStrayEdgeDiscard s
  | .journalUnwindDone => Sys2Proof.Machine.execJournalUnwindDone s
  | .phaseStart phase => Sys2Proof.Machine.execPhaseStart phase s
  | .commitPoint => Sys2Proof.Machine.execCommitPoint s
  | .guardBoundary => Sys2Proof.Machine.execGuardBoundary s
  | .frameStatusReceive => Sys2Proof.Machine.execFrameStatusReceive s
  | .standbyTakeover => Sys2Proof.Machine.execStandbyTakeover s
  | .stretchRequestReceive => Sys2Proof.Machine.execStretchRequestReceive s
  | .holdPacketReceive => Sys2Proof.Machine.execHoldPacketReceive s
  | .releasePacketReceive => Sys2Proof.Machine.execReleasePacketReceive s
  | .holdNotice rx => Sys2Proof.Machine.execHoldNotice rx s
  | .coreStart => Sys2Proof.Machine.execCoreStart s
  | .nop core => Sys2Proof.Machine.execNop core s
  | .br core f => Sys2Proof.Machine.execBr core f s
  | .jal core f => Sys2Proof.Machine.execJal core f s
  | .jalr core f => Sys2Proof.Machine.execJalr core f s
  | .halt core => Sys2Proof.Machine.execHalt core s
  | .add core f => Sys2Proof.Machine.execAdd core f s
  | .sub core f => Sys2Proof.Machine.execSub core f s
  | .mul core f => Sys2Proof.Machine.execMul core f s
  | .and core f => Sys2Proof.Machine.execAnd core f s
  | .or core f => Sys2Proof.Machine.execOr core f s
  | .xor core f => Sys2Proof.Machine.execXor core f s
  | .shl core f => Sys2Proof.Machine.execShl core f s
  | .shr core f => Sys2Proof.Machine.execShr core f s
  | .sra core f => Sys2Proof.Machine.execSra core f s
  | .slt core f => Sys2Proof.Machine.execSlt core f s
  | .sltu core f => Sys2Proof.Machine.execSltu core f s
  | .lds core f => Sys2Proof.Machine.execLds core f s
  | .sts core f => Sys2Proof.Machine.execSts core f s
  | .ldg core f => Sys2Proof.Machine.execLdg core f s
  | .stg core f => Sys2Proof.Machine.execStg core f s
  | .rdsys core f => Sys2Proof.Machine.execRdsys core f s
  | .mload core f => Sys2Proof.Machine.execMload core f s
  | .mac core f => Sys2Proof.Machine.execMac core f s
  | .setvl core f => Sys2Proof.Machine.execSetvl core f s
  | .udef core f => Sys2Proof.Machine.execUdef core f s
  | .vstream core f => Sys2Proof.Machine.execVstream core f s
  | .vdrain core f => Sys2Proof.Machine.execVdrain core f s
  | .dset core f => Sys2Proof.Machine.execDset core f s
  | .rack core f => Sys2Proof.Machine.execRack core f s
  | .ureq core f => Sys2Proof.Machine.execUreq core f s
  | .ask core f => Sys2Proof.Machine.execAsk core f s
  | .submit core f => Sys2Proof.Machine.execSubmit core f s
  | .done core f => Sys2Proof.Machine.execDone core f s
  | .closeq core rb => Sys2Proof.Machine.execCloseq core rb s
  | .signal core f => Sys2Proof.Machine.execSignal core f s
  | .wait core f => Sys2Proof.Machine.execWait core f s
  | .herd core f => Sys2Proof.Machine.execHerd core f s
  | .fence core kind => Sys2Proof.Machine.execFence core kind s
  | .tag core imm => Sys2Proof.Machine.execTag core imm s
  | .mark core f => Sys2Proof.Machine.execMark core f s
  | .matrixLoadStart core => Sys2Proof.Machine.execMatrixLoadStart core s
  | .matrixLoadDone core => Sys2Proof.Machine.execMatrixLoadDone core s
  | .matrixPassStart core upset => Sys2Proof.Machine.execMatrixPassStart core upset s
  | .matrixPassDone core => Sys2Proof.Machine.execMatrixPassDone core s
  | .drainStart core upset => Sys2Proof.Machine.execDrainStart core upset s
  | .drainDone core => Sys2Proof.Machine.execDrainDone core s
  | .vectorStreamStart core upset => Sys2Proof.Machine.execVectorStreamStart core upset s
  | .evSignalArrive core ev => Sys2Proof.Machine.execEvSignalArrive core ev s
  | .waitComplete core => Sys2Proof.Machine.execWaitComplete core s
  | .herdRelease line => Sys2Proof.Machine.execHerdRelease line s
  | .ldgReturn core => Sys2Proof.Machine.execLdgReturn core s
  | .stgComplete core => Sys2Proof.Machine.execStgComplete core s
  | .fenceComplete core => Sys2Proof.Machine.execFenceComplete core s
  | .preload sector => Sys2Proof.Machine.execPreload sector s
  | .descEnterQueue sector => Sys2Proof.Machine.execDescEnterQueue sector s
  | .remoteSubmission sector => Sys2Proof.Machine.execRemoteSubmission sector s
  | .descHandover core => Sys2Proof.Machine.execDescHandover core s
  | .completionRelease sector flow => Sys2Proof.Machine.execCompletionRelease sector flow s
  | .dcZeroRelease sector => Sys2Proof.Machine.execDcZeroRelease sector s
  | .delayRelease sector => Sys2Proof.Machine.execDelayRelease sector s
  | .sampleRequestStart sector => Sys2Proof.Machine.execSampleRequestStart sector s
  | .rowGatherStart sector => Sys2Proof.Machine.execRowGatherStart sector s
  | .tileFetchStart sector => Sys2Proof.Machine.execTileFetchStart sector s
  | .tileStoreStart sector => Sys2Proof.Machine.execTileStoreStart sector s
  | .rowScatterStart sector => Sys2Proof.Machine.execRowScatterStart sector s
  | .pooledLookupStart sector => Sys2Proof.Machine.execPooledLookupStart sector s
  | .rowArrive sector req fetch => Sys2Proof.Machine.execRowArrive sector req fetch s
  | .remoteRowRequest => Sys2Proof.Machine.execRemoteRowRequest s
  | .runAheadFetch sector => Sys2Proof.Machine.execRunAheadFetch sector s
  | .unitRequestComplete sector req => Sys2Proof.Machine.execUnitRequestComplete sector req s
  | .rcHalve sector => Sys2Proof.Machine.execRcHalve sector s
  | .levelPass sector => Sys2Proof.Machine.execLevelPass sector s
  | .pressSortStart sector => Sys2Proof.Machine.execPressSortStart sector s
  | .contributionArrive sector => Sys2Proof.Machine.execContributionArrive sector s
  | .pressEndMarker => Sys2Proof.Machine.execPressEndMarker s
  | .pressEndMarkerArrive => Sys2Proof.Machine.execPressEndMarkerArrive s
  | .ownerMerge sector => Sys2Proof.Machine.execOwnerMerge sector s
  | .composedRun sector => Sys2Proof.Machine.execComposedRun sector s
  | .gradArrayClear sector => Sys2Proof.Machine.execGradArrayClear sector s
  | .optRowJob sector upset => Sys2Proof.Machine.execOptRowJob sector upset s
  | .optBlockJob sector ctl => Sys2Proof.Machine.execOptBlockJob sector ctl s
  | .patrolScrub sector ctl errs => Sys2Proof.Machine.execPatrolScrub sector ctl errs s
  | .hbmRefresh sector ctl => Sys2Proof.Machine.execHbmRefresh sector ctl s
  | .hbmTrainingDone => Sys2Proof.Machine.execHbmTrainingDone s
  | .hbmZero => Sys2Proof.Machine.execHbmZero s
  | .rackUnitReadDone sector tag => Sys2Proof.Machine.execRackUnitReadDone sector tag s
  | .remoteRackOpen => Sys2Proof.Machine.execRemoteRackOpen s
  | .rackOpenReply => Sys2Proof.Machine.execRackOpenReply s
  | .rackPullRequest => Sys2Proof.Machine.execRackPullRequest s
  | .rackPushUnit => Sys2Proof.Machine.execRackPushUnit s
  | .rackPushAck => Sys2Proof.Machine.execRackPushAck s
  | .rackComplete sector tag => Sys2Proof.Machine.execRackComplete sector tag s
  | .remoteLdgStg => Sys2Proof.Machine.execRemoteLdgStg s
  | .fabTrain => Sys2Proof.Machine.execFabTrain s
  | .fabTrainStop => Sys2Proof.Machine.execFabTrainStop s
  | .electricalTrainingDone port => Sys2Proof.Machine.execElectricalTrainingDone port s
  | .identityExchange port n => Sys2Proof.Machine.execIdentityExchange port n s
  | .portAuthenticate port n => Sys2Proof.Machine.execPortAuthenticate port n s
  | .tickPathProbe rx standby latency hops => Sys2Proof.Machine.execTickPathProbe rx standby latency hops s
  | .tickPathStageEnd => Sys2Proof.Machine.execTickPathStageEnd s
  | .portRetrain port => Sys2Proof.Machine.execPortRetrain port s
  | .packetInject => Sys2Proof.Machine.execPacketInject s
  | .fabricPacketArrive port h pkt => Sys2Proof.Machine.execFabricPacketArrive port h pkt s
  | .flagAckArrive => Sys2Proof.Machine.execFlagAckArrive s
  | .linkAck port seq => Sys2Proof.Machine.execLinkAck port seq s
  | .linkReject port seq => Sys2Proof.Machine.execLinkReject port seq s
  | .receiveStall port => Sys2Proof.Machine.execReceiveStall port s
  | .ackTimeout port => Sys2Proof.Machine.execAckTimeout port s
  | .fastRetrainDone port ok => Sys2Proof.Machine.execFastRetrainDone port ok s
  | .fullRetrainDone port r => Sys2Proof.Machine.execFullRetrainDone port r s
  | .accountingSend => Sys2Proof.Machine.execAccountingSend s
  | .lossNoticeArrive => Sys2Proof.Machine.execLossNoticeArrive s
  | .fabricFreeze rx => Sys2Proof.Machine.execFabricFreeze rx s
  | .bucketStart bucket => Sys2Proof.Machine.execBucketStart bucket s
  | .reduceStep bucket => Sys2Proof.Machine.execReduceStep bucket s
  | .reduceBlockArrive => Sys2Proof.Machine.execReduceBlockArrive s
  | .onebitContribArrive => Sys2Proof.Machine.execOnebitContribArrive s
  | .onebitResultArrive => Sys2Proof.Machine.execOnebitResultArrive s
  | .bucketComplete bucket => Sys2Proof.Machine.execBucketComplete bucket s
  | .lossDeclarationReceive => Sys2Proof.Machine.execLossDeclarationReceive s
  | .twinJobRecord => Sys2Proof.Machine.execTwinJobRecord s
  | .twinRawLines => Sys2Proof.Machine.execTwinRawLines s
  | .twinEndMarker => Sys2Proof.Machine.execTwinEndMarker s
  | .twinAckReceive => Sys2Proof.Machine.execTwinAckReceive s
  | .twinRestore => Sys2Proof.Machine.execTwinRestore s
  | .twinRestoreDone => Sys2Proof.Machine.execTwinRestoreDone s
  | .linkTraining cxl rate width => Sys2Proof.Machine.execLinkTraining cxl rate width s
  | .hdmDecoderCommit decoder base size skip ways => Sys2Proof.Machine.execHdmDecoderCommit decoder base size skip ways s
  | .cxlMemRead addr errs => Sys2Proof.Machine.execCxlMemRead addr errs s
  | .cxlMemWrite addr data poison => Sys2Proof.Machine.execCxlMemWrite addr data poison s
  | .h2dSnoop addr => Sys2Proof.Machine.execH2dSnoop addr s
  | .sqDoorbell queue tail host => Sys2Proof.Machine.execSqDoorbell queue tail host s
  | .queueDisable queue => Sys2Proof.Machine.execQueueDisable queue s
  | .cmdNop queue => Sys2Proof.Machine.execCmdNop queue s
  | .copyIn queue host => Sys2Proof.Machine.execCopyIn queue host s
  | .copyOut queue => Sys2Proof.Machine.execCopyOut queue s
  | .hostSubmit queue host => Sys2Proof.Machine.execHostSubmit queue host s
  | .graftLoad queue host => Sys2Proof.Machine.execGraftLoad queue host s
  | .txnBegin queue => Sys2Proof.Machine.execTxnBegin queue s
  | .txnStage queue host => Sys2Proof.Machine.execTxnStage queue host s
  | .txnCommit queue => Sys2Proof.Machine.execTxnCommit queue s
  | .txnValidationDone => Sys2Proof.Machine.execTxnValidationDone s
  | .txnRollback queue => Sys2Proof.Machine.execTxnRollback queue s
  | .quiesce queue => Sys2Proof.Machine.execQuiesce queue s
  | .resume queue => Sys2Proof.Machine.execResume queue s
  | .completionRecordWrite queue => Sys2Proof.Machine.execCompletionRecordWrite queue s
  | .crHeadWrite queue head => Sys2Proof.Machine.execCrHeadWrite queue head s
  | .inCommit channel word => Sys2Proof.Machine.execInCommit channel word s
  | .blockDelivery channel => Sys2Proof.Machine.execBlockDelivery channel s
  | .statusRecordWrite => Sys2Proof.Machine.execStatusRecordWrite s
  | .hostReset kind => Sys2Proof.Machine.execHostReset kind s
  | .registerWrite offset size value => Sys2Proof.Machine.execRegisterWrite offset size value s
  | .powerUp strap => Sys2Proof.Machine.execPowerUp strap s
  | .boot => Sys2Proof.Machine.execBoot s
  | .fwReady => Sys2Proof.Machine.execFwReady s
  | .getInfo m => Sys2Proof.Machine.execGetInfo m s
  | .getTelemetry m => Sys2Proof.Machine.execGetTelemetry m s
  | .getErrrec m seq => Sys2Proof.Machine.execGetErrrec m seq s
  | .getLimits m => Sys2Proof.Machine.execGetLimits m s
  | .setLimits m watts dieC hbmC holdC => Sys2Proof.Machine.execSetLimits m watts dieC hbmC holdC s
  | .setGraftKey m slot key => Sys2Proof.Machine.execSetGraftKey m slot key s
  | .setPolicy m signedOnly linkMatch minSvn => Sys2Proof.Machine.execSetPolicy m signedOnly linkMatch minSvn s
  | .ownerSet m digest => Sys2Proof.Machine.execOwnerSet m digest s
  | .ownerClear m => Sys2Proof.Machine.execOwnerClear m s
  | .fwBegin m length => Sys2Proof.Machine.execFwBegin m length s
  | .fwWrite m offset chunk => Sys2Proof.Machine.execFwWrite m offset chunk s
  | .fwVerify m => Sys2Proof.Machine.execFwVerify m s
  | .fwActivate m => Sys2Proof.Machine.execFwActivate m s
  | .fwCommitSvn m => Sys2Proof.Machine.execFwCommitSvn m s
  | .testLoad m container => Sys2Proof.Machine.execTestLoad m container s
  | .spdmRequest via r => Sys2Proof.Machine.execSpdmRequest via r s
  | .sessionTimeout via => Sys2Proof.Machine.execSessionTimeout via s
  | .telemetrySample t => Sys2Proof.Machine.execTelemetrySample t s
  | .thermalRelease => Sys2Proof.Machine.execThermalRelease s
  | .thermalTrip sensor => Sys2Proof.Machine.execThermalTrip sensor s
  | .firmwareFault => Sys2Proof.Machine.execFirmwareFault s
  | .dupCheck sector spare err => Sys2Proof.Machine.execDupCheck sector spare err s
  | .dupArbitrate sector spare err => Sys2Proof.Machine.execDupArbitrate sector spare err s
  | .integrityNoticeReceive => Sys2Proof.Machine.execIntegrityNoticeReceive s
  | .selftestSlice sector spare unit pattern pass => Sys2Proof.Machine.execSelftestSlice sector spare unit pattern pass s
  | .fullTestRequest => Sys2Proof.Machine.execFullTestRequest s
  | .fullTestCancel => Sys2Proof.Machine.execFullTestCancel s
  | .fullTestRun failedCores failedPatterns => Sys2Proof.Machine.execFullTestRun failedCores failedPatterns s
  | .freeze => Sys2Proof.Machine.execFreeze s
  | .freezeIn => Sys2Proof.Machine.execFreezeIn s
  | .thaw => Sys2Proof.Machine.execThaw s
  | .scanRead jtag => Sys2Proof.Machine.execScanRead jtag s
  | .bypass => Sys2Proof.Machine.execBypass s
  | .idcode => Sys2Proof.Machine.execIdcode s
  | .samplePreload cells => Sys2Proof.Machine.execSamplePreload cells s
  | .extest cells => Sys2Proof.Machine.execExtest cells s
  | .clamp => Sys2Proof.Machine.execClamp s
  | .highz => Sys2Proof.Machine.execHighz s
  | .extestPulse cells => Sys2Proof.Machine.execExtestPulse cells s
  | .extestTrain cells => Sys2Proof.Machine.execExtestTrain cells s
  | .scanWin => Sys2Proof.Machine.execScanWin s
  | .supplyWarning centivolts => Sys2Proof.Machine.execSupplyWarning centivolts s
  | .recoveryTimer centivolts => Sys2Proof.Machine.execRecoveryTimer centivolts s
  | .holdRepeat => Sys2Proof.Machine.execHoldRepeat s
  | .holdLapse chip source => Sys2Proof.Machine.execHoldLapse chip source s
  | .undervoltageReset centivolts => Sys2Proof.Machine.execUndervoltageReset centivolts s
  | .overvoltageFlag centivolts => Sys2Proof.Machine.execOvervoltageFlag centivolts s
  | .railFault rail millivolts => Sys2Proof.Machine.execRailFault rail millivolts s
  | .frefclkLoss => Sys2Proof.Machine.execFrefclkLoss s
  | .refclk100Loss => Sys2Proof.Machine.execRefclk100Loss s
  | .resetN => Sys2Proof.Machine.execResetN s
  | .perstN => Sys2Proof.Machine.execPerstN s
  | .cclkStop => Sys2Proof.Machine.execCclkStop s
  | .cclkRestart => Sys2Proof.Machine.execCclkRestart s
  | .illegalOrReservedEncoding core => Sys2Proof.Machine.execIllegalOrReservedEncoding core s
  | .vectorStreamDone core => Sys2Proof.Machine.execVectorStreamDone core s
  | .laneLosesLock port => Sys2Proof.Machine.execLaneLosesLock port s
  | .stackSensorRead sector ctl celsius => Sys2Proof.Machine.execStackSensorRead sector ctl celsius s
  | .inputFallsBelow20v => Sys2Proof.Machine.execInputFallsBelow20v s
  | .pciPowerStateChange d3hot busMaster => Sys2Proof.Machine.execPciPowerStateChange d3hot busMaster s
  | .mctpControlMessage via eid => Sys2Proof.Machine.execMctpControlMessage via eid s
  | .twinRestorePull => Sys2Proof.Machine.execTwinRestorePull s

end Sys2Proof.Machine
end

