-- ==== Sys2Proof/Machine/Idle.lean ====
section
/-!
DEFINITION. One CCLK cycle with no command: what goes on by itself while no command waits. DESIGN CHOICE (log 11).
-/
namespace Sys2Proof.Machine

/-- The records a trace buffer holds (R510). -/
def Part.traceRoom (p : Part) (b : Nat) : Nat := p.getF (traceBase b) 48 16 * 2 ^ 15

/-- Write the oldest staged record of a buffer (R509, R510): at its end the buffer wraps or writing stops. -/
def Part.drainRecord (p : Part) (b : Nat) : Part :=
  let room := p.traceRoom b
  let head := p.rd (traceHead b)
  match spGet [] p.obs.stage b with
  | [] => p
  | r :: rest =>
    if room = 0 ∨ (head ≥ room ∧ !p.getB (traceCfg b) 1) then p
    else
      let p := p.modObs fun o => { o with stage := spSet [] o.stage b rest }
      (p.store 14 0 (p.getF (traceBase b) 0 40 + 32 * (head % room)) r.bytes none).bump (traceHead b) 1

/-- At most 64 bytes a cycle go to HBM (R510). -/
def Part.drainTrace (p : Part) (b : Nat) : Part := if p.getB (traceCfg b) 0 then (p.drainRecord b).drainRecord b else p

/-- One cycle of CCLK, while it runs: counts, the configuration entries of the vector engines, and trace records.
DESIGN CHOICE (log 11, unsafe): An empty queue: the step passes one CCLK cycle instead of idling.
DEDUCED (log 120, unsafe): Trace records drain two a cycle and buffer while time passes (R510).
DESIGN CHOICE (log 122, unsafe): Scope: timing. Cycle counts of instructions, bandwidths, bank conflicts, latencies and the rates of chapters 2 to 13 are not modelled. -/
def Part.passCycle (p : Part) : Part :=
  if !p.clocked then p
  else
    let p := p.elapse 1
    let p := if p.obs.frozen then p else p.each (p.cores.map (·.1)) fun p c => p.modCore c Core.advance
    p.each [0, 1, 2, 3, 4] Part.drainTrace

end Sys2Proof.Machine
end

