-- ==== Sys2Proof/Safety.lean ====
section
/-!
DEFINITION. What claims call safe: steps that answer a next state, and the invariants of the state.
-/
namespace Sys2Proof.Machine

/-- The memory is in its canonical form: addresses strictly rise, and no entry holds what an unlisted address reads as. -/
def Memory.wf (m : Mem) : Bool := spWf (fun _ => 0#8) m.bytes && spWf (fun _ => 0) m.chk && spWf (fun _ => false) m.granules

/-- Without an owner the store holds no graft signer key, and signed_only and link_owner_match are 0 (R468). -/
def Nv.ok (n : Nv) : Bool := n.owner.isSome || (n.keys == [none, none, none, none] && !n.signedOnly && !n.linkOwnerMatch)

/-- What manufacturing test fixed for good, the fuses but the security version (R455). -/
def Fuses.fixed (f : Fuses) : Fuses := { f with svnBits := 0 }

/-- Every sector has as many spare cores as its grade allows (R5). -/
def Fuses.sparesOk (f : Fuses) : Bool := sectors.all fun x => decide (16 ≤ f.spares x) && decide (f.spares x ≤ if f.big then 64 else 320)

/-- The minimum security version has not gone down between two fuses (R460). -/
def Fuses.svnKept (f g : Fuses) : Prop := f.svnBits &&& g.svnBits = f.svnBits

/-- A step answers a next state. -/
def Steps (s t : State) : Prop := step s = .next t

/-- The command answers the next state in which the part alone has changed, to `q`: the waiting commands, the fuses, the
non-volatile store and the reset latches are as before. -/
def Becomes (c : Instr) (s : State) (q : Part) : Prop := exec c s = .next { s with p := q }

/-- Core `c` may issue an instruction that names these registers: its program counter lies in the code partition and none of the
registers awaits a load (R111). -/
def Part.ready (p : Part) (c : Nat) (regs : List Nat) : Bool :=
  p.mayIssue c && decide ((p.core c).pc < p.codeEnd c) && !(regs.any (p.core c).awaits)

/-- The byte that the memory of the part holds at a local address. -/
def Part.byteAt (p : Part) (x : Nat) : Byte := spGet 0#8 p.mem.bytes x

/-- Nothing of the part but core `c` differs. -/
def OnlyCore (p q : Part) (c : Nat) : Prop := q = { p with cores := q.cores } ∧ ∀ d, d ≠ c → q.core d = p.core d

/-- Core `c` runs on at `pc` with `v` in register `rd` (g0 stays zero); its other registers, the rest of the core and the rest of the
part are as before. -/
def RunsAt (p q : Part) (c pc rd v : Nat) : Prop :=
  OnlyCore p q c ∧ (q.core c).reg rd = (if rd = 0 then 0 else v) ∧ (∀ r, r ≠ rd → (q.core c).reg r = (p.core c).reg r) ∧
    q.core c = { (p.core c).runs.next with g := (q.core c).g, pc := pc }

/-- An instruction of core `c` has issued with `v` in `rd`, and the next one follows it. -/
def Retires (p q : Part) (c rd v : Nat) : Prop := RunsAt p q c ((p.core c).pc + 8) rd v

/-- Core `c` goes on to its next instruction, with no other change of the part than the one of the core that `f` makes. -/
def MovesOn (p q : Part) (c : Nat) (f : Core → Core) : Prop :=
  OnlyCore p q c ∧ q.core c = f (p.core c).runs.next

/-- Core `c` has faulted with a code at its present instruction (R55): it issues no more and COR_FAULT shows the code. -/
def FaultsWith (p q : Part) (c code : Nat) : Prop :=
  (q.core c).st = .faulted ∧ (q.core c).faultCode = code ∧ (q.core c).faultPc = (p.core c).pc % 65536 ∧
    (∀ d, d ≠ c → q.core d = p.core d)

/-- A control message has gone out at cycle `t` by every up torus bundle but one, in its two copies, 4 cycles apart (R350). -/
def Floods (p q : Part) (t : Nat) (except : Option Nat) (corr : Nat) (m : CtlMsg) : Prop :=
  ∀ b n, b < 8 → except ≠ some b → p.ctlPort b = some n →
    (⟨b, n, t, ⟨corr, false⟩, m⟩ : CtlOut) ∈ q.fab.ctlOut ∧ (⟨b, n, t + 4, ⟨corr, true⟩, m⟩ : CtlOut) ∈ q.fab.ctlOut

/-- The control message is one to use: a first copy, or a second copy whose first was not used (R350). -/
def Part.fresh2 (p : Part) (b : Nat) (h : CtlHead) (m : CtlMsg) : Prop := h.second = true → spGet none p.fab.firstCopy b ≠ some m

/-- Command `c` of command queue `n` has ended with a status and a result (R405): it left the queue, and its record waits among those that
ended, with the tick count and frame number of its end. -/
def EndsCmd (p q : Part) (n : Nat) (c : HostCmd) (status result : Nat) : Prop :=
  (q.cq n).cmds.length < (p.cq n).cmds.length ∧
    ∃ l r, (q.cq n).ended = (p.cq n).ended ++ l ++
      { c with running := false, status := status, result := result, tick := p.tickCount, frame := p.frameNo } :: r

end Sys2Proof.Machine
end

