-- ==== Sys2Proof/WellFormed.lean ====
section
/-!
DEFINITION. Well-formed commands: operands that the part's interfaces can carry at all. A value that a rule of the spec answers
(a reserved port of a register write, a limit out of range) is well formed: its meaning says what becomes of it.
-/
namespace Sys2Proof

/-- A packet as the header of R332 can carry it. -/
def Packet.wf (q : Packet) : Bool :=
  q.route < 2 ^ 240 && q.src < 2 ^ 16 && q.dst < 2 ^ 16 && q.epoch < 16 && q.cls < 16 && q.window < 256 && q.kind < 16 && q.ref < 2 ^ 20 &&
    q.poison < 2 ^ 64 && q.payload.length < 128 * 32 && q.payload.length % 32 == 0

/-- A token as R17 can carry it. -/
def TokenMsg.wf (t : TokenMsg) : Bool := t.count < 2 ^ 64 && t.len < 2 ^ 27 && t.stretch < 2 ^ 27 && t.master < 2 ^ 16

/-- A line of host memory (R399): a whole aligned line, or less of one. -/
def HostLine.wf (l : HostLine) : Bool := l.addr < 2 ^ 64 && 0 < l.data.length && l.addr % 64 + l.data.length ≤ 64

/-- The ports and bundles (R325, R326). -/
def portOk (n : Nat) : Bool := n < 34
/-- A torus bundle or the twin ports. -/
def bundleOk (b : Nat) : Bool := b < 9

/-- What a neighbour says of itself (R330, R356). -/
def Neighbour.wf (x : Neighbour) : Bool := x.chip < 2 ^ 16 && x.port < 64 && x.topo < 2 ^ 16
/-- What a neighbour presents (R471); a security version is 0 to 63 (R455). -/
def Credential.wf (x : Credential) : Bool := x.svn ≤ 63

/-- A command is well formed. -/
def Instr.wf (c : Instr) : Bool :=
  match c with
  | .tickToken rx t => bundleOk rx.bundle && t.wf
  | .holdNotice rx => bundleOk rx.bundle
  | .tickPathProbe rx _ lat hops => bundleOk rx.bundle && lat < 2 ^ 16 && hops < 256
  | .fabricFreeze rx => bundleOk rx.bundle
  | .phaseStart ph => 1 ≤ ph && ph ≤ 3
  | .electricalTrainingDone n => portOk n
  | .identityExchange n x => portOk n && x.wf
  | .portAuthenticate n x => portOk n && x.wf
  | .portRetrain n => portOk n
  | .fabricPacketArrive n h q => portOk n && h.seq < 4096 && h.vc < 4 && q.wf
  | .linkAck n seq => portOk n && seq < 4096
  | .linkReject n seq => portOk n && seq < 4096
  | .receiveStall n => portOk n
  | .ackTimeout n => portOk n
  | .fastRetrainDone n _ => portOk n
  | .fullRetrainDone n r => portOk n && r.neighbour.wf && r.credential.wf
  | .laneLosesLock n => portOk n
  | .bucketStart b => b < 4096
  | .reduceStep b => b < 4096
  | .bucketComplete b => b < 4096
  | .linkTraining _ rate width => rate ≤ 4 && width ≤ 4
  | .hdmDecoderCommit _ base size skip _ => base < 2 ^ 64 && size < 2 ^ 64 && skip < 2 ^ 64
  | .cxlMemRead a _ => a < 2 ^ 64
  | .cxlMemWrite a bs _ => a < 2 ^ 64 && bs.length == 64
  | .h2dSnoop a => a < 2 ^ 64
  | .sqDoorbell _ _ l => l.all HostLine.wf
  | .copyIn _ l => l.all HostLine.wf
  | .hostSubmit _ l => l.all HostLine.wf
  | .graftLoad _ l => l.all HostLine.wf
  | .txnStage _ l => l.all HostLine.wf
  | .registerWrite off size _ => off < 2 ^ 28 && 0 < size && size ≤ 64
  | .thermalTrip i => i < 72
  | .railFault r _ => r < 17
  | .selftestSlice _ spare unit _ _ => if spare then unit < 512 else unit < 2048
  | .dupCheck _ n _ => n < 512
  | .dupArbitrate _ n _ => n < 512
  | .holdLapse chip src => chip < 2 ^ 16 && src < 3
  | _ => true

end Sys2Proof
end

