-- ==== Sys2Proof/Certificates/Slice0/Obligations.lean ====
section
/-!
DEFINITION. The statements about the model, for the provers.
-/
open Sys2Proof Sys2Proof.Machine

/-- R53, R115: the arithmetic, logical, shift and comparison instructions, with their frame; b is the immediate when i = 1, a shift takes b[4:0] and a
comparison gives 1 or 0. Register g0 reads zero and ignores writes; a write of any other register changes that register alone. -/
def Obligations.ScalarInstructions : Prop :=
  (∀ (s : State) (n : BitVec 13) (f : FmtA), s.p.ready n.toNat (f.rd.toNat :: f.sources) = true →
      let k := s.p.core n.toNat
      let a : Word := BitVec.ofNat 32 (k.reg f.ra.toNat)
      let b : Word := if f.i = 1 then f.imm else BitVec.ofNat 32 (k.reg f.rb.toNat)
      let gives (c : Instr) (v : Word) : Prop := ∃ q, Becomes c s q ∧ Retires s.p q n.toNat f.rd.toNat v.toNat
      gives (.add n f) (a + b) ∧ gives (.sub n f) (a - b) ∧ gives (.mul n f) (a * b) ∧
        gives (.and n f) (a &&& b) ∧ gives (.or n f) (a ||| b) ∧ gives (.xor n f) (a ^^^ b)) ∧
  (∀ (s : State) (n : BitVec 13) (f : FmtA), s.p.ready n.toNat (f.rd.toNat :: f.sources) = true →
      let k := s.p.core n.toNat
      let a : Word := BitVec.ofNat 32 (k.reg f.ra.toNat)
      let b : Word := if f.i = 1 then f.imm else BitVec.ofNat 32 (k.reg f.rb.toNat)
      let gives (c : Instr) (v : Word) : Prop := ∃ q, Becomes c s q ∧ Retires s.p q n.toNat f.rd.toNat v.toNat
      gives (.shl n f) (a <<< (b.extractLsb' 0 5).toNat) ∧ gives (.shr n f) (a >>> (b.extractLsb' 0 5).toNat) ∧
        gives (.sra n f) (a.sshiftRight (b.extractLsb' 0 5).toNat) ∧
        gives (.slt n f) (if a.toInt < b.toInt then 1 else 0) ∧ gives (.sltu n f) (if a.toNat < b.toNat then 1 else 0)) ∧
  (∀ (k : Core) (r v j : Nat), k.reg 0 = 0 ∧ k.setReg 0 v = k ∧
      (k.setReg r v).reg j = (if r = j ∧ r ≠ 0 then v % 2 ^ 32 else k.reg j) ∧ k.setReg r v = { k with g := (k.setReg r v).g })

/-- R109, R111, R118: NOP, a branch taken or not taken, JAL and JALR go on at the address the rule gives, with the return address in rd, and change
nothing else; the conditions of a branch, codes 0 to 6; an illegal or reserved encoding faults the core with code 1. -/
def Obligations.ControlFlow : Prop :=
  (∀ (s : State) (n : BitVec 13),
      let c := n.toNat
      let k := s.p.core c
      (s.p.ready c [] = true → ∃ q, Becomes (.nop n) s q ∧ Retires s.p q c 0 0) ∧
      (∀ (f : BrF) (taken : Bool), s.p.ready c [f.ra.toNat, f.rb.toNat] = true →
        brCond f.cond.toNat (BitVec.ofNat 32 (k.reg f.ra.toNat)) (BitVec.ofNat 32 (k.reg f.rb.toNat)) = some taken →
        f.target.toNat % 8 = 0 → f.target.toNat < s.p.codeEnd c →
        ∃ q, Becomes (.br n f) s q ∧ RunsAt s.p q c (if taken then f.target.toNat else k.pc + 8) 0 0) ∧
      (∀ f : JalF, s.p.ready c [f.rd.toNat] = true → f.target.toNat % 8 = 0 → f.target.toNat < s.p.codeEnd c →
        ∃ q, Becomes (.jal n f) s q ∧ RunsAt s.p q c f.target.toNat f.rd.toNat ((k.pc + 8) % 2 ^ 32)) ∧
      (∀ f : JalrF, s.p.ready c [f.rd.toNat, f.ra.toNat] = true → k.reg f.ra.toNat % 8 = 0 → k.reg f.ra.toNat < s.p.codeEnd c →
        ∃ q, Becomes (.jalr n f) s q ∧ RunsAt s.p q c (k.reg f.ra.toNat) f.rd.toNat ((k.pc + 8) % 2 ^ 32))) ∧
  (∀ a b : Word, brCond 0 a b = some true ∧ brCond 1 a b = some (decide (a = b)) ∧ brCond 2 a b = some (decide (a ≠ b)) ∧
      brCond 3 a b = some (decide (a.toInt < b.toInt)) ∧ brCond 4 a b = some (decide (b.toInt ≤ a.toInt)) ∧
      brCond 5 a b = some (decide (a.toNat < b.toNat)) ∧ brCond 6 a b = some (decide (b.toNat ≤ a.toNat)) ∧
      ∀ n, 7 ≤ n → brCond n a b = none) ∧
  (∀ (s : State) (n : BitVec 13), s.p.mayIssue n.toNat = true → (s.p.core n.toNat).faultSeq = none →
      ∃ q, Becomes (.illegalOrReservedEncoding n) s q ∧ FaultsWith s.p q n.toNat 1)

/-- R112, R115: LDS and STS of a word of the core's scratchpad that no instruction in flight stands before and that is not poison;
the frame of the store is every other byte. Past the scratchpad both fault with code 2, and a store into the code partition with code
3. -/
def Obligations.LocalLoadsAndStores : Prop :=
  ∀ (s : State) (n : BitVec 13) (f : FmtA), s.p.ready n.toNat (f.rd.toNat :: f.sources) = true →
    let p := s.p
    let c := n.toNat
    let k := p.core c
    let a := (k.reg f.ra.toNat + if f.i = 1 then f.imm.toNat else k.reg f.rb.toNat) % 2 ^ 32 / 4 * 4
    (a + 4 ≤ 0x50000 → p.mustWait c k.seq [(a, a + 4)] [] = false → p.spadPoison c (a, a + 4) = none →
      ∃ q, Becomes (.lds n f) s q ∧ Retires p q c f.rd.toNat (leNat (p.spad c a 4) % 2 ^ 32)) ∧
    (a + 4 ≤ 0x50000 → p.codeEnd c ≤ a → p.mustWait c k.seq [] [(a, a + 4)] = false → p.granPoison (spadAddr c a) = false →
      ∃ q, Becomes (.sts n f) s q ∧ q = { p with cores := q.cores, mem := { p.mem with bytes := q.mem.bytes } } ∧
        (∀ d, q.core d = if d = c then k.runs.next else p.core d) ∧
        ∀ x, q.byteAt x =
          if spadAddr c a ≤ x ∧ x < spadAddr c a + 4 then (leBytes 4 (k.reg f.rd.toNat)).getD (x - spadAddr c a) 0#8 else p.byteAt x) ∧
    (k.faultSeq = none → 0x50000 < a + 4 →
      (∃ q, Becomes (.lds n f) s q ∧ FaultsWith p q c 2) ∧ ∃ q, Becomes (.sts n f) s q ∧ FaultsWith p q c 2) ∧
    (k.faultSeq = none → a + 4 ≤ 0x50000 → a < p.codeEnd c → ∃ q, Becomes (.sts n f) s q ∧ FaultsWith p q c 3)

/-- R116: LDG and STG go out with the pair, the counter and the value of the core, at most four at a time; a word of this part outside
every mapped region faults with code 8; a fifth stalls issue in state 7. -/
def Obligations.IrregularAccesses : Prop :=
  ∀ (s : State) (n : BitVec 13) (f : IrrF), s.p.ready n.toNat [f.rd.toNat, f.ra.toNat, f.rb.toNat] = true →
    let p := s.p
    let c := n.toNat
    let k := p.core c
    let g := ((k.reg f.rb.toNat % 2 ^ 24) * 2 ^ 32 + k.reg f.ra.toNat) / 4 * 4
    let goes (i : Instr) (load : Bool) : Prop :=
      (k.outstanding < 4 → (gChip g = p.chip → p.irrMapped load (gLocal g) = true) →
        ∃ q, Becomes i s q ∧ (∀ d, d ≠ c → q.core d = p.core d) ∧ q.mem = p.mem ∧
          q.core c = { k.runs.next with irr := k.irr ++
            [⟨k.seq, load, f.rd.toNat, g, k.reg f.rd.toNat, if f.evEn = 1 then some f.ev.toNat else none, k.pair, k.irrSlot, false⟩] }) ∧
      (k.outstanding < 4 → k.faultSeq = none → gChip g = p.chip → p.irrMapped load (gLocal g) = false →
        ∃ q, Becomes i s q ∧ FaultsWith p q c 8) ∧
      (4 ≤ k.outstanding → ∃ q, Becomes i s q ∧ OnlyCore p q c ∧ q.core c = { k with st := .ldgWait })
    goes (.ldg n f) true ∧ goes (.stg n f) false

/-- R117, R134, R135: RDSYS reads the system value of its selector and faults with code 1 for a reserved one; TAG sets the layer and operator pair and
MARK goes on. MARK leaves a trace record when its sector's buffer takes marks, and everything of the part but the trace, the
observation unit and the freeze it may assert is as before. The selectors are 0 to 10. -/
def Obligations.SystemReadsAndTags : Prop :=
  (∀ (s : State) (n : BitVec 13),
      let p := s.p
      let c := n.toNat
      let k := p.core c
      (∀ f : RdsysF, p.ready c [f.rd.toNat] = true → ∀ v, p.sysValue c f.sel.toNat = some v →
        ∃ q, Becomes (.rdsys n f) s q ∧ Retires p q c f.rd.toNat (v % 2 ^ 32)) ∧
      (∀ f : RdsysF, p.ready c [f.rd.toNat] = true → k.faultSeq = none → 11 ≤ f.sel.toNat →
        ∃ q, Becomes (.rdsys n f) s q ∧ FaultsWith p q c 1) ∧
      (∀ imm, p.ready c [] = true → ∃ q, Becomes (.tag n imm) s q ∧ MovesOn p q c fun x => { x with pair := imm.toNat }) ∧
      (∀ f : MarkF, p.ready c [f.ra.toNat] = true →
        ∃ q, Becomes (.mark n f) s q ∧ q.core c = k.runs.next ∧ (∀ d, d ≠ c → q.core d = p.core d) ∧ q.mem = p.mem ∧
          (p.getB OBS_FREEZE 4 = false → p.getB (SOBS_TRACE_CFG (coreSector c)) 0 = true →
            p.getB (SOBS_TRACE_CFG (coreSector c)) 16 = true → (spGet [] p.obs.stage (coreSector c)).length < 256 →
            spGet [] q.obs.stage (coreSector c) = spGet [] p.obs.stage (coreSector c) ++
              [⟨p.cycle, k.pair, 0, coreSector c, c, f.imm.toNat + k.pc * 2 ^ 32, k.reg f.ra.toNat⟩]))) ∧
  (∀ (p : Part) (c : Nat),
      p.sysValue c 0 = some (p.cycle % 2 ^ 32) ∧ p.sysValue c 1 = some (p.cycle / 2 ^ 32 % 2 ^ 32) ∧
      p.sysValue c 2 = some (p.rd TIK_FRAME_NO % 2 ^ 32) ∧ p.sysValue c 3 = some (p.rd TIK_FRAME_NO / 2 ^ 32) ∧
      p.sysValue c 4 = some c ∧ p.sysValue c 5 = some p.chip ∧ p.sysValue c 6 = some (p.rd TIK_SEASON_POS) ∧
      p.sysValue c 7 = some (p.rd TIK_VINTAGE) ∧ p.sysValue c 8 = some (p.core c).accState ∧
      p.sysValue c 9 = some (p.core c).ftqReg ∧ p.sysValue c 10 = some (p.core c).outstanding ∧
      ∀ sel, 11 ≤ sel → p.sysValue c sel = none)

/-- R65, R67, R133: a signal is kept in the count, up to 255; a wait of n on a counter that shows at least n takes n at once; on a smaller count
the core blocks and the count stays; a count of 0 faults with code 1; the wait completes once the count suffices, and one that completes in
the cycle of a signal takes its n before the signal is added. -/
def Obligations.Waits : Prop :=
  ∀ (s : State) (n : BitVec 13),
    let p := s.p
    let c := n.toNat
    let k := p.core c
    (∀ f : WaitF, p.ready c [] = true → f.n.toNat ≠ 0 → f.n.toNat ≤ k.visible p.cycle f.ev.toNat →
      ∃ q, Becomes (.wait n f) s q ∧
        MovesOn p q c fun x => { x with ev := spSet 0 k.ev f.ev.toNat (spGet 0 k.ev f.ev.toNat - f.n.toNat) }) ∧
    (∀ f : WaitF, p.ready c [] = true → k.visible p.cycle f.ev.toNat < f.n.toNat →
      ∃ q, Becomes (.wait n f) s q ∧ MovesOn p q c fun x => { x with st := .evWait, waitId := f.ev.toNat, waitN := f.n.toNat }) ∧
    (∀ f : WaitF, p.ready c [] = true → k.faultSeq = none → f.n.toNat = 0 → ∃ q, Becomes (.wait n f) s q ∧ FaultsWith p q c 1) ∧
    (p.live = true → k.st = .evWait → k.waitN ≤ spGet 0 k.ev k.waitId →
      ∃ q, Becomes (.waitComplete n) s q ∧ (∀ d, d ≠ c → q.core d = p.core d) ∧ q.mem = p.mem ∧
        q.cycle = (if k.waitN ≤ k.visible p.cycle k.waitId then p.cycle else p.cycle + 1) ∧
        q.core c = { k with ev := spSet 0 k.ev k.waitId (spGet 0 k.ev k.waitId - k.waitN), st := .running, waitId := 0, waitN := 0 }) ∧
    (∀ ev : BitVec 5, (c, ev.toNat) ∈ p.tick.signals →
      let ends : Bool := p.live && k.st == .evWait && k.waitN ≤ k.visible p.cycle k.waitId
      let n' (i : Nat) : Nat := spGet 0 k.ev i - if ends = true ∧ i = k.waitId then k.waitN else 0
      ∃ q, Becomes (.evSignalArrive n ev) s q ∧ (q.core c).st = (if ends then .running else k.st) ∧
        (∀ i, spGet 0 (q.core c).ev i = if i = ev.toNat ∧ n' i < 255 then n' i + 1 else n' i))

/-- R65, R66, R68, R133: SIGNAL to the core itself or to a core of the part puts a signal on its way and goes on, and stalls while the arrival
buffer is full; a local index outside the grade faults with code 7; the signal arrives at the counter, which adds one, and a count of 255 is kept
and fails the frame with cause 2. -/
def Obligations.Signals : Prop :=
  ∀ (s : State) (n : BitVec 13),
    let p := s.p
    let c := n.toNat
    let k := p.core c
    (∀ f : SignalF, f.self = 1 → p.ready c [] = true → p.evFull c 1 = true →
      ∃ q, Becomes (.signal n f) s q ∧ OnlyCore p q c ∧ q.core c = { k with st := .stalled, heldBy := none }) ∧
    (∀ f : SignalF, f.self = 1 → p.ready c [] = true → p.evFull c 1 = false →
      ∃ q, Becomes (.signal n f) s q ∧ q.tick.signals = p.tick.signals ++ [(c, f.ev.toNat)] ∧
        (∀ d, q.core d = if d = c then k.runs.next else p.core d) ∧ q.mem = p.mem ∧ q.regs = p.regs) ∧
    (∀ f : SignalF, f.self = 0 → f.remote = 0 → p.ready c [f.rb.toNat] = true → p.validCore (k.reg f.rb.toNat % 8192) = true →
      p.evFull (k.reg f.rb.toNat % 8192) 1 = false →
      ∃ q, Becomes (.signal n f) s q ∧ q.tick.signals = p.tick.signals ++ [(k.reg f.rb.toNat % 8192, f.ev.toNat)] ∧
        (∀ d, q.core d = if d = c then k.runs.next else p.core d) ∧ q.mem = p.mem ∧ q.regs = p.regs) ∧
    (∀ f : SignalF, f.self = 0 → f.remote = 0 → p.ready c [f.rb.toNat] = true → k.faultSeq = none →
      p.validCore (k.reg f.rb.toNat % 8192) = false → ∃ q, Becomes (.signal n f) s q ∧ FaultsWith p q c 7) ∧
    (∀ f : SignalF, f.self = 0 → f.remote = 1 → p.ready c [f.rb.toNat] = true → k.reg f.rb.toNat / 8192 % 65536 ≠ p.chip →
      ∃ q, Becomes (.signal n f) s q ∧ q.tick = p.tick ∧ q.mem = p.mem ∧
        (∀ d, q.core d = if d = c then k.runs.next else p.core d) ∧
        q.fab.txq = p.fab.txq ++ [⟨0, p.chip, k.reg f.rb.toNat / 8192 % 65536, p.epoch, 3, 0, 0, 0, 0,
          leBytes 2 (k.reg f.rb.toNat % 8192) ++ leBytes 2 f.ev.toNat ++ leBytes 4 k.pair ++ leBytes 24 0⟩]) ∧
    (∀ ev : BitVec 5, (c, ev.toNat) ∈ p.tick.signals → k.st ≠ .evWait →
      (spGet 0 k.ev ev.toNat < 255 → ∃ q, Becomes (.evSignalArrive n ev) s q ∧ q.tick.signals = p.tick.signals.erase (c, ev.toNat) ∧
        (q.core c) = { k with ev := spSet 0 k.ev ev.toNat (spGet 0 k.ev ev.toNat + 1), evNew := (q.core c).evNew, evTook := (q.core c).evTook } ∧
        (∀ d, d ≠ c → q.core d = p.core d)) ∧
      (255 ≤ spGet 0 k.ev ev.toNat → ∃ q, Becomes (.evSignalArrive n ev) s q ∧ (∀ d, d ≠ c → q.core d = p.core d) ∧
        (q.core c) = { k with evTook := (q.core c).evTook } ∧ q.tick.cause = (if p.tick.cause = 0 then 2 else p.tick.cause)))

/-- R70, R71: an arrival marks the line and goes on, and one before the line has released from the last blocks; a herd-wait blocks until the
release; the combined instruction arrives and blocks. A line releases when every joined core has arrived. An arrival on a line the
core has not joined faults with code 6. -/
def Obligations.HerdLines : Prop :=
  ∀ (s : State) (n : BitVec 13),
    let p := s.p
    let c := n.toNat
    let k := p.core c
    (∀ f : HerdF, p.ready c [] = true → f.line.toNat < 48 → p.joins c f.line.toNat = true → bit k.arrived f.line.toNat = false →
      (f.mode = 1 → ∃ q, Becomes (.herd n f) s q ∧ MovesOn p q c fun x => { x with arrived := k.arrived ||| 2 ^ f.line.toNat }) ∧
      (f.mode = 2 → ∃ q, Becomes (.herd n f) s q ∧ MovesOn p q c fun x => x) ∧
      (f.mode = 3 → ∃ q, Becomes (.herd n f) s q ∧
        MovesOn p q c fun x => { x with arrived := k.arrived ||| 2 ^ f.line.toNat, st := .herdWait, waitId := f.line.toNat, waitN := 0 })) ∧
    (∀ f : HerdF, p.ready c [] = true → f.line.toNat < 48 → p.joins c f.line.toNat = true → bit k.arrived f.line.toNat = true → f.mode ≠ 0 →
      ∃ q, Becomes (.herd n f) s q ∧
        MovesOn p q c fun x => { x with st := .herdWait, waitId := f.line.toNat, waitN := if f.mode = 2 then 0 else f.mode.toNat }) ∧
    (∀ f : HerdF, p.ready c [] = true → k.faultSeq = none → f.line.toNat < 48 → p.joins c f.line.toNat = false → f.mode = 1 ∨ f.mode = 3 →
      ∃ q, Becomes (.herd n f) s q ∧ FaultsWith p q c 6) ∧
    (∀ f : HerdF, p.ready c [] = true → k.faultSeq = none → 48 ≤ f.line.toNat ∨ f.mode = 0 →
      ∃ q, Becomes (.herd n f) s q ∧ FaultsWith p q c 1) ∧
    (∀ line : BitVec 6, line.toNat < 48 → p.live = true →
      let joined := p.roleCores.filter fun d => p.joins d line.toNat
      joined ≠ [] → joined.Nodup → (∀ d ∈ joined, bit (p.core d).arrived line.toNat = true) →
      ∃ q, Becomes (.herdRelease line) s q ∧ q.getB TIK_HERD_STATE line.toNat = true ∧ q.mem = p.mem ∧
        (∀ d, q.core d = if d ∈ joined then (p.core d).released line.toNat else p.core d) ∧
        ∀ d ∈ joined, (p.core d).st = .herdWait → (p.core d).waitId = line.toNat →
          ((p.core d).waitN = 0 → (q.core d).st = .running ∧ bit (q.core d).arrived line.toNat = false) ∧
          ((p.core d).waitN = 1 → (q.core d).st = .running ∧ bit (q.core d).arrived line.toNat = true))

/-- R63, R74: HALT ends the core's issue until the next tick; a fence waits with its kind until the covered writes have retired or been
accepted, and then the core runs on. -/
def Obligations.HaltsAndFences : Prop :=
  ∀ (s : State) (n : BitVec 13),
    let p := s.p
    let c := n.toNat
    let k := p.core c
    (p.ready c [] = true → ∃ q, Becomes (.halt n) s q ∧ q.core c = { k.runs.next with st := .halted } ∧
      (∀ d, d ≠ c → q.core d = p.core d) ∧ q.mem = p.mem ∧ q.mayIssue c = false) ∧
    (∀ kind : BitVec 2, p.ready c [] = true →
      ∃ q, Becomes (.fence n kind) s q ∧ MovesOn p q c fun x => { x with st := .inFence, fence := kind.toNat }) ∧
    (p.live = true → k.st = .inFence → p.fenceDone c = true →
      ∃ q, Becomes (.fenceComplete n) s q ∧ OnlyCore p q c ∧ q.core c = { k with st := .running, fence := 0 })

/-- R111, R120, R121: MLOAD and MAC enter the matrix command queue with their addresses resolved, while it has room of its 8 entries;
a full queue stalls issue in state 6; a binary32 or absent format faults with code 1, rows past the scratchpad with code 2 and MAC
rows past the group with code 4. -/
def Obligations.MatrixQueue : Prop :=
  ∀ (s : State) (n : BitVec 13),
    let p := s.p
    let c := n.toNat
    let k := p.core c
    let at' (ra rb : BitVec 5) (offset : BitVec 19) : Nat × Nat :=
      ((k.reg ra.toNat + offset.toNat) % 2 ^ 32, k.reg rb.toNat % 65536 / 32 * 32)
    let takes (i : Instr) (o : MOp) : Prop :=
      (k.mq.length < 8 → ∃ q, Becomes i s q ∧ MovesOn p q c fun x => { x with mq := k.mq ++ [o] }) ∧
      (8 ≤ k.mq.length → ∃ q, Becomes i s q ∧ OnlyCore p q c ∧ q.core c = { k with st := .stalled, heldBy := none })
    (∀ f : MloadF, p.ready c [f.ra.toNat, f.rb.toNat] = true →
      (∀ m, Fmt.ofCode f.fmt.toNat = some m → m ≠ .b32 →
        let o : LoadOp := ⟨⟨k.seq, k.pc, k.pair⟩, f.buf.toNat, m, f.cmp == 1, (at' f.ra f.rb f.offset).1, (at' f.ra f.rb f.offset).2⟩
        (inSpad o.reads = true → takes (.mload n f) (.load o)) ∧
        (inSpad o.reads = false → k.faultSeq = none → ∃ q, Becomes (.mload n f) s q ∧ FaultsWith p q c 2)) ∧
      (6 ≤ f.fmt.toNat → k.faultSeq = none → ∃ q, Becomes (.mload n f) s q ∧ FaultsWith p q c 1)) ∧
    (∀ f : MacF, p.ready c [f.ra.toNat, f.rb.toNat] = true →
      (∀ m, Fmt.ofCode f.fmt.toNat = some m → m ≠ .b32 → (f.cmp = 1 → f.axis = 0) →
        let o : PassOp := ⟨⟨k.seq, k.pc, k.pair⟩, f.buf.toNat, f.axis == 1, f.init == 1, f.close == 1, f.cmp == 1,
          (at' f.ra f.rb f.offset).1, (at' f.ra f.rb f.offset).2, m, f.rows.toNat + 1, f.group.toNat, f.first.toNat⟩
        (f.first.toNat + f.rows.toNat + 1 ≤ 32 → inSpad o.reads = true → takes (.mac n f) (.pass o)) ∧
        (32 < f.first.toNat + f.rows.toNat + 1 → k.faultSeq = none → ∃ q, Becomes (.mac n f) s q ∧ FaultsWith p q c 4)) ∧
      (6 ≤ f.fmt.toNat → k.faultSeq = none → ∃ q, Becomes (.mac n f) s q ∧ FaultsWith p q c 1))

/-- R122, R123, R126 to R129: the vector instructions travel in the vector command queue; SETVL, UDEF and DSET take effect at once on an
engine with nothing queued, and otherwise wait behind what is queued; a stream and a drain always wait for their start. -/
def Obligations.VectorQueue : Prop :=
  ∀ (s : State) (n : BitVec 13),
    let p := s.p
    let c := n.toNat
    let k := p.core c
    let takes (i : Instr) (o : VOp) (now : Core → Core) : Prop :=
      (k.vrun = none → k.vq = [] → ∃ q, Becomes i s q ∧ MovesOn p q c now) ∧
      (k.vrun.isSome = true → k.vq.length < 8 → ∃ q, Becomes i s q ∧ MovesOn p q c fun x => { x with vq := k.vq ++ [o] }) ∧
      (k.vrun.isSome = true → 8 ≤ k.vq.length → ∃ q, Becomes i s q ∧ OnlyCore p q c ∧ q.core c = { k with st := .stalled, heldBy := none })
    (∀ f : SetvlF, p.ready c (f.ra.toNat :: (if f.i = 1 then [] else [f.rb.toNat])) = true →
      let v := min 65535 (k.reg f.ra.toNat + if f.i = 1 then f.imm.toNat else k.reg f.rb.toNat)
      takes (.setvl n f) (.setvl k.seq v) fun x => { x with vl := v }) ∧
    (∀ f : UdefF, p.ready c [] = true → f.fn.toNat < 28 →
      let old := if f.new = 1 then [] else spGet [] k.viewIssue.slots f.slot.toNat
      let st : UStep := ⟨f.fn.toNat, f.a.toNat, f.b.toNat, f.c.toNat, f.imm.toNat⟩
      old.length < 16 → (∀ x ∈ stepUses f.fn.toNat f.a.toNat f.b.toNat f.c.toNat, x < 12 → x < old.length) →
      takes (.udef n f) (.udef k.seq f.slot.toNat (f.new == 1) st)
        fun x => { x with slots := spSet [] k.slots f.slot.toNat ((if f.new = 1 then [] else spGet [] k.slots f.slot.toNat) ++ [st]) }) ∧
    (∀ f : DsetF, p.ready c [] = true → f.item.toNat < 5 → (f.item.toNat = 4 → f.value.toNat < 8 ∧ f.value.toNat % 4 ≠ 3) →
      takes (.dset n f) (.dset k.seq f.pset.toNat f.item.toNat f.value.toNat)
        fun x => { x with psets := spSet .reset k.psets f.pset.toNat ((spGet .reset k.psets f.pset.toNat).put f.item.toNat f.value.toNat) }) ∧
    (∀ f : VstreamF, p.ready c [f.rd.toNat, f.ra.toNat, f.rb.toNat, f.rc.toNat] = true → ∀ out, Fmt.ofCode f.fmtOut.toNat = some out →
      let o : StreamOp := ⟨⟨k.seq, k.pc, k.pair⟩, f.slot.toNat, k.reg f.rd.toNat, k.reg f.ra.toNat, k.reg f.rb.toNat, k.reg f.rc.toNat, out,
        Fmt.ofCode f.fmt0.toNat, Fmt.ofCode f.fmt1.toNat, Fmt.ofCode f.fmt2.toNat, f.mode.toNat, f.sat == 1⟩
      let w := k.viewIssue
      f.mode ≠ 3 → (∀ i ∈ usedInputs (spGet [] w.slots f.slot.toNat), (nth [o.fmt0, o.fmt1, o.fmt2] i none).isSome = true) →
      inSpad (someBytes (o.reads w.vl ++ o.writes w.vl)) = true → p.outOfCode c (someBytes (o.writes w.vl)) = true →
      takes (.vstream n f) (.stream o) fun x => { x with vq := [.stream o] }) ∧
    (∀ f : VdrainF, p.ready c [f.rc.toNat, f.ra.toNat, f.rb.toNat] = true → ∀ m, Fmt.ofCode f.fmt.toNat = some m → f.mode ≠ 3 →
      let o : DrainOp := ⟨⟨k.seq, k.pc, k.pair⟩, k.reg f.rc.toNat, (k.reg f.ra.toNat + f.offset.toNat) % 2 ^ 32,
        k.reg f.rb.toNat % 65536 / 32 * 32, m, f.mode.toNat, f.sat == 1, f.pset.toNat, f.int == 1⟩
      let olk := (p.outlook c k.pair).isSome
      let vec := (spGet .reset k.viewIssue.psets f.pset.toNat).biasMode == 2
      inSpad (o.reads vec olk ++ o.writes olk) = true → p.outOfCode c (o.writes olk) = true →
      takes (.vdrain n f) (.drain o) fun x => { x with vq := [.drain o] })

/-- R57 to R59, R121: what the matrix unit does with the head of its queue: a load fills its buffer, a pass reads a buffer that holds
a matching tile and opens or takes its group, and its last row pushes a closed group onto the finished-tile queue. A pass that the rule
faults records the code. -/
def Obligations.MatrixUnit : Prop :=
  ∀ (s : State) (n : BitVec 13),
    let p := s.p
    let c := n.toNat
    let k := p.core c
    (∀ o rest, k.mq = .load o :: rest → p.working = true → k.loading = none → p.mustWait c o.head.seq o.reads [] = false →
      ∃ q, Becomes (.matrixLoadStart n) s q ∧ (∀ d, d ≠ c → q.core d = p.core d) ∧ q.mem = p.mem ∧
        q.core c = { k with mq := rest, loading := some o, loadTile := some (p.readTile c o) }) ∧
    (∀ o, k.loading = some o → p.live = true →
      ∃ q, Becomes (.matrixLoadDone n) s q ∧ OnlyCore p q c ∧ (q.core c).loading = none ∧
        (q.core c).buf o.buf = k.loadTile ∧ (o.buf = 0 → (q.core c).buf1 = k.buf1) ∧ (o.buf ≠ 0 → (q.core c).buf0 = k.buf0)) ∧
    (∀ o rest t upset, k.mq = .pass o :: rest → p.working = true → p.passWaits c o = false → k.buf o.buf = some t →
      (t.cmp = o.cmp → t.fmt.isInt = o.fmt.isInt →
        (o.init = false → (k.group o.group).st ≠ .free ∧ (k.group o.group).isInt = o.fmt.isInt) →
        ∃ q r, Becomes (.matrixPassStart n upset) s q ∧ (∀ d, d ≠ c → q.core d = p.core d) ∧ q.mem = p.mem ∧
          (q.core c).mq = rest ∧ (q.core c).passes = k.passes ++ [r] ∧ r.op = o ∧
          ((q.core c).group o.group).st = (if (k.group o.group).st = .free then .open else (k.group o.group).st) ∧
          (upset = none → r.sums = (passSums (p.keep c) o.fmt t o.axis ((List.range o.rows).map fun i =>
            elems o.fmt.bytes (p.spad c (rowAddr o.base o.stride i) ((if o.cmp then 64 else 32) * o.fmt.bytes)))).1)) ∧
      (k.faultSeq = none → t.cmp = o.cmp → t.fmt.isInt = o.fmt.isInt → o.init = false → (k.group o.group).st = .free →
        ∃ q, Becomes (.matrixPassStart n upset) s q ∧ (q.core c).st = .faulted ∧ (q.core c).faultCode = 5)) ∧
    (∀ r rest, k.passes = r :: rest → p.live = true →
      ∃ q, Becomes (.matrixPassDone n) s q ∧ (∀ d, d ≠ c → q.core d = p.core d) ∧ q.mem = p.mem ∧
        (q.core c).passes = rest ∧
        (r.op.close = true → k.closing = [] → k.ftq.length < 8 →
          (q.core c).ftq = k.ftq ++ [r.op.group] ∧ ((q.core c).group r.op.group).st = .queued ∧ (q.core c).closing = []) ∧
        (r.op.close = true → k.closing ≠ [] ∨ 8 ≤ k.ftq.length → (q.core c).ftq = k.ftq ∧ (q.core c).closing = k.closing ++ [r.op.group]) ∧
        (r.op.close = false → (q.core c).ftq = k.ftq))

/-- R59, R62, R126, R128: what the vector engine does with the head of its queue: a stream of a defined slot starts, a stream of an
empty slot faults with code 9; a drain pops the head of the finished-tile queue; what runs writes its bytes as it retires, and a
drain frees its group. -/
def Obligations.VectorEngine : Prop :=
  ∀ (s : State) (n : BitVec 13) (upset : Option Upset),
    let p := s.p
    let c := n.toNat
    let k := p.core c
    (∀ o rest, k.vrun = none → k.vq = .stream o :: rest → p.working = true →
      p.mustWait c o.head.seq (someBytes (o.reads k.vl)) (someBytes (o.writes k.vl)) = false →
      (spGet [] k.slots o.slot ≠ [] → ∃ q r, Becomes (.vectorStreamStart n upset) s q ∧ (∀ d, d ≠ c → q.core d = p.core d) ∧
        q.mem = p.mem ∧ (q.core c).vq = rest ∧ (q.core c).vrun = some r ∧ r.op = .stream o) ∧
      (spGet [] k.slots o.slot = [] → k.faultSeq = none →
        ∃ q, Becomes (.vectorStreamStart n upset) s q ∧ (q.core c).st = .faulted ∧ (q.core c).faultCode = 9)) ∧
    (∀ o rest g queued, k.vrun = none → k.vq = .drain o :: rest → k.ftq = g :: queued → p.working = true →
      let d := spGet .reset k.psets o.pset
      let olk := (p.outlook c o.head.pair).isSome
      p.mustWait c o.head.seq (o.reads (d.biasMode == 2) olk) (o.writes olk) = false → o.int = (k.group g).isInt →
      (d.clip = true → FVal.lt (FVal.decode .b32 d.hi) (FVal.decode .b32 d.lo) = false) →
      ∃ q r, Becomes (.drainStart n upset) s q ∧ (∀ d, d ≠ c → q.core d = p.core d) ∧ q.mem = p.mem ∧
        (q.core c).vq = rest ∧ (q.core c).vrun = some r ∧ r.op = .drain o ∧ r.group = g ∧
        (k.closing = [] → (q.core c).ftq = queued ∧ ((q.core c).group g).st = .draining) ∧
        (∀ g2 r, k.closing = g2 :: r → queued.length < 8 → (q.core c).ftq = queued ++ [g2] ∧ (q.core c).closing = r)) ∧
    (∀ v o, k.vrun = some v → v.op = .stream o → p.live = true →
      ∃ q, Becomes (.vectorStreamDone n) s q ∧ (∀ d, d ≠ c → q.core d = p.core d) ∧ (q.core c).vrun = none ∧
        q.mem = ((p.modCore c fun k => { k with vrun := none }).applyWrites c v.writes).mem) ∧
    (∀ v o, k.vrun = some v → v.op = .drain o → p.live = true →
      ∃ q, Becomes (.drainDone n) s q ∧ (∀ d, d ≠ c → q.core d = p.core d) ∧ (q.core c).vrun = none ∧
        ((q.core c).group v.group).st = .free ∧
        q.mem = (((p.saveCapture c v.group).modCore c fun k => { k with vrun := none }).applyWrites c v.writes).mem)

/-- R130, R310, R311: RACK takes the lowest free tag of the sector and the transfer waits in the racking engine, or is refused and sends
its signals; with no free tag it stalls; odd register pairs fault with code 1. -/
def Obligations.RackingTransfers : Prop :=
  ∀ (s : State) (n : BitVec 13) (f : RackF), s.p.ready n.toNat [f.rc.toNat, f.ra.toNat, f.ra.toNat + 1, f.rb.toNat, f.rb.toNat + 1] = true →
    let p := s.p
    let c := n.toNat
    let k := p.core c
    let x := coreSector c
    let src := k.pairAddr f.ra.toNat
    let dst := k.pairAddr f.rb.toNat
    let len := k.reg f.rc.toNat
    (f.ra.toNat % 2 = 0 → f.rb.toNat % 2 = 0 → ∀ tag, (p.rck x).freeTag = some tag →
      (p.getB (RCK_CTRL x) 0 = true → rackLenBad src dst len = false → gChip src = p.chip → gChip dst = p.chip →
        rackOverlap p.chip src dst len = false → p.rackSrcOk (gLocal src) len = true → p.rackDstOk (gLocal dst) len = true →
        ∃ q, Becomes (.rack n f) s q ∧ (∀ d, q.core d = if d = c then k.runs.next else p.core d) ∧ q.mem = p.mem ∧
          (q.rck x).transfers = (p.rck x).transfers ++
            [⟨tag, c, k.pair, src, dst, len, f.ev.toNat, f.sig.toNat, 0, rackCut dst len, [], false⟩]) ∧
      (p.getB (RCK_CTRL x) 0 = true → rackLenBad src dst len = true →
        ∃ q, Becomes (.rack n f) s q ∧ (∀ d, q.core d = if d = c then k.runs.next else p.core d) ∧ q.mem = p.mem ∧
          q.rck x = p.rck x)) ∧
    (f.ra.toNat % 2 = 0 → f.rb.toNat % 2 = 0 → (p.rck x).freeTag = none →
      ∃ q, Becomes (.rack n f) s q ∧ (∀ d, q.core d = if d = c then { k with st := .stalled, heldBy := none } else p.core d) ∧ q.rck x = p.rck x) ∧
    (f.ra.toNat % 2 = 1 ∨ f.rb.toNat % 2 = 1 → k.faultSeq = none → ∃ q, Becomes (.rack n f) s q ∧ FaultsWith p q c 1)

/-- R131, R189: UREQ copies the descriptor at issue into the queue of its unit; a full queue stalls issue; units 4 to 7 fault with code
1 and a descriptor outside the private partition with code 2. -/
def Obligations.UnitRequests : Prop :=
  ∀ (s : State) (n : BitVec 13) (f : UreqF), s.p.ready n.toNat [f.ra.toNat] = true →
    let p := s.p
    let c := n.toNat
    let k := p.core c
    let x := coreSector c
    let a := (k.reg f.ra.toNat + f.offset.toNat) % 2 ^ 32 / 64 * 64
    (f.unit.toNat < 4 → p.inPrivate c a 64 = true → p.mustWait c k.seq [(a, a + 64)] [] = false →
      (((p.unit x).queued f.unit.toNat).length < 64 →
        ∃ q r, Becomes (.ureq n f) s q ∧ (∀ d, q.core d = if d = c then k.runs.next else p.core d) ∧ q.mem = p.mem ∧
          (q.unit x).queued f.unit.toNat = (p.unit x).queued f.unit.toNat ++ [r] ∧ r.core = c ∧ r.pair = k.pair ∧
          r.ev = (if f.evEn = 1 then some f.ev.toNat else none) ∧ r.desc = p.spad c a 64 ∧ r.poison = p.spadPoison c (a, a + 64)) ∧
      (64 ≤ ((p.unit x).queued f.unit.toNat).length → 
        ∃ q, Becomes (.ureq n f) s q ∧ OnlyCore p q c ∧ q.core c = { k with st := .stalled, heldBy := none })) ∧
    (4 ≤ f.unit.toNat → k.faultSeq = none → ∃ q, Becomes (.ureq n f) s q ∧ FaultsWith p q c 1) ∧
    (f.unit.toNat < 4 → k.faultSeq = none → p.inPrivate c a 64 = false → ∃ q, Becomes (.ureq n f) s q ∧ FaultsWith p q c 2)

/-- R63, R132, R165, R177: ASK blocks until a hand-over or returns the end-of-work value; SUBMIT sends its descriptor on its way to a queue of
the part; DONE holds its completion; CLOSEQ closes an open queue. -/
def Obligations.SchedulerInstructions : Prop :=
  ∀ (s : State) (n : BitVec 13),
    let p := s.p
    let c := n.toNat
    let k := p.core c
    let x := coreSector c
    let at' (ra : BitVec 5) (offset : BitVec 19) : Nat := (k.reg ra.toNat + offset.toNat) % 2 ^ 32 / 64 * 64
    (∀ f : AskF, p.ready c [f.rd.toNat, f.ra.toNat] = true → k.endSeen = false → p.inPrivate c (at' f.ra f.offset) 64 = true →
      (p.endOfWork c = false → ∃ q, Becomes (.ask n f) s q ∧
        MovesOn p q c fun x => { x with st := .inAsk, askRd := f.rd.toNat, askAddr := at' f.ra f.offset }) ∧
      (p.endOfWork c = true → ∃ q, Becomes (.ask n f) s q ∧ OnlyCore p q c ∧ (q.core c).st = .running ∧ (q.core c).endSeen = true ∧
        (q.core c).reg f.rd.toNat = if f.rd.toNat = 0 then 0 else 0xFFFFFFFF)) ∧
    (∀ f : AskF, p.ready c [f.rd.toNat, f.ra.toNat] = true → k.faultSeq = none → k.endSeen = true →
      ∃ q, Becomes (.ask n f) s q ∧ FaultsWith p q c 10) ∧
    (∀ f : SubmitF, p.ready c [f.ra.toNat, f.rb.toNat] = true →
      let a := at' f.ra f.offset
      let name := k.reg f.rb.toNat % 65536
      let d := p.spad c a 64
      f.remote = 0 → p.inPrivate c a 64 = true → p.mustWait c k.seq [(a, a + 64)] [] = false → p.spadPoison c (a, a + 64) = none →
      descBad d false = false → dCtrl d 0 = false →
      (p.queueFull (name / 16384) (name % 16384) = false → descBad (withTag d k.pair) false = false → dCtrl (withTag d k.pair) 0 = false →
        ∃ q, Becomes (.submit n f) s q ∧ (∀ d, q.core d = if d = c then k.runs.next else p.core d) ∧ q.mem = p.mem ∧
          (q.sch (name / 16384)).subs = (p.sch (name / 16384)).subs ++ [⟨name % 16384, .core, withTag d k.pair⟩]) ∧
      (p.queueFull (name / 16384) (name % 16384) = true →
        ∃ q, Becomes (.submit n f) s q ∧ OnlyCore p q c ∧ q.core c = { k with st := .stalled, heldBy := some (name / 16384) })) ∧
    (∀ f : DoneF, p.ready c [f.ra.toNat] = true →
      let a := at' f.ra f.offset
      p.inPrivate c a 64 = true → p.mustWait c k.seq [(a, a + 64)] [] = false → p.spadPoison c (a, a + 64) = none →
      p.schOn x = true → (p.sch x).held.length < 4096 → p.outsideWindow x (p.spad c a 64) = false →
      ∃ q, Becomes (.done n f) s q ∧ (∀ d, q.core d = if d = c then k.runs.next else p.core d) ∧ q.mem = p.mem ∧ q.regs = p.regs ∧
        (q.sch x).held = (p.sch x).held ++ [⟨p.spad c a 64, k.pair, c⟩]) ∧
    (∀ rb : BitVec 5, p.ready c [rb.toNat] = true →
      let y := k.reg rb.toNat % 65536 / 16384
      let j := k.reg rb.toNat % 16384
      p.queueOn y j = true → (p.queue y j).violated = false →
      ∃ q, Becomes (.closeq n rb) s q ∧ (∀ d, q.core d = if d = c then k.runs.next else p.core d) ∧ q.mem = p.mem ∧
        (q.queue y j).closed = true ∧ (q.queue y j).ready = (p.queue y j).ready ∧ (q.queue y j).waiting = (p.queue y j).waiting)

/-- R116, R300, R308: an LDG that can return writes its word into its register, or 0 for a poisoned line; an STG that can complete stores its word in a
core's inbound partition, or takes its acknowledgement; both leave every other register alone. -/
def Obligations.IrregularReturns : Prop :=
  ∀ (s : State) (n : BitVec 13),
    let p := s.p
    let c := n.toNat
    let k := p.core c
    (∀ i, p.irrReady c true = some i → p.live = true → p.irrHeld c i = false → (gChip i.gaddr = p.chip → p.tick.unwinding = false) →
      ∃ q, Becomes (.ldgReturn n) s q ∧ (∀ d, d ≠ c → q.core d = p.core d) ∧ (q.core c).pc = k.pc ∧
        (∀ r, r ≠ i.rd → (q.core c).reg r = k.reg r) ∧
        (q.core c).reg i.rd = (if i.rd = 0 then 0 else if (p.ldgValue c i).1.2.isSome then 0 else (p.ldgValue c i).1.1 % 2 ^ 32)) ∧
    (∀ i, p.irrReady c false = some i → p.live = true → p.irrHeld c i = false → gChip i.gaddr = p.chip → isHbm (gLocal i.gaddr) = false →
      p.inInbound (gLocal i.gaddr) 4 = true → gLocal i.gaddr % 4 = 0 → p.granPoison (gLocal i.gaddr) = false →
      ∃ q, Becomes (.stgComplete n) s q ∧ (∀ d, d ≠ c → q.core d = p.core d) ∧ (∀ r, (q.core c).reg r = k.reg r) ∧
        ∀ x, q.byteAt x = if gLocal i.gaddr ≤ x ∧ x < gLocal i.gaddr + 4 then (leBytes 4 i.value).getD (x - gLocal i.gaddr) 0#8 else p.byteAt x) ∧
    (∀ i r, p.irrReady c false = some i → p.live = true → p.irrHeld c i = false → gChip i.gaddr ≠ p.chip → p.irrReply c i = some r →
      ∃ q, Becomes (.stgComplete n) s q ∧ (∀ d, d ≠ c → q.core d = p.core d) ∧ (∀ j, (q.core c).reg j = k.reg j) ∧ q.mem = p.mem ∧
        q.fab.rx = p.fab.rx.erase r)

/-- R53, R445: at cycle 128 every core with a role that waits for the clear and whose code is written starts at its entry with the frame number,
its identifier, the season position and the vintage in g1 to g4; a core whose code a tick brought starts when the code is written. -/
def Obligations.CoresStart : Prop :=
  ∀ s : State, let p := s.p
    let starts (q : Part) (at' : Nat) : Prop :=
      q.cycle = max p.cycle (p.tick.frameStart + at') ∧ q.mem = p.mem ∧ q.tick = { p.tick with coresStarted := true } ∧
      (∀ c ∈ p.roleCores, (p.core c).st = .clearing → max 128 (spGet 0 p.tick.codeAt c) ≤ at' →
        (q.core c).st = .running ∧ (q.core c).pc = p.rd (COR_ENTRY c p.kind) ∧ (q.core c).reg 1 = p.rd TIK_FRAME_NO % 2 ^ 32 ∧
        (q.core c).reg 2 = c % 2 ^ 32 ∧ (q.core c).reg 3 = p.rd TIK_SEASON_POS % 2 ^ 32 ∧ (q.core c).reg 4 = p.rd TIK_VINTAGE % 2 ^ 32 ∧
        ∀ r, 5 ≤ r → (q.core c).reg r = (p.core c).reg r) ∧
      ∀ c, c ∉ p.roleCores ∨ (p.core c).st ≠ .clearing ∨ at' < max 128 (spGet 0 p.tick.codeAt c) → q.core c = p.core c
    p.live = true → p.inFrame = true →
    (p.tick.coresStarted = false → ∃ q, Becomes .coreStart s q ∧ starts q 128) ∧
    (∀ c ∈ p.coresWaiting, p.tick.coresStarted = true →
      (∀ d ∈ p.coresWaiting, max 128 (spGet 0 p.tick.codeAt c) ≤ max 128 (spGet 0 p.tick.codeAt d)) →
      ∃ q, Becomes .coreStart s q ∧ starts q (max 128 (spGet 0 p.tick.codeAt c)))

/-- R17, R26, R33, R42, R44, R544: the tick master announces the next tick on every up bundle, a commit when every member passed and a replay
otherwise; under a hold it sends the notice instead; it drives the edge TIK_LEAD cycles after the token. -/
def Obligations.TickMaster : Prop :=
  ∀ s : State,
    let p := s.p
    (p.role = 1 → p.clocked = true → p.getB TIK_GRAFT_STATUS 1 = true → p.getB TIK_CTRL 0 = true → p.tick.stopAfter = false →
      p.tick.token = none → p.tick.tokenSent ≤ p.tickCount →
      (p.tick.holds = [] → p.tick.edge = none →
        ∃ q t d, Becomes .tickTokenSend s q ∧ q.tick.token = some ⟨t, d⟩ ∧ q.tick.tokenSent = p.tickCount + 1 ∧ q.tick.statuses = [] ∧
          t.count = p.tickCount + 1 ∧ t.master = p.chip ∧ t.held = p.tick.heldFrame ∧
          (p.tick.resumeReplay = false → (∀ m ∈ p.tick.members, p.passed m = true) → t.replay = false) ∧
          ((p.tickCount ≠ 0 ∨ p.inFrame = true) → (p.tick.resumeReplay = true ∨ ∃ m ∈ p.tick.members, p.passed m = false) → t.replay = true) ∧
          (p.txnState ≠ 3 → t.len = p.rd TIK_FRAME_LEN ∧ t.stretch = min p.tick.stretch (10 ^ 8 - p.rd TIK_FRAME_LEN)) ∧
          q.cycle = max p.cycle (p.frameEnd - p.rd TIK_LEAD) ∧ Floods p q q.cycle none 0 (.token t)) ∧
      (p.tick.holds ≠ [] → p.tick.holdNoticed = false →
        ∃ q, Becomes .tickTokenSend s q ∧ q.tick.token = none ∧ q.tick.holdNoticed = true ∧ q.getB TIK_STATUS 9 = true ∧
          q.getB TIK_STATUS 10 = true ∧ Floods p q q.cycle none 0 .holdNotice)) ∧
    (p.role = 1 → p.clocked = true → p.tick.issued < p.tick.tokenSent →
      Becomes .tickIssue s { p.clockTo (p.tick.tokenSentAt + p.rd TIK_LEAD) with
        tick := { p.tick with issued := p.tick.tokenSent },
        power := { p.power with tickOut := p.power.tickOut + 1 } })

/-- R18, R20, R21, R44, R350, R352: a part other than the tick master takes a token or a notice that comes by its parent bundle, at the time of its
receipt less its correction, and forwards it on every other up bundle in two copies; a token of a count that is not the next one sets the
sticky bit; the second copy of a message that was used, and copies from other bundles, are ignored. -/
def Obligations.TokensAndNotices : Prop :=
  ∀ (s : State) (bundle : Nat) (h : CtlHead),
    let p := s.p
    let at' := p.cycle - (h.corr + if h.second = true then 4 else 0)
    p.role ≠ 1 → p.clocked = true → bundle < 8 → p.bundleUp bundle = true →
    (∀ t : TokenMsg,
      let st : Bool := t.master == p.getF TIK_MASTER 16 16 && t.master != p.getF TIK_MASTER 0 16
      (bundle = p.parent st → p.fresh2 bundle h (.token t) → p.role = 0 → p.getB TIK_CTRL 0 = true → p.tick.token = none → p.tick.edge = none →
        p.txn.validating = none →
        ∃ q due, Becomes (.tickToken ⟨bundle, h⟩ t) s q ∧ q.mem = p.mem ∧ q.cores = p.cores ∧ q.cycle = p.cycle ∧
          q.tick.token = some ⟨t, due⟩ ∧
          due = (if q.getB TIK_CTRL 1 = true then at' + q.rd TIK_DELAY_COMP else at' + q.rd TIK_LEAD - q.rd TIK_TOKEN_LAT) ∧
          (p.fab.standbyTree = st → ∀ r, r ≠ TIK_STATUS → r ≠ TIK_STICKY → r ≠ TIK_STAT_HOLD → q.rd r = p.rd r) ∧
          (t.count ≠ p.tickCount + 1 → q.getB TIK_STICKY 3 = true ∧ q.tick.countErr = true) ∧
          (t.count = p.tickCount + 1 → q.tick.countErr = false) ∧
          (t.held = true → q.getB TIK_STATUS 9 = false ∧ q.getB TIK_STATUS 10 = true) ∧
          Floods p q p.cycle (some bundle) (passOn h) (.token t)) ∧
      (h.second = true → spGet none p.fab.firstCopy bundle = some (.token t) → Becomes (.tickToken ⟨bundle, h⟩ t) s p) ∧
      (bundle ≠ p.parent st → Becomes (.tickToken ⟨bundle, h⟩ t) s p)) ∧
    (bundle = p.parent p.fab.standbyTree → p.fresh2 bundle h .holdNotice →
      ∃ q, Becomes (.holdNotice ⟨bundle, h⟩) s q ∧ q.getB TIK_STATUS 9 = true ∧ q.getB TIK_STATUS 10 = true ∧ q.mem = p.mem ∧ q.cores = p.cores ∧
        Floods p q p.cycle (some bundle) (passOn h) .holdNotice) ∧
    (bundle ≠ p.parent p.fab.standbyTree → Becomes (.holdNotice ⟨bundle, h⟩) s p)

/-- R18, R20, R306: an edge on TICK_IN goes on to TICK_OUT and dates the tick in tree mode, or is held until its token comes and discarded and
counted without one; the tick is applied at its cycle, by the tree's edge or, when none has come, 64 cycles late with the sticky bit, also where the tree's edge comes later than that; the
journal's unwinding ends. -/
def Obligations.TickEdges : Prop :=
  ∀ s : State,
    let p := s.p
    p.clocked = true →
    (p.getB TIK_CTRL 1 = true → Becomes .tickInEdge s { p with power := { p.power with tickOut := p.power.tickOut + 1 } }) ∧
    (p.getB TIK_CTRL 1 = false → p.getB TIK_CTRL 0 = true → p.tick.token = none → p.tick.edge = none →
      Becomes .tickInEdge s { p with
        power := { p.power with tickOut := p.power.tickOut + 1 }, tick := { p.tick with edge := some p.cycle } }) ∧
    (∀ k, p.getB TIK_CTRL 1 = false → p.getB TIK_CTRL 0 = true → p.tick.token = some k → p.tick.treeEdge = none →
      p.cycle + p.rd TIK_DELAY_COMP ≤ k.due + 64 →
      ∃ q, Becomes .tickInEdge s q ∧ q.tick = { p.tick with treeEdge := some (p.cycle + p.rd TIK_DELAY_COMP) } ∧
        q.power.tickOut = p.power.tickOut + 1 ∧
        q.getB TIK_STICKY 1 = (p.getB TIK_STICKY 1 || decide (4 < cycleGap (p.cycle + p.rd TIK_DELAY_COMP) k.due))) ∧
    (∀ k, p.getB TIK_CTRL 1 = false → p.getB TIK_CTRL 0 = true → p.tick.token = some k → p.tick.treeEdge = none →
      k.due + 64 < p.cycle + p.rd TIK_DELAY_COMP →
      ∃ q, Becomes .tickInEdge s q ∧ q.cycle = max p.cycle (k.due + 64) ∧ q.tick.token = none ∧ q.tick.treeEdge = none ∧
        q.tick.edge = some q.cycle ∧ q.power.tickOut = p.power.tickOut + 1) ∧
    (∀ e, p.tick.edge = some e →
      ∃ q, Becomes .strayEdgeDiscard s q ∧ q.tick = { p.tick with edge := none } ∧ q.cycle = max p.cycle (e + p.rd TIK_LEAD) ∧
        q.getF TIK_STATUS 24 8 = min 255 (p.getF TIK_STATUS 24 8 + 1)) ∧
    Becomes .journalUnwindDone s { p with tick := { p.tick with unwinding := false } }

/-- R18, R19, R20, R28, R51, R53: applying a tick ends the frame and begins the one that the token announced, at the cycle of the tick: no
token and no edge wait, and unless the part is frozen every core is as at reset or waits for the clear of its scratchpad. -/
def Obligations.TicksApply : Prop :=
  ∀ (s : State) (k : Token),
    let p := s.p
    let begins (q : Part) (at' : Nat) : Prop :=
      q.cycle = max p.cycle at' ∧ q.tick.token = none ∧ q.tick.edge = none ∧ q.tick.treeEdge = none ∧ q.tick.frameStart = q.cycle ∧
        (p.txnState ≠ 3 → p.getB TIK_CTRL 0 = true → q.tickCount = k.msg.count % 2 ^ 64) ∧ q.tick.frameLen = k.msg.len ∧
          q.tick.frameStretch = k.msg.stretch ∧ q.tick.guardDone = false ∧
        (q.obs.frozen = false → q.tick.coresStarted = false ∧ q.press = [] ∧ q.optim = [] ∧ q.rack = [] ∧ q.buckets = [] ∧
          ∀ c, q.core c = Core.reset ∨ q.core c = { Core.reset with st := .clearing })
    p.clocked = true → p.tick.token = some k →
    (p.getB TIK_CTRL 1 = true → ∃ q, Becomes .tickApply s q ∧ begins q k.due) ∧
    (∀ e, p.getB TIK_CTRL 1 = false → p.tick.treeEdge = some e → ∃ q, Becomes .tickApply s q ∧ begins q e) ∧
    (p.getB TIK_CTRL 1 = false → p.tick.treeEdge = none → ∃ q, Becomes .tickFallback s q ∧ begins q (k.due + 64))

/-- R24, R25: reduce starts when compute work is complete and commit when reduce work is, each no earlier than its offset; at the commit point
the part sends a pass to the tick master and the standby unless its frame has failed; a frame without a commit point at G, or whose scheduler order was not
kept (R186), fails and its outstanding work is discarded. -/
def Obligations.FramePhases : Prop :=
  ∀ s : State,
    let p := s.p
    p.clocked = true →
    (p.phase = 0 → p.computeDone = true →
      ∃ q, Becomes (.phaseStart 1) s q ∧ q.phase = 1 ∧ q.cycle = max p.cycle (p.tick.frameStart + p.rd (TIK_OFFS_C p.kind)) ∧
        q.tick = { p.tick with done0 := some p.frameCycle, overrun := p.tick.overrun || decide (p.rd (TIK_OFFS_C p.kind) < p.frameCycle) } ∧
        q.mem = p.mem ∧ q.cores = p.cores) ∧
    (p.phase = 1 → p.reduceDone = true →
      ∃ q, Becomes (.phaseStart 2) s q ∧ q.phase = 2 ∧ q.cycle = max p.cycle (p.tick.frameStart + p.rd (TIK_OFFS_D p.kind)) ∧
        q.tick = { p.tick with done1 := some p.frameCycle, overrun := p.tick.overrun || decide (p.rd (TIK_OFFS_D p.kind) < p.frameCycle) } ∧
        q.mem = p.mem ∧ q.cores = p.cores) ∧
    (p.phase = 0 → p.computeDone = false →
      ∃ q, Becomes (.phaseStart 1) s q ∧ q.phase = 0 ∧ q.mem = p.mem ∧ q.cores = p.cores ∧
        q.tick.overrun = (p.tick.overrun || decide (p.rd (TIK_OFFS_C p.kind) < p.frameCycle))) ∧
    (p.phase = 2 → p.getB TIK_STATUS 1 = false → p.computeDone = true → p.reduceDone = true → p.commitDone = true →
      ∃ q, Becomes .commitPoint s q ∧ q.getB TIK_STATUS 1 = true ∧ q.tick.done2 = some p.frameCycle ∧ q.mem = p.mem ∧ q.cores = p.cores ∧
        (p.tick.cause = 0 → q.tick.sent = 1 ∧
          ∀ d ∈ p.masters, (⟨0, p.chip, d, p.epoch, 3, 0, 4, 0, 0, p.statusBytes true 0⟩ : Packet) ∈ q.fab.txq) ∧
        (p.tick.cause ≠ 0 → q.tick.sent = p.tick.sent ∧ q.fab = p.fab)) ∧
    (p.inFrame = true → p.tick.guardDone = false →
      ∃ q, Becomes .guardBoundary s q ∧ q.tick.guardDone = true ∧
        q.cycle = max p.cycle (p.tick.frameStart + p.rd (TIK_OFFS_G p.kind)) ∧
        (p.getB TIK_STATUS 1 = false ∨ p.orderKept = false →
          q.tick.cause ≠ 0 ∧ q.tick.signals = [] ∧ q.press = [] ∧ q.optim = [] ∧ q.rack = [] ∧ q.buckets = [] ∧
          ∀ x, x < 4 → (q.sch x).held = [] ∧ (q.sch x).subs = [] ∧ (q.sch x).inbound = []))

/-- R25, R26, R35, R42, R44, R47, R529: what the tick master and the standby keep: a status of a member for the frame in progress, the
largest stretch, and each hold by part and source until its release or until it lapses; any other status is discarded and counted; the
standby takes over. The part that holds repeats its hold. -/
def Obligations.StatusesAndHolds : Prop :=
  ∀ s : State,
    let p := s.p
    (∀ k, p.role ≠ 0 → p.flagPacket 4 = some k →
      let n := leAt k.payload 0 8
      (n = p.tickCount → p.tick.tokenSent ≤ p.tickCount → k.src ∈ p.tick.members → (∀ x ∈ p.tick.statuses, x.chip ≠ k.src) →
        Becomes .frameStatusReceive s { p with
          fab := { p.fab with rx := p.fab.rx.erase k },
          tick := { p.tick with statuses := p.tick.statuses ++
            [⟨k.src, leAt k.payload 8 1 == 0, leAt k.payload 9 1, bit (leAt k.payload 10 1) 0⟩] } }) ∧
      (n ≠ p.tickCount ∨ p.tickCount < p.tick.tokenSent ∨ k.src ∉ p.tick.members →
        ∃ q, Becomes .frameStatusReceive s q ∧ q.tick = p.tick ∧ q.fab = { p.fab with rx := p.fab.rx.erase k } ∧
          q.rd TIK_STAT_LATE = (p.rd TIK_STAT_LATE + 1) % 2 ^ 64)) ∧
    (∀ k, p.role ≠ 0 → p.flagPacket 5 = some k →
      Becomes .stretchRequestReceive s { p with
        fab := { p.fab with rx := p.fab.rx.erase k },
        tick := { p.tick with stretch := max p.tick.stretch (leAt k.payload 0 4 % 2 ^ 27) } }) ∧
    (∀ k, p.role ≠ 0 → p.flagPacket 6 = some k →
      ∃ q, Becomes .holdPacketReceive s q ∧ q.fab = { p.fab with rx := p.fab.rx.erase k } ∧
        q.tick.holds = (p.tick.holds.filter fun h => !(h.chip == k.src && h.source == k.ref)) ++ [⟨k.src, k.ref, p.cycle⟩]) ∧
    (∀ k, p.flagPacket 7 = some k →
      let left := p.tick.holds.filter fun h => !(h.chip == k.src && h.source == k.ref)
      ∃ q, Becomes .releasePacketReceive s q ∧ q.fab = { p.fab with rx := p.fab.rx.erase k } ∧ q.tick.holds = left ∧
        (p.tick.holds ≠ [] → left = [] → q.rd TIK_STAT_HOLD = (p.rd TIK_STAT_HOLD + (p.cycle - p.tick.holdSince)) % 2 ^ 64)) ∧
    (∀ (chip source : Nat) (h : Hold), p.role = 1 → (p.tick.holds.find? fun x => x.chip == chip && x.source == source) = some h →
      ∃ q, Becomes (.holdLapse chip source) s q ∧ q.tick.holds = p.tick.holds.erase h ∧ q.tick.lapses = p.tick.lapses + 1 ∧
        q.cycle = max p.cycle (h.heard + 1000000)) ∧
    (p.role = 2 → p.clocked = true → p.inFrame = true → p.getB TIK_STATUS 11 = false → p.tick.holds = [] → p.tick.token = none →
      ∃ q, Becomes .standbyTakeover s q ∧ q.role = 1 ∧ q.tick = { p.tick with resumeReplay := true, stopAfter := false } ∧ q.mem = p.mem ∧
        q.cycle = max p.cycle (p.tick.tokenSeenAt + p.getF TIK_REPLAY 8 8 * 10 * (p.tick.frameLen + p.tick.frameStretch))) ∧
    (p.clocked = true → p.getB PWR_STATUS 2 = true → p.mgt.thermHold = false →
      ∃ q, Becomes .holdRepeat s q ∧ q.cycle = max p.cycle p.power.repeatAt ∧ q.power.repeatAt = p.power.repeatAt + 100000 ∧
        ∀ d ∈ p.masters, (⟨0, p.chip, d, p.epoch, 3, 0, 6, 0, 0, []⟩ : Packet) ∈ q.fab.txq)

/-- R168, R169, R172 to R174, R184: preload runs once, from cycle 128 on, and closes the queues whose counter loads as zero once all of its
descriptors are in; a submission enters its queue, to the ready
descriptors or to those that wait on a counter, or a delay list; one from another part takes a place of the buffer; the core that asks receives the
descriptor with its ticket, or the end of work. -/
def Obligations.SchedulerEvents : Prop :=
  ∀ (s : State) (sector : BitVec 2),
    let p := s.p
    let x := sector.toNat
    (p.schRuns x = true → p.tick.unwinding = false → (p.sch x).preloaded = false →
      ∃ q, Becomes (.preload sector) s q ∧ (q.sch x).preloaded = true ∧ q.cores = p.cores ∧
        (fld (p.rd (SCH_PRELOAD x p.kind)) 48 15 = 0 → p.hif.accepted = [] → q.cycle = max p.cycle (p.tick.frameStart + 128) ∧ q.mem = p.mem ∧
          ((p.sch x).loaded = false → p.preloadWaits x = false → (q.sch x).loaded = true ∧
          ∀ j ∈ p.cfgQueues x, p.queueOn x j = true → p.getB (SCH_QCFG x j) 15 = true →
            p.getF (SCH_DC_INIT x p.kind (p.getF (SCH_QCFG x j) 0 14 / 2)) (16 * (p.getF (SCH_QCFG x j) 0 14 % 2)) 16 = 0 →
            (q.queue x j).closed = true ∨ (q.queue x j).violated = true))) ∧
    (∀ u rest, p.working = true → (p.sch x).subs = u :: rest → dCtrl u.bytes 0 = false → p.queueOn x u.queue = true →
      (p.queue x u.queue).closed = false → (p.queue x u.queue).violated = false → (p.queue x u.queue).held < p.queueSlots x u.queue →
      ∃ q, Becomes (.descEnterQueue sector) s q ∧ (q.sch x).subs = rest ∧ q.cores = p.cores ∧ q.mem = p.mem ∧
        (dWait u.bytes = none → ∃ st, (q.queue x u.queue).ready = (p.queue x u.queue).ready ++ [⟨(p.sch x).nextN, u.bytes, st⟩] ∧
          (q.queue x u.queue).waiting = (p.queue x u.queue).waiting) ∧
        ∀ j, dWait u.bytes = some j → p.dcVal x j ≠ 0 →
          (q.queue x u.queue).waiting = (p.queue x u.queue).waiting ++ [⟨(p.sch x).nextN, u.bytes, false⟩] ∧
          (q.queue x u.queue).ready = (p.queue x u.queue).ready) ∧
    (∀ u rest, p.working = true → (p.sch x).subs = u :: rest → dCtrl u.bytes 0 = true → p.schOn x = true → p.delayFull x = false →
      ∃ q, Becomes (.descEnterQueue sector) s q ∧ (q.sch x).subs = rest ∧ q.cores = p.cores ∧
        (q.sch x).delay.length = (p.sch x).delay.length + 1) ∧
    (∀ k b, p.remoteSub x = some (k, b) → p.live = true → (p.sch x).inbound.length < 64 → b.poison = 0 →
      descBad (b.payload.take 64) false = false → dCtrl (b.payload.take 64) 0 = false →
      ∃ q, Becomes (.remoteSubmission sector) s q ∧ q.fab = { p.fab with rx := (p.fab.rx.erase k).erase b } ∧ q.cores = p.cores ∧
        q.mem = p.mem ∧ q.regs = p.regs ∧ (q.sch x).inbound =
          (p.sch x).inbound ++ [⟨leAt k.payload 0 2 % 16384, .remote, b.payload.take 64⟩]) ∧
    (∀ core : BitVec 13,
      let c := core.toNat
      let y := coreSector c
      let k := p.core c
      p.working = true → k.st = .inAsk →
      (p.endOfWork c = true → ∃ q, Becomes (.descHandover core) s q ∧ OnlyCore p q c ∧ (q.core c).st = .running ∧ (q.core c).endSeen = true ∧
        (q.core c).reg k.askRd = if k.askRd = 0 then 0 else 0xFFFFFFFF) ∧
      (∀ j d, p.endOfWork c = false → p.nextDesc c = some (j, d) → p.mustWait c k.seq [] [(k.askAddr, k.askAddr + 64)] = false →
        ∃ q, Becomes (.descHandover core) s q ∧ (q.core c).st = .running ∧ (∀ e, e ≠ c → q.core e = p.core e) ∧
          (q.core c).reg k.askRd = (if k.askRd = 0 then 0 else (16384 * y + j) % 2 ^ 32) ∧
          (∀ r, r ≠ k.askRd → (q.core c).reg r = k.reg r) ∧ q.ticket c = p.ticket c + 1 ∧
          (q.queue y j).ready = (p.queue y j).ready.erase d ∧ q.mem = (p.spadStore c k.askAddr d.bytes).mem))

/-- R171, R172, R177, R178, R180, R182: a release takes the first completion that its flow allows, forwards and decrements, and a held
completion that it leaves outside its flow's window is discarded; a counter that reached
zero lets its descriptors in and closes its queues; a delayed descriptor that is due enters its queue. -/
def Obligations.SchedulerReleases : Prop :=
  ∀ (s : State) (sector : BitVec 2),
    let p := s.p
    let x := sector.toNat
    (∀ (flow : BitVec 12) d, (p.sch x).held.find? (p.releasable x flow.toNat) = some d → p.schRuns x = true →
      ∃ q, Becomes (.completionRelease sector flow) s q ∧ (q.sch x).held = (((p.sch x).held.erase d).filter fun e => !q.outsideWindow x e.bytes) ∧
        q.cores = p.cores ∧
        (∀ g, dFlow d.bytes = some g → (spGet .reset (q.sch x).flows g).next = (dSeq d.bytes + 1) % 65536) ∧
        (let w := leAt d.bytes 16 4
         let y := fld w 14 2
         dCtrl d.bytes 1 = false → dCtrl d.bytes 2 = true → dCtrl d.bytes 3 = false → w >>> 16 = p.chip → p.dcVal y (w % 16384) ≠ 0 →
           q.dcVal y (w % 16384) = p.dcVal y (w % 16384) - 1)) ∧
    (∀ flow : BitVec 12, (p.sch x).held.find? (p.releasable x flow.toNat) = none → Becomes (.completionRelease sector flow) s p) ∧
    (∀ j rest, (p.sch x).dcZero = j :: rest → p.working = true →
      ∃ q, Becomes (.dcZeroRelease sector) s q ∧ (q.sch x).dcZero = rest ∧ q.cores = p.cores ∧ q.mem = p.mem ∧
        (∀ k d, p.waitingOn x j = [(k, d)] → ∃ st, (q.queue x k).waiting = (p.queue x k).waiting.erase d ∧
          (q.queue x k).ready = (p.queue x k).ready ++ [⟨d.n, d.bytes, st⟩]) ∧
        (p.waitingOn x j = [] → ∀ k ∈ p.cfgQueues x, p.queueOn x k = true → p.getB (SCH_QCFG x k) 15 = true →
          p.getF (SCH_QCFG x k) 0 14 = j → (q.queue x k).closed = true ∨ (q.queue x k).violated = true)) ∧
    (∀ e rest, p.dueNow x = e :: rest → p.schRuns x = true → p.tick.unwinding = false → (p.sch x).loaded = true → p.queueFull x e.queue = false → e.queue < 16384 →
      let at' := p.tick.frameStart + max 128 (1000 * (e.due - p.rd (SCH_ST_BASE x)))
      let l := (p.clockTo at').load 12 0 (p.getF (SCH_DELAY x) 0 40 + 64 * e.slot) 64
      ∃ q, Becomes (.delayRelease sector) s q ∧ (q.sch x).delay = (p.sch x).delay.erase e ∧ q.cores = p.cores ∧ q.cycle = max p.cycle at' ∧
        (l.2.queueOn x e.queue = true → l.1.2 = none → (p.queue x e.queue).closed = false → (p.queue x e.queue).violated = false →
          dWait l.1.1 = none → ∃ st, (q.queue x e.queue).ready = (p.queue x e.queue).ready ++ [⟨(p.sch x).nextN, l.1.1, st⟩]))

/-- R189, R192, R199, R209, R217, R218, R237, R300: a unit starts the oldest request of its queue while it has a free place: the request
leaves the queue and runs. A poisoned descriptor gives status 3, a sampler request that the rules refuse and an op that is no op of its
unit status 2, and a sampler request that may run another status; an accepted request counts what it was asked for. -/
def Obligations.RequestStarts : Prop :=
  ∀ (s : State) (sector : BitVec 2) (k : Ureq) (rest : List Ureq),
    let p := s.p
    let x := sector.toNat
    let op := leAt k.desc 0 1
    let starts (c : Instr) (unit room : Nat) (f : RunReq → Prop) : Prop :=
      (p.unit x).queued unit = k :: rest → (p.unit x).active unit < room →
      ∃ q r, Becomes c s q ∧ (q.unit x).queued unit = rest ∧ (q.unit x).running = (p.unit x).running ++ [r] ∧
        { r.req with slot := k.slot } = k ∧ q.cores = p.cores ∧
        (k.poison.isSome = true → r.status = 3 ∧ q.mem = p.mem) ∧ (k.poison = none → f r)
    p.serves = true →
    starts (.sampleRequestStart sector) 0 8 (fun r => r.status = 2 ↔ p.sampleRefusal x k.desc ≠ []) ∧
    (op ≠ 1 → p.roomFor x (p.tbl (gSpec k.desc % 256)) (gFlag k.desc 2) (addrAt k.desc 8) (gCount k.desc) = true →
      starts (.rowGatherStart sector) 1 32 fun r => (op ≠ 0 → r.status = 2) ∧ (r.status = 0 → r.done = gCount k.desc)) ∧
    (op = 1 → starts (.tileFetchStart sector) 1 32 fun r => r.status = 0 → r.done = gCount k.desc) ∧
    (op = 1 → starts (.tileStoreStart sector) 2 32 fun r => r.status = 0 → r.done = gCount k.desc) ∧
    (op ≠ 1 → starts (.rowScatterStart sector) 2 32 fun r => (op ≠ 0 → r.status = 2) ∧ (r.status = 0 → r.done = gCount k.desc)) ∧
    (p.roomFor x (p.tbl (leAt k.desc 2 2 % 256)) (bit (leAt k.desc 1 1) 4) (addrAt k.desc 16) (lCount k.desc) = true →
      starts (.pooledLookupStart sector) 3 32 fun r => (op ≠ 0 → r.status = 2) ∧ (r.status = 0 → r.done = lCount k.desc))

/-- R191, R193, R211, R212, R214, R242, R249, R375: a row that is here goes to the request that waits for it, for a row gather at once to its
destination; the owner answers a row request; run-ahead asks the owner of a row that is not cached; a request with all of its rows
leaves, writes its record and sends its signals; the cache's counts are halved; the level pass sends no line to the twin. -/
def Obligations.RequestEvents : Prop :=
  ∀ (s : State) (sector : BitVec 2),
    let p := s.p
    let x := sector.toNat
    (∀ (req fetch : Nat) r f bs, p.serves = true → (p.rowReplies f).all (fun k => !k.payload.isEmpty) = true → req ≠ 0 → (p.unit x).running.find? (fun r => r.req.id == req) = some r →
      r.fetches[fetch]? = some f → f.arrived = false → f.row = some bs → f.poison = none → f.kind = 0 → f.remote = false →
      let d := r.req.desc
      let T := p.tbl f.table
      ∃ q, Becomes (.rowArrive sector req fetch) s q ∧ q.cores = p.cores ∧
        (q.unit x).running = ((p.unit x).running.map fun y =>
          if y.req.id = req then { y with fetches := y.fetches.set fetch { f with arrived := true } } else y) ∧
        (r.req.unit = 3 → q.mem = p.mem) ∧
        (∀ i, r.req.unit = 1 → f.outs = [i] → isHbm (addrAt d 16 + i * gParam d 0) = false →
          q.mem = (p.store 3 r.req.pair (addrAt d 16 + i * gParam d 0) ((bs.drop (gatherCols T d).1).take (gatherCols T d).2) none).mem)) ∧
    (∀ k, (p.fab.rx.find? fun q => q.cls == 0 && q.kind == 2) = some k → p.serves = true →
      ∃ q l, Becomes .remoteRowRequest s q ∧ q.cores = p.cores ∧ q.fab.rx = p.fab.rx.erase k ∧ q.fab.txq = p.fab.txq ++ l ∧ l ≠ [] ∧
        ∀ a ∈ l, a.dst = k.src ∧ a.cls = 1 ∧ a.ref = k.ref ∧ (a.kind = 2 ∨ a.kind = 8) ∧ (bit k.poison 8 = false → a.kind = 2)) ∧
    (p.serves = true → p.getB (GSE_CTRL x) 0 = true →
      ∃ q, Becomes (.runAheadFetch sector) s q ∧ q.cores = p.cores ∧ (∀ u, (q.unit x).queued u = (p.unit x).queued u) ∧
        (q.unit x).running = (p.unit x).running ∧
        ∀ k, ((p.unit x).gatQ.filter fun q => leAt q.desc 0 1 == 0 && q.poison.isNone).take (p.getF (GSE_CTRL x) 4 4) = [k] →
          let d := k.desc
          let T := p.tbl (gSpec d)
          let l := p.loadList 3 k.pair (addrAt d 8) (gCount d)
          let p1 := l.2
          p.tableOk (gSpec d) = true → p.srcOk (addrAt d 8) (4 * gCount d) = true → gCount d ≤ 8192 → gFlag d 2 = false →
          ∀ key, l.1 = ([key], none) → key < T.rows → (p1.place T key).1 ≠ p.chip → ((p1.unit x).outstanding < 12288) →
          p1.remoteCacheable T = true → p1.rcOn x = true → ((p1.unit x).ahead.any fun f => f.table == T.t && f.key == key) = false →
          (p1.unit x).inFlight T.t (p1.place T key).1 key = false →
          ((List.range T.segs).all fun g => (p1.rcFind x T (p1.place T key).1 key g).isSome) = false →
          ∃ f, (q.unit x).ahead = (p.unit x).ahead ++ [f] ∧ f.owner = (p1.place T key).1 ∧ f.key = key ∧ f.arrived = false ∧
            ∃ a ∈ q.fab.txq, a.dst = f.owner ∧ a.cls = 0 ∧ a.kind = 2 ∧ a.ref = f.ref) ∧
    (∀ (req : Nat) r, (p.unit x).running.find? (fun r => r.req.id == req) = some r → p.working = true →
      r.fetches.all (·.arrived) = true →
      ∃ q, Becomes (.unitRequestComplete sector req) s q ∧ q.cores = p.cores ∧
        (q.unit x).running = ((p.unit x).running.filter fun y => y.req.id != req) ∧
        (∀ ev, r.req.ev = some ev → (r.req.core, ev) ∈ q.tick.signals) ∧
        (r.req.unit = 1 ∨ r.req.unit = 2 → r.req.poison = none → gFlag r.req.desc 0 = true → p.recordOk x r.req.desc = true →
          isHbm (addrAt r.req.desc 40) = false →
          q.mem = (p.store 3 r.req.pair (addrAt r.req.desc 40) (recordBytes r) none).mem)) ∧
    (2 ^ p.getF (TBL_RC_CFG x) 0 5 ≤ (p.unit x).rcLookups →
      ∃ q, Becomes (.rcHalve sector) s q ∧ q = { p with units := q.units } ∧ (∀ y, y ≠ x → q.unit y = p.unit y) ∧
        (q.unit x).rcLookups = (p.unit x).rcLookups - 2 ^ p.getF (TBL_RC_CFG x) 0 5 ∧
        ∀ i, spGet .empty (q.unit x).rc i = { spGet .empty (p.unit x).rc i with freq := (spGet .empty (p.unit x).rc i).freq / 2 }) ∧
    (p.levelRuns x = true →
      ∃ q, Becomes (.levelPass sector) s q ∧ q.cores = p.cores ∧ q.fab.rx = p.fab.rx ∧ q.twin.out = p.twin.out ∧
        (p.levelled = true → p.versionedTables.flatMap p.brokenLines = [] → q = p))

/-- R257, R260 to R268: when reduce begins the press of a sector merges its entries by key and hands the contributions over; a contribution of
another part is recorded, in the record log while the sector still merges (R268); the part tells the others that it has sent its last; the owner run and the composed run then turn the
contributions into row jobs. -/
def Obligations.ScatterPress : Prop :=
  ∀ (s : State) (sector : BitVec 2),
    let p := s.p
    let x := sector.toNat
    p.working = true →
    (p.tick.unwinding = false → p.phase ≠ 0 → p.pressOn = true → (p.prs x).sent = false →
      ∃ q, Becomes (.pressSortStart sector) s q ∧ (q.prs x).sent = true ∧
        ((p.prs x).ownerDone = false → (p.prs x).composedDone = false → q.pressStage x = if q.markersIn = true then 4 else 3) ∧
          (q.prs x).recs = [] ∧ q.cores = p.cores ∧
        ((p.prs x).recs = [] → q = { p with press := q.press }) ∧
        ∀ r, (p.prs x).recs = [r] → (p.place (p.tbl (fld r 56 8)) (fld r 24 32)).1 = p.chip →
          fld r 24 32 < (p.tbl (fld r 56 8)).rows →
          ∃ c, (q.prs (c.row % 4)).owner = (p.prs (c.row % 4)).owner ++ [c] ∧ c.table = fld r 56 8 ∧
            c.row = (p.place (p.tbl (fld r 56 8)) (fld r 24 32)).2 ∧ c.chip = p.chip ∧ c.sector = x) ∧
    (∀ k, (p.fab.rx.find? fun q => q.cls == 2 && q.kind == 1 && leAt q.payload 4 4 % 4 == x) = some k →
      ∃ q, Becomes (.contributionArrive sector) s q ∧ q.fab.rx = p.fab.rx.erase k ∧ q.cores = p.cores ∧
        q.prs x = { p.prs x with owner := (p.prs x).owner ++ [readContrib k], logged := (q.prs x).logged, stopped := (q.prs x).stopped } ∧
        (∀ y, y ≠ x → q.prs y = p.prs y) ∧
        ((p.prs x).sent = true → q.mem = p.mem ∧ (q.prs x).logged = (p.prs x).logged ∧ (q.prs x).stopped = (p.prs x).stopped) ∧
        ((p.prs x).sent = false → (p.prs x).stopped = false → 16 * (p.prs x).logged + 16 ≤ p.stagingRoom x →
          (q.prs x).logged = (p.prs x).logged + 1 ∧ (q.prs x).stopped = false) ∧
        ((p.prs x).sent = false → p.stagingRoom x < 16 * (p.prs x).logged + 16 → q.mem = p.mem ∧ (q.prs x).stopped = true)) ∧
    (p.pressOn = true → p.pressSent = true → p.tick.markerSent = false →
      ∃ q, Becomes .pressEndMarker s q ∧ q = { p with fab := q.fab, tick := { p.tick with markerSent := true } } ∧
        ∀ d ∈ p.pressPeers, (⟨0, p.chip, d, p.epoch, 3, 0, 3, 0, 0, []⟩ : Packet) ∈ q.fab.txq) ∧
    (∀ k, (p.fab.rx.find? fun q => q.cls == 3 && q.kind == 3) = some k →
      ∃ q, Becomes .pressEndMarkerArrive s q ∧
        q = { p with fab := { p.fab with rx := p.fab.rx.erase k }, tick := { p.tick with markersFrom := q.tick.markersFrom } } ∧
        ∀ d, d ∈ q.tick.markersFrom ↔ d = k.src ∨ d ∈ p.tick.markersFrom) ∧
    (p.tick.unwinding = false → p.pressOn = true → p.markersIn = true → (p.prs x).ownerDone = false → (p.prs x).stopped = false → (p.prs x).owner.length ≤ 524288 →
      ∃ q, Becomes (.ownerMerge sector) s q ∧ ((p.prs x).composedDone = false → q.pressStage x = 5) ∧ (q.prs x).ownerDone = true ∧
        (q.prs x).owner = [] ∧ q.cores = p.cores ∧
        ∀ c, (p.prs x).owner = [c] → c.poison = none → c.table < 256 → (p.tbl c.table).tiered = false → c.row < (p.tbl c.table).slots0 →
          q.mem = p.mem ∧ (q.prs x).jobs = (p.prs x).jobs ++ [⟨c.table, 0, c.row, c.pair, c.vals, none⟩]) ∧
    (p.tick.unwinding = false → p.pressOn = true → (∀ y < 4, (p.prs y).ownerDone = true ∧ (p.prs y).cleared = true) →
      (p.prs x).composedDone = false → (p.prs x).stopped = false → (p.prs x).composed.length ≤ 524288 →
      ∃ q, Becomes (.composedRun sector) s q ∧ q.pressStage x = 6 ∧ (q.prs x).composedDone = true ∧ (q.prs x).composed = [] ∧
        q.cores = p.cores ∧ ((p.prs x).composed = [] → (∀ j ∈ (p.prs x).jobs, (p.tbl j.table).mode ≠ 1) →
          q.mem = p.mem ∧ (q.prs x).jobs = (p.prs x).jobs))

/-- R267, R271, R278, R280, R375: the gradient arrays are cleared once a frame; a unit takes its jobs in turn, the merged rows first, and a job
that poison stops updates nothing; what the jobs write is sent to the twin as no raw line. -/
def Obligations.OptimiserJobs : Prop :=
  ∀ (s : State) (sector : BitVec 2),
    let p := s.p
    let x := sector.toNat
    (p.serves = true → p.kind = 2 → p.tick.coresStarted = true → (p.prs x).cleared = false →
      ∃ q, Sys2Proof.Machine.exec (.gradArrayClear sector) s = .next { s with p := q } ∧ q.prs x = { p.prs x with cleared := true } ∧ q.cores = p.cores ∧
        (p.gradTables x = [] → q = { p with press := q.press })) ∧
    (p.optOn x = true → p.pressDone = true → ∀ upset : Option Upset,
      (∀ j rest, (p.prs x).jobs = j :: rest →
        ∃ q, Sys2Proof.Machine.exec (.optRowJob sector upset) s = .next { s with p := q } ∧ q.prs x = { p.prs x with jobs := rest } ∧
          q.cores = p.cores ∧ q.twin.out = p.twin.out ∧
          (j.poison.isSome = true → j.table < 256 → (p.tbl j.table).tiered = false → q.mem = p.mem)) ∧
      (∀ T i, (p.prs x).jobs = [] → p.nextGradRow x = some (T, i) →
        ∃ q, Sys2Proof.Machine.exec (.optRowJob sector upset) s = .next { s with p := q } ∧ q.prs x = p.prs x ∧ q.cores = p.cores ∧ q.twin.out = p.twin.out ∧
          spGet false (q.opt x).rows1 ((T.t <<< 40) + i) = true)) ∧
    (∀ ctl : BitVec 1, p.optOn x = true →
      (if ctl = 0 then (p.opt x).blk0 else (p.opt x).blk1) < p.getF (OPT_BLK x ctl.toNat) 48 15 →
      ∃ q, Sys2Proof.Machine.exec (.optBlockJob sector ctl) s = .next { s with p := q } ∧ q.cores = p.cores ∧ q.twin.out = p.twin.out ∧
        q.opt x = (if ctl = 0 then { p.opt x with blk0 := (p.opt x).blk0 + 1 } else { p.opt x with blk1 := (p.opt x).blk1 + 1 }))

/-- R293, R295, R317, R319, R535: scrub reads the next line of its stack, writes a corrected one back with a fresh codeword and marks one that
cannot be corrected as poison; a sensor read sets the temperature and the marks of its stack; once the stacks are trained CCLK runs, and
once they are zeroed every byte of HBM reads zero and the scratchpads are as before. -/
def Obligations.MemoryEvents : Prop :=
  ∀ (s : State) (sector : BitVec 2) (ctl : BitVec 1),
    let p := s.p
    let x := sector.toNat
    let i := ctl.toNat
    (∀ errs, p.getF (MEM_SCRUB x) (8 * i) 8 ≠ 0 → p.mem.ready = true → p.getB (MEM_STATUS x) 1 = false →
      let n := if ctl = 0 then (p.ctl x).scrub0 else (p.ctl x).scrub1
      ∃ q, Becomes (.patrolScrub sector ctl errs) s q ∧ q.cores = p.cores ∧
        (if ctl = 0 then (q.ctl x).scrub0 = (n + 1) % 2 ^ 30 ∧ (q.ctl x).scrub1 = (p.ctl x).scrub1
          else (q.ctl x).scrub1 = (n + 1) % 2 ^ 30 ∧ (q.ctl x).scrub0 = (p.ctl x).scrub0) ∧
        (p.scrubLine (2 * x + i) n = none → q.mem = p.mem) ∧
        (∀ a, p.scrubLine (2 * x + i) n = some a →
          let m := p.strike a errs
          (rsDecode (spGet 0 m.mem.chk a) = .clean → q.mem = m.mem) ∧
          (∀ e, rsDecode (spGet 0 m.mem.chk a) = .corrected e → q.mem = (m.putLine a (rsCorrect e (m.rawBytes a 64)) none).mem) ∧
          (rsDecode (spGet 0 m.mem.chk a) = .uncorrectable → spGet 0 q.mem.chk a = poisonQ))) ∧
    (p.power.hbmTrained = true → p.getB (MEM_STATUS x) 1 = false →
      ∃ q, Becomes (.hbmRefresh sector ctl) s q ∧ q = { p with mctl := q.mctl } ∧ (∀ y, y ≠ x → q.ctl y = p.ctl y) ∧
        q.ctl x = (if ctl = 0 then { p.ctl x with refreshes := (p.ctl x).refreshes + 1 }
          else { p.ctl x with refreshes1 := (p.ctl x).refreshes1 + 1 })) ∧
    (∀ celsius, p.power.hbmTrained = true →
      ∃ q, Becomes (.stackSensorRead sector ctl celsius) s q ∧ q = { p with regs := q.regs } ∧
        q.getF (MEM_TEMP x) (8 * i) 8 = min celsius 255 ∧ q.getB (MEM_STATUS x) (2 + i) = decide (85 < celsius) ∧
        q.getB (MEM_STATUS x) (4 + i) = decide (p.getF (MEM_THERM x) 0 8 < celsius)) ∧
    (p.mgt.ready = true → p.power.hbmTrained = false → p.getB PWR_STATUS 7 = false →
      ∃ q, Becomes .hbmTrainingDone s q ∧ q.power = { p.power with hbmTrained := true } ∧ q.mem = p.mem ∧ q.cores = p.cores ∧
        q.getB PWR_STATUS 4 = !p.getB PWR_CTRL 0) ∧
    (p.power.hbmTrained = true → p.mem.ready = false →
      ∃ q, Becomes .hbmZero s q ∧ q.cores = p.cores ∧ q.mem.ready = true ∧ q.mem.chk = [] ∧ q.mem.granules = p.mem.granules ∧
        (∀ y, q.byteAt y = if y < hbmTop then 0#8 else p.byteAt y) ∧ (∀ y < 4, q.getB (MEM_STATUS y) 0 = true) ∧ q.getB HIF_STATUS 1 = true)

/-- R130, R304, R309, R311 to R314: a racking engine moves the units of its transfers in turn, ends or moves on a transfer as the other part
answers, and frees the tag with its signals once every unit is visible; for other parts it opens, reads, writes and answers, and what
the region map refuses is discarded. -/
def Obligations.RackingEvents : Prop :=
  ∀ (s : State) (sector : BitVec 2) (tag : Nat),
    let p := s.p
    let x := sector.toNat
    let answers (q : Part) (k : Packet) (kind : Nat) (f : List Byte → Prop) : Prop :=
      ∃ a, a ∈ q.fab.txq ∧ a.dst = k.src ∧ a.cls = 1 ∧ a.kind = kind ∧ a.ref = k.ref ∧ f a.payload
    (∀ t u rest, p.xfer x tag = some t → p.serves = true → t.stage = 0 → t.units = u :: rest →
      ∃ q t', Becomes (.rackUnitReadDone sector tag) s q ∧ q.cores = p.cores ∧ q.xfer x tag = some t' ∧ t'.units = rest ∧
        t'.waiting = t.waiting ∧ t'.stage = 0 ∧
        (isHbm (gLocal t.src + u.2.1) = false → isHbm (gLocal t.dst + u.2.1) = false →
          q.mem = (p.putGrans 7 t.pair (gLocal t.dst + u.2.1) (p.loadGrans 7 t.pair (gLocal t.src + u.2.1) u.2.2).1).mem)) ∧
    (∀ k, p.waiting 0 0 = some k →
      let g := leAt k.payload 0 8
      let len := leAt k.payload 8 4
      let ok := gChip g == p.chip && (if leAt k.payload 16 1 == 1 then p.rackInOk (gLocal g) len else p.rackSrcOk (gLocal g) len)
      ∃ q, Becomes .remoteRackOpen s q ∧ q.mem = p.mem ∧ q.cores = p.cores ∧ q.fab.rx = p.fab.rx.erase k ∧
        answers q k 0 (· = leBytes 32 (b2n ok))) ∧
    (∀ k t, p.waiting 1 0 = some k → p.xfer (refSector k.ref) (refTag k.ref) = some t → t.stage = 1 →
      let y := refSector k.ref
      ∃ q, Becomes .rackOpenReply s q ∧ q.mem = p.mem ∧ q.cores = p.cores ∧ q.fab.rx = p.fab.rx.erase k ∧
        (leAt k.payload 0 1 = 1 → gChip t.src = p.chip → q.xfer y (refTag k.ref) = some { t with stage := 2 }) ∧
        (leAt k.payload 0 1 = 1 → gChip t.src ≠ p.chip → (q.xfer y (refTag k.ref)).map (·.stage) = some 3) ∧
        (leAt k.payload 0 1 ≠ 1 → (q.rck y).transfers = (p.rck y).transfers.filter fun z => z.tag != t.tag)) ∧
    (∀ k, p.waiting 0 1 = some k → p.tick.unwinding = false →
      let a := gLocal (leAt k.payload 0 8)
      let len := leAt k.payload 8 4
      ∃ q, Becomes .rackPullRequest s q ∧ q.cores = p.cores ∧ q.fab.rx = p.fab.rx.erase k ∧
        (p.rackSrcOk a len = true → answers q k 1 fun bs =>
          isHbm a = false → bs = rackBytes (p.loadGrans 11 (leAt k.payload 12 4) a len).1) ∧
        (p.rackSrcOk a len = false → q.fab.txq = p.fab.txq ∧ q.mem = p.mem)) ∧
    (∀ k, p.waiting 2 0 = some k →
      let a := gLocal (leAt k.payload 0 8)
      let len := leAt k.payload 8 4
      ∃ q, Becomes .rackPushUnit s q ∧ q.cores = p.cores ∧ q.fab.rx = p.fab.rx.erase k ∧
        (p.rackInOk a len = true → (∃ b ∈ q.fab.txq, b.dst = k.src ∧ b.cls = 1 ∧ b.kind = 5 ∧ b.ref = leAt k.payload 16 4) ∧
          (isHbm a = false →
            q.mem = (p.putGrans 11 (leAt k.payload 12 4) a (payloadGrans k.poison 1 ((k.payload.drop 32).take len))).mem)) ∧
        (p.rackInOk a len = false → q.fab.txq = p.fab.txq ∧ q.mem = p.mem)) ∧
    (∀ k t, p.waiting 1 5 = some k → p.xfer (refSector k.ref) (refTag k.ref) = some t →
      ∃ q, Becomes .rackPushAck s q ∧ q = { p with fab := { p.fab with rx := p.fab.rx.erase k }, rack := q.rack } ∧
        q.xfer (refSector k.ref) (refTag k.ref) = some { t with waiting := t.waiting.filter fun u => u.1 != k.ref >>> 15 }) ∧
    (∀ t, p.xfer x tag = some t → p.working = true → t.stage ≠ 1 → t.units = [] → t.waiting = [] →
      ∃ q, Becomes (.rackComplete sector tag) s q ∧ q.mem = p.mem ∧ q.cores = p.cores ∧
        (q.rck x).transfers = ((p.rck x).transfers.filter fun y => y.tag != tag) ∧
        (bit t.sig 0 = true ∨ (t.sig ≠ 0 ∧ p.inSpadOf t.dst = false) → (t.core, t.ev) ∈ q.tick.signals) ∧
        (bit t.sig 1 = true → p.inSpadOf t.dst = true → gChip t.dst = p.chip → p.hasRole (windowCore (gLocal t.dst)) = true →
          (windowCore (gLocal t.dst), t.ev) ∈ q.tick.signals)) ∧
    (∀ k, p.irrRequest = some k → k.kind = 3 →
      let a := gLocal (leAt k.payload 0 8)
      ∃ q, Becomes .remoteLdgStg s q ∧ q.cores = p.cores ∧ q.fab.rx = p.fab.rx.erase k ∧
        (p.mayRead a 4 = false → q.mem = p.mem ∧ answers q k 3 (· = leBytes 32 (2 ^ 32))) ∧
        (p.mayRead a 4 = true → a % 4 = 0 → isHbm a = false → p.granPoison a = false →
          q.mem = p.mem ∧ answers q k 3 (· = leBytes 32 (leNat (p.rawBytes a 4))))) ∧
    (∀ k, p.irrRequest = some k → k.kind = 4 →
      let a := gLocal (leAt k.payload 0 8)
      ∃ q, Becomes .remoteLdgStg s q ∧ q.cores = p.cores ∧ q.fab.rx = p.fab.rx.erase k ∧
        answers q k 4 (· = leBytes 32 (if p.mayInbound a 4 = true then 0 else 2 ^ 32)) ∧
        (p.mayInbound a 4 = false → q.mem = p.mem) ∧
        (p.mayInbound a 4 = true → a % 4 = 0 → isHbm a = false → p.granPoison a = false →
          ∀ y, q.byteAt y = if a ≤ y ∧ y < a + 4 then (leBytes 4 (leAt k.payload 8 4)).getD (y - a) 0#8 else p.byteAt y))

/-- R327 to R331, R345, R351: training puts the written identifier and topology in force and every port into training, down or disabled; a port
then goes on through identity and authentication as its neighbour answers, with a challenge of 32 bytes and the policy in force when it
begins (R471), or to miscabled or not authenticated; stopping takes every
port down; a retrain starts over; the first probe of a wave is kept in the part's own tick-path stage and goes on. -/
def Obligations.FabricTraining : Prop :=
  ∀ s : State,
    let p := s.p
    (p.getB FAB_CTRL 0 = false →
      ∃ q, Becomes .fabTrain s q ∧ q.getB FAB_CTRL 0 = true ∧ q.chip = p.rd FAB_ID % 65536 ∧ q.fab.topoInForce = p.rd FAB_TOPO % 65536 ∧
        q.fab.bundles = [] ∧ q.mem = p.mem ∧ q.cores = p.cores ∧ ∀ n < 34, q.port n = Port.reset ∧ q.portRuns n = false ∧
          q.pstate n = if p.getB (FAB_PCTRL n) 0 = true then 0 else if q.cabled n = true then 2 else 1) ∧
    (∃ q, Becomes .fabTrainStop s q ∧ q.getB FAB_CTRL 0 = false ∧ q.fab.fwd = [] ∧ q.mem = p.mem ∧ q.cores = p.cores ∧
      ∀ n < 34, q.port n = Port.reset ∧ q.pstate n = if p.getB (FAB_PCTRL n) 0 = true then 0 else 1) ∧
    (∀ port < 34, p.pstate port = 2 →
      ∃ q, Becomes (.electricalTrainingDone port) s q ∧ q = { p with regs := q.regs } ∧ q.pstate port = 3 ∧
        q.getF (FAB_PSTATUS port) 4 4 = 15) ∧
    (∀ (port : Nat) (n : Neighbour), port < 34 → p.pstate port = 3 →
      let good := n.chip = p.expects (portBundle port) ∧ n.topo % 65536 = p.fab.topoInForce ∧ n.port < 32 ∧ n.port / 4 = portBundle port ^^^ 1
      ∃ q, Becomes (.identityExchange port n) s q ∧ q.mem = p.mem ∧ q.cores = p.cores ∧
        (∀ m, m ≠ port → q.port m = p.port m) ∧ q.rd (FAB_PLAT port) = min n.latency 4095 ∧
        (p.getB FAB_CTRL 1 = false ∨ (port < 32 ∧ ¬ good) → q.port port = p.port port) ∧
        (p.getB FAB_CTRL 1 = true → 32 ≤ port ∨ good → ∃ ch, ch.length = 32 ∧
          q.port port = { p.port port with auth := some ⟨ch, s.nv.linkMinSvn, s.nv.linkOwnerMatch⟩, sent := (p.port port).sent ++ [ch] }) ∧
        q.getF (FAB_PSTATUS port) 16 16 = n.chip % 65536 ∧ q.getF (FAB_PSTATUS port) 8 6 = n.port % 64 ∧
        (32 ≤ port ∨ good → q.pstate port = if p.getB FAB_CTRL 1 = true then 4 else 5) ∧
        (port < 32 → good → n.port % 4 ≠ port % 4 → q.getB FAB_STICKY 10 = true) ∧
        (port < 32 → ¬ good → q.pstate port = 7 ∧ q.getB FAB_STICKY 0 = true)) ∧
    (∀ (port : Nat) (n : Credential), port < 34 → p.pstate port = 4 →
      let ok (a : AuthStage) : Bool := credentialOk s.fuses.root s.nv.owner a (p.transcript port a.challenge) n
      ∃ q, Becomes (.portAuthenticate port n) s q ∧ q.mem = p.mem ∧ q.cores = p.cores ∧ (q.port port).auth = none ∧
        (∀ a, (p.port port).auth = some a → ok a = true → q.pstate port = 5) ∧
        ((∀ a, (p.port port).auth = some a → ok a = false) → q.pstate port = 8 ∧ q.getB FAB_STICKY 1 = true)) ∧
    (∀ port < 34, 7 ≤ p.pstate port →
      ∃ q, Becomes (.portRetrain port) s q ∧ q.pstate port = 6 ∧ q.port port = { p.port port with full := true } ∧ q.mem = p.mem ∧
        q.cores = p.cores) ∧
    (∀ (bundle : Nat) (h : CtlHead) (standby : Bool) (latency hops : Nat), p.bundleUp bundle = true → bundle < 8 →
      p.fresh2 bundle h (.probe standby latency hops) →
      let lat := latency + p.ctlHop bundle
      ∃ q, Becomes (.tickPathProbe ⟨bundle, h⟩ standby latency hops) s q ∧ q = { p with fab := q.fab } ∧
        (p.fab.probing = false → q.fab.probes = p.fab.probes ∧ q.fab.probesStandby = p.fab.probesStandby) ∧
        (p.fab.probing = true → standby = false → p.fab.probes = [] →
          q.fab.probes = [(bundle, lat, hops + 1)] ∧ q.fab.probesStandby = p.fab.probesStandby) ∧
        (p.fab.probing = true → standby = true → p.fab.probesStandby = [] →
          q.fab.probesStandby = [(bundle, lat, hops + 1)] ∧ q.fab.probes = p.fab.probes) ∧
        ((p.fab.waves.find? fun e => e.1 == b2n standby) = none →
          Floods p q p.cycle (some bundle) (passOn h) (.probe standby lat (hops + 1))))

/-- R333 to R338, R342, R344, R347, R348, R353: what the hub and the router do with a packet: to a unit of the part, out on the
path's first bundle with its window's number and the virtual channel of R336, on to the next bundle, or discarded as stale; the link
acknowledges what checks and is in sequence or was seen before, and rejects the rest; an acknowledgement frees
its window; accounting, loss notices and freezes. -/
def Obligations.FabricPackets : Prop :=
  ∀ s : State,
    let p := s.p
    (∀ k, p.getB TWN_CTRL 0 = false →
      (p.fab.txq.find? fun q => !p.windowShut q && !p.blockShut q && (p.phase != 3 || ctlPlane q)) = some k → k.cls ≤ 1 →
      (k.dst = p.chip → ∃ q, Becomes .packetInject s q ∧
        q = { p with fab := { p.fab with txq := p.fab.txq.erase k, rx := p.fab.rx ++ [k] } }) ∧
      (∀ r n, k.dst ≠ p.chip → k.route = 0 → p.route k.dst = some r → (p.win k.dst).n < 1048575 →
        let b := r % 32 - 1
        let vc := p.firstVc (r % 32)
        let m := { k with window := (p.win k.dst).w % 256, route := r >>> 5 }
        p.bundleUp b = true → (∀ w ∈ p.fab.fwd, w.bundle ≠ b) → p.outPort b vc m = some n →
        ∃ q, Becomes .packetInject s q ∧ q.fab.txq = p.fab.txq.erase k ∧ q.mem = p.mem ∧ q.cores = p.cores ∧
          (q.port n).replay = (p.port n).replay ++ [⟨(p.bundle (portBundle n)).tx, vc, 0, m⟩] ∧
          (q.win k.dst).n = (p.win k.dst).n + 1)) ∧
    (∀ (port seq vc : Nat) (k : Packet), port < 34 → p.portRuns port = true →
      let b := portBundle port
      let answers (q : Part) (ok : Bool) : Prop := q.fab.linkOut = p.fab.linkOut ++ [⟨port, ok, seq % 4096⟩]
      (∃ q, Becomes (.fabricPacketArrive port ⟨seq, vc, false⟩ k) s q ∧ q = { p with fab := q.fab, regs := q.regs } ∧ answers q false ∧
        q.fab = { p.fab with linkOut := q.fab.linkOut } ∧ q.rd (FAB_PSTAT_CRC port) = (p.rd (FAB_PSTAT_CRC port) + 1) % 2 ^ 64) ∧
      (seq % 4096 ∈ (p.bundle b).rx ∨ p.gap b (seq % 4096) = true →
        ∃ q, Becomes (.fabricPacketArrive port ⟨seq, vc, true⟩ k) s q ∧ q = { p with fab := { p.fab with linkOut := q.fab.linkOut } } ∧
          answers q (decide (seq % 4096 ∈ (p.bundle b).rx))) ∧
      (seq % 4096 ∉ (p.bundle b).rx → p.gap b (seq % 4096) = false →
        (port < 32 → p.stale k = false → k.route % 32 = 0 → k.dst = p.chip → badPacket k = false → k.cls ≤ 1 → p.dropsWork k = false →
          ∃ q, Becomes (.fabricPacketArrive port ⟨seq, vc, true⟩ k) s q ∧ { k with route := k.route >>> 5 } ∈ q.fab.rx ∧ answers q true ∧
            seq % 4096 ∈ (q.bundle b).rx ∧ q.mem = p.mem) ∧
        (∀ n, port < 32 → p.stale k = false → 1 ≤ k.route % 32 → k.route % 32 ≤ 8 →
          let o := k.route % 32 - 1
          let out := p.nextVc port vc (k.route % 32)
          let m := { k with route := k.route >>> 5 }
          p.bundleUp o = true → (∀ w ∈ p.fab.fwd, w.bundle ≠ o) → p.outPort o out m = some n →
          ∃ q, Becomes (.fabricPacketArrive port ⟨seq, vc, true⟩ k) s q ∧ q.fab.rx = p.fab.rx ∧ q.mem = p.mem ∧ answers q true ∧
            (q.port n).replay = (p.port n).replay ++ [⟨(p.bundle (portBundle n)).tx, out, 0, m⟩]) ∧
        (p.stale k = true → ∃ q, Becomes (.fabricPacketArrive port ⟨seq, vc, true⟩ k) s q ∧ q.fab.rx = p.fab.rx ∧
          q.fab.ports = p.fab.ports ∧ answers q true ∧
          q.mem = p.mem ∧ q.rd FAB_STAT_EPOCH = (p.rd FAB_STAT_EPOCH + 1) % 2 ^ 64))) ∧
    (∀ k, (p.fab.rx.find? fun q => q.cls == 1 && q.kind == 6) = some k →
      ∃ q, Becomes .flagAckArrive s q ∧ q = { p with fab := { p.fab with rx := p.fab.rx.erase k, txWin := q.fab.txWin } } ∧
        q.win k.src = { p.win k.src with unacked := (p.win k.src).unacked.filter fun u => u.1 % 256 != k.ref }) ∧
    (p.working = true → p.sendingDone = true → (∀ k ∈ p.fab.txq, ¬ (k.cls = 3 ∧ k.kind = 8)) →
      ∃ q, Becomes .accountingSend s q ∧ q = { p with fab := { p.fab with txq := q.fab.txq, accounted := true } } ∧
        ∀ e ∈ p.fab.txWin, e.2.counted = true → e.2.acctSent = false →
          (⟨0, p.chip, e.1, p.epoch, 3, 0, 8, 0, 0, []⟩ : Packet) ∈ q.fab.txq) ∧
    (∀ k, (p.fab.rx.find? fun q => q.cls == 1 && q.kind == 7) = some k →
      ∃ q, Becomes .lossNoticeArrive s q ∧ q = { p with fab := { p.fab with rx := p.fab.rx.erase k, lossFrom := q.fab.lossFrom } } ∧
        ∀ d, d ∈ q.fab.lossFrom ↔ d = k.src ∨ d ∈ p.fab.lossFrom) ∧
    (∀ bundle h, p.fab.frozenSeen = false → p.obs.frozen = false → bundle < 8 → p.bundleUp bundle = true →
      ∃ q, Becomes (.fabricFreeze ⟨bundle, h⟩) s q ∧ q.fab.frozenSeen = true ∧ q.mem = p.mem ∧ q.cores = p.cores ∧
        q.obs.frozen = p.getB OBS_FREEZE 1 ∧ q.tick.stopAfter = (p.getB OBS_FREEZE 1 || p.tick.stopAfter) ∧
        Floods p q p.cycle (some bundle) (passOn h) .freeze)

/-- R325, R344, R345: a link lets go of what is acknowledged and keeps and resends what is rejected; the eighth resend of a packet or a missing
acknowledgement starts a fast retrain, the third of a frame a full one, which goes through identity and authentication again; a port that
cannot retrain fails, is miscabled or is not authenticated. A lane that loses lock, any of the four, stops the port. -/
def Obligations.LinkEvents : Prop :=
  ∀ (s : State) (port : Nat),
    let p := s.p
    port < 34 →
    let slow (x : Port) : Port := { x with fasts := x.fasts + 1, full := decide (3 ≤ x.fasts + 1) }
    (∀ seq i, (p.port port).replay.findIdx? (fun e => e.seq == seq) = some i →
      let rest := (p.port port).replay.drop i
      let again : Port := { p.port port with
        replay := (p.port port).replay.take i ++ rest.map fun e => { e with resent := e.resent + 1 } }
      (p.fab.fwd = [] → ∃ q, Becomes (.linkAck port seq) s q ∧ q = { p with fab := { p.fab with ports := q.fab.ports } } ∧
        q.port port = { p.port port with replay := (p.port port).replay.drop (i + 1) } ∧
        ∀ n, n ≠ port → q.port n = p.port n) ∧
      ((∀ e ∈ rest, e.resent < 7) →
        ∃ q, Becomes (.linkReject port seq) s q ∧ q.port port = again ∧ q.pstate port = p.pstate port ∧ q.mem = p.mem ∧ q.cores = p.cores) ∧
      ((∃ e ∈ rest, 7 ≤ e.resent) → p.pstate port = 5 →
        ∃ q, Becomes (.linkReject port seq) s q ∧ q.pstate port = 6 ∧ q.mem = p.mem ∧ q.cores = p.cores ∧ q.port port = slow again)) ∧
    (p.pstate port = 5 → ∃ q, Becomes (.receiveStall port) s q ∧ q = { p with regs := q.regs } ∧
      q.rd (FAB_PSTAT_STALL port) = (p.rd (FAB_PSTAT_STALL port) + 1) % 2 ^ 64) ∧
    (p.pstate port = 5 → (p.port port).replay ≠ [] →
      ∃ q, Becomes (.ackTimeout port) s q ∧ q.pstate port = 6 ∧ q.mem = p.mem ∧ q.cores = p.cores ∧ q.port port = slow (p.port port)) ∧
    (p.pstate port = 5 →
      ∃ q lane, Becomes (.laneLosesLock port) s q ∧ lane < 4 ∧ q.getB (FAB_PSTATUS port) (4 + lane) = false ∧ q.portRuns port = false ∧
        q.mem = p.mem ∧ q.cores = p.cores ∧ q.port port = p.port port ∧
        ∀ i < 64, i ≠ 4 + lane → q.getB (FAB_PSTATUS port) i = p.getB (FAB_PSTATUS port) i) ∧
    (let up : Port → Port := fun x => { x with full := false, replay := x.replay.map fun e => { e with resent := 0 } }
     (p.pstate port = 6 → (p.port port).full = false →
      (p.fab.fwd = [] → ∃ q, Becomes (.fastRetrainDone port true) s q ∧ q.pstate port = 5 ∧ q.getF (FAB_PSTATUS port) 4 4 = 15 ∧
        q.port port = up (p.port port) ∧ q.mem = p.mem ∧ q.cores = p.cores) ∧
      ∃ q, Becomes (.fastRetrainDone port false) s q ∧ q.pstate port = 6 ∧ q.port port = { p.port port with full := true, fasts := 0 } ∧
        q.mem = p.mem ∧ q.cores = p.cores) ∧
     (p.pstate port = 5 → (p.port port).fasts < 2 → p.fab.fwd = [] → ∃ q, Becomes (.fastRetrainDone port true) s q ∧ q.pstate port = 5 ∧
        q.port port = up (slow (p.port port)) ∧ q.mem = p.mem ∧ q.cores = p.cores) ∧
     (∀ (n : Neighbour) (c : Credential), p.pstate port = 6 → (p.port port).full = true →
      (p.fab.fwd = [] → p.identity port n ≠ 2 → p.getB FAB_CTRL 1 = false →
        ∃ q, Becomes (.fullRetrainDone port ⟨true, n, c⟩) s q ∧ q.pstate port = 5 ∧
          q.port port = up { p.port port with fasts := 0 } ∧ q.mem = p.mem ∧ q.cores = p.cores) ∧
      (p.identity port n ≠ 2 → p.getB FAB_CTRL 1 = true →
        ∃ q, Becomes (.fullRetrainDone port ⟨true, n, c⟩) s q ∧ q.mem = p.mem ∧ q.cores = p.cores ∧
          (q.pstate port = 5 ∨ q.pstate port = 8) ∧ (c.chainOk = false → q.pstate port = 8 ∧ q.getB FAB_STICKY 1 = true)) ∧
      (p.identity port n = 2 → ∃ q, Becomes (.fullRetrainDone port ⟨true, n, c⟩) s q ∧ q.pstate port = 7 ∧ q.port port = Port.reset ∧
        q.getB FAB_STICKY 0 = true ∧ q.mem = p.mem ∧ q.cores = p.cores) ∧
      ∃ q, Becomes (.fullRetrainDone port ⟨false, n, c⟩) s q ∧ q.pstate port = 9 ∧ q.port port = Port.reset ∧ q.getB FAB_STICKY 2 = true ∧
        q.mem = p.mem ∧ q.cores = p.cores))

/-- R360 to R367, R370: a bucket starts in its order and takes its input; it takes its ring steps and its final rounding, and is complete once its
last block is sent and its outputs are written; a block that the configuration does not expect is discarded, and any other is recorded. -/
def Obligations.Reduction : Prop :=
  ∀ (s : State) (b : Nat),
    let p := s.p
    p.serves = true →
    (p.phase ≠ 0 → p.bktOn b = true → p.bktPress b = true → (p.bkt b).stage = 0 →
      (∀ a < b, p.bktOn a = true → p.bktPress a = true → (p.bkt a).stage ≠ 0) →
      (p.bktOneBit b = false → ∃ q, Becomes (.bucketStart b) s q ∧ q.cores = p.cores ∧ q.bkt b = { p.bkt b with
        stage := p.nextReduce 0, step := 0, vals := (p.redInput b).1.1, poison := (p.redInput b).1.2 }) ∧
      (p.bktOneBit b = true → ∃ q, Becomes (.bucketStart b) s q ∧ q.cores = p.cores ∧
        ((q.bkt b).stage = 12 ∨ (q.bkt b).stage = 13 ∧ (q.bkt b).sent = true))) ∧
    (p.bktOn b = true → (p.bkt b).sent = false →
      (∀ i < 4, (p.bkt b).stage = 2 + i → (p.bkt b).step = 0 → 1 < p.boxM i →
        ∃ q, Becomes (.reduceStep b) s q ∧ q.cores = p.cores ∧ q.mem = p.mem ∧ q.bkt b = { p.bkt b with step := 1 } ∧
          (0 < (p.bktRange b i).2 / p.boxM i →
            ∃ a ∈ q.fab.txq, a.dst = p.ringNext i ∧ a.cls = 2 ∧ a.kind = 3)) ∧
      ((p.bkt b).stage = 6 →
        ∃ q, Becomes (.reduceStep b) s q ∧ q.cores = p.cores ∧ (q.bkt b).written = (p.bkt b).written + (p.bktRange b 4).2 ∧
          (q.bkt b).vals = [] ∧ (p.getB (RED_BKT_CFG b) 13 = false → (q.bkt b).sent = true))) ∧
    (∀ k, p.redBlock [3, 4] = some k → leAt k.payload 0 2 = b →
      ∃ q, Becomes .reduceBlockArrive s q ∧ q.cores = p.cores ∧ q.fab.rx = p.fab.rx.erase k ∧
        (p.ringBlockOk k = false → q.mem = p.mem ∧ q.buckets = p.buckets) ∧
        (p.ringBlockOk k = true →
          (q.bkt b).got = (leAt k.payload 2 1, leAt k.payload 3 1, leAt k.payload 4 4, leAt k.payload 8 4) :: (p.bkt b).got)) ∧
    (∀ k, p.redBlock [5] = some k → leAt k.payload 0 2 = b →
      ∃ q, Becomes .onebitContribArrive s q ∧ q.cores = p.cores ∧ q.fab.rx = p.fab.rx.erase k ∧
        (p.bitBlockOk k p.chip = false → q.mem = p.mem ∧ q.buckets = p.buckets) ∧
        (p.bitBlockOk k p.chip = true → leAt k.payload 2 1 = 8 → (p.bkt b).stage < 12 →
          (∀ c ∈ (p.bkt b).contribs, ¬ (c.src = k.src ∧ c.first = leAt k.payload 4 4)) →
          ∃ o, (q.bkt b).contribs = (p.bkt b).contribs ++ [o] ∧ o.src = k.src ∧ o.first = leAt k.payload 4 4 ∧
            o.scale = leAt k.payload 16 4)) ∧
    (∀ k, p.redBlock [6] = some k → leAt k.payload 0 2 = b →
      ∃ q, Becomes .onebitResultArrive s q ∧ q.cores = p.cores ∧ q.fab.rx = p.fab.rx.erase k ∧
        (p.bitBlockOk k k.src = false → q.mem = p.mem ∧ q.buckets = p.buckets) ∧
        (p.bitBlockOk k k.src = true → leAt k.payload 2 1 = 9 → p.getB (RED_BKT_CFG b) 13 = true → k.src ≠ p.chip →
          (∀ g ∈ (p.bkt b).got, g.2.2.1 ≠ leAt k.payload 4 4) →
          (q.bkt b).got = (9, 0, leAt k.payload 4 4, leAt k.payload 8 4) :: (p.bkt b).got)) ∧
    (p.bktOn b = true → 2 ≤ (p.bkt b).stage → (p.bkt b).stage ≠ 14 → (p.bkt b).sent = true → p.bktOutputs b ≤ (p.bkt b).written →
      ∃ q, Becomes (.bucketComplete b) s q ∧ q = { p with regs := q.regs, buckets := q.buckets } ∧
        q.bkt b = { p.bkt b with stage := 14 } ∧ (∀ a, a ≠ b → q.bkt a = p.bkt a) ∧
        q.rd RED_STAT_BKT = (p.rd RED_STAT_BKT + 1) % 2 ^ 64)

/-- R375 to R382: the twin takes its partner's records in sequence and answers the end marker; the answer decides the frame; a lost part is
recorded, ticks halt here, and its twin carries; a restore asks for windows, grants or refuses them and takes over the state. -/
def Obligations.TwinMirror : Prop :=
  ∀ s : State,
    let p := s.p
    (∀ k qs, p.twinPacket p.twin.rxNext = some k → p.mirrors = true → k.kind = 0 →
      Part.jobPackets 64 p p.twin.rxNext (p.jobLen k.payload) = some qs →
      ∃ q, Becomes .twinJobRecord s q ∧ q.cores = p.cores ∧ q.twin.rxNext = p.twin.rxNext + qs.length ∧
        q.twin.rxRecs = p.twin.rxRecs + 1 ∧ q.twin.rxBytes = p.twin.rxBytes + p.jobLen k.payload ∧
        (bit (leAt k.payload 1 1) 0 = true → q.mem = p.mem)) ∧
    (∀ k, p.twinPacket p.twin.rxNext = some k → p.mirrors = true → k.kind = 1 →
      ∃ q, Becomes .twinRawLines s q ∧ q.cores = p.cores ∧ q.fab.rx = p.fab.rx.erase k ∧ q.twin.rxNext = p.twin.rxNext + 1 ∧
        q.twin.rxRecs = p.twin.rxRecs + 1 ∧ q.twin.rxBytes = p.twin.rxBytes + 72 * (unpackLines k).length ∧
        ((∀ l ∈ unpackLines k, p.inMirror l.1 = none) → q.mem = p.mem)) ∧
    (∀ k, (p.fab.rx.find? fun q => q.cls == 5 && q.kind == 2) = some k → p.mirrors = true → k.ref = p.twin.rxNext % 2 ^ 20 →
      let good := leAt k.payload 0 8 = p.twin.rxRecs ∧ leAt k.payload 8 8 = p.twin.rxBytes
      ∃ q, Becomes .twinEndMarker s q ∧ q.mem = p.mem ∧ q.cores = p.cores ∧ q.fab.rx = p.fab.rx.erase k ∧
        (good → (⟨0, p.chip, p.getF TWN_CTRL 16 16, p.epoch, 5, 0, 3, k.ref, 0, []⟩ : Packet) ∈ q.fab.txq) ∧
        (¬ good → (⟨0, p.chip, p.getF TWN_CTRL 16 16, p.epoch, 5, 0, 4, k.ref, 0, []⟩ : Packet) ∈ q.fab.txq ∧
          q.getB TWN_STICKY 2 = true)) ∧
    (∀ k, (p.fab.rx.find? fun q => q.cls == 5 && q.kind == 2) = some k → p.mirrors = true → k.ref ≠ p.twin.rxNext % 2 ^ 20 →
      (p.twinPacket p.twin.rxNext ≠ none → Becomes .twinEndMarker s p) ∧
      (p.twinPacket p.twin.rxNext = none → ∃ q, Becomes .twinEndMarker s q ∧ q.mem = p.mem ∧ q.cores = p.cores ∧
        q.getB TWN_STICKY 2 = true ∧
        (⟨0, p.chip, p.getF TWN_CTRL 16 16, p.epoch, 5, 0, 4, k.ref, 0, []⟩ : Packet) ∈ q.fab.txq)) ∧
    (∀ k, (p.fab.rx.find? fun q => q.cls == 5 && (q.kind == 3 || q.kind == 4)) = some k → p.live = true → p.twin.endSent = true →
      ∃ q, Becomes .twinAckReceive s q ∧ q.mem = p.mem ∧ q.cores = p.cores ∧ q.fab.rx = p.fab.rx.erase k ∧
        (k.kind = 3 → q.twin.ack = 1 ∧ q.tick = p.tick) ∧ (k.kind ≠ 3 → q.twin.ack = 2 ∧ q.tick.cause ≠ 0)) ∧
    (∀ k, (p.fab.rx.find? fun q => q.cls == 3 && q.kind == 10) = some k →
      let x := leAt k.payload 0 2
      ∃ q, Becomes .lossDeclarationReceive s q ∧ q.mem = p.mem ∧ q.cores = p.cores ∧ q.fab.rx = p.fab.rx.erase k ∧
        q.getB TIK_STATUS 11 = true ∧ q.getF TWN_STATUS 15 17 = 2 * x + 1 ∧
        (p.getB TWN_CTRL 0 = true → p.getF TWN_CTRL 16 16 = x → q.getF TWN_STATUS 0 3 = 2)) ∧
    (p.getB TWN_CTRL 0 = true → (p.running = false ∨ p.getB TIK_STATUS 11 = true) → p.twin.restoring = false →
      ∃ q, Becomes .twinRestore s q ∧ q.mem = p.mem ∧ q.cores = p.cores ∧
        (p.bundleUp 8 = true → q.twin.restoring = true ∧ q.getF TWN_STATUS 0 3 = 4 ∧
          (⟨0, p.chip, p.getF TWN_CTRL 16 16, p.epoch, 5, 0, 5, 0, 0, p.winBytes⟩ : Packet) ∈ q.fab.txq) ∧
        (p.bundleUp 8 = false → q.twin.restoring = false ∧ q.getB TWN_STICKY 3 = true)) ∧
    (∀ k, (p.fab.rx.find? fun q => q.cls == 5 && q.kind == 5) = some k → p.getF TWN_STATUS 0 3 = 2 →
      ∃ q a, Becomes .twinRestorePull s q ∧ q.cores = p.cores ∧ q.fab.rx = p.fab.rx.erase k ∧ a ∈ q.fab.txq ∧
        a.dst = p.getF TWN_CTRL 16 16 ∧ a.cls = 5 ∧ a.kind = 7 ∧
        (readWins k.payload = p.twin.partner → q.getF TWN_STATUS 0 3 = 3) ∧
        (readWins k.payload ≠ p.twin.partner → q.mem = p.mem ∧ a.payload = leBytes 32 0 ∧ q.getB TWN_STICKY 3 = true)) ∧
    (∀ k, (p.fab.rx.find? fun q => q.cls == 5 && q.kind == 7) = some k →
      (p.getF TWN_STATUS 0 3 = 3 →
        ∃ q, Becomes .twinRestoreDone s q ∧ q.mem = p.mem ∧ q.fab.rx = p.fab.rx.erase k ∧ q.getF TWN_STATUS 0 3 = 1) ∧
      (p.getF TWN_STATUS 0 3 ≠ 3 → p.twin.restoring = true → leAt k.payload 0 4 = 0 →
        ∃ q, Becomes .twinRestoreDone s q ∧ q.mem = p.mem ∧ q.twin.restoring = false ∧ q.getB TWN_STICKY 3 = true) ∧
      (p.getF TWN_STATUS 0 3 ≠ 3 → p.twin.restoring = true → leAt k.payload 0 4 ≠ 0 →
        leAt k.payload 4 4 ≤ ((p.fab.rx.filter fun q => q.cls == 5 && q.kind == 6).flatMap unpackLines).length →
        ∃ q, Becomes .twinRestoreDone s q ∧ q.cores = p.cores ∧ q.twin.restoring = false ∧ q.getF TWN_STATUS 0 3 = 1 ∧
          q.rd TIK_COUNT = leAt k.payload 8 8 ∧ q.rd TIK_FRAME_NO = leAt k.payload 16 8 ∧ q.rd TIK_SEASON_POS = leAt k.payload 24 4 ∧
          q.rd TIK_VINTAGE = leAt k.payload 28 4 ∧ ∀ y < 4, q.rd (SCH_ST_BASE y) = leAt k.payload 32 8))

/-- R389, R391, R396, R419: each of these five commands completes in every state. The link comes up in CXL mode at 32 GT/s on a wide enough link, else in PCIe mode; a decoder commits when it does not
interleave and fits; a snoop is answered without any other effect; a power state change and a host-side reset change what R419 lists and
nothing else (that hot reset and the others clear Bus Master Enable and D3hot is log 80). -/
def Obligations.HostLink : Prop :=
  ∀ s : State,
    let p := s.p
    let h := p.hif
    (∀ (cxl : Bool) (rate width : Nat), h.linkUp = false → p.power.hbmTrained = true → p.getB PWR_STATUS 7 = false →
      ∃ q, Sys2Proof.Machine.exec (.linkTraining cxl rate width) s = .next { s with p := q } ∧
        q = { p with regs := q.regs, hif := q.hif } ∧ q.hif.linkUp = true ∧
        q.getB HIF_STATUS 0 = (cxl && rate == 4 && decide (3 ≤ width)) ∧ q.getF HIF_STATUS 3 3 = width % 8 ∧
        q.getF HIF_STATUS 6 3 = rate % 8) ∧
    (∀ (cxl : Bool) (rate width : Nat), h.linkUp = true ∨ p.power.hbmTrained = false ∨ p.getB PWR_STATUS 7 = true →
      Sys2Proof.Machine.exec (.linkTraining cxl rate width) s = .next s) ∧
    (∀ base size skip ways : Nat,
      let sz := size / 2 ^ 28 * 2 ^ 28
      let d (start : Nat) : Hdm :=
        ⟨base / 2 ^ 28 * 2 ^ 28, sz, skip, ways == 1 && decide (start + sz ≤ hbmTop), !(ways == 1 && decide (start + sz ≤ hbmTop))⟩
      Sys2Proof.Machine.exec (.hdmDecoderCommit 0 base size skip ways) s =
        .next { s with p := { p with hif := { h with hdm0 := d skip } } } ∧
      Sys2Proof.Machine.exec (.hdmDecoderCommit 1 base size skip ways) s =
        .next { s with p := { p with
          hif := { h with hdm1 := d ((if h.hdm0.committed then h.hdm0.skip + h.hdm0.size else 0) + skip) } } }) ∧
    (∀ a, Sys2Proof.Machine.exec (.h2dSnoop a) s =
      .next { s with p :=
        if h.linkUp = true ∧ p.getB HIF_STATUS 0 = true then { p with hif := { h with snoops := h.snoops + 1 } } else p }) ∧
    (∀ d b : Bool, h.linkUp = true → ∃ q, Sys2Proof.Machine.exec (.pciPowerStateChange d b) s = .next { s with p := q } ∧
      q = { p with regs := q.regs, hif := q.hif } ∧ q.getB HIF_STATUS 2 = d ∧ q.hif.busMaster = b) ∧
    (∀ d b : Bool, h.linkUp = false → Sys2Proof.Machine.exec (.pciPowerStateChange d b) s = .next s) ∧
    ∀ kind : HostResetKind,
      ∃ q, Sys2Proof.Machine.exec (.hostReset kind) s = .next { s with p := q } ∧
        q = { p with
          regs := q.regs
          hif := { h with queues := [], busMaster := false, linkUp := h.linkUp && !(kind == .linkDown) }
          txn := { p.txn with validating := none, loadPending := none }
          tick := { p.tick with quiesced := false }
          mgt := { p.mgt with cxl := .reset } } ∧
        (∀ r ∈ hifReset, q.rd r = regReset r) ∧ q.getB HIF_STATUS 2 = false ∧
        q.txnState = (if p.txn.validating.isSome then 1 else p.txnState) ∧
        ∀ r, r ∉ hifReset → r ≠ HIF_STATUS → r ≠ TIK_TXN_STATE → q.rd r = p.rd r

/-- R396, R397, R399, R400, R416: a host address reaches the line that its committed decoder, or in PCIe mode its offset, names, and none
while the link is down or CCLK does not run; an access that reaches no line changes nothing; a read that the region refuses returns zeros
and is counted; a read that is allowed returns the line, corrected where the code corrects it and as poison where it does not; a write
that is allowed stores its line, as data or as poison, and no other byte of memory changes; a write or a copy into a held slot or a
delivery table while ticks are received is discarded and counted. -/
def Obligations.CxlMemory : Prop :=
  ∀ (s : State) (addr : Nat) (data : List Byte) (poison : Bool) (a : Nat),
    let p := s.p
    let d := p.hif.hdm0
    (p.hif.linkUp = false ∨ p.clocked = false → p.hostAddr addr = none) ∧
    (p.hif.linkUp = true → p.clocked = true → p.getB HIF_STATUS 0 = true → d.committed = true → d.base ≤ addr → addr < d.base + d.size →
      d.skip + (addr - d.base) < hbmTop → p.hostAddr addr = some ((d.skip + (addr - d.base)) / 64 * 64)) ∧
    (p.hif.linkUp = true → p.clocked = true → p.getB HIF_STATUS 0 = true → d.committed = false → p.hif.hdm1.committed = false →
      p.hostAddr addr = none) ∧
    (p.hif.linkUp = true → p.clocked = true → p.getB HIF_STATUS 0 = false → addr < hbmTop → p.hostAddr addr = some (addr / 64 * 64)) ∧
    (p.hostAddr addr = none → (∀ errs, Becomes (.cxlMemRead addr errs) s p) ∧ Becomes (.cxlMemWrite addr data poison) s p) ∧
    (p.hostAddr addr = some a → p.hostMay false a = false →
      ∃ q, Becomes (.cxlMemRead addr []) s q ∧ q.hif.lastRead = List.replicate 64 0#8 ∧ q.hif.lastPoison = false ∧ q.mem = p.mem ∧
        q.rd HIF_STAT_DENY = (p.rd HIF_STAT_DENY + 1) % 2 ^ 64 ∧ q.getB HIF_STICKY 2 = true) ∧
    (p.hostAddr addr = some a → p.hostMay false a = true → p.mem.ready = true → ∀ errs,
      let w := p.strike a errs
      let code := rsDecode (spGet 0 w.mem.chk a)
      ∃ q, Becomes (.cxlMemRead addr errs) s q ∧ q.cores = p.cores ∧ q.rd HIF_STAT_MEMRD = (p.rd HIF_STAT_MEMRD + 1) % 2 ^ 64 ∧
        (code = .clean → q.hif.lastRead = w.rawBytes a 64 ∧ q.hif.lastPoison = false ∧ q.mem = w.mem) ∧
        (∀ es, code = .corrected es → q.hif.lastRead = rsCorrect es (w.rawBytes a 64) ∧ q.hif.lastPoison = false ∧
          q.rd (MEM_STAT_CE (p.stack a / 2)) = (p.rd (MEM_STAT_CE (p.stack a / 2)) + 1) % 2 ^ 64) ∧
        (code = .uncorrectable → q.hif.lastPoison = true ∧ q.getB HIF_STICKY 1 = true ∧ spGet 0 q.mem.chk a = poisonQ)) ∧
    (p.hostAddr addr = some a → p.hostMay true a = false →
      ∃ q, Becomes (.cxlMemWrite addr data poison) s q ∧ q.mem = p.mem ∧ q.getB HIF_STICKY 2 = true ∧
        q.rd HIF_STAT_DENY = (p.rd HIF_STAT_DENY + 1) % 2 ^ 64) ∧
    (p.hostAddr addr = some a → p.hostMay true a = true → p.slotLocked a = true →
      ∃ q, Becomes (.cxlMemWrite addr data poison) s q ∧ q = { p with regs := q.regs } ∧ q.getB HIF_STICKY 3 = true ∧
        q.rd HIF_STAT_SLOTWR = (p.rd HIF_STAT_SLOTWR + 1) % 2 ^ 64) ∧
    (p.hostAddr addr = some a → p.hostMay true a = true → p.slotLocked a = false → p.attr a 5 = false →
      ∃ q, Becomes (.cxlMemWrite addr data poison) s q ∧ q.cores = p.cores ∧
        q.rd HIF_STAT_MEMWR = (p.rd HIF_STAT_MEMWR + 1) % 2 ^ 64 ∧
        (∀ x, ¬(a ≤ x ∧ x < a + 64) → q.byteAt x = p.byteAt x) ∧ (∀ x, x ≠ a → spGet 0 q.mem.chk x = spGet 0 p.mem.chk x) ∧
        (poison = false → spGet 0 q.mem.chk a = 0 ∧ ∀ i, i < 64 → q.byteAt (a + i) = (fitBytes 64 data).getD i 0#8) ∧
        (poison = true → spGet 0 q.mem.chk a = poisonQ ∧ q.getB HIF_STICKY 1 = true)) ∧
    (p.slotLocked a = true ↔ p.running = true ∧ ∃ c, c < 16 ∧ p.inOn c = true ∧
      ((p.inBaseOf c ≤ a ∧ a < p.inBaseOf c + 4096) ∨
        ∃ b ∈ p.heldBlocks c, p.slotAt c b.slot ≤ a ∧ a < p.slotAt c b.slot + p.slotBytes c)) ∧
    (∀ (queue : BitVec 3) c, p.nextCmd queue.toNat 1 = some c → c.bad = false → p.clocked = true → copyOk c = true →
      (∀ i, i < c.arg 2 / 64 → p.hostMay true (c.arg 1 + 64 * i) = true ∧ p.slotLocked (c.arg 1 + 64 * i) = true) →
      ∃ q, Becomes (.copyIn queue []) s q ∧ EndsCmd p q queue.toNat c 2 0 ∧ q.mem = p.mem ∧ q.getB HIF_STICKY 3 = true ∧
        q.rd HIF_STAT_SLOTWR = (p.rd HIF_STAT_SLOTWR + c.arg 2 / 64) % 2 ^ 64)

/-- R401, R403, R406, R407: a doorbell writes the tail and the queue fetches up to it, a tail past the ring puts the queue in error; a
disabled queue drops what has not started; CMD_NOP ends with status 0; the oldest record goes to host memory and the head the host writes
frees records. -/
def Obligations.HostQueues : Prop :=
  ∀ (s : State) (queue : BitVec 3) (host : List HostLine),
    let p := s.p
    let n := queue.toNat
    let x := p.cq n
    let w := p.hostStores host
    (∀ tail, p.hif.linkUp = false → Becomes (.sqDoorbell queue tail host) s w) ∧
    (∀ tail : BitVec 16, p.hif.linkUp = true → p.sqSize n ≤ tail.toNat →
      ∃ q, Becomes (.sqDoorbell queue tail host) s q ∧ q.rd (HIF_SQ_TAIL n) = tail.toNat ∧ (q.cq n).qerr = true ∧ q.getB HIF_STICKY 7 = true ∧
        (q.cq n).cmds = x.cmds ∧ q.mem = p.mem) ∧
    (∀ tail : BitVec 16, p.hif.linkUp = true → tail.toNat < p.sqSize n →
      ∃ q, Becomes (.sqDoorbell queue tail host) s q ∧ q.rd (HIF_SQ_TAIL n) = tail.toNat ∧ (q.cq n).qerr = x.qerr ∧ q.mem = p.mem ∧
        q.cores = p.cores ∧
        (p.getB HIF_CTRL 0 = true → p.cqOn n = true → x.qerr = false → p.hostBus = true → x.cmds = [] →
          let head := p.getF (HIF_SQ_HEAD n) 0 16
          let l := w.hostLine (p.getF (HIF_SQ_BASE n) 12 52 * 4096 + 64 * head)
          let c : HostCmd := ⟨l.1, tail.toNat, false, false, 0, 0, 0, 0⟩
          head ≠ tail.toNat → (head + 1) % p.sqSize n = tail.toNat → l.2 = false → hostOps.contains c.op = true →
          (q.cq n).cmds = [c] ∧ q.rd (HIF_SQ_HEAD n) = tail.toNat)) ∧
    (p.hif.linkUp = true → ∃ q, Becomes (.queueDisable queue) s q ∧ q.cqOn n = false ∧ (q.cq n).cmds = x.cmds.filter (·.running) ∧
      (∀ m, m ≠ n → q.cq m = p.cq m) ∧
      ((∀ c ∈ x.cmds, c.running = false) → x.ended = [] → q.rd (HIF_SQ_HEAD n) = 0 ∧ q.rd (HIF_SQ_TAIL n) = 0 ∧ q.rd (HIF_CR_HEAD n) = 0 ∧
        q.rd (HIF_CR_TAIL n) = 0)) ∧
    (p.hif.linkUp = false → Becomes (.queueDisable queue) s p ∧ ∀ h, Becomes (.crHeadWrite queue h) s p) ∧
    (∀ c, p.nextCmd n 0 = some c → ∃ q, Becomes (.cmdNop queue) s q ∧ EndsCmd p q n c (if c.bad then 1 else 0) 0 ∧
      q = { p with regs := q.regs, hif := q.hif }) ∧
    (p.nextCmd n 0 = none → Becomes (.cmdNop queue) s p) ∧
    (∀ c rest, x.ended = c :: rest → p.hostBus = true → x.unret < p.crSize n → p.cqOn n = true →
      let t := p.getF (HIF_CR_TAIL n) 0 16
      let a := p.getF (HIF_CR_BASE n) 12 52 * 4096 + 64 * t
      ∃ q, Becomes (.completionRecordWrite queue) s q ∧ q = { p with regs := q.regs, hif := q.hif } ∧
        (∀ i, spGet 0#8 q.hif.mem i =
          if a ≤ i ∧ i < a + 64 then (completionBytes n c x.phase).getD (i - a) 0#8 else spGet 0#8 p.hif.mem i) ∧
        q.rd (HIF_CR_TAIL n) = (t + 1) % p.crSize n ∧ (∃ l, (q.cq n).ended = rest ++ l) ∧ (q.cq n).unret = x.unret + 1 ∧
        (q.cq n).phase = (if (t + 1) % p.crSize n = 0 then !x.phase else x.phase)) ∧
    (x.ended = [] ∨ p.hostBus = false ∨ p.crSize n ≤ x.unret → Becomes (.completionRecordWrite queue) s p) ∧
    (∀ head : BitVec 16, p.hif.linkUp = true →
      ∃ q, Becomes (.crHeadWrite queue head) s q ∧ q.rd (HIF_CR_HEAD n) = head.toNat ∧ q = { p with regs := q.regs, hif := q.hif } ∧
        (q.cq n).unret = (p.getF (HIF_CR_TAIL n) 0 16 + p.crSize n - head.toNat % p.crSize n) % p.crSize n)

/-- R391, R397, R399, R403, R404, R408, R437: a copy whose operands are out of range ends with status 1; one whose lines are all allowed moves them all,
byte for byte, and ends with the bytes it moved; descriptors are accepted for a frame that has not begun, in order of the command queue.
QUIESCE and RESUME are the tick master's; the first stops ticks and ends once they have stopped, the second lets them start, with the
number of the next tick as its result (that it does so with ticks not stopped is log 83). -/
def Obligations.HostCommands : Prop :=
  (∀ (s : State) (queue : BitVec 3) (host : List HostLine),
      let p := s.p
      let n := queue.toNat
      let w := p.hostStores host
      (∀ c, w.nextCmd n 1 = some c → c.bad = false → p.clocked = true →
        let k := c.arg 2 / 64
        (copyOk c = false → ∃ q, Becomes (.copyIn queue host) s q ∧ EndsCmd p q n c 1 0 ∧ q.mem = p.mem) ∧
        (copyOk c = true → ∃ q st m, Becomes (.copyIn queue host) s q ∧ m ≤ k ∧ (st = 0 ∨ st = 2 ∨ st = 3) ∧ EndsCmd p q n c st (64 * m)) ∧
        (copyOk c = true → (∀ i, i < k → p.hostMay true (c.arg 1 + 64 * i) = true ∧ p.slotLocked (c.arg 1 + 64 * i) = false ∧
            p.attr (c.arg 1 + 64 * i) 5 = false ∧ (w.hostLine (c.arg 0 + 64 * i)).2 = false) →
          ∃ q, Becomes (.copyIn queue host) s q ∧ EndsCmd p q n c 0 (64 * k) ∧ q.cores = p.cores ∧
            ∀ x, q.byteAt x =
              if c.arg 1 ≤ x ∧ x < c.arg 1 + 64 * k then spGet 0#8 w.hif.mem (c.arg 0 + (x - c.arg 1)) else p.byteAt x)) ∧
      (∀ c, p.nextCmd n 2 = some c → c.bad = false → p.clocked = true →
        let k := c.arg 2 / 64
        (copyOk c = false → ∃ q, Becomes (.copyOut queue) s q ∧ EndsCmd p q n c 1 0 ∧ q.mem = p.mem) ∧
        (copyOk c = true → (∀ i, i < k → p.hostMay false (c.arg 1 + 64 * i) = true ∧ rsDecode (spGet 0 p.mem.chk (c.arg 1 + 64 * i)) = .clean) →
          p.mem.ready = true →
          ∃ q, Becomes (.copyOut queue) s q ∧ EndsCmd p q n c 0 (64 * k) ∧ q.mem = p.mem ∧ q.cores = p.cores ∧
            ∀ x, spGet 0#8 q.hif.mem x =
              if c.arg 0 ≤ x ∧ x < c.arg 0 + 64 * k then p.byteAt (c.arg 1 + (x - c.arg 0)) else spGet 0#8 p.hif.mem x)) ∧
      (∀ c, w.nextCmd n 3 = some c → c.bad = false →
        let k := fld (c.arg 1) 32 16
        let r := w.hostRead (c.arg 0) (64 * k)
        let ok : Prop := c.arg 0 % 64 = 0 ∧ fld (c.arg 1) 16 16 = 0 ∧ fld (c.arg 1) 48 16 = 0 ∧ k ≠ 0 ∧ k ≤ 16384
        (¬ok → ∃ q, Becomes (.hostSubmit queue host) s q ∧ EndsCmd p q n c 1 0 ∧ q.hif.accepted = p.hif.accepted) ∧
        (ok → r.2 = true → ∃ q, Becomes (.hostSubmit queue host) s q ∧ EndsCmd p q n c 3 0 ∧ q.hif.accepted = p.hif.accepted) ∧
        (ok → r.2 = false → c.arg 2 ≤ p.frameNo →
          ∃ q, Becomes (.hostSubmit queue host) s q ∧ EndsCmd p q n c 4 0 ∧ q.hif.accepted = p.hif.accepted) ∧
        (ok → r.2 = false → p.frameNo < c.arg 2 → p.hif.accepted.length + k ≤ 16384 →
          ∃ q, Becomes (.hostSubmit queue host) s q ∧ EndsCmd p q n c 0 k ∧ q.mem = p.mem ∧ q.cores = p.cores ∧
            q.hif.accepted.length = p.hif.accepted.length + k ∧ (∀ a ∈ p.hif.accepted, a ∈ q.hif.accepted) ∧
            ∀ i, i < k → (⟨n, c.arg 2, c.arg 1 % 65536, (r.1.drop (64 * i)).take 64⟩ : Accepted) ∈ q.hif.accepted) ∧
        (ok → r.2 = false → p.frameNo < c.arg 2 → 16384 < p.hif.accepted.length + k → Becomes (.hostSubmit queue host) s w))) ∧
  (∀ (s : State) (queue : BitVec 3),
      let p := s.p
      let n := queue.toNat
      (∀ c, p.nextCmd n 0x20 = some c → c.bad = false →
        (p.role ≠ 1 → ∃ q, Becomes (.quiesce queue) s q ∧ EndsCmd p q n c 5 0 ∧ q = { p with regs := q.regs, hif := q.hif }) ∧
        (p.role = 1 → p.tick.stopAfter = false ∨ p.tick.token ≠ none →
          ∃ q, Becomes (.quiesce queue) s q ∧ q = { p with hif := q.hif, tick := { p.tick with quiesced := true } } ∧
            { c with running := true } ∈ (q.cq n).cmds) ∧
        (p.role = 1 → p.tick.stopAfter = true → p.tick.token = none → (∀ r ∈ p.runningCmds, r.poisoned = false) →
          ∃ q, Becomes (.quiesce queue) s q ∧ EndsCmd p q n c 0 p.tickCount ∧ q.tick = { p.tick with quiesced := false })) ∧
      ∀ c, p.nextCmd n 0x21 = some c → c.bad = false → p.clocked = true →
        (p.role ≠ 1 → ∃ q, Becomes (.resume queue) s q ∧ EndsCmd p q n c 5 0 ∧ q = { p with regs := q.regs, hif := q.hif }) ∧
        (p.role = 1 → ∃ q, Becomes (.resume queue) s q ∧ EndsCmd p q n c 0 (p.tickCount + 1) ∧ q.mem = p.mem ∧ q.cores = p.cores ∧
          (p.tick.stopAfter = false → q.tick = p.tick) ∧
          (p.tick.stopAfter = true → q.getB TIK_STATUS 11 = false ∧
            q.tick = { p.tick with stopAfter := false, quiesced := false, resumeReplay := decide (p.tickCount ≠ 0) })))

/-- R409, R410, R412, R413, R416: a commit word that names a free slot and index of an enabled channel is held for its frame; any other is
refused and counted; the block of lowest index is delivered with its entry of the delivery table; the status record is written to host
memory, or skipped and counted where it cannot be. -/
def Obligations.InboxAndStatusRecord : Prop :=
  ∀ (s : State) (channel : BitVec 4),
    let p := s.p
    let c := channel.toNat
    let l := p.heldBlocks c
    (∀ (word : BitVec 64) (f : Nat), p.hif.linkUp = true → p.wordFrame (fld word.toNat 40 24) = some f →
      let slot := fld word.toNat 0 12
      let index := fld word.toNat 32 8
      let len := fld word.toNat 16 16
      p.inOn c = true → fld word.toNat 12 4 = 0 → slot < 2 ^ p.getF (HIF_IN_CFG c) 8 5 → index ≤ 254 → len ≠ 0 →
      len ≤ p.getF (HIF_IN_CFG c) 0 8 * 128 → (∀ b ∈ l, b.slot ≠ slot ∧ ¬(b.frame = f ∧ b.index = index)) →
      ∃ q, Becomes (.inCommit channel word) s q ∧ q = { p with hif := { p.hif with blocks := q.hif.blocks } } ∧
        q.heldBlocks c = l ++ [⟨slot, f, index, 32 * len, false, decide (f < p.frameNo), p.getF (HIF_IN_CFG c) 56 8⟩] ∧
        ∀ d, d ≠ c → q.heldBlocks d = p.heldBlocks d) ∧
    (∀ word : BitVec 64, p.hif.linkUp = true → p.inOn c = false ∨ fld word.toNat 12 4 ≠ 0 ∨ 254 < fld word.toNat 32 8 ∨
        fld word.toNat 16 16 = 0 ∨ (∃ b ∈ l, b.slot = fld word.toNat 0 12) →
      ∃ q, Becomes (.inCommit channel word) s q ∧ q.hif = p.hif ∧ q.mem = p.mem ∧ q.getB HIF_STICKY 6 = true ∧
        q.rd HIF_STAT_BADCOMMIT = (p.rd HIF_STAT_BADCOMMIT + 1) % 2 ^ 64) ∧
    (∀ word, p.hif.linkUp = false → Becomes (.inCommit channel word) s p) ∧
    (∀ b, p.working = true → p.inOn c = true → p.tick.unwinding = false → p.nextBlock c = some b →
      let a := p.inBaseOf c + 16 * b.index
      ∃ q, Becomes (.blockDelivery channel) s q ∧ q.heldBlocks c = l.map (fun x => if x = b then { x with delivered := true } else x) ∧
        q.cycle = max p.cycle (p.tick.frameStart + 128) ∧
        q.rd HIF_STAT_BLOCK = (p.rd HIF_STAT_BLOCK + 1) % 2 ^ 64 ∧
        (p.inBaseOf c % 4096 = 0 → isHbm a = true → p.mem.ready = true → rsDecode (spGet 0 p.mem.chk (a / 64 * 64)) = .clean → p.attr (a / 64 * 64) 5 = false →
          ∀ x, q.byteAt x =
            if a ≤ x ∧ x < a + 16 then (leBytes 4 b.slot ++ leBytes 4 b.len ++ leBytes 8 b.frame).getD (x - a) 0#8 else p.byteAt x)) ∧
    (p.hif.statusDue = false → Becomes .statusRecordWrite s p) ∧
    (p.hif.statusDue = true → p.hostBus = false →
      ∃ q, Becomes .statusRecordWrite s q ∧ q = { p with regs := q.regs, hif := { p.hif with statusDue := false } } ∧
        q.rd HIF_STAT_STATUSSKIP = (p.rd HIF_STAT_STATUSSKIP + 1) % 2 ^ 64) ∧
    (p.hif.statusDue = true → p.hostBus = true →
      let a := p.getF HIF_STATUS_ADDR 8 56 * 256
      ∃ q, Becomes .statusRecordWrite s q ∧
        q = { p with hif := { p.hif with statusDue := false, mem := q.hif.mem, memPoison := q.hif.memPoison } } ∧
        ∀ x, spGet 0#8 q.hif.mem x = if a ≤ x ∧ x < a + 192 then p.statusRecord.getD (x - a) 0#8 else spGet 0#8 p.hif.mem x)

/-- R19, R351, R423, R424, R435, R436, R439 to R441, R449: GRAFT_LOAD reads its container whole and refuses it with the code of the first failure; a full
one that passes replaces the graft and goes on to the tick-path stage; a partial one is staged. Where no twin is configured that stage
chooses the parents and ends the load: with code 10 when the latency exceeds the lead, else with the graft complete (a part without a
probe passes, log 93). -/
def Obligations.GraftLoads : Prop :=
  (∀ (s : State) (queue : BitVec 3) (host : List HostLine) (c : HostCmd),
      let p := s.p.hostStores host
      let n := queue.toNat
      let r := p.hostRead (c.arg 0) (c.arg 1)
      let loads (q : Part) : Prop := Becomes (.graftLoad queue host) s q
      let failsWith (m : Mem) (e : TxnErr) : Prop := ∃ q, loads q ∧ EndsCmd p q n c e.status e.word ∧
        q.rd TIK_TXN_ERR = e.word % 2 ^ 64 ∧ q.txn = p.txn ∧ q.mem = m ∧ q.cores = p.cores
      let fails := failsWith p.mem
      p.nextCmd n 0x10 = some c → c.bad = false → p.clocked = true →
      (c.arg 0 % 64 ≠ 0 ∨ c.arg 1 % 64 ≠ 0 → ∃ q, loads q ∧ EndsCmd p q n c 1 0 ∧ q.txn = p.txn ∧ q.mem = p.mem) ∧
      (c.arg 0 % 64 = 0 → c.arg 1 % 64 = 0 → p.txnState = 0 → p.running = true → fails (.of 12)) ∧
      (c.arg 0 % 64 = 0 → c.arg 1 % 64 = 0 → (p.txnState ≠ 0 ∨ p.running = false) →
        (c.arg 1 < 320 ∨ 20 * 2 ^ 20 < c.arg 1 → fails (.of 1)) ∧
        (320 ≤ c.arg 1 → c.arg 1 ≤ 20 * 2 ^ 20 →
          (r.2 = true → ∃ q, loads q ∧ EndsCmd p q n c 3 0 ∧ q.txn = p.txn) ∧
          (r.2 = false →
            (∀ e, readContainer r.1 = .error e → fails e) ∧
            ∀ x, readContainer r.1 = .ok x →
              (x.ty ≠ 1 → fails (.of 1)) ∧
              (x.ty = 1 → x.full = true → p.txnState ≠ 0 → fails (.of 7)) ∧
              (x.ty = 1 → x.full = false → p.txnState ≠ 1 → fails (.of 12)) ∧
              (x.ty = 1 → (x.full = true → p.txnState = 0 ∧ p.running = false) → (x.full = false → p.txnState = 1) →
                (∀ e, p.checkContainer x = .error e → fails e) ∧
                ∀ slot l, p.checkContainer x = .ok slot → containerWrites x = .ok l →
                  (x.full = true → let w := p.validReads true l
                    (∀ e, w.validate true l = some e → failsWith w.mem e) ∧
                    (w.validate true l = none → ∃ q, loads q ∧ q.txn.loadPending = some n ∧ { c with running := true } ∈ (q.cq n).cmds ∧
                      q.getB TIK_GRAFT_STATUS 1 = false ∧ q.rd TIK_GRAFT_ID = x.graftId % 2 ^ 64 ∧ q.txn.applied = true)) ∧
                  (x.full = false → p.gradeFault l = none → p.txn.used + x.staging ≤ stagingBytes →
                    ∃ q, loads q ∧ EndsCmd p q n c 0 (p.txn.used + x.staging) ∧ q.txn.staged = p.txn.staged ++ l ∧
                      q.rd TIK_TXN_USED = (p.txn.used + x.staging) % 2 ^ 64 ∧ q.mem = p.mem ∧ q.cores = p.cores)))))) ∧
  (∀ (s : State) (m n : Nat) (c : HostCmd),
      let p := s.p
      let lat := p.pickParents.rd TIK_TOKEN_LAT
      p.txn.loadPending = some m → p.runningOp 0x10 = some (n, c) → p.getB TWN_CTRL 0 = false →
      ∃ q, Becomes .tickPathStageEnd s q ∧ q.txn = { p.txn with loadPending := none } ∧ q.fab = { p.fab with probing := false } ∧
        q.rd TIK_TOKEN_LAT = lat ∧ q.mem = p.mem ∧ q.cores = p.cores ∧
        (p.rd TIK_LEAD < lat → EndsCmd p q n c 6 (TxnErr.of 10).word ∧ q.getB TIK_STICKY 4 = true ∧
          q.getB TIK_GRAFT_STATUS 1 = p.getB TIK_GRAFT_STATUS 1) ∧
        (lat ≤ p.rd TIK_LEAD → EndsCmd p q n c 0 0 ∧ q.getB FAB_STATUS 2 = true ∧ q.getB TIK_GRAFT_STATUS 1 = true))

/-- R439 to R445, R447, R449: a transaction opens, takes register writes, is committed for a tick, validated and armed, or applied at once, or rolled
back; each command ends with its status and result, and fails with its code where it may not run (that a tick of 0 or one not ahead of the
part is code 11, and which rollbacks may not run, is log 92). -/
def Obligations.Transactions : Prop :=
  ∀ (s : State) (queue : BitVec 3) (host : List HostLine) (c : HostCmd),
    let p := s.p
    let w := p.hostStores host
    let n := queue.toNat
    let fails (i : Instr) (e : TxnErr) : Prop := ∃ q, Becomes i s q ∧ EndsCmd p q n c e.status e.word ∧ q.rd TIK_TXN_ERR = e.word % 2 ^ 64 ∧
      q.txn = p.txn ∧ q.txnState = p.txnState ∧ q.mem = p.mem ∧ q.cores = p.cores
    (p.nextCmd n 0x11 = some c → c.bad = false →
      (p.txnState ≠ 0 ∨ p.txn.loadPending ≠ none → fails (.txnBegin queue) (.of 12)) ∧
      (p.txnState = 0 → p.txn.loadPending = none → ∃ q, Becomes (.txnBegin queue) s q ∧ EndsCmd p q n c 0 0 ∧ q.txnState = 1 ∧
        q.txn.staged = [] ∧ q.txn.used = 0 ∧ q.rd TIK_TXN_USED = 0 ∧ q.mem = p.mem ∧ q.cores = p.cores)) ∧
    (w.nextCmd n 0x12 = some c → c.bad = false →
      let k := c.arg 1
      let r := w.hostRead (c.arg 0) (16 * k)
      (c.arg 0 % 64 ≠ 0 ∨ k = 0 ∨ 2 ^ 20 < k → ∃ q, Becomes (.txnStage queue host) s q ∧ EndsCmd p q n c 1 0 ∧ q.txn = p.txn) ∧
      (c.arg 0 % 64 = 0 → k ≠ 0 → k ≤ 2 ^ 20 →
        (p.txnState ≠ 1 → fails (.txnStage queue host) (.of 12)) ∧
        (p.txnState = 1 → p.mgt.signedOnly = true → fails (.txnStage queue host) (.of 3)) ∧
        (p.txnState = 1 → p.mgt.signedOnly = false →
          (r.2 = true → ∃ q, Becomes (.txnStage queue host) s q ∧ EndsCmd p q n c 3 0 ∧ q.txn = p.txn) ∧
          (r.2 = false → (∀ e, regEntries 0xFFFF r.1 = .error e → fails (.txnStage queue host) e) ∧
            ∀ l, regEntries 0xFFFF r.1 = .ok l →
              (∀ e, p.gradeFault l = some e → fails (.txnStage queue host) e) ∧
              (p.gradeFault l = none → stagingBytes < p.txn.used + 16 * k → fails (.txnStage queue host) (.of 6)) ∧
              (p.gradeFault l = none → p.txn.used + 16 * k ≤ stagingBytes →
                ∃ q, Becomes (.txnStage queue host) s q ∧ EndsCmd p q n c 0 (p.txn.used + 16 * k) ∧ q.txnState = 1 ∧
                  q.txn = { p.txn with staged := p.txn.staged ++ l, used := p.txn.used + 16 * k, unsigned := true } ∧
                  q.rd TIK_TXN_USED = (p.txn.used + 16 * k) % 2 ^ 64 ∧ q.mem = p.mem ∧ q.cores = p.cores))))) ∧
    (p.nextCmd n 0x13 = some c → c.bad = false →
      let t := c.arg 0
      let late : Prop := (p.running = true ∧ t < p.tickCount + 2) ∨
        (p.running = false ∧ t ≠ 0 ∧ ¬(p.getB TIK_STATUS 11 = true ∧ t = p.tickCount + 1))
      (p.txnState ≠ 1 → fails (.txnCommit queue) (.of 12)) ∧
      (p.txnState = 1 → late → fails (.txnCommit queue) (.of 11)) ∧
      (p.txnState = 1 → ¬late → (p.withStaged false p.txn.staged).getB TWN_CTRL 0 = false →
        ∃ q, Becomes (.txnCommit queue) s q ∧ q.txnState = 2 ∧ q.txn = { p.txn with validating := some (n, t), armedFor := t } ∧
          { c with running := true } ∈ (q.cq n).cmds ∧ q.mem = p.mem ∧ q.cores = p.cores ∧ q.fab = p.fab)) ∧
    (∀ m t, p.txn.validating = some (m, t) → p.runningOp 0x13 = some (n, c) →
      let v := p.validReads false p.txn.staged
      (∀ e, v.validateTxn t = some e → ∃ q, Becomes .txnValidationDone s q ∧ EndsCmd p q n c e.status e.word ∧ q.txnState = 1 ∧
        q.txn = { p.txn with validating := none } ∧ q.rd TIK_TXN_ERR = e.word % 2 ^ 64 ∧ q.mem = v.mem ∧ q.cores = p.cores) ∧
      (v.validateTxn t = none →
        (t = 0 → ∃ q, Becomes .txnValidationDone s q ∧ q.txnState = 0 ∧ q.txn.staged = [] ∧ q.rd TIK_TXN_APPLIED = p.frameNo ∧
          (q.getB TIK_CTRL 0 = true ∨ p.tickCount = 0 → EndsCmd p q n c 0 0) ∧
          (q.getB TIK_CTRL 0 = false → q.tickCount = 0 ∧ q.phase = 4)) ∧
        (t ≠ 0 → ∃ q, Becomes .txnValidationDone s q ∧ EndsCmd p q n c 0 t ∧ q.txnState = 3 ∧ q.rd TIK_TXN_T = t % 2 ^ 64 ∧
          q.txn = { p.txn with validating := none, armedFor := t } ∧ q.mem = v.mem ∧ q.cores = p.cores))) ∧
    (p.txn.validating = none → Becomes .txnValidationDone s p) ∧
    (p.nextCmd n 0x14 = some c → c.bad = false →
      (p.txnState = 0 → fails (.txnRollback queue) (.of 12)) ∧
      (p.txnState = 3 → p.txn.tokenSeen = true → fails (.txnRollback queue) (.of 11)) ∧
      (p.txnState = 1 ∨ p.txnState = 2 ∨ (p.txnState = 3 ∧ p.txn.tokenSeen = false) →
        ∃ q, Becomes (.txnRollback queue) s q ∧ EndsCmd p q n c 0 p.txn.used ∧ q.txnState = 0 ∧ q.txn.staged = [] ∧ q.txn.grafts = [] ∧
          q.txn.used = 0 ∧ q.txn.validating = none ∧ q.rd TIK_STAT_ROLLBACK = (p.rd TIK_STAT_ROLLBACK + 1) % 2 ^ 64 ∧ q.mem = p.mem ∧
          q.cores = p.cores))

/-- R13 to R15, R395, R430, R440, R441: a read that touches no register reads zero and is counted, and any other outside the scan window
changes nothing; a register write that reaches no register of its width, or one that takes no write, is ignored and counted; a
write of a plain register changes its RW bits alone; a write of an RWT register is staged in an open transaction (that it counts as
ignored outside one is log 85); any other register takes the action that its rule gives. -/
def Obligations.RegisterWrites : Prop :=
  ∀ (s : State) (offset size : Nat) (value : BitVec 64),
    let p := s.p
    let c : Instr := .registerWrite offset size value
    let v := value.toNat % 2 ^ (8 * size)
    let ignored : Prop := ∃ q, Becomes c s q ∧ q = { p with regs := q.regs } ∧
      q.rd HIF_STAT_ACCERR = (p.rd HIF_STAT_ACCERR + 1) % 2 ^ 64 ∧ ∀ r, r ≠ HIF_STAT_ACCERR → q.rd r = p.rd r
    let wide : Prop := (size = 4 ∨ size = 8) ∧ offset % size = 0
    (readTouches offset size = false → s.bar0Read offset size = (0, { s with p := p.bump HIF_STAT_ACCERR 1 })) ∧
    (readTouches offset size = true → p.scanShut offset = false → (s.bar0Read offset size).2 = s) ∧
    (p.hif.linkUp = false → Becomes c s p) ∧
    (p.hif.linkUp = true → ¬wide → ignored) ∧
    (p.hif.linkUp = true → regAt offset = none → ignored) ∧
    ∀ r, regAt offset = some r → p.hif.linkUp = true →
      (r.bytes ≠ size → ignored) ∧
      (wide → r.bytes = size →
        (p.rwtAt offset r = 0 → r.rw = 0 → r.wo = 0 → ignored) ∧
        (p.rwtAt offset r = 0 → ¬(r.rw = 0 ∧ r.wo = 0) → p.writeSpecial offset r v = none →
          ∃ q, Becomes c s q ∧ q = { p with regs := q.regs } ∧
            q.rd offset = ((p.rd offset &&& (2 ^ 64 - 1 - r.rw)) ||| (v &&& r.rw)) % 2 ^ 64 ∧ ∀ j, j ≠ offset → q.rd j = p.rd j) ∧
        (p.rwtAt offset r = 0 → ¬(r.rw = 0 ∧ r.wo = 0) → ∀ q, p.writeSpecial offset r v = some q → Becomes c s q) ∧
        (p.rwtAt offset r ≠ 0 → p.txnState ≠ 1 → ignored) ∧
        (p.rwtAt offset r ≠ 0 → p.txnState = 1 → p.mgt.signedOnly = false → p.txn.used + 16 ≤ stagingBytes →
          ∃ q, Becomes c s q ∧ q.rd TIK_TXN_USED = (p.txn.used + 16) % 2 ^ 64 ∧ (∀ j, j ≠ TIK_TXN_USED → q.rd j = p.rd j) ∧
            q = { p with
              regs := q.regs
              txn := { p.txn with staged := p.txn.staged ++ [.reg offset size v], used := p.txn.used + 16, unsigned := true } }) ∧
        (p.rwtAt offset r ≠ 0 → p.txnState = 1 → p.mgt.signedOnly = true →
          ∃ q, Becomes c s q ∧ q.txn = p.txn ∧ q.rd TIK_TXN_ERR = (⟨3, 0xFFFF, offset⟩ : TxnErr).word % 2 ^ 64 ∧ q.mem = p.mem ∧ q.cores = p.cores))

/-- R456 to R459, R461 to R463, R535, R545: power good samples the strap; the boot ROM starts the preferred slot when its image may run, else the
other, else recovery; a trial slot that did not come up is left; ready firmware clears the trial; a firmware fault stops the controller. -/
def Obligations.PowerUpAndBoot : Prop :=
  ∀ s : State,
    let p := s.p
    let n := s.nv.tryBoot.1
    let fell := s.nv.tryBoot.2
    (∀ strap, p.pgood = true → exec (.powerUp strap) s = .next s) ∧
    (∀ strap : BitVec 3, p.pgood = false →
      ∃ q, exec (.powerUp strap) s = .next { s with resetCause := if s.resetCause = 0 then 8 else s.resetCause, p := q } ∧
        q = { p with regs := q.regs, power := { p.power with up := true, gpioIn := p.power.gpioIn / 8 * 8 + strap.toNat } } ∧
        q.pgood = true ∧ q.getB PWR_STATUS 5 = true ∧ q.getF PWR_GPIO 24 3 = strap.toNat ∧ ∀ r, r < 17 → q.getB (PWR_RAIL r) 0 = true) ∧
    (p.pgood = false ∨ p.began = true → exec .boot s = .next s) ∧
    (p.pgood = true → p.began = false →
      (∀ b, [n.preferred, !n.preferred].find? s.slotValid = some b →
        let fw := imageFw (n.slot b).bytes
        ∃ q, exec .boot s = .next { s with nv := n, p := q } ∧ q.getF MGT_STATUS 12 4 = 3 ∧ q.getB MGT_STATUS 0 = b ∧
          q.mgt.fw = some fw ∧ q.rd MGT_FW = fwReg s.fuses fw % 2 ^ 64 ∧ q.rd MGT_SERIAL = serialOf s.fuses.uds % 2 ^ 64 ∧
          q.mgt.aliasKey = some (aliasPub s.fuses.uds fw.digest) ∧ q.mgt.ownerCert = n.owner ∧ q.mgt.certMin = s.fuses.svnMin ∧
          q.getB MGT_STICKY 0 = (fell || b != n.preferred || p.getB MGT_STICKY 0) ∧ q.mem = p.mem ∧ q.cores = p.cores) ∧
      ([n.preferred, !n.preferred].find? s.slotValid = none →
        ∃ q, exec .boot s = .next { s with nv := n, p := q } ∧ q = { p with regs := q.regs } ∧ q.getF MGT_STATUS 12 4 = 5 ∧
          q.getB MGT_STICKY 1 = true ∧ q.getB MGT_STICKY 0 = (fell || p.getB MGT_STICKY 0))) ∧
    (s.nv.trial = true → 1 ≤ s.nv.trialBoots → n = { s.nv with preferred := !s.nv.preferred, trial := false } ∧ fell = true) ∧
    (s.nv.trial = true → s.nv.trialBoots = 0 → n = { s.nv with trialBoots := 1 } ∧ fell = false) ∧
    (s.nv.trial = false → n = s.nv ∧ fell = false) ∧
    (p.getF MGT_STATUS 12 4 = 3 →
      ∃ q, exec .fwReady s = .next { s with nv := { s.nv with trial := false, trialBoots := 0 }, p := q } ∧
        q = { p with regs := q.regs, mgt := { p.mgt with ready := true, afterTrial := p.getB MGT_STATUS 8 } } ∧
        q.getF MGT_STATUS 12 4 = 4 ∧ q.getB MGT_STATUS 8 = false) ∧
    (p.getF MGT_STATUS 12 4 ≠ 3 → exec .fwReady s = .next s) ∧
    (p.answers = true → ∃ q, Becomes .firmwareFault s q ∧ q.mgt = { p.mgt with stopped := true } ∧ q.getF MGT_STATUS 12 4 = 6 ∧
      q.getB MGT_STICKY 7 = true ∧ q.mem = p.mem ∧ q.cores = p.cores) ∧
    (p.answers = false → Becomes .firmwareFault s p)

/-- R465 to R467, R473, R499: a vendor-defined command is answered with its code and tag: with completion code 3 when 16 wait, with 2 when it is the
owner's and its session is not, and each answered one counts; the public commands read what their rules name (the layout of their data is
log 101) and change nothing else. -/
def Obligations.ManagementAnswers : Prop :=
  ∀ (s : State) (m : MgtReq) (a b d e : Nat) (x y : Bool) (key : Option (List Byte)) (bs : List Byte),
    let p := s.p
    let pub : List (Instr × Nat) := [(.getInfo m, 1), (.getTelemetry m, 2), (.getErrrec m a, 3), (.getLimits m, 4)]
    let own : List (Instr × Nat) := [(.setLimits m a b d e, 0x10), (.setGraftKey m a key, 0x11), (.setPolicy m x y a, 0x12),
      (.ownerClear m, 0x14), (.fwBegin m a, 0x20), (.fwWrite m a bs, 0x21), (.fwVerify m, 0x22), (.fwActivate m, 0x23),
      (.fwCommitSvn m, 0x24), (.testLoad m bs, 0x30)]
    let answer (c : Instr × Nat) (code : Nat) (data : List Byte) : Prop := ∃ q, Becomes c.1 s q ∧ q = { p with regs := q.regs, mgt := q.mgt } ∧
      q.mgt.out = p.mgt.out ++ [⟨m.via, [BitVec.ofNat 8 c.2, m.tag, BitVec.ofNat 8 code] ++ data⟩] ∧
      q.rd MGT_STAT_CMD = (p.rd MGT_STAT_CMD + 1) % 2 ^ 64 ∧
      (code = 2 → q.rd MGT_STAT_DENY = (p.rd MGT_STAT_DENY + 1) % 2 ^ 64 ∧ q.getB MGT_STICKY 3 = true)
    (p.reaches m.via = false → ∀ c ∈ pub ++ own, Becomes c.1 s p) ∧
    (p.reaches m.via = true → p.answers = true → p.inRecovery = false →
      (16 ≤ m.waiting → ∀ c ∈ pub ++ own, answer c 3 []) ∧
      (m.waiting < 16 → s.fromOwner m = false → ∀ c ∈ own, answer c 2 []) ∧
      (m.waiting < 16 →
        answer (.getInfo m, 1) 0 (leBytes 2 (if p.big then 6144 else 5120) ++ leBytes 8 (p.rd MGT_SERIAL) ++ leBytes 8 (p.rd MGT_FW) ++
          leBytes 4 (p.rd MGT_STATUS) ++ leBytes 4 (p.rd FAB_ID)) ∧
        answer (.getLimits m, 4) 0 (leBytes 4 (p.rd MGT_PLIM) ++ leBytes 4 (p.rd MGT_PLIM_HOST) ++ leBytes 4 (p.rd MGT_THERM) ++
          leBytes 4 (p.rd MGT_POLICY)) ∧
        answer (.getErrrec m a, 3) 0 (fitRecords 1021 ((p.obs.recs.filter fun r => decide (a ≤ r.seq)).reverse)) ∧
        answer (.getTelemetry m, 2) 0 (leBytes 4 (p.rd MGT_TEL_VIN) ++ leBytes 4 (p.rd MGT_TEL_PIN) ++ leBytes 4 (p.rd MGT_TEL_TEMP) ++
          leBytes 8 (p.rd MGT_TEL_TICK) ++ ([0, 1, 2, 3].flatMap fun i => leBytes 8 (p.rd (MGT_TEL_E i))) ++
          ([0, 1, 2, 3].flatMap fun i => leBytes 4 (p.rd (MGT_TEL_T i))) ++ ((List.range 17).flatMap fun r => leBytes 8 (p.rd (PWR_RAIL r))))))

/-- R454, R466 to R468, R472, R475, R482, R504, R505: the owner's commands set limits within their ranges, keys, policy and owner, each answered with
code 0, or with code 1 (4 for a package) and no change; a first owner is set over SMBus outside a session (log 100). -/
def Obligations.OwnerCommands : Prop :=
  ∀ (s : State) (m : MgtReq),
    let p := s.p
    let said (q : Part) (cmd code : Nat) : Prop :=
      q.mgt.out = p.mgt.out ++ [⟨m.via, [BitVec.ofNat 8 cmd, m.tag, BitVec.ofNat 8 code]⟩] ∧ q.mem = p.mem ∧ q.cores = p.cores
    let refuses (c : Instr) (cmd code : Nat) : Prop := ∃ q, Becomes c s q ∧ said q cmd code ∧ q = { p with regs := q.regs, mgt := q.mgt } ∧
      q.mgt.ownerW = p.mgt.ownerW ∧ q.mgt.nextKeys = p.mgt.nextKeys ∧ q.mgt.nextSigned = p.mgt.nextSigned
    p.reaches m.via = true → p.answers = true → m.waiting < 16 →
    (s.fromOwner m = true →
      (∀ watts dieC hbmC holdC, p.limitsOk watts dieC hbmC holdC = false → refuses (.setLimits m watts dieC hbmC holdC) 0x10 1) ∧
      (∀ watts dieC hbmC holdC, p.limitsOk watts dieC hbmC holdC = true →
        ∃ q, Becomes (.setLimits m watts dieC hbmC holdC) s q ∧ said q 0x10 0 ∧ q.mgt.ownerW = watts ∧ q.mgt.dieC = dieC ∧ q.mgt.hbmC = hbmC ∧
          q.mgt.holdC = holdC ∧ q.getF MGT_PLIM 0 16 = watts ∧ q.getF MGT_PLIM 16 16 = q.effectiveLimit % 65536 ∧
          q.getF MGT_THERM 8 8 = dieC ∧ q.getF MGT_THERM 16 8 = hbmC ∧ q.getF MGT_THERM 24 8 = holdC) ∧
      (∀ slot key, 3 < slot → refuses (.setGraftKey m slot key) 0x11 1) ∧
      (∀ slot bs, slot ≤ 3 → pubKeyOf bs = none → refuses (.setGraftKey m slot (some bs)) 0x11 1) ∧
      (∀ slot key k, slot ≤ 3 → (key = none ∧ k = none ∨ ∃ bs j, key = some bs ∧ pubKeyOf bs = some j ∧ k = some j) →
        ∃ q, exec (.setGraftKey m slot key) s = .next { s with nv := s.nv.setKey slot k, p := q } ∧ said q 0x11 0 ∧
          (s.nv.setKey slot k).key slot = k ∧ (∀ i, i ≠ slot → (s.nv.setKey slot k).key i = s.nv.key i) ∧
          q.rd (MGT_GKEY slot) = ((k.map keyId).getD 0) % 2 ^ 64 ∧ q.mgt.nextKeys = (s.nv.setKey slot k).keys ∧
          (p.running = false → q.mgt.keys = q.mgt.nextKeys) ∧ (p.running = true → q.mgt.keys = p.mgt.keys)) ∧
      (∀ x y svn, 63 < svn → refuses (.setPolicy m x y svn) 0x12 1) ∧
      (∀ x y svn, svn ≤ 63 →
        ∃ q, exec (.setPolicy m x y svn) s =
          .next { s with nv := { s.nv with signedOnly := x, linkOwnerMatch := y, linkMinSvn := svn }, p := q } ∧ said q 0x12 0 ∧
          q.getB MGT_POLICY 0 = x ∧ q.getB MGT_POLICY 1 = y ∧ q.getF MGT_POLICY 8 8 = svn ∧ q.mgt.nextSigned = x ∧
          (p.running = false → q.mgt.signedOnly = x) ∧ (p.running = true → q.mgt.signedOnly = p.mgt.signedOnly)) ∧
      (∃ q, exec (.ownerClear m) s = .next { s with nv := s.nv.noOwner, p := q } ∧ said q 0x14 0 ∧ q.getB MGT_STATUS 9 = false ∧
        q.mgt.smb.mutAuth = false ∧ q.mgt.cxl.mutAuth = false ∧ ∀ k, k < 4 → q.rd (MGT_GKEY k) = 0) ∧
      (∀ bs c, bs.length ≤ 2 ^ 20 → readContainer bs = .ok c → s.packageOk c = true →
        ∃ q, Becomes (.testLoad m bs) s q ∧ said q 0x30 0 ∧ q.mgt.chain6 = sha256 (p.mgt.chain6 ++ sha256 bs) ∧
          q.obs.packs = (⟨sha256 bs, c.sections.map fun x => (x.param, x.payload), false⟩ :: p.obs.packs).take 4) ∧
      (∀ bs, 2 ^ 20 < bs.length → ∃ q, Becomes (.testLoad m bs) s q ∧ said q 0x30 4 ∧ q.obs = p.obs ∧ q.getB OBS_STICKY 4 = true)) ∧
    (∀ digest, (s.nv.owner = none ∧ m.via = .smbus ∧ m.inSession = false) ∨ s.fromOwner m = true →
      ∃ q, exec (.ownerSet m digest) s = .next { s with nv := { s.nv with owner := some digest }, p := q } ∧ said q 0x13 0 ∧
        q.getB MGT_STATUS 9 = true ∧ (s.nv.owner ≠ some digest → q.mgt.smb.mutAuth = false ∧ q.mgt.cxl.mutAuth = false)) ∧
    (∀ digest, s.nv.owner = none → m.via ≠ .smbus ∨ m.inSession = true → refuses (.ownerSet m digest) 0x13 2)

/-- R456, R458, R460: an update is begun with its length, written in ascending chunks into the slot that is not running, verified and
activated as a trial; once a trial has come up the minimum security version may be raised; in recovery a valid image starts from slot A
(the length and what is answered in recovery are logs 96 and 98). -/
def Obligations.FirmwareUpdate : Prop :=
  ∀ (s : State) (m : MgtReq),
    let p := s.p
    let b := p.spareSlot
    let old := s.nv.slot b
    let said (q : Part) (cmd code : Nat) : Prop :=
      q.mgt.out = p.mgt.out ++ [⟨m.via, [BitVec.ofNat 8 cmd, m.tag, BitVec.ofNat 8 code]⟩] ∧ q.mem = p.mem ∧ q.cores = p.cores
    let refuses (c : Instr) (cmd code : Nat) : Prop := ∃ q, Becomes c s q ∧ said q cmd code
    p.reaches m.via = true → m.waiting < 16 →
    (p.answers = true → s.fromOwner m = true → p.inRecovery = false →
      (∀ length, length % 64 ≠ 0 ∨ length < 320 ∨ 3 * 2 ^ 20 < length → refuses (.fwBegin m length) 0x20 1) ∧
      (∀ length, length % 64 = 0 → 320 ≤ length → length ≤ 3 * 2 ^ 20 →
        ∃ q, exec (.fwBegin m length) s = .next { s with nv := s.nv.setSlot b ⟨[], false⟩, p := q } ∧ said q 0x20 0 ∧
          q.mgt.updLen = some length ∧ q.mgt.updAt = 0 ∧ q.mgt.updOk = false) ∧
      (∀ offset chunk, p.mgt.updLen = none → refuses (.fwWrite m offset chunk) 0x21 5) ∧
      (∀ offset chunk n, p.mgt.updLen = some n →
        (chunk = [] ∨ 1024 < chunk.length ∨ offset < p.mgt.updAt ∨ n < offset + chunk.length → refuses (.fwWrite m offset chunk) 0x21 1) ∧
        (chunk ≠ [] → chunk.length ≤ 1024 → p.mgt.updAt ≤ offset → offset + chunk.length ≤ n →
          ∃ q fill, fill.length = offset - p.mgt.updAt ∧
            exec (.fwWrite m offset chunk) s = .next { s with nv := s.nv.setSlot b ⟨old.bytes ++ fill ++ chunk, false⟩, p := q } ∧
            said q 0x21 0 ∧ q.mgt.updAt = offset + chunk.length ∧ q.mgt.updOk = false)) ∧
      (p.mgt.updLen = none → refuses (.fwVerify m) 0x22 5) ∧
      (∀ n, p.mgt.updLen = some n → old.bytes.length ≠ n → refuses (.fwVerify m) 0x22 4) ∧
      (∀ n, p.mgt.updLen = some n → old.bytes.length = n → s.fuses.imageValid old.bytes = true →
        ∃ q, exec (.fwVerify m) s = .next { s with nv := s.nv.setSlot b ⟨old.bytes, true⟩, p := q } ∧ said q 0x22 0 ∧ q.mgt.updOk = true) ∧
      (∀ n, p.mgt.updLen = some n → s.fuses.imageValid old.bytes = false → refuses (.fwVerify m) 0x22 4) ∧
      (p.mgt.updOk = false → refuses (.fwActivate m) 0x23 5) ∧
      (p.mgt.updOk = true →
        ∃ q, exec (.fwActivate m) s = .next { s with nv := { s.nv with preferred := b, trial := true, trialBoots := 0 }, p := q } ∧
          said q 0x23 0 ∧ q.mgt.updLen = none ∧ q.mgt.updOk = false) ∧
      (p.mgt.fw = none ∨ p.mgt.afterTrial = false → refuses (.fwCommitSvn m) 0x24 5) ∧
      (∀ fw, p.mgt.fw = some fw → p.mgt.afterTrial = true →
        ∃ q, exec (.fwCommitSvn m) s =
          .next { s with fuses := { s.fuses with svnBits := s.fuses.svnBits ||| BitVec.ofNat 64 (2 ^ fw.svn - 1) }, p := q } ∧ said q 0x24 0 ∧
          q.rd MGT_FW = fwReg (s.fuses.burnSvn fw.svn) fw % 2 ^ 64)) ∧
    (p.inRecovery = true → m.via = .smbus → ∀ n, p.mgt.updLen = some n → p.mgt.sram.length = n → s.fuses.imageValid p.mgt.sram = true →
      ∃ q, exec (.fwVerify m) s = .next { s with nv := { s.nv with slotA := ⟨p.mgt.sram, true⟩, preferred := false }, p := q } ∧
        q.getF MGT_STATUS 12 4 = 3 ∧ q.mgt.fw = some (imageFw p.mgt.sram))

/-- R464, R466, R469, R473, R477, R478, R482: the SPDM responder goes through version, capabilities and algorithms in this order and answers every
request (codes and layouts are DSP0274's, log 102); FINISH opens a session, the owner's when its chain is the installed one; a session ends
after 60 s without a message; a sample shows in the registers and starts the thermal hold at hold_c; the hold ends; a trip stops the part. -/
def Obligations.ControllerEvents : Prop :=
  ∀ (s : State) (via : Transport),
    let p := s.p
    let c := p.mgt.conn via
    let sends (r : SpdmReq) (q : Part) (bs : List Byte) : Prop := Becomes (.spdmRequest via r) s q ∧ q.mem = p.mem ∧ q.cores = p.cores ∧
      q.mgt.out = p.mgt.out ++ [⟨via, bs⟩]
    (∀ r, p.reaches via = false ∨ p.answers = false → Becomes (.spdmRequest via r) s p) ∧
    (p.reaches via = true → p.answers = true →
      (∀ r, ∃ q bs, sends r q bs) ∧
      (∀ r, r.code.toNat = 0x84 → ∃ q bs, sends r q bs ∧ (q.mgt.conn via).stage = 1) ∧
      (∀ r, r.code.toNat = 0xE1 → c.stage = 1 → ∃ q bs, sends r q bs ∧ (q.mgt.conn via).stage = 2) ∧
      (∀ r, r.code.toNat = 0xE3 → c.stage = 2 → ∃ q bs, sends r q bs ∧ (q.mgt.conn via).stage = 3) ∧
      (∀ r, r.code.toNat ≠ 0x84 → (r.code.toNat = 0xE1 → c.stage ≠ 1) → (r.code.toNat = 0xE3 → c.stage ≠ 2) → c.stage ≠ 3 →
        ∃ q, sends r q (spdmError 0x04 0) ∧ (q.mgt.conn via).stage = c.stage) ∧
      (∀ r, c.stage = 3 → r.code.toNat = 0xE4 → c.session = true ∨ c.opening = true → ∃ q, sends r q (spdmError 0x0A 0)) ∧
      (∀ r, c.stage = 3 → r.code.toNat = 0xE4 → c.session = false → c.opening = false → r.param2.toNat % 16 = 0 →
        ∃ q bs, sends r q bs ∧ (q.mgt.conn via).opening = true ∧ bs.length = 202) ∧
      (∀ r, c.stage = 3 → r.code.toNat = 0xE5 → c.opening = true → r.sigOk = true →
        ∃ q, sends r q (spdmMsg 0x65 0 0 []) ∧ (q.mgt.conn via).session = true ∧ (q.mgt.conn via).opening = false ∧
          ((q.mgt.conn via).mutAuth = true ↔ s.nv.owner = some r.ownerChain)) ∧
      (∀ r, c.stage = 3 → r.code.toNat = 0xE5 → c.opening = true → r.sigOk = false →
        ∃ q, sends r q (spdmError 0x06 0) ∧ (q.mgt.conn via).session = c.session ∧ (q.mgt.conn via).opening = false) ∧
      (∀ r, c.stage = 3 → r.code.toNat = 0xEC → c.session = true →
        ∃ q, sends r q (spdmMsg 0x6C 0 0 []) ∧ (q.mgt.conn via).session = false ∧ (q.mgt.conn via).mutAuth = false) ∧
      (∀ r, c.stage = 3 → r.code.toNat = 0x81 → ∃ q, sends r q (spdmMsg 0x01 0 1 (sha256 s.chain)))) ∧
    (c.session = true → ∃ q, Becomes (.sessionTimeout via) s q ∧ (q.mgt.conn via).session = false ∧ (q.mgt.conn via).mutAuth = false ∧
      q.cycle = (if p.clocked then max p.cycle (c.last + 60000000000) else p.cycle) ∧ q.mem = p.mem ∧ q.cores = p.cores) ∧
    (c.session = false → Becomes (.sessionTimeout via) s p) ∧
    (∀ eid : BitVec 8, p.reaches via = true → p.answers = true →
      ∃ q, Becomes (.mctpControlMessage via eid) s q ∧ q = { p with regs := q.regs, mgt := p.mgt.setConn via { c with eid := eid.toNat } }) ∧
    (∀ t : Sample, p.pgood = true → p.answers = true →
      ∃ q, Becomes (.telemetrySample t) s q ∧ q.mem = p.mem ∧ q.cores = p.cores ∧
        q.cycle = (if p.clocked then max p.cycle ((p.cycle / 10000 + 1) * 10000) else p.cycle) ∧
        q.getF MGT_TEL_VIN 0 16 = t.centivolts % 65536 ∧ q.getF MGT_TEL_VIN 16 16 = t.centiamps % 65536 ∧
        q.getF PWR_VIN 0 16 = t.centivolts % 65536 ∧ q.getB PWR_STATUS 0 = decide (t.centivolts < 3500) ∧
        (q.mgt.thermHold = true ↔ p.mgt.thermHold = true ∨ p.mgt.holdC ≤ (hottest q.mgt.temps).1) ∧
        (p.mgt.thermHold = false → p.mgt.holdC ≤ (hottest q.mgt.temps).1 → q.getB MGT_STICKY 4 = true ∧
          q.rd MGT_STAT_HOLD = (p.rd MGT_STAT_HOLD + 1) % 2 ^ 64 ∧ q.power.thermRepeatAt = q.cycle + 100000)) ∧
    (∀ t, p.pgood = false ∨ p.answers = false → Becomes (.telemetrySample t) s p) ∧
    (p.mgt.thermHold = true → p.mgt.stopped = false → (hottest p.mgt.temps).1 + 10 ≤ p.mgt.holdC →
      ∃ q, Becomes .thermalRelease s q ∧ q.mgt = { p.mgt with thermHold := false } ∧
        q.cycle = (if p.clocked then max p.cycle (p.mgt.coolSince + 1000000) else p.cycle) ∧ q.mem = p.mem ∧ q.cores = p.cores ∧
        ∀ d ∈ p.masters, (⟨0, p.chip, d, p.epoch, 3, 0, 7, 1, 0, []⟩ : Packet) ∈ q.fab.txq) ∧
    (p.mgt.thermHold = false ∨ p.mgt.stopped = true ∨ p.mgt.holdC < (hottest p.mgt.temps).1 + 10 → Becomes .thermalRelease s p) ∧
    (∀ sensor, p.pgood = true → sensor < 72 →
      ∃ q, Becomes (.thermalTrip sensor) s q ∧ q.getB PWR_STATUS 6 = true ∧ q.getB PWR_STATUS 7 = true ∧ q.getB PWR_STATUS 4 = false ∧
        q.getB MGT_STICKY 5 = true ∧ q.getB PWR_STICKY 5 = true ∧ q.power.tripOut = true ∧ q.mem = p.mem ∧ q.cores = p.cores)

/-- R16, R522, R525 to R528, R530, R531, R533, R534, R538, R540: a warning below 35.0 V, the hold it starts while the part takes ticks, and its end
after 36.0 V; an overvoltage flag; a rail outside its window or a lost reference stops the part; the resets return the part to its reset
state and record their cause (log 113 says how causes add up); the clock stops and restarts. -/
def Obligations.SupplyAndResets : Prop :=
  ∀ s : State,
    let p := s.p
    let stops (c : Instr) (i : Nat) : Prop := ∃ q, Becomes c s q ∧ q.getB PWR_STATUS 7 = true ∧ q.getB PWR_STATUS 4 = false ∧
      q.getB PWR_STICKY i = true ∧ q.mem = p.mem ∧ q.cores = p.cores ∧ ∀ x, x < 4 → q.getB (MEM_STATUS x) 1 = true
    (∀ cv, p.pgood = true → cv < 3500 →
      ∃ q, Becomes (.supplyWarning cv) s q ∧ q.getB PWR_STATUS 1 = true ∧ q.getB PWR_STATUS 0 = true ∧ q.getB PWR_STATUS 3 = false ∧
        q.getF PWR_VIN 0 16 = cv ∧ q.rd PWR_STAT_WARN = (p.rd PWR_STAT_WARN + 1) % 2 ^ 64 ∧ q.mem = p.mem ∧ q.cores = p.cores ∧
        (p.getB PWR_STATUS 2 = false → q.getB PWR_STICKY 0 = true) ∧
        (p.getB PWR_STATUS 2 = false → p.getB TIK_CTRL 0 = true → p.running = true → p.clocked = true →
          q.getB PWR_STATUS 2 = true ∧ q.getB PWR_STICKY 1 = true ∧ q.power.repeatAt = p.cycle + 100000 ∧
          ∀ d ∈ p.masters, (⟨0, p.chip, d, p.epoch, 3, 0, 6, 0, 0, []⟩ : Packet) ∈ q.fab.txq) ∧
        (p.getB PWR_STATUS 2 = false → p.running = false → q.getB PWR_STATUS 2 = false)) ∧
    (∀ cv, p.pgood = false ∨ 3500 ≤ cv → Becomes (.supplyWarning cv) s p) ∧
    (∀ cv, p.pgood = true → 3600 ≤ cv → cv < 65536 → p.getB PWR_STATUS 1 = true →
      ∃ q, Becomes (.recoveryTimer cv) s q ∧ q.getB PWR_STATUS 1 = false ∧ q.getB PWR_STATUS 2 = false ∧ q.getB PWR_STATUS 0 = false ∧
        q.getF PWR_VIN 0 16 = cv ∧ q.mem = p.mem ∧ q.cores = p.cores ∧ q.power.recoverAt = none ∧
        (∀ t, p.clocked = true → p.power.recoverAt = some t → q.cycle = max p.cycle (t + 1000000)) ∧
        (p.getB PWR_STATUS 2 = true → ∀ d ∈ p.masters, (⟨0, p.chip, d, p.epoch, 3, 0, 7, 0, 0, []⟩ : Packet) ∈ q.fab.txq)) ∧
    (∀ cv, p.pgood = true → 4450 < cv → ∃ q, Becomes (.overvoltageFlag cv) s q ∧ q.getB PWR_STICKY 2 = true ∧ q.mem = p.mem ∧
      q.cores = p.cores ∧ q.getB PWR_STATUS 7 = p.getB PWR_STATUS 7) ∧
    (∀ cv, p.pgood = false ∨ cv ≤ 4450 → Becomes (.overvoltageFlag cv) s p) ∧
    (∀ rail mv, p.pgood = true → rail < 17 → railWithin rail mv 8 = false → stops (.railFault rail mv) 3) ∧
    (∀ rail mv, p.pgood = false ∨ 17 ≤ rail ∨ railWithin rail mv 8 = true → Becomes (.railFault rail mv) s p) ∧
    (p.pgood = true → stops .frefclkLoss 4) ∧
    (Becomes .refclk100Loss s (if p.hif.linkUp then p.hostReset true else p)) ∧
    (∀ cv, 3200 ≤ cv → exec (.undervoltageReset cv) s = .next s) ∧
    (let resets (c : Instr) (cause : Nat) (up : Bool) : Prop :=
      ∃ q, exec c s = .next { s with resetCause := cause, p := q } ∧
        q = { Part.reset s.fuses.big with
          regs := q.regs
          free := p.free
          hif := { Hif.reset with mem := p.hif.mem, memPoison := p.hif.memPoison }
          power := { Power.reset with up := up, gpioIn := p.power.gpioIn, tap := if up then p.power.tap else .reset } } ∧
        q.pgood = (up && p.pgood) ∧ ∀ r, r ≠ PWR_STATUS → q.rd r = regReset r % 2 ^ 64
     let adds (i : Nat) : Nat :=
      if p.began then 2 ^ i else if s.resetCause = 0 ∨ s.resetCause = 8 then s.resetCause else s.resetCause ||| 2 ^ i
     resets .resetN (adds 0) p.power.up ∧ resets .perstN (adds 1) p.power.up ∧ resets .inputFallsBelow20v 0 false ∧
       ∀ cv, cv < 3200 → resets (.undervoltageReset cv) (adds 2) false) ∧
    (p.hif.linkUp = false → Becomes .cclkStop s p ∧ Becomes .cclkRestart s p) ∧
    (p.hif.linkUp = true → p.running = true → ∃ q, Becomes .cclkStop s q ∧ q = { p with regs := q.regs } ∧
      q.getB PWR_STATUS 4 = p.getB PWR_STATUS 4 ∧ q.rd HIF_STAT_ACCERR = (p.rd HIF_STAT_ACCERR + 1) % 2 ^ 64) ∧
    (p.hif.linkUp = true → p.running = false → ∃ q, Becomes .cclkStop s q ∧ q = { p with regs := q.regs } ∧
      q.getB PWR_STATUS 4 = false ∧ q.getB PWR_CTRL 0 = true ∧ q.clocked = false) ∧
    (p.hif.linkUp = true → ∃ q, Becomes .cclkRestart s q ∧ q = { p with regs := q.regs } ∧ q.getB PWR_CTRL 0 = false ∧
      (p.power.hbmTrained = true → p.getB PWR_STATUS 7 = false → q.clocked = true))

/-- R490, R491, R493, R494, R501 to R503: a duplicating spare that agrees lets the capture go and one that differs leaves it for a second; that one
decides against the primary, against the first spare, or not at all; a notice names the latest frame; a passing slice only counts and a
failing one retires a spare or records the core; one full test is queued, cancelled or run. -/
def Obligations.IntegrityChecks : Prop :=
  ∀ (s : State) (sector : BitVec 2),
    let p := s.p
    let x := sector.toNat
    (∀ spare (err : BitVec 64) d o, (p.dups x).find? (fun d => d.stage == 1) = some d → d.drain = some o → p.live = true →
      (p.dupSpares s.fuses.spares x).contains spare = true →
      let got := faulty (p.dupRows d o) err.toNat
      (got = d.captured o.fmt.bytes → ∃ q, Becomes (.dupCheck sector spare err) s q ∧ q.mem = p.mem ∧ q.cores = p.cores ∧
        q.dups x = (p.dups x).filter (fun e => e ≠ d) ∧ q.rd OBS_STAT_DUP = (p.rd OBS_STAT_DUP + 1) % 2 ^ 64) ∧
      (got ≠ d.captured o.fmt.bytes → ∃ q, Becomes (.dupCheck sector spare err) s q ∧ q = { p with obs := q.obs } ∧
        q.dups x = (p.dups x).map fun e => if e = d then { d with stage := 2, spare := spare, result1 := got } else e)) ∧
    (∀ spare (err : BitVec 64) d o, (p.dups x).find? (fun d => d.stage == 2) = some d → d.drain = some o → p.live = true → spare ≠ d.spare →
      (p.dupSpares s.fuses.spares x).contains spare = true →
      let got := faulty (p.dupRows d o) err.toNat
      ∃ q, Becomes (.dupArbitrate sector spare err) s q ∧ q.mem = p.mem ∧ q.cores = p.cores ∧ q.dups x = (p.dups x).filter (fun e => e ≠ d) ∧
        q.rd OBS_STAT_DUP = (p.rd OBS_STAT_DUP + 1) % 2 ^ 64 ∧
        (got = d.result1 → q.getB OBS_STICKY 0 = true ∧ q.rd OBS_STAT_DUPMIS = (p.rd OBS_STAT_DUPMIS + 1) % 2 ^ 64) ∧
        (got ≠ d.result1 → got = d.captured o.fmt.bytes → q.getB OBS_STICKY 2 = true ∧ spGet [] q.obs.retired x = d.spare :: spGet [] p.obs.retired x) ∧
        (got ≠ d.result1 → got ≠ d.captured o.fmt.bytes → q.getB OBS_STICKY 0 = true ∧ q.rd OBS_STAT_DUPMIS = p.rd OBS_STAT_DUPMIS)) ∧
    (∀ k, (p.fab.rx.find? fun k => k.cls == 3 && k.kind == 9) = some k → p.role ≠ 0 →
      let f := leAt k.payload 0 8
      (p.obs.noticeFrom = [] ∨ p.obs.noticeFrame < f → ∃ q, Becomes .integrityNoticeReceive s q ∧ q.fab = { p.fab with rx := p.fab.rx.erase k } ∧
        q.obs = { p.obs with noticeFrame := f, noticeFrom := [k.src] } ∧ q.mem = p.mem ∧ q.cores = p.cores) ∧
      (p.obs.noticeFrom ≠ [] → f < p.obs.noticeFrame →
        Becomes .integrityNoticeReceive s { p with fab := { p.fab with rx := p.fab.rx.erase k } })) ∧
    (∀ unit pattern, p.live = true → (p.testSpares s.fuses.spares x).contains unit = true →
      (∃ q, Becomes (.selftestSlice sector true unit pattern true) s q ∧ q = { p with regs := q.regs } ∧
        q.rd OBS_STAT_SLICE = (p.rd OBS_STAT_SLICE + 1) % 2 ^ 64) ∧
      (p.packagePattern pattern = false → ∃ q, Becomes (.selftestSlice sector true unit pattern false) s q ∧ q.mem = p.mem ∧ q.cores = p.cores ∧
        spGet [] q.obs.retired x = unit :: spGet [] p.obs.retired x ∧ q.getB OBS_STICKY 2 = true)) ∧
    (p.hif.linkUp = true → p.obs.testQueued = false →
      (∃ q, Becomes .fullTestRequest s q ∧ q = { p with regs := q.regs, obs := { p.obs with testQueued := true } } ∧ q.getB OBS_STATUS 3 = true ∧
        q.getF OBS_TEST_STATUS 0 4 = 1) ∧
      Becomes .fullTestCancel s p) ∧
    (p.hif.linkUp = true → p.obs.testQueued = true →
      (∃ q, Becomes .fullTestCancel s q ∧ q = { p with regs := q.regs, obs := { p.obs with testQueued := false } } ∧
        q.getB OBS_STATUS 3 = false ∧ q.getF OBS_TEST_STATUS 0 4 = 7) ∧
      Becomes .fullTestRequest s p) ∧
    (p.live = true → p.obs.testQueued = true → 3 ≤ p.phase → (p.running = false ∨ p.getB TIK_STATUS 11 = true) →
      ∃ q, Becomes (.fullTestRun [] []) s q ∧ q.getB OBS_STATUS 3 = false ∧ q.getF OBS_TEST_STATUS 0 4 = 5 ∧ q.obs.testQueued = false ∧
        q.cores = p.cores ∧ ∀ d ∈ p.masters, (⟨0, p.chip, d, p.epoch, 3, 0, 7, 2, 0, []⟩ : Packet) ∈ q.fab.txq) ∧
    (p.live = false ∨ p.obs.testQueued = false → ∀ l m, Becomes (.fullTestRun l m) s p)

/-- R512 to R515, R546: a freeze, asserted here or by its pin, stops the part, drives FREEZE_OUT and floods every up bundle, once; THAW ends it,
halted; a scan read outside a freeze gives zeros and is counted; each TAP instruction selects its register and drives, or leaves, the pins
(the encodings of R546 are log 114). -/
def Obligations.FreezeScanAndTap : Prop :=
  ∀ (s : State) (cells : List Byte),
    let p := s.p
    let t := p.power.tap
    let freezes (c : Instr) : Prop :=
      (p.obs.frozen = false → ∃ q, Becomes c s q ∧ q.obs.frozen = true ∧ q.getB OBS_STATUS 5 = true ∧ q.power.freezeOut = true ∧
        q.getB TIK_STATUS 11 = true ∧ q.tick = { p.tick with stopAfter := true } ∧ q.mem = p.mem ∧ q.cores = p.cores ∧ q.live = false ∧
        Floods p q p.cycle none 0 .freeze) ∧
      (p.obs.frozen = true → Becomes c s p)
    let taps (c : Instr) (ir : Nat) (sample driven : List Byte) (out : List Byte → Prop) : Prop :=
      (p.pgood = true → ∃ q, Becomes c s q ∧ out q.power.tap.out ∧ q.power.tap = ⟨ir, sample, driven, q.power.tap.out⟩ ∧ q.mem = p.mem ∧
        q.cores = p.cores) ∧
      (p.pgood = false → Becomes c s p)
    (p.hif.linkUp = true → freezes .freeze) ∧
    (p.pgood = true → p.getB OBS_FREEZE 2 = true → freezes .freezeIn) ∧
    (p.hif.linkUp = false → Becomes .freeze s p ∧ Becomes .thaw s p ∧ Becomes (.scanRead false) s p) ∧
    (p.hif.linkUp = true → p.obs.frozen = true → ∃ q, Becomes .thaw s q ∧ q.obs.frozen = false ∧ q.obs.clearPending = false ∧
      q.getB OBS_STATUS 5 = false ∧ q.power.freezeOut = false ∧ q.getB TIK_STATUS 11 = true ∧ q.running = false) ∧
    (p.hif.linkUp = true → p.obs.frozen = false → Becomes .thaw s p ∧
      ∃ q, Becomes (.scanRead false) s q ∧ q.obs = { p.obs with scanOut := List.replicate 4096 0#8 } ∧ q.mem = p.mem ∧ q.cores = p.cores ∧
        q.rd HIF_STAT_ACCERR = (p.rd HIF_STAT_ACCERR + 1) % 2 ^ 64) ∧
    (p.hif.linkUp = true → p.obs.frozen = true → bit (p.rd OBS_SCAN) 42 = false → p.validCore (p.getF OBS_SCAN 43 13) = true →
      p.getF OBS_SCAN 59 2 = 0 → p.getF OBS_SCAN 0 32 / 4096 * 4096 + 4096 ≤ spadBytes →
      ∃ q, Becomes (.scanRead false) s q ∧ q.mem = p.mem ∧ q.cores = p.cores ∧
        q.obs = { p.obs with scanOut := p.scanSpad (p.getF OBS_SCAN 43 13) (p.getF OBS_SCAN 0 32 / 4096 * 4096) }) ∧
    taps .idcode 0 t.sample [] (fun o => o = leBytes 4 (idCode p.big)) ∧
    taps .bypass 1 t.sample [] (fun o => o = [0#8]) ∧
    taps (.samplePreload cells) 2 cells [] (fun _ => True) ∧
    taps (.extest cells) 3 cells cells (fun _ => True) ∧
    taps .clamp 4 t.sample t.sample (fun o => o = [0#8]) ∧
    taps .highz 5 t.sample [] (fun o => o = [0#8]) ∧
    taps (.extestPulse cells) 6 cells cells (fun _ => True) ∧
    taps (.extestTrain cells) 7 cells cells (fun _ => True) ∧
    taps .scanWin 8 t.sample [] (fun o => p.obs.frozen = false → o = List.replicate 4096 0#8)

/-- One command a step: the command at the front of the queue runs with the queue's rest, and with none waiting one CCLK cycle passes while the
clock runs (the model's choice, log 11). -/
def Obligations.StepRunsTheFrontCommand : Prop :=
  (∀ (c : Instr) (s : State), step { s with pending := c :: s.pending } = exec c s) ∧
  (∀ (c : Instr) (rest : List Instr) (s : State), s.pending = c :: rest → step s = exec c { s with pending := rest }) ∧
  (∀ s : State, s.pending = [] → step s = .next { s with p := s.p.passCycle }) ∧
  ∀ p : Part, (p.clocked = false → p.passCycle = p) ∧ (p.clocked = true → p.passCycle.cycle = p.cycle + 1)

/-- R109, R110, R114 to R135: words written out from the encoding of one instruction of each family, with the instruction they stand for. -/
def Obligations.EncodingWords : Prop :=
  decodeWord 0x1008860000000000 = some (.add ⟨1, 2, 3, 0, 0⟩) ∧
  decodeWord 0x1100410000000007 = some (.sub ⟨0, 1, 0, 1, 7⟩) ∧
  decodeWord 0x0118860000000040 = some (.br ⟨3, 2, 3, 0x40⟩) ∧
  decodeWord 0x1D0886008C000000 = some (.ldg ⟨1, 2, 3, 1, 3⟩) ∧
  decodeWord 0x21F0466280000020 = some (.mac ⟨1, 1, 1, 1, 0, 1, 3, 1, 17, 4, 0, 1⟩) ∧
  decodeWord 0x6100003200000000 = some (.wait ⟨3, 2⟩) ∧
  decodeWord 0x62C5000000000000 = some (.herd ⟨3, 5⟩) ∧
  decodeWord 0x6340000000000000 = some (.fence 1) ∧
  decodeWord 0x7000010000012345 = some (.tag 0x12345) ∧
  decodeWord 0x0500000000000000 = none ∧ decodeWord 0x0000000000000001 = none

/-- R109, R110, R114 to R135, R332: an instruction encoded is decoded as itself, with every operand at every value its field admits; a word
that is decoded is the encoding of its instruction, the bits that no rule reserves apart; a packet of the fabric is read from its header
and payload as itself, and bytes that are read as a packet are the header and payload of that packet, a well-formed one. -/
def Obligations.DecodeOfEncode : Prop :=
  (∀ q : Packet, q.wf = true → readPacket (packetHeader q ++ q.payload) = some q) ∧
  (∀ (bs : List Byte) (q : Packet), readPacket bs = some q → q.wf = true ∧ packetHeader q ++ q.payload = bs) ∧
  (∀ o : CoreOp, decodeWord (encodeWord o) = some o) ∧ (∀ o o' : CoreOp, encodeWord o = encodeWord o' → o = o') ∧
    ∀ (w : Dword) (o : CoreOp), decodeWord w = some o → encodeWord o = freeBits w

/-- R455, R460, R468: every step answers a next state and takes at most the front command; the fuses but the security version stay as
manufacturing test left them, that version never goes down and rises by FW_COMMIT_SVN alone; without an owner the store holds no key and no
policy bit, whatever is done to it; each sector keeps the spare cores that manufacturing test found in it, as many as its grade allows (R5). -/
def Obligations.StoreAndFusesKept : Prop :=
  ∀ s : State, ∃ t : State, Steps s t ∧ t.pending = s.pending.tail ∧ t.fuses.fixed = s.fuses.fixed ∧ Fuses.svnKept s.fuses t.fuses ∧
    (t.fuses ≠ s.fuses → ∃ m rest, s.pending = .fwCommitSvn m :: rest) ∧ (s.nv.ok = true → t.nv.ok = true) ∧
    (s.fuses.sparesOk = true → t.fuses.sparesOk = true ∧ ∀ x, x < 4 → t.fuses.spares x = s.fuses.spares x)

/-- R293, R297: the memory keeps its canonical form in every step, so that equal memories are equal data: addresses strictly rise and no entry
holds what an unlisted address reads as (that an unlisted byte reads 0 is log 5's and log 1's choice). -/
def Obligations.MemoryStaysCanonical : Prop :=
  ∀ s t : State, Steps s t → Memory.wf s.p.mem = true → Memory.wf t.p.mem = true

/-- R16, R77, R468, R482: the machine right after reset: nothing waits, every core is as a part reset leaves it, every register reads its reset value,
and the invariants of the memory and of the store hold (power, queues and pins at reset are log 1). -/
def Obligations.ResetState : Prop :=
  State.reset.pending = [] ∧ Memory.wf State.reset.p.mem = true ∧ State.reset.nv.ok = true ∧
    State.reset.fuses.sparesOk = true ∧ (∀ c, State.reset.p.core c = Core.reset) ∧ (∀ r, State.reset.p.rd r = regReset r % 2 ^ 64) ∧
    State.reset.p.rd TIK_STATUS = 0x10 ∧ State.reset.p.rd TIK_FRAME_LEN = 200000 ∧ State.reset.p.rd TIK_LEAD = 5000 ∧
    State.reset.p.rd TIK_COUNT = 0 ∧ State.reset.p.rd TIK_FRAME_NO = 0 ∧
    State.reset.p.getF MGT_PLIM 0 16 = 900 ∧ State.reset.p.getF MGT_PLIM 16 16 = 900 ∧ State.reset.p.getF MGT_THERM 24 8 = 110 ∧
    State.reset.p.getF MGT_THERM 16 8 = 95 ∧ State.reset.p.getF MGT_THERM 8 8 = 100 ∧ State.reset.p.clocked = false ∧
    State.reset.p.hif.linkUp = false

/-- R397, R399: what the host wrote to a line reads back, with its poison, while no one else writes it. -/
def Obligations.HostReadsBack : Prop :=
  ∀ (s : State) (addr : Nat) (data : List Byte) (poison : Bool) (a : Nat),
    let p := s.p
    p.hostAddr addr = some a → p.hostMay true a = true → p.hostMay false a = true → p.slotLocked a = false → p.attr a 5 = false →
    p.mem.ready = true →
    ∃ q r, Becomes (.cxlMemWrite addr data poison) s q ∧ Becomes (.cxlMemRead addr []) { s with p := q } r ∧ r.hif.lastPoison = poison ∧
      (poison = false → r.hif.lastRead = fitBytes 64 data)
end

