-- ==== Sys2Proof/Laws/Bits.lean ====
section
/-!
SUPPORT. The laws of bit fields.
-/
namespace Sys2Proof.Machine

@[simp] theorem b2n_true : b2n true = 1 := rfl
@[simp] theorem b2n_false : b2n false = 0 := rfl
theorem b2n_lt (b : Bool) : b2n b < 2 := by cases b <;> decide

theorem putFld_testBit (n lo w v i : Nat) :
    (putFld n lo w v).testBit i = if lo ≤ i ∧ i < lo + w then v.testBit (i - lo) else n.testBit i := by
  have h1 : (v % 2 ^ w) <<< lo + n % 2 ^ lo < 2 ^ (lo + w) := by
    rw [Nat.shiftLeft_eq, Nat.pow_add]
    have := Nat.mod_lt v (Nat.two_pow_pos w)
    have := Nat.mod_lt n (Nat.two_pow_pos lo)
    nlinarith [Nat.two_pow_pos lo]
  have e1 : putFld n lo w v = 2 ^ (lo + w) * (n >>> (lo + w)) + (2 ^ lo * (v % 2 ^ w) + n % 2 ^ lo) := by
    unfold putFld; rw [Nat.shiftLeft_eq, Nat.shiftLeft_eq]; ring
  have h1' : 2 ^ lo * (v % 2 ^ w) + n % 2 ^ lo < 2 ^ (lo + w) := by
    rw [Nat.shiftLeft_eq] at h1; linarith [h1, Nat.mul_comm (2 ^ lo) (v % 2 ^ w)]
  rw [e1, Nat.testBit_two_pow_mul_add _ h1', Nat.testBit_two_pow_mul_add _ (Nat.mod_lt n (Nat.two_pow_pos lo))]
  simp only [Nat.testBit_mod_two_pow, Nat.testBit_shiftRight]
  by_cases a : i < lo
  · simp [a, show i < lo + w by omega, show ¬ lo ≤ i by omega]
  · by_cases b : i < lo + w
    · simp [a, b, show lo ≤ i by omega, show i - lo < w by omega]
    · simp [b, show lo + w + (i - (lo + w)) = i by omega]

theorem fld_testBit (n lo w i : Nat) : (fld n lo w).testBit i = (decide (i < w) && n.testBit (lo + i)) := by
  simp [fld, Nat.testBit_mod_two_pow, Nat.testBit_shiftRight]

/-- A field reads back what was put into it. -/
@[simp] theorem fld_putFld_same (n lo w v : Nat) : fld (putFld n lo w v) lo w = v % 2 ^ w := by
  apply Nat.eq_of_testBit_eq
  intro i
  rw [fld_testBit, putFld_testBit, Nat.testBit_mod_two_pow]
  by_cases h : i < w <;> simp [h]

/-- A field keeps its value when another that does not overlap it is written. -/
theorem fld_putFld_other (n lo w v lo' w' : Nat) (h : lo' + w' ≤ lo ∨ lo + w ≤ lo') :
    fld (putFld n lo w v) lo' w' = fld n lo' w' := by
  apply Nat.eq_of_testBit_eq
  intro i
  rw [fld_testBit, fld_testBit, putFld_testBit]
  by_cases hi : i < w'
  · have : ¬ (lo ≤ lo' + i ∧ lo' + i < lo + w) := by omega
    simp [this]
  · simp [hi]

theorem fld_mod (n lo w k : Nat) (h : lo + w ≤ k) : fld (n % 2 ^ k) lo w = fld n lo w := by
  apply Nat.eq_of_testBit_eq
  intro i
  rw [fld_testBit, fld_testBit, Nat.testBit_mod_two_pow]
  by_cases hi : i < w
  · simp [show lo + i < k by omega]
  · simp [hi]

theorem bit_eq_fld (n i : Nat) : bit n i = (fld n i 1 == 1) := by simp [bit, fld]

theorem bit_mod (n i k : Nat) (h : i < k) : bit (n % 2 ^ k) i = bit n i := by
  rw [bit_eq_fld, bit_eq_fld, fld_mod _ _ _ _ (by omega)]

@[simp] theorem b2n_beq_one (b : Bool) : (b2n b == 1) = b := by cases b <;> rfl

end Sys2Proof.Machine
end

