-- ==== Sys2Proof/Laws/Sparse.lean ====
section
/-!
SUPPORT. The laws of the sparse store: a read after a write, and the canonical form.
-/
namespace Sys2Proof.Machine

variable {α : Type}

theorem spGet_spDel (d : α) (m : Sparse α) (k j : Nat) :
    spGet d (spDel m k) j = if k = j then d else spGet d m j := by
  induction m with
  | nil => simp [spDel, spGet]
  | cons e r ih =>
    obtain ⟨k', v⟩ := e
    by_cases hk : k' = k
    · subst hk
      by_cases hj : k' = j
      · subst hj; simpa [spDel] using ih
      · simpa [spDel, spGet, hj] using ih
    · by_cases hj : k' = j
      · subst hj; simp [spDel, spGet, hk, Ne.symm hk]
      · simpa [spDel, spGet, hk, hj] using ih

theorem spGet_spPut (d : α) (m : Sparse α) (k : Nat) (v : α) (j : Nat) :
    spGet d (spPut m k v) j = if k = j then v else spGet d m j := by
  induction m with
  | nil => simp [spPut, spGet]
  | cons e r ih =>
    obtain ⟨k', v'⟩ := e
    simp only [spPut]
    split
    · simp [spGet]
    · split <;> rename_i h1 h2
      · subst h2; by_cases hj : k' = j <;> simp [spGet, hj]
      · by_cases hj : k' = j
        · subst hj; simp [spGet, Ne.symm h2]
        · simp [spGet, hj, ih]

/-- A read after a write: the value written at its key, and the old value everywhere else. -/
@[simp] theorem spGet_spSet [DecidableEq α] (d : α) (m : Sparse α) (k : Nat) (v : α) (j : Nat) :
    spGet d (spSet d m k v) j = if k = j then v else spGet d m j := by
  unfold spSet
  split
  · rename_i h; subst h; exact spGet_spDel v m k j
  · exact spGet_spPut d m k v j

/-- A write leaves every other key alone, whatever an unlisted one reads as. -/
theorem spGet_spSet_other [DecidableEq α] (d d' : α) (m : Sparse α) {k j : Nat} (v : α) (h : k ≠ j) :
    spGet d' (spSet d m k v) j = spGet d' m j := by
  unfold spSet
  split
  · rw [spGet_spDel, if_neg h]
  · rw [spGet_spPut, if_neg h]

theorem mem_spDel {m : Sparse α} {k : Nat} {e : Nat × α} (h : e ∈ spDel m k) : e ∈ m := by
  induction m with
  | nil => simp [spDel] at h
  | cons x r ih =>
    obtain ⟨k', v⟩ := x
    simp only [spDel] at h
    split at h
    · exact List.mem_cons_of_mem _ (ih h)
    · rcases List.mem_cons.1 h with rfl | h
      · exact List.mem_cons_self
      · exact List.mem_cons_of_mem _ (ih h)

theorem mem_spPut {m : Sparse α} {k : Nat} {v : α} {e : Nat × α} (h : e ∈ spPut m k v) : e = (k, v) ∨ e ∈ m := by
  induction m with
  | nil => simpa [spPut] using h
  | cons x r ih =>
    obtain ⟨k', v'⟩ := x
    simp only [spPut] at h
    split at h
    · simpa using h
    · split at h
      · rcases List.mem_cons.1 h with rfl | h
        · exact .inl rfl
        · exact .inr (List.mem_cons_of_mem _ h)
      · rcases List.mem_cons.1 h with rfl | h
        · exact .inr List.mem_cons_self
        · exact (ih h).imp id (List.mem_cons_of_mem _)

theorem keysAbove_iff {k : Nat} {m : Sparse α} : keysAbove k m = true ↔ ∀ e ∈ m, k < e.1 := by
  simp [keysAbove]

theorem keysRise_spDel {m : Sparse α} (k : Nat) (h : keysRise m = true) : keysRise (spDel m k) = true := by
  induction m with
  | nil => rfl
  | cons x r ih =>
    obtain ⟨k', v⟩ := x
    simp only [keysRise, Bool.and_eq_true, keysAbove_iff] at h
    simp only [spDel]
    split
    · exact ih h.2
    · simp only [keysRise, Bool.and_eq_true, keysAbove_iff]
      exact ⟨fun e he => h.1 e (mem_spDel he), ih h.2⟩

theorem keysRise_spPut {m : Sparse α} (k : Nat) (v : α) (h : keysRise m = true) : keysRise (spPut m k v) = true := by
  induction m with
  | nil => rfl
  | cons x r ih =>
    obtain ⟨k', v'⟩ := x
    simp only [keysRise, Bool.and_eq_true, keysAbove_iff] at h
    simp only [spPut]
    split
    · rename_i hk
      simp only [keysRise, Bool.and_eq_true, keysAbove_iff]
      refine ⟨fun e he => ?_, h.1, h.2⟩
      rcases List.mem_cons.1 he with rfl | he
      · exact hk
      · exact hk.trans (h.1 e he)
    · split <;> rename_i h1 h2
      · subst h2; simpa [keysRise, keysAbove_iff] using h
      · simp only [keysRise, Bool.and_eq_true, keysAbove_iff]
        refine ⟨fun e he => ?_, ih h.2⟩
        rcases mem_spPut he with rfl | he
        · show k' < k; omega
        · exact h.1 e he

/-- A write keeps the canonical form. -/
theorem spWf_spSet [DecidableEq α] {d : Nat → α} {m : Sparse α} (k : Nat) (v : α) (h : spWf d m = true) :
    spWf d (spSet (d k) m k v) = true := by
  simp only [spWf, Bool.and_eq_true, List.all_eq_true, decide_eq_true_eq] at h ⊢
  unfold spSet
  split
  · exact ⟨keysRise_spDel k h.1, fun e he => h.2 e (mem_spDel he)⟩
  · rename_i hv
    refine ⟨keysRise_spPut k v h.1, fun e he => ?_⟩
    rcases mem_spPut he with rfl | he
    · exact hv
    · exact h.2 e he

/-- Dropping entries keeps the canonical form. -/
theorem spWf_filter [DecidableEq α] {d : Nat → α} {m : Sparse α} (f : Nat × α → Bool) (h : spWf d m = true) :
    spWf d (m.filter f) = true := by
  simp only [spWf, Bool.and_eq_true, List.all_eq_true, decide_eq_true_eq] at h ⊢
  refine ⟨?_, fun e he => h.2 e (List.mem_filter.1 he).1⟩
  have h1 := h.1
  clear h
  induction m with
  | nil => rfl
  | cons x r ih =>
    obtain ⟨k, v⟩ := x
    simp only [keysRise, Bool.and_eq_true, keysAbove_iff] at h1
    simp only [List.filter]
    split
    · simp only [keysRise, Bool.and_eq_true, keysAbove_iff]
      exact ⟨fun e he => h1.1 e (List.mem_filter.1 he).1, ih h1.2⟩
    · exact ih h1.2

end Sys2Proof.Machine
end

