-- ==== Sys2Proof/Laws/State.lean ====
section
/-!
SUPPORT. The laws of the state: what each update of the part sets, and every field and every accessor that it leaves alone.
-/
namespace Sys2Proof.Machine

@[simp] theorem Part.wr_keeps (p : Part) (o v : Nat) :
    (p.wr o v).cycle = p.cycle ∧ (p.wr o v).free = p.free ∧ (p.wr o v).big = p.big ∧
    (p.wr o v).cores = p.cores ∧ (p.wr o v).sched = p.sched ∧ (p.wr o v).units = p.units ∧
    (p.wr o v).press = p.press ∧ (p.wr o v).optim = p.optim ∧ (p.wr o v).mem = p.mem ∧
    (p.wr o v).mctl = p.mctl ∧ (p.wr o v).rack = p.rack ∧ (p.wr o v).tick = p.tick ∧ (p.wr o v).txn = p.txn ∧
    (p.wr o v).obs = p.obs ∧ (p.wr o v).fab = p.fab ∧ (p.wr o v).buckets = p.buckets ∧
    (p.wr o v).twin = p.twin ∧ (p.wr o v).hif = p.hif ∧ (p.wr o v).mgt = p.mgt ∧ (p.wr o v).power = p.power ∧
    (∀ j, (p.wr o v).core j = p.core j) ∧ (∀ j, (p.wr o v).sch j = p.sch j) ∧
    (∀ j, (p.wr o v).unit j = p.unit j) ∧ (∀ j, (p.wr o v).prs j = p.prs j) ∧
    (∀ j, (p.wr o v).opt j = p.opt j) ∧ (∀ j, (p.wr o v).ctl j = p.ctl j) ∧ (∀ j, (p.wr o v).rck j = p.rck j) ∧
    (∀ j, (p.wr o v).bkt j = p.bkt j) :=
  ⟨rfl, rfl, rfl, rfl, rfl, rfl, rfl, rfl, rfl, rfl, rfl, rfl, rfl, rfl, rfl, rfl, rfl, rfl, rfl, rfl,
   fun _ => rfl, fun _ => rfl, fun _ => rfl, fun _ => rfl, fun _ => rfl, fun _ => rfl, fun _ => rfl,
   fun _ => rfl⟩

@[simp] theorem Part.putRaw_keeps (p : Part) (a : Nat) (bs : List Byte) :
    (p.putRaw a bs).cycle = p.cycle ∧ (p.putRaw a bs).free = p.free ∧ (p.putRaw a bs).big = p.big ∧
    (p.putRaw a bs).regs = p.regs ∧ (p.putRaw a bs).cores = p.cores ∧ (p.putRaw a bs).sched = p.sched ∧
    (p.putRaw a bs).units = p.units ∧ (p.putRaw a bs).press = p.press ∧ (p.putRaw a bs).optim = p.optim ∧
    (p.putRaw a bs).mctl = p.mctl ∧ (p.putRaw a bs).rack = p.rack ∧ (p.putRaw a bs).tick = p.tick ∧
    (p.putRaw a bs).txn = p.txn ∧ (p.putRaw a bs).obs = p.obs ∧ (p.putRaw a bs).fab = p.fab ∧
    (p.putRaw a bs).buckets = p.buckets ∧ (p.putRaw a bs).twin = p.twin ∧ (p.putRaw a bs).hif = p.hif ∧
    (p.putRaw a bs).mgt = p.mgt ∧ (p.putRaw a bs).power = p.power ∧ (∀ j, (p.putRaw a bs).rd j = p.rd j) ∧
    (∀ j, (p.putRaw a bs).core j = p.core j) ∧ (∀ j, (p.putRaw a bs).sch j = p.sch j) ∧
    (∀ j, (p.putRaw a bs).unit j = p.unit j) ∧ (∀ j, (p.putRaw a bs).prs j = p.prs j) ∧
    (∀ j, (p.putRaw a bs).opt j = p.opt j) ∧ (∀ j, (p.putRaw a bs).ctl j = p.ctl j) ∧
    (∀ j, (p.putRaw a bs).rck j = p.rck j) ∧ (∀ j, (p.putRaw a bs).bkt j = p.bkt j) :=
  ⟨rfl, rfl, rfl, rfl, rfl, rfl, rfl, rfl, rfl, rfl, rfl, rfl, rfl, rfl, rfl, rfl, rfl, rfl, rfl, rfl,
   fun _ => rfl, fun _ => rfl, fun _ => rfl, fun _ => rfl, fun _ => rfl, fun _ => rfl, fun _ => rfl,
   fun _ => rfl, fun _ => rfl⟩

@[simp] theorem Part.setCore_keeps (p : Part) (c : Nat) (x : Core) :
    (p.setCore c x).cycle = p.cycle ∧ (p.setCore c x).free = p.free ∧ (p.setCore c x).big = p.big ∧
    (p.setCore c x).regs = p.regs ∧ (p.setCore c x).sched = p.sched ∧ (p.setCore c x).units = p.units ∧
    (p.setCore c x).press = p.press ∧ (p.setCore c x).optim = p.optim ∧ (p.setCore c x).mem = p.mem ∧
    (p.setCore c x).mctl = p.mctl ∧ (p.setCore c x).rack = p.rack ∧ (p.setCore c x).tick = p.tick ∧
    (p.setCore c x).txn = p.txn ∧ (p.setCore c x).obs = p.obs ∧ (p.setCore c x).fab = p.fab ∧
    (p.setCore c x).buckets = p.buckets ∧ (p.setCore c x).twin = p.twin ∧ (p.setCore c x).hif = p.hif ∧
    (p.setCore c x).mgt = p.mgt ∧ (p.setCore c x).power = p.power ∧ (∀ j, (p.setCore c x).rd j = p.rd j) ∧
    (∀ j, (p.setCore c x).sch j = p.sch j) ∧ (∀ j, (p.setCore c x).unit j = p.unit j) ∧
    (∀ j, (p.setCore c x).prs j = p.prs j) ∧ (∀ j, (p.setCore c x).opt j = p.opt j) ∧
    (∀ j, (p.setCore c x).ctl j = p.ctl j) ∧ (∀ j, (p.setCore c x).rck j = p.rck j) ∧
    (∀ j, (p.setCore c x).bkt j = p.bkt j) :=
  ⟨rfl, rfl, rfl, rfl, rfl, rfl, rfl, rfl, rfl, rfl, rfl, rfl, rfl, rfl, rfl, rfl, rfl, rfl, rfl, rfl,
   fun _ => rfl, fun _ => rfl, fun _ => rfl, fun _ => rfl, fun _ => rfl, fun _ => rfl, fun _ => rfl,
   fun _ => rfl⟩

@[simp] theorem Part.setSch_keeps (p : Part) (c : Nat) (x : Sched) :
    (p.setSch c x).cycle = p.cycle ∧ (p.setSch c x).free = p.free ∧ (p.setSch c x).big = p.big ∧
    (p.setSch c x).regs = p.regs ∧ (p.setSch c x).cores = p.cores ∧ (p.setSch c x).units = p.units ∧
    (p.setSch c x).press = p.press ∧ (p.setSch c x).optim = p.optim ∧ (p.setSch c x).mem = p.mem ∧
    (p.setSch c x).mctl = p.mctl ∧ (p.setSch c x).rack = p.rack ∧ (p.setSch c x).tick = p.tick ∧
    (p.setSch c x).txn = p.txn ∧ (p.setSch c x).obs = p.obs ∧ (p.setSch c x).fab = p.fab ∧
    (p.setSch c x).buckets = p.buckets ∧ (p.setSch c x).twin = p.twin ∧ (p.setSch c x).hif = p.hif ∧
    (p.setSch c x).mgt = p.mgt ∧ (p.setSch c x).power = p.power ∧ (∀ j, (p.setSch c x).rd j = p.rd j) ∧
    (∀ j, (p.setSch c x).core j = p.core j) ∧ (∀ j, (p.setSch c x).unit j = p.unit j) ∧
    (∀ j, (p.setSch c x).prs j = p.prs j) ∧ (∀ j, (p.setSch c x).opt j = p.opt j) ∧
    (∀ j, (p.setSch c x).ctl j = p.ctl j) ∧ (∀ j, (p.setSch c x).rck j = p.rck j) ∧
    (∀ j, (p.setSch c x).bkt j = p.bkt j) :=
  ⟨rfl, rfl, rfl, rfl, rfl, rfl, rfl, rfl, rfl, rfl, rfl, rfl, rfl, rfl, rfl, rfl, rfl, rfl, rfl, rfl,
   fun _ => rfl, fun _ => rfl, fun _ => rfl, fun _ => rfl, fun _ => rfl, fun _ => rfl, fun _ => rfl,
   fun _ => rfl⟩

@[simp] theorem Part.setUnit_keeps (p : Part) (c : Nat) (x : Units) :
    (p.setUnit c x).cycle = p.cycle ∧ (p.setUnit c x).free = p.free ∧ (p.setUnit c x).big = p.big ∧
    (p.setUnit c x).regs = p.regs ∧ (p.setUnit c x).cores = p.cores ∧ (p.setUnit c x).sched = p.sched ∧
    (p.setUnit c x).press = p.press ∧ (p.setUnit c x).optim = p.optim ∧ (p.setUnit c x).mem = p.mem ∧
    (p.setUnit c x).mctl = p.mctl ∧ (p.setUnit c x).rack = p.rack ∧ (p.setUnit c x).tick = p.tick ∧
    (p.setUnit c x).txn = p.txn ∧ (p.setUnit c x).obs = p.obs ∧ (p.setUnit c x).fab = p.fab ∧
    (p.setUnit c x).buckets = p.buckets ∧ (p.setUnit c x).twin = p.twin ∧ (p.setUnit c x).hif = p.hif ∧
    (p.setUnit c x).mgt = p.mgt ∧ (p.setUnit c x).power = p.power ∧ (∀ j, (p.setUnit c x).rd j = p.rd j) ∧
    (∀ j, (p.setUnit c x).core j = p.core j) ∧ (∀ j, (p.setUnit c x).sch j = p.sch j) ∧
    (∀ j, (p.setUnit c x).prs j = p.prs j) ∧ (∀ j, (p.setUnit c x).opt j = p.opt j) ∧
    (∀ j, (p.setUnit c x).ctl j = p.ctl j) ∧ (∀ j, (p.setUnit c x).rck j = p.rck j) ∧
    (∀ j, (p.setUnit c x).bkt j = p.bkt j) :=
  ⟨rfl, rfl, rfl, rfl, rfl, rfl, rfl, rfl, rfl, rfl, rfl, rfl, rfl, rfl, rfl, rfl, rfl, rfl, rfl, rfl,
   fun _ => rfl, fun _ => rfl, fun _ => rfl, fun _ => rfl, fun _ => rfl, fun _ => rfl, fun _ => rfl,
   fun _ => rfl⟩

@[simp] theorem Part.setPrs_keeps (p : Part) (c : Nat) (x : Press) :
    (p.setPrs c x).cycle = p.cycle ∧ (p.setPrs c x).free = p.free ∧ (p.setPrs c x).big = p.big ∧
    (p.setPrs c x).regs = p.regs ∧ (p.setPrs c x).cores = p.cores ∧ (p.setPrs c x).sched = p.sched ∧
    (p.setPrs c x).units = p.units ∧ (p.setPrs c x).optim = p.optim ∧ (p.setPrs c x).mem = p.mem ∧
    (p.setPrs c x).mctl = p.mctl ∧ (p.setPrs c x).rack = p.rack ∧ (p.setPrs c x).tick = p.tick ∧
    (p.setPrs c x).txn = p.txn ∧ (p.setPrs c x).obs = p.obs ∧ (p.setPrs c x).fab = p.fab ∧
    (p.setPrs c x).buckets = p.buckets ∧ (p.setPrs c x).twin = p.twin ∧ (p.setPrs c x).hif = p.hif ∧
    (p.setPrs c x).mgt = p.mgt ∧ (p.setPrs c x).power = p.power ∧ (∀ j, (p.setPrs c x).rd j = p.rd j) ∧
    (∀ j, (p.setPrs c x).core j = p.core j) ∧ (∀ j, (p.setPrs c x).sch j = p.sch j) ∧
    (∀ j, (p.setPrs c x).unit j = p.unit j) ∧ (∀ j, (p.setPrs c x).opt j = p.opt j) ∧
    (∀ j, (p.setPrs c x).ctl j = p.ctl j) ∧ (∀ j, (p.setPrs c x).rck j = p.rck j) ∧
    (∀ j, (p.setPrs c x).bkt j = p.bkt j) :=
  ⟨rfl, rfl, rfl, rfl, rfl, rfl, rfl, rfl, rfl, rfl, rfl, rfl, rfl, rfl, rfl, rfl, rfl, rfl, rfl, rfl,
   fun _ => rfl, fun _ => rfl, fun _ => rfl, fun _ => rfl, fun _ => rfl, fun _ => rfl, fun _ => rfl,
   fun _ => rfl⟩

@[simp] theorem Part.setOpt_keeps (p : Part) (c : Nat) (x : Optim) :
    (p.setOpt c x).cycle = p.cycle ∧ (p.setOpt c x).free = p.free ∧ (p.setOpt c x).big = p.big ∧
    (p.setOpt c x).regs = p.regs ∧ (p.setOpt c x).cores = p.cores ∧ (p.setOpt c x).sched = p.sched ∧
    (p.setOpt c x).units = p.units ∧ (p.setOpt c x).press = p.press ∧ (p.setOpt c x).mem = p.mem ∧
    (p.setOpt c x).mctl = p.mctl ∧ (p.setOpt c x).rack = p.rack ∧ (p.setOpt c x).tick = p.tick ∧
    (p.setOpt c x).txn = p.txn ∧ (p.setOpt c x).obs = p.obs ∧ (p.setOpt c x).fab = p.fab ∧
    (p.setOpt c x).buckets = p.buckets ∧ (p.setOpt c x).twin = p.twin ∧ (p.setOpt c x).hif = p.hif ∧
    (p.setOpt c x).mgt = p.mgt ∧ (p.setOpt c x).power = p.power ∧ (∀ j, (p.setOpt c x).rd j = p.rd j) ∧
    (∀ j, (p.setOpt c x).core j = p.core j) ∧ (∀ j, (p.setOpt c x).sch j = p.sch j) ∧
    (∀ j, (p.setOpt c x).unit j = p.unit j) ∧ (∀ j, (p.setOpt c x).prs j = p.prs j) ∧
    (∀ j, (p.setOpt c x).ctl j = p.ctl j) ∧ (∀ j, (p.setOpt c x).rck j = p.rck j) ∧
    (∀ j, (p.setOpt c x).bkt j = p.bkt j) :=
  ⟨rfl, rfl, rfl, rfl, rfl, rfl, rfl, rfl, rfl, rfl, rfl, rfl, rfl, rfl, rfl, rfl, rfl, rfl, rfl, rfl,
   fun _ => rfl, fun _ => rfl, fun _ => rfl, fun _ => rfl, fun _ => rfl, fun _ => rfl, fun _ => rfl,
   fun _ => rfl⟩

@[simp] theorem Part.setCtl_keeps (p : Part) (c : Nat) (x : MemCtl) :
    (p.setCtl c x).cycle = p.cycle ∧ (p.setCtl c x).free = p.free ∧ (p.setCtl c x).big = p.big ∧
    (p.setCtl c x).regs = p.regs ∧ (p.setCtl c x).cores = p.cores ∧ (p.setCtl c x).sched = p.sched ∧
    (p.setCtl c x).units = p.units ∧ (p.setCtl c x).press = p.press ∧ (p.setCtl c x).optim = p.optim ∧
    (p.setCtl c x).mem = p.mem ∧ (p.setCtl c x).rack = p.rack ∧ (p.setCtl c x).tick = p.tick ∧
    (p.setCtl c x).txn = p.txn ∧ (p.setCtl c x).obs = p.obs ∧ (p.setCtl c x).fab = p.fab ∧
    (p.setCtl c x).buckets = p.buckets ∧ (p.setCtl c x).twin = p.twin ∧ (p.setCtl c x).hif = p.hif ∧
    (p.setCtl c x).mgt = p.mgt ∧ (p.setCtl c x).power = p.power ∧ (∀ j, (p.setCtl c x).rd j = p.rd j) ∧
    (∀ j, (p.setCtl c x).core j = p.core j) ∧ (∀ j, (p.setCtl c x).sch j = p.sch j) ∧
    (∀ j, (p.setCtl c x).unit j = p.unit j) ∧ (∀ j, (p.setCtl c x).prs j = p.prs j) ∧
    (∀ j, (p.setCtl c x).opt j = p.opt j) ∧ (∀ j, (p.setCtl c x).rck j = p.rck j) ∧
    (∀ j, (p.setCtl c x).bkt j = p.bkt j) :=
  ⟨rfl, rfl, rfl, rfl, rfl, rfl, rfl, rfl, rfl, rfl, rfl, rfl, rfl, rfl, rfl, rfl, rfl, rfl, rfl, rfl,
   fun _ => rfl, fun _ => rfl, fun _ => rfl, fun _ => rfl, fun _ => rfl, fun _ => rfl, fun _ => rfl,
   fun _ => rfl⟩

@[simp] theorem Part.setRck_keeps (p : Part) (c : Nat) (x : Rack) :
    (p.setRck c x).cycle = p.cycle ∧ (p.setRck c x).free = p.free ∧ (p.setRck c x).big = p.big ∧
    (p.setRck c x).regs = p.regs ∧ (p.setRck c x).cores = p.cores ∧ (p.setRck c x).sched = p.sched ∧
    (p.setRck c x).units = p.units ∧ (p.setRck c x).press = p.press ∧ (p.setRck c x).optim = p.optim ∧
    (p.setRck c x).mem = p.mem ∧ (p.setRck c x).mctl = p.mctl ∧ (p.setRck c x).tick = p.tick ∧
    (p.setRck c x).txn = p.txn ∧ (p.setRck c x).obs = p.obs ∧ (p.setRck c x).fab = p.fab ∧
    (p.setRck c x).buckets = p.buckets ∧ (p.setRck c x).twin = p.twin ∧ (p.setRck c x).hif = p.hif ∧
    (p.setRck c x).mgt = p.mgt ∧ (p.setRck c x).power = p.power ∧ (∀ j, (p.setRck c x).rd j = p.rd j) ∧
    (∀ j, (p.setRck c x).core j = p.core j) ∧ (∀ j, (p.setRck c x).sch j = p.sch j) ∧
    (∀ j, (p.setRck c x).unit j = p.unit j) ∧ (∀ j, (p.setRck c x).prs j = p.prs j) ∧
    (∀ j, (p.setRck c x).opt j = p.opt j) ∧ (∀ j, (p.setRck c x).ctl j = p.ctl j) ∧
    (∀ j, (p.setRck c x).bkt j = p.bkt j) :=
  ⟨rfl, rfl, rfl, rfl, rfl, rfl, rfl, rfl, rfl, rfl, rfl, rfl, rfl, rfl, rfl, rfl, rfl, rfl, rfl, rfl,
   fun _ => rfl, fun _ => rfl, fun _ => rfl, fun _ => rfl, fun _ => rfl, fun _ => rfl, fun _ => rfl,
   fun _ => rfl⟩

@[simp] theorem Part.setBkt_keeps (p : Part) (c : Nat) (x : Bucket) :
    (p.setBkt c x).cycle = p.cycle ∧ (p.setBkt c x).free = p.free ∧ (p.setBkt c x).big = p.big ∧
    (p.setBkt c x).regs = p.regs ∧ (p.setBkt c x).cores = p.cores ∧ (p.setBkt c x).sched = p.sched ∧
    (p.setBkt c x).units = p.units ∧ (p.setBkt c x).press = p.press ∧ (p.setBkt c x).optim = p.optim ∧
    (p.setBkt c x).mem = p.mem ∧ (p.setBkt c x).mctl = p.mctl ∧ (p.setBkt c x).rack = p.rack ∧
    (p.setBkt c x).tick = p.tick ∧ (p.setBkt c x).txn = p.txn ∧ (p.setBkt c x).obs = p.obs ∧
    (p.setBkt c x).fab = p.fab ∧ (p.setBkt c x).twin = p.twin ∧ (p.setBkt c x).hif = p.hif ∧
    (p.setBkt c x).mgt = p.mgt ∧ (p.setBkt c x).power = p.power ∧ (∀ j, (p.setBkt c x).rd j = p.rd j) ∧
    (∀ j, (p.setBkt c x).core j = p.core j) ∧ (∀ j, (p.setBkt c x).sch j = p.sch j) ∧
    (∀ j, (p.setBkt c x).unit j = p.unit j) ∧ (∀ j, (p.setBkt c x).prs j = p.prs j) ∧
    (∀ j, (p.setBkt c x).opt j = p.opt j) ∧ (∀ j, (p.setBkt c x).ctl j = p.ctl j) ∧
    (∀ j, (p.setBkt c x).rck j = p.rck j) :=
  ⟨rfl, rfl, rfl, rfl, rfl, rfl, rfl, rfl, rfl, rfl, rfl, rfl, rfl, rfl, rfl, rfl, rfl, rfl, rfl, rfl,
   fun _ => rfl, fun _ => rfl, fun _ => rfl, fun _ => rfl, fun _ => rfl, fun _ => rfl, fun _ => rfl,
   fun _ => rfl⟩

@[simp] theorem Part.modTick_keeps (p : Part) (f : Tick → Tick) :
    (p.modTick f).cycle = p.cycle ∧ (p.modTick f).free = p.free ∧ (p.modTick f).big = p.big ∧
    (p.modTick f).regs = p.regs ∧ (p.modTick f).cores = p.cores ∧ (p.modTick f).sched = p.sched ∧
    (p.modTick f).units = p.units ∧ (p.modTick f).press = p.press ∧ (p.modTick f).optim = p.optim ∧
    (p.modTick f).mem = p.mem ∧ (p.modTick f).mctl = p.mctl ∧ (p.modTick f).rack = p.rack ∧
    (p.modTick f).txn = p.txn ∧ (p.modTick f).obs = p.obs ∧ (p.modTick f).fab = p.fab ∧
    (p.modTick f).buckets = p.buckets ∧ (p.modTick f).twin = p.twin ∧ (p.modTick f).hif = p.hif ∧
    (p.modTick f).mgt = p.mgt ∧ (p.modTick f).power = p.power ∧ (∀ j, (p.modTick f).rd j = p.rd j) ∧
    (∀ j, (p.modTick f).core j = p.core j) ∧ (∀ j, (p.modTick f).sch j = p.sch j) ∧
    (∀ j, (p.modTick f).unit j = p.unit j) ∧ (∀ j, (p.modTick f).prs j = p.prs j) ∧
    (∀ j, (p.modTick f).opt j = p.opt j) ∧ (∀ j, (p.modTick f).ctl j = p.ctl j) ∧
    (∀ j, (p.modTick f).rck j = p.rck j) ∧ (∀ j, (p.modTick f).bkt j = p.bkt j) :=
  ⟨rfl, rfl, rfl, rfl, rfl, rfl, rfl, rfl, rfl, rfl, rfl, rfl, rfl, rfl, rfl, rfl, rfl, rfl, rfl, rfl,
   fun _ => rfl, fun _ => rfl, fun _ => rfl, fun _ => rfl, fun _ => rfl, fun _ => rfl, fun _ => rfl,
   fun _ => rfl, fun _ => rfl⟩

@[simp] theorem Part.modObs_keeps (p : Part) (f : Obs → Obs) :
    (p.modObs f).cycle = p.cycle ∧ (p.modObs f).free = p.free ∧ (p.modObs f).big = p.big ∧
    (p.modObs f).regs = p.regs ∧ (p.modObs f).cores = p.cores ∧ (p.modObs f).sched = p.sched ∧
    (p.modObs f).units = p.units ∧ (p.modObs f).press = p.press ∧ (p.modObs f).optim = p.optim ∧
    (p.modObs f).mem = p.mem ∧ (p.modObs f).mctl = p.mctl ∧ (p.modObs f).rack = p.rack ∧
    (p.modObs f).tick = p.tick ∧ (p.modObs f).txn = p.txn ∧ (p.modObs f).fab = p.fab ∧
    (p.modObs f).buckets = p.buckets ∧ (p.modObs f).twin = p.twin ∧ (p.modObs f).hif = p.hif ∧
    (p.modObs f).mgt = p.mgt ∧ (p.modObs f).power = p.power ∧ (∀ j, (p.modObs f).rd j = p.rd j) ∧
    (∀ j, (p.modObs f).core j = p.core j) ∧ (∀ j, (p.modObs f).sch j = p.sch j) ∧
    (∀ j, (p.modObs f).unit j = p.unit j) ∧ (∀ j, (p.modObs f).prs j = p.prs j) ∧
    (∀ j, (p.modObs f).opt j = p.opt j) ∧ (∀ j, (p.modObs f).ctl j = p.ctl j) ∧
    (∀ j, (p.modObs f).rck j = p.rck j) ∧ (∀ j, (p.modObs f).bkt j = p.bkt j) :=
  ⟨rfl, rfl, rfl, rfl, rfl, rfl, rfl, rfl, rfl, rfl, rfl, rfl, rfl, rfl, rfl, rfl, rfl, rfl, rfl, rfl,
   fun _ => rfl, fun _ => rfl, fun _ => rfl, fun _ => rfl, fun _ => rfl, fun _ => rfl, fun _ => rfl,
   fun _ => rfl, fun _ => rfl⟩

@[simp] theorem Part.modFab_keeps (p : Part) (f : Fabric → Fabric) :
    (p.modFab f).cycle = p.cycle ∧ (p.modFab f).free = p.free ∧ (p.modFab f).big = p.big ∧
    (p.modFab f).regs = p.regs ∧ (p.modFab f).cores = p.cores ∧ (p.modFab f).sched = p.sched ∧
    (p.modFab f).units = p.units ∧ (p.modFab f).press = p.press ∧ (p.modFab f).optim = p.optim ∧
    (p.modFab f).mem = p.mem ∧ (p.modFab f).mctl = p.mctl ∧ (p.modFab f).rack = p.rack ∧
    (p.modFab f).tick = p.tick ∧ (p.modFab f).txn = p.txn ∧ (p.modFab f).obs = p.obs ∧
    (p.modFab f).buckets = p.buckets ∧ (p.modFab f).twin = p.twin ∧ (p.modFab f).hif = p.hif ∧
    (p.modFab f).mgt = p.mgt ∧ (p.modFab f).power = p.power ∧ (∀ j, (p.modFab f).rd j = p.rd j) ∧
    (∀ j, (p.modFab f).core j = p.core j) ∧ (∀ j, (p.modFab f).sch j = p.sch j) ∧
    (∀ j, (p.modFab f).unit j = p.unit j) ∧ (∀ j, (p.modFab f).prs j = p.prs j) ∧
    (∀ j, (p.modFab f).opt j = p.opt j) ∧ (∀ j, (p.modFab f).ctl j = p.ctl j) ∧
    (∀ j, (p.modFab f).rck j = p.rck j) ∧ (∀ j, (p.modFab f).bkt j = p.bkt j) :=
  ⟨rfl, rfl, rfl, rfl, rfl, rfl, rfl, rfl, rfl, rfl, rfl, rfl, rfl, rfl, rfl, rfl, rfl, rfl, rfl, rfl,
   fun _ => rfl, fun _ => rfl, fun _ => rfl, fun _ => rfl, fun _ => rfl, fun _ => rfl, fun _ => rfl,
   fun _ => rfl, fun _ => rfl⟩

@[simp] theorem Part.modTwin_keeps (p : Part) (f : Twin → Twin) :
    (p.modTwin f).cycle = p.cycle ∧ (p.modTwin f).free = p.free ∧ (p.modTwin f).big = p.big ∧
    (p.modTwin f).regs = p.regs ∧ (p.modTwin f).cores = p.cores ∧ (p.modTwin f).sched = p.sched ∧
    (p.modTwin f).units = p.units ∧ (p.modTwin f).press = p.press ∧ (p.modTwin f).optim = p.optim ∧
    (p.modTwin f).mem = p.mem ∧ (p.modTwin f).mctl = p.mctl ∧ (p.modTwin f).rack = p.rack ∧
    (p.modTwin f).tick = p.tick ∧ (p.modTwin f).txn = p.txn ∧ (p.modTwin f).obs = p.obs ∧
    (p.modTwin f).fab = p.fab ∧ (p.modTwin f).buckets = p.buckets ∧ (p.modTwin f).hif = p.hif ∧
    (p.modTwin f).mgt = p.mgt ∧ (p.modTwin f).power = p.power ∧ (∀ j, (p.modTwin f).rd j = p.rd j) ∧
    (∀ j, (p.modTwin f).core j = p.core j) ∧ (∀ j, (p.modTwin f).sch j = p.sch j) ∧
    (∀ j, (p.modTwin f).unit j = p.unit j) ∧ (∀ j, (p.modTwin f).prs j = p.prs j) ∧
    (∀ j, (p.modTwin f).opt j = p.opt j) ∧ (∀ j, (p.modTwin f).ctl j = p.ctl j) ∧
    (∀ j, (p.modTwin f).rck j = p.rck j) ∧ (∀ j, (p.modTwin f).bkt j = p.bkt j) :=
  ⟨rfl, rfl, rfl, rfl, rfl, rfl, rfl, rfl, rfl, rfl, rfl, rfl, rfl, rfl, rfl, rfl, rfl, rfl, rfl, rfl,
   fun _ => rfl, fun _ => rfl, fun _ => rfl, fun _ => rfl, fun _ => rfl, fun _ => rfl, fun _ => rfl,
   fun _ => rfl, fun _ => rfl⟩

@[simp] theorem Part.modHif_keeps (p : Part) (f : Hif → Hif) :
    (p.modHif f).cycle = p.cycle ∧ (p.modHif f).free = p.free ∧ (p.modHif f).big = p.big ∧
    (p.modHif f).regs = p.regs ∧ (p.modHif f).cores = p.cores ∧ (p.modHif f).sched = p.sched ∧
    (p.modHif f).units = p.units ∧ (p.modHif f).press = p.press ∧ (p.modHif f).optim = p.optim ∧
    (p.modHif f).mem = p.mem ∧ (p.modHif f).mctl = p.mctl ∧ (p.modHif f).rack = p.rack ∧
    (p.modHif f).tick = p.tick ∧ (p.modHif f).txn = p.txn ∧ (p.modHif f).obs = p.obs ∧
    (p.modHif f).fab = p.fab ∧ (p.modHif f).buckets = p.buckets ∧ (p.modHif f).twin = p.twin ∧
    (p.modHif f).mgt = p.mgt ∧ (p.modHif f).power = p.power ∧ (∀ j, (p.modHif f).rd j = p.rd j) ∧
    (∀ j, (p.modHif f).core j = p.core j) ∧ (∀ j, (p.modHif f).sch j = p.sch j) ∧
    (∀ j, (p.modHif f).unit j = p.unit j) ∧ (∀ j, (p.modHif f).prs j = p.prs j) ∧
    (∀ j, (p.modHif f).opt j = p.opt j) ∧ (∀ j, (p.modHif f).ctl j = p.ctl j) ∧
    (∀ j, (p.modHif f).rck j = p.rck j) ∧ (∀ j, (p.modHif f).bkt j = p.bkt j) :=
  ⟨rfl, rfl, rfl, rfl, rfl, rfl, rfl, rfl, rfl, rfl, rfl, rfl, rfl, rfl, rfl, rfl, rfl, rfl, rfl, rfl,
   fun _ => rfl, fun _ => rfl, fun _ => rfl, fun _ => rfl, fun _ => rfl, fun _ => rfl, fun _ => rfl,
   fun _ => rfl, fun _ => rfl⟩

@[simp] theorem Part.modMgt_keeps (p : Part) (f : Mgt → Mgt) :
    (p.modMgt f).cycle = p.cycle ∧ (p.modMgt f).free = p.free ∧ (p.modMgt f).big = p.big ∧
    (p.modMgt f).regs = p.regs ∧ (p.modMgt f).cores = p.cores ∧ (p.modMgt f).sched = p.sched ∧
    (p.modMgt f).units = p.units ∧ (p.modMgt f).press = p.press ∧ (p.modMgt f).optim = p.optim ∧
    (p.modMgt f).mem = p.mem ∧ (p.modMgt f).mctl = p.mctl ∧ (p.modMgt f).rack = p.rack ∧
    (p.modMgt f).tick = p.tick ∧ (p.modMgt f).txn = p.txn ∧ (p.modMgt f).obs = p.obs ∧
    (p.modMgt f).fab = p.fab ∧ (p.modMgt f).buckets = p.buckets ∧ (p.modMgt f).twin = p.twin ∧
    (p.modMgt f).hif = p.hif ∧ (p.modMgt f).power = p.power ∧ (∀ j, (p.modMgt f).rd j = p.rd j) ∧
    (∀ j, (p.modMgt f).core j = p.core j) ∧ (∀ j, (p.modMgt f).sch j = p.sch j) ∧
    (∀ j, (p.modMgt f).unit j = p.unit j) ∧ (∀ j, (p.modMgt f).prs j = p.prs j) ∧
    (∀ j, (p.modMgt f).opt j = p.opt j) ∧ (∀ j, (p.modMgt f).ctl j = p.ctl j) ∧
    (∀ j, (p.modMgt f).rck j = p.rck j) ∧ (∀ j, (p.modMgt f).bkt j = p.bkt j) :=
  ⟨rfl, rfl, rfl, rfl, rfl, rfl, rfl, rfl, rfl, rfl, rfl, rfl, rfl, rfl, rfl, rfl, rfl, rfl, rfl, rfl,
   fun _ => rfl, fun _ => rfl, fun _ => rfl, fun _ => rfl, fun _ => rfl, fun _ => rfl, fun _ => rfl,
   fun _ => rfl, fun _ => rfl⟩

@[simp] theorem Part.modPower_keeps (p : Part) (f : Power → Power) :
    (p.modPower f).cycle = p.cycle ∧ (p.modPower f).free = p.free ∧ (p.modPower f).big = p.big ∧
    (p.modPower f).regs = p.regs ∧ (p.modPower f).cores = p.cores ∧ (p.modPower f).sched = p.sched ∧
    (p.modPower f).units = p.units ∧ (p.modPower f).press = p.press ∧ (p.modPower f).optim = p.optim ∧
    (p.modPower f).mem = p.mem ∧ (p.modPower f).mctl = p.mctl ∧ (p.modPower f).rack = p.rack ∧
    (p.modPower f).tick = p.tick ∧ (p.modPower f).txn = p.txn ∧ (p.modPower f).obs = p.obs ∧
    (p.modPower f).fab = p.fab ∧ (p.modPower f).buckets = p.buckets ∧ (p.modPower f).twin = p.twin ∧
    (p.modPower f).hif = p.hif ∧ (p.modPower f).mgt = p.mgt ∧ (∀ j, (p.modPower f).rd j = p.rd j) ∧
    (∀ j, (p.modPower f).core j = p.core j) ∧ (∀ j, (p.modPower f).sch j = p.sch j) ∧
    (∀ j, (p.modPower f).unit j = p.unit j) ∧ (∀ j, (p.modPower f).prs j = p.prs j) ∧
    (∀ j, (p.modPower f).opt j = p.opt j) ∧ (∀ j, (p.modPower f).ctl j = p.ctl j) ∧
    (∀ j, (p.modPower f).rck j = p.rck j) ∧ (∀ j, (p.modPower f).bkt j = p.bkt j) :=
  ⟨rfl, rfl, rfl, rfl, rfl, rfl, rfl, rfl, rfl, rfl, rfl, rfl, rfl, rfl, rfl, rfl, rfl, rfl, rfl, rfl,
   fun _ => rfl, fun _ => rfl, fun _ => rfl, fun _ => rfl, fun _ => rfl, fun _ => rfl, fun _ => rfl,
   fun _ => rfl, fun _ => rfl⟩

@[simp] theorem Part.modTxn_keeps (p : Part) (f : Txn → Txn) :
    (p.modTxn f).cycle = p.cycle ∧ (p.modTxn f).free = p.free ∧ (p.modTxn f).big = p.big ∧
    (p.modTxn f).regs = p.regs ∧ (p.modTxn f).cores = p.cores ∧ (p.modTxn f).sched = p.sched ∧
    (p.modTxn f).units = p.units ∧ (p.modTxn f).press = p.press ∧ (p.modTxn f).optim = p.optim ∧
    (p.modTxn f).mem = p.mem ∧ (p.modTxn f).mctl = p.mctl ∧ (p.modTxn f).rack = p.rack ∧
    (p.modTxn f).tick = p.tick ∧ (p.modTxn f).obs = p.obs ∧ (p.modTxn f).fab = p.fab ∧
    (p.modTxn f).buckets = p.buckets ∧ (p.modTxn f).twin = p.twin ∧ (p.modTxn f).hif = p.hif ∧
    (p.modTxn f).mgt = p.mgt ∧ (p.modTxn f).power = p.power ∧ (∀ j, (p.modTxn f).rd j = p.rd j) ∧
    (∀ j, (p.modTxn f).core j = p.core j) ∧ (∀ j, (p.modTxn f).sch j = p.sch j) ∧
    (∀ j, (p.modTxn f).unit j = p.unit j) ∧ (∀ j, (p.modTxn f).prs j = p.prs j) ∧
    (∀ j, (p.modTxn f).opt j = p.opt j) ∧ (∀ j, (p.modTxn f).ctl j = p.ctl j) ∧
    (∀ j, (p.modTxn f).rck j = p.rck j) ∧ (∀ j, (p.modTxn f).bkt j = p.bkt j) :=
  ⟨rfl, rfl, rfl, rfl, rfl, rfl, rfl, rfl, rfl, rfl, rfl, rfl, rfl, rfl, rfl, rfl, rfl, rfl, rfl, rfl,
   fun _ => rfl, fun _ => rfl, fun _ => rfl, fun _ => rfl, fun _ => rfl, fun _ => rfl, fun _ => rfl,
   fun _ => rfl, fun _ => rfl⟩

/-- A register reads the value written, and every other register reads as before. -/
theorem Part.rd_wr (p : Part) (o v j : Nat) : (p.wr o v).rd j = if o = j then v % 2 ^ 64 else p.rd j := by
  by_cases h : o = j
  · subst h; simp [Part.rd, Part.wr]
  · simp [Part.rd, Part.wr, h, spGet_spSet_other]

@[simp] theorem Part.rd_wr_same (p : Part) (o v : Nat) : (p.wr o v).rd o = v % 2 ^ 64 := by simp [Part.rd_wr]

theorem Part.rd_wr_other (p : Part) {o j : Nat} (v : Nat) (h : o ≠ j) : (p.wr o v).rd j = p.rd j := by simp [Part.rd_wr, h]

theorem Part.rd_lt (p : Part) (o : Nat) : p.rd o < 2 ^ 64 := by simp only [Part.rd]; exact BitVec.isLt _

@[simp] theorem Part.core_setCore (p : Part) (i j : Nat) (x) : (p.setCore i x).core j = if i = j then x else p.core j := by
  simp [Part.core, Part.setCore]

@[simp] theorem Part.modCore_eq (p : Part) (i : Nat) (f) : p.modCore i f = p.setCore i (f (p.core i)) := rfl

@[simp] theorem Part.sch_setSch (p : Part) (i j : Nat) (x) : (p.setSch i x).sch j = if i = j then x else p.sch j := by
  simp [Part.sch, Part.setSch]

@[simp] theorem Part.modSch_eq (p : Part) (i : Nat) (f) : p.modSch i f = p.setSch i (f (p.sch i)) := rfl

@[simp] theorem Part.unit_setUnit (p : Part) (i j : Nat) (x) : (p.setUnit i x).unit j = if i = j then x else p.unit j := by
  simp [Part.unit, Part.setUnit]

@[simp] theorem Part.modUnit_eq (p : Part) (i : Nat) (f) : p.modUnit i f = p.setUnit i (f (p.unit i)) := rfl

@[simp] theorem Part.prs_setPrs (p : Part) (i j : Nat) (x) : (p.setPrs i x).prs j = if i = j then x else p.prs j := by
  simp [Part.prs, Part.setPrs]

@[simp] theorem Part.modPrs_eq (p : Part) (i : Nat) (f) : p.modPrs i f = p.setPrs i (f (p.prs i)) := rfl

@[simp] theorem Part.opt_setOpt (p : Part) (i j : Nat) (x) : (p.setOpt i x).opt j = if i = j then x else p.opt j := by
  simp [Part.opt, Part.setOpt]

@[simp] theorem Part.ctl_setCtl (p : Part) (i j : Nat) (x) : (p.setCtl i x).ctl j = if i = j then x else p.ctl j := by
  simp [Part.ctl, Part.setCtl]

@[simp] theorem Part.modCtl_eq (p : Part) (i : Nat) (f) : p.modCtl i f = p.setCtl i (f (p.ctl i)) := rfl

@[simp] theorem Part.rck_setRck (p : Part) (i j : Nat) (x) : (p.setRck i x).rck j = if i = j then x else p.rck j := by
  simp [Part.rck, Part.setRck]

@[simp] theorem Part.bkt_setBkt (p : Part) (i j : Nat) (x) : (p.setBkt i x).bkt j = if i = j then x else p.bkt j := by
  simp [Part.bkt, Part.setBkt]

@[simp] theorem Part.modTick_tick (p : Part) (f) : (p.modTick f).tick = f p.tick := rfl

@[simp] theorem Part.modObs_obs (p : Part) (f) : (p.modObs f).obs = f p.obs := rfl

@[simp] theorem Part.modFab_fab (p : Part) (f) : (p.modFab f).fab = f p.fab := rfl

@[simp] theorem Part.modTwin_twin (p : Part) (f) : (p.modTwin f).twin = f p.twin := rfl

@[simp] theorem Part.modHif_hif (p : Part) (f) : (p.modHif f).hif = f p.hif := rfl

@[simp] theorem Part.modMgt_mgt (p : Part) (f) : (p.modMgt f).mgt = f p.mgt := rfl

@[simp] theorem Part.modPower_power (p : Part) (f) : (p.modPower f).power = f p.power := rfl

@[simp] theorem Part.modTxn_txn (p : Part) (f) : (p.modTxn f).txn = f p.txn := rfl

@[simp] theorem Part.each_nil {α : Type} (p : Part) (f : Part → α → Part) : p.each [] f = p := rfl

@[simp] theorem Part.each_cons {α : Type} (p : Part) (x : α) (l : List α) (f : Part → α → Part) :
    p.each (x :: l) f = (f p x).each l f := rfl

/-- Counting in a list of registers changes registers alone. -/
theorem Part.each_bump (n : Nat) (l : List Nat) (p : Part) :
    p.each l (fun q r => q.bump r n) = { p with regs := (p.each l fun q r => q.bump r n).regs } := by
  induction l generalizing p with
  | nil => rfl
  | cons r l ih => rw [Part.each_cons, ih]; rfl

/-- A register that is not counted in reads as before. -/
theorem Part.each_bump_rd (n : Nat) {l : List Nat} {j : Nat} (h : j ∉ l) (p : Part) :
    (p.each l fun q r => q.bump r n).rd j = p.rd j := by
  induction l generalizing p with
  | nil => rfl
  | cons r l ih =>
    rw [Part.each_cons, ih (fun m => h (List.mem_cons_of_mem _ m))]
    exact Part.rd_wr_other _ _ fun e => h (e ▸ List.mem_cons_self)

/-- The passing of cycles changes registers and the cycle alone. -/
theorem Part.elapse_eq (p : Part) (n : Nat) : p.elapse n = { p with regs := (p.elapse n).regs, cycle := p.cycle + n } := by
  unfold Part.elapse
  dsimp only
  rw [Part.each_bump]
  split <;> rfl

/-- Bringing the clock up changes registers and the cycle alone. -/
theorem Part.clockTo_eq (p : Part) (n : Nat) : p.clockTo n = { p with regs := (p.clockTo n).regs, cycle := max p.cycle n } := by
  unfold Part.clockTo
  split
  · rename_i h; rw [Nat.max_eq_left h]
  · rename_i h; rw [Part.elapse_eq]; congr 1; omega

@[simp] theorem Part.clockTo_cycle (p : Part) (n : Nat) : (p.clockTo n).cycle = max p.cycle n := by rw [Part.clockTo_eq]

@[simp] theorem Part.clockTo_keeps (p : Part) (n : Nat) :
    (p.clockTo n).free = p.free ∧ (p.clockTo n).big = p.big ∧ (p.clockTo n).cores = p.cores ∧
    (p.clockTo n).sched = p.sched ∧ (p.clockTo n).units = p.units ∧ (p.clockTo n).press = p.press ∧
    (p.clockTo n).optim = p.optim ∧ (p.clockTo n).mem = p.mem ∧ (p.clockTo n).mctl = p.mctl ∧
    (p.clockTo n).rack = p.rack ∧ (p.clockTo n).tick = p.tick ∧ (p.clockTo n).txn = p.txn ∧
    (p.clockTo n).obs = p.obs ∧ (p.clockTo n).fab = p.fab ∧ (p.clockTo n).buckets = p.buckets ∧
    (p.clockTo n).twin = p.twin ∧ (p.clockTo n).hif = p.hif ∧ (p.clockTo n).mgt = p.mgt ∧
    (p.clockTo n).power = p.power ∧ (∀ j, (p.clockTo n).core j = p.core j) ∧
    (∀ j, (p.clockTo n).sch j = p.sch j) ∧ (∀ j, (p.clockTo n).unit j = p.unit j) ∧
    (∀ j, (p.clockTo n).prs j = p.prs j) ∧ (∀ j, (p.clockTo n).opt j = p.opt j) ∧
    (∀ j, (p.clockTo n).ctl j = p.ctl j) ∧ (∀ j, (p.clockTo n).rck j = p.rck j) ∧
    (∀ j, (p.clockTo n).bkt j = p.bkt j) := by
  rw [Part.clockTo_eq]
  refine ⟨rfl, rfl, rfl, rfl, rfl, rfl, rfl, rfl, rfl, rfl, rfl, rfl, rfl, rfl, rfl, rfl, rfl, rfl, rfl, ?_⟩
  exact ⟨fun _ => rfl, fun _ => rfl, fun _ => rfl, fun _ => rfl, fun _ => rfl, fun _ => rfl, fun _ => rfl, fun _ => rfl⟩

/-- A register that counts no cycle of the present state reads as before when the clock is brought up. -/
theorem Part.clockTo_rd (p : Part) (n : Nat) {j : Nat} (h : j ∉ p.cycleCounts) (h' : j ≠ HIF_STAT_CRWAIT) : (p.clockTo n).rd j = p.rd j := by
  unfold Part.clockTo
  split
  · rfl
  · unfold Part.elapse
    dsimp only
    split
    · exact (Part.rd_wr_other _ _ (Ne.symm h')).trans (Part.each_bump_rd _ h p)
    · exact Part.each_bump_rd _ h p

/-- What a fold keeps when each of its changes keeps it. -/
theorem Part.each_keeps {α β : Type} (get : Part → β) (f : Part → α → Part) (h : ∀ p x, get (f p x) = get p) (l : List α) (p : Part) :
    get (p.each l f) = get p := by
  induction l generalizing p with
  | nil => rfl
  | cons x r ih => rw [Part.each_cons, ih, h]

/-- A field of a register after the field was put. -/
theorem Part.getF_putF_same (p : Part) (o lo w v : Nat) (h : lo + w ≤ 64) : (p.putF o lo w v).getF o lo w = v % 2 ^ w := by
  simp only [Part.getF, Part.putF, Part.rd_wr_same]
  rw [fld_mod _ _ _ _ h, fld_putFld_same]

/-- A field of a register after another field of it was put. -/
theorem Part.getF_putF_field (p : Part) (o lo w v lo' w' : Nat) (h : lo' + w' ≤ lo ∨ lo + w ≤ lo') (h' : lo' + w' ≤ 64) :
    (p.putF o lo w v).getF o lo' w' = p.getF o lo' w' := by
  simp only [Part.getF, Part.putF, Part.rd_wr_same]
  rw [fld_mod _ _ _ _ h', fld_putFld_other _ _ _ _ _ _ h]

/-- A register after a field of another was put. -/
theorem Part.rd_putF_other (p : Part) {o j : Nat} (lo w v : Nat) (h : o ≠ j) : (p.putF o lo w v).rd j = p.rd j :=
  Part.rd_wr_other _ _ h

theorem Part.rd_putB_other (p : Part) {o j : Nat} (i : Nat) (b : Bool) (h : o ≠ j) : (p.putB o i b).rd j = p.rd j :=
  Part.rd_wr_other _ _ h

/-- A bit of a register after it was put. -/
theorem Part.getB_putB_same (p : Part) (o i : Nat) (b : Bool) (h : i < 64) : (p.putB o i b).getB o i = b := by
  have := Part.getF_putF_same p o i 1 (b2n b) (by omega)
  simp only [Part.getF] at this
  simp only [Part.getB, Part.putB, bit_eq_fld, this]
  cases b <;> rfl

/-- A bit of a register after another bit of it was put. -/
theorem Part.getB_putB_bit (p : Part) (o i j : Nat) (b : Bool) (h : i ≠ j) (hj : j < 64) : (p.putB o i b).getB o j = p.getB o j := by
  have := Part.getF_putF_field p o i 1 (b2n b) j 1 (by omega) (by omega)
  simp only [Part.getF] at this
  simp only [Part.getB, Part.putB, bit_eq_fld, this]

@[simp] theorem Core.reg_zero (k : Core) : k.reg 0 = 0 := rfl

@[simp] theorem Core.setReg_zero (k : Core) (v : Nat) : k.setReg 0 v = k := rfl

/-- A register after a register was written: g0 stays 0 (R53). -/
theorem Core.reg_setReg (k : Core) (r v j : Nat) : (k.setReg r v).reg j = if r = j ∧ r ≠ 0 then v % 2 ^ 32 else k.reg j := by
  by_cases h0 : r = 0
  · simp [h0]
  · by_cases hj : j = 0
    · simp [hj, h0]
    · by_cases h : r = j
      · subst h; simp [Core.reg, Core.setReg, hj]
      · simp [Core.reg, Core.setReg, hj, h0, h]

theorem Core.setReg_keeps (k : Core) (r v : Nat) : k.setReg r v = { k with g := (k.setReg r v).g } := by
  unfold Core.setReg; split <;> rfl

end Sys2Proof.Machine
end

