-- ==== Sys2Proof/Laws/Core.lean ====
section
/-!
SUPPORT. What issuing an instruction does when the core is ready, and what the scalar instructions leave.
-/
namespace Sys2Proof.Machine

@[simp] theorem Core.runs_keeps (k : Core) :
    (k.runs).waitId = k.waitId ∧ (k.runs).waitN = k.waitN ∧ (k.runs).pc = k.pc ∧ (k.runs).g = k.g ∧
    (k.runs).pair = k.pair ∧ (k.runs).seq = k.seq ∧ (k.runs).faultCode = k.faultCode ∧
    (k.runs).faultPc = k.faultPc ∧ (k.runs).faultSeq = k.faultSeq ∧ (k.runs).endSeen = k.endSeen ∧
    (k.runs).askRd = k.askRd ∧ (k.runs).askAddr = k.askAddr ∧ (k.runs).fence = k.fence ∧
    (k.runs).arrived = k.arrived ∧ (k.runs).ev = k.ev ∧ (k.runs).evNew = k.evNew ∧
    (k.runs).evTook = k.evTook ∧ (k.runs).heldBy = k.heldBy ∧ (k.runs).irr = k.irr ∧ (k.runs).mq = k.mq ∧
    (k.runs).loading = k.loading ∧ (k.runs).loadTile = k.loadTile ∧ (k.runs).buf0 = k.buf0 ∧
    (k.runs).buf1 = k.buf1 ∧ (k.runs).passes = k.passes ∧ (k.runs).closing = k.closing ∧ (k.runs).acc = k.acc ∧
    (k.runs).groups = k.groups ∧ (k.runs).opened = k.opened ∧ (k.runs).ftq = k.ftq ∧ (k.runs).vq = k.vq ∧
    (k.runs).vrun = k.vrun ∧ (k.runs).vl = k.vl ∧ (k.runs).slots = k.slots ∧ (k.runs).psets = k.psets ∧
    (k.runs).draws = k.draws ∧ (k.runs).estSeq = k.estSeq ∧ k.runs.st = .running ∧
    (∀ r, (k.runs).reg r = k.reg r) ∧ (∀ r o, (k.runs).addr r o = k.addr r o) ∧
    (∀ f, (k.runs).opB f = k.opB f) ∧ (∀ f, (k.runs).irrAddr f = k.irrAddr f) ∧
    (∀ r, (k.runs).pairAddr r = k.pairAddr r) ∧ (∀ f, (k.runs).wordAddr f = k.wordAddr f) ∧
    (∀ r o, (k.runs).descAddr r o = k.descAddr r o) ∧ (k.runs).outstanding = k.outstanding ∧
    k.runs.view = k.view ∧ k.runs.viewIssue = k.viewIssue ∧ (∀ r, k.runs.stride r = k.stride r) ∧
    k.runs.opHead = k.opHead :=
  ⟨rfl, rfl, rfl, rfl, rfl, rfl, rfl, rfl, rfl, rfl, rfl, rfl, rfl, rfl, rfl, rfl, rfl, rfl, rfl, rfl, rfl, rfl, rfl, rfl,
   rfl, rfl, rfl, rfl, rfl, rfl, rfl, rfl, rfl, rfl, rfl, rfl, rfl, rfl, fun _ => rfl, fun _ _ => rfl,
   fun _ => rfl, fun _ => rfl, fun _ => rfl, fun _ => rfl, fun _ _ => rfl, rfl, rfl, rfl, fun _ => rfl, rfl⟩

@[simp] theorem Core.next_keeps (k : Core) :
    (k.next).st = k.st ∧ (k.next).waitId = k.waitId ∧ (k.next).waitN = k.waitN ∧ (k.next).g = k.g ∧
    (k.next).pair = k.pair ∧ (k.next).faultCode = k.faultCode ∧ (k.next).faultPc = k.faultPc ∧
    (k.next).faultSeq = k.faultSeq ∧ (k.next).endSeen = k.endSeen ∧ (k.next).askRd = k.askRd ∧
    (k.next).askAddr = k.askAddr ∧ (k.next).fence = k.fence ∧ (k.next).arrived = k.arrived ∧
    (k.next).ev = k.ev ∧ (k.next).evNew = k.evNew ∧
    (k.next).evTook = k.evTook ∧ (k.next).heldBy = k.heldBy ∧ (k.next).irr = k.irr ∧ (k.next).mq = k.mq ∧ (k.next).loading = k.loading ∧
    (k.next).loadTile = k.loadTile ∧ (k.next).buf0 = k.buf0 ∧ (k.next).buf1 = k.buf1 ∧
    (k.next).passes = k.passes ∧ (k.next).closing = k.closing ∧ (k.next).acc = k.acc ∧
    (k.next).groups = k.groups ∧ (k.next).opened = k.opened ∧ (k.next).ftq = k.ftq ∧ (k.next).vq = k.vq ∧
    (k.next).vrun = k.vrun ∧ (k.next).vl = k.vl ∧ (k.next).slots = k.slots ∧ (k.next).psets = k.psets ∧
    (k.next).draws = k.draws ∧ (k.next).estSeq = k.estSeq ∧ k.next.pc = k.pc + 8 ∧ k.next.seq = k.seq + 1 ∧
    (∀ r, (k.next).reg r = k.reg r) ∧ (∀ r o, (k.next).addr r o = k.addr r o) ∧
    (∀ f, (k.next).opB f = k.opB f) ∧ (∀ f, (k.next).irrAddr f = k.irrAddr f) ∧
    (∀ r, (k.next).pairAddr r = k.pairAddr r) ∧ (∀ f, (k.next).wordAddr f = k.wordAddr f) ∧
    (∀ r o, (k.next).descAddr r o = k.descAddr r o) ∧ (k.next).outstanding = k.outstanding :=
  ⟨rfl, rfl, rfl, rfl, rfl, rfl, rfl, rfl, rfl, rfl, rfl, rfl, rfl, rfl, rfl, rfl, rfl, rfl, rfl, rfl, rfl, rfl, rfl, rfl,
   rfl, rfl, rfl, rfl, rfl, rfl, rfl, rfl, rfl, rfl, rfl, rfl, rfl, rfl, fun _ => rfl, fun _ _ => rfl,
   fun _ => rfl, fun _ => rfl, fun _ => rfl, fun _ => rfl, fun _ _ => rfl, rfl⟩

@[simp] theorem Core.stall_keeps (k : Core) :
    (k.stall).waitId = k.waitId ∧ (k.stall).waitN = k.waitN ∧ (k.stall).pc = k.pc ∧ (k.stall).g = k.g ∧
    (k.stall).pair = k.pair ∧ (k.stall).seq = k.seq ∧ (k.stall).faultCode = k.faultCode ∧
    (k.stall).faultPc = k.faultPc ∧ (k.stall).faultSeq = k.faultSeq ∧ (k.stall).endSeen = k.endSeen ∧
    (k.stall).askRd = k.askRd ∧ (k.stall).askAddr = k.askAddr ∧ (k.stall).fence = k.fence ∧
    (k.stall).arrived = k.arrived ∧ (k.stall).ev = k.ev ∧ (k.stall).evNew = k.evNew ∧
    (k.stall).evTook = k.evTook ∧ (k.stall).irr = k.irr ∧ (k.stall).mq = k.mq ∧
    (k.stall).loading = k.loading ∧ (k.stall).loadTile = k.loadTile ∧ (k.stall).buf0 = k.buf0 ∧
    (k.stall).buf1 = k.buf1 ∧ (k.stall).passes = k.passes ∧ (k.stall).closing = k.closing ∧
    (k.stall).acc = k.acc ∧ (k.stall).groups = k.groups ∧ (k.stall).opened = k.opened ∧ (k.stall).ftq = k.ftq ∧
    (k.stall).vq = k.vq ∧ (k.stall).vrun = k.vrun ∧ (k.stall).vl = k.vl ∧ (k.stall).slots = k.slots ∧
    (k.stall).psets = k.psets ∧ (k.stall).draws = k.draws ∧ (k.stall).estSeq = k.estSeq ∧
    k.stall.st = .stalled :=
  ⟨rfl, rfl, rfl, rfl, rfl, rfl, rfl, rfl, rfl, rfl, rfl, rfl, rfl, rfl, rfl, rfl, rfl, rfl, rfl, rfl, rfl, rfl, rfl,
   rfl, rfl, rfl, rfl, rfl, rfl, rfl, rfl, rfl, rfl, rfl, rfl, rfl, rfl⟩

/-- What a ready core's instruction may rely on. -/
theorem ready_iff {p : Part} {c : Nat} {l : List Nat} (h : p.ready c l = true) :
    p.mayIssue c = true ∧ ¬ p.codeEnd c ≤ (p.core c).pc ∧ l.any (p.core c).awaits = false := by
  simpa [Part.ready, and_assoc] using h

/-- A ready core issues: the instruction acts on the running core. -/
theorem issue_ready {p : Part} {c : Nat} {l : List Nat} (h : p.ready c l = true) (f : Part → Part) :
    p.issue c l f = f (p.setCore c (p.core c).runs) := by
  obtain ⟨h1, h2, h3⟩ := ready_iff h
  simp only [Part.issue, h1, h2, h3, Bool.not_true, Bool.false_eq_true, if_false]; rfl

theorem onlyCore_set (p : Part) (c : Nat) (x y : Core) : OnlyCore p ((p.setCore c x).setCore c y) c :=
  ⟨rfl, fun d hd => by simp [Ne.symm hd]⟩

/-- A core set twice goes on when the second is what `f` makes of the core. -/
theorem movesOn_set (p : Part) (c : Nat) (x y : Core) (f : Core → Core) (h : y = f (p.core c).runs.next) :
    MovesOn p ((p.setCore c x).setCore c y) c f :=
  ⟨onlyCore_set p c x y, by simp [h]⟩

theorem Core.setReg_mod (k : Core) (r v : Nat) : k.setReg r (v % 2 ^ 32) = k.setReg r v := by
  have : BitVec.ofNat 32 (v % 2 ^ 32) = BitVec.ofNat 32 v := by apply BitVec.eq_of_toNat_eq; simp
  simp only [Core.setReg, this]

/-- A core with a new program counter and a register written runs there. -/
theorem runsAt_set (p : Part) (c pc rd v : Nat) :
    RunsAt p ((p.setCore c (p.core c).runs).setCore c { ((p.core c).runs.setReg rd v).next with pc := pc }) c pc rd (v % 2 ^ 32) := by
  refine ⟨onlyCore_set p c _ _, ?_, ?_, ?_⟩
  · simp only [Part.core_setCore, if_true]
    show (Core.setReg _ rd v).reg rd = _
    rw [Core.reg_setReg]; by_cases h : rd = 0 <;> simp [h]
  · intro r hr; simp only [Part.core_setCore, if_true]
    show (Core.setReg _ rd v).reg r = _
    rw [Core.reg_setReg, if_neg (by tauto)]; rfl
  · simp only [Part.core_setCore, if_true]
    rw [Core.setReg_keeps]; rfl

/-- A register written at the next instruction. -/
theorem retires_set (p : Part) (c rd v : Nat) :
    Retires p ((p.setCore c (p.core c).runs).setCore c ((p.core c).runs.setReg rd v).next) c rd (v % 2 ^ 32) := by
  have h := runsAt_set p c ((p.core c).pc + 8) rd v
  have e : { ((p.core c).runs.setReg rd v).next with pc := (p.core c).pc + 8 } = ((p.core c).runs.setReg rd v).next := by
    rw [Core.setReg_keeps]; rfl
  rwa [e] at h

theorem opB_eq (k : Core) (f : FmtA) : BitVec.ofNat 32 (k.opB f) = if f.i = 1 then f.imm else BitVec.ofNat 32 (k.reg f.rb.toNat) := by
  unfold Core.opB; split <;> simp

/-- What a scalar instruction of format A does on a ready core (R115). -/
theorem alu_ready (p : Part) (c : Nat) (f : FmtA) (op : Word → Word → Word) (h : p.ready c (f.rd.toNat :: f.sources) = true) :
    Retires p (p.alu c f op) c f.rd.toNat
      (op (BitVec.ofNat 32 ((p.core c).reg f.ra.toNat)) (if f.i = 1 then f.imm else BitVec.ofNat 32 ((p.core c).reg f.rb.toNat))).toNat := by
  unfold Part.alu
  rw [issue_ready h]
  have := retires_set p c f.rd.toNat
    (op (BitVec.ofNat 32 ((p.core c).reg f.ra.toNat)) (if f.i = 1 then f.imm else BitVec.ofNat 32 ((p.core c).reg f.rb.toNat))).toNat
  rw [Nat.mod_eq_of_lt (BitVec.isLt _)] at this
  simp only [Part.modCore_eq, Part.core_setCore, if_true, Core.runs_keeps, opB_eq]
  exact this

theorem bits5 (b : Word) : (b.extractLsb' 0 5).toNat = b.toNat % 32 := by simp [BitVec.extractLsb'_toNat]

end Sys2Proof.Machine
end

