-- ==== Sys2Proof/Laws/Ops.lean ====
section
/-!
SUPPORT. The laws of the shared operations: every part of the state that each of them leaves alone.
-/
namespace Sys2Proof.Machine

@[simp] theorem Part.putF_keeps (p : Part) (o lo w v : Nat) :
    (p.putF o lo w v).cycle = p.cycle ∧ (p.putF o lo w v).free = p.free ∧ (p.putF o lo w v).big = p.big ∧
    (p.putF o lo w v).cores = p.cores ∧ (p.putF o lo w v).sched = p.sched ∧ (p.putF o lo w v).units = p.units ∧
    (p.putF o lo w v).press = p.press ∧ (p.putF o lo w v).optim = p.optim ∧ (p.putF o lo w v).mem = p.mem ∧
    (p.putF o lo w v).mctl = p.mctl ∧ (p.putF o lo w v).rack = p.rack ∧ (p.putF o lo w v).tick = p.tick ∧
    (p.putF o lo w v).txn = p.txn ∧ (p.putF o lo w v).obs = p.obs ∧ (p.putF o lo w v).fab = p.fab ∧
    (p.putF o lo w v).buckets = p.buckets ∧ (p.putF o lo w v).twin = p.twin ∧ (p.putF o lo w v).hif = p.hif ∧
    (p.putF o lo w v).mgt = p.mgt ∧ (p.putF o lo w v).power = p.power ∧
    (∀ j, (p.putF o lo w v).core j = p.core j) ∧ (∀ j, (p.putF o lo w v).sch j = p.sch j) ∧
    (∀ j, (p.putF o lo w v).unit j = p.unit j) ∧ (∀ j, (p.putF o lo w v).prs j = p.prs j) ∧
    (∀ j, (p.putF o lo w v).opt j = p.opt j) ∧ (∀ j, (p.putF o lo w v).ctl j = p.ctl j) ∧
    (∀ j, (p.putF o lo w v).rck j = p.rck j) ∧ (∀ j, (p.putF o lo w v).bkt j = p.bkt j) := by
  simp [Part.putF]

@[simp] theorem Part.putB_keeps (p : Part) (o i : Nat) (b : Bool) :
    (p.putB o i b).cycle = p.cycle ∧ (p.putB o i b).free = p.free ∧ (p.putB o i b).big = p.big ∧
    (p.putB o i b).cores = p.cores ∧ (p.putB o i b).sched = p.sched ∧ (p.putB o i b).units = p.units ∧
    (p.putB o i b).press = p.press ∧ (p.putB o i b).optim = p.optim ∧ (p.putB o i b).mem = p.mem ∧
    (p.putB o i b).mctl = p.mctl ∧ (p.putB o i b).rack = p.rack ∧ (p.putB o i b).tick = p.tick ∧
    (p.putB o i b).txn = p.txn ∧ (p.putB o i b).obs = p.obs ∧ (p.putB o i b).fab = p.fab ∧
    (p.putB o i b).buckets = p.buckets ∧ (p.putB o i b).twin = p.twin ∧ (p.putB o i b).hif = p.hif ∧
    (p.putB o i b).mgt = p.mgt ∧ (p.putB o i b).power = p.power ∧ (∀ j, (p.putB o i b).core j = p.core j) ∧
    (∀ j, (p.putB o i b).sch j = p.sch j) ∧ (∀ j, (p.putB o i b).unit j = p.unit j) ∧
    (∀ j, (p.putB o i b).prs j = p.prs j) ∧ (∀ j, (p.putB o i b).opt j = p.opt j) ∧
    (∀ j, (p.putB o i b).ctl j = p.ctl j) ∧ (∀ j, (p.putB o i b).rck j = p.rck j) ∧
    (∀ j, (p.putB o i b).bkt j = p.bkt j) := by
  simp [Part.putB]

@[simp] theorem Part.bump_keeps (p : Part) (o k : Nat) :
    (p.bump o k).cycle = p.cycle ∧ (p.bump o k).free = p.free ∧ (p.bump o k).big = p.big ∧
    (p.bump o k).cores = p.cores ∧ (p.bump o k).sched = p.sched ∧ (p.bump o k).units = p.units ∧
    (p.bump o k).press = p.press ∧ (p.bump o k).optim = p.optim ∧ (p.bump o k).mem = p.mem ∧
    (p.bump o k).mctl = p.mctl ∧ (p.bump o k).rack = p.rack ∧ (p.bump o k).tick = p.tick ∧
    (p.bump o k).txn = p.txn ∧ (p.bump o k).obs = p.obs ∧ (p.bump o k).fab = p.fab ∧
    (p.bump o k).buckets = p.buckets ∧ (p.bump o k).twin = p.twin ∧ (p.bump o k).hif = p.hif ∧
    (p.bump o k).mgt = p.mgt ∧ (p.bump o k).power = p.power ∧ (∀ j, (p.bump o k).core j = p.core j) ∧
    (∀ j, (p.bump o k).sch j = p.sch j) ∧ (∀ j, (p.bump o k).unit j = p.unit j) ∧
    (∀ j, (p.bump o k).prs j = p.prs j) ∧ (∀ j, (p.bump o k).opt j = p.opt j) ∧
    (∀ j, (p.bump o k).ctl j = p.ctl j) ∧ (∀ j, (p.bump o k).rck j = p.rck j) ∧
    (∀ j, (p.bump o k).bkt j = p.bkt j) := by
  simp [Part.bump]

@[simp] theorem Part.bump32_keeps (p : Part) (o k : Nat) :
    (p.bump32 o k).cycle = p.cycle ∧ (p.bump32 o k).free = p.free ∧ (p.bump32 o k).big = p.big ∧
    (p.bump32 o k).cores = p.cores ∧ (p.bump32 o k).sched = p.sched ∧ (p.bump32 o k).units = p.units ∧
    (p.bump32 o k).press = p.press ∧ (p.bump32 o k).optim = p.optim ∧ (p.bump32 o k).mem = p.mem ∧
    (p.bump32 o k).mctl = p.mctl ∧ (p.bump32 o k).rack = p.rack ∧ (p.bump32 o k).tick = p.tick ∧
    (p.bump32 o k).txn = p.txn ∧ (p.bump32 o k).obs = p.obs ∧ (p.bump32 o k).fab = p.fab ∧
    (p.bump32 o k).buckets = p.buckets ∧ (p.bump32 o k).twin = p.twin ∧ (p.bump32 o k).hif = p.hif ∧
    (p.bump32 o k).mgt = p.mgt ∧ (p.bump32 o k).power = p.power ∧ (∀ j, (p.bump32 o k).core j = p.core j) ∧
    (∀ j, (p.bump32 o k).sch j = p.sch j) ∧ (∀ j, (p.bump32 o k).unit j = p.unit j) ∧
    (∀ j, (p.bump32 o k).prs j = p.prs j) ∧ (∀ j, (p.bump32 o k).opt j = p.opt j) ∧
    (∀ j, (p.bump32 o k).ctl j = p.ctl j) ∧ (∀ j, (p.bump32 o k).rck j = p.rck j) ∧
    (∀ j, (p.bump32 o k).bkt j = p.bkt j) := by
  simp [Part.bump32]

@[simp] theorem Part.peak_keeps (p : Part) (o k : Nat) :
    (p.peak o k).cycle = p.cycle ∧ (p.peak o k).free = p.free ∧ (p.peak o k).big = p.big ∧
    (p.peak o k).cores = p.cores ∧ (p.peak o k).sched = p.sched ∧ (p.peak o k).units = p.units ∧
    (p.peak o k).press = p.press ∧ (p.peak o k).optim = p.optim ∧ (p.peak o k).mem = p.mem ∧
    (p.peak o k).mctl = p.mctl ∧ (p.peak o k).rack = p.rack ∧ (p.peak o k).tick = p.tick ∧
    (p.peak o k).txn = p.txn ∧ (p.peak o k).obs = p.obs ∧ (p.peak o k).fab = p.fab ∧
    (p.peak o k).buckets = p.buckets ∧ (p.peak o k).twin = p.twin ∧ (p.peak o k).hif = p.hif ∧
    (p.peak o k).mgt = p.mgt ∧ (p.peak o k).power = p.power ∧ (∀ j, (p.peak o k).core j = p.core j) ∧
    (∀ j, (p.peak o k).sch j = p.sch j) ∧ (∀ j, (p.peak o k).unit j = p.unit j) ∧
    (∀ j, (p.peak o k).prs j = p.prs j) ∧ (∀ j, (p.peak o k).opt j = p.opt j) ∧
    (∀ j, (p.peak o k).ctl j = p.ctl j) ∧ (∀ j, (p.peak o k).rck j = p.rck j) ∧
    (∀ j, (p.peak o k).bkt j = p.bkt j) := by
  unfold Part.peak; split <;> simp

@[simp] theorem Part.stick_keeps (p : Part) (o i : Nat) :
    (p.stick o i).cycle = p.cycle ∧ (p.stick o i).free = p.free ∧ (p.stick o i).big = p.big ∧
    (p.stick o i).cores = p.cores ∧ (p.stick o i).sched = p.sched ∧ (p.stick o i).units = p.units ∧
    (p.stick o i).press = p.press ∧ (p.stick o i).optim = p.optim ∧ (p.stick o i).mem = p.mem ∧
    (p.stick o i).mctl = p.mctl ∧ (p.stick o i).rack = p.rack ∧ (p.stick o i).tick = p.tick ∧
    (p.stick o i).txn = p.txn ∧ (p.stick o i).obs = p.obs ∧ (p.stick o i).fab = p.fab ∧
    (p.stick o i).buckets = p.buckets ∧ (p.stick o i).twin = p.twin ∧ (p.stick o i).hif = p.hif ∧
    (p.stick o i).mgt = p.mgt ∧ (p.stick o i).power = p.power ∧ (∀ j, (p.stick o i).core j = p.core j) ∧
    (∀ j, (p.stick o i).sch j = p.sch j) ∧ (∀ j, (p.stick o i).unit j = p.unit j) ∧
    (∀ j, (p.stick o i).prs j = p.prs j) ∧ (∀ j, (p.stick o i).opt j = p.opt j) ∧
    (∀ j, (p.stick o i).ctl j = p.ctl j) ∧ (∀ j, (p.stick o i).rck j = p.rck j) ∧
    (∀ j, (p.stick o i).bkt j = p.bkt j) := by
  simp [Part.stick]

@[simp] theorem Part.trace_keeps (p : Part) (b kind pair core a v : Nat) :
    (p.trace b kind pair core a v).cycle = p.cycle ∧ (p.trace b kind pair core a v).free = p.free ∧
    (p.trace b kind pair core a v).big = p.big ∧ (p.trace b kind pair core a v).cores = p.cores ∧
    (p.trace b kind pair core a v).sched = p.sched ∧ (p.trace b kind pair core a v).units = p.units ∧
    (p.trace b kind pair core a v).press = p.press ∧ (p.trace b kind pair core a v).optim = p.optim ∧
    (p.trace b kind pair core a v).mem = p.mem ∧ (p.trace b kind pair core a v).mctl = p.mctl ∧
    (p.trace b kind pair core a v).rack = p.rack ∧ (p.trace b kind pair core a v).tick = p.tick ∧
    (p.trace b kind pair core a v).txn = p.txn ∧ (p.trace b kind pair core a v).fab = p.fab ∧
    (p.trace b kind pair core a v).buckets = p.buckets ∧ (p.trace b kind pair core a v).twin = p.twin ∧
    (p.trace b kind pair core a v).hif = p.hif ∧ (p.trace b kind pair core a v).mgt = p.mgt ∧
    (p.trace b kind pair core a v).power = p.power ∧ (∀ j, (p.trace b kind pair core a v).core j = p.core j) ∧
    (∀ j, (p.trace b kind pair core a v).sch j = p.sch j) ∧
    (∀ j, (p.trace b kind pair core a v).unit j = p.unit j) ∧
    (∀ j, (p.trace b kind pair core a v).prs j = p.prs j) ∧
    (∀ j, (p.trace b kind pair core a v).opt j = p.opt j) ∧
    (∀ j, (p.trace b kind pair core a v).ctl j = p.ctl j) ∧
    (∀ j, (p.trace b kind pair core a v).rck j = p.rck j) ∧
    (∀ j, (p.trace b kind pair core a v).bkt j = p.bkt j) := by
  unfold Part.trace; dsimp only; repeat' split
  all_goals simp

@[simp] theorem Part.flood_keeps (p : Part) (e : Option Nat) (corr : Nat) (m : CtlMsg) :
    (p.flood e corr m).cycle = p.cycle ∧ (p.flood e corr m).free = p.free ∧ (p.flood e corr m).big = p.big ∧
    (p.flood e corr m).regs = p.regs ∧ (p.flood e corr m).cores = p.cores ∧ (p.flood e corr m).sched = p.sched ∧
    (p.flood e corr m).units = p.units ∧ (p.flood e corr m).press = p.press ∧ (p.flood e corr m).optim = p.optim ∧
    (p.flood e corr m).mem = p.mem ∧ (p.flood e corr m).mctl = p.mctl ∧ (p.flood e corr m).rack = p.rack ∧
    (p.flood e corr m).tick = p.tick ∧ (p.flood e corr m).txn = p.txn ∧ (p.flood e corr m).obs = p.obs ∧
    (p.flood e corr m).buckets = p.buckets ∧ (p.flood e corr m).twin = p.twin ∧ (p.flood e corr m).hif = p.hif ∧
    (p.flood e corr m).mgt = p.mgt ∧ (p.flood e corr m).power = p.power ∧ (∀ j, (p.flood e corr m).rd j = p.rd j) ∧
    (∀ j, (p.flood e corr m).core j = p.core j) ∧ (∀ j, (p.flood e corr m).sch j = p.sch j) ∧
    (∀ j, (p.flood e corr m).unit j = p.unit j) ∧ (∀ j, (p.flood e corr m).prs j = p.prs j) ∧
    (∀ j, (p.flood e corr m).opt j = p.opt j) ∧ (∀ j, (p.flood e corr m).ctl j = p.ctl j) ∧
    (∀ j, (p.flood e corr m).rck j = p.rck j) ∧ (∀ j, (p.flood e corr m).bkt j = p.bkt j) := by
  simp [Part.flood]

@[simp] theorem Part.freezeFrom_keeps (p : Part) (n : Nat) (e : Option Nat) (corr : Nat) :
    (p.freezeFrom n e corr).cycle = p.cycle ∧ (p.freezeFrom n e corr).free = p.free ∧ (p.freezeFrom n e corr).big = p.big ∧
    (p.freezeFrom n e corr).cores = p.cores ∧ (p.freezeFrom n e corr).sched = p.sched ∧
    (p.freezeFrom n e corr).units = p.units ∧ (p.freezeFrom n e corr).press = p.press ∧
    (p.freezeFrom n e corr).optim = p.optim ∧ (p.freezeFrom n e corr).mem = p.mem ∧ (p.freezeFrom n e corr).mctl = p.mctl ∧
    (p.freezeFrom n e corr).rack = p.rack ∧ (p.freezeFrom n e corr).txn = p.txn ∧ (p.freezeFrom n e corr).buckets = p.buckets ∧
    (p.freezeFrom n e corr).twin = p.twin ∧ (p.freezeFrom n e corr).hif = p.hif ∧ (p.freezeFrom n e corr).mgt = p.mgt ∧
    (∀ j, (p.freezeFrom n e corr).core j = p.core j) ∧ (∀ j, (p.freezeFrom n e corr).sch j = p.sch j) ∧
    (∀ j, (p.freezeFrom n e corr).unit j = p.unit j) ∧ (∀ j, (p.freezeFrom n e corr).prs j = p.prs j) ∧
    (∀ j, (p.freezeFrom n e corr).opt j = p.opt j) ∧ (∀ j, (p.freezeFrom n e corr).ctl j = p.ctl j) ∧
    (∀ j, (p.freezeFrom n e corr).rck j = p.rck j) ∧ (∀ j, (p.freezeFrom n e corr).bkt j = p.bkt j) := by
  unfold Part.freezeFrom; dsimp only; repeat' split
  all_goals simp

@[simp] theorem Part.freeze_keeps (p : Part) (n : Nat) :
    (p.freeze n).cycle = p.cycle ∧ (p.freeze n).free = p.free ∧ (p.freeze n).big = p.big ∧
    (p.freeze n).cores = p.cores ∧ (p.freeze n).sched = p.sched ∧ (p.freeze n).units = p.units ∧
    (p.freeze n).press = p.press ∧ (p.freeze n).optim = p.optim ∧ (p.freeze n).mem = p.mem ∧
    (p.freeze n).mctl = p.mctl ∧ (p.freeze n).rack = p.rack ∧ (p.freeze n).txn = p.txn ∧
    (p.freeze n).buckets = p.buckets ∧ (p.freeze n).twin = p.twin ∧ (p.freeze n).hif = p.hif ∧
    (p.freeze n).mgt = p.mgt ∧ (∀ j, (p.freeze n).core j = p.core j) ∧ (∀ j, (p.freeze n).sch j = p.sch j) ∧
    (∀ j, (p.freeze n).unit j = p.unit j) ∧ (∀ j, (p.freeze n).prs j = p.prs j) ∧
    (∀ j, (p.freeze n).opt j = p.opt j) ∧ (∀ j, (p.freeze n).ctl j = p.ctl j) ∧
    (∀ j, (p.freeze n).rck j = p.rck j) ∧ (∀ j, (p.freeze n).bkt j = p.bkt j) := by
  simp [Part.freeze]

@[simp] theorem Part.err_keeps (p : Part) (e : ErrRec) :
    (p.err e).cycle = p.cycle ∧ (p.err e).free = p.free ∧ (p.err e).big = p.big ∧ (p.err e).cores = p.cores ∧
    (p.err e).sched = p.sched ∧ (p.err e).units = p.units ∧ (p.err e).press = p.press ∧
    (p.err e).optim = p.optim ∧ (p.err e).mem = p.mem ∧ (p.err e).mctl = p.mctl ∧ (p.err e).rack = p.rack ∧
    (p.err e).txn = p.txn ∧ (p.err e).buckets = p.buckets ∧ (p.err e).twin = p.twin ∧ (p.err e).hif = p.hif ∧
    (p.err e).mgt = p.mgt ∧ (∀ j, (p.err e).core j = p.core j) ∧ (∀ j, (p.err e).sch j = p.sch j) ∧
    (∀ j, (p.err e).unit j = p.unit j) ∧ (∀ j, (p.err e).prs j = p.prs j) ∧ (∀ j, (p.err e).opt j = p.opt j) ∧
    (∀ j, (p.err e).ctl j = p.ctl j) ∧ (∀ j, (p.err e).rck j = p.rck j) ∧ (∀ j, (p.err e).bkt j = p.bkt j) := by
  unfold Part.err; dsimp only; repeat' split
  all_goals simp

@[simp] theorem Part.noteErr_keeps (p : Part) (o i : Nat) (e : ErrRec) :
    (p.noteErr o i e).cycle = p.cycle ∧ (p.noteErr o i e).free = p.free ∧ (p.noteErr o i e).big = p.big ∧
    (p.noteErr o i e).cores = p.cores ∧ (p.noteErr o i e).sched = p.sched ∧ (p.noteErr o i e).units = p.units ∧
    (p.noteErr o i e).press = p.press ∧ (p.noteErr o i e).optim = p.optim ∧ (p.noteErr o i e).mem = p.mem ∧
    (p.noteErr o i e).mctl = p.mctl ∧ (p.noteErr o i e).rack = p.rack ∧ (p.noteErr o i e).txn = p.txn ∧
    (p.noteErr o i e).buckets = p.buckets ∧ (p.noteErr o i e).twin = p.twin ∧ (p.noteErr o i e).hif = p.hif ∧
    (p.noteErr o i e).mgt = p.mgt ∧ (∀ j, (p.noteErr o i e).core j = p.core j) ∧
    (∀ j, (p.noteErr o i e).sch j = p.sch j) ∧ (∀ j, (p.noteErr o i e).unit j = p.unit j) ∧
    (∀ j, (p.noteErr o i e).prs j = p.prs j) ∧ (∀ j, (p.noteErr o i e).opt j = p.opt j) ∧
    (∀ j, (p.noteErr o i e).ctl j = p.ctl j) ∧ (∀ j, (p.noteErr o i e).rck j = p.rck j) ∧
    (∀ j, (p.noteErr o i e).bkt j = p.bkt j) := by
  simp [Part.noteErr]

@[simp] theorem Part.addPair_keeps (p : Part) (n : Nat) (f : PairAcc → PairAcc) :
    (p.addPair n f).cycle = p.cycle ∧ (p.addPair n f).free = p.free ∧ (p.addPair n f).big = p.big ∧
    (p.addPair n f).regs = p.regs ∧ (p.addPair n f).cores = p.cores ∧ (p.addPair n f).sched = p.sched ∧
    (p.addPair n f).units = p.units ∧ (p.addPair n f).press = p.press ∧ (p.addPair n f).optim = p.optim ∧
    (p.addPair n f).mem = p.mem ∧ (p.addPair n f).mctl = p.mctl ∧ (p.addPair n f).rack = p.rack ∧
    (p.addPair n f).tick = p.tick ∧ (p.addPair n f).txn = p.txn ∧ (p.addPair n f).fab = p.fab ∧
    (p.addPair n f).buckets = p.buckets ∧ (p.addPair n f).twin = p.twin ∧ (p.addPair n f).hif = p.hif ∧
    (p.addPair n f).mgt = p.mgt ∧ (p.addPair n f).power = p.power ∧ (∀ j, (p.addPair n f).rd j = p.rd j) ∧
    (∀ j, (p.addPair n f).core j = p.core j) ∧ (∀ j, (p.addPair n f).sch j = p.sch j) ∧
    (∀ j, (p.addPair n f).unit j = p.unit j) ∧ (∀ j, (p.addPair n f).prs j = p.prs j) ∧
    (∀ j, (p.addPair n f).opt j = p.opt j) ∧ (∀ j, (p.addPair n f).ctl j = p.ctl j) ∧
    (∀ j, (p.addPair n f).rck j = p.rck j) ∧ (∀ j, (p.addPair n f).bkt j = p.bkt j) := by
  simp [Part.addPair]

@[simp] theorem Part.sendPacket_keeps (p : Part) (dst cls kind ref poison : Nat) (bs : List Byte) :
    (p.sendPacket dst cls kind ref poison bs).cycle = p.cycle ∧
    (p.sendPacket dst cls kind ref poison bs).free = p.free ∧
    (p.sendPacket dst cls kind ref poison bs).big = p.big ∧
    (p.sendPacket dst cls kind ref poison bs).regs = p.regs ∧
    (p.sendPacket dst cls kind ref poison bs).cores = p.cores ∧
    (p.sendPacket dst cls kind ref poison bs).sched = p.sched ∧
    (p.sendPacket dst cls kind ref poison bs).units = p.units ∧
    (p.sendPacket dst cls kind ref poison bs).press = p.press ∧
    (p.sendPacket dst cls kind ref poison bs).optim = p.optim ∧
    (p.sendPacket dst cls kind ref poison bs).mem = p.mem ∧
    (p.sendPacket dst cls kind ref poison bs).mctl = p.mctl ∧
    (p.sendPacket dst cls kind ref poison bs).rack = p.rack ∧
    (p.sendPacket dst cls kind ref poison bs).tick = p.tick ∧
    (p.sendPacket dst cls kind ref poison bs).txn = p.txn ∧
    (p.sendPacket dst cls kind ref poison bs).obs = p.obs ∧
    (p.sendPacket dst cls kind ref poison bs).buckets = p.buckets ∧
    (p.sendPacket dst cls kind ref poison bs).twin = p.twin ∧
    (p.sendPacket dst cls kind ref poison bs).hif = p.hif ∧
    (p.sendPacket dst cls kind ref poison bs).mgt = p.mgt ∧
    (p.sendPacket dst cls kind ref poison bs).power = p.power ∧
    (∀ j, (p.sendPacket dst cls kind ref poison bs).rd j = p.rd j) ∧
    (∀ j, (p.sendPacket dst cls kind ref poison bs).core j = p.core j) ∧
    (∀ j, (p.sendPacket dst cls kind ref poison bs).sch j = p.sch j) ∧
    (∀ j, (p.sendPacket dst cls kind ref poison bs).unit j = p.unit j) ∧
    (∀ j, (p.sendPacket dst cls kind ref poison bs).prs j = p.prs j) ∧
    (∀ j, (p.sendPacket dst cls kind ref poison bs).opt j = p.opt j) ∧
    (∀ j, (p.sendPacket dst cls kind ref poison bs).ctl j = p.ctl j) ∧
    (∀ j, (p.sendPacket dst cls kind ref poison bs).rck j = p.rck j) ∧
    (∀ j, (p.sendPacket dst cls kind ref poison bs).bkt j = p.bkt j) := by
  simp [Part.sendPacket]

@[simp] theorem Part.sentFor_keeps (p : Part) (pair n : Nat) :
    (p.sentFor pair n).cycle = p.cycle ∧ (p.sentFor pair n).free = p.free ∧ (p.sentFor pair n).big = p.big ∧
    (p.sentFor pair n).regs = p.regs ∧ (p.sentFor pair n).cores = p.cores ∧ (p.sentFor pair n).sched = p.sched ∧
    (p.sentFor pair n).units = p.units ∧ (p.sentFor pair n).press = p.press ∧
    (p.sentFor pair n).optim = p.optim ∧ (p.sentFor pair n).mem = p.mem ∧ (p.sentFor pair n).mctl = p.mctl ∧
    (p.sentFor pair n).rack = p.rack ∧ (p.sentFor pair n).tick = p.tick ∧ (p.sentFor pair n).txn = p.txn ∧
    (p.sentFor pair n).fab = p.fab ∧ (p.sentFor pair n).buckets = p.buckets ∧ (p.sentFor pair n).twin = p.twin ∧
    (p.sentFor pair n).hif = p.hif ∧ (p.sentFor pair n).mgt = p.mgt ∧ (p.sentFor pair n).power = p.power ∧
    (∀ j, (p.sentFor pair n).rd j = p.rd j) ∧ (∀ j, (p.sentFor pair n).core j = p.core j) ∧
    (∀ j, (p.sentFor pair n).sch j = p.sch j) ∧ (∀ j, (p.sentFor pair n).unit j = p.unit j) ∧
    (∀ j, (p.sentFor pair n).prs j = p.prs j) ∧ (∀ j, (p.sentFor pair n).opt j = p.opt j) ∧
    (∀ j, (p.sentFor pair n).ctl j = p.ctl j) ∧ (∀ j, (p.sentFor pair n).rck j = p.rck j) ∧
    (∀ j, (p.sentFor pair n).bkt j = p.bkt j) := by
  simp [Part.sentFor]

@[simp] theorem Part.takeRx_keeps (p : Part) (q : Packet) :
    (p.takeRx q).cycle = p.cycle ∧ (p.takeRx q).free = p.free ∧ (p.takeRx q).big = p.big ∧
    (p.takeRx q).regs = p.regs ∧ (p.takeRx q).cores = p.cores ∧ (p.takeRx q).sched = p.sched ∧
    (p.takeRx q).units = p.units ∧ (p.takeRx q).press = p.press ∧ (p.takeRx q).optim = p.optim ∧
    (p.takeRx q).mem = p.mem ∧ (p.takeRx q).mctl = p.mctl ∧ (p.takeRx q).rack = p.rack ∧
    (p.takeRx q).tick = p.tick ∧ (p.takeRx q).txn = p.txn ∧ (p.takeRx q).obs = p.obs ∧
    (p.takeRx q).buckets = p.buckets ∧ (p.takeRx q).twin = p.twin ∧ (p.takeRx q).hif = p.hif ∧
    (p.takeRx q).mgt = p.mgt ∧ (p.takeRx q).power = p.power ∧ (∀ j, (p.takeRx q).rd j = p.rd j) ∧
    (∀ j, (p.takeRx q).core j = p.core j) ∧ (∀ j, (p.takeRx q).sch j = p.sch j) ∧
    (∀ j, (p.takeRx q).unit j = p.unit j) ∧ (∀ j, (p.takeRx q).prs j = p.prs j) ∧
    (∀ j, (p.takeRx q).opt j = p.opt j) ∧ (∀ j, (p.takeRx q).ctl j = p.ctl j) ∧
    (∀ j, (p.takeRx q).rck j = p.rck j) ∧ (∀ j, (p.takeRx q).bkt j = p.bkt j) := by
  simp [Part.takeRx]

/-- What a fold keeps, for each field and accessor. -/
theorem Part.each_get {α β : Type} (get : Part → β) (f : Part → α → Part) (l : List α) (p : Part) (h : ∀ p x, get (f p x) = get p) :
    get (p.each l f) = get p := Part.each_keeps get f h l p

@[simp] theorem Part.toMasters_keeps (p : Part) (kind ref : Nat) (bs : List Byte) :
    (p.toMasters kind ref bs).cycle = p.cycle ∧ (p.toMasters kind ref bs).free = p.free ∧
    (p.toMasters kind ref bs).big = p.big ∧ (p.toMasters kind ref bs).regs = p.regs ∧
    (p.toMasters kind ref bs).cores = p.cores ∧ (p.toMasters kind ref bs).sched = p.sched ∧
    (p.toMasters kind ref bs).units = p.units ∧ (p.toMasters kind ref bs).press = p.press ∧
    (p.toMasters kind ref bs).optim = p.optim ∧ (p.toMasters kind ref bs).mem = p.mem ∧
    (p.toMasters kind ref bs).mctl = p.mctl ∧ (p.toMasters kind ref bs).rack = p.rack ∧
    (p.toMasters kind ref bs).tick = p.tick ∧ (p.toMasters kind ref bs).txn = p.txn ∧
    (p.toMasters kind ref bs).obs = p.obs ∧ (p.toMasters kind ref bs).buckets = p.buckets ∧
    (p.toMasters kind ref bs).twin = p.twin ∧ (p.toMasters kind ref bs).hif = p.hif ∧
    (p.toMasters kind ref bs).mgt = p.mgt ∧ (p.toMasters kind ref bs).power = p.power ∧
    (∀ j, (p.toMasters kind ref bs).rd j = p.rd j) ∧ (∀ j, (p.toMasters kind ref bs).core j = p.core j) ∧
    (∀ j, (p.toMasters kind ref bs).sch j = p.sch j) ∧ (∀ j, (p.toMasters kind ref bs).unit j = p.unit j) ∧
    (∀ j, (p.toMasters kind ref bs).prs j = p.prs j) ∧ (∀ j, (p.toMasters kind ref bs).opt j = p.opt j) ∧
    (∀ j, (p.toMasters kind ref bs).ctl j = p.ctl j) ∧ (∀ j, (p.toMasters kind ref bs).rck j = p.rck j) ∧
    (∀ j, (p.toMasters kind ref bs).bkt j = p.bkt j) := by
  unfold Part.toMasters
  refine ⟨by rw [Part.each_get Part.cycle _ _ _ (by intros; simp)],
    by rw [Part.each_get Part.free _ _ _ (by intros; simp)],
    by rw [Part.each_get Part.big _ _ _ (by intros; simp)],
    by rw [Part.each_get Part.regs _ _ _ (by intros; simp)],
    by rw [Part.each_get Part.cores _ _ _ (by intros; simp)],
    by rw [Part.each_get Part.sched _ _ _ (by intros; simp)],
    by rw [Part.each_get Part.units _ _ _ (by intros; simp)],
    by rw [Part.each_get Part.press _ _ _ (by intros; simp)],
    by rw [Part.each_get Part.optim _ _ _ (by intros; simp)],
    by rw [Part.each_get Part.mem _ _ _ (by intros; simp)],
    by rw [Part.each_get Part.mctl _ _ _ (by intros; simp)],
    by rw [Part.each_get Part.rack _ _ _ (by intros; simp)],
    by rw [Part.each_get Part.tick _ _ _ (by intros; simp)],
    by rw [Part.each_get Part.txn _ _ _ (by intros; simp)],
    by rw [Part.each_get Part.obs _ _ _ (by intros; simp)],
    by rw [Part.each_get Part.buckets _ _ _ (by intros; simp)],
    by rw [Part.each_get Part.twin _ _ _ (by intros; simp)],
    by rw [Part.each_get Part.hif _ _ _ (by intros; simp)],
    by rw [Part.each_get Part.mgt _ _ _ (by intros; simp)],
    by rw [Part.each_get Part.power _ _ _ (by intros; simp)],
    fun j => by rw [Part.each_get (fun p => p.rd j) _ _ _ (by intros; simp)],
    fun j => by rw [Part.each_get (fun p => p.core j) _ _ _ (by intros; simp)],
    fun j => by rw [Part.each_get (fun p => p.sch j) _ _ _ (by intros; simp)],
    fun j => by rw [Part.each_get (fun p => p.unit j) _ _ _ (by intros; simp)],
    fun j => by rw [Part.each_get (fun p => p.prs j) _ _ _ (by intros; simp)],
    fun j => by rw [Part.each_get (fun p => p.opt j) _ _ _ (by intros; simp)],
    fun j => by rw [Part.each_get (fun p => p.ctl j) _ _ _ (by intros; simp)],
    fun j => by rw [Part.each_get (fun p => p.rck j) _ _ _ (by intros; simp)],
    fun j => by rw [Part.each_get (fun p => p.bkt j) _ _ _ (by intros; simp)]⟩

@[simp] theorem Part.sendStatus_keeps (p : Part) (b : Bool) (c : Nat) :
    (p.sendStatus b c).cycle = p.cycle ∧ (p.sendStatus b c).free = p.free ∧ (p.sendStatus b c).big = p.big ∧
    (p.sendStatus b c).regs = p.regs ∧ (p.sendStatus b c).cores = p.cores ∧ (p.sendStatus b c).sched = p.sched ∧
    (p.sendStatus b c).units = p.units ∧ (p.sendStatus b c).press = p.press ∧
    (p.sendStatus b c).optim = p.optim ∧ (p.sendStatus b c).mem = p.mem ∧ (p.sendStatus b c).mctl = p.mctl ∧
    (p.sendStatus b c).rack = p.rack ∧ (p.sendStatus b c).txn = p.txn ∧ (p.sendStatus b c).obs = p.obs ∧
    (p.sendStatus b c).buckets = p.buckets ∧ (p.sendStatus b c).twin = p.twin ∧ (p.sendStatus b c).hif = p.hif ∧
    (p.sendStatus b c).mgt = p.mgt ∧ (p.sendStatus b c).power = p.power ∧
    (∀ j, (p.sendStatus b c).rd j = p.rd j) ∧ (∀ j, (p.sendStatus b c).core j = p.core j) ∧
    (∀ j, (p.sendStatus b c).sch j = p.sch j) ∧ (∀ j, (p.sendStatus b c).unit j = p.unit j) ∧
    (∀ j, (p.sendStatus b c).prs j = p.prs j) ∧ (∀ j, (p.sendStatus b c).opt j = p.opt j) ∧
    (∀ j, (p.sendStatus b c).ctl j = p.ctl j) ∧ (∀ j, (p.sendStatus b c).rck j = p.rck j) ∧
    (∀ j, (p.sendStatus b c).bkt j = p.bkt j) := by
  simp [Part.sendStatus]

@[simp] theorem Part.failCause_keeps (p : Part) (c : Nat) :
    (p.failCause c).cycle = p.cycle ∧ (p.failCause c).free = p.free ∧ (p.failCause c).big = p.big ∧
    (p.failCause c).cores = p.cores ∧ (p.failCause c).sched = p.sched ∧ (p.failCause c).units = p.units ∧
    (p.failCause c).press = p.press ∧ (p.failCause c).optim = p.optim ∧ (p.failCause c).mem = p.mem ∧
    (p.failCause c).mctl = p.mctl ∧ (p.failCause c).rack = p.rack ∧ (p.failCause c).txn = p.txn ∧
    (p.failCause c).buckets = p.buckets ∧ (p.failCause c).twin = p.twin ∧ (p.failCause c).hif = p.hif ∧
    (p.failCause c).mgt = p.mgt ∧ (∀ j, (p.failCause c).core j = p.core j) ∧
    (∀ j, (p.failCause c).sch j = p.sch j) ∧ (∀ j, (p.failCause c).unit j = p.unit j) ∧
    (∀ j, (p.failCause c).prs j = p.prs j) ∧ (∀ j, (p.failCause c).opt j = p.opt j) ∧
    (∀ j, (p.failCause c).ctl j = p.ctl j) ∧ (∀ j, (p.failCause c).rck j = p.rck j) ∧
    (∀ j, (p.failCause c).bkt j = p.bkt j) := by
  unfold Part.failCause; dsimp only; repeat' split
  all_goals simp

@[simp] theorem Part.events_keeps (p : Part) (o : Nat) (e : Events) :
    (p.events o e).cycle = p.cycle ∧ (p.events o e).free = p.free ∧ (p.events o e).big = p.big ∧
    (p.events o e).cores = p.cores ∧ (p.events o e).sched = p.sched ∧ (p.events o e).units = p.units ∧
    (p.events o e).press = p.press ∧ (p.events o e).optim = p.optim ∧ (p.events o e).mem = p.mem ∧
    (p.events o e).mctl = p.mctl ∧ (p.events o e).rack = p.rack ∧ (p.events o e).tick = p.tick ∧
    (p.events o e).txn = p.txn ∧ (p.events o e).obs = p.obs ∧ (p.events o e).fab = p.fab ∧
    (p.events o e).buckets = p.buckets ∧ (p.events o e).twin = p.twin ∧ (p.events o e).hif = p.hif ∧
    (p.events o e).mgt = p.mgt ∧ (p.events o e).power = p.power ∧ (∀ j, (p.events o e).core j = p.core j) ∧
    (∀ j, (p.events o e).sch j = p.sch j) ∧ (∀ j, (p.events o e).unit j = p.unit j) ∧
    (∀ j, (p.events o e).prs j = p.prs j) ∧ (∀ j, (p.events o e).opt j = p.opt j) ∧
    (∀ j, (p.events o e).ctl j = p.ctl j) ∧ (∀ j, (p.events o e).rck j = p.rck j) ∧
    (∀ j, (p.events o e).bkt j = p.bkt j) := by
  unfold Part.events; split <;> simp

@[simp] theorem Part.coreEvents_keeps (p : Part) (c : Nat) (e : Events) :
    (p.coreEvents c e).cycle = p.cycle ∧ (p.coreEvents c e).free = p.free ∧ (p.coreEvents c e).big = p.big ∧
    (p.coreEvents c e).cores = p.cores ∧ (p.coreEvents c e).sched = p.sched ∧
    (p.coreEvents c e).units = p.units ∧ (p.coreEvents c e).press = p.press ∧
    (p.coreEvents c e).optim = p.optim ∧ (p.coreEvents c e).mem = p.mem ∧ (p.coreEvents c e).mctl = p.mctl ∧
    (p.coreEvents c e).rack = p.rack ∧ (p.coreEvents c e).tick = p.tick ∧ (p.coreEvents c e).txn = p.txn ∧
    (p.coreEvents c e).obs = p.obs ∧ (p.coreEvents c e).fab = p.fab ∧ (p.coreEvents c e).buckets = p.buckets ∧
    (p.coreEvents c e).twin = p.twin ∧ (p.coreEvents c e).hif = p.hif ∧ (p.coreEvents c e).mgt = p.mgt ∧
    (p.coreEvents c e).power = p.power ∧ (∀ j, (p.coreEvents c e).core j = p.core j) ∧
    (∀ j, (p.coreEvents c e).sch j = p.sch j) ∧ (∀ j, (p.coreEvents c e).unit j = p.unit j) ∧
    (∀ j, (p.coreEvents c e).prs j = p.prs j) ∧ (∀ j, (p.coreEvents c e).opt j = p.opt j) ∧
    (∀ j, (p.coreEvents c e).ctl j = p.ctl j) ∧ (∀ j, (p.coreEvents c e).rck j = p.rck j) ∧
    (∀ j, (p.coreEvents c e).bkt j = p.bkt j) := by
  simp [Part.coreEvents]

@[simp] theorem Part.consume_keeps (p : Part) (s agent core pair token : Nat) :
    (p.consume s agent core pair token).cycle = p.cycle ∧ (p.consume s agent core pair token).free = p.free ∧
    (p.consume s agent core pair token).big = p.big ∧ (p.consume s agent core pair token).cores = p.cores ∧
    (p.consume s agent core pair token).sched = p.sched ∧ (p.consume s agent core pair token).units = p.units ∧
    (p.consume s agent core pair token).press = p.press ∧ (p.consume s agent core pair token).optim = p.optim ∧
    (p.consume s agent core pair token).mem = p.mem ∧ (p.consume s agent core pair token).mctl = p.mctl ∧
    (p.consume s agent core pair token).rack = p.rack ∧ (p.consume s agent core pair token).txn = p.txn ∧
    (p.consume s agent core pair token).buckets = p.buckets ∧
    (p.consume s agent core pair token).twin = p.twin ∧ (p.consume s agent core pair token).hif = p.hif ∧
    (p.consume s agent core pair token).mgt = p.mgt ∧
    (∀ j, (p.consume s agent core pair token).core j = p.core j) ∧
    (∀ j, (p.consume s agent core pair token).sch j = p.sch j) ∧
    (∀ j, (p.consume s agent core pair token).unit j = p.unit j) ∧
    (∀ j, (p.consume s agent core pair token).prs j = p.prs j) ∧
    (∀ j, (p.consume s agent core pair token).opt j = p.opt j) ∧
    (∀ j, (p.consume s agent core pair token).ctl j = p.ctl j) ∧
    (∀ j, (p.consume s agent core pair token).rck j = p.rck j) ∧
    (∀ j, (p.consume s agent core pair token).bkt j = p.bkt j) := by
  unfold Part.consume; dsimp only; split <;> simp

@[simp] theorem Part.note_keeps (p : Part) (frame : Nat) (f : Note → Note) :
    (p.note frame f).cycle = p.cycle ∧ (p.note frame f).free = p.free ∧ (p.note frame f).big = p.big ∧
    (p.note frame f).regs = p.regs ∧ (p.note frame f).cores = p.cores ∧ (p.note frame f).sched = p.sched ∧
    (p.note frame f).units = p.units ∧ (p.note frame f).press = p.press ∧ (p.note frame f).optim = p.optim ∧
    (p.note frame f).mem = p.mem ∧ (p.note frame f).mctl = p.mctl ∧ (p.note frame f).rack = p.rack ∧
    (p.note frame f).tick = p.tick ∧ (p.note frame f).txn = p.txn ∧ (p.note frame f).fab = p.fab ∧
    (p.note frame f).buckets = p.buckets ∧ (p.note frame f).twin = p.twin ∧ (p.note frame f).hif = p.hif ∧
    (p.note frame f).mgt = p.mgt ∧ (p.note frame f).power = p.power ∧ (∀ j, (p.note frame f).rd j = p.rd j) ∧
    (∀ j, (p.note frame f).core j = p.core j) ∧ (∀ j, (p.note frame f).sch j = p.sch j) ∧
    (∀ j, (p.note frame f).unit j = p.unit j) ∧ (∀ j, (p.note frame f).prs j = p.prs j) ∧
    (∀ j, (p.note frame f).opt j = p.opt j) ∧ (∀ j, (p.note frame f).ctl j = p.ctl j) ∧
    (∀ j, (p.note frame f).rck j = p.rck j) ∧ (∀ j, (p.note frame f).bkt j = p.bkt j) := by
  simp [Part.note]

@[simp] theorem Part.residueFails_keeps (p : Part) (e : ErrRec) :
    (p.residueFails e).cycle = p.cycle ∧ (p.residueFails e).free = p.free ∧ (p.residueFails e).big = p.big ∧
    (p.residueFails e).cores = p.cores ∧ (p.residueFails e).sched = p.sched ∧
    (p.residueFails e).units = p.units ∧ (p.residueFails e).press = p.press ∧
    (p.residueFails e).optim = p.optim ∧ (p.residueFails e).mem = p.mem ∧ (p.residueFails e).mctl = p.mctl ∧
    (p.residueFails e).rack = p.rack ∧ (p.residueFails e).txn = p.txn ∧ (p.residueFails e).buckets = p.buckets ∧
    (p.residueFails e).twin = p.twin ∧ (p.residueFails e).hif = p.hif ∧ (p.residueFails e).mgt = p.mgt ∧
    (∀ j, (p.residueFails e).core j = p.core j) ∧ (∀ j, (p.residueFails e).sch j = p.sch j) ∧
    (∀ j, (p.residueFails e).unit j = p.unit j) ∧ (∀ j, (p.residueFails e).prs j = p.prs j) ∧
    (∀ j, (p.residueFails e).opt j = p.opt j) ∧ (∀ j, (p.residueFails e).ctl j = p.ctl j) ∧
    (∀ j, (p.residueFails e).rck j = p.rck j) ∧ (∀ j, (p.residueFails e).bkt j = p.bkt j) := by
  simp [Part.residueFails]

@[simp] theorem Part.signal_keeps (p : Part) (c ev : Nat) :
    (p.signal c ev).cycle = p.cycle ∧ (p.signal c ev).free = p.free ∧ (p.signal c ev).big = p.big ∧
    (p.signal c ev).regs = p.regs ∧ (p.signal c ev).cores = p.cores ∧ (p.signal c ev).sched = p.sched ∧
    (p.signal c ev).units = p.units ∧ (p.signal c ev).press = p.press ∧ (p.signal c ev).optim = p.optim ∧
    (p.signal c ev).mem = p.mem ∧ (p.signal c ev).mctl = p.mctl ∧ (p.signal c ev).rack = p.rack ∧
    (p.signal c ev).txn = p.txn ∧ (p.signal c ev).obs = p.obs ∧ (p.signal c ev).fab = p.fab ∧
    (p.signal c ev).buckets = p.buckets ∧ (p.signal c ev).twin = p.twin ∧ (p.signal c ev).hif = p.hif ∧
    (p.signal c ev).mgt = p.mgt ∧ (p.signal c ev).power = p.power ∧ (∀ j, (p.signal c ev).rd j = p.rd j) ∧
    (∀ j, (p.signal c ev).core j = p.core j) ∧ (∀ j, (p.signal c ev).sch j = p.sch j) ∧
    (∀ j, (p.signal c ev).unit j = p.unit j) ∧ (∀ j, (p.signal c ev).prs j = p.prs j) ∧
    (∀ j, (p.signal c ev).opt j = p.opt j) ∧ (∀ j, (p.signal c ev).ctl j = p.ctl j) ∧
    (∀ j, (p.signal c ev).rck j = p.rck j) ∧ (∀ j, (p.signal c ev).bkt j = p.bkt j) := by
  simp [Part.signal]

@[simp] theorem Part.showHold_keeps (p : Part)  :
    (p.showHold ).cycle = p.cycle ∧ (p.showHold ).free = p.free ∧ (p.showHold ).big = p.big ∧
    (p.showHold ).cores = p.cores ∧ (p.showHold ).sched = p.sched ∧ (p.showHold ).units = p.units ∧
    (p.showHold ).press = p.press ∧ (p.showHold ).optim = p.optim ∧ (p.showHold ).mem = p.mem ∧
    (p.showHold ).mctl = p.mctl ∧ (p.showHold ).rack = p.rack ∧ (p.showHold ).txn = p.txn ∧
    (p.showHold ).obs = p.obs ∧ (p.showHold ).fab = p.fab ∧ (p.showHold ).buckets = p.buckets ∧
    (p.showHold ).twin = p.twin ∧ (p.showHold ).hif = p.hif ∧ (p.showHold ).mgt = p.mgt ∧
    (p.showHold ).power = p.power ∧ (∀ j, (p.showHold ).core j = p.core j) ∧
    (∀ j, (p.showHold ).sch j = p.sch j) ∧ (∀ j, (p.showHold ).unit j = p.unit j) ∧
    (∀ j, (p.showHold ).prs j = p.prs j) ∧ (∀ j, (p.showHold ).opt j = p.opt j) ∧
    (∀ j, (p.showHold ).ctl j = p.ctl j) ∧ (∀ j, (p.showHold ).rck j = p.rck j) ∧
    (∀ j, (p.showHold ).bkt j = p.bkt j) := by
  unfold Part.showHold; dsimp only; split <;> simp

@[simp] theorem Part.endShow_keeps (p : Part)  :
    (p.endShow ).cycle = p.cycle ∧ (p.endShow ).free = p.free ∧ (p.endShow ).big = p.big ∧
    (p.endShow ).cores = p.cores ∧ (p.endShow ).sched = p.sched ∧ (p.endShow ).units = p.units ∧
    (p.endShow ).press = p.press ∧ (p.endShow ).optim = p.optim ∧ (p.endShow ).mem = p.mem ∧
    (p.endShow ).mctl = p.mctl ∧ (p.endShow ).rack = p.rack ∧ (p.endShow ).tick = p.tick ∧
    (p.endShow ).txn = p.txn ∧ (p.endShow ).obs = p.obs ∧ (p.endShow ).fab = p.fab ∧
    (p.endShow ).buckets = p.buckets ∧ (p.endShow ).twin = p.twin ∧ (p.endShow ).hif = p.hif ∧
    (p.endShow ).mgt = p.mgt ∧ (p.endShow ).power = p.power ∧ (∀ j, (p.endShow ).core j = p.core j) ∧
    (∀ j, (p.endShow ).sch j = p.sch j) ∧ (∀ j, (p.endShow ).unit j = p.unit j) ∧
    (∀ j, (p.endShow ).prs j = p.prs j) ∧ (∀ j, (p.endShow ).opt j = p.opt j) ∧
    (∀ j, (p.endShow ).ctl j = p.ctl j) ∧ (∀ j, (p.endShow ).rck j = p.rck j) ∧
    (∀ j, (p.endShow ).bkt j = p.bkt j) := by
  unfold Part.endShow; repeat' split
  all_goals simp

@[simp] theorem Part.setHolds_keeps (p : Part) (l : List Hold) :
    (p.setHolds l).cycle = p.cycle ∧ (p.setHolds l).free = p.free ∧ (p.setHolds l).big = p.big ∧
    (p.setHolds l).cores = p.cores ∧ (p.setHolds l).sched = p.sched ∧ (p.setHolds l).units = p.units ∧
    (p.setHolds l).press = p.press ∧ (p.setHolds l).optim = p.optim ∧ (p.setHolds l).mem = p.mem ∧
    (p.setHolds l).mctl = p.mctl ∧ (p.setHolds l).rack = p.rack ∧ (p.setHolds l).txn = p.txn ∧
    (p.setHolds l).obs = p.obs ∧ (p.setHolds l).fab = p.fab ∧ (p.setHolds l).buckets = p.buckets ∧
    (p.setHolds l).twin = p.twin ∧ (p.setHolds l).hif = p.hif ∧ (p.setHolds l).mgt = p.mgt ∧
    (p.setHolds l).power = p.power ∧ (∀ j, (p.setHolds l).core j = p.core j) ∧
    (∀ j, (p.setHolds l).sch j = p.sch j) ∧ (∀ j, (p.setHolds l).unit j = p.unit j) ∧
    (∀ j, (p.setHolds l).prs j = p.prs j) ∧ (∀ j, (p.setHolds l).opt j = p.opt j) ∧
    (∀ j, (p.setHolds l).ctl j = p.ctl j) ∧ (∀ j, (p.setHolds l).rck j = p.rck j) ∧
    (∀ j, (p.setHolds l).bkt j = p.bkt j) := by
  unfold Part.setHolds; dsimp only; repeat' split
  all_goals simp

@[simp] theorem Part.holdSend_keeps (p : Part) (n : Nat) :
    (p.holdSend n).cycle = p.cycle ∧ (p.holdSend n).free = p.free ∧ (p.holdSend n).big = p.big ∧
    (p.holdSend n).cores = p.cores ∧ (p.holdSend n).sched = p.sched ∧ (p.holdSend n).units = p.units ∧
    (p.holdSend n).press = p.press ∧ (p.holdSend n).optim = p.optim ∧ (p.holdSend n).mem = p.mem ∧
    (p.holdSend n).mctl = p.mctl ∧ (p.holdSend n).rack = p.rack ∧ (p.holdSend n).txn = p.txn ∧
    (p.holdSend n).obs = p.obs ∧ (p.holdSend n).buckets = p.buckets ∧ (p.holdSend n).twin = p.twin ∧
    (p.holdSend n).hif = p.hif ∧ (p.holdSend n).mgt = p.mgt ∧ (p.holdSend n).power = p.power ∧
    (∀ j, (p.holdSend n).core j = p.core j) ∧ (∀ j, (p.holdSend n).sch j = p.sch j) ∧
    (∀ j, (p.holdSend n).unit j = p.unit j) ∧ (∀ j, (p.holdSend n).prs j = p.prs j) ∧
    (∀ j, (p.holdSend n).opt j = p.opt j) ∧ (∀ j, (p.holdSend n).ctl j = p.ctl j) ∧
    (∀ j, (p.holdSend n).rck j = p.rck j) ∧ (∀ j, (p.holdSend n).bkt j = p.bkt j) := by
  simp [Part.holdSend]

@[simp] theorem Part.releaseSend_keeps (p : Part) (n : Nat) :
    (p.releaseSend n).cycle = p.cycle ∧ (p.releaseSend n).free = p.free ∧ (p.releaseSend n).big = p.big ∧
    (p.releaseSend n).regs = p.regs ∧ (p.releaseSend n).cores = p.cores ∧ (p.releaseSend n).sched = p.sched ∧
    (p.releaseSend n).units = p.units ∧ (p.releaseSend n).press = p.press ∧ (p.releaseSend n).optim = p.optim ∧
    (p.releaseSend n).mem = p.mem ∧ (p.releaseSend n).mctl = p.mctl ∧ (p.releaseSend n).rack = p.rack ∧
    (p.releaseSend n).tick = p.tick ∧ (p.releaseSend n).txn = p.txn ∧ (p.releaseSend n).obs = p.obs ∧
    (p.releaseSend n).buckets = p.buckets ∧ (p.releaseSend n).twin = p.twin ∧ (p.releaseSend n).hif = p.hif ∧
    (p.releaseSend n).mgt = p.mgt ∧ (p.releaseSend n).power = p.power ∧ (∀ j, (p.releaseSend n).rd j = p.rd j) ∧
    (∀ j, (p.releaseSend n).core j = p.core j) ∧ (∀ j, (p.releaseSend n).sch j = p.sch j) ∧
    (∀ j, (p.releaseSend n).unit j = p.unit j) ∧ (∀ j, (p.releaseSend n).prs j = p.prs j) ∧
    (∀ j, (p.releaseSend n).opt j = p.opt j) ∧ (∀ j, (p.releaseSend n).ctl j = p.ctl j) ∧
    (∀ j, (p.releaseSend n).rck j = p.rck j) ∧ (∀ j, (p.releaseSend n).bkt j = p.bkt j) := by
  simp [Part.releaseSend]

end Sys2Proof.Machine
end

