-- ==== Sys2Proof/Laws/Memory.lean ====
section
/-!
SUPPORT. The laws of memory: the canonical form is kept by every operation, a read after a write, and the rest of the part that the
operations leave alone.
-/
namespace Sys2Proof.Machine

theorem spWf_putBytes {m : Sparse Byte} (a : Nat) (bs : List Byte) (h : spWf (fun _ => 0#8) m = true) :
    spWf (fun _ => 0#8) (putBytes m a bs) = true := by
  induction bs generalizing m a with
  | nil => exact h
  | cons b r ih => exact ih _ (spWf_spSet (d := fun _ => 0#8) a b h)

/-- A byte after bytes were put: the byte put at its place, or the old one. -/
theorem spGet_putBytes (m : Sparse Byte) (a : Nat) (bs : List Byte) (x : Nat) :
    spGet 0#8 (putBytes m a bs) x = if a ≤ x ∧ x < a + bs.length then bs.getD (x - a) 0#8 else spGet 0#8 m x := by
  induction bs generalizing m a with
  | nil => rw [if_neg (by rw [List.length_nil]; omega)]; rfl
  | cons b r ih =>
    simp only [putBytes, ih, spGet_spSet, List.length_cons]
    by_cases h1 : a = x
    · subst h1; simp
    · by_cases h2 : a + 1 ≤ x ∧ x < a + 1 + r.length
      · have h3 : a ≤ x ∧ x < a + (r.length + 1) := by omega
        rw [if_pos h2, if_pos h3]
        obtain ⟨k, hk⟩ : ∃ k, x - a = k + 1 := ⟨x - a - 1, by omega⟩
        rw [hk, List.getD_cons_succ]; congr 1; omega
      · have h3 : ¬ (a ≤ x ∧ x < a + (r.length + 1)) := by omega
        rw [if_neg h2, if_neg h3, if_neg h1]

/-- The canonical form of the part's memory. -/
abbrev Part.memWf (p : Part) : Prop := Memory.wf p.mem = true

theorem memWf_iff (m : Mem) : Memory.wf m = true ↔
    spWf (fun _ => 0#8) m.bytes = true ∧ spWf (fun _ => 0) m.chk = true ∧ spWf (fun _ => false) m.granules = true := by
  simp [Memory.wf, and_assoc]

theorem Part.putRaw_wf {p : Part} (a : Nat) (bs : List Byte) (h : p.memWf) : (p.putRaw a bs).memWf := by
  rw [Part.memWf, memWf_iff] at *
  exact ⟨spWf_putBytes a bs h.1, h.2.1, h.2.2⟩

theorem Part.putLine_wf {p : Part} (a : Nat) (bs : List Byte) (t : Option Nat) (h : p.memWf) : (p.putLine a bs t).memWf := by
  rw [Part.memWf, memWf_iff] at *
  unfold Part.putLine
  split
  · exact ⟨spWf_putBytes a bs h.1, spWf_spSet (d := fun _ => 0) a 0 h.2.1, h.2.2⟩
  · exact ⟨spWf_putBytes a _ h.1, spWf_spSet (d := fun _ => 0) a poisonQ h.2.1, h.2.2⟩

theorem Part.writeGran_wf {p : Part} (a : Nat) (bs : List Byte) (t : Option Nat) (h : p.memWf) : (p.writeGran a bs t).memWf := by
  rw [Part.memWf, memWf_iff] at *
  unfold Part.writeGran
  dsimp only
  split
  · exact h
  · split
    · exact ⟨spWf_putBytes _ _ h.1, h.2.1, spWf_spSet (d := fun _ => false) _ true h.2.2⟩
    · refine ⟨spWf_putBytes a bs h.1, h.2.1, ?_⟩
      dsimp only
      split
      · exact h.2.2
      · exact spWf_spSet (d := fun _ => false) _ false h.2.2

@[simp] theorem Part.putLine_keeps (p : Part) (a : Nat) (bs : List Byte) (t : Option Nat) :
    (p.putLine a bs t).cycle = p.cycle ∧ (p.putLine a bs t).free = p.free ∧ (p.putLine a bs t).big = p.big ∧
    (p.putLine a bs t).regs = p.regs ∧ (p.putLine a bs t).cores = p.cores ∧ (p.putLine a bs t).sched = p.sched ∧
    (p.putLine a bs t).units = p.units ∧ (p.putLine a bs t).press = p.press ∧
    (p.putLine a bs t).optim = p.optim ∧ (p.putLine a bs t).mctl = p.mctl ∧ (p.putLine a bs t).rack = p.rack ∧
    (p.putLine a bs t).tick = p.tick ∧ (p.putLine a bs t).txn = p.txn ∧ (p.putLine a bs t).obs = p.obs ∧
    (p.putLine a bs t).fab = p.fab ∧ (p.putLine a bs t).buckets = p.buckets ∧ (p.putLine a bs t).twin = p.twin ∧
    (p.putLine a bs t).hif = p.hif ∧ (p.putLine a bs t).mgt = p.mgt ∧ (p.putLine a bs t).power = p.power ∧
    (∀ j, (p.putLine a bs t).rd j = p.rd j) ∧ (∀ j, (p.putLine a bs t).core j = p.core j) ∧
    (∀ j, (p.putLine a bs t).sch j = p.sch j) ∧ (∀ j, (p.putLine a bs t).unit j = p.unit j) ∧
    (∀ j, (p.putLine a bs t).prs j = p.prs j) ∧ (∀ j, (p.putLine a bs t).opt j = p.opt j) ∧
    (∀ j, (p.putLine a bs t).ctl j = p.ctl j) ∧ (∀ j, (p.putLine a bs t).rck j = p.rck j) ∧
    (∀ j, (p.putLine a bs t).bkt j = p.bkt j) := by
  unfold Part.putLine; split <;> simp [Part.rd, Part.core, Part.sch, Part.unit, Part.prs, Part.opt, Part.ctl, Part.rck, Part.bkt]

@[simp] theorem Part.fresh_keeps (p : Part)  :
    p.fresh.2.cycle = p.cycle ∧ p.fresh.2.big = p.big ∧ p.fresh.2.regs = p.regs ∧ p.fresh.2.cores = p.cores ∧
    p.fresh.2.sched = p.sched ∧ p.fresh.2.units = p.units ∧ p.fresh.2.press = p.press ∧
    p.fresh.2.optim = p.optim ∧ p.fresh.2.mem = p.mem ∧ p.fresh.2.mctl = p.mctl ∧ p.fresh.2.rack = p.rack ∧
    p.fresh.2.tick = p.tick ∧ p.fresh.2.txn = p.txn ∧ p.fresh.2.obs = p.obs ∧ p.fresh.2.fab = p.fab ∧
    p.fresh.2.buckets = p.buckets ∧ p.fresh.2.twin = p.twin ∧ p.fresh.2.hif = p.hif ∧ p.fresh.2.mgt = p.mgt ∧
    p.fresh.2.power = p.power ∧ (∀ j, p.fresh.2.rd j = p.rd j) ∧ (∀ j, p.fresh.2.core j = p.core j) ∧
    (∀ j, p.fresh.2.sch j = p.sch j) ∧ (∀ j, p.fresh.2.unit j = p.unit j) ∧ (∀ j, p.fresh.2.prs j = p.prs j) ∧
    (∀ j, p.fresh.2.opt j = p.opt j) ∧ (∀ j, p.fresh.2.ctl j = p.ctl j) ∧ (∀ j, p.fresh.2.rck j = p.rck j) ∧
    (∀ j, p.fresh.2.bkt j = p.bkt j) := by
  simp [Part.fresh, Part.rd, Part.core, Part.sch, Part.unit, Part.prs, Part.opt, Part.ctl, Part.rck, Part.bkt]

@[simp] theorem Part.errLog_keeps (p : Part) (h k a : Nat) :
    (p.errLog h k a).cycle = p.cycle ∧ (p.errLog h k a).free = p.free ∧ (p.errLog h k a).big = p.big ∧
    (p.errLog h k a).cores = p.cores ∧ (p.errLog h k a).sched = p.sched ∧ (p.errLog h k a).units = p.units ∧
    (p.errLog h k a).press = p.press ∧ (p.errLog h k a).optim = p.optim ∧ (p.errLog h k a).mem = p.mem ∧
    (p.errLog h k a).mctl = p.mctl ∧ (p.errLog h k a).rack = p.rack ∧ (p.errLog h k a).tick = p.tick ∧
    (p.errLog h k a).txn = p.txn ∧ (p.errLog h k a).obs = p.obs ∧ (p.errLog h k a).fab = p.fab ∧
    (p.errLog h k a).buckets = p.buckets ∧ (p.errLog h k a).twin = p.twin ∧ (p.errLog h k a).hif = p.hif ∧
    (p.errLog h k a).mgt = p.mgt ∧ (p.errLog h k a).power = p.power ∧
    (∀ j, (p.errLog h k a).core j = p.core j) ∧ (∀ j, (p.errLog h k a).sch j = p.sch j) ∧
    (∀ j, (p.errLog h k a).unit j = p.unit j) ∧ (∀ j, (p.errLog h k a).prs j = p.prs j) ∧
    (∀ j, (p.errLog h k a).opt j = p.opt j) ∧ (∀ j, (p.errLog h k a).ctl j = p.ctl j) ∧
    (∀ j, (p.errLog h k a).rck j = p.rck j) ∧ (∀ j, (p.errLog h k a).bkt j = p.bkt j) := by
  simp [Part.errLog]

@[simp] theorem Part.countCe_keeps (p : Part) (h n : Nat) :
    (p.countCe h n).cycle = p.cycle ∧ (p.countCe h n).free = p.free ∧ (p.countCe h n).big = p.big ∧
    (p.countCe h n).cores = p.cores ∧ (p.countCe h n).sched = p.sched ∧ (p.countCe h n).units = p.units ∧
    (p.countCe h n).press = p.press ∧ (p.countCe h n).optim = p.optim ∧ (p.countCe h n).mem = p.mem ∧
    (p.countCe h n).rack = p.rack ∧ (p.countCe h n).txn = p.txn ∧ (p.countCe h n).buckets = p.buckets ∧
    (p.countCe h n).twin = p.twin ∧ (p.countCe h n).hif = p.hif ∧ (p.countCe h n).mgt = p.mgt ∧
    (∀ j, (p.countCe h n).core j = p.core j) ∧ (∀ j, (p.countCe h n).sch j = p.sch j) ∧
    (∀ j, (p.countCe h n).unit j = p.unit j) ∧ (∀ j, (p.countCe h n).prs j = p.prs j) ∧
    (∀ j, (p.countCe h n).opt j = p.opt j) ∧ (∀ j, (p.countCe h n).rck j = p.rck j) ∧
    (∀ j, (p.countCe h n).bkt j = p.bkt j) := by
  unfold Part.countCe; dsimp only; repeat' split
  all_goals simp

@[simp] theorem Part.rcInvalidate_keeps (p : Part) (a n : Nat) :
    (p.rcInvalidate a n).cycle = p.cycle ∧ (p.rcInvalidate a n).free = p.free ∧
    (p.rcInvalidate a n).big = p.big ∧ (p.rcInvalidate a n).cores = p.cores ∧
    (p.rcInvalidate a n).sched = p.sched ∧ (p.rcInvalidate a n).press = p.press ∧
    (p.rcInvalidate a n).optim = p.optim ∧ (p.rcInvalidate a n).mem = p.mem ∧
    (p.rcInvalidate a n).mctl = p.mctl ∧ (p.rcInvalidate a n).rack = p.rack ∧
    (p.rcInvalidate a n).tick = p.tick ∧ (p.rcInvalidate a n).txn = p.txn ∧ (p.rcInvalidate a n).obs = p.obs ∧
    (p.rcInvalidate a n).fab = p.fab ∧ (p.rcInvalidate a n).buckets = p.buckets ∧
    (p.rcInvalidate a n).twin = p.twin ∧ (p.rcInvalidate a n).hif = p.hif ∧ (p.rcInvalidate a n).mgt = p.mgt ∧
    (p.rcInvalidate a n).power = p.power ∧ (∀ j, (p.rcInvalidate a n).core j = p.core j) ∧
    (∀ j, (p.rcInvalidate a n).sch j = p.sch j) ∧ (∀ j, (p.rcInvalidate a n).prs j = p.prs j) ∧
    (∀ j, (p.rcInvalidate a n).opt j = p.opt j) ∧ (∀ j, (p.rcInvalidate a n).ctl j = p.ctl j) ∧
    (∀ j, (p.rcInvalidate a n).rck j = p.rck j) ∧ (∀ j, (p.rcInvalidate a n).bkt j = p.bkt j) := by
  unfold Part.rcInvalidate
  refine ⟨by rw [Part.each_get Part.cycle _ _ _ (by intros; dsimp only; split <;> simp)],
    by rw [Part.each_get Part.free _ _ _ (by intros; dsimp only; split <;> simp)],
    by rw [Part.each_get Part.big _ _ _ (by intros; dsimp only; split <;> simp)],
    by rw [Part.each_get Part.cores _ _ _ (by intros; dsimp only; split <;> simp)],
    by rw [Part.each_get Part.sched _ _ _ (by intros; dsimp only; split <;> simp)],
    by rw [Part.each_get Part.press _ _ _ (by intros; dsimp only; split <;> simp)],
    by rw [Part.each_get Part.optim _ _ _ (by intros; dsimp only; split <;> simp)],
    by rw [Part.each_get Part.mem _ _ _ (by intros; dsimp only; split <;> simp)],
    by rw [Part.each_get Part.mctl _ _ _ (by intros; dsimp only; split <;> simp)],
    by rw [Part.each_get Part.rack _ _ _ (by intros; dsimp only; split <;> simp)],
    by rw [Part.each_get Part.tick _ _ _ (by intros; dsimp only; split <;> simp)],
    by rw [Part.each_get Part.txn _ _ _ (by intros; dsimp only; split <;> simp)],
    by rw [Part.each_get Part.obs _ _ _ (by intros; dsimp only; split <;> simp)],
    by rw [Part.each_get Part.fab _ _ _ (by intros; dsimp only; split <;> simp)],
    by rw [Part.each_get Part.buckets _ _ _ (by intros; dsimp only; split <;> simp)],
    by rw [Part.each_get Part.twin _ _ _ (by intros; dsimp only; split <;> simp)],
    by rw [Part.each_get Part.hif _ _ _ (by intros; dsimp only; split <;> simp)],
    by rw [Part.each_get Part.mgt _ _ _ (by intros; dsimp only; split <;> simp)],
    by rw [Part.each_get Part.power _ _ _ (by intros; dsimp only; split <;> simp)],
    fun j => by rw [Part.each_get (fun p => p.core j) _ _ _ (by intros; dsimp only; split <;> simp)],
    fun j => by rw [Part.each_get (fun p => p.sch j) _ _ _ (by intros; dsimp only; split <;> simp)],
    fun j => by rw [Part.each_get (fun p => p.prs j) _ _ _ (by intros; dsimp only; split <;> simp)],
    fun j => by rw [Part.each_get (fun p => p.opt j) _ _ _ (by intros; dsimp only; split <;> simp)],
    fun j => by rw [Part.each_get (fun p => p.ctl j) _ _ _ (by intros; dsimp only; split <;> simp)],
    fun j => by rw [Part.each_get (fun p => p.rck j) _ _ _ (by intros; dsimp only; split <;> simp)],
    fun j => by rw [Part.each_get (fun p => p.bkt j) _ _ _ (by intros; dsimp only; split <;> simp)]⟩

@[simp] theorem Part.putHbm_keeps (p : Part) (a : Nat) (bs : List Byte) (t : Option Nat) :
    (p.putHbm a bs t).cycle = p.cycle ∧ (p.putHbm a bs t).free = p.free ∧ (p.putHbm a bs t).big = p.big ∧
    (p.putHbm a bs t).cores = p.cores ∧ (p.putHbm a bs t).sched = p.sched ∧ (p.putHbm a bs t).press = p.press ∧
    (p.putHbm a bs t).optim = p.optim ∧ (p.putHbm a bs t).mctl = p.mctl ∧ (p.putHbm a bs t).rack = p.rack ∧
    (p.putHbm a bs t).tick = p.tick ∧ (p.putHbm a bs t).txn = p.txn ∧ (p.putHbm a bs t).obs = p.obs ∧
    (p.putHbm a bs t).fab = p.fab ∧ (p.putHbm a bs t).buckets = p.buckets ∧ (p.putHbm a bs t).twin = p.twin ∧
    (p.putHbm a bs t).hif = p.hif ∧ (p.putHbm a bs t).mgt = p.mgt ∧ (p.putHbm a bs t).power = p.power ∧
    (∀ j, (p.putHbm a bs t).core j = p.core j) ∧ (∀ j, (p.putHbm a bs t).sch j = p.sch j) ∧
    (∀ j, (p.putHbm a bs t).prs j = p.prs j) ∧ (∀ j, (p.putHbm a bs t).opt j = p.opt j) ∧
    (∀ j, (p.putHbm a bs t).ctl j = p.ctl j) ∧ (∀ j, (p.putHbm a bs t).rck j = p.rck j) ∧
    (∀ j, (p.putHbm a bs t).bkt j = p.bkt j) := by
  simp [Part.putHbm]

@[simp] theorem Part.readLine_keeps (p : Part) (k g q a : Nat) :
    (p.readLine k g q a).2.cycle = p.cycle ∧ (p.readLine k g q a).2.big = p.big ∧
    (p.readLine k g q a).2.cores = p.cores ∧ (p.readLine k g q a).2.sched = p.sched ∧
     (p.readLine k g q a).2.press = p.press ∧
    (p.readLine k g q a).2.optim = p.optim ∧ (p.readLine k g q a).2.rack = p.rack ∧
    (p.readLine k g q a).2.txn = p.txn ∧ (p.readLine k g q a).2.buckets = p.buckets ∧
    (p.readLine k g q a).2.twin = p.twin ∧ (p.readLine k g q a).2.hif = p.hif ∧
    (p.readLine k g q a).2.mgt = p.mgt ∧ (∀ j, (p.readLine k g q a).2.core j = p.core j) ∧
    (∀ j, (p.readLine k g q a).2.sch j = p.sch j) ∧
    (∀ j, (p.readLine k g q a).2.prs j = p.prs j) ∧ (∀ j, (p.readLine k g q a).2.opt j = p.opt j) ∧
    (∀ j, (p.readLine k g q a).2.rck j = p.rck j) ∧ (∀ j, (p.readLine k g q a).2.bkt j = p.bkt j) := by
  unfold Part.readLine; dsimp only; repeat' split
  all_goals simp

@[simp] theorem Part.putJournal_keeps (p : Part) (s n : Nat) (e : JEntry) :
    (p.putJournal s n e).cycle = p.cycle ∧ (p.putJournal s n e).free = p.free ∧
    (p.putJournal s n e).big = p.big ∧ (p.putJournal s n e).cores = p.cores ∧
    (p.putJournal s n e).sched = p.sched ∧ (p.putJournal s n e).press = p.press ∧
    (p.putJournal s n e).optim = p.optim ∧ (p.putJournal s n e).mctl = p.mctl ∧
    (p.putJournal s n e).rack = p.rack ∧ (p.putJournal s n e).tick = p.tick ∧
    (p.putJournal s n e).txn = p.txn ∧ (p.putJournal s n e).obs = p.obs ∧ (p.putJournal s n e).fab = p.fab ∧
    (p.putJournal s n e).buckets = p.buckets ∧ (p.putJournal s n e).twin = p.twin ∧
    (p.putJournal s n e).hif = p.hif ∧ (p.putJournal s n e).mgt = p.mgt ∧
    (p.putJournal s n e).power = p.power ∧ (∀ j, (p.putJournal s n e).core j = p.core j) ∧
    (∀ j, (p.putJournal s n e).sch j = p.sch j) ∧ (∀ j, (p.putJournal s n e).prs j = p.prs j) ∧
    (∀ j, (p.putJournal s n e).opt j = p.opt j) ∧ (∀ j, (p.putJournal s n e).ctl j = p.ctl j) ∧
    (∀ j, (p.putJournal s n e).rck j = p.rck j) ∧ (∀ j, (p.putJournal s n e).bkt j = p.bkt j) := by
  simp [Part.putJournal]

@[simp] theorem Part.journalLine_keeps (p : Part) (g q a : Nat) :
    (p.journalLine g q a).2.cycle = p.cycle ∧ (p.journalLine g q a).2.big = p.big ∧
    (p.journalLine g q a).2.cores = p.cores ∧ (p.journalLine g q a).2.sched = p.sched ∧
     (p.journalLine g q a).2.press = p.press ∧
    (p.journalLine g q a).2.optim = p.optim ∧ (p.journalLine g q a).2.rack = p.rack ∧
    (p.journalLine g q a).2.txn = p.txn ∧ (p.journalLine g q a).2.buckets = p.buckets ∧
    (p.journalLine g q a).2.twin = p.twin ∧ (p.journalLine g q a).2.hif = p.hif ∧
    (p.journalLine g q a).2.mgt = p.mgt ∧ (∀ j, (p.journalLine g q a).2.core j = p.core j) ∧
    (∀ j, (p.journalLine g q a).2.sch j = p.sch j) ∧
    (∀ j, (p.journalLine g q a).2.prs j = p.prs j) ∧ (∀ j, (p.journalLine g q a).2.opt j = p.opt j) ∧
    (∀ j, (p.journalLine g q a).2.rck j = p.rck j) ∧ (∀ j, (p.journalLine g q a).2.bkt j = p.bkt j) := by
  unfold Part.journalLine; dsimp only; repeat' split
  all_goals simp

@[simp] theorem Part.rawLine_keeps (p : Part) (a : Nat) (bs : List Byte) (t : Option Nat) :
    (p.rawLine a bs t).cycle = p.cycle ∧ (p.rawLine a bs t).free = p.free ∧ (p.rawLine a bs t).big = p.big ∧
    (p.rawLine a bs t).regs = p.regs ∧ (p.rawLine a bs t).cores = p.cores ∧ (p.rawLine a bs t).sched = p.sched ∧
    (p.rawLine a bs t).units = p.units ∧ (p.rawLine a bs t).press = p.press ∧
    (p.rawLine a bs t).optim = p.optim ∧ (p.rawLine a bs t).mem = p.mem ∧ (p.rawLine a bs t).mctl = p.mctl ∧
    (p.rawLine a bs t).rack = p.rack ∧ (p.rawLine a bs t).tick = p.tick ∧ (p.rawLine a bs t).txn = p.txn ∧
    (p.rawLine a bs t).obs = p.obs ∧ (p.rawLine a bs t).fab = p.fab ∧ (p.rawLine a bs t).buckets = p.buckets ∧
    (p.rawLine a bs t).hif = p.hif ∧ (p.rawLine a bs t).mgt = p.mgt ∧ (p.rawLine a bs t).power = p.power ∧
    (∀ j, (p.rawLine a bs t).rd j = p.rd j) ∧ (∀ j, (p.rawLine a bs t).core j = p.core j) ∧
    (∀ j, (p.rawLine a bs t).sch j = p.sch j) ∧ (∀ j, (p.rawLine a bs t).unit j = p.unit j) ∧
    (∀ j, (p.rawLine a bs t).prs j = p.prs j) ∧ (∀ j, (p.rawLine a bs t).opt j = p.opt j) ∧
    (∀ j, (p.rawLine a bs t).ctl j = p.ctl j) ∧ (∀ j, (p.rawLine a bs t).rck j = p.rck j) ∧
    (∀ j, (p.rawLine a bs t).bkt j = p.bkt j) := by
  unfold Part.rawLine; split <;> simp

@[simp] theorem Part.writeLine_keeps (p : Part) (g q a : Nat) (bs : List Byte) (t : Option Nat) :
    (p.writeLine g q a bs t).cycle = p.cycle ∧ (p.writeLine g q a bs t).big = p.big ∧
    (p.writeLine g q a bs t).cores = p.cores ∧ (p.writeLine g q a bs t).sched = p.sched ∧
    (p.writeLine g q a bs t).press = p.press ∧ (p.writeLine g q a bs t).optim = p.optim ∧
    (p.writeLine g q a bs t).rack = p.rack ∧ (p.writeLine g q a bs t).txn = p.txn ∧
    (p.writeLine g q a bs t).buckets = p.buckets ∧ (p.writeLine g q a bs t).hif = p.hif ∧
    (p.writeLine g q a bs t).mgt = p.mgt ∧ (∀ j, (p.writeLine g q a bs t).core j = p.core j) ∧
    (∀ j, (p.writeLine g q a bs t).sch j = p.sch j) ∧ (∀ j, (p.writeLine g q a bs t).prs j = p.prs j) ∧
    (∀ j, (p.writeLine g q a bs t).opt j = p.opt j) ∧ (∀ j, (p.writeLine g q a bs t).rck j = p.rck j) ∧
    (∀ j, (p.writeLine g q a bs t).bkt j = p.bkt j) := by
  unfold Part.writeLine; dsimp only; split <;> simp

@[simp] theorem Part.writePart_keeps (p : Part) (g q a : Nat) (bs : List Byte) (t : Option Nat) :
    (p.writePart g q a bs t).cycle = p.cycle ∧ (p.writePart g q a bs t).big = p.big ∧
    (p.writePart g q a bs t).cores = p.cores ∧ (p.writePart g q a bs t).sched = p.sched ∧
    (p.writePart g q a bs t).press = p.press ∧ (p.writePart g q a bs t).optim = p.optim ∧
    (p.writePart g q a bs t).rack = p.rack ∧ (p.writePart g q a bs t).txn = p.txn ∧
    (p.writePart g q a bs t).buckets = p.buckets ∧ (p.writePart g q a bs t).hif = p.hif ∧
    (p.writePart g q a bs t).mgt = p.mgt ∧ (∀ j, (p.writePart g q a bs t).core j = p.core j) ∧
    (∀ j, (p.writePart g q a bs t).sch j = p.sch j) ∧ (∀ j, (p.writePart g q a bs t).prs j = p.prs j) ∧
    (∀ j, (p.writePart g q a bs t).opt j = p.opt j) ∧ (∀ j, (p.writePart g q a bs t).rck j = p.rck j) ∧
    (∀ j, (p.writePart g q a bs t).bkt j = p.bkt j) := by
  unfold Part.writePart; dsimp only; split <;> simp

@[simp] theorem Part.writeInLine_keeps (p : Part) (g q a : Nat) (bs : List Byte) (t : Option Nat) :
    (p.writeInLine g q a bs t).cycle = p.cycle ∧ (p.writeInLine g q a bs t).big = p.big ∧
    (p.writeInLine g q a bs t).cores = p.cores ∧ (p.writeInLine g q a bs t).sched = p.sched ∧
    (p.writeInLine g q a bs t).press = p.press ∧ (p.writeInLine g q a bs t).optim = p.optim ∧
    (p.writeInLine g q a bs t).rack = p.rack ∧ (p.writeInLine g q a bs t).txn = p.txn ∧
    (p.writeInLine g q a bs t).buckets = p.buckets ∧ (p.writeInLine g q a bs t).hif = p.hif ∧
    (p.writeInLine g q a bs t).mgt = p.mgt ∧ (∀ j, (p.writeInLine g q a bs t).core j = p.core j) ∧
    (∀ j, (p.writeInLine g q a bs t).sch j = p.sch j) ∧ (∀ j, (p.writeInLine g q a bs t).prs j = p.prs j) ∧
    (∀ j, (p.writeInLine g q a bs t).opt j = p.opt j) ∧ (∀ j, (p.writeInLine g q a bs t).rck j = p.rck j) ∧
    (∀ j, (p.writeInLine g q a bs t).bkt j = p.bkt j) := by
  unfold Part.writeInLine; repeat' split
  all_goals simp

@[simp] theorem Part.writeGran_keeps (p : Part) (a : Nat) (bs : List Byte) (t : Option Nat) :
    (p.writeGran a bs t).cycle = p.cycle ∧ (p.writeGran a bs t).free = p.free ∧
    (p.writeGran a bs t).big = p.big ∧ (p.writeGran a bs t).regs = p.regs ∧
    (p.writeGran a bs t).cores = p.cores ∧ (p.writeGran a bs t).sched = p.sched ∧
    (p.writeGran a bs t).units = p.units ∧ (p.writeGran a bs t).press = p.press ∧
    (p.writeGran a bs t).optim = p.optim ∧ (p.writeGran a bs t).mctl = p.mctl ∧
    (p.writeGran a bs t).rack = p.rack ∧ (p.writeGran a bs t).tick = p.tick ∧ (p.writeGran a bs t).txn = p.txn ∧
    (p.writeGran a bs t).obs = p.obs ∧ (p.writeGran a bs t).fab = p.fab ∧
    (p.writeGran a bs t).buckets = p.buckets ∧ (p.writeGran a bs t).twin = p.twin ∧
    (p.writeGran a bs t).hif = p.hif ∧ (p.writeGran a bs t).mgt = p.mgt ∧ (p.writeGran a bs t).power = p.power ∧
    (∀ j, (p.writeGran a bs t).rd j = p.rd j) ∧ (∀ j, (p.writeGran a bs t).core j = p.core j) ∧
    (∀ j, (p.writeGran a bs t).sch j = p.sch j) ∧ (∀ j, (p.writeGran a bs t).unit j = p.unit j) ∧
    (∀ j, (p.writeGran a bs t).prs j = p.prs j) ∧ (∀ j, (p.writeGran a bs t).opt j = p.opt j) ∧
    (∀ j, (p.writeGran a bs t).ctl j = p.ctl j) ∧ (∀ j, (p.writeGran a bs t).rck j = p.rck j) ∧
    (∀ j, (p.writeGran a bs t).bkt j = p.bkt j) := by
  unfold Part.writeGran; dsimp only; repeat' split
  all_goals simp [Part.rd, Part.core, Part.sch, Part.unit, Part.prs, Part.opt, Part.ctl, Part.rck, Part.bkt]

/-- What a store keeps: anything that a write of one line and of one granule keeps. -/
theorem Part.storeLoop_get {β : Type} (get : Part → β) (h1 : ∀ p g q a bs t, get (p.writeInLine g q a bs t) = get p)
    (h2 : ∀ p a bs t, get (p.writeGran a bs t) = get p) (n : Nat) (p : Part) (g q a : Nat) (bs : List Byte) (t : Option Nat) :
    get (Part.storeLoop n p g q a bs t) = get p := by
  induction n generalizing p a bs with
  | zero => rfl
  | succ n ih =>
    unfold Part.storeLoop
    split
    · rfl
    · dsimp only; rw [ih]; split
      · exact h1 _ _ _ _ _ _
      · exact h2 _ _ _ _

/-- What a load keeps: anything that a read of one line keeps. -/
theorem Part.loadLoop_get {β : Type} (get : Part → β) (h : ∀ p k g q a, get (p.readLine k g q a).2 = get p) (n : Nat) (p : Part)
    (g q a len : Nat) : get (Part.loadLoop n p g q a len).2 = get p := by
  induction n generalizing p a len with
  | zero => rfl
  | succ n ih =>
    unfold Part.loadLoop
    split
    · rfl
    · dsimp only; rw [ih]; unfold Part.readPiece; split
      · exact h _ _ _ _ _
      · rfl

@[simp] theorem Part.store_keeps (p : Part) (g q a : Nat) (bs : List Byte) (t : Option Nat) :
    (p.store g q a bs t).cycle = p.cycle ∧ (p.store g q a bs t).big = p.big ∧
    (p.store g q a bs t).cores = p.cores ∧ (p.store g q a bs t).sched = p.sched ∧
    (p.store g q a bs t).press = p.press ∧ (p.store g q a bs t).optim = p.optim ∧
    (p.store g q a bs t).rack = p.rack ∧ (p.store g q a bs t).txn = p.txn ∧
    (p.store g q a bs t).buckets = p.buckets ∧ (p.store g q a bs t).hif = p.hif ∧
    (p.store g q a bs t).mgt = p.mgt ∧ (∀ j, (p.store g q a bs t).core j = p.core j) ∧
    (∀ j, (p.store g q a bs t).sch j = p.sch j) ∧ (∀ j, (p.store g q a bs t).prs j = p.prs j) ∧
    (∀ j, (p.store g q a bs t).opt j = p.opt j) ∧ (∀ j, (p.store g q a bs t).rck j = p.rck j) ∧
    (∀ j, (p.store g q a bs t).bkt j = p.bkt j) := by
  unfold Part.store
  refine ⟨by rw [Part.storeLoop_get Part.cycle (by simp) (by simp)],
    by rw [Part.storeLoop_get Part.big (by simp) (by simp)],
    by rw [Part.storeLoop_get Part.cores (by simp) (by simp)],
    by rw [Part.storeLoop_get Part.sched (by simp) (by simp)],
    by rw [Part.storeLoop_get Part.press (by simp) (by simp)],
    by rw [Part.storeLoop_get Part.optim (by simp) (by simp)],
    by rw [Part.storeLoop_get Part.rack (by simp) (by simp)],
    by rw [Part.storeLoop_get Part.txn (by simp) (by simp)],
    by rw [Part.storeLoop_get Part.buckets (by simp) (by simp)],
    by rw [Part.storeLoop_get Part.hif (by simp) (by simp)],
    by rw [Part.storeLoop_get Part.mgt (by simp) (by simp)],
    fun j => by rw [Part.storeLoop_get (fun p => p.core j) (by simp) (by simp)],
    fun j => by rw [Part.storeLoop_get (fun p => p.sch j) (by simp) (by simp)],
    fun j => by rw [Part.storeLoop_get (fun p => p.prs j) (by simp) (by simp)],
    fun j => by rw [Part.storeLoop_get (fun p => p.opt j) (by simp) (by simp)],
    fun j => by rw [Part.storeLoop_get (fun p => p.rck j) (by simp) (by simp)],
    fun j => by rw [Part.storeLoop_get (fun p => p.bkt j) (by simp) (by simp)]⟩

@[simp] theorem Part.load_keeps (p : Part) (g q a n : Nat) :
    (p.load g q a n).2.cycle = p.cycle ∧ (p.load g q a n).2.big = p.big ∧ (p.load g q a n).2.cores = p.cores ∧
    (p.load g q a n).2.sched = p.sched ∧ (p.load g q a n).2.press = p.press ∧
    (p.load g q a n).2.optim = p.optim ∧ (p.load g q a n).2.rack = p.rack ∧
    (p.load g q a n).2.txn = p.txn ∧ (p.load g q a n).2.buckets = p.buckets ∧ (p.load g q a n).2.twin = p.twin ∧
    (p.load g q a n).2.hif = p.hif ∧ (p.load g q a n).2.mgt = p.mgt ∧
    (∀ j, (p.load g q a n).2.core j = p.core j) ∧ (∀ j, (p.load g q a n).2.sch j = p.sch j) ∧
     (∀ j, (p.load g q a n).2.prs j = p.prs j) ∧
    (∀ j, (p.load g q a n).2.opt j = p.opt j) ∧ (∀ j, (p.load g q a n).2.rck j = p.rck j) ∧
    (∀ j, (p.load g q a n).2.bkt j = p.bkt j) := by
  unfold Part.load
  refine ⟨by rw [Part.loadLoop_get Part.cycle (by simp)],
    by rw [Part.loadLoop_get Part.big (by simp)],
    by rw [Part.loadLoop_get Part.cores (by simp)],
    by rw [Part.loadLoop_get Part.sched (by simp)],
    by rw [Part.loadLoop_get Part.press (by simp)],
    by rw [Part.loadLoop_get Part.optim (by simp)],
    by rw [Part.loadLoop_get Part.rack (by simp)],
    by rw [Part.loadLoop_get Part.txn (by simp)],
    by rw [Part.loadLoop_get Part.buckets (by simp)],
    by rw [Part.loadLoop_get Part.twin (by simp)],
    by rw [Part.loadLoop_get Part.hif (by simp)],
    by rw [Part.loadLoop_get Part.mgt (by simp)],
    fun j => by rw [Part.loadLoop_get (fun p => p.core j) (by simp)],
    fun j => by rw [Part.loadLoop_get (fun p => p.sch j) (by simp)],
    fun j => by rw [Part.loadLoop_get (fun p => p.prs j) (by simp)],
    fun j => by rw [Part.loadLoop_get (fun p => p.opt j) (by simp)],
    fun j => by rw [Part.loadLoop_get (fun p => p.rck j) (by simp)],
    fun j => by rw [Part.loadLoop_get (fun p => p.bkt j) (by simp)]⟩

@[simp] theorem Part.loadN_keeps (p : Part) (g q a n : Nat) :
    (p.loadN g q a n).2.cycle = p.cycle ∧ (p.loadN g q a n).2.big = p.big ∧
    (p.loadN g q a n).2.cores = p.cores ∧ (p.loadN g q a n).2.sched = p.sched ∧
     (p.loadN g q a n).2.press = p.press ∧
    (p.loadN g q a n).2.optim = p.optim ∧ (p.loadN g q a n).2.rack = p.rack ∧ (p.loadN g q a n).2.txn = p.txn ∧
    (p.loadN g q a n).2.buckets = p.buckets ∧ (p.loadN g q a n).2.twin = p.twin ∧
    (p.loadN g q a n).2.hif = p.hif ∧ (p.loadN g q a n).2.mgt = p.mgt ∧
    (∀ j, (p.loadN g q a n).2.core j = p.core j) ∧ (∀ j, (p.loadN g q a n).2.sch j = p.sch j) ∧
     (∀ j, (p.loadN g q a n).2.prs j = p.prs j) ∧
    (∀ j, (p.loadN g q a n).2.opt j = p.opt j) ∧ (∀ j, (p.loadN g q a n).2.rck j = p.rck j) ∧
    (∀ j, (p.loadN g q a n).2.bkt j = p.bkt j) := by
  unfold Part.loadN; dsimp only; simp

@[simp] theorem Part.spadStore_keeps (p : Part) (c a : Nat) (bs : List Byte) :
    (p.spadStore c a bs).cycle = p.cycle ∧ (p.spadStore c a bs).big = p.big ∧
    (p.spadStore c a bs).cores = p.cores ∧ (p.spadStore c a bs).sched = p.sched ∧
    (p.spadStore c a bs).press = p.press ∧ (p.spadStore c a bs).optim = p.optim ∧
    (p.spadStore c a bs).rack = p.rack ∧ (p.spadStore c a bs).txn = p.txn ∧
    (p.spadStore c a bs).buckets = p.buckets ∧ (p.spadStore c a bs).hif = p.hif ∧
    (p.spadStore c a bs).mgt = p.mgt ∧ (∀ j, (p.spadStore c a bs).core j = p.core j) ∧
    (∀ j, (p.spadStore c a bs).sch j = p.sch j) ∧ (∀ j, (p.spadStore c a bs).prs j = p.prs j) ∧
    (∀ j, (p.spadStore c a bs).opt j = p.opt j) ∧ (∀ j, (p.spadStore c a bs).rck j = p.rck j) ∧
    (∀ j, (p.spadStore c a bs).bkt j = p.bkt j) := by
  simp [Part.spadStore]

/-- An operation that leaves memory alone keeps its canonical form. -/
theorem memWf_of_eq {p q : Part} (h : q.mem = p.mem) (hp : p.memWf) : q.memWf := by rw [Part.memWf, h]; exact hp

/-- What writing a line in HBM leaves of memory is what putting it leaves. -/
theorem Part.putHbm_mem (p : Part) (a : Nat) (bs : List Byte) (t : Option Nat) : (p.putHbm a bs t).mem = (p.putLine a bs t).mem := by
  simp [Part.putHbm]

theorem Part.putHbm_wf {p : Part} (a : Nat) (bs : List Byte) (t : Option Nat) (h : p.memWf) : (p.putHbm a bs t).memWf :=
  memWf_of_eq (p.putHbm_mem a bs t) (Part.putLine_wf _ _ _ h)

theorem Part.readLine_wf {p : Part} (k g q a : Nat) (h : p.memWf) : (p.readLine k g q a).2.memWf := by
  unfold Part.readLine
  dsimp only
  repeat' split
  · exact memWf_of_eq (by simp) h
  · exact memWf_of_eq (by simp) h
  · exact memWf_of_eq (by simp) h
  · exact memWf_of_eq (by simp) h
  · refine memWf_of_eq (p := Part.putHbm _ _ _ _) (by simp; rfl) (Part.putHbm_wf _ _ _ ?_)
    exact memWf_of_eq (by simp) h

theorem Part.putJournal_wf {p : Part} (s n : Nat) (e : JEntry) (h : p.memWf) : (p.putJournal s n e).memWf :=
  Part.putHbm_wf _ _ _ (Part.putHbm_wf _ _ _ h)

theorem Part.journalLine_wf {p : Part} (g q a : Nat) (h : p.memWf) : (p.journalLine g q a).2.memWf := by
  unfold Part.journalLine
  dsimp only
  repeat' split
  · exact h
  · exact h
  · exact h
  · exact memWf_of_eq (by simp) h
  · refine memWf_of_eq (p := Part.putJournal _ _ _ _) (by simp; rfl) (Part.putJournal_wf _ _ _ ?_)
    exact memWf_of_eq (by simp) (Part.readLine_wf 1 g q a h)
  · exact h
  · exact memWf_of_eq (by simp) h
  · refine memWf_of_eq (p := Part.putJournal _ _ _ _) (by simp; rfl) (Part.putJournal_wf _ _ _ ?_)
    exact memWf_of_eq (by simp) (Part.readLine_wf 1 g q a h)

theorem Part.writeLine_wf {p : Part} (g q a : Nat) (bs : List Byte) (t : Option Nat) (h : p.memWf) :
    (p.writeLine g q a bs t).memWf := by
  unfold Part.writeLine
  dsimp only
  split
  · exact Part.journalLine_wf g q a h
  · refine memWf_of_eq (p := Part.putHbm _ _ _ _) (by simp; rfl) (Part.putHbm_wf _ _ _ ?_)
    exact Part.journalLine_wf g q a h

theorem Part.writePart_wf {p : Part} (g q a : Nat) (bs : List Byte) (t : Option Nat) (h : p.memWf) : (p.writePart g q a bs t).memWf := by
  unfold Part.writePart
  dsimp only
  split
  · exact Part.readLine_wf _ _ _ _ h
  · exact Part.writeLine_wf _ _ _ _ _ (Part.readLine_wf _ _ _ _ h)

theorem Part.writeInLine_wf {p : Part} (g q a : Nat) (bs : List Byte) (t : Option Nat) (h : p.memWf) :
    (p.writeInLine g q a bs t).memWf := by
  unfold Part.writeInLine
  split
  · exact Part.writeLine_wf _ _ _ _ _ h
  · exact Part.writePart_wf _ _ _ _ _ h

/-- A store of any bytes at any address keeps the canonical form. -/
theorem Part.store_wf {p : Part} (g q a : Nat) (bs : List Byte) (t : Option Nat) (h : p.memWf) : (p.store g q a bs t).memWf := by
  unfold Part.store
  generalize bs.length / 32 + 2 = n
  induction n generalizing p a bs with
  | zero => exact h
  | succ n ih =>
    unfold Part.storeLoop
    split
    · exact h
    · dsimp only
      apply ih
      split
      · exact Part.writeInLine_wf _ _ _ _ _ h
      · exact Part.writeGran_wf _ _ _ h

/-- A read of any bytes at any address keeps the canonical form. -/
theorem Part.load_wf {p : Part} (g q a len : Nat) (h : p.memWf) : (p.load g q a len).2.memWf := by
  unfold Part.load
  dsimp only
  generalize len / 32 + 2 = n
  induction n generalizing p a len with
  | zero => exact h
  | succ n ih =>
    unfold Part.loadLoop
    split
    · exact h
    · dsimp only
      apply ih
      unfold Part.readPiece
      split
      · exact Part.readLine_wf _ _ _ _ h
      · exact h

/-- Storing granules keeps the canonical form. -/
theorem Part.storeGrans_wf {p : Part} (n g q a : Nat) (l : List (List Byte × Option Nat)) (h : p.memWf) :
    (Part.storeGrans n p g q a l).memWf := by
  induction n generalizing p a l with
  | zero => exact h
  | succ n ih =>
    unfold Part.storeGrans
    split
    · exact h
    · split
      · split
        · exact ih _ _ (Part.writeInLine_wf _ _ _ _ _ h)
        · exact Part.writeInLine_wf _ _ _ _ _ h
      · split
        · exact ih _ _ (Part.writeInLine_wf _ _ _ _ _ h)
        · exact ih _ _ (Part.writeGran_wf _ _ _ h)

/-- Dropping bytes and poison (R51, R319) keeps the canonical form. -/
theorem memWf_clear {m : Mem} (f : Nat → Bool) (h : Memory.wf m = true) :
    Memory.wf { m with bytes := spClear m.bytes f, granules := spClear m.granules f } = true := by
  rw [memWf_iff] at *
  exact ⟨spWf_filter _ h.1, h.2.1, spWf_filter _ h.2.2⟩

/-- The memory after reset is in its canonical form. -/
theorem reset_memWf (b : Bool) : (Part.reset b).memWf := by decide +revert

/-- An access of up to 32 bytes that stays in one granule of a window that is not poison stores its bytes there. -/
theorem Part.store_gran (p : Part) (g q a : Nat) (bs : List Byte) (hw : isHbm a = false) (h1 : bs ≠ []) (h2 : a % 32 + bs.length ≤ 32)
    (h3 : bs.length < 32) (h4 : p.granPoison a = false) :
    p.store g q a bs none = { p with mem := { p.mem with bytes := putBytes p.mem.bytes a bs } } := by
  have hl : bs.length / 32 + 2 = (bs.length / 32 + 1) + 1 := rfl
  unfold Part.store
  rw [hl, Part.storeLoop]
  have e : bs.isEmpty = false := by cases bs <;> simp_all
  have t : bs.take (32 - a % 32) = bs := List.take_of_length_le (by omega)
  have d : bs.drop (32 - a % 32) = [] := List.drop_of_length_le (by omega)
  simp only [e, hw, Bool.false_eq_true, if_false, t, d]
  rw [Part.storeLoop]
  simp [Part.writeGran, h3, h4]

/-- What the copy of a capture into its duplication area keeps. -/
@[simp] theorem Part.saveCapture_keeps (p : Part) (c g : Nat) :
    (p.saveCapture c g).cycle = p.cycle ∧ (p.saveCapture c g).cores = p.cores ∧ ∀ j, (p.saveCapture c g).core j = p.core j := by
  unfold Part.saveCapture; split <;> simp [Part.fresh, Part.core]

/-- The copy of a capture keeps the canonical form of memory. -/
theorem Part.saveCapture_wf {p : Part} (c g : Nat) (h : p.memWf) : (p.saveCapture c g).memWf := by
  unfold Part.saveCapture; split
  · exact h
  · exact Part.store_wf (p := p.fresh.2) _ _ _ _ _ h

/-- A group that is not captured copies nothing. -/
theorem Part.saveCapture_none {p : Part} {c g : Nat} (h : ∀ d ∈ p.dups (coreSector c), d.is c g = false) : p.saveCapture c g = p := by
  unfold Part.saveCapture
  rw [List.find?_eq_none.mpr (by intro d hd; simp [h d hd])]

end Sys2Proof.Machine
end

