-- ==== Sys2Proof/Laws/Fault.lean ====
section
/-!
SUPPORT. What a fault of a core leaves (R55, R113).
-/
namespace Sys2Proof.Machine

theorem foldl_keeps {α β γ : Type} (get : α → γ) (f : α → β → α) (h : ∀ a b, get (f a b) = get a) (l : List β) (a : α) :
    get (l.foldl f a) = get a := by
  induction l generalizing a with
  | nil => rfl
  | cons x r ih => rw [List.foldl_cons, ih, h]

/-- Adding rows to a group changes the accumulator words and the groups alone. -/
theorem accRows_keeps {γ : Type} (get : Core → γ) (h : ∀ k a g, get { k with acc := a, groups := g } = get k) (keep : Bool) (u : Nat)
    (k : Core) (r : PassRun) (n : Nat) : get (accRows keep u k r n).1 = get k := by
  unfold accRows
  dsimp only
  refine foldl_keeps (fun q : Core × Events => get q.1) _ ?_ _ _
  intro q i
  exact h q.1 _ _

theorem Part.applyWrites_core (p : Part) (c : Nat) (ws : List SpWrite) (d : Nat) : (p.applyWrites c ws).core d = p.core d := by
  unfold Part.applyWrites
  exact Part.each_get (fun p => p.core d) _ _ _ (fun p w => by simp)

/-- Stopping passes changes the accumulator words and the groups alone. -/
theorem stopPass_keeps {γ : Type} (get : Core → γ) (h : ∀ k a g, get { k with acc := a, groups := g } = get k) (keep : Bool) (u : Nat)
    (l : List PassRun) (q : Core × Events) : get (l.foldl (stopPass keep u) q).1 = get q.1 :=
  foldl_keeps (fun q : Core × Events => get q.1) (stopPass keep u) (fun q r => accRows_keeps get h keep u q.1 r _) l q

/-- Discarding later work leaves the other cores alone, and of the core what `get` shows when it does not show the discarded work. -/
theorem Part.discardAfter_core {γ : Type} (get : Core → γ)
    (h : ∀ (k : Core) acc groups mq passes loading loadTile vq vrun, get { k with
      acc := acc, groups := groups, mq := mq, passes := passes, loading := loading, loadTile := loadTile, vq := vq, vrun := vrun } = get k)
    (p : Part) (c seq : Nat) : get ((p.discardAfter c seq).core c) = get (p.core c) := by
  have e0 := stopPass_keeps get (fun k a g => h k a g k.mq k.passes k.loading k.loadTile k.vq k.vrun) (p.keep c) p.fresh.1
    ((p.core c).passes.filter fun r => r.op.head.seq > seq) (p.core c, .none)
  have ek : p.fresh.2.keep c = p.keep c := rfl
  unfold Part.discardAfter
  dsimp only
  simp only [Part.fresh_keeps, ek]
  repeat' split
  all_goals simp only [Part.coreEvents_keeps, Part.applyWrites_core, Part.core_setCore, if_true]
  all_goals (rw [← e0]; exact h _ _ _ _ _ _ _ _ _)

theorem Part.discardAfter_other (p : Part) (c seq d : Nat) (hd : d ≠ c) : (p.discardAfter c seq).core d = p.core d := by
  unfold Part.discardAfter
  dsimp only
  repeat' split
  all_goals simp [Part.applyWrites_core, Ne.symm hd]

/-- A fault of a core that has none recorded. -/
theorem Part.fault_faults (p : Part) (c code pc seq pair : Nat) (h : (p.core c).faultSeq = none) :
    ((p.fault c code pc seq pair).core c).st = .faulted ∧ ((p.fault c code pc seq pair).core c).faultCode = code ∧
      ((p.fault c code pc seq pair).core c).faultPc = pc % 65536 ∧ ∀ d, d ≠ c → (p.fault c code pc seq pair).core d = p.core d := by
  unfold Part.fault
  simp only [h, Bool.false_eq_true, if_false]
  refine ⟨?_, ?_, ?_, fun d hd => ?_⟩
  · simp only [Part.err_keeps, Part.trace_keeps]
    rw [Part.discardAfter_core Core.st (by intros; rfl)]; simp
  · simp only [Part.err_keeps, Part.trace_keeps]
    rw [Part.discardAfter_core Core.faultCode (by intros; rfl)]; simp
  · simp only [Part.err_keeps, Part.trace_keeps]
    rw [Part.discardAfter_core Core.faultPc (by intros; rfl)]; simp
  · simp only [Part.err_keeps, Part.trace_keeps]
    rw [Part.discardAfter_other _ _ _ _ hd]; simp [Ne.symm hd]

/-- A core that faults at its present instruction, in a part with the cores of `p` but for the state of that one. -/
theorem faultsWith_of (p r : Part) (c code : Nat) (hc : r.core c = (p.core c).runs) (ho : ∀ d, d ≠ c → r.core d = p.core d)
    (h : (p.core c).faultSeq = none) : FaultsWith p (r.faultNow c code) c code := by
  have := Part.fault_faults r c code (r.core c).pc (r.core c).seq (r.core c).pair (by rw [hc]; simpa using h)
  obtain ⟨h1, h2, h3, h4⟩ := this
  refine ⟨h1, h2, ?_, fun d hd => ?_⟩
  · unfold Part.faultNow; rw [h3, hc]; simp
  · unfold Part.faultNow; rw [h4 d hd, ho d hd]

/-- A running core that faults at its present instruction. -/
theorem faultsWith_now (p : Part) (c code : Nat) (h : (p.core c).faultSeq = none) :
    FaultsWith p ((p.setCore c (p.core c).runs).faultNow c code) c code :=
  faultsWith_of p _ c code (by simp) (fun d hd => by simp [Ne.symm hd]) h

end Sys2Proof.Machine
end

