-- ==== Sys2Proof/Tests/Slice0.lean ====
section
/-!
SUPPORT. Tests: ill-formed commands are refused, words are decoded as the encodings say, values the spec states are met, and a state that
meets the hypotheses of each clause of each statement.
-/
namespace Sys2Proof.Machine

set_option Elab.async false

/-- Write registers. -/
def testRegs (p : Part) (l : List (Nat × Nat)) : Part := l.foldl (fun p e => p.wr e.1 e.2) p

/-- A part whose clock runs, in the compute phase of a frame, whose core 0 has a role and an inbound partition from 0x40000 on. -/
def testPart : Part :=
  { testRegs (Part.reset true) [(PWR_STATUS, 0x30), (TIK_STATUS, 1), (COR_CTRL 0, 0xF), (COR_PART 0, 0x4001)] with
    power := { Power.reset with up := true } }

/-- The part with core 0 running and changed. -/
def testCore (f : Core → Core) : Part := testPart.modCore 0 fun k => f { k with st := .running }

/-- The core with registers g1 to g5: a length of 64, a source in its scratchpad and a destination in its inbound partition. -/
def testRackCore (k : Core) : Core :=
  ((((k.setReg 1 64).setReg 2 0x1000).setReg 3 0x80).setReg 4 0x40000).setReg 5 0x80

/-- The state that holds a part. -/
def testState (p : Part) : State := { State.reset with p := p }

/-- An operand form with the registers g1, g2 and g3. -/
def testA (i : BitVec 1) (imm : BitVec 32) : FmtA := ⟨1, 2, 3, i, imm⟩

theorem witness_scalar : (testState (testCore id)).p.ready 0 (1 :: (testA 0 0).sources) = true := by decide

theorem witness_control :
    (testCore id).ready 0 [] = true ∧
    ((testCore id).ready 0 [2, 3] = true ∧ brCond 1 0 0 = some true ∧ 8 % 8 = 0 ∧ 4088 < (testCore id).codeEnd 0) ∧
    brCond 2 0 0 = some false ∧
    ((testCore id).ready 0 [1] = true ∧ (testCore id).ready 0 [1, 2] = true ∧ ((testCore fun k => k.setReg 2 4088).core 0).reg 2 = 4088) ∧
    ((testCore id).mayIssue 0 = true ∧ ((testCore id).core 0).faultSeq = none) := by decide

theorem witness_local :
    let p := testCore fun k => k.setReg 2 0x4FFF8
    let l := 0x4FFFC
    (p.ready 0 (1 :: (testA 1 4).sources) = true ∧ (((p.core 0).reg 2 + 4) % 2 ^ 32 / 4 * 4 = l) ∧ l + 4 ≤ 0x50000 ∧
      p.mustWait 0 (p.core 0).seq [(l, l + 4)] [] = false ∧ p.spadPoison 0 (l, l + 4) = none ∧ p.codeEnd 0 ≤ l ∧
      p.mustWait 0 (p.core 0).seq [] [(l, l + 4)] = false ∧ p.granPoison (spadAddr 0 l) = false) ∧
    (0x50000 < ((p.core 0).reg 2 + 8) % 2 ^ 32 / 4 * 4 + 4) ∧
    ((testCore id).codeEnd 0 = 4096 ∧ ((testCore fun k => k.setReg 2 4092).core 0).reg 2 % 2 ^ 32 / 4 * 4 < 4096) := by decide

theorem witness_irregular :
    let p := testCore testRackCore
    (p.ready 0 [1, 2, 3] = true ∧ (p.core 0).outstanding < 4 ∧ p.irrMapped true 0x8000001000 = true ∧
      gChip ((p.core 0).irrAddr ⟨1, 2, 3, 0, 0⟩) = p.chip) ∧
    ((testCore id).irrMapped true 0 = false ∧ gChip 0 = (testCore id).chip) ∧
    ((testCore id).ready 0 [5, 4, 5] = true ∧ p.irrMapped false 0x8000040000 = true) ∧
    (let q := testCore fun k => { k with irr := List.replicate 4 ⟨0, true, 9, 0, 0, none, 0, 0, false⟩ }
     q.ready 0 [1, 2, 3] = true ∧ 4 ≤ (q.core 0).outstanding) := by decide

theorem witness_system :
    (testCore id).ready 0 [1] = true ∧ (testCore id).sysValue 0 10 = some 0 ∧ (testCore id).sysValue 0 11 = none ∧
    (testCore id).ready 0 [] = true ∧ ((testCore id).core 0).faultSeq = none ∧
    (let p := testRegs (testCore id) [(SOBS_TRACE_CFG 0, 0x10001)]
     p.ready 0 [2] = true ∧ p.getB OBS_FREEZE 4 = false ∧ p.getB (SOBS_TRACE_CFG 0) 0 = true ∧ p.getB (SOBS_TRACE_CFG 0) 16 = true ∧
       (spGet [] p.obs.stage 0).length < 256) := by decide

theorem witness_waits :
    (let p := testCore fun k => { k with ev := [(3, 15)] }
     p.ready 0 [] = true ∧ 15 ≤ (p.core 0).visible p.cycle 3 ∧ (p.core 0).visible p.cycle 4 < 1 ∧ (p.core 0).faultSeq = none) ∧
    (let p := testCore fun k => { k with ev := [(3, 15)], evNew := [(3, (0, 1))] }
     p.ready 0 [] = true ∧ (p.core 0).visible p.cycle 3 = 14) ∧
    (let p := testPart.modCore 0 fun k => { k with st := .evWait, waitId := 3, waitN := 2, ev := [(3, 2)] }
     p.live = true ∧ (p.core 0).st = .evWait ∧ (p.core 0).waitN ≤ spGet 0 (p.core 0).ev (p.core 0).waitId) ∧
    (let p := (testCore id).modTick fun t => { t with signals := [(0, 31)] }
     (0, 31) ∈ p.tick.signals) := by decide +kernel

theorem witness_signals :
    (testCore id).ready 0 [2] = true ∧ (testCore id).validCore (((testCore id).core 0).reg 2 % 8192) = true ∧
    (testCore id).evFull 0 1 = false ∧
    (let p := (testCore id).modTick fun t => { t with signals := List.replicate 64 (0, 3) }
     p.ready 0 [] = true ∧ p.evFull 0 1 = true) ∧
    (testCore id).validCore ((testCore fun k => k.setReg 2 1536).core 0 |>.reg 2) = false ∧
    ((testCore fun k => k.setReg 2 8192).core 0).reg 2 / 8192 % 65536 ≠ (testCore id).chip ∧
    (let p := (testCore fun k => { k with ev := [(0, 254), (1, 255)] }).modTick fun t => { t with signals := [(0, 0), (0, 1)] }
     ((0, 0) ∈ p.tick.signals ∧ spGet 0 (p.core 0).ev 0 < 255 ∧ (p.core 0).st ≠ .evWait) ∧ (0, 1) ∈ p.tick.signals ∧ 255 ≤ spGet 0 (p.core 0).ev 1) := by decide

theorem witness_herd :
    let p := testRegs (testCore id) [(COR_JOIN 0 0, 0x800000000001)]
    let q := p.modCore 0 fun k => { k with arrived := 2 ^ 47 }
    (p.ready 0 [] = true ∧ p.joins 0 47 = true ∧ bit (p.core 0).arrived 47 = false) ∧
    (q.ready 0 [] = true ∧ bit (q.core 0).arrived 47 = true) ∧ (p.joins 0 1 = false ∧ (p.core 0).faultSeq = none) ∧ 48 ≤ 63 ∧
    (q.live = true ∧ (q.roleCores.filter fun d => q.joins d 47) ≠ [] ∧ (q.roleCores.filter fun d => q.joins d 47).Nodup ∧
      ∀ d ∈ q.roleCores.filter fun d => q.joins d 47, bit (q.core d).arrived 47 = true) := by decide

theorem witness_halts :
    (testCore id).ready 0 [] = true ∧
    (let p := testPart.modCore 0 fun k => { k with st := .inFence, fence := 3 }
     p.live = true ∧ (p.core 0).st = .inFence ∧ p.fenceDone 0 = true) := by decide

/-- A load and a pass of 16 rows at the end of the scratchpad's first half. -/
def testLoad : LoadOp := ⟨⟨1, 0, 0⟩, 1, .i8, false, 0x2000, 32⟩
/-- A pass that opens group 3. -/
def testPass : PassOp := ⟨⟨2, 8, 0⟩, 1, false, true, true, false, 0x2000, 32, .i8, 1, 3, 31⟩
/-- The tile the pass reads. -/
def testTile : Tile := ⟨.i8, false, [], [], none⟩
/-- A stream with no inputs. -/
def testStream : StreamOp := ⟨⟨1, 0, 0⟩, 2, 0x2000, 0, 0, 0, .b32, none, none, none, 0, false⟩
/-- A drain of a binary32 tile. -/
def testDrain : DrainOp := ⟨⟨1, 0, 0⟩, 0, 0x2000, 128, .b32, 0, false, 0, true⟩
/-- A running stream that has written nothing. -/
def testVrun (o : VOp) : VRun := ⟨o, 3, [], [], [], 1, .none⟩

theorem witness_matrix_queue :
    let p := testCore fun k => (k.setReg 2 0x2000).setReg 3 32
    let full := testCore fun k => { k with mq := List.replicate 8 (.load testLoad) }
    (p.ready 0 [2, 3] = true ∧ Fmt.ofCode 4 = some .i8 ∧ inSpad (LoadOp.reads ⟨⟨0, 0, 0⟩, 1, .i8, false, 0x2000, 32⟩) = true ∧
      (p.core 0).mq.length < 8) ∧
    (full.ready 0 [2, 3] = true ∧ 8 ≤ (full.core 0).mq.length) ∧
    inSpad (LoadOp.reads ⟨⟨0, 0, 0⟩, 1, .i8, false, 0x4FFE0, 32⟩) = false ∧ 6 ≤ 7 ∧ (p.core 0).faultSeq = none ∧
    (31 + 0 + 1 ≤ 32 ∧ inSpad (PassOp.reads ⟨⟨0, 0, 0⟩, 1, false, true, true, false, 0x2000, 32, .i8, 1, 3, 31⟩) = true) ∧ 32 < 31 + 1 + 1 := by
  decide

theorem witness_vector_queue :
    let p := testCore id
    let busy := testCore fun k => { k with vrun := some (testVrun (.stream testStream)) }
    let full := testCore fun k => { k with vrun := some (testVrun (.stream testStream)), vq := List.replicate 8 (.setvl 1 1) }
    (p.ready 0 [2, 3] = true ∧ (p.core 0).vrun = none ∧ (p.core 0).vq = []) ∧
    (busy.ready 0 [2, 3] = true ∧ (busy.core 0).vrun.isSome = true ∧ (busy.core 0).vq.length < 8) ∧
    (full.ready 0 [2, 3] = true ∧ (full.core 0).vrun.isSome = true ∧ 8 ≤ (full.core 0).vq.length) ∧
    (p.ready 0 [] = true ∧ ∀ x ∈ stepUses 0 12 0 0, x < 12 → x < 0) ∧
    (p.ready 0 [1, 2, 3, 4] = true ∧ Fmt.ofCode 6 = some .b32 ∧ (∀ i ∈ usedInputs [], (nth [none, none, none] i (none : Option Fmt)).isSome = true) ∧
      inSpad (someBytes (testStream.reads 0 ++ testStream.writes 0)) = true ∧ p.outOfCode 0 (someBytes (testStream.writes 0)) = true) ∧
    (p.outlook 0 0 = none ∧ inSpad (testDrain.reads false false ++ testDrain.writes false) = true ∧
      p.outOfCode 0 (testDrain.writes false) = true) := by decide

theorem witness_matrix_unit :
    (let p := testCore fun k => { k with mq := [.load testLoad], seq := 2 }
     p.working = true ∧ (p.core 0).loading = none ∧ p.mustWait 0 1 testLoad.reads [] = false) ∧
    (let p := testCore fun k => { k with loading := some testLoad, loadTile := some testTile }
     (p.core 0).loading = some testLoad ∧ p.live = true) ∧
    (let p := testCore fun k => { k with mq := [.pass testPass], buf1 := some testTile }
     (p.core 0).mq = [.pass testPass] ∧ p.passWaits 0 testPass = false ∧ (p.core 0).buf 1 = some testTile ∧ testTile.cmp = testPass.cmp ∧
       testTile.fmt.isInt = testPass.fmt.isInt ∧ testPass.init = true ∧ p.passWaits 0 { testPass with init := false } = false ∧
       ((p.core 0).group 3).st = .free ∧ (p.core 0).faultSeq = none) ∧
    (let p := testCore fun k => { k with passes := [⟨testPass, true, [], [], none⟩], ftq := List.replicate 8 0 }
     (p.core 0).passes = [⟨testPass, true, [], [], none⟩] ∧ p.live = true ∧ 8 ≤ (p.core 0).ftq.length ∧ testPass.close = true) ∧
    (let p := testCore fun k => { k with passes := [⟨testPass, true, [], [], none⟩] }
     p.live = true ∧ (p.core 0).closing = [] ∧ (p.core 0).ftq.length < 8) ∧
    (let p := testCore fun k => { k with passes := [⟨testPass, true, [], [], none⟩], closing := [5] }
     p.live = true ∧ (p.core 0).closing ≠ []) := by decide

theorem witness_vector_engine :
    (let p := testCore fun k => { k with vq := [.stream testStream], slots := [(2, [⟨0, 12, 0, 0, 0⟩])] }
     (p.core 0).vrun = none ∧ p.working = true ∧ p.mustWait 0 1 (someBytes (testStream.reads 0)) (someBytes (testStream.writes 0)) = false ∧
       spGet [] (p.core 0).slots 2 ≠ [] ∧ spGet [] (p.core 0).slots 3 = []) ∧
    (let p := testCore fun k => { k with vq := [.drain testDrain], ftq := [3], groups := [(3, { Group.reset with st := .queued, isInt := true })] }
     (p.core 0).ftq = [3] ∧ p.working = true ∧ p.outlook 0 0 = none ∧ p.mustWait 0 1 (testDrain.reads false false) (testDrain.writes false) = false ∧
       testDrain.int = ((p.core 0).group 3).isInt ∧ (spGet .reset (p.core 0).psets 0).clip = false ∧ (p.core 0).closing = []) ∧
    (let p := testCore fun k => { k with vrun := some (testVrun (.stream testStream)) }
     (p.core 0).vrun = some (testVrun (.stream testStream)) ∧ p.live = true) ∧
    (let p := testCore fun k => { k with vrun := some (testVrun (.drain testDrain)) }
     (p.core 0).vrun = some (testVrun (.drain testDrain)) ∧ p.live = true) := by decide

theorem witness_rack :
    let p := testRegs (testCore testRackCore) [(RCK_CTRL 0, 1)]
    let full : Part := { p with rack := [(0, { Rack.reset with transfers := (List.range 3).map fun n => ⟨n, 0, 0, 0, 0, 0, 0, 0, 0, [], [], false⟩ })] }
    (p.ready 0 [1, 2, 3, 4, 5] = true ∧ (p.rck 0).freeTag = some 0 ∧ p.getB (RCK_CTRL 0) 0 = true ∧
      rackLenBad ((p.core 0).pairAddr 2) ((p.core 0).pairAddr 4) 64 = false ∧ gChip ((p.core 0).pairAddr 2) = p.chip ∧
      gChip ((p.core 0).pairAddr 4) = p.chip ∧ rackOverlap p.chip ((p.core 0).pairAddr 2) ((p.core 0).pairAddr 4) 64 = false ∧
      p.rackSrcOk 0x8000001000 64 = true ∧ p.rackDstOk 0x8000040000 64 = true) ∧
    (full.rck 0).freeTag = some 3 ∧ rackLenBad 0 0 0 = true ∧ rackLenBad 0 0 (2 ^ 26) = false ∧ rackLenBad 0 0 (2 ^ 26 + 32) = true ∧
    ((p.core 0).faultSeq = none ∧ p.ready 0 [1, 3, 4, 4, 5] = true ∧ 3 % 2 = 1) := by decide

theorem witness_unit_requests :
    let p := testCore fun k => k.setReg 1 0x1000
    let r : Ureq := ⟨0, 0, 0, none, 0, [], none, none⟩
    let full := p.modUnit 0 fun u => { u with smpQ := List.replicate 64 r }
    (p.ready 0 [1] = true ∧ p.inPrivate 0 0x1000 64 = true ∧ p.mustWait 0 (p.core 0).seq [(0x1000, 0x1040)] [] = false ∧
      ((p.unit 0).queued 0).length < 64) ∧
    (full.ready 0 [1] = true ∧ 64 ≤ ((full.unit 0).queued 0).length ∧ full.inPrivate 0 0x1000 64 = true) ∧
    ((p.core 0).faultSeq = none ∧ 4 ≤ 4 ∧ p.inPrivate 0 0x40000 64 = false ∧ p.inPrivate 0 0x3FFC0 64 = true) := by decide

/-- A part whose scheduler runs queue 5 for core 0 with 16 places, closed by counter 6. -/
def testSch : Part := testRegs (testCore fun k => (k.setReg 1 0x1000).setReg 2 5)
  [(SCH_CTRL 0, 3), (SCH_QCFG 0 5, 0xF8006 + 4 * 2 ^ 44), (SCH_BIND 0 0 0, 0x8005)]

theorem witness_scheduler_instructions :
    let p := testSch
    let ended := p.modSch 0 fun h => { h with queues := [(5, ⟨true, false, false, [], []⟩)] }
    let d := p.spad 0 0x1000 64
    (p.ready 0 [1, 1] = true ∧ (p.core 0).endSeen = false ∧ p.inPrivate 0 0x1000 64 = true ∧ p.endOfWork 0 = false) ∧
    (ended.ready 0 [1, 1] = true ∧ ended.endOfWork 0 = true) ∧
    (let q := testCore fun k => { k with endSeen := true }
     q.ready 0 [1, 1] = true ∧ (q.core 0).endSeen = true ∧ (q.core 0).faultSeq = none) ∧
    (p.ready 0 [1, 2] = true ∧ p.mustWait 0 (p.core 0).seq [(0x1000, 0x1040)] [] = false ∧ p.spadPoison 0 (0x1000, 0x1040) = none ∧
      descBad d false = false ∧ dCtrl d 0 = false ∧ p.queueFull 0 5 = false ∧ descBad (withTag d 0) false = false ∧
      dCtrl (withTag d 0) 0 = false) ∧
    (p.modSch 0 fun h => { h with subs := List.replicate 16 ⟨5, .core, []⟩ }).queueFull 0 5 = true ∧
    (p.schOn 0 = true ∧ (p.sch 0).held.length < 4096 ∧ p.outsideWindow 0 d = false) ∧
    (p.ready 0 [2] = true ∧ p.queueOn 0 5 = true ∧ (p.queue 0 5).violated = false) := by decide

theorem witness_irregular_returns :
    let i : IrrOp := ⟨0, true, 9, 0x8000040000, 7, none, 0, 0, false⟩
    let j : IrrOp := { i with isLoad := false }
    let far : IrrOp := { j with gaddr := 2 ^ 40 }
    (let p := testCore fun k => { k with irr := [i] }
     p.irrReady 0 true = some i ∧ p.live = true ∧ p.irrHeld 0 i = false ∧ p.tick.unwinding = false) ∧
    (let p := testCore fun k => { k with irr := [j] }
     p.irrReady 0 false = some j ∧ p.irrHeld 0 j = false ∧ gChip j.gaddr = p.chip ∧ isHbm (gLocal j.gaddr) = false ∧ p.inInbound (gLocal j.gaddr) 4 = true ∧
       gLocal j.gaddr % 4 = 0 ∧ p.granPoison (gLocal j.gaddr) = false) ∧
    (let r : Packet := ⟨0, 1, 0, 0, 1, 0, 4, 0, 0, []⟩
     let p := (testCore fun k => { k with irr := [far] }).modFab fun f => { f with rx := [r] }
     p.irrReady 0 false = some far ∧ p.irrHeld 0 far = false ∧ gChip far.gaddr ≠ p.chip ∧ p.irrReply 0 far = some r) := by decide

theorem witness_cores_start :
    let p := testPart.modCore 0 fun k => { k with st := .clearing }
    p.live = true ∧ p.inFrame = true ∧ p.tick.coresStarted = false ∧ 0 ∈ p.roleCores ∧ (p.core 0).st = .clearing ∧
    (let q := p.modTick fun t => { t with coresStarted := true, codeAt := [(0, 200)] }
     q.live = true ∧ q.inFrame = true ∧ q.coresWaiting = [0] ∧ max 128 (spGet 0 q.tick.codeAt 0) = 200) := by decide


/-- A packet that has arrived. -/
def testPk (src cls kind ref : Nat) (payload : List Byte) : Packet := ⟨0, src, 0, 0, cls, 0, kind, ref, 0, payload⟩
/-- The part with packets that wait for their units. -/
def testRx (p : Part) (l : List Packet) : Part := p.modFab fun f => { f with rx := l }
/-- The part with its HBM zeroed. -/
def testReady (p : Part) : Part := { p with mem := { p.mem with ready := true } }
/-- A token of count 1. -/
def testTok : TokenMsg := { count := 1, replay := false, held := false, len := 50000000, stretch := 0, master := 7, halt := false }
/-- A part in the tick tree: it follows by its parent bundle 0, which is up, and its token says part 7 is the master. -/
def testTree (p : Part) : Part := testRegs p [(TIK_CTRL, 1), (FAB_TREE, 0), (FAB_PSTATUS 0, 0xF5), (TIK_MASTER, 7)]
/-- The tick master. -/
def testMaster (p : Part) : Part := testRegs p [(TIK_STATUS, 0x21), (TIK_CTRL, 1), (TIK_GRAFT_STATUS, 2), (FAB_PSTATUS 0, 0xF5)]

theorem witness_tick_master :
    let p := (testMaster testPart).modTick fun t => { t with stopAfter := false, members := [3], statuses := [⟨3, true, 0, false⟩] }
    let q := p.modTick fun t => { t with statuses := [] }
    let h := p.modTick fun t => { t with holds := [⟨3, 0, 0⟩] }
    let i := p.modTick fun t => { t with tokenSent := 1 }
    (p.role = 1 ∧ p.clocked = true ∧ p.getB TIK_GRAFT_STATUS 1 = true ∧ p.getB TIK_CTRL 0 = true ∧ p.tick.stopAfter = false ∧
      p.tick.token = none ∧ p.tick.tokenSent ≤ p.tickCount ∧ p.tick.holds = [] ∧ p.tick.edge = none ∧ p.tick.resumeReplay = false ∧
      (∀ m ∈ p.tick.members, p.passed m = true) ∧ p.txnState ≠ 3 ∧ p.bundleUp 0 = true) ∧
    (q.inFrame = true ∧ (∃ m ∈ q.tick.members, q.passed m = false) ∧ q.role = 1 ∧ q.tick.holds = []) ∧
    (h.tick.holds ≠ [] ∧ h.tick.holdNoticed = false ∧ h.role = 1 ∧ h.tick.tokenSent ≤ h.tickCount) ∧
    (i.role = 1 ∧ i.clocked = true ∧ i.tick.issued < i.tick.tokenSent) := by decide

theorem witness_tokens :
    let p := testTree testPart
    p.role ≠ 1 ∧ p.clocked = true ∧ p.bundleUp (p.getF FAB_TREE 8 4) = true ∧ testTok.master = p.getF TIK_MASTER 0 16 ∧
      0 = p.getF FAB_TREE 8 4 ∧ 0 < 8 ∧ p.role = 0 ∧ p.getB TIK_CTRL 0 = true ∧ p.tick.token = none ∧ p.tick.edge = none ∧
      p.txn.validating = none ∧ testTok.count = p.tickCount + 1 ∧ { testTok with count := 2 }.count ≠ p.tickCount + 1 ∧
      { testTok with held := true }.held = true ∧ 1 ≠ p.parent false ∧ 0 = p.parent false ∧ p.fab.standbyTree = false ∧
      (∀ h ∈ [(⟨0, false⟩ : CtlHead), ⟨0, true⟩], h.second = true → spGet none p.fab.firstCopy 0 ≠ some (.token testTok)) ∧
      spGet none (p.modFab fun f => { f with firstCopy := [(0, some (.token testTok))] }).fab.firstCopy 0 = some (.token testTok) := by decide

theorem witness_edges :
    let p := testRegs testPart [(TIK_CTRL, 1)]
    let tree := testRegs testPart [(TIK_CTRL, 3)]
    let k := p.modTick fun t => { t with token := some ⟨testTok, 10⟩ }
    let e := p.modTick fun t => { t with edge := some 5 }
    let te := k.modTick fun t => { t with treeEdge := some 9 }
    p.clocked = true ∧ tree.clocked = true ∧ tree.getB TIK_CTRL 1 = true ∧ p.getB TIK_CTRL 1 = false ∧ p.getB TIK_CTRL 0 = true ∧
      p.tick.token = none ∧ p.tick.edge = none ∧ k.tick.token = some ⟨testTok, 10⟩ ∧ k.tick.treeEdge = none ∧ k.clocked = true ∧
      k.getB TIK_CTRL 1 = false ∧ k.getB TIK_CTRL 0 = true ∧ e.tick.edge = some 5 ∧ e.clocked = true ∧
      te.tick.treeEdge = some 9 ∧ te.tick.token = some ⟨testTok, 10⟩ ∧ te.getB TIK_CTRL 1 = false ∧ te.clocked = true ∧
      te.txnState ≠ 3 ∧ k.cycle + k.rd TIK_DELAY_COMP ≤ 10 + 64 ∧
      10 + 64 < { k with cycle := 75 }.cycle + { k with cycle := 75 }.rd TIK_DELAY_COMP := by decide

theorem witness_phases :
    let done := testRegs testPart [(COR_CTRL 0, 0)]
    let red := testRegs done [(TIK_STATUS, 5)]
    let com := testRegs done [(TIK_STATUS, 9)]
    let bad := com.modTick fun t => { t with cause := 2 }
    (done.clocked = true ∧ done.phase = 0 ∧ done.computeDone = true) ∧ (red.phase = 1 ∧ red.reduceDone = true ∧ red.clocked = true) ∧
    ((testCore id).phase = 0 ∧ (testCore id).computeDone = false ∧ (testCore id).clocked = true) ∧
    (com.phase = 2 ∧ com.getB TIK_STATUS 1 = false ∧ com.computeDone = true ∧ com.reduceDone = true ∧ com.commitDone = true ∧
      com.tick.cause = 0 ∧ com.clocked = true) ∧ (bad.tick.cause ≠ 0 ∧ bad.commitDone = true) ∧
    (testPart.inFrame = true ∧ testPart.tick.guardDone = false ∧ testPart.getB TIK_STATUS 1 = false ∧ testPart.clocked = true) := by decide +kernel

theorem witness_statuses :
    let m := (testMaster testPart).modTick fun t => { t with members := [3] }
    let k4 := testPk 3 3 4 0 (leBytes 8 0 ++ leBytes 8 0)
    let s4 := testRx m [k4]
    let late := testRx m [testPk 4 3 4 0 (leBytes 8 0)]
    let held := testRx (m.modTick fun t => { t with holds := [⟨3, 1, 0⟩] }) [testPk 3 3 7 1 []]
    let sb := testRegs testPart [(TIK_STATUS, 0x41)]
    (s4.role ≠ 0 ∧ s4.flagPacket 4 = some k4 ∧ leAt k4.payload 0 8 = s4.tickCount ∧ s4.tick.tokenSent ≤ s4.tickCount ∧
      k4.src ∈ s4.tick.members ∧ ∀ x ∈ s4.tick.statuses, x.chip ≠ k4.src) ∧
    (late.role ≠ 0 ∧ late.flagPacket 4 = some (testPk 4 3 4 0 (leBytes 8 0)) ∧ 4 ∉ late.tick.members) ∧
    (testRx m [testPk 3 3 5 0 (leBytes 8 100)]).flagPacket 5 = some (testPk 3 3 5 0 (leBytes 8 100)) ∧
    (testRx m [testPk 3 3 6 1 []]).flagPacket 6 = some (testPk 3 3 6 1 []) ∧
    (held.flagPacket 7 = some (testPk 3 3 7 1 []) ∧ held.tick.holds ≠ [] ∧
      (held.tick.holds.filter fun h => !(h.chip == 3 && h.source == 1)) = []) ∧
    (held.role = 1 ∧ (held.tick.holds.find? fun x => x.chip == 3 && x.source == 1) = some ⟨3, 1, 0⟩) ∧
    (sb.role = 2 ∧ sb.clocked = true ∧ sb.inFrame = true ∧ sb.getB TIK_STATUS 11 = false ∧ sb.tick.holds = [] ∧ sb.tick.token = none) ∧
    (let p := testRegs testPart [(PWR_STATUS, 0x34)]
     p.clocked = true ∧ p.getB PWR_STATUS 2 = true ∧ p.mgt.thermHold = false) := by decide

/-- A descriptor that waits on counter 6. -/
def testWaits : List Byte := leBytes 2 0 ++ leBytes 2 0x8006 ++ leBytes 60 0
/-- A descriptor of flow 1 whose first decrement names counter 6 of sector 0. -/
def testFlow : List Byte := leBytes 4 0 ++ leBytes 2 0x8001 ++ leBytes 10 0 ++ leBytes 4 6 ++ leBytes 8 0 ++ leBytes 4 4 ++ leBytes 32 0

theorem witness_scheduler_events :
    let p := testSch
    let d := leBytes 64 0
    let sub (d : List Byte) := p.modSch 0 fun h => { h with subs := [⟨5, .core, d⟩], dc := [(6, 2)] }
    let head := testPk 1 4 0 0 (leBytes 4 5 ++ leBytes 4 7)
    let body := testPk 1 2 2 (7 * 4096) d
    let rem := testRx p [head, body]
    let asks (q : Queue) := (p.modSch 0 fun h => { h with queues := [(5, q)] }).modCore 0 fun k => { k with st := .inAsk, askAddr := 0x1000, askRd := 4 }
    let fin := asks ⟨true, false, false, [], []⟩
    let get := asks ⟨false, false, false, [⟨0, d, false⟩], []⟩
    (p.schRuns 0 = true ∧ p.tick.unwinding = false ∧ (p.sch 0).preloaded = false ∧ (p.sch 0).loaded = false ∧ p.preloadWaits 0 = false ∧ fld (p.rd (SCH_PRELOAD 0 p.kind)) 48 15 = 0 ∧ p.hif.accepted = [] ∧
      5 ∈ p.cfgQueues 0 ∧ p.queueOn 0 5 = true ∧ p.getB (SCH_QCFG 0 5) 15 = true ∧
      p.getF (SCH_DC_INIT 0 p.kind (p.getF (SCH_QCFG 0 5) 0 14 / 2)) (16 * (p.getF (SCH_QCFG 0 5) 0 14 % 2)) 16 = 0) ∧
    ((sub d).working = true ∧ ((sub d).sch 0).subs = [⟨5, .core, d⟩] ∧ (sub d).queueOn 0 5 = true ∧
      ((sub d).queue 0 5).closed = false ∧ ((sub d).queue 0 5).violated = false ∧ ((sub d).queue 0 5).held < (sub d).queueSlots 0 5 ∧
      dWait d = none) ∧
    ((sub (leBytes 64 (2 ^ 224))).sch 0).subs = [⟨5, .core, leBytes 64 (2 ^ 224)⟩] ∧ dCtrl (leBytes 64 (2 ^ 224)) 0 = true ∧
    (p.schOn 0 = true ∧ p.delayFull 0 = false ∧ dCtrl d 0 = false) ∧
    (dWait testWaits = some 6 ∧ (sub testWaits).dcVal 0 6 ≠ 0 ∧ ((sub testWaits).sch 0).subs = [⟨5, .core, testWaits⟩]) ∧
    (rem.remoteSub 0 = some (head, body) ∧ rem.live = true ∧ (rem.sch 0).inbound.length < 64 ∧ body.poison = 0 ∧
      descBad (body.payload.take 64) false = false ∧ dCtrl (body.payload.take 64) 0 = false) ∧
    (fin.working = true ∧ (fin.core 0).st = .inAsk ∧ fin.endOfWork 0 = true) ∧
    (get.working = true ∧ (get.core 0).st = .inAsk ∧ get.endOfWork 0 = false ∧ get.nextDesc 0 = some (5, ⟨0, d, false⟩) ∧
      get.mustWait 0 (get.core 0).seq [] [(0x1000, 0x1040)] = false) := by decide

theorem witness_scheduler_releases :
    let p := testSch
    let f := p.modSch 0 fun h => { h with held := [⟨testFlow, 0, 0⟩], dc := [(6, 2)] }
    let z := p.modSch 0 fun h => { h with dcZero := [6], queues := [(5, ⟨false, false, false, [], [⟨0, testWaits, false⟩]⟩)] }
    let z0 := p.modSch 0 fun h => { h with dcZero := [6] }
    let e := p.modSch 0 fun h => { h with delay := [⟨0, 0, 5, 0, 0⟩], preloaded := true, loaded := true }
    let e := testReady (testRegs e [(TIK_OFFS_G 0, 1000)])
    (f.schRuns 0 = true ∧ (f.sch 0).held.find? (f.releasable 0 1) = some ⟨testFlow, 0, 0⟩ ∧ dFlow testFlow = some 1 ∧
      dCtrl testFlow 1 = false ∧ dCtrl testFlow 2 = true ∧ dCtrl testFlow 3 = false ∧ leAt testFlow 16 4 >>> 16 = f.chip ∧
      fld (leAt testFlow 16 4) 14 2 = 0 ∧ f.dcVal 0 (leAt testFlow 16 4 % 16384) ≠ 0) ∧
    (f.sch 0).held.find? (f.releasable 0 2) = none ∧
    ((z.sch 0).dcZero = [6] ∧ z.working = true ∧ z.waitingOn 0 6 = [(5, ⟨0, testWaits, false⟩)]) ∧
    ((z0.sch 0).dcZero = [6] ∧ z0.working = true ∧ z0.waitingOn 0 6 = [] ∧ 5 ∈ z0.cfgQueues 0 ∧ z0.queueOn 0 5 = true ∧
      z0.getB (SCH_QCFG 0 5) 15 = true ∧ z0.getF (SCH_QCFG 0 5) 0 14 = 6) ∧
    (e.dueNow 0 = [⟨0, 0, 5, 0, 0⟩] ∧ e.schRuns 0 = true ∧ (e.sch 0).loaded = true ∧ e.tick.unwinding = false ∧ e.queueFull 0 5 = false ∧
      let l := (e.clockTo (e.tick.frameStart + 128)).load 12 0 (e.getF (SCH_DELAY 0) 0 40) 64
      l.2.queueOn 0 5 = true ∧ l.1.2 = none ∧ dWait l.1.1 = none ∧ (e.queue 0 5).closed = false ∧ (e.queue 0 5).violated = false) := by decide +kernel

/-- A request of core 0. -/
def testReq (unit : Nat) (desc : List Byte) : Ureq := ⟨1, unit, 0, some 1, 0, desc, none, none⟩
/-- The part with a change of the request units of sector 0. -/
def testUnits (p : Part) (f : Units → Units) : Part := p.modUnit 0 f
/-- A part in a learning frame, in the phase given, with a press and its optimiser units on and the press's box of two parts. -/
def testLearn (phase : Nat) : Part :=
  (testRegs testPart [(TIK_STATUS, 1 + 4 * phase), (TIK_SPAN 0, 0x20000), (PRS_CTRL 0, 1), (OPT_CTRL 0, 1), (TBL_TCFG 0 0, 0x10001),
    (TBL_TSIZE 0 0, 4), (TBL_TSLOTS 0 0, 4), (PRS_PEER 0, 1)]).modFab fun f => { f with topoInForce := 1 }
/-- A change of the press of every sector. -/
def testPress (p : Part) (f : Press → Press) : Part := p.each [0, 1, 2, 3] fun p s => p.modPrs s f

theorem witness_request_starts :
    let p := testCore id
    let d0 := leBytes 64 0
    let d1 := leBytes 64 1
    p.serves = true ∧
    (∀ u < 4, let q := testUnits p fun x => x.setQueued u [testReq u d0]
      (q.unit 0).queued u = [testReq u d0] ∧ (q.unit 0).active u < 8 ∧ q.working = true) ∧
    (leAt d0 0 1 ≠ 1 ∧ p.roomFor 0 (p.tbl (gSpec d0 % 256)) (gFlag d0 2) (addrAt d0 8) (gCount d0) = true ∧
      p.roomFor 0 (p.tbl (leAt d0 2 2 % 256)) (bit (leAt d0 1 1) 4) (addrAt d0 16) (lCount d0) = true ∧ leAt d1 0 1 = 1) := by decide

/-- A gather descriptor: one key of table 0 at 0x2000 of core 0, its row and its record at the inbound partition. -/
def testGather : List Byte :=
  leBytes 1 0 ++ leBytes 1 1 ++ leBytes 2 0 ++ leBytes 4 1 ++ leBytes 8 0x8000002000 ++ leBytes 8 0x8000040000 ++ leBytes 16 0 ++
    leBytes 8 0x8000041000 ++ leBytes 16 0
/-- A row that waits for its data. -/
def testFetch : RowFetch := ⟨0, 0, 1, [0], false, 0, 0, 0, false, some (leBytes 32 7), none⟩

theorem witness_request_events :
    let p := testCore id
    let r : RunReq := ⟨testReq 1 testGather, 0, 1, 0, 0, [testFetch], []⟩
    let a := testUnits p fun u => { u with running := [r] }
    let d := testUnits p fun u => { u with running := [{ r with fetches := [{ testFetch with arrived := true }] }] }
    let t := testRegs p [(GSE_CTRL 0, 0x11), (TBL_TCFG 0 0, 0x1000B), (TBL_TSIZE 0 0, 2), (TBL_TMAP 0 0, 0x100000001), (TBL_RC_CFG 0, 0x100)]
    let t := (testUnits t fun u => { u with gatQ := [testReq 1 testGather] }).store 3 0 0x8000002000 (leBytes 4 1) none
    let T := t.tbl 0
    let l := t.loadList 3 0 0x8000002000 1
    let h := testUnits p fun u => { u with rcLookups := 2 ^ 31 }
    let v := (testRegs p [(TBL_CTRL 0, 0x100)]).modTick fun k => { k with coresStarted := true }
    (a.serves = true ∧ (a.rowReplies testFetch).all (fun k => !k.payload.isEmpty) = true ∧ (a.unit 0).running.find? (fun r => r.req.id == 1) = some r ∧ r.fetches[0]? = some testFetch ∧
      testFetch.arrived = false ∧ testFetch.row = some (leBytes 32 7) ∧ testFetch.poison = none ∧ testFetch.kind = 0 ∧
      testFetch.remote = false ∧ r.req.unit = 1 ∧ testFetch.outs = [0] ∧ isHbm (addrAt testGather 16 + 0 * gParam testGather 0) = false) ∧
    (testRx p [testPk 1 0 2 0 (leBytes 32 0)]).fab.rx.find? (fun q => q.cls == 0 && q.kind == 2) = some (testPk 1 0 2 0 (leBytes 32 0)) ∧
    (t.serves = true ∧ t.getB (GSE_CTRL 0) 0 = true ∧
      (((t.unit 0).gatQ.filter fun q => leAt q.desc 0 1 == 0 && q.poison.isNone).take (t.getF (GSE_CTRL 0) 4 4) = [testReq 1 testGather]) ∧
      t.tableOk 0 = true ∧ t.srcOk 0x8000002000 4 = true ∧ gCount testGather = 1 ∧ gFlag testGather 2 = false ∧ l.1 = ([1], none) ∧
      1 < T.rows ∧ (l.2.place T 1).1 ≠ t.chip ∧ (l.2.unit 0).outstanding < 12288 ∧ l.2.remoteCacheable T = true ∧ l.2.rcOn 0 = true ∧
      ((l.2.unit 0).ahead.any fun f => f.table == 0 && f.key == 1) = false ∧ (l.2.unit 0).inFlight 0 (l.2.place T 1).1 1 = false ∧
      ((List.range T.segs).all fun g => (l.2.rcFind 0 T (l.2.place T 1).1 1 g).isSome) = false) ∧
    (d.working = true ∧ (d.unit 0).running = [{ r with fetches := [{ testFetch with arrived := true }] }] ∧ r.req.ev = some 1 ∧
      r.req.poison = none ∧ gFlag testGather 0 = true ∧ d.recordOk 0 testGather = true ∧ isHbm (addrAt testGather 40) = false) ∧
    2 ^ h.getF (TBL_RC_CFG 0) 0 5 ≤ (h.unit 0).rcLookups ∧ (v.levelRuns 0 = true ∧ v.levelled = true) := by decide +kernel

theorem witness_press :
    let p := testLearn 1
    let s := testPress p fun h => { h with recs := [2 ^ 24] }
    let m := testPress p fun h => { h with sent := true }
    let c : Contribution := ⟨0, 2, 0, 0, 0, List.replicate 16 0, none⟩
    let i := (testPress m fun h => { h with owner := [c] }).modTick fun t => { t with markersFrom := [1] }
    let o := testPress m fun h => { h with ownerDone := true, cleared := true }
    let k := testPk 1 2 1 0 (leBytes 64 0)
    (s.working = true ∧ s.tick.unwinding = false ∧ s.phase ≠ 0 ∧ s.pressOn = true ∧ (s.prs 0).sent = false ∧ (s.prs 0).recs = [2 ^ 24] ∧
      (s.place (s.tbl 0) 1).1 = s.chip ∧ 1 < (s.tbl 0).rows) ∧
    (((testRx p [k]).fab.rx.find? fun q => q.cls == 2 && q.kind == 1 && leAt q.payload 4 4 % 4 == 0) = some k ∧ (p.prs 0).sent = false ∧
      (p.prs 0).stopped = false ∧ p.stagingRoom 0 < 16 * (p.prs 0).logged + 16 ∧ (m.prs 0).sent = true ∧
      16 * 0 + 16 ≤ (testRegs p [(PRS_STAGE 0, 2 ^ 59)]).stagingRoom 0) ∧
    (m.pressOn = true ∧ m.pressSent = true ∧ m.tick.markerSent = false ∧ 1 ∈ m.pressPeers ∧ m.working = true) ∧
    ((testRx p [testPk 1 3 3 0 []]).fab.rx.find? fun q => q.cls == 3 && q.kind == 3) = some (testPk 1 3 3 0 []) ∧
    (i.pressOn = true ∧ i.tick.unwinding = false ∧ i.markersIn = true ∧ (i.prs 0).ownerDone = false ∧ (i.prs 0).stopped = false ∧ (i.prs 0).owner = [c] ∧
      (i.tbl 0).tiered = false ∧ c.row < (i.tbl 0).slots0 ∧ i.working = true) ∧
    (o.pressOn = true ∧ (∀ y < 4, (o.prs y).ownerDone = true ∧ (o.prs y).cleared = true) ∧ (o.prs 0).composedDone = false ∧
      (o.prs 0).stopped = false ∧ o.tick.unwinding = false ∧ (o.prs 0).composed = [] ∧ (o.prs 0).jobs = [] ∧ o.working = true) := by decide +kernel

theorem witness_optimiser :
    let p := (testLearn 2).modTick fun t => { t with coresStarted := true, markerSent := true }
    let q := testPress p fun h => { h with composedDone := true, jobs := [⟨0, 0, 1, 0, [], some 5⟩] }
    let g := testPress (testRegs p [(TBL_TCFG 0 0, 0x10005), (OPT_TCFG 0 0, 1), (OPT_BLK 0 1, 2 ^ 48)]) fun h => { h with composedDone := true }
    (p.serves = true ∧ p.kind = 2 ∧ p.tick.coresStarted = true ∧ (p.prs 0).cleared = false ∧ p.gradTables 0 = []) ∧
    (q.optOn 0 = true ∧ q.pressDone = true ∧ (q.prs 0).jobs = [⟨0, 0, 1, 0, [], some 5⟩] ∧ (q.tbl 0).tiered = false) ∧
    (g.optOn 0 = true ∧ g.pressDone = true ∧ (g.prs 0).jobs = [] ∧ (g.nextGradRow 0).isSome = true) ∧
    (g.opt 0).blk1 < g.getF (OPT_BLK 0 1) 48 15 := by decide +kernel

theorem witness_memory :
    let p := testReady (testRegs (Part.reset true) [(MEM_SCRUB 0, 1), (MEM_SLICE 0 0, 1)])
    let p := { p with power := { p.power with hbmTrained := true } }
    let errs := [(0, 1), (1, 2), (2, 3), (3, 4), (4, 5), (5, 6)]
    let off := { (Part.reset true) with mgt := { (Part.reset true).mgt with ready := true } }
    (p.getF (MEM_SCRUB 0) 0 8 ≠ 0 ∧ p.mem.ready = true ∧ p.getB (MEM_STATUS 0) 1 = false ∧ p.scrubLine 0 (p.ctl 0).scrub0 = some 0 ∧ p.scrubLine 0 (2 ^ 30 - 1) = none ∧
      rsDecode (spGet 0 (p.strike 0 []).mem.chk 0) = .clean ∧
      rsDecode (spGet 0 (p.strike 0 [(3, 7)]).mem.chk 0) = .corrected [(3, 7)] ∧
      rsDecode (spGet 0 (p.strike 0 errs).mem.chk 0) = .uncorrectable) ∧
    (p.power.hbmTrained = true ∧ p.getB (MEM_STATUS 0) 1 = false ∧ { p with mem := Mem.reset }.mem.ready = false) ∧
    (off.mgt.ready = true ∧ off.power.hbmTrained = false ∧ off.getB PWR_STATUS 7 = false) := by decide +kernel

/-- A transfer of core 0 from its scratchpad to its inbound partition. -/
def testXfer : Transfer := ⟨5, 0, 0, 0x8000001000, 0x8000040000, 64, 1, 1, 0, [(0, 0, 64)], [], false⟩
/-- The part with that transfer in racking engine 0. -/
def testRack (t : Transfer) : Part := { (testCore id) with rack := [(0, ⟨[t]⟩)] }

theorem witness_racking :
    let p := testRack testXfer
    let o := { testXfer with stage := 1 }
    let w := { testXfer with stage := 2, units := [], waiting := [(0, 0, 64)] }
    let e := { testXfer with units := [] }
    let get (cls kind : Nat) (pl : List Byte) : Packet := testPk 1 cls kind 5 pl
    let has (q : Part) (k : Packet) : Bool := decide ((testRx q [k]).waiting k.cls k.kind = some k)
    let asks (k : Packet) : Bool := decide ((testRx p [k]).irrRequest = some k)
    (p.xfer 0 5 = some testXfer ∧ p.serves = true ∧ testXfer.stage = 0 ∧ testXfer.units = [(0, 0, 64)] ∧
      isHbm (gLocal testXfer.src) = false ∧ isHbm (gLocal testXfer.dst) = false) ∧
    has p (get 0 0 (leBytes 32 0x8000001000)) = true ∧
    (has (testRack o) (get 1 0 (leBytes 32 1)) = true ∧ (testRack o).xfer (refSector 5) (refTag 5) = some o ∧ o.stage = 1 ∧
      leAt (leBytes 32 1) 0 1 = 1 ∧ gChip o.src = p.chip ∧ gChip { o with src := 2 ^ 40 }.src ≠ p.chip ∧ leAt (leBytes 32 0) 0 1 ≠ 1) ∧
    (has p (get 0 1 (leBytes 32 0x8000001000)) = true ∧ p.rackSrcOk 0x8000001000 64 = true ∧ p.rackSrcOk 0 64 = false ∧
      isHbm 0x8000001000 = false) ∧
    (has p (get 2 0 (leBytes 64 0x8000040000)) = true ∧ p.rackInOk 0x8000040000 32 = true ∧ p.rackInOk 0x8000001000 32 = false) ∧
    (has (testRack w) (get 1 5 []) = true ∧ (testRack w).xfer (refSector 5) (refTag 5) = some w) ∧
    ((testRack e).xfer 0 5 = some e ∧ e.stage ≠ 1 ∧ e.units = [] ∧ e.waiting = [] ∧ bit e.sig 0 = true ∧ p.inSpadOf { e with dst := 0x100 }.dst = false ∧ bit { e with sig := 2 }.sig 1 = true ∧ p.inSpadOf e.dst = true ∧
      gChip e.dst = p.chip ∧ p.hasRole (windowCore (gLocal e.dst)) = true ∧
      (testRack e).working = true) ∧
    (asks (get 0 3 (leBytes 32 0x8000001000)) = true ∧ p.mayRead 0 4 = false ∧ p.mayRead 0x8000001000 4 = true ∧
      p.granPoison 0x8000001000 = false) ∧
    (asks (get 0 4 (leBytes 32 0x8000040000)) = true ∧
      p.mayInbound 0x8000001000 4 = false ∧ p.mayInbound 0x8000040000 4 = true ∧ p.granPoison 0x8000040000 = false) := by decide +kernel

/-- The part with port 0 in a state, its four lanes locked. -/
def testPort (st : Nat) (x : Port) : Part :=
  ((testRegs testPart [(FAB_CTRL, 1), (FAB_PSTATUS 0, 0xF0 + st)]).setPort 0 x).modFab fun f => { f with topoInForce := 1 }
/-- A port that holds a packet. -/
def testHeld (n : Nat) : Port := ⟨[⟨4, 0, n, testPk 0 0 0 0 []⟩], n, false, none, []⟩

theorem witness_training :
    testPart.getB FAB_CTRL 0 = false ∧ (testPort 2 .reset).pstate 0 = 2 ∧
    (let p := testPort 3 .reset
     p.pstate 0 = 3 ∧ (1 = p.expects (portBundle 0) ∧ 1 % 65536 = p.fab.topoInForce ∧ 5 < 32 ∧ 5 / 4 = portBundle 0 ^^^ 1) ∧ 5 % 4 ≠ 0 % 4 ∧
       2 ≠ p.expects (portBundle 0)) ∧
    (let p := testPort 4 { Port.reset with auth := some ⟨[], 0, false⟩ }
     p.pstate 0 = 4 ∧ (p.port 0).auth = some ⟨[], 0, false⟩ ∧ (testPort 4 .reset).pstate 0 = 4 ∧ ((testPort 4 .reset).port 0).auth = none) ∧
    7 ≤ (testPort 7 .reset).pstate 0 ∧
    (let p := (testPort 5 .reset).modFab fun f => { f with probing := true }
     p.fab.probing = true ∧ p.bundleUp 0 = true ∧ p.fab.probes = [] ∧ p.fab.probesStandby = [] ∧
       (∀ m, spGet none p.fab.firstCopy 0 ≠ some m) ∧ (∀ b, (p.fab.waves.find? fun e => e.1 == b) = none) ∧
       (testPort 5 .reset).fab.probing = false) ∧
    (testPart.getB FAB_CTRL 1 = false ∧ (testRegs testPart [(FAB_CTRL, 2)]).getB FAB_CTRL 1 = true) := by
  refine ⟨by decide, by decide, by decide, by decide, by decide, ⟨by decide, by decide, by decide, by decide, fun m => ?_, fun b => rfl, by decide⟩,
    by decide⟩
  exact (nofun : (none : Option CtlMsg) ≠ some m)

theorem witness_packets :
    let p := testRegs (testPort 5 .reset) [(FAB_RT 1 3, 2 ^ 63), (FAB_RT 1 0, 1)]
    let here := testPk 1 0 2 0 (leBytes 32 0)
    let out : Packet := { here with src := 0, dst := 1 }
    let ready (p : Part) (q : Packet) : Bool := !p.windowShut q && !p.blockShut q && (p.phase != 3 || ctlPlane q)
    let sends (k : Packet) := p.modFab fun f => { f with txq := [k] }
    let tick := testRegs p [(TIK_CTRL, 1)]
    let done := (testRegs testPart [(COR_CTRL 0, 0)]).modFab fun f => { f with txWin := [(1, ⟨0, 0, [], true, false⟩)] }
    let guard := (testRegs p [(TIK_STATUS, 13)]).modTick fun t => { t with guardDone := true, cause := 1 }
    (p.getB TWN_CTRL 0 = false ∧ ((sends here).fab.txq.find? (ready (sends here))) = some here ∧ here.cls ≤ 1 ∧ here.dst = p.chip) ∧
    (((sends out).fab.txq.find? (ready (sends out))) = some out ∧ out.dst ≠ p.chip ∧ out.route = 0 ∧ p.route 1 = some 1 ∧
      (p.win 1).n < 1048575 ∧ p.bundleUp (1 % 32 - 1) = true ∧ p.fab.fwd = [] ∧
      p.outPort (1 % 32 - 1) (p.firstVc 1) { out with window := 0, route := 0 } = some 0) ∧
    (p.portRuns 0 = true ∧ 3 ∈ ((p.setBundle 0 ⟨0, [3], 0⟩).bundle (portBundle 0)).rx ∧ p.gap 0 3 = true ∧
      0 ∉ (p.bundle (portBundle 0)).rx ∧ p.gap 0 0 = false ∧
      p.stale here = false ∧ here.route % 32 = 0 ∧ badPacket here = false ∧ p.dropsWork here = false ∧ guard.dropsWork here = true) ∧
    (let k := { out with route := 1 }
     p.stale k = false ∧ 1 ≤ k.route % 32 ∧ k.route % 32 ≤ 8 ∧ p.bundleUp (k.route % 32 - 1) = true ∧
       p.outPort (k.route % 32 - 1) (p.nextVc 0 1 (k.route % 32)) { k with route := 0 } = some 0) ∧
    tick.stale { here with epoch := 3 } = true ∧
    ((testRx p [testPk 1 1 6 0 []]).fab.rx.find? fun q => q.cls == 1 && q.kind == 6) = some (testPk 1 1 6 0 []) ∧
    (done.working = true ∧ done.sendingDone = true ∧ (∀ k ∈ done.fab.txq, ¬(k.cls = 3 ∧ k.kind = 8)) ∧
      ∃ e ∈ done.fab.txWin, e.2.counted = true ∧ e.2.acctSent = false) ∧
    ((testRx p [testPk 1 1 7 0 []]).fab.rx.find? fun q => q.cls == 1 && q.kind == 7) = some (testPk 1 1 7 0 []) ∧
    (p.fab.frozenSeen = false ∧ p.obs.frozen = false ∧ p.bundleUp 0 = true) := by decide +kernel

theorem witness_links :
    let up := testPort 5 (testHeld 0)
    let far : Neighbour := ⟨2, 5, 1, 0⟩
    let near : Neighbour := ⟨1, 5, 1, 0⟩
    let full := testPort 6 { testHeld 0 with full := true }
    (up.port 0).replay.findIdx? (fun e => e.seq == 4) = some 0 ∧ up.fab.fwd = [] ∧
    (∀ e ∈ (up.port 0).replay.drop 0, e.resent < 7) ∧ (∃ e ∈ ((testPort 5 (testHeld 7)).port 0).replay.drop 0, 7 ≤ e.resent) ∧
    (testPort 5 (testHeld 7)).pstate 0 = 5 ∧ ((testPort 5 (testHeld 7)).port 0).replay ≠ [] ∧ (up.port 0).fasts < 2 ∧
    ((testPort 6 (testHeld 0)).pstate 0 = 6 ∧ ((testPort 6 (testHeld 0)).port 0).full = false) ∧
    (full.pstate 0 = 6 ∧ (full.port 0).full = true ∧ full.identity 0 near ≠ 2 ∧ full.identity 0 far = 2 ∧ full.getB FAB_CTRL 1 = false ∧
      (testRegs full [(FAB_CTRL, 3)]).getB FAB_CTRL 1 = true) := by decide

/-- A part that reduces bucket 0, of 32 elements, with one other part; `cfg` are bits of its configuration besides. -/
def testRed (cfg : Nat) (x : Bucket) : Part :=
  (testRegs testPart [(TIK_STATUS, 5), (RED_CTRL, 1), (RED_BKT_CFG 0, 0x6F + cfg), (RED_BKT_IN 0, 2 ^ 40), (RED_BOX, 1)]).setBkt 0 x
/-- A block of the reduction: bucket 0, a stage, a first element and a count. -/
def testBlk (kind h first count bytes : Nat) : Packet :=
  testPk 1 2 kind 0 (leBytes 2 0 ++ leBytes 1 h ++ leBytes 1 0 ++ leBytes 4 first ++ leBytes 4 count ++ leBytes 4 1 ++ leBytes 16 0 ++ leBytes bytes 0)

theorem witness_reduction :
    let p := testRed 0 .reset
    let bit := testRed 0x6000 .reset
    let at' (n : Nat) := testRed 0 { Bucket.reset with stage := n }
    (p.serves = true ∧ bit.serves = true ∧ (at' 2).serves = true ∧ (at' 6).serves = true) ∧
    (p.working = true ∧ p.phase ≠ 0 ∧ p.bktOn 0 = true ∧ p.bktPress 0 = true ∧ (p.bkt 0).stage = 0 ∧ p.bktOneBit 0 = false) ∧
    (bit.working = true ∧ bit.bktOn 0 = true ∧ bit.bktPress 0 = true ∧ bit.bktOneBit 0 = true) ∧
    (((at' 2).bkt 0).sent = false ∧ ((at' 2).bkt 0).stage = 2 ∧ ((at' 2).bkt 0).step = 0 ∧ 1 < (at' 2).boxM 0 ∧
      0 < ((at' 2).bktRange 0 0).2 / (at' 2).boxM 0) ∧
    (((at' 6).bkt 0).stage = 6 ∧ ((at' 6).bkt 0).sent = false ∧ (at' 6).getB (RED_BKT_CFG 0) 13 = false) ∧
    (let p := testRegs p [(RED_BKT_IN 0, 2 ^ 41)]
     let k := testPk 1 2 3 0 (leBytes 2 0 ++ leBytes 2 0 ++ leBytes 4 32 ++ leBytes 4 32 ++ leBytes 4 2 ++ leBytes 16 0 ++ leBytes 128 0)
     (testRx p [k]).redBlock [3, 4] = some k ∧ leAt k.payload 0 2 = 0 ∧ p.ringBlockOk k = true ∧ p.ringBlockOk (testBlk 3 0 0 32 0) = false) ∧
    (let k := testBlk 5 8 0 16 32
     (testRx bit [k]).redBlock [5] = some k ∧ bit.bitBlockOk k bit.chip = true ∧ leAt k.payload 2 1 = 8 ∧ (bit.bkt 0).stage < 12 ∧
       (bit.bkt 0).contribs = [] ∧ bit.bitBlockOk (testBlk 5 8 16 16 32) bit.chip = false) ∧
    (let k := testBlk 6 9 16 16 32
     (testRx bit [k]).redBlock [6] = some k ∧ bit.bitBlockOk k k.src = true ∧ leAt k.payload 2 1 = 9 ∧ bit.getB (RED_BKT_CFG 0) 13 = true ∧
       k.src ≠ bit.chip ∧ (bit.bkt 0).got = [] ∧ bit.bitBlockOk (testBlk 6 9 0 16 32) 1 = false) ∧
    (let p := testRed 0 { Bucket.reset with stage := 6, sent := true, written := 16 }
     p.serves = true ∧ 2 ≤ (p.bkt 0).stage ∧ (p.bkt 0).stage ≠ 14 ∧ (p.bkt 0).sent = true ∧ p.bktOutputs 0 ≤ (p.bkt 0).written) := by decide +kernel

/-- A part whose twin is part 1 and stands in a state, in the commit phase. -/
def testTwin (st : Nat) : Part := testRegs testPart [(TIK_STATUS, 9), (TWN_CTRL, 0x10001), (TWN_STATUS, st)]

theorem witness_twin :
    let p := testTwin 1
    let job := testPk 1 5 0 0 (leBytes 32 0x100)
    let raw := testPk 1 5 1 0 (leBytes 72 0)
    let mark := testPk 1 5 2 0 (leBytes 32 0)
    let ends := p.modTwin fun t => { t with endSent := true }
    let idle := testRegs p [(TIK_STATUS, 8)]
    let rest := p.modTwin fun t => { t with restoring := true }
    ((testRx p [job]).twinPacket 0 = some job ∧ (testRx p [job]).mirrors = true ∧ job.kind = 0 ∧
      Part.jobPackets 64 (testRx p [job]) 0 ((testRx p [job]).jobLen job.payload) = some [job] ∧ bit (leAt job.payload 1 1) 0 = true) ∧
    ((testRx p [raw]).twinPacket 0 = some raw ∧ (testRx p [raw]).mirrors = true ∧ raw.kind = 1 ∧
      ∀ l ∈ unpackLines raw, (testRx p [raw]).inMirror l.1 = none) ∧
    (((testRx p [mark]).fab.rx.find? fun q => q.cls == 5 && q.kind == 2) = some mark ∧ (testRx p [mark]).mirrors = true ∧
      mark.ref = p.twin.rxNext % 2 ^ 20 ∧ (leAt mark.payload 0 8 = p.twin.rxRecs ∧ leAt mark.payload 8 8 = p.twin.rxBytes) ∧
      leAt (leBytes 32 5) 0 8 ≠ p.twin.rxRecs) ∧
    (let far := testPk 1 5 2 5 (leBytes 32 0)
     far.ref ≠ p.twin.rxNext % 2 ^ 20 ∧ ((testRx p [far]).fab.rx.find? fun q => q.cls == 5 && q.kind == 2) = some far ∧
       (testRx p [far]).mirrors = true ∧ (testRx p [far]).twinPacket 0 = none ∧ (testRx p [far, raw]).twinPacket 0 = some raw) ∧
    (((testRx ends [testPk 1 5 3 0 []]).fab.rx.find? fun q => q.cls == 5 && (q.kind == 3 || q.kind == 4)) = some (testPk 1 5 3 0 []) ∧
      ends.live = true ∧ ends.twin.endSent = true ∧
      ((testRx ends [testPk 1 5 4 0 []]).fab.rx.find? fun q => q.cls == 5 && (q.kind == 3 || q.kind == 4)) = some (testPk 1 5 4 0 [])) ∧
    (((testRx p [testPk 2 3 10 0 (leBytes 32 1)]).fab.rx.find? fun q => q.cls == 3 && q.kind == 10) = some (testPk 2 3 10 0 (leBytes 32 1)) ∧
      p.getB TWN_CTRL 0 = true ∧ p.getF TWN_CTRL 16 16 = 1) ∧
    (idle.getB TWN_CTRL 0 = true ∧ idle.running = false ∧ idle.twin.restoring = false ∧ idle.bundleUp 8 = false ∧
      (testRegs idle [(FAB_PSTATUS 32, 0xF5)]).bundleUp 8 = true) ∧
    (((testRx (testTwin 2) [testPk 1 5 5 0 []]).fab.rx.find? fun q => q.cls == 5 && q.kind == 5) = some (testPk 1 5 5 0 []) ∧
      (testTwin 2).getF TWN_STATUS 0 3 = 2 ∧ readWins [] = (testTwin 2).twin.partner ∧
      readWins (leBytes 8 (2 ^ 40) ++ leBytes 8 0) ≠ (testTwin 2).twin.partner) ∧
    (((testRx p [testPk 1 5 7 0 (leBytes 64 0)]).fab.rx.find? fun q => q.cls == 5 && q.kind == 7) = some (testPk 1 5 7 0 (leBytes 64 0)) ∧
      (testTwin 3).getF TWN_STATUS 0 3 = 3 ∧ rest.getF TWN_STATUS 0 3 ≠ 3 ∧ rest.twin.restoring = true ∧ leAt (leBytes 64 0) 0 4 = 0 ∧
      leAt (leBytes 64 1) 0 4 ≠ 0 ∧ leAt (leBytes 64 1) 4 4 ≤ ((rest.fab.rx.filter fun q => q.cls == 5 && q.kind == 6).flatMap unpackLines).length) := by
  decide +kernel

/-- The part with its link up as a bus master, HBM zeroed and slice 0 mapped, under the host's configuration access while ticks do not run. -/
def testHost (p : Part) : Part :=
  (testReady (testRegs p [(TIK_STATUS, 0x10), (MEM_SLICE 0 0, 1), (MEM_STATUS 0, 1), (MEM_STATUS 1, 1), (MEM_STATUS 2, 1), (MEM_STATUS 3, 1)])).modHif
    fun h => { h with linkUp := true, busMaster := true }
/-- A host command. -/
def testCmd (op : Nat) (args : List Nat) : HostCmd :=
  ⟨fitBytes 64 (leBytes 1 op ++ leBytes 7 0 ++ args.flatMap (leBytes 8)), 0, false, false, 0, 0, 0, 0⟩
/-- The part with one command in command queue 0. -/
def testQ (p : Part) (c : HostCmd) : Part := p.setCq 0 { CmdQueue.reset with cmds := [c] }
/-- That command is the next one of its queue, and well formed. -/
def testNext (p : Part) (c : HostCmd) : Bool := decide ((testQ p c).nextCmd 0 c.op = some c) && !c.bad

theorem witness_link :
    let off := { (Part.reset true) with power := { (Part.reset true).power with hbmTrained := true } }
    (off.hif.linkUp = false ∧ off.power.hbmTrained = true ∧ off.getB PWR_STATUS 7 = false) ∧ (testHost testPart).hif.linkUp = true ∧
    (Part.reset true).power.hbmTrained = false := by decide

theorem witness_cxl :
    let p := testHost testPart
    let run := testRegs p [(TIK_STATUS, 1), (MEM_RGN_ATTR 0 0, 0x181), (HIF_IN_CFG 0, 0x80000001)]
    let cxl (d : Hdm) := (testRegs p [(HIF_STATUS, 1)]).modHif fun h => { h with hdm0 := d }
    let d : Hdm := ⟨2 ^ 40, 2 ^ 30, 2 ^ 20, true, false⟩
    let sym (n : Nat) : List (Nat × Nat) := (List.range n).map fun i => (i, 255)
    let word (q : Part) := rsDecode (spGet 0 q.mem.chk 64)
    (p.hif.linkUp = true ∧ p.clocked = true ∧ p.getB HIF_STATUS 0 = false ∧ 64 < hbmTop) ∧
    ((cxl d).hif.linkUp = true ∧ (cxl d).clocked = true ∧ (cxl d).getB HIF_STATUS 0 = true ∧ d.base ≤ 2 ^ 40 + 64 ∧
      2 ^ 40 + 64 < d.base + d.size ∧ d.skip + (2 ^ 40 + 64 - d.base) < hbmTop) ∧
    ((cxl .reset).getB HIF_STATUS 0 = true ∧ (cxl .reset).hif.hdm0.committed = false ∧ (cxl .reset).hif.hdm1.committed = false) ∧
    (Part.reset true).hif.linkUp = false ∧ (Part.reset true).hostAddr 64 = none ∧
    (p.hostAddr 64 = some 64 ∧ p.hostMay false 64 = true ∧ p.hostMay true 64 = true ∧ p.mem.ready = true ∧
      word (p.strike 64 []) = .clean ∧ p.slotLocked 64 = false ∧ p.attr 64 5 = false) ∧
    word (p.strike 64 (sym 1)) = .corrected [(0, 255)] ∧ word (p.strike 64 (sym 9)) = .uncorrectable ∧
    (let q := testRegs p [(TIK_STATUS, 1)]
     q.hostAddr 64 = some 64 ∧ q.hostMay false 64 = false ∧ q.hostMay true 64 = false) ∧
    (run.hostAddr 64 = some 64 ∧ run.hostMay true 64 = true ∧ run.slotLocked 64 = true) ∧
    (let c := testCmd 1 [0, 64, 64]
     testNext run c = true ∧ c.op = 1 ∧ run.clocked = true ∧ copyOk c = true ∧
       ∀ i < c.arg 2 / 64, run.hostMay true (c.arg 1 + 64 * i) = true ∧ run.slotLocked (c.arg 1 + 64 * i) = true) := by
  refine ⟨by decide, by decide, by decide, by decide, by decide, by decide, ?_, ?_, by decide, by decide, by decide⟩ <;> decide +kernel

theorem witness_queues :
    let p := testRegs (testHost testPart) [(HIF_CTRL, 1), (HIF_Q_CFG 0, 0x80040004)]
    let line : HostLine := ⟨0, (testCmd 0 []).bytes, false⟩
    let w := p.hostStores [line]
    let done := p.setCq 0 { CmdQueue.reset with ended := [testCmd 0 []] }
    (p.hif.linkUp = true ∧ p.sqSize 0 ≤ 16 ∧ 1 < p.sqSize 0 ∧ (Part.reset true).hif.linkUp = false) ∧
    (p.getB HIF_CTRL 0 = true ∧ p.cqOn 0 = true ∧ (p.cq 0).qerr = false ∧ p.hostBus = true ∧ (p.cq 0).cmds = [] ∧ p.getF (HIF_SQ_HEAD 0) 0 16 = 0 ∧
      0 ≠ 1 ∧ (0 + 1) % p.sqSize 0 = 1 ∧ (w.hostLine (p.getF (HIF_SQ_BASE 0) 12 52 * 4096)).2 = false ∧
      hostOps.contains (leAt (w.hostLine (p.getF (HIF_SQ_BASE 0) 12 52 * 4096)).1 0 1) = true) ∧
    ((∀ c ∈ (p.cq 0).cmds, c.running = false) ∧ (p.cq 0).ended = []) ∧
    (testNext p (testCmd 0 []) = true ∧ (testCmd 0 []).op = 0 ∧ p.nextCmd 0 0 = none) ∧
    ((done.cq 0).ended = [testCmd 0 []] ∧ done.hostBus = true ∧ (done.cq 0).unret < done.crSize 0 ∧ done.cqOn 0 = true) := by decide

theorem witness_commands :
    let p := testHost testPart
    let master := testRegs p [(TIK_STATUS, 0x30)]
    let m2 := master.modTick fun t => { t with stopAfter := false }
    let c := testCmd 1 [0, 64, 64]
    let sub := testCmd 3 [0, 2 ^ 32, 1]
    (testNext p c = true ∧ p.clocked = true ∧ copyOk c = true ∧ copyOk (testCmd 1 [1, 64, 64]) = false ∧
      ∀ i < c.arg 2 / 64, p.hostMay true (c.arg 1 + 64 * i) = true ∧ p.slotLocked (c.arg 1 + 64 * i) = false ∧
        p.attr (c.arg 1 + 64 * i) 5 = false ∧ (p.hostLine (c.arg 0 + 64 * i)).2 = false) ∧
    (testNext p (testCmd 2 [0, 64, 64]) = true ∧ p.mem.ready = true ∧ p.hostMay false 64 = true ∧ rsDecode (spGet 0 p.mem.chk 64) = .clean) ∧
    (testNext p sub = true ∧ (sub.arg 0 % 64 = 0 ∧ fld (sub.arg 1) 16 16 = 0 ∧ fld (sub.arg 1) 48 16 = 0 ∧ fld (sub.arg 1) 32 16 = 1) ∧
      (p.hostRead 0 64).2 = false ∧ p.frameNo < sub.arg 2 ∧ p.hif.accepted.length + 1 ≤ 16384 ∧ (testCmd 3 [0, 2 ^ 32, 0]).arg 2 ≤ p.frameNo ∧
      ((p.hostStores [⟨0, leBytes 64 0, true⟩]).hostRead 0 64).2 = true ∧ fld ((testCmd 3 [0, 0, 1]).arg 1) 32 16 = 0) ∧
    16384 < (List.replicate 16384 (⟨0, 0, 0, []⟩ : Accepted)).length + 1 ∧
    (testNext p (testCmd 0x20 []) = true ∧ p.role ≠ 1 ∧ testNext master (testCmd 0x20 []) = true ∧ master.role = 1 ∧
      master.tick.stopAfter = true ∧ master.tick.token = none ∧ (∀ r ∈ (testQ master (testCmd 0x20 [])).runningCmds, r.poisoned = false) ∧
      m2.tick.stopAfter = false ∧ testNext p (testCmd 0x21 []) = true ∧ testNext master (testCmd 0x21 []) = true ∧
      master.clocked = true) := by decide +kernel

theorem witness_inbox :
    let p := testRegs (testHost testPart) [(HIF_IN_CFG 0, 0x80000301), (HIF_IN_BASE 0, 0)]
    let word := 2 ^ 40 + 2 ^ 16
    let b : HeldBlock := ⟨3, 0, 0, 32, false, false, 0⟩
    let d := testRegs (p.setBlocks 0 [b]) [(TIK_STATUS, 1)]
    (p.hif.linkUp = true ∧ p.wordFrame (fld word 40 24) = some 1 ∧ p.inOn 0 = true ∧ fld word 12 4 = 0 ∧
      fld word 0 12 < 2 ^ p.getF (HIF_IN_CFG 0) 8 5 ∧ fld word 32 8 ≤ 254 ∧ fld word 16 16 ≠ 0 ∧
      fld word 16 16 ≤ p.getF (HIF_IN_CFG 0) 0 8 * 128 ∧ p.heldBlocks 0 = []) ∧
    p.inOn 1 = false ∧ (Part.reset true).hif.linkUp = false ∧
    (d.working = true ∧ d.inOn 0 = true ∧ d.tick.unwinding = false ∧ d.nextBlock 0 = some b ∧ d.inBaseOf 0 % 4096 = 0 ∧
      isHbm (d.inBaseOf 0 + 16 * b.index) = true ∧ d.mem.ready = true ∧ rsDecode (spGet 0 d.mem.chk 0) = .clean ∧ d.attr 0 5 = false) ∧
    (let q := p.modHif fun h => { h with statusDue := true }
     q.hif.statusDue = true ∧ q.hostBus = true) ∧
    (let q := (Part.reset true).modHif fun h => { h with statusDue := true }
     q.hif.statusDue = true ∧ q.hostBus = false) := by decide

/-- A signing key whose private scalar is 1. -/
def testKey : PubKey := ⟨p256Gx, p256Gy⟩
/-- A message with the signature block that the key makes for it with the nonce 1, whose `s` is given. -/
def testSign (msg : List Byte) (s : Nat) : List Byte :=
  msg ++ leBytes 1 1 ++ leBytes 7 0 ++ leBytes 8 0x44A344DC63EA8B69 ++ beBytes 32 p256Gx ++ beBytes 32 s ++ leBytes 48 0
/-- A container of one section: its type, flags, version and base, the section's type and payload, and `s` of its signature. -/
def testContainer (ty flags version base secTy : Nat) (payload : List Byte) (s : Nat) : List Byte :=
  let padded := ceilDiv (16 + payload.length) 64 * 64
  testSign (leBytes 4 0x46524754 ++ leBytes 2 1 ++ leBytes 1 ty ++ leBytes 1 flags ++ leBytes 4 (256 + padded) ++ leBytes 2 1 ++ leBytes 2 0 ++
    leBytes 2 5120 ++ leBytes 2 0 ++ leBytes 4 version ++ leBytes 8 9 ++ leBytes 4 base ++ leBytes 92 0 ++ leBytes 2 secTy ++ leBytes 2 0 ++
    leBytes 4 payload.length ++ leBytes 8 0 ++ fitBytes (padded - 16) payload) s
/-- The register writes of a graft that the rules accept, as offset, width and value: the offsets C, D and G of kind 0, one span, and in each
sector slice 0, and region 0, journalled, for the delay stores and the working areas. -/
def testWrites : List (Nat × Nat × Nat) :=
  [(0x20100, 4, 100000), (0x20104, 4, 150000), (0x20108, 4, 180000), (0x20200, 4, 1),
   (0x2541000, 4, 1), (0x2542008, 8, 0x4000000), (0x2542010, 4, 0x27), (0x2D41000, 4, 1), (0x2D42008, 8, 0x4000000), (0x2D42010, 4, 0x27),
   (0x3541000, 4, 1), (0x3542008, 8, 0x4000000), (0x3542010, 4, 0x27), (0x3D41000, 4, 1), (0x3D42008, 8, 0x4000000), (0x3D42010, 4, 0x27)]
/-- A container that holds them. -/
def testGraft : List Byte :=
  testContainer 1 3 1 0 1 (testWrites.flatMap fun w => leBytes 4 w.1 ++ leBytes 1 w.2.1 ++ leBytes 3 0 ++ leBytes 8 w.2.2) 0x4F448A2AB48FC4D9C4B7E69203C88E06D44CE089B0857EF37A9B6ABC81E0BAA4
/-- The writes as staged. -/
def testStaged : List Staged := testWrites.map fun w => .reg w.1 w.2.1 w.2.2
/-- What a test asks of the container it reads. -/
def testRead (b : List Byte) (f : Container → Bool) : Bool :=
  match readContainer b with
  | .ok c => f c
  | .error _ => false
/-- Whether an outcome is the answer given. -/
def testIs {α : Type} [DecidableEq α] (x : Except TxnErr α) (a : α) : Bool :=
  match x with
  | .ok b => decide (b = a)
  | .error _ => false

/-- A part whose registers are as that graft leaves them, with its clock running, while a transaction for tick 5 that stages nothing is
validated. -/
def testLive : Part :=
  { Part.reset true with
    regs := (testWrites.take 4 ++ [(PWR_STATUS, 4, 0x30)] ++ testWrites.drop 4).map fun (w : Nat × Nat × Nat) => (w.1, BitVec.ofNat 64 w.2.2), txn := { Txn.reset with validating := some (0, 5) } }
/-- That part as it comes to load the graft again: the container in host memory, the command in queue 0, and the key in slot 0. -/
def testLoading : Part :=
  { testLive with
    hif := { Hif.reset with
      linkUp := true, busMaster := true, mem := (List.range 576).zip testGraft
      queues := [(0, { CmdQueue.reset with cmds := [testCmd 0x10 [0, 576]] })] }
    mgt := { Mgt.reset with keys := [some testKey, none, none, none] } }

/-- The rules of validation read neither the host interface nor the controller. -/
theorem test_rules_read (p : Part) (h : Hif) (m : Mgt) :
    { p with hif := h, mgt := m }.ruleFrames = p.ruleFrames ∧ { p with hif := h, mgt := m }.ruleUnits = p.ruleUnits ∧
      { p with hif := h, mgt := m }.ruleObs = p.ruleObs := ⟨rfl, rfl, rfl⟩
theorem test_graft_again : testLoading.withStaged true testStaged = testLoading := by decide +kernel
theorem test_nothing_staged : testLive.withStaged false [] = testLive := by decide +kernel
theorem test_rules_hold : testLive.ruleFrames = none ∧ testLive.ruleUnits = none ∧ testLive.ruleObs = none := by decide +kernel

theorem witness_graft_rules : testLoading.validate true testStaged = none := by
  have r := test_rules_read testLive testLoading.hif testLoading.mgt
  have h1 : testLoading.ruleFrames = none := r.1.trans test_rules_hold.1
  have h2 : testLoading.ruleUnits = none := r.2.1.trans test_rules_hold.2.1
  have h3 : testLoading.ruleObs = none := r.2.2.trans test_rules_hold.2.2
  simp only [Part.validate, test_graft_again, h1, h2, h3]
  decide +kernel

/-- Validation of that graft reads no map and no member list. -/
theorem witness_valid_reads : testLoading.validReads true testStaged = testLoading ∧ testLive.validReads false testLive.txn.staged = testLive := by
  decide +kernel

theorem witness_graft_full :
    testLoading.nextCmd 0 0x10 = some (testCmd 0x10 [0, 576]) ∧ (testCmd 0x10 [0, 576]).bad = false ∧ testLoading.clocked = true ∧
    testLoading.txnState = 0 ∧ testLoading.running = false ∧ (testLoading.hostRead 0 576).2 = false ∧
    testRead testGraft (fun c => c.ty == 1 && c.full && testIs (containerWrites c) testStaged && testIs (testLoading.checkContainer c) 0) =
      true := by decide +kernel

/-- A transaction that stages nothing passes on that part, to be armed for tick 5 or applied at once. -/
theorem witness_transaction_passes : testLive.validateTxn 5 = none ∧ testLive.validateTxn 0 = none ∧ testLive.tickCount = 0 := by
  have h : testLive.validate false testLive.txn.staged = none := by
    show testLive.validate false [] = none
    simp only [Part.validate, test_nothing_staged, test_rules_hold.1, test_rules_hold.2.1, test_rules_hold.2.2]
    decide +kernel
  simp only [Part.validateTxn, h]
  refine ⟨?_, ?_, ?_⟩ <;> decide +kernel

theorem witness_graft_loads :
    let p := testHost (testPart.modMgt fun m => { m with keys := [some testKey, none, none, none] })
    let c := testCmd 0x10 [0, 320]
    let odd := testCmd 0x10 [0, 321]
    let run := testRegs p [(TIK_STATUS, 1)]
    let opened := testRegs p [(TIK_TXN_STATE, 1)]
    let bad := testContainer 1 3 1 0 1 [] 1
    (testNext p c = true ∧ c.op = 0x10 ∧ p.clocked = true ∧ c.arg 0 % 64 = 0 ∧ c.arg 1 % 64 = 0 ∧ p.txnState = 0 ∧ p.running = false) ∧
    (testNext p (testCmd 0x10 [1, 320]) = true ∧ (testCmd 0x10 [1, 320]).arg 0 % 64 ≠ 0 ∧ testNext p odd = true ∧
      odd.arg 1 % 64 ≠ 0 ∧ (testCmd 0x10 [0, 256]).arg 1 < 320) ∧ (run.txnState = 0 ∧ run.running = true) ∧
    opened.txnState = 1 ∧ (320 ≤ c.arg 1 ∧ c.arg 1 ≤ 20 * 2 ^ 20 ∧ c.arg 1 % 64 = 0) ∧ (p.hostRead 0 320).2 = false ∧
    ((p.hostStores [⟨0, leBytes 64 0, true⟩]).hostRead 0 320).2 = true ∧
    (match readContainer (List.replicate 320 0#8) with | .error e => decide (e = TxnErr.of 1) | .ok _ => false) = true ∧
    testRead (testContainer 2 3 1 0 1 [] 1) (fun x => x.ty != 1) = true ∧ testRead bad (fun x => x.full && x.ty == 1) = true ∧
    testRead (testContainer 1 2 1 0 1 [] 1) (fun x => !x.full && x.ty == 1) = true ∧
    testRead bad (fun x => match (testHost testPart).checkContainer x with | .error e => decide (e = TxnErr.of 3) | .ok _ => false) = true ∧
    (let part := testRegs (opened.modTxn fun t => { t with applied := true }) [(TIK_GRAFT_ID, 9), (TIK_GRAFT_VER, 1)]
     testRead (testContainer 1 2 2 1 1 [] 0xF81D31D8668D340C5BF1CB3385B8B6C4397E40D467B74960DDD3C2F87F110D6E) (fun x => testIs (containerWrites x) [] && decide (part.txn.used + x.staging ≤ stagingBytes) &&
       !x.full && testIs (part.checkContainer x) 0) = true ∧ part.txnState = 1) ∧
    (let q := (testQ p { c with running := true }).modTxn fun t => { t with loadPending := some 0 }
     q.txn.loadPending = some 0 ∧ q.runningOp 0x10 = some (0, { c with running := true }) ∧ q.getB TWN_CTRL 0 = false ∧
       q.pickParents.rd TIK_TOKEN_LAT ≤ q.rd TIK_LEAD ∧
       let r := (testRegs q [(TIK_STATUS, 0x30), (TIK_LEAD, 10)])
       r.rd TIK_LEAD < r.pickParents.rd TIK_TOKEN_LAT) := by decide +kernel

theorem witness_transactions :
    let p := testHost testPart
    let o := testRegs p [(TIK_TXN_STATE, 1)]
    let entry := leBytes 4 (TIK_SPAN 0) ++ leBytes 4 4 ++ leBytes 8 1
    let stage := testCmd 0x12 [0, 1]
    let v (t : Nat) := (testQ (testRegs p [(TIK_TXN_STATE, 2)]) { testCmd 0x13 [t] with running := true }).modTxn fun x => { x with validating := some (0, t) }
    let a := testRegs p [(TIK_TXN_STATE, 3)]
    (testNext p (testCmd 0x11 []) = true ∧ p.txnState = 0 ∧ p.txn.loadPending = none ∧ testNext o (testCmd 0x11 []) = true ∧ o.txnState = 1) ∧
    (testNext o stage = true ∧ stage.arg 0 % 64 = 0 ∧ stage.arg 1 = 1 ∧ o.mgt.signedOnly = false ∧ (o.hostRead 0 16).2 = false ∧
      testIs (regEntries 0xFFFF entry) [.reg (TIK_SPAN 0) 4 1] = true ∧ o.gradeFault [.reg (TIK_SPAN 0) 4 1] = none ∧
      o.txn.used + 16 ≤ stagingBytes ∧ (o.modMgt fun m => { m with signedOnly := true }).mgt.signedOnly = true ∧
      ((o.hostStores [⟨0, entry, true⟩]).hostRead 0 16).2 = true ∧
      (Part.reset false).gradeFault [.reg (COR_CTRL 1535) 4 3] = some ⟨4, 0xFFFF, COR_CTRL 1535⟩ ∧ stagingBytes < stagingBytes + 16 ∧
      (match regEntries 0xFFFF (leBytes 16 0) with | .error _ => true | .ok _ => false) = true) ∧
    (testNext o (testCmd 0x13 [0]) = true ∧ ¬(o.running = true) ∧ (o.withStaged false o.txn.staged).getB TWN_CTRL 0 = false ∧
      testNext p (testCmd 0x13 [0]) = true ∧ ((testCmd 0x13 [1]).arg 0 ≠ 0 ∧ o.getB TIK_STATUS 11 = false)) ∧
    ((v 0).txn.validating = some (0, 0) ∧ (v 0).runningOp 0x13 = some (0, { testCmd 0x13 [0] with running := true }) ∧
      ((v 5).runningOp 0x13).map (·.1) = some 0 ∧ (v 0).validReads false (v 0).txn.staged = v 0 ∧
      (v 0).validateTxn 0 = some ⟨8, 0xFFFF, TIK_SPAN 0⟩ ∧ p.txn.validating = none) ∧
    (testNext p (testCmd 0x14 []) = true ∧ testNext a (testCmd 0x14 []) = true ∧ a.txnState = 3 ∧ a.txn.tokenSeen = false ∧
      (a.modTxn fun t => { t with tokenSeen := true }).txn.tokenSeen = true) := by decide +kernel

theorem witness_register_writes :
    let p := testHost testPart
    let o := testRegs p [(TIK_TXN_STATE, 1)]
    let at' (off : Nat) (f : RegRow → Bool) : Bool := match regAt off with
      | some r => f r
      | none => false
    (readTouches 0x1FFFFF8 4 = false ∧ readTouches TIK_COUNT 8 = true ∧ p.scanShut TIK_COUNT = false) ∧
    p.hif.linkUp = true ∧ (Part.reset true).hif.linkUp = false ∧ ¬((3 = 4 ∨ 3 = 8) ∧ 0 % 3 = 0) ∧ regAt 0x1FFFFF8 = none ∧
    at' TIK_COUNT (fun r => r.bytes == 8 && p.rwtAt TIK_COUNT r == 0 && r.rw == 0 && r.wo == 0) = true ∧
    at' (HIF_SQ_BASE 0) (fun r => r.bytes == 8 && p.rwtAt (HIF_SQ_BASE 0) r == 0 && !(r.rw == 0 && r.wo == 0)) = true ∧
    at' OBS_SCAN (fun r => r.bytes == 8 && p.rwtAt OBS_SCAN r == 0 && !(r.rw == 0 && r.wo == 0) &&
      decide (p.writeSpecial OBS_SCAN r 1 = none)) = true ∧
    at' HIF_CTRL (fun r => p.rwtAt HIF_CTRL r == 0 && !(r.rw == 0 && r.wo == 0) && (p.writeSpecial HIF_CTRL r 1).isSome) = true ∧
    at' (TIK_SPAN 0) (fun r => r.bytes == 4 && p.rwtAt (TIK_SPAN 0) r != 0 && p.txnState != 1 && o.txnState == 1 && !o.mgt.signedOnly &&
      decide (o.txn.used + 16 ≤ stagingBytes)) = true ∧
    (o.modMgt fun m => { m with signedOnly := true }).mgt.signedOnly = true := by decide +kernel

/-- A firmware image of security version 0, signed with the key. -/
def testImage : List Byte :=
  testSign (leBytes 4 0x46574D54 ++ leBytes 4 192 ++ leBytes 4 7 ++ leBytes 180 0) 0x20E2BDD6E6A33538DD2F09E070568798FF69F4E40F5E473B90751E5C804CCDAF
/-- A part with the key in its fuses and the image in slot B. -/
def testImaged (p : Part) : State :=
  { State.reset with
    fuses := { Fuses.reset with romKey0 := testKey, fwKey0 := 0x698BEA63DC44A344663FF1429AEA10842DF27B6B991EF25866B2C6C02CDCC5BE#256 }
    nv := { Nv.reset with slotB := ⟨testImage, true⟩ }, p := p }

theorem witness_image : (testImaged testPart).fuses.imageValid testImage = true := by decide +kernel

/-- A neighbour that the key signs for is accepted, and not with a chain that fails, another key, or firmware that is too old (R471). -/
theorem test_credential :
    let c : Credential := ⟨7, true, BitVec.ofNat 256 p256Gx, BitVec.ofNat 256 p256Gy, BitVec.ofNat 256 p256Gx,
      0x20E2BDD6E6A33538DD2F09E070568798FF69F4E40F5E473B90751E5C804CCDAF#256, 3, 5, []⟩
    let ok (c : Credential) (min : Nat) (m : Bool) := credentialOk 7 (some 5) ⟨[], min, m⟩ (testImage.take 192) c
    ok c 3 true = true ∧ ok { c with chainOk := false } 3 true = false ∧ ok { c with root := 8 } 3 true = false ∧
      ok { c with keyX := c.keyY } 3 true = false ∧ ok c 4 true = false ∧ ok { c with owner := 6 } 3 true = false ∧
      ok { c with owner := 6 } 3 false = true := by decide +kernel

theorem witness_boot :
    let up := { Part.reset true with power := { Power.reset with up := true } }
    let s := testImaged up
    let boots (n : Nat) : Nv := { Nv.reset with trial := true, trialBoots := n }
    (Part.reset true).pgood = false ∧ (up.pgood = true ∧ up.began = false) ∧
    (((s.nv.slot true).usable = true) ∧ (s.nv.slot true).bytes = testImage ∧ s.nv.tryBoot.1.preferred = false ∧
      s.slotValid false = false) ∧
    ((testState up).slotValid false = false ∧ (testState up).slotValid true = false) ∧
    ((boots 1).trial = true ∧ 1 ≤ (boots 1).trialBoots ∧ (boots 0).trialBoots = 0 ∧ Nv.reset.trial = false) ∧
    ((testRegs up [(MGT_STATUS, 0x3000)]).getF MGT_STATUS 12 4 = 3 ∧ up.getF MGT_STATUS 12 4 ≠ 3) ∧
    ((up.modMgt fun m => { m with ready := true }).answers = true ∧ up.answers = false) := by decide +kernel

/-- The owner's digest. -/
def testOwner : BitVec 256 := 5#256
/-- A part whose controller answers, with an owner in its store and the owner's session on SMBus. -/
def testManaged (f : Mgt → Mgt) : State :=
  let s := testImaged (testPart.modMgt fun m => f { m with ready := true, smb := { Spdm.reset with stage := 3, session := true, mutAuth := true } })
  { s with nv := { s.nv with owner := some testOwner } }
/-- The request of the owner. -/
def testAsk : MgtReq := ⟨.smbus, 0#8, true, 0⟩

theorem witness_management :
    let s := testManaged id
    (testPart.reaches .cxl = false ∧ s.p.reaches .smbus = true ∧ s.p.answers = true ∧ s.p.inRecovery = false ∧ 16 ≤ 16 ∧
      testAsk.waiting < 16 ∧ s.fromOwner { testAsk with inSession := false } = false ∧ s.fromOwner testAsk = true) := by decide

theorem witness_owner :
    let s := testManaged id
    let free := testState s.p
    (s.p.limitsOk 900 100 95 110 = true ∧ s.p.limitsOk 901 100 95 110 = false ∧ pubKeyOf [] = none ∧
      pubKeyOf (beBytes 32 p256Gx ++ beBytes 32 p256Gy) = some testKey) ∧
    (free.nv.owner = none ∧ testAsk.via = .smbus ∧ free.p.reaches .smbus = true ∧ free.p.answers = true ∧ s.nv.owner ≠ some 6#256) ∧
    2 ^ 20 < 2 ^ 20 + 1 := by decide +kernel

theorem witness_package :
    let s := testManaged fun m => { m with keys := [some testKey, none, none, none] }
    let pack := testContainer 2 3 1 0 0x0101 (leBytes 64 0) 0x88D250541EA46E277BCB52216BE8B581F364D3436DB862DC6D8CEE6F67E82F85
    pack.length ≤ 2 ^ 20 ∧ testRead pack (fun c => s.packageOk c) = true ∧ s.fromOwner testAsk = true := by decide +kernel

theorem witness_update :
    let none' := testManaged id
    let s := testManaged fun m => { m with updLen := some 320 }
    let full : State := { s with nv := s.nv.setSlot s.p.spareSlot ⟨testImage, false⟩ }
    let ok := testManaged fun m => { m with updLen := some 320, updOk := true }
    let fw : Firmware := ⟨7, 3, []⟩
    let late := testManaged fun m => { m with fw := some fw, afterTrial := true }
    let rec' := testImaged (testRegs (testPart.modMgt fun m => { m with updLen := some 320, sram := testImage }) [(MGT_STATUS, 0x5000)])
    (320 % 64 = 0 ∧ 320 ≤ 3 * 2 ^ 20 ∧ none'.p.mgt.updLen = none ∧ none'.fromOwner testAsk = true) ∧
    (s.p.mgt.updLen = some 320 ∧ s.p.mgt.updAt ≤ 0 ∧ 0 + [1#8].length ≤ 320 ∧ s.fromOwner testAsk = true ∧ s.p.inRecovery = false) ∧
    ((s.nv.slot s.p.spareSlot).bytes = testImage ∧ (full.nv.slot full.p.spareSlot).bytes.length = 320 ∧ full.p.mgt.updLen = some 320) ∧
    (none'.nv.setSlot true ⟨[], false⟩).slotB.bytes.length ≠ 320 ∧ full.fuses.imageValid (leBytes 320 0) = false ∧
    ok.p.mgt.updOk = true ∧ none'.p.mgt.updOk = false ∧ (none'.p.mgt.fw = none ∧ late.p.mgt.fw = some fw ∧ late.p.mgt.afterTrial = true) ∧
    (rec'.p.inRecovery = true ∧ testAsk.via = .smbus ∧ rec'.p.mgt.updLen = some 320 ∧ rec'.p.mgt.sram = testImage ∧
      rec'.p.mgt.sram.length = 320 ∧ rec'.p.reaches .smbus = true) := by decide +kernel

theorem witness_controller :
    let at' (st : Nat) := (testManaged fun m => { m with smb := { Spdm.reset with stage := st } }).p
    let open' := (testManaged fun m => { m with smb := { Spdm.reset with stage := 3, opening := true } }).p
    let hot := (testManaged fun m => { m with thermHold := true, temps := [(0, 40)] }).p
    ((at' 1).reaches .smbus = true ∧ (at' 1).answers = true ∧ ((at' 1).mgt.conn .smbus).stage = 1 ∧ ((at' 2).mgt.conn .smbus).stage = 2 ∧
      ((at' 3).mgt.conn .smbus).stage = 3 ∧ ((at' 3).mgt.conn .smbus).session = false ∧ ((at' 3).mgt.conn .smbus).opening = false ∧
      (open'.mgt.conn .smbus).opening = true ∧ ((testManaged id).p.mgt.conn .smbus).session = true) ∧
    (0x84#8).toNat = 0x84 ∧ (0#8).toNat % 16 = 0 ∧ (testPart.answers = false) ∧ (hot.pgood = true ∧ hot.answers = true) ∧
    (hot.mgt.thermHold = true ∧ hot.mgt.stopped = false ∧ (hottest hot.mgt.temps).1 + 10 ≤ hot.mgt.holdC ∧ testPart.mgt.thermHold = false) ∧
    (hottest [(0, 111)]).1 = 111 ∧ 71 < 72 := by decide

theorem witness_supply :
    let w := testRegs testPart [(PWR_STATUS, 0x36)]
    (testPart.pgood = true ∧ testPart.running = true ∧ testPart.getB PWR_STATUS 2 = false ∧ testPart.clocked = true) ∧
    (w.pgood = true ∧ w.getB PWR_STATUS 1 = true ∧ w.getB PWR_STATUS 2 = true ∧
      (w.modPower fun x => { x with recoverAt := some 3 }).power.recoverAt = some 3) ∧
    (Part.reset true).pgood = false ∧ railWithin 0 0 8 = false ∧ railWithin 0 (nth railNominal 0 0) 8 = true ∧
    ((testHost testPart).hif.linkUp = true ∧ (testHost testPart).running = false ∧
      (testRegs (testHost testPart) [(TIK_STATUS, 1)]).running = true ∧ (Part.reset true).hif.linkUp = false) ∧
    (let p := { testHost testPart with power := { (testHost testPart).power with hbmTrained := true } }
     p.power.hbmTrained = true ∧ p.getB PWR_STATUS 7 = false) := by decide

/-- A capture of a group without passes that waits for a spare, with the rows it wrote. -/
def testDup (stage : Nat) : DupCap :=
  ⟨0, 3, 1, 0, 0, 0, [], some testDrain, .reset, [], false, [], [], 0, stage, 15, []⟩

theorem witness_integrity :
    let p (st : Nat) := testPart.modObs fun o => { o with dups := [(0, [testDup st])] }
    let n := testRx (testRegs testPart [(TIK_STATUS, 0x21)]) [testPk 3 3 9 0 (leBytes 16 4)]
    let t := testRegs testPart [(OBS_CTRL, 0x2A00)]
    let q := testRegs ((testHost testPart).modObs fun o => { o with testQueued := true }) [(TIK_STATUS, 0xC)]
    (((p 1).dups 0).find? (fun d => d.stage == 1) = some (testDup 1) ∧ (testDup 1).drain = some testDrain ∧ (p 1).live = true ∧
      ((p 1).dupSpares (fun _ => 16) 0).contains 14 = true ∧
      (faulty ((p 1).dupRows (testDup 1) testDrain) 0 = faulty [] 0 ∧ (testDup 1).captured 4 = [] ∧
        faulty ((p 1).dupRows (testDup 1) testDrain) 1 ≠ (testDup 1).captured testDrain.fmt.bytes)) ∧
    (((p 2).dups 0).find? (fun d => d.stage == 2) = some (testDup 2) ∧ 14 ≠ (testDup 2).spare ∧ ((p 2).dupSpares (fun _ => 16) 0).contains 14 = true) ∧
    ((n.fab.rx.find? fun k => k.cls == 3 && k.kind == 9) = some (testPk 3 3 9 0 (leBytes 16 4)) ∧ n.role ≠ 0 ∧ n.obs.noticeFrom = []) ∧
    ((n.modObs fun o => { o with noticeFrom := [1], noticeFrame := 9 }).obs.noticeFrom ≠ [] ∧ leAt (leBytes 16 4) 0 8 < 9) ∧
    (t.live = true ∧ (t.testSpares (fun _ => 16) 0).contains 0 = true ∧ t.packagePattern 0 = false) ∧
    ((testHost testPart).hif.linkUp = true ∧ (testHost testPart).obs.testQueued = false) ∧
    (q.hif.linkUp = true ∧ q.obs.testQueued = true ∧ q.live = true ∧ 3 ≤ q.phase ∧ q.running = false) := by decide

theorem witness_freeze :
    let p := testRegs (testHost testPart) [(OBS_FREEZE, 4), (OBS_SCAN, 0)]
    let f := p.modObs fun o => { o with frozen := true }
    (p.hif.linkUp = true ∧ p.obs.frozen = false ∧ p.getB OBS_FREEZE 2 = true ∧ p.pgood = true) ∧
    (f.hif.linkUp = true ∧ f.obs.frozen = true ∧ bit (f.rd OBS_SCAN) 42 = false ∧ f.validCore (f.getF OBS_SCAN 43 13) = true ∧
      f.getF OBS_SCAN 59 2 = 0 ∧ f.getF OBS_SCAN 0 32 / 4096 * 4096 + 4096 ≤ spadBytes) ∧
    ((Part.reset true).pgood = false ∧ (Part.reset true).hif.linkUp = false) := by decide

theorem witness_steps :
    let s : State := { State.reset with pending := [Instr.freeze, .thaw] }
    s.pending = .freeze :: [.thaw] ∧ State.reset.pending = [] ∧ State.reset.p.clocked = false ∧ testPart.clocked = true ∧
    Nv.ok State.reset.nv = true ∧ Memory.wf State.reset.p.mem = true ∧
    encodeWord (.add ⟨1, 2, 3, 0, 0⟩) = 0x1008860000000000 ∧ decodeWord 0x1008860000000000 = some (.add ⟨1, 2, 3, 0, 0⟩) := by decide

/-- From reset nothing waits and no clock runs: a step answers the same state. -/
theorem witness_invariants : Steps State.reset State.reset := rfl

/-! Ill-formed commands, one for each check of Instr.wf. -/

/-- A control message's first copy. -/
def testHead : CtlHead := ⟨0, false⟩
/-- What a neighbour presents. -/
def testCredential : Credential := ⟨0, true, 0, 0, 0, 0, 0, 0, []⟩

/-- A command whose operands no interface can carry is refused by `Instr.wf`. -/
theorem test_ill_formed :
    ∀ c ∈ ([.tickToken ⟨9, testHead⟩ testTok, .tickToken ⟨0, testHead⟩ { testTok with count := 2 ^ 64 }, .tickToken ⟨0, testHead⟩ { testTok with len := 2 ^ 27 },
        .tickToken ⟨0, testHead⟩ { testTok with stretch := 2 ^ 27 }, .tickToken ⟨0, testHead⟩ { testTok with master := 2 ^ 16 }, .holdNotice ⟨9, testHead⟩,
        .tickPathProbe ⟨9, testHead⟩ false 0 0, .tickPathProbe ⟨0, testHead⟩ false (2 ^ 16) 0, .tickPathProbe ⟨0, testHead⟩ false 0 256,
        .fabricFreeze ⟨9, testHead⟩, .phaseStart 0, .phaseStart 4, .electricalTrainingDone 34, .identityExchange 34 ⟨0, 0, 0, 0⟩,
        .identityExchange 0 ⟨2 ^ 16, 0, 0, 0⟩, .identityExchange 0 ⟨0, 64, 0, 0⟩, .identityExchange 0 ⟨0, 0, 2 ^ 16, 0⟩,
        .portAuthenticate 34 testCredential, .portAuthenticate 0 { testCredential with svn := 64 }, .portRetrain 34,
        .fullRetrainDone 34 ⟨true, ⟨0, 0, 0, 0⟩, testCredential⟩, .fullRetrainDone 0 ⟨true, ⟨2 ^ 16, 0, 0, 0⟩, testCredential⟩,
        .fullRetrainDone 0 ⟨true, ⟨0, 0, 0, 0⟩, { testCredential with svn := 64 }⟩] : List Instr), c.wf = false := by decide

theorem test_ill_formed_links :
    ∀ c ∈ ([.fabricPacketArrive 34 ⟨0, 0, true⟩ (testPk 0 0 0 0 []), .fabricPacketArrive 0 ⟨4096, 0, true⟩ (testPk 0 0 0 0 []),
        .fabricPacketArrive 0 ⟨0, 4, true⟩ (testPk 0 0 0 0 []), .fabricPacketArrive 0 ⟨0, 0, true⟩ (testPk (2 ^ 16) 0 0 0 []),
        .fabricPacketArrive 0 ⟨0, 0, true⟩ (testPk 0 16 0 0 []), .fabricPacketArrive 0 ⟨0, 0, true⟩ (testPk 0 0 16 0 []),
        .fabricPacketArrive 0 ⟨0, 0, true⟩ (testPk 0 0 0 (2 ^ 20) []), .fabricPacketArrive 0 ⟨0, 0, true⟩ (testPk 0 0 0 0 [0]),
        .fabricPacketArrive 0 ⟨0, 0, true⟩ (testPk 0 0 0 0 (List.replicate 4096 0)),
        .fabricPacketArrive 0 ⟨0, 0, true⟩ { testPk 0 0 0 0 [] with route := 2 ^ 240 }, .fabricPacketArrive 0 ⟨0, 0, true⟩ { testPk 0 0 0 0 [] with dst := 2 ^ 16 },
        .fabricPacketArrive 0 ⟨0, 0, true⟩ { testPk 0 0 0 0 [] with epoch := 16 }, .fabricPacketArrive 0 ⟨0, 0, true⟩ { testPk 0 0 0 0 [] with window := 256 },
        .fabricPacketArrive 0 ⟨0, 0, true⟩ { testPk 0 0 0 0 [] with poison := 2 ^ 64 }, .linkAck 34 0, .linkAck 0 4096, .linkReject 34 0,
        .linkReject 0 4096, .receiveStall 34, .ackTimeout 34, .fastRetrainDone 34 true, .laneLosesLock 34] : List Instr), c.wf = false := by
  decide +kernel

theorem test_ill_formed_rest :
    ∀ c ∈ ([.bucketStart 4096, .reduceStep 4096, .bucketComplete 4096, .linkTraining true 5 0, .linkTraining true 0 5,
        .hdmDecoderCommit 0 (2 ^ 64) 0 0 1, .hdmDecoderCommit 0 0 (2 ^ 64) 0 1, .hdmDecoderCommit 0 0 0 (2 ^ 64) 1, .cxlMemRead (2 ^ 64) [],
        .cxlMemWrite (2 ^ 64) (leBytes 64 0) false, .cxlMemWrite 0 [] false, .h2dSnoop (2 ^ 64), .sqDoorbell 0 0 [⟨2 ^ 64, [0], false⟩],
        .copyIn 0 [⟨0, [], false⟩], .hostSubmit 0 [⟨60, leBytes 5 0, false⟩], .graftLoad 0 [⟨0, [], false⟩], .txnStage 0 [⟨0, [], false⟩],
        .registerWrite (2 ^ 28) 4 0, .registerWrite 0 0 0, .registerWrite 0 65 0, .thermalTrip 72, .railFault 17 0, .selftestSlice 0 true 512 0 true,
        .selftestSlice 0 false 2048 0 true, .dupCheck 0 512 0, .dupArbitrate 0 512 0, .holdLapse (2 ^ 16) 0, .holdLapse 0 3] : List Instr),
      c.wf = false := by decide

theorem test_well_formed :
    ∀ c ∈ ([.tickToken ⟨8, testHead⟩ testTok, .fabricPacketArrive 33 ⟨4095, 3, false⟩ (testPk 1 0 2 0 (leBytes 32 0)), .thermalTrip 71, .railFault 16 0,
        .holdLapse 0 2, .bucketStart 4095, .registerWrite 0 8 0, .phaseStart 3, .portAuthenticate 33 testCredential,
        .fullRetrainDone 33 ⟨true, ⟨1, 63, 2, 0⟩, testCredential⟩] : List Instr), c.wf = true := by decide

/-! Words of chapter 04's table of examples. -/

theorem test_word_setvl : decodeWord 0x3000010000004000 = some (.setvl ⟨0, 0, 1, 0x4000⟩) := by decide
theorem test_word_udef : decodeWord 0x3110E68000000000 = some (.udef ⟨0, 1, 1, 12, 13, 0, 0⟩) := by decide
theorem test_word_ask : decodeWord 0x506A800000000000 = some (.ask ⟨13, 10, 0⟩) := by decide
theorem test_word_mload : decodeWord 0x20A5960000180000 = some (.mload ⟨1, 2, 0, 22, 11, 0xC000⟩) := by decide
theorem test_word_mac : decodeWord 0x2183D6BE20081800 = some (.mac ⟨1, 0, 0, 0, 0, 15, 11, 2, 31, 1, 0, 0x40C0⟩) := by decide
theorem test_word_vdrain : decodeWord 0x33D6568800080000 = some (.vdrain ⟨26, 25, 11, 2, 0, 1, 0, 0, 0x4000⟩) := by decide
theorem test_word_vstream : decodeWord 0x32108BC092E40000 = some (.vstream ⟨0, 16, 17, 15, 0, 2, 2, 2, 7, 0, 1⟩) := by decide
theorem test_word_fence : decodeWord 0x6300000000000000 = some (.fence 0) := by decide
theorem test_word_signal : decodeWord 0x6000185000000000 = some (.signal ⟨0, 0, 12, 5⟩) := by decide

/-! Values that the spec works out. -/

/-- Chapter 03: the binary32 value nearest 0.3 in each short format by RNE. -/
theorem test_three_tenths :
    ((convert .b32 .t8e .rne false false 0x3E99999A).1 = 0x2A ∧ (convert .b32 .t8r .rne false false 0x3E99999A).1 = 0x35) ∧
    (convert .b32 .t16 .rne false false 0x3E99999A).1 = 0x3E9A ∧ (convert .b32 .t16m .rne false false 0x3E99999A).1 = 0x3A66 := by decide

/-- Chapter 03: 0.3 to T8e under SR with the draws 0x5A3 and 0x800. -/
theorem test_stochastic :
    (convert .b32 .t8e (.sr 0x5A3) false false 0x3E99999A).1 = 0x29 ∧ (convert .b32 .t8e (.sr 0x800) false false 0x3E99999A).1 = 0x2A := by decide

/-- Chapter 03: 500.0 to T8e saturates or becomes a NaN, with the overflow event either way; 460.0 rounds to 448 without it. -/
theorem test_overflow :
    (convert .b32 .t8e .rne true false 0x43FA0000).1 = 0x7E ∧ (convert .b32 .t8e .rne false false 0x43FA0000).1 = 0x7F ∧
    (convert .b32 .t8e .rne true false 0x43FA0000).2.bits &&& Events.overflow.bits ≠ 0 ∧ (convert .b32 .t8e .rne false false 0x43FA0000).2.bits &&& Events.overflow.bits ≠ 0 ∧
    (convert .b32 .t8e .rne false false 0x43E60000).1 = 0x7E ∧ (convert .b32 .t8e .rne false false 0x43E60000).2.bits &&& Events.overflow.bits = 0 := by decide

/-- R355: the header of the worked example, whose route is seven hops long, and its first virtual channels. -/
theorem test_header_example :
    let bytes : List Byte := [0x63, 0x94, 0x73, 0] ++ leBytes 26 0 ++ [3, 0x20, 0x23, 1, 0x83, 1, 0, 0x0B, 0, 0] ++ leBytes 8 0
    (readPacket (bytes ++ leBytes 32 0)).map packetHeader = some bytes ∧
      (readPacket (bytes ++ leBytes 32 0)).map (fun q => [q.src, q.dst, q.epoch, q.cls, q.window, q.kind, q.ref, q.route]) =
        some [0x2003, 0x0123, 8, 3, 0, 0, 11, 0x739463] := by decide +kernel

/-- The virtual channels of a path, from the part at its start and the hops with the parts they lead to. -/
def testVcs (vc : Option (Nat × Nat)) (chip : Nat) : List (Nat × Nat) → List Nat
  | [] => []
  | (code, next) :: l =>
    let p := testPart.modFab fun f => { f with idInForce := chip, topoInForce := 0x3333 }
    let out := match vc with
      | none => p.firstVc code
      | some (was, v) => p.nextVc (4 * ((was - 1) ^^^ 1)) v code
    out :: testVcs (some (code, out)) next l

/-- R355: the virtual channels of the worked example's two paths. -/
theorem test_channels_example :
    testVcs none 0x2003 [(3, 0x2013), (3, 0x2023), (5, 0x2123), (7, 0x3123), (7, 0x0123)] = [0, 0, 0, 0, 1] ∧
    testVcs none 0x2003 [(5, 0x2103), (8, 0x1103), (8, 0x0103), (4, 0x0133), (4, 0x0123)] = [0, 0, 0, 3, 3] := by decide +kernel

/-- Chapters 11 and 13: offsets worked out there. -/
theorem test_offsets : FAB_RT 0x123 0 - 0x800000 = 0x4048C0 ∧ SCH_QSTAT 2 0x100 = 0x3430400 ∧ COR_CTRL 0x815 = 0x2805400 := by decide

/-- FIPS 180-4: the digest of "abc". -/
theorem test_sha256 :
    digestNat [0x61#8, 0x62#8, 0x63#8] = 0xBA7816BF8F01CFEA414140DE5DAE2223B00361A396177A9CB410FF61F20015AD := by decide +kernel

/-- What a test asks of the part after a command. -/
def testAfter (c : Instr) (p : Part) (f : Part → Bool) : Bool :=
  match exec c (testState p) with
  | .next t => f t.p
  | _ => false

/-- R115: ADD adds modulo 2^32 and the core goes on to its next instruction. -/
theorem test_add :
    testAfter (.add 0 (testA 0 0)) (testCore fun k => (k.setReg 2 0xFFFFFFFF).setReg 3 2)
      (fun p => (p.core 0).reg 1 == 1 && (p.core 0).pc == ((testCore id).core 0).pc + 8) = true := by decide

/-- R115: a shift takes bits [4:0] of its amount; SRA fills with the sign. -/
theorem test_sra :
    testAfter (.sra 0 (testA 0 0)) (testCore fun k => (k.setReg 2 0x80000000).setReg 3 36) (fun p => (p.core 0).reg 1 == 0xF8000000) = true := by decide

/-- R115: g0 reads as zero whatever is written to it. -/
theorem test_zero :
    testAfter (.add 0 ⟨0, 2, 3, 0, 0⟩) (testCore fun k => (k.setReg 2 5).setReg 3 2) (fun p => (p.core 0).reg 0 == 0) = true := by decide

end Sys2Proof.Machine
end

section
/-!
SUPPORT. Issuing, counting a signal and releasing a line: what they make of a core, for the event counters and the herd lines (R65 to R71).
-/
namespace Sys2Proof.Machine

/-- An instruction that issues on a ready core acts on the part in which the core runs. -/
theorem becomes_issue {i : Instr} {s : State} {c : Nat} {l : List Nat} {body : Part → Part}
    (he : exec i s = s.run fun p => p.issue c l body) (h : s.p.ready c l = true) :
    Becomes i s (body (s.p.setCore c (s.p.core c).runs)) := by
  rw [Becomes, he, State.run, issue_ready h]

/-- An instruction whose meaning is one change `f` of the issuing core moves on with that change. -/
theorem moves_of_issue {i : Instr} {s : State} {c : Nat} {l : List Nat} {body : Part → Part} {f : Core → Core}
    (he : exec i s = s.run fun p => p.issue c l body) (h : s.p.ready c l = true)
    (hb : body (s.p.setCore c (s.p.core c).runs) = (s.p.setCore c (s.p.core c).runs).setCore c (f (s.p.core c).runs.next)) :
    ∃ q, Becomes i s q ∧ MovesOn s.p q c f :=
  ⟨_, becomes_issue he h, hb ▸ movesOn_set s.p c _ _ f rfl⟩

/-- An instruction whose meaning is a fault faults the issuing core. -/
theorem faults_of_issue {i : Instr} {s : State} {c code : Nat} {l : List Nat} {body : Part → Part}
    (he : exec i s = s.run fun p => p.issue c l body) (h : s.p.ready c l = true) (hf : (s.p.core c).faultSeq = none)
    (hb : body (s.p.setCore c (s.p.core c).runs) = (s.p.setCore c (s.p.core c).runs).faultNow c code) :
    ∃ q, Becomes i s q ∧ FaultsWith s.p q c code :=
  ⟨_, becomes_issue he h, hb ▸ faultsWith_now s.p c code hf⟩

/-- A list that holds an entry with the property gives up its first one. -/
theorem takeFirst_of_mem {α : Type} {f : α → Bool} {x : α} (hx : f x = true) :
    ∀ {l : List α}, x ∈ l → ∃ y rest, takeFirst f l = some (y, rest)
  | y :: l, hm => by
    cases hy : f y with
    | true => exact ⟨y, l, by simp [takeFirst, hy]⟩
    | false =>
      have hxl : x ∈ l := by
        rcases List.mem_cons.mp hm with rfl | hxl
        · simp [hx] at hy
        · exact hxl
      obtain ⟨z, rest, hz⟩ := takeFirst_of_mem hx hxl
      exact ⟨z, y :: rest, by simp [takeFirst, hy, hz]⟩

/-- Accepting a signal uses one of the core's slots in the cycle and changes nothing else of the core (R68). -/
theorem Part.acceptSlot_core (p : Part) (c : Nat) :
    (p.acceptSlot c).core c = { p.core c with evTook := ((p.acceptSlot c).core c).evTook } := by
  unfold Part.acceptSlot
  dsimp only
  split <;> simp

/-- A signal leaves the status of the core that counts it. -/
theorem Part.countSignal_st (p : Part) (c ev : Nat) : ((p.countSignal c ev).core c).st = (p.core c).st := by
  have hst : ((p.acceptSlot c).core c).st = (p.core c).st := by rw [p.acceptSlot_core c]
  unfold Part.countSignal
  dsimp only
  split <;> simp [hst]

/-- A signal adds one to its counter, which stops at 255, and leaves the other counters (R65, R66). -/
theorem Part.countSignal_ev (p : Part) (c ev i : Nat) :
    spGet 0 ((p.countSignal c ev).core c).ev i =
      if i = ev ∧ spGet 0 (p.core c).ev i < 255 then spGet 0 (p.core c).ev i + 1 else spGet 0 (p.core c).ev i := by
  have he : ((p.acceptSlot c).core c).ev = (p.core c).ev := by rw [p.acceptSlot_core c]
  unfold Part.countSignal
  dsimp only
  rw [he]
  split
  case isTrue hfull =>
    have hi : ¬ (i = ev ∧ spGet 0 (p.core c).ev i < 255) := by rintro ⟨rfl, hlt⟩; omega
    simp [he, hi]
  case isFalse hroom =>
    by_cases hi : i = ev
    · subst hi; simp [not_le.mp hroom]
    · simp [he, hi, Ne.symm hi]

/-- A wait that ends takes its n from its own counter (R65). -/
theorem Core.waitEnds_ev (k : Core) (i : Nat) :
    spGet 0 k.waitEnds.ev i = spGet 0 k.ev i - if i = k.waitId then k.waitN else 0 := by
  by_cases hi : i = k.waitId
  · subst hi; simp [Core.waitEnds, Core.takeEv]
  · simp [Core.waitEnds, Core.takeEv, hi, Ne.symm hi]

/-- The core before a signal is counted: in a live part its wait has ended when it sees the count (R65, R67). -/
theorem Part.endWait_core (p : Part) (c : Nat) :
    (if p.live then p.endWait c else p).core c =
      if p.live && (p.core c).st == .evWait && decide ((p.core c).waitN ≤ (p.core c).visible p.cycle (p.core c).waitId) then
        (p.core c).waitEnds
      else p.core c := by
  cases p.live
  case false => simp
  case true =>
    simp only [if_true, Bool.true_and, Part.endWait]
    split <;> simp

/-- A change of cores that are named once each: what every core is afterwards. -/
theorem Part.each_setCore_core (f : Core → Core) (l : List Nat) (hl : l.Nodup) (p : Part) (d : Nat) :
    (p.each l fun p c => p.setCore c (f (p.core c))).core d = if d ∈ l then f (p.core d) else p.core d := by
  induction l generalizing p with
  | nil => simp
  | cons c l ih =>
    obtain ⟨hc, hl'⟩ := List.nodup_cons.mp hl
    rw [Part.each_cons, ih hl', Part.core_setCore]
    by_cases hd : c = d
    · subst hd; simp [hc]
    · simp [hd, Ne.symm hd]

theorem bit_eq_testBit (n i : Nat) : bit n i = n.testBit i := by
  rw [Nat.testBit_eq_decide_div_mod_eq, bit, Nat.shiftRight_eq_div_pow]
  rfl

/-- A line's bit after the line is marked. -/
theorem bit_or_two_pow (n i : Nat) : bit (n ||| 2 ^ i) i = true := by
  rw [bit_eq_testBit, Nat.testBit_or, Nat.testBit_two_pow_self, Bool.or_true]

/-- A line's bit after it is taken from the 48 lines. -/
theorem bit_and_clear (n : Nat) {i : Nat} (hi : i < 48) : bit (n &&& (2 ^ 48 - 1 - 2 ^ i)) i = false := by
  have hs : 2 ^ 48 - 1 - 2 ^ i = 2 ^ 48 - (2 ^ i + 1) := by omega
  rw [bit_eq_testBit, Nat.testBit_and, hs, Nat.testBit_two_pow_sub_succ (Nat.pow_lt_pow_right (by omega) hi),
    Nat.testBit_two_pow_self]
  simp

/-- The release of a line ends a herd-wait on it: the core runs with its arrival taken (R71). -/
theorem Core.released_of_wait {k : Core} {i : Nat} (hi : i < 48) (hs : k.st = .herdWait) (hw : k.waitId = i) (hn : k.waitN = 0) :
    (k.released i).st = .running ∧ bit (k.released i).arrived i = false := by
  have hb := bit_and_clear k.arrived hi
  simpa [Core.released, hs, hw, hn] using hb

/-- The release of a line lets an arrival that waited for it be made: the core runs and has arrived again (R71). -/
theorem Core.released_of_arrival {k : Core} {i : Nat} (hs : k.st = .herdWait) (hw : k.waitId = i) (hn : k.waitN = 1) :
    (k.released i).st = .running ∧ bit (k.released i).arrived i = true := by
  simp [Core.released, hs, hw, hn, bit_or_two_pow]

end Sys2Proof.Machine
end

section
/-!
PROOF. Event counters and WAIT (R65, R67, R133).
-/
namespace Sys2Proof.Machine

/-- A wait that sees its count takes it at once (R65, R67). -/
theorem wait_passes (s : State) (n : BitVec 13) (f : WaitF) (h : s.p.ready n.toNat [] = true) (h0 : f.n.toNat ≠ 0)
    (hv : f.n.toNat ≤ (s.p.core n.toNat).visible s.p.cycle f.ev.toNat) :
    ∃ q, Becomes (.wait n f) s q ∧ MovesOn s.p q n.toNat fun x =>
      { x with ev := spSet 0 (s.p.core n.toNat).ev f.ev.toNat (spGet 0 (s.p.core n.toNat).ev f.ev.toNat - f.n.toNat) } := by
  have hv' : (s.p.core n.toNat).runs.visible s.p.cycle f.ev.toNat ≥ f.n.toNat := hv
  refine moves_of_issue rfl h ?_
  simp only [h0, if_false, Part.modCore_eq, Part.core_setCore, if_true, Part.setCore_keeps, if_pos hv']
  rfl

/-- A wait that sees a smaller count blocks (R65). -/
theorem wait_blocks (s : State) (n : BitVec 13) (f : WaitF) (h : s.p.ready n.toNat [] = true)
    (hv : (s.p.core n.toNat).visible s.p.cycle f.ev.toNat < f.n.toNat) :
    ∃ q, Becomes (.wait n f) s q ∧ MovesOn s.p q n.toNat fun x => { x with st := .evWait, waitId := f.ev.toNat, waitN := f.n.toNat } := by
  have h0 : f.n.toNat ≠ 0 := by omega
  have hv' : ¬ (s.p.core n.toNat).runs.visible s.p.cycle f.ev.toNat ≥ f.n.toNat := not_le.mpr hv
  refine moves_of_issue rfl h ?_
  simp only [h0, if_false, Part.modCore_eq, Part.core_setCore, if_true, Part.setCore_keeps, if_neg hv']

/-- A wait of 0 faults with code 1 (R133). -/
theorem wait_zero_faults (s : State) (n : BitVec 13) (f : WaitF) (h : s.p.ready n.toNat [] = true)
    (hf : (s.p.core n.toNat).faultSeq = none) (h0 : f.n.toNat = 0) :
    ∃ q, Becomes (.wait n f) s q ∧ FaultsWith s.p q n.toNat 1 :=
  faults_of_issue rfl h hf (if_pos h0)

/-- A blocked wait whose count suffices ends: in this cycle when it sees the count, and else in the next (R65, R67). -/
theorem waitComplete_ends (s : State) (n : BitVec 13) (hl : s.p.live = true) (hs : (s.p.core n.toNat).st = .evWait)
    (hc : (s.p.core n.toNat).waitN ≤ spGet 0 (s.p.core n.toNat).ev (s.p.core n.toNat).waitId) :
    ∃ q, Becomes (.waitComplete n) s q ∧ (∀ d, d ≠ n.toNat → q.core d = s.p.core d) ∧ q.mem = s.p.mem ∧
      q.cycle = (if (s.p.core n.toNat).waitN ≤ (s.p.core n.toNat).visible s.p.cycle (s.p.core n.toNat).waitId then s.p.cycle
        else s.p.cycle + 1) ∧
      q.core n.toNat = (s.p.core n.toNat).waitEnds := by
  refine ⟨_, rfl, ?_⟩
  simp only [hl, hs, hc, beq_self_eq_true, Bool.and_self, ge_iff_le, decide_true, if_true, Part.modCore_eq]
  split
  · exact ⟨fun d hd => by simp [Ne.symm hd], by simp, by simp, by simp⟩
  · exact ⟨fun d hd => by simp [Ne.symm hd], by simp, by simp, by simp⟩

/-- What a signal that arrives does: it leaves the buffer, a wait that completes in the cycle ends, and then the counter takes the
signal (R67). -/
theorem evSignalArrive_becomes (s : State) (n : BitVec 13) (ev : BitVec 5) (h : (n.toNat, ev.toNat) ∈ s.p.tick.signals) :
    ∃ r : Part, r.live = s.p.live ∧ r.cycle = s.p.cycle ∧ (∀ d, r.core d = s.p.core d) ∧
      Becomes (.evSignalArrive n ev) s ((if r.live then r.endWait n.toNat else r).countSignal n.toNat ev.toNat) := by
  obtain ⟨y, rest, ht⟩ := takeFirst_of_mem (f := fun q : Nat × Nat => q.1 == n.toNat && q.2 == ev.toNat) (by simp) h
  refine ⟨s.p.modTick fun t => { t with signals := rest }, rfl, rfl, fun _ => rfl, ?_⟩
  show execEvSignalArrive n ev s = _
  simp only [execEvSignalArrive, State.run, ht]

/-- Settles O6: each clause is what one of the lemmas above says of WAIT, WAIT_COMPLETE or EV_SIGNAL_ARRIVE; for the arrival, the
count is the one that `endWait` leaves, with the signal of `countSignal` added. -/
theorem waits : Obligations.Waits := by
  intro s n
  refine ⟨wait_passes s n, wait_blocks s n, wait_zero_faults s n, waitComplete_ends s n, fun ev hm => ?_⟩
  obtain ⟨r, hlive, hcycle, hcore, hb⟩ := evSignalArrive_becomes s n ev hm
  have hc := r.endWait_core n.toNat
  rw [hlive, hcycle, hcore] at hc
  rw [hlive] at hb
  dsimp only
  cases he : s.p.live && (s.p.core n.toNat).st == .evWait &&
      decide ((s.p.core n.toNat).waitN ≤ (s.p.core n.toNat).visible s.p.cycle (s.p.core n.toNat).waitId)
  case false =>
    rw [he, if_neg Bool.false_ne_true] at hc
    exact ⟨_, hb, by rw [Part.countSignal_st, hc]; rfl, fun i => by rw [Part.countSignal_ev, hc]; simp⟩
  case true =>
    rw [he, if_pos rfl] at hc
    refine ⟨_, hb, by rw [Part.countSignal_st, hc]; rfl, fun i => ?_⟩
    rw [Part.countSignal_ev, hc, Core.waitEnds_ev]
    simp

end Sys2Proof.Machine
end

section
/-!
PROOF. Herd lines: arrive, wait, release (R70, R71).
-/
namespace Sys2Proof.Machine

/-- The lines a core joins do not depend on the cores. -/
@[simp] theorem Part.joins_setCore (p : Part) (c : Nat) (k : Core) (d line : Nat) : (p.setCore c k).joins d line = p.joins d line := rfl

section
variable (s : State) (n : BitVec 13) (f : HerdF) (h : s.p.ready n.toNat [] = true)
include h

section
variable (hi : f.line.toNat < 48) (hj : s.p.joins n.toNat f.line.toNat = true)
include hi hj

section
variable (ha : bit (s.p.core n.toNat).arrived f.line.toNat = false)
include ha

/-- An arrival marks the line and the core goes on (R71). -/
theorem herd_arrives (hm : f.mode = 1) :
    ∃ q, Becomes (.herd n f) s q ∧ MovesOn s.p q n.toNat fun x =>
      { x with arrived := (s.p.core n.toNat).arrived ||| 2 ^ f.line.toNat } := by
  refine moves_of_issue rfl h ?_
  simp [hm, hj, ha, not_le.mpr hi]

/-- A herd-wait of a core with no arrival outstanding passes (R71; log 24 for a core that has never arrived). -/
theorem herd_wait_passes (hm : f.mode = 2) : ∃ q, Becomes (.herd n f) s q ∧ MovesOn s.p q n.toNat fun x => x := by
  refine moves_of_issue rfl h ?_
  simp [hm, hj, ha, not_le.mpr hi]

/-- The combined instruction marks the line and blocks (R71). -/
theorem herd_arrives_and_waits (hm : f.mode = 3) :
    ∃ q, Becomes (.herd n f) s q ∧ MovesOn s.p q n.toNat fun x =>
      { x with arrived := (s.p.core n.toNat).arrived ||| 2 ^ f.line.toNat, st := .herdWait, waitId := f.line.toNat, waitN := 0 } := by
  refine moves_of_issue rfl h ?_
  simp [hm, hj, ha, not_le.mpr hi]

end

/-- Before the line has released from the core's last arrival, every mode blocks; an arrival keeps its mode for the release (R71). -/
theorem herd_blocks (ha : bit (s.p.core n.toNat).arrived f.line.toNat = true) (hm : f.mode ≠ 0) :
    ∃ q, Becomes (.herd n f) s q ∧ MovesOn s.p q n.toNat fun x =>
      { x with st := .herdWait, waitId := f.line.toNat, waitN := if f.mode = 2 then 0 else f.mode.toNat } := by
  by_cases h2 : f.mode = 2
  · refine moves_of_issue rfl h ?_
    simp [h2, hj, ha, not_le.mpr hi]
  · have hm0 : f.mode.toNat ≠ 0 := by bv_omega
    have hm2 : f.mode.toNat ≠ 2 := by bv_omega
    simp only [if_neg h2]
    refine moves_of_issue rfl h ?_
    simp [hm0, hm2, hj, ha, not_le.mpr hi]

end

/-- An arrival on a line the core has not joined faults with code 6 (R133). -/
theorem herd_unjoined_faults (hf : (s.p.core n.toNat).faultSeq = none) (hi : f.line.toNat < 48)
    (hj : s.p.joins n.toNat f.line.toNat = false) (hm : f.mode = 1 ∨ f.mode = 3) :
    ∃ q, Becomes (.herd n f) s q ∧ FaultsWith s.p q n.toNat 6 := by
  refine faults_of_issue rfl h hf ?_
  rcases hm with hm | hm <;> simp [hm, hj, not_le.mpr hi]

/-- A line past the last and the mode 0 fault with code 1 (R133). -/
theorem herd_reserved_faults (hf : (s.p.core n.toNat).faultSeq = none) (hr : 48 ≤ f.line.toNat ∨ f.mode = 0) :
    ∃ q, Becomes (.herd n f) s q ∧ FaultsWith s.p q n.toNat 1 := by
  refine faults_of_issue rfl h hf ?_
  rcases hr with hi | hm
  · simp [hi]
  · simp [hm]

end

/-- A line that every joined core has reached releases each of them, shows the release, and leaves the other cores and memory (R70). -/
theorem herdRelease_releases (s : State) (line : BitVec 6) (hi : line.toNat < 48) (hl : s.p.live = true) (joined : List Nat)
    (hj : s.p.roleCores.filter (fun d => s.p.joins d line.toNat) = joined) (hne : joined ≠ []) (hnd : joined.Nodup)
    (hall : ∀ d ∈ joined, bit (s.p.core d).arrived line.toNat = true) :
    ∃ q, Becomes (.herdRelease line) s q ∧ q.getB TIK_HERD_STATE line.toNat = true ∧ q.mem = s.p.mem ∧
      ∀ d, q.core d = if d ∈ joined then (s.p.core d).released line.toNat else s.p.core d := by
  have hb : Becomes (.herdRelease line) s
      ((s.p.each joined fun p c => p.modCore c fun k => k.released line.toNat).putB TIK_HERD_STATE line.toNat true) := by
    show execHerdRelease line s = _
    have hall' : (joined.all fun c => bit (s.p.core c).arrived line.toNat) = true := List.all_eq_true.mpr hall
    simp [execHerdRelease, State.run, hj, hall', hl, hne, not_le.mpr hi]
  refine ⟨_, hb, Part.getB_putB_same _ _ _ _ (by omega), ?_, fun d => ?_⟩
  · simp only [Part.putB_keeps]
    exact Part.each_get (fun p => p.mem) _ _ _ (by simp)
  · simp only [Part.putB_keeps, Part.modCore_eq]
    exact Part.each_setCore_core (fun k => k.released line.toNat) _ hnd s.p d

/-- Settles O8: HERD by its mode and the core's arrival, and the release by what it makes of a joined core that waits. -/
theorem herdLines : Obligations.HerdLines := by
  intro s n
  refine ⟨fun f h hi hj ha => ⟨herd_arrives s n f h hi hj ha, herd_wait_passes s n f h hi hj ha, herd_arrives_and_waits s n f h hi hj ha⟩,
    herd_blocks s n, herd_unjoined_faults s n, herd_reserved_faults s n, fun line hi hl => ?_⟩
  intro joined hne hnd hall
  obtain ⟨q, hb, hshow, hmem, hcore⟩ := herdRelease_releases s line hi hl joined rfl hne hnd hall
  refine ⟨q, hb, hshow, hmem, hcore, fun d hd hs hw => ?_⟩
  rw [hcore d, if_pos hd]
  exact ⟨Core.released_of_wait hi hs hw, Core.released_of_arrival hs hw⟩

end Sys2Proof.Machine
end

section
/-!
SUPPORT. What counters, sticky bits and error records leave in the registers (R495 to R497, R512).
-/
namespace Sys2Proof.Machine

@[simp] theorem Part.rd_bump_same (p : Part) (o k : Nat) : (p.bump o k).rd o = (p.rd o + k) % 2 ^ 64 := p.rd_wr_same o _

theorem Part.rd_bump_other (p : Part) {o j : Nat} (k : Nat) (h : o ≠ j) : (p.bump o k).rd j = p.rd j := p.rd_wr_other _ h

theorem Part.getB_congr {p q : Part} {o : Nat} (i : Nat) (h : q.rd o = p.rd o) : q.getB o i = p.getB o i := by
  rw [Part.getB, Part.getB, h]

theorem Part.getF_congr {p q : Part} {o : Nat} (lo w : Nat) (h : q.rd o = p.rd o) : q.getF o lo w = p.getF o lo w := by
  rw [Part.getF, Part.getF, h]

/-- A sticky bit is set in its STICKY register and in the FRAME_ERR register above it alone. -/
theorem Part.rd_stick_other (p : Part) {o j : Nat} (i : Nat) (h : o ≠ j) (h' : o + 4 ≠ j) : (p.stick o i).rd j = p.rd j := by
  rw [Part.stick, Part.rd_putB_other _ _ _ h', Part.rd_putB_other _ _ _ h]

/-- A sticky bit reads back as set. -/
theorem Part.getB_stick_same (p : Part) (o : Nat) {i : Nat} (h : i < 64) : (p.stick o i).getB o i = true := by
  rw [Part.stick, Part.getB_congr i (Part.rd_putB_other _ _ _ (by omega)), Part.getB_putB_same _ _ _ _ h]

/-- Setting a sticky bit leaves the others. -/
theorem Part.getB_stick_bit (p : Part) (o : Nat) {i k : Nat} (h : i ≠ k) (hk : k < 64) : (p.stick o i).getB o k = p.getB o k := by
  rw [Part.stick, Part.getB_congr k (Part.rd_putB_other _ _ _ (by omega)), Part.getB_putB_bit _ _ _ _ _ h hk]

/-- A register that no error record, trace record or freeze writes: one of the host interface, or one of a memory controller. -/
def offRecords (j : Nat) : Prop := j < 0x20000 ∨ (0x2000000 ≤ j ∧ 0x540000 ≤ j % 0x800000 ∧ j % 0x800000 < 0x550000)

/-- A trace record that is dropped counts in a register of the observation unit. -/
theorem traceDrop_ne {j : Nat} (h : offRecords j) (b : Nat) : traceDrop b ≠ j := by
  simp only [offRecords] at h
  simp only [traceDrop, OBS_STAT_TDROP, SOBS_STAT_TDROP, secBase]
  split <;> omega

theorem Part.rd_trace (p : Part) (b kind pair core a v : Nat) {j : Nat} (h : offRecords j) :
    (p.trace b kind pair core a v).rd j = p.rd j := by
  have hd := traceDrop_ne h b
  simp only [offRecords] at h
  unfold Part.trace
  dsimp only
  split
  · split
    · rw [Part.rd_stick_other _ _ (by simp only [OBS_STICKY]; omega) (by simp only [OBS_STICKY]; omega), Part.rd_bump_other _ _ hd]
    · simp
  · rfl

theorem Part.rd_freeze (p : Part) (source : Nat) {j : Nat} (h : offRecords j) : (p.freeze source).rd j = p.rd j := by
  have h' := h
  simp only [offRecords] at h'
  unfold Part.freeze Part.freezeFrom
  dsimp only
  split
  · rfl
  · rw [Part.rd_trace _ _ _ _ _ _ _ h]
    have hs : OBS_STATUS ≠ j := by simp only [OBS_STATUS]; omega
    have hy : OBS_STICKY ≠ j ∧ OBS_STICKY + 4 ≠ j := by simp only [OBS_STICKY]; omega
    have ht : TIK_STATUS ≠ j := by simp only [TIK_STATUS]; omega
    have he : OBS_TEST_STATUS ≠ j := by simp only [OBS_TEST_STATUS]; omega
    split <;>
      simp [Part.rd_putB_other _ _ _ ht, Part.rd_putF_other _ _ _ _ he, Part.rd_putB_other _ _ _ hs, Part.rd_stick_other _ _ hy.1 hy.2]

/-- Writing an error record leaves the registers of the host interface and of the memory controllers. -/
theorem Part.rd_err (p : Part) (e : ErrRec) {j : Nat} (h : offRecords j) : (p.err e).rd j = p.rd j := by
  have h' := h
  simp only [offRecords] at h'
  have hd : OBS_STAT_ERRDROP ≠ j := by simp only [OBS_STAT_ERRDROP]; omega
  have hy : OBS_STICKY ≠ j ∧ OBS_STICKY + 4 ≠ j := by simp only [OBS_STICKY]; omega
  have hs : OBS_ERR_SEQ ≠ j := by simp only [OBS_ERR_SEQ]; omega
  have hr : OBS_STAT_ERRREC ≠ j := by simp only [OBS_STAT_ERRREC]; omega
  unfold Part.err
  dsimp only
  split
  case isTrue => simp
  case isFalse =>
    split
    · rw [Part.rd_stick_other _ _ hy.1 hy.2, Part.rd_bump_other _ _ hd]
    · split <;>
        simp [Part.rd_freeze _ _ h, Part.rd_trace _ _ _ _ _ _ _ h, Part.rd_bump_other _ _ hr, Part.rd_wr_other _ _ hs]

theorem Part.rd_noteErr (p : Part) (o i : Nat) (e : ErrRec) {j : Nat} (h : offRecords j) (ho : o ≠ j) (ho' : o + 4 ≠ j) :
    (p.noteErr o i e).rd j = p.rd j := by
  rw [Part.noteErr, Part.rd_err _ _ h, Part.rd_stick_other _ _ ho ho']

end Sys2Proof.Machine
end

section
/-!
SUPPORT. What a read and a write of a line of HBM make of memory and of the registers (R243, R293 to R297, R306).
-/
namespace Sys2Proof.Machine

@[simp] theorem length_leBytes (k n : Nat) : (leBytes k n).length = k := by
  induction k generalizing n with
  | zero => rfl
  | succ k ih => simp [leBytes, ih]

@[simp] theorem length_fitBytes (n : Nat) (bs : List Byte) : (fitBytes n bs).length = n := by
  simp [fitBytes]

@[simp] theorem length_tokenBytes (t : Nat) : (tokenBytes t).length = 32 := length_leBytes 32 t

/-- Letting go of row-cache entries counts in registers of the sectors (R243). -/
theorem Part.rd_rcInvalidate (p : Part) (a n : Nat) {j : Nat} (h : offRecords j) : (p.rcInvalidate a n).rd j = p.rd j := by
  simp only [offRecords] at h
  refine Part.each_get (fun q => q.rd j) _ _ _ fun q s => ?_
  have hs : TBL_STAT_RC_INVAL s ≠ j := by simp only [TBL_STAT_RC_INVAL, secBase]; omega
  dsimp only
  split
  · rfl
  · rw [Part.rd_bump_other _ _ hs]; simp

/-- The registers of the sectors lie above those of the host interface (R422). -/
theorem secBase_ne {j : Nat} (h : j < 0x20000) (s k : Nat) : secBase s + k ≠ j := by
  simp only [secBase]; omega

/-- Counting a corrected line (R296) writes its counters, its sticky bit and its record: of the other registers, MEM_STAT_CE counts it. -/
theorem Part.rd_countCe (p : Part) (n l : Nat) {j : Nat} (h : offRecords j) (h2 : MEM_STAT_CE2 (n / 2) ≠ j) (hs : MEM_STICKY (n / 2) ≠ j)
    (hs' : MEM_STICKY (n / 2) + 4 ≠ j) : (p.countCe n l).rd j = (p.bump (MEM_STAT_CE (n / 2)) 1).rd j := by
  unfold Part.countCe
  dsimp only
  repeat' split
  all_goals simp [Part.rd_noteErr _ _ _ _ h hs hs', Part.rd_bump_other _ _ h2]

section
variable {j : Nat} (h : j < 0x20000)
include h

theorem Part.rd_putHbm (p : Part) (a : Nat) (bs : List Byte) (t : Option Nat) : (p.putHbm a bs t).rd j = p.rd j := by
  have hw : MEM_STAT_WR (p.stack a / 2) ≠ j := secBase_ne h _ 0x540048
  rw [Part.putHbm, Part.rd_bump_other _ _ hw, Part.rd_rcInvalidate _ _ _ (.inl h)]
  simp

/-- An event of a memory controller with its record leaves the registers of the host interface. -/
theorem Part.rd_noteErr_mem (p : Part) (s i : Nat) (e : ErrRec) : (p.noteErr (MEM_STICKY s) i e).rd j = p.rd j :=
  Part.rd_noteErr _ _ _ _ (.inl h) (secBase_ne h s 0x540008) (secBase_ne h s 0x54000C)

theorem Part.rd_errLog (p : Part) (n kind a : Nat) : (p.errLog n kind a).rd j = p.rd j :=
  Part.rd_wr_other _ _ (secBase_ne h _ 0x540030)

theorem Part.rd_countCe_hif (p : Part) (n l : Nat) : (p.countCe n l).rd j = p.rd j := by
  have hc : MEM_STAT_CE (n / 2) ≠ j := secBase_ne h _ 0x540050
  rw [Part.rd_countCe p n l (.inl h) (secBase_ne h _ 0x540058) (secBase_ne h _ 0x540008) (secBase_ne h _ 0x54000C),
    Part.rd_bump_other _ _ hc]

/-- A read of a line leaves the registers of the host interface. -/
theorem Part.rd_readLine (p : Part) (k g q a : Nat) : (p.readLine k g q a).2.rd j = p.rd j := by
  have hr : MEM_STAT_RD (p.stack a / 2) ≠ j := secBase_ne h _ 0x540040
  have hp : MEM_STAT_PREAD (p.stack a / 2) ≠ j := secBase_ne h _ 0x540068
  have hu : MEM_STAT_UE (p.stack a / 2) ≠ j := secBase_ne h _ 0x540060
  unfold Part.readLine
  dsimp only
  split
  case isTrue => simp [Part.rd_bump_other _ _ hr]
  case isFalse =>
    split
    · simp [Part.rd_bump_other _ _ hr]
    · simp [Part.rd_countCe_hif h, Part.rd_bump_other _ _ hr]
    · simp [Part.rd_noteErr_mem h, Part.rd_errLog h, Part.rd_bump_other _ _ hp, Part.rd_bump_other _ _ hr]
    · simp [Part.rd_noteErr_mem h, Part.rd_errLog h, Part.rd_bump_other _ _ hu, Part.rd_putHbm h, Part.rd_bump_other _ _ hr]

end

/-- A line that decodes clean reads as its bytes (R293). -/
theorem Part.readLine_clean (p : Part) (k g q a : Nat) (hr : p.mem.ready = true) (hc : rsDecode (spGet 0 p.mem.chk a) = .clean) :
    (p.readLine k g q a).1 = (p.rawBytes a 64, none) ∧ (p.readLine k g q a).2.mem = p.mem := by
  simp [Part.readLine, hr, hc, Part.rawBytes]

/-- A line whose errors are located reads corrected, and counts as corrected (R293, R296). -/
theorem Part.readLine_corrected (p : Part) (k g q a : Nat) (hr : p.mem.ready = true) {es : List (Nat × Nat)}
    (hc : rsDecode (spGet 0 p.mem.chk a) = .corrected es) :
    (p.readLine k g q a).1 = (rsCorrect es (p.rawBytes a 64), none) ∧
      (p.readLine k g q a).2.rd (MEM_STAT_CE (p.stack a / 2)) = (p.rd (MEM_STAT_CE (p.stack a / 2)) + 1) % 2 ^ 64 := by
  refine ⟨by simp [Part.readLine, hr, hc, Part.rawBytes], ?_⟩
  have ho : offRecords (MEM_STAT_CE (p.stack a / 2)) := by simp only [offRecords, MEM_STAT_CE, secBase]; omega
  have hb : MEM_STAT_RD (p.stack a / 2) ≠ MEM_STAT_CE (p.stack a / 2) := by simp only [MEM_STAT_RD, MEM_STAT_CE]; omega
  simp only [Part.readLine, Part.bump_keeps, Part.addPair_keeps, hr, hc, Bool.not_true, Bool.false_eq_true, if_false]
  rw [Part.rd_countCe _ _ _ ho (by simp only [MEM_STAT_CE2, MEM_STAT_CE]; omega) (by simp only [MEM_STICKY, MEM_STAT_CE]; omega)
    (by simp only [MEM_STICKY, MEM_STAT_CE]; omega)]
  simp [Part.rd_bump_other _ _ hb]

/-- A line that cannot be corrected reads as poison and is poison from then on (R294, R296). -/
theorem Part.readLine_uncorrectable (p : Part) (k g q a : Nat) (hr : p.mem.ready = true)
    (hc : rsDecode (spGet 0 p.mem.chk a) = .uncorrectable) :
    (p.readLine k g q a).1.2.isSome = true ∧ spGet 0 (p.readLine k g q a).2.mem.chk a = poisonQ := by
  simp [Part.readLine, hr, hc, Part.putHbm_mem, Part.putLine]

theorem Part.byteAt_congr {p q : Part} (h : q.mem = p.mem) (x : Nat) : q.byteAt x = p.byteAt x := by
  rw [Part.byteAt, Part.byteAt, h]

theorem Part.putLine_mem_congr {p q : Part} (h : q.mem = p.mem) (a : Nat) (bs : List Byte) (t : Option Nat) :
    (q.putLine a bs t).mem = (p.putLine a bs t).mem := by
  cases t <;> simp [Part.putLine, h]

/-- A line that is stored takes its own 64 bytes of memory (R293, R294). -/
theorem Part.putLine_outside (p : Part) (a : Nat) {bs : List Byte} (t : Option Nat) (hb : bs.length = 64) {x : Nat}
    (hx : ¬(a ≤ x ∧ x < a + 64)) : (p.putLine a bs t).byteAt x = p.byteAt x := by
  cases t <;> simp [Part.byteAt, Part.putLine, spGet_putBytes, hb, hx]

/-- A line that is stored takes its own check bytes. -/
theorem Part.putLine_chk_other (p : Part) (a : Nat) (bs : List Byte) (t : Option Nat) {x : Nat} (hx : x ≠ a) :
    spGet 0 (p.putLine a bs t).mem.chk x = spGet 0 p.mem.chk x := by
  cases t <;> simp [Part.putLine, Ne.symm hx]

/-- A line stored as data holds the bytes, with a fresh codeword. -/
theorem Part.putLine_data (p : Part) (a : Nat) {bs : List Byte} (hb : bs.length = 64) :
    spGet 0 (p.putLine a bs none).mem.chk a = 0 ∧ ∀ i, i < 64 → (p.putLine a bs none).byteAt (a + i) = bs.getD i 0#8 := by
  refine ⟨by simp [Part.putLine], fun i hi => ?_⟩
  simp [Part.byteAt, Part.putLine, spGet_putBytes, hb, hi]

/-- A line stored as poison carries the mark. -/
theorem Part.putLine_poison (p : Part) (a : Nat) (bs : List Byte) (t : Nat) : spGet 0 (p.putLine a bs (some t)).mem.chk a = poisonQ := by
  simp [Part.putLine]

/-- A write of a line that is not journalled stores the line and leaves the registers of the host interface. -/
theorem Part.writeLine_plain (p : Part) (g q a : Nat) (bs : List Byte) (t : Option Nat) (h : p.attr a 5 = false) :
    (p.writeLine g q a bs t).mem = (p.putLine a bs t).mem ∧ ∀ j, j < 0x20000 → (p.writeLine g q a bs t).rd j = p.rd j := by
  simp only [Part.writeLine, Part.journalLine, h, Bool.not_false, if_true, Bool.not_true, Bool.false_eq_true, if_false]
  exact ⟨by simp [Part.putHbm_mem], fun j hj => by simp [Part.rd_putHbm hj]⟩

end Sys2Proof.Machine
end

section
/-!
SUPPORT. What the checks of a host access read, and what the end of a command makes of its queue (R397, R404, R405, R416).
-/
namespace Sys2Proof.Machine

/-- The lines that are locked while ticks are received: those of the delivery table and of the held slots of a channel (R416). -/
theorem Part.slotLocked_iff (p : Part) (a : Nat) : p.slotLocked a = true ↔ p.running = true ∧ ∃ c, c < 16 ∧ p.inOn c = true ∧
    ((p.inBaseOf c ≤ a ∧ a < p.inBaseOf c + 4096) ∨
      ∃ b ∈ p.heldBlocks c, p.slotAt c b.slot ≤ a ∧ a < p.slotAt c b.slot + p.slotBytes c) := by
  simp [Part.slotLocked]

/-- The part differs in registers alone, and in none that a check of a host access reads: in sticky bits and counters of the host interface. -/
def CountsOnly (p q : Part) : Prop := q = { p with regs := q.regs } ∧ ∀ j, j = HIF_CTRL ∨ 0x1000 ≤ j → q.rd j = p.rd j

theorem CountsOnly.refl (p : Part) : CountsOnly p p := ⟨rfl, fun _ _ => rfl⟩

theorem CountsOnly.trans {p q r : Part} (h : CountsOnly p q) (h' : CountsOnly q r) : CountsOnly p r :=
  ⟨by rw [h'.1, h.1], fun j hj => (h'.2 j hj).trans (h.2 j hj)⟩

theorem CountsOnly.wr (p : Part) {o : Nat} (v : Nat) (h : 0 < o ∧ o < 0x1000) : CountsOnly p (p.wr o v) :=
  ⟨rfl, fun j hj => p.rd_wr_other v (by simp only [HIF_CTRL] at hj; omega)⟩

theorem CountsOnly.stick (p : Part) (i : Nat) : CountsOnly p (p.hifStick i) :=
  (CountsOnly.wr p _ (by decide)).trans (CountsOnly.wr _ _ (by decide))

section
variable {p q : Part} (h : CountsOnly p q)
include h

theorem CountsOnly.hif : q.hif = p.hif := by rw [h.1]

theorem CountsOnly.mem : q.mem = p.mem := by rw [h.1]

theorem CountsOnly.cq (n : Nat) : q.cq n = p.cq n := by rw [Part.cq, Part.cq, h.hif]

theorem CountsOnly.getB {o : Nat} (i : Nat) (ho : o = HIF_CTRL ∨ 0x1000 ≤ o) : q.getB o i = p.getB o i := Part.getB_congr i (h.2 o ho)

theorem CountsOnly.getF {o : Nat} (lo w : Nat) (ho : o = HIF_CTRL ∨ 0x1000 ≤ o) : q.getF o lo w = p.getF o lo w :=
  Part.getF_congr lo w (h.2 o ho)

/-- What a region allows is as before (R303). -/
theorem CountsOnly.attr (a i : Nat) : q.attr a i = p.attr a i := by
  have hB : ∀ n i, q.getB (MEM_RGN_ATTR 0 n) i = p.getB (MEM_RGN_ATTR 0 n) i := fun n i =>
    h.getB i (.inr (by simp only [MEM_RGN_ATTR, secBase]; omega))
  have hl : ∀ n, q.getF (MEM_RGN_BASE 0 n) 12 28 = p.getF (MEM_RGN_BASE 0 n) 12 28 := fun n =>
    h.getF _ _ (.inr (by simp only [MEM_RGN_BASE, secBase]; omega))
  have hu : ∀ n, q.getF (MEM_RGN_LIMIT 0 n) 12 28 = p.getF (MEM_RGN_LIMIT 0 n) 12 28 := fun n =>
    h.getF _ _ (.inr (by simp only [MEM_RGN_LIMIT, secBase]; omega))
  simp only [Part.attr, Part.region, hB, hl, hu]

theorem CountsOnly.running : q.running = p.running := h.getB 0 (.inr (by decide))

/-- A slice is mapped as before (R290). -/
theorem CountsOnly.slice (n : Nat) : q.getF (MEM_SLICE 0 n) 0 3 = p.getF (MEM_SLICE 0 n) 0 3 :=
  h.getF _ _ (.inr (by simp only [MEM_SLICE, secBase]; omega))

theorem CountsOnly.stack (a : Nat) : q.stack a = p.stack a := by simp only [Part.stack, h.slice]

/-- A host access is allowed as before (R397). -/
theorem CountsOnly.hostMay (w : Bool) (a : Nat) : q.hostMay w a = p.hostMay w a := by
  have hz : ∀ s, q.getB (MEM_STATUS s) 0 = p.getB (MEM_STATUS s) 0 := fun s => h.getB _ (.inr (by simp only [MEM_STATUS, secBase]; omega))
  simp only [Part.hostMay, Part.hostMapped, h.running, h.getB 2 (.inl rfl), h.attr, h.stack, h.slice, hz]

/-- A line is locked as before (R416). -/
theorem CountsOnly.slotLocked (a : Nat) : q.slotLocked a = p.slotLocked a := by
  have hc : ∀ c i, q.getB (HIF_IN_CFG c) i = p.getB (HIF_IN_CFG c) i := fun c i => h.getB i (.inr (by simp only [HIF_IN_CFG]; omega))
  have hs : ∀ c lo w, q.getF (HIF_IN_CFG c) lo w = p.getF (HIF_IN_CFG c) lo w := fun c lo w =>
    h.getF lo w (.inr (by simp only [HIF_IN_CFG]; omega))
  have hb : ∀ c, q.getF (HIF_IN_BASE c) 0 40 = p.getF (HIF_IN_BASE c) 0 40 := fun c => h.getF _ _ (.inr (by simp only [HIF_IN_BASE]; omega))
  rw [Bool.eq_iff_iff, Part.slotLocked_iff, Part.slotLocked_iff]
  simp only [Part.slotAt, Part.slotBytes, Part.inBaseOf, Part.inOn, Part.heldBlocks, h.hif, h.running, hc, hs, hb]

end

@[simp] theorem Part.cq_setCq (p : Part) (i j : Nat) (x : CmdQueue) : (p.setCq i x).cq j = if i = j then x else p.cq j := by
  simp [Part.setCq, Part.cq]

/-- Commands have ended, here and there: each queue holds no more commands than before and the records it had with others behind them,
and of the rest, the counter of commands and the sticky bits of operands and poison alone have changed. -/
def CmdsEnd (p q : Part) : Prop :=
  q.mem = p.mem ∧ (∀ j, j ≠ HIF_STAT_CMD → j ≠ HIF_STICKY → j ≠ HIF_FRAME_ERR → q.rd j = p.rd j) ∧
    q.getB HIF_STICKY 3 = p.getB HIF_STICKY 3 ∧
    ∀ n, (q.cq n).cmds.length ≤ (p.cq n).cmds.length ∧ ∃ l, (q.cq n).ended = (p.cq n).ended ++ l

theorem CmdsEnd.refl (p : Part) : CmdsEnd p p :=
  ⟨rfl, fun _ _ _ _ => rfl, rfl, fun _ => ⟨le_rfl, [], (List.append_nil _).symm⟩⟩

theorem CmdsEnd.trans {p q r : Part} (h : CmdsEnd p q) (h' : CmdsEnd q r) : CmdsEnd p r := by
  obtain ⟨hm, hr, hb, hq⟩ := h
  obtain ⟨hm', hr', hb', hq'⟩ := h'
  refine ⟨hm'.trans hm, fun j h1 h2 h3 => (hr' j h1 h2 h3).trans (hr j h1 h2 h3), hb'.trans hb, fun n => ?_⟩
  obtain ⟨hc, l, hl⟩ := hq n
  obtain ⟨hc', l', hl'⟩ := hq' n
  exact ⟨hc'.trans hc, l ++ l', by rw [hl', hl, List.append_assoc]⟩

/-- A sticky bit other than the third leaves all that the end of a command leaves. -/
theorem CmdsEnd.stick (p : Part) {i : Nat} (h : i ≠ 3) : CmdsEnd p (p.hifStick i) := by
  refine ⟨by simp [Part.hifStick], fun j _ h2 h3 => Part.rd_stick_other _ _ (Ne.symm h2) (Ne.symm h3),
    Part.getB_stick_bit _ _ h (by decide), fun n => ?_⟩
  have hq : (p.hifStick i).cq n = p.cq n := by simp [Part.hifStick, Part.cq]
  exact ⟨by rw [hq], [], by rw [hq, List.append_nil]⟩

/-- A command that ends has left its queue, and its record stands behind the others (R405). -/
theorem Part.endOne_cq (p : Part) (n : Nat) (c : HostCmd) (status result m : Nat) :
    (p.endOne n c status result).cq m = if n = m then { p.cq n with
      cmds := (p.cq n).cmds.erase c
      ended := (p.cq n).ended ++
        [{ c with running := false, status := status, result := result, tick := p.tickCount, frame := p.frameNo }] } else p.cq m := by
  have hs : ∀ (q : Part) i, (q.hifStick i).cq m = q.cq m := fun q i => by simp [Part.hifStick, Part.cq]
  have hb : ∀ (q : Part) o k, (q.bump o k).cq m = q.cq m := fun q o k => by simp [Part.cq]
  unfold Part.endOne
  dsimp only
  split
  · rw [hs, hb, Part.cq_setCq]
  · split
    · rw [hs, hb, Part.cq_setCq]
    · rw [hb, Part.cq_setCq]

/-- Counting a command whose queue now holds fewer commands and more records. -/
theorem CmdsEnd.taken (p : Part) (n : Nat) (x : CmdQueue) (hc : x.cmds.length ≤ (p.cq n).cmds.length)
    (he : ∃ l, x.ended = (p.cq n).ended ++ l) : CmdsEnd p ((p.setCq n x).bump HIF_STAT_CMD 1) := by
  have hr : ∀ j, j ≠ HIF_STAT_CMD → ((p.setCq n x).bump HIF_STAT_CMD 1).rd j = p.rd j := fun j h => by
    rw [Part.rd_bump_other _ _ (Ne.symm h)]; simp [Part.setCq]
  refine ⟨by simp [Part.setCq], fun j h _ _ => hr j h, Part.getB_congr _ (hr _ (by decide)), fun m => ?_⟩
  have hq : ((p.setCq n x).bump HIF_STAT_CMD 1).cq m = (p.setCq n x).cq m := by simp [Part.cq]
  rw [hq, Part.cq_setCq]
  split
  case isTrue h => subst h; exact ⟨hc, he⟩
  case isFalse => exact ⟨le_rfl, [], (List.append_nil _).symm⟩

theorem CmdsEnd.endOne (p : Part) (n : Nat) (c : HostCmd) (status result : Nat) : CmdsEnd p (p.endOne n c status result) := by
  have hc : ((p.cq n).cmds.erase c).length ≤ (p.cq n).cmds.length := List.length_erase_le
  unfold Part.endOne
  dsimp only
  split
  · exact (CmdsEnd.taken p n _ hc ⟨_, rfl⟩).trans (CmdsEnd.stick _ (by decide))
  · split
    · exact (CmdsEnd.taken p n _ hc ⟨_, rfl⟩).trans (CmdsEnd.stick _ (by decide))
    · exact CmdsEnd.taken p n _ hc ⟨_, rfl⟩

theorem CmdsEnd.sweep (fuel : Nat) (p : Part) (n : Nat) : CmdsEnd p (Part.sweep fuel p n) := by
  induction fuel generalizing p with
  | zero => exact CmdsEnd.refl p
  | succ fuel ih =>
    unfold Part.sweep
    split
    · exact CmdsEnd.refl p
    · split
      · exact (CmdsEnd.endOne _ _ _ _ _).trans (ih _)
      · split
        · exact CmdsEnd.refl p
        · exact (CmdsEnd.endOne _ _ _ _ _).trans (ih _)

theorem CmdsEnd.sweepAll (p : Part) : CmdsEnd p p.sweepAll := by
  unfold Part.sweepAll
  generalize List.range 8 = l
  induction l generalizing p with
  | nil => exact CmdsEnd.refl p
  | cons n l ih => exact (CmdsEnd.sweep _ p n).trans (ih _)

theorem CmdsEnd.endCmd (p : Part) (n : Nat) (c : HostCmd) (status result : Nat) : CmdsEnd p (p.endCmd n c status result) :=
  (CmdsEnd.endOne p n c status result).trans (CmdsEnd.sweepAll _)

/-- A command of a queue that ends has left it, with its record behind those that waited (R405). -/
theorem Part.endCmd_ends (p : Part) (n : Nat) {c : HostCmd} (status result : Nat) (hc : c ∈ (p.cq n).cmds) :
    EndsCmd p (p.endCmd n c status result) n c status result := by
  obtain ⟨-, -, -, hq⟩ := CmdsEnd.sweepAll (p.endOne n c status result)
  obtain ⟨hlen, l, hl⟩ := hq n
  rw [Part.endOne_cq, if_pos rfl] at hlen hl
  refine ⟨lt_of_le_of_lt hlen ?_, [], l, by rw [Part.endCmd, hl]; simp⟩
  have := List.length_pos_of_mem hc
  rw [List.length_erase_of_mem hc]
  omega

/-- The next command of a queue is one of its commands (R404). -/
theorem Part.nextCmd_mem {p : Part} {n op : Nat} {c : HostCmd} (h : p.nextCmd n op = some c) : c ∈ (p.cq n).cmds := by
  have hs : ∀ d, p.startable n = some d → d ∈ (p.cq n).cmds := by
    intro d hd
    unfold Part.startable at hd
    dsimp only at hd
    split at hd
    · cases hd
    · next e he =>
      split at hd
      · cases hd; exact List.mem_of_find?_eq_some he
      · cases hd
  unfold Part.nextCmd at h
  split at h
  · next d hd =>
    split at h
    · cases h; exact hs _ hd
    · cases h
  · cases h

end Sys2Proof.Machine
end

section
/-!
PROOF. CXL.mem: the address of a host access, reads, writes and what is discarded (R396, R397, R399, R400, R416).
-/
namespace Sys2Proof.Machine

theorem alignDown_six (a : Nat) : alignDown 6 a = a / 64 * 64 := by
  rw [alignDown, Nat.shiftRight_eq_div_pow, Nat.shiftLeft_eq]

/-- In a part with its link up and CCLK running, a host access reaches the line of the address that the decoders give or, in PCIe mode, of
its offset (R396, R400). -/
theorem Part.hostAddr_up (p : Part) (x : Nat) (hl : p.hif.linkUp = true) (hc : p.clocked = true) :
    p.hostAddr x = ((if p.getB HIF_STATUS 0 then (p.hif.decode 0 x).or (p.hif.decode 1 x) else some x).filter isHbm).map (alignDown 6) := by
  simp [Part.hostAddr, hl, hc]

theorem Part.hostAddr_down (p : Part) (x : Nat) (h : p.hif.linkUp = false ∨ p.clocked = false) : p.hostAddr x = none := by
  rcases h with h | h <;> simp [Part.hostAddr, h]

theorem Part.hostAddr_decoder (p : Part) (x : Nat) (hl : p.hif.linkUp = true) (hc : p.clocked = true) (hm : p.getB HIF_STATUS 0 = true)
    (hd : p.hif.hdm0.committed = true) (h1 : p.hif.hdm0.base ≤ x) (h2 : x < p.hif.hdm0.base + p.hif.hdm0.size)
    (ht : p.hif.hdm0.skip + (x - p.hif.hdm0.base) < hbmTop) :
    p.hostAddr x = some ((p.hif.hdm0.skip + (x - p.hif.hdm0.base)) / 64 * 64) := by
  have hdec : p.hif.decode 0 x = some (p.hif.hdm0.skip + (x - p.hif.hdm0.base)) := by simp [Hif.decode, Hif.dpaStart, hd, h1, h2]
  rw [Part.hostAddr_up p x hl hc, if_pos hm, hdec]
  simp [isHbm, ht, alignDown_six]

theorem Part.hostAddr_uncommitted (p : Part) (x : Nat) (hl : p.hif.linkUp = true) (hc : p.clocked = true) (hm : p.getB HIF_STATUS 0 = true)
    (h0 : p.hif.hdm0.committed = false) (h1 : p.hif.hdm1.committed = false) : p.hostAddr x = none := by
  simp [Part.hostAddr_up p x hl hc, hm, Hif.decode, h0, h1]

theorem Part.hostAddr_pcie (p : Part) (x : Nat) (hl : p.hif.linkUp = true) (hc : p.clocked = true) (hm : p.getB HIF_STATUS 0 = false)
    (hx : x < hbmTop) : p.hostAddr x = some (x / 64 * 64) := by
  simp [Part.hostAddr_up p x hl hc, hm, isHbm, hx, alignDown_six]

/-- An access that reaches no line changes nothing. -/
theorem cxl_unreached (s : State) (addr : Nat) (data : List Byte) (poison : Bool) (h : s.p.hostAddr addr = none) :
    (∀ errs, Becomes (.cxlMemRead addr errs) s s.p) ∧ Becomes (.cxlMemWrite addr data poison) s s.p := by
  constructor
  · intro errs
    show execCxlMemRead addr errs s = _
    simp only [execCxlMemRead, State.run, h]
  · show execCxlMemWrite addr data poison s = _
    simp only [execCxlMemWrite, State.run, h]

/-- A read that reaches a line reads it with the errors that strike it. -/
theorem cxlMemRead_becomes (s : State) {addr a : Nat} (errs : List (Nat × Nat)) (h : s.p.hostAddr addr = some a) :
    Becomes (.cxlMemRead addr errs) s ((s.p.strike a errs).cxlRead a) := by
  show execCxlMemRead addr errs s = _
  simp only [execCxlMemRead, State.run, h]

/-- A write that reaches a line writes it, and counts when it is stored. -/
theorem cxlMemWrite_becomes (s : State) {addr a : Nat} {data : List Byte} {poison ok : Bool} {q : Part} (h : s.p.hostAddr addr = some a)
    (hw : s.p.hostWriteLine a data poison = (ok, q)) :
    Becomes (.cxlMemWrite addr data poison) s (if ok then q.bump HIF_STAT_MEMWR 1 else q) := by
  show execCxlMemWrite addr data poison s = _
  simp only [execCxlMemWrite, State.run, h, hw]

/-- A refused access is counted, sets its sticky bit and leaves memory (R397). -/
theorem Part.hostDenied_counts (p : Part) (w : Bool) (a : Nat) :
    (p.hostDenied w a).mem = p.mem ∧ (p.hostDenied w a).rd HIF_STAT_DENY = (p.rd HIF_STAT_DENY + 1) % 2 ^ 64 ∧
      (p.hostDenied w a).getB HIF_STICKY 2 = true := by
  have hd : ((p.bump HIF_STAT_DENY 1).hifStick 2).rd HIF_STAT_DENY = (p.rd HIF_STAT_DENY + 1) % 2 ^ 64 := by
    rw [Part.hifStick, Part.rd_stick_other _ _ (by decide) (by decide), Part.rd_bump_same]
  have hs : ((p.bump HIF_STAT_DENY 1).hifStick 2).getB HIF_STICKY 2 = true := Part.getB_stick_same _ _ (by decide)
  have hm : ((p.bump HIF_STAT_DENY 1).hifStick 2).mem = p.mem := by simp [Part.hifStick]
  unfold Part.hostDenied
  generalize (p.bump HIF_STAT_DENY 1).hifStick 2 = r at hd hs hm
  dsimp only
  by_cases hf : (if w = true then r.hif.deniedWrite else r.hif.deniedRead) = true
  · rw [if_pos hf]
    exact ⟨hm, hd, hs⟩
  · rw [if_neg hf]
    have hr : ∀ j, j < 0x20000 → ∀ f e, ((r.modHif f).err e).rd j = r.rd j := fun j h f e => by rw [Part.rd_err _ _ (.inl h)]; simp
    refine ⟨by simp [hm], ?_, ?_⟩
    · rw [hr _ (by decide), hd]
    · rw [Part.getB_congr 2 (hr _ (by decide) _ _), hs]

/-- A refused read returns zeros and is counted (R397). -/
theorem cxlMemRead_refused (s : State) {addr a : Nat} (h : s.p.hostAddr addr = some a) (hm : s.p.hostMay false a = false) :
    ∃ q, Becomes (.cxlMemRead addr []) s q ∧ q.hif.lastRead = List.replicate 64 0#8 ∧ q.hif.lastPoison = false ∧ q.mem = s.p.mem ∧
      q.rd HIF_STAT_DENY = (s.p.rd HIF_STAT_DENY + 1) % 2 ^ 64 ∧ q.getB HIF_STICKY 2 = true := by
  obtain ⟨hmem, hdeny, hstick⟩ := s.p.hostDenied_counts false a
  refine ⟨_, cxlMemRead_becomes s [] h, ?_⟩
  have hr : (s.p.strike a []).cxlRead a =
      (s.p.hostDenied false a).modHif fun x => { x with lastRead := List.replicate 64 0#8, lastPoison := false } := by
    simp [Part.strike, Part.cxlRead, Part.hostReadLine, hm]
  rw [hr]
  exact ⟨rfl, rfl, hmem, hdeny, hstick⟩

/-- Symbol errors strike memory alone. -/
theorem Part.strike_eq (p : Part) (a : Nat) (errs : List (Nat × Nat)) : p.strike a errs = { p with mem := (p.strike a errs).mem } := by
  unfold Part.strike
  generalize errs.filter _ = l
  induction l generalizing p with
  | nil => rfl
  | cons e l ih => rw [Part.each_cons, ih]

theorem Part.rd_strike (p : Part) (a : Nat) (errs : List (Nat × Nat)) (j : Nat) : (p.strike a errs).rd j = p.rd j := by
  rw [Part.strike_eq]; rfl

theorem Part.cores_strike (p : Part) (a : Nat) (errs : List (Nat × Nat)) : (p.strike a errs).cores = p.cores := by
  rw [Part.strike_eq]

theorem Part.stack_strike (p : Part) (a : Nat) (errs : List (Nat × Nat)) (x : Nat) : (p.strike a errs).stack x = p.stack x := by
  rw [Part.strike_eq]; rfl

theorem Part.hostMay_strike (p : Part) (a : Nat) (errs : List (Nat × Nat)) (w : Bool) (x : Nat) :
    (p.strike a errs).hostMay w x = p.hostMay w x := by
  rw [Part.strike_eq]; rfl

/-- Whether memory has been zeroed is no matter of its cells. -/
theorem Part.ready_strike (p : Part) (a : Nat) (errs : List (Nat × Nat)) : (p.strike a errs).mem.ready = p.mem.ready :=
  Part.each_get (fun q => q.mem.ready) _ _ _ fun _ _ => rfl

/-- A sticky bit of the host interface that is set on a condition. -/
theorem Part.hifStick_if (p : Part) (b : Bool) {i : Nat} (hi : i < 64) :
    let q := if b then p.hifStick i else p
    q.mem = p.mem ∧ q.cores = p.cores ∧ (b = true → q.getB HIF_STICKY i = true) ∧
      ∀ j, j ≠ HIF_STICKY → j ≠ HIF_FRAME_ERR → q.rd j = p.rd j := by
  cases b
  case false => simp
  case true =>
    exact ⟨by simp [Part.hifStick], by simp [Part.hifStick], fun _ => Part.getB_stick_same _ _ hi,
      fun j h h' => Part.rd_stick_other _ _ (Ne.symm h) (Ne.symm h')⟩

/-- What an allowed read returns is what the decoded read of the line finds; poison sets its sticky bit, and the read is counted (R397,
R399). -/
theorem Part.cxlRead_allowed (p : Part) (a : Nat) (h : p.hostMay false a = true) :
    let r := p.readLine 1 10 0 a
    (p.cxlRead a).hif.lastRead = r.1.1 ∧ (p.cxlRead a).hif.lastPoison = r.1.2.isSome ∧ (p.cxlRead a).mem = r.2.mem ∧
      (p.cxlRead a).cores = r.2.cores ∧ (r.1.2.isSome = true → (p.cxlRead a).getB HIF_STICKY 1 = true) ∧
      (p.cxlRead a).rd HIF_STAT_MEMRD = (r.2.rd HIF_STAT_MEMRD + 1) % 2 ^ 64 ∧
      ∀ j, 0x1000 ≤ j → (p.cxlRead a).rd j = r.2.rd j := by
  intro r
  have hc : p.cxlRead a = (((if r.1.2.isSome then r.2.hifStick 1 else r.2).modHif fun x =>
      { x with lastRead := r.1.1, lastPoison := r.1.2.isSome }).bump HIF_STAT_MEMRD 1) := by
    simp [Part.cxlRead, Part.hostReadLine, h, r]
  obtain ⟨hmem, hcores, hstick, hrd⟩ := r.2.hifStick_if r.1.2.isSome (i := 1) (by decide)
  rw [hc]
  generalize (if r.1.2.isSome then r.2.hifStick 1 else r.2) = x at hmem hcores hstick hrd
  have hb : ∀ f j, j ≠ HIF_STAT_MEMRD → ((x.modHif f).bump HIF_STAT_MEMRD 1).rd j = x.rd j := fun f j hj => by
    rw [Part.rd_bump_other _ _ (Ne.symm hj)]; simp
  refine ⟨rfl, rfl, hmem, hcores, fun hp => ?_, ?_, fun j hj => ?_⟩
  · rw [Part.getB_congr 1 (hb _ _ (by decide)), hstick hp]
  · rw [Part.rd_bump_same, ← hrd _ (by decide) (by decide)]
    simp
  · rw [hb _ _ (by simp only [HIF_STAT_MEMRD]; omega), hrd j (by simp only [HIF_STICKY]; omega) (by simp only [HIF_FRAME_ERR]; omega)]

/-- An allowed read returns the line, corrected where its code corrects it, and as poison where it does not; it is counted (R399). -/
theorem cxlMemRead_allowed (s : State) {addr a : Nat} (h : s.p.hostAddr addr = some a) (hm : s.p.hostMay false a = true)
    (hready : s.p.mem.ready = true) (errs : List (Nat × Nat)) :
    let w := s.p.strike a errs
    let code := rsDecode (spGet 0 w.mem.chk a)
    ∃ q, Becomes (.cxlMemRead addr errs) s q ∧ q.cores = s.p.cores ∧ q.rd HIF_STAT_MEMRD = (s.p.rd HIF_STAT_MEMRD + 1) % 2 ^ 64 ∧
      (code = .clean → q.hif.lastRead = w.rawBytes a 64 ∧ q.hif.lastPoison = false ∧ q.mem = w.mem) ∧
      (∀ es, code = .corrected es → q.hif.lastRead = rsCorrect es (w.rawBytes a 64) ∧ q.hif.lastPoison = false ∧
        q.rd (MEM_STAT_CE (s.p.stack a / 2)) = (s.p.rd (MEM_STAT_CE (s.p.stack a / 2)) + 1) % 2 ^ 64) ∧
      (code = .uncorrectable → q.hif.lastPoison = true ∧ q.getB HIF_STICKY 1 = true ∧ spGet 0 q.mem.chk a = poisonQ) := by
  intro w code
  have hw : w.mem.ready = true := by rw [Part.ready_strike, hready]
  obtain ⟨hread, hpois, hmem, hcor, hstick, hcount, hrest⟩ := w.cxlRead_allowed a (by rw [Part.hostMay_strike, hm])
  refine ⟨_, cxlMemRead_becomes s errs h, ?_, ?_, fun hc => ?_, fun es hc => ?_, fun hc => ?_⟩
  · simp [hcor, w, Part.cores_strike]
  · rw [hcount, Part.rd_readLine (by decide), Part.rd_strike]
  · obtain ⟨hline, hkeep⟩ := w.readLine_clean 1 10 0 a hw hc
    rw [hread, hpois, hmem, hline, hkeep]
    exact ⟨rfl, rfl, rfl⟩
  · obtain ⟨hline, hce⟩ := w.readLine_corrected 1 10 0 a hw hc
    rw [Part.stack_strike, Part.rd_strike] at hce
    rw [hread, hpois, hline, hrest _ (by simp only [MEM_STAT_CE, secBase]; omega), hce]
    exact ⟨rfl, rfl, rfl⟩
  · obtain ⟨hp, hq⟩ := w.readLine_uncorrectable 1 10 0 a hw hc
    rw [hpois, hmem]
    exact ⟨hp, hstick hp, hq⟩

/-- A refused write leaves memory and is counted (R397). -/
theorem cxlMemWrite_refused (s : State) {addr a : Nat} (data : List Byte) (poison : Bool) (h : s.p.hostAddr addr = some a)
    (hm : s.p.hostMay true a = false) :
    ∃ q, Becomes (.cxlMemWrite addr data poison) s q ∧ q.mem = s.p.mem ∧ q.getB HIF_STICKY 2 = true ∧
      q.rd HIF_STAT_DENY = (s.p.rd HIF_STAT_DENY + 1) % 2 ^ 64 := by
  obtain ⟨hmem, hdeny, hstick⟩ := s.p.hostDenied_counts true a
  have hw : s.p.hostWriteLine a data poison = (false, s.p.hostDenied true a) := by simp [Part.hostWriteLine, hm]
  exact ⟨_, cxlMemWrite_becomes s h hw, hmem, hstick, hdeny⟩

/-- What a write into a held slot or a delivery table becomes while ticks are received: a count and a sticky bit (R416). -/
def Part.slotDiscard (p : Part) : Part := (p.bump HIF_STAT_SLOTWR 1).hifStick 3

theorem Part.hostWriteLine_locked (p : Part) (a : Nat) (bs : List Byte) (poison : Bool) (hm : p.hostMay true a = true)
    (hl : p.slotLocked a = true) : p.hostWriteLine a bs poison = (false, p.slotDiscard) := by
  simp [Part.hostWriteLine, hm, hl, Part.slotDiscard]

theorem Part.slotDiscard_counts (p : Part) :
    CountsOnly p p.slotDiscard ∧ p.slotDiscard.getB HIF_STICKY 3 = true ∧
      p.slotDiscard.rd HIF_STAT_SLOTWR = (p.rd HIF_STAT_SLOTWR + 1) % 2 ^ 64 := by
  refine ⟨(CountsOnly.wr p _ (by decide)).trans (CountsOnly.stick _ 3), Part.getB_stick_same _ _ (by decide), ?_⟩
  rw [Part.slotDiscard, Part.hifStick, Part.rd_stick_other _ _ (by decide) (by decide), Part.rd_bump_same]

/-- A write of a locked line is discarded and counted (R416). -/
theorem cxlMemWrite_locked (s : State) {addr a : Nat} (data : List Byte) (poison : Bool) (h : s.p.hostAddr addr = some a)
    (hm : s.p.hostMay true a = true) (hl : s.p.slotLocked a = true) :
    ∃ q, Becomes (.cxlMemWrite addr data poison) s q ∧ q = { s.p with regs := q.regs } ∧ q.getB HIF_STICKY 3 = true ∧
      q.rd HIF_STAT_SLOTWR = (s.p.rd HIF_STAT_SLOTWR + 1) % 2 ^ 64 := by
  obtain ⟨hc, hstick, hcount⟩ := s.p.slotDiscard_counts
  exact ⟨_, cxlMemWrite_becomes s h (s.p.hostWriteLine_locked a data poison hm hl), hc.1, hstick, hcount⟩

/-- The token of a line that the host writes as poison, and none for data (R298). -/
def Part.hostToken (p : Part) (a : Nat) (poison : Bool) : Option Nat := if poison then some (p.token (p.gaddr a) 0 10) else none

/-- An allowed write of a line that is not journalled stores the line; poison sets its sticky bit (R397, R399). -/
theorem Part.hostWriteLine_stores (p : Part) (a : Nat) (bs : List Byte) (poison : Bool) (hm : p.hostMay true a = true)
    (hl : p.slotLocked a = false) (hj : p.attr a 5 = false) :
    ∃ q, p.hostWriteLine a bs poison = (true, q) ∧ q.cores = p.cores ∧
      q.mem = (p.putLine a (fitBytes 64 bs) (p.hostToken a poison)).mem ∧ (poison = true → q.getB HIF_STICKY 1 = true) ∧
      ∀ j, j < 0x20000 → j ≠ HIF_STICKY → j ≠ HIF_FRAME_ERR → q.rd j = p.rd j := by
  have hw : p.hostWriteLine a bs poison =
      (true, (if poison then p.hifStick 1 else p).writeLine 10 0 a (fitBytes 64 bs) (p.hostToken a poison)) := by
    simp [Part.hostWriteLine, hm, hl, Part.hostToken]
  obtain ⟨hmem, hcores, hstick, hrd⟩ := p.hifStick_if poison (i := 1) (by decide)
  have hx : (if poison then p.hifStick 1 else p).attr a 5 = false := by
    cases poison
    · exact hj
    · exact ((CountsOnly.stick p 1).attr a 5).trans hj
  generalize (if poison then p.hifStick 1 else p) = x at hw hmem hcores hstick hrd hx
  obtain ⟨hput, hregs⟩ := x.writeLine_plain 10 0 a (fitBytes 64 bs) (p.hostToken a poison) hx
  exact ⟨_, hw, by simp [hcores], by rw [hput, Part.putLine_mem_congr hmem], fun hp => (Part.getB_congr 1 (hregs _ (by decide))).trans (hstick hp),
    fun j h h1 h2 => (hregs j h).trans (hrd j h1 h2)⟩

/-- An allowed write changes the bytes and the check bytes of its line alone, to the data or to poison, and is counted (R397, R399). -/
theorem cxlMemWrite_allowed (s : State) {addr a : Nat} (data : List Byte) (poison : Bool) (h : s.p.hostAddr addr = some a)
    (hm : s.p.hostMay true a = true) (hl : s.p.slotLocked a = false) (hj : s.p.attr a 5 = false) :
    ∃ q, Becomes (.cxlMemWrite addr data poison) s q ∧ q.cores = s.p.cores ∧
      q.rd HIF_STAT_MEMWR = (s.p.rd HIF_STAT_MEMWR + 1) % 2 ^ 64 ∧
      (∀ x, ¬(a ≤ x ∧ x < a + 64) → q.byteAt x = s.p.byteAt x) ∧ (∀ x, x ≠ a → spGet 0 q.mem.chk x = spGet 0 s.p.mem.chk x) ∧
      (poison = false → spGet 0 q.mem.chk a = 0 ∧ ∀ i, i < 64 → q.byteAt (a + i) = (fitBytes 64 data).getD i 0#8) ∧
      (poison = true → spGet 0 q.mem.chk a = poisonQ ∧ q.getB HIF_STICKY 1 = true) := by
  obtain ⟨r, hw, hcores, hput, hstick, hrd⟩ := s.p.hostWriteLine_stores a data poison hm hl hj
  have hb : Becomes (.cxlMemWrite addr data poison) s (r.bump HIF_STAT_MEMWR 1) := cxlMemWrite_becomes s h hw
  have hq : (r.bump HIF_STAT_MEMWR 1).mem = (s.p.putLine a (fitBytes 64 data) (s.p.hostToken a poison)).mem := by rw [← hput]; simp
  have hsame : HIF_STAT_MEMWR ≠ HIF_STICKY := by decide
  have hlen : (fitBytes 64 data).length = 64 := length_fitBytes 64 data
  refine ⟨_, hb, by simp [hcores], ?_, fun x hx => ?_, fun x hx => ?_, fun hp => ?_, fun hp => ?_⟩
  · rw [Part.rd_bump_same, hrd _ (by decide) (by decide) (by decide)]
  · rw [Part.byteAt_congr hq, Part.putLine_outside _ _ _ hlen hx]
  · rw [hq, Part.putLine_chk_other _ _ _ _ hx]
  · subst hp
    obtain ⟨hchk, hbytes⟩ := s.p.putLine_data a hlen
    rw [hq]
    exact ⟨hchk, fun i hi => (Part.byteAt_congr hq _).trans (hbytes i hi)⟩
  · rw [Part.getB_congr 1 (Part.rd_bump_other _ _ hsame), hq]
    subst hp
    exact ⟨s.p.putLine_poison a _ _, hstick rfl⟩

/-- A copy whose lines are all locked discards each of them: it counts them and is refused, and changes nothing that a check reads
(R399, R416). -/
theorem Part.copyInLoop_locked (n : Nat) (p : Part) (h a : Nat) (x : CopySum)
    (hl : ∀ i, i < n → p.hostMay true (a + 64 * i) = true ∧ p.slotLocked (a + 64 * i) = true) :
    let r := Part.copyInLoop n p h a x
    r.1 = { x with refused := x.refused || decide (0 < n) } ∧ CountsOnly p r.2 ∧
      r.2.rd HIF_STAT_SLOTWR = (p.rd HIF_STAT_SLOTWR + n) % 2 ^ 64 ∧
      (p.getB HIF_STICKY 3 = true ∨ 0 < n → r.2.getB HIF_STICKY 3 = true) := by
  induction n generalizing p h a x with
  | zero => exact ⟨by simp [Part.copyInLoop], CountsOnly.refl p, (Nat.mod_eq_of_lt (p.rd_lt _)).symm,
      by simp [Part.copyInLoop]⟩
  | succ n ih =>
    obtain ⟨hmay, hlock⟩ := hl 0 (by omega)
    obtain ⟨hc, hstick, hcount⟩ := p.slotDiscard_counts
    have hrest : ∀ i, i < n → p.slotDiscard.hostMay true (a + 64 + 64 * i) = true ∧ p.slotDiscard.slotLocked (a + 64 + 64 * i) = true := by
      intro i hi
      rw [hc.hostMay, hc.slotLocked, show a + 64 + 64 * i = a + 64 * (i + 1) by ring]
      exact hl (i + 1) (by omega)
    obtain ⟨hsum, hkeep, hslot, hbit⟩ := ih p.slotDiscard (h + 64) (a + 64) { x with refused := true } hrest
    have hstep : Part.copyInLoop (n + 1) p h a x = Part.copyInLoop n p.slotDiscard (h + 64) (a + 64) { x with refused := true } := by
      simp only [Part.copyInLoop, p.hostWriteLine_locked a _ _ hmay hlock]
      rfl
    dsimp only
    rw [hstep]
    refine ⟨by rw [hsum]; simp, hc.trans hkeep, ?_, fun _ => hbit (.inl hstick)⟩
    rw [hslot, hcount]
    omega

/-- A copy into lines that are all locked ends with status 2 and nothing moved; its lines are counted (R416). -/
theorem copyIn_locked (s : State) (queue : BitVec 3) {c : HostCmd} (hn : s.p.nextCmd queue.toNat 1 = some c) (hbad : c.bad = false)
    (hck : s.p.clocked = true) (hok : copyOk c = true)
    (hl : ∀ i, i < c.arg 2 / 64 → s.p.hostMay true (c.arg 1 + 64 * i) = true ∧ s.p.slotLocked (c.arg 1 + 64 * i) = true) :
    ∃ q, Becomes (.copyIn queue []) s q ∧ EndsCmd s.p q queue.toNat c 2 0 ∧ q.mem = s.p.mem ∧ q.getB HIF_STICKY 3 = true ∧
      q.rd HIF_STAT_SLOTWR = (s.p.rd HIF_STAT_SLOTWR + c.arg 2 / 64) % 2 ^ 64 := by
  have hpos : 0 < c.arg 2 / 64 := by
    simp only [copyOk, Bool.and_eq_true, decide_eq_true_eq] at hok
    omega
  obtain ⟨hsum, hkeep, hslot, hstick⟩ := Part.copyInLoop_locked (c.arg 2 / 64) s.p (c.arg 0) (c.arg 1) ⟨0, false, false⟩ hl
  generalize hr : Part.copyInLoop (c.arg 2 / 64) s.p (c.arg 0) (c.arg 1) ⟨0, false, false⟩ = r at hsum hkeep hslot hstick
  have hb : Becomes (.copyIn queue []) s (r.2.endCmd queue.toNat c 2 0) := by
    show execCopyIn queue [] s = _
    simp [execCopyIn, State.run, Part.hostStores, Part.runCopy, Part.runCmd, hn, hbad, hck, hok, hr, hsum, CopySum.status, hpos]
  have hcq : r.2.cq queue.toNat = s.p.cq queue.toNat := hkeep.cq _
  have hends := r.2.endCmd_ends queue.toNat 2 0 (c := c) (by rw [hcq]; exact Part.nextCmd_mem hn)
  obtain ⟨hmem, hregs, hbit, -⟩ := CmdsEnd.endCmd r.2 queue.toNat c 2 0
  refine ⟨_, hb, ?_, hmem.trans hkeep.mem, hbit.trans (hstick (.inr hpos)), (hregs _ (by decide) (by decide) (by decide)).trans hslot⟩
  have ht : r.2.tickCount = s.p.tickCount := hkeep.2 _ (.inr (by decide))
  have hf : r.2.frameNo = s.p.frameNo := hkeep.2 _ (.inr (by decide))
  simpa only [EndsCmd, hcq, ht, hf] using hends

/-- Settles O39: where a host access lands (R396), what an unreached, refused, allowed or discarded read or write leaves (R397, R399,
R400), which lines are locked, and the copy into them (R416). -/
theorem cxlMemory : Obligations.CxlMemory := by
  intro s addr data poison a
  exact ⟨s.p.hostAddr_down addr, s.p.hostAddr_decoder addr, s.p.hostAddr_uncommitted addr, s.p.hostAddr_pcie addr,
    cxl_unreached s addr data poison, cxlMemRead_refused s, cxlMemRead_allowed s, cxlMemWrite_refused s data poison,
    cxlMemWrite_locked s data poison, cxlMemWrite_allowed s data poison, s.p.slotLocked_iff a,
    fun queue c => copyIn_locked s queue⟩

end Sys2Proof.Machine
end

section
/-!
PROOF. Scalar instructions, control instructions and the step (R53, R109 to R118).
-/
namespace Sys2Proof.Machine

/-- A scalar instruction whose meaning is `alu` retires with the value of its operation (R115). -/
theorem alu_gives {s : State} {n : BitVec 13} {f : FmtA} (h : s.p.ready n.toNat (f.rd.toNat :: f.sources) = true) (op : Word → Word → Word)
    {c : Instr} (hc : exec c s = s.run fun p => p.alu n.toNat f op) {v : Word}
    (hv : op (BitVec.ofNat 32 ((s.p.core n.toNat).reg f.ra.toNat))
      (if f.i = 1 then f.imm else BitVec.ofNat 32 ((s.p.core n.toNat).reg f.rb.toNat)) = v) :
    ∃ q, Becomes c s q ∧ Retires s.p q n.toNat f.rd.toNat v.toNat :=
  ⟨_, hc, hv ▸ alu_ready s.p n.toNat f op h⟩

/-- Settles O1: every scalar instruction is `alu` of its operation; a shift takes `b[4:0]`, and the register laws are those of `setReg`. -/
theorem scalarInstructions : Obligations.ScalarInstructions := by
  refine ⟨fun s n f h => ?_, fun s n f h => ?_, fun k r v j => ⟨rfl, rfl, k.reg_setReg r v j, k.setReg_keeps r v⟩⟩
  · exact ⟨alu_gives h _ rfl rfl, alu_gives h _ rfl rfl, alu_gives h _ rfl rfl, alu_gives h _ rfl rfl, alu_gives h _ rfl rfl,
      alu_gives h _ rfl rfl⟩
  · refine ⟨alu_gives h _ rfl ?_, alu_gives h _ rfl ?_, alu_gives h _ rfl ?_, alu_gives h _ rfl ?_, alu_gives h _ rfl ?_⟩
    · rw [bits5]
    · rw [bits5]
    · rw [bits5]
    · simp only [BitVec.slt_iff_toInt_lt]
    · simp only [BitVec.ult_iff_lt, BitVec.lt_def]

section
variable (s : State) (n : BitVec 13)

/-- A target of the program, a multiple of 8, is one to go to (R118). -/
theorem Part.targetOk_of {p : Part} {c t : Nat} (h8 : t % 8 = 0) (ht : t < p.codeEnd c) : p.targetOk c t = true := by
  simp [Part.targetOk, h8, ht]

/-- NOP retires (R118). -/
theorem nop_retires (h : s.p.ready n.toNat [] = true) : ∃ q, Becomes (.nop n) s q ∧ Retires s.p q n.toNat 0 0 := by
  refine ⟨_, becomes_issue rfl h, ?_⟩
  simpa using retires_set s.p n.toNat 0 0

/-- A branch goes on at its target when it is taken, and else at the next instruction (R118). -/
theorem br_goes (f : BrF) (taken : Bool) (h : s.p.ready n.toNat [f.ra.toNat, f.rb.toNat] = true)
    (hb : brCond f.cond.toNat (BitVec.ofNat 32 ((s.p.core n.toNat).reg f.ra.toNat))
      (BitVec.ofNat 32 ((s.p.core n.toNat).reg f.rb.toNat)) = some taken)
    (h8 : f.target.toNat % 8 = 0) (ht : f.target.toNat < s.p.codeEnd n.toNat) :
    ∃ q, Becomes (.br n f) s q ∧
      RunsAt s.p q n.toNat (if taken then f.target.toNat else (s.p.core n.toNat).pc + 8) 0 0 := by
  have hok : (s.p.setCore n.toNat (s.p.core n.toNat).runs).targetOk n.toNat f.target.toNat = true := Part.targetOk_of h8 ht
  refine ⟨_, becomes_issue rfl h, ?_⟩
  simp only [Part.core_setCore, if_true, Core.runs_keeps, hb, hok, Bool.not_true, Bool.false_eq_true, if_false]
  exact runsAt_set s.p n.toNat _ 0 0

/-- JAL goes on at its target with the return address in rd (R118). -/
theorem jal_goes (f : JalF) (h : s.p.ready n.toNat [f.rd.toNat] = true) (h8 : f.target.toNat % 8 = 0)
    (ht : f.target.toNat < s.p.codeEnd n.toNat) :
    ∃ q, Becomes (.jal n f) s q ∧ RunsAt s.p q n.toNat f.target.toNat f.rd.toNat (((s.p.core n.toNat).pc + 8) % 2 ^ 32) := by
  have hok : (s.p.setCore n.toNat (s.p.core n.toNat).runs).targetOk n.toNat f.target.toNat = true := Part.targetOk_of h8 ht
  refine ⟨_, becomes_issue rfl h, ?_⟩
  simp only [Part.core_setCore, if_true, Core.runs_keeps, hok, Bool.not_true, Bool.false_eq_true, if_false]
  exact runsAt_set s.p n.toNat _ _ _

/-- JALR goes on at the address in ra, read before rd is written (R118). -/
theorem jalr_goes (f : JalrF) (h : s.p.ready n.toNat [f.rd.toNat, f.ra.toNat] = true)
    (h8 : (s.p.core n.toNat).reg f.ra.toNat % 8 = 0) (ht : (s.p.core n.toNat).reg f.ra.toNat < s.p.codeEnd n.toNat) :
    ∃ q, Becomes (.jalr n f) s q ∧
      RunsAt s.p q n.toNat ((s.p.core n.toNat).reg f.ra.toNat) f.rd.toNat (((s.p.core n.toNat).pc + 8) % 2 ^ 32) := by
  have hok : (s.p.setCore n.toNat (s.p.core n.toNat).runs).targetOk n.toNat ((s.p.core n.toNat).reg f.ra.toNat) = true :=
    Part.targetOk_of h8 ht
  refine ⟨_, becomes_issue rfl h, ?_⟩
  simp only [Part.core_setCore, if_true, Core.runs_keeps, hok, Bool.not_true, Bool.false_eq_true, if_false]
  exact runsAt_set s.p n.toNat _ _ _

/-- An illegal or reserved encoding faults with code 1 (R109). -/
theorem illegal_faults (hm : s.p.mayIssue n.toNat = true) (hf : (s.p.core n.toNat).faultSeq = none) :
    ∃ q, Becomes (.illegalOrReservedEncoding n) s q ∧ FaultsWith s.p q n.toNat 1 := by
  have hb : Becomes (.illegalOrReservedEncoding n) s (s.p.faultNow n.toNat 1) := by
    show execIllegalOrReservedEncoding n s = _
    simp [execIllegalOrReservedEncoding, State.run, hm]
  exact ⟨_, hb, Part.fault_faults s.p n.toNat 1 _ _ _ hf⟩

end

/-- The conditions of a branch (R118). -/
theorem brCond_codes (a b : Word) :
    brCond 0 a b = some true ∧ brCond 1 a b = some (decide (a = b)) ∧ brCond 2 a b = some (decide (a ≠ b)) ∧
      brCond 3 a b = some (decide (a.toInt < b.toInt)) ∧ brCond 4 a b = some (decide (b.toInt ≤ a.toInt)) ∧
      brCond 5 a b = some (decide (a.toNat < b.toNat)) ∧ brCond 6 a b = some (decide (b.toNat ≤ a.toNat)) ∧
      ∀ n, 7 ≤ n → brCond n a b = none := by
  refine ⟨rfl, rfl, ?_, rfl, ?_, rfl, ?_, fun n hn => ?_⟩
  · simp only [brCond, bne, beq_eq_decide, decide_not, ne_eq]
  · simp [brCond, BitVec.slt, ← decide_not]
  · simp [brCond, BitVec.ult, ← decide_not]
  · obtain ⟨m, rfl⟩ : ∃ m, n = m + 7 := ⟨n - 7, by omega⟩
    rfl

/-- Settles O2: each clause is what one of the lemmas above says of its instruction. -/
theorem controlFlow : Obligations.ControlFlow :=
  ⟨fun s n => ⟨nop_retires s n, br_goes s n, jal_goes s n, jalr_goes s n⟩, brCond_codes, illegal_faults⟩

/-- Draining a trace record takes no cycle. -/
@[simp] theorem Part.drainRecord_cycle (p : Part) (b : Nat) : (p.drainRecord b).cycle = p.cycle := by
  unfold Part.drainRecord
  dsimp only
  split
  · rfl
  · split <;> simp

/-- A cycle that passes while the clock runs is one cycle: draining a trace buffer and advancing the cores take none. -/
theorem Part.passCycle_cycle {p : Part} (h : p.clocked = true) : p.passCycle.cycle = p.cycle + 1 := by
  simp only [Part.passCycle, h, Bool.not_true, Bool.false_eq_true, if_false]
  rw [Part.each_get Part.cycle _ _ _ fun p b => by rw [Part.drainTrace]; split <;> simp]
  split
  · rw [Part.elapse_eq]
  · rw [Part.each_get Part.cycle _ _ _ (by simp), Part.elapse_eq]

/-- Settles O54: `step` matches the queue, and a passing cycle is one that elapses while the clock runs. -/
theorem stepRunsTheFrontCommand : Obligations.StepRunsTheFrontCommand := by
  refine ⟨fun c s => rfl, fun c rest s h => ?_, fun s h => ?_, fun p => ⟨fun h => ?_, fun h => ?_⟩⟩
  · rw [step, h]
  · rw [step, h]
  · simp [Part.passCycle, h]
  · exact Part.passCycle_cycle h

/-- Settles O59: the reset state holds no register but the reset values, which the fields are read from. -/
theorem resetState : Obligations.ResetState := by
  refine ⟨rfl, reset_memWf true, rfl, by decide, fun c => rfl, fun r => ?_, by decide, by decide, by decide, by decide, by decide, by decide,
    by decide, by decide, by decide, by decide, by decide, rfl⟩
  show (BitVec.ofNat 64 (regReset r)).toNat = _
  exact BitVec.toNat_ofNat _ _

/-- Settles O55: the words are decoded by evaluation. -/
theorem encodingWords : Obligations.EncodingWords := by
  unfold Obligations.EncodingWords
  decide

end Sys2Proof.Machine
end

section
/-!
PROOF. Decoding after encoding: the words of core instructions (R109 to R135) and the packets of the fabric (R332).
-/
namespace Sys2Proof.Machine

/-- Bytes of a number are the number, as far as they reach. -/
theorem leNat_leBytes (k n : Nat) : leNat (leBytes k n) = n % 256 ^ k := by
  induction k generalizing n with
  | zero => simp [leBytes, leNat, Nat.mod_one]
  | succ k ih =>
    rw [leBytes, leNat, ih, BitVec.toNat_ofNat, Nat.pow_succ' (m := 256)]
    exact (Nat.mod_mul (x := n) (a := 256)).symm

/-- The number of bytes has them as its bytes. -/
theorem leBytes_leNat (bs : List Byte) : leBytes bs.length (leNat bs) = bs := by
  induction bs with
  | nil => rfl
  | cons b r ih =>
    have hb : b.toNat < 256 := b.isLt
    have hdiv : (b.toNat + 256 * leNat r) / 256 = leNat r := by omega
    have hlow : BitVec.ofNat 8 (b.toNat + 256 * leNat r) = b := by
      apply BitVec.eq_of_toNat_eq
      rw [BitVec.toNat_ofNat]
      omega
    simp only [List.length_cons, leBytes, leNat, hdiv, hlow, ih]

theorem leNat_lt (bs : List Byte) : leNat bs < 256 ^ bs.length := by
  have h := leNat_leBytes bs.length (leNat bs)
  rw [leBytes_leNat] at h
  rw [h]
  exact Nat.mod_lt _ (Nat.pow_pos (by omega))

theorem leAt_lt (bs : List Byte) (lo k : Nat) : leAt bs lo k < 256 ^ k := by
  refine lt_of_lt_of_le (leNat_lt _) (Nat.pow_le_pow_right (by omega) ?_)
  rw [List.length_take]
  omega

/-- The first field of bytes. -/
theorem leAt_leBytes_head (k n : Nat) (r : List Byte) : leAt (leBytes k n ++ r) 0 k = n % 256 ^ k := by
  rw [leAt, List.drop_zero, List.take_append_of_le_length (by simp), List.take_of_length_le (by simp), leNat_leBytes]

/-- A field behind the first one. -/
theorem leAt_leBytes_tail {j lo : Nat} (n : Nat) (r : List Byte) (k : Nat) (h : j ≤ lo) : leAt (leBytes j n ++ r) lo k = leAt r (lo - j) k := by
  simp only [leAt, List.drop_append, length_leBytes]
  rw [List.drop_eq_nil_of_le (by simpa using h), List.nil_append]

/-- The bytes of a field that was read are the bytes it was read from. -/
theorem leBytes_leAt {bs : List Byte} {lo k : Nat} (h : lo + k ≤ bs.length) : leBytes k (leAt bs lo k) = (bs.drop lo).take k := by
  have hl : ((bs.drop lo).take k).length = k := by simp; omega
  have := leBytes_leNat ((bs.drop lo).take k)
  rwa [hl] at this

/-- A header is 48 bytes (R332). -/
@[simp] theorem length_packetHeader (q : Packet) : (packetHeader q).length = 48 := by simp [packetHeader]

/-- A well-formed packet is read from its header and payload (R332). -/
theorem readPacket_packetHeader {q : Packet} (h : q.wf = true) : readPacket (packetHeader q ++ q.payload) = some q := by
  simp only [Packet.wf, Bool.and_eq_true, decide_eq_true_eq, beq_iff_eq] at h
  simp only [and_assoc] at h
  obtain ⟨hroute, hsrc, hdst, hepoch, hcls, hwindow, hkind, href, hpoison, hlen, hwhole⟩ := h
  have hl : (packetHeader q ++ q.payload).length = 48 + q.payload.length := by simp
  have hdrop : (packetHeader q ++ q.payload).drop 48 = q.payload := List.drop_left' (length_packetHeader q)
  have hat (lo k : Nat) : leAt (packetHeader q ++ q.payload) lo k = leAt (leBytes 30 q.route ++ (leBytes 2 q.src ++ (leBytes 2 q.dst ++
      (leBytes 1 (q.epoch <<< 4 + q.cls) ++ (leBytes 1 (q.payload.length / 32) ++ (leBytes 1 q.window ++
        (leBytes 3 (q.kind <<< 20 + q.ref) ++ (leBytes 8 q.poison ++ q.payload)))))))) lo k := by
    simp only [packetHeader, List.append_assoc]
  unfold readPacket
  rw [hl, hdrop]
  simp only [hat, leAt_leBytes_head, leAt_leBytes_tail, Nat.reduceLeDiff, Nat.reduceSub, Nat.shiftLeft_eq]
  rw [if_neg (by omega)]
  obtain ⟨route, src, dst, epoch, cls, window, kind, ref, poison, payload⟩ := q
  simp only [Option.some.injEq, Packet.mk.injEq, and_true] at *
  refine ⟨?_, ?_, ?_, ?_, ?_, ?_, ?_, ?_, ?_⟩ <;> omega

/-- Bytes that are read as a packet are the header and payload of that packet, a well-formed one (R332). -/
theorem packetHeader_of_readPacket {bs : List Byte} {q : Packet} (h : readPacket bs = some q) :
    q.wf = true ∧ packetHeader q ++ q.payload = bs := by
  unfold readPacket at h
  dsimp only at h
  split at h
  · cases h
  · rename_i hlen
    obtain ⟨hl, h128⟩ := not_or.mp hlen
    rw [not_not] at hl
    have hroute := leAt_lt bs 0 30
    have hsrc := leAt_lt bs 30 2
    have hdst := leAt_lt bs 32 2
    have hcls := leAt_lt bs 34 1
    have hwindow := leAt_lt bs 36 1
    have hkind := leAt_lt bs 37 3
    have hpoison := leAt_lt bs 40 8
    injection h with h
    subst h
    have hpay : (bs.drop 48).length = 32 * leAt bs 35 1 := by simp; omega
    constructor
    · simp only [Packet.wf, Bool.and_eq_true, decide_eq_true_eq, beq_iff_eq, hpay]
      omega
    · have hb34 : (leAt bs 34 1 / 16) <<< 4 + leAt bs 34 1 % 16 = leAt bs 34 1 := by rw [Nat.shiftLeft_eq]; omega
      have hb37 : (leAt bs 37 3 / 2 ^ 20) <<< 20 + leAt bs 37 3 % 2 ^ 20 = leAt bs 37 3 := by rw [Nat.shiftLeft_eq]; omega
      have hb35 : (bs.drop 48).length / 32 = leAt bs 35 1 := by omega
      simp only [packetHeader, hb34, hb37, hb35]
      repeat rw [leBytes_leAt (by omega)]
      simp only [List.drop_zero, ← List.take_add, Nat.reduceAdd, List.take_append_drop]

/-- A field that lies in the low part of a word. -/
theorem bits_append_low {a b : Nat} (x : BitVec a) (y : BitVec b) {lo n : Nat} (h : lo + n ≤ b) :
    @BitVec.extractLsb' (no_index (a + b)) lo n (@HAppend.hAppend (BitVec a) (BitVec b) (no_index _) _ x y) = y.extractLsb' lo n :=
  BitVec.extractLsb'_append_eq_of_add_le h

/-- A field that lies in the high part of a word. -/
theorem bits_append_high {a b : Nat} (x : BitVec a) (y : BitVec b) {lo n : Nat} (h : b ≤ lo) :
    @BitVec.extractLsb' (no_index (a + b)) lo n (@HAppend.hAppend (BitVec a) (BitVec b) (no_index _) _ x y) = x.extractLsb' (lo - b) n :=
  BitVec.extractLsb'_append_eq_of_le h

/-- The fields of an encoded instruction are read as the instruction (R109 to R135): each lies where its encoder put it. -/
theorem readFields_encodeWord (o : CoreOp) : readFields (encodeWord o) = some o := by
  cases o
  all_goals
    simp only [readFields, opcodeOf, bits, encodeWord, wordF, wordIrr, wordA, readScalar, readMatVec, readOther, readA, readIrr,
      bits_append_low, bits_append_high, Nat.reduceLeDiff, Nat.reduceSub, Nat.reduceAdd, BitVec.extractLsb'_eq_self, BitVec.reduceToNat,
      BitVec.reduceExtractLsb', Nat.reduceLT, if_true, if_false]

/-- The word of RDSYS has zeros where no rule looks (R115). -/
theorem wordA_rb_zero (op : BitVec 8) (rd ra : BitVec 5) (i : BitVec 1) (imm : BitVec 32) :
    wordA op rd ra 0 i imm &&& ~~~(0x1F#64 <<< 41) = wordA op rd ra 0 i imm := by
  have hmask : ~~~(0x1F#64 <<< 41) =
      BitVec.allOnes 8 ++ BitVec.allOnes 5 ++ BitVec.allOnes 5 ++ 0#5 ++ BitVec.allOnes 1 ++ BitVec.allOnes 8 ++ BitVec.allOnes 32 := by decide
  rw [hmask, wordA]
  iterate 6 erw [BitVec.and_append]
  simp only [BitVec.and_allOnes, BitVec.and_zero]
  rfl

/-- An encoded instruction has no bit that is free. -/
theorem freeBits_encodeWord (o : CoreOp) : freeBits (encodeWord o) = encodeWord o := by
  unfold freeBits
  split
  · rename_i h
    have hr := readFields_encodeWord o
    cases o
    case rdsys f => exact wordA_rb_zero _ _ _ _ _
    all_goals
      simp [opcodeOf, bits, encodeWord, wordF, wordIrr, wordA, bits_append_high] at h
  · rfl

/-- Settles O56: a packet is read back field by field, and a word by the places of its fields; the encoder is injective because the decoder
inverts it. -/
theorem decodeOfEncode : Obligations.DecodeOfEncode := by
  have hdec (o : CoreOp) : decodeWord (encodeWord o) = some o := by
    simp only [decodeWord, readFields_encodeWord, freeBits_encodeWord, if_true]
  refine ⟨fun q => readPacket_packetHeader, fun bs q => packetHeader_of_readPacket, hdec, fun o o' h => ?_, fun w o h => ?_⟩
  · exact Option.some.inj ((hdec o).symm.trans (h ▸ hdec o'))
  · unfold decodeWord at h
    split at h
    · split at h
      · rename_i he
        injection h with h
        exact h ▸ he
      · cases h
    · cases h

end Sys2Proof.Machine
end

section
/-!
PROOF. Every step answers, and keeps the fuses and the ownerless store (R455, R460, R468).
-/
namespace Sys2Proof.Machine

/-- What a command but FW_COMMIT_SVN leaves outside the part: the queue, the fuses, and a store that is in order. -/
def Kept (s t : State) : Prop := t.pending = s.pending ∧ t.fuses = s.fuses ∧ (s.nv.ok = true → t.nv.ok = true)

/-- What FW_COMMIT_SVN leaves: it burns no fuse, or those of a security version (R460). -/
def Burns (s t : State) : Prop := t.pending = s.pending ∧ t.nv = s.nv ∧ (t.fuses = s.fuses ∨ ∃ v, t.fuses = s.fuses.burnSvn v)

/-- The command answers a state that is related to the present one. -/
def Answers (K : State → State → Prop) (s : State) (a : Answer) : Prop := ∃ t, a = .next t ∧ K s t

/-- The relation does not look at the part. -/
structure PartFree (K : State → State → Prop) : Prop where
  part : ∀ s p, K s { s with p := p }
  after : ∀ s t p, K s t → K s { t with p := p }

theorem Kept.part (s : State) (p : Part) : Kept s { s with p := p } := ⟨rfl, rfl, id⟩

theorem Kept.store (s : State) (n : Nv) (p : Part) (h : s.nv.ok = true → n.ok = true) : Kept s { s with nv := n, p := p } := ⟨rfl, rfl, h⟩

theorem Kept.trans {s t u : State} (h : Kept s t) (h' : Kept t u) : Kept s u :=
  ⟨h'.1.trans h.1, h'.2.1.trans h.2.1, fun ho => h'.2.2 (h.2.2 ho)⟩

theorem partFree_kept : PartFree Kept := ⟨Kept.part, fun _ _ _ h => h⟩

theorem partFree_burns : PartFree Burns := ⟨fun _ _ => ⟨rfl, rfl, .inl rfl⟩, fun _ _ _ h => h⟩

section
variable {K : State → State → Prop} {s : State} {m : MgtReq} {cmd : Nat} {f : State → Work}

theorem answers_ite {c : Prop} [Decidable c] {a b : Answer} (ha : Answers K s a) (hb : Answers K s b) : Answers K s (if c then a else b) := by
  split
  · exact ha
  · exact hb

theorem PartFree.same (hK : PartFree K) (s : State) : Answers K s (.next s) := ⟨s, rfl, hK.part s s.p⟩

/-- A vendor-defined command answers as its work does, which runs only where the command may. -/
theorem PartFree.command (hK : PartFree K) {ready may : Bool} (h : may = true → K s (f s).2.2) : Answers K s (s.command m cmd ready may f) := by
  unfold State.command
  refine answers_ite (hK.same s) (answers_ite ⟨_, rfl, hK.part s _⟩ ?_)
  split
  case isTrue => exact ⟨_, rfl, hK.part s _⟩
  case isFalse hmay => exact ⟨_, rfl, hK.after s _ _ (h (by simpa using hmay))⟩

theorem PartFree.publicCommand (hK : PartFree K) (h : K s (f s).2.2) : Answers K s (s.publicCommand m cmd f) := hK.command fun _ => h

/-- An owner's command runs only for an owner. -/
theorem PartFree.ownerCommand (hK : PartFree K) (h : s.nv.owner.isSome = true → K s (f s).2.2) : Answers K s (s.ownerCommand m cmd f) :=
  hK.command fun hm => h (Bool.and_eq_true_iff.mp hm).1

theorem PartFree.updateCommand (hK : PartFree K) (h : K s (f s).2.2) : Answers K s (s.updateCommand m cmd f) :=
  answers_ite (hK.command fun _ => h) (hK.ownerCommand fun _ => h)

end

/-- A store with the owner, the keys and the policy bits of another is in order as that one is (R468). -/
theorem Nv.ok_congr {m n : Nv} (ho : m.owner = n.owner) (hk : m.keys = n.keys) (hs : m.signedOnly = n.signedOnly)
    (hl : m.linkOwnerMatch = n.linkOwnerMatch) : m.ok = n.ok := by
  simp only [Nv.ok, ho, hk, hs, hl]

theorem Nv.ok_setSlot (n : Nv) (b : Bool) (x : FwSlot) : (n.setSlot b x).ok = n.ok := by
  cases b <;> rfl

theorem Nv.ok_tryBoot (n : Nv) : n.tryBoot.1.ok = n.ok := by
  unfold Nv.tryBoot
  split
  · rfl
  · split <;> rfl

/-- With an owner every store is in order (R468). -/
theorem Nv.ok_of_owner {n : Nv} (h : n.owner.isSome = true) : n.ok = true := by simp [Nv.ok, h]

theorem Nv.owner_setKey (n : Nv) (k : Nat) (x : Option PubKey) : (n.setKey k x).owner = n.owner := by
  unfold Nv.setKey
  split <;> rfl

theorem Kept.putUpd (s : State) (bs : List Byte) (u : Bool) : Kept s (s.putUpd bs u) := by
  unfold State.putUpd
  split
  · exact Kept.part s _
  · exact ⟨rfl, rfl, fun h => (s.nv.ok_setSlot _ _).trans h⟩

section
variable (s : State) (m : MgtReq)

theorem boot_kept : Answers Kept s (execBoot s) := by
  have hn : s.nv.ok = true → s.nv.tryBoot.1.ok = true := fun h => s.nv.ok_tryBoot.trans h
  refine answers_ite (partFree_kept.same s) ?_
  generalize s.nv.tryBoot = tried at hn ⊢
  obtain ⟨n, fell⟩ := tried
  dsimp only
  split
  · exact ⟨_, rfl, rfl, rfl, hn⟩
  · exact ⟨_, rfl, rfl, rfl, hn⟩

theorem setGraftKey_kept (slot : Nat) (key : Option (List Byte)) : Answers Kept s (execSetGraftKey m slot key s) := by
  refine partFree_kept.ownerCommand fun ho => ?_
  have hk (x : Option PubKey) : Kept s (s.setPolicyTo (s.nv.setKey slot x)) :=
    Kept.store s _ _ fun _ => Nv.ok_of_owner ((s.nv.owner_setKey slot x).symm ▸ ho)
  split
  · exact Kept.part s _
  · split
    · exact hk none
    · split
      · exact Kept.part s _
      · exact hk _

theorem setPolicy_kept (signedOnly linkMatch : Bool) (minSvn : Nat) : Answers Kept s (execSetPolicy m signedOnly linkMatch minSvn s) := by
  refine partFree_kept.ownerCommand fun ho => ?_
  dsimp only
  split
  · exact Kept.part s _
  · exact Kept.store s _ _ fun _ => Nv.ok_of_owner ho

theorem setLimits_kept (watts dieC hbmC holdC : Nat) : Answers Kept s (execSetLimits m watts dieC hbmC holdC s) := by
  refine partFree_kept.ownerCommand fun _ => ?_
  dsimp only
  split
  · exact Kept.part s _
  · exact Kept.part s _

theorem testLoad_kept (container : List Byte) : Answers Kept s (execTestLoad m container s) := by
  refine partFree_kept.ownerCommand fun _ => ?_
  dsimp only
  split
  · exact Kept.part s _
  · split
    · exact Kept.part s _
    · split
      · exact Kept.part s _
      · exact Kept.part s _

theorem fwBegin_kept (length : Nat) : Answers Kept s (execFwBegin m length s) := by
  refine partFree_kept.updateCommand ?_
  dsimp only
  split
  · exact Kept.part s _
  · exact (Kept.putUpd s _ _).trans (Kept.part _ _)

theorem fwWrite_kept (offset : Nat) (chunk : List Byte) : Answers Kept s (execFwWrite m offset chunk s) := by
  refine partFree_kept.updateCommand ?_
  dsimp only
  split
  · exact Kept.part s _
  · split
    · exact Kept.part s _
    · exact (Kept.part s _).trans ((Kept.putUpd _ _ _).trans (Kept.part _ _))

theorem fwVerify_kept : Answers Kept s (execFwVerify m s) := by
  refine partFree_kept.updateCommand ?_
  dsimp only
  split
  · exact Kept.part s _
  · split
    · exact Kept.part s _
    · split
      · split
        · exact Kept.store s _ _ id
        · exact (Kept.putUpd s _ _).trans (Kept.part _ _)
      · split
        · exact Kept.part s _
        · exact Kept.part s _

theorem fwActivate_kept : Answers Kept s (execFwActivate m s) := by
  refine partFree_kept.updateCommand ?_
  dsimp only
  split
  · exact Kept.part s _
  · exact Kept.store s _ _ id

end

/-- Every command but FW_COMMIT_SVN answers, and keeps the queue, the fuses and a store that is in order. -/
theorem exec_kept (i : Instr) (s : State) (h : ∀ m, i ≠ .fwCommitSvn m) : Answers Kept s (exec i s) := by
  cases i
  case boot => exact boot_kept s
  case fwReady => exact answers_ite (partFree_kept.same s) ⟨_, rfl, Kept.store s _ _ id⟩
  case getInfo m =>
    show Answers Kept s (execGetInfo m s)
    exact partFree_kept.publicCommand (Kept.part s _)
  case getTelemetry m =>
    show Answers Kept s (execGetTelemetry m s)
    exact partFree_kept.publicCommand (Kept.part s _)
  case getErrrec m seq =>
    show Answers Kept s (execGetErrrec m seq s)
    exact partFree_kept.publicCommand (Kept.part s _)
  case getLimits m =>
    show Answers Kept s (execGetLimits m s)
    exact partFree_kept.publicCommand (Kept.part s _)
  case setLimits m watts dieC hbmC holdC => exact setLimits_kept s m watts dieC hbmC holdC
  case setGraftKey m slot key => exact setGraftKey_kept s m slot key
  case setPolicy m signedOnly linkMatch minSvn => exact setPolicy_kept s m signedOnly linkMatch minSvn
  case ownerSet m digest =>
    show Answers Kept s (execOwnerSet m digest s)
    exact partFree_kept.command fun _ => Kept.store s _ _ fun _ => Nv.ok_of_owner rfl
  case ownerClear m =>
    show Answers Kept s (execOwnerClear m s)
    exact partFree_kept.ownerCommand fun _ => Kept.store s _ _ fun _ => rfl
  case fwBegin m length => exact fwBegin_kept s m length
  case fwWrite m offset chunk => exact fwWrite_kept s m offset chunk
  case fwVerify m => exact fwVerify_kept s m
  case fwActivate m => exact fwActivate_kept s m
  case fwCommitSvn m => exact absurd rfl (h m)
  case testLoad m container => exact testLoad_kept s m container
  case powerUp strap => exact answers_ite (partFree_kept.same s) ⟨_, rfl, rfl, rfl, id⟩
  case undervoltageReset cv => exact answers_ite (partFree_kept.same s) ⟨_, rfl, rfl, rfl, id⟩
  case inputFallsBelow20v => exact ⟨_, rfl, rfl, rfl, id⟩
  case resetN => exact ⟨_, rfl, rfl, rfl, id⟩
  case perstN => exact ⟨_, rfl, rfl, rfl, id⟩
  case spdmRequest via r => exact answers_ite (partFree_kept.same s) ⟨_, rfl, Kept.part s _⟩
  all_goals exact ⟨_, rfl, rfl, rfl, id⟩

/-- FW_COMMIT_SVN burns at most the version of the running firmware, once a trial of it has come up (R460). -/
theorem fwCommitSvn_burns (m : MgtReq) (s : State) : Answers Burns s (exec (.fwCommitSvn m) s) := by
  refine partFree_burns.updateCommand ?_
  dsimp only
  split
  · exact partFree_burns.part s _
  · split
    · exact partFree_burns.part s _
    · exact ⟨rfl, rfl, .inr ⟨_, rfl⟩⟩

/-- Burning a security version keeps the versions that were burnt (R460). -/
theorem Fuses.svnKept_burnSvn (f : Fuses) (v : Nat) : f.svnKept (f.burnSvn v) := by
  show f.svnBits &&& (f.svnBits ||| _) = f.svnBits
  ext i hi
  simp only [BitVec.getElem_and, BitVec.getElem_or, Bool.and_or_distrib_left, Bool.and_self, Bool.or_eq_left_iff_imp, Bool.and_eq_true]
  exact fun h => h.1

/-- Settles O57: with a command waiting, FW_COMMIT_SVN burns at most a security version and every other command keeps fuses and store;
with none waiting the part alone changes. -/
theorem storeAndFusesKept : Obligations.StoreAndFusesKept := by
  intro s
  have hsvn (f : Fuses) : f.svnKept f := BitVec.and_self
  cases hq : s.pending with
  | nil =>
    refine ⟨{ s with p := s.p.passCycle }, by rw [Steps, step, hq], hq, rfl, hsvn _, fun h => absurd rfl h, id, fun h => ⟨h, fun _ _ => rfl⟩⟩
  | cons c rest =>
    have hstep : step s = exec c { s with pending := rest } := by rw [step, hq]
    by_cases hc : ∃ m, c = .fwCommitSvn m
    · obtain ⟨m, rfl⟩ := hc
      obtain ⟨t, ht, hp, hn, hf⟩ := fwCommitSvn_burns m { s with pending := rest }
      have hb : t.fuses.fixed = s.fuses.fixed ∧ s.fuses.svnKept t.fuses ∧ t.fuses.sparesOk = s.fuses.sparesOk ∧
          ∀ x, t.fuses.spares x = s.fuses.spares x := by
        rcases hf with hf | ⟨v, hf⟩ <;> rw [hf]
        · exact ⟨rfl, hsvn _, rfl, fun _ => rfl⟩
        · exact ⟨rfl, Fuses.svnKept_burnSvn _ v, rfl, fun _ => rfl⟩
      obtain ⟨hfix, hkept, hok, hsp⟩ := hb
      exact ⟨t, hstep.trans ht, hp, hfix, hkept, fun _ => ⟨m, rest, rfl⟩, fun h => hn ▸ h, fun h => ⟨hok ▸ h, fun x _ => hsp x⟩⟩
    · obtain ⟨t, ht, hp, hf, hn⟩ := exec_kept c { s with pending := rest } fun m h => hc ⟨m, h⟩
      have hf : t.fuses = s.fuses := hf
      exact ⟨t, hstep.trans ht, hp, hf ▸ rfl, hf ▸ hsvn _, fun h => absurd hf h, hn, fun h => ⟨hf ▸ h, fun x _ => hf ▸ rfl⟩⟩

end Sys2Proof.Machine
end

section
/-!
SUPPORT. What operations leave of memory and of the cores: choices and folds.
-/
namespace Sys2Proof.Machine

@[simp] theorem Part.mem_ite (c : Prop) [Decidable c] (p q : Part) : (if c then p else q).mem = if c then p.mem else q.mem := by split <;> rfl

@[simp] theorem Part.cores_ite (c : Prop) [Decidable c] (p q : Part) : (if c then p else q).cores = if c then p.cores else q.cores := by
  split <;> rfl

/-- A fold of changes that leave memory alone leaves it alone. -/
@[simp] theorem Part.mem_each {α : Type} {f : Part → α → Part} (h : ∀ p x, (f p x).mem = p.mem) (l : List α) (p : Part) :
    (p.each l f).mem = p.mem := Part.each_get (·.mem) f l p h

/-- A fold of changes that leave the cores alone leaves them alone. -/
@[simp] theorem Part.cores_each {α : Type} {f : Part → α → Part} (h : ∀ p x, (f p x).cores = p.cores) (l : List α) (p : Part) :
    (p.each l f).cores = p.cores := Part.each_get (·.cores) f l p h

@[simp] theorem Part.elapse_frame (p : Part) (n : Nat) : (p.elapse n).mem = p.mem ∧ (p.elapse n).cores = p.cores := by simp [Part.elapse]

@[simp] theorem Part.countSilent_frame (p : Part) (replay : Bool) :
    (p.countSilent replay).mem = p.mem ∧ (p.countSilent replay).cores = p.cores := by
  simp [Part.countSilent]

@[simp] theorem Part.frameCause_frame (p : Part) : p.frameCause.mem = p.mem ∧ p.frameCause.cores = p.cores := by
  unfold Part.frameCause
  split <;> simp

@[simp] theorem Part.dropRsv_frame (p : Part) : p.dropRsv.mem = p.mem ∧ p.dropRsv.cores = p.cores := by simp [Part.dropRsv]

@[simp] theorem Part.dropRwt_frame (p : Part) : p.dropRwt.mem = p.mem ∧ p.dropRwt.cores = p.cores := by simp [Part.dropRwt]

@[simp] theorem Part.putRwt_frame (p : Part) (off : Nat) (v : Nat) : (p.putRwt off v).mem = p.mem ∧ (p.putRwt off v).cores = p.cores := by
  unfold Part.putRwt
  split <;> simp

@[simp] theorem Part.putStaged_frame (p : Part) (x : Staged) : (p.putStaged x).mem = p.mem ∧ (p.putStaged x).cores = p.cores := by
  unfold Part.putStaged
  split <;> simp

@[simp] theorem Part.stagedRegs_frame (p : Part) (full : Bool) (l : List Staged) :
    (p.stagedRegs full l).mem = p.mem ∧ (p.stagedRegs full l).cores = p.cores := by
  simp [Part.stagedRegs]

@[simp] theorem Part.declareLoss_frame (p : Part) (x : Nat) : (p.declareLoss x).mem = p.mem ∧ (p.declareLoss x).cores = p.cores := by
  simp [Part.declareLoss]

@[simp] theorem Part.setCq_frame (p : Part) (q : Nat) (x : CmdQueue) : (p.setCq q x).mem = p.mem ∧ (p.setCq q x).cores = p.cores := by
  simp [Part.setCq]

@[simp] theorem Part.hifStick_frame (p : Part) (i : Nat) : (p.hifStick i).mem = p.mem ∧ (p.hifStick i).cores = p.cores := by
  simp [Part.hifStick]

@[simp] theorem Part.endOne_frame (p : Part) (q : Nat) (c : HostCmd) (status : Nat) (result : Nat) :
    (p.endOne q c status result).mem = p.mem ∧ (p.endOne q c status result).cores = p.cores := by
  simp [Part.endOne]

@[simp] theorem Part.sweep_frame (fuel : Nat) (p : Part) (q : Nat) :
    (Part.sweep fuel p q).mem = p.mem ∧ (Part.sweep fuel p q).cores = p.cores := by
  induction fuel generalizing p with
  | zero => exact ⟨rfl, rfl⟩
  | succ fuel ih =>
    unfold Part.sweep
    split
    · exact ⟨rfl, rfl⟩
    · split
      · simp [ih]
      · split
        · exact ⟨rfl, rfl⟩
        · simp [ih]

@[simp] theorem Part.sweepAll_frame (p : Part) : p.sweepAll.mem = p.mem ∧ p.sweepAll.cores = p.cores := by simp [Part.sweepAll]

@[simp] theorem Part.endCmd_frame (p : Part) (q : Nat) (c : HostCmd) (status : Nat) (result : Nat) :
    (p.endCmd q c status result).mem = p.mem ∧ (p.endCmd q c status result).cores = p.cores := by
  simp [Part.endCmd]

@[simp] theorem Part.txnFail_frame (p : Part) (e : TxnErr) : (p.txnFail e).mem = p.mem ∧ (p.txnFail e).cores = p.cores := by
  simp [Part.txnFail]

@[simp] theorem Part.abandonValidation_frame (p : Part) (e : TxnErr) (status : Nat) :
    (p.abandonValidation e status).mem = p.mem ∧ (p.abandonValidation e status).cores = p.cores := by
  unfold Part.abandonValidation
  dsimp only
  split <;> simp

@[simp] theorem Part.tokenMeetsTxn_frame (p : Part) (t : TokenMsg) : (p.tokenMeetsTxn t).mem = p.mem ∧ (p.tokenMeetsTxn t).cores = p.cores := by
  unfold Part.tokenMeetsTxn
  split <;> simp

@[simp] theorem Part.tokenHeld_frame (p : Part) (t : TokenMsg) : (p.tokenHeld t).mem = p.mem ∧ (p.tokenHeld t).cores = p.cores := by
  simp [Part.tokenHeld]

@[simp] theorem Part.standbySees_frame (p : Part) (t : TokenMsg) (at' : Nat) :
    (p.standbySees t at').mem = p.mem ∧ (p.standbySees t at').cores = p.cores := by
  simp [Part.standbySees]

@[simp] theorem Part.strayEdge_frame (p : Part) : p.strayEdge.mem = p.mem ∧ p.strayEdge.cores = p.cores := by simp [Part.strayEdge]

@[simp] theorem Part.expireEdge_frame (p : Part) (at' : Nat) : (p.expireEdge at').mem = p.mem ∧ (p.expireEdge at').cores = p.cores := by
  unfold Part.expireEdge
  split <;> simp

@[simp] theorem Part.heldSkew_frame (p : Part) (due : Nat) : (p.heldSkew due).mem = p.mem ∧ (p.heldSkew due).cores = p.cores := by
  unfold Part.heldSkew
  split <;> simp

@[simp] theorem Part.setDups_frame (p : Part) (s : Nat) (l : List DupCap) : (p.setDups s l).mem = p.mem ∧ (p.setDups s l).cores = p.cores := by
  simp [Part.setDups]

@[simp] theorem Part.dupTick_frame (p : Part) : p.dupTick.mem = p.mem ∧ p.dupTick.cores = p.cores := by simp [Part.dupTick]

@[simp] theorem Part.hostPut_frame (p : Part) (a : Nat) (bs : List Byte) (poison : Bool) :
    (p.hostPut a bs poison).mem = p.mem ∧ (p.hostPut a bs poison).cores = p.cores := by
  simp [Part.hostPut]

@[simp] theorem Part.errorRing_frame (p : Part) : p.errorRing.mem = p.mem ∧ p.errorRing.cores = p.cores := by simp [Part.errorRing]

@[simp] theorem Part.dropRegs_frame (p : Part) (f : Nat → Bool) : (p.dropRegs f).mem = p.mem ∧ (p.dropRegs f).cores = p.cores := by
  simp [Part.dropRegs]

@[simp] theorem Part.addHalves_frame (p : Part) (off : Nat) (hi : Nat) (lo : Nat) :
    (p.addHalves off hi lo).mem = p.mem ∧ (p.addHalves off hi lo).cores = p.cores := by
  simp [Part.addHalves]

@[simp] theorem Part.addEntry_frame (p : Part) (i : Nat) (a : PairAcc) : (p.addEntry i a).mem = p.mem ∧ (p.addEntry i a).cores = p.cores := by
  simp [Part.addEntry]

@[simp] theorem Part.addOutlook_frame (p : Part) (c : Nat) (e : Nat) : (p.addOutlook c e).mem = p.mem ∧ (p.addOutlook c e).cores = p.cores := by
  simp [Part.addOutlook]

@[simp] theorem Part.pairTable_frame (p : Part) : p.pairTable.mem = p.mem ∧ p.pairTable.cores = p.cores := by simp [Part.pairTable]

@[simp] theorem Part.telemetryLatch_frame (p : Part) : p.telemetryLatch.mem = p.mem ∧ p.telemetryLatch.cores = p.cores := by
  simp [Part.telemetryLatch]

@[simp] theorem Part.clearFrameRegs_frame (p : Part) : p.clearFrameRegs.mem = p.mem ∧ p.clearFrameRegs.cores = p.cores := by
  simp [Part.clearFrameRegs]

@[simp] theorem Part.closeFrame_frame (p : Part) : p.closeFrame.mem = p.mem ∧ p.closeFrame.cores = p.cores := by simp [Part.closeFrame]

@[simp] theorem Part.modSch_frame (p : Part) (s : Nat) (f : Sched → Sched) : (p.modSch s f).mem = p.mem ∧ (p.modSch s f).cores = p.cores := by
  simp [Part.modSch]

@[simp] theorem Part.schReplay_frame (p : Part) (s : Nat) : (p.schReplay s).mem = p.mem ∧ (p.schReplay s).cores = p.cores := by
  simp [Part.schReplay]

@[simp] theorem Part.fabErr_frame (p : Part) (i : Nat) (l0 : Nat) (l1 : Nat) :
    (p.fabErr i l0 l1).mem = p.mem ∧ (p.fabErr i l0 l1).cores = p.cores := by
  simp [Part.fabErr]

@[simp] theorem Part.altSwitch_frame (p : Part) : p.altSwitch.mem = p.mem ∧ p.altSwitch.cores = p.cores := by
  unfold Part.altSwitch
  dsimp only
  split <;> simp

@[simp] theorem Part.setBlocks_frame (p : Part) (c : Nat) (l : List HeldBlock) :
    (p.setBlocks c l).mem = p.mem ∧ (p.setBlocks c l).cores = p.cores := by
  simp [Part.setBlocks]

@[simp] theorem Part.inboxReplay_frame (p : Part) (c : Nat) : (p.inboxReplay c).mem = p.mem ∧ (p.inboxReplay c).cores = p.cores := by
  simp [Part.inboxReplay]

@[simp] theorem Part.schCommit_frame (p : Part) (ends : Bool) (s : Nat) :
    (p.schCommit ends s).mem = p.mem ∧ (p.schCommit ends s).cores = p.cores := by
  simp [Part.schCommit]

@[simp] theorem Part.optPowers_frame (p : Part) : p.optPowers.mem = p.mem ∧ p.optPowers.cores = p.cores := by simp [Part.optPowers]

@[simp] theorem Part.lateDrop_frame (p : Part) (c : Nat) (b : HeldBlock) : (p.lateDrop c b).mem = p.mem ∧ (p.lateDrop c b).cores = p.cores := by
  simp [Part.lateDrop]

@[simp] theorem Part.inboxCommit_frame (p : Part) (f : Nat) (c : Nat) :
    (p.inboxCommit f c).mem = p.mem ∧ (p.inboxCommit f c).cores = p.cores := by
  simp [Part.inboxCommit]

@[simp] theorem Part.vintageSwitch_frame (p : Part) : p.vintageSwitch.mem = p.mem ∧ p.vintageSwitch.cores = p.cores := by
  simp [Part.vintageSwitch]

@[simp] theorem Part.seasonAdvance_frame (p : Part) : p.seasonAdvance.mem = p.mem ∧ p.seasonAdvance.cores = p.cores := by
  simp [Part.seasonAdvance]

@[simp] theorem Part.twinTick_frame (p : Part) (replay : Bool) : (p.twinTick replay).mem = p.mem ∧ (p.twinTick replay).cores = p.cores := by
  simp [Part.twinTick]

@[simp] theorem Part.modCtl_frame (p : Part) (s : Nat) (f : MemCtl → MemCtl) : (p.modCtl s f).mem = p.mem ∧ (p.modCtl s f).cores = p.cores := by
  simp [Part.modCtl]

@[simp] theorem Part.ctlTick_frame (p : Part) (s : Nat) : (p.ctlTick s).mem = p.mem ∧ (p.ctlTick s).cores = p.cores := by simp [Part.ctlTick]

@[simp] theorem Part.takePairing_frame (p : Part) (t : Nat) : (p.takePairing t).mem = p.mem ∧ (p.takePairing t).cores = p.cores := by
  unfold Part.takePairing
  split <;> simp

@[simp] theorem Part.txnIdle_frame (p : Part) : p.txnIdle.mem = p.mem ∧ p.txnIdle.cores = p.cores := by simp [Part.txnIdle]

@[simp] theorem Part.modUnit_frame (p : Part) (s : Nat) (f : Units → Units) : (p.modUnit s f).mem = p.mem ∧ (p.modUnit s f).cores = p.cores := by
  simp [Part.modUnit]

@[simp] theorem Part.rcDropTable_frame (p : Part) (t : Nat) : (p.rcDropTable t).mem = p.mem ∧ (p.rcDropTable t).cores = p.cores := by
  simp [Part.rcDropTable]

@[simp] theorem Part.startPowers_frame (p : Part) (s : Nat) (n : Nat) :
    (p.startPowers s n).mem = p.mem ∧ (p.startPowers s n).cores = p.cores := by
  simp [Part.startPowers]

@[simp] theorem Part.altClear_frame (p : Part) : p.altClear.mem = p.mem ∧ p.altClear.cores = p.cores := by simp [Part.altClear]

@[simp] theorem Part.takeGrafts_frame (p : Part) (full : Bool) (gs : List GraftId) (unsigned : Bool) :
    (p.takeGrafts full gs unsigned).mem = p.mem ∧ (p.takeGrafts full gs unsigned).cores = p.cores := by
  simp [Part.takeGrafts]

@[simp] theorem Part.holdAtZero_frame (p : Part) : p.holdAtZero.mem = p.mem := by simp [Part.holdAtZero]

@[simp] theorem Part.loaderSees_frame (p : Part) : p.loaderSees.mem = p.mem ∧ p.loaderSees.cores = p.cores := by simp [Part.loaderSees]

@[simp] theorem Part.hostLimit_frame (p : Part) : p.hostLimit.mem = p.mem ∧ p.hostLimit.cores = p.cores := by simp [Part.hostLimit]

@[simp] theorem Part.tickStatus_frame (p : Part) (t : TokenMsg) : (p.tickStatus t).mem = p.mem ∧ (p.tickStatus t).cores = p.cores := by
  simp [Part.tickStatus]

@[simp] theorem Part.fabTick_frame (p : Part) : p.fabTick.mem = p.mem ∧ p.fabTick.cores = p.cores := by simp [Part.fabTick]

@[simp] theorem Part.evLeft_frame (p : Part) : p.evLeft.mem = p.mem ∧ p.evLeft.cores = p.cores := by simp [Part.evLeft]

@[simp] theorem Part.schLeft_frame (p : Part) (s : Nat) : (p.schLeft s).mem = p.mem ∧ (p.schLeft s).cores = p.cores := by simp [Part.schLeft]

@[simp] theorem Part.schReset_frame (p : Part) (s : Nat) : (p.schReset s).mem = p.mem ∧ (p.schReset s).cores = p.cores := by
  simp [Part.schReset]

@[simp] theorem Part.discardWork_frame (p : Part) : p.discardWork.mem = p.mem := by simp [Part.discardWork]

@[simp] theorem Part.modCore_frame (p : Part) (c : Nat) (f : Core → Core) : (p.modCore c f).mem = p.mem := by simp [Part.modCore]

@[simp] theorem Part.quiesceDone_frame (p : Part) : p.quiesceDone.mem = p.mem ∧ p.quiesceDone.cores = p.cores := by
  unfold Part.quiesceDone
  split
  · exact ⟨rfl, rfl⟩
  · refine ⟨Part.mem_each (fun p q => ?_) _ _, Part.cores_each (fun p q => ?_) _ _⟩
    all_goals split <;> simp

@[simp] theorem Part.freezeOver_frame (p : Part) : p.freezeOver.mem = p.mem ∧ p.freezeOver.cores = p.cores := by simp [Part.freezeOver]

@[simp] theorem Part.setDelayComp_frame (p : Part) : p.setDelayComp.mem = p.mem ∧ p.setDelayComp.cores = p.cores := by
  simp [Part.setDelayComp]

@[simp] theorem Part.loadLat_frame (p : Part) : p.loadLat.mem = p.mem ∧ p.loadLat.cores = p.cores := by simp [Part.loadLat]

@[simp] theorem Part.follow_frame (p : Part) (standby : Bool) : (p.follow standby).mem = p.mem ∧ (p.follow standby).cores = p.cores := by
  simp [Part.follow]

@[simp] theorem Part.holdEdge_frame (p : Part) : p.holdEdge.mem = p.mem ∧ p.holdEdge.cores = p.cores := by simp [Part.holdEdge]

@[simp] theorem Part.overrun_frame (p : Part) : p.overrun.mem = p.mem ∧ p.overrun.cores = p.cores := by simp [Part.overrun]

@[simp] theorem Part.enterPhase_frame (p : Part) (ph : Nat) (off : Nat) :
    (p.enterPhase ph off).mem = p.mem ∧ (p.enterPhase ph off).cores = p.cores := by
  simp [Part.enterPhase]

@[simp] theorem Part.lateWork_frame (p : Part) : p.lateWork.mem = p.mem ∧ p.lateWork.cores = p.cores := by simp [Part.lateWork]

@[simp] theorem Part.lossNotice_frame (p : Part) (d : Nat) : (p.lossNotice d).mem = p.mem ∧ (p.lossNotice d).cores = p.cores := by
  simp [Part.lossNotice]

@[simp] theorem Part.fabricEndCheck_frame (p : Part) : p.fabricEndCheck.mem = p.mem ∧ p.fabricEndCheck.cores = p.cores := by
  simp [Part.fabricEndCheck]

@[simp] theorem Part.noAck_frame (p : Part) : p.noAck.mem = p.mem ∧ p.noAck.cores = p.cores := by simp [Part.noAck]

@[simp] theorem Part.sendNotices_frame (p : Part) : p.sendNotices.mem = p.mem ∧ p.sendNotices.cores = p.cores := by simp [Part.sendNotices]

@[simp] theorem Part.stretchCompute_frame (p : Part) : p.stretchCompute.mem = p.mem ∧ p.stretchCompute.cores = p.cores := by
  simp [Part.stretchCompute]

@[simp] theorem Part.undecided_frame (p : Part) (s : Nat) (d : DupCap) : (p.undecided s d).mem = p.mem ∧ (p.undecided s d).cores = p.cores := by
  simp [Part.undecided]

@[simp] theorem Part.dupAbandon_frame (p : Part) : p.dupAbandon.mem = p.mem ∧ p.dupAbandon.cores = p.cores := by simp [Part.dupAbandon]

@[simp] theorem Part.discardFailed_frame (p : Part) : p.discardFailed.mem = p.mem := by simp [Part.discardFailed]

@[simp] theorem Part.keepStatus_frame (p : Part) (x : Status) : (p.keepStatus x).mem = p.mem ∧ (p.keepStatus x).cores = p.cores := by
  unfold Part.keepStatus
  split <;> simp

@[simp] theorem Part.startCore_frame (p : Part) (c : Nat) : (p.startCore c).mem = p.mem := by simp [Part.startCore]

@[simp] theorem Part.readWord_frame (p : Part) (c : Nat) (a : Nat) : (p.readWord c a).2.mem = p.mem ∧ (p.readWord c a).2.cores = p.cores := by
  unfold Part.readWord
  split <;> simp

@[simp] theorem Part.denied_frame (p : Part) (s : Nat) : (p.denied s).mem = p.mem ∧ (p.denied s).cores = p.cores := by simp [Part.denied]

@[simp] theorem Part.irrSend_frame (p : Part) (c : Nat) (i : IrrOp) : (p.irrSend c i).mem = p.mem ∧ (p.irrSend c i).cores = p.cores := by
  simp [Part.irrSend]

@[simp] theorem Part.pushM_frame (p : Part) (c : Nat) (o : MOp) : (p.pushM c o).mem = p.mem := by simp [Part.pushM]

@[simp] theorem Part.pushV_frame (p : Part) (c : Nat) (o : VOp) : (p.pushV c o).mem = p.mem := by simp [Part.pushV]

@[simp] theorem Part.signalIn_frame (p : Part) (pair : Nat) (c : Nat) (ev : Nat) :
    (p.signalIn pair c ev).mem = p.mem ∧ (p.signalIn pair c ev).cores = p.cores := by
  simp [Part.signalIn]

@[simp] theorem Part.signalTo_frame (p : Part) (pair : Nat) (chip : Nat) (c : Nat) (ev : Nat) :
    (p.signalTo pair chip c ev).mem = p.mem ∧ (p.signalTo pair chip c ev).cores = p.cores := by
  simp [Part.signalTo]

@[simp] theorem Part.rackSignals_frame (p : Part) (c : Nat) (pair : Nat) (dst : Nat) (ev : Nat) (sig : Nat) :
    (p.rackSignals c pair dst ev sig).mem = p.mem ∧ (p.rackSignals c pair dst ev sig).cores = p.cores := by
  simp [Part.rackSignals]

@[simp] theorem Part.rackRefuse_frame (p : Part) (s : Nat) (c : Nat) (pair : Nat) (dst : Nat) (ev : Nat) (sig : Nat) :
    (p.rackRefuse s c pair dst ev sig).mem = p.mem ∧ (p.rackRefuse s c pair dst ev sig).cores = p.cores := by
  simp [Part.rackRefuse]

@[simp] theorem Part.rckErr_frame (p : Part) (s : Nat) (i : Nat) (c : Nat) (pair : Nat) (addr : Nat) :
    (p.rckErr s i c pair addr).mem = p.mem ∧ (p.rckErr s i c pair addr).cores = p.cores := by
  simp [Part.rckErr]

@[simp] theorem Part.refuseExternal_frame (p : Part) (a : Nat) (pair : Nat) :
    (p.refuseExternal a pair).mem = p.mem ∧ (p.refuseExternal a pair).cores = p.cores := by
  simp [Part.refuseExternal]

@[simp] theorem Part.rackDenied_frame (p : Part) (s : Nat) (a : Nat) (pair : Nat) (write : Bool) :
    (p.rackDenied s a pair write).mem = p.mem ∧ (p.rackDenied s a pair write).cores = p.cores := by
  simp [Part.rackDenied]

@[simp] theorem Part.takeRack_frame (p : Part) (c : Nat) (pair : Nat) (src : Nat) (dst : Nat) (len : Nat) (ev : Nat) (sig : Nat) (tag : Nat) :
    (p.takeRack c pair src dst len ev sig tag).mem = p.mem ∧ (p.takeRack c pair src dst len ev sig tag).cores = p.cores := by
  simp [Part.takeRack]

@[simp] theorem Part.modPrs_frame (p : Part) (s : Nat) (f : Press → Press) : (p.modPrs s f).mem = p.mem ∧ (p.modPrs s f).cores = p.cores := by
  simp [Part.modPrs]

@[simp] theorem Part.allocSlots_frame (p : Part) (c : Nat) (count : Nat) :
    (p.allocSlots c count).2.mem = p.mem ∧ (p.allocSlots c count).2.cores = p.cores := by
  unfold Part.allocSlots
  dsimp only
  split <;> simp

@[simp] theorem Part.returnEnd_frame (p : Part) (c : Nat) : (p.returnEnd c).mem = p.mem := by simp [Part.returnEnd]

@[simp] theorem Part.schErr_frame (p : Part) (s : Nat) (i : Nat) (pair : Nat) :
    (p.schErr s i pair).mem = p.mem ∧ (p.schErr s i pair).cores = p.cores := by
  simp [Part.schErr]

@[simp] theorem Part.schDrop_frame (p : Part) (s : Nat) (i : Nat) (pair : Nat) :
    (p.schDrop s i pair).mem = p.mem ∧ (p.schDrop s i pair).cores = p.cores := by
  simp [Part.schDrop]

@[simp] theorem Part.poisonDesc_frame (p : Part) (c : Nat) (t : Nat) : (p.poisonDesc c t).mem = p.mem := by simp [Part.poisonDesc]

@[simp] theorem Part.setQueue_frame (p : Part) (s : Nat) (q : Nat) (x : Queue) :
    (p.setQueue s q x).mem = p.mem ∧ (p.setQueue s q x).cores = p.cores := by
  simp [Part.setQueue]

@[simp] theorem Part.becomeReady_frame (p : Part) (s : Nat) (q : Nat) (d : Desc) :
    (p.becomeReady s q d).mem = p.mem ∧ (p.becomeReady s q d).cores = p.cores := by
  simp [Part.becomeReady]

@[simp] theorem Part.enterQueue_frame (p : Part) (s : Nat) (q : Nat) (bytes : List Byte) (counted : Bool) :
    (p.enterQueue s q bytes counted).mem = p.mem ∧ (p.enterQueue s q bytes counted).cores = p.cores := by
  unfold Part.enterQueue
  dsimp only
  repeat' split
  all_goals simp

@[simp] theorem Part.sendBlock_frame (p : Part) (dst : Nat) (kind : Nat) (poison : Nat) (payload : List Byte) :
    (p.sendBlock dst kind poison payload).2.mem = p.mem ∧ (p.sendBlock dst kind poison payload).2.cores = p.cores := by
  simp [Part.sendBlock]

@[simp] theorem Part.flowOverrun_frame (p : Part) (s : Nat) (f : Nat) (pair : Nat) :
    (p.flowOverrun s f pair).mem = p.mem ∧ (p.flowOverrun s f pair).cores = p.cores := by
  simp [Part.flowOverrun]

@[simp] theorem Part.closeQueue_frame (p : Part) (s : Nat) (q : Nat) : (p.closeQueue s q).mem = p.mem ∧ (p.closeQueue s q).cores = p.cores := by
  simp [Part.closeQueue]

@[simp] theorem Part.consumeIf_frame (p : Part) (c : Nat) (pair : Nat) (t : Option Nat) :
    (p.consumeIf c pair t).mem = p.mem ∧ (p.consumeIf c pair t).cores = p.cores := by
  unfold Part.consumeIf
  split <;> simp

@[simp] theorem Part.dupOpen_frame (p : Part) (c : Nat) (g : Nat) (n : Nat) (pair : Nat) :
    (p.dupOpen c g n pair).mem = p.mem ∧ (p.dupOpen c g n pair).cores = p.cores := by
  simp [Part.dupOpen]

@[simp] theorem Part.dupDrop_frame (p : Part) (c : Nat) (g : Nat) : (p.dupDrop c g).mem = p.mem ∧ (p.dupDrop c g).cores = p.cores := by
  simp [Part.dupDrop]

@[simp] theorem Part.dupPass_frame (p : Part) (c : Nat) (g : Nat) (q : CapPass) (poison : Bool) :
    (p.dupPass c g q poison).mem = p.mem ∧ (p.dupPass c g q poison).cores = p.cores := by
  simp [Part.dupPass]

@[simp] theorem Part.coreResidue_frame (p : Part) (c : Nat) (hit : Option Upset) (h : OpHead) (char0 : Nat → Nat) :
    (p.coreResidue c hit h char0).mem = p.mem ∧ (p.coreResidue c hit h char0).cores = p.cores := by
  unfold Part.coreResidue
  split <;> simp

@[simp] theorem Part.startPass_frame (p : Part) (c : Nat) (o : PassOp) (t : Tile) (rest : List MOp) (upset : Option Upset) :
    (p.startPass c o t rest upset).mem = p.mem := by
  simp [Part.startPass]

@[simp] theorem Part.olkCount_frame (p : Part) (off : Nat) (k : Nat) : (p.olkCount off k).mem = p.mem ∧ (p.olkCount off k).cores = p.cores := by
  simp [Part.olkCount]

@[simp] theorem Part.meter_frame (p : Part) (c : Nat) (e : Nat) (thr : Nat) (f : Fmt) (vs : List Nat) (ests : List Nat) :
    (p.meter c e thr f vs ests).mem = p.mem ∧ (p.meter c e thr f vs ests).cores = p.cores := by
  simp [Part.meter]

@[simp] theorem Part.outlookDrain_frame (p : Part) (c : Nat) (o : DrainOp) (est : Bool) (x : OlkEntry)
    (vs : List Nat) (ests : List Nat) (old : OlkRec) :
    (p.outlookDrain c o est x vs ests old).2.2.mem = p.mem := by
  unfold Part.outlookDrain
  dsimp only
  repeat' split
  all_goals simp

@[simp] theorem Part.dupDrain_frame (p : Part) (c : Nat) (g : Nat) (f : DupCap → DupCap) :
    (p.dupDrain c g f).mem = p.mem ∧ (p.dupDrain c g f).cores = p.cores := by
  simp [Part.dupDrain]

@[simp] theorem Part.startDrain_frame (p : Part) (c : Nat) (o : DrainOp) (g : Nat) (up : Option Upset) :
    (p.startDrain c o g up).mem = p.mem := by
  unfold Part.startDrain
  dsimp only
  generalize Option.map _ (p.fresh.2.outlook c o.head.pair) = olk
  cases olk <;> simp

@[simp] theorem Part.dupReady_frame (p : Part) (c : Nat) (g : Nat) : (p.dupReady c g).mem = p.mem ∧ (p.dupReady c g).cores = p.cores := by
  simp [Part.dupReady]

@[simp] theorem Part.acceptSlot_frame (p : Part) (c : Nat) : (p.acceptSlot c).mem = p.mem := by simp [Part.acceptSlot]

@[simp] theorem Part.countSignal_frame (p : Part) (c : Nat) (ev : Nat) : (p.countSignal c ev).mem = p.mem := by simp [Part.countSignal]

@[simp] theorem Part.endWait_frame (p : Part) (c : Nat) : (p.endWait c).mem = p.mem := by simp [Part.endWait]

@[simp] theorem Part.irrRefused_frame (p : Part) (c : Nat) (i : IrrOp) :
    (p.irrRefused c i).mem = p.mem ∧ (p.irrRefused c i).cores = p.cores := by
  simp [Part.irrRefused]

@[simp] theorem Part.irrDone_frame (p : Part) (c : Nat) (i : IrrOp) : (p.irrDone c i).mem = p.mem := by
  unfold Part.irrDone
  dsimp only
  split <;> simp

@[simp] theorem Part.closeLoaded_frame (p : Part) (s : Nat) : (p.closeLoaded s).mem = p.mem ∧ (p.closeLoaded s).cores = p.cores := by
  simp [Part.closeLoaded]

@[simp] theorem Part.preloadEnd_frame (p : Part) (s : Nat) : (p.preloadEnd s).mem = p.mem ∧ (p.preloadEnd s).cores = p.cores := by
  simp [Part.preloadEnd]

@[simp] theorem Part.windowCheck_frame (p : Part) (s : Nat) : (p.windowCheck s).mem = p.mem ∧ (p.windowCheck s).cores = p.cores := by
  simp [Part.windowCheck]

@[simp] theorem Part.decDc_frame (p : Part) (pair : Nat) (s : Nat) (j : Nat) :
    (p.decDc pair s j).mem = p.mem ∧ (p.decDc pair s j).cores = p.cores := by
  simp [Part.decDc]

@[simp] theorem Part.decrement_frame (p : Part) (d : Completion) (i : Nat) :
    (p.decrement d i).mem = p.mem ∧ (p.decrement d i).cores = p.cores := by
  simp [Part.decrement]

@[simp] theorem Part.closeOn_frame (p : Part) (s : Nat) (j : Nat) : (p.closeOn s j).mem = p.mem ∧ (p.closeOn s j).cores = p.cores := by
  simp [Part.closeOn]

@[simp] theorem Part.poisonNote_frame (p : Part) (s : Nat) (t : Nat) (a : Nat) (q : Ureq) :
    (p.poisonNote s t a q).mem = p.mem ∧ (p.poisonNote s t a q).cores = p.cores := by
  unfold Part.poisonNote
  dsimp only
  split <;> simp

@[simp] theorem Part.poisonReq_frame (p : Part) (s : Nat) (agent : Nat) (t : Nat) (a : Nat) (q : Ureq) :
    (p.poisonReq s agent t a q).2.mem = p.mem ∧ (p.poisonReq s agent t a q).2.cores = p.cores := by
  simp [Part.poisonReq]

@[simp] theorem Part.runReq_frame (p : Part) (s : Nat) (r : RunReq) : (p.runReq s r).mem = p.mem ∧ (p.runReq s r).cores = p.cores := by
  simp [Part.runReq]

@[simp] theorem Part.toSpad_frame (p : Part) (a : Nat) : (p.toSpad a).mem = p.mem ∧ (p.toSpad a).cores = p.cores := by simp [Part.toSpad]

@[simp] theorem Part.countHop_frame (p : Part) (s : Nat) (xs : List VertexSample) :
    (p.countHop s xs).mem = p.mem ∧ (p.countHop s xs).cores = p.cores := by
  simp [Part.countHop]

@[simp] theorem Part.reportDest_frame (p : Part) (s : Nat) (a : Nat) (len : Nat) (pair : Nat) :
    (p.reportDest s a len pair).mem = p.mem ∧ (p.reportDest s a len pair).cores = p.cores := by
  simp [Part.reportDest]

@[simp] theorem Part.reportSrc_frame (p : Part) (s : Nat) (a : Nat) (len : Nat) :
    (p.reportSrc s a len).mem = p.mem ∧ (p.reportSrc s a len).cores = p.cores := by
  simp [Part.reportSrc]

@[simp] theorem Part.refuseSample_frame (p : Part) (s : Nat) (q : Ureq) (bits : List Nat) :
    (p.refuseSample s q bits).2.mem = p.mem ∧ (p.refuseSample s q bits).2.cores = p.cores := by
  simp [Part.refuseSample]

/-- What a unit's start keeps of the part, when the request's own start keeps it. -/
theorem Part.takeReq_keeps {β : Type} (get : Part → β) (hset : ∀ p s u, get (Part.setUnit p s u) = get p)
    (hpoison : ∀ p s a t x q, get (Part.poisonReq p s a t x q).2 = get p) (hrun : ∀ p s r, get (Part.runReq p s r) = get p)
    {f : Part → Ureq → RunReq × Part} (hf : ∀ p q, get (f p q).2 = get p) (p : Part) (s unit op : Nat) :
    get (p.takeReq s unit op f) = get p := by
  unfold Part.takeReq
  dsimp only
  split
  · rfl
  · rw [apply_ite get, ite_eq_left_iff]
    intro _
    split
    · rw [hrun, hpoison, hset]
    · rw [hrun, hf, hset]

@[simp] theorem Part.tblRefuse_frame (p : Part) (s : Nat) (q : Ureq) (i : Nat) :
    (p.tblRefuse s q i).mem = p.mem ∧ (p.tblRefuse s q i).cores = p.cores := by
  simp [Part.tblRefuse]

@[simp] theorem Part.tableCheck_frame (p : Part) (s : Nat) (q : Ureq) :
    (p.tableCheck s q).2.mem = p.mem ∧ (p.tableCheck s q).2.cores = p.cores := by
  unfold Part.tableCheck
  repeat' split
  all_goals simp

@[simp] theorem Part.gseRefuse_frame (p : Part) (s : Nat) (q : Ureq) (i : Nat) :
    (p.gseRefuse s q i).mem = p.mem ∧ (p.gseRefuse s q i).cores = p.cores := by
  simp [Part.gseRefuse]

@[simp] theorem Part.rcLookup_frame (p : Part) (s : Nat) (T : Tbl) (owner : Nat) (key : Nat) :
    (p.rcLookup s T owner key).2.mem = p.mem ∧ (p.rcLookup s T owner key).2.cores = p.cores := by
  unfold Part.rcLookup
  dsimp only
  repeat' split
  all_goals simp

@[simp] theorem Part.planKey_frame (p : Part) (s : Nat) (T : Tbl) (noCache : Bool) (key : Nat) (outs : List Nat) :
    (p.planKey s T noCache key outs).2.mem = p.mem ∧ (p.planKey s T noCache key outs).2.cores = p.cores := by
  unfold Part.planKey
  dsimp only
  repeat' split
  all_goals simp

@[simp] theorem Part.rowRef_frame (p : Part) (s : Nat) (full : Bool) :
    (p.rowRef s full).2.mem = p.mem ∧ (p.rowRef s full).2.cores = p.cores := by
  simp [Part.rowRef]

@[simp] theorem Part.askRows_frame (p : Part) (s : Nat) (pair : Nat) (flags : Nat) (T : Tbl) (fs : List RowFetch) :
    (p.askRows s pair flags T fs).2.mem = p.mem ∧ (p.askRows s pair flags T fs).2.cores = p.cores := by
  unfold Part.askRows
  split <;> simp

@[simp] theorem Part.askAll_frame (p : Part) (s : Nat) (pair : Nat) (flags : Nat) (T : Tbl) (groups : List (List RowFetch)) :
    (p.askAll s pair flags T groups).2.mem = p.mem ∧ (p.askAll s pair flags T groups).2.cores = p.cores :=
  ⟨foldl_keeps (fun q : List RowFetch × Part => q.2.mem) _ (fun q g => by simp) _ _,
    foldl_keeps (fun q : List RowFetch × Part => q.2.cores) _ (fun q g => by simp) _ _⟩

@[simp] theorem Part.planRows_frame (p : Part) (s : Nat) (pair : Nat) (T : Tbl) (noCache : Bool) (keys : List Nat) :
    (p.planRows s pair T noCache keys).2.mem = p.mem ∧ (p.planRows s pair T noCache keys).2.cores = p.cores := by
  unfold Part.planRows
  simp only [Part.peak_keeps, Part.askAll_frame]
  exact ⟨foldl_keeps (fun q : List RowFetch × Part => q.2.mem) _ (fun q k => by simp) _ _,
    foldl_keeps (fun q : List RowFetch × Part => q.2.cores) _ (fun q k => by simp) _ _⟩

@[simp] theorem Part.dropReply_frame (p : Part) (s : Nat) (f : RowFetch) :
    (p.dropReply s f).mem = p.mem ∧ (p.dropReply s f).cores = p.cores := by
  simp [Part.dropReply]

@[simp] theorem Part.promote_frame (p : Part) (s : Nat) (f : RowFetch) : (p.promote s f).mem = p.mem ∧ (p.promote s f).cores = p.cores := by
  unfold Part.promote
  dsimp only
  split <;> simp

@[simp] theorem Part.deliverJoined_frame (p : Part) (s : Nat) (f : RowFetch) (row : RowRead) :
    (p.deliverJoined s f row).mem = p.mem ∧ (p.deliverJoined s f row).cores = p.cores := by
  simp [Part.deliverJoined]

@[simp] theorem Part.rcFill_frame (p : Part) (s : Nat) (T : Tbl) (owner : Nat) (key : Nat) (r : RowRead) :
    (p.rcFill s T owner key r).mem = p.mem ∧ (p.rcFill s T owner key r).cores = p.cores := by
  simp [Part.rcFill]

@[simp] theorem Part.arriveAhead_frame (p : Part) (s : Nat) (i : Nat) (f : RowFetch) :
    (p.arriveAhead s i f).mem = p.mem ∧ (p.arriveAhead s i f).cores = p.cores := by
  unfold Part.arriveAhead
  dsimp only
  repeat' split
  all_goals simp

@[simp] theorem Part.tblEvents_frame (p : Part) (s : Nat) (e : Events) : (p.tblEvents s e).mem = p.mem ∧ (p.tblEvents s e).cores = p.cores := by
  simp [Part.tblEvents]

@[simp] theorem Part.tblPoison_frame (p : Part) (s : Nat) (pair : Nat) (t : Nat) (key : Nat) (token : Nat) :
    (p.tblPoison s pair t key token).mem = p.mem ∧ (p.tblPoison s pair t key token).cores = p.cores := by
  simp [Part.tblPoison]

@[simp] theorem Part.rowPoison_frame (p : Part) (s : Nat) (r : RunReq) (T : Tbl) (key : Nat) (t : Nat) :
    (p.rowPoison s r T key t).mem = p.mem ∧ (p.rowPoison s r T key t).cores = p.cores := by
  simp [Part.rowPoison]

@[simp] theorem Part.takeRefusal_frame (p : Part) (s : Nat) (pair : Nat) (f : RowFetch) :
    (p.takeRefusal s pair f).mem = p.mem ∧ (p.takeRefusal s pair f).cores = p.cores := by
  unfold Part.takeRefusal
  split <;> simp

@[simp] theorem Part.refuseRows_frame (p : Part) (q : Packet) (pair : Nat) (s : Nat) (i : Nat) :
    (p.refuseRows q pair s i).mem = p.mem ∧ (p.refuseRows q pair s i).cores = p.cores := by
  simp [Part.refuseRows]

@[simp] theorem Part.sendRows_frame (p : Part) (q : Packet) (pair : Nat) (w : Nat) (rows : List RowRead) :
    (p.sendRows q pair w rows).mem = p.mem ∧ (p.sendRows q pair w rows).cores = p.cores := by
  simp [Part.sendRows]

@[simp] theorem Part.reqSignals_frame (p : Part) (s : Nat) (q : Ureq) (notify : Option Nat) :
    (p.reqSignals s q notify).mem = p.mem ∧ (p.reqSignals s q notify).cores = p.cores := by
  unfold Part.reqSignals
  dsimp only
  repeat' split
  all_goals simp

@[simp] theorem Part.quiet_frame (p : Part) (f : Part → Part) : (p.quiet f).mem = (f p).mem ∧ (p.quiet f).cores = (f p).cores := ⟨rfl, rfl⟩

@[simp] theorem Part.prsPoison_frame (p : Part) (s : Nat) (pair : Nat) (t : Nat) (key : Nat) (tok : Nat) :
    (p.prsPoison s pair t key tok).mem = p.mem ∧ (p.prsPoison s pair t key tok).cores = p.cores := by
  simp [Part.prsPoison]

@[simp] theorem Part.prsEvents_frame (p : Part) (s : Nat) (e : Events) : (p.prsEvents s e).mem = p.mem ∧ (p.prsEvents s e).cores = p.cores := by
  simp [Part.prsEvents]

@[simp] theorem Part.runLimit_frame (p : Part) (s : Nat) : (p.runLimit s).mem = p.mem ∧ (p.runLimit s).cores = p.cores := by
  simp [Part.runLimit]

@[simp] theorem Part.composedRow_frame (p : Part) (s : Nat) (cs : List Composed) :
    (p.composedRow s cs).mem = p.mem ∧ (p.composedRow s cs).cores = p.cores := by
  unfold Part.composedRow
  dsimp only
  repeat' split
  all_goals simp

@[simp] theorem Part.optSkip_frame (p : Part) (s : Nat) (pair : Nat) (a : Nat) (b : Nat) (tok : Nat) :
    (p.optSkip s pair a b tok).mem = p.mem ∧ (p.optSkip s pair a b tok).cores = p.cores := by
  simp [Part.optSkip]

@[simp] theorem Part.optResidue_frame (p : Part) (s : Nat) (pair : Nat) (prog : Nat) (hit : Option Upset) :
    (p.optResidue s pair prog hit).mem = p.mem ∧ (p.optResidue s pair prog hit).cores = p.cores := by
  unfold Part.optResidue
  split <;> simp

@[simp] theorem Part.twinSend_frame (p : Part) (kind : Nat) (poison : Nat) (payload : List Byte) :
    (p.twinSend kind poison payload).mem = p.mem ∧ (p.twinSend kind poison payload).cores = p.cores := by
  simp [Part.twinSend]

@[simp] theorem Part.streamJob_frame (p : Part) (s : Nat) (head : List Byte) (g : List Nat) :
    (p.streamJob s head g).mem = p.mem ∧ (p.streamJob s head g).cores = p.cores := by
  simp [Part.streamJob]

@[simp] theorem Part.scrubBare_frame (p : Part) (h : Nat) (errs : List (Nat × Nat)) :
    (p.scrubBare h errs).mem = p.mem ∧ (p.scrubBare h errs).cores = p.cores := by
  unfold Part.scrubBare
  split <;> simp

@[simp] theorem Part.setClock_frame (p : Part) (run : Bool) : (p.setClock run).mem = p.mem ∧ (p.setClock run).cores = p.cores := by
  simp [Part.setClock]

@[simp] theorem Part.setXfer_frame (p : Part) (s : Nat) (t : Transfer) : (p.setXfer s t).mem = p.mem ∧ (p.setXfer s t).cores = p.cores := by
  simp [Part.setXfer]

@[simp] theorem Part.pullUnits_frame (fuel : Nat) (p : Part) (s : Nat) (t : Transfer) :
    (Part.pullUnits fuel p s t).mem = p.mem ∧ (Part.pullUnits fuel p s t).cores = p.cores := by
  induction fuel generalizing p t with
  | zero => exact ⟨rfl, rfl⟩
  | succ fuel ih =>
    unfold Part.pullUnits
    split
    · exact ⟨rfl, rfl⟩
    · split
      · exact ⟨rfl, rfl⟩
      · simp [ih]

@[simp] theorem Part.refuseRemote_frame (p : Part) (a : Nat) (pair : Nat) (write : Bool) :
    (p.refuseRemote a pair write).mem = p.mem ∧ (p.refuseRemote a pair write).cores = p.cores := by
  simp [Part.refuseRemote]

@[simp] theorem Part.setPort_frame (p : Part) (n : Nat) (x : Port) : (p.setPort n x).mem = p.mem ∧ (p.setPort n x).cores = p.cores := by
  simp [Part.setPort]

@[simp] theorem Part.clearPort_frame (p : Part) (n : Nat) (st : Nat) : (p.clearPort n st).mem = p.mem ∧ (p.clearPort n st).cores = p.cores := by
  simp [Part.clearPort]

@[simp] theorem Part.fabTrain_frame (p : Part) : p.fabTrain.mem = p.mem ∧ p.fabTrain.cores = p.cores := by simp [Part.fabTrain]

@[simp] theorem Part.reroute_frame (p : Part) (standby : Bool) : (p.reroute standby).mem = p.mem ∧ (p.reroute standby).cores = p.cores := by
  simp [Part.reroute]

@[simp] theorem Part.fabStop_frame (p : Part) : p.fabStop.mem = p.mem ∧ p.fabStop.cores = p.cores := by simp [Part.fabStop]

@[simp] theorem Part.setPstate_frame (p : Part) (n : Nat) (st : Nat) : (p.setPstate n st).mem = p.mem ∧ (p.setPstate n st).cores = p.cores := by
  simp [Part.setPstate]

@[simp] theorem Part.takeIdentity_frame (p : Part) (port : Nat) (n : Neighbour) :
    (p.takeIdentity port n).mem = p.mem ∧ (p.takeIdentity port n).cores = p.cores := by
  unfold Part.takeIdentity
  dsimp only
  split <;> simp

@[simp] theorem Part.anyBytes_frame (p : Part) (n : Nat) : (p.anyBytes n).2.mem = p.mem ∧ (p.anyBytes n).2.cores = p.cores := by
  simp [Part.anyBytes]

@[simp] theorem Part.beginAuth_frame (p : Part) (nv : Nv) (n : Nat) : (p.beginAuth nv n).mem = p.mem ∧ (p.beginAuth nv n).cores = p.cores := by
  simp [Part.beginAuth]

@[simp] theorem State.answerAuth_frame (s : State) (p : Part) (port : Nat) (c : Credential) :
    (State.answerAuth s p port c).mem = p.mem ∧ (State.answerAuth s p port c).cores = p.cores := by
  simp [State.answerAuth]

@[simp] theorem Part.pickParents_frame (p : Part) : p.pickParents.mem = p.mem ∧ p.pickParents.cores = p.cores := by
  unfold Part.pickParents
  dsimp only
  repeat' split
  all_goals simp

@[simp] theorem Part.txnRefuse_frame (p : Part) (q : Nat) (c : HostCmd) (e : TxnErr) :
    (p.txnRefuse q c e).mem = p.mem ∧ (p.txnRefuse q c e).cores = p.cores := by
  simp [Part.txnRefuse]

@[simp] theorem Part.endStage_frame (p : Part) (q : Nat) (c : HostCmd) : (p.endStage q c).mem = p.mem ∧ (p.endStage q c).cores = p.cores := by
  simp [Part.endStage]

@[simp] theorem Part.pairingFails_frame (p : Part) (q : Nat) (c : HostCmd) :
    (p.pairingFails q c).mem = p.mem ∧ (p.pairingFails q c).cores = p.cores := by
  simp [Part.pairingFails]

@[simp] theorem Part.setBundle_frame (p : Part) (b : Nat) (x : Bundle) : (p.setBundle b x).mem = p.mem ∧ (p.setBundle b x).cores = p.cores := by
  simp [Part.setBundle]

@[simp] theorem Part.startRetrain_frame (p : Part) (n : Nat) : (p.startRetrain n).mem = p.mem ∧ (p.startRetrain n).cores = p.cores := by
  simp [Part.startRetrain]

@[simp] theorem Part.twinPump_frame (p : Part) : p.twinPump.mem = p.mem ∧ p.twinPump.cores = p.cores := by simp [Part.twinPump]

@[simp] theorem Part.queueFor_frame (p : Part) (w : Waiting) : (p.queueFor w).mem = p.mem ∧ (p.queueFor w).cores = p.cores := by
  simp [Part.queueFor]

@[simp] theorem Part.putOnPort_frame (p : Part) (n : Nat) (w : Waiting) : (p.putOnPort n w).mem = p.mem ∧ (p.putOnPort n w).cores = p.cores := by
  unfold Part.putOnPort
  split <;> simp

@[simp] theorem Part.sendWaiting_frame (p : Part) (w : Waiting) : (p.sendWaiting w).mem = p.mem ∧ (p.sendWaiting w).cores = p.cores := by
  unfold Part.sendWaiting
  repeat' split
  all_goals simp

@[simp] theorem Part.sendOn_frame (p : Part) (b : Nat) (vc : Nat) (q : Packet) :
    (p.sendOn b vc q).mem = p.mem ∧ (p.sendOn b vc q).cores = p.cores := by
  simp [Part.sendOn]

@[simp] theorem Part.samplePacket_frame (p : Part) (kind : Nat) (peer : Nat) (q : Packet) :
    (p.samplePacket kind peer q).mem = p.mem ∧ (p.samplePacket kind peer q).cores = p.cores := by
  simp [Part.samplePacket]

@[simp] theorem Part.launch_frame (p : Part) (route : Nat) (q : Packet) :
    (p.launch route q).mem = p.mem ∧ (p.launch route q).cores = p.cores := by
  simp [Part.launch]

@[simp] theorem Part.setWin_frame (p : Part) (d : Nat) (w : TxWin) : (p.setWin d w).mem = p.mem ∧ (p.setWin d w).cores = p.cores := by
  simp [Part.setWin]

@[simp] theorem Part.injectOn_frame (p : Part) (route : Nat) (q : Packet) :
    (p.injectOn route q).mem = p.mem ∧ (p.injectOn route q).cores = p.cores := by
  simp [Part.injectOn]

@[simp] theorem Part.linkReply_frame (p : Part) (port : Nat) (ok : Bool) (seq : Nat) :
    (p.linkReply port ok seq).mem = p.mem ∧ (p.linkReply port ok seq).cores = p.cores := by
  simp [Part.linkReply]

@[simp] theorem Part.discardBad_frame (p : Part) (q : Packet) : (p.discardBad q).mem = p.mem ∧ (p.discardBad q).cores = p.cores := by
  simp [Part.discardBad]

@[simp] theorem Part.pairRefused_frame (p : Part) : p.pairRefused.mem = p.mem ∧ p.pairRefused.cores = p.cores := by simp [Part.pairRefused]

@[simp] theorem Part.sendPairing_frame (p : Part) (c : Part) (t : Nat) :
    (p.sendPairing c t).mem = p.mem ∧ (p.sendPairing c t).cores = p.cores := by
  simp [Part.sendPairing]

@[simp] theorem Part.holdFlag_frame (p : Part) (q : Packet) : (p.holdFlag q).mem = p.mem ∧ (p.holdFlag q).cores = p.cores := by
  simp [Part.holdFlag]

@[simp] theorem Part.refillHold_frame (p : Part) : p.refillHold.mem = p.mem ∧ p.refillHold.cores = p.cores := by simp [Part.refillHold]

@[simp] theorem Part.drainFwd_frame (p : Part) (b : Nat) : (p.drainFwd b).mem = p.mem ∧ (p.drainFwd b).cores = p.cores := by
  simp [Part.drainFwd]

@[simp] theorem Part.portLost_frame (p : Part) (n : Nat) : (p.portLost n).mem = p.mem ∧ (p.portLost n).cores = p.cores := by
  simp [Part.portLost]

@[simp] theorem Part.fastRetrain_frame (p : Part) (n : Nat) : (p.fastRetrain n).mem = p.mem ∧ (p.fastRetrain n).cores = p.cores := by
  simp [Part.fastRetrain]

@[simp] theorem Part.comeUp_frame (p : Part) (n : Nat) : (p.comeUp n).mem = p.mem ∧ (p.comeUp n).cores = p.cores := by simp [Part.comeUp]

@[simp] theorem Part.failPort_frame (p : Part) (n : Nat) (st : Nat) : (p.failPort n st).mem = p.mem ∧ (p.failPort n st).cores = p.cores := by
  simp [Part.failPort]

@[simp] theorem Part.redSend_frame (fuel : Nat) (p : Part) (b : Nat) (dst : Nat) (kind : Nat) (stage : Nat) (step : Nat)
    (first : Nat) (scale : Nat) (per : Nat) (gw : Nat) (count : Nat) (gs : List (List Byte × Option Nat)) :
    (Part.redSend fuel p b dst kind stage step first scale per gw count gs).mem = p.mem ∧
      (Part.redSend fuel p b dst kind stage step first scale per gw count gs).cores = p.cores := by
  induction fuel generalizing p first count gs with
  | zero => exact ⟨rfl, rfl⟩
  | succ fuel ih =>
    unfold Part.redSend
    split
    · exact ⟨rfl, rfl⟩
    · simp [ih]

@[simp] theorem Part.sendBits_frame (p : Part) (b : Nat) (dst : Nat) (kind : Nat) (stage : Nat) (first : Nat)
    (scale : Nat) (bits : List Bool) (poison : Option Nat) :
    (p.sendBits b dst kind stage first scale bits poison).mem = p.mem ∧ (p.sendBits b dst kind stage first scale bits poison).cores = p.cores := by
  simp [Part.sendBits]

@[simp] theorem Part.redPoison_frame (p : Part) (b : Nat) (tok : Nat) :
    (p.redPoison b tok).mem = p.mem ∧ (p.redPoison b tok).cores = p.cores := by
  simp [Part.redPoison]

@[simp] theorem Part.redSendChunk_frame (p : Part) (b : Nat) (i : Nat) (t : Nat) (s : Nat) (at' : Nat) (n : Nat) :
    (p.redSendChunk b i t s at' n).mem = p.mem ∧ (p.redSendChunk b i t s at' n).cores = p.cores := by
  simp [Part.redSendChunk]

@[simp] theorem Part.bktMismatch_frame (p : Part) (b : Nat) (src : Nat) :
    (p.bktMismatch b src).mem = p.mem ∧ (p.bktMismatch b src).cores = p.cores := by
  simp [Part.bktMismatch]

@[simp] theorem Part.tookRecord_frame (p : Part) (qs : List Packet) (n : Nat) :
    (p.tookRecord qs n).mem = p.mem ∧ (p.tookRecord qs n).cores = p.cores := by
  simp [Part.tookRecord]

@[simp] theorem Part.restoreFail_frame (p : Part) : p.restoreFail.mem = p.mem ∧ p.restoreFail.cores = p.cores := by simp [Part.restoreFail]

@[simp] theorem Part.restoreStart_frame (p : Part) : p.restoreStart.mem = p.mem ∧ p.restoreStart.cores = p.cores := by
  simp [Part.restoreStart]

@[simp] theorem Part.takeState_frame (p : Part) (bs : List Byte) : (p.takeState bs).mem = p.mem ∧ (p.takeState bs).cores = p.cores := by
  simp [Part.takeState]

@[simp] theorem Part.fetchLoop_frame (fuel : Nat) (p : Part) (q : Nat) :
    (Part.fetchLoop fuel p q).mem = p.mem ∧ (Part.fetchLoop fuel p q).cores = p.cores := by
  induction fuel generalizing p with
  | zero => exact ⟨rfl, rfl⟩
  | succ fuel ih =>
    unfold Part.fetchLoop
    dsimp only
    split
    · exact ⟨rfl, rfl⟩
    · simp [ih]

@[simp] theorem Part.fetchQueue_frame (p : Part) (q : Nat) : (p.fetchQueue q).mem = p.mem ∧ (p.fetchQueue q).cores = p.cores := by
  simp [Part.fetchQueue]

@[simp] theorem Part.fetchAll_frame (p : Part) : p.fetchAll.mem = p.mem ∧ p.fetchAll.cores = p.cores := by simp [Part.fetchAll]

@[simp] theorem Part.hostDenied_frame (p : Part) (write : Bool) (a : Nat) :
    (p.hostDenied write a).mem = p.mem ∧ (p.hostDenied write a).cores = p.cores := by
  simp [Part.hostDenied]

@[simp] theorem Part.setTail_frame (p : Part) (q : Nat) (tail : Nat) : (p.setTail q tail).mem = p.mem ∧ (p.setTail q tail).cores = p.cores := by
  simp [Part.setTail]

@[simp] theorem Part.hostStores_frame (p : Part) (l : List HostLine) : (p.hostStores l).mem = p.mem ∧ (p.hostStores l).cores = p.cores := by
  simp [Part.hostStores]

@[simp] theorem Part.settle_frame (p : Part) (q : Nat) : (p.settle q).mem = p.mem ∧ (p.settle q).cores = p.cores := by simp [Part.settle]

@[simp] theorem Part.disableQueue_frame (p : Part) (q : Nat) : (p.disableQueue q).mem = p.mem ∧ (p.disableQueue q).cores = p.cores := by
  simp [Part.disableQueue]

/-- What the command at the front of a queue keeps of the part, when its own work keeps it. -/
theorem Part.runCmd_keeps {β : Type} (get : Part → β) (hend : ∀ p q c s r, get (Part.endCmd p q c s r) = get p)
    {f : Part → HostCmd → Part} (hf : ∀ p c, get (f p c) = get p) (p : Part) (q op : Nat) : get (p.runCmd q op f) = get p := by
  unfold Part.runCmd
  split
  · rfl
  · split
    · exact hend _ _ _ _ _
    · exact hf _ _

/-- What a copy keeps of the part, when moving its lines keeps it. -/
theorem Part.runCopy_keeps {β : Type} (get : Part → β) (hend : ∀ p q c s r, get (Part.endCmd p q c s r) = get p)
    {f : Part → HostCmd → CopySum × Part} (hf : ∀ p c, get (f p c).2 = get p) (p : Part) (q op : Nat) :
    get (p.runCopy q op f) = get p := by
  refine Part.runCmd_keeps get hend (fun p c => ?_) p q op
  split
  · rfl
  · split
    · exact hend _ _ _ _ _
    · exact (hend _ _ _ _ _).trans (hf p c)

@[simp] theorem Part.startCmd_frame (p : Part) (q : Nat) (c : HostCmd) : (p.startCmd q c).mem = p.mem ∧ (p.startCmd q c).cores = p.cores := by
  simp [Part.startCmd]

@[simp] theorem Part.startProbes_frame (p : Part) : p.startProbes.mem = p.mem ∧ p.startProbes.cores = p.cores := by simp [Part.startProbes]

@[simp] theorem Part.stage_frame (p : Part) (l : List Staged) (bytes : Nat) :
    (p.stage l bytes).mem = p.mem ∧ (p.stage l bytes).cores = p.cores := by
  simp [Part.stage]

@[simp] theorem Part.loadPartial_frame (p : Part) (q : Nat) (c : HostCmd) (x : Container) (slot : Nat) (digest : List Byte) :
    (p.loadPartial q c x slot digest).mem = p.mem ∧ (p.loadPartial q c x slot digest).cores = p.cores := by
  unfold Part.loadPartial
  dsimp only
  repeat' split
  all_goals simp

@[simp] theorem Part.resumeTicks_frame (p : Part) : p.resumeTicks.mem = p.mem ∧ p.resumeTicks.cores = p.cores := by simp [Part.resumeTicks]

@[simp] theorem Part.setCrHead_frame (p : Part) (q : Nat) (head : Nat) :
    (p.setCrHead q head).mem = p.mem ∧ (p.setCrHead q head).cores = p.cores := by
  simp [Part.setCrHead]

@[simp] theorem Part.badCommit_frame (p : Part) : p.badCommit.mem = p.mem ∧ p.badCommit.cores = p.cores := by simp [Part.badCommit]

/-- What a function makes of a commit word, given the frame that the word names. -/
def CommitsBy (frame : Part → Nat → Option Nat) (f : Part → Nat → Nat → Part) : Prop := ∀ p c w,
  (frame p (fld w 40 24) = none → f p c w = p.badCommit) ∧
  ∀ n, frame p (fld w 40 24) = some n → f p c w =
    if !p.inOn c || fld w 12 4 != 0 || fld w 0 12 ≥ 2 ^ fld (p.rd (HIF_IN_CFG c)) 8 5 || fld w 32 8 > 254 || fld w 16 16 = 0 ||
        fld w 16 16 > fld (p.rd (HIF_IN_CFG c)) 0 8 * 128 ||
        (p.heldBlocks c).any (fun b => b.slot == fld w 0 12 || (b.frame == n && b.index == fld w 32 8))
    then p.badCommit
    else p.setBlocks c ((p.heldBlocks c) ++
      [HeldBlock.mk (fld w 0 12) n (fld w 32 8) (32 * fld w 16 16) false (p.frameNo > n) (fld (p.rd (HIF_IN_CFG c)) 56 8)])

/-- The frame is made a variable first: the kernel would otherwise evaluate it to compare the two sides. -/
theorem commitsBy_commitWord : CommitsBy Part.wordFrame Part.commitWord := by
  delta Part.commitWord
  generalize Part.wordFrame = frame
  refine id fun p c w => ⟨fun h => ?_, fun n h => ?_⟩
  · simp only [h]
  · simp only [h]

@[simp] theorem Part.commitWord_frame (p : Part) (c w : Nat) :
    (p.commitWord c w).mem = p.mem ∧ (p.commitWord c w).cores = p.cores := by
  obtain ⟨hn, hs⟩ := commitsBy_commitWord p c w
  cases hf : p.wordFrame (fld w 40 24) with
  | none => rw [hn hf]; exact p.badCommit_frame
  | some n =>
    rw [hs n hf]
    split
    · exact p.badCommit_frame
    · exact p.setBlocks_frame c _

@[simp] theorem Part.hostReset_frame (p : Part) (down : Bool) : (p.hostReset down).mem = p.mem ∧ (p.hostReset down).cores = p.cores := by
  simp [Part.hostReset]

@[simp] theorem Part.ignoreAccess_frame (p : Part) : p.ignoreAccess.mem = p.mem ∧ p.ignoreAccess.cores = p.cores := by
  simp [Part.ignoreAccess]

@[simp] theorem Part.writeRwt_frame (p : Part) (off : Nat) (width : Nat) (v : Nat) :
    (p.writeRwt off width v).mem = p.mem ∧ (p.writeRwt off width v).cores = p.cores := by
  simp [Part.writeRwt]

@[simp] theorem Part.writeFabCtrl_frame (p : Part) (v : Nat) : (p.writeFabCtrl v).mem = p.mem ∧ (p.writeFabCtrl v).cores = p.cores := by
  simp [Part.writeFabCtrl]

@[simp] theorem Part.putRw_frame (p : Part) (off : Nat) (r : RegRow) (v : Nat) :
    (p.putRw off r v).mem = p.mem ∧ (p.putRw off r v).cores = p.cores := by
  simp [Part.putRw]

@[simp] theorem Part.testRequest_frame (p : Part) : p.testRequest.mem = p.mem ∧ p.testRequest.cores = p.cores := by simp [Part.testRequest]

@[simp] theorem Part.testCancel_frame (p : Part) : p.testCancel.mem = p.mem ∧ p.testCancel.cores = p.cores := by simp [Part.testCancel]

@[simp] theorem Part.writeTest_frame (p : Part) (v : Nat) : (p.writeTest v).mem = p.mem ∧ (p.writeTest v).cores = p.cores := by
  simp [Part.writeTest]

@[simp] theorem Part.cclkStop_frame (p : Part) : p.cclkStop.mem = p.mem ∧ p.cclkStop.cores = p.cores := by simp [Part.cclkStop]

@[simp] theorem Part.cclkRestart_frame (p : Part) : p.cclkRestart.mem = p.mem ∧ p.cclkRestart.cores = p.cores := by simp [Part.cclkRestart]

@[simp] theorem Part.writePctrl_frame (p : Part) (n : Nat) (v : Nat) : (p.writePctrl n v).mem = p.mem ∧ (p.writePctrl n v).cores = p.cores := by
  simp [Part.writePctrl]

@[simp] theorem Part.writeQcfg_frame (p : Part) (q : Nat) (r : RegRow) (v : Nat) :
    (p.writeQcfg q r v).mem = p.mem ∧ (p.writeQcfg q r v).cores = p.cores := by
  simp [Part.writeQcfg]

@[simp] theorem Part.showPolicy_frame (p : Part) (n : Nv) : (p.showPolicy n).mem = p.mem ∧ (p.showPolicy n).cores = p.cores := by
  simp [Part.showPolicy]

@[simp] theorem Part.showSessions_frame (p : Part) : p.showSessions.mem = p.mem ∧ p.showSessions.cores = p.cores := by
  simp [Part.showSessions]

@[simp] theorem Part.modConn_frame (p : Part) (via : Transport) (f : Spdm → Spdm) :
    (p.modConn via f).mem = p.mem ∧ (p.modConn via f).cores = p.cores := by
  simp [Part.modConn]

@[simp] theorem Part.reply_frame (p : Part) (via : Transport) (bytes : List Byte) :
    (p.reply via bytes).mem = p.mem ∧ (p.reply via bytes).cores = p.cores := by
  simp [Part.reply]

@[simp] theorem Part.respond_frame (p : Part) (m : MgtReq) (cmd : Nat) (code : Nat) (data : List Byte) :
    (p.respond m cmd code data).mem = p.mem ∧ (p.respond m cmd code data).cores = p.cores := by
  simp [Part.respond]

@[simp] theorem Part.ownerGone_frame (p : Part) : p.ownerGone.mem = p.mem ∧ p.ownerGone.cores = p.cores := by simp [Part.ownerGone]

@[simp] theorem Part.loadPackage_frame (p : Part) (bs : List Byte) (c : Container) :
    (p.loadPackage bs c).mem = p.mem ∧ (p.loadPackage bs c).cores = p.cores := by
  simp [Part.loadPackage]

@[simp] theorem Part.spdmReply_frame (p : Part) (via : Transport) (bytes : List Byte) (f : Spdm → Spdm) :
    (p.spdmReply via bytes f).mem = p.mem ∧ (p.spdmReply via bytes f).cores = p.cores := by
  simp [Part.spdmReply]

@[simp] theorem State.spdmDigests_frame (s : State) (via : Transport) :
    (State.spdmDigests s via).mem = s.p.mem ∧ (State.spdmDigests s via).cores = s.p.cores := by
  simp [State.spdmDigests]

@[simp] theorem State.spdmCertificate_frame (s : State) (via : Transport) (r : SpdmReq) :
    (State.spdmCertificate s via r).mem = s.p.mem ∧ (State.spdmCertificate s via r).cores = s.p.cores := by
  simp [State.spdmCertificate]

@[simp] theorem State.spdmChallenge_frame (s : State) (via : Transport) (r : SpdmReq) :
    (State.spdmChallenge s via r).mem = s.p.mem ∧ (State.spdmChallenge s via r).cores = s.p.cores := by
  simp [State.spdmChallenge]

@[simp] theorem State.spdmMeasurements_frame (s : State) (via : Transport) (r : SpdmReq) :
    (State.spdmMeasurements s via r).mem = s.p.mem ∧ (State.spdmMeasurements s via r).cores = s.p.cores := by
  unfold State.spdmMeasurements
  dsimp only
  repeat' split
  all_goals simp

@[simp] theorem State.spdmKeyExchange_frame (s : State) (via : Transport) (r : SpdmReq) :
    (State.spdmKeyExchange s via r).mem = s.p.mem ∧ (State.spdmKeyExchange s via r).cores = s.p.cores := by
  simp [State.spdmKeyExchange]

@[simp] theorem State.spdmFinish_frame (s : State) (via : Transport) (r : SpdmReq) :
    (State.spdmFinish s via r).mem = s.p.mem ∧ (State.spdmFinish s via r).cores = s.p.cores := by
  simp [State.spdmFinish]

@[simp] theorem State.spdmOpen_frame (s : State) (via : Transport) (r : SpdmReq) :
    (State.spdmOpen s via r).mem = s.p.mem ∧ (State.spdmOpen s via r).cores = s.p.cores := by
  unfold State.spdmOpen
  split <;> simp

@[simp] theorem Part.addEnergy_frame (p : Part) (nj : Nat) : (p.addEnergy nj).mem = p.mem ∧ (p.addEnergy nj).cores = p.cores := by
  simp [Part.addEnergy]

@[simp] theorem Part.seeInput_frame (p : Part) (centivolts : Nat) :
    (p.seeInput centivolts).mem = p.mem ∧ (p.seeInput centivolts).cores = p.cores := by
  simp [Part.seeInput]

@[simp] theorem Part.sampleInput_frame (p : Part) (cv : Nat) (ca : Nat) :
    (p.sampleInput cv ca).mem = p.mem ∧ (p.sampleInput cv ca).cores = p.cores := by
  simp [Part.sampleInput]

@[simp] theorem Part.sampleRail_frame (p : Part) (x : Nat × Nat × Nat) : (p.sampleRail x).mem = p.mem ∧ (p.sampleRail x).cores = p.cores := by
  simp [Part.sampleRail]

@[simp] theorem Part.thermalCheck_frame (p : Part) : p.thermalCheck.mem = p.mem ∧ p.thermalCheck.cores = p.cores := by
  simp [Part.thermalCheck]

@[simp] theorem Part.sampleTemps_frame (p : Part) (t : Sample) : (p.sampleTemps t).mem = p.mem ∧ (p.sampleTemps t).cores = p.cores := by
  simp [Part.sampleTemps]

@[simp] theorem Part.seeRails_frame (p : Part) (seen : List Nat) : (p.seeRails seen).mem = p.mem ∧ (p.seeRails seen).cores = p.cores := by
  simp [Part.seeRails]

@[simp] theorem Part.enterStop_frame (p : Part) : p.enterStop.mem = p.mem ∧ p.enterStop.cores = p.cores := by simp [Part.enterStop]

@[simp] theorem Part.putDup_frame (p : Part) (s : Nat) (old : DupCap) (new : Option DupCap) :
    (p.putDup s old new).mem = p.mem ∧ (p.putDup s old new).cores = p.cores := by
  simp [Part.putDup]

@[simp] theorem Part.primaryWrong_frame (p : Part) (s : Nat) (d : DupCap) :
    (p.primaryWrong s d).mem = p.mem ∧ (p.primaryWrong s d).cores = p.cores := by
  simp [Part.primaryWrong]

@[simp] theorem Part.retireSpare_frame (p : Part) (s : Nat) (k : Nat) :
    (p.retireSpare s k).mem = p.mem ∧ (p.retireSpare s k).cores = p.cores := by
  simp [Part.retireSpare]

@[simp] theorem Part.coreFailsTest_frame (p : Part) (c : Nat) : (p.coreFailsTest c).mem = p.mem ∧ (p.coreFailsTest c).cores = p.cores := by
  simp [Part.coreFailsTest]

@[simp] theorem Part.testFinding_frame (p : Part) (n : Nat → Nat) (c : Nat) :
    (p.testFinding n c).mem = p.mem ∧ (p.testFinding n c).cores = p.cores := by
  simp [Part.testFinding]

@[simp] theorem Part.scanRead_frame (p : Part) : p.scanRead.2.mem = p.mem ∧ p.scanRead.2.cores = p.cores := by
  unfold Part.scanRead
  split
  · exact ⟨rfl, rfl⟩
  · exact ⟨rfl, rfl⟩

@[simp] theorem Part.captureCells_frame (p : Part) : p.captureCells.2.mem = p.mem ∧ p.captureCells.2.cores = p.cores := by
  simp [Part.captureCells]

@[simp] theorem Part.pwrErr_frame (p : Part) (i : Nat) (severity : Nat) :
    (p.pwrErr i severity).mem = p.mem ∧ (p.pwrErr i severity).cores = p.cores := by
  simp [Part.pwrErr]

@[simp] theorem Part.supplyHold_frame (p : Part) : p.supplyHold.mem = p.mem ∧ p.supplyHold.cores = p.cores := by simp [Part.supplyHold]

@[simp] theorem Part.supplyRelease_frame (p : Part) : p.supplyRelease.mem = p.mem ∧ p.supplyRelease.cores = p.cores := by
  simp [Part.supplyRelease]

@[simp] theorem Part.repeatHolds_frame (p : Part) (t : Nat) : (p.repeatHolds t).mem = p.mem ∧ (p.repeatHolds t).cores = p.cores := by
  simp [Part.repeatHolds]

end Sys2Proof.Machine
end

section
/-!
SUPPORT. Every operation on memory keeps its canonical form (R293, R297).
-/
namespace Sys2Proof.Machine

@[simp] theorem memory_wf_ite (c : Prop) [Decidable c] (m n : Mem) :
    Memory.wf (if c then m else n) = if c then Memory.wf m else Memory.wf n := by split <;> rfl

/-- The operations on lines and granules, as rules for `simp`. -/
@[simp] theorem Part.memOps_wf {p : Part} (h : Memory.wf p.mem) :
    (∀ a bs, Memory.wf (p.putRaw a bs).mem) ∧ (∀ a bs t, Memory.wf (p.putLine a bs t).mem) ∧
    (∀ a bs t, Memory.wf (p.writeGran a bs t).mem) ∧ (∀ a bs t, Memory.wf (p.putHbm a bs t).mem) ∧
    (∀ k g q a, Memory.wf (p.readLine k g q a).2.mem) ∧ (∀ s n e, Memory.wf (p.putJournal s n e).mem) ∧
    (∀ g q a, Memory.wf (p.journalLine g q a).2.mem) ∧ (∀ g q a bs t, Memory.wf (p.writeLine g q a bs t).mem) ∧
    (∀ g q a bs t, Memory.wf (p.writePart g q a bs t).mem) ∧ (∀ g q a bs t, Memory.wf (p.writeInLine g q a bs t).mem) ∧
    (∀ g q a bs t, Memory.wf (p.store g q a bs t).mem) ∧ (∀ g q a n, Memory.wf (p.load g q a n).2.mem) ∧
    (∀ n g q a l, Memory.wf (Part.storeGrans n p g q a l).mem) ∧ (∀ c g, Memory.wf (p.saveCapture c g).mem) :=
  ⟨fun _ _ => Part.putRaw_wf _ _ h, fun _ _ _ => Part.putLine_wf _ _ _ h, fun _ _ _ => Part.writeGran_wf _ _ _ h,
    fun _ _ _ => Part.putHbm_wf _ _ _ h, fun _ _ _ _ => Part.readLine_wf _ _ _ _ h, fun _ _ _ => Part.putJournal_wf _ _ _ h,
    fun _ _ _ => Part.journalLine_wf _ _ _ h, fun _ _ _ _ _ => Part.writeLine_wf _ _ _ _ _ h,
    fun _ _ _ _ _ => Part.writePart_wf _ _ _ _ _ h, fun _ _ _ _ _ => Part.writeInLine_wf _ _ _ _ _ h,
    fun _ _ _ _ _ => Part.store_wf _ _ _ _ _ h, fun _ _ _ _ => Part.load_wf _ _ _ _ h,
    fun _ _ _ _ _ => Part.storeGrans_wf _ _ _ _ _ h, fun _ _ => Part.saveCapture_wf _ _ h⟩

/-- A fold keeps the canonical form when each of its changes does. -/
@[simp] theorem Part.each_wf {α : Type} {f : Part → α → Part} (hf : ∀ p x, Memory.wf p.mem → Memory.wf (f p x).mem) (l : List α) {p : Part}
    (h : Memory.wf p.mem) : Memory.wf (p.each l f).mem := by
  induction l generalizing p with
  | nil => exact h
  | cons x r ih => exact ih (hf p x h)

/-- A fold that carries the part beside what it gathers keeps the canonical form when each of its changes does. -/
@[simp] theorem foldl_snd_wf {α β : Type} {f : β × Part → α → β × Part}
    (hf : ∀ q x, Memory.wf q.2.mem → Memory.wf (f q x).2.mem) (l : List α)
    {q : β × Part} (h : Memory.wf q.2.mem) : Memory.wf (l.foldl f q).2.mem := by
  induction l generalizing q with
  | nil => exact h
  | cons x r ih => exact ih (hf q x h)

/-- A fold that carries the part before what it gathers keeps the canonical form when each of its changes does. -/
@[simp] theorem foldl_fst_wf {α β : Type} {f : Part × β → α → Part × β}
    (hf : ∀ q x, Memory.wf q.1.mem → Memory.wf (f q x).1.mem) (l : List α)
    {q : Part × β} (h : Memory.wf q.1.mem) : Memory.wf (l.foldl f q).1.mem := by
  induction l generalizing q with
  | nil => exact h
  | cons x r ih => exact ih (hf q x h)

@[simp] theorem Part.readPiece_wf {p : Part} (agent : Nat) (pair : Nat) (a : Nat) (n : Nat) (hw : Memory.wf p.mem) :
    Memory.wf (p.readPiece agent pair a n).2.mem := by
  unfold Part.readPiece
  split <;> simp [hw]

@[simp] theorem Part.loadLoop_wf {p : Part} (fuel : Nat) (agent : Nat) (pair : Nat) (a : Nat) (len : Nat) (hw : Memory.wf p.mem) :
    Memory.wf (Part.loadLoop fuel p agent pair a len).2.mem := by
  induction fuel generalizing p a len with
  | zero => exact hw
  | succ fuel ih =>
    unfold Part.loadLoop
    split
    · exact hw
    · exact ih _ _ (Part.readPiece_wf _ _ _ _ hw)

@[simp] theorem Part.readMap_wf {p : Part} (tmap : Nat) (hw : Memory.wf p.mem) : Memory.wf (p.readMap tmap).2.mem := by
  simp [Part.readMap, hw]

@[simp] theorem Part.copyMaps_wf {p : Part} (ts : List Nat) (hw : Memory.wf p.mem) : Memory.wf (p.copyMaps ts).mem := by
  simp +contextual [Part.copyMaps, hw]

@[simp] theorem Part.withStaged_wf {p : Part} (full : Bool) (l : List Staged) (hw : Memory.wf p.mem) : Memory.wf (p.withStaged full l).mem := by
  simp [Part.withStaged, hw]

@[simp] theorem Part.unwindSector_wf {p : Part} (s : Nat) (hw : Memory.wf p.mem) : Memory.wf (p.unwindSector s).mem := by
  simp +contextual [Part.unwindSector, hw]

@[simp] theorem Part.replayTick_wf {p : Part} (hw : Memory.wf p.mem) : Memory.wf p.replayTick.mem := by
  simp +contextual [Part.replayTick, hw]

@[simp] theorem Part.loadN_wf {p : Part} (agent : Nat) (pair : Nat) (a : Nat) (k : Nat) (hw : Memory.wf p.mem) :
    Memory.wf (p.loadN agent pair a k).2.mem := by
  simp [Part.loadN, hw]

@[simp] theorem Part.outboxCommit_wf {p : Part} (o : Nat) (hw : Memory.wf p.mem) : Memory.wf (p.outboxCommit o).mem := by
  simp [Part.outboxCommit, hw]

@[simp] theorem Part.commitTick_wf {p : Part} (ends : Bool) (hw : Memory.wf p.mem) : Memory.wf (p.commitTick ends).mem := by
  simp +contextual [Part.commitTick, hw]

@[simp] theorem Part.storeLoop_wf {p : Part} (fuel : Nat) (agent : Nat) (pair : Nat) (a : Nat) (bs : List Byte) (poison : Option Nat)
    (hw : Memory.wf p.mem) : Memory.wf (Part.storeLoop fuel p agent pair a bs poison).mem := by
  induction fuel generalizing p a bs with
  | zero => exact hw
  | succ fuel ih =>
    unfold Part.storeLoop
    split
    · exact hw
    · refine ih _ _ ?_
      split <;> simp [hw]

@[simp] theorem Part.spadStore_wf {p : Part} (c : Nat) (a : Nat) (bs : List Byte) (hw : Memory.wf p.mem) :
    Memory.wf (p.spadStore c a bs).mem := by
  simp [Part.spadStore, hw]

@[simp] theorem Part.putImage_wf {p : Part} (x : Staged) (hw : Memory.wf p.mem) : Memory.wf (p.putImage x).mem := by
  unfold Part.putImage
  repeat' split
  all_goals simp +contextual [hw]

@[simp] theorem Part.zeroLines_wf {p : Part} (a : Nat) (n : Nat) (hw : Memory.wf p.mem) : Memory.wf (p.zeroLines a n).mem := by
  simp +contextual [Part.zeroLines, hw]

@[simp] theorem Part.tableChanged_wf {p : Part} (full : Bool) (t : Nat) (hw : Memory.wf p.mem) : Memory.wf (p.tableChanged full t).mem := by
  simp [Part.tableChanged, hw]

@[simp] theorem Part.readMembers_wf {p : Part} (hw : Memory.wf p.mem) : Memory.wf p.readMembers.2.mem := by
  simp [Part.readMembers, hw]

@[simp] theorem Part.copyMembers_wf {p : Part} (hw : Memory.wf p.mem) : Memory.wf p.copyMembers.mem := by
  unfold Part.copyMembers
  dsimp only
  repeat' split
  all_goals simp [hw]

@[simp] theorem Part.applyStaged_wf {p : Part} (full : Bool) (l : List Staged) (gs : List GraftId) (unsigned : Bool) (hw : Memory.wf p.mem) :
    Memory.wf (p.applyStaged full l gs unsigned).mem := by
  unfold Part.applyStaged
  extract_lets old p1 changed p2 p3 p4 spans p5 p6 p7 p8 p9 p10
  have h1 : Memory.wf p1.mem :=
    Part.each_wf (fun _ _ h => Part.putImage_wf _ h) l (Part.withStaged_wf full l hw)
  have h2 : Memory.wf p2.mem := Part.each_wf (fun _ _ h => Part.tableChanged_wf full _ h) changed h1
  have h4 : Memory.wf p4.mem := by simp [p4, p3, h2]
  have h7 : Memory.wf p7.mem := by simp [p7, p6, p5, h4]
  have h9 : Memory.wf p9.mem := by simp [p9, p8, h7]
  simp [p10, h9]

@[simp] theorem Part.applyTxn_wf {p : Part} (hw : Memory.wf p.mem) : Memory.wf p.applyTxn.mem := by
  simp [Part.applyTxn, hw]

@[simp] theorem Part.clearSpads_wf {p : Part} (hw : Memory.wf p.mem) : Memory.wf p.clearSpads.mem := by
  exact memWf_clear _ hw

@[simp] theorem Part.beginWork_wf {p : Part} (hw : Memory.wf p.mem) : Memory.wf p.beginWork.mem := by
  simp [Part.beginWork, hw]

@[simp] theorem Part.outboxAck_wf {p : Part} (o : Nat) (hw : Memory.wf p.mem) : Memory.wf (p.outboxAck o).mem := by
  simp [Part.outboxAck, hw]

@[simp] theorem Part.applyTick_wf {p : Part} (t : TokenMsg) (hw : Memory.wf p.mem) : Memory.wf (p.applyTick t).mem := by
  unfold Part.applyTick
  extract_lets ends wrong p1 p2 p3 p4 p5 p6 p7 p8 p9 p10
  have h2 : Memory.wf p2.mem := by
    dsimp only [p2]
    split <;> simp [p1, hw]
  have h4 : Memory.wf p4.mem := by simp [p4, p3, h2]
  have h5 : Memory.wf p5.mem := by
    dsimp only [p5]
    split <;> simp [h4]
  have h7 : Memory.wf p7.mem := by
    dsimp only [p7]
    split <;> simp [p6, h5]
  have h8 : Memory.wf p8.mem := Part.each_wf (fun _ _ h => Part.outboxAck_wf _ h) _ h7
  simp [p10, p9, h8]

@[simp] theorem Part.receiveToken_wf {p : Part} (t : TokenMsg) (at' : Nat) (hw : Memory.wf p.mem) : Memory.wf (p.receiveToken t at').mem := by
  simp [Part.receiveToken, hw]

@[simp] theorem Part.sendToken_wf {p : Part} (hw : Memory.wf p.mem) : Memory.wf p.sendToken.mem := by
  simp [Part.sendToken, hw]

@[simp] theorem Part.fallback_wf {p : Part} (k : Token) (hw : Memory.wf p.mem) : Memory.wf (p.fallback k).mem := by
  simp [Part.fallback, hw]

@[simp] theorem Part.applyWrites_wf {p : Part} (c : Nat) (ws : List SpWrite) (hw : Memory.wf p.mem) : Memory.wf (p.applyWrites c ws).mem := by
  simp +contextual [Part.applyWrites, hw]

@[simp] theorem Part.discardAfter_wf {p : Part} (c : Nat) (seq : Nat) (hw : Memory.wf p.mem) : Memory.wf (p.discardAfter c seq).mem := by
  unfold Part.discardAfter
  dsimp only
  repeat' split
  all_goals simp [hw]

@[simp] theorem Part.fault_wf {p : Part} (c : Nat) (code : Nat) (pc : Nat) (seq : Nat) (pair : Nat) (hw : Memory.wf p.mem) :
    Memory.wf (p.fault c code pc seq pair).mem := by
  simp [Part.fault, hw]

@[simp] theorem Part.faultNow_wf {p : Part} (c : Nat) (code : Nat) (hw : Memory.wf p.mem) : Memory.wf (p.faultNow c code).mem := by
  simp [Part.faultNow, hw]

@[simp] theorem Part.issue_wf {p : Part} (c : Nat) (regs : List Nat) {body : Part → Part}
    (hb : ∀ q, Memory.wf q.mem → Memory.wf (body q).mem) (hw : Memory.wf p.mem) : Memory.wf (p.issue c regs body).mem := by
  unfold Part.issue
  split
  · exact hw
  split
  · simp [hw]
  split
  · exact hw
  · exact hb _ (by simpa using hw)

@[simp] theorem Part.alu_wf {p : Part} (c : Nat) (f : FmtA) (op : Word → Word → Word) (hw : Memory.wf p.mem) : Memory.wf (p.alu c f op).mem := by
  exact Part.issue_wf c _ (fun q h => by simpa using h) hw

@[simp] theorem Part.issueIrr_wf {p : Part} (c : Nat) (f : IrrF) (load : Bool) (hw : Memory.wf p.mem) : Memory.wf (p.issueIrr c f load).mem := by
  refine Part.issue_wf c _ (fun q h => ?_) hw
  dsimp only
  repeat' split
  all_goals simp [h]

@[simp] theorem Part.delayPut_wf {p : Part} (s : Nat) (q : Nat) (bytes : List Byte) (hw : Memory.wf p.mem) :
    Memory.wf (p.delayPut s q bytes).mem := by
  simp [Part.delayPut, hw]

@[simp] theorem Part.enterDelay_wf {p : Part} (s : Nat) (q : Nat) (bytes : List Byte) (hw : Memory.wf p.mem) :
    Memory.wf (p.enterDelay s q bytes).mem := by
  simp [Part.enterDelay, hw]

@[simp] theorem Part.submitLocal_wf {p : Part} (src : SubSrc) (name : Nat) (pair : Nat) (bytes : List Byte) (atOnce : Bool) (hw : Memory.wf p.mem) :
    Memory.wf (p.submitLocal src name pair bytes atOnce).mem := by
  simp [Part.submitLocal, hw]

@[simp] theorem Part.retireVector_wf {p : Part} (c : Nat) (v : VRun) (hw : Memory.wf p.mem) : Memory.wf (p.retireVector c v).mem := by
  simp [Part.retireVector, hw]

@[simp] theorem Part.startStream_wf {p : Part} (c : Nat) (o : StreamOp) (steps : List UStep) (up : Option Upset) (hw : Memory.wf p.mem) :
    Memory.wf (p.startStream c o steps up).mem := by
  simp [Part.startStream, hw]

@[simp] theorem Part.ldgValue_wf {p : Part} (c : Nat) (i : IrrOp) (hw : Memory.wf p.mem) : Memory.wf (p.ldgValue c i).2.mem := by
  unfold Part.ldgValue
  dsimp only
  repeat' split
  all_goals simp [hw]

@[simp] theorem Part.preloadEntry_wf {p : Part} (s : Nat) (base : Nat) (i : Nat) (hw : Memory.wf p.mem) :
    Memory.wf (p.preloadEntry s base i).mem := by
  unfold Part.preloadEntry
  dsimp only
  repeat' split
  all_goals simp [hw]

@[simp] theorem Part.preloadHost_wf {p : Part} (s : Nat) (a : Accepted) (hw : Memory.wf p.mem) : Memory.wf (p.preloadHost s a).mem := by
  simp [Part.preloadHost, hw]

@[simp] theorem Part.arrive_wf {p : Part} (s : Nat) (u : Sub) (hw : Memory.wf p.mem) : Memory.wf (p.arrive s u).mem := by
  simp [Part.arrive, hw]

@[simp] theorem Part.forward_wf {p : Part} (s : Nat) (d : Completion) (hw : Memory.wf p.mem) : Memory.wf (p.forward s d).mem := by
  simp [Part.forward, hw]

@[simp] theorem Part.loadList_wf {p : Part} (agent : Nat) (pair : Nat) (a : Nat) (n : Nat) (hw : Memory.wf p.mem) :
    Memory.wf (p.loadList agent pair a n).2.mem := by
  simp [Part.loadList, hw]

@[simp] theorem Part.unitStore_wf {p : Part} (agent : Nat) (pair : Nat) (a : Nat) (bs : List Byte) (poison : Option Nat) (hw : Memory.wf p.mem) :
    Memory.wf (p.unitStore agent pair a bs poison).mem := by
  simp [Part.unitStore, hw]

@[simp] theorem Part.keepSet_wf {p : Part} (s : Nat) (q : Ureq) (front : List Nat) (hw : Memory.wf p.mem) :
    Memory.wf (p.keepSet s q front).mem := by
  simp [Part.keepSet, hw]

@[simp] theorem Part.selectEdges_wf {p : Part} (pair : Nat) (g : Graph) (m : Nat) (f : Nat) (d : Nat) (first : Nat) (tmax : Nat)
    (draw : Nat → Nat) (hw : Memory.wf p.mem) : Memory.wf (p.selectEdges pair g m f d first tmax draw).2.mem := by
  unfold Part.selectEdges
  split <;> simp [hw]

@[simp] theorem Part.sampleVertex_wf {p : Part} (pair : Nat) (g : Graph) (m : Nat) (f : Nat) (tmax : Nat) (draw : Nat → Nat) (v : Nat)
    (hw : Memory.wf p.mem) : Memory.wf (p.sampleVertex pair g m f tmax draw v).2.mem := by
  unfold Part.sampleVertex
  dsimp only
  split
  · exact hw
  have h1 := Part.load_wf 2 pair (g.vidx + 8 * v) 16 hw
  split
  · exact h1
  split
  · exact h1
  have h2 := Part.selectEdges_wf pair g m f (leAt (p.load 2 pair (g.vidx + 8 * v) 16).1.1 8 5 - leAt (p.load 2 pair (g.vidx + 8 * v) 16).1.1 0 5)
    (leAt (p.load 2 pair (g.vidx + 8 * v) 16).1.1 0 5) tmax draw h1
  split
  · exact h2
  · refine foldl_snd_wf (q := (_, _)) (fun q i h => ?_) _ h2
    simp [h]

@[simp] theorem Part.sampleHop_wf {p : Part} (pair : Nat) (g : Graph) (m : Nat) (f : Nat) (tmax : Nat) (draw : Nat → Nat → Nat)
    (front : List Nat) (hw : Memory.wf p.mem) : Memory.wf (p.sampleHop pair g m f tmax draw front).2.mem := by
  induction front generalizing p with
  | nil => exact hw
  | cons v r ih =>
    have h1 := Part.sampleVertex_wf pair g m f tmax (draw v) v hw
    unfold Part.sampleHop
    dsimp only
    split
    · exact h1
    · exact ih h1

theorem sampleStep_wf (s : Nat) (q : Ureq) (g : Graph) {r : SampleRun} (h : Nat) (hw : Memory.wf r.part.mem) :
    Memory.wf (sampleStep s q g r h).part.mem := by
  unfold sampleStep
  split
  · exact hw
  · extract_lets d p mode f draw
    have hx := Part.sampleHop_wf q.pair g mode f (leAt d 56 4) draw r.front (p := p) hw
    split
    next xs p1 he =>
    rw [he] at hx
    extract_lets p2 bad p3 p4 r1
    have h4 : Memory.wf p4.mem := by simp [p4, p3, p2, hx]
    split
    · exact h4
    · rename_i nbrs new front p5 r2 block p6 p7 p8 _ _
      have h5 : Memory.wf p5.mem := by simp [p5, r1, h4]
      split
      · exact h5
      · simp [p8, p7, p6, r2, h5]

theorem foldl_sampleStep_wf (s : Nat) (q : Ureq) (g : Graph) (l : List Nat) {r : SampleRun} (hw : Memory.wf r.part.mem) :
    Memory.wf (l.foldl (fun r h => sampleStep s q g r (h + 1)) r).part.mem := by
  induction l generalizing r with
  | nil => exact hw
  | cons h l ih => exact ih (sampleStep_wf s q g (h + 1) hw)

@[simp] theorem Part.runSample_wf {p : Part} (s : Nat) (q : Ureq) (hw : Memory.wf p.mem) : Memory.wf (p.runSample s q).2.mem := by
  unfold Part.runSample
  extract_lets d g q1
  have h1 := Part.loadList_wf 2 q1.pair (addrAt d 16) (leAt d 12 4) hw
  split
  next seeds t p1 he =>
  rw [he] at h1
  split
  · simp [h1]
  · extract_lets f0 p2 p3 r p4 p5
    have h2 : Memory.wf p2.mem := by simp [p2, h1]
    split
    · simp [h2]
    · have hr : Memory.wf r.part.mem := foldl_sampleStep_wf s q1 g _ (by simp [p3, h2])
      have h4 : Memory.wf p4.mem := by dsimp only [p4]; split <;> simp [hr]
      simp [p5, h4]

@[simp] theorem Part.startGather_wf {p : Part} (s : Nat) (q : Ureq) (hw : Memory.wf p.mem) : Memory.wf (p.startGather s q).2.mem := by
  unfold Part.startGather
  dsimp only
  repeat' split
  all_goals simp [hw]

@[simp] theorem Part.loadGrans_wf {p : Part} (agent : Nat) (pair : Nat) (a : Nat) (len : Nat) (hw : Memory.wf p.mem) :
    Memory.wf (p.loadGrans agent pair a len).2.mem := by
  simp [Part.loadGrans, hw]

@[simp] theorem Part.readTileAt_wf {p : Part} (pair : Nat) (a : Nat) (dense : Bool) (hw : Memory.wf p.mem) :
    Memory.wf (p.readTileAt pair a dense).2.mem := by
  unfold Part.readTileAt
  dsimp only
  repeat' split
  all_goals simp [hw]

@[simp] theorem Part.readTiles_wf {p : Part} (pair : Nat) (a : Nat) (pitch : Nat) (n : Nat) (dense : Bool) (hw : Memory.wf p.mem) :
    Memory.wf (p.readTiles pair a pitch n dense).2.mem := by
  simp +contextual [Part.readTiles, hw]

@[simp] theorem Part.putRow_wf {p : Part} (pair : Nat) (a : Nat) (gs : List (List Byte × Option Nat)) (hw : Memory.wf p.mem) :
    Memory.wf (p.putRow pair a gs).mem := by
  exact foldl_fst_wf (fun q g h => by simp [h]) _ hw

@[simp] theorem Part.putTiles_wf {p : Part} (s : Nat) (q : Ureq) (tiles : List TileRead) (hw : Memory.wf p.mem) :
    Memory.wf (p.putTiles s q tiles).2.mem := by
  refine foldl_snd_wf (fun q x h => ?_) _ hw
  dsimp only
  repeat' split
  all_goals simp +contextual [h]

@[simp] theorem Part.storeTile_wf {p : Part} (s : Nat) (q : Ureq) (form : Nat) (f : Fmt) (rows : Nat) (t : Nat) (hw : Memory.wf p.mem) :
    Memory.wf (p.storeTile s q form f rows t).2.mem := by
  unfold Part.storeTile
  extract_lets d w src dst
  split
  next got p1 he =>
  have h1 : Memory.wf p1.mem := by
    rw [show p1 = (got, p1).2 from rfl, ← he]
    refine foldl_snd_wf (q := (_, _)) (fun q i h => ?_) _ hw
    exact Part.load_wf _ _ _ _ h
  split
  · simp [h1]
  · simp [h1]

@[simp] theorem Part.pressAccept_wf {p : Part} (s : Nat) (T : Tbl) (key : Nat) (slot : Nat) (pair : Nat) (vals : List Nat)
    (poison : Option Nat) (hw : Memory.wf p.mem) : Memory.wf (p.pressAccept s T key slot pair vals poison).mem := by
  simp [Part.pressAccept, hw]

@[simp] theorem Part.scatterRows_wf {p : Part} (s : Nat) (q : Ureq) (T : Tbl) (f : Fmt) (slot : Nat) (keys : List Nat) (hw : Memory.wf p.mem) :
    Memory.wf (p.scatterRows s q T f slot keys).2.mem := by
  refine foldl_snd_wf (fun q x h => ?_) _ hw
  dsimp only
  split <;> simp [h]

@[simp] theorem Part.startLookup_wf {p : Part} (s : Nat) (q : Ureq) (hw : Memory.wf p.mem) : Memory.wf (p.startLookup s q).2.mem := by
  have h0 : Memory.wf (p.tableCheck s q).2.mem := by simpa using hw
  have h1 := Part.loadList_wf 4 q.pair (addrAt q.desc 24) (lBags q.desc + 1) h0
  have h2 := Part.loadList_wf 4 q.pair (addrAt q.desc 16) (lCount q.desc) h1
  have h3 := Part.loadList_wf 4 q.pair (addrAt q.desc 32) (lCount q.desc) h2
  unfold Part.startLookup
  dsimp only
  repeat' split
  all_goals simp [hw, h1, h2, h3]

@[simp] theorem Part.defaultRow_wf {p : Part} (agent : Nat) (pair : Nat) (T : Tbl) (hw : Memory.wf p.mem) :
    Memory.wf (p.defaultRow agent pair T).2.mem := by
  simp [Part.defaultRow, hw]

@[simp] theorem Part.tierRow_wf {p : Part} (agent : Nat) (pair : Nat) (T : Tbl) (r : Nat) (hw : Memory.wf p.mem) :
    Memory.wf (p.tierRow agent pair T r).2.mem := by
  unfold Part.tierRow
  split <;> simp [hw]

@[simp] theorem Part.readScaled_wf {p : Part} (agent : Nat) (pair : Nat) (T : Tbl) (rowAt : Nat) (scaleAt : Nat) (hw : Memory.wf p.mem) :
    Memory.wf (p.readScaled agent pair T rowAt scaleAt).2.mem := by
  simp [Part.readScaled, hw]

@[simp] theorem Part.readRow_wf {p : Part} (s : Nat) (agent : Nat) (pair : Nat) (T : Tbl) (c : Nat) (r : Nat) (hw : Memory.wf p.mem) :
    Memory.wf (p.readRow s agent pair T c r).2.mem := by
  have h0 := Part.tierRow_wf agent pair T r hw
  unfold Part.readRow
  dsimp only
  split
  · exact h0
  split
  · exact Part.load_wf _ _ _ _ h0
  · exact Part.readScaled_wf _ _ _ _ _ h0
  · exact Part.readScaled_wf _ _ _ _ _ (Part.readScaled_wf _ _ _ _ _ h0)
  · split <;> simp [h0]

@[simp] theorem Part.putRows_wf {p : Part} (s : Nat) (r : RunReq) (T : Tbl) (f : RowFetch) (row : RowRead) (hw : Memory.wf p.mem) :
    Memory.wf (p.putRows s r T f row).mem := by
  simp +contextual [Part.putRows, hw]

theorem Part.takeRow_wf {p q : Part} {s agent pair : Nat} {T : Tbl} {noCache : Bool} {f : RowFetch} {row : RowRead}
    (h : p.takeRow s agent pair T noCache f = some (row, q)) (hw : Memory.wf p.mem) : Memory.wf q.mem := by
  unfold Part.takeRow at h
  split at h
  · cases h; exact hw
  split at h
  · cases h
  split at h
  · rw [Option.some.injEq] at h; rw [show q = (p.defaultRow agent pair T).2 from (congrArg Prod.snd h).symm]; simp [hw]
  split at h
  · split at h
    · cases h
    · rw [Option.some.injEq, Prod.mk.injEq] at h; rw [← h.2]; simp [hw]
  · rw [Option.some.injEq, Prod.mk.injEq] at h; rw [← h.2]; simp [hw]

@[simp] theorem Part.arriveRow_wf {p : Part} (s : Nat) (r : RunReq) (i : Nat) (f : RowFetch) (hw : Memory.wf p.mem) :
    Memory.wf (p.arriveRow s r i f).mem := by
  unfold Part.arriveRow
  extract_lets T look noCache
  split
  · exact hw
  next row q hq =>
    have h0 : Memory.wf q.mem := Part.takeRow_wf hq hw
    extract_lets q1 kind f' q2 q3 q4
    have h1 : Memory.wf q1.mem := by dsimp only [q1]; split <;> simp [h0]
    have h3 : Memory.wf q3.mem := by dsimp only [q3]; split <;> simp [q2, h1]
    split <;> simp [q4, h3]

@[simp] theorem Part.fetchRow_wf {p : Part} (s : Nat) (agent : Nat) (pair : Nat) (T : Tbl) (key : Nat) (r : Nat) (noCache : Bool)
    (hw : Memory.wf p.mem) : Memory.wf (p.fetchRow s agent pair T key r noCache).2.mem := by
  unfold Part.fetchRow
  dsimp only
  repeat' split
  all_goals simp [hw]

@[simp] theorem Part.serveRow_wf {p : Part} (pair : Nat) (T : Tbl) (noCache : Bool) (key : Nat) (hw : Memory.wf p.mem) :
    Memory.wf (p.serveRow pair T noCache key).2.mem := by
  unfold Part.serveRow
  dsimp only
  repeat' split
  all_goals simp [hw]

@[simp] theorem Part.serveAhead_wf {p : Part} (q : Packet) (pair : Nat) (T : Tbl) (key : Nat) (hw : Memory.wf p.mem) :
    Memory.wf (p.serveAhead q pair T key).mem := by
  simp [Part.serveAhead, hw]

@[simp] theorem Part.serveRows_wf {p : Part} (pair : Nat) (T : Tbl) (noCache : Bool) (keys : List Nat) (hw : Memory.wf p.mem) :
    Memory.wf (p.serveRows pair T noCache keys).2.mem := by
  induction keys generalizing p with
  | nil => exact hw
  | cons k r ih => exact ih (Part.serveRow_wf _ _ _ _ hw)

@[simp] theorem Part.serveRequest_wf {p : Part} (q : Packet) (hw : Memory.wf p.mem) : Memory.wf (p.serveRequest q).mem := by
  simp [Part.serveRequest, hw]

@[simp] theorem Part.aheadKey_wf {p : Part} (s : Nat) (T : Tbl) (pair : Nat) (key : Nat) (hw : Memory.wf p.mem) :
    Memory.wf (p.aheadKey s T pair key).mem := by
  simp [Part.aheadKey, hw]

@[simp] theorem Part.poolOut_wf {p : Part} (s : Nat) (r : RunReq) (b : Nat) (lo : Nat) (hi : Nat) (hw : Memory.wf p.mem) :
    Memory.wf (p.poolOut s r b lo hi).mem := by
  unfold Part.poolOut
  dsimp only
  repeat' split
  all_goals simp [hw]

@[simp] theorem Part.poolAll_wf {p : Part} (s : Nat) (r : RunReq) (hw : Memory.wf p.mem) : Memory.wf (p.poolAll s r).mem := by
  simp +contextual [Part.poolAll, hw]

@[simp] theorem Part.finishReq_wf {p : Part} (s : Nat) (r : RunReq) (hw : Memory.wf p.mem) : Memory.wf (p.finishReq s r).2.mem := by
  unfold Part.finishReq
  split <;> simp [hw]

@[simp] theorem Part.bitPlaces_wf {p : Part} (T : Tbl) (i : Nat) (hw : Memory.wf p.mem) : Memory.wf (p.bitPlaces T i).2.mem := by
  unfold Part.bitPlaces
  dsimp only
  repeat' split
  all_goals simp [hw]

@[simp] theorem Part.bitmapPut_wf {p : Part} (pair : Nat) (T : Tbl) (b : Nat) (i : Nat) (v : Bool) (hw : Memory.wf p.mem) :
    Memory.wf (p.bitmapPut pair T b i v).mem := by
  simp [Part.bitmapPut, hw]

@[simp] theorem Part.levelRow_wf {p : Part} (s : Nat) (T : Tbl) (i : Nat) (hw : Memory.wf p.mem) : Memory.wf (p.levelRow s T i).mem := by
  have hb := Part.bitPlaces_wf T i hw
  unfold Part.levelRow
  split
  next q he => rw [he] at hb; exact hb
  next places q he =>
    rw [he] at hb
    extract_lets p1 p2
    have h1 : Memory.wf p1.mem := Part.each_wf (fun p x h => by simp [h]) places hb
    split <;> simp [p2, h1]

@[simp] theorem Part.stagedRow_wf {p : Part} (s : Nat) (dim : Nat) (slot : Nat) (hw : Memory.wf p.mem) :
    Memory.wf (p.stagedRow s dim slot).2.mem := by
  simp [Part.stagedRow, hw]

@[simp] theorem Part.stagedRows_wf {p : Part} (s : Nat) (dim : Nat) (slots : List Nat) (hw : Memory.wf p.mem) :
    Memory.wf (p.stagedRows s dim slots).2.mem := by
  simp +contextual [Part.stagedRows, hw]

@[simp] theorem Part.logRecord_wf {p : Part} (s : Nat) (pair : Nat) (bs : List Byte) (hw : Memory.wf p.mem) :
    Memory.wf (p.logRecord s pair bs).mem := by
  simp [Part.logRecord, hw]

@[simp] theorem Part.ownRecord_wf {p : Part} (s : Nat) (c : Contribution) (hw : Memory.wf p.mem) : Memory.wf (p.ownRecord s c).mem := by
  simp [Part.ownRecord, hw]

@[simp] theorem Part.sendContrib_wf {p : Part} (s : Nat) (owner : Nat) (c : Contribution) (hw : Memory.wf p.mem) :
    Memory.wf (p.sendContrib s owner c).mem := by
  simp [Part.sendContrib, hw]

@[simp] theorem Part.mergeKey_wf {p : Part} (s : Nat) (recs : List Nat) (hw : Memory.wf p.mem) : Memory.wf (p.mergeKey s recs).mem := by
  unfold Part.mergeKey
  dsimp only
  repeat' split
  all_goals simp [hw]

@[simp] theorem Part.spill_wf {p : Part} (s : Nat) (recs : List (List Byte)) (hw : Memory.wf p.mem) : Memory.wf (p.spill s recs).2.mem := by
  unfold Part.spill
  dsimp only
  repeat' split
  all_goals simp +contextual [hw]

@[simp] theorem Part.composeRecord_wf {p : Part} (s : Nat) (c : Composed) (hw : Memory.wf p.mem) : Memory.wf (p.composeRecord s c).mem := by
  simp [Part.composeRecord, hw]

@[simp] theorem Part.routeRow_wf {p : Part} (s : Nat) (j : RowJob) (hw : Memory.wf p.mem) : Memory.wf (p.routeRow s j).mem := by
  have h0 := Part.tierRow_wf 5 j.pair (p.tbl j.table) j.x hw
  unfold Part.routeRow
  dsimp only
  split
  · simp [h0]
  · split <;> simp [h0]

@[simp] theorem Part.ownerRow_wf {p : Part} (s : Nat) (cs : List Contribution) (hw : Memory.wf p.mem) : Memory.wf (p.ownerRow s cs).mem := by
  unfold Part.ownerRow
  dsimp only
  repeat' split
  all_goals simp [hw]

@[simp] theorem Part.masterIndex_wf {p : Part} (pair : Nat) (T : Tbl) (kind : Nat) (x : Nat) (hw : Memory.wf p.mem) :
    Memory.wf (p.masterIndex pair T kind x).2.mem := by
  unfold Part.masterIndex
  dsimp only
  repeat' split
  all_goals simp [hw]

@[simp] theorem Part.gradRow_wf {p : Part} (s : Nat) (j : RowJob) (hw : Memory.wf p.mem) : Memory.wf (p.gradRow s j).mem := by
  unfold Part.gradRow
  dsimp only
  repeat' split
  all_goals simp [hw]

@[simp] theorem Part.optUpdate_wf {p : Part} (s : Nat) (prog : Nat) (pair : Nat) (pl : OptPlace) (g : List Nat) (upset : Option Upset)
    (hw : Memory.wf p.mem) : Memory.wf (p.optUpdate s prog pair pl g upset).2.mem := by
  unfold Part.optUpdate
  extract_lets o rd
  have hrd : ∀ (p : Part) (use : Bool) (a : Nat), Memory.wf p.mem → Memory.wf (rd p use a).2.mem := fun p use a h => by
    dsimp only [rd]
    split <;> simp [h]
  have h3 := hrd _ o.v2 pl.mom2 (hrd _ o.v1 pl.mom1 (hrd p true pl.master hw))
  have h4 := fun bs => Part.store_wf 6 pair pl.master bs none h3
  dsimp only at h3 h4 ⊢
  split
  · exact h3
  · split <;> split <;> simp [h4]

@[simp] theorem Part.markRow_wf {p : Part} (pair : Nat) (T : Tbl) (i : Nat) (hw : Memory.wf p.mem) : Memory.wf (p.markRow pair T i).mem := by
  simp [Part.markRow, hw]

@[simp] theorem Part.workingCopy_wf {p : Part} (s : Nat) (u : Nat) (pair : Nat) (T : Tbl) (kind : Nat) (x : Nat) (mi : Nat)
    (ms : List Nat) (hw : Memory.wf p.mem) : Memory.wf (p.workingCopy s u pair T kind x mi ms).mem := by
  unfold Part.workingCopy
  extract_lets mode keep lane next put scaled
  have hp : ∀ (p : Part) (a : Nat) (bs : List Byte), Memory.wf p.mem → Memory.wf (put p a bs).mem := fun p a bs h => by simp [put, h]
  have hs : ∀ (p : Part) (a b c : Nat), Memory.wf p.mem → Memory.wf (scaled p a b c).mem := fun p a b c h => by
    dsimp only [scaled]
    refine Part.markRow_wf _ _ _ (hp _ _ _ (hp _ _ _ ?_))
    split
    · simp [h]
    · split <;> simp [h]
  split
  · have h0 := Part.tierRow_wf 6 pair T x hw
    dsimp only
    split
    · exact Part.markRow_wf _ _ _ (hp _ _ _ (by simpa using h0))
    · exact hs _ _ _ _ h0
    · simpa using h0
  · exact hs _ _ _ _ hw
  · exact hs _ _ _ _ hw

@[simp] theorem Part.rowJob_wf {p : Part} (s : Nat) (u : Nat) (T : Tbl) (kind : Nat) (x : Nat) (mi : Nat) (pair : Nat) (known : Bool)
    (g : List Nat) (poison : Option Nat) (upset : Option Upset) (hw : Memory.wf p.mem) :
    Memory.wf (p.rowJob s u T kind x mi pair known g poison upset).2.mem := by
  unfold Part.rowJob
  split
  · simp [hw]
  · have ho := Part.optUpdate_wf s (p.getF (OPT_TCFG s T.t) 1 3) pair (p.rowPlace s T mi) g upset hw
    split
    next _ q he => rw [he] at ho; simpa using ho
    next ms hit q he => rw [he] at ho; split <;> simp at ho ⊢ <;> simp [ho]

@[simp] theorem Part.ownRowJob_wf {p : Part} (s : Nat) (T : Tbl) (kind : Nat) (x : Nat) (mi : Nat) (pair : Nat) (known : Bool)
    (g : List Nat) (poison : Option Nat) (upset : Option Upset) (hw : Memory.wf p.mem) :
    Memory.wf (p.ownRowJob s T kind x mi pair known g poison upset).mem := by
  simp [Part.ownRowJob, hw]

@[simp] theorem Part.slotRow_wf {p : Part} (T : Tbl) (want : Tier) (rows : List Nat) (hw : Memory.wf p.mem) :
    Memory.wf (p.slotRow T want rows).2.mem := by
  induction rows generalizing p with
  | nil => exact hw
  | cons r rest ih =>
    unfold Part.slotRow
    dsimp only
    split <;> simp [hw, ih]

@[simp] theorem Part.readMasterRow_wf {p : Part} (T : Tbl) (i : Nat) (hw : Memory.wf p.mem) : Memory.wf (p.readMasterRow T i).2.mem := by
  unfold Part.readMasterRow
  split <;> simp [hw]

@[simp] theorem Part.blockDesc_wf {p : Part} (s : Nat) (ctl : Nat) (i : Nat) (hw : Memory.wf p.mem) : Memory.wf (p.blockDesc s ctl i).2.mem := by
  simp [Part.blockDesc, hw]

@[simp] theorem Part.emitDense_wf {p : Part} (s : Nat) (u : Nat) (d : BlockDesc) (e : Nat) (t : Nat) (f : Fmt) (ms : List Nat)
    (hw : Memory.wf p.mem) : Memory.wf (p.emitDense s u d e t f ms).mem := by
  simp [Part.emitDense, hw]

@[simp] theorem Part.emitPair_wf {p : Part} (s : Nat) (u : Nat) (d : BlockDesc) (e : Nat) (i : Nat) (f : Fmt) (ms : List Nat) (hw : Memory.wf p.mem) :
    Memory.wf (p.emitPair s u d e i f ms).mem := by
  simp [Part.emitPair, hw]

@[simp] theorem Part.emitTile_wf {p : Part} (s : Nat) (u : Nat) (d : BlockDesc) (t : Nat) (ms : List Nat) (pairOk : Bool) (hw : Memory.wf p.mem) :
    Memory.wf (p.emitTile s u d t ms pairOk).mem := by
  refine Part.each_wf (fun p e h => ?_) _ hw
  dsimp only
  repeat' split
  all_goals simp [h]

@[simp] theorem Part.tileJob_wf {p : Part} (s : Nat) (u : Nat) (d : BlockDesc) (t : Nat) (g : List Nat) (poison : Option Nat)
    (pairOk : Bool) (hw : Memory.wf p.mem) : Memory.wf (p.tileJob s u d t g poison pairOk).2.mem := by
  unfold Part.tileJob
  split
  · simp [hw]
  · have ho := Part.optUpdate_wf s d.prog 0 (d.place t) g none hw
    split
    next _ q he => rw [he] at ho; simpa using ho
    next ms hit q he => rw [he] at ho; simp at ho ⊢; simp [ho]

@[simp] theorem Part.runTiles_wf {p : Part} (s : Nat) (u : Nat) (d : BlockDesc) (hw : Memory.wf p.mem) : Memory.wf (p.runTiles s u d).mem := by
  exact foldl_snd_wf (fun q t h => by simp [h]) _ hw

@[simp] theorem Part.scrubRead_wf {p : Part} (a : Nat) (hw : Memory.wf p.mem) : Memory.wf (p.scrubRead a).mem := by
  unfold Part.scrubRead
  dsimp only
  repeat' split
  all_goals simp [hw]

@[simp] theorem Part.strike_wf {p : Part} (a : Nat) (errs : List (Nat × Nat)) (hw : Memory.wf p.mem) : Memory.wf (p.strike a errs).mem := by
  refine Part.each_wf (fun p e h => ?_) _ hw
  rw [memWf_iff] at h ⊢
  dsimp only
  split
  · exact ⟨spWf_spSet (d := fun _ => 0#8) _ _ h.1, spWf_spSet (d := fun _ => 0) _ _ h.2.1, h.2.2⟩
  · exact ⟨h.1, spWf_spSet (d := fun _ => 0) _ _ h.2.1, h.2.2⟩

@[simp] theorem Part.putGrans_wf {p : Part} (agent : Nat) (pair : Nat) (a : Nat) (gs : List (List Byte × Option Nat)) (hw : Memory.wf p.mem) :
    Memory.wf (p.putGrans agent pair a gs).mem := by
  simp [Part.putGrans, hw]

@[simp] theorem Part.unitGrans_wf {p : Part} (agent : Nat) (pair : Nat) (a : Nat) (gs : List (List Byte × Option Nat)) (hw : Memory.wf p.mem) :
    Memory.wf (p.unitGrans agent pair a gs).mem := by
  simp [Part.unitGrans, hw]

@[simp] theorem Part.rackWrite_wf {p : Part} (s : Nat) (t : Transfer) (off : Nat) (gs : List (List Byte × Option Nat)) (hw : Memory.wf p.mem) :
    Memory.wf (p.rackWrite s t off gs).mem := by
  simp [Part.rackWrite, hw]

@[simp] theorem Part.moveUnit_wf {p : Part} (s : Nat) (t : Transfer) (hw : Memory.wf p.mem) : Memory.wf (p.moveUnit s t).mem := by
  unfold Part.moveUnit
  dsimp only
  repeat' split
  all_goals simp [hw]

@[simp] theorem Part.hand_wf {p : Part} (q : Packet) (hw : Memory.wf p.mem) : Memory.wf (p.hand q).mem := by
  unfold Part.hand
  dsimp only
  repeat' split
  all_goals simp [hw]

@[simp] theorem Part.segment_wf {p : Part} (q : Packet) (hw : Memory.wf p.mem) : Memory.wf (p.segment q).mem := by
  simp [Part.segment, hw]

@[simp] theorem Part.deliverLocal_wf {p : Part} (q : Packet) (hw : Memory.wf p.mem) : Memory.wf (p.deliverLocal q).mem := by
  simp [Part.deliverLocal, hw]

@[simp] theorem Part.inject_wf {p : Part} (q : Packet) (hw : Memory.wf p.mem) : Memory.wf (p.inject q).mem := by
  unfold Part.inject
  repeat' split
  all_goals simp +contextual [hw]

@[simp] theorem Part.markFirst_wf {p : Part} (q : Packet) (hw : Memory.wf p.mem) : Memory.wf (p.markFirst q).mem := by
  simp [Part.markFirst, hw]

@[simp] theorem Part.deliverFlag_wf {p : Part} (q : Packet) (hw : Memory.wf p.mem) : Memory.wf (p.deliverFlag q).mem := by
  simp [Part.deliverFlag, hw]

@[simp] theorem Part.deliverFlags_wf {p : Part} (fuel : Nat) (src : Nat) (hw : Memory.wf p.mem) :
    Memory.wf (Part.deliverFlags fuel p src).mem := by
  induction fuel generalizing p with
  | zero => exact hw
  | succ fuel ih =>
    unfold Part.deliverFlags
    dsimp only
    split
    · exact ih (by simp [hw])
    · split
      · exact hw
      · exact ih (by simp [hw])

@[simp] theorem Part.flagArrives_wf {p : Part} (q : Packet) (hw : Memory.wf p.mem) : Memory.wf (p.flagArrives q).mem := by
  simp [Part.flagArrives, hw]

@[simp] theorem Part.eject_wf {p : Part} (q : Packet) (hw : Memory.wf p.mem) : Memory.wf (p.eject q).mem := by
  simp [Part.eject, hw]

@[simp] theorem Part.routePacket_wf {p : Part} (n : Nat) (vc : Nat) (q : Packet) (hw : Memory.wf p.mem) :
    Memory.wf (p.routePacket n vc q).mem := by
  simp [Part.routePacket, hw]

@[simp] theorem Part.oneBitMemory_wf {p : Part} (b : Nat) (hw : Memory.wf p.mem) : Memory.wf (p.oneBitMemory b).mem := by
  simp [Part.oneBitMemory, hw]

@[simp] theorem Part.redLoad_wf {p : Part} (b : Nat) (a : Nat) (n : Nat) (hw : Memory.wf p.mem) : Memory.wf (p.redLoad b a n).2.mem := by
  simp [Part.redLoad, hw]

@[simp] theorem Part.redStore_wf {p : Part} (b : Nat) (a : Nat) (vals : List Nat) (poison : Option Nat) (hw : Memory.wf p.mem) :
    Memory.wf (p.redStore b a vals poison).mem := by
  simp [Part.redStore, hw]

@[simp] theorem Part.redOut_wf {p : Part} (b : Nat) (a : Nat) (gs : List (List Byte × Option Nat)) (hw : Memory.wf p.mem) :
    Memory.wf (p.redOut b a gs).mem := by
  unfold Part.redOut
  split <;> simp [hw]

@[simp] theorem Part.oneBitOut_wf {p : Part} (b : Nat) (a : Nat) (scale : Nat) (bits : List Bool) (poison : Option Nat) (hw : Memory.wf p.mem) :
    Memory.wf (p.oneBitOut b a scale bits poison).mem := by
  simp [Part.oneBitOut, hw]

@[simp] theorem Part.oneBitOwner_wf {p : Part} (b : Nat) (hw : Memory.wf p.mem) : Memory.wf (p.oneBitOwner b).mem := by
  have h1 := Part.redLoad_wf b (p.getF (RED_BKT_AUX b) 0 40 + 4 * p.bktN b) (p.bktN b / p.boxN) hw
  have h2 := fun v t => Part.redStore_wf b (p.getF (RED_BKT_AUX b) 0 40 + 4 * p.bktN b) v t h1
  unfold Part.oneBitOwner
  dsimp only
  split
  · exact hw
  · split <;> split <;> simp [h2]

@[simp] theorem Part.oneBitSend_wf {p : Part} (b : Nat) (hw : Memory.wf p.mem) : Memory.wf (p.oneBitSend b).mem := by
  have h0 := Part.oneBitMemory_wf b hw
  unfold Part.oneBitSend
  extract_lets p1 n keep aux
  have h1 := Part.redLoad_wf b (p1.getF (RED_BKT_IN b) 0 40) n h0
  have h2 := Part.redLoad_wf b aux n h1
  have h3 := fun v t => Part.redStore_wf b aux v t h2
  dsimp only
  refine Part.oneBitOwner_wf b ?_
  refine Part.each_wf (fun q r h => ?_) _ (?_ : Memory.wf (Part.mem _))
  · split <;> simp [h]
  · split <;> simp <;> exact h3 _ _

@[simp] theorem Part.redInput_wf {p : Part} (b : Nat) (hw : Memory.wf p.mem) : Memory.wf (p.redInput b).2.mem := by
  simp [Part.redInput, hw]

@[simp] theorem Part.redAdd_wf {p : Part} (b : Nat) (i : Nat) (s : Nat) (at' : Nat) (n : Nat) (hw : Memory.wf p.mem) :
    Memory.wf (p.redAdd b i s at' n).mem := by
  simp [Part.redAdd, hw]

@[simp] theorem Part.reduceRing_wf {p : Part} (b : Nat) (i : Nat) (hw : Memory.wf p.mem) : Memory.wf (p.reduceRing b i).mem := by
  simp [Part.reduceRing, hw]

@[simp] theorem Part.finalRound_wf {p : Part} (b : Nat) (hw : Memory.wf p.mem) : Memory.wf (p.finalRound b).mem := by
  unfold Part.finalRound
  dsimp only
  repeat' split
  all_goals simp [hw]

@[simp] theorem Part.gatherRing_wf {p : Part} (b : Nat) (i : Nat) (hw : Memory.wf p.mem) : Memory.wf (p.gatherRing b i).mem := by
  unfold Part.gatherRing
  dsimp only
  repeat' split
  all_goals simp [hw]

@[simp] theorem Part.mirrorJob_wf {p : Part} (h : List Byte) (g : List Nat) (hw : Memory.wf p.mem) : Memory.wf (p.mirrorJob h g).mem := by
  simp [Part.mirrorJob, hw]

@[simp] theorem Part.hostReadLine_wf {p : Part} (a : Nat) (hw : Memory.wf p.mem) : Memory.wf (p.hostReadLine a).2.mem := by
  unfold Part.hostReadLine
  split <;> simp [hw]

@[simp] theorem Part.cxlRead_wf {p : Part} (a : Nat) (hw : Memory.wf p.mem) : Memory.wf (p.cxlRead a).mem := by
  have hr := Part.hostReadLine_wf a hw
  unfold Part.cxlRead
  split
  next q he => rw [he] at hr; simpa using hr
  next bs t q he => rw [he] at hr; simpa using hr

@[simp] theorem Part.hostWriteLine_wf {p : Part} (a : Nat) (bs : List Byte) (poison : Bool) (hw : Memory.wf p.mem) :
    Memory.wf (p.hostWriteLine a bs poison).2.mem := by
  unfold Part.hostWriteLine
  dsimp only
  repeat' split
  all_goals simp [hw]

@[simp] theorem Part.copyInLoop_wf {p : Part} (n : Nat) (h : Nat) (a : Nat) (x : CopySum) (hw : Memory.wf p.mem) :
    Memory.wf (Part.copyInLoop n p h a x).2.mem := by
  induction n generalizing p h a x with
  | zero => exact hw
  | succ n ih =>
    unfold Part.copyInLoop
    exact ih _ _ _ (Part.hostWriteLine_wf _ _ _ hw)

@[simp] theorem Part.copyOutLoop_wf {p : Part} (n : Nat) (h : Nat) (a : Nat) (x : CopySum) (hw : Memory.wf p.mem) :
    Memory.wf (Part.copyOutLoop n p h a x).2.mem := by
  induction n generalizing p h a x with
  | zero => exact hw
  | succ n ih =>
    have hr := Part.hostReadLine_wf a hw
    unfold Part.copyOutLoop
    split
    next q he => rw [he] at hr; exact ih _ _ _ hr
    next bs t q he => rw [he] at hr; exact ih _ _ _ (by simpa using hr)

@[simp] theorem Part.validReads_wf {p : Part} (full : Bool) (l : List Staged) (hw : Memory.wf p.mem) : Memory.wf (p.validReads full l).mem := by
  unfold Part.validReads
  extract_lets q maps p1 role
  have h1 : Memory.wf p1.mem := Part.each_wf (fun _ _ h => Part.readMap_wf _ h) maps hw
  split <;> simp [h1]

@[simp] theorem Part.loadFull_wf {p : Part} (q : Nat) (c : HostCmd) (x : Container) (slot : Nat) (digest : List Byte) (hw : Memory.wf p.mem) :
    Memory.wf (p.loadFull q c x slot digest).mem := by
  unfold Part.loadFull
  dsimp only
  repeat' split
  all_goals simp [hw]

@[simp] theorem Part.loadContainer_wf {p : Part} (q : Nat) (c : HostCmd) (bs : List Byte) (hw : Memory.wf p.mem) :
    Memory.wf (p.loadContainer q c bs).mem := by
  unfold Part.loadContainer
  repeat' split
  all_goals simp +contextual [hw]

@[simp] theorem Part.thaw_wf {p : Part} (hw : Memory.wf p.mem) : Memory.wf p.thaw.mem := by
  simp [Part.thaw, hw]

@[simp] theorem Part.writeFreeze_wf {p : Part} (v : Nat) (hw : Memory.wf p.mem) : Memory.wf (p.writeFreeze v).mem := by
  simp [Part.writeFreeze, hw]

theorem orElse_holds {α : Type} {P : α → Prop} {a : Option α} {b : Unit → Option α} (ha : ∀ x, a = some x → P x)
    (hb : ∀ x, b () = some x → P x) : ∀ x, a.orElse b = some x → P x := by
  cases a with
  | none => exact hb
  | some y => exact ha

theorem map_holds {α β : Type} {P : β → Prop} {f : α → β} (h : ∀ a b, b = f a → P b) (o : Option α) :
    ∀ x, o.map f = some x → P x := by
  cases o with
  | none => exact nofun
  | some a => rintro _ ⟨⟩; exact h a _ rfl

theorem Part.writeQueueReg_mem {p q : Part} {off : Nat} {r : RegRow} {v : Nat} (h : p.writeQueueReg off r v = some q) : q.mem = p.mem := by
  have hlock (c : Bool) : (if c then p.ignoreAccess else p.putRw off r v).mem = p.mem := by split <;> simp
  have keeps {f : Nat → Part} (hf : ∀ n q, q = f n → q.mem = p.mem) (o : Option Nat) : ∀ x : Part, o.map f = some x → x.mem = p.mem :=
    map_holds hf o
  simp only [Part.writeQueueReg, Option.orElse_eq_orElse] at h
  refine orElse_holds (keeps (fun n q e => by rw [e]; simp) _) ?_ q h
  refine orElse_holds (keeps (fun n q e => by rw [e, hlock]) _) ?_
  refine orElse_holds (keeps (fun n q e => by rw [e, hlock]) _) ?_
  refine orElse_holds (keeps (fun n q e => by rw [e]; simp) _) ?_
  refine orElse_holds (keeps (fun n q e => by rw [e]; simp) _) ?_
  exact keeps (fun n q e => by rw [show q = p.commitWord n v from e, (p.commitWord_frame n v).1]) _

theorem Part.writeSpecial_wf {p q : Part} {off : Nat} {r : RegRow} {v : Nat} (h : p.writeSpecial off r v = some q) (hw : Memory.wf p.mem) :
    Memory.wf q.mem := by
  unfold Part.writeSpecial at h
  repeat' split at h
  any_goals (rw [Option.some.injEq] at h; rw [← h]; simp [hw])
  simp only [Option.orElse_eq_orElse] at h
  exact orElse_holds (P := fun q : Part => Memory.wf q.mem) (map_holds (fun n q e => by rw [e]; simpa using hw) _)
    (fun x hx => by rw [Part.writeQueueReg_mem (p := p) hx]; exact hw) q h

@[simp] theorem Part.writeReg_wf {p : Part} (off : Nat) (r : RegRow) (v : Nat) (hw : Memory.wf p.mem) : Memory.wf (p.writeReg off r v).mem := by
  unfold Part.writeReg
  split
  · simp [hw]
  split
  · simp [hw]
  rcases hx : p.writeSpecial off r v with _ | q
  · simp [hw]
  · exact Part.writeSpecial_wf hx hw

@[simp] theorem Part.testArea_wf {p : Part} (c : Nat) (hw : Memory.wf p.mem) : Memory.wf (p.testArea c).mem := by
  rw [memWf_iff] at hw ⊢
  exact ⟨spWf_putBytes _ _ hw.1, hw.2⟩

@[simp] theorem Part.saveCode_wf {p : Part} (c : Nat) (hw : Memory.wf p.mem) : Memory.wf (p.saveCode c).mem := by
  simp +contextual [Part.saveCode, hw]

@[simp] theorem Part.partReset_wf (p : Part) (big up : Bool) : Memory.wf (p.partReset big up).mem := reset_memWf big

@[simp] theorem Part.sendLines_wf {p : Part} (src : Nat) (dst : Nat) (n : Nat) (hw : Memory.wf p.mem) :
    Memory.wf (p.sendLines src dst n).mem := by
  simp +contextual [Part.sendLines, hw]

@[simp] theorem Part.drainRecord_wf {p : Part} (b : Nat) (hw : Memory.wf p.mem) : Memory.wf (p.drainRecord b).mem := by
  unfold Part.drainRecord
  split <;> simp [hw]

@[simp] theorem Part.drainTrace_wf {p : Part} (b : Nat) (hw : Memory.wf p.mem) : Memory.wf (p.drainTrace b).mem := by
  simp [Part.drainTrace, hw]

@[simp] theorem Part.passCycle_wf {p : Part} (hw : Memory.wf p.mem) : Memory.wf p.passCycle.mem := by
  unfold Part.passCycle
  split
  · exact hw
  · exact Part.each_wf (fun _ _ h => Part.drainTrace_wf _ h) _ (by simp [hw])

end Sys2Proof.Machine
end

section
/-!
PROOF. Every step keeps the canonical form of memory (R293, R297).
-/
namespace Sys2Proof.Machine

/-- The command keeps the canonical form of memory. -/
def KeepsMem (s t : State) : Prop := Memory.wf s.p.mem → Memory.wf t.p.mem

theorem keepsMem_run {s : State} {f : Part → Part} (h : ∀ p, Memory.wf p.mem → Memory.wf (f p).mem) : Answers KeepsMem s (s.run f) :=
  ⟨_, rfl, h s.p⟩

theorem keepsMem_next {s t : State} (h : Memory.wf s.p.mem → Memory.wf t.p.mem) : Answers KeepsMem s (.next t) := ⟨_, rfl, h⟩

/-- A vendor-defined command keeps the form where its work does: its answer touches no memory (R465, R466). -/
theorem keepsMem_command {s : State} {m : MgtReq} {cmd : Nat} {ready may : Bool} {f : State → Work}
    (h : Memory.wf s.p.mem → Memory.wf (f s).2.2.p.mem) : Answers KeepsMem s (s.command m cmd ready may f) := by
  unfold State.command
  refine answers_ite (keepsMem_next id) (answers_ite (keepsMem_next fun hw => by simpa using hw) ?_)
  split
  · exact keepsMem_next fun hw => by simpa using hw
  · exact keepsMem_next fun hw => by simpa using h hw

theorem keepsMem_publicCommand {s : State} {m : MgtReq} {cmd : Nat} {f : State → Work}
    (h : Memory.wf s.p.mem → Memory.wf (f s).2.2.p.mem) : Answers KeepsMem s (s.publicCommand m cmd f) := keepsMem_command h

theorem keepsMem_ownerCommand {s : State} {m : MgtReq} {cmd : Nat} {f : State → Work}
    (h : Memory.wf s.p.mem → Memory.wf (f s).2.2.p.mem) : Answers KeepsMem s (s.ownerCommand m cmd f) := keepsMem_command h

theorem keepsMem_updateCommand {s : State} {m : MgtReq} {cmd : Nat} {f : State → Work}
    (h : Memory.wf s.p.mem → Memory.wf (f s).2.2.p.mem) : Answers KeepsMem s (s.updateCommand m cmd f) :=
  answers_ite (keepsMem_command h) (keepsMem_command h)

theorem keepsMem_tapRun {s : State} {f : Part → Tap → Tap × Part} (h : ∀ p t, (f p t).2.mem = p.mem) : Answers KeepsMem s (s.tapRun f) := by
  refine keepsMem_run fun p hw => ?_
  dsimp only
  split
  · exact hw
  · simpa [h] using hw

theorem State.startFw_mem (s : State) (n : Nv) (b : Bool) (bs : List Byte) : (s.startFw n b bs).p.mem = s.p.mem := by
  simp [State.startFw]

theorem State.putUpd_mem (s : State) (bs : List Byte) (u : Bool) : (s.putUpd bs u).p.mem = s.p.mem := by
  unfold State.putUpd
  split <;> simp

theorem Part.takeReq_wf {p : Part} (s unit op : Nat) {f : Part → Ureq → RunReq × Part}
    (hf : ∀ q r, Memory.wf q.mem → Memory.wf (f q r).2.mem)
    (hw : Memory.wf p.mem) : Memory.wf (p.takeReq s unit op f).mem := by
  unfold Part.takeReq
  extract_lets u
  split
  · exact hw
  extract_lets isOp
  split
  · exact hw
  rename_i p1 _
  have h1 : Memory.wf p1.mem := by simpa [p1] using hw
  split
  · simpa using h1
  · simpa using hf _ _ h1

theorem Part.runCmd_wf {p : Part} (q op : Nat) {f : Part → HostCmd → Part} (hf : ∀ c, Memory.wf (f p c).mem)
    (hw : Memory.wf p.mem) : Memory.wf (p.runCmd q op f).mem := by
  unfold Part.runCmd
  split
  · exact hw
  · split
    · simpa using hw
    · exact hf _

theorem Part.runCopy_wf {p : Part} (q op : Nat) {f : Part → HostCmd → CopySum × Part} (hf : ∀ c, Memory.wf (f p c).2.mem)
    (hw : Memory.wf p.mem) : Memory.wf (p.runCopy q op f).mem := by
  refine Part.runCmd_wf q op (fun c => ?_) hw
  dsimp only
  split
  · exact hw
  split
  · simpa using hw
  · simpa using hf c

theorem Part.takeCtl_mem {p q : Part} {b : Nat} {h : CtlHead} {m : CtlMsg} (e : p.takeCtl b h m = some q) : q.mem = p.mem := by
  unfold Part.takeCtl at e
  dsimp only at e
  split at e
  · cases e
  · rw [Option.some.injEq] at e; rw [← e]; simp

theorem Part.takeSub_mem {p q : Part} {s : Nat} {u : Sub} (e : p.takeSub s = some (u, q)) : q.mem = p.mem := by
  unfold Part.takeSub at e
  dsimp only at e
  split at e
  · rw [Option.some.injEq, Prod.mk.injEq] at e; rw [← e.2]; rfl
  · split at e
    · rw [Option.some.injEq, Prod.mk.injEq] at e; rw [← e.2]; rfl
    · cases e

@[simp] theorem mload_keepsMem (core : BitVec 13) (f : MloadF) (s : State) : Answers KeepsMem s (execMload core f s) := by
  refine keepsMem_run fun p hw => Part.issue_wf _ _ (fun q hw => ?_) hw
  split <;> simp [hw]

@[simp] theorem mac_keepsMem (core : BitVec 13) (f : MacF) (s : State) : Answers KeepsMem s (execMac core f s) := by
  refine keepsMem_run fun p hw => Part.issue_wf _ _ (fun q hw => ?_) hw
  split <;> simp [hw]

@[simp] theorem matrixLoadStart_keepsMem (core : BitVec 13) (s : State) : Answers KeepsMem s (execMatrixLoadStart core s) := by
  refine keepsMem_run fun p hw => ?_
  dsimp only
  repeat' split
  all_goals simp [hw]

@[simp] theorem matrixLoadDone_keepsMem (core : BitVec 13) (s : State) : Answers KeepsMem s (execMatrixLoadDone core s) := by
  refine keepsMem_run fun p hw => ?_
  dsimp only
  repeat' split
  all_goals simp [hw]

@[simp] theorem matrixPassStart_keepsMem (core : BitVec 13) (upset : Option Upset) (s : State) :
    Answers KeepsMem s (execMatrixPassStart core upset s) := by
  refine keepsMem_run fun p hw => ?_
  dsimp only
  repeat' split
  all_goals simp [hw]

@[simp] theorem matrixPassDone_keepsMem (core : BitVec 13) (s : State) : Answers KeepsMem s (execMatrixPassDone core s) := by
  refine keepsMem_run fun p hw => ?_
  dsimp only
  repeat' split
  all_goals simp [hw]

@[simp] theorem nop_keepsMem (core : BitVec 13) (s : State) : Answers KeepsMem s (execNop core s) := by
  refine keepsMem_run fun p hw => Part.issue_wf _ _ (fun q hw => ?_) hw
  simp [hw]

@[simp] theorem br_keepsMem (core : BitVec 13) (f : BrF) (s : State) : Answers KeepsMem s (execBr core f s) := by
  refine keepsMem_run fun p hw => Part.issue_wf _ _ (fun q hw => ?_) hw
  dsimp only
  repeat' split
  all_goals simp [hw]

@[simp] theorem jal_keepsMem (core : BitVec 13) (f : JalF) (s : State) : Answers KeepsMem s (execJal core f s) := by
  refine keepsMem_run fun p hw => Part.issue_wf _ _ (fun q hw => ?_) hw
  simp [hw]

@[simp] theorem jalr_keepsMem (core : BitVec 13) (f : JalrF) (s : State) : Answers KeepsMem s (execJalr core f s) := by
  refine keepsMem_run fun p hw => Part.issue_wf _ _ (fun q hw => ?_) hw
  simp [hw]

@[simp] theorem halt_keepsMem (core : BitVec 13) (s : State) : Answers KeepsMem s (execHalt core s) := by
  refine keepsMem_run fun p hw => Part.issue_wf _ _ (fun q hw => ?_) hw
  simp [hw]

@[simp] theorem add_keepsMem (core : BitVec 13) (f : FmtA) (s : State) : Answers KeepsMem s (execAdd core f s) :=
  keepsMem_run fun p hw => by simp [hw]

@[simp] theorem sub_keepsMem (core : BitVec 13) (f : FmtA) (s : State) : Answers KeepsMem s (execSub core f s) :=
  keepsMem_run fun p hw => by simp [hw]

@[simp] theorem mul_keepsMem (core : BitVec 13) (f : FmtA) (s : State) : Answers KeepsMem s (execMul core f s) :=
  keepsMem_run fun p hw => by simp [hw]

@[simp] theorem and_keepsMem (core : BitVec 13) (f : FmtA) (s : State) : Answers KeepsMem s (execAnd core f s) :=
  keepsMem_run fun p hw => by simp [hw]

@[simp] theorem or_keepsMem (core : BitVec 13) (f : FmtA) (s : State) : Answers KeepsMem s (execOr core f s) :=
  keepsMem_run fun p hw => by simp [hw]

@[simp] theorem xor_keepsMem (core : BitVec 13) (f : FmtA) (s : State) : Answers KeepsMem s (execXor core f s) :=
  keepsMem_run fun p hw => by simp [hw]

@[simp] theorem shl_keepsMem (core : BitVec 13) (f : FmtA) (s : State) : Answers KeepsMem s (execShl core f s) :=
  keepsMem_run fun p hw => by simp [hw]

@[simp] theorem shr_keepsMem (core : BitVec 13) (f : FmtA) (s : State) : Answers KeepsMem s (execShr core f s) :=
  keepsMem_run fun p hw => by simp [hw]

@[simp] theorem sra_keepsMem (core : BitVec 13) (f : FmtA) (s : State) : Answers KeepsMem s (execSra core f s) :=
  keepsMem_run fun p hw => by simp [hw]

@[simp] theorem slt_keepsMem (core : BitVec 13) (f : FmtA) (s : State) : Answers KeepsMem s (execSlt core f s) :=
  keepsMem_run fun p hw => by simp [hw]

@[simp] theorem sltu_keepsMem (core : BitVec 13) (f : FmtA) (s : State) : Answers KeepsMem s (execSltu core f s) :=
  keepsMem_run fun p hw => by simp [hw]

@[simp] theorem lds_keepsMem (core : BitVec 13) (f : FmtA) (s : State) : Answers KeepsMem s (execLds core f s) := by
  refine keepsMem_run fun p hw => Part.issue_wf _ _ (fun q hw => ?_) hw
  simp [hw]

@[simp] theorem sts_keepsMem (core : BitVec 13) (f : FmtA) (s : State) : Answers KeepsMem s (execSts core f s) := by
  refine keepsMem_run fun p hw => Part.issue_wf _ _ (fun q hw => ?_) hw
  simp [hw]

@[simp] theorem ldg_keepsMem (core : BitVec 13) (f : IrrF) (s : State) : Answers KeepsMem s (execLdg core f s) :=
  keepsMem_run fun p hw => by simp [hw]

@[simp] theorem stg_keepsMem (core : BitVec 13) (f : IrrF) (s : State) : Answers KeepsMem s (execStg core f s) :=
  keepsMem_run fun p hw => by simp [hw]

@[simp] theorem rdsys_keepsMem (core : BitVec 13) (f : RdsysF) (s : State) : Answers KeepsMem s (execRdsys core f s) := by
  refine keepsMem_run fun p hw => Part.issue_wf _ _ (fun q hw => ?_) hw
  split <;> simp [hw]

@[simp] theorem illegalOrReservedEncoding_keepsMem (core : BitVec 13) (s : State) :
    Answers KeepsMem s (execIllegalOrReservedEncoding core s) :=
  keepsMem_run fun p hw => by simp [hw]

@[simp] theorem ldgReturn_keepsMem (core : BitVec 13) (s : State) : Answers KeepsMem s (execLdgReturn core s) := by
  refine keepsMem_run fun p hw => ?_
  dsimp only
  repeat' split
  all_goals simp [hw]

@[simp] theorem stgComplete_keepsMem (core : BitVec 13) (s : State) : Answers KeepsMem s (execStgComplete core s) := by
  refine keepsMem_run fun p hw => ?_
  dsimp only
  repeat' split
  all_goals simp [hw]

@[simp] theorem ask_keepsMem (core : BitVec 13) (f : AskF) (s : State) : Answers KeepsMem s (execAsk core f s) := by
  refine keepsMem_run fun p hw => Part.issue_wf _ _ (fun q hw => ?_) hw
  simp [hw]

@[simp] theorem submit_keepsMem (core : BitVec 13) (f : SubmitF) (s : State) : Answers KeepsMem s (execSubmit core f s) := by
  refine keepsMem_run fun p hw => Part.issue_wf _ _ (fun q hw => ?_) hw
  dsimp only
  repeat' split
  all_goals simp [hw]

@[simp] theorem done_keepsMem (core : BitVec 13) (f : DoneF) (s : State) : Answers KeepsMem s (execDone core f s) := by
  refine keepsMem_run fun p hw => Part.issue_wf _ _ (fun q hw => ?_) hw
  dsimp only
  repeat' split
  all_goals simp [hw]

@[simp] theorem closeq_keepsMem (core : BitVec 13) (rb : BitVec 5) (s : State) : Answers KeepsMem s (execCloseq core rb s) := by
  refine keepsMem_run fun p hw => Part.issue_wf _ _ (fun q hw => ?_) hw
  simp [hw]

@[simp] theorem signal_keepsMem (core : BitVec 13) (f : SignalF) (s : State) : Answers KeepsMem s (execSignal core f s) := by
  refine keepsMem_run fun p hw => Part.issue_wf _ _ (fun q hw => ?_) hw
  simp [hw]

@[simp] theorem wait_keepsMem (core : BitVec 13) (f : WaitF) (s : State) : Answers KeepsMem s (execWait core f s) := by
  refine keepsMem_run fun p hw => Part.issue_wf _ _ (fun q hw => ?_) hw
  simp [hw]

@[simp] theorem waitComplete_keepsMem (core : BitVec 13) (s : State) : Answers KeepsMem s (execWaitComplete core s) :=
  keepsMem_run fun p hw => by simp [hw]

@[simp] theorem evSignalArrive_keepsMem (core : BitVec 13) (ev : BitVec 5) (s : State) : Answers KeepsMem s (execEvSignalArrive core ev s) := by
  refine keepsMem_run fun p hw => ?_
  split <;> simp [hw]

@[simp] theorem herd_keepsMem (core : BitVec 13) (f : HerdF) (s : State) : Answers KeepsMem s (execHerd core f s) := by
  refine keepsMem_run fun p hw => Part.issue_wf _ _ (fun q hw => ?_) hw
  simp [hw]

@[simp] theorem herdRelease_keepsMem (line : BitVec 6) (s : State) : Answers KeepsMem s (execHerdRelease line s) :=
  keepsMem_run fun p hw => by simp [hw]

@[simp] theorem fence_keepsMem (core : BitVec 13) (kind : BitVec 2) (s : State) : Answers KeepsMem s (execFence core kind s) := by
  refine keepsMem_run fun p hw => Part.issue_wf _ _ (fun q hw => ?_) hw
  simp [hw]

@[simp] theorem fenceComplete_keepsMem (core : BitVec 13) (s : State) : Answers KeepsMem s (execFenceComplete core s) :=
  keepsMem_run fun p hw => by simp [hw]

@[simp] theorem tag_keepsMem (core : BitVec 13) (imm : BitVec 32) (s : State) : Answers KeepsMem s (execTag core imm s) := by
  refine keepsMem_run fun p hw => Part.issue_wf _ _ (fun q hw => ?_) hw
  simp [hw]

@[simp] theorem mark_keepsMem (core : BitVec 13) (f : MarkF) (s : State) : Answers KeepsMem s (execMark core f s) := by
  refine keepsMem_run fun p hw => Part.issue_wf _ _ (fun q hw => ?_) hw
  simp [hw]

@[simp] theorem setvl_keepsMem (core : BitVec 13) (f : SetvlF) (s : State) : Answers KeepsMem s (execSetvl core f s) := by
  refine keepsMem_run fun p hw => Part.issue_wf _ _ (fun q hw => ?_) hw
  simp [hw]

@[simp] theorem udef_keepsMem (core : BitVec 13) (f : UdefF) (s : State) : Answers KeepsMem s (execUdef core f s) := by
  refine keepsMem_run fun p hw => Part.issue_wf _ _ (fun q hw => ?_) hw
  simp [hw]

@[simp] theorem dset_keepsMem (core : BitVec 13) (f : DsetF) (s : State) : Answers KeepsMem s (execDset core f s) := by
  refine keepsMem_run fun p hw => Part.issue_wf _ _ (fun q hw => ?_) hw
  simp [hw]

@[simp] theorem vstream_keepsMem (core : BitVec 13) (f : VstreamF) (s : State) : Answers KeepsMem s (execVstream core f s) := by
  refine keepsMem_run fun p hw => Part.issue_wf _ _ (fun q hw => ?_) hw
  split <;> simp [hw]

@[simp] theorem vdrain_keepsMem (core : BitVec 13) (f : VdrainF) (s : State) : Answers KeepsMem s (execVdrain core f s) := by
  refine keepsMem_run fun p hw => Part.issue_wf _ _ (fun q hw => ?_) hw
  split <;> simp [hw]

@[simp] theorem drainStart_keepsMem (core : BitVec 13) (upset : Option Upset) (s : State) : Answers KeepsMem s (execDrainStart core upset s) := by
  refine keepsMem_run fun p hw => ?_
  dsimp only
  repeat' split
  all_goals simp [hw]

@[simp] theorem drainDone_keepsMem (core : BitVec 13) (s : State) : Answers KeepsMem s (execDrainDone core s) := by
  refine keepsMem_run fun p hw => ?_
  dsimp only
  repeat' split
  all_goals simp [hw]

@[simp] theorem vectorStreamStart_keepsMem (core : BitVec 13) (upset : Option Upset) (s : State) :
    Answers KeepsMem s (execVectorStreamStart core upset s) := by
  refine keepsMem_run fun p hw => ?_
  dsimp only
  repeat' split
  all_goals simp [hw]

@[simp] theorem vectorStreamDone_keepsMem (core : BitVec 13) (s : State) : Answers KeepsMem s (execVectorStreamDone core s) := by
  refine keepsMem_run fun p hw => ?_
  dsimp only
  repeat' split
  all_goals simp [hw]

@[simp] theorem ureq_keepsMem (core : BitVec 13) (f : UreqF) (s : State) : Answers KeepsMem s (execUreq core f s) := by
  refine keepsMem_run fun p hw => Part.issue_wf _ _ (fun q hw => ?_) hw
  dsimp only
  repeat' split
  all_goals simp [hw]

@[simp] theorem rowGatherStart_keepsMem (sector : BitVec 2) (s : State) : Answers KeepsMem s (execRowGatherStart sector s) := by
  refine keepsMem_run fun p hw => ?_
  extract_lets x room
  split
  · exact hw
  · refine Part.takeReq_wf _ 1 0 (fun q r h => ?_) hw
    split <;> simp [h]

@[simp] theorem rowArrive_keepsMem (sector : BitVec 2) (req fetch : Nat) (s : State) : Answers KeepsMem s (execRowArrive sector req fetch s) := by
  refine keepsMem_run fun p hw => ?_
  dsimp only
  repeat' split
  all_goals simp [hw]

@[simp] theorem remoteRowRequest_keepsMem (s : State) : Answers KeepsMem s (execRemoteRowRequest s) := by
  refine keepsMem_run fun p hw => ?_
  split <;> simp [hw]

@[simp] theorem runAheadFetch_keepsMem (sector : BitVec 2) (s : State) : Answers KeepsMem s (execRunAheadFetch sector s) := by
  refine keepsMem_run fun p hw => ?_
  dsimp only
  split
  · exact hw
  · refine Part.each_wf (fun p q h => ?_) _ hw
    split
    · exact h
    split
    · simp [h]
    · exact Part.each_wf (fun p k h => Part.aheadKey_wf _ _ _ _ h) _ (by simp [h])

@[simp] theorem rowScatterStart_keepsMem (sector : BitVec 2) (s : State) : Answers KeepsMem s (execRowScatterStart sector s) := by
  refine keepsMem_run fun p hw => Part.takeReq_wf _ 2 0 (fun p q h => ?_) hw
  extract_lets d T
  split
  · simp [h]
  rename_i bits p1 width span _
  have h1 : Memory.wf p1.mem := by simp [p1, h]
  split
  next okT p2 he =>
  have h2 : Memory.wf p2.mem := by rw [show p2 = (p1.tableCheck sector.toNat q).2 by rw [he]]; simpa using h1
  have h3 := Part.loadList_wf 3 q.pair (addrAt d 8) (gCount d) h2
  extract_lets ok
  split
  · split
    · exact h2
    dsimp only
    split <;> simp [h3]
  · exact h2
  · simp [h2]

@[simp] theorem sampleRequestStart_keepsMem (sector : BitVec 2) (s : State) : Answers KeepsMem s (execSampleRequestStart sector s) := by
  refine keepsMem_run fun p hw => ?_
  dsimp only
  repeat' split
  all_goals simp [hw]

@[simp] theorem pooledLookupStart_keepsMem (sector : BitVec 2) (s : State) : Answers KeepsMem s (execPooledLookupStart sector s) := by
  refine keepsMem_run fun p hw => ?_
  extract_lets x room
  split
  · exact hw
  · exact Part.takeReq_wf _ 3 0 (fun q r h => Part.startLookup_wf _ _ h) hw

@[simp] theorem unitRequestComplete_keepsMem (sector : BitVec 2) (req : Nat) (s : State) :
    Answers KeepsMem s (execUnitRequestComplete sector req s) := by
  refine keepsMem_run fun p hw => ?_
  dsimp only
  repeat' split
  all_goals simp [hw]

@[simp] theorem rcHalve_keepsMem (sector : BitVec 2) (s : State) : Answers KeepsMem s (execRcHalve sector s) :=
  keepsMem_run fun p hw => by simp [hw]

@[simp] theorem levelPass_keepsMem (sector : BitVec 2) (s : State) : Answers KeepsMem s (execLevelPass sector s) := by
  refine keepsMem_run fun p hw => ?_
  dsimp only
  repeat' split
  all_goals simp [hw]

@[simp] theorem pressSortStart_keepsMem (sector : BitVec 2) (s : State) : Answers KeepsMem s (execPressSortStart sector s) := by
  refine keepsMem_run fun p hw => ?_
  dsimp only
  repeat' split
  all_goals simp +contextual [hw]

@[simp] theorem contributionArrive_keepsMem (sector : BitVec 2) (s : State) : Answers KeepsMem s (execContributionArrive sector s) := by
  refine keepsMem_run fun p hw => ?_
  dsimp only
  repeat' split
  all_goals simp [hw]

@[simp] theorem pressEndMarker_keepsMem (s : State) : Answers KeepsMem s (execPressEndMarker s) :=
  keepsMem_run fun p hw => by simp [hw]

@[simp] theorem pressEndMarkerArrive_keepsMem (s : State) : Answers KeepsMem s (execPressEndMarkerArrive s) := by
  refine keepsMem_run fun p hw => ?_
  split <;> simp [hw]

@[simp] theorem ownerMerge_keepsMem (sector : BitVec 2) (s : State) : Answers KeepsMem s (execOwnerMerge sector s) := by
  refine keepsMem_run fun p hw => ?_
  dsimp only
  repeat' split
  all_goals simp +contextual [hw]

@[simp] theorem composedRun_keepsMem (sector : BitVec 2) (s : State) : Answers KeepsMem s (execComposedRun sector s) := by
  refine keepsMem_run fun p hw => ?_
  dsimp only
  repeat' split
  all_goals simp +contextual [hw]

@[simp] theorem gradArrayClear_keepsMem (sector : BitVec 2) (s : State) : Answers KeepsMem s (execGradArrayClear sector s) := by
  refine keepsMem_run fun p hw => ?_
  dsimp only
  split
  · exact hw
  · refine Part.each_wf (fun p T h => Part.each_wf (fun p i h => Part.store_wf _ _ _ _ _ h) _ h) _ hw

@[simp] theorem tileFetchStart_keepsMem (sector : BitVec 2) (s : State) : Answers KeepsMem s (execTileFetchStart sector s) := by
  refine keepsMem_run fun p hw => Part.takeReq_wf _ 1 1 (fun p q h => ?_) hw
  dsimp only
  repeat' split
  all_goals simp [h]

@[simp] theorem tileStoreStart_keepsMem (sector : BitVec 2) (s : State) : Answers KeepsMem s (execTileStoreStart sector s) := by
  refine keepsMem_run fun p hw => Part.takeReq_wf _ 2 1 (fun p q h => ?_) hw
  extract_lets d n spec rows
  split
  · simp [h]
  extract_lets w form ok _
  split
  · simp [h]
  split
  · simp [h]
  split
  next bad kept p1 he =>
  rw [show p1 = ((bad, kept), p1).2 from rfl, ← he]
  exact foldl_snd_wf (q := ((_, _), _)) (fun r t h => by simp [h]) _ h

@[simp] theorem optRowJob_keepsMem (sector : BitVec 2) (upset : Option Upset) (s : State) :
    Answers KeepsMem s (execOptRowJob sector upset s) := by
  refine keepsMem_run fun p hw => ?_
  dsimp only
  split
  · exact hw
  split
  · split
    · simp [hw]
    · split <;> simp [hw]
  · split
    · exact hw
    next T i _ =>
    have h1 := Part.readMasterRow_wf T i hw
    simp [h1]

@[simp] theorem optBlockJob_keepsMem (sector : BitVec 2) (ctl : BitVec 1) (s : State) : Answers KeepsMem s (execOptBlockJob sector ctl s) := by
  refine keepsMem_run fun p hw => ?_
  dsimp only
  repeat' split
  all_goals simp [hw]

@[simp] theorem reduceStep_keepsMem (bucket : Nat) (s : State) : Answers KeepsMem s (execReduceStep bucket s) := by
  refine keepsMem_run fun p hw => ?_
  dsimp only
  repeat' split
  all_goals simp [hw]

@[simp] theorem bucketStart_keepsMem (bucket : Nat) (s : State) : Answers KeepsMem s (execBucketStart bucket s) :=
  keepsMem_run fun p hw => by simp [hw]

@[simp] theorem reduceBlockArrive_keepsMem (s : State) : Answers KeepsMem s (execReduceBlockArrive s) := by
  refine keepsMem_run fun p hw => ?_
  split <;> simp [hw]

@[simp] theorem onebitContribArrive_keepsMem (s : State) : Answers KeepsMem s (execOnebitContribArrive s) := by
  refine keepsMem_run fun p hw => ?_
  split <;> simp [hw]

@[simp] theorem onebitResultArrive_keepsMem (s : State) : Answers KeepsMem s (execOnebitResultArrive s) := by
  refine keepsMem_run fun p hw => ?_
  split <;> simp [hw]

@[simp] theorem bucketComplete_keepsMem (bucket : Nat) (s : State) : Answers KeepsMem s (execBucketComplete bucket s) :=
  keepsMem_run fun p hw => by simp [hw]

@[simp] theorem twinJobRecord_keepsMem (s : State) : Answers KeepsMem s (execTwinJobRecord s) := by
  refine keepsMem_run fun p hw => ?_
  dsimp only
  repeat' split
  all_goals simp [hw]

@[simp] theorem twinRawLines_keepsMem (s : State) : Answers KeepsMem s (execTwinRawLines s) := by
  refine keepsMem_run fun p hw => ?_
  dsimp only
  split
  · exact hw
  split
  · exact hw
  · refine Part.each_wf (fun p l h => ?_) _ (by simpa using hw)
    split <;> simp [h]

@[simp] theorem twinEndMarker_keepsMem (s : State) : Answers KeepsMem s (execTwinEndMarker s) := by
  refine keepsMem_run fun p hw => ?_
  split <;> simp [hw]

@[simp] theorem twinAckReceive_keepsMem (s : State) : Answers KeepsMem s (execTwinAckReceive s) := by
  refine keepsMem_run fun p hw => ?_
  split <;> simp [hw]

@[simp] theorem lossDeclarationReceive_keepsMem (s : State) : Answers KeepsMem s (execLossDeclarationReceive s) := by
  refine keepsMem_run fun p hw => ?_
  split <;> simp [hw]

@[simp] theorem twinRestore_keepsMem (s : State) : Answers KeepsMem s (execTwinRestore s) := by
  exact keepsMem_run fun p hw => by simpa using hw

@[simp] theorem twinRestorePull_keepsMem (s : State) : Answers KeepsMem s (execTwinRestorePull s) := by
  refine keepsMem_run fun p hw => ?_
  split
  · exact hw
  split
  · exact hw
  extract_lets p1 ws
  have h1 : Memory.wf p1.mem := by simpa [p1] using hw
  split
  · rename_i p2 _ _ _ _ _ _
    simpa [p2] using h1
  rename_i _ mine p2 p3 p4 n _
  have h2 : Memory.wf p2.mem := by simpa [p2] using h1
  have h3 : Memory.wf p3.mem := Part.each_wf (fun p w h => Part.sendLines_wf _ _ _ h) _ h2
  have h4 : Memory.wf p4.mem := Part.each_wf (fun p w h => Part.sendLines_wf _ _ _ h) _ h3
  simpa using h4

@[simp] theorem twinRestoreDone_keepsMem (s : State) : Answers KeepsMem s (execTwinRestoreDone s) := by
  refine keepsMem_run fun p hw => ?_
  dsimp only
  repeat' split
  all_goals simp +contextual [hw]

@[simp] theorem packetInject_keepsMem (s : State) : Answers KeepsMem s (execPacketInject s) := by
  refine keepsMem_run fun p hw => ?_
  dsimp only
  repeat' split
  all_goals simp [hw]

@[simp] theorem accountingSend_keepsMem (s : State) : Answers KeepsMem s (execAccountingSend s) :=
  keepsMem_run fun p hw => by simp [hw]

@[simp] theorem fabTrain_keepsMem (s : State) : Answers KeepsMem s (execFabTrain s) := by
  exact keepsMem_run fun p hw => by simpa using hw

@[simp] theorem fabTrainStop_keepsMem (s : State) : Answers KeepsMem s (execFabTrainStop s) := by
  exact keepsMem_run fun p hw => by simpa using hw

@[simp] theorem electricalTrainingDone_keepsMem (port : Nat) (s : State) : Answers KeepsMem s (execElectricalTrainingDone port s) :=
  keepsMem_run fun p hw => by simp [hw]

@[simp] theorem identityExchange_keepsMem (port : Nat) (n : Neighbour) (s : State) : Answers KeepsMem s (execIdentityExchange port n s) :=
  keepsMem_run fun p hw => by simp [hw]

@[simp] theorem portAuthenticate_keepsMem (port : Nat) (c : Credential) (s : State) : Answers KeepsMem s (execPortAuthenticate port c s) :=
  keepsMem_run fun p hw => by simp [hw]

@[simp] theorem portRetrain_keepsMem (port : Nat) (s : State) : Answers KeepsMem s (execPortRetrain port s) :=
  keepsMem_run fun p hw => by simp [hw]

@[simp] theorem fabricPacketArrive_keepsMem (port : Nat) (h : LinkHead) (pkt : Packet) (s : State) :
    Answers KeepsMem s (execFabricPacketArrive port h pkt s) :=
  keepsMem_run fun p hw => by simp [hw]

@[simp] theorem flagAckArrive_keepsMem (s : State) : Answers KeepsMem s (execFlagAckArrive s) := by
  refine keepsMem_run fun p hw => ?_
  split <;> simp [hw]

@[simp] theorem linkAck_keepsMem (port seq : Nat) (s : State) : Answers KeepsMem s (execLinkAck port seq s) := by
  refine keepsMem_run fun p hw => ?_
  dsimp only
  repeat' split
  all_goals simp [hw]

@[simp] theorem linkReject_keepsMem (port seq : Nat) (s : State) : Answers KeepsMem s (execLinkReject port seq s) := by
  refine keepsMem_run fun p hw => ?_
  dsimp only
  repeat' split
  all_goals simp [hw]

@[simp] theorem receiveStall_keepsMem (port : Nat) (s : State) : Answers KeepsMem s (execReceiveStall port s) :=
  keepsMem_run fun p hw => by simp [hw]

@[simp] theorem ackTimeout_keepsMem (port : Nat) (s : State) : Answers KeepsMem s (execAckTimeout port s) :=
  keepsMem_run fun p hw => by simp [hw]

@[simp] theorem laneLosesLock_keepsMem (port : Nat) (s : State) : Answers KeepsMem s (execLaneLosesLock port s) :=
  keepsMem_run fun p hw => by simp [hw]

@[simp] theorem fastRetrainDone_keepsMem (port : Nat) (ok : Bool) (s : State) : Answers KeepsMem s (execFastRetrainDone port ok s) :=
  keepsMem_run fun p hw => by simp [hw]

@[simp] theorem fullRetrainDone_keepsMem (port : Nat) (r : Retrained) (s : State) : Answers KeepsMem s (execFullRetrainDone port r s) :=
  keepsMem_run fun p hw => by simp [hw]

@[simp] theorem lossNoticeArrive_keepsMem (s : State) : Answers KeepsMem s (execLossNoticeArrive s) := by
  refine keepsMem_run fun p hw => ?_
  split <;> simp [hw]

@[simp] theorem fabricFreeze_keepsMem (rx : CtlRx) (s : State) : Answers KeepsMem s (execFabricFreeze rx s) :=
  keepsMem_run fun p hw => by simp [hw]

@[simp] theorem tickPathProbe_keepsMem (rx : CtlRx) (standby : Bool) (latency hops : Nat) (s : State) :
    Answers KeepsMem s (execTickPathProbe rx standby latency hops s) := by
  refine keepsMem_run fun p hw => ?_
  dsimp only
  split
  · exact hw
  split
  · exact hw
  next q he =>
    have h : Memory.wf q.mem := by rw [Part.takeCtl_mem he]; exact hw
    split <;> simp [h]

@[simp] theorem patrolScrub_keepsMem (sector : BitVec 2) (ctl : BitVec 1) (errs : List (Nat × Nat)) (s : State) :
    Answers KeepsMem s (execPatrolScrub sector ctl errs s) := by
  refine keepsMem_run fun p hw => ?_
  dsimp only
  repeat' split
  all_goals simp [hw]

@[simp] theorem hbmRefresh_keepsMem (sector : BitVec 2) (ctl : BitVec 1) (s : State) : Answers KeepsMem s (execHbmRefresh sector ctl s) :=
  keepsMem_run fun p hw => by simp [hw]

@[simp] theorem stackSensorRead_keepsMem (sector : BitVec 2) (ctl : BitVec 1) (celsius : Nat) (s : State) :
    Answers KeepsMem s (execStackSensorRead sector ctl celsius s) :=
  keepsMem_run fun p hw => by simp [hw]

@[simp] theorem hbmZero_keepsMem (s : State) : Answers KeepsMem s (execHbmZero s) := by
  refine keepsMem_run fun p hw => ?_
  split
  · exact hw
  have h1 : Memory.wf { p.mem with bytes := p.mem.bytes.filter (fun e => hbmTop ≤ e.1), chk := [], ready := true } := by
    rw [memWf_iff] at hw ⊢
    exact ⟨spWf_filter _ hw.1, rfl, hw.2.2⟩
  simp [h1]

@[simp] theorem linkTraining_keepsMem (cxl : Bool) (rate width : Nat) (s : State) : Answers KeepsMem s (execLinkTraining cxl rate width s) :=
  keepsMem_run fun p hw => by simp [hw]

@[simp] theorem hdmDecoderCommit_keepsMem (decoder : BitVec 1) (base size skip ways : Nat) (s : State) :
    Answers KeepsMem s (execHdmDecoderCommit decoder base size skip ways s) :=
  keepsMem_run fun p hw => by simp [hw]

@[simp] theorem cxlMemRead_keepsMem (addr : Nat) (errs : List (Nat × Nat)) (s : State) : Answers KeepsMem s (execCxlMemRead addr errs s) := by
  refine keepsMem_run fun p hw => ?_
  split <;> simp [hw]

@[simp] theorem cxlMemWrite_keepsMem (addr : Nat) (data : List Byte) (poison : Bool) (s : State) :
    Answers KeepsMem s (execCxlMemWrite addr data poison s) := by
  refine keepsMem_run fun p hw => ?_
  split <;> simp [hw]

@[simp] theorem h2dSnoop_keepsMem (_addr : Nat) (s : State) : Answers KeepsMem s (execH2dSnoop _addr s) :=
  keepsMem_run fun p hw => by simp [hw]

@[simp] theorem sqDoorbell_keepsMem (queue : BitVec 3) (tail : BitVec 16) (host : List HostLine) (s : State) :
    Answers KeepsMem s (execSqDoorbell queue tail host s) :=
  keepsMem_run fun p hw => by simp [hw]

@[simp] theorem queueDisable_keepsMem (queue : BitVec 3) (s : State) : Answers KeepsMem s (execQueueDisable queue s) :=
  keepsMem_run fun p hw => by simp [hw]

@[simp] theorem cmdNop_keepsMem (queue : BitVec 3) (s : State) : Answers KeepsMem s (execCmdNop queue s) := by
  exact keepsMem_run fun p hw => Part.runCmd_wf _ _ (fun c => by simpa using hw) hw

@[simp] theorem copyIn_keepsMem (queue : BitVec 3) (host : List HostLine) (s : State) : Answers KeepsMem s (execCopyIn queue host s) := by
  refine keepsMem_run fun p hw => ?_
  have h : Memory.wf (p.hostStores host).mem := by simpa using hw
  exact Part.runCopy_wf _ _ (fun c => Part.copyInLoop_wf _ _ _ _ h) h

@[simp] theorem copyOut_keepsMem (queue : BitVec 3) (s : State) : Answers KeepsMem s (execCopyOut queue s) := by
  exact keepsMem_run fun p hw => Part.runCopy_wf _ _ (fun c => Part.copyOutLoop_wf _ _ _ _ hw) hw

@[simp] theorem hostSubmit_keepsMem (queue : BitVec 3) (host : List HostLine) (s : State) : Answers KeepsMem s (execHostSubmit queue host s) := by
  refine keepsMem_run fun p hw => ?_
  have h : Memory.wf (p.hostStores host).mem := by simpa using hw
  refine Part.runCmd_wf _ _ (fun c => ?_) h
  dsimp only
  repeat' split
  all_goals simpa using hw

@[simp] theorem quiesce_keepsMem (queue : BitVec 3) (s : State) : Answers KeepsMem s (execQuiesce queue s) := by
  refine keepsMem_run fun p hw => Part.runCmd_wf _ _ (fun c => ?_) hw
  split <;> simpa using hw

@[simp] theorem resume_keepsMem (queue : BitVec 3) (s : State) : Answers KeepsMem s (execResume queue s) := by
  refine keepsMem_run fun p hw => Part.runCmd_wf _ _ (fun c => ?_) hw
  repeat' split
  all_goals simpa using hw

@[simp] theorem completionRecordWrite_keepsMem (queue : BitVec 3) (s : State) : Answers KeepsMem s (execCompletionRecordWrite queue s) := by
  refine keepsMem_run fun p hw => ?_
  dsimp only
  repeat' split
  all_goals simp [hw]

@[simp] theorem crHeadWrite_keepsMem (queue : BitVec 3) (head : BitVec 16) (s : State) : Answers KeepsMem s (execCrHeadWrite queue head s) :=
  keepsMem_run fun p hw => by simp [hw]

@[simp] theorem inCommit_keepsMem (channel : BitVec 4) (word : BitVec 64) (s : State) : Answers KeepsMem s (execInCommit channel word s) :=
  keepsMem_run fun p hw => by simp [hw]

@[simp] theorem blockDelivery_keepsMem (channel : BitVec 4) (s : State) : Answers KeepsMem s (execBlockDelivery channel s) := by
  refine keepsMem_run fun p hw => ?_
  dsimp only
  repeat' split
  all_goals simp [hw]

@[simp] theorem statusRecordWrite_keepsMem (s : State) : Answers KeepsMem s (execStatusRecordWrite s) :=
  keepsMem_run fun p hw => by simp [hw]

@[simp] theorem hostReset_keepsMem (kind : HostResetKind) (s : State) : Answers KeepsMem s (execHostReset kind s) :=
  keepsMem_run fun p hw => by simp [hw]

@[simp] theorem pciPowerStateChange_keepsMem (d3hot busMaster : Bool) (s : State) :
    Answers KeepsMem s (execPciPowerStateChange d3hot busMaster s) :=
  keepsMem_run fun p hw => by simp [hw]

@[simp] theorem boot_keepsMem (s : State) : Answers KeepsMem s (execBoot s) := by
  refine answers_ite (keepsMem_next id) ?_
  dsimp only
  split
  · refine keepsMem_next fun hw => ?_
    dsimp only
    split <;> simpa [State.startFw_mem] using hw
  · refine keepsMem_next fun hw => ?_
    split <;> simpa using hw

@[simp] theorem fwReady_keepsMem (s : State) : Answers KeepsMem s (execFwReady s) := by
  exact answers_ite (keepsMem_next id) (keepsMem_next fun hw => by simpa using hw)

@[simp] theorem firmwareFault_keepsMem (s : State) : Answers KeepsMem s (execFirmwareFault s) :=
  keepsMem_run fun p hw => by simp [hw]

@[simp] theorem dupCheck_keepsMem (sector : BitVec 2) (spare : Nat) (err : BitVec 64) (s : State) :
    Answers KeepsMem s (execDupCheck sector spare err s) := by
  refine keepsMem_run fun p hw => ?_
  dsimp only
  repeat' split
  all_goals simp [hw]

@[simp] theorem dupArbitrate_keepsMem (sector : BitVec 2) (spare : Nat) (err : BitVec 64) (s : State) :
    Answers KeepsMem s (execDupArbitrate sector spare err s) := by
  refine keepsMem_run fun p hw => ?_
  dsimp only
  repeat' split
  all_goals simp [hw]

@[simp] theorem integrityNoticeReceive_keepsMem (s : State) : Answers KeepsMem s (execIntegrityNoticeReceive s) := by
  refine keepsMem_run fun p hw => ?_
  split <;> simp [hw]

@[simp] theorem selftestSlice_keepsMem (sector : BitVec 2) (spare : Bool) (unit pattern : Nat) (pass : Bool) (s : State) :
    Answers KeepsMem s (execSelftestSlice sector spare unit pattern pass s) :=
  keepsMem_run fun p hw => by simp [hw]

@[simp] theorem fullTestRequest_keepsMem (s : State) : Answers KeepsMem s (execFullTestRequest s) :=
  keepsMem_run fun p hw => by simp [hw]

@[simp] theorem fullTestCancel_keepsMem (s : State) : Answers KeepsMem s (execFullTestCancel s) :=
  keepsMem_run fun p hw => by simp [hw]

@[simp] theorem fullTestRun_keepsMem (failedCores failedPatterns : List Nat) (s : State) :
    Answers KeepsMem s (execFullTestRun failedCores failedPatterns s) := by
  refine keepsMem_run fun p hw => ?_
  split
  · exact hw
  · extract_lets cores p1 p2 p3 p4 ok p5
    have h1 : Memory.wf p1.mem := by simpa [p1] using hw
    have h2 : Memory.wf p2.mem :=
      Part.each_wf (fun _ _ h => Part.testArea_wf _ h) cores (Part.each_wf (fun _ _ h => Part.saveCode_wf _ h) cores h1)
    have h4 : Memory.wf p4.mem := by dsimp only [p4]; split <;> simp [p3, h2]
    simp [p5, h4]

@[simp] theorem freeze_keepsMem (s : State) : Answers KeepsMem s (execFreeze s) :=
  keepsMem_run fun p hw => by simp [hw]

@[simp] theorem freezeIn_keepsMem (s : State) : Answers KeepsMem s (execFreezeIn s) :=
  keepsMem_run fun p hw => by simp [hw]

@[simp] theorem thaw_keepsMem (s : State) : Answers KeepsMem s (execThaw s) :=
  keepsMem_run fun p hw => by simp [hw]

@[simp] theorem phaseStart_keepsMem (phase : Nat) (s : State) : Answers KeepsMem s (execPhaseStart phase s) :=
  keepsMem_run fun p hw => by simp [hw]

@[simp] theorem commitPoint_keepsMem (s : State) : Answers KeepsMem s (execCommitPoint s) :=
  keepsMem_run fun p hw => by simp [hw]

@[simp] theorem guardBoundary_keepsMem (s : State) : Answers KeepsMem s (execGuardBoundary s) :=
  keepsMem_run fun p hw => by simp [hw]

@[simp] theorem coreStart_keepsMem (s : State) : Answers KeepsMem s (execCoreStart s) :=
  keepsMem_run fun p hw => by simp [hw]

@[simp] theorem rack_keepsMem (core : BitVec 13) (f : RackF) (s : State) : Answers KeepsMem s (execRack core f s) := by
  refine keepsMem_run fun p hw => Part.issue_wf _ _ (fun q hw => ?_) hw
  dsimp only
  repeat' split
  all_goals simp [hw]

@[simp] theorem rackUnitReadDone_keepsMem (sector : BitVec 2) (tag : Nat) (s : State) :
    Answers KeepsMem s (execRackUnitReadDone sector tag s) := by
  refine keepsMem_run fun p hw => ?_
  split <;> simp [hw]

@[simp] theorem remoteRackOpen_keepsMem (s : State) : Answers KeepsMem s (execRemoteRackOpen s) := by
  refine keepsMem_run fun p hw => ?_
  split <;> simp [hw]

@[simp] theorem rackOpenReply_keepsMem (s : State) : Answers KeepsMem s (execRackOpenReply s) := by
  refine keepsMem_run fun p hw => ?_
  dsimp only
  repeat' split
  all_goals simp [hw]

@[simp] theorem rackPullRequest_keepsMem (s : State) : Answers KeepsMem s (execRackPullRequest s) := by
  refine keepsMem_run fun p hw => ?_
  split <;> simp [hw]

@[simp] theorem rackPushUnit_keepsMem (s : State) : Answers KeepsMem s (execRackPushUnit s) := by
  refine keepsMem_run fun p hw => ?_
  split <;> simp [hw]

@[simp] theorem rackPushAck_keepsMem (s : State) : Answers KeepsMem s (execRackPushAck s) := by
  refine keepsMem_run fun p hw => ?_
  dsimp only
  repeat' split
  all_goals simp [hw]

@[simp] theorem rackComplete_keepsMem (sector : BitVec 2) (tag : Nat) (s : State) : Answers KeepsMem s (execRackComplete sector tag s) := by
  refine keepsMem_run fun p hw => ?_
  dsimp only
  repeat' split
  all_goals simp [hw]

@[simp] theorem remoteLdgStg_keepsMem (s : State) : Answers KeepsMem s (execRemoteLdgStg s) := by
  refine keepsMem_run fun p hw => ?_
  split <;> simp [hw]

@[simp] theorem bypass_keepsMem (s : State) : Answers KeepsMem s (execBypass s) := by
  exact keepsMem_tapRun fun _ _ => rfl

@[simp] theorem idcode_keepsMem (s : State) : Answers KeepsMem s (execIdcode s) := by
  exact keepsMem_tapRun fun _ _ => rfl

@[simp] theorem samplePreload_keepsMem (cells : List Byte) (s : State) : Answers KeepsMem s (execSamplePreload cells s) := by
  exact keepsMem_tapRun fun p _ => (p.captureCells_frame).1

@[simp] theorem extest_keepsMem (cells : List Byte) (s : State) : Answers KeepsMem s (execExtest cells s) := by
  exact keepsMem_tapRun fun p _ => (p.captureCells_frame).1

@[simp] theorem clamp_keepsMem (s : State) : Answers KeepsMem s (execClamp s) := by
  exact keepsMem_tapRun fun _ _ => rfl

@[simp] theorem highz_keepsMem (s : State) : Answers KeepsMem s (execHighz s) := by
  exact keepsMem_tapRun fun _ _ => rfl

@[simp] theorem extestPulse_keepsMem (cells : List Byte) (s : State) : Answers KeepsMem s (execExtestPulse cells s) := by
  exact keepsMem_tapRun fun p _ => (p.captureCells_frame).1

@[simp] theorem extestTrain_keepsMem (cells : List Byte) (s : State) : Answers KeepsMem s (execExtestTrain cells s) := by
  exact keepsMem_tapRun fun p _ => (p.captureCells_frame).1

@[simp] theorem scanWin_keepsMem (s : State) : Answers KeepsMem s (execScanWin s) := by
  exact keepsMem_tapRun fun p _ => (p.scanRead_frame).1

@[simp] theorem getInfo_keepsMem (m : MgtReq) (s : State) : Answers KeepsMem s (execGetInfo m s) := by
  exact keepsMem_publicCommand id

@[simp] theorem getTelemetry_keepsMem (m : MgtReq) (s : State) : Answers KeepsMem s (execGetTelemetry m s) := by
  exact keepsMem_publicCommand id

@[simp] theorem getErrrec_keepsMem (m : MgtReq) (seq : Nat) (s : State) : Answers KeepsMem s (execGetErrrec m seq s) := by
  exact keepsMem_publicCommand id

@[simp] theorem getLimits_keepsMem (m : MgtReq) (s : State) : Answers KeepsMem s (execGetLimits m s) := by
  exact keepsMem_publicCommand id

@[simp] theorem setLimits_keepsMem (m : MgtReq) (watts dieC hbmC holdC : Nat) (s : State) :
    Answers KeepsMem s (execSetLimits m watts dieC hbmC holdC s) := by
  refine keepsMem_ownerCommand fun hw => ?_
  dsimp only
  split <;> simpa [State.only] using hw

@[simp] theorem setGraftKey_keepsMem (m : MgtReq) (slot : Nat) (key : Option (List Byte)) (s : State) :
    Answers KeepsMem s (execSetGraftKey m slot key s) := by
  refine keepsMem_ownerCommand fun hw => ?_
  repeat' split
  all_goals simpa [State.setPolicyTo, State.only] using hw

@[simp] theorem setPolicy_keepsMem (m : MgtReq) (signedOnly linkMatch : Bool) (minSvn : Nat) (s : State) :
    Answers KeepsMem s (execSetPolicy m signedOnly linkMatch minSvn s) := by
  refine keepsMem_ownerCommand fun hw => ?_
  dsimp only
  split <;> simpa [State.setPolicyTo, State.only] using hw

@[simp] theorem ownerSet_keepsMem (m : MgtReq) (digest : BitVec 256) (s : State) : Answers KeepsMem s (execOwnerSet m digest s) := by
  refine keepsMem_command fun hw => ?_
  dsimp only
  split <;> simpa [State.setPolicyTo, State.only] using hw

@[simp] theorem ownerClear_keepsMem (m : MgtReq) (s : State) : Answers KeepsMem s (execOwnerClear m s) := by
  refine keepsMem_ownerCommand fun hw => ?_
  simpa [State.setPolicyTo] using hw

@[simp] theorem fwBegin_keepsMem (m : MgtReq) (length : Nat) (s : State) : Answers KeepsMem s (execFwBegin m length s) := by
  refine keepsMem_updateCommand fun hw => ?_
  dsimp only
  split <;> simpa [State.only, State.putUpd_mem] using hw

@[simp] theorem fwWrite_keepsMem (m : MgtReq) (offset : Nat) (chunk : List Byte) (s : State) :
    Answers KeepsMem s (execFwWrite m offset chunk s) := by
  refine keepsMem_updateCommand fun hw => ?_
  dsimp only
  split
  · exact hw
  split
  · exact hw
  · split <;> simpa [State.only, State.putUpd_mem] using hw

@[simp] theorem fwVerify_keepsMem (m : MgtReq) (s : State) : Answers KeepsMem s (execFwVerify m s) := by
  refine keepsMem_updateCommand fun hw => ?_
  dsimp only
  repeat' split
  all_goals simpa [State.only, State.putUpd_mem, State.recoverWith, State.startFw_mem] using hw

@[simp] theorem fwActivate_keepsMem (m : MgtReq) (s : State) : Answers KeepsMem s (execFwActivate m s) := by
  refine keepsMem_updateCommand fun hw => ?_
  dsimp only
  split <;> simpa [State.only] using hw

@[simp] theorem fwCommitSvn_keepsMem (m : MgtReq) (s : State) : Answers KeepsMem s (execFwCommitSvn m s) := by
  refine keepsMem_updateCommand fun hw => ?_
  dsimp only
  repeat' split
  all_goals simpa [State.only] using hw

@[simp] theorem testLoad_keepsMem (m : MgtReq) (container : List Byte) (s : State) : Answers KeepsMem s (execTestLoad m container s) := by
  refine keepsMem_ownerCommand fun hw => ?_
  dsimp only
  repeat' split
  all_goals simpa [Part.loadPackage] using hw

@[simp] theorem mctpControlMessage_keepsMem (via : Transport) (eid : BitVec 8) (s : State) :
    Answers KeepsMem s (execMctpControlMessage via eid s) :=
  keepsMem_run fun p hw => by simp [hw]

@[simp] theorem powerUp_keepsMem (strap : BitVec 3) (s : State) : Answers KeepsMem s (execPowerUp strap s) := by
  exact answers_ite (keepsMem_next id) (keepsMem_next fun hw => by simpa using hw)

@[simp] theorem hbmTrainingDone_keepsMem (s : State) : Answers KeepsMem s (execHbmTrainingDone s) :=
  keepsMem_run fun p hw => by simp [hw]

@[simp] theorem supplyWarning_keepsMem (centivolts : Nat) (s : State) : Answers KeepsMem s (execSupplyWarning centivolts s) :=
  keepsMem_run fun p hw => by simp [hw]

@[simp] theorem recoveryTimer_keepsMem (centivolts : Nat) (s : State) : Answers KeepsMem s (execRecoveryTimer centivolts s) :=
  keepsMem_run fun p hw => by simp [hw]

@[simp] theorem holdRepeat_keepsMem (s : State) : Answers KeepsMem s (execHoldRepeat s) :=
  keepsMem_run fun p hw => by simp [hw]

@[simp] theorem undervoltageReset_keepsMem (centivolts : Nat) (s : State) : Answers KeepsMem s (execUndervoltageReset centivolts s) := by
  exact answers_ite (keepsMem_next id) (keepsMem_next fun _ => Part.partReset_wf _ _ _)

@[simp] theorem inputFallsBelow20v_keepsMem (s : State) : Answers KeepsMem s (execInputFallsBelow20v s) := by
  exact keepsMem_next fun _ => Part.partReset_wf _ _ _

@[simp] theorem resetN_keepsMem (s : State) : Answers KeepsMem s (execResetN s) := by
  exact keepsMem_next fun _ => Part.partReset_wf _ _ _

@[simp] theorem perstN_keepsMem (s : State) : Answers KeepsMem s (execPerstN s) := by
  exact keepsMem_next fun _ => Part.partReset_wf _ _ _

@[simp] theorem overvoltageFlag_keepsMem (centivolts : Nat) (s : State) : Answers KeepsMem s (execOvervoltageFlag centivolts s) :=
  keepsMem_run fun p hw => by simp [hw]

@[simp] theorem railFault_keepsMem (rail millivolts : Nat) (s : State) : Answers KeepsMem s (execRailFault rail millivolts s) :=
  keepsMem_run fun p hw => by simp [hw]

@[simp] theorem frefclkLoss_keepsMem (s : State) : Answers KeepsMem s (execFrefclkLoss s) :=
  keepsMem_run fun p hw => by simp [hw]

@[simp] theorem refclk100Loss_keepsMem (s : State) : Answers KeepsMem s (execRefclk100Loss s) :=
  keepsMem_run fun p hw => by simp [hw]

@[simp] theorem thermalTrip_keepsMem (sensor : Nat) (s : State) : Answers KeepsMem s (execThermalTrip sensor s) :=
  keepsMem_run fun p hw => by simp [hw]

@[simp] theorem cclkStop_keepsMem (s : State) : Answers KeepsMem s (execCclkStop s) :=
  keepsMem_run fun p hw => by simp [hw]

@[simp] theorem cclkRestart_keepsMem (s : State) : Answers KeepsMem s (execCclkRestart s) :=
  keepsMem_run fun p hw => by simp [hw]

@[simp] theorem registerWrite_keepsMem (offset size : Nat) (value : BitVec 64) (s : State) :
    Answers KeepsMem s (execRegisterWrite offset size value s) := by
  refine keepsMem_run fun p hw => ?_
  split
  · exact hw
  split
  · simpa using hw
  split
  · simpa using hw
  · split
    · exact Part.writeReg_wf _ _ _ hw
    · simpa using hw

@[simp] theorem scanRead_keepsMem (jtag : Bool) (s : State) : Answers KeepsMem s (execScanRead jtag s) :=
  keepsMem_run fun p hw => by simp [hw]

@[simp] theorem preload_keepsMem (sector : BitVec 2) (s : State) : Answers KeepsMem s (execPreload sector s) := by
  refine keepsMem_run fun p hw => ?_
  extract_lets x
  split
  · exact hw
  rename_i p1 r p2 p3 _
  have h1 : Memory.wf p1.mem := by simpa [p1] using hw
  have h2 : Memory.wf p2.mem := Part.each_wf (fun p i h => Part.preloadEntry_wf _ _ _ h) _ h1
  have h3 : Memory.wf p3.mem := Part.each_wf (fun p a h => Part.preloadHost_wf _ _ h) _ h2
  simp [h3]

@[simp] theorem descEnterQueue_keepsMem (sector : BitVec 2) (s : State) : Answers KeepsMem s (execDescEnterQueue sector s) := by
  refine keepsMem_run fun p hw => ?_
  split
  · exact hw
  split
  next u q he =>
    have h : Memory.wf q.mem := by rw [Part.takeSub_mem he]; exact hw
    simp [h]
  · exact hw

@[simp] theorem remoteSubmission_keepsMem (sector : BitVec 2) (s : State) : Answers KeepsMem s (execRemoteSubmission sector s) := by
  refine keepsMem_run fun p hw => ?_
  dsimp only
  repeat' split
  all_goals simp [hw]

@[simp] theorem descHandover_keepsMem (core : BitVec 13) (s : State) : Answers KeepsMem s (execDescHandover core s) := by
  refine keepsMem_run fun p hw => ?_
  dsimp only
  repeat' split
  all_goals simp [hw]

@[simp] theorem completionRelease_keepsMem (sector : BitVec 2) (flow : BitVec 12) (s : State) :
    Answers KeepsMem s (execCompletionRelease sector flow s) := by
  refine keepsMem_run fun p hw => ?_
  dsimp only
  repeat' split
  all_goals simp [hw]

@[simp] theorem dcZeroRelease_keepsMem (sector : BitVec 2) (s : State) : Answers KeepsMem s (execDcZeroRelease sector s) := by
  refine keepsMem_run fun p hw => ?_
  dsimp only
  repeat' split
  all_goals simp [hw]

@[simp] theorem delayRelease_keepsMem (sector : BitVec 2) (s : State) : Answers KeepsMem s (execDelayRelease sector s) := by
  refine keepsMem_run fun p hw => ?_
  dsimp only
  repeat' split
  all_goals simp [hw]

@[simp] theorem spdmRequest_keepsMem (via : Transport) (r : SpdmReq) (s : State) : Answers KeepsMem s (execSpdmRequest via r s) := by
  refine answers_ite (keepsMem_next id) (keepsMem_next fun hw => ?_)
  dsimp only
  repeat' split
  all_goals simpa using hw

@[simp] theorem sessionTimeout_keepsMem (via : Transport) (s : State) : Answers KeepsMem s (execSessionTimeout via s) :=
  keepsMem_run fun p hw => by simp [hw]

@[simp] theorem telemetrySample_keepsMem (t : Sample) (s : State) : Answers KeepsMem s (execTelemetrySample t s) :=
  keepsMem_run fun p hw => by simp [hw]

@[simp] theorem thermalRelease_keepsMem (s : State) : Answers KeepsMem s (execThermalRelease s) :=
  keepsMem_run fun p hw => by simp [hw]

@[simp] theorem tickTokenSend_keepsMem (s : State) : Answers KeepsMem s (execTickTokenSend s) :=
  keepsMem_run fun p hw => by simp [hw]

@[simp] theorem tickIssue_keepsMem (s : State) : Answers KeepsMem s (execTickIssue s) :=
  keepsMem_run fun p hw => by simp [hw]

@[simp] theorem tickToken_keepsMem (rx : CtlRx) (t : TokenMsg) (s : State) : Answers KeepsMem s (execTickToken rx t s) := by
  refine keepsMem_run fun p hw => ?_
  dsimp only
  split
  · exact hw
  split
  · exact hw
  next q he =>
    have h : Memory.wf q.mem := by rw [Part.takeCtl_mem he]; exact hw
    simp [h]

@[simp] theorem tickInEdge_keepsMem (s : State) : Answers KeepsMem s (execTickInEdge s) := by
  refine keepsMem_run fun p hw => ?_
  dsimp only
  repeat' split
  all_goals simp [hw]

@[simp] theorem tickApply_keepsMem (s : State) : Answers KeepsMem s (execTickApply s) := by
  refine keepsMem_run fun p hw => ?_
  split
  · exact hw
  split
  · exact hw
  split
  · exact Part.applyTick_wf _ (by simpa using hw)
  split
  · exact Part.applyTick_wf _ (by simpa using hw)
  · exact hw

@[simp] theorem tickFallback_keepsMem (s : State) : Answers KeepsMem s (execTickFallback s) := by
  refine keepsMem_run fun p hw => ?_
  split <;> simp [hw]

@[simp] theorem strayEdgeDiscard_keepsMem (s : State) : Answers KeepsMem s (execStrayEdgeDiscard s) := by
  refine keepsMem_run fun p hw => ?_
  split <;> simp [hw]

@[simp] theorem journalUnwindDone_keepsMem (s : State) : Answers KeepsMem s (execJournalUnwindDone s) :=
  keepsMem_run fun p hw => by simp [hw]

@[simp] theorem frameStatusReceive_keepsMem (s : State) : Answers KeepsMem s (execFrameStatusReceive s) := by
  refine keepsMem_run fun p hw => ?_
  split <;> simp [hw]

@[simp] theorem standbyTakeover_keepsMem (s : State) : Answers KeepsMem s (execStandbyTakeover s) :=
  keepsMem_run fun p hw => by simp [hw]

@[simp] theorem stretchRequestReceive_keepsMem (s : State) : Answers KeepsMem s (execStretchRequestReceive s) := by
  refine keepsMem_run fun p hw => ?_
  split <;> simp [hw]

@[simp] theorem holdPacketReceive_keepsMem (s : State) : Answers KeepsMem s (execHoldPacketReceive s) := by
  refine keepsMem_run fun p hw => ?_
  split <;> simp [hw]

@[simp] theorem releasePacketReceive_keepsMem (s : State) : Answers KeepsMem s (execReleasePacketReceive s) := by
  refine keepsMem_run fun p hw => ?_
  split <;> simp [hw]

@[simp] theorem holdNotice_keepsMem (rx : CtlRx) (s : State) : Answers KeepsMem s (execHoldNotice rx s) := by
  refine keepsMem_run fun p hw => ?_
  split
  · exact hw
  split
  · exact hw
  next q he =>
    have h : Memory.wf q.mem := by rw [Part.takeCtl_mem he]; exact hw
    simp [h]

@[simp] theorem holdLapse_keepsMem (chip source : Nat) (s : State) : Answers KeepsMem s (execHoldLapse chip source s) := by
  refine keepsMem_run fun p hw => ?_
  split <;> simp [hw]

@[simp] theorem graftLoad_keepsMem (queue : BitVec 3) (host : List HostLine) (s : State) : Answers KeepsMem s (execGraftLoad queue host s) := by
  refine keepsMem_run fun p hw => ?_
  have h : Memory.wf (p.hostStores host).mem := by simpa using hw
  refine Part.runCmd_wf _ _ (fun c => ?_) h
  dsimp only
  repeat' split
  all_goals simp [hw]

@[simp] theorem tickPathStageEnd_keepsMem (s : State) : Answers KeepsMem s (execTickPathStageEnd s) := by
  refine keepsMem_run fun p hw => ?_
  dsimp only
  repeat' split
  all_goals simp [hw]

@[simp] theorem txnBegin_keepsMem (queue : BitVec 3) (s : State) : Answers KeepsMem s (execTxnBegin queue s) := by
  refine keepsMem_run fun p hw => Part.runCmd_wf _ _ (fun c => ?_) hw
  split <;> simpa using hw

@[simp] theorem txnStage_keepsMem (queue : BitVec 3) (host : List HostLine) (s : State) : Answers KeepsMem s (execTxnStage queue host s) := by
  refine keepsMem_run fun p hw => ?_
  have h : Memory.wf (p.hostStores host).mem := by simpa using hw
  refine Part.runCmd_wf _ _ (fun c => ?_) h
  dsimp only
  repeat' split
  all_goals simp [hw]

@[simp] theorem txnCommit_keepsMem (queue : BitVec 3) (s : State) : Answers KeepsMem s (execTxnCommit queue s) := by
  refine keepsMem_run fun p hw => Part.runCmd_wf _ _ (fun c => ?_) hw
  dsimp only
  repeat' split
  all_goals simpa using hw

@[simp] theorem txnValidationDone_keepsMem (s : State) : Answers KeepsMem s (execTxnValidationDone s) := by
  refine keepsMem_run fun p hw => ?_
  dsimp only
  repeat' split
  all_goals simp [hw]

@[simp] theorem txnRollback_keepsMem (queue : BitVec 3) (s : State) : Answers KeepsMem s (execTxnRollback queue s) := by
  refine keepsMem_run fun p hw => Part.runCmd_wf _ _ (fun c => ?_) hw
  dsimp only
  repeat' split
  all_goals simpa using hw

/-- Every command keeps the canonical form of memory. -/
theorem exec_keepsMem (i : Instr) (s : State) : Answers KeepsMem s (exec i s) := by
  cases i <;> simp [exec]

/-- Settles O58: each command does, and so does the cycle that passes with none waiting. -/
theorem memoryStaysCanonical : Obligations.MemoryStaysCanonical := by
  intro s t hst hw
  rw [Steps, step] at hst
  cases hq : s.pending with
  | nil =>
    rw [hq] at hst
    cases hst
    exact Part.passCycle_wf hw
  | cons c rest =>
    rw [hq] at hst
    obtain ⟨u, hu, hk⟩ := exec_keepsMem c { s with pending := rest }
    cases hst.symm.trans hu
    exact hk hw

end Sys2Proof.Machine
end

section
/-!
PROOF. The host reads back what it wrote (R397, R399).
-/
namespace Sys2Proof.Machine

/-- A register that the store of a host line does not count in: no sticky bit or count of the host interface, no count of a sector. -/
def offStore (j : Nat) : Prop :=
  j < 0x2000000 ∧ j ≠ HIF_STICKY ∧ j ≠ HIF_FRAME_ERR ∧ j ≠ HIF_STAT_MEMWR ∨
    0x2000000 ≤ j ∧ 0x540000 ≤ j % 0x800000 ∧ j % 0x800000 < 0x550000 ∧ j % 0x800000 ≠ 0x540048

/-- What decides whether a host access goes through is as before. -/
def SameAccess (p q : Part) : Prop := q.hif = p.hif ∧ q.mem.ready = p.mem.ready ∧ ∀ j, offStore j → q.rd j = p.rd j

theorem Part.rd_rcInvalidate_offStore (p : Part) (a n : Nat) {j : Nat} (h : offStore j) : (p.rcInvalidate a n).rd j = p.rd j := by
  simp only [offStore] at h
  refine Part.each_get (fun q => q.rd j) _ _ _ fun q s => ?_
  have hs : TBL_STAT_RC_INVAL s ≠ j := by simp only [TBL_STAT_RC_INVAL, secBase]; omega
  dsimp only
  split
  · rfl
  · rw [Part.rd_bump_other _ _ hs]; simp

theorem Part.rd_writeLine_plain (p : Part) (g q a : Nat) (bs : List Byte) (t : Option Nat) (h : p.attr a 5 = false) {j : Nat} (hj : offStore j) :
    (p.writeLine g q a bs t).rd j = p.rd j := by
  have hw : MEM_STAT_WR (p.stack a / 2) ≠ j := by
    simp only [offStore] at hj
    simp only [MEM_STAT_WR, secBase]
    omega
  simp [Part.writeLine, Part.journalLine, h, Part.putHbm, Part.rd_bump_other _ _ hw, Part.rd_rcInvalidate_offStore _ _ _ hj]

theorem SameAccess.bump {p q : Part} (h : SameAccess p q) : SameAccess p (q.bump HIF_STAT_MEMWR 1) := by
  obtain ⟨hhif, hready, hrd⟩ := h
  refine ⟨by simpa using hhif, by simpa using hready, fun j hj => ?_⟩
  rw [Part.rd_bump_other _ _ (by simp only [offStore, HIF_STAT_MEMWR] at hj ⊢; omega), hrd j hj]

theorem Part.hifStick_sameAccess (p : Part) (i : Nat) : SameAccess p (p.hifStick i) := by
  refine ⟨by simp [Part.hifStick], by simp [Part.hifStick], fun j hj => ?_⟩
  simp only [offStore, HIF_STICKY, HIF_FRAME_ERR] at hj
  exact Part.rd_stick_other _ _ (by simp only [HIF_STICKY]; omega) (by simp only [HIF_STICKY]; omega)

theorem Part.ready_putLine (p : Part) (a : Nat) (bs : List Byte) (t : Option Nat) : (p.putLine a bs t).mem.ready = p.mem.ready := by
  unfold Part.putLine
  split <;> rfl

/-- An allowed write leaves what decides whether the host may read. -/
theorem Part.hostWriteLine_sameAccess (p : Part) (a : Nat) (bs : List Byte) (poison : Bool) (hm : p.hostMay true a = true)
    (hl : p.slotLocked a = false) (hj : p.attr a 5 = false) {q : Part} (h : p.hostWriteLine a bs poison = (true, q)) : SameAccess p q := by
  have hx : SameAccess p (if poison then p.hifStick 1 else p) := by
    cases poison
    · exact ⟨rfl, rfl, fun _ _ => rfl⟩
    · exact p.hifStick_sameAccess 1
  have hxj : (if poison then p.hifStick 1 else p).attr a 5 = false := by
    cases poison
    · exact hj
    · exact ((CountsOnly.stick p 1).attr a 5).trans hj
  simp only [Part.hostWriteLine, hm, hl, Bool.not_true, Bool.false_eq_true, if_false, Prod.mk.injEq, true_and] at h
  subst h
  generalize (if poison then p.hifStick 1 else p) = x at hx hxj
  obtain ⟨hhif, hready, hrd⟩ := hx
  refine ⟨by simpa using hhif, ?_, fun j hj => ?_⟩
  · rw [(x.writeLine_plain _ _ _ _ _ hxj).1, Part.ready_putLine, hready]
  · rw [Part.rd_writeLine_plain _ _ _ _ _ _ hxj hj, hrd j hj]

section
variable {p q : Part} (h : SameAccess p q)
include h

theorem SameAccess.getB {o : Nat} (i : Nat) (ho : offStore o) : q.getB o i = p.getB o i := Part.getB_congr i (h.2.2 o ho)

theorem SameAccess.getF {o : Nat} (lo w : Nat) (ho : offStore o) : q.getF o lo w = p.getF o lo w := Part.getF_congr lo w (h.2.2 o ho)

/-- The host reaches the lines that it reached (R391). -/
theorem SameAccess.hostAddr (x : Nat) : q.hostAddr x = p.hostAddr x := by
  unfold Part.hostAddr Part.clocked
  rw [h.1, h.getB 0 (o := HIF_STATUS) (.inl (by decide)), h.getB 4 (o := PWR_STATUS) (.inl (by decide)),
    h.getB 7 (o := PWR_STATUS) (.inl (by decide))]

/-- The regions lie where they lay (R302). -/
theorem SameAccess.region (a : Nat) : q.region a = p.region a := by
  refine List.find?_congr fun n hn => ?_
  have hn : n < 64 := List.mem_range.1 hn
  rw [h.getB 0 (.inr (by simp only [MEM_RGN_ATTR, secBase]; omega)), h.getF 12 28 (.inr (by simp only [MEM_RGN_BASE, secBase]; omega)),
    h.getF 12 28 (.inr (by simp only [MEM_RGN_LIMIT, secBase]; omega))]

/-- A region of HBM allows what it allowed (R303). -/
theorem SameAccess.attr (a i : Nat) : q.attr a i = p.attr a i := by
  unfold Part.attr
  rw [h.region]
  split
  · next n hn =>
    have hn : n < 64 := List.mem_range.1 (List.mem_of_find?_eq_some hn)
    rw [h.getB i (.inr (by simp only [MEM_RGN_ATTR, secBase]; omega))]
  · rfl

/-- The host may read what it could read (R397). -/
theorem SameAccess.hostMay (w : Bool) (a : Nat) : q.hostMay w a = p.hostMay w a := by
  have hs : isHbm a = true → q.getF (MEM_SLICE 0 (a >>> 30)) 0 3 = p.getF (MEM_SLICE 0 (a >>> 30)) 0 3 := fun ha => by
    have ha : a >>> 30 < 512 := by
      have hlt : a < 0x8000000000 := of_decide_eq_true ha
      rw [Nat.shiftRight_eq_div_pow]
      omega
    exact h.getF _ _ (.inr (by simp only [MEM_SLICE, secBase]; omega))
  have hz : ∀ s, q.getB (MEM_STATUS s) 0 = p.getB (MEM_STATUS s) 0 := fun s => h.getB _ (.inr (by simp only [MEM_STATUS, secBase]; omega))
  have hm : q.hostMapped a = p.hostMapped a := by
    cases ha : isHbm a
    · simp [Part.hostMapped, ha]
    · simp only [Part.hostMapped, Part.stack, hs ha, hz]
  simp only [Part.hostMay, hm, Part.running, h.attr, h.getB 2 (o := HIF_CTRL) (.inl (by decide)),
    h.getB 0 (o := TIK_STATUS) (.inl (by decide))]

end

/-- The raw bytes of a line that holds 64 given bytes are those bytes. -/
theorem Part.rawBytes_of_byteAt {p : Part} {a : Nat} {bs : List Byte} (hl : bs.length = 64) (h : ∀ i, i < 64 → p.byteAt (a + i) = bs.getD i 0#8) :
    p.rawBytes a 64 = bs := by
  refine List.ext_getElem (by simp [Part.rawBytes, hl]) fun i h1 h2 => ?_
  have hi : i < 64 := hl ▸ h2
  simpa [Part.rawBytes, Part.byteAt, h2] using h i hi

/-- Settles O60: the line that a write stored decodes as what was written, data or poison. -/
theorem hostReadsBack : Obligations.HostReadsBack := by
  intro s addr data poison a p ha hw hr hl hj hready
  obtain ⟨x, hx, -, hmem, -⟩ := p.hostWriteLine_stores a data poison hw hl hj
  have hsame : SameAccess p (x.bump HIF_STAT_MEMWR 1) := (p.hostWriteLine_sameAccess a data poison hw hl hj hx).bump
  have hb : Becomes (.cxlMemWrite addr data poison) s (x.bump HIF_STAT_MEMWR 1) := cxlMemWrite_becomes s ha hx
  have hq : (x.bump HIF_STAT_MEMWR 1).mem = (p.putLine a (fitBytes 64 data) (p.hostToken a poison)).mem := by rw [← hmem]; simp
  generalize x.bump HIF_STAT_MEMWR 1 = q at hsame hb hq
  have hready' : q.mem.ready = true := hsame.2.1.trans hready
  obtain ⟨hread, hpois, -⟩ := q.cxlRead_allowed a ((hsame.hostMay false a).trans hr)
  have hrb := cxlMemRead_becomes { s with p := q } [] ((hsame.hostAddr addr).trans ha)
  refine ⟨q, q.cxlRead a, hb, hrb, ?_, ?_⟩
  · cases poison
    case false =>
      have hclean : rsDecode (spGet 0 q.mem.chk a) = .clean := by
        rw [hq, show p.hostToken a false = none from rfl, (p.putLine_data a (length_fitBytes 64 data)).1]
        rfl
      rw [hpois, (q.readLine_clean 1 10 0 a hready' hclean).1]
      rfl
    case true =>
      have hp : spGet 0 q.mem.chk a = poisonQ := by rw [hq]; exact p.putLine_poison a _ _
      have hd : rsDecode (spGet 0 q.mem.chk a) = .poisoned [] := by rw [hp]; decide
      rw [hpois]
      simp [Part.readLine, hready', hd]
  · intro hp
    subst hp
    obtain ⟨hchk, hbytes⟩ := p.putLine_data a (length_fitBytes 64 data)
    have hclean : rsDecode (spGet 0 q.mem.chk a) = .clean := by
      rw [hq, show p.hostToken a false = none from rfl, hchk]
      rfl
    rw [hread, (q.readLine_clean 1 10 0 a hready' hclean).1]
    exact Part.rawBytes_of_byteAt (length_fitBytes 64 data) fun i hi => (Part.byteAt_congr hq _).trans (hbytes i hi)

end Sys2Proof.Machine
end

section
/-!
PROOF. Local and irregular accesses (R112, R115, R116).
-/
namespace Sys2Proof.Machine

theorem alignDown_two (a : Nat) : alignDown 2 a = a / 4 * 4 := by
  simp [alignDown, Nat.shiftRight_eq_div_pow, Nat.shiftLeft_eq]

section
variable (p : Part) (c : Nat)

/-- A core that issues waits for what it waited for before (R112). -/
theorem Part.mustWait_runs (seq : Nat) (r w : List (Nat × Nat)) : (p.setCore c (p.core c).runs).mustWait c seq r w = p.mustWait c seq r w := by
  simp only [Part.mustWait, Part.flights, Part.core_setCore, if_true]
  rfl

end

/-- A word stored in a granule that is not poison changes its bytes alone. -/
theorem Part.spadStore_word (p : Part) (c : Nat) {a : Nat} (v : Nat) (ha : a % 4 = 0) (hg : p.granPoison (spadAddr c a) = false) :
    p.spadStore c a (leBytes 4 v) = { p with mem := { p.mem with bytes := putBytes p.mem.bytes (spadAddr c a) (leBytes 4 v) } } := by
  refine p.store_gran 1 0 (spadAddr c a) (leBytes 4 v) ?_ (by simp [leBytes]) ?_ (by simp) hg
  · exact decide_eq_false (by simp only [spadAddr]; omega)
  · simp only [spadAddr, hbmTop, length_leBytes]
    omega

section
variable (s : State) (n : BitVec 13) (f : FmtA)

/-- The scratchpad address of a word access. -/
theorem Core.wordAddr_eq (k : Core) :
    k.wordAddr f = (k.reg f.ra.toNat + if f.i = 1 then f.imm.toNat else k.reg f.rb.toNat) % 2 ^ 32 / 4 * 4 := by
  rw [Core.wordAddr, alignDown_two, Core.opB]

variable (h : s.p.ready n.toNat (f.rd.toNat :: f.sources) = true)
include h

theorem lds_reads (ha : (s.p.core n.toNat).wordAddr f + 4 ≤ 0x50000)
    (hw : s.p.mustWait n.toNat (s.p.core n.toNat).seq [((s.p.core n.toNat).wordAddr f, (s.p.core n.toNat).wordAddr f + 4)] [] = false)
    (hp : s.p.spadPoison n.toNat ((s.p.core n.toNat).wordAddr f, (s.p.core n.toNat).wordAddr f + 4) = none) :
    ∃ q, Becomes (.lds n f) s q ∧
      Retires s.p q n.toNat f.rd.toNat (leNat (s.p.spad n.toNat ((s.p.core n.toNat).wordAddr f) 4) % 2 ^ 32) := by
  refine ⟨_, becomes_issue rfl h, ?_⟩
  have hk : (s.p.setCore n.toNat (s.p.core n.toNat).runs).core n.toNat = (s.p.core n.toNat).runs := by simp
  have hlt : ¬(s.p.core n.toNat).wordAddr f + 4 > spadBytes := by simp only [spadBytes]; omega
  have hread : (s.p.setCore n.toNat (s.p.core n.toNat).runs).readWord n.toNat ((s.p.core n.toNat).wordAddr f) =
      (leNat (s.p.spad n.toNat ((s.p.core n.toNat).wordAddr f) 4), s.p.setCore n.toNat (s.p.core n.toNat).runs) := by
    rw [Part.readWord, show (s.p.setCore n.toNat (s.p.core n.toNat).runs).spadPoison n.toNat _ = none from hp]
    rfl
  dsimp only
  rw [hk, show (s.p.core n.toNat).runs.wordAddr f = (s.p.core n.toNat).wordAddr f from rfl, if_neg hlt,
    show (s.p.core n.toNat).runs.seq = (s.p.core n.toNat).seq from rfl, Part.mustWait_runs, hw, if_neg (by decide), hread, Part.modCore_eq, hk]
  exact retires_set _ _ _ _

theorem sts_stores (ha : (s.p.core n.toNat).wordAddr f + 4 ≤ 0x50000) (hc : s.p.codeEnd n.toNat ≤ (s.p.core n.toNat).wordAddr f)
    (hw : s.p.mustWait n.toNat (s.p.core n.toNat).seq [] [((s.p.core n.toNat).wordAddr f, (s.p.core n.toNat).wordAddr f + 4)] = false)
    (hg : s.p.granPoison (spadAddr n.toNat ((s.p.core n.toNat).wordAddr f)) = false) :
    ∃ q, Becomes (.sts n f) s q ∧ q = { s.p with cores := q.cores, mem := { s.p.mem with bytes := q.mem.bytes } } ∧
      (∀ d, q.core d = if d = n.toNat then (s.p.core n.toNat).runs.next else s.p.core d) ∧
      q.mem.bytes = putBytes s.p.mem.bytes (spadAddr n.toNat ((s.p.core n.toNat).wordAddr f)) (leBytes 4 ((s.p.core n.toNat).reg f.rd.toNat)) := by
  have hk : (s.p.setCore n.toNat (s.p.core n.toNat).runs).core n.toNat = (s.p.core n.toNat).runs := by simp
  have hlt : ¬(s.p.core n.toNat).wordAddr f + 4 > spadBytes := by simp only [spadBytes]; omega
  have h4 : (s.p.core n.toNat).wordAddr f % 4 = 0 := by rw [Core.wordAddr_eq]; omega
  refine ⟨_, becomes_issue rfl h, ?_⟩
  dsimp only
  rw [hk, show (s.p.core n.toNat).runs.wordAddr f = (s.p.core n.toNat).wordAddr f from rfl, if_neg hlt,
    show (s.p.setCore n.toNat (s.p.core n.toNat).runs).codeEnd n.toNat = s.p.codeEnd n.toNat from rfl, if_neg (not_lt.2 hc),
    show (s.p.core n.toNat).runs.seq = (s.p.core n.toNat).seq from rfl, Part.mustWait_runs, hw, if_neg (by decide),
    Part.spadStore_word (s.p.setCore n.toNat (s.p.core n.toNat).runs) _ _ h4 hg, Part.modCore_eq,
    show (s.p.core n.toNat).runs.reg f.rd.toNat = (s.p.core n.toNat).reg f.rd.toNat from rfl]
  refine ⟨rfl, fun d => ?_, rfl⟩
  by_cases hd : d = n.toNat
  · subst hd
    simp [Part.core, Part.setCore]
  · simp [Part.core, Part.setCore, hd, Ne.symm hd]

theorem local_past_spad_faults (hf : (s.p.core n.toNat).faultSeq = none) (ha : 0x50000 < (s.p.core n.toNat).wordAddr f + 4) :
    (∃ q, Becomes (.lds n f) s q ∧ FaultsWith s.p q n.toNat 2) ∧ ∃ q, Becomes (.sts n f) s q ∧ FaultsWith s.p q n.toNat 2 := by
  have hw : ((s.p.setCore n.toNat (s.p.core n.toNat).runs).core n.toNat).wordAddr f + 4 > spadBytes := by simpa [spadBytes] using ha
  exact ⟨faults_of_issue rfl h hf (if_pos hw), faults_of_issue rfl h hf (if_pos hw)⟩

theorem sts_code_faults (hf : (s.p.core n.toNat).faultSeq = none) (ha : (s.p.core n.toNat).wordAddr f + 4 ≤ 0x50000)
    (hc : (s.p.core n.toNat).wordAddr f < s.p.codeEnd n.toNat) : ∃ q, Becomes (.sts n f) s q ∧ FaultsWith s.p q n.toNat 3 := by
  have hk : (s.p.setCore n.toNat (s.p.core n.toNat).runs).core n.toNat = (s.p.core n.toNat).runs := by simp
  refine faults_of_issue rfl h hf ?_
  dsimp only
  rw [hk, if_neg (by show ¬(s.p.core n.toNat).wordAddr f + 4 > spadBytes; simp only [spadBytes]; omega)]
  exact if_pos hc

end

/-- Settles O3: each clause is one of the lemmas above, with the word's address written out. -/
theorem localLoadsAndStores : Obligations.LocalLoadsAndStores := by
  intro s n f h p c k a
  have e : k.wordAddr f = a := Core.wordAddr_eq f k
  refine ⟨fun ha hw hp => ?_, fun ha hc hw hg => ?_, fun hf ha => ?_, fun hf ha hc => ?_⟩
  · rw [← e] at ha hw hp ⊢
    exact lds_reads s n f h ha hw hp
  · rw [← e] at ha hc hw hg
    obtain ⟨q, hb, hq, hcore, hbytes⟩ := sts_stores s n f h ha hc hw hg
    refine ⟨q, hb, hq, hcore, fun x => ?_⟩
    rw [Part.byteAt, hbytes, spGet_putBytes, length_leBytes, ← e]
    rfl
  · exact local_past_spad_faults s n f h hf (e ▸ ha)
  · exact sts_code_faults s n f h hf (e ▸ ha) (e ▸ hc)

end Sys2Proof.Machine
end

section
/-!
PROOF. LDG and STG go out (R116).
-/
namespace Sys2Proof.Machine

/-- The global word address of an irregular access, from its two registers (R116). -/
theorem Core.irrAddr_eq (k : Core) (f : IrrF) : k.irrAddr f = ((k.reg f.rb.toNat % 2 ^ 24) * 2 ^ 32 + k.reg f.ra.toNat) / 4 * 4 := by
  rw [Core.irrAddr, alignDown_two, Nat.shiftLeft_eq]

@[simp] theorem Part.core_ite (b : Prop) [Decidable b] (p q : Part) (d : Nat) : (if b then p else q).core d = if b then p.core d else q.core d :=
  apply_ite (fun x : Part => x.core d) b p q

@[simp] theorem Part.irrSend_core (p : Part) (c : Nat) (i : IrrOp) (d : Nat) : (p.irrSend c i).core d = p.core d := by
  simp [Part.irrSend]

section
variable {s : State} {n : BitVec 13} {f : IrrF} {i : Instr} {load : Bool} (he : exec i s = s.run fun p => p.issueIrr n.toNat f load)
  (h : s.p.ready n.toNat [f.rd.toNat, f.ra.toNat, f.rb.toNat] = true)
include he h

theorem irr_goes_out (ho : (s.p.core n.toNat).outstanding < 4)
    (hm : gChip ((s.p.core n.toNat).irrAddr f) = s.p.chip → s.p.irrMapped load (gLocal ((s.p.core n.toNat).irrAddr f)) = true) :
    ∃ q, Becomes i s q ∧ (∀ d, d ≠ n.toNat → q.core d = s.p.core d) ∧ q.mem = s.p.mem ∧
      q.core n.toNat = { (s.p.core n.toNat).runs.next with irr := (s.p.core n.toNat).irr ++
        [⟨(s.p.core n.toNat).seq, load, f.rd.toNat, (s.p.core n.toNat).irrAddr f, (s.p.core n.toNat).reg f.rd.toNat,
          if f.evEn = 1 then some f.ev.toNat else none, (s.p.core n.toNat).pair, (s.p.core n.toNat).irrSlot, false⟩] } := by
  have hk : (s.p.setCore n.toNat (s.p.core n.toNat).runs).core n.toNat = (s.p.core n.toNat).runs := by simp
  have hm' : ¬(gChip ((s.p.core n.toNat).irrAddr f) == s.p.chip && !s.p.irrMapped load (gLocal ((s.p.core n.toNat).irrAddr f))) = true := by
    simpa using hm
  refine ⟨_, becomes_issue he h, ?_⟩
  dsimp only
  rw [hk, if_neg (by exact not_le.2 ho), if_neg (by exact hm')]
  refine ⟨fun d hd => ?_, ?_, ?_⟩
  · simp [Ne.symm hd]
  · simp [Part.irrSend]
  · simp
    rfl

theorem irr_unmapped_faults (ho : (s.p.core n.toNat).outstanding < 4) (hf : (s.p.core n.toNat).faultSeq = none)
    (hc : gChip ((s.p.core n.toNat).irrAddr f) = s.p.chip) (hm : s.p.irrMapped load (gLocal ((s.p.core n.toNat).irrAddr f)) = false) :
    ∃ q, Becomes i s q ∧ FaultsWith s.p q n.toNat 8 := by
  have hk : (s.p.setCore n.toNat (s.p.core n.toNat).runs).core n.toNat = (s.p.core n.toNat).runs := by simp
  have hm' : (gChip ((s.p.core n.toNat).irrAddr f) == s.p.chip && !s.p.irrMapped load (gLocal ((s.p.core n.toNat).irrAddr f))) = true := by
    simpa using ⟨hc, hm⟩
  refine ⟨_, becomes_issue he h, ?_⟩
  dsimp only
  rw [hk, if_neg (by exact not_le.2 ho), if_pos (by exact hm')]
  exact faultsWith_of _ _ _ _ (by simp [Part.denied]) (fun d hd => by simp [Part.denied, Ne.symm hd]) hf

theorem irr_fifth_stalls (ho : 4 ≤ (s.p.core n.toNat).outstanding) :
    ∃ q, Becomes i s q ∧ OnlyCore s.p q n.toNat ∧ q.core n.toNat = { s.p.core n.toNat with st := .ldgWait } := by
  have hk : (s.p.setCore n.toNat (s.p.core n.toNat).runs).core n.toNat = (s.p.core n.toNat).runs := by simp
  refine ⟨_, becomes_issue he h, ?_⟩
  dsimp only
  rw [hk, if_pos (by exact ho)]
  exact ⟨onlyCore_set _ _ _ _, by simp [Core.runs]⟩

end

/-- Settles O4: LDG and STG go out by the same rule, with the address written out. -/
theorem irregularAccesses : Obligations.IrregularAccesses := by
  intro s n f h p c k g goes
  have e : g = k.irrAddr f := (Core.irrAddr_eq k f).symm
  have hgoes : ∀ i load, (exec i s = s.run fun p => p.issueIrr n.toNat f load) → goes i load := fun i load he => by
    refine ⟨fun ho hm => ?_, fun ho hf hc hm => ?_, irr_fifth_stalls he h⟩
    · rw [e] at hm ⊢
      exact irr_goes_out he h ho hm
    · rw [e] at hc hm
      exact irr_unmapped_faults he h ho hf hc hm
  exact ⟨hgoes _ true rfl, hgoes _ false rfl⟩

end Sys2Proof.Machine
end

section
/-!
PROOF. RDSYS, TAG and MARK (R117, R134, R135).
-/
namespace Sys2Proof.Machine

/-- A core that issues reads the system values that it read before (R117). -/
theorem Part.sysValue_runs (p : Part) (c sel : Nat) : (p.setCore c (p.core c).runs).sysValue c sel = p.sysValue c sel := by
  unfold Part.sysValue
  rw [Part.core_setCore, if_pos rfl]
  rfl

theorem Part.sysValue_reserved (p : Part) (c : Nat) {sel : Nat} (h : 11 ≤ sel) : p.sysValue c sel = none := by
  unfold Part.sysValue
  split <;> first | omega | rfl

section
variable (s : State) (n : BitVec 13)

theorem rdsys_retires (f : RdsysF) (h : s.p.ready n.toNat [f.rd.toNat] = true) {v : Nat} (hv : s.p.sysValue n.toNat f.sel.toNat = some v) :
    ∃ q, Becomes (.rdsys n f) s q ∧ Retires s.p q n.toNat f.rd.toNat (v % 2 ^ 32) := by
  refine ⟨_, becomes_issue rfl h, ?_⟩
  rw [Part.sysValue_runs, hv]
  simp only [Part.modCore_eq, Part.core_setCore, if_true]
  exact retires_set _ _ _ _

theorem rdsys_reserved_faults (f : RdsysF) (h : s.p.ready n.toNat [f.rd.toNat] = true) (hf : (s.p.core n.toNat).faultSeq = none)
    (hs : 11 ≤ f.sel.toNat) : ∃ q, Becomes (.rdsys n f) s q ∧ FaultsWith s.p q n.toNat 1 := by
  refine faults_of_issue rfl h hf ?_
  rw [Part.sysValue_runs, Part.sysValue_reserved _ _ hs]

theorem tag_sets_pair (imm : BitVec 32) (h : s.p.ready n.toNat [] = true) :
    ∃ q, Becomes (.tag n imm) s q ∧ MovesOn s.p q n.toNat fun x => { x with pair := imm.toNat } := by
  refine moves_of_issue rfl h ?_
  simp only [Part.modCore_eq, Part.core_setCore, if_true]
  rfl

/-- A record that the buffer of its block takes is the newest of the block (R510). -/
theorem Part.trace_records (p : Part) (b kind pair core a v : Nat) (he : p.getB (traceCfg b) 0 = true)
    (hk : p.getB (traceCfg b) (16 + kind) = true) (hl : (spGet [] p.obs.stage b).length < 256) :
    p.trace b kind pair core a v =
      p.modObs fun o => { o with stage := spSet [] o.stage b (spGet [] p.obs.stage b ++ [⟨p.cycle, pair, kind, b, core, a, v⟩]) } := by
  simp [Part.trace, he, hk, hl]

/-- The trace registers of a core's sector. -/
theorem traceCfg_coreSector (n : BitVec 13) : traceCfg (coreSector n.toNat) = SOBS_TRACE_CFG (coreSector n.toNat) :=
  if_neg (by simp only [coreSector]; omega)

theorem mark_goes_on (f : MarkF) (h : s.p.ready n.toNat [f.ra.toNat] = true) :
    ∃ q, Becomes (.mark n f) s q ∧ q.core n.toNat = (s.p.core n.toNat).runs.next ∧ (∀ d, d ≠ n.toNat → q.core d = s.p.core d) ∧
      q.mem = s.p.mem ∧
      (s.p.getB OBS_FREEZE 4 = false → s.p.getB (SOBS_TRACE_CFG (coreSector n.toNat)) 0 = true →
        s.p.getB (SOBS_TRACE_CFG (coreSector n.toNat)) 16 = true → (spGet [] s.p.obs.stage (coreSector n.toNat)).length < 256 →
        spGet [] q.obs.stage (coreSector n.toNat) = spGet [] s.p.obs.stage (coreSector n.toNat) ++
          [⟨s.p.cycle, (s.p.core n.toNat).pair, 0, coreSector n.toNat, n.toNat, f.imm.toNat + (s.p.core n.toNat).pc * 2 ^ 32,
            (s.p.core n.toNat).reg f.ra.toNat⟩]) := by
  refine ⟨_, becomes_issue rfl h, ?_, fun d hd => ?_, ?_, fun hz he hk hl => ?_⟩
  · dsimp only
    split <;> simp
  · dsimp only
    split <;> simp [Ne.symm hd]
  · dsimp only
    split <;> simp
  · rw [← traceCfg_coreSector] at he hk
    dsimp only
    rw [Part.trace_records (s.p.setCore n.toNat (s.p.core n.toNat).runs) _ 0 _ _ _ _ he hk hl]
    have hz' : ∀ q : Part, q.regs = s.p.regs → q.getB OBS_FREEZE 4 = false := fun q hq => (Part.getB_congr 4 (by simp [Part.rd, hq])).trans hz
    rw [hz' _ (by simp), Bool.false_and, if_neg Bool.false_ne_true]
    simp [Nat.shiftLeft_eq]

end

/-- Settles O5: the instructions by the lemmas above, the selectors by the table itself. -/
theorem systemReadsAndTags : Obligations.SystemReadsAndTags := by
  refine ⟨fun s n => ⟨fun f h v hv => rdsys_retires s n f h hv, fun f h hf hs => rdsys_reserved_faults s n f h hf hs,
    fun imm h => tag_sets_pair s n imm h, fun f h => mark_goes_on s n f h⟩, fun p c => ⟨rfl, ?_, rfl, ?_, rfl, rfl, rfl, rfl, rfl, rfl, rfl,
    fun sel h => p.sysValue_reserved c h⟩⟩
  · rw [← Nat.shiftRight_eq_div_pow]; rfl
  · rw [← Nat.shiftRight_eq_div_pow]; rfl

end Sys2Proof.Machine
end

section
/-!
PROOF. HALT, FENCE and the signals (R63, R65, R66, R68, R74, R133).
-/
namespace Sys2Proof.Machine

section
variable (s : State) (n : BitVec 13)

theorem halt_ends_issue (h : s.p.ready n.toNat [] = true) :
    ∃ q, Becomes (.halt n) s q ∧ q.core n.toNat = { (s.p.core n.toNat).runs.next with st := .halted } ∧
      (∀ d, d ≠ n.toNat → q.core d = s.p.core d) ∧ q.mem = s.p.mem ∧ q.mayIssue n.toNat = false := by
  have hk : ∀ q : Part, (q.core n.toNat).st = .halted → q.mayIssue n.toNat = false := fun q hq => by simp [Part.mayIssue, hq]
  refine ⟨_, becomes_issue rfl h, ?_, fun d hd => ?_, ?_, hk _ ?_⟩
  · simp
  · simp [Ne.symm hd]
  · simp
  · simp

theorem fence_waits (kind : BitVec 2) (h : s.p.ready n.toNat [] = true) :
    ∃ q, Becomes (.fence n kind) s q ∧ MovesOn s.p q n.toNat fun x => { x with st := .inFence, fence := kind.toNat } := by
  refine moves_of_issue rfl h ?_
  simp only [Part.modCore_eq, Part.core_setCore, if_true]

theorem fenceComplete_ends (hl : s.p.live = true) (hs : (s.p.core n.toNat).st = .inFence) (hd : s.p.fenceDone n.toNat = true) :
    ∃ q, Becomes (.fenceComplete n) s q ∧ OnlyCore s.p q n.toNat ∧
      q.core n.toNat = { s.p.core n.toNat with st := .running, fence := 0 } := by
  refine ⟨s.p.setCore n.toNat { s.p.core n.toNat with st := .running, fence := 0 }, ?_, ⟨rfl, fun d hd => by simp [Ne.symm hd]⟩, by simp⟩
  show execFenceComplete n s = _
  simp only [execFenceComplete, State.run, hl, hs, hd, beq_self_eq_true, Bool.and_self, if_true, Part.modCore_eq]

end

/-- Settles O9: each clause is one of the lemmas above. -/
theorem haltsAndFences : Obligations.HaltsAndFences := by
  intro s n
  exact ⟨halt_ends_issue s n, fun kind => fence_waits s n kind, fenceComplete_ends s n⟩

theorem takeFirst_erase {a b : Nat} : ∀ {l : List (Nat × Nat)}, (a, b) ∈ l →
    takeFirst (fun q : Nat × Nat => q.1 == a && q.2 == b) l = some ((a, b), l.erase (a, b))
  | x :: l, hm => by
    by_cases hx : x = (a, b)
    · subst hx
      simp [takeFirst]
    · have hl : (a, b) ∈ l := (List.mem_cons.1 hm).resolve_left (Ne.symm hx)
      have hf : (x.1 == a && x.2 == b) = false := by
        rw [Bool.eq_false_iff]
        exact fun h => hx (by simpa [Prod.ext_iff] using h)
      simp [takeFirst, hf, takeFirst_erase hl, hx]

@[simp] theorem Part.tick_ite (b : Prop) [Decidable b] (p q : Part) : (if b then p else q).tick = if b then p.tick else q.tick := by
  split <;> rfl

@[simp] theorem Part.freezeFrom_cause (p : Part) (n : Nat) (e : Option Nat) (corr : Nat) : (p.freezeFrom n e corr).tick.cause = p.tick.cause := by
  unfold Part.freezeFrom
  dsimp only
  split <;> simp

@[simp] theorem Part.err_cause (p : Part) (e : ErrRec) : (p.err e).tick.cause = p.tick.cause := by
  unfold Part.err
  dsimp only
  repeat' split
  all_goals simp [Part.freeze]

/-- The first cause of a frame is the one it keeps (R26). -/
theorem Part.failCause_cause (p : Part) (c : Nat) : (p.failCause c).tick.cause = if p.tick.cause = 0 then c else p.tick.cause := by
  unfold Part.failCause
  dsimp only
  repeat' split
  all_goals simp_all [Part.sendStatus]

section
variable (s : State) (n : BitVec 13) (f : SignalF)

/-- A signal on its way to a core of the part: SIGNAL goes on and changes only the signals and its own core (R68, R133). -/
theorem signal_put (p : Part) (c t ev : Nat) :
    let q := ((p.setCore c (p.core c).runs).signal t ev).modCore c Core.next
    q.tick.signals = p.tick.signals ++ [(t, ev)] ∧ (∀ d, q.core d = if d = c then (p.core c).runs.next else p.core d) ∧
      q.mem = p.mem ∧ q.regs = p.regs := by
  refine ⟨by simp [Part.signal], fun d => ?_, by simp, by simp⟩
  by_cases hd : d = c
  · subst hd; simp
  · simp [hd, Ne.symm hd]

theorem signal_self_stalls (hs : f.self = 1) (h : s.p.ready n.toNat [] = true) (hf : s.p.evFull n.toNat 1 = true) :
    ∃ q, Becomes (.signal n f) s q ∧ OnlyCore s.p q n.toNat ∧ q.core n.toNat = { s.p.core n.toNat with st := .stalled, heldBy := none } := by
  refine ⟨_, becomes_issue (l := if f.self = 1 then [] else [f.rb.toNat]) rfl (by rw [if_pos hs]; exact h), ?_⟩
  dsimp only
  rw [if_pos hs, if_pos (by exact hf), Part.modCore_eq]
  exact ⟨onlyCore_set _ _ _ _, by simp [Core.stall, Core.runs]⟩

theorem signal_self_goes (hs : f.self = 1) (h : s.p.ready n.toNat [] = true) (hf : s.p.evFull n.toNat 1 = false) :
    ∃ q, Becomes (.signal n f) s q ∧ q.tick.signals = s.p.tick.signals ++ [(n.toNat, f.ev.toNat)] ∧
      (∀ d, q.core d = if d = n.toNat then (s.p.core n.toNat).runs.next else s.p.core d) ∧ q.mem = s.p.mem ∧ q.regs = s.p.regs := by
  refine ⟨_, becomes_issue (l := if f.self = 1 then [] else [f.rb.toNat]) rfl (by rw [if_pos hs]; exact h), ?_⟩
  dsimp only
  rw [if_pos hs, if_neg (by show ¬s.p.evFull n.toNat 1 = true; simp [hf])]
  exact signal_put _ _ _ _

variable (hs : f.self = 0) (h : s.p.ready n.toNat [f.rb.toNat] = true)
include hs h

/-- What SIGNAL to another core becomes. -/
theorem signal_other_becomes :
    let p := s.p.setCore n.toNat (s.p.core n.toNat).runs
    let v := (s.p.core n.toNat).reg f.rb.toNat
    Becomes (.signal n f) s
      (if f.remote = 1 then
        if fld v 13 16 = s.p.chip && s.p.evFull (v % 8192) 1 then p.modCore n.toNat Core.stall
        else (p.signalTo (s.p.core n.toNat).pair (fld v 13 16) (v % 8192) f.ev.toNat).modCore n.toNat Core.next
      else if !s.p.validCore (v % 8192) then p.faultNow n.toNat 7
      else if s.p.evFull (v % 8192) 1 then p.modCore n.toNat Core.stall
      else (p.signal (v % 8192) f.ev.toNat).modCore n.toNat Core.next) := by
  intro p v
  have hne : f.self ≠ 1 := by rw [hs]; decide
  have hk : p.core n.toNat = (s.p.core n.toNat).runs := by simp [p]
  have hb : Becomes (.signal n f) s _ := becomes_issue (l := if f.self = 1 then [] else [f.rb.toNat]) rfl (by rw [if_neg hne]; exact h)
  dsimp only at hb
  rw [if_neg hne, hk] at hb
  exact hb

theorem signal_core_goes (hr : f.remote = 0) (hv : s.p.validCore ((s.p.core n.toNat).reg f.rb.toNat % 8192) = true)
    (hf : s.p.evFull ((s.p.core n.toNat).reg f.rb.toNat % 8192) 1 = false) :
    ∃ q, Becomes (.signal n f) s q ∧
      q.tick.signals = s.p.tick.signals ++ [((s.p.core n.toNat).reg f.rb.toNat % 8192, f.ev.toNat)] ∧
      (∀ d, q.core d = if d = n.toNat then (s.p.core n.toNat).runs.next else s.p.core d) ∧ q.mem = s.p.mem ∧ q.regs = s.p.regs := by
  have hb := signal_other_becomes s n f hs h
  dsimp only at hb
  rw [if_neg (by rw [hr]; decide), hv, hf, if_neg (by decide), if_neg (by decide)] at hb
  exact ⟨_, hb, signal_put _ _ _ _⟩

theorem signal_invalid_faults (hr : f.remote = 0) (hc : (s.p.core n.toNat).faultSeq = none)
    (hv : s.p.validCore ((s.p.core n.toNat).reg f.rb.toNat % 8192) = false) : ∃ q, Becomes (.signal n f) s q ∧ FaultsWith s.p q n.toNat 7 := by
  have hb := signal_other_becomes s n f hs h
  dsimp only at hb
  rw [if_neg (by rw [hr]; decide), hv, if_pos (by decide)] at hb
  exact ⟨_, hb, faultsWith_now _ _ _ hc⟩

/-- A signal to a core of another part goes out as a packet; its payload is the model's (log 60). -/
theorem signal_remote_goes (hr : f.remote = 1) (hc : (s.p.core n.toNat).reg f.rb.toNat / 8192 % 65536 ≠ s.p.chip) :
    ∃ q, Becomes (.signal n f) s q ∧ q.tick = s.p.tick ∧ q.mem = s.p.mem ∧
      (∀ d, q.core d = if d = n.toNat then (s.p.core n.toNat).runs.next else s.p.core d) ∧
      q.fab.txq = s.p.fab.txq ++ [⟨0, s.p.chip, (s.p.core n.toNat).reg f.rb.toNat / 8192 % 65536, s.p.epoch, 3, 0, 0, 0, 0,
        leBytes 2 ((s.p.core n.toNat).reg f.rb.toNat % 8192) ++ leBytes 2 f.ev.toNat ++ leBytes 4 (s.p.core n.toNat).pair ++
          leBytes 24 0⟩] := by
  have hfld : fld ((s.p.core n.toNat).reg f.rb.toNat) 13 16 = (s.p.core n.toNat).reg f.rb.toNat / 8192 % 65536 := by
    simp [fld, Nat.shiftRight_eq_div_pow]
  have hb := signal_other_becomes s n f hs h
  dsimp only at hb
  rw [if_pos hr, hfld, if_neg (by simp [hc]), Part.signalTo, if_neg (by exact hc)] at hb
  refine ⟨_, hb, ?_, ?_, fun d => ?_, ?_⟩
  · simp
  · simp
  · by_cases hd : d = n.toNat
    · subst hd; simp
    · simp [hd, Ne.symm hd]
  · simp [Part.sentFor, Part.addPair, Part.sendPacket]
    exact ⟨rfl, rfl⟩

end

section
variable (s : State) (n : BitVec 13) (ev : BitVec 5) (h : (n.toNat, ev.toNat) ∈ s.p.tick.signals)
  (hw : (s.p.core n.toNat).st ≠ .evWait)
include h hw

/-- A signal that arrives at a core that does not wait leaves the buffer and is counted (R65). -/
theorem evSignalArrive_counts :
    Becomes (.evSignalArrive n ev) s
      ((s.p.modTick fun t => { t with signals := s.p.tick.signals.erase (n.toNat, ev.toNat) }).countSignal n.toNat ev.toNat) := by
  have he : ∀ p : Part, (p.core n.toNat).st ≠ .evWait → (if p.live then p.endWait n.toNat else p) = p := fun p hp => by
    simp [Part.endWait, hp]
  show execEvSignalArrive n ev s = _
  simp only [execEvSignalArrive, State.run, takeFirst_erase h]
  rw [he (s.p.modTick fun t => { t with signals := s.p.tick.signals.erase (n.toNat, ev.toNat) }) hw]

omit h hw in
theorem Part.acceptSlot_keeps (p : Part) (c : Nat) : (p.acceptSlot c).tick = p.tick ∧ ∀ d, d ≠ c → (p.acceptSlot c).core d = p.core d := by
  unfold Part.acceptSlot
  dsimp only
  split
  · exact ⟨by simp, fun d hd => by simp [Ne.symm hd]⟩
  · exact ⟨by simp, fun d hd => by simp [Ne.symm hd]⟩

theorem evSignalArrive_adds (hc : spGet 0 (s.p.core n.toNat).ev ev.toNat < 255) :
    ∃ q, Becomes (.evSignalArrive n ev) s q ∧ q.tick.signals = s.p.tick.signals.erase (n.toNat, ev.toNat) ∧
      q.core n.toNat = { s.p.core n.toNat with
        ev := spSet 0 (s.p.core n.toNat).ev ev.toNat (spGet 0 (s.p.core n.toNat).ev ev.toNat + 1),
        evNew := (q.core n.toNat).evNew, evTook := (q.core n.toNat).evTook } ∧
      ∀ d, d ≠ n.toNat → q.core d = s.p.core d := by
  refine ⟨_, evSignalArrive_counts s n ev h hw, ?_⟩
  generalize hp : s.p.modTick (fun t => { t with signals := s.p.tick.signals.erase (n.toNat, ev.toNat) }) = p
  have hcore : ∀ d, p.core d = s.p.core d := fun d => by simp [← hp]
  have hsig : p.tick.signals = s.p.tick.signals.erase (n.toNat, ev.toNat) := by simp [← hp]
  have hacc := p.acceptSlot_core n.toNat
  obtain ⟨htick, hother⟩ := p.acceptSlot_keeps n.toNat
  rw [hcore] at hacc
  have hev : ((p.acceptSlot n.toNat).core n.toNat).ev = (s.p.core n.toNat).ev := by rw [hacc]
  have hlt : ¬spGet 0 ((p.acceptSlot n.toNat).core n.toNat).ev ev.toNat ≥ 255 := by rw [hev]; omega
  rw [Part.countSignal, if_neg hlt, hev]
  refine ⟨by simp [htick, hsig], ?_, fun d hd => by simp [Ne.symm hd, hother d hd, hcore]⟩
  simp only [Part.modCore_eq, Part.core_setCore, if_true]
  generalize (p.acceptSlot n.toNat).core n.toNat = k at hacc ⊢
  obtain ⟨t, rfl⟩ : ∃ t, k = { s.p.core n.toNat with evTook := t } := ⟨_, hacc⟩
  rfl

theorem evSignalArrive_full (hc : 255 ≤ spGet 0 (s.p.core n.toNat).ev ev.toNat) :
    ∃ q, Becomes (.evSignalArrive n ev) s q ∧ (∀ d, d ≠ n.toNat → q.core d = s.p.core d) ∧
      q.core n.toNat = { s.p.core n.toNat with evTook := (q.core n.toNat).evTook } ∧
      q.tick.cause = if s.p.tick.cause = 0 then 2 else s.p.tick.cause := by
  refine ⟨_, evSignalArrive_counts s n ev h hw, ?_⟩
  generalize hp : s.p.modTick (fun t => { t with signals := s.p.tick.signals.erase (n.toNat, ev.toNat) }) = p
  have hcore : ∀ d, p.core d = s.p.core d := fun d => by simp [← hp]
  have hcause : p.tick.cause = s.p.tick.cause := by simp [← hp]
  have hacc := p.acceptSlot_core n.toNat
  obtain ⟨htick, hother⟩ := p.acceptSlot_keeps n.toNat
  rw [hcore] at hacc
  have hge : spGet 0 ((p.acceptSlot n.toNat).core n.toNat).ev ev.toNat ≥ 255 := by rw [hacc]; exact hc
  rw [Part.countSignal, if_pos hge]
  refine ⟨fun d hd => by simp [hother d hd, hcore], ?_, by rw [Part.failCause_cause]; simp [htick, hcause]⟩
  simpa using hacc

end

/-- Settles O7: SIGNAL and the arrival by the lemmas above. -/
theorem signals : Obligations.Signals := by
  intro s n
  exact ⟨signal_self_stalls s n, signal_self_goes s n, fun f hs hr h => signal_core_goes s n f hs h hr,
    fun f hs hr h hc hv => signal_invalid_faults s n f hs h hr hc hv,
    fun f hs hr h hc => signal_remote_goes s n f hs h hr hc,
    fun ev h hw => ⟨evSignalArrive_adds s n ev h hw, evSignalArrive_full s n ev h hw⟩⟩

end Sys2Proof.Machine
end

section
/-!
PROOF. The matrix and the vector queue of a core (R111, R120 to R129).
-/
namespace Sys2Proof.Machine

theorem alignDown_five (a : Nat) : alignDown 5 a = a / 32 * 32 := by
  simp [alignDown, Nat.shiftRight_eq_div_pow, Nat.shiftLeft_eq]

theorem Core.stride_eq (k : Core) (r : Nat) : k.stride r = k.reg r % 65536 / 32 * 32 := alignDown_five _

theorem matFmt_of {code : Nat} {m : Fmt} (h : Fmt.ofCode code = some m) (hm : m ≠ .b32) : matFmt code = some m := by
  unfold matFmt
  rw [h]
  cases m <;> first | rfl | exact absurd rfl hm

theorem matFmt_absent {code : Nat} (h : 6 ≤ code) : matFmt code = none := by
  unfold matFmt Fmt.ofCode
  split
  · rfl
  · split <;> first | omega | simp_all

/-- A matrix command enters the queue while it has room, and a full queue stalls issue (R111). -/
theorem pushM_takes {i : Instr} {s : State} {c : Nat} {o : MOp} (hb : Becomes i s ((s.p.setCore c (s.p.core c).runs).pushM c o)) :
    ((s.p.core c).mq.length < 8 → ∃ q, Becomes i s q ∧ MovesOn s.p q c fun x => { x with mq := (s.p.core c).mq ++ [o] }) ∧
    (8 ≤ (s.p.core c).mq.length →
      ∃ q, Becomes i s q ∧ OnlyCore s.p q c ∧ q.core c = { s.p.core c with st := .stalled, heldBy := none }) := by
  rw [Part.pushM, Part.modCore_eq, Part.core_setCore, if_pos rfl] at hb
  refine ⟨fun hl => ⟨_, hb, ?_⟩, fun hl => ⟨_, hb, onlyCore_set _ _ _ _, ?_⟩⟩
  · rw [if_neg (by exact not_le.2 hl)]
    exact movesOn_set _ _ _ _ _ rfl
  · rw [if_pos (by exact hl)]
    simp [Core.stall, Core.runs]

section
variable (s : State) (n : BitVec 13)

/-- The operation that MLOAD queues, its address resolved at issue (R120). -/
def Core.loadOp (k : Core) (f : MloadF) (m : Fmt) : LoadOp :=
  ⟨k.opHead, f.buf.toNat, m, f.cmp == 1, k.addr f.ra.toNat f.offset.toNat, k.stride f.rb.toNat⟩

/-- The operation that MAC queues, its address resolved at issue (R121). -/
def Core.passOp (k : Core) (f : MacF) (m : Fmt) : PassOp :=
  ⟨k.opHead, f.buf.toNat, f.axis == 1, f.init == 1, f.close == 1, f.cmp == 1, k.addr f.ra.toNat f.offset.toNat, k.stride f.rb.toNat, m,
    f.rows.toNat + 1, f.group.toNat, f.first.toNat⟩

section
variable (f : MloadF) (h : s.p.ready n.toNat [f.ra.toNat, f.rb.toNat] = true)
include h

theorem mload_becomes {m : Fmt} (hm : matFmt f.fmt.toNat = some m) :
    Becomes (.mload n f) s
      (if !inSpad ((s.p.core n.toNat).loadOp f m).reads then (s.p.setCore n.toNat (s.p.core n.toNat).runs).faultNow n.toNat 2
        else (s.p.setCore n.toNat (s.p.core n.toNat).runs).pushM n.toNat (.load ((s.p.core n.toNat).loadOp f m))) := by
  have hb : Becomes (.mload n f) s _ := becomes_issue rfl h
  dsimp only at hb
  rw [Part.core_setCore, if_pos rfl, hm] at hb
  exact hb

theorem mload_format_faults (hc : (s.p.core n.toNat).faultSeq = none) (hm : 6 ≤ f.fmt.toNat) :
    ∃ q, Becomes (.mload n f) s q ∧ FaultsWith s.p q n.toNat 1 := by
  refine faults_of_issue rfl h hc ?_
  rw [matFmt_absent hm]

end

section
variable (f : MacF) (h : s.p.ready n.toNat [f.ra.toNat, f.rb.toNat] = true)
include h

theorem mac_becomes {m : Fmt} (hm : matFmt f.fmt.toNat = some m) (hx : f.cmp = 1 → f.axis = 0) :
    Becomes (.mac n f) s
      (if f.first.toNat + f.rows.toNat + 1 > 32 then (s.p.setCore n.toNat (s.p.core n.toNat).runs).faultNow n.toNat 4
        else if !inSpad ((s.p.core n.toNat).passOp f m).reads then (s.p.setCore n.toNat (s.p.core n.toNat).runs).faultNow n.toNat 2
        else (s.p.setCore n.toNat (s.p.core n.toNat).runs).pushM n.toNat (.pass ((s.p.core n.toNat).passOp f m))) := by
  have hb : Becomes (.mac n f) s _ := becomes_issue rfl h
  have hca : (f.cmp == 1 && f.axis == 1) = false := by
    rw [Bool.and_eq_false_iff]
    by_cases hcmp : f.cmp = 1
    · rw [hx hcmp]; exact .inr rfl
    · exact .inl (beq_eq_false_iff_ne.2 hcmp)
  dsimp only at hb
  rw [Part.core_setCore, if_pos rfl, hm] at hb
  dsimp only at hb
  rw [hca, if_neg (by decide)] at hb
  exact hb

theorem mac_format_faults (hc : (s.p.core n.toNat).faultSeq = none) (hm : 6 ≤ f.fmt.toNat) :
    ∃ q, Becomes (.mac n f) s q ∧ FaultsWith s.p q n.toNat 1 := by
  refine faults_of_issue rfl h hc ?_
  rw [matFmt_absent hm]

end

end

/-- Settles O10: MLOAD and MAC become what their checks leave, a fault or a command that `pushM` takes. -/
theorem matrixQueue : Obligations.MatrixQueue := by
  intro s n p c k at' takes
  refine ⟨fun f h => ⟨?_, fun hm hc => mload_format_faults s n f h hc hm⟩, fun f h => ⟨?_, fun hm hc => mac_format_faults s n f h hc hm⟩⟩
  · intro m hm hne o
    have ho : k.loadOp f m = o := by simp only [Core.loadOp, Core.stride_eq]; rfl
    have hb := mload_becomes s n f h (matFmt_of hm hne)
    rw [show (s.p.core n.toNat).loadOp f m = o from ho] at hb
    refine ⟨fun hs => ?_, fun hs hc => ?_⟩
    · rw [hs] at hb
      exact pushM_takes hb
    · rw [hs] at hb
      exact ⟨_, hb, faultsWith_now _ _ _ hc⟩
  · intro m hm hne hx o
    have ho : k.passOp f m = o := by simp only [Core.passOp, Core.stride_eq]; rfl
    have hb := mac_becomes s n f h (matFmt_of hm hne) hx
    rw [show (s.p.core n.toNat).passOp f m = o from ho] at hb
    refine ⟨fun hr hs => ?_, fun hr hc => ?_⟩
    · rw [if_neg (not_lt.2 hr), hs] at hb
      exact pushM_takes hb
    · rw [if_pos hr] at hb
      exact ⟨_, hb, faultsWith_now _ _ _ hc⟩

theorem Core.advance_busy {k : Core} (h : k.vrun.isSome = true) : k.advance = k := by
  simp [Core.advance, h]

theorem Core.advance_idle {k : Core} (h : k.vrun = none) (hq : k.vq = []) : k.advance = k := by
  cases k
  subst h hq
  rfl

/-- An idle engine takes a configuration at once (log 20). -/
theorem Core.advance_config {k : Core} {o : VOp} (h : k.vrun = none) (hq : k.vq = []) (ho : o.isConfig = true) :
    { k with vq := [o] }.advance = k.setView (k.view.apply o) := by
  unfold Core.advance
  rw [if_neg (by simp [h])]
  simp only [advanceQ, ho, if_true]
  cases k
  subst hq
  rfl

theorem Core.advance_waits {k : Core} {o : VOp} (h : k.vrun = none) (ho : o.isConfig = false) :
    { k with vq := [o] }.advance = { k with vq := [o] } := by
  unfold Core.advance
  rw [if_neg (by simp [h])]
  simp only [advanceQ, ho, Bool.false_eq_true, if_false]
  rfl

/-- A vector command takes effect, or is first in the queue, on an engine with nothing queued; it enters the queue of a busy engine while
that has room, and stalls issue when it is full (R111). -/
theorem pushV_takes {i : Instr} {s : State} {c : Nat} {o : VOp} {now : Core → Core}
    (hb : Becomes i s ((s.p.setCore c (s.p.core c).runs).pushV c o))
    (hnow : (s.p.core c).vrun = none → (s.p.core c).vq = [] → { (s.p.core c).runs with vq := [o] }.advance.next = now (s.p.core c).runs.next) :
    ((s.p.core c).vrun = none → (s.p.core c).vq = [] → ∃ q, Becomes i s q ∧ MovesOn s.p q c now) ∧
    ((s.p.core c).vrun.isSome = true → (s.p.core c).vq.length < 8 →
      ∃ q, Becomes i s q ∧ MovesOn s.p q c fun x => { x with vq := (s.p.core c).vq ++ [o] }) ∧
    ((s.p.core c).vrun.isSome = true → 8 ≤ (s.p.core c).vq.length →
      ∃ q, Becomes i s q ∧ OnlyCore s.p q c ∧ q.core c = { s.p.core c with st := .stalled, heldBy := none }) := by
  rw [Part.pushV, Part.modCore_eq, Part.core_setCore, if_pos rfl] at hb
  dsimp only at hb
  refine ⟨fun hv hq => ⟨_, hb, ?_⟩, fun hv hl => ⟨_, hb, ?_⟩, fun hv hl => ⟨_, hb, onlyCore_set _ _ _ _, ?_⟩⟩
  · rw [Core.advance_idle (by exact hv) (by exact hq), if_neg (by rw [show (s.p.core c).runs.vq = [] from hq]; decide),
      show (s.p.core c).runs.vq = [] from hq]
    exact movesOn_set _ _ _ _ _ (hnow hv hq)
  · rw [Core.advance_busy (by exact hv), if_neg (by exact not_le.2 hl), Core.advance_busy (by exact hv)]
    exact movesOn_set _ _ _ _ _ rfl
  · rw [Core.advance_busy (by exact hv), if_pos (by exact hl)]
    simp [Core.stall, Core.runs]

section
variable (s : State) (n : BitVec 13)

/-- The operation that VSTREAM queues, its addresses resolved at issue (R126). -/
def Core.streamOp (k : Core) (f : VstreamF) (out : Fmt) : StreamOp :=
  ⟨k.opHead, f.slot.toNat, k.reg f.rd.toNat, k.reg f.ra.toNat, k.reg f.rb.toNat, k.reg f.rc.toNat, out, Fmt.ofCode f.fmt0.toNat,
    Fmt.ofCode f.fmt1.toNat, Fmt.ofCode f.fmt2.toNat, f.mode.toNat, f.sat == 1⟩

/-- The operation that VDRAIN queues, its addresses resolved at issue (R128). -/
def Core.drainOp (k : Core) (f : VdrainF) (m : Fmt) : DrainOp :=
  ⟨k.opHead, k.reg f.rc.toNat, k.addr f.ra.toNat f.offset.toNat, k.stride f.rb.toNat, m, f.mode.toNat, f.sat == 1, f.pset.toNat, f.int == 1⟩

theorem setvl_becomes (f : SetvlF) (h : s.p.ready n.toNat (f.ra.toNat :: (if f.i = 1 then [] else [f.rb.toNat])) = true) :
    Becomes (.setvl n f) s ((s.p.setCore n.toNat (s.p.core n.toNat).runs).pushV n.toNat (.setvl (s.p.core n.toNat).seq
      (min 65535 ((s.p.core n.toNat).reg f.ra.toNat + if f.i = 1 then f.imm.toNat else (s.p.core n.toNat).reg f.rb.toNat)))) := by
  have hb : Becomes (.setvl n f) s _ := becomes_issue rfl h
  dsimp only at hb
  rw [Part.core_setCore, if_pos rfl] at hb
  exact hb

theorem udef_becomes (f : UdefF) (h : s.p.ready n.toNat [] = true) (hf : f.fn.toNat < 28)
    (hl : (if f.new = 1 then [] else spGet [] (s.p.core n.toNat).viewIssue.slots f.slot.toNat).length < 16)
    (hu : ∀ x ∈ stepUses f.fn.toNat f.a.toNat f.b.toNat f.c.toNat, x < 12 →
      x < (if f.new = 1 then [] else spGet [] (s.p.core n.toNat).viewIssue.slots f.slot.toNat).length) :
    Becomes (.udef n f) s ((s.p.setCore n.toNat (s.p.core n.toNat).runs).pushV n.toNat (.udef (s.p.core n.toNat).seq f.slot.toNat (f.new == 1)
      ⟨f.fn.toNat, f.a.toNat, f.b.toNat, f.c.toNat, f.imm.toNat⟩)) := by
  have hb : Becomes (.udef n f) s _ := becomes_issue rfl h
  have hlen : (if f.new = 1 then 0 else (spGet [] (s.p.core n.toNat).viewIssue.slots f.slot.toNat).length) =
      (if f.new = 1 then [] else spGet [] (s.p.core n.toNat).viewIssue.slots f.slot.toNat).length := by split <;> rfl
  dsimp only at hb
  rw [Part.core_setCore, if_pos rfl, show (s.p.core n.toNat).runs.viewIssue = (s.p.core n.toNat).viewIssue from rfl, hlen,
    if_neg (not_le.2 hf), if_neg] at hb
  · exact hb
  · simp only [Bool.or_eq_true, decide_eq_true_eq, not_or, not_le, List.any_eq_true, Bool.and_eq_true, not_exists, not_and]
    exact ⟨hl, hu⟩

theorem dset_becomes (f : DsetF) (h : s.p.ready n.toNat [] = true) (hi : f.item.toNat < 5)
    (hv : f.item.toNat = 4 → f.value.toNat < 8 ∧ f.value.toNat % 4 ≠ 3) :
    Becomes (.dset n f) s ((s.p.setCore n.toNat (s.p.core n.toNat).runs).pushV n.toNat
      (.dset (s.p.core n.toNat).seq f.pset.toNat f.item.toNat f.value.toNat)) := by
  have hb : Becomes (.dset n f) s _ := becomes_issue rfl h
  have hno : ¬(decide (f.item.toNat ≥ 5) || (f.item.toNat == 4 && (decide (f.value.toNat ≥ 8) || f.value.toNat % 4 == 3))) = true := by
    simp only [Bool.or_eq_true, Bool.and_eq_true, decide_eq_true_eq, beq_iff_eq]
    omega
  dsimp only at hb
  rw [Part.core_setCore, if_pos rfl, if_neg hno] at hb
  exact hb

theorem vstream_becomes (f : VstreamF) (h : s.p.ready n.toNat [f.rd.toNat, f.ra.toNat, f.rb.toNat, f.rc.toNat] = true) {out : Fmt}
    (ho : Fmt.ofCode f.fmtOut.toNat = some out) {o : StreamOp} (heq : (s.p.core n.toNat).streamOp f out = o) (hm : f.mode ≠ 3)
    (hi : ∀ i ∈ usedInputs (spGet [] (s.p.core n.toNat).viewIssue.slots f.slot.toNat), (nth [o.fmt0, o.fmt1, o.fmt2] i none).isSome = true)
    (hs : inSpad (someBytes (o.reads (s.p.core n.toNat).viewIssue.vl ++ o.writes (s.p.core n.toNat).viewIssue.vl)) = true)
    (hc : s.p.outOfCode n.toNat (someBytes (o.writes (s.p.core n.toNat).viewIssue.vl)) = true) :
    Becomes (.vstream n f) s ((s.p.setCore n.toNat (s.p.core n.toNat).runs).pushV n.toNat (.stream o)) := by
  have hb : Becomes (.vstream n f) s _ := becomes_issue rfl h
  subst heq
  dsimp only at hb
  rw [Part.core_setCore, if_pos rfl, ho] at hb
  dsimp only at hb
  rw [if_neg] at hb
  · rw [if_neg, if_neg] at hb
    · exact hb
    · exact Bool.not_eq_true' _ ▸ (by rw [Bool.not_eq_false]; exact hc)
    · exact Bool.not_eq_true' _ ▸ (by rw [Bool.not_eq_false]; exact hs)
  · simp only [Bool.or_eq_true, decide_eq_true_eq, List.any_eq_true, not_or, not_exists, not_and, Option.isNone_iff_eq_none]
    exact ⟨hm, fun i hu hn => Option.isSome_iff_ne_none.1 (hi i hu) hn⟩

theorem vdrain_becomes (f : VdrainF) (h : s.p.ready n.toNat [f.rc.toNat, f.ra.toNat, f.rb.toNat] = true) {m : Fmt}
    (ho : Fmt.ofCode f.fmt.toNat = some m) {o : DrainOp} (heq : (s.p.core n.toNat).drainOp f m = o) (hm : f.mode ≠ 3)
    (hs : inSpad (o.reads ((spGet .reset (s.p.core n.toNat).viewIssue.psets f.pset.toNat).biasMode == 2)
      (s.p.outlook n.toNat (s.p.core n.toNat).pair).isSome ++ o.writes (s.p.outlook n.toNat (s.p.core n.toNat).pair).isSome) = true)
    (hc : s.p.outOfCode n.toNat (o.writes (s.p.outlook n.toNat (s.p.core n.toNat).pair).isSome) = true) :
    Becomes (.vdrain n f) s ((s.p.setCore n.toNat (s.p.core n.toNat).runs).pushV n.toNat (.drain o)) := by
  have hb : Becomes (.vdrain n f) s _ := becomes_issue rfl h
  subst heq
  dsimp only at hb
  rw [Part.core_setCore, if_pos rfl, ho] at hb
  dsimp only at hb
  rw [if_neg hm, if_neg, if_neg] at hb
  · exact hb
  · exact Bool.not_eq_true' _ ▸ (by rw [Bool.not_eq_false]; exact hc)
  · exact Bool.not_eq_true' _ ▸ (by rw [Bool.not_eq_false]; exact hs)

end

/-- Settles O11: each instruction becomes the push of its operation, and a configuration takes effect at once on an idle engine. -/
theorem vectorQueue : Obligations.VectorQueue := by
  intro s n p c k takes
  refine ⟨?_, ?_, ?_, ?_, ?_⟩
  · intro f h v
    exact pushV_takes (setvl_becomes s n f h) fun hv hq => by rw [Core.advance_config (by exact hv) (by exact hq) rfl]; rfl
  · intro f h hf old st hl hu
    refine pushV_takes (udef_becomes s n f h hf hl hu) fun hv hq => ?_
    rw [Core.advance_config (by exact hv) (by exact hq) rfl]
    have hput : (if f.new == 1 then [st] else spGet [] k.slots f.slot.toNat ++ [st]) =
        (if f.new = 1 then [] else spGet [] k.slots f.slot.toNat) ++ [st] := by
      by_cases hn : f.new = 1
      · rw [if_pos hn, if_pos (beq_iff_eq.2 hn)]; rfl
      · rw [if_neg hn, if_neg (mt beq_iff_eq.1 hn)]
    rw [← hput]
    rfl
  · intro f h hi hv
    exact pushV_takes (dset_becomes s n f h hi hv) fun hv hq => by rw [Core.advance_config (by exact hv) (by exact hq) rfl]; rfl
  · intro f h out ho o w hm hi hs hc
    exact pushV_takes (vstream_becomes s n f h ho rfl hm hi hs hc) fun hv hq => by rw [Core.advance_waits (by exact hv) rfl]; rfl
  · intro f h m ho hm o olk vec hs hc
    have heq : k.drainOp f m = o := by simp only [Core.drainOp, Core.stride_eq]; rfl
    exact pushV_takes (vdrain_becomes s n f h ho heq hm hs hc) fun hv hq => by rw [Core.advance_waits (by exact hv) rfl]; rfl

end Sys2Proof.Machine
end

section
/-!
PROOF. Racking transfers and unit requests as cores issue them (R130, R131, R189, R310, R311).
-/
namespace Sys2Proof.Machine

@[simp] theorem Part.rack_ite (b : Prop) [Decidable b] (p q : Part) : (if b then p else q).rack = if b then p.rack else q.rack := by
  split <;> rfl

@[simp] theorem Part.units_ite (b : Prop) [Decidable b] (p q : Part) : (if b then p else q).units = if b then p.units else q.units := by
  split <;> rfl

@[simp] theorem Part.cycle_ite (b : Prop) [Decidable b] (p q : Part) : (if b then p else q).cycle = if b then p.cycle else q.cycle := by
  split <;> rfl

@[simp] theorem Part.free_ite (b : Prop) [Decidable b] (p q : Part) : (if b then p else q).free = if b then p.free else q.free := by
  split <;> rfl

@[simp] theorem Part.big_ite (b : Prop) [Decidable b] (p q : Part) : (if b then p else q).big = if b then p.big else q.big := by
  split <;> rfl

@[simp] theorem Part.regs_ite (b : Prop) [Decidable b] (p q : Part) : (if b then p else q).regs = if b then p.regs else q.regs := by
  split <;> rfl

@[simp] theorem Part.sched_ite (b : Prop) [Decidable b] (p q : Part) : (if b then p else q).sched = if b then p.sched else q.sched := by
  split <;> rfl

@[simp] theorem Part.press_ite (b : Prop) [Decidable b] (p q : Part) : (if b then p else q).press = if b then p.press else q.press := by
  split <;> rfl

@[simp] theorem Part.optim_ite (b : Prop) [Decidable b] (p q : Part) : (if b then p else q).optim = if b then p.optim else q.optim := by
  split <;> rfl

@[simp] theorem Part.mctl_ite (b : Prop) [Decidable b] (p q : Part) : (if b then p else q).mctl = if b then p.mctl else q.mctl := by
  split <;> rfl

@[simp] theorem Part.txn_ite (b : Prop) [Decidable b] (p q : Part) : (if b then p else q).txn = if b then p.txn else q.txn := by
  split <;> rfl

@[simp] theorem Part.obs_ite (b : Prop) [Decidable b] (p q : Part) : (if b then p else q).obs = if b then p.obs else q.obs := by
  split <;> rfl

@[simp] theorem Part.fab_ite (b : Prop) [Decidable b] (p q : Part) : (if b then p else q).fab = if b then p.fab else q.fab := by
  split <;> rfl

@[simp] theorem Part.buckets_ite (b : Prop) [Decidable b] (p q : Part) : (if b then p else q).buckets = if b then p.buckets else q.buckets := by
  split <;> rfl

@[simp] theorem Part.twin_ite (b : Prop) [Decidable b] (p q : Part) : (if b then p else q).twin = if b then p.twin else q.twin := by
  split <;> rfl

@[simp] theorem Part.hif_ite (b : Prop) [Decidable b] (p q : Part) : (if b then p else q).hif = if b then p.hif else q.hif := by
  split <;> rfl

@[simp] theorem Part.mgt_ite (b : Prop) [Decidable b] (p q : Part) : (if b then p else q).mgt = if b then p.mgt else q.mgt := by
  split <;> rfl

@[simp] theorem Part.power_ite (b : Prop) [Decidable b] (p q : Part) : (if b then p else q).power = if b then p.power else q.power := by
  split <;> rfl

@[simp] theorem Part.signalIn_rack (p : Part) (pair c ev : Nat) : (p.signalIn pair c ev).rack = p.rack := by simp [Part.signalIn]

@[simp] theorem Part.signalTo_rack (p : Part) (pair chip c ev : Nat) : (p.signalTo pair chip c ev).rack = p.rack := by simp [Part.signalTo]

@[simp] theorem Part.rackSignals_rack (p : Part) (c pair dst ev sig : Nat) : (p.rackSignals c pair dst ev sig).rack = p.rack := by
  simp [Part.rackSignals]

@[simp] theorem Part.rackRefuse_rack (p : Part) (s c pair dst ev sig : Nat) : (p.rackRefuse s c pair dst ev sig).rack = p.rack := by
  simp [Part.rackRefuse]

@[simp] theorem Part.rckErr_rack (p : Part) (s i c pair addr : Nat) : (p.rckErr s i c pair addr).rack = p.rack := by simp [Part.rckErr]

theorem Part.core_congr {p q : Part} (h : q.cores = p.cores) (d : Nat) : q.core d = p.core d := by simp [Part.core, h]

theorem Part.rck_congr {p q : Part} (h : q.rack = p.rack) (x : Nat) : q.rck x = p.rck x := by simp [Part.rck, h]

theorem Part.unit_congr {p q : Part} (h : q.units = p.units) (x : Nat) : q.unit x = p.unit x := by simp [Part.unit, h]

theorem Part.setCore_rack (p : Part) (c : Nat) (k : Core) : (p.setCore c k).rack = p.rack := rfl

theorem Part.unit_setCore (p : Part) (c : Nat) (k : Core) (x : Nat) : (p.setCore c k).unit x = p.unit x := rfl

/-- The refusal of a transfer of a bad length changes no transfer (R310). -/
theorem Part.takeRack_lenBad (p : Part) (c pair src dst len ev sig tag : Nat) (he : p.getB (RCK_CTRL (coreSector c)) 0 = true)
    (hl : rackLenBad src dst len = true) : (p.takeRack c pair src dst len ev sig tag).rack = p.rack := by
  simp [Part.takeRack, he, hl, Part.rckErr]

/-- A transfer between two places of this part that the region map allows waits in the racking engine (R311). -/
theorem Part.takeRack_waits (p : Part) (c pair src dst len ev sig tag : Nat) (he : p.getB (RCK_CTRL (coreSector c)) 0 = true)
    (hl : rackLenBad src dst len = false) (hs : gChip src = p.chip) (hd : gChip dst = p.chip) (ho : rackOverlap p.chip src dst len = false)
    (hso : p.rackSrcOk (gLocal src) len = true) (hdo : p.rackDstOk (gLocal dst) len = true) :
    ((p.takeRack c pair src dst len ev sig tag).rck (coreSector c)).transfers = (p.rck (coreSector c)).transfers ++
      [⟨tag, c, pair, src, dst, len, ev, sig, 0, rackCut dst len, [], false⟩] := by
  have hpeak : ∀ (r : Part) o v y, (r.peak o v).rck y = r.rck y := fun r o v y => Part.rck_congr (by simp) y
  simp [Part.takeRack, he, hl, hs, hd, ho, hso, hdo, hpeak]

section
variable (s : State) (n : BitVec 13) (f : RackF)
  (h : s.p.ready n.toNat [f.rc.toNat, f.ra.toNat, f.ra.toNat + 1, f.rb.toNat, f.rb.toNat + 1] = true)
include h

theorem rack_takes (ha : f.ra.toNat % 2 = 0) (hb : f.rb.toNat % 2 = 0) {tag : Nat} (ht : (s.p.rck (coreSector n.toNat)).freeTag = some tag) :
    ∃ q, Becomes (.rack n f) s q ∧ (∀ d, q.core d = if d = n.toNat then (s.p.core n.toNat).runs.next else s.p.core d) ∧ q.mem = s.p.mem ∧
      q.rack = ((s.p.setCore n.toNat (s.p.core n.toNat).runs).takeRack n.toNat (s.p.core n.toNat).pair ((s.p.core n.toNat).pairAddr f.ra.toNat)
        ((s.p.core n.toNat).pairAddr f.rb.toNat) ((s.p.core n.toNat).reg f.rc.toNat) f.ev.toNat f.sig.toNat tag).rack := by
  have hb' : Becomes (.rack n f) s _ := becomes_issue rfl h
  dsimp only at hb'
  rw [Part.core_setCore, if_pos rfl, if_neg (by omega)] at hb'
  rw [show (s.p.setCore n.toNat (s.p.core n.toNat).runs).rck (coreSector n.toNat) = s.p.rck (coreSector n.toNat) from
    Part.rck_congr (by simp) _, ht] at hb'
  dsimp only at hb'
  refine ⟨_, hb', fun d => ?_, by simp, by simp⟩
  rw [Part.modCore_eq, Part.core_setCore, Part.core_congr (Part.takeRack_frame ..).2, Part.core_congr (Part.takeRack_frame ..).2,
    Part.core_setCore, Part.core_setCore, if_pos rfl]
  by_cases hd : d = n.toNat
  · subst hd; simp
  · simp [hd, Ne.symm hd]

theorem rack_waits (ha : f.ra.toNat % 2 = 0) (hb : f.rb.toNat % 2 = 0) {tag : Nat} (ht : (s.p.rck (coreSector n.toNat)).freeTag = some tag)
    {src dst len : Nat} (hsrc : (s.p.core n.toNat).pairAddr f.ra.toNat = src) (hdst : (s.p.core n.toNat).pairAddr f.rb.toNat = dst)
    (hlen : (s.p.core n.toNat).reg f.rc.toNat = len) (he : s.p.getB (RCK_CTRL (coreSector n.toNat)) 0 = true)
    (hl : rackLenBad src dst len = false) (hs : gChip src = s.p.chip) (hd : gChip dst = s.p.chip)
    (ho : rackOverlap s.p.chip src dst len = false) (hso : s.p.rackSrcOk (gLocal src) len = true) (hdo : s.p.rackDstOk (gLocal dst) len = true) :
    ∃ q, Becomes (.rack n f) s q ∧ (∀ d, q.core d = if d = n.toNat then (s.p.core n.toNat).runs.next else s.p.core d) ∧ q.mem = s.p.mem ∧
      (q.rck (coreSector n.toNat)).transfers = (s.p.rck (coreSector n.toNat)).transfers ++
        [⟨tag, n.toNat, (s.p.core n.toNat).pair, src, dst, len, f.ev.toNat, f.sig.toNat, 0, rackCut dst len, [], false⟩] := by
  obtain ⟨q, hq, hcore, hmem, hrack⟩ := rack_takes s n f h ha hb ht
  refine ⟨q, hq, hcore, hmem, ?_⟩
  rw [hsrc, hdst, hlen] at hrack
  rw [Part.rck_congr hrack]
  exact Part.takeRack_waits (s.p.setCore n.toNat (s.p.core n.toNat).runs) _ _ _ _ _ _ _ _ he hl hs hd ho hso hdo

theorem rack_lenBad (ha : f.ra.toNat % 2 = 0) (hb : f.rb.toNat % 2 = 0) {tag : Nat} (ht : (s.p.rck (coreSector n.toNat)).freeTag = some tag)
    (he : s.p.getB (RCK_CTRL (coreSector n.toNat)) 0 = true)
    (hl : rackLenBad ((s.p.core n.toNat).pairAddr f.ra.toNat) ((s.p.core n.toNat).pairAddr f.rb.toNat)
      ((s.p.core n.toNat).reg f.rc.toNat) = true) :
    ∃ q, Becomes (.rack n f) s q ∧ (∀ d, q.core d = if d = n.toNat then (s.p.core n.toNat).runs.next else s.p.core d) ∧ q.mem = s.p.mem ∧
      q.rck (coreSector n.toNat) = s.p.rck (coreSector n.toNat) := by
  obtain ⟨q, hq, hcore, hmem, hrack⟩ := rack_takes s n f h ha hb ht
  refine ⟨q, hq, hcore, hmem, ?_⟩
  rw [Part.takeRack_lenBad (s.p.setCore n.toNat (s.p.core n.toNat).runs) _ _ _ _ _ _ _ _ he hl] at hrack
  exact Part.rck_congr hrack _

theorem rack_stalls (ha : f.ra.toNat % 2 = 0) (hb : f.rb.toNat % 2 = 0) (ht : (s.p.rck (coreSector n.toNat)).freeTag = none) :
    ∃ q, Becomes (.rack n f) s q ∧ (∀ d, q.core d = if d = n.toNat then { s.p.core n.toNat with st := .stalled, heldBy := none }
      else s.p.core d) ∧ q.rck (coreSector n.toNat) = s.p.rck (coreSector n.toNat) := by
  have hb' : Becomes (.rack n f) s _ := becomes_issue rfl h
  dsimp only at hb'
  rw [Part.core_setCore, if_pos rfl, if_neg (by omega)] at hb'
  rw [show (s.p.setCore n.toNat (s.p.core n.toNat).runs).rck (coreSector n.toNat) = s.p.rck (coreSector n.toNat) from
    Part.rck_congr (by simp) _, ht] at hb'
  dsimp only at hb'
  refine ⟨_, hb', fun d => ?_, Part.rck_congr (by simp) _⟩
  have hcores : ((s.p.setCore n.toNat (s.p.core n.toNat).runs).bump (RCK_STAT_TAGSTALL (coreSector n.toNat)) 1).cores =
    (s.p.setCore n.toNat (s.p.core n.toNat).runs).cores := by simp
  rw [Part.modCore_eq, Part.core_setCore, Part.core_congr hcores, Part.core_congr hcores, Part.core_setCore, Part.core_setCore]
  by_cases hd : d = n.toNat
  · subst hd; simp [Core.stall, Core.runs]
  · simp [hd, Ne.symm hd]

end

/-- Settles O14: a tag is free or the core stalls; with one, the transfer waits or its length is refused. -/
theorem rackingTransfers : Obligations.RackingTransfers := by
  intro s n f h p c k x src dst len
  refine ⟨fun ha hb tag ht => ⟨?_, rack_lenBad s n f h ha hb ht⟩, rack_stalls s n f h, fun hodd hc => ?_⟩
  · exact rack_waits s n f h ha hb ht rfl rfl rfl
  · exact faults_of_issue rfl h hc (by rw [if_pos (by omega)])

section
variable (s : State) (n : BitVec 13) (f : UreqF) (h : s.p.ready n.toNat [f.ra.toNat] = true)

/-- The address of the descriptor that UREQ names (R131). -/
def Core.ureqAddr (k : Core) (f : UreqF) : Nat := (k.reg f.ra.toNat + f.offset.toNat) % 2 ^ 32 / 64 * 64

theorem Core.descAddr_eq (k : Core) (f : UreqF) : k.descAddr f.ra.toNat f.offset.toNat = k.ureqAddr f := alignDown_six _

theorem Units.queued_setQueued (u : Units) {unit : Nat} (hu : unit < 4) (l : List Ureq) (id : Nat) :
    Units.queued { u.setQueued unit l with nextId := id } unit = l := by
  obtain rfl | rfl | rfl | rfl : unit = 0 ∨ unit = 1 ∨ unit = 2 ∨ unit = 3 := by omega
  all_goals rfl

/-- Only a scatter takes slots of the log, and slots change the press alone (R257). -/
theorem Part.allocSlots_press (p : Part) (c count : Nat) : ∃ x, (p.allocSlots c count).2 = { p with press := x } := by
  unfold Part.allocSlots
  dsimp only
  split
  · exact ⟨p.press, rfl⟩
  · exact ⟨_, rfl⟩

omit h in
/-- A request that entered the queue of its unit, whatever slots the press gave it. -/
theorem ureq_queues (hu : f.unit.toNat < 4) {a : Nat} {W : Option Nat × Part}
    (hW : ∃ x, W.2 = { s.p.setCore n.toNat (s.p.core n.toNat).runs with press := x })
    (hb : Becomes (.ureq n f) s
      ((W.2.modUnit (coreSector n.toNat) fun u =>
        { u.setQueued f.unit.toNat (u.queued f.unit.toNat ++ [⟨(W.2.unit (coreSector n.toNat)).nextId + 1, f.unit.toNat, n.toNat,
            if f.evEn = 1 then some f.ev.toNat else none, (s.p.core n.toNat).runs.pair,
            ((s.p.setCore n.toNat (s.p.core n.toNat).runs).coreDesc n.toNat a).1,
            ((s.p.setCore n.toNat (s.p.core n.toNat).runs).coreDesc n.toNat a).2, W.1⟩])
          with nextId := (W.2.unit (coreSector n.toNat)).nextId + 1 }).modCore n.toNat Core.next)) :
    ∃ q r, Becomes (.ureq n f) s q ∧ (∀ d, q.core d = if d = n.toNat then (s.p.core n.toNat).runs.next else s.p.core d) ∧ q.mem = s.p.mem ∧
      (q.unit (coreSector n.toNat)).queued f.unit.toNat = (s.p.unit (coreSector n.toNat)).queued f.unit.toNat ++ [r] ∧
      r.core = n.toNat ∧ r.pair = (s.p.core n.toNat).pair ∧ r.ev = (if f.evEn = 1 then some f.ev.toNat else none) ∧
      r.desc = s.p.spad n.toNat a 64 ∧ r.poison = s.p.spadPoison n.toNat (a, a + 64) := by
  obtain ⟨slot, w⟩ := W
  obtain ⟨x, rfl⟩ := hW
  refine ⟨_, ⟨(s.p.unit (coreSector n.toNat)).nextId + 1, f.unit.toNat, n.toNat, if f.evEn = 1 then some f.ev.toNat else none,
    (s.p.core n.toNat).pair, s.p.spad n.toNat a 64, s.p.spadPoison n.toNat (a, a + 64), slot⟩, hb, fun d => ?_, by simp, ?_,
    rfl, rfl, rfl, rfl, rfl⟩
  · rw [Part.modCore_eq, Part.core_setCore, Part.modUnit_eq]
    have hcore : ∀ (u : Units) e, (Part.setUnit { s.p.setCore n.toNat (s.p.core n.toNat).runs with press := x } (coreSector n.toNat) u).core e =
        if n.toNat = e then (s.p.core n.toNat).runs else s.p.core e := fun u e =>
      (Part.core_congr (by simp) e).trans (Part.core_setCore s.p n.toNat e _)
    rw [hcore, hcore, if_pos rfl]
    by_cases hd : d = n.toNat
    · subst hd; simp
    · simp [hd, Ne.symm hd]
  · rw [Part.modCore_eq, Part.unit_setCore, Part.modUnit_eq, Part.unit_setUnit, if_pos rfl,
      Units.queued_setQueued _ hu]
    rfl

include h

theorem ureq_checked (hu : f.unit.toNat < 4) (hp : s.p.inPrivate n.toNat ((s.p.core n.toNat).ureqAddr f) 64 = true)
    (hw : s.p.mustWait n.toNat (s.p.core n.toNat).seq [((s.p.core n.toNat).ureqAddr f, (s.p.core n.toNat).ureqAddr f + 64)] [] = false) :
    (((s.p.unit (coreSector n.toNat)).queued f.unit.toNat).length < 64 →
      ∃ q r, Becomes (.ureq n f) s q ∧ (∀ d, q.core d = if d = n.toNat then (s.p.core n.toNat).runs.next else s.p.core d) ∧ q.mem = s.p.mem ∧
        (q.unit (coreSector n.toNat)).queued f.unit.toNat = (s.p.unit (coreSector n.toNat)).queued f.unit.toNat ++ [r] ∧
        r.core = n.toNat ∧ r.pair = (s.p.core n.toNat).pair ∧ r.ev = (if f.evEn = 1 then some f.ev.toNat else none) ∧
        r.desc = s.p.spad n.toNat ((s.p.core n.toNat).ureqAddr f) 64 ∧
        r.poison = s.p.spadPoison n.toNat ((s.p.core n.toNat).ureqAddr f, (s.p.core n.toNat).ureqAddr f + 64)) ∧
    (64 ≤ ((s.p.unit (coreSector n.toNat)).queued f.unit.toNat).length →
      ∃ q, Becomes (.ureq n f) s q ∧ OnlyCore s.p q n.toNat ∧
        q.core n.toNat = { s.p.core n.toNat with st := .stalled, heldBy := none }) := by
  have hb : Becomes (.ureq n f) s _ := becomes_issue rfl h
  dsimp only at hb
  rw [Part.core_setCore, if_pos rfl, if_neg (by omega)] at hb
  rw [show (s.p.core n.toNat).runs.descAddr f.ra.toNat f.offset.toNat = (s.p.core n.toNat).ureqAddr f from Core.descAddr_eq _ f] at hb
  rw [if_neg (by rw [Bool.not_eq_true', Bool.not_eq_false]; exact hp)] at hb
  rw [show (s.p.core n.toNat).runs.seq = (s.p.core n.toNat).seq from rfl, Part.mustWait_runs, hw, if_neg (by decide)] at hb
  refine ⟨fun hl => ?_, fun hl => ?_⟩
  · rw [if_neg (by exact not_le.2 hl)] at hb
    refine ureq_queues s n f hu ?_ hb
    split
    · exact Part.allocSlots_press _ _ _
    · exact ⟨_, rfl⟩
  · rw [if_pos (by exact hl), Part.modCore_eq, Part.core_setCore, if_pos rfl] at hb
    exact ⟨_, hb, onlyCore_set _ _ _ _, by simp [Core.stall, Core.runs]⟩

theorem ureq_unit_faults (hu : 4 ≤ f.unit.toNat) (hc : (s.p.core n.toNat).faultSeq = none) :
    ∃ q, Becomes (.ureq n f) s q ∧ FaultsWith s.p q n.toNat 1 :=
  faults_of_issue rfl h hc (by rw [if_pos hu])

theorem ureq_outside_faults (hu : f.unit.toNat < 4) (hc : (s.p.core n.toNat).faultSeq = none)
    (hp : s.p.inPrivate n.toNat ((s.p.core n.toNat).ureqAddr f) 64 = false) : ∃ q, Becomes (.ureq n f) s q ∧ FaultsWith s.p q n.toNat 2 := by
  refine faults_of_issue rfl h hc ?_
  rw [if_neg (by omega), if_pos]
  rw [Part.core_setCore, if_pos rfl, show (s.p.core n.toNat).runs.descAddr _ _ = (s.p.core n.toNat).ureqAddr f from Core.descAddr_eq _ f]
  exact Bool.not_eq_true' _ ▸ hp

end

/-- Settles O15: a request whose unit and descriptor pass the checks enters the unit's queue, or stalls issue while that is full. -/
theorem unitRequests : Obligations.UnitRequests := by
  intro s n f h p c k x a
  exact ⟨ureq_checked s n f h, ureq_unit_faults s n f h, fun hu hc hp => ureq_outside_faults s n f h hu hc hp⟩

end Sys2Proof.Machine
end

section
/-!
PROOF. ASK, SUBMIT, DONE and CLOSEQ (R63, R132, R165, R177).
-/
namespace Sys2Proof.Machine

/-- What a core and the others are when its instruction went on, after work that changed no core. -/
theorem Part.core_modNext {p r : Part} {c : Nat} (h : r.cores = (p.setCore c (p.core c).runs).cores) (d : Nat) :
    (r.modCore c Core.next).core d = if d = c then (p.core c).runs.next else p.core d := by
  rw [Part.modCore_eq, Part.core_setCore, Part.core_congr h, Part.core_congr h, Part.core_setCore, Part.core_setCore, if_pos rfl]
  by_cases hd : d = c
  · subst hd; simp
  · simp [hd, Ne.symm hd]

theorem Part.sch_congr {p q : Part} (h : q.sched = p.sched) (x : Nat) : q.sch x = p.sch x := by simp [Part.sch, h]

theorem Part.sch_setCore (p : Part) (c : Nat) (k : Core) (x : Nat) : (p.setCore c k).sch x = p.sch x := rfl

theorem Part.queue_setCore (p : Part) (c : Nat) (k : Core) (x j : Nat) : (p.setCore c k).queue x j = p.queue x j := rfl

theorem Part.queue_setQueue (p : Part) (x j i : Nat) (y : Queue) : (p.setQueue x j y).queue x i = if j = i then y else p.queue x i := by
  simp [Part.queue, Part.setQueue, spGet_spSet]

section
variable (s : State) (n : BitVec 13)

/-- The address of the descriptor that a scheduler instruction names. -/
def Core.descAt (k : Core) (ra : BitVec 5) (offset : BitVec 19) : Nat := (k.reg ra.toNat + offset.toNat) % 2 ^ 32 / 64 * 64

theorem Core.descAddr_at (k : Core) (ra : BitVec 5) (offset : BitVec 19) : k.descAddr ra.toNat offset.toNat = k.descAt ra offset :=
  alignDown_six _

section
variable (f : AskF) (h : s.p.ready n.toNat [f.rd.toNat, f.ra.toNat] = true)
include h

theorem ask_becomes (he : (s.p.core n.toNat).endSeen = false) (hp : s.p.inPrivate n.toNat ((s.p.core n.toNat).descAt f.ra f.offset) 64 = true) :
    ∃ t : Core, t = { (s.p.core n.toNat).runs.next with
        st := .inAsk, askRd := f.rd.toNat, askAddr := (s.p.core n.toNat).descAt f.ra f.offset } ∧
      Becomes (.ask n f) s
        (if s.p.endOfWork n.toNat then ((s.p.setCore n.toNat (s.p.core n.toNat).runs).setCore n.toNat t).returnEnd n.toNat
          else (s.p.setCore n.toNat (s.p.core n.toNat).runs).setCore n.toNat t) := by
  have hb : Becomes (.ask n f) s _ := becomes_issue rfl h
  dsimp only at hb
  rw [Part.core_setCore, if_pos rfl, if_neg (by rw [show (s.p.core n.toNat).runs.endSeen = false from he]; decide),
    show (s.p.core n.toNat).runs.descAddr f.ra.toNat f.offset.toNat = (s.p.core n.toNat).descAt f.ra f.offset from Core.descAddr_at _ _ _,
    if_neg (by rw [Bool.not_eq_true', Bool.not_eq_false]; exact hp)] at hb
  exact ⟨_, rfl, hb⟩

theorem ask_blocks (he : (s.p.core n.toNat).endSeen = false) (hp : s.p.inPrivate n.toNat ((s.p.core n.toNat).descAt f.ra f.offset) 64 = true)
    (hw : s.p.endOfWork n.toNat = false) :
    ∃ q, Becomes (.ask n f) s q ∧ MovesOn s.p q n.toNat fun x =>
      { x with st := .inAsk, askRd := f.rd.toNat, askAddr := (s.p.core n.toNat).descAt f.ra f.offset } := by
  obtain ⟨t, rfl, hb⟩ := ask_becomes s n f h he hp
  rw [hw, if_neg (by decide)] at hb
  exact ⟨_, hb, movesOn_set _ _ _ _ _ rfl⟩

theorem ask_ends (he : (s.p.core n.toNat).endSeen = false) (hp : s.p.inPrivate n.toNat ((s.p.core n.toNat).descAt f.ra f.offset) 64 = true)
    (hw : s.p.endOfWork n.toNat = true) :
    ∃ q, Becomes (.ask n f) s q ∧ OnlyCore s.p q n.toNat ∧ (q.core n.toNat).st = .running ∧ (q.core n.toNat).endSeen = true ∧
      (q.core n.toNat).reg f.rd.toNat = if f.rd.toNat = 0 then 0 else 0xFFFFFFFF := by
  obtain ⟨t, ht, hb⟩ := ask_becomes s n f h he hp
  rw [hw, if_pos rfl, Part.returnEnd, Part.modCore_eq, Part.core_setCore, if_pos rfl] at hb
  have hrd : t.askRd = f.rd.toNat := by rw [ht]
  refine ⟨_, hb, ?_, by simp, by simp, ?_⟩
  · exact ⟨rfl, fun d hd => by simp [Ne.symm hd]⟩
  · rw [Part.core_setCore, if_pos rfl]
    change (t.setReg t.askRd 0xFFFFFFFF).reg f.rd.toNat = _
    rw [Core.reg_setReg, hrd]
    split <;> simp_all

end

theorem ask_after_end_faults (f : AskF) (h : s.p.ready n.toNat [f.rd.toNat, f.ra.toNat] = true) (hf : (s.p.core n.toNat).faultSeq = none)
    (he : (s.p.core n.toNat).endSeen = true) : ∃ q, Becomes (.ask n f) s q ∧ FaultsWith s.p q n.toNat 10 := by
  refine faults_of_issue rfl h hf ?_
  dsimp only
  rw [Part.core_setCore, if_pos rfl, if_pos (by exact he)]

/-- A descriptor that can be read enters the submissions of its scheduler, or stalls issue while its queue is full (R132, R165). -/
theorem submit_local (f : SubmitF) (h : s.p.ready n.toNat [f.ra.toNat, f.rb.toNat] = true) {a name : Nat} {d : List Byte}
    (ha : (s.p.core n.toNat).descAt f.ra f.offset = a) (hname : (s.p.core n.toNat).reg f.rb.toNat % 65536 = name) (hd : s.p.spad n.toNat a 64 = d)
    (hr : f.remote = 0) (hp : s.p.inPrivate n.toNat a 64 = true) (hw : s.p.mustWait n.toNat (s.p.core n.toNat).seq [(a, a + 64)] [] = false)
    (hpo : s.p.spadPoison n.toNat (a, a + 64) = none) (hbad : descBad d false = false) (hdel : dCtrl d 0 = false) :
    Becomes (.submit n f) s
      (if s.p.queueFull (name / 16384) (name % 16384) then
        (s.p.setCore n.toNat (s.p.core n.toNat).runs).modCore n.toNat (Core.stallOn (name / 16384))
      else (((s.p.setCore n.toNat (s.p.core n.toNat).runs).submitLocal .core name (s.p.core n.toNat).pair d false).modCore n.toNat Core.next)) := by
  have hb : Becomes (.submit n f) s _ := becomes_issue rfl h
  dsimp only at hb
  have hda : (s.p.core n.toNat).runs.descAddr f.ra.toNat f.offset.toNat = a := (Core.descAddr_at _ _ _).trans ha
  have hpr : (s.p.setCore n.toNat (s.p.core n.toNat).runs).inPrivate n.toNat a 64 = true := hp
  have hdesc : (s.p.setCore n.toNat (s.p.core n.toNat).runs).coreDesc n.toNat a = (d, none) := Prod.ext hd hpo
  have hseq : (s.p.core n.toNat).runs.seq = (s.p.core n.toNat).seq := rfl
  have hreg : (s.p.core n.toNat).runs.reg f.rb.toNat % 65536 = name := hname
  rw [Part.core_setCore, if_pos rfl, hda, hpr, hseq, Part.mustWait_runs, hw, hdesc, hreg, hr] at hb
  simp only [Bool.not_true, Bool.false_eq_true, if_false, hbad, hdel, Bool.not_false, Bool.true_and] at hb
  rw [if_neg (show ¬(0 : BitVec 1) = 1 by decide), if_pos rfl] at hb
  exact hb

theorem submit_goes (f : SubmitF) (h : s.p.ready n.toNat [f.ra.toNat, f.rb.toNat] = true) {a name : Nat} {d : List Byte}
    (ha : (s.p.core n.toNat).descAt f.ra f.offset = a) (hname : (s.p.core n.toNat).reg f.rb.toNat % 65536 = name) (hd : s.p.spad n.toNat a 64 = d)
    (hr : f.remote = 0) (hp : s.p.inPrivate n.toNat a 64 = true) (hw : s.p.mustWait n.toNat (s.p.core n.toNat).seq [(a, a + 64)] [] = false)
    (hpo : s.p.spadPoison n.toNat (a, a + 64) = none) (hbad : descBad d false = false) (hdel : dCtrl d 0 = false)
    (hq : s.p.queueFull (name / 16384) (name % 16384) = false) (hbt : descBad (withTag d (s.p.core n.toNat).pair) false = false)
    (hdt : dCtrl (withTag d (s.p.core n.toNat).pair) 0 = false) :
    ∃ q, Becomes (.submit n f) s q ∧ (∀ d, q.core d = if d = n.toNat then (s.p.core n.toNat).runs.next else s.p.core d) ∧ q.mem = s.p.mem ∧
      (q.sch (name / 16384)).subs = (s.p.sch (name / 16384)).subs ++ [⟨name % 16384, .core, withTag d (s.p.core n.toNat).pair⟩] := by
  have hb := submit_local s n f h ha hname hd hr hp hw hpo hbad hdel
  rw [hq, if_neg (by decide)] at hb
  have hfld : fld name 14 2 = name / 16384 := by
    rw [fld, Nat.shiftRight_eq_div_pow, ← hname]
    omega
  have hsub : (s.p.setCore n.toNat (s.p.core n.toNat).runs).submitLocal .core name (s.p.core n.toNat).pair d false =
      (s.p.setCore n.toNat (s.p.core n.toNat).runs).modSch (name / 16384) fun x =>
        { x with subs := x.subs ++ [⟨name % 16384, .core, withTag d (s.p.core n.toNat).pair⟩] } := by
    simp [Part.submitLocal, hfld, hbt, hdt, show (SubSrc.core == SubSrc.forward) = false from rfl]
  rw [hsub] at hb
  refine ⟨_, hb, Part.core_modNext (by simp), by simp, ?_⟩
  simp

theorem submit_stalls (f : SubmitF) (h : s.p.ready n.toNat [f.ra.toNat, f.rb.toNat] = true) {a name : Nat} {d : List Byte}
    (ha : (s.p.core n.toNat).descAt f.ra f.offset = a) (hname : (s.p.core n.toNat).reg f.rb.toNat % 65536 = name) (hd : s.p.spad n.toNat a 64 = d)
    (hr : f.remote = 0) (hp : s.p.inPrivate n.toNat a 64 = true) (hw : s.p.mustWait n.toNat (s.p.core n.toNat).seq [(a, a + 64)] [] = false)
    (hpo : s.p.spadPoison n.toNat (a, a + 64) = none) (hbad : descBad d false = false) (hdel : dCtrl d 0 = false)
    (hq : s.p.queueFull (name / 16384) (name % 16384) = true) :
    ∃ q, Becomes (.submit n f) s q ∧ OnlyCore s.p q n.toNat ∧
      q.core n.toNat = { s.p.core n.toNat with st := .stalled, heldBy := some (name / 16384) } := by
  have hb := submit_local s n f h ha hname hd hr hp hw hpo hbad hdel
  rw [hq, if_pos rfl, Part.modCore_eq, Part.core_setCore, if_pos rfl] at hb
  exact ⟨_, hb, onlyCore_set _ _ _ _, by simp [Core.stallOn, Core.runs]⟩

theorem done_holds (f : DoneF) (h : s.p.ready n.toNat [f.ra.toNat] = true) {a : Nat} (ha : (s.p.core n.toNat).descAt f.ra f.offset = a)
    (hp : s.p.inPrivate n.toNat a 64 = true) (hw : s.p.mustWait n.toNat (s.p.core n.toNat).seq [(a, a + 64)] [] = false)
    (hpo : s.p.spadPoison n.toNat (a, a + 64) = none) (hon : s.p.schOn (coreSector n.toNat) = true)
    (hl : (s.p.sch (coreSector n.toNat)).held.length < 4096) (ho : s.p.outsideWindow (coreSector n.toNat) (s.p.spad n.toNat a 64) = false) :
    ∃ q, Becomes (.done n f) s q ∧ (∀ d, q.core d = if d = n.toNat then (s.p.core n.toNat).runs.next else s.p.core d) ∧ q.mem = s.p.mem ∧
      q.regs = s.p.regs ∧
      (q.sch (coreSector n.toNat)).held = (s.p.sch (coreSector n.toNat)).held ++ [⟨s.p.spad n.toNat a 64, (s.p.core n.toNat).pair, n.toNat⟩] := by
  have hb : Becomes (.done n f) s _ := becomes_issue rfl h
  dsimp only at hb
  have hda : (s.p.core n.toNat).runs.descAddr f.ra.toNat f.offset.toNat = a := (Core.descAddr_at _ _ _).trans ha
  have hpr : (s.p.setCore n.toNat (s.p.core n.toNat).runs).inPrivate n.toNat a 64 = true := hp
  have hdesc : (s.p.setCore n.toNat (s.p.core n.toNat).runs).coreDesc n.toNat a = (s.p.spad n.toNat a 64, none) := Prod.ext rfl hpo
  have hseq : (s.p.core n.toNat).runs.seq = (s.p.core n.toNat).seq := rfl
  have hson : (s.p.setCore n.toNat (s.p.core n.toNat).runs).schOn (coreSector n.toNat) = true := hon
  have hout : (s.p.setCore n.toNat (s.p.core n.toNat).runs).outsideWindow (coreSector n.toNat) (s.p.spad n.toNat a 64) = false := ho
  rw [Part.core_setCore, if_pos rfl, hda, hpr, hseq, Part.mustWait_runs, hw, hdesc, hson] at hb
  dsimp only at hb
  rw [hout, Part.sch_setCore] at hb
  simp only [Bool.not_true, Bool.false_eq_true, if_false, if_neg (not_le.2 hl), ge_iff_le] at hb
  refine ⟨_, hb, Part.core_modNext (by simp), by simp, by simp, ?_⟩
  simp [Core.runs]

theorem closeq_closes (rb : BitVec 5) (h : s.p.ready n.toNat [rb.toNat] = true) {y j : Nat}
    (hy : (s.p.core n.toNat).reg rb.toNat % 65536 / 16384 = y) (hj : (s.p.core n.toNat).reg rb.toNat % 16384 = j)
    (hon : s.p.queueOn y j = true) (hv : (s.p.queue y j).violated = false) :
    ∃ q, Becomes (.closeq n rb) s q ∧ (∀ d, q.core d = if d = n.toNat then (s.p.core n.toNat).runs.next else s.p.core d) ∧ q.mem = s.p.mem ∧
      (q.queue y j).closed = true ∧ (q.queue y j).ready = (s.p.queue y j).ready ∧ (q.queue y j).waiting = (s.p.queue y j).waiting := by
  have hb : Becomes (.closeq n rb) s _ := becomes_issue rfl h
  dsimp only at hb
  have hy' : (s.p.core n.toNat).runs.reg rb.toNat % 65536 / 16384 = y := hy
  have hj' : (s.p.core n.toNat).runs.reg rb.toNat % 65536 % 16384 = j := (Nat.mod_mod_of_dvd _ (by decide)).trans hj
  rw [Part.core_setCore, if_pos rfl, hy', hj', if_pos (by exact hon)] at hb
  have hq : ∀ (r : Part) k, (r.setCore n.toNat k).queue y j = r.queue y j := fun _ _ => rfl
  by_cases hc : (s.p.queue y j).closed = true
  · have hsame : (s.p.setCore n.toNat (s.p.core n.toNat).runs).closeQueue y j = s.p.setCore n.toNat (s.p.core n.toNat).runs := by
      simp [Part.closeQueue, hq, hc]
    rw [hsame] at hb
    exact ⟨_, hb, Part.core_modNext rfl, by simp, hc, rfl, rfl⟩
  · have hset : (s.p.setCore n.toNat (s.p.core n.toNat).runs).closeQueue y j =
        (s.p.setCore n.toNat (s.p.core n.toNat).runs).setQueue y j { s.p.queue y j with closed := true } := by
      simp [Part.closeQueue, hq, hc, hv]
    rw [hset] at hb
    refine ⟨_, hb, Part.core_modNext (by simp [Part.setQueue]), by simp [Part.setQueue], ?_⟩
    simp [hq, Part.queue_setQueue]

end

/-- Settles O16: each scheduler instruction on a descriptor that passes its checks. -/
theorem schedulerInstructions : Obligations.SchedulerInstructions := by
  intro s n p c k x at'
  refine ⟨fun f h he hp => ⟨ask_blocks s n f h he hp, ask_ends s n f h he hp⟩, ask_after_end_faults s n, ?_, ?_, ?_⟩
  · intro f h a name d hr hp hw hpo hbad hdel
    exact ⟨submit_goes s n f h rfl rfl rfl hr hp hw hpo hbad hdel, submit_stalls s n f h rfl rfl rfl hr hp hw hpo hbad hdel⟩
  · intro f h a hp hw hpo hon hl ho
    exact done_holds s n f h rfl hp hw hpo hon hl ho
  · intro rb h y j hon hv
    exact closeq_closes s n rb h rfl rfl hon hv

end Sys2Proof.Machine
end

section
/-!
SUPPORT. What an error record and a freeze leave of the fabric, of the tick and of the supply: a freeze floods the control messages and
asserts its pin, and stops the frame's ticks (R512).
-/
namespace Sys2Proof.Machine

@[simp] theorem Part.flood_fabFields (p : Part) (e : Option Nat) (corr : Nat) (m : CtlMsg) :
    (p.flood e corr m).fab.ports = p.fab.ports ∧ (p.flood e corr m).fab.bundles = p.fab.bundles ∧
    (p.flood e corr m).fab.txWin = p.fab.txWin ∧ (p.flood e corr m).fab.rxWin = p.fab.rxWin ∧ (p.flood e corr m).fab.blocks = p.fab.blocks ∧
    (p.flood e corr m).fab.nextBlock = p.fab.nextBlock ∧ (p.flood e corr m).fab.txq = p.fab.txq ∧ (p.flood e corr m).fab.fwd = p.fab.fwd ∧
    (p.flood e corr m).fab.rx = p.fab.rx ∧ (p.flood e corr m).fab.waitIn = p.fab.waitIn ∧ (p.flood e corr m).fab.linkOut = p.fab.linkOut ∧
    (p.flood e corr m).fab.firstCopy = p.fab.firstCopy ∧ (p.flood e corr m).fab.probes = p.fab.probes ∧
    (p.flood e corr m).fab.probesStandby = p.fab.probesStandby ∧ (p.flood e corr m).fab.waves = p.fab.waves ∧
    (p.flood e corr m).fab.probing = p.fab.probing ∧ (p.flood e corr m).fab.rerouted = p.fab.rerouted ∧
    (p.flood e corr m).fab.reroutedS = p.fab.reroutedS ∧ (p.flood e corr m).fab.standbyTree = p.fab.standbyTree ∧
    (p.flood e corr m).fab.accounted = p.fab.accounted ∧ (p.flood e corr m).fab.lossFrom = p.fab.lossFrom ∧
    (p.flood e corr m).fab.frozenSeen = p.fab.frozenSeen ∧ (p.flood e corr m).fab.idInForce = p.fab.idInForce ∧
    (p.flood e corr m).fab.topoInForce = p.fab.topoInForce := by
  simp [Part.flood]

@[simp] theorem Part.freezeFrom_fabFields (p : Part) (n : Nat) (e : Option Nat) (corr : Nat) :
    (p.freezeFrom n e corr).fab.ports = p.fab.ports ∧ (p.freezeFrom n e corr).fab.bundles = p.fab.bundles ∧
    (p.freezeFrom n e corr).fab.txWin = p.fab.txWin ∧ (p.freezeFrom n e corr).fab.rxWin = p.fab.rxWin ∧
    (p.freezeFrom n e corr).fab.blocks = p.fab.blocks ∧ (p.freezeFrom n e corr).fab.nextBlock = p.fab.nextBlock ∧
    (p.freezeFrom n e corr).fab.txq = p.fab.txq ∧ (p.freezeFrom n e corr).fab.fwd = p.fab.fwd ∧ (p.freezeFrom n e corr).fab.rx = p.fab.rx ∧
    (p.freezeFrom n e corr).fab.waitIn = p.fab.waitIn ∧ (p.freezeFrom n e corr).fab.linkOut = p.fab.linkOut ∧
    (p.freezeFrom n e corr).fab.firstCopy = p.fab.firstCopy ∧ (p.freezeFrom n e corr).fab.probes = p.fab.probes ∧
    (p.freezeFrom n e corr).fab.probesStandby = p.fab.probesStandby ∧ (p.freezeFrom n e corr).fab.waves = p.fab.waves ∧
    (p.freezeFrom n e corr).fab.probing = p.fab.probing ∧ (p.freezeFrom n e corr).fab.rerouted = p.fab.rerouted ∧
    (p.freezeFrom n e corr).fab.reroutedS = p.fab.reroutedS ∧ (p.freezeFrom n e corr).fab.standbyTree = p.fab.standbyTree ∧
    (p.freezeFrom n e corr).fab.accounted = p.fab.accounted ∧ (p.freezeFrom n e corr).fab.lossFrom = p.fab.lossFrom ∧
    (p.freezeFrom n e corr).fab.idInForce = p.fab.idInForce ∧ (p.freezeFrom n e corr).fab.topoInForce = p.fab.topoInForce := by
  unfold Part.freezeFrom
  dsimp only
  split <;> simp

@[simp] theorem Part.freezeFrom_tickFields (p : Part) (n : Nat) (e : Option Nat) (corr : Nat) :
    (p.freezeFrom n e corr).tick.token = p.tick.token ∧ (p.freezeFrom n e corr).tick.edge = p.tick.edge ∧
    (p.freezeFrom n e corr).tick.treeEdge = p.tick.treeEdge ∧ (p.freezeFrom n e corr).tick.frameStart = p.tick.frameStart ∧
    (p.freezeFrom n e corr).tick.frameLen = p.tick.frameLen ∧ (p.freezeFrom n e corr).tick.frameStretch = p.tick.frameStretch ∧
    (p.freezeFrom n e corr).tick.done0 = p.tick.done0 ∧ (p.freezeFrom n e corr).tick.done1 = p.tick.done1 ∧
    (p.freezeFrom n e corr).tick.done2 = p.tick.done2 ∧ (p.freezeFrom n e corr).tick.overrun = p.tick.overrun ∧
    (p.freezeFrom n e corr).tick.cause = p.tick.cause ∧ (p.freezeFrom n e corr).tick.causes = p.tick.causes ∧
    (p.freezeFrom n e corr).tick.sent = p.tick.sent ∧ (p.freezeFrom n e corr).tick.guardDone = p.tick.guardDone ∧
    (p.freezeFrom n e corr).tick.countErr = p.tick.countErr ∧ (p.freezeFrom n e corr).tick.coresStarted = p.tick.coresStarted ∧
    (p.freezeFrom n e corr).tick.codeAt = p.tick.codeAt ∧ (p.freezeFrom n e corr).tick.unwinding = p.tick.unwinding ∧
    (p.freezeFrom n e corr).tick.statuses = p.tick.statuses ∧ (p.freezeFrom n e corr).tick.holds = p.tick.holds ∧
    (p.freezeFrom n e corr).tick.lapses = p.tick.lapses ∧ (p.freezeFrom n e corr).tick.holdNoticed = p.tick.holdNoticed ∧
    (p.freezeFrom n e corr).tick.holdSince = p.tick.holdSince ∧ (p.freezeFrom n e corr).tick.heldFrame = p.tick.heldFrame ∧
    (p.freezeFrom n e corr).tick.stretch = p.tick.stretch ∧ (p.freezeFrom n e corr).tick.members = p.tick.members ∧
    (p.freezeFrom n e corr).tick.tokenSent = p.tick.tokenSent ∧ (p.freezeFrom n e corr).tick.tokenSentAt = p.tick.tokenSentAt ∧
    (p.freezeFrom n e corr).tick.tokenSeenAt = p.tick.tokenSeenAt ∧ (p.freezeFrom n e corr).tick.issued = p.tick.issued ∧
    (p.freezeFrom n e corr).tick.runs = p.tick.runs ∧ (p.freezeFrom n e corr).tick.quiesced = p.tick.quiesced ∧
    (p.freezeFrom n e corr).tick.resumeReplay = p.tick.resumeReplay ∧ (p.freezeFrom n e corr).tick.missing = p.tick.missing ∧
    (p.freezeFrom n e corr).tick.arrived = p.tick.arrived ∧ (p.freezeFrom n e corr).tick.signals = p.tick.signals ∧
    (p.freezeFrom n e corr).tick.markerSent = p.tick.markerSent ∧ (p.freezeFrom n e corr).tick.markersFrom = p.tick.markersFrom := by
  unfold Part.freezeFrom
  dsimp only
  split <;> simp

@[simp] theorem Part.freezeFrom_powerFields (p : Part) (n : Nat) (e : Option Nat) (corr : Nat) :
    (p.freezeFrom n e corr).power.up = p.power.up ∧ (p.freezeFrom n e corr).power.hbmTrained = p.power.hbmTrained ∧
    (p.freezeFrom n e corr).power.holdAt = p.power.holdAt ∧ (p.freezeFrom n e corr).power.repeatAt = p.power.repeatAt ∧
    (p.freezeFrom n e corr).power.thermRepeatAt = p.power.thermRepeatAt ∧ (p.freezeFrom n e corr).power.recoverAt = p.power.recoverAt ∧
    (p.freezeFrom n e corr).power.tickOut = p.power.tickOut ∧ (p.freezeFrom n e corr).power.tripOut = p.power.tripOut ∧
    (p.freezeFrom n e corr).power.gpioIn = p.power.gpioIn ∧ (p.freezeFrom n e corr).power.tap = p.power.tap := by
  unfold Part.freezeFrom
  dsimp only
  split <;> simp

@[simp] theorem Part.freeze_fabFields (p : Part) (n : Nat) :
    (p.freeze n).fab.ports = p.fab.ports ∧ (p.freeze n).fab.bundles = p.fab.bundles ∧ (p.freeze n).fab.txWin = p.fab.txWin ∧
    (p.freeze n).fab.rxWin = p.fab.rxWin ∧ (p.freeze n).fab.blocks = p.fab.blocks ∧ (p.freeze n).fab.nextBlock = p.fab.nextBlock ∧
    (p.freeze n).fab.txq = p.fab.txq ∧ (p.freeze n).fab.fwd = p.fab.fwd ∧ (p.freeze n).fab.rx = p.fab.rx ∧
    (p.freeze n).fab.waitIn = p.fab.waitIn ∧ (p.freeze n).fab.linkOut = p.fab.linkOut ∧ (p.freeze n).fab.firstCopy = p.fab.firstCopy ∧
    (p.freeze n).fab.probes = p.fab.probes ∧ (p.freeze n).fab.probesStandby = p.fab.probesStandby ∧ (p.freeze n).fab.waves = p.fab.waves ∧
    (p.freeze n).fab.probing = p.fab.probing ∧ (p.freeze n).fab.rerouted = p.fab.rerouted ∧ (p.freeze n).fab.reroutedS = p.fab.reroutedS ∧
    (p.freeze n).fab.standbyTree = p.fab.standbyTree ∧ (p.freeze n).fab.accounted = p.fab.accounted ∧
    (p.freeze n).fab.lossFrom = p.fab.lossFrom ∧ (p.freeze n).fab.idInForce = p.fab.idInForce ∧
    (p.freeze n).fab.topoInForce = p.fab.topoInForce := by
  simp [Part.freeze]

@[simp] theorem Part.freeze_tickFields (p : Part) (n : Nat) :
    (p.freeze n).tick.token = p.tick.token ∧ (p.freeze n).tick.edge = p.tick.edge ∧ (p.freeze n).tick.treeEdge = p.tick.treeEdge ∧
    (p.freeze n).tick.frameStart = p.tick.frameStart ∧ (p.freeze n).tick.frameLen = p.tick.frameLen ∧
    (p.freeze n).tick.frameStretch = p.tick.frameStretch ∧ (p.freeze n).tick.done0 = p.tick.done0 ∧ (p.freeze n).tick.done1 = p.tick.done1 ∧
    (p.freeze n).tick.done2 = p.tick.done2 ∧ (p.freeze n).tick.overrun = p.tick.overrun ∧ (p.freeze n).tick.cause = p.tick.cause ∧
    (p.freeze n).tick.causes = p.tick.causes ∧ (p.freeze n).tick.sent = p.tick.sent ∧ (p.freeze n).tick.guardDone = p.tick.guardDone ∧
    (p.freeze n).tick.countErr = p.tick.countErr ∧ (p.freeze n).tick.coresStarted = p.tick.coresStarted ∧
    (p.freeze n).tick.codeAt = p.tick.codeAt ∧ (p.freeze n).tick.unwinding = p.tick.unwinding ∧
    (p.freeze n).tick.statuses = p.tick.statuses ∧ (p.freeze n).tick.holds = p.tick.holds ∧ (p.freeze n).tick.lapses = p.tick.lapses ∧
    (p.freeze n).tick.holdNoticed = p.tick.holdNoticed ∧ (p.freeze n).tick.holdSince = p.tick.holdSince ∧
    (p.freeze n).tick.heldFrame = p.tick.heldFrame ∧ (p.freeze n).tick.stretch = p.tick.stretch ∧
    (p.freeze n).tick.members = p.tick.members ∧ (p.freeze n).tick.tokenSent = p.tick.tokenSent ∧
    (p.freeze n).tick.tokenSentAt = p.tick.tokenSentAt ∧ (p.freeze n).tick.tokenSeenAt = p.tick.tokenSeenAt ∧
    (p.freeze n).tick.issued = p.tick.issued ∧ (p.freeze n).tick.runs = p.tick.runs ∧ (p.freeze n).tick.quiesced = p.tick.quiesced ∧
    (p.freeze n).tick.resumeReplay = p.tick.resumeReplay ∧ (p.freeze n).tick.missing = p.tick.missing ∧
    (p.freeze n).tick.arrived = p.tick.arrived ∧ (p.freeze n).tick.signals = p.tick.signals ∧
    (p.freeze n).tick.markerSent = p.tick.markerSent ∧ (p.freeze n).tick.markersFrom = p.tick.markersFrom := by
  simp [Part.freeze]

@[simp] theorem Part.freeze_powerFields (p : Part) (n : Nat) :
    (p.freeze n).power.up = p.power.up ∧ (p.freeze n).power.hbmTrained = p.power.hbmTrained ∧ (p.freeze n).power.holdAt = p.power.holdAt ∧
    (p.freeze n).power.repeatAt = p.power.repeatAt ∧ (p.freeze n).power.thermRepeatAt = p.power.thermRepeatAt ∧
    (p.freeze n).power.recoverAt = p.power.recoverAt ∧ (p.freeze n).power.tickOut = p.power.tickOut ∧
    (p.freeze n).power.tripOut = p.power.tripOut ∧ (p.freeze n).power.gpioIn = p.power.gpioIn ∧ (p.freeze n).power.tap = p.power.tap := by
  simp [Part.freeze]

@[simp] theorem Part.err_fabFields (p : Part) (e : ErrRec) :
    (p.err e).fab.ports = p.fab.ports ∧ (p.err e).fab.bundles = p.fab.bundles ∧ (p.err e).fab.txWin = p.fab.txWin ∧
    (p.err e).fab.rxWin = p.fab.rxWin ∧ (p.err e).fab.blocks = p.fab.blocks ∧ (p.err e).fab.nextBlock = p.fab.nextBlock ∧
    (p.err e).fab.txq = p.fab.txq ∧ (p.err e).fab.fwd = p.fab.fwd ∧ (p.err e).fab.rx = p.fab.rx ∧ (p.err e).fab.waitIn = p.fab.waitIn ∧
    (p.err e).fab.linkOut = p.fab.linkOut ∧ (p.err e).fab.firstCopy = p.fab.firstCopy ∧ (p.err e).fab.probes = p.fab.probes ∧
    (p.err e).fab.probesStandby = p.fab.probesStandby ∧ (p.err e).fab.waves = p.fab.waves ∧ (p.err e).fab.probing = p.fab.probing ∧
    (p.err e).fab.rerouted = p.fab.rerouted ∧ (p.err e).fab.reroutedS = p.fab.reroutedS ∧ (p.err e).fab.standbyTree = p.fab.standbyTree ∧
    (p.err e).fab.accounted = p.fab.accounted ∧ (p.err e).fab.lossFrom = p.fab.lossFrom ∧ (p.err e).fab.idInForce = p.fab.idInForce ∧
    (p.err e).fab.topoInForce = p.fab.topoInForce := by
  unfold Part.err
  dsimp only
  repeat' split
  all_goals simp

@[simp] theorem Part.err_tickFields (p : Part) (e : ErrRec) :
    (p.err e).tick.token = p.tick.token ∧ (p.err e).tick.edge = p.tick.edge ∧ (p.err e).tick.treeEdge = p.tick.treeEdge ∧
    (p.err e).tick.frameStart = p.tick.frameStart ∧ (p.err e).tick.frameLen = p.tick.frameLen ∧
    (p.err e).tick.frameStretch = p.tick.frameStretch ∧ (p.err e).tick.done0 = p.tick.done0 ∧ (p.err e).tick.done1 = p.tick.done1 ∧
    (p.err e).tick.done2 = p.tick.done2 ∧ (p.err e).tick.overrun = p.tick.overrun ∧ (p.err e).tick.cause = p.tick.cause ∧
    (p.err e).tick.causes = p.tick.causes ∧ (p.err e).tick.sent = p.tick.sent ∧ (p.err e).tick.guardDone = p.tick.guardDone ∧
    (p.err e).tick.countErr = p.tick.countErr ∧ (p.err e).tick.coresStarted = p.tick.coresStarted ∧ (p.err e).tick.codeAt = p.tick.codeAt ∧
    (p.err e).tick.unwinding = p.tick.unwinding ∧ (p.err e).tick.statuses = p.tick.statuses ∧ (p.err e).tick.holds = p.tick.holds ∧
    (p.err e).tick.lapses = p.tick.lapses ∧ (p.err e).tick.holdNoticed = p.tick.holdNoticed ∧ (p.err e).tick.holdSince = p.tick.holdSince ∧
    (p.err e).tick.heldFrame = p.tick.heldFrame ∧ (p.err e).tick.stretch = p.tick.stretch ∧ (p.err e).tick.members = p.tick.members ∧
    (p.err e).tick.tokenSent = p.tick.tokenSent ∧ (p.err e).tick.tokenSentAt = p.tick.tokenSentAt ∧
    (p.err e).tick.tokenSeenAt = p.tick.tokenSeenAt ∧ (p.err e).tick.issued = p.tick.issued ∧ (p.err e).tick.runs = p.tick.runs ∧
    (p.err e).tick.quiesced = p.tick.quiesced ∧ (p.err e).tick.resumeReplay = p.tick.resumeReplay ∧
    (p.err e).tick.missing = p.tick.missing ∧ (p.err e).tick.arrived = p.tick.arrived ∧ (p.err e).tick.signals = p.tick.signals ∧
    (p.err e).tick.markerSent = p.tick.markerSent ∧ (p.err e).tick.markersFrom = p.tick.markersFrom := by
  unfold Part.err
  dsimp only
  repeat' split
  all_goals simp

@[simp] theorem Part.err_powerFields (p : Part) (e : ErrRec) :
    (p.err e).power.up = p.power.up ∧ (p.err e).power.hbmTrained = p.power.hbmTrained ∧ (p.err e).power.holdAt = p.power.holdAt ∧
    (p.err e).power.repeatAt = p.power.repeatAt ∧ (p.err e).power.thermRepeatAt = p.power.thermRepeatAt ∧
    (p.err e).power.recoverAt = p.power.recoverAt ∧ (p.err e).power.tickOut = p.power.tickOut ∧ (p.err e).power.tripOut = p.power.tripOut ∧
    (p.err e).power.gpioIn = p.power.gpioIn ∧ (p.err e).power.tap = p.power.tap := by
  unfold Part.err
  dsimp only
  repeat' split
  all_goals simp

@[simp] theorem Part.noteErr_fabFields (p : Part) (o i : Nat) (e : ErrRec) :
    (p.noteErr o i e).fab.ports = p.fab.ports ∧ (p.noteErr o i e).fab.bundles = p.fab.bundles ∧ (p.noteErr o i e).fab.txWin = p.fab.txWin ∧
    (p.noteErr o i e).fab.rxWin = p.fab.rxWin ∧ (p.noteErr o i e).fab.blocks = p.fab.blocks ∧
    (p.noteErr o i e).fab.nextBlock = p.fab.nextBlock ∧ (p.noteErr o i e).fab.txq = p.fab.txq ∧ (p.noteErr o i e).fab.fwd = p.fab.fwd ∧
    (p.noteErr o i e).fab.rx = p.fab.rx ∧ (p.noteErr o i e).fab.waitIn = p.fab.waitIn ∧ (p.noteErr o i e).fab.linkOut = p.fab.linkOut ∧
    (p.noteErr o i e).fab.firstCopy = p.fab.firstCopy ∧ (p.noteErr o i e).fab.probes = p.fab.probes ∧
    (p.noteErr o i e).fab.probesStandby = p.fab.probesStandby ∧ (p.noteErr o i e).fab.waves = p.fab.waves ∧
    (p.noteErr o i e).fab.probing = p.fab.probing ∧ (p.noteErr o i e).fab.rerouted = p.fab.rerouted ∧
    (p.noteErr o i e).fab.reroutedS = p.fab.reroutedS ∧ (p.noteErr o i e).fab.standbyTree = p.fab.standbyTree ∧
    (p.noteErr o i e).fab.accounted = p.fab.accounted ∧ (p.noteErr o i e).fab.lossFrom = p.fab.lossFrom ∧
    (p.noteErr o i e).fab.idInForce = p.fab.idInForce ∧ (p.noteErr o i e).fab.topoInForce = p.fab.topoInForce := by
  simp [Part.noteErr]

@[simp] theorem Part.noteErr_tickFields (p : Part) (o i : Nat) (e : ErrRec) :
    (p.noteErr o i e).tick.token = p.tick.token ∧ (p.noteErr o i e).tick.edge = p.tick.edge ∧
    (p.noteErr o i e).tick.treeEdge = p.tick.treeEdge ∧ (p.noteErr o i e).tick.frameStart = p.tick.frameStart ∧
    (p.noteErr o i e).tick.frameLen = p.tick.frameLen ∧ (p.noteErr o i e).tick.frameStretch = p.tick.frameStretch ∧
    (p.noteErr o i e).tick.done0 = p.tick.done0 ∧ (p.noteErr o i e).tick.done1 = p.tick.done1 ∧
    (p.noteErr o i e).tick.done2 = p.tick.done2 ∧ (p.noteErr o i e).tick.overrun = p.tick.overrun ∧
    (p.noteErr o i e).tick.cause = p.tick.cause ∧ (p.noteErr o i e).tick.causes = p.tick.causes ∧
    (p.noteErr o i e).tick.sent = p.tick.sent ∧ (p.noteErr o i e).tick.guardDone = p.tick.guardDone ∧
    (p.noteErr o i e).tick.countErr = p.tick.countErr ∧ (p.noteErr o i e).tick.coresStarted = p.tick.coresStarted ∧
    (p.noteErr o i e).tick.codeAt = p.tick.codeAt ∧ (p.noteErr o i e).tick.unwinding = p.tick.unwinding ∧
    (p.noteErr o i e).tick.statuses = p.tick.statuses ∧ (p.noteErr o i e).tick.holds = p.tick.holds ∧
    (p.noteErr o i e).tick.lapses = p.tick.lapses ∧ (p.noteErr o i e).tick.holdNoticed = p.tick.holdNoticed ∧
    (p.noteErr o i e).tick.holdSince = p.tick.holdSince ∧ (p.noteErr o i e).tick.heldFrame = p.tick.heldFrame ∧
    (p.noteErr o i e).tick.stretch = p.tick.stretch ∧ (p.noteErr o i e).tick.members = p.tick.members ∧
    (p.noteErr o i e).tick.tokenSent = p.tick.tokenSent ∧ (p.noteErr o i e).tick.tokenSentAt = p.tick.tokenSentAt ∧
    (p.noteErr o i e).tick.tokenSeenAt = p.tick.tokenSeenAt ∧ (p.noteErr o i e).tick.issued = p.tick.issued ∧
    (p.noteErr o i e).tick.runs = p.tick.runs ∧ (p.noteErr o i e).tick.quiesced = p.tick.quiesced ∧
    (p.noteErr o i e).tick.resumeReplay = p.tick.resumeReplay ∧ (p.noteErr o i e).tick.missing = p.tick.missing ∧
    (p.noteErr o i e).tick.arrived = p.tick.arrived ∧ (p.noteErr o i e).tick.signals = p.tick.signals ∧
    (p.noteErr o i e).tick.markerSent = p.tick.markerSent ∧ (p.noteErr o i e).tick.markersFrom = p.tick.markersFrom := by
  simp [Part.noteErr]

@[simp] theorem Part.noteErr_powerFields (p : Part) (o i : Nat) (e : ErrRec) :
    (p.noteErr o i e).power.up = p.power.up ∧ (p.noteErr o i e).power.hbmTrained = p.power.hbmTrained ∧
    (p.noteErr o i e).power.holdAt = p.power.holdAt ∧ (p.noteErr o i e).power.repeatAt = p.power.repeatAt ∧
    (p.noteErr o i e).power.thermRepeatAt = p.power.thermRepeatAt ∧ (p.noteErr o i e).power.recoverAt = p.power.recoverAt ∧
    (p.noteErr o i e).power.tickOut = p.power.tickOut ∧ (p.noteErr o i e).power.tripOut = p.power.tripOut ∧
    (p.noteErr o i e).power.gpioIn = p.power.gpioIn ∧ (p.noteErr o i e).power.tap = p.power.tap := by
  simp [Part.noteErr]

end Sys2Proof.Machine
end

section
/-!
PROOF. Irregular accesses return (R116, R300, R308).
-/
namespace Sys2Proof.Machine

@[simp] theorem Part.signal_frame (p : Part) (c ev : Nat) :
    (p.signal c ev).mem = p.mem ∧ (p.signal c ev).cores = p.cores ∧ (p.signal c ev).fab = p.fab ∧ (p.signal c ev).regs = p.regs := by
  simp [Part.signal]

/-- The part when an access has returned: its core's list without what settled, and their signals. -/
def Part.irrSettled (p : Part) (c : Nat) (i : IrrOp) : Part :=
  (p.setCore c { p.core c with irr := ((p.core c).settled i).1 }).each ((p.core c).settled i).2 fun p ev => p.signal c ev

/-- An access that is done settles, and may send one that waited behind it. -/
theorem Part.irrDone_settles (p : Part) (c : Nat) (i : IrrOp) :
    p.irrDone c i = p.irrSettled c i ∨ ∃ j, p.irrDone c i = (p.irrSettled c i).irrSend c j := by
  unfold Part.irrDone
  dsimp only
  split
  · exact .inr ⟨_, rfl⟩
  · exact .inl rfl

theorem Part.irrSettled_core (p : Part) (c : Nat) (i : IrrOp) (d : Nat) :
    (p.irrSettled c i).core d = if c = d then { p.core c with irr := ((p.core c).settled i).1 } else p.core d := by
  rw [show (p.irrSettled c i).core d = _ from Part.each_keeps (fun r => r.core d) _ (fun r ev => by simp [Part.core]) _ _, Part.core_setCore]

theorem Part.irrSettled_rx (p : Part) (c : Nat) (i : IrrOp) : (p.irrSettled c i).fab.rx = p.fab.rx :=
  Part.each_keeps (fun r : Part => r.fab.rx) _ (fun r ev => by simp) _ _

theorem Part.irrDone_core (p : Part) (c : Nat) (i : IrrOp) (d : Nat) :
    (p.irrDone c i).core d = if c = d then { p.core c with irr := ((p.core c).settled i).1 } else p.core d := by
  obtain h | ⟨j, h⟩ := p.irrDone_settles c i
  · rw [h, Part.irrSettled_core]
  · rw [h, Part.irrSend_core, Part.irrSettled_core]

theorem Part.irrDone_rx (p : Part) (c : Nat) (i : IrrOp) : (p.irrDone c i).fab.rx = p.fab.rx := by
  obtain h | ⟨j, h⟩ := p.irrDone_settles c i
  · rw [h, Part.irrSettled_rx]
  · rw [h, ← p.irrSettled_rx c i]
    simp [Part.irrSend, Part.sendPacket]

theorem Part.ldgValue_core (p : Part) (c : Nat) (i : IrrOp) (d : Nat) : (p.ldgValue c i).2.core d = p.core d := by
  unfold Part.ldgValue
  dsimp only
  split
  · simp
  · split
    · split <;> simp [Part.irrRefused]
    · rfl

/-- A core's partition register is none of the counters of irregular accesses. -/
theorem ldgCount_ne (x c : Nat) : MEM_STAT_LDG x ≠ COR_PART c := by
  simp only [MEM_STAT_LDG, COR_PART, corBase, secBase]
  omega

theorem Core.reg_irr (k : Core) (l : List IrrOp) (r : Nat) : { k with irr := l }.reg r = k.reg r := rfl

section
variable (s : State) (n : BitVec 13) {i : IrrOp} (hl : s.p.live = true) (hh : s.p.irrHeld n.toNat i = false)
include hl hh

theorem ldgReturn_becomes (hi : s.p.irrReady n.toNat true = some i) (hu : gChip i.gaddr = s.p.chip → s.p.tick.unwinding = false) :
    Becomes (.ldgReturn n) s
      (((match (s.p.ldgValue n.toNat i).1.2 with
          | some t => (s.p.ldgValue n.toNat i).2.consume (coreSector n.toNat) 1 n.toNat i.pair t
          | none => (s.p.ldgValue n.toNat i).2).modCore n.toNat fun k =>
        k.setReg i.rd (if (s.p.ldgValue n.toNat i).1.2.isSome then 0 else (s.p.ldgValue n.toNat i).1.1)).irrDone n.toNat i) := by
  have hgo : (!s.p.live || s.p.irrHeld n.toNat i || (s.p.tick.unwinding && gChip i.gaddr == s.p.chip)) = false := by
    by_cases hc : gChip i.gaddr = s.p.chip
    · simp [hl, hh, hu hc]
    · simp [hl, hh, hc]
  simp only [Becomes, exec, execLdgReturn, State.run, hi, hgo, Bool.false_eq_true, if_false] <;> rfl

theorem ldg_returns (hi : s.p.irrReady n.toNat true = some i) (hu : gChip i.gaddr = s.p.chip → s.p.tick.unwinding = false) :
    ∃ q, Becomes (.ldgReturn n) s q ∧ (∀ d, d ≠ n.toNat → q.core d = s.p.core d) ∧ (q.core n.toNat).pc = (s.p.core n.toNat).pc ∧
      (∀ r, r ≠ i.rd → (q.core n.toNat).reg r = (s.p.core n.toNat).reg r) ∧
      (q.core n.toNat).reg i.rd = (if i.rd = 0 then 0 else if (s.p.ldgValue n.toNat i).1.2.isSome then 0
        else (s.p.ldgValue n.toNat i).1.1 % 2 ^ 32) := by
  refine ⟨_, ldgReturn_becomes s n hl hh hi hu, ?_⟩
  have hval : ∀ d, (match (s.p.ldgValue n.toNat i).1.2 with
      | some t => (s.p.ldgValue n.toNat i).2.consume (coreSector n.toNat) 1 n.toNat i.pair t
      | none => (s.p.ldgValue n.toNat i).2).core d = s.p.core d := by
    intro d
    split <;> simp [Part.ldgValue_core]
  generalize (match (s.p.ldgValue n.toNat i).1.2 with
      | some t => (s.p.ldgValue n.toNat i).2.consume (coreSector n.toNat) 1 n.toNat i.pair t
      | none => (s.p.ldgValue n.toNat i).2) = r at hval ⊢
  simp only [Part.irrDone_core, Part.modCore_eq, Part.core_setCore, if_true, hval, Core.reg_irr, Core.reg_setReg]
  refine ⟨fun d hd => by simp [Ne.symm hd], by rw [Core.setReg_keeps], fun j hj => by simp [Ne.symm hj], ?_⟩
  by_cases h0 : i.rd = 0
  · simp [h0]
  · rw [if_pos ⟨trivial, h0⟩, if_neg h0]
    split <;> rfl

/-- A store to the inbound partition of a core of this part, in a granule that is not poison, writes its word alone. -/
theorem stg_stores (hi : s.p.irrReady n.toNat false = some i) (hc : gChip i.gaddr = s.p.chip) (hb : isHbm (gLocal i.gaddr) = false)
    (hin : s.p.inInbound (gLocal i.gaddr) 4 = true) (h4 : gLocal i.gaddr % 4 = 0) (hg : s.p.granPoison (gLocal i.gaddr) = false) :
    ∃ q, Becomes (.stgComplete n) s q ∧ (∀ d, d ≠ n.toNat → q.core d = s.p.core d) ∧
      (∀ r, (q.core n.toNat).reg r = (s.p.core n.toNat).reg r) ∧
      ∀ x, q.byteAt x = if gLocal i.gaddr ≤ x ∧ x < gLocal i.gaddr + 4
        then (leBytes 4 i.value).getD (x - gLocal i.gaddr) 0#8 else s.p.byteAt x := by
  have hgo : (!s.p.live || s.p.irrHeld n.toNat i) = false := by simp [hl, hh]
  have heq : (gChip i.gaddr == s.p.chip) = true := beq_iff_eq.2 hc
  have hin' : (s.p.bump (MEM_STAT_LDG (coreSector n.toNat)) 1).inInbound (gLocal i.gaddr) 4 = true := by
    rw [← hin]
    simp only [Part.inInbound, Part.getF_congr 8 7 (Part.rd_bump_other s.p 1 (ldgCount_ne (coreSector n.toNat) (windowCore (gLocal i.gaddr))))]
    rfl
  have hbec : Becomes (.stgComplete n) s
      (((s.p.bump (MEM_STAT_LDG (coreSector n.toNat)) 1).store 1 i.pair (gLocal i.gaddr) (leBytes 4 i.value) none).irrDone n.toNat i) := by
    simp only [Becomes, exec, execStgComplete, State.run, hi, hgo, heq, hb, Bool.false_eq_true, if_false, if_true, Bool.false_or, hin']
  generalize hr : (s.p.bump (MEM_STAT_LDG (coreSector n.toNat)) 1).store 1 i.pair (gLocal i.gaddr) (leBytes 4 i.value) none = r at hbec
  have hcore : ∀ d, r.core d = s.p.core d := fun d => by simp [← hr]
  have hbyte : ∀ x, r.byteAt x = if gLocal i.gaddr ≤ x ∧ x < gLocal i.gaddr + 4 then (leBytes 4 i.value).getD (x - gLocal i.gaddr) 0#8
      else s.p.byteAt x := by
    intro x
    have hst := Part.store_gran (s.p.bump (MEM_STAT_LDG (coreSector n.toNat)) 1) 1 i.pair (gLocal i.gaddr) (leBytes 4 i.value) hb
      (List.ne_nil_of_length_pos (by simp)) (by rw [length_leBytes]; omega) (by simp) hg
    rw [← hr, hst, Part.byteAt, spGet_putBytes, length_leBytes]
    simp [Part.byteAt]
  refine ⟨_, hbec, ?_⟩
  simp only [Part.irrDone_core, hcore, if_true]
  exact ⟨fun d hd => by simp [Ne.symm hd], fun _ => rfl, fun x => (Part.byteAt_congr (Part.irrDone_frame r _ i) x).trans (hbyte x)⟩

theorem stg_acknowledged (hi : s.p.irrReady n.toNat false = some i) (hc : gChip i.gaddr ≠ s.p.chip) {r : Packet}
    (hr : s.p.irrReply n.toNat i = some r) :
    ∃ q, Becomes (.stgComplete n) s q ∧ (∀ d, d ≠ n.toNat → q.core d = s.p.core d) ∧
      (∀ j, (q.core n.toNat).reg j = (s.p.core n.toNat).reg j) ∧ q.mem = s.p.mem ∧ q.fab.rx = s.p.fab.rx.erase r := by
  have hgo : (!s.p.live || s.p.irrHeld n.toNat i) = false := by simp [hl, hh]
  have hne : (gChip i.gaddr == s.p.chip) = false := beq_eq_false_iff_ne.2 hc
  have hb : Becomes (.stgComplete n) s
      (((if leAt r.payload 4 1 = 1 then s.p.irrRefused n.toNat i else s.p).takeRx r).irrDone n.toNat i) := by
    simp only [Becomes, exec, execStgComplete, State.run, hi, hgo, hne, hr, Bool.false_eq_true, if_false]
  refine ⟨_, hb, ?_⟩
  have hcore : ∀ d, ((if leAt r.payload 4 1 = 1 then s.p.irrRefused n.toNat i else s.p).takeRx r).core d = s.p.core d := by
    intro d
    split <;> simp [Part.irrRefused]
  simp only [Part.irrDone_core, hcore, if_true, Core.reg_irr]
  refine ⟨fun d hd => by simp [Ne.symm hd], fun j => trivial, ?_, ?_⟩
  · rw [Part.irrDone_frame]
    split <;> simp [Part.irrRefused]
  · rw [Part.irrDone_rx]
    split <;> simp [Part.irrRefused, Part.takeRx]

end

/-- Settles O17: what a returned access leaves is what its value and its end leave. -/
theorem irregularReturns : Obligations.IrregularReturns := by
  intro s n p c k
  exact ⟨fun i hi hl hh hu => ldg_returns s n hl hh hi hu, fun i hi hl hh hc hb hin h4 hg => stg_stores s n hl hh hi hc hb hin h4 hg,
    fun i r hi hl hh hc hr => stg_acknowledged s n hl hh hi hc hr⟩

end Sys2Proof.Machine
end

section
/-!
PROOF. Cores start (R53, R445).
-/
namespace Sys2Proof.Machine

/-- The registers that no running clock counts in: the hub's but the record wait, and a core's below its counters. -/
def offCounts (j : Nat) : Prop :=
  (j < 0x2000000 ∧ j ≠ HIF_STAT_CRWAIT) ∨ (0x2000000 ≤ j ∧ (j - 0x2000000) % 0x800000 < 0x200000 ∧ (j - 0x2000000) % 0x400 < 0x80)

theorem Core.offCounts_counts {j : Nat} (h : offCounts j) (c : Nat) (k : Core) : j ∉ k.cycleCounts c := by
  unfold offCounts at h
  have hne : ∀ x, 0x80 ≤ x → x < 0x400 → j ≠ corBase c + x := by
    intro x h1 h2
    simp only [corBase, secBase]
    omega
  simp only [Core.cycleCounts, List.mem_append, not_or]
  constructor
  · split <;> simp [COR_STAT_ASK, COR_STAT_WAIT, COR_STAT_HERD, hne]
  · split <;> simp [COR_STAT_FTQ, hne]

theorem Part.offCounts_counts {j : Nat} (h : offCounts j) (p : Part) : j ∉ p.cycleCounts := by
  have hsec : ∀ x, 0x200000 ≤ x → x < 0x800000 → ∀ y, j ≠ secBase y + x := by
    intro x h1 h2 y
    unfold offCounts at h
    simp only [secBase]
    omega
  unfold Part.cycleCounts
  simp only [List.mem_append, not_or, List.mem_flatMap, List.mem_map, not_exists, not_and]
  refine ⟨?_, fun y _ i _ => (hsec _ (by decide) (by decide) y).symm⟩
  split
  · simp
  · simp only [List.mem_append, not_or, List.mem_flatMap, List.mem_map, not_exists, not_and]
    exact ⟨fun e _ => Core.offCounts_counts h _ _, fun y _ => (hsec _ (by decide) (by decide) y).symm⟩

theorem Part.clockTo_rd_off (p : Part) (n : Nat) {j : Nat} (h : offCounts j) : (p.clockTo n).rd j = p.rd j := by
  refine p.clockTo_rd n (Part.offCounts_counts h p) ?_
  obtain ⟨-, h⟩ | ⟨h, -⟩ := h
  · exact h
  · unfold HIF_STAT_CRWAIT
    omega

theorem spGet_absent {α : Type} {d : α} {m : Sparse α} {k : Nat} (h : ∀ e ∈ m, e.1 ≠ k) : spGet d m k = d := by
  induction m with
  | nil => rfl
  | cons e r ih =>
    rw [spGet, if_neg (h e (by simp)), ih fun e he => h e (by simp [he])]

/-- A core's control register is reset with no role. -/
theorem regReset_corCtrl {c : Nat} : regReset (COR_CTRL c) = 0 := by
  have hlow : ¬COR_CTRL c < 0x2000000 := by
    simp only [COR_CTRL, corBase, secBase]
    omega
  have hblock : (COR_CTRL c - 0x2000000) % 0x800000 < 0x200000 ∧ (COR_CTRL c - 0x2000000) % 0x800000 % 0x400 = 0 := by
    simp only [COR_CTRL, corBase, secBase]
    omega
  unfold regReset
  dsimp only
  rw [if_neg hlow, if_pos hblock.1, hblock.2]
  decide

/-- The cores with a role are those whose control register gives one. -/
theorem Part.mem_roleCores (p : Part) (c : Nat) : c ∈ p.roleCores ↔ p.hasRole c = true := by
  simp only [Part.roleCores, List.mem_filterMap]
  constructor
  · rintro ⟨e, -, h⟩
    split at h
    · split at h
      · next hr => cases h; exact hr
      · cases h
    · cases h
  · intro h
    obtain ⟨hv, hb, hk⟩ : p.validCore c = true ∧ p.getB (COR_CTRL c) 0 = true ∧ p.getB (COR_CTRL c) (1 + p.kind) = true := by
      simpa [Part.hasRole, and_assoc] using h
    obtain ⟨hc, -⟩ : c < 8192 ∧ c % 2048 < p.coresPerSector := by simpa [Part.validCore] using hv
    have hmem : ∃ e ∈ p.regs, e.1 = COR_CTRL c := by
      by_contra hno
      simp only [not_exists, not_and] at hno
      rw [Part.getB, Part.rd, spGet_absent hno, regReset_corCtrl] at hb
      exact absurd hb (by decide)
    obtain ⟨e, he, ho⟩ := hmem
    refine ⟨e, he, ?_⟩
    have hcond : 0x2000000 ≤ e.1 ∧ e.1 < 0x4000000 ∧ (e.1 - 0x2000000) % 0x800000 < 0x200000 ∧ (e.1 - 0x2000000) % 0x400 = 0 ∧
        2048 * ((e.1 - 0x2000000) / 0x800000) + (e.1 - 0x2000000) % 0x800000 / 0x400 = c := by
      rw [ho]
      simp only [COR_CTRL, corBase, secBase]
      omega
    obtain ⟨h1, h2, h3, h4, h5⟩ := hcond
    simp [h1, h2, h3, h4, h5, h]

theorem Part.getF_lt (p : Part) (o lo w : Nat) : p.getF o lo w < 2 ^ w := Nat.mod_lt _ (Nat.two_pow_pos w)

theorem offCounts_core {c x : Nat} (h : x < 0x80) : offCounts (corBase c + x) := by
  refine .inr ?_
  simp only [corBase, secBase]
  omega

section
variable {p q : Part} (hrd : ∀ j, offCounts j → q.rd j = p.rd j)
include hrd

theorem Part.kind_of_off : q.kind = p.kind := by
  have h1 : q.getF TIK_SEASON_POS 16 4 = p.getF TIK_SEASON_POS 16 4 := Part.getF_congr 16 4 (hrd _ (.inl (by decide)))
  simp only [Part.kind, h1]
  refine Part.getF_congr 16 2 (hrd _ (.inl ?_))
  have := p.getF_lt TIK_SEASON_POS 16 4
  simp only [TIK_SPAN, HIF_STAT_CRWAIT]
  omega

theorem Part.hasRole_of_off (hbig : q.big = p.big) (c : Nat) : q.hasRole c = p.hasRole c := by
  have hctrl : ∀ i, q.getB (COR_CTRL c) i = p.getB (COR_CTRL c) i := fun i => Part.getB_congr i (hrd _ (offCounts_core (by decide)))
  unfold Part.hasRole Part.validCore Part.coresPerSector
  rw [hbig, hctrl, hctrl, Part.kind_of_off hrd]

end

/-- What the start of a core makes of it (R53). -/
def Part.Started (p : Part) (c : Nat) (k t : Core) : Prop :=
  t.st = .running ∧ t.pc = p.rd (COR_ENTRY c p.kind) ∧ t.reg 1 = p.rd TIK_FRAME_NO % 2 ^ 32 ∧ t.reg 2 = c % 2 ^ 32 ∧
    t.reg 3 = p.rd TIK_SEASON_POS % 2 ^ 32 ∧ t.reg 4 = p.rd TIK_VINTAGE % 2 ^ 32 ∧ ∀ r, 5 ≤ r → t.reg r = k.reg r

theorem Part.Started.congr {p q : Part} {c : Nat} {k k' t : Core} (hrd : ∀ j, offCounts j → q.rd j = p.rd j)
    (hk : ∀ r, 5 ≤ r → k.reg r = k'.reg r) (h : q.Started c k t) : p.Started c k' t := by
  obtain ⟨h1, h2, h3, h4, h5, h6, h7⟩ := h
  have hkind := Part.kind_of_off hrd
  have hlt : p.kind < 4 := p.getF_lt _ 16 2
  rw [hkind, hrd (COR_ENTRY c p.kind)] at h2
  · rw [hrd _ (.inl (by decide))] at h3 h5 h6
    exact ⟨h1, h2, h3, h4, h5, h6, fun r hr => (h7 r hr).trans (hk r hr)⟩
  · rw [COR_ENTRY, Nat.add_assoc]
    exact offCounts_core (by omega)

theorem Core.st_setReg (k : Core) (r v : Nat) : (k.setReg r v).st = k.st := by rw [Core.setReg_keeps]

theorem Core.pc_setReg (k : Core) (r v : Nat) : (k.setReg r v).pc = k.pc := by rw [Core.setReg_keeps]

theorem Part.startCore_keeps (p : Part) (c : Nat) :
    (p.startCore c).regs = p.regs ∧ (p.startCore c).mem = p.mem ∧ (p.startCore c).tick = p.tick ∧ (p.startCore c).cycle = p.cycle ∧
      (p.startCore c).big = p.big := by
  simp [Part.startCore]

theorem Part.startCore_core (p : Part) (c d : Nat) : if d = c then p.Started c (p.core c) ((p.startCore c).core c)
    else (p.startCore c).core d = p.core d := by
  split
  · simp only [Part.startCore, Part.modCore_eq, Part.core_setCore, if_true]
    refine ⟨?_, ?_, ?_, ?_, ?_, ?_, fun r hr => ?_⟩
    · simp only [Core.st_setReg]
    · simp only [Core.pc_setReg]
    · rw [Core.reg_setReg, if_neg (by decide), Core.reg_setReg, if_neg (by decide), Core.reg_setReg, if_neg (by decide),
        Core.reg_setReg, if_pos (by decide), Part.frameNo, Nat.mod_mod]
    · rw [Core.reg_setReg, if_neg (by decide), Core.reg_setReg, if_neg (by decide), Core.reg_setReg, if_pos (by decide)]
    · rw [Core.reg_setReg, if_neg (by decide), Core.reg_setReg, if_pos (by decide)]
    · rw [Core.reg_setReg, if_pos (by decide)]
    · simp only [Core.reg_setReg]
      rw [if_neg (by omega), if_neg (by omega), if_neg (by omega), if_neg (by omega)]
      rfl
  · next hd => simp [Part.startCore, Ne.symm hd]

/-- The start of a list of cores: each of them is started, and every other core is as before. -/
theorem Part.each_startCore (l : List Nat) (p : Part) :
    ((p.each l Part.startCore).regs = p.regs ∧ (p.each l Part.startCore).mem = p.mem ∧ (p.each l Part.startCore).tick = p.tick ∧
      (p.each l Part.startCore).cycle = p.cycle) ∧
    (∀ d ∈ l, p.Started d (p.core d) ((p.each l Part.startCore).core d)) ∧ ∀ d, d ∉ l → (p.each l Part.startCore).core d = p.core d := by
  induction l generalizing p with
  | nil => exact ⟨⟨rfl, rfl, rfl, rfl⟩, fun d hd => absurd hd (by simp), fun _ _ => rfl⟩
  | cons c l ih =>
    obtain ⟨⟨hregs, hmem, htick, hcycle⟩, hin, hout⟩ := ih (p.startCore c)
    obtain ⟨kregs, kmem, ktick, kcycle, -⟩ := p.startCore_keeps c
    have hrd : ∀ j, offCounts j → (p.startCore c).rd j = p.rd j := fun j _ => by simp [Part.rd, kregs]
    rw [Part.each_cons]
    refine ⟨⟨hregs.trans kregs, hmem.trans kmem, htick.trans ktick, hcycle.trans kcycle⟩, fun d hd => ?_, fun d hd => ?_⟩
    · have hc := p.startCore_core c d
      by_cases hl : d ∈ l
      · refine (hin d hl).congr hrd fun r hr => ?_
        split at hc
        · next h => subst h; exact hc.2.2.2.2.2.2 r hr
        · rw [hc]
      · obtain rfl : d = c := by simpa [hl] using hd
        rw [hout d hl]
        simpa using hc
    · simp only [List.mem_cons, not_or] at hd
      have hc := p.startCore_core c d
      rw [if_neg hd.1] at hc
      rw [hout d hd.2, hc]

theorem coreStart_becomes (s : State) (at' : Nat) (hl : s.p.live = true) (hf : s.p.inFrame = true)
    (hat : (if s.p.tick.coresStarted then minList (s.p.coresWaiting.map s.p.startCycle) else 128) = at')
    (hw : s.p.tick.coresStarted = true → s.p.coresWaiting ≠ []) :
    ∃ r : Part, r = (s.p.clockTo (s.p.tick.frameStart + at')).modTick (fun t => { t with coresStarted := true }) ∧
      Becomes .coreStart s (r.each (r.coresWaiting.filter fun c => r.startCycle c ≤ at') Part.startCore) := by
  refine ⟨_, rfl, ?_⟩
  have hgo : (!s.p.live || !s.p.inFrame || (s.p.tick.coresStarted && s.p.coresWaiting.isEmpty)) = false := by
    by_cases hs : s.p.tick.coresStarted = true
    · simpa [hl, hf, hs] using hw hs
    · simp [hl, hf, hs]
  simp only [Becomes, exec, execCoreStart, State.run, hat, hgo, Bool.false_eq_true, if_false]

/-- The cores that start at a cycle are those that wait with code written by then. -/
theorem coreStart_starts (s : State) (at' : Nat) (hl : s.p.live = true) (hf : s.p.inFrame = true)
    (hat : (if s.p.tick.coresStarted then minList (s.p.coresWaiting.map s.p.startCycle) else 128) = at')
    (hw : s.p.tick.coresStarted = true → s.p.coresWaiting ≠ []) :
    ∃ q, Becomes .coreStart s q ∧ q.cycle = max s.p.cycle (s.p.tick.frameStart + at') ∧ q.mem = s.p.mem ∧
      q.tick = { s.p.tick with coresStarted := true } ∧
      (∀ c ∈ s.p.roleCores, (s.p.core c).st = .clearing → s.p.startCycle c ≤ at' → s.p.Started c (s.p.core c) (q.core c)) ∧
      ∀ c, c ∉ s.p.roleCores ∨ (s.p.core c).st ≠ .clearing ∨ at' < s.p.startCycle c → q.core c = s.p.core c := by
  obtain ⟨r, hr, hb⟩ := coreStart_becomes s at' hl hf hat hw
  have hrd : ∀ j, offCounts j → r.rd j = s.p.rd j := fun j hj => by
    rw [hr]
    exact s.p.clockTo_rd_off _ hj
  have hbig : r.big = s.p.big := by simp [hr]
  have hcore : ∀ d, r.core d = s.p.core d := fun d => by simp [hr]
  have hstart : ∀ d, r.startCycle d = s.p.startCycle d := fun d => by simp [hr, Part.startCycle]
  obtain ⟨⟨-, hmem, htick, hcycle⟩, hin, hout⟩ := r.each_startCore (r.coresWaiting.filter fun c => r.startCycle c ≤ at')
  have hmem_iff : ∀ c, (c ∈ r.coresWaiting.filter fun c => r.startCycle c ≤ at') ↔
      c ∈ s.p.roleCores ∧ (s.p.core c).st = .clearing ∧ s.p.startCycle c ≤ at' := by
    intro c
    simp [Part.coresWaiting, Part.mem_roleCores, Part.hasRole_of_off hrd hbig, hcore, hstart, and_comm, and_left_comm]
  refine ⟨_, hb, by rw [hcycle, hr]; simp, by rw [hmem, hr]; simp, by rw [htick, hr]; simp, fun c hc hst hle => ?_, fun c hc => ?_⟩
  · have := hin c ((hmem_iff c).2 ⟨hc, hst, hle⟩)
    rw [hcore] at this
    exact this.congr hrd fun _ _ => rfl
  · refine (hout c fun hmem => ?_).trans (hcore c)
    obtain ⟨h1, h2, h3⟩ := (hmem_iff c).1 hmem
    obtain h | h | h := hc
    · exact h h1
    · exact h h2
    · omega

theorem minList_eq {l : List Nat} {m : Nat} (hm : m ∈ l) (hle : ∀ x ∈ l, m ≤ x) : minList l = m := by
  have hfold : ∀ (r : List Nat) x, r.foldl min x ≤ x ∧ (∀ y ∈ r, r.foldl min x ≤ y) ∧ (r.foldl min x = x ∨ r.foldl min x ∈ r) := by
    intro r
    induction r with
    | nil => simp
    | cons y r ih =>
      intro x
      obtain ⟨h1, h2, h3⟩ := ih (min x y)
      simp only [List.foldl_cons, List.mem_cons, forall_eq_or_imp]
      refine ⟨by omega, ⟨by omega, h2⟩, ?_⟩
      rcases h3 with h | h
      · rw [h]; omega
      · exact .inr (.inr h)
  cases l with
  | nil => exact nomatch hm
  | cons x r =>
    obtain ⟨h1, h2, h3⟩ := hfold r x
    have hin : minList (x :: r) ∈ x :: r := by
      rcases h3 with h | h
      · exact List.mem_cons.2 (.inl h)
      · exact List.mem_cons_of_mem _ h
    refine le_antisymm ?_ (hle _ hin)
    rcases List.mem_cons.1 hm with rfl | h
    · exact h1
    · exact h2 m h

/-- Settles O18: the first start is at cycle 128, a later one when the first code that still comes is written. -/
theorem coresStart : Obligations.CoresStart := by
  intro s p starts hl hf
  refine ⟨fun hs => ?_, fun c hc hs hmin => ?_⟩
  · exact coreStart_starts s 128 hl hf (by rw [if_neg]; simpa using hs) fun h => absurd (hs.symm.trans h) (by decide)
  · refine coreStart_starts s _ hl hf ?_ fun _ h => ?_
    · rw [if_pos hs]
      refine minList_eq (List.mem_map_of_mem hc) fun x hx => ?_
      obtain ⟨d, hd, rfl⟩ := List.mem_map.1 hx
      exact hmin d hd
    · exact absurd hc (by rw [show p.coresWaiting = [] from h]; simp)

end Sys2Proof.Machine
end

section
/-!
PROOF. The matrix unit: loads, passes and the finished-tile queue (R57 to R59, R121).
-/
namespace Sys2Proof.Machine

theorem Core.group_setGroup (k : Core) (g h : Nat) (x : Group) : (k.setGroup g x).group h = if g = h then x else k.group h := by
  simp [Core.group, Core.setGroup]

/-- The cores of a part whose core was set, when the rest of the step changed no core. -/
theorem Part.core_of_cores {p q : Part} {c : Nat} {k : Core} (h : q.cores = (p.setCore c k).cores) (d : Nat) :
    q.core d = if c = d then k else p.core d := (Part.core_congr h d).trans (Part.core_setCore p c d k)

section
variable (s : State) (n : BitVec 13)

theorem matrixLoad_starts {o : LoadOp} {rest : List MOp} (hq : (s.p.core n.toNat).mq = .load o :: rest) (hw : s.p.working = true)
    (hl : (s.p.core n.toNat).loading = none) (hm : s.p.mustWait n.toNat o.head.seq o.reads [] = false) :
    ∃ q, Becomes (.matrixLoadStart n) s q ∧ (∀ d, d ≠ n.toNat → q.core d = s.p.core d) ∧ q.mem = s.p.mem ∧
      q.core n.toNat = { s.p.core n.toNat with mq := rest, loading := some o, loadTile := some (s.p.readTile n.toNat o) } := by
  have hb : Becomes (.matrixLoadStart n) s ((s.p.setCore n.toNat
      { s.p.core n.toNat with mq := rest, loading := some o, loadTile := some (s.p.readTile n.toNat o) }).consumeIf n.toNat o.head.pair
        (s.p.readTile n.toNat o).poison) := by
    simp [Becomes, exec, execMatrixLoadStart, State.run, hq, takeLoad, hw, hl, hm]
  have hcore := Part.core_of_cores (Part.consumeIf_frame (s.p.setCore n.toNat
      { s.p.core n.toNat with mq := rest, loading := some o, loadTile := some (s.p.readTile n.toNat o) }) n.toNat o.head.pair
        (s.p.readTile n.toNat o).poison).2
  exact ⟨_, hb, fun d hd => by simp [hcore, Ne.symm hd], by simp, by simp [hcore]⟩

theorem matrixLoad_done {o : LoadOp} (hl : (s.p.core n.toNat).loading = some o) (hv : s.p.live = true) :
    ∃ q, Becomes (.matrixLoadDone n) s q ∧ OnlyCore s.p q n.toNat ∧ (q.core n.toNat).loading = none ∧
      (q.core n.toNat).buf o.buf = (s.p.core n.toNat).loadTile ∧ (o.buf = 0 → (q.core n.toNat).buf1 = (s.p.core n.toNat).buf1) ∧
      (o.buf ≠ 0 → (q.core n.toNat).buf0 = (s.p.core n.toNat).buf0) := by
  have only : ∀ k, OnlyCore s.p (s.p.setCore n.toNat k) n.toNat := fun k => ⟨rfl, fun d hd => by simp [Ne.symm hd]⟩
  by_cases h0 : o.buf = 0
  · have hb : Becomes (.matrixLoadDone n) s
        (s.p.setCore n.toNat { s.p.core n.toNat with buf0 := (s.p.core n.toNat).loadTile, loading := none, loadTile := none }) := by
      simp [Becomes, exec, execMatrixLoadDone, State.run, hl, hv, h0]
    exact ⟨_, hb, only _, by simp, by simp [Core.buf, h0], by simp, fun h => absurd h0 h⟩
  · have hb : Becomes (.matrixLoadDone n) s
        (s.p.setCore n.toNat { s.p.core n.toNat with buf1 := (s.p.core n.toNat).loadTile, loading := none, loadTile := none }) := by
      simp [Becomes, exec, execMatrixLoadDone, State.run, hl, hv, h0]
    exact ⟨_, hb, only _, by simp, by simp [Core.buf, h0], fun h => absurd h h0, by simp⟩

/-- What the start of a pass makes of its core; the sums are the rows' own where nothing upsets them (R121). -/
theorem Part.startPass_cores (p : Part) (c : Nat) (o : PassOp) (t : Tile) (rest : List MOp) (upset : Option Upset) :
    ∃ sums evs poison sample opened,
      (p.startPass c o t rest upset).cores = (p.setCore c
        ({ p.core c with mq := rest, passes := (p.core c).passes ++ [PassRun.mk o o.fmt.isInt sums evs poison], opened := opened }.setGroup o.group
          (((p.core c).group o.group).take o t sample poison))).cores ∧
      (upset = none → sums = (passSums (p.keep c) o.fmt t o.axis ((List.range o.rows).map fun i =>
        elems o.fmt.bytes (p.spad c (rowAddr o.base o.stride i) ((if o.cmp then 64 else 32) * o.fmt.bytes)))).1) := by
  unfold Part.startPass
  extract_lets k w rows moving poison
  split
  next sums evs hsums =>
  split
  next sums' hit hup =>
  extract_lets k' q1 q2 q3 q4 q5 q6
  refine ⟨sums', evs, poison, _, _, (?_ : _ = q1.cores), ?_⟩
  · simp [q6, q5, q4, q3, q2]
  · rintro rfl
    cases hup
    simp only [rows, w] at hsums
    rw [hsums]

theorem Group.take_st (g : Group) (o : PassOp) (t : Tile) (sample poison : Option Nat) :
    (g.take o t sample poison).st = if g.st = .free then .open else g.st := by
  unfold Group.take
  by_cases h : g.st = .free <;> simp [h]

/-- A pass of a matching tile into a group that it opens or that is open with its kind of sums has no fault (R121). -/
theorem passFault_none {g : Group} {t : Tile} {o : PassOp} (hc : t.cmp = o.cmp) (hf : t.fmt.isInt = o.fmt.isInt)
    (hg : o.init = false → g.st ≠ .free ∧ g.isInt = o.fmt.isInt) : passFault g (some t) o = none := by
  unfold passFault
  by_cases hi : o.init = true
  · simp [hc, hf, hi]
  · obtain ⟨h1, h2⟩ := hg (by simpa using hi)
    simp [hc, hf, h1, h2]

theorem matrixPass_starts {o : PassOp} {rest : List MOp} {t : Tile} (upset : Option Upset) (hq : (s.p.core n.toNat).mq = .pass o :: rest)
    (hw : s.p.working = true) (hp : s.p.passWaits n.toNat o = false) (ht : (s.p.core n.toNat).buf o.buf = some t) (hc : t.cmp = o.cmp)
    (hf : t.fmt.isInt = o.fmt.isInt)
    (hg : o.init = false → ((s.p.core n.toNat).group o.group).st ≠ .free ∧ ((s.p.core n.toNat).group o.group).isInt = o.fmt.isInt) :
    ∃ q r, Becomes (.matrixPassStart n upset) s q ∧ (∀ d, d ≠ n.toNat → q.core d = s.p.core d) ∧ q.mem = s.p.mem ∧
      (q.core n.toNat).mq = rest ∧ (q.core n.toNat).passes = (s.p.core n.toNat).passes ++ [r] ∧ r.op = o ∧
      ((q.core n.toNat).group o.group).st =
        (if ((s.p.core n.toNat).group o.group).st = .free then .open else ((s.p.core n.toNat).group o.group).st) ∧
      (upset = none → r.sums = (passSums (s.p.keep n.toNat) o.fmt t o.axis ((List.range o.rows).map fun i =>
        elems o.fmt.bytes (s.p.spad n.toNat (rowAddr o.base o.stride i) ((if o.cmp then 64 else 32) * o.fmt.bytes)))).1) := by
  have hb : Becomes (.matrixPassStart n upset) s (s.p.startPass n.toNat o t rest upset) := by
    simp [Becomes, exec, execMatrixPassStart, State.run, hq, takePass, hw, hp, ht, passFault_none hc hf hg]
  obtain ⟨sums, evs, poison, sample, opened, hcores, hsums⟩ := s.p.startPass_cores n.toNat o t rest upset
  have hcore := Part.core_of_cores hcores
  refine ⟨_, ⟨o, o.fmt.isInt, sums, evs, poison⟩, hb, fun d hd => by simp [hcore, Ne.symm hd], by simp, ?_⟩
  rw [hcore, if_pos rfl]
  exact ⟨rfl, rfl, rfl, by rw [Core.group_setGroup, if_pos rfl, Group.take_st], hsums⟩

theorem matrixPass_faults {o : PassOp} {rest : List MOp} {t : Tile} (upset : Option Upset) (hq : (s.p.core n.toNat).mq = .pass o :: rest)
    (hw : s.p.working = true) (hp : s.p.passWaits n.toNat o = false) (ht : (s.p.core n.toNat).buf o.buf = some t)
    (hn : (s.p.core n.toNat).faultSeq = none) (hc : t.cmp = o.cmp) (hf : t.fmt.isInt = o.fmt.isInt) (hi : o.init = false)
    (hg : ((s.p.core n.toNat).group o.group).st = .free) :
    ∃ q, Becomes (.matrixPassStart n upset) s q ∧ (q.core n.toNat).st = .faulted ∧ (q.core n.toNat).faultCode = 5 := by
  have hfault : passFault ((s.p.core n.toNat).group o.group) (some t) o = some 5 := by simp [passFault, hc, hf, hi, hg]
  have hb : Becomes (.matrixPassStart n upset) s
      ((s.p.setCore n.toNat { s.p.core n.toNat with mq := rest }).fault n.toNat 5 o.head.pc o.head.seq o.head.pair) := by
    simp [Becomes, exec, execMatrixPassStart, State.run, hq, takePass, hw, hp, ht, hfault]
  obtain ⟨h1, h2, -, -⟩ := Part.fault_faults (s.p.setCore n.toNat { s.p.core n.toNat with mq := rest }) n.toNat 5 o.head.pc o.head.seq
    o.head.pair (by simpa using hn)
  exact ⟨_, hb, h1, h2⟩

/-- A closed group enters the finished-tile queue while none waits before it and the queue has room (R59). -/
theorem Core.close_queues {k : Core} (g : Nat) (hc : k.closing = []) (hl : k.ftq.length < 8) :
    k.close g = { (k.setGroup g { k.group g with st := .queued }) with ftq := k.ftq ++ [g] } := by
  simp [Core.close, hc, hl]

theorem Core.close_waits {k : Core} (g : Nat) (h : k.closing ≠ [] ∨ 8 ≤ k.ftq.length) :
    k.close g = { k with closing := k.closing ++ [g] } := by
  have hno : (k.closing.isEmpty && decide (k.ftq.length < 8)) = false := by
    rcases h with h | h
    · simp [h]
    · simp [Nat.not_lt.2 h]
  simp [Core.close, hno]

theorem matrixPass_done {r : PassRun} {rest : List PassRun} (hr : (s.p.core n.toNat).passes = r :: rest) (hv : s.p.live = true) :
    ∃ q, Becomes (.matrixPassDone n) s q ∧ (∀ d, d ≠ n.toNat → q.core d = s.p.core d) ∧ q.mem = s.p.mem ∧
      (q.core n.toNat).passes = rest ∧
      (r.op.close = true → (s.p.core n.toNat).closing = [] → (s.p.core n.toNat).ftq.length < 8 →
        (q.core n.toNat).ftq = (s.p.core n.toNat).ftq ++ [r.op.group] ∧ ((q.core n.toNat).group r.op.group).st = .queued ∧
          (q.core n.toNat).closing = []) ∧
      (r.op.close = true → (s.p.core n.toNat).closing ≠ [] ∨ 8 ≤ (s.p.core n.toNat).ftq.length →
        (q.core n.toNat).ftq = (s.p.core n.toNat).ftq ∧ (q.core n.toNat).closing = (s.p.core n.toNat).closing ++ [r.op.group]) ∧
      (r.op.close = false → (q.core n.toNat).ftq = (s.p.core n.toNat).ftq) := by
  obtain ⟨k, ev, hk⟩ : ∃ k ev, accRows (s.p.keep n.toNat) s.p.free { s.p.core n.toNat with passes := rest } r r.op.rows = (k, ev) :=
    ⟨_, _, rfl⟩
  have hkeep : ∀ {γ : Type} (get : Core → γ), (∀ k a g, get { k with acc := a, groups := g } = get k) →
      get k = get { s.p.core n.toNat with passes := rest } := fun get h => by
    rw [← accRows_keeps get h (s.p.keep n.toNat) s.p.free { s.p.core n.toNat with passes := rest } r r.op.rows, hk]
  have hpasses : k.passes = rest := hkeep Core.passes fun _ _ _ => rfl
  have hclosing : k.closing = (s.p.core n.toNat).closing := hkeep Core.closing fun _ _ _ => rfl
  have hftq : k.ftq = (s.p.core n.toNat).ftq := hkeep Core.ftq fun _ _ _ => rfl
  have hb : Becomes (.matrixPassDone n) s ((s.p.fresh.2.setCore n.toNat (if r.op.close then k.close r.op.group else k)).coreEvents n.toNat
      ((joinEvents r.events).join ev)) := by
    have hk' : accRows (s.p.fresh.2.keep n.toNat) s.p.fresh.1 { s.p.fresh.2.core n.toNat with passes := rest } r r.op.rows = (k, ev) := hk
    simp only [Becomes, exec, execMatrixPassDone, State.run, hr, hv, Bool.not_true, Bool.false_eq_true, if_false, hk']
  have hcore : ∀ d, ((s.p.fresh.2.setCore n.toNat (if r.op.close then k.close r.op.group else k)).coreEvents n.toNat
      ((joinEvents r.events).join ev)).core d = if n.toNat = d then (if r.op.close then k.close r.op.group else k) else s.p.core d := by
    intro d
    simp
  refine ⟨_, hb, fun d hd => by rw [hcore, if_neg (Ne.symm hd)], by simp, ?_⟩
  rw [hcore, if_pos rfl]
  refine ⟨?_, fun hc h0 hl => ?_, fun hc hw => ?_, fun hc => by rw [if_neg (by simp [hc]), hftq]⟩
  · split
    · unfold Core.close
      split <;> exact hpasses
    · exact hpasses
  · rw [if_pos hc, Core.close_queues _ (hclosing.trans h0) (by rw [hftq]; exact hl), ← hftq]
    refine ⟨rfl, ?_, hclosing.trans h0⟩
    simp [Core.group, Core.setGroup]
  · rw [if_pos hc, Core.close_waits _ (by rw [hclosing, hftq]; exact hw), ← hftq, ← hclosing]
    exact ⟨rfl, rfl⟩

end

/-- Settles O12: each step of the unit takes the head of what waits for it. -/
theorem matrixUnit : Obligations.MatrixUnit := by
  intro s n p c k
  refine ⟨fun o rest hq hw hl hm => matrixLoad_starts s n hq hw hl hm, fun o hl hv => matrixLoad_done s n hl hv, ?_,
    fun r rest hr hv => matrixPass_done s n hr hv⟩
  intro o rest t upset hq hw hp ht
  exact ⟨fun hc hf hg => matrixPass_starts s n upset hq hw hp ht hc hf hg,
    fun hn hc hf hi hg => matrixPass_faults s n upset hq hw hp ht hn hc hf hi hg⟩

end Sys2Proof.Machine
end

section
/-!
PROOF. The vector engine: streams and drains (R59, R62, R126, R128).
-/
namespace Sys2Proof.Machine

/-- An operation that is no configuration stays at the head of the queue (log 20). -/
theorem Core.advance_front {k : Core} {o : VOp} {rest : List VOp} (hr : k.vrun = none) (hq : k.vq = o :: rest) (ho : o.isConfig = false) :
    k.advance = k := by
  unfold Core.advance
  rw [if_neg (by simp [hr]), hq]
  simp only [advanceQ, ho, Bool.false_eq_true, if_false]
  cases k
  subst hq
  rfl

theorem Core.advance_keeps {γ : Type} (get : Core → γ) (h : ∀ k v s d q, get { k with vl := v, slots := s, psets := d, vq := q } = get k)
    (k : Core) : get k.advance = get k := by
  unfold Core.advance
  split
  · rfl
  · generalize advanceQ k.view k.vq = w
    obtain ⟨w, q⟩ := w
    exact h k w.vl w.slots w.psets q

section
variable (p : Part) (c : Nat)

/-- A core set to what it is leaves what every core is. -/
theorem Part.core_setSame (d : Nat) : (p.setCore c (p.core c)).core d = p.core d := by
  rw [Part.core_setCore]
  split
  · next h => rw [h]
  · rfl

theorem Part.mustWait_setSame (seq : Nat) (r w : List (Nat × Nat)) : (p.setCore c (p.core c)).mustWait c seq r w = p.mustWait c seq r w := by
  simp only [Part.mustWait, Part.flights, Part.core_setSame]
  rfl

end

section
variable (s : State) (n : BitVec 13)

theorem Part.startStream_core (p : Part) (c : Nat) (o : StreamOp) (steps : List UStep) (up : Option Upset) :
    ∃ draws v, v.op = .stream o ∧ (p.startStream c o steps up).cores =
      (p.setCore c { p.core c with vq := (p.core c).vq.drop 1, draws := draws, vrun := some v }).cores ∧
      (p.startStream c o steps up).mem = p.mem := by
  unfold Part.startStream
  extract_lets k vl used r cycles q1 q2 fn hit q3
  refine ⟨r.draws, _, ?_, (?_ : _ = q1.cores), ?_⟩
  · rfl
  · simp [q3, q2]
  · simp [q3, q2, q1]

theorem vectorStream_starts (upset : Option Upset) {o : StreamOp} {rest : List VOp} (hr : (s.p.core n.toNat).vrun = none)
    (hq : (s.p.core n.toNat).vq = .stream o :: rest) (hw : s.p.working = true)
    (hm : s.p.mustWait n.toNat o.head.seq (someBytes (o.reads (s.p.core n.toNat).vl)) (someBytes (o.writes (s.p.core n.toNat).vl)) = false) :
    Becomes (.vectorStreamStart n upset) s
      (if (spGet [] (s.p.core n.toNat).slots o.slot).isEmpty then
        ((s.p.setCore n.toNat (s.p.core n.toNat)).setCore n.toNat { s.p.core n.toNat with vq := rest }).fault n.toNat 9 o.head.pc o.head.seq
          o.head.pair
      else (s.p.setCore n.toNat (s.p.core n.toNat)).startStream n.toNat o (spGet [] (s.p.core n.toNat).slots o.slot) upset) := by
  have hadv := Core.advance_front hr hq rfl
  simp only [Becomes, exec, execVectorStreamStart, State.run, hw, Bool.not_true, Bool.false_eq_true, if_false, Part.modCore_eq, hadv,
    Part.core_setSame, hr, hq, Part.mustWait_setSame, hm]

theorem Part.outlookDrain_core (p : Part) (c : Nat) (o : DrainOp) (est : Bool) (x : OlkEntry) (vs ests : List Nat) (old : OlkRec) :
    ∃ e, ∀ d, (p.outlookDrain c o est x vs ests old).2.2.core d = if c = d then { p.core c with estSeq := e } else p.core d := by
  have same : ∀ q : Part, (∀ d, q.core d = p.core d) → ∃ e, ∀ d, q.core d = if c = d then { p.core c with estSeq := e } else p.core d :=
    fun q hq => ⟨(p.core c).estSeq, fun d => by
      rw [hq]
      split
      · next h => subst h; rfl
      · rfl⟩
  unfold Part.outlookDrain
  dsimp only
  split
  · refine ⟨spSet 0 (p.core c).estSeq x.e (spGet 0 (p.core c).estSeq x.e + 1), fun d => ?_⟩
    simp [Part.olkCount]
  · split
    · split
      · refine same _ fun d => ?_
        simp [Part.olkCount, Part.meter]
      · split
        · refine same _ fun d => ?_
          simp [Part.olkCount]
        · refine same _ fun d => ?_
          simp [Part.olkCount]
    · refine same _ fun d => ?_
      simp [Part.olkCount]

/-- A core's tile popped for a drain that runs, after work that changed its estimates' numbers alone. -/
def Part.DrainStarted (p r : Part) (c : Nat) (o : DrainOp) (g : Nat) : Prop :=
  ∃ e v k, v.op = .drain o ∧ v.group = g ∧ (k = ({ p.core c with estSeq := e } : Core).popTile g ∨
      k = (({ p.core c with estSeq := e } : Core).popTile g).drainDraws) ∧
    ∀ d, r.core d = if c = d then { k with vrun := some v } else p.core d

theorem Part.drainStarted_of {p q r : Part} {c : Nat} {o : DrainOp} {g : Nat} {v : VRun} (ho : v.op = .drain o) (hg : v.group = g)
    (hr : ∀ d, r.core d = (q.setCore c
      { (if o.mode = 1 then ((q.core c).popTile g).drainDraws else (q.core c).popTile g) with vrun := some v }).core d)
    (hq : ∃ e, ∀ d, q.core d = if c = d then { p.core c with estSeq := e } else p.core d) : p.DrainStarted r c o g := by
  obtain ⟨e, he⟩ := hq
  refine ⟨e, v, if o.mode = 1 then ((q.core c).popTile g).drainDraws else (q.core c).popTile g, ho, hg, ?_, fun d => ?_⟩
  · rw [he c, if_pos rfl]
    split
    · exact .inr rfl
    · exact .inl rfl
  · rw [hr, Part.core_setCore]
    split
    · rfl
    · next hd => rw [he d, if_neg hd]

theorem Part.addPair_cores (p : Part) (pair : Nat) (f : PairAcc → PairAcc) : (p.addPair pair f).cores = p.cores := by simp

theorem Part.dupCapture_core (b : Prop) [Decidable b] (p : Part) (c g : Nat) (f : DupCap → DupCap) (d : Nat) :
    (if b then p.dupDrop c g else p.dupDrain c g f).core d = p.core d := by
  refine Part.core_congr ?_ d
  split <;> simp

theorem Part.startDrain_starts (p : Part) (c : Nat) (o : DrainOp) (g : Nat) (up : Option Upset) : p.DrainStarted (p.startDrain c o g up) c o g := by
  unfold Part.startDrain
  dsimp only
  generalize Option.map _ (p.fresh.2.outlook c o.head.pair) = olk
  cases olk with
  | none =>
    refine Part.drainStarted_of rfl rfl (fun d => (Part.core_congr (Part.consumeIf_frame _ _ _ _).2 d).trans
      ((Part.core_congr (Part.coreResidue_frame _ _ _ _ _).2 d).trans (Part.core_congr (Part.addPair_cores _ _ _) d))) ?_
    refine ⟨(p.core c).estSeq, fun d => (Part.dupCapture_core _ _ _ _ _ d).trans ?_⟩
    simp only [Part.fresh_keeps]
    split
    · next h => subst h; rfl
    · rfl
  | some x =>
    refine Part.drainStarted_of rfl rfl (fun d => (Part.core_congr (Part.consumeIf_frame _ _ _ _).2 d).trans
      ((Part.core_congr (Part.coreResidue_frame _ _ _ _ _).2 d).trans (Part.core_congr (Part.addPair_cores _ _ _) d))) ?_
    obtain ⟨e, he⟩ := Part.outlookDrain_core p.fresh.2 c o ((p.fresh.2.core c).group g).outlook x _ _ _
    refine ⟨e, fun d => (Part.dupCapture_core _ _ _ _ _ d).trans ((he d).trans ?_)⟩
    simp only [Part.fresh_keeps]

/-- The pop of a tile takes it off both queues; a group that waited for room enters its queue (R59). -/
theorem Core.popTile_pops {k : Core} {g : Nat} {queued : List Nat} {rest : List VOp} {o : VOp} (hf : k.ftq = g :: queued) (hq : k.vq = o :: rest) :
    (k.popTile g).vq = rest ∧ (k.closing = [] → (k.popTile g).ftq = queued ∧ ((k.popTile g).group g).st = .draining) ∧
      ∀ g2 r, k.closing = g2 :: r → queued.length < 8 → (k.popTile g).ftq = queued ++ [g2] ∧ (k.popTile g).closing = r := by
  unfold Core.popTile
  extract_lets gr k0 k'
  have hk : k'.vq = rest ∧ k'.ftq = queued ∧ k'.closing = k.closing ∧ (k'.group g).st = .draining := by
    simp [k', k0, gr, hf, hq, Core.setGroup, Core.group]
  obtain ⟨h1, h2, h3, h4⟩ := hk
  split
  next g2 r hc =>
    rw [h3] at hc
    refine ⟨?_, fun h => by simp [h] at hc, fun g3 r3 h3' hl => ?_⟩
    · unfold Core.close
      split <;> exact h1
    · obtain ⟨rfl, rfl⟩ : g2 = g3 ∧ r = r3 := by simpa [hc] using h3'
      rw [Core.close_queues (k := { k' with closing := [] }) g2 rfl (by rw [show ({ k' with closing := [] } : Core).ftq = queued from h2]; exact hl)]
      exact ⟨by simp [h2], rfl⟩
  next hc =>
    rw [h3] at hc
    exact ⟨h1, fun _ => ⟨h2, h4⟩, fun g2 r h => by simp [hc] at h⟩

theorem drain_starts (upset : Option Upset) {o : DrainOp} {rest : List VOp} {g : Nat} {queued : List Nat}
    (hr : (s.p.core n.toNat).vrun = none) (hq : (s.p.core n.toNat).vq = .drain o :: rest) (hf : (s.p.core n.toNat).ftq = g :: queued)
    (hw : s.p.working = true)
    (hm : s.p.mustWait n.toNat o.head.seq (o.reads ((spGet .reset (s.p.core n.toNat).psets o.pset).biasMode == 2)
      (s.p.outlook n.toNat o.head.pair).isSome) (o.writes (s.p.outlook n.toNat o.head.pair).isSome) = false)
    (hi : o.int = ((s.p.core n.toNat).group g).isInt)
    (hc : (spGet .reset (s.p.core n.toNat).psets o.pset).clip = true →
      FVal.lt (FVal.decode .b32 (spGet .reset (s.p.core n.toNat).psets o.pset).hi)
        (FVal.decode .b32 (spGet .reset (s.p.core n.toNat).psets o.pset).lo) = false) :
    Becomes (.drainStart n upset) s ((s.p.setCore n.toNat (s.p.core n.toNat)).startDrain n.toNat o g upset) := by
  have hadv := Core.advance_front hr hq rfl
  have hok : (o.int != ((s.p.core n.toNat).group g).isInt || ((spGet .reset (s.p.core n.toNat).psets o.pset).clip &&
      FVal.lt (FVal.decode .b32 (spGet .reset (s.p.core n.toNat).psets o.pset).hi)
        (FVal.decode .b32 (spGet .reset (s.p.core n.toNat).psets o.pset).lo))) = false := by
    rw [hi, bne_self_eq_false, Bool.false_or, Bool.and_eq_false_imp]
    exact hc
  have holk : ∀ pair, (s.p.setCore n.toNat (s.p.core n.toNat)).outlook n.toNat pair = s.p.outlook n.toNat pair := fun _ => rfl
  simp only [Becomes, exec, execDrainStart, State.run, hw, Bool.not_true, Bool.false_eq_true, if_false, Part.modCore_eq, hadv,
    Part.core_setSame, hr, hq, hf, holk, Part.mustWait_setSame, hm, hok]

theorem Part.retireVector_core (p : Part) (c : Nat) (v : VRun) (d : Nat) :
    (p.retireVector c v).core d = if c = d then ({ p.core c with vrun := none } : Core).advance else p.core d := by
  simp only [Part.retireVector, Part.modCore_eq, Part.core_setCore, Part.bump_keeps, Part.coreEvents_keeps, Part.applyWrites_core, if_true]
  split <;> rfl

theorem Part.retireVector_mem (p : Part) (c : Nat) (v : VRun) :
    (p.retireVector c v).mem = ((p.modCore c fun k => { k with vrun := none }).applyWrites c v.writes).mem := by
  simp [Part.retireVector]

theorem vectorStream_done {v : VRun} {o : StreamOp} (hv : (s.p.core n.toNat).vrun = some v) (ho : v.op = .stream o) (hl : s.p.live = true) :
    ∃ q, Becomes (.vectorStreamDone n) s q ∧ (∀ d, d ≠ n.toNat → q.core d = s.p.core d) ∧ (q.core n.toNat).vrun = none ∧
      q.mem = ((s.p.modCore n.toNat fun k => { k with vrun := none }).applyWrites n.toNat v.writes).mem := by
  have hb : Becomes (.vectorStreamDone n) s (s.p.retireVector n.toNat v) := by
    simp [Becomes, exec, execVectorStreamDone, State.run, hv, ho, hl]
  refine ⟨_, hb, fun d hd => by rw [Part.retireVector_core, if_neg (Ne.symm hd)], ?_, s.p.retireVector_mem n.toNat v⟩
  rw [Part.retireVector_core, if_pos rfl]
  exact Core.advance_keeps Core.vrun (fun _ _ _ _ _ => rfl) _

theorem drain_done {v : VRun} {o : DrainOp} (hv : (s.p.core n.toNat).vrun = some v) (ho : v.op = .drain o) (hl : s.p.live = true) :
    ∃ q, Becomes (.drainDone n) s q ∧ (∀ d, d ≠ n.toNat → q.core d = s.p.core d) ∧ (q.core n.toNat).vrun = none ∧
      ((q.core n.toNat).group v.group).st = .free ∧
      q.mem = (((s.p.saveCapture n.toNat v.group).modCore n.toNat fun k => { k with vrun := none }).applyWrites n.toNat v.writes).mem := by
  have hb : Becomes (.drainDone n) s ((((s.p.saveCapture n.toNat v.group).retireVector n.toNat v).modCore n.toNat
      fun k => k.setGroup v.group .reset).dupReady n.toNat v.group) := by
    simp [Becomes, exec, execDrainDone, State.run, hv, ho, hl]
  have hcore : ∀ d, ((((s.p.saveCapture n.toNat v.group).retireVector n.toNat v).modCore n.toNat
      fun k => k.setGroup v.group .reset).dupReady n.toNat v.group).core d =
      if n.toNat = d then (({ s.p.core n.toNat with vrun := none } : Core).advance.setGroup v.group .reset) else s.p.core d := by
    intro d
    rw [Part.core_congr (Part.dupReady_frame _ _ _).2, Part.modCore_eq, Part.core_setCore, Part.retireVector_core, Part.retireVector_core,
      if_pos rfl]
    simp only [Part.saveCapture_keeps]
    split <;> rfl
  refine ⟨_, hb, fun d hd => by rw [hcore, if_neg (Ne.symm hd)], ?_, ?_, ?_⟩
  · rw [hcore, if_pos rfl]
    exact Core.advance_keeps Core.vrun (fun _ _ _ _ _ => rfl) _
  · rw [hcore, if_pos rfl, Core.group_setGroup, if_pos rfl]
    rfl
  · rw [(Part.dupReady_frame _ _ _).1, ← Part.retireVector_mem]
    simp

end

/-- Settles O13: a stream or a drain at the head of the queue starts or faults, and what runs retires. -/
theorem vectorEngine : Obligations.VectorEngine := by
  intro s n upset p c k
  refine ⟨fun o rest hr hq hw hm => ?_, ?_, fun v o hv ho hl => vectorStream_done s n hv ho hl, fun v o hv ho hl => drain_done s n hv ho hl⟩
  · have hb := vectorStream_starts s n upset hr hq hw hm
    refine ⟨fun hs => ?_, fun hs hn => ?_⟩
    · rw [if_neg (by simpa using hs)] at hb
      obtain ⟨draws, v, hv, hcores, hmem⟩ := Part.startStream_core (p.setCore c k) c o (spGet [] k.slots o.slot) upset
      have hcore := Part.core_of_cores hcores
      refine ⟨_, v, hb, fun d hd => ?_, hmem.trans (by simp [p]), ?_, ?_, hv⟩
      · rw [hcore, if_neg (Ne.symm hd), Part.core_setSame]
      · rw [hcore, if_pos rfl, Part.core_setSame]
        exact congrArg (List.drop 1) hq
      · rw [hcore, if_pos rfl]
    · rw [if_pos (by rw [hs]; rfl)] at hb
      obtain ⟨h1, h2, -, -⟩ := Part.fault_faults ((p.setCore c k).setCore c { k with vq := rest }) c 9 o.head.pc o.head.seq o.head.pair
        (by simpa using hn)
      exact ⟨_, hb, h1, h2⟩
  · intro o rest g queued hr hq hf hw d olk hm hi hc
    have hb := drain_starts s n upset hr hq hf hw hm hi hc
    obtain ⟨e, v, t, hv, hg, ht, hcore⟩ := Part.startDrain_starts (p.setCore c k) c o g upset
    rw [Part.core_setSame] at ht
    have hpop := Core.popTile_pops (k := { k with estSeq := e }) hf hq
    generalize ({ k with estSeq := e } : Core).popTile g = u at ht hpop
    obtain ⟨h1, h2, h3⟩ := hpop
    refine ⟨_, v, hb, fun d hd => ?_, (Part.startDrain_frame _ _ _ _ _).trans (by simp [p]), ?_⟩
    · rw [hcore, if_neg (Ne.symm hd), Part.core_setSame]
    · rw [hcore, if_pos rfl]
      obtain ⟨x, rfl⟩ : ∃ x, t = { u with draws := x } := by
        rcases ht with rfl | rfl
        · exact ⟨t.draws, rfl⟩
        · exact ⟨_, rfl⟩
      exact ⟨h1, rfl, hv, hg, h2, h3⟩

end Sys2Proof.Machine
end

section
/-!
SUPPORT. What work on the command queues leaves alone: fetching, sweeping and ending commands change the queues, their counters and sticky
bits, and no more (R401 to R406).
-/
namespace Sys2Proof.Machine

/-- The registers that no work on a command queue writes. -/
def offQueues (j : Nat) : Prop := j ≠ HIF_STAT_CMD ∧ j ≠ HIF_STICKY ∧ j ≠ HIF_FRAME_ERR ∧ (j < 0x1000 ∨ 0x1200 ≤ j)

/-- Work on the command queues: the queues and their own registers have changed, and no more. -/
def QueueWork (p q : Part) : Prop :=
  q = { p with regs := q.regs, hif := { p.hif with queues := q.hif.queues } } ∧ ∀ j, offQueues j → q.rd j = p.rd j

namespace QueueWork

theorem refl (p : Part) : QueueWork p p := ⟨rfl, fun _ _ => rfl⟩

theorem trans {p q r : Part} (h : QueueWork p q) (h' : QueueWork q r) : QueueWork p r := by
  obtain ⟨he, hr⟩ := h
  obtain ⟨he', hr'⟩ := h'
  refine ⟨?_, fun j hj => (hr' j hj).trans (hr j hj)⟩
  rw [he', he]

theorem wr (p : Part) {o : Nat} (v : Nat) (h : ¬offQueues o) : QueueWork p (p.wr o v) :=
  ⟨rfl, fun _ hj => Part.rd_wr_other _ _ fun e => h (e ▸ hj)⟩

theorem setCq (p : Part) (n : Nat) (x : CmdQueue) : QueueWork p (p.setCq n x) := ⟨rfl, fun _ _ => rfl⟩

theorem stick (p : Part) (i : Nat) : QueueWork p (p.hifStick i) := by
  refine ⟨?_, fun j hj => Part.rd_stick_other _ _ (Ne.symm hj.2.1) (Ne.symm hj.2.2.1)⟩
  simp [Part.hifStick, Part.stick, Part.putB, Part.putF, Part.wr]

theorem ite (b : Prop) [Decidable b] {p q r : Part} (hq : QueueWork p q) (hr : QueueWork p r) : QueueWork p (if b then q else r) := by
  split
  · exact hq
  · exact hr

theorem each {α : Type} {f : Part → α → Part} (l : List α) (h : ∀ x ∈ l, ∀ p, QueueWork p (f p x)) (p : Part) :
    QueueWork p (p.each l f) := by
  induction l generalizing p with
  | nil => exact refl p
  | cons x l ih =>
    rw [Part.each_cons]
    exact (h x (by simp) p).trans (ih (fun y hy => h y (by simp [hy])) _)

theorem endOne (p : Part) (n : Nat) (c : HostCmd) (status result : Nat) : QueueWork p (p.endOne n c status result) := by
  have hb : ∀ q : Part, QueueWork q (q.bump HIF_STAT_CMD 1) := fun q => wr q _ fun h => h.1 rfl
  unfold Part.endOne
  exact ite _ (((setCq _ _ _).trans (hb _)).trans (stick _ _))
    (ite _ (((setCq _ _ _).trans (hb _)).trans (stick _ _)) ((setCq _ _ _).trans (hb _)))

theorem sweep (fuel : Nat) (p : Part) (n : Nat) : QueueWork p (Part.sweep fuel p n) := by
  induction fuel generalizing p with
  | zero => exact refl p
  | succ fuel ih =>
    unfold Part.sweep
    split
    · exact refl p
    · exact ite _ ((endOne _ _ _ _ _).trans (ih _)) (ite _ (refl p) ((endOne _ _ _ _ _).trans (ih _)))

theorem sweepAll (p : Part) : QueueWork p p.sweepAll := each _ (fun _ _ _ => sweep _ _ _) p

theorem endCmd (p : Part) (n : Nat) (c : HostCmd) (status result : Nat) : QueueWork p (p.endCmd n c status result) :=
  (endOne p n c status result).trans (sweepAll _)

theorem fetchLoop (fuel : Nat) (p : Part) {n : Nat} (hn : n < 8) : QueueWork p (Part.fetchLoop fuel p n) := by
  induction fuel generalizing p with
  | zero => exact refl p
  | succ fuel ih =>
    unfold Part.fetchLoop
    refine ite _ (refl p) (((setCq _ _ _).trans (wr _ _ fun h => ?_)).trans (ih _))
    obtain ⟨-, -, -, h⟩ := h
    simp only [HIF_SQ_HEAD] at h
    omega

theorem fetchAll (p : Part) : QueueWork p p.fetchAll :=
  (each _ (fun n hn q => ite _ (fetchLoop _ q (List.mem_range.1 hn)) (refl q)) p).trans (sweepAll _)

theorem settle (p : Part) {n : Nat} (hn : n < 8) : QueueWork p (p.settle n) := by
  have hw : ∀ (q : Part) o, 0x1000 ≤ o → o < 0x1200 → QueueWork q (q.wr o 0) := fun q o h1 h2 => wr q 0 fun h => by
    obtain ⟨-, -, -, h⟩ := h
    omega
  unfold Part.settle
  refine ite _ (refl p) (((((setCq _ _ _).trans (hw _ _ ?_ ?_)).trans (hw _ _ ?_ ?_)).trans (hw _ _ ?_ ?_)).trans (hw _ _ ?_ ?_))
  all_goals
    simp only [HIF_SQ_HEAD, HIF_SQ_TAIL, HIF_CR_HEAD, HIF_CR_TAIL]
    omega

end QueueWork

end Sys2Proof.Machine
end

section
/-!
PROOF. The host link: training, decoders, snoops and host-side resets (R389, R391, R396, R419).
-/
namespace Sys2Proof.Machine

theorem alignDown_28 (a : Nat) : alignDown 28 a = a / 2 ^ 28 * 2 ^ 28 := by
  rw [alignDown, Nat.shiftRight_eq_div_pow, Nat.shiftLeft_eq]

theorem offQueues_status : offQueues HIF_STATUS := by
  unfold offQueues
  decide

theorem Part.getB_putF_bit (p : Part) (o lo w v i : Nat) (h : i < lo ∨ lo + w ≤ i) (hi : i < 64) : (p.putF o lo w v).getB o i = p.getB o i := by
  have := Part.getF_putF_field p o lo w v i 1 (by omega) (by omega)
  simp only [Part.getF] at this
  simp only [Part.getB, bit_eq_fld, this]

section
variable (s : State)

theorem linkTraining_trains (cxl : Bool) (rate width : Nat) (hl : s.p.hif.linkUp = false) (ht : s.p.power.hbmTrained = true)
    (hp : s.p.getB PWR_STATUS 7 = false) :
    ∃ q, exec (.linkTraining cxl rate width) s = .next { s with p := q } ∧ q = { s.p with regs := q.regs, hif := q.hif } ∧
      q.hif.linkUp = true ∧ q.getB HIF_STATUS 0 = (cxl && rate == 4 && decide (3 ≤ width)) ∧ q.getF HIF_STATUS 3 3 = width % 8 ∧
      q.getF HIF_STATUS 6 3 = rate % 8 := by
  obtain ⟨w, hw⟩ : ∃ w : Part,
    w = ((s.p.putB HIF_STATUS 0 (cxl && rate == 4 && decide (3 ≤ width))).putF HIF_STATUS 3 3 width).putF HIF_STATUS 6 3 rate := ⟨_, rfl⟩
  have hb : exec (.linkTraining cxl rate width) s = .next { s with p := (w.modHif fun h => { h with linkUp := true }).fetchAll } := by
    simp [exec, execLinkTraining, State.run, hl, ht, hp, hw]
  obtain ⟨he, hrd⟩ := QueueWork.fetchAll (w.modHif fun h => { h with linkUp := true })
  have hstat : (w.modHif fun h => { h with linkUp := true }).fetchAll.rd HIF_STATUS = w.rd HIF_STATUS := hrd _ offQueues_status
  refine ⟨_, hb, ?_, by rw [he]; simp, ?_, ?_, ?_⟩
  · rw [he, hw]
    simp [Part.putB, Part.putF, Part.wr, Part.modHif]
  · rw [Part.getB_congr 0 hstat, hw, Part.getB_putF_bit _ _ _ _ _ _ (by decide) (by decide),
      Part.getB_putF_bit _ _ _ _ _ _ (by decide) (by decide), Part.getB_putB_same _ _ _ _ (by decide)]
  · rw [Part.getF_congr 3 3 hstat, hw, Part.getF_putF_field _ _ _ _ _ _ _ (by decide) (by decide),
      Part.getF_putF_same _ _ _ _ _ (by decide)]
    rfl
  · rw [Part.getF_congr 6 3 hstat, hw, Part.getF_putF_same _ _ _ _ _ (by decide)]
    rfl

theorem linkTraining_waits (cxl : Bool) (rate width : Nat)
    (h : s.p.hif.linkUp = true ∨ s.p.power.hbmTrained = false ∨ s.p.getB PWR_STATUS 7 = true) :
    exec (.linkTraining cxl rate width) s = .next s := by
  have hno : (s.p.hif.linkUp || !s.p.power.hbmTrained || s.p.getB PWR_STATUS 7) = true := by
    rcases h with h | h | h <;> simp [h]
  simp [exec, execLinkTraining, State.run, hno]

theorem hdmCommit_zero (base size skip ways : Nat) :
    exec (.hdmDecoderCommit 0 base size skip ways) s = .next { s with p := { s.p with hif := { s.p.hif with
      hdm0 := ⟨base / 2 ^ 28 * 2 ^ 28, size / 2 ^ 28 * 2 ^ 28, skip, ways == 1 && decide (skip + size / 2 ^ 28 * 2 ^ 28 ≤ hbmTop),
        !(ways == 1 && decide (skip + size / 2 ^ 28 * 2 ^ 28 ≤ hbmTop))⟩ } } } := by
  rw [← alignDown_28, ← alignDown_28]
  rfl

theorem hdmCommit_one (base size skip ways : Nat) {start : Nat}
    (hs : (if s.p.hif.hdm0.committed then s.p.hif.hdm0.skip + s.p.hif.hdm0.size else 0) + skip = start) :
    exec (.hdmDecoderCommit 1 base size skip ways) s = .next { s with p := { s.p with hif := { s.p.hif with
      hdm1 := ⟨base / 2 ^ 28 * 2 ^ 28, size / 2 ^ 28 * 2 ^ 28, skip, ways == 1 && decide (start + size / 2 ^ 28 * 2 ^ 28 ≤ hbmTop),
        !(ways == 1 && decide (start + size / 2 ^ 28 * 2 ^ 28 ≤ hbmTop))⟩ } } } := by
  rw [← alignDown_28, ← alignDown_28, ← hs]
  rfl

theorem pciPower_changes (d b : Bool) (hl : s.p.hif.linkUp = true) :
    ∃ q, exec (.pciPowerStateChange d b) s = .next { s with p := q } ∧ q = { s.p with regs := q.regs, hif := q.hif } ∧
      q.getB HIF_STATUS 2 = d ∧ q.hif.busMaster = b := by
  obtain ⟨w, hw⟩ : ∃ w : Part, w = s.p.putB HIF_STATUS 2 d := ⟨_, rfl⟩
  have hb : exec (.pciPowerStateChange d b) s = .next { s with p := (w.modHif fun h => { h with busMaster := b }).fetchAll } := by
    simp [exec, execPciPowerStateChange, State.run, hl, hw]
  obtain ⟨he, hrd⟩ := QueueWork.fetchAll (w.modHif fun h => { h with busMaster := b })
  have hstat : (w.modHif fun h => { h with busMaster := b }).fetchAll.rd HIF_STATUS = w.rd HIF_STATUS := hrd _ offQueues_status
  refine ⟨_, hb, ?_, ?_, by rw [he]; simp⟩
  · rw [he, hw]
    simp [Part.putB, Part.putF, Part.wr, Part.modHif]
  · rw [Part.getB_congr 2 hstat, hw, Part.getB_putB_same _ _ _ _ (by decide)]

/-- What a write of their reset values to a list of registers leaves every register (R419). -/
theorem Part.each_wr_reset (l : List Nat) (p : Part) :
    (p.each l fun p r => p.wr r (regReset r)) = { p with regs := (p.each l fun p r => p.wr r (regReset r)).regs } ∧
      ∀ j, (p.each l fun p r => p.wr r (regReset r)).rd j = if j ∈ l then regReset j % 2 ^ 64 else p.rd j := by
  induction l generalizing p with
  | nil => exact ⟨rfl, fun _ => rfl⟩
  | cons o l ih =>
    obtain ⟨he, hr⟩ := ih (p.wr o (regReset o))
    rw [Part.each_cons]
    refine ⟨he.trans rfl, fun j => ?_⟩
    rw [hr, Part.rd_wr]
    by_cases hj : j ∈ l
    · simp [hj]
    · by_cases ho : o = j
      · subst ho; simp
      · simp [hj, ho, Ne.symm ho]

theorem hifReset_values : ∀ r ∈ hifReset, regReset r < 2 ^ 64 := by decide

theorem hifReset_plain : HIF_STATUS ∉ hifReset ∧ TIK_TXN_STATE ∉ hifReset := by decide

theorem hostReset_resets (kind : HostResetKind) :
    ∃ q, exec (.hostReset kind) s = .next { s with p := q } ∧
      q = { s.p with
        regs := q.regs
        hif := { s.p.hif with queues := [], busMaster := false, linkUp := s.p.hif.linkUp && !(kind == .linkDown) }
        txn := { s.p.txn with validating := none, loadPending := none }
        tick := { s.p.tick with quiesced := false }
        mgt := { s.p.mgt with cxl := .reset } } ∧
      (∀ r ∈ hifReset, q.rd r = regReset r) ∧ q.getB HIF_STATUS 2 = false ∧
      q.txnState = (if s.p.txn.validating.isSome then 1 else s.p.txnState) ∧
      ∀ r, r ∉ hifReset → r ≠ HIF_STATUS → r ≠ TIK_TXN_STATE → q.rd r = s.p.rd r := by
  refine ⟨s.p.hostReset (kind == .linkDown), rfl, ?_⟩
  obtain ⟨he, hr⟩ := Part.each_wr_reset hifReset s.p
  obtain ⟨hst, htx⟩ := hifReset_plain
  unfold Part.hostReset
  generalize s.p.each hifReset (fun p r => p.wr r (regReset r)) = r at he hr ⊢
  obtain ⟨w, hw⟩ : ∃ w : Part, w = if s.p.txn.validating.isSome then (r.putB HIF_STATUS 2 false).putF TIK_TXN_STATE 0 2 1
    else r.putB HIF_STATUS 2 false := ⟨_, rfl⟩
  have hstat : w.rd HIF_STATUS = (r.putB HIF_STATUS 2 false).rd HIF_STATUS := by
    rw [hw]
    split
    · exact Part.rd_putF_other _ _ _ _ (by decide)
    · rfl
  have hoff : ∀ j, j ≠ HIF_STATUS → j ≠ TIK_TXN_STATE → w.rd j = r.rd j := by
    intro j h1 h2
    rw [hw]
    split
    · rw [Part.rd_putF_other _ _ _ _ (Ne.symm h2), Part.rd_putB_other _ _ _ (Ne.symm h1)]
    · rw [Part.rd_putB_other _ _ _ (Ne.symm h1)]
  have htxn : w.getF TIK_TXN_STATE 0 2 = if s.p.txn.validating.isSome then 1 else s.p.txnState := by
    rw [hw]
    split
    · exact Part.getF_putF_same _ _ _ _ _ (by decide)
    · exact Part.getF_congr 0 2 ((Part.rd_putB_other _ _ _ (by decide)).trans (by rw [hr, if_neg htx]))
  generalize hq : Part.modMgt _ _ = q
  have hqe : q = { s.p with
      regs := w.regs
      hif := { s.p.hif with queues := [], busMaster := false, linkUp := s.p.hif.linkUp && !(kind == .linkDown) }
      txn := { s.p.txn with validating := none, loadPending := none }
      tick := { s.p.tick with quiesced := false }
      mgt := { s.p.mgt with cxl := .reset } } := by
    rw [← hq, hw, he]
    by_cases hv : s.p.txn.validating.isSome = true <;>
      simp [hv, Part.putB, Part.putF, Part.wr, Part.modHif, Part.modTxn, Part.modTick, Part.modMgt] <;> rfl
  have hrdq : ∀ j, q.rd j = w.rd j := fun j => by rw [hqe]; rfl
  refine ⟨by rw [hqe], fun j hj => ?_, ?_, ?_, fun j hj h1 h2 => ?_⟩
  · rw [hrdq, hoff j (fun e => hst (e ▸ hj)) (fun e => htx (e ▸ hj)), hr, if_pos hj, Nat.mod_eq_of_lt (hifReset_values j hj)]
  · rw [Part.getB_congr 2 ((hrdq _).trans hstat), Part.getB_putB_same _ _ _ _ (by decide)]
  · exact (Part.getF_congr 0 2 (hrdq _)).trans htxn
  · rw [hrdq, hoff j h1 h2, hr, if_neg hj]

end

/-- Settles O38: the five commands, each from what it does to the link's registers and records. -/
theorem hostLink : Obligations.HostLink := by
  intro s p h
  refine ⟨linkTraining_trains s, linkTraining_waits s, fun base size skip ways => ⟨hdmCommit_zero s base size skip ways,
    hdmCommit_one s base size skip ways rfl⟩, fun a => ?_, fun d b hl => pciPower_changes s d b hl, fun d b hl => ?_, hostReset_resets s⟩
  · simp only [exec, execH2dSnoop, State.run, Bool.and_eq_true]
    rfl
  · simp [exec, execPciPowerStateChange, State.run, show s.p.hif.linkUp = false from hl]

end Sys2Proof.Machine
end

section
/-!
SUPPORT. The registers that error records, trace records and freezes write: those of the observation unit, and the status of ticks.
-/
namespace Sys2Proof.Machine

/-- A register that no error record, trace record or freeze writes. -/
def besidesRecords (j : Nat) : Prop := j ≠ TIK_STATUS ∧ (j < 0x100000 ∨ 0x101000 ≤ j) ∧ ∀ b, SOBS_STAT_TDROP b ≠ j

theorem besidesRecords_hub {j : Nat} (h : j < 0x100000) (ht : j ≠ TIK_STATUS) : besidesRecords j := by
  refine ⟨ht, .inl h, fun b => ?_⟩
  simp only [SOBS_STAT_TDROP, secBase]
  omega

theorem besidesRecords_core {c x : Nat} (h : x < 0x400) : besidesRecords (corBase c + x) := by
  refine ⟨?_, .inr ?_, fun b => ?_⟩
  · simp only [TIK_STATUS, corBase, secBase]
    omega
  · simp only [corBase, secBase]
    omega
  · simp only [SOBS_STAT_TDROP, corBase, secBase]
    omega

section
variable {j : Nat} (h : besidesRecords j)
include h

theorem Part.rd_stickObs (p : Part) (i : Nat) : (p.stick OBS_STICKY i).rd j = p.rd j := by
  obtain ⟨-, h, -⟩ := h
  simp only [OBS_STICKY]
  exact Part.rd_stick_other _ _ (by omega) (by omega)

theorem Part.rd_trace_besides (p : Part) (b kind pair core a v : Nat) : (p.trace b kind pair core a v).rd j = p.rd j := by
  have hd : traceDrop b ≠ j := by
    obtain ⟨-, h, hb⟩ := h
    unfold traceDrop
    split
    · simp only [OBS_STAT_TDROP]
      omega
    · exact hb b
  unfold Part.trace
  dsimp only
  split
  · split
    · rw [Part.rd_stickObs h, Part.rd_bump_other _ _ hd]
    · simp
  · rfl

theorem Part.rd_freezeFrom_besides (p : Part) (source : Nat) (e : Option Nat) (corr : Nat) : (p.freezeFrom source e corr).rd j = p.rd j := by
  have hs : OBS_STATUS ≠ j := by simp only [besidesRecords, OBS_STATUS] at h ⊢; omega
  have he : OBS_TEST_STATUS ≠ j := by simp only [besidesRecords, OBS_TEST_STATUS] at h ⊢; omega
  unfold Part.freezeFrom
  dsimp only
  split
  · rfl
  · rw [Part.rd_trace_besides h]
    split <;>
      simp [Part.rd_putB_other _ _ _ (Ne.symm h.1), Part.rd_putF_other _ _ _ _ he, Part.rd_putB_other _ _ _ hs, Part.rd_stickObs h]

theorem Part.rd_freeze_besides (p : Part) (source : Nat) : (p.freeze source).rd j = p.rd j := Part.rd_freezeFrom_besides h p _ _ _

theorem Part.rd_err_besides (p : Part) (e : ErrRec) : (p.err e).rd j = p.rd j := by
  have hd : OBS_STAT_ERRDROP ≠ j := by simp only [besidesRecords, OBS_STAT_ERRDROP] at h ⊢; omega
  have hs : OBS_ERR_SEQ ≠ j := by simp only [besidesRecords, OBS_ERR_SEQ] at h ⊢; omega
  have hr : OBS_STAT_ERRREC ≠ j := by simp only [besidesRecords, OBS_STAT_ERRREC] at h ⊢; omega
  unfold Part.err
  dsimp only
  split
  case isTrue => simp
  case isFalse =>
    split
    · rw [Part.rd_stickObs h, Part.rd_bump_other _ _ hd]
    · split <;>
        simp [Part.rd_freeze_besides h, Part.rd_trace_besides h, Part.rd_bump_other _ _ hr, Part.rd_wr_other _ _ hs]

theorem Part.rd_noteErr_besides (p : Part) (o i : Nat) (e : ErrRec) (ho : o ≠ j) (ho' : o + 4 ≠ j) : (p.noteErr o i e).rd j = p.rd j := by
  rw [Part.noteErr, Part.rd_err_besides h, Part.rd_stick_other _ _ ho ho']

end

end Sys2Proof.Machine
end

section
/-!
PROOF. Register writes (R13 to R15, R395, R430, R440, R441).
-/
namespace Sys2Proof.Machine

theorem readReg_untouched (s : State) {off size : Nat} (h : readTouches off size = false) : s.readReg off size = 0 := by
  unfold readTouches at h
  unfold State.readReg
  split
  · rfl
  · next hw =>
    have hwide : (size = 4 ∨ size = 8) ∧ off % size = 0 := by omega
    have hw4 : ((size == 4 || size == 8) && off % size == 0) = true := by simpa using hwide
    rw [hw4, Bool.true_and] at h
    split at h <;> simp_all

section
variable (s : State) (offset size : Nat) (value : BitVec 64)

/-- A write that changes nothing but the count of ignored accesses (R13). -/
def Ignored : Prop :=
  ∃ q, Becomes (.registerWrite offset size value) s q ∧ q = { s.p with regs := q.regs } ∧
    q.rd HIF_STAT_ACCERR = (s.p.rd HIF_STAT_ACCERR + 1) % 2 ^ 64 ∧ ∀ r, r ≠ HIF_STAT_ACCERR → q.rd r = s.p.rd r

variable {s offset size value}

theorem ignored_of (h : Becomes (.registerWrite offset size value) s s.p.ignoreAccess) : Ignored s offset size value :=
  ⟨_, h, rfl, by simp [Part.ignoreAccess], fun r hr => Part.rd_bump_other _ _ (Ne.symm hr)⟩

theorem registerWrite_becomes (hl : s.p.hif.linkUp = true) : Becomes (.registerWrite offset size value) s
    (if (size ≠ 4 ∧ size ≠ 8) ∨ offset % size ≠ 0 then s.p.ignoreAccess
    else match regAt offset with
      | none => s.p.ignoreAccess
      | some r => if r.bytes = size then s.p.writeReg offset r (value.toNat % 2 ^ (8 * size)) else s.p.ignoreAccess) := by
  simp only [Becomes, exec, execRegisterWrite, State.run, hl, Bool.not_true, Bool.false_eq_true, if_false] <;> rfl

theorem registerWrite_narrow (hl : s.p.hif.linkUp = true) (hw : ¬((size = 4 ∨ size = 8) ∧ offset % size = 0)) :
    Ignored s offset size value := by
  have hb := registerWrite_becomes (value := value) (offset := offset) (size := size) hl
  rw [if_pos (by omega)] at hb
  exact ignored_of hb

theorem registerWrite_absent (hl : s.p.hif.linkUp = true) (hr : regAt offset = none) : Ignored s offset size value := by
  by_cases hw : (size = 4 ∨ size = 8) ∧ offset % size = 0
  · have hb := registerWrite_becomes (value := value) (offset := offset) (size := size) hl
    rw [if_neg (by omega), hr] at hb
    exact ignored_of hb
  · exact registerWrite_narrow hl hw

section
variable {r : RegRow} (hr : regAt offset = some r) (hl : s.p.hif.linkUp = true)
include hr hl

theorem registerWrite_width (hs : r.bytes ≠ size) : Ignored s offset size value := by
  by_cases hw : (size = 4 ∨ size = 8) ∧ offset % size = 0
  · have hb := registerWrite_becomes (value := value) (offset := offset) (size := size) hl
    rw [if_neg (by omega), hr] at hb
    dsimp only at hb
    rw [if_neg hs] at hb
    exact ignored_of hb
  · exact registerWrite_narrow hl hw

theorem registerWrite_writes (hw : (size = 4 ∨ size = 8) ∧ offset % size = 0) (hs : r.bytes = size) :
    Becomes (.registerWrite offset size value) s (s.p.writeReg offset r (value.toNat % 2 ^ (8 * size))) := by
  have hb := registerWrite_becomes (value := value) (offset := offset) (size := size) hl
  rw [if_neg (by omega), hr] at hb
  dsimp only at hb
  rw [if_pos hs] at hb
  exact hb

theorem registerWrite_plain (hw : (size = 4 ∨ size = 8) ∧ offset % size = 0) (hs : r.bytes = size) (ht : s.p.rwtAt offset r = 0) :
    Becomes (.registerWrite offset size value) s (if r.rw = 0 ∧ r.wo = 0 then s.p.ignoreAccess
      else (s.p.writeSpecial offset r (value.toNat % 2 ^ (8 * size))).getD (s.p.putRw offset r (value.toNat % 2 ^ (8 * size)))) := by
  have hb := registerWrite_writes (value := value) hr hl hw hs
  rw [Part.writeReg, if_neg (not_not.2 ht)] at hb
  exact hb

theorem registerWrite_rwt (hw : (size = 4 ∨ size = 8) ∧ offset % size = 0) (hs : r.bytes = size) (ht : s.p.rwtAt offset r ≠ 0) :
    Becomes (.registerWrite offset size value) s (s.p.writeRwt offset size (value.toNat % 2 ^ (8 * size))) := by
  have hb := registerWrite_writes (value := value) hr hl hw hs
  rw [Part.writeReg, if_pos ht, hs] at hb
  exact hb

theorem registerWrite_staged (hw : (size = 4 ∨ size = 8) ∧ offset % size = 0) (hs : r.bytes = size) (ht : s.p.rwtAt offset r ≠ 0)
    (ho : s.p.txnState = 1) (hg : s.p.mgt.signedOnly = false) (hu : s.p.txn.used + 16 ≤ stagingBytes) :
    ∃ q, Becomes (.registerWrite offset size value) s q ∧ q.rd TIK_TXN_USED = (s.p.txn.used + 16) % 2 ^ 64 ∧
      (∀ j, j ≠ TIK_TXN_USED → q.rd j = s.p.rd j) ∧
      q = { s.p with
        regs := q.regs
        txn := { s.p.txn with
          staged := s.p.txn.staged ++ [.reg offset size (value.toNat % 2 ^ (8 * size))], used := s.p.txn.used + 16, unsigned := true } } := by
  have hb := registerWrite_rwt (value := value) hr hl hw hs ht
  rw [Part.writeRwt, if_neg (not_not.2 ho), hg, if_neg (by decide), if_neg (by omega)] at hb
  refine ⟨_, hb, ?_, fun j hj => ?_, ?_⟩
  · simp [Part.stage]
  · simp [Part.stage, Part.rd_wr_other _ _ (Ne.symm hj)]
  · simp [Part.stage, Part.modTxn, Part.wr]

theorem registerWrite_signed (hw : (size = 4 ∨ size = 8) ∧ offset % size = 0) (hs : r.bytes = size) (ht : s.p.rwtAt offset r ≠ 0)
    (ho : s.p.txnState = 1) (hg : s.p.mgt.signedOnly = true) :
    ∃ q, Becomes (.registerWrite offset size value) s q ∧ q.txn = s.p.txn ∧
      q.rd TIK_TXN_ERR = (⟨3, 0xFFFF, offset⟩ : TxnErr).word % 2 ^ 64 ∧ q.mem = s.p.mem ∧ q.cores = s.p.cores := by
  have hb := registerWrite_rwt (value := value) hr hl hw hs ht
  rw [Part.writeRwt, if_neg (not_not.2 ho), hg, if_pos rfl, Part.txnFail] at hb
  dsimp only at hb
  rw [if_neg (by decide), if_neg (by decide)] at hb
  refine ⟨_, hb, by simp, ?_, by simp, by simp⟩
  rw [Part.rd_err_besides (besidesRecords_hub (by decide) (by decide)), Part.rd_bump_other _ _ (by decide), Part.rd_wr_same]

end

end

/-- Settles O45: a write is ignored, staged, plain or special, by its width, its register and the transaction. -/
theorem registerWrites : Obligations.RegisterWrites := by
  intro s offset size value p c v ignored wide
  refine ⟨fun h => ?_, fun h hs => ?_, fun hl => ?_, registerWrite_narrow, registerWrite_absent,
    fun r hr hl => ⟨registerWrite_width hr hl, ?_⟩⟩
  · rw [State.bar0Read, readReg_untouched s h, h]
    rfl
  · simp [State.bar0Read, h, show s.p.scanShut offset = false from hs]
  · simp [Becomes, c, exec, execRegisterWrite, State.run, show s.p.hif.linkUp = false from hl]
    rfl
  · intro hw hs
    refine ⟨fun ht h0 h1 => ?_, fun ht h0 hsp => ?_, fun ht h0 q hsp => ?_, fun ht ho => ?_, registerWrite_staged hr hl hw hs,
      registerWrite_signed hr hl hw hs⟩
    · have hb := registerWrite_plain (value := value) hr hl hw hs ht
      rw [if_pos ⟨h0, h1⟩] at hb
      exact ignored_of hb
    · have hb := registerWrite_plain (value := value) hr hl hw hs ht
      rw [if_neg h0, show s.p.writeSpecial offset r (value.toNat % 2 ^ (8 * size)) = none from hsp] at hb
      exact ⟨_, hb, rfl, Part.rd_wr_same _ _ _, fun j hj => Part.rd_wr_other _ _ (Ne.symm hj)⟩
    · have hb := registerWrite_plain (value := value) hr hl hw hs ht
      rw [if_neg h0, show s.p.writeSpecial offset r (value.toNat % 2 ^ (8 * size)) = some q from hsp] at hb
      exact hb
    · have hb := registerWrite_rwt (value := value) hr hl hw hs ht
      rw [Part.writeRwt, if_pos ho] at hb
      exact ignored_of hb

end Sys2Proof.Machine
end

section
/-!
SUPPORT. The answer to a vendor-defined command: what it counts and sends, and what it leaves (R465 to R467).
-/
namespace Sys2Proof.Machine

section
variable (p : Part)

/-- The session bits are bits 10 and 11 of the status; showing them writes that register alone (R482). -/
theorem Part.showSessions_eq : p.showSessions = { p with regs := p.showSessions.regs } := rfl

theorem Part.rd_showSessions {j : Nat} (h : j ≠ MGT_STATUS) : p.showSessions.rd j = p.rd j :=
  (Part.rd_putB_other _ _ _ (Ne.symm h)).trans (Part.rd_putB_other _ _ _ (Ne.symm h))

theorem Part.getB_showSessions {i : Nat} (h0 : i ≠ 10) (h1 : i ≠ 11) (hi : i < 64) :
    p.showSessions.getB MGT_STATUS i = p.getB MGT_STATUS i :=
  (Part.getB_putB_bit _ _ _ _ _ (Ne.symm h1) hi).trans (Part.getB_putB_bit _ _ _ _ _ (Ne.symm h0) hi)

theorem Part.getF_showSessions {lo w : Nat} (h : lo + w ≤ 10 ∨ 12 ≤ lo) (hw : lo + w ≤ 64) :
    p.showSessions.getF MGT_STATUS lo w = p.getF MGT_STATUS lo w :=
  (Part.getF_putF_field _ _ _ _ _ _ _ (by omega) hw).trans (Part.getF_putF_field _ _ _ _ _ _ _ (by omega) hw)

/-- A connection keeps all but what is changed of it. -/
theorem Part.modConn_eq (via : Transport) (f : Spdm → Spdm) : p.modConn via f = { p with
    regs := (p.modConn via f).regs
    mgt := { p.mgt with
      smb := if via = .smbus then f p.mgt.smb else p.mgt.smb
      cxl := if via = .smbus then p.mgt.cxl else f p.mgt.cxl } } := by
  rw [Part.modConn, Part.showSessions_eq]
  unfold Mgt.setConn Mgt.conn
  split <;> rfl

theorem Part.rd_modConn (via : Transport) (f : Spdm → Spdm) {j : Nat} (h : j ≠ MGT_STATUS) : (p.modConn via f).rd j = p.rd j :=
  Part.rd_showSessions _ h

theorem Part.getB_modConn (via : Transport) (f : Spdm → Spdm) {i : Nat} (h0 : i ≠ 10) (h1 : i ≠ 11) (hi : i < 64) :
    (p.modConn via f).getB MGT_STATUS i = p.getB MGT_STATUS i := Part.getB_showSessions _ h0 h1 hi

theorem Part.getF_modConn (via : Transport) (f : Spdm → Spdm) {lo w : Nat} (h : lo + w ≤ 10 ∨ 12 ≤ lo) (hw : lo + w ≤ 64) :
    (p.modConn via f).getF MGT_STATUS lo w = p.getF MGT_STATUS lo w := Part.getF_showSessions _ h hw

variable (m : MgtReq) (cmd code : Nat) (data : List Byte)

/-- The part when a command has been counted, before its response is sent. -/
def Part.counted : Part :=
  if code = 2 then ((p.bump MGT_STAT_CMD 1).bump MGT_STAT_DENY 1).putB MGT_STICKY 3 true else p.bump MGT_STAT_CMD 1

theorem Part.counted_frame : p.counted code = { p with regs := (p.counted code).regs } := by
  unfold Part.counted
  split <;> rfl

theorem Part.rd_counted {j : Nat} (h : j ≠ MGT_STAT_CMD ∧ j ≠ MGT_STAT_DENY ∧ j ≠ MGT_STICKY) : (p.counted code).rd j = p.rd j := by
  obtain ⟨h1, h2, h3⟩ := h
  unfold Part.counted
  split
  · rw [Part.rd_putB_other _ _ _ (Ne.symm h3), Part.rd_bump_other _ _ (Ne.symm h2), Part.rd_bump_other _ _ (Ne.symm h1)]
  · exact Part.rd_bump_other _ _ (Ne.symm h1)

theorem Part.counted_cmd : (p.counted code).rd MGT_STAT_CMD = (p.rd MGT_STAT_CMD + 1) % 2 ^ 64 := by
  unfold Part.counted
  split
  · rw [Part.rd_putB_other _ _ _ (by decide), Part.rd_bump_other _ _ (by decide), Part.rd_bump_same]
  · exact Part.rd_bump_same _ _ _

theorem Part.counted_denied : (p.counted 2).rd MGT_STAT_DENY = (p.rd MGT_STAT_DENY + 1) % 2 ^ 64 ∧ (p.counted 2).getB MGT_STICKY 3 = true := by
  rw [Part.counted, if_pos rfl]
  refine ⟨?_, Part.getB_putB_same _ _ _ _ (by decide)⟩
  rw [Part.rd_putB_other _ _ _ (by decide), Part.rd_bump_same, Part.rd_bump_other _ _ (by decide)]

theorem Part.respond_counted : p.respond m cmd code data =
    (p.counted code).reply m.via ([BitVec.ofNat 8 cmd, m.tag, BitVec.ofNat 8 code] ++ data) := by
  unfold Part.respond Part.counted
  rfl

/-- A response is sent, and of the rest its counts, the session bits and the time of its connection alone change. -/
theorem Part.respond_eq : p.respond m cmd code data = { p with
    regs := (p.respond m cmd code data).regs
    mgt := { p.mgt with
      out := p.mgt.out ++ [⟨m.via, [BitVec.ofNat 8 cmd, m.tag, BitVec.ofNat 8 code] ++ data⟩]
      smb := if m.via = .smbus then { p.mgt.smb with last := p.cycle } else p.mgt.smb
      cxl := if m.via = .smbus then p.mgt.cxl else { p.mgt.cxl with last := p.cycle } } } := by
  rw [Part.respond_counted, Part.reply, Part.modConn_eq, Part.counted_frame]
  rfl

theorem Part.rd_respond {j : Nat} (h : j ≠ MGT_STAT_CMD ∧ j ≠ MGT_STAT_DENY ∧ j ≠ MGT_STICKY) (hs : j ≠ MGT_STATUS) :
    (p.respond m cmd code data).rd j = p.rd j := by
  rw [Part.respond_counted, Part.reply, Part.rd_modConn _ _ _ hs]
  exact p.rd_counted code h

theorem Part.getB_respond {i : Nat} (h0 : i ≠ 10) (h1 : i ≠ 11) (hi : i < 64) :
    (p.respond m cmd code data).getB MGT_STATUS i = p.getB MGT_STATUS i := by
  rw [Part.respond_counted, Part.reply, Part.getB_modConn _ _ _ h0 h1 hi]
  exact Part.getB_congr i (p.rd_counted code (by decide))

theorem Part.getF_respond {lo w : Nat} (h : lo + w ≤ 10 ∨ 12 ≤ lo) (hw : lo + w ≤ 64) :
    (p.respond m cmd code data).getF MGT_STATUS lo w = p.getF MGT_STATUS lo w := by
  rw [Part.respond_counted, Part.reply, Part.getF_modConn _ _ _ h hw]
  exact Part.getF_congr lo w (p.rd_counted code (by decide))

theorem Part.respond_cmd : (p.respond m cmd code data).rd MGT_STAT_CMD = (p.rd MGT_STAT_CMD + 1) % 2 ^ 64 := by
  rw [Part.respond_counted, Part.reply, Part.rd_modConn _ _ _ (by decide)]
  exact p.counted_cmd code

theorem Part.respond_denied : (p.respond m cmd 2 data).rd MGT_STAT_DENY = (p.rd MGT_STAT_DENY + 1) % 2 ^ 64 ∧
    (p.respond m cmd 2 data).getB MGT_STICKY 3 = true := by
  obtain ⟨h1, h2⟩ := p.counted_denied
  rw [Part.respond_counted, Part.reply, Part.rd_modConn _ _ _ (by decide), Part.getB_congr 3 (Part.rd_modConn _ _ _ (by decide))]
  generalize p.counted 2 = w at h1 h2 ⊢
  exact ⟨h1, h2⟩

end

section
variable {s : State} {m : MgtReq} {cmd : Nat} {ready may : Bool} {f : State → Work}

theorem command_unreached (h : s.p.reaches m.via = false) : s.command m cmd ready may f = .next s := by
  rw [State.command, if_pos (by simp [h])]

theorem command_busy (hr : s.p.reaches m.via = true) (hy : ready = true) (hw : 16 ≤ m.waiting) :
    s.command m cmd ready may f = .next { s with p := s.p.respond m cmd 3 [] } := by
  rw [State.command, if_neg (by simp [hr, hy]), if_pos hw]

theorem command_denied (hr : s.p.reaches m.via = true) (hy : ready = true) (hw : m.waiting < 16) (hm : may = false) :
    s.command m cmd ready may f = .next { s with p := s.p.respond m cmd 2 [] } := by
  rw [State.command, if_neg (by simp [hr, hy]), if_neg (by omega), if_pos (by simp [hm])]

theorem command_works (hr : s.p.reaches m.via = true) (hy : ready = true) (hw : m.waiting < 16) (hm : may = true) {code : Nat}
    {data : List Byte} {t : State} (hf : f s = (code, data, t)) :
    s.command m cmd ready may f = .next { t with p := t.p.respond m cmd code data } := by
  rw [State.command, if_neg (by simp [hr, hy]), if_neg (by omega), if_neg (by simp [hm]), hf]

end

end Sys2Proof.Machine
end

section
/-!
PROOF. Management commands are answered (R465 to R467, R473, R499).
-/
namespace Sys2Proof.Machine

/-- The commands that any requester may send, with their codes. -/
def publicRequests (m : MgtReq) (a : Nat) : List (Instr × Nat) := [(.getInfo m, 1), (.getTelemetry m, 2), (.getErrrec m a, 3), (.getLimits m, 4)]

/-- The commands of the owner, with their codes. -/
def ownerRequests (m : MgtReq) (a b d e : Nat) (x y : Bool) (key : Option (List Byte)) (bs : List Byte) : List (Instr × Nat) :=
  [(.setLimits m a b d e, 0x10), (.setGraftKey m a key, 0x11), (.setPolicy m x y a, 0x12), (.ownerClear m, 0x14), (.fwBegin m a, 0x20),
    (.fwWrite m a bs, 0x21), (.fwVerify m, 0x22), (.fwActivate m, 0x23), (.fwCommitSvn m, 0x24), (.testLoad m bs, 0x30)]

section
variable (s : State) (m : MgtReq) (a b d e : Nat) (x y : Bool) (key : Option (List Byte)) (bs : List Byte)

theorem publicRequests_exec (c : Instr × Nat) (h : c ∈ publicRequests m a) :
    ∃ f, exec c.1 s = s.command m c.2 s.p.answers true f := by
  simp only [publicRequests, List.mem_cons, List.not_mem_nil, or_false] at h
  rcases h with rfl | rfl | rfl | rfl
  · exact ⟨_, show execGetInfo m s = _ by unfold execGetInfo; rfl⟩
  · exact ⟨_, show execGetTelemetry m s = _ by unfold execGetTelemetry; rfl⟩
  · exact ⟨_, show execGetErrrec m a s = _ by unfold execGetErrrec; rfl⟩
  · exact ⟨_, show execGetLimits m s = _ by unfold execGetLimits; rfl⟩

theorem updateCommand_command (cmd : Nat) (f : State → Work) : ∃ ready may, s.updateCommand m cmd f = s.command m cmd ready may f ∧
    (s.p.inRecovery = false → ready = s.p.answers ∧ may = s.fromOwner m) := by
  unfold State.updateCommand
  cases s.p.inRecovery
  · exact ⟨_, _, rfl, fun _ => ⟨rfl, rfl⟩⟩
  · exact ⟨_, _, rfl, fun h => nomatch h⟩

theorem ownerRequests_exec (c : Instr × Nat) (h : c ∈ ownerRequests m a b d e x y key bs) :
    ∃ ready may f, exec c.1 s = s.command m c.2 ready may f ∧ (s.p.inRecovery = false → ready = s.p.answers ∧ may = s.fromOwner m) := by
  have own : ∀ (i : Instr) (cmd : Nat) (f : State → Work), exec i s = s.ownerCommand m cmd f → ∃ ready may f,
      exec i s = s.command m cmd ready may f ∧ (s.p.inRecovery = false → ready = s.p.answers ∧ may = s.fromOwner m) :=
    fun i cmd f h => ⟨_, _, f, h, fun _ => ⟨rfl, rfl⟩⟩
  have upd : ∀ (i : Instr) (cmd : Nat) (f : State → Work), exec i s = s.updateCommand m cmd f → ∃ ready may f,
      exec i s = s.command m cmd ready may f ∧ (s.p.inRecovery = false → ready = s.p.answers ∧ may = s.fromOwner m) := by
    intro i cmd f h
    obtain ⟨ready, may, hu, hm⟩ := updateCommand_command s m cmd f
    exact ⟨ready, may, f, h.trans hu, hm⟩
  simp only [ownerRequests, List.mem_cons, List.not_mem_nil, or_false] at h
  rcases h with rfl | rfl | rfl | rfl | rfl | rfl | rfl | rfl | rfl | rfl
  · exact own _ _ _ (show execSetLimits m a b d e s = _ by unfold execSetLimits; rfl)
  · exact own _ _ _ (show execSetGraftKey m a key s = _ by unfold execSetGraftKey; rfl)
  · exact own _ _ _ (show execSetPolicy m x y a s = _ by unfold execSetPolicy; rfl)
  · exact own _ _ _ (show execOwnerClear m s = _ by unfold execOwnerClear; rfl)
  · exact upd _ _ _ (show execFwBegin m a s = _ by unfold execFwBegin; rfl)
  · exact upd _ _ _ (show execFwWrite m a bs s = _ by unfold execFwWrite; rfl)
  · exact upd _ _ _ (show execFwVerify m s = _ by unfold execFwVerify; rfl)
  · exact upd _ _ _ (show execFwActivate m s = _ by unfold execFwActivate; rfl)
  · exact upd _ _ _ (show execFwCommitSvn m s = _ by unfold execFwCommitSvn; rfl)
  · exact own _ _ _ (show execTestLoad m bs s = _ by unfold execTestLoad; rfl)

/-- What a response without work leaves (R465 to R467). -/
theorem respond_answers {i : Instr} {cmd code : Nat} {data : List Byte} (h : exec i s = .next { s with p := s.p.respond m cmd code data }) :
    ∃ q, Becomes i s q ∧ q = { s.p with regs := q.regs, mgt := q.mgt } ∧
      q.mgt.out = s.p.mgt.out ++ [⟨m.via, [BitVec.ofNat 8 cmd, m.tag, BitVec.ofNat 8 code] ++ data⟩] ∧
      q.rd MGT_STAT_CMD = (s.p.rd MGT_STAT_CMD + 1) % 2 ^ 64 ∧
      (code = 2 → q.rd MGT_STAT_DENY = (s.p.rd MGT_STAT_DENY + 1) % 2 ^ 64 ∧ q.getB MGT_STICKY 3 = true) := by
  refine ⟨_, h, ?_, by rw [Part.respond_eq], s.p.respond_cmd m cmd code data, fun h2 => by subst h2; exact s.p.respond_denied m cmd data⟩
  have hf := s.p.respond_eq m cmd code data
  generalize s.p.respond m cmd code data = q at hf ⊢
  rw [hf]

end

/-- Settles O47: every command is `State.command` of its work, which answers by its first test that holds. -/
theorem managementAnswers : Obligations.ManagementAnswers := by
  intro s m a b d e x y key bs p pub own answer
  have hpub : ∀ c ∈ pub, ∃ f, exec c.1 s = s.command m c.2 s.p.answers true f := publicRequests_exec s m a
  have hown : ∀ c ∈ own, ∃ ready may f, exec c.1 s = s.command m c.2 ready may f ∧
      (s.p.inRecovery = false → ready = s.p.answers ∧ may = s.fromOwner m) := ownerRequests_exec s m a b d e x y key bs
  have all : ∀ c ∈ pub ++ own, ∃ ready may f, exec c.1 s = s.command m c.2 ready may f ∧
      (s.p.inRecovery = false → ready = s.p.answers) := by
    intro c hc
    rcases List.mem_append.1 hc with h | h
    · obtain ⟨f, hf⟩ := hpub c h
      exact ⟨_, _, f, hf, fun _ => rfl⟩
    · obtain ⟨ready, may, f, hf, hr⟩ := hown c h
      exact ⟨ready, may, f, hf, fun hi => (hr hi).1⟩
  refine ⟨fun hr c hc => ?_, fun hr ha hi => ⟨fun hw c hc => ?_, fun hw ho c hc => ?_, fun hw => ?_⟩⟩
  · obtain ⟨ready, may, f, hf, -⟩ := all c hc
    exact hf.trans (command_unreached hr)
  · obtain ⟨ready, may, f, hf, hy⟩ := all c hc
    exact respond_answers s m (hf.trans (command_busy hr ((hy hi).trans ha) hw))
  · obtain ⟨ready, may, f, hf, hy⟩ := hown c hc
    obtain ⟨hy, hm⟩ := hy hi
    exact respond_answers s m (hf.trans (command_denied hr (hy.trans ha) hw (hm.trans ho)))
  · refine ⟨respond_answers s m ?_, respond_answers s m ?_, respond_answers s m ?_, respond_answers s m ?_⟩
    · change execGetInfo m s = _
      unfold execGetInfo
      exact command_works hr ha hw rfl rfl
    · change execGetLimits m s = _
      unfold execGetLimits
      exact command_works hr ha hw rfl rfl
    · change execGetErrrec m a s = _
      unfold execGetErrrec
      exact command_works hr ha hw rfl rfl
    · change execGetTelemetry m s = _
      unfold execGetTelemetry
      exact command_works hr ha hw rfl rfl

end Sys2Proof.Machine
end

section
/-!
PROOF. The owner's commands (R454, R466 to R468, R472, R475, R482, R504, R505).
-/
namespace Sys2Proof.Machine

section
variable (p : Part) (n : Nv)

theorem Part.loaderSees_eq : p.loaderSees = { p with
    regs := p.loaderSees.regs
    mgt := { p.mgt with keys := p.mgt.nextKeys, signedOnly := p.mgt.nextSigned, pol := p.mgt.polNext } } := rfl

/-- The policy's registers, before the controller and the loader see it. -/
def Part.policyRegs : Part :=
  let p := p.each [0, 1, 2, 3] fun p k => p.wr (MGT_GKEY k) (((n.key k).map keyId).getD 0)
  let p := p.putB MGT_STATUS 9 n.owner.isSome
  let valid := ([0, 1, 2, 3].map fun k => b2n (n.key k).isSome * 2 ^ (2 + k)).foldl (· + ·) 0
  p.wr MGT_POLICY (n.linkMinSvn <<< 8 + valid + 2 * b2n n.linkOwnerMatch + b2n n.signedOnly)

theorem Part.policyRegs_frame : p.policyRegs n = { p with regs := (p.policyRegs n).regs } := by
  simp [Part.policyRegs, Part.putB, Part.putF, Part.wr]

theorem Part.rd_policyRegs {j : Nat} (hk : ∀ k, k < 4 → j ≠ MGT_GKEY k) (hs : j ≠ MGT_STATUS) (hp : j ≠ MGT_POLICY) :
    (p.policyRegs n).rd j = p.rd j := by
  unfold Part.policyRegs
  dsimp only
  rw [Part.rd_wr_other _ _ (Ne.symm hp), Part.rd_putB_other _ _ _ (Ne.symm hs)]
  simp only [Part.each_cons, Part.each_nil]
  rw [Part.rd_wr_other _ _ (Ne.symm (hk 3 (by decide))), Part.rd_wr_other _ _ (Ne.symm (hk 2 (by decide))),
    Part.rd_wr_other _ _ (Ne.symm (hk 1 (by decide))), Part.rd_wr_other _ _ (Ne.symm (hk 0 (by decide)))]

theorem Part.rd_policyKey {k : Nat} (hk : k < 4) : (p.policyRegs n).rd (MGT_GKEY k) = ((n.key k).map keyId).getD 0 % 2 ^ 64 := by
  have hs : MGT_STATUS ≠ MGT_GKEY k := by simp only [MGT_STATUS, MGT_GKEY]; omega
  have hp : MGT_POLICY ≠ MGT_GKEY k := by simp only [MGT_POLICY, MGT_GKEY]; omega
  unfold Part.policyRegs
  dsimp only
  rw [Part.rd_wr_other _ _ hp, Part.rd_putB_other _ _ _ hs]
  simp only [Part.each_cons, Part.each_nil, Part.rd_wr, MGT_GKEY]
  obtain rfl | rfl | rfl | rfl : k = 0 ∨ k = 1 ∨ k = 2 ∨ k = 3 := by omega
  all_goals simp

theorem Part.policyRegs_owner : (p.policyRegs n).getB MGT_STATUS 9 = n.owner.isSome := by
  unfold Part.policyRegs
  dsimp only
  rw [Part.getB_congr 9 (Part.rd_wr_other _ _ (by decide)), Part.getB_putB_same _ _ _ _ (by decide)]

/-- The fields of the policy register (R454). -/
theorem Part.policyRegs_policy (hn : n.linkMinSvn ≤ 63) : (p.policyRegs n).getB MGT_POLICY 0 = n.signedOnly ∧
    (p.policyRegs n).getB MGT_POLICY 1 = n.linkOwnerMatch ∧ (p.policyRegs n).getF MGT_POLICY 8 8 = n.linkMinSvn := by
  obtain ⟨v, hv, hlt⟩ : ∃ v, ([0, 1, 2, 3].map fun k => b2n (n.key k).isSome * 2 ^ (2 + k)).foldl (· + ·) 0 = 4 * v ∧ v < 16 := by
    have hb : ∀ b : Bool, b2n b ≤ 1 := by decide
    have h0 := hb (n.key 0).isSome
    have h1 := hb (n.key 1).isSome
    have h2 := hb (n.key 2).isSome
    have h3 := hb (n.key 3).isSome
    refine ⟨b2n (n.key 0).isSome + 2 * b2n (n.key 1).isSome + 4 * b2n (n.key 2).isSome + 8 * b2n (n.key 3).isSome, ?_, by omega⟩
    simp only [List.map_cons, List.map_nil, List.foldl_cons, List.foldl_nil]
    omega
  have hrd : (p.policyRegs n).rd MGT_POLICY = (n.linkMinSvn * 256 + 4 * v + 2 * b2n n.linkOwnerMatch + b2n n.signedOnly) % 2 ^ 64 := by
    unfold Part.policyRegs
    dsimp only
    rw [Part.rd_wr_same, hv, Nat.shiftLeft_eq]
  have hx : b2n n.signedOnly ≤ 1 ∧ b2n n.linkOwnerMatch ≤ 1 := by
    constructor
    · cases n.signedOnly <;> decide
    · cases n.linkOwnerMatch <;> decide
  rw [Nat.mod_eq_of_lt (by omega)] at hrd
  simp only [Part.getB, Part.getF, hrd, bit, fld, Nat.shiftRight_eq_div_pow]
  refine ⟨?_, ?_, by omega⟩
  · rw [show (n.linkMinSvn * 256 + 4 * v + 2 * b2n n.linkOwnerMatch + b2n n.signedOnly) / 2 ^ 0 % 2 = b2n n.signedOnly by omega]
    cases n.signedOnly <;> rfl
  · rw [show (n.linkMinSvn * 256 + 4 * v + 2 * b2n n.linkOwnerMatch + b2n n.signedOnly) / 2 ^ 1 % 2 = b2n n.linkOwnerMatch by omega]
    cases n.linkOwnerMatch <;> rfl

/-- The part when the controller has seen the store, before the loader does. -/
def Part.policySeen : Part :=
  (p.policyRegs n).modMgt fun m => { m with nextKeys := n.keys, nextSigned := n.signedOnly, polNext := n.policyBytes }

theorem Part.policySeen_running : (p.policySeen n).running = p.running := by
  have hrd : (p.policySeen n).rd TIK_STATUS = (p.policyRegs n).rd TIK_STATUS := rfl
  unfold Part.running
  rw [Part.getB_congr 0 hrd, Part.getB_congr 0 (p.rd_policyRegs n (by decide) (by decide) (by decide))]

theorem Part.showPolicy_seen : p.showPolicy n = if p.running then p.policySeen n else (p.policySeen n).loaderSees := by
  rw [← p.policySeen_running n]
  unfold Part.showPolicy Part.policySeen Part.policyRegs
  rfl

/-- The controller's copy of the store, and the loader's while no frames run (R454). -/
theorem Part.showPolicy_eq : p.showPolicy n = { p with
    regs := (p.showPolicy n).regs
    mgt := { p.mgt with
      nextKeys := n.keys, nextSigned := n.signedOnly, polNext := n.policyBytes
      keys := if p.running then p.mgt.keys else n.keys
      signedOnly := if p.running then p.mgt.signedOnly else n.signedOnly
      pol := if p.running then p.mgt.pol else n.policyBytes } } := by
  have hf : p.policySeen n = { p with
      regs := (p.policyRegs n).regs
      mgt := { p.mgt with nextKeys := n.keys, nextSigned := n.signedOnly, polNext := n.policyBytes } } := by
    rw [Part.policySeen, p.policyRegs_frame n]
    rfl
  rw [p.showPolicy_seen n]
  by_cases hr : p.running = true
  · rw [if_pos hr, if_pos hr, if_pos hr, if_pos hr]
    exact hf.trans (by rw [hf])
  · rw [if_neg hr, if_neg hr, if_neg hr, if_neg hr]
    exact (Part.loaderSees_eq _).trans (by rw [hf])

/-- The registers that the store shows itself in are those of the policy, and the loader's bit of the graft status. -/
theorem Part.rd_showPolicy {j : Nat} (h : j ≠ TIK_GRAFT_STATUS) : (p.showPolicy n).rd j = (p.policyRegs n).rd j := by
  rw [p.showPolicy_seen n]
  split
  · rfl
  · exact Part.rd_putB_other _ _ _ (Ne.symm h)

end

/-- A command is answered with a code and no data, and memory and cores are as before. -/
def Part.Said (p q : Part) (m : MgtReq) (cmd code : Nat) : Prop :=
  q.mgt.out = p.mgt.out ++ [⟨m.via, [BitVec.ofNat 8 cmd, m.tag, BitVec.ofNat 8 code]⟩] ∧ q.mem = p.mem ∧ q.cores = p.cores

theorem Part.said_respond {p r : Part} (m : MgtReq) (cmd code : Nat) (ho : r.mgt.out = p.mgt.out) (hm : r.mem = p.mem) (hc : r.cores = p.cores) :
    p.Said (r.respond m cmd code []) m cmd code := by
  rw [Part.respond_eq]
  exact ⟨by rw [← ho]; rfl, hm, hc⟩

section
variable {s : State} {m : MgtReq}

/-- A command that its work refuses changes nothing but the counts of its response. -/
theorem refuses_of {i : Instr} {cmd code : Nat} (h : exec i s = .next { s with p := s.p.respond m cmd code [] }) :
    ∃ q, Becomes i s q ∧ s.p.Said q m cmd code ∧ q = { s.p with regs := q.regs, mgt := q.mgt } ∧
      q.mgt.ownerW = s.p.mgt.ownerW ∧ q.mgt.nextKeys = s.p.mgt.nextKeys ∧ q.mgt.nextSigned = s.p.mgt.nextSigned := by
  refine ⟨_, h, s.p.said_respond m cmd code rfl rfl rfl, ?_⟩
  have hf := s.p.respond_eq m cmd code []
  generalize s.p.respond m cmd code [] = q at hf ⊢
  rw [hf]
  exact ⟨rfl, rfl, rfl, rfl⟩

variable (hr : s.p.reaches m.via = true) (ha : s.p.answers = true) (hw : m.waiting < 16)
include hr ha hw

section
variable (ho : s.fromOwner m = true)
include ho

theorem setLimits_refuses {watts dieC hbmC holdC : Nat} (hl : s.p.limitsOk watts dieC hbmC holdC = false) :
    exec (.setLimits m watts dieC hbmC holdC) s = .next { s with p := s.p.respond m 0x10 1 [] } := by
  change execSetLimits m watts dieC hbmC holdC s = _
  unfold execSetLimits
  exact command_works (t := s) hr ha hw ho (if_pos (by simp [hl]))

theorem setLimits_sets {watts dieC hbmC holdC : Nat} (hl : s.p.limitsOk watts dieC hbmC holdC = true) :
    ∃ q, Becomes (.setLimits m watts dieC hbmC holdC) s q ∧ s.p.Said q m 0x10 0 ∧ q.mgt.ownerW = watts ∧ q.mgt.dieC = dieC ∧
      q.mgt.hbmC = hbmC ∧ q.mgt.holdC = holdC ∧ q.getF MGT_PLIM 0 16 = watts ∧ q.getF MGT_PLIM 16 16 = q.effectiveLimit % 65536 ∧
      q.getF MGT_THERM 8 8 = dieC ∧ q.getF MGT_THERM 16 8 = hbmC ∧ q.getF MGT_THERM 24 8 = holdC := by
  obtain ⟨r, hr'⟩ : ∃ r : Part, r = ((s.p.modMgt fun x => { x with ownerW := watts, dieC := dieC, hbmC := hbmC, holdC := holdC }).wr MGT_THERM
      (holdC <<< 24 + hbmC <<< 16 + dieC <<< 8)).wr MGT_PLIM
      ((s.p.modMgt fun x => { x with ownerW := watts, dieC := dieC, hbmC := hbmC, holdC := holdC }).effectiveLimit <<< 16 + watts) := ⟨_, rfl⟩
  have hx : exec (.setLimits m watts dieC hbmC holdC) s = .next { s with p := r.respond m 0x10 0 [] } := by
    change execSetLimits m watts dieC hbmC holdC s = _
    unfold execSetLimits
    exact command_works (t := { s with p := r }) hr ha hw ho ((if_neg (by simp [hl])).trans (by subst hr'; rfl))
  have hb : watts ≤ 900 ∧ dieC ≤ 110 ∧ hbmC ≤ 100 ∧ holdC ≤ 118 := by
    simp only [Part.limitsOk, Bool.and_eq_true, decide_eq_true_eq] at hl
    omega
  have hmgt : r.mgt = { s.p.mgt with ownerW := watts, dieC := dieC, hbmC := hbmC, holdC := holdC } := by simp [hr']
  have hplim : r.rd MGT_PLIM = (r.effectiveLimit * 65536 + watts) % 2 ^ 64 := by
    rw [hr', Part.rd_wr_same, Nat.shiftLeft_eq]
    rfl
  have htherm : r.rd MGT_THERM = holdC * 16777216 + hbmC * 65536 + dieC * 256 := by
    rw [hr', Part.rd_wr_other _ _ (by decide), Part.rd_wr_same, Nat.shiftLeft_eq, Nat.shiftLeft_eq, Nat.shiftLeft_eq]
    omega
  have hrd := fun j => Part.rd_respond r m 0x10 0 [] (j := j)
  have hsaid := s.p.said_respond (r := r) m 0x10 0 (by rw [hmgt]) (by simp [hr']) (by simp [hr'])
  have hf := r.respond_eq m 0x10 0 []
  generalize r.respond m 0x10 0 [] = q at hx hrd hsaid hf
  have heff : q.effectiveLimit = r.effectiveLimit := by rw [hf]; rfl
  have hp : q.rd MGT_PLIM = r.rd MGT_PLIM := hrd _ (by decide) (by decide)
  have ht : q.rd MGT_THERM = r.rd MGT_THERM := hrd _ (by decide) (by decide)
  have hq : q.mgt.ownerW = watts ∧ q.mgt.dieC = dieC ∧ q.mgt.hbmC = hbmC ∧ q.mgt.holdC = holdC := by rw [hf, hmgt]; simp
  obtain ⟨q1, q2, q3, q4⟩ := hq
  refine ⟨q, hx, hsaid, q1, q2, q3, q4, ?_⟩
  simp only [Part.getF, fld, hp, ht, hplim, htherm, heff, Nat.shiftRight_eq_div_pow]
  omega

end

end

/-- What the store shows of itself in the part (R454, R468, R472, R482). -/
structure Part.Shows (p : Part) (n : Nv) (q : Part) : Prop where
  key : ∀ k, k < 4 → q.rd (MGT_GKEY k) = ((n.key k).map keyId).getD 0 % 2 ^ 64
  owner : q.getB MGT_STATUS 9 = n.owner.isSome
  policy : q.rd MGT_POLICY = (p.policyRegs n).rd MGT_POLICY
  nextKeys : q.mgt.nextKeys = n.keys
  nextSigned : q.mgt.nextSigned = n.signedOnly
  keys : q.mgt.keys = if p.running then p.mgt.keys else n.keys
  signedOnly : q.mgt.signedOnly = if p.running then p.mgt.signedOnly else n.signedOnly

theorem gkey_ne {k : Nat} (hk : k < 4) : MGT_GKEY k ≠ TIK_GRAFT_STATUS ∧ MGT_GKEY k ≠ MGT_STATUS ∧
    MGT_GKEY k ≠ MGT_STAT_CMD ∧ MGT_GKEY k ≠ MGT_STAT_DENY ∧ MGT_GKEY k ≠ MGT_STICKY := by
  simp only [MGT_GKEY, TIK_GRAFT_STATUS, MGT_STATUS, MGT_STAT_CMD, MGT_STAT_DENY, MGT_STICKY]
  omega

theorem Part.showPolicy_shows (p : Part) (n : Nv) : p.Shows n (p.showPolicy n) := by
  have hm : (p.showPolicy n).mgt = _ := congrArg Part.mgt (p.showPolicy_eq n)
  refine ⟨fun k hk => ?_, ?_, ?_, by rw [hm], by rw [hm], by rw [hm], by rw [hm]⟩
  · rw [p.rd_showPolicy n (gkey_ne hk).1, p.rd_policyKey n hk]
  · rw [Part.getB_congr 9 (p.rd_showPolicy n (by decide)), p.policyRegs_owner n]
  · exact p.rd_showPolicy n (by decide)

theorem Part.Shows.respond {p r : Part} {n : Nv} (h : p.Shows n r) (m : MgtReq) (cmd code : Nat) (data : List Byte) :
    p.Shows n (r.respond m cmd code data) := by
  have hm : (r.respond m cmd code data).mgt = _ := congrArg Part.mgt (r.respond_eq m cmd code data)
  refine ⟨fun k hk => ?_, ?_, ?_, by rw [hm, ← h.nextKeys], by rw [hm, ← h.nextSigned], by rw [hm, ← h.keys], by rw [hm, ← h.signedOnly]⟩
  · obtain ⟨-, h1, h2⟩ := gkey_ne hk
    rw [Part.rd_respond _ _ _ _ _ h2 h1, h.key k hk]
  · rw [Part.getB_respond _ _ _ _ _ (by decide) (by decide) (by decide), h.owner]
  · rw [Part.rd_respond _ _ _ _ _ (by decide) (by decide), h.policy]

theorem Part.Shows.modConn {p r : Part} {n : Nv} (h : p.Shows n r) (via : Transport) (f : Spdm → Spdm) : p.Shows n (r.modConn via f) := by
  have hm : (r.modConn via f).mgt = _ := congrArg Part.mgt (r.modConn_eq via f)
  refine ⟨fun k hk => ?_, ?_, ?_, by rw [hm, ← h.nextKeys], by rw [hm, ← h.nextSigned], by rw [hm, ← h.keys], by rw [hm, ← h.signedOnly]⟩
  · rw [Part.rd_modConn _ _ _ (gkey_ne hk).2.1, h.key k hk]
  · rw [Part.getB_modConn _ _ _ (by decide) (by decide) (by decide), h.owner]
  · rw [Part.rd_modConn _ _ _ (by decide), h.policy]

theorem Part.Shows.ownerGone {p r : Part} {n : Nv} (h : p.Shows n r) : p.Shows n r.ownerGone := (h.modConn _ _).modConn _ _

/-- A change of owner ends the owner principal of both sessions (log 99), and changes no more but the session bits. -/
theorem Part.ownerGone_eq (p : Part) : p.ownerGone = { p with
    regs := p.ownerGone.regs
    mgt := { p.mgt with smb := { p.mgt.smb with mutAuth := false }, cxl := { p.mgt.cxl with mutAuth := false } } } := by
  unfold Part.ownerGone
  have h1 := p.modConn_eq .smbus fun c => { c with mutAuth := false }
  generalize p.modConn .smbus (fun c => { c with mutAuth := false }) = q at h1 ⊢
  have h2 := q.modConn_eq .cxl fun c => { c with mutAuth := false }
  generalize q.modConn .cxl (fun c => { c with mutAuth := false }) = r at h2 ⊢
  rw [h2, h1]
  rfl

/-- The part when the store has changed and the command that did it is answered. -/
theorem Part.said_showPolicy (p : Part) (n : Nv) (m : MgtReq) (cmd : Nat) : p.Said ((p.showPolicy n).respond m cmd 0 []) m cmd 0 :=
  p.said_respond m cmd 0 (by rw [p.showPolicy_eq n]) (by simp) (by simp)

theorem Part.said_ownerGone (p : Part) (n : Nv) (m : MgtReq) (cmd : Nat) : p.Said ((p.showPolicy n).ownerGone.respond m cmd 0 []) m cmd 0 :=
  p.said_respond m cmd 0 (by rw [Part.ownerGone_eq, p.showPolicy_eq n]) (by simp) (by simp)

theorem Part.ownerGone_unauthenticated (p : Part) (m : MgtReq) (cmd : Nat) :
    (p.ownerGone.respond m cmd 0 []).mgt.smb.mutAuth = false ∧ (p.ownerGone.respond m cmd 0 []).mgt.cxl.mutAuth = false := by
  rw [Part.respond_eq, Part.ownerGone_eq]
  constructor
  · dsimp only
    split <;> rfl
  · dsimp only
    split <;> rfl

theorem Nv.key_setKey (n : Nv) {slot : Nat} (hs : slot ≤ 3) (k : Option PubKey) (i : Nat) :
    (n.setKey slot k).key i = if i = slot then k else n.key i := by
  obtain rfl | rfl | rfl | rfl : slot = 0 ∨ slot = 1 ∨ slot = 2 ∨ slot = 3 := by omega
  all_goals
    match i with
    | 0 | 1 | 2 | 3 => rfl
    | i + 4 => rw [if_neg (by omega)]; rfl

section
variable {s : State} {m : MgtReq} (hr : s.p.reaches m.via = true) (ha : s.p.answers = true) (hw : m.waiting < 16)
include hr ha hw

section
variable (ho : s.fromOwner m = true)
include ho

theorem setGraftKey_slot {slot : Nat} (key : Option (List Byte)) (hs : 3 < slot) :
    exec (.setGraftKey m slot key) s = .next { s with p := s.p.respond m 0x11 1 [] } := by
  change execSetGraftKey m slot key s = _
  unfold execSetGraftKey
  exact command_works (t := s) hr ha hw ho (if_pos hs)

theorem setGraftKey_noKey {slot : Nat} {bs : List Byte} (hs : slot ≤ 3) (hk : pubKeyOf bs = none) :
    exec (.setGraftKey m slot (some bs)) s = .next { s with p := s.p.respond m 0x11 1 [] } := by
  change execSetGraftKey m slot (some bs) s = _
  unfold execSetGraftKey
  refine command_works (t := s) hr ha hw ho ((if_neg (by omega)).trans ?_)
  simp only [hk]
  rfl

theorem setGraftKey_sets {slot : Nat} {key : Option (List Byte)} {k : Option PubKey} (hs : slot ≤ 3)
    (hk : key = none ∧ k = none ∨ ∃ bs j, key = some bs ∧ pubKeyOf bs = some j ∧ k = some j) :
    exec (.setGraftKey m slot key) s =
      .next { s with nv := s.nv.setKey slot k, p := (s.p.showPolicy (s.nv.setKey slot k)).respond m 0x11 0 [] } := by
  change execSetGraftKey m slot key s = _
  unfold execSetGraftKey
  refine command_works (t := s.setPolicyTo (s.nv.setKey slot k)) hr ha hw ho ((if_neg (by omega)).trans ?_)
  obtain ⟨rfl, rfl⟩ | ⟨bs, j, rfl, hj, rfl⟩ := hk
  · rfl
  · simp only [hj]

theorem setPolicy_refuses (x y : Bool) {svn : Nat} (hs : 63 < svn) :
    exec (.setPolicy m x y svn) s = .next { s with p := s.p.respond m 0x12 1 [] } := by
  change execSetPolicy m x y svn s = _
  unfold execSetPolicy
  exact command_works (t := s) hr ha hw ho (if_pos hs)

theorem setPolicy_sets (x y : Bool) {svn : Nat} (hs : svn ≤ 63) : exec (.setPolicy m x y svn) s =
    .next { s with
      nv := { s.nv with signedOnly := x, linkOwnerMatch := y, linkMinSvn := svn }
      p := (s.p.showPolicy { s.nv with signedOnly := x, linkOwnerMatch := y, linkMinSvn := svn }).respond m 0x12 0 [] } := by
  change execSetPolicy m x y svn s = _
  unfold execSetPolicy
  exact command_works (t := s.setPolicyTo _) hr ha hw ho (if_neg (by omega))

theorem ownerClear_clears : exec (.ownerClear m) s =
    .next { s with nv := s.nv.noOwner, p := (s.p.showPolicy s.nv.noOwner).ownerGone.respond m 0x14 0 [] } := by
  change execOwnerClear m s = _
  unfold execOwnerClear
  exact command_works (t := { s.setPolicyTo s.nv.noOwner with p := (s.p.showPolicy s.nv.noOwner).ownerGone }) hr ha hw ho rfl

theorem testLoad_loads {bs : List Byte} {c : Container} (hl : bs.length ≤ 2 ^ 20) (hc : readContainer bs = .ok c) (hk : s.packageOk c = true) :
    exec (.testLoad m bs) s = .next { s with p := (s.p.loadPackage bs c).respond m 0x30 0 [] } := by
  change execTestLoad m bs s = _
  unfold execTestLoad
  refine command_works (t := { s with p := s.p.loadPackage bs c }) hr ha hw ho ?_
  dsimp only
  rw [if_neg (by omega), hc]
  exact if_pos hk

theorem testLoad_refuses {bs : List Byte} (hl : 2 ^ 20 < bs.length) :
    exec (.testLoad m bs) s = .next { s with p := (s.p.stick OBS_STICKY 4).respond m 0x30 4 [] } := by
  change execTestLoad m bs s = _
  unfold execTestLoad
  exact command_works (t := { s with p := s.p.stick OBS_STICKY 4 }) hr ha hw ho (if_pos hl)

end

/-- A first owner over SMBus outside a session, or the owner, may set the owner (R468, log 100). -/
theorem ownerSet_sets (digest : BitVec 256) (h : (s.nv.owner = none ∧ m.via = .smbus ∧ m.inSession = false) ∨ s.fromOwner m = true) :
    exec (.ownerSet m digest) s = .next { s with
      nv := { s.nv with owner := some digest }
      p := (if s.nv.owner = some digest then s.p.showPolicy { s.nv with owner := some digest }
        else (s.p.showPolicy { s.nv with owner := some digest }).ownerGone).respond m 0x13 0 [] } := by
  have hmay : (if s.nv.owner.isNone then m.via == .smbus && !m.inSession else s.fromOwner m) = true := by
    rcases h with ⟨h1, h2, h3⟩ | h
    · simp [h1, h2, h3]
    · have hs : s.nv.owner.isSome = true := (Bool.and_eq_true_iff.mp h).1
      rw [if_neg (by simpa [Option.isNone_iff_eq_none, ← Option.isSome_iff_ne_none] using hs)]
      exact h
  change execOwnerSet m digest s = _
  unfold execOwnerSet
  exact command_works (t := { s with
    nv := { s.nv with owner := some digest }
    p := if s.nv.owner = some digest then s.p.showPolicy { s.nv with owner := some digest }
      else (s.p.showPolicy { s.nv with owner := some digest }).ownerGone }) hr ha hw hmay rfl

theorem ownerSet_denied (digest : BitVec 256) (hn : s.nv.owner = none) (h : m.via ≠ .smbus ∨ m.inSession = true) :
    exec (.ownerSet m digest) s = .next { s with p := s.p.respond m 0x13 2 [] } := by
  have hmay : (if s.nv.owner.isNone then m.via == .smbus && !m.inSession else s.fromOwner m) = false := by
    rw [hn]
    rcases h with h | h <;> simp [h]
  change execOwnerSet m digest s = _
  unfold execOwnerSet
  exact command_denied hr ha hw hmay

end

/-- Settles O48: what each command's work leaves, shown in the registers and answered. -/
theorem ownerCommands : Obligations.OwnerCommands := by
  intro s m p said refuses hr ha hw
  refine ⟨fun ho => ⟨fun watts dieC hbmC holdC hl => ?_, fun watts dieC hbmC holdC hl => setLimits_sets hr ha hw ho hl, fun slot key hs => ?_,
    fun slot bs hs hk => ?_, fun slot key k hs hk => ?_, fun x y svn hs => ?_, fun x y svn hs => ?_, ?_, fun bs c hl hc hk => ?_,
    fun bs hl => ?_⟩, fun digest h => ?_, fun digest hn h => ?_⟩
  · exact refuses_of (setLimits_refuses hr ha hw ho hl)
  · exact refuses_of (setGraftKey_slot hr ha hw ho key hs)
  · exact refuses_of (setGraftKey_noKey hr ha hw ho hs hk)
  · have hshow := (p.showPolicy_shows (s.nv.setKey slot k)).respond m 0x11 0 []
    refine ⟨_, setGraftKey_sets hr ha hw ho hs hk, p.said_showPolicy _ m 0x11, by rw [Nv.key_setKey _ hs, if_pos rfl],
      fun i hi => by rw [Nv.key_setKey _ hs, if_neg hi], ?_, hshow.nextKeys, fun hrun => ?_, fun hrun => ?_⟩
    · rw [hshow.key slot (by omega), Nv.key_setKey _ hs, if_pos rfl]
    · rw [hshow.keys, hshow.nextKeys, hrun]
      rfl
    · rw [hshow.keys, hrun]
      rfl
  · exact refuses_of (setPolicy_refuses hr ha hw ho x y hs)
  · have hshow := (p.showPolicy_shows { s.nv with signedOnly := x, linkOwnerMatch := y, linkMinSvn := svn }).respond m 0x12 0 []
    obtain ⟨h0, h1, h8⟩ := p.policyRegs_policy { s.nv with signedOnly := x, linkOwnerMatch := y, linkMinSvn := svn } hs
    refine ⟨_, setPolicy_sets hr ha hw ho x y hs, p.said_showPolicy _ m 0x12, (Part.getB_congr 0 hshow.policy).trans h0,
      (Part.getB_congr 1 hshow.policy).trans h1, (Part.getF_congr 8 8 hshow.policy).trans h8, hshow.nextSigned, fun hrun => ?_, fun hrun => ?_⟩
    · rw [hshow.signedOnly, hrun]
      rfl
    · rw [hshow.signedOnly, hrun]
      rfl
  · have hshow := (p.showPolicy_shows s.nv.noOwner).ownerGone.respond m 0x14 0 []
    obtain ⟨h1, h2⟩ := (p.showPolicy s.nv.noOwner).ownerGone_unauthenticated m 0x14
    refine ⟨_, ownerClear_clears hr ha hw ho, p.said_ownerGone _ m 0x14, hshow.owner, h1, h2, fun k hk => ?_⟩
    rw [hshow.key k hk]
    obtain rfl | rfl | rfl | rfl : k = 0 ∨ k = 1 ∨ k = 2 ∨ k = 3 := by omega
    all_goals rfl
  · refine ⟨_, testLoad_loads hr ha hw ho hl hc hk, p.said_respond m 0x30 0 rfl rfl rfl, ?_, ?_⟩
    · rw [Part.respond_eq]
      rfl
    · rw [Part.respond_eq]
      rfl
  · refine ⟨_, testLoad_refuses hr ha hw ho hl, p.said_respond m 0x30 4 (by simp [p]) (by simp [p]) (by simp [p]), ?_, ?_⟩
    · rw [Part.respond_eq]
      simp [p]
    · rw [Part.getB_congr 4 (Part.rd_respond _ _ _ _ _ (by decide) (by decide))]
      exact Part.getB_stick_same _ _ (by decide)
  · refine ⟨_, ownerSet_sets hr ha hw digest h, ?_⟩
    by_cases hd : s.nv.owner = some digest
    · rw [if_pos hd]
      exact ⟨p.said_showPolicy _ m 0x13, ((p.showPolicy_shows _).respond m 0x13 0 []).owner, fun h => absurd hd h⟩
    · rw [if_neg hd]
      exact ⟨p.said_ownerGone _ m 0x13, ((p.showPolicy_shows _).ownerGone.respond m 0x13 0 []).owner,
        fun _ => Part.ownerGone_unauthenticated _ m 0x13⟩
  · exact refuses_of (ownerSet_denied hr ha hw digest hn h)

end Sys2Proof.Machine
end

section
/-!
PROOF. Firmware update (R456, R458, R460).
-/
namespace Sys2Proof.Machine

section
variable {s : State} {m : MgtReq} (hr : s.p.reaches m.via = true) (ha : s.p.answers = true) (hw : m.waiting < 16)
  (ho : s.fromOwner m = true) (hi : s.p.inRecovery = false)
include hr ha hw ho hi

/-- Outside recovery an update command is the owner's (log 98). -/
theorem update_works {cmd code : Nat} {data : List Byte} {f : State → Work} {t : State} (hf : f s = (code, data, t)) :
    s.updateCommand m cmd f = .next { t with p := t.p.respond m cmd code data } := by
  rw [State.updateCommand, hi, if_neg (by decide)]
  exact command_works hr ha hw ho hf

omit hr ha hw ho in
theorem putUpd_slot (bs : List Byte) (u : Bool) : s.putUpd bs u = { s with nv := s.nv.setSlot s.p.spareSlot ⟨bs, u⟩ } := by
  rw [State.putUpd, hi, if_neg (by decide)]

omit hr ha hw ho in
theorem updBytes_slot : s.updBytes = (s.nv.slot s.p.spareSlot).bytes := by
  rw [State.updBytes, hi, if_neg (by decide)]

/-- An update command that its work refuses is answered with the code. -/
theorem update_refuses {i : Instr} {cmd code : Nat} {f : State → Work} (he : exec i s = s.updateCommand m cmd f) (hf : f s = s.only code) :
    ∃ q, Becomes i s q ∧ s.p.Said q m cmd code :=
  ⟨_, he.trans (update_works (t := s) hr ha hw ho hi hf), s.p.said_respond m cmd code rfl rfl rfl⟩

theorem fwBegin_begins {length : Nat} (h64 : length % 64 = 0) (hmin : 320 ≤ length) (hmax : length ≤ 3 * 2 ^ 20) :
    ∃ q, exec (.fwBegin m length) s = .next { s with nv := s.nv.setSlot s.p.spareSlot ⟨[], false⟩, p := q } ∧ s.p.Said q m 0x20 0 ∧
      q.mgt.updLen = some length ∧ q.mgt.updAt = 0 ∧ q.mgt.updOk = false := by
  have hx : exec (.fwBegin m length) s = .next { s with
      nv := s.nv.setSlot s.p.spareSlot ⟨[], false⟩
      p := (s.p.modMgt fun x => { x with updLen := some length, updAt := 0, updOk := false }).respond m 0x20 0 [] } := by
    change execFwBegin m length s = _
    unfold execFwBegin
    refine update_works (t := { s with
      nv := s.nv.setSlot s.p.spareSlot ⟨[], false⟩
      p := s.p.modMgt fun x => { x with updLen := some length, updAt := 0, updOk := false } }) hr ha hw ho hi ?_
    dsimp only
    rw [if_neg (by omega), putUpd_slot hi]
  refine ⟨_, hx, s.p.said_respond m 0x20 0 rfl rfl rfl, ?_⟩
  rw [Part.respond_eq]
  exact ⟨rfl, rfl, rfl⟩

theorem fwWrite_writes {offset n : Nat} {chunk : List Byte} (hn : s.p.mgt.updLen = some n) (hc : chunk ≠ []) (hl : chunk.length ≤ 1024)
    (hat : s.p.mgt.updAt ≤ offset) (hend : offset + chunk.length ≤ n) :
    ∃ q fill, fill.length = offset - s.p.mgt.updAt ∧
      exec (.fwWrite m offset chunk) s =
        .next { s with nv := s.nv.setSlot s.p.spareSlot ⟨(s.nv.slot s.p.spareSlot).bytes ++ fill ++ chunk, false⟩, p := q } ∧
      s.p.Said q m 0x21 0 ∧ q.mgt.updAt = offset + chunk.length ∧ q.mgt.updOk = false := by
  obtain ⟨r, hr'⟩ : ∃ r : Part, r = if offset - s.p.mgt.updAt = 0 then s.p else s.p.fresh.2 := ⟨_, rfl⟩
  obtain ⟨fill, hf⟩ : ∃ fill, fill = if offset - s.p.mgt.updAt = 0 then []
    else fitBytes (offset - s.p.mgt.updAt) (Config.freeBytes s.p.fresh.1 (offset - s.p.mgt.updAt)) := ⟨_, rfl⟩
  have hfill : fill.length = offset - s.p.mgt.updAt := by
    rw [hf]
    split
    · next h => rw [h]; rfl
    · exact length_fitBytes _ _
  have hrs : r.inRecovery = s.p.inRecovery ∧ r.spareSlot = s.p.spareSlot ∧ r.mgt = s.p.mgt ∧ r.mem = s.p.mem ∧ r.cores = s.p.cores := by
    rw [hr']
    split <;> exact ⟨rfl, rfl, rfl, rfl, rfl⟩
  obtain ⟨h1, h2, h3, h4, h5⟩ := hrs
  have hx : exec (.fwWrite m offset chunk) s = .next { s with
      nv := s.nv.setSlot s.p.spareSlot ⟨(s.nv.slot s.p.spareSlot).bytes ++ fill ++ chunk, false⟩
      p := (r.modMgt fun x => { x with updAt := offset + chunk.length, updOk := false }).respond m 0x21 0 [] } := by
    change execFwWrite m offset chunk s = _
    unfold execFwWrite
    refine update_works (t := { s with
      nv := s.nv.setSlot s.p.spareSlot ⟨(s.nv.slot s.p.spareSlot).bytes ++ fill ++ chunk, false⟩
      p := r.modMgt fun x => { x with updAt := offset + chunk.length, updOk := false } }) hr ha hw ho hi ?_
    have hgo : ¬(chunk.isEmpty = true ∨ chunk.length > 1024 ∨ offset < s.p.mgt.updAt ∨ offset + chunk.length > n) := by
      rw [List.isEmpty_iff]
      rintro (h | h | h | h)
      · exact hc h
      · omega
      · omega
      · omega
    simp only [hn, if_neg hgo, ← hr', ← hf]
    rw [putUpd_slot (s := { s with p := r }) (h1.trans hi), updBytes_slot (s := { s with p := r }) (h1.trans hi)]
    simp only [h2]
  refine ⟨_, fill, hfill, hx, s.p.said_respond m 0x21 0 (by simp [h3]) h4 h5, ?_⟩
  rw [Part.respond_eq]
  exact ⟨rfl, rfl⟩

theorem fwVerify_verifies {n : Nat} (hn : s.p.mgt.updLen = some n) (hl : (s.nv.slot s.p.spareSlot).bytes.length = n)
    (hv : s.fuses.imageValid (s.nv.slot s.p.spareSlot).bytes = true) :
    ∃ q, exec (.fwVerify m) s = .next { s with nv := s.nv.setSlot s.p.spareSlot ⟨(s.nv.slot s.p.spareSlot).bytes, true⟩, p := q } ∧
      s.p.Said q m 0x22 0 ∧ q.mgt.updOk = true := by
  have hx : exec (.fwVerify m) s = .next { s with
      nv := s.nv.setSlot s.p.spareSlot ⟨(s.nv.slot s.p.spareSlot).bytes, true⟩
      p := (s.p.modMgt fun x => { x with updOk := true }).respond m 0x22 0 [] } := by
    change execFwVerify m s = _
    unfold execFwVerify
    refine update_works (t := { s with
      nv := s.nv.setSlot s.p.spareSlot ⟨(s.nv.slot s.p.spareSlot).bytes, true⟩
      p := s.p.modMgt fun x => { x with updOk := true } }) hr ha hw ho hi ?_
    have himg : s.updImage = some (s.nv.slot s.p.spareSlot).bytes := by
      simp [State.updImage, hn, updBytes_slot hi, hl]
    simp only [hn, himg, hv, hi, if_true, Option.isNone_some, Bool.false_eq_true, if_false]
    rw [putUpd_slot hi]
  refine ⟨_, hx, s.p.said_respond m 0x22 0 rfl rfl rfl, ?_⟩
  rw [Part.respond_eq]
  rfl

/-- An update of the wrong length or an image that is not valid is refused with code 4 (R460). -/
theorem fwVerify_refuses {n : Nat} (hn : s.p.mgt.updLen = some n)
    (h : (s.nv.slot s.p.spareSlot).bytes.length ≠ n ∨ s.fuses.imageValid (s.nv.slot s.p.spareSlot).bytes = false) :
    ∃ q, Becomes (.fwVerify m) s q ∧ s.p.Said q m 0x22 4 := by
  have hx : ∃ r : Part, exec (.fwVerify m) s = .next { s with p := r.respond m 0x22 4 [] } ∧ r.mgt = s.p.mgt ∧ r.mem = s.p.mem ∧
      r.cores = s.p.cores := by
    have he : exec (.fwVerify m) s = execFwVerify m s := rfl
    rw [he]
    unfold execFwVerify
    by_cases hl : (s.nv.slot s.p.spareSlot).bytes.length = n
    · have himg : s.updImage = some (s.nv.slot s.p.spareSlot).bytes := by
        simp [State.updImage, hn, updBytes_slot hi, hl]
      have hv := h.resolve_left (not_not.2 hl)
      by_cases hform : (imageForm (s.nv.slot s.p.spareSlot).bytes && decide (imageSvn (s.nv.slot s.p.spareSlot).bytes < s.fuses.svnMin)) = true
      · refine ⟨s.p.putB MGT_STICKY 2 true, update_works (t := { s with p := s.p.putB MGT_STICKY 2 true }) hr ha hw ho hi ?_, by simp, by simp,
          by simp⟩
        simp only [hn, himg, hv, Option.isNone_some, Bool.false_eq_true, if_false]
        rw [if_pos (by simpa using hform)]
      · refine ⟨s.p, update_works (t := s) hr ha hw ho hi ?_, rfl, rfl, rfl⟩
        simp only [hn, himg, hv, Option.isNone_some, Bool.false_eq_true, if_false]
        rw [if_neg (by simpa using hform)]
        rfl
    · have himg : s.updImage = none := by
        simp [State.updImage, hn, updBytes_slot hi, hl]
      refine ⟨s.p, update_works (t := s) hr ha hw ho hi ?_, rfl, rfl, rfl⟩
      simp only [hn, himg, Option.isNone_some, Bool.false_eq_true, if_false]
      rfl
  obtain ⟨r, hx, h1, h2, h3⟩ := hx
  exact ⟨_, hx, s.p.said_respond m 0x22 4 (by rw [h1]) h2 h3⟩

theorem fwActivate_activates (hk : s.p.mgt.updOk = true) :
    ∃ q, exec (.fwActivate m) s = .next { s with nv := { s.nv with preferred := s.p.spareSlot, trial := true, trialBoots := 0 }, p := q } ∧
      s.p.Said q m 0x23 0 ∧ q.mgt.updLen = none ∧ q.mgt.updOk = false := by
  have hx : exec (.fwActivate m) s = .next { s with
      nv := { s.nv with preferred := s.p.spareSlot, trial := true, trialBoots := 0 }
      p := (s.p.modMgt fun x => { x with updLen := none, updOk := false }).respond m 0x23 0 [] } := by
    change execFwActivate m s = _
    unfold execFwActivate
    exact update_works (t := { s with
      nv := { s.nv with preferred := s.p.spareSlot, trial := true, trialBoots := 0 }
      p := s.p.modMgt fun x => { x with updLen := none, updOk := false } }) hr ha hw ho hi (if_neg (by simp [hk]))
  refine ⟨_, hx, s.p.said_respond m 0x23 0 rfl rfl rfl, ?_⟩
  rw [Part.respond_eq]
  exact ⟨rfl, rfl⟩

theorem fwCommitSvn_raises {fw : Firmware} (hf : s.p.mgt.fw = some fw) (ht : s.p.mgt.afterTrial = true) :
    ∃ q, exec (.fwCommitSvn m) s =
        .next { s with fuses := { s.fuses with svnBits := s.fuses.svnBits ||| BitVec.ofNat 64 (2 ^ fw.svn - 1) }, p := q } ∧
      s.p.Said q m 0x24 0 ∧ q.rd MGT_FW = fwReg (s.fuses.burnSvn fw.svn) fw % 2 ^ 64 := by
  have hx : exec (.fwCommitSvn m) s = .next { s with
      fuses := s.fuses.burnSvn fw.svn
      p := (s.p.wr MGT_FW (fwReg (s.fuses.burnSvn fw.svn) fw)).respond m 0x24 0 [] } := by
    change execFwCommitSvn m s = _
    unfold execFwCommitSvn
    refine update_works (t := { s with
      fuses := s.fuses.burnSvn fw.svn, p := s.p.wr MGT_FW (fwReg (s.fuses.burnSvn fw.svn) fw) }) hr ha hw ho hi ?_
    simp only [hf, ht, Bool.not_true, Bool.false_eq_true, if_false]
  refine ⟨_, hx, s.p.said_respond m 0x24 0 rfl rfl rfl, ?_⟩
  rw [Part.rd_respond _ _ _ _ _ (by decide) (by decide), Part.rd_wr_same]

end

section
variable {s : State} {m : MgtReq} (hr : s.p.reaches m.via = true) (hw : m.waiting < 16)

theorem Part.getF_showPolicy (p : Part) (n : Nv) {lo w : Nat} (h : 10 ≤ lo) (hw : lo + w ≤ 64) :
    (p.showPolicy n).getF MGT_STATUS lo w = p.getF MGT_STATUS lo w := by
  rw [Part.getF_congr lo w (p.rd_showPolicy n (by decide))]
  unfold Part.policyRegs
  dsimp only
  rw [Part.getF_congr lo w (Part.rd_wr_other _ _ (by decide))]
  refine (Part.getF_putF_field _ _ _ _ _ _ _ (by omega) hw).trans (Part.getF_congr lo w ?_)
  simp only [Part.each_cons, Part.each_nil]
  rw [Part.rd_wr_other _ _ (by decide), Part.rd_wr_other _ _ (by decide), Part.rd_wr_other _ _ (by decide), Part.rd_wr_other _ _ (by decide)]

theorem Part.rd_modMgt (p : Part) (f : Mgt → Mgt) (o : Nat) : (p.modMgt f).rd o = p.rd o := rfl

/-- The registers that firmware writes as it starts leave the mode at normal. -/
theorem Part.getF_fwStarts (p : Part) (b t : Bool) (x y : Nat) (f : Mgt → Mgt) :
    ((((((p.putF MGT_STATUS 12 4 3).putB MGT_STATUS 0 b).putB MGT_STATUS 8 t).wr MGT_FW x).wr MGT_SERIAL y).modMgt f).getF MGT_STATUS 12 4
      = 3 := by
  rw [Part.getF_congr (p := ((p.putF MGT_STATUS 12 4 3).putB MGT_STATUS 0 b).putB MGT_STATUS 8 t), Part.putB, Part.putB,
    Part.getF_putF_field _ _ _ _ _ _ _ (by decide) (by decide), Part.getF_putF_field _ _ _ _ _ _ _ (by decide) (by decide),
    Part.getF_putF_same _ _ _ _ _ (by decide)]
  · rfl
  rw [Part.rd_modMgt, Part.rd_wr_other _ _ (by decide), Part.rd_wr_other _ _ (by decide)]

/-- Firmware that starts runs, with its identity (R458). -/
theorem startFw_runs (s : State) (n : Nv) (b : Bool) (bs : List Byte) :
    (s.startFw n b bs).p.getF MGT_STATUS 12 4 = 3 ∧ (s.startFw n b bs).p.mgt.fw = some (imageFw bs) := by
  constructor
  · exact (Part.getF_showPolicy _ n (by decide) (by decide)).trans (s.p.getF_fwStarts ..)
  · rw [State.startFw, Part.showPolicy_eq]
    rfl

include hr hw

/-- In recovery a valid image that came over SMBus starts from slot A (R458, log 98). -/
theorem fwVerify_recovers (hi : s.p.inRecovery = true) (hv : m.via = .smbus) {n : Nat} (hn : s.p.mgt.updLen = some n)
    (hl : s.p.mgt.sram.length = n) (hok : s.fuses.imageValid s.p.mgt.sram = true) :
    ∃ q, exec (.fwVerify m) s = .next { s with nv := { s.nv with slotA := ⟨s.p.mgt.sram, true⟩, preferred := false }, p := q } ∧
      q.getF MGT_STATUS 12 4 = 3 ∧ q.mgt.fw = some (imageFw s.p.mgt.sram) := by
  have himg : s.updImage = some s.p.mgt.sram := by
    simp [State.updImage, hn, State.updBytes, hi, hl]
  have hx : exec (.fwVerify m) s = .next { s.recoverWith s.p.mgt.sram with p := (s.recoverWith s.p.mgt.sram).p.respond m 0x22 0 [] } := by
    change execFwVerify m s = _
    unfold execFwVerify
    rw [State.updateCommand, hi, if_pos rfl]
    refine command_works (t := s.recoverWith s.p.mgt.sram) hr (by rw [hv]; rfl) hw rfl ?_
    simp only [hn, himg, hok, hi, if_true, Option.isNone_some, Bool.false_eq_true, if_false]
  obtain ⟨hmode, hfw⟩ := startFw_runs s { s.nv with slotA := ⟨s.p.mgt.sram, true⟩, preferred := false } false s.p.mgt.sram
  refine ⟨_, hx, ?_, ?_⟩
  · rw [Part.getF_respond _ _ _ _ _ (by decide) (by decide)]
    exact hmode
  · rw [Part.respond_eq]
    exact hfw

end

/-- Settles O49: the work of each update command, outside recovery on the slot that is not running. -/
theorem firmwareUpdate : Obligations.FirmwareUpdate := by
  intro s m p b old said refuses hr hw
  refine ⟨fun ha ho hi => ⟨fun length h => ?_, fun length => fwBegin_begins hr ha hw ho hi, fun offset chunk h => ?_,
    fun offset chunk n hn => ⟨fun h => ?_, fwWrite_writes hr ha hw ho hi hn⟩, fun h => ?_,
    fun n hn h => fwVerify_refuses hr ha hw ho hi hn (.inl h), fun n => fwVerify_verifies hr ha hw ho hi,
    fun n hn h => fwVerify_refuses hr ha hw ho hi hn (.inr h), fun h => ?_, fwActivate_activates hr ha hw ho hi, fun h => ?_,
    fun fw => fwCommitSvn_raises hr ha hw ho hi⟩, fun hi hv n => fwVerify_recovers hr hw hi hv⟩
  · exact update_refuses hr ha hw ho hi (by show execFwBegin m length s = _; unfold execFwBegin; rfl) (if_pos h)
  · refine update_refuses hr ha hw ho hi (by show execFwWrite m offset chunk s = _; unfold execFwWrite; rfl) ?_
    have hn : s.p.mgt.updLen = none := h
    simp only [hn]
  · refine update_refuses hr ha hw ho hi (by show execFwWrite m offset chunk s = _; unfold execFwWrite; rfl) ?_
    have hn' : s.p.mgt.updLen = some n := hn
    simp only [hn']
    exact if_pos (h.imp_left List.isEmpty_iff.2)
  · refine update_refuses hr ha hw ho hi (by show execFwVerify m s = _; unfold execFwVerify; rfl) (if_pos ?_)
    have hn : s.p.mgt.updLen = none := h
    rw [hn]
    rfl
  · refine update_refuses hr ha hw ho hi (by show execFwActivate m s = _; unfold execFwActivate; rfl) (if_pos ?_)
    have hk : s.p.mgt.updOk = false := h
    rw [hk]
    rfl
  · refine update_refuses hr ha hw ho hi (by show execFwCommitSvn m s = _; unfold execFwCommitSvn; rfl) ?_
    dsimp only
    split
    · rfl
    · next fw hf =>
      have ht : s.p.mgt.afterTrial = false := h.resolve_left fun h => Option.some_ne_none fw (hf.symm.trans h)
      rw [ht]
      rfl

end Sys2Proof.Machine
end

section
/-!
SUPPORT. What a register, a bit and a field of it read as after a change elsewhere: of another register, of other bits, of no register.
-/
namespace Sys2Proof.Machine

/-- A register, its bits and its fields read the same in two parts. -/
abbrev Part.SameAt (q p : Part) (j : Nat) : Prop := q.rd j = p.rd j ∧ (∀ i, q.getB j i = p.getB j i) ∧ ∀ lo w, q.getF j lo w = p.getF j lo w

theorem Part.sameAt_of_rd {p q : Part} {j : Nat} (h : q.rd j = p.rd j) : q.SameAt p j :=
  ⟨h, fun i => Part.getB_congr i h, fun lo w => Part.getF_congr lo w h⟩

section
variable (p : Part) {j : Nat}

@[simp] theorem Part.wr_off (o v : Nat) (h : o ≠ j) : (p.wr o v).SameAt p j := Part.sameAt_of_rd (p.rd_wr_other v h)

@[simp] theorem Part.bump_off (o k : Nat) (h : o ≠ j) : (p.bump o k).SameAt p j := Part.sameAt_of_rd (p.rd_bump_other k h)

@[simp] theorem Part.putB_off (o i : Nat) (b : Bool) (h : o ≠ j) : (p.putB o i b).SameAt p j := Part.sameAt_of_rd (p.rd_putB_other i b h)

@[simp] theorem Part.putF_off (o lo w v : Nat) (h : o ≠ j) : (p.putF o lo w v).SameAt p j := Part.sameAt_of_rd (p.rd_putF_other lo w v h)

@[simp] theorem Part.stick_off (o i : Nat) (h : o ≠ j) (h' : o + 4 ≠ j) : (p.stick o i).SameAt p j := Part.sameAt_of_rd (p.rd_stick_other i h h')

@[simp] theorem Part.modTick_sameAt (f : Tick → Tick) : (p.modTick f).SameAt p j := Part.sameAt_of_rd rfl

@[simp] theorem Part.modObs_sameAt (f : Obs → Obs) : (p.modObs f).SameAt p j := Part.sameAt_of_rd rfl

@[simp] theorem Part.modFab_sameAt (f : Fabric → Fabric) : (p.modFab f).SameAt p j := Part.sameAt_of_rd rfl

@[simp] theorem Part.modTwin_sameAt (f : Twin → Twin) : (p.modTwin f).SameAt p j := Part.sameAt_of_rd rfl

@[simp] theorem Part.modHif_sameAt (f : Hif → Hif) : (p.modHif f).SameAt p j := Part.sameAt_of_rd rfl

@[simp] theorem Part.modMgt_sameAt (f : Mgt → Mgt) : (p.modMgt f).SameAt p j := Part.sameAt_of_rd rfl

@[simp] theorem Part.modPower_sameAt (f : Power → Power) : (p.modPower f).SameAt p j := Part.sameAt_of_rd rfl

@[simp] theorem Part.modTxn_sameAt (f : Txn → Txn) : (p.modTxn f).SameAt p j := Part.sameAt_of_rd rfl

theorem Part.getF_putB (o i : Nat) (b : Bool) {lo w : Nat} (h : i < lo ∨ lo + w ≤ i) (hw : lo + w ≤ 64) :
    (p.putB o i b).getF o lo w = p.getF o lo w := p.getF_putF_field o i 1 _ lo w (by omega) hw

@[simp] theorem Part.toMasters_sameAt (kind ref : Nat) (bs : List Byte) : (p.toMasters kind ref bs).SameAt p j :=
  Part.sameAt_of_rd (by simp)

/-- Every master is sent its packet. -/
theorem Part.toMasters_sends (kind ref : Nat) (bs : List Byte) {d : Nat} (h : d ∈ p.masters) :
    (⟨0, p.chip, d, p.epoch, 3, 0, kind, ref, 0, bs⟩ : Packet) ∈ (p.toMasters kind ref bs).fab.txq := by
  unfold Part.toMasters
  unfold Part.masters at h ⊢
  dsimp only at h ⊢
  split at h
  · next he =>
    rw [if_pos he]
    simp only [List.mem_singleton] at h
    simp [Part.sendPacket, h]
  · next he =>
    rw [if_neg he]
    simp only [List.mem_cons, List.not_mem_nil, or_false] at h
    rcases h with rfl | rfl
    · exact List.mem_append_left _ (List.mem_append_right _ (List.mem_singleton.2 rfl))
    · exact List.mem_append_right _ (List.mem_singleton.2 rfl)

@[simp] theorem Part.showHold_off (h : TIK_STATUS ≠ j) : p.showHold.SameAt p j := by
  refine Part.sameAt_of_rd ?_
  unfold Part.showHold
  dsimp only
  split <;> simp [h]

@[simp] theorem Part.holdSend_off (source : Nat) (h : TIK_STATUS ≠ j) : (p.holdSend source).SameAt p j :=
  Part.sameAt_of_rd (by simp [Part.holdSend, h])

@[simp] theorem Part.releaseSend_sameAt (source : Nat) : (p.releaseSend source).SameAt p j :=
  Part.sameAt_of_rd (by simp [Part.releaseSend])

/-- A record of the hub writes no register below those of the observation unit. -/
@[simp] theorem Part.trace_off (b kind pair core a v : Nat) (h : j < 0x100000) : (p.trace b kind pair core a v).SameAt p j := by
  refine Part.sameAt_of_rd ?_
  have hd : traceDrop b ≠ j ∧ OBS_STICKY ≠ j ∧ OBS_STICKY + 4 ≠ j := by
    unfold traceDrop SOBS_STAT_TDROP OBS_STAT_TDROP OBS_STICKY secBase
    split <;> omega
  obtain ⟨h1, h2, h3⟩ := hd
  unfold Part.trace
  dsimp only
  split
  · split
    · simp [h1, h2, h3]
    · simp
  · rfl

@[simp] theorem Part.noteErr_off (o i : Nat) (e : ErrRec) (h : j < 0x100000) (ht : j ≠ TIK_STATUS) (ho : o ≠ j) (ho' : o + 4 ≠ j) :
    (p.noteErr o i e).SameAt p j := Part.sameAt_of_rd (Part.rd_noteErr_besides (besidesRecords_hub h ht) p o i e ho ho')

/-- The sticky bit of an error is set. -/
theorem Part.noteErr_sticks (o i : Nat) (e : ErrRec) (h : o < 0x100000) (ht : o ≠ TIK_STATUS) (hi : i < 64) : (p.noteErr o i e).getB o i = true := by
  rw [Part.noteErr, Part.getB_congr i (Part.rd_err_besides (besidesRecords_hub h ht) _ _), Part.getB_stick_same _ _ hi]

@[simp] theorem Part.clockTo_off (t : Nat) (h : j < 0x2000000) (hw : j ≠ HIF_STAT_CRWAIT) : (p.clockTo t).SameAt p j :=
  Part.sameAt_of_rd (p.clockTo_rd_off t (.inl ⟨h, hw⟩))

end

end Sys2Proof.Machine
end

section
/-!
PROOF. SPDM, sessions, telemetry and thermal events (R464, R466, R469, R473, R477, R478, R482).
-/
namespace Sys2Proof.Machine

section
variable (p : Part) (via : Transport)

@[simp] theorem Part.modConn_conn (f : Spdm → Spdm) : (p.modConn via f).mgt.conn via = f (p.mgt.conn via) := by
  rw [Part.modConn_eq]
  unfold Mgt.conn
  cases via <;> rfl

@[simp] theorem Part.modConn_leaves (f : Spdm → Spdm) :
    (p.modConn via f).mem = p.mem ∧ (p.modConn via f).cores = p.cores ∧ (p.modConn via f).cycle = p.cycle ∧
    (p.modConn via f).mgt.out = p.mgt.out := by
  rw [Part.modConn_eq]
  exact ⟨rfl, rfl, rfl, rfl⟩

/-- An SPDM message is sent on a connection, which it leaves as given. -/
structure Part.SpdmSends (q : Part) (bs : List Byte) (c : Spdm) : Prop where
  mem : q.mem = p.mem
  cores : q.cores = p.cores
  out : q.mgt.out = p.mgt.out ++ [⟨via, bs⟩]
  conn : q.mgt.conn via = c

/-- A response sends its message; it needs of the part it is made from only what the response keeps. -/
theorem Part.spdmReply_sends {r : Part} (hm : r.mem = p.mem) (hc : r.cores = p.cores) (hg : r.mgt = p.mgt) (bs : List Byte) (f : Spdm → Spdm) :
    p.SpdmSends via (r.spdmReply via bs f) bs (f { p.mgt.conn via with last := r.cycle }) := by
  constructor
  · simpa [Part.spdmReply, Part.reply] using hm
  · simpa [Part.spdmReply, Part.reply] using hc
  · simp [Part.spdmReply, Part.reply, hg]
  · rw [Part.spdmReply, Part.reply, Part.modConn_conn, Part.modConn_conn, ← hg]
    cases via <;> rfl

end

section
variable (s : State) (via : Transport) (r : SpdmReq)

/-- What the responder makes of a request that reaches it. -/
def State.spdmAnswer : Part :=
  let c := s.p.mgt.conn via
  match r.code.toNat with
  | 0x84 => s.p.spdmReply via (spdmMsg 0x04 0 0 (leBytes 1 0 ++ leBytes 1 1 ++ leBytes 2 0x1200)) fun c => { c with stage := 1 }
  | 0xE1 =>
    if c.stage = 1 then
      s.p.spdmReply via (spdmMsg 0x61 0 0 (leBytes 1 0 ++ leBytes 1 20 ++ leBytes 2 0 ++ leBytes 4 spdmCaps ++ leBytes 4 1024 ++ leBytes 4 1024))
        fun c => { c with stage := 2 }
    else s.p.spdmReply via (spdmError 0x04 0) id
  | 0xE3 =>
    if c.stage = 2 then s.p.spdmReply via (spdmMsg 0x63 4 0 spdmAlgorithms) fun c => { c with stage := 3 }
    else s.p.spdmReply via (spdmError 0x04 0) id
  | _ => if c.stage = 3 then s.spdmOpen via r else s.p.spdmReply via (spdmError 0x04 0) id

theorem spdmRequest_answers (hr : s.p.reaches via = true) (ha : s.p.answers = true) :
    Becomes (.spdmRequest via r) s (s.spdmAnswer via r) := by
  have hgo : (!s.p.reaches via || !s.p.answers) = false := by rw [hr, ha]; rfl
  change execSpdmRequest via r s = _
  unfold execSpdmRequest
  rw [hgo]
  rfl

theorem spdmRequest_unreached (h : s.p.reaches via = false ∨ s.p.answers = false) : Becomes (.spdmRequest via r) s s.p := by
  have hno : (!s.p.reaches via || !s.p.answers) = true := by rcases h with h | h <;> simp [h]
  change execSpdmRequest via r s = _
  unfold execSpdmRequest
  rw [hno]
  rfl

section
variable {s via r}

/-- Every request is answered with one message. -/
theorem spdmAnswer_sends : ∃ bs c, s.p.SpdmSends via (s.spdmAnswer via r) bs c := by
  have hs : ∀ bs f, ∃ bs' c, s.p.SpdmSends via (s.p.spdmReply via bs f) bs' c := fun bs f => ⟨_, _, s.p.spdmReply_sends via rfl rfl rfl bs f⟩
  have ha : ∀ n bs f, ∃ bs' c, s.p.SpdmSends via ((s.p.anyBytes n).2.spdmReply via bs f) bs' c := fun n bs f =>
    ⟨_, _, s.p.spdmReply_sends (r := (s.p.anyBytes n).2) via rfl rfl rfl bs f⟩
  have hopen : ∃ bs c, s.p.SpdmSends via (s.spdmOpen via r) bs c := by
    unfold State.spdmOpen
    dsimp only
    split
    · exact hs _ _
    · unfold State.spdmCertificate
      dsimp only
      split <;> exact hs _ _
    · unfold State.spdmChallenge
      split
      · exact hs _ _
      · exact ha 130 _ _
    · unfold State.spdmMeasurements
      dsimp only
      split
      · exact hs _ _
      · split
        · exact ha 98 _ _
        · exact ha 34 _ _
    · unfold State.spdmKeyExchange
      dsimp only
      split
      · exact hs _ _
      · split
        · exact hs _ _
        · exact ha 198 _ _
    · unfold State.spdmFinish
      split
      · exact hs _ _
      · split <;> exact hs _ _
    · split <;> exact hs _ _
    · split <;> exact hs _ _
    · exact hs _ _
  unfold State.spdmAnswer
  dsimp only
  split
  · exact hs _ _
  · split <;> exact hs _ _
  · split <;> exact hs _ _
  · split
    · exact hopen
    · exact hs _ _

theorem spdmAnswer_version (h : r.code.toNat = 0x84) : ∃ bs, s.p.SpdmSends via (s.spdmAnswer via r) bs
    { s.p.mgt.conn via with last := s.p.cycle, stage := 1 } := by
  unfold State.spdmAnswer
  simp only [h]
  exact ⟨_, s.p.spdmReply_sends via rfl rfl rfl _ _⟩

theorem spdmAnswer_capabilities (h : r.code.toNat = 0xE1) (hs : (s.p.mgt.conn via).stage = 1) :
    ∃ bs, s.p.SpdmSends via (s.spdmAnswer via r) bs { s.p.mgt.conn via with last := s.p.cycle, stage := 2 } := by
  unfold State.spdmAnswer
  simp only [h, hs, if_true]
  exact ⟨_, s.p.spdmReply_sends via rfl rfl rfl _ _⟩

theorem spdmAnswer_algorithms (h : r.code.toNat = 0xE3) (hs : (s.p.mgt.conn via).stage = 2) :
    ∃ bs, s.p.SpdmSends via (s.spdmAnswer via r) bs { s.p.mgt.conn via with last := s.p.cycle, stage := 3 } := by
  unfold State.spdmAnswer
  simp only [h, hs, if_true]
  exact ⟨_, s.p.spdmReply_sends via rfl rfl rfl _ _⟩

/-- A request out of order is refused (R469). -/
theorem spdmAnswer_disorder (h84 : r.code.toNat ≠ 0x84) (h1 : r.code.toNat = 0xE1 → (s.p.mgt.conn via).stage ≠ 1)
    (h2 : r.code.toNat = 0xE3 → (s.p.mgt.conn via).stage ≠ 2) (h3 : (s.p.mgt.conn via).stage ≠ 3) :
    s.p.SpdmSends via (s.spdmAnswer via r) (spdmError 0x04 0) { s.p.mgt.conn via with last := s.p.cycle } := by
  have hd : s.spdmAnswer via r = s.p.spdmReply via (spdmError 0x04 0) id := by
    unfold State.spdmAnswer
    dsimp only
    split
    · next h => exact absurd h h84
    · next h => rw [if_neg (h1 h)]
    · next h => rw [if_neg (h2 h)]
    · rw [if_neg h3]
  rw [hd]
  exact s.p.spdmReply_sends via rfl rfl rfl _ _

section
variable (h3 : (s.p.mgt.conn via).stage = 3)
include h3

theorem spdmAnswer_open (h : r.code.toNat ≠ 0x84 ∧ r.code.toNat ≠ 0xE1 ∧ r.code.toNat ≠ 0xE3) : s.spdmAnswer via r = s.spdmOpen via r := by
  obtain ⟨h84, hE1, hE3⟩ := h
  unfold State.spdmAnswer
  dsimp only
  split
  · next h => exact absurd h h84
  · next h => exact absurd h hE1
  · next h => exact absurd h hE3
  · rw [if_pos h3]

theorem spdmAnswer_keyExchange (h : r.code.toNat = 0xE4) : s.spdmAnswer via r = s.spdmKeyExchange via r := by
  rw [spdmAnswer_open h3 (by omega)]
  unfold State.spdmOpen
  simp only [h]

theorem spdmAnswer_finish (h : r.code.toNat = 0xE5) : s.spdmAnswer via r = s.spdmFinish via r := by
  rw [spdmAnswer_open h3 (by omega)]
  unfold State.spdmOpen
  simp only [h]

theorem spdmAnswer_endSession (h : r.code.toNat = 0xEC) (hs : (s.p.mgt.conn via).session = true) :
    s.spdmAnswer via r = s.p.spdmReply via (spdmMsg 0x6C 0 0 []) fun c => { c with session := false, mutAuth := false } := by
  rw [spdmAnswer_open h3 (by omega)]
  unfold State.spdmOpen
  simp only [h, hs, if_true]

theorem spdmAnswer_digests (h : r.code.toNat = 0x81) : s.spdmAnswer via r = s.spdmDigests via := by
  rw [spdmAnswer_open h3 (by omega)]
  unfold State.spdmOpen
  simp only [h]

/-- One session on a transport (R466). -/
theorem keyExchange_refuses (h : r.code.toNat = 0xE4) (hs : (s.p.mgt.conn via).session = true ∨ (s.p.mgt.conn via).opening = true) :
    ∃ c, s.p.SpdmSends via (s.spdmAnswer via r) (spdmError 0x0A 0) c := by
  rw [spdmAnswer_keyExchange h3 h]
  unfold State.spdmKeyExchange
  rw [if_pos (by simpa using hs)]
  exact ⟨_, s.p.spdmReply_sends via rfl rfl rfl _ _⟩

theorem keyExchange_opens (h : r.code.toNat = 0xE4) (hs : (s.p.mgt.conn via).session = false) (ho : (s.p.mgt.conn via).opening = false)
    (hslot : r.param2.toNat % 16 = 0) :
    ∃ bs c, s.p.SpdmSends via (s.spdmAnswer via r) bs c ∧ c.opening = true ∧ bs.length = 202 := by
  rw [spdmAnswer_keyExchange h3 h]
  unfold State.spdmKeyExchange
  rw [if_neg (by simp [hs, ho]), if_neg (not_not.2 hslot)]
  refine ⟨_, _, s.p.spdmReply_sends (r := (s.p.anyBytes 198).2) via rfl rfl rfl _ _, rfl, ?_⟩
  rw [spdmMsg, List.length_append, length_fitBytes]
  rfl

theorem finish_opens (h : r.code.toNat = 0xE5) (ho : (s.p.mgt.conn via).opening = true) (hs : r.sigOk = true) :
    ∃ c, s.p.SpdmSends via (s.spdmAnswer via r) (spdmMsg 0x65 0 0 []) c ∧ c.session = true ∧ c.opening = false ∧
      (c.mutAuth = true ↔ s.nv.owner = some r.ownerChain) := by
  rw [spdmAnswer_finish h3 h]
  unfold State.spdmFinish
  rw [if_neg (by simp [ho]), if_neg (by simp [hs])]
  exact ⟨_, s.p.spdmReply_sends via rfl rfl rfl _ _, rfl, rfl, beq_iff_eq⟩

theorem finish_refuses (h : r.code.toNat = 0xE5) (ho : (s.p.mgt.conn via).opening = true) (hs : r.sigOk = false) :
    ∃ c, s.p.SpdmSends via (s.spdmAnswer via r) (spdmError 0x06 0) c ∧ c.session = (s.p.mgt.conn via).session ∧ c.opening = false := by
  rw [spdmAnswer_finish h3 h]
  unfold State.spdmFinish
  rw [if_neg (by simp [ho]), if_pos (by simp [hs])]
  exact ⟨_, s.p.spdmReply_sends via rfl rfl rfl _ _, rfl, rfl⟩

end

theorem sessionTimeout_ends (hs : (s.p.mgt.conn via).session = true) :
    ∃ q, Becomes (.sessionTimeout via) s q ∧ (q.mgt.conn via).session = false ∧ (q.mgt.conn via).mutAuth = false ∧
      q.cycle = (if s.p.clocked then max s.p.cycle ((s.p.mgt.conn via).last + 60000000000) else s.p.cycle) ∧ q.mem = s.p.mem ∧
      q.cores = s.p.cores := by
  have hb : Becomes (.sessionTimeout via) s
      ((if s.p.clocked then s.p.clockTo ((s.p.mgt.conn via).last + 60000000000) else s.p).modConn via
        fun c => { c with session := false, mutAuth := false, opening := false }) := by
    change execSessionTimeout via s = _
    unfold execSessionTimeout State.run
    dsimp only
    rw [if_neg (by simp [hs])]
  refine ⟨_, hb, by rw [Part.modConn_conn], by rw [Part.modConn_conn], ?_⟩
  simp only [Part.modConn_leaves]
  split <;> simp

theorem sessionTimeout_none (hs : (s.p.mgt.conn via).session = false) : Becomes (.sessionTimeout via) s s.p := by
  change execSessionTimeout via s = _
  unfold execSessionTimeout State.run
  dsimp only
  rw [if_pos (by simp [hs])]

end

theorem mctpControl_assigns (eid : BitVec 8) (hr : s.p.reaches via = true) (ha : s.p.answers = true) :
    ∃ q, Becomes (.mctpControlMessage via eid) s q ∧
      q = { s.p with regs := q.regs, mgt := s.p.mgt.setConn via { s.p.mgt.conn via with eid := eid.toNat } } := by
  have hb : Becomes (.mctpControlMessage via eid) s (s.p.modConn via fun c => { c with eid := eid.toNat }) := by
    change execMctpControlMessage via eid s = _
    unfold execMctpControlMessage State.run
    dsimp only
    rw [if_pos (by simp [hr, ha])]
  refine ⟨_, hb, ?_⟩
  rw [Part.modConn, Part.showSessions_eq]
  rfl

end

section
variable (p : Part)

@[simp] theorem Part.seeInput_leaves (cv : Nat) : (p.seeInput cv).cycle = p.cycle ∧ (p.seeInput cv).cores = p.cores ∧
    (p.seeInput cv).mem = p.mem ∧ (p.seeInput cv).mgt = p.mgt ∧ (p.seeInput cv).power = p.power ∧ (p.seeInput cv).fab = p.fab := by
  simp [Part.seeInput]

/-- An input sample: its voltage, and whether it is below 35.0 V (R526). -/
theorem Part.seeInput_shows (cv : Nat) : (p.seeInput cv).getF PWR_VIN 0 16 = cv % 65536 ∧
    (p.seeInput cv).getB PWR_STATUS 0 = decide (cv < 3500) := by
  constructor
  · simp (disch := decide) [Part.seeInput, Part.getF_putF_same]
  · simp (disch := decide) [Part.seeInput, Part.getB_putB_same]

theorem Part.seeInput_status (cv : Nat) {i : Nat} (h : i ≠ 0) (hi : i < 64) : (p.seeInput cv).getB PWR_STATUS i = p.getB PWR_STATUS i := by
  rw [Part.seeInput, Part.getB_putB_bit _ _ _ _ _ (Ne.symm h) hi]
  simp (disch := decide)

@[simp] theorem Part.seeInput_off (cv : Nat) {j : Nat} (hv : PWR_VIN ≠ j) (hm : PWR_VIN_MIN ≠ j) (hs : PWR_STATUS ≠ j) :
    (p.seeInput cv).SameAt p j :=
  Part.sameAt_of_rd (by simp [Part.seeInput, hv, hm, hs])

/-- A sample of the input shows in its registers, and starts or ends the recovery of a supply warning (R473, R528). -/
theorem Part.sampleInput_shows (cv ca : Nat) : (p.sampleInput cv ca).getF MGT_TEL_VIN 0 16 = cv % 65536 ∧
    (p.sampleInput cv ca).getF MGT_TEL_VIN 16 16 = ca % 65536 ∧ (p.sampleInput cv ca).getF PWR_VIN 0 16 = cv % 65536 ∧
    (p.sampleInput cv ca).getB PWR_STATUS 0 = decide (cv < 3500) := by
  obtain ⟨w, hw⟩ : ∃ w, w = ((((p.wr MGT_TEL_VIN ((ca % 65536) <<< 16 + cv % 65536)).putF MGT_TEL_PIN 0 16 (min (cv * ca / 1000) 65535)).modMgt
    fun m => { m with peak := max m.peak (min (cv * ca / 1000) 65535) }).putF PWR_VIN 16 16 ca).seeInput cv := ⟨_, rfl⟩
  obtain ⟨hv, hs⟩ := Part.seeInput_shows ((((p.wr MGT_TEL_VIN ((ca % 65536) <<< 16 + cv % 65536)).putF MGT_TEL_PIN 0 16
    (min (cv * ca / 1000) 65535)).modMgt fun m => { m with peak := max m.peak (min (cv * ca / 1000) 65535) }).putF PWR_VIN 16 16 ca) cv
  rw [← hw] at hv hs
  have hrd : w.rd MGT_TEL_VIN = ca % 65536 * 65536 + cv % 65536 := by
    rw [hw]
    simp (disch := decide) only [Part.seeInput_off, Part.putF_off, Part.modMgt_sameAt, Part.rd_wr_same, Nat.shiftLeft_eq]
    omega
  have hlo : w.getF MGT_TEL_VIN 0 16 = cv % 65536 := by simp only [Part.getF, fld, hrd, Nat.shiftRight_eq_div_pow]; omega
  have hhi : w.getF MGT_TEL_VIN 16 16 = ca % 65536 := by simp only [Part.getF, fld, hrd, Nat.shiftRight_eq_div_pow]; omega
  have hres : ∀ b f, let q := (w.putB PWR_STATUS 3 b).modPower f
      q.getF MGT_TEL_VIN 0 16 = cv % 65536 ∧ q.getF MGT_TEL_VIN 16 16 = ca % 65536 ∧ q.getF PWR_VIN 0 16 = cv % 65536 ∧
        q.getB PWR_STATUS 0 = decide (cv < 3500) := by
    intro b f q
    simp (disch := decide) [q, hlo, hhi, hv, hs, Part.getB_putB_bit]
  unfold Part.sampleInput
  dsimp only
  rw [← hw]
  split
  · split
    · exact ⟨hlo, hhi, hv, hs⟩
    · exact hres _ _
  · exact hres _ _

@[simp] theorem Part.sampleInput_leaves (cv ca : Nat) : (p.sampleInput cv ca).cycle = p.cycle ∧ (p.sampleInput cv ca).cores = p.cores ∧
    (p.sampleInput cv ca).mem = p.mem ∧ (p.sampleInput cv ca).mgt.thermHold = p.mgt.thermHold ∧
    (p.sampleInput cv ca).mgt.holdC = p.mgt.holdC := by
  unfold Part.sampleInput
  dsimp only
  split
  · split <;> simp
  · simp

@[simp] theorem Part.sampleInput_off (cv ca : Nat) {j : Nat} (hv : PWR_VIN ≠ j) (hm : PWR_VIN_MIN ≠ j) (hs : PWR_STATUS ≠ j)
    (ht : MGT_TEL_VIN ≠ j) (hp : MGT_TEL_PIN ≠ j) : (p.sampleInput cv ca).SameAt p j := by
  refine Part.sameAt_of_rd ?_
  unfold Part.sampleInput
  dsimp only
  split
  · split <;> simp [hv, hm, hs, ht, hp]
  · simp [hv, hm, hs, ht, hp]

@[simp] theorem Part.sampleRail_leaves (x : Nat × Nat × Nat) : (p.sampleRail x).cycle = p.cycle ∧ (p.sampleRail x).cores = p.cores ∧
    (p.sampleRail x).mem = p.mem ∧ (p.sampleRail x).mgt = p.mgt := by
  unfold Part.sampleRail
  dsimp only
  split <;> simp

/-- A sample of a rail writes the register of the rail alone. -/
@[simp] theorem Part.sampleRail_off (x : Nat × Nat × Nat) {j : Nat} (h : j < 0x40100 ∨ 0x40188 ≤ j) : (p.sampleRail x).SameAt p j := by
  refine Part.sameAt_of_rd ?_
  unfold Part.sampleRail
  dsimp only
  split
  · rfl
  · next hr =>
    have hj : PWR_RAIL x.1 ≠ j := by unfold PWR_RAIL; omega
    simp [hj]

@[simp] theorem Part.seeRails_leaves (l : List Nat) : (p.seeRails l).cycle = p.cycle ∧ (p.seeRails l).cores = p.cores ∧
    (p.seeRails l).mem = p.mem ∧ (p.seeRails l).mgt = p.mgt := by
  unfold Part.seeRails
  split
  · simp
  · split <;> simp

@[simp] theorem Part.seeRails_off (l : List Nat) {j : Nat} (h : PWR_STATUS ≠ j) : (p.seeRails l).SameAt p j := by
  refine Part.sameAt_of_rd ?_
  unfold Part.seeRails
  split
  · simp [h]
  · split <;> simp [h]

theorem Part.seeRails_status (l : List Nat) {i : Nat} (h : i ≠ 5) (hi : i < 64) : (p.seeRails l).getB PWR_STATUS i = p.getB PWR_STATUS i := by
  unfold Part.seeRails
  split
  · exact Part.getB_putB_bit _ _ _ _ _ (Ne.symm h) hi
  · split
    · exact Part.getB_putB_bit _ _ _ _ _ (Ne.symm h) hi
    · rfl

@[simp] theorem Part.sampleTemps_leaves (t : Sample) : (p.sampleTemps t).cycle = p.cycle ∧ (p.sampleTemps t).cores = p.cores ∧
    (p.sampleTemps t).mem = p.mem ∧ (p.sampleTemps t).mgt.thermHold = p.mgt.thermHold ∧ (p.sampleTemps t).mgt.holdC = p.mgt.holdC := by
  simp [Part.sampleTemps]

@[simp] theorem Part.sampleTemps_off (t : Sample) {j : Nat} (h : MGT_TEL_TEMP ≠ j) : (p.sampleTemps t).SameAt p j :=
  Part.sameAt_of_rd (by simp [Part.sampleTemps, h])

/-- The thermal check leaves what it is not about. -/
@[simp] theorem Part.thermalCheck_leaves : p.thermalCheck.cycle = p.cycle ∧ p.thermalCheck.cores = p.cores ∧ p.thermalCheck.mem = p.mem ∧
    p.thermalCheck.mgt.temps = p.mgt.temps := by
  unfold Part.thermalCheck
  dsimp only
  split <;> split <;> simp [Part.holdSend, Part.showHold]

@[simp] theorem Part.thermalCheck_off {j : Nat} (h : TIK_STATUS ≠ j) (hs : MGT_STICKY ≠ j) (hh : MGT_STAT_HOLD ≠ j) :
    p.thermalCheck.SameAt p j := by
  refine Part.sameAt_of_rd ?_
  unfold Part.thermalCheck
  dsimp only
  split <;> split <;> simp [h, hs, hh]

/-- The thermal hold starts at hold_c and stays (R477). -/
theorem Part.thermalCheck_holds :
    (p.thermalCheck.mgt.thermHold = true ↔ p.mgt.thermHold = true ∨ p.mgt.holdC ≤ (hottest p.mgt.temps).1) ∧
    (p.mgt.thermHold = false → p.mgt.holdC ≤ (hottest p.mgt.temps).1 → p.thermalCheck.getB MGT_STICKY 4 = true ∧
      p.thermalCheck.rd MGT_STAT_HOLD = (p.rd MGT_STAT_HOLD + 1) % 2 ^ 64 ∧ p.thermalCheck.power.thermRepeatAt = p.cycle + 100000) := by
  obtain ⟨w, hw⟩ : ∃ w, w = if (hottest p.mgt.temps).1 + 10 > p.mgt.holdC then p.modMgt fun m => { m with coolSince := p.cycle } else p :=
    ⟨_, rfl⟩
  have hk : w.mgt.thermHold = p.mgt.thermHold ∧ w.mgt.holdC = p.mgt.holdC ∧ w.cycle = p.cycle ∧ w.rd MGT_STAT_HOLD = p.rd MGT_STAT_HOLD := by
    rw [hw]
    split <;> exact ⟨rfl, rfl, rfl, rfl⟩
  obtain ⟨h1, h2, h3, h4⟩ := hk
  by_cases hc : (decide ((hottest p.mgt.temps).1 < w.mgt.holdC) || w.mgt.thermHold) = true
  · have ht : p.thermalCheck = w := by
      unfold Part.thermalCheck
      dsimp only
      rw [← hw, if_pos hc]
    rw [ht, h1]
    rw [h1, h2] at hc
    simp only [Bool.or_eq_true, decide_eq_true_eq] at hc
    refine ⟨⟨.inl, fun h => ?_⟩, fun hn hge => ?_⟩
    · exact hc.elim (fun hlt => h.resolve_right (by omega)) id
    · rw [hn] at hc
      exact absurd hc (by simp; omega)
  · have ht : p.thermalCheck = ((((w.modMgt fun m => { m with thermHold := true }).putB MGT_STICKY 4 true).bump MGT_STAT_HOLD 1).modPower
        fun x => { x with thermRepeatAt := w.cycle + holdPeriod }).holdSend 1 := by
      unfold Part.thermalCheck
      dsimp only
      rw [← hw, if_neg hc]
      rfl
    rw [h1, h2] at hc
    have hge : p.mgt.holdC ≤ (hottest p.mgt.temps).1 := by
      simp only [Bool.or_eq_true, decide_eq_true_eq, not_or] at hc
      omega
    rw [ht]
    refine ⟨⟨fun _ => .inr hge, fun _ => ?_⟩, fun _ _ => ⟨?_, ?_, ?_⟩⟩
    · simp [Part.holdSend, Part.showHold]
    · simp (disch := decide) [Part.getB_putB_same]
    · simp (disch := decide) [h4]
    · simp [Part.holdSend, Part.showHold, h3, holdPeriod]

@[simp] theorem Part.setClock_leaves (b : Bool) : (p.setClock b).cores = p.cores ∧ (p.setClock b).mem = p.mem ∧ (p.setClock b).cycle = p.cycle ∧
    (p.setClock b).mgt = p.mgt ∧ (p.setClock b).power = p.power ∧ (p.setClock b).fab = p.fab ∧ (p.setClock b).hif = p.hif := by
  simp [Part.setClock, sectors]

/-- The clock shows in one bit of the hub's status and in one of each memory's. -/
@[simp] theorem Part.setClock_off (b : Bool) {j : Nat} (h : j < 0x2000000) (hs : PWR_STATUS ≠ j) : (p.setClock b).SameAt p j := by
  refine Part.sameAt_of_rd ?_
  have hm : ∀ s, MEM_STATUS s ≠ j := fun s => by unfold MEM_STATUS secBase; omega
  simp [Part.setClock, sectors, hm, hs]

theorem Part.setClock_status (b : Bool) : (p.setClock b).rd PWR_STATUS = (p.putB PWR_STATUS 4 b).rd PWR_STATUS := by
  have hm : ∀ s, MEM_STATUS s ≠ PWR_STATUS := fun s => by unfold MEM_STATUS secBase PWR_STATUS; omega
  simp only [Part.setClock, sectors, Part.each_cons, Part.each_nil]
  simp [hm]

theorem Part.setClock_memory (b : Bool) {x : Nat} (hx : x < 4) : (p.setClock b).getB (MEM_STATUS x) 1 = !b := by
  have hne : ∀ {i k}, i < 4 → k < 4 → i ≠ k → MEM_STATUS i ≠ MEM_STATUS k := fun hi hk h => by unfold MEM_STATUS secBase; omega
  simp only [Part.setClock, sectors, Part.each_cons, Part.each_nil]
  obtain rfl | rfl | rfl | rfl : x = 0 ∨ x = 1 ∨ x = 2 ∨ x = 3 := by omega
  all_goals simp (disch := decide) [Part.getB_putB_same]

@[simp] theorem Part.enterStop_leaves : p.enterStop.cores = p.cores ∧ p.enterStop.mem = p.mem ∧ p.enterStop.cycle = p.cycle ∧
    p.enterStop.mgt = p.mgt ∧ p.enterStop.power = p.power ∧ p.enterStop.fab = p.fab := by
  simp [Part.enterStop]

@[simp] theorem Part.enterStop_off {j : Nat} (h : j < 0x2000000) (hs : PWR_STATUS ≠ j) : p.enterStop.SameAt p j :=
  Part.sameAt_of_rd (by simp [Part.enterStop, h, hs])

/-- A part that stops: the stop shows, the clock is off, in the hub and in each memory (R531). -/
theorem Part.enterStop_stops : p.enterStop.getB PWR_STATUS 7 = true ∧ p.enterStop.getB PWR_STATUS 4 = false ∧
    (∀ i, i ≠ 4 → i ≠ 7 → i < 64 → p.enterStop.getB PWR_STATUS i = p.getB PWR_STATUS i) ∧
    ∀ x, x < 4 → p.enterStop.getB (MEM_STATUS x) 1 = true := by
  have hrd := (p.putB PWR_STATUS 7 true).setClock_status false
  refine ⟨?_, ?_, fun i h4 h7 hi => ?_, fun x hx => (p.putB PWR_STATUS 7 true).setClock_memory false hx⟩
  · rw [Part.enterStop, Part.getB_congr 7 hrd, Part.getB_putB_bit _ _ _ _ _ (by decide) (by decide), Part.getB_putB_same _ _ _ _ (by decide)]
  · rw [Part.enterStop, Part.getB_congr 4 hrd, Part.getB_putB_same _ _ _ _ (by decide)]
  · rw [Part.enterStop, Part.getB_congr i hrd, Part.getB_putB_bit _ _ _ _ _ (Ne.symm h4) hi, Part.getB_putB_bit _ _ _ _ _ (Ne.symm h7) hi]

/-- What a part sends its masters carries the identity of the part that it is made from. -/
theorem Part.toMasters_sendsAs {q : Part} (hm : q.rd TIK_MASTER = p.rd TIK_MASTER) (ht : q.rd TIK_COUNT = p.rd TIK_COUNT)
    (hc : q.fab.idInForce = p.fab.idInForce) (kind ref : Nat) (bs : List Byte) {d : Nat} (h : d ∈ p.masters) :
    (⟨0, p.chip, d, p.epoch, 3, 0, kind, ref, 0, bs⟩ : Packet) ∈ (q.toMasters kind ref bs).fab.txq := by
  have hms : q.masters = p.masters := by unfold Part.masters Part.getF; rw [hm]
  have hep : q.epoch = p.epoch := by simp only [Part.epoch, Part.tickCount, ht]
  have hch : q.chip = p.chip := hc
  rw [← hep, ← hch]
  exact q.toMasters_sends kind ref bs (hms ▸ h)

end

section
variable (s : State)

theorem telemetrySample_shows (t : Sample) (hp : s.p.pgood = true) (ha : s.p.answers = true) :
    ∃ q, Becomes (.telemetrySample t) s q ∧ q.mem = s.p.mem ∧ q.cores = s.p.cores ∧
      q.cycle = (if s.p.clocked then max s.p.cycle ((s.p.cycle / 10000 + 1) * 10000) else s.p.cycle) ∧
      q.getF MGT_TEL_VIN 0 16 = t.centivolts % 65536 ∧ q.getF MGT_TEL_VIN 16 16 = t.centiamps % 65536 ∧
      q.getF PWR_VIN 0 16 = t.centivolts % 65536 ∧ q.getB PWR_STATUS 0 = decide (t.centivolts < 3500) ∧
      (q.mgt.thermHold = true ↔ s.p.mgt.thermHold = true ∨ s.p.mgt.holdC ≤ (hottest q.mgt.temps).1) ∧
      (s.p.mgt.thermHold = false → s.p.mgt.holdC ≤ (hottest q.mgt.temps).1 → q.getB MGT_STICKY 4 = true ∧
        q.rd MGT_STAT_HOLD = (s.p.rd MGT_STAT_HOLD + 1) % 2 ^ 64 ∧ q.power.thermRepeatAt = q.cycle + 100000) := by
  obtain ⟨r, hr⟩ : ∃ r, r = if s.p.clocked then (s.p.clockTo s.p.sampleAt).addEnergy (t.centivolts * t.centiamps / 10) else s.p := ⟨_, rfl⟩
  obtain ⟨w, hw⟩ : ∃ w, w = (((r.sampleInput t.centivolts t.centiamps).each t.rails Part.sampleRail).seeRails (t.rails.map (·.1))).sampleTemps t :=
    ⟨_, rfl⟩
  have hb : Becomes (.telemetrySample t) s w.thermalCheck := by
    have hno : (!s.p.pgood || !s.p.mgt.ready || s.p.mgt.stopped) = false := by
      simp only [Part.answers, Bool.and_eq_true, Bool.not_eq_true'] at ha
      simp [hp, ha]
    change execTelemetrySample t s = _
    unfold execTelemetrySample State.run
    dsimp only
    rw [hno, if_neg (by decide), ← hr, ← hw]
  have hrk : r.mem = s.p.mem ∧ r.cores = s.p.cores ∧ r.mgt.thermHold = s.p.mgt.thermHold ∧ r.mgt.holdC = s.p.mgt.holdC ∧
      r.rd MGT_STAT_HOLD = s.p.rd MGT_STAT_HOLD ∧
      r.cycle = if s.p.clocked then max s.p.cycle ((s.p.cycle / 10000 + 1) * 10000) else s.p.cycle := by
    rw [hr]
    split
    · simp (disch := decide) [Part.addEnergy, Part.sampleAt]
    · exact ⟨rfl, rfl, rfl, rfl, rfl, rfl⟩
  obtain ⟨hmem, hcores, hhold, hholdC, hcount, hcycle⟩ := hrk
  obtain ⟨v, hv⟩ : ∃ v, v = r.sampleInput t.centivolts t.centiamps := ⟨_, rfl⟩
  have heach : ∀ {β : Type} (get : Part → β), (∀ p x, get (Part.sampleRail p x) = get p) → get (v.each t.rails Part.sampleRail) = get v :=
    fun get h => Part.each_keeps get _ h _ _
  have hoff : ∀ {j : Nat}, j < 0x40100 ∨ 0x40188 ≤ j → (v.each t.rails Part.sampleRail).SameAt v j := fun h =>
    Part.sameAt_of_rd (heach (fun p => p.rd _) fun p x => (p.sampleRail_off x h).1)
  obtain ⟨hvin, hcin, hpin, hlow⟩ := r.sampleInput_shows t.centivolts t.centiamps
  rw [← hv] at hvin hcin hpin hlow
  have hwk : w.mem = r.mem ∧ w.cores = r.cores ∧ w.cycle = r.cycle ∧ w.mgt.thermHold = r.mgt.thermHold ∧ w.mgt.holdC = r.mgt.holdC := by
    rw [hw, ← hv]
    simp only [Part.sampleTemps_leaves, Part.seeRails_leaves, heach Part.mem (by simp), heach Part.cores (by simp), heach Part.cycle (by simp),
      heach Part.mgt (by simp)]
    rw [hv]
    simp
  obtain ⟨w1, w2, w3, w4, w5⟩ := hwk
  have hwr : ∀ {j : Nat}, MGT_TEL_TEMP ≠ j → PWR_STATUS ≠ j → j < 0x40100 ∨ 0x40188 ≤ j → w.SameAt v j := fun ht hs h => by
    refine Part.sameAt_of_rd ?_
    rw [hw, ← hv]
    simp [ht, hs, hoff h]
  have hws : w.getB PWR_STATUS 0 = v.getB PWR_STATUS 0 := by
    rw [hw, ← hv]
    rw [(Part.sampleTemps_off _ t (by decide)).2.1, Part.seeRails_status _ _ (by decide) (by decide)]
    exact (hoff (by decide)).2.1 _
  obtain ⟨hiff, hnew⟩ := w.thermalCheck_holds
  obtain ⟨c1, c2, c3, c4⟩ := w.thermalCheck_leaves
  refine ⟨_, hb, by rw [c3, w1, hmem], by rw [c2, w2, hcores], by rw [c1, w3, hcycle], ?_, ?_, ?_, ?_, ?_, fun hn hge => ?_⟩
  · rw [(Part.thermalCheck_off _ (by decide) (by decide) (by decide)).2.2, (hwr (by decide) (by decide) (by decide)).2.2, hvin]
  · rw [(Part.thermalCheck_off _ (by decide) (by decide) (by decide)).2.2, (hwr (by decide) (by decide) (by decide)).2.2, hcin]
  · rw [(Part.thermalCheck_off _ (by decide) (by decide) (by decide)).2.2, (hwr (by decide) (by decide) (by decide)).2.2, hpin]
  · rw [(Part.thermalCheck_off _ (by decide) (by decide) (by decide)).2.1, hws, hlow]
  · rw [hiff, c4, w4, w5, hhold, hholdC]
  · rw [c4] at hge
    obtain ⟨h1, h2, h3⟩ := hnew (by rw [w4, hhold, hn]) (by rw [w5, hholdC]; exact hge)
    refine ⟨h1, h2.trans ?_, by rw [h3, c1]⟩
    rw [(hwr (by decide) (by decide) (by decide)).1, hv, (Part.sampleInput_off _ _ _ (by decide) (by decide) (by decide) (by decide) (by decide)).1,
      hcount]

theorem telemetrySample_none (t : Sample) (h : s.p.pgood = false ∨ s.p.answers = false) : Becomes (.telemetrySample t) s s.p := by
  have hno : (!s.p.pgood || !s.p.mgt.ready || s.p.mgt.stopped) = true := by
    rcases h with h | h
    · simp [h]
    · simp only [Part.answers, Bool.and_eq_false_iff, Bool.not_eq_false'] at h
      rcases h with h | h <;> simp [h]
  change execTelemetrySample t s = _
  unfold execTelemetrySample State.run
  dsimp only
  rw [hno, if_pos rfl]

theorem thermalRelease_ends (hh : s.p.mgt.thermHold = true) (hs : s.p.mgt.stopped = false)
    (hcool : (hottest s.p.mgt.temps).1 + 10 ≤ s.p.mgt.holdC) :
    ∃ q, Becomes .thermalRelease s q ∧ q.mgt = { s.p.mgt with thermHold := false } ∧
      q.cycle = (if s.p.clocked then max s.p.cycle (s.p.mgt.coolSince + 1000000) else s.p.cycle) ∧ q.mem = s.p.mem ∧ q.cores = s.p.cores ∧
      ∀ d ∈ s.p.masters, (⟨0, s.p.chip, d, s.p.epoch, 3, 0, 7, 1, 0, []⟩ : Packet) ∈ q.fab.txq := by
  obtain ⟨r, hr⟩ : ∃ r, r = if s.p.clocked then s.p.clockTo (s.p.mgt.coolSince + 1000000) else s.p := ⟨_, rfl⟩
  have hb : Becomes .thermalRelease s ((r.modMgt fun m => { m with thermHold := false }).releaseSend 1) := by
    have hno : (!s.p.mgt.thermHold || s.p.mgt.stopped || decide ((hottest s.p.mgt.temps).1 + 10 > s.p.mgt.holdC)) = false := by
      simp [hh, hs]
      omega
    have hx : exec .thermalRelease s = execThermalRelease s := rfl
    rw [Becomes, hx]
    unfold execThermalRelease State.run
    dsimp only
    rw [hno, if_neg (by decide), ← hr]
  have hk : r.mgt = s.p.mgt ∧ r.mem = s.p.mem ∧ r.cores = s.p.cores ∧ r.fab = s.p.fab ∧ r.rd TIK_MASTER = s.p.rd TIK_MASTER ∧
      r.rd TIK_COUNT = s.p.rd TIK_COUNT ∧ r.cycle = if s.p.clocked then max s.p.cycle (s.p.mgt.coolSince + 1000000) else s.p.cycle := by
    rw [hr]
    split
    · simp (disch := decide)
    · exact ⟨rfl, rfl, rfl, rfl, rfl, rfl, rfl⟩
  obtain ⟨k1, k2, k3, k4, k5, k6, k7⟩ := hk
  refine ⟨_, hb, by simp [Part.releaseSend, k1], by simp [Part.releaseSend, k7], by simp [Part.releaseSend, k2], by simp [Part.releaseSend, k3],
    fun d hd => ?_⟩
  exact s.p.toMasters_sendsAs (q := r.modMgt fun m => { m with thermHold := false }) k5 k6 (congrArg Fabric.idInForce k4) 7 1 [] hd

theorem thermalRelease_none (h : s.p.mgt.thermHold = false ∨ s.p.mgt.stopped = true ∨ s.p.mgt.holdC < (hottest s.p.mgt.temps).1 + 10) :
    Becomes .thermalRelease s s.p := by
  have hno : (!s.p.mgt.thermHold || s.p.mgt.stopped || decide ((hottest s.p.mgt.temps).1 + 10 > s.p.mgt.holdC)) = true := by
    rcases h with h | h | h <;> simp [h]
  have hx : exec .thermalRelease s = execThermalRelease s := rfl
  rw [Becomes, hx]
  unfold execThermalRelease State.run
  dsimp only
  rw [hno, if_pos rfl]

theorem thermalTrip_stops (sensor : Nat) (hp : s.p.pgood = true) (hs : sensor < 72) :
    ∃ q, Becomes (.thermalTrip sensor) s q ∧ q.getB PWR_STATUS 6 = true ∧ q.getB PWR_STATUS 7 = true ∧ q.getB PWR_STATUS 4 = false ∧
      q.getB MGT_STICKY 5 = true ∧ q.getB PWR_STICKY 5 = true ∧ q.power.tripOut = true ∧ q.mem = s.p.mem ∧ q.cores = s.p.cores := by
  obtain ⟨r, hr⟩ : ∃ r, r = ((s.p.putB PWR_STATUS 6 true).putB MGT_STICKY 5 true).modPower fun w => { w with tripOut := true } := ⟨_, rfl⟩
  have hb : Becomes (.thermalTrip sensor) s (r.noteErr PWR_STICKY 5 { mkErr 16 5 4 with loc0 := sensor }).enterStop := by
    have hno : (!s.p.pgood || decide (sensor ≥ 72)) = false := by simp [hp, hs]
    change execThermalTrip sensor s = _
    unfold execThermalTrip State.run
    dsimp only
    rw [hno, if_neg (by decide), hr]
  have hk : r.getB PWR_STATUS 6 = true ∧ r.getB MGT_STICKY 5 = true ∧ r.power.tripOut = true ∧ r.mem = s.p.mem ∧ r.cores = s.p.cores := by
    rw [hr]
    simp (disch := decide) [Part.getB_putB_same]
  obtain ⟨k1, k2, k3, k4, k5⟩ := hk
  obtain ⟨e1, e2, e3, -⟩ := (r.noteErr PWR_STICKY 5 { mkErr 16 5 4 with loc0 := sensor }).enterStop_stops
  refine ⟨_, hb, ?_, e1, e2, ?_, ?_, by simp [k3], by simp [k4], by simp [k5]⟩
  · rw [e3 6 (by decide) (by decide) (by decide), (Part.noteErr_off _ _ _ _ (by decide) (by decide) (by decide) (by decide)).2.1, k1]
  · rw [(Part.enterStop_off _ (by decide) (by decide)).2.1, (Part.noteErr_off _ _ _ _ (by decide) (by decide) (by decide) (by decide)).2.1, k2]
  · rw [(Part.enterStop_off _ (by decide) (by decide)).2.1, Part.noteErr_sticks _ _ _ _ (by decide) (by decide) (by decide)]

end

/-- Settles O50: the responder's answers by stage and code, and what a sample, a release and a trip do. -/
theorem controllerEvents : Obligations.ControllerEvents := by
  intro s via p c sends
  have hof : ∀ {r : SpdmReq} {bs : List Byte} {x : Spdm}, p.reaches via = true → p.answers = true → p.SpdmSends via (s.spdmAnswer via r) bs x →
      sends r (s.spdmAnswer via r) bs := fun hr ha h => ⟨spdmRequest_answers s via _ hr ha, h.mem, h.cores, h.out⟩
  refine ⟨fun r => spdmRequest_unreached s via r, fun hr ha => ⟨fun r => ?_, fun r h => ?_, fun r h hs => ?_, fun r h hs => ?_,
      fun r h84 h1 h2 h3 => ?_, fun r h3 h hs => ?_, fun r h3 h hs ho hslot => ?_, fun r h3 h ho hs => ?_, fun r h3 h ho hs => ?_,
      fun r h3 h hs => ?_, fun r h3 h => ?_⟩,
    sessionTimeout_ends, sessionTimeout_none, fun eid => mctpControl_assigns s via eid, telemetrySample_shows s, telemetrySample_none s,
    thermalRelease_ends s, thermalRelease_none s, thermalTrip_stops s⟩
  · obtain ⟨bs, x, hx⟩ := spdmAnswer_sends (s := s) (via := via) (r := r)
    exact ⟨_, bs, hof hr ha hx⟩
  · obtain ⟨bs, hx⟩ := spdmAnswer_version (s := s) (via := via) h
    exact ⟨_, bs, hof hr ha hx, congrArg Spdm.stage hx.conn⟩
  · obtain ⟨bs, hx⟩ := spdmAnswer_capabilities (s := s) (via := via) h hs
    exact ⟨_, bs, hof hr ha hx, congrArg Spdm.stage hx.conn⟩
  · obtain ⟨bs, hx⟩ := spdmAnswer_algorithms (s := s) (via := via) h hs
    exact ⟨_, bs, hof hr ha hx, congrArg Spdm.stage hx.conn⟩
  · have hx := spdmAnswer_disorder (s := s) (via := via) h84 h1 h2 h3
    exact ⟨_, hof hr ha hx, (congrArg Spdm.stage hx.conn).trans rfl⟩
  · obtain ⟨x, hx⟩ := keyExchange_refuses (s := s) h3 h hs
    exact ⟨_, hof hr ha hx⟩
  · obtain ⟨bs, x, hx, hopen, hlen⟩ := keyExchange_opens (s := s) h3 h hs ho hslot
    exact ⟨_, bs, hof hr ha hx, hx.conn ▸ hopen, hlen⟩
  · obtain ⟨x, hx, h1, h2, h4⟩ := finish_opens (s := s) h3 h ho hs
    exact ⟨_, hof hr ha hx, hx.conn ▸ h1, hx.conn ▸ h2, hx.conn ▸ h4⟩
  · obtain ⟨x, hx, h1, h2⟩ := finish_refuses (s := s) h3 h ho hs
    exact ⟨_, hof hr ha hx, hx.conn ▸ h1, hx.conn ▸ h2⟩
  · have hx := spdmAnswer_endSession (s := s) h3 h hs
    have hy := s.p.spdmReply_sends (r := s.p) via rfl rfl rfl (spdmMsg 0x6C 0 0 []) fun c => { c with session := false, mutAuth := false }
    rw [← hx] at hy
    exact ⟨_, hof hr ha hy, congrArg Spdm.session hy.conn, congrArg Spdm.mutAuth hy.conn⟩
  · have hx := spdmAnswer_digests (s := s) (via := via) h3 h
    have hy := s.p.spdmReply_sends (r := s.p) via rfl rfl rfl (spdmMsg 0x01 0 1 (sha256 s.chain)) id
    rw [State.spdmDigests] at hx
    rw [← hx] at hy
    exact ⟨_, hof hr ha hy⟩

end Sys2Proof.Machine
end

section
/-!
PROOF. Supply, clocks and resets (R16, R522, R525 to R528, R530, R531, R533, R534, R538, R540).
-/
namespace Sys2Proof.Machine

section
variable (p : Part)

@[simp] theorem Part.flood_sameAt (e : Option Nat) (corr : Nat) (m : CtlMsg) {j : Nat} : (p.flood e corr m).SameAt p j := Part.sameAt_of_rd rfl

/-- A freeze and an error record write one bit of the status of ticks: that ticks stop. -/
theorem Part.freezeFrom_status (source : Nat) (e : Option Nat) (corr : Nat) {i : Nat} (h : i ≠ 11) (hi : i < 64) :
    (p.freezeFrom source e corr).getB TIK_STATUS i = p.getB TIK_STATUS i := by
  unfold Part.freezeFrom
  dsimp only
  split
  · rfl
  · rw [(Part.trace_off _ _ _ _ _ _ _ (by decide)).2.1]
    split <;> simp (disch := decide) [Part.getB_putB_bit _ _ _ _ _ (Ne.symm h) hi]

theorem Part.err_status (e : ErrRec) {i : Nat} (h : i ≠ 11) (hi : i < 64) : (p.err e).getB TIK_STATUS i = p.getB TIK_STATUS i := by
  unfold Part.err
  dsimp only
  split
  · simp
  · split
    · simp (disch := decide)
    · split <;> simp (disch := decide) [Part.freeze, Part.freezeFrom_status _ _ _ _ h hi]

theorem Part.noteErr_status (o k : Nat) (e : ErrRec) (ho : o ≠ TIK_STATUS) (ho' : o + 4 ≠ TIK_STATUS) {i : Nat} (h : i ≠ 11) (hi : i < 64) :
    (p.noteErr o k e).getB TIK_STATUS i = p.getB TIK_STATUS i := by
  rw [Part.noteErr, Part.err_status _ _ h hi, (Part.stick_off _ _ _ ho ho').2.1]

@[simp] theorem Part.showHold_fab : p.showHold.fab = p.fab := by
  unfold Part.showHold
  dsimp only
  split <;> simp

/-- A hold of the supply starts now: it shows, repeats, and its notice goes to the masters (R527). -/
theorem Part.supplyHold_holds : p.supplyHold.getB PWR_STATUS 2 = true ∧ p.supplyHold.getB PWR_STICKY 1 = true ∧
    p.supplyHold.power.repeatAt = p.cycle + 100000 ∧
    ∀ d ∈ p.masters, (⟨0, p.chip, d, p.epoch, 3, 0, 6, 0, 0, []⟩ : Packet) ∈ p.supplyHold.fab.txq := by
  unfold Part.supplyHold
  dsimp only
  refine ⟨?_, ?_, ?_, fun d hd => ?_⟩
  · simp (disch := decide) [Part.getB_putB_same]
  · simp (disch := decide) [Part.getB_stick_same]
  · simp [Part.holdSend, Part.showHold, holdPeriod]
  · rw [Part.holdSend, Part.showHold_fab]
    exact p.toMasters_sendsAs (by simp (disch := decide)) (by simp (disch := decide)) (by simp) 6 0 [] hd

@[simp] theorem Part.supplyHold_leaves : p.supplyHold.mem = p.mem ∧ p.supplyHold.cores = p.cores := by
  simp [Part.supplyHold, Part.holdSend, Part.showHold]

@[simp] theorem Part.supplyHold_off {j : Nat} (h : PWR_STATUS ≠ j) (hs : PWR_STICKY ≠ j) (hs' : PWR_STICKY + 4 ≠ j) (ht : TIK_STATUS ≠ j) :
    p.supplyHold.SameAt p j := Part.sameAt_of_rd (by simp [Part.supplyHold, h, hs, hs', ht])

theorem Part.supplyHold_bits : (∀ i, i ≠ 2 → i < 64 → p.supplyHold.getB PWR_STATUS i = p.getB PWR_STATUS i) ∧
    ∀ i, i ≠ 1 → i < 64 → p.supplyHold.getB PWR_STICKY i = p.getB PWR_STICKY i := by
  constructor
  · intro i h hi
    simp (disch := decide) [Part.supplyHold, Part.getB_putB_bit _ _ _ _ _ (Ne.symm h) hi]
  · intro i h hi
    simp (disch := decide) [Part.supplyHold, Part.getB_stick_bit _ _ (Ne.symm h) hi]

/-- The end of a hold of the supply: it no longer shows, and the masters are told (R528). -/
theorem Part.supplyRelease_ends : p.supplyRelease.getB PWR_STATUS 2 = false ∧
    (p.getB PWR_STATUS 2 = true → ∀ d ∈ p.masters, (⟨0, p.chip, d, p.epoch, 3, 0, 7, 0, 0, []⟩ : Packet) ∈ p.supplyRelease.fab.txq) := by
  unfold Part.supplyRelease
  split
  · constructor
    · simp (disch := decide) [Part.getB_putB_same]
    · intro _ d hd
      exact p.toMasters_sendsAs (by simp (disch := decide)) (by simp (disch := decide)) (by simp) 7 0 [] hd
  · next h => exact ⟨by simpa using h, fun h2 => absurd h2 h⟩

@[simp] theorem Part.supplyRelease_leaves : p.supplyRelease.mem = p.mem ∧ p.supplyRelease.cores = p.cores ∧ p.supplyRelease.cycle = p.cycle ∧
    p.supplyRelease.power = p.power := by
  unfold Part.supplyRelease
  split <;> simp [Part.releaseSend]

@[simp] theorem Part.supplyRelease_off {j : Nat} (h : PWR_STATUS ≠ j) (hh : PWR_STAT_HOLD ≠ j) : p.supplyRelease.SameAt p j := by
  refine Part.sameAt_of_rd ?_
  unfold Part.supplyRelease
  split <;> simp [h, hh]

theorem Part.supplyRelease_bits {i : Nat} (h : i ≠ 2) (hi : i < 64) : p.supplyRelease.getB PWR_STATUS i = p.getB PWR_STATUS i := by
  unfold Part.supplyRelease
  split
  · simp (disch := decide) [Part.getB_putB_bit _ _ _ _ _ (Ne.symm h) hi]
  · rfl

end

section
variable (s : State)

/-- What a warning below 35.0 V shows, before it is known whether a hold starts. -/
def Part.warned (p : Part) (cv : Nat) : Part :=
  ((((p.seeInput cv).putB PWR_STATUS 1 true).putB PWR_STATUS 3 false).modPower fun w => { w with recoverAt := none }).bump PWR_STAT_WARN 1

theorem Part.warned_shows (p : Part) {cv : Nat} (h : cv < 3500) : (p.warned cv).getB PWR_STATUS 1 = true ∧ (p.warned cv).getB PWR_STATUS 0 = true ∧
    (p.warned cv).getB PWR_STATUS 3 = false ∧ (p.warned cv).getF PWR_VIN 0 16 = cv ∧
    (p.warned cv).rd PWR_STAT_WARN = (p.rd PWR_STAT_WARN + 1) % 2 ^ 64 := by
  obtain ⟨hv, hs⟩ := p.seeInput_shows cv
  refine ⟨?_, ?_, ?_, ?_, ?_⟩
  · simp (disch := decide) [Part.warned, Part.getB_putB_bit, Part.getB_putB_same]
  · simp (disch := decide) [Part.warned, Part.getB_putB_bit, hs, h]
  · simp (disch := decide) [Part.warned, Part.getB_putB_same]
  · simp (disch := decide) [Part.warned, hv]
    omega
  · simp (disch := decide) [Part.warned]

@[simp] theorem Part.warned_leaves (p : Part) (cv : Nat) : (p.warned cv).mem = p.mem ∧ (p.warned cv).cores = p.cores ∧
    (p.warned cv).cycle = p.cycle ∧ (p.warned cv).fab = p.fab := by
  simp [Part.warned]

@[simp] theorem Part.warned_off (p : Part) (cv : Nat) {j : Nat} (hv : PWR_VIN ≠ j) (hm : PWR_VIN_MIN ≠ j) (hs : PWR_STATUS ≠ j)
    (hw : PWR_STAT_WARN ≠ j) : (p.warned cv).SameAt p j := Part.sameAt_of_rd (by simp [Part.warned, hv, hm, hs, hw])

theorem Part.warned_hold (p : Part) (cv : Nat) {i : Nat} (h0 : i ≠ 0) (h1 : i ≠ 1) (h3 : i ≠ 3) (hi : i < 64) :
    (p.warned cv).getB PWR_STATUS i = p.getB PWR_STATUS i := by
  simp (disch := decide) [Part.warned, Part.getB_putB_bit _ _ _ _ _ (Ne.symm h1) hi, Part.getB_putB_bit _ _ _ _ _ (Ne.symm h3) hi,
    Part.seeInput_status _ _ h0 hi]

/-- The part after a warning. -/
def Part.afterWarning (p : Part) (cv : Nat) : Part :=
  if p.getB PWR_STATUS 2 then p.warned cv
  else if p.getB TIK_CTRL 0 && p.running && p.clocked then ((p.warned cv).pwrErr 0 0).supplyHold else (p.warned cv).pwrErr 0 0

theorem supplyWarning_becomes {cv : Nat} (hp : s.p.pgood = true) (hc : cv < 3500) : Becomes (.supplyWarning cv) s (s.p.afterWarning cv) := by
  have hno : (!s.p.pgood || decide (cv ≥ 3500)) = false := by simp [hp, hc]
  have h2 : (s.p.warned cv).getB PWR_STATUS 2 = s.p.getB PWR_STATUS 2 := s.p.warned_hold cv (by decide) (by decide) (by decide) (by decide)
  have hctl : ((s.p.warned cv).pwrErr 0 0).getB TIK_CTRL 0 = s.p.getB TIK_CTRL 0 := by
    rw [Part.pwrErr, (Part.noteErr_off _ _ _ _ (by decide) (by decide) (by decide) (by decide)).2.1]
    simp (disch := decide)
  have hrun : ((s.p.warned cv).pwrErr 0 0).running = s.p.running := by
    rw [Part.running, Part.pwrErr, Part.noteErr_status _ _ _ _ (by decide) (by decide) (by decide) (by decide)]
    simp (disch := decide) [Part.running]
  have hclk : ((s.p.warned cv).pwrErr 0 0).clocked = s.p.clocked := by
    have hb : ∀ i, i ≠ 0 → i ≠ 1 → i ≠ 3 → i < 64 → ((s.p.warned cv).pwrErr 0 0).getB PWR_STATUS i = s.p.getB PWR_STATUS i :=
      fun i h0 h1 h3 hi => by
        rw [Part.pwrErr, (Part.noteErr_off _ _ _ _ (by decide) (by decide) (by decide) (by decide)).2.1, Part.warned_hold _ _ h0 h1 h3 hi]
    rw [Part.clocked, Part.clocked, hb 4 (by decide) (by decide) (by decide) (by decide), hb 7 (by decide) (by decide) (by decide) (by decide)]
  change execSupplyWarning cv s = _
  unfold execSupplyWarning State.run Part.afterWarning
  dsimp only
  rw [hno, if_neg (by decide), ← h2, ← hctl, ← hrun, ← hclk]
  rfl

theorem supplyWarning_warns {cv : Nat} (hp : s.p.pgood = true) (hc : cv < 3500) :
    ∃ q, Becomes (.supplyWarning cv) s q ∧ q.getB PWR_STATUS 1 = true ∧ q.getB PWR_STATUS 0 = true ∧ q.getB PWR_STATUS 3 = false ∧
      q.getF PWR_VIN 0 16 = cv ∧ q.rd PWR_STAT_WARN = (s.p.rd PWR_STAT_WARN + 1) % 2 ^ 64 ∧ q.mem = s.p.mem ∧ q.cores = s.p.cores ∧
      (s.p.getB PWR_STATUS 2 = false → q.getB PWR_STICKY 0 = true) ∧
      (s.p.getB PWR_STATUS 2 = false → s.p.getB TIK_CTRL 0 = true → s.p.running = true → s.p.clocked = true →
        q.getB PWR_STATUS 2 = true ∧ q.getB PWR_STICKY 1 = true ∧ q.power.repeatAt = s.p.cycle + 100000 ∧
        ∀ d ∈ s.p.masters, (⟨0, s.p.chip, d, s.p.epoch, 3, 0, 6, 0, 0, []⟩ : Packet) ∈ q.fab.txq) ∧
      (s.p.getB PWR_STATUS 2 = false → s.p.running = false → q.getB PWR_STATUS 2 = false) := by
  refine ⟨_, supplyWarning_becomes s hp hc, ?_⟩
  obtain ⟨w1, w0, w3, wv, wc⟩ := s.p.warned_shows hc
  have w2 : (s.p.warned cv).getB PWR_STATUS 2 = s.p.getB PWR_STATUS 2 := s.p.warned_hold cv (by decide) (by decide) (by decide) (by decide)
  obtain ⟨r, hr⟩ : ∃ r, r = (s.p.warned cv).pwrErr 0 0 := ⟨_, rfl⟩
  have hoff : ∀ {j : Nat}, j < 0x100000 → j ≠ TIK_STATUS → PWR_STICKY ≠ j → PWR_STICKY + 4 ≠ j → r.SameAt (s.p.warned cv) j :=
    fun h ht h1 h2 => hr ▸ Part.noteErr_off _ _ _ _ h ht h1 h2
  have hst : r.getB PWR_STICKY 0 = true := hr ▸ Part.noteErr_sticks _ _ _ _ (by decide) (by decide) (by decide)
  obtain ⟨-, hsB, -⟩ := hoff (j := PWR_STATUS) (by decide) (by decide) (by decide) (by decide)
  obtain ⟨-, -, hvF⟩ := hoff (j := PWR_VIN) (by decide) (by decide) (by decide) (by decide)
  obtain ⟨hcR, -, -⟩ := hoff (j := PWR_STAT_WARN) (by decide) (by decide) (by decide) (by decide)
  have hmc : r.mem = s.p.mem ∧ r.cores = s.p.cores ∧ r.cycle = s.p.cycle := by simp [hr, Part.pwrErr]
  unfold Part.afterWarning
  rw [← hr]
  by_cases h2 : s.p.getB PWR_STATUS 2 = true
  · rw [if_pos h2, h2]
    exact ⟨w1, w0, w3, wv, wc, by simp, by simp, fun h => absurd h (by decide), fun h => absurd h (by decide), fun h => absurd h (by decide)⟩
  · rw [if_neg h2]
    by_cases hh : (s.p.getB TIK_CTRL 0 && s.p.running && s.p.clocked) = true
    · rw [if_pos hh]
      simp only [Bool.and_eq_true] at hh
      obtain ⟨k1, k2, k3, k4⟩ := r.supplyHold_holds
      obtain ⟨b1, b2⟩ := r.supplyHold_bits
      refine ⟨?_, ?_, ?_, ?_, ?_, by simp [hmc], by simp [hmc], fun _ => ?_, fun _ _ _ _ => ⟨k1, k2, by rw [k3, hmc.2.2], fun d hd => ?_⟩,
        fun _ hn => absurd hh.1.2 (by simp [hn])⟩
      · rw [b1 1 (by decide) (by decide), hsB, w1]
      · rw [b1 0 (by decide) (by decide), hsB, w0]
      · rw [b1 3 (by decide) (by decide), hsB, w3]
      · rw [(Part.supplyHold_off _ (by decide) (by decide) (by decide) (by decide)).2.2, hvF, wv]
      · rw [(Part.supplyHold_off _ (by decide) (by decide) (by decide) (by decide)).1, hcR, wc]
      · rw [b2 0 (by decide) (by decide), hst]
      · have hms : r.masters = s.p.masters := by
          unfold Part.masters
          rw [(hoff (by decide) (by decide) (by decide) (by decide)).2.2, (hoff (by decide) (by decide) (by decide) (by decide)).2.2]
          simp (disch := decide)
        have hep : r.epoch = s.p.epoch := by
          unfold Part.epoch Part.tickCount
          rw [(hoff (by decide) (by decide) (by decide) (by decide)).1]
          simp (disch := decide)
        have hch : r.chip = s.p.chip := by simp [Part.chip, hr, Part.pwrErr]
        rw [← hep, ← hch]
        exact k4 d (hms ▸ hd)
    · rw [if_neg hh]
      have hn2 : (s.p.warned cv).getB PWR_STATUS 2 = false := by rw [w2]; simpa using h2
      refine ⟨?_, ?_, ?_, ?_, ?_, hmc.1, hmc.2.1, fun _ => hst, fun _ h1 h2 h3 => absurd (by rw [h1, h2, h3]; rfl) hh, fun _ _ => ?_⟩
      · rw [hsB, w1]
      · rw [hsB, w0]
      · rw [hsB, w3]
      · rw [hvF, wv]
      · rw [hcR, wc]
      · rw [hsB, hn2]

theorem supplyWarning_none {cv : Nat} (h : s.p.pgood = false ∨ 3500 ≤ cv) : Becomes (.supplyWarning cv) s s.p := by
  have hno : (!s.p.pgood || decide (cv ≥ 3500)) = true := by rcases h with h | h <;> simp [h]
  change execSupplyWarning cv s = _
  unfold execSupplyWarning State.run
  dsimp only
  rw [hno, if_pos rfl]

theorem recoveryTimer_recovers {cv : Nat} (hp : s.p.pgood = true) (hc : 3600 ≤ cv) (hv : cv < 65536) (h1 : s.p.getB PWR_STATUS 1 = true) :
    ∃ q, Becomes (.recoveryTimer cv) s q ∧ q.getB PWR_STATUS 1 = false ∧ q.getB PWR_STATUS 2 = false ∧ q.getB PWR_STATUS 0 = false ∧
      q.getF PWR_VIN 0 16 = cv ∧ q.mem = s.p.mem ∧ q.cores = s.p.cores ∧ q.power.recoverAt = none ∧
      (∀ t, s.p.clocked = true → s.p.power.recoverAt = some t → q.cycle = max s.p.cycle (t + 1000000)) ∧
      (s.p.getB PWR_STATUS 2 = true → ∀ d ∈ s.p.masters, (⟨0, s.p.chip, d, s.p.epoch, 3, 0, 7, 0, 0, []⟩ : Packet) ∈ q.fab.txq) := by
  obtain ⟨u, hu⟩ : ∃ u, u = s.p.seeInput cv := ⟨_, rfl⟩
  obtain ⟨r, hr⟩ : ∃ r, r = if u.clocked then u.clockTo (u.power.recoverAt.getD u.cycle + 1000000) else u := ⟨_, rfl⟩
  obtain ⟨w, hw⟩ : ∃ w, w = ((r.putB PWR_STATUS 1 false).putB PWR_STATUS 3 false).modPower fun x => { x with recoverAt := none } := ⟨_, rfl⟩
  have hb : Becomes (.recoveryTimer cv) s w.supplyRelease := by
    have hno : (!s.p.pgood || decide (cv < 3600) || !s.p.getB PWR_STATUS 1) = false := by simp [hp, hc, h1]
    have hx : exec (.recoveryTimer cv) s = execRecoveryTimer cv s := rfl
    rw [Becomes, hx]
    unfold execRecoveryTimer State.run
    dsimp only
    rw [hno, if_neg (by decide), ← hu, ← hr, ← hw]
  obtain ⟨uv, u0⟩ := s.p.seeInput_shows cv
  have uc : u.clocked = s.p.clocked := by
    rw [hu, Part.clocked, Part.clocked, Part.seeInput_status _ _ (by decide) (by decide), Part.seeInput_status _ _ (by decide) (by decide)]
  have hro : ∀ {j : Nat}, j < 0x2000000 → j ≠ HIF_STAT_CRWAIT → r.SameAt u j := fun h h' => by
    refine Part.sameAt_of_rd ?_
    rw [hr]
    split
    · exact (Part.clockTo_off _ _ h h').1
    · rfl
  obtain ⟨-, hrB, -⟩ := hro (j := PWR_STATUS) (by decide) (by decide)
  have hk : r.mem = s.p.mem ∧ r.cores = s.p.cores ∧ r.fab = s.p.fab := by
    rw [hr, hu]
    split <;> simp
  obtain ⟨hm, hco, hf⟩ := hk
  have hwo : ∀ {j : Nat}, PWR_STATUS ≠ j → w.SameAt r j := fun h => Part.sameAt_of_rd (by simp [hw, h])
  have hw2 : w.getB PWR_STATUS 2 = s.p.getB PWR_STATUS 2 := by
    simp (disch := decide) [hw, Part.getB_putB_bit, hrB]
    rw [hu, Part.seeInput_status _ _ (by decide) (by decide)]
  obtain ⟨k1, k2⟩ := w.supplyRelease_ends
  refine ⟨_, hb, ?_, k1, ?_, ?_, by simp [hw, hm], by simp [hw, hco], by simp [hw], fun t ht hs => ?_, fun h d hd => ?_⟩
  · rw [Part.supplyRelease_bits _ (by decide) (by decide)]
    simp (disch := decide) [hw, Part.getB_putB_bit, Part.getB_putB_same]
  · rw [Part.supplyRelease_bits _ (by decide) (by decide)]
    simp (disch := decide) [hw, Part.getB_putB_bit, hrB, hu, u0]
    omega
  · rw [(Part.supplyRelease_off _ (by decide) (by decide)).2.2, (hwo (by decide)).2.2, (hro (by decide) (by decide)).2.2, hu, uv]
    omega
  · have hu' : u.power.recoverAt = some t := by rw [hu]; simpa using hs
    have hcy : u.cycle = s.p.cycle := by rw [hu]; simp
    simp [hw, hr, uc, ht, hu', hcy]
  · have hmw : w.rd TIK_MASTER = s.p.rd TIK_MASTER := by
      rw [(hwo (by decide)).1, (hro (by decide) (by decide)).1, hu, (Part.seeInput_off _ _ (by decide) (by decide) (by decide)).1]
    have htw : w.rd TIK_COUNT = s.p.rd TIK_COUNT := by
      rw [(hwo (by decide)).1, (hro (by decide) (by decide)).1, hu, (Part.seeInput_off _ _ (by decide) (by decide) (by decide)).1]
    have hfw : w.fab = s.p.fab := by rw [hw, ← hf]; rfl
    have hms : w.masters = s.p.masters := by unfold Part.masters Part.getF; rw [hmw]
    have hep : w.epoch = s.p.epoch := by unfold Part.epoch Part.tickCount; rw [htw]
    have hch : w.chip = s.p.chip := by unfold Part.chip; rw [hfw]
    rw [← hep, ← hch]
    exact k2 (hw2.trans h) d (hms ▸ hd)

theorem overvoltageFlag_flags {cv : Nat} (hp : s.p.pgood = true) (hc : 4450 < cv) : ∃ q, Becomes (.overvoltageFlag cv) s q ∧
    q.getB PWR_STICKY 2 = true ∧ q.mem = s.p.mem ∧ q.cores = s.p.cores ∧ q.getB PWR_STATUS 7 = s.p.getB PWR_STATUS 7 := by
  have hb : Becomes (.overvoltageFlag cv) s ((s.p.seeInput cv).pwrErr 2 0) := by
    have hyes : (s.p.pgood && decide (cv > 4450)) = true := by simp [hp, hc]
    change execOvervoltageFlag cv s = _
    unfold execOvervoltageFlag State.run
    dsimp only
    rw [hyes, if_pos rfl]
  refine ⟨_, hb, Part.noteErr_sticks _ _ _ _ (by decide) (by decide) (by decide), by simp [Part.pwrErr], by simp [Part.pwrErr], ?_⟩
  rw [Part.pwrErr, (Part.noteErr_off _ _ _ _ (by decide) (by decide) (by decide) (by decide)).2.1, Part.seeInput_status _ _ (by decide) (by decide)]

theorem overvoltageFlag_none {cv : Nat} (h : s.p.pgood = false ∨ cv ≤ 4450) : Becomes (.overvoltageFlag cv) s s.p := by
  have hno : (s.p.pgood && decide (cv > 4450)) = false := by rcases h with h | h <;> simp [h]
  change execOvervoltageFlag cv s = _
  unfold execOvervoltageFlag State.run
  dsimp only
  rw [hno, if_neg (by decide)]

/-- A part that stops for a fault keeps the record of it (R531). -/
theorem enterStop_noteErr (r : Part) {i : Nat} (e : ErrRec) (hi : i < 64) (hm : r.mem = s.p.mem) (hc : r.cores = s.p.cores) :
    let q := (r.noteErr PWR_STICKY i e).enterStop
    q.getB PWR_STATUS 7 = true ∧ q.getB PWR_STATUS 4 = false ∧ q.getB PWR_STICKY i = true ∧ q.mem = s.p.mem ∧ q.cores = s.p.cores ∧
      ∀ x, x < 4 → q.getB (MEM_STATUS x) 1 = true := by
  intro q
  obtain ⟨e1, e2, -, e4⟩ := (r.noteErr PWR_STICKY i e).enterStop_stops
  refine ⟨e1, e2, ?_, by simp [q, hm], by simp [q, hc], e4⟩
  rw [(Part.enterStop_off _ (by decide) (by decide)).2.1, Part.noteErr_sticks _ _ _ _ (by decide) (by decide) hi]

theorem railFault_stops {rail mv : Nat} (hp : s.p.pgood = true) (hr : rail < 17) (hw : railWithin rail mv 8 = false) :
    ∃ q, Becomes (.railFault rail mv) s q ∧ q.getB PWR_STATUS 7 = true ∧ q.getB PWR_STATUS 4 = false ∧
      q.getB PWR_STICKY 3 = true ∧ q.mem = s.p.mem ∧ q.cores = s.p.cores ∧ ∀ x, x < 4 → q.getB (MEM_STATUS x) 1 = true := by
  have hb : Becomes (.railFault rail mv) s (((((s.p.putF (PWR_RAIL rail) 8 16 mv).putB (PWR_RAIL rail) 1 true).putB (PWR_RAIL rail) 0
      false).seeRails [rail]).noteErr PWR_STICKY 3 { mkErr 16 3 4 with loc0 := rail }).enterStop := by
    have hno : (!s.p.pgood || decide (rail ≥ 17) || railWithin rail mv 8) = false := by simp [hp, hr, hw]
    change execRailFault rail mv s = _
    unfold execRailFault State.run
    dsimp only
    rw [hno, if_neg (by decide)]
  exact ⟨_, hb, enterStop_noteErr s _ _ (by decide) (by simp) (by simp)⟩

theorem railFault_none {rail mv : Nat} (h : s.p.pgood = false ∨ 17 ≤ rail ∨ railWithin rail mv 8 = true) : Becomes (.railFault rail mv) s s.p := by
  have hno : (!s.p.pgood || decide (rail ≥ 17) || railWithin rail mv 8) = true := by rcases h with h | h | h <;> simp [h]
  change execRailFault rail mv s = _
  unfold execRailFault State.run
  dsimp only
  rw [hno, if_pos rfl]

theorem frefclkLoss_stops (hp : s.p.pgood = true) : ∃ q, Becomes .frefclkLoss s q ∧ q.getB PWR_STATUS 7 = true ∧ q.getB PWR_STATUS 4 = false ∧
    q.getB PWR_STICKY 4 = true ∧ q.mem = s.p.mem ∧ q.cores = s.p.cores ∧ ∀ x, x < 4 → q.getB (MEM_STATUS x) 1 = true := by
  have hb : Becomes .frefclkLoss s (s.p.noteErr PWR_STICKY 4 { mkErr 16 4 4 with event := 4 }).enterStop := by
    change execFrefclkLoss s = _
    unfold execFrefclkLoss State.run
    dsimp only
    rw [hp, if_pos rfl]
    rfl
  exact ⟨_, hb, enterStop_noteErr s _ _ (by decide) rfl rfl⟩

/-- The machine after a reset of the part: everything as at reset, but what power and the host keep (R16, R533). -/
theorem partReset_eq (p : Part) (big up : Bool) : p.partReset big up = { Part.reset big with
    regs := (p.partReset big up).regs
    free := p.free
    hif := { Hif.reset with mem := p.hif.mem, memPoison := p.hif.memPoison }
    power := { Power.reset with up := up, gpioIn := p.power.gpioIn, tap := if up then p.power.tap else .reset } } := rfl

theorem partReset_rd (p : Part) (big up : Bool) {r : Nat} (h : r ≠ PWR_STATUS) : (p.partReset big up).rd r = regReset r % 2 ^ 64 := by
  unfold Part.partReset
  dsimp only
  rw [Part.rd_putB_other _ _ _ (Ne.symm h)]
  exact BitVec.toNat_ofNat _ _

theorem reset_of {c : Instr} {cause : Nat} {up : Bool} (hx : exec c s = .next { s with resetCause := cause, p := s.p.partReset s.fuses.big up })
    (hu : up = (up && s.p.pgood)) :
    ∃ q, exec c s = .next { s with resetCause := cause, p := q } ∧
      q = { Part.reset s.fuses.big with
        regs := q.regs
        free := s.p.free
        hif := { Hif.reset with mem := s.p.hif.mem, memPoison := s.p.hif.memPoison }
        power := { Power.reset with up := up, gpioIn := s.p.power.gpioIn, tap := if up then s.p.power.tap else .reset } } ∧
      q.pgood = (up && s.p.pgood) ∧ ∀ r, r ≠ PWR_STATUS → q.rd r = regReset r % 2 ^ 64 :=
  ⟨_, hx, partReset_eq .., hu, fun _ h => partReset_rd _ _ _ h⟩

theorem resetN_resets : exec .resetN s =
    .next { s with resetCause := causeWith s.resetCause s.p.began 0, p := s.p.partReset s.fuses.big s.p.power.up } := by
  have hx : exec .resetN s = .next (s.resetBy 0 true) := rfl
  rw [hx, State.resetBy, Bool.true_and]

theorem perstN_resets : exec .perstN s =
    .next { s with resetCause := causeWith s.resetCause s.p.began 1, p := s.p.partReset s.fuses.big s.p.power.up } := by
  have hx : exec .perstN s = .next (s.resetBy 1 true) := rfl
  rw [hx, State.resetBy, Bool.true_and]

theorem undervoltageReset_resets {cv : Nat} (h : cv < 3200) : exec (.undervoltageReset cv) s =
    .next { s with resetCause := causeWith s.resetCause s.p.began 2, p := s.p.partReset s.fuses.big false } := by
  change execUndervoltageReset cv s = _
  unfold execUndervoltageReset
  rw [if_neg (by omega), State.resetBy, Bool.false_and]

theorem cclk_unlinked (hl : s.p.hif.linkUp = false) : Becomes .cclkStop s s.p ∧ Becomes .cclkRestart s s.p := by
  constructor
  · change execCclkStop s = _
    unfold execCclkStop State.run
    dsimp only
    rw [hl, if_neg (by decide)]
  · change execCclkRestart s = _
    unfold execCclkRestart State.run
    dsimp only
    rw [hl, if_neg (by decide)]

theorem Part.setClock_regs (p : Part) (b : Bool) : p.setClock b = { p with regs := (p.setClock b).regs } := by
  simp [Part.setClock, sectors, Part.putB, Part.putF, Part.wr]

section
variable (hl : s.p.hif.linkUp = true)
include hl

theorem cclkStop_running (hr : s.p.running = true) : ∃ q, Becomes .cclkStop s q ∧ q = { s.p with regs := q.regs } ∧
    q.getB PWR_STATUS 4 = s.p.getB PWR_STATUS 4 ∧ q.rd HIF_STAT_ACCERR = (s.p.rd HIF_STAT_ACCERR + 1) % 2 ^ 64 := by
  have hb : Becomes .cclkStop s (s.p.bump HIF_STAT_ACCERR 1) := by
    change execCclkStop s = _
    unfold execCclkStop State.run Part.cclkStop
    dsimp only
    rw [hl, if_pos rfl, hr, if_pos rfl]
  exact ⟨_, hb, rfl, (Part.bump_off _ _ _ (by decide)).2.1 4, Part.rd_bump_same _ _ _⟩

theorem cclkStop_halted (hr : s.p.running = false) : ∃ q, Becomes .cclkStop s q ∧ q = { s.p with regs := q.regs } ∧
    q.getB PWR_STATUS 4 = false ∧ q.getB PWR_CTRL 0 = true ∧ q.clocked = false := by
  obtain ⟨r, hw⟩ : ∃ r, r = s.p.putB PWR_CTRL 0 true := ⟨_, rfl⟩
  have hrk : r = { s.p with regs := r.regs } := by rw [hw]; rfl
  have hrc : r.getB PWR_CTRL 0 = true := by rw [hw, Part.getB_putB_same _ _ _ _ (by decide)]
  have hb : Becomes .cclkStop s (r.setClock false) := by
    change execCclkStop s = _
    unfold execCclkStop State.run Part.cclkStop
    dsimp only
    rw [hl, if_pos rfl, hr, if_neg (by decide), hw]
  have h4 : (r.setClock false).getB PWR_STATUS 4 = false := by
    rw [Part.getB_congr 4 (Part.setClock_status _ _), Part.getB_putB_same _ _ _ _ (by decide)]
  refine ⟨_, hb, by rw [Part.setClock_regs, hrk], h4, ?_, ?_⟩
  · rw [(Part.setClock_off _ _ (by decide) (by decide)).2.1, hrc]
  · rw [Part.clocked, h4, Bool.false_and]

theorem cclkRestart_restarts : ∃ q, Becomes .cclkRestart s q ∧ q = { s.p with regs := q.regs } ∧ q.getB PWR_CTRL 0 = false ∧
    (s.p.power.hbmTrained = true → s.p.getB PWR_STATUS 7 = false → q.clocked = true) := by
  obtain ⟨r, hr⟩ : ∃ r, r = s.p.putB PWR_CTRL 0 false := ⟨_, rfl⟩
  have hrk : r = { s.p with regs := r.regs } := by rw [hr]; rfl
  have hrc : r.getB PWR_CTRL 0 = false := by rw [hr, Part.getB_putB_same _ _ _ _ (by decide)]
  have hr7 : r.getB PWR_STATUS 7 = s.p.getB PWR_STATUS 7 := by rw [hr, (Part.putB_off _ _ _ _ (by decide)).2.1]
  have hrt : r.power.hbmTrained = s.p.power.hbmTrained := by rw [hr]; rfl
  have hb : Becomes .cclkRestart s (if r.power.hbmTrained && !r.getB PWR_STATUS 7 then r.setClock true else r) := by
    change execCclkRestart s = _
    unfold execCclkRestart State.run Part.cclkRestart
    dsimp only
    rw [hl, if_pos rfl, hr]
  refine ⟨_, hb, ?_⟩
  rw [hrt, hr7]
  split
  · next h =>
    refine ⟨?_, by rw [(Part.setClock_off _ _ (by decide) (by decide)).2.1, hrc], fun _ h7 => ?_⟩
    · rw [Part.setClock_regs, hrk]
    · rw [Part.clocked, Part.getB_congr 4 (Part.setClock_status _ _), Part.getB_congr 7 (Part.setClock_status _ _),
        Part.getB_putB_same _ _ _ _ (by decide), Part.getB_putB_bit _ _ _ _ _ (by decide) (by decide), hr7, h7]
      rfl
  · next h => exact ⟨hrk, hrc, fun h1 h2 => absurd (by rw [h1, h2]; rfl) h⟩

end

end

/-- Settles O51: what each event of the supply, the clocks and the resets does to the part. -/
theorem supplyAndResets : Obligations.SupplyAndResets := by
  intro s p stops
  refine ⟨fun cv => supplyWarning_warns s, fun cv => supplyWarning_none s, fun cv => recoveryTimer_recovers s, fun cv => overvoltageFlag_flags s,
    fun cv => overvoltageFlag_none s, fun rail mv => railFault_stops s, fun rail mv => railFault_none s, frefclkLoss_stops s, rfl,
    fun cv h => if_pos h, ?_, cclk_unlinked s, cclkStop_running s, cclkStop_halted s, cclkRestart_restarts s⟩
  intro resets adds
  have hup : s.p.power.up = (s.p.power.up && s.p.pgood) := (Bool.and_self _).symm
  exact ⟨reset_of s (resetN_resets s) hup, reset_of s (perstN_resets s) hup, reset_of s rfl rfl,
    fun cv h => reset_of s (undervoltageReset_resets s h) rfl⟩

end Sys2Proof.Machine
end

section
/-!
PROOF. Power-up, boot and firmware (R456 to R459, R461 to R463, R480, R535, R545).
-/
namespace Sys2Proof.Machine

section
variable (s : State)

/-- The part when the rails are good and the strap is sampled, before the rails show it. -/
theorem Part.railsGood (p : Part) :
    let q := p.each (List.range 17) fun p r => p.putB (PWR_RAIL r) 0 true
    q = { p with regs := q.regs } ∧ (∀ r, r < 17 → q.getB (PWR_RAIL r) 0 = true) ∧ ∀ j, j < 0x40100 → q.SameAt p j := by
  have hl : ∀ n, let q := p.each (List.range n) fun p r => p.putB (PWR_RAIL r) 0 true
      q = { p with regs := q.regs } ∧ (∀ r, r < n → q.getB (PWR_RAIL r) 0 = true) ∧ ∀ j, j < 0x40100 → q.SameAt p j := by
    intro n
    induction n with
    | zero => exact ⟨rfl, fun r h => absurd h (Nat.not_lt_zero r), fun _ _ => Part.sameAt_of_rd rfl⟩
    | succ n ih =>
      obtain ⟨hf, hb, ho⟩ := ih
      have hstep : (p.each (List.range (n + 1)) fun p r => p.putB (PWR_RAIL r) 0 true) =
          (p.each (List.range n) fun p r => p.putB (PWR_RAIL r) 0 true).putB (PWR_RAIL n) 0 true := by
        rw [List.range_succ, Part.each, List.foldl_append]
        rfl
      generalize (p.each (List.range n) fun p r => p.putB (PWR_RAIL r) 0 true) = w at hf hb ho hstep
      intro q
      have hq : q = w.putB (PWR_RAIL n) 0 true := hstep
      refine ⟨?_, fun r hr => ?_, fun j hj => ?_⟩
      · rw [hq, hf]
        rfl
      · rw [hq]
        by_cases hn : r = n
        · rw [hn, Part.getB_putB_same _ _ _ _ (by decide)]
        · rw [(Part.putB_off _ _ _ _ (by unfold PWR_RAIL; omega)).2.1, hb r (by omega)]
      · refine Part.sameAt_of_rd ?_
        rw [hq, (Part.putB_off _ _ _ _ (by unfold PWR_RAIL; omega)).1, (ho j hj).1]
  exact hl 17

theorem powerUp_again (strap : BitVec 3) (hp : s.p.pgood = true) : exec (.powerUp strap) s = .next s := if_pos hp

theorem powerUp_powers (strap : BitVec 3) (hp : s.p.pgood = false) :
    ∃ q, exec (.powerUp strap) s = .next { s with resetCause := if s.resetCause = 0 then 8 else s.resetCause, p := q } ∧
      q = { s.p with regs := q.regs, power := { s.p.power with up := true, gpioIn := s.p.power.gpioIn / 8 * 8 + strap.toNat } } ∧
      q.pgood = true ∧ q.getB PWR_STATUS 5 = true ∧ q.getF PWR_GPIO 24 3 = strap.toNat ∧ ∀ r, r < 17 → q.getB (PWR_RAIL r) 0 = true := by
  have hg : (s.p.power.gpioIn >>> 3) <<< 3 = s.p.power.gpioIn / 8 * 8 := by rw [Nat.shiftRight_eq_div_pow, Nat.shiftLeft_eq]
  obtain ⟨w, hw⟩ : ∃ w, w = ((s.p.modPower fun x => { x with up := true, gpioIn := (x.gpioIn >>> 3) <<< 3 + strap.toNat }).putB PWR_STATUS 5
    true).putF PWR_GPIO 24 3 strap.toNat := ⟨_, rfl⟩
  have hwf : w = { s.p with
      regs := w.regs, power := { s.p.power with up := true, gpioIn := s.p.power.gpioIn / 8 * 8 + strap.toNat } } := by
    rw [hw, ← hg]
    rfl
  obtain ⟨q, hq⟩ : ∃ q, q = w.each (List.range 17) fun p r => p.putB (PWR_RAIL r) 0 true := ⟨_, rfl⟩
  have hb : exec (.powerUp strap) s = .next { s with resetCause := if s.resetCause = 0 then 8 else s.resetCause, p := q } := by
    change execPowerUp strap s = _
    unfold execPowerUp
    rw [if_neg (by simp [hp]), hq, hw]
  obtain ⟨hf, hr, ho⟩ := w.railsGood
  rw [← hq] at hf hr ho
  have hqf : q = { s.p with
      regs := q.regs, power := { s.p.power with up := true, gpioIn := s.p.power.gpioIn / 8 * 8 + strap.toNat } } := by rw [hf, hwf]
  refine ⟨q, hb, hqf, by rw [hqf]; rfl, ?_, ?_, hr⟩
  · rw [(ho _ (by decide)).2.1, hw]
    simp (disch := decide) [Part.getB_putB_same]
  · rw [(ho _ (by decide)).2.2, hw, Part.getF_putF_same _ _ _ _ _ (by decide)]
    exact Nat.mod_eq_of_lt strap.isLt

/-- The store shows itself in no other bit of the status than that of an owner. -/
theorem Part.getB_showPolicy (p : Part) (n : Nv) {i : Nat} (h : i ≠ 9) (hi : i < 64) : (p.showPolicy n).getB MGT_STATUS i = p.getB MGT_STATUS i := by
  rw [Part.getB_congr i (p.rd_showPolicy n (by decide)), Part.policyRegs]
  simp only [Part.each_cons, Part.each_nil]
  simp (disch := decide) [Part.getB_putB_bit _ _ _ _ _ (Ne.symm h) hi]

/-- The registers that firmware shows itself in as it starts (R457, R463). -/
theorem startFw_shows (n : Nv) (b : Bool) (bs : List Byte) :
    (s.startFw n b bs).p.getB MGT_STATUS 0 = b ∧ (s.startFw n b bs).p.rd MGT_FW = fwReg s.fuses (imageFw bs) % 2 ^ 64 ∧
    (s.startFw n b bs).p.rd MGT_SERIAL = serialOf s.fuses.uds % 2 ^ 64 ∧ (s.startFw n b bs).p.SameAt s.p MGT_STICKY := by
  obtain ⟨v, hv⟩ : ∃ v, v = fwReg s.fuses (imageFw bs) := ⟨_, rfl⟩
  obtain ⟨u, hu⟩ : ∃ u, u = serialOf s.fuses.uds := ⟨_, rfl⟩
  unfold State.startFw
  rw [← hv, ← hu]
  dsimp only
  have hsame : ∀ {p : Part} {j : Nat}, (∀ k, k < 4 → j ≠ MGT_GKEY k) → j ≠ MGT_STATUS → j ≠ MGT_POLICY → j ≠ TIK_GRAFT_STATUS →
      (p.showPolicy n).rd j = p.rd j := fun {p j} hk hs hp ht => (p.rd_showPolicy n ht).trans (p.rd_policyRegs n hk hs hp)
  refine ⟨?_, ?_, ?_, Part.sameAt_of_rd ?_⟩
  · rw [Part.getB_showPolicy _ _ (by decide) (by decide)]
    simp (disch := decide) [Part.getB_putB_bit, Part.getB_putB_same]
  · rw [hsame (by decide) (by decide) (by decide) (by decide), ← hv]
    simp (disch := decide)
  · rw [hsame (by decide) (by decide) (by decide) (by decide)]
    simp (disch := decide)
  · rw [hsame (by decide) (by decide) (by decide) (by decide)]
    simp (disch := decide)

@[simp] theorem Part.showPolicy_leaves (p : Part) (n : Nv) : (p.showPolicy n).mem = p.mem ∧ (p.showPolicy n).cores = p.cores ∧
    (p.showPolicy n).mgt.aliasKey = p.mgt.aliasKey ∧ (p.showPolicy n).mgt.ownerCert = p.mgt.ownerCert ∧
    (p.showPolicy n).mgt.certMin = p.mgt.certMin := by
  rw [Part.showPolicy_eq]
  exact ⟨rfl, rfl, rfl, rfl, rfl⟩

/-- What firmware that starts keeps of the part, and the identity it derives (R461, R462). -/
theorem startFw_keeps (n : Nv) (b : Bool) (bs : List Byte) :
    (s.startFw n b bs).p.mem = s.p.mem ∧ (s.startFw n b bs).p.cores = s.p.cores ∧
    (s.startFw n b bs).p.mgt.aliasKey = some (aliasPub s.fuses.uds (imageFw bs).digest) ∧ (s.startFw n b bs).p.mgt.ownerCert = n.owner ∧
    (s.startFw n b bs).p.mgt.certMin = s.fuses.svnMin := by
  obtain ⟨k, hk⟩ : ∃ k, k = aliasPub s.fuses.uds (imageFw bs).digest := ⟨_, rfl⟩
  obtain ⟨v, hv⟩ : ∃ v, v = fwReg s.fuses (imageFw bs) := ⟨_, rfl⟩
  obtain ⟨u, hu⟩ : ∃ u, u = serialOf s.fuses.uds := ⟨_, rfl⟩
  unfold State.startFw
  dsimp only
  rw [← hk, ← hv, ← hu]
  simp

theorem boot_waits (h : s.p.pgood = false ∨ s.p.began = true) : exec .boot s = .next s := by
  have hno : (!s.p.pgood || s.p.began) = true := by rcases h with h | h <;> simp [h]
  change execBoot s = _
  unfold execBoot
  rw [if_pos hno]

theorem boot_starts (hp : s.p.pgood = true) (hb : s.p.began = false) {b : Bool}
    (hs : [s.nv.tryBoot.1.preferred, !s.nv.tryBoot.1.preferred].find? s.slotValid = some b) :
    let n := s.nv.tryBoot.1
    let fw := imageFw (n.slot b).bytes
    ∃ q, exec .boot s = .next { s with nv := n, p := q } ∧ q.getF MGT_STATUS 12 4 = 3 ∧ q.getB MGT_STATUS 0 = b ∧
      q.mgt.fw = some fw ∧ q.rd MGT_FW = fwReg s.fuses fw % 2 ^ 64 ∧ q.rd MGT_SERIAL = serialOf s.fuses.uds % 2 ^ 64 ∧
      q.mgt.aliasKey = some (aliasPub s.fuses.uds fw.digest) ∧ q.mgt.ownerCert = n.owner ∧ q.mgt.certMin = s.fuses.svnMin ∧
      q.getB MGT_STICKY 0 = (s.nv.tryBoot.2 || b != n.preferred || s.p.getB MGT_STICKY 0) ∧ q.mem = s.p.mem ∧ q.cores = s.p.cores := by
  intro n fw
  have hgo : (!s.p.pgood || s.p.began) = false := by rw [hp, hb]; rfl
  obtain ⟨r, hr⟩ : ∃ r, r = (s.startFw n b (n.slot b).bytes).p := ⟨_, rfl⟩
  have hx : exec .boot s = .next { s with nv := n, p := if s.nv.tryBoot.2 || b != n.preferred then r.putB MGT_STICKY 0 true else r } := by
    change execBoot s = _
    unfold execBoot
    rw [hgo, if_neg (by decide), hr]
    simp only [hs]
    rfl
  obtain ⟨r1, r2⟩ := startFw_runs s n b (n.slot b).bytes
  obtain ⟨r3, r4, r5, -, r6, -⟩ := startFw_shows s n b (n.slot b).bytes
  obtain ⟨r7, r8, r9, r10, r11⟩ := startFw_keeps s n b (n.slot b).bytes
  rw [← hr] at r1 r2 r3 r4 r5 r6 r7 r8 r9 r10 r11
  refine ⟨_, hx, ?_⟩
  generalize (s.nv.tryBoot.2 || b != n.preferred) = fell
  cases fell with
  | true =>
    rw [if_pos rfl]
    refine ⟨?_, ?_, r2, ?_, ?_, r9, r10, r11, ?_, r7, r8⟩
    · rw [(Part.putB_off _ _ _ _ (by decide)).2.2, r1]
    · rw [(Part.putB_off _ _ _ _ (by decide)).2.1, r3]
    · rw [(Part.putB_off _ _ _ _ (by decide)).1, r4]
    · rw [(Part.putB_off _ _ _ _ (by decide)).1, r5]
    · rw [Part.getB_putB_same _ _ _ _ (by decide), Bool.true_or]
  | false =>
    rw [if_neg (by decide)]
    exact ⟨r1, r3, r2, r4, r5, r9, r10, r11, by rw [r6, Bool.false_or], r7, r8⟩

theorem boot_recovers (hp : s.p.pgood = true) (hb : s.p.began = false)
    (hs : [s.nv.tryBoot.1.preferred, !s.nv.tryBoot.1.preferred].find? s.slotValid = none) :
    ∃ q, exec .boot s = .next { s with nv := s.nv.tryBoot.1, p := q } ∧ q = { s.p with regs := q.regs } ∧ q.getF MGT_STATUS 12 4 = 5 ∧
      q.getB MGT_STICKY 1 = true ∧ q.getB MGT_STICKY 0 = (s.nv.tryBoot.2 || s.p.getB MGT_STICKY 0) := by
  have hgo : (!s.p.pgood || s.p.began) = false := by rw [hp, hb]; rfl
  obtain ⟨r, hr⟩ : ∃ r, r = if s.nv.tryBoot.2 then s.p.putB MGT_STICKY 0 true else s.p := ⟨_, rfl⟩
  have hx : exec .boot s = .next { s with nv := s.nv.tryBoot.1, p := (r.putF MGT_STATUS 12 4 5).putB MGT_STICKY 1 true } := by
    change execBoot s = _
    unfold execBoot
    rw [hgo, if_neg (by decide), hr]
    simp only [hs]
  have hrk : r = { s.p with regs := r.regs } ∧ r.getB MGT_STICKY 0 = (s.nv.tryBoot.2 || s.p.getB MGT_STICKY 0) := by
    rw [hr]
    cases s.nv.tryBoot.2 with
    | true => exact ⟨rfl, Part.getB_putB_same _ _ _ _ (by decide)⟩
    | false => exact ⟨rfl, rfl⟩
  obtain ⟨hf, h0⟩ := hrk
  refine ⟨_, hx, ?_, ?_, ?_, ?_⟩
  · rw [hf]
    rfl
  · rw [(Part.putB_off _ _ _ _ (by decide)).2.2, Part.getF_putF_same _ _ _ _ _ (by decide)]
    rfl
  · rw [Part.getB_putB_same _ _ _ _ (by decide)]
  · rw [Part.getB_putB_bit _ _ _ _ _ (by decide) (by decide), (Part.putF_off _ _ _ _ _ (by decide)).2.1, h0]

theorem fwReady_readies (h : s.p.getF MGT_STATUS 12 4 = 3) :
    ∃ q, exec .fwReady s = .next { s with nv := { s.nv with trial := false, trialBoots := 0 }, p := q } ∧
      q = { s.p with regs := q.regs, mgt := { s.p.mgt with ready := true, afterTrial := s.p.getB MGT_STATUS 8 } } ∧
      q.getF MGT_STATUS 12 4 = 4 ∧ q.getB MGT_STATUS 8 = false := by
  have hx : exec .fwReady s = .next { s with
      nv := { s.nv with trial := false, trialBoots := 0 }
      p := ((s.p.putF MGT_STATUS 12 4 4).putB MGT_STATUS 8 false).modMgt fun m => { m with ready := true, afterTrial := s.p.getB MGT_STATUS 8 } } := by
    change execFwReady s = _
    unfold execFwReady
    rw [if_neg (not_not.2 h)]
  refine ⟨_, hx, rfl, ?_, ?_⟩
  · rw [(Part.modMgt_sameAt _ _).2.2, Part.getF_putB _ _ _ _ (by decide) (by decide), Part.getF_putF_same _ _ _ _ _ (by decide)]
    rfl
  · rw [(Part.modMgt_sameAt _ _).2.1, Part.getB_putB_same _ _ _ _ (by decide)]

theorem firmwareFault_stops (ha : s.p.answers = true) : ∃ q, Becomes .firmwareFault s q ∧ q.mgt = { s.p.mgt with stopped := true } ∧
    q.getF MGT_STATUS 12 4 = 6 ∧ q.getB MGT_STICKY 7 = true ∧ q.mem = s.p.mem ∧ q.cores = s.p.cores := by
  have hgo : (!s.p.mgt.ready || s.p.mgt.stopped) = false := by
    simp only [Part.answers, Bool.and_eq_true, Bool.not_eq_true'] at ha
    simp [ha]
  have hb : Becomes .firmwareFault s ((((s.p.modMgt fun m => { m with stopped := true }).putF MGT_STATUS 12 4 6).putB MGT_STICKY 7
      true).err (mkErr 14 7 4)) := by
    change execFirmwareFault s = _
    unfold execFirmwareFault State.run
    dsimp only
    rw [hgo, if_neg (by decide)]
  have hrd : ∀ {p : Part} {j : Nat}, j < 0x100000 → j ≠ TIK_STATUS → (p.err (mkErr 14 7 4)).rd j = p.rd j := fun h ht =>
    Part.rd_err_besides (besidesRecords_hub h ht) _ _
  refine ⟨_, hb, by simp, ?_, ?_, by simp, by simp⟩
  · rw [Part.getF_congr _ _ (hrd (by decide) (by decide)), (Part.putB_off _ _ _ _ (by decide)).2.2, Part.getF_putF_same _ _ _ _ _ (by decide)]
    rfl
  · rw [Part.getB_congr _ (hrd (by decide) (by decide)), Part.getB_putB_same _ _ _ _ (by decide)]

theorem firmwareFault_none (ha : s.p.answers = false) : Becomes .firmwareFault s s.p := by
  have hno : (!s.p.mgt.ready || s.p.mgt.stopped) = true := by
    simp only [Part.answers, Bool.and_eq_false_iff, Bool.not_eq_false'] at ha
    rcases ha with h | h <;> simp [h]
  change execFirmwareFault s = _
  unfold execFirmwareFault State.run
  dsimp only
  rw [hno, if_pos rfl]

end

/-- Settles O46: what power-up, the boot ROM and the firmware's own steps do. -/
theorem powerUpAndBoot : Obligations.PowerUpAndBoot := by
  intro s p n fell
  refine ⟨powerUp_again s, powerUp_powers s, boot_waits s, fun hp hb => ⟨fun b hs => boot_starts s hp hb hs, boot_recovers s hp hb⟩,
    fun ht hb => ?_, fun ht hb => ?_, fun ht => ?_, fwReady_readies s, fun h => if_pos h, firmwareFault_stops s, firmwareFault_none s⟩
  · have hx : s.nv.tryBoot = ({ s.nv with preferred := !s.nv.preferred, trial := false }, true) := by
      rw [Nv.tryBoot, if_neg (by simp [ht]), if_pos hb]
    exact ⟨congrArg Prod.fst hx, congrArg Prod.snd hx⟩
  · have hx : s.nv.tryBoot = ({ s.nv with trialBoots := 1 }, false) := by
      rw [Nv.tryBoot, if_neg (by simp [ht]), if_neg (by omega), hb]
    exact ⟨congrArg Prod.fst hx, congrArg Prod.snd hx⟩
  · have hx : s.nv.tryBoot = (s.nv, false) := by
      rw [Nv.tryBoot, if_pos (by simp [ht])]
    exact ⟨congrArg Prod.fst hx, congrArg Prod.snd hx⟩

end Sys2Proof.Machine
end

section
/-!
SUPPORT. What a trace record, an error record and a freeze leave of the observation unit, and the registers of the hub they write.
-/
namespace Sys2Proof.Machine

@[simp] theorem Part.trace_obsFields (p : Part) (b kind pair core a v : Nat) :
    (p.trace b kind pair core a v).obs.recs = p.obs.recs ∧ (p.trace b kind pair core a v).obs.distinct = p.obs.distinct ∧
    (p.trace b kind pair core a v).obs.first = p.obs.first ∧ (p.trace b kind pair core a v).obs.pairs = p.obs.pairs ∧
    (p.trace b kind pair core a v).obs.poisonJobs = p.obs.poisonJobs ∧ (p.trace b kind pair core a v).obs.dups = p.obs.dups ∧
    (p.trace b kind pair core a v).obs.retired = p.obs.retired ∧ (p.trace b kind pair core a v).obs.notes = p.obs.notes ∧
    (p.trace b kind pair core a v).obs.noticeFrame = p.obs.noticeFrame ∧ (p.trace b kind pair core a v).obs.noticeFrom = p.obs.noticeFrom ∧
    (p.trace b kind pair core a v).obs.frozen = p.obs.frozen ∧ (p.trace b kind pair core a v).obs.clearPending = p.obs.clearPending ∧
    (p.trace b kind pair core a v).obs.testQueued = p.obs.testQueued ∧ (p.trace b kind pair core a v).obs.packs = p.obs.packs ∧
    (p.trace b kind pair core a v).obs.scanOut = p.obs.scanOut := by
  unfold Part.trace
  dsimp only
  repeat' split
  all_goals simp

@[simp] theorem Part.freezeFrom_obsFields (p : Part) (n : Nat) (e : Option Nat) (corr : Nat) :
    (p.freezeFrom n e corr).obs.recs = p.obs.recs ∧ (p.freezeFrom n e corr).obs.distinct = p.obs.distinct ∧
    (p.freezeFrom n e corr).obs.first = p.obs.first ∧ (p.freezeFrom n e corr).obs.pairs = p.obs.pairs ∧
    (p.freezeFrom n e corr).obs.poisonJobs = p.obs.poisonJobs ∧ (p.freezeFrom n e corr).obs.dups = p.obs.dups ∧
    (p.freezeFrom n e corr).obs.retired = p.obs.retired ∧ (p.freezeFrom n e corr).obs.notes = p.obs.notes ∧
    (p.freezeFrom n e corr).obs.noticeFrame = p.obs.noticeFrame ∧ (p.freezeFrom n e corr).obs.noticeFrom = p.obs.noticeFrom ∧
    (p.freezeFrom n e corr).obs.clearPending = p.obs.clearPending ∧ (p.freezeFrom n e corr).obs.testQueued = p.obs.testQueued ∧
    (p.freezeFrom n e corr).obs.packs = p.obs.packs ∧ (p.freezeFrom n e corr).obs.scanOut = p.obs.scanOut := by
  unfold Part.freezeFrom
  dsimp only
  split
  · simp
  · split <;> simp

@[simp] theorem Part.err_obsFields (p : Part) (e : ErrRec) :
    (p.err e).obs.first = p.obs.first ∧ (p.err e).obs.pairs = p.obs.pairs ∧ (p.err e).obs.poisonJobs = p.obs.poisonJobs ∧
    (p.err e).obs.dups = p.obs.dups ∧ (p.err e).obs.retired = p.obs.retired ∧ (p.err e).obs.notes = p.obs.notes ∧
    (p.err e).obs.noticeFrame = p.obs.noticeFrame ∧ (p.err e).obs.noticeFrom = p.obs.noticeFrom ∧
    (p.err e).obs.clearPending = p.obs.clearPending ∧ (p.err e).obs.testQueued = p.obs.testQueued ∧ (p.err e).obs.packs = p.obs.packs ∧
    (p.err e).obs.scanOut = p.obs.scanOut := by
  unfold Part.err Part.freeze
  dsimp only
  repeat' split
  all_goals simp

@[simp] theorem Part.noteErr_obsFields (p : Part) (o i : Nat) (e : ErrRec) :
    (p.noteErr o i e).obs.first = p.obs.first ∧ (p.noteErr o i e).obs.pairs = p.obs.pairs ∧
    (p.noteErr o i e).obs.poisonJobs = p.obs.poisonJobs ∧ (p.noteErr o i e).obs.dups = p.obs.dups ∧
    (p.noteErr o i e).obs.retired = p.obs.retired ∧ (p.noteErr o i e).obs.notes = p.obs.notes ∧
    (p.noteErr o i e).obs.noticeFrame = p.obs.noticeFrame ∧ (p.noteErr o i e).obs.noticeFrom = p.obs.noticeFrom ∧
    (p.noteErr o i e).obs.clearPending = p.obs.clearPending ∧ (p.noteErr o i e).obs.testQueued = p.obs.testQueued ∧
    (p.noteErr o i e).obs.packs = p.obs.packs ∧ (p.noteErr o i e).obs.scanOut = p.obs.scanOut := by
  simp [Part.noteErr]

/-- The registers of the hub that records and freezes write. -/
def recordRegs : List Nat :=
  [TIK_STATUS, OBS_STATUS, OBS_STICKY, OBS_STICKY + 4, OBS_TEST_STATUS, OBS_STAT_ERRDROP, OBS_ERR_SEQ, OBS_STAT_ERRREC, OBS_STAT_TDROP]

section
variable (p : Part) {j : Nat} (h : j < 0x2000000) (hj : j ∉ recordRegs)
include h hj

@[simp] theorem Part.trace_sameAt (b kind pair core a v : Nat) : (p.trace b kind pair core a v).SameAt p j := by
  refine Part.sameAt_of_rd ?_
  simp only [recordRegs, List.mem_cons, List.not_mem_nil, or_false, not_or] at hj
  have hd : traceDrop b ≠ j := by
    unfold traceDrop SOBS_STAT_TDROP secBase
    split <;> omega
  unfold Part.trace
  dsimp only
  split
  · split
    · rw [Part.rd_stick_other _ _ (by omega) (by omega), Part.rd_bump_other _ _ hd]
    · simp
  · rfl

@[simp] theorem Part.freezeFrom_sameAt (n : Nat) (e : Option Nat) (corr : Nat) : (p.freezeFrom n e corr).SameAt p j := by
  refine Part.sameAt_of_rd ?_
  have hr := hj
  simp only [recordRegs, List.mem_cons, List.not_mem_nil, or_false, not_or] at hr
  obtain ⟨h1, h2, h3, h4, h5, -⟩ := hr
  unfold Part.freezeFrom
  dsimp only
  split
  · rfl
  · split <;> simp [h, hj, Ne.symm h1, Ne.symm h2, Ne.symm h3, Ne.symm h4, Ne.symm h5]

@[simp] theorem Part.err_sameAt (e : ErrRec) : (p.err e).SameAt p j := by
  refine Part.sameAt_of_rd ?_
  have hr := hj
  simp only [recordRegs, List.mem_cons, List.not_mem_nil, or_false, not_or] at hr
  obtain ⟨-, -, h3, h4, -, h6, h7, h8, -⟩ := hr
  unfold Part.err Part.freeze
  dsimp only
  split
  · simp
  · split
    · simp [Ne.symm h3, Ne.symm h4, Ne.symm h6]
    · split <;> simp [h, hj, Ne.symm h7, Ne.symm h8]

@[simp] theorem Part.noteErr_sameAt (o i : Nat) (e : ErrRec) (ho : o ≠ j) (ho' : o + 4 ≠ j) : (p.noteErr o i e).SameAt p j :=
  Part.sameAt_of_rd (by simp [Part.noteErr, h, hj, ho, ho'])

end

section
variable (p : Part) {i : Nat} (hi : i < 5)
include hi

/-- Of the sticky bits of the observation unit, a record sets those above the findings of the checks. -/
theorem Part.trace_sticky (b kind pair core a v : Nat) : (p.trace b kind pair core a v).getB OBS_STICKY i = p.getB OBS_STICKY i := by
  have hd : traceDrop b ≠ OBS_STICKY := by
    unfold traceDrop SOBS_STAT_TDROP secBase OBS_STAT_TDROP OBS_STICKY
    split <;> omega
  unfold Part.trace
  dsimp only
  split
  · split
    · rw [Part.getB_stick_bit _ _ (by omega) (by omega), (Part.bump_off _ _ _ hd).2.1]
    · simp
  · rfl

theorem Part.freezeFrom_sticky (n : Nat) (e : Option Nat) (corr : Nat) : (p.freezeFrom n e corr).getB OBS_STICKY i = p.getB OBS_STICKY i := by
  unfold Part.freezeFrom
  dsimp only
  split
  · rfl
  · rw [Part.trace_sticky _ hi]
    split <;> simp (disch := decide) [Part.getB_stick_bit _ _ (show (7 : Nat) ≠ i by omega) (by omega)]

theorem Part.err_sticky (e : ErrRec) : (p.err e).getB OBS_STICKY i = p.getB OBS_STICKY i := by
  unfold Part.err
  dsimp only
  split
  · simp
  · split
    · rw [Part.getB_stick_bit _ _ (by omega) (by omega), (Part.bump_off _ _ _ (by decide)).2.1]
    · split <;> simp (disch := decide) [Part.freeze, Part.freezeFrom_sticky _ hi, Part.trace_sticky _ hi]

theorem Part.noteErr_finds (e : ErrRec) : (p.noteErr OBS_STICKY i e).getB OBS_STICKY i = true := by
  rw [Part.noteErr, Part.err_sticky _ hi, Part.getB_stick_same _ _ (by omega)]

end

/-- A store into HBM writes no register of the hub. -/
@[simp] theorem Part.putHbm_off (p : Part) (a : Nat) (bs : List Byte) (t : Option Nat) {j : Nat} (h : j < 0x2000000) :
    (p.putHbm a bs t).SameAt p j := by
  have hw : MEM_STAT_WR (p.stack a / 2) ≠ j := by unfold MEM_STAT_WR secBase; omega
  refine Part.sameAt_of_rd ?_
  rw [Part.putHbm, Part.rd_bump_other _ _ hw]
  exact (Part.each_get (fun q => q.rd j) _ _ _ fun q s => by
    have hs : TBL_STAT_RC_INVAL s ≠ j := by unfold TBL_STAT_RC_INVAL secBase; omega
    dsimp only
    split
    · rfl
    · rw [Part.rd_bump_other _ _ hs]
      simp).trans (by simp)

end Sys2Proof.Machine
end

section
/-!
PROOF. Duplicate execution and self-test (R490, R491, R493, R494, R501 to R503).
-/
namespace Sys2Proof.Machine

theorem flatMap_drop {α : Type} [DecidableEq α] (l : List α) (d : α) :
    (l.flatMap fun e => if e == d then [] else [e]) = l.filter fun e => e ≠ d := by
  induction l with
  | nil => rfl
  | cons e l ih =>
    rw [List.flatMap_cons, ih]
    by_cases h : e = d <;> simp [h]

theorem flatMap_replace {α : Type} [DecidableEq α] (l : List α) (d d' : α) :
    (l.flatMap fun e => if e == d then [d'] else [e]) = l.map fun e => if e = d then d' else e := by
  induction l with
  | nil => rfl
  | cons e l ih =>
    rw [List.flatMap_cons, ih]
    by_cases h : e = d <;> simp [h]

theorem Part.putDup_none (p : Part) (x : Nat) (d : DupCap) : (p.putDup x d none).dups x = (p.dups x).filter fun e => e ≠ d := by
  rw [Part.putDup, Part.setDups, Part.dups, Part.modObs, spGet_spSet, if_pos rfl]
  exact flatMap_drop _ _

theorem Part.putDup_some (p : Part) (x : Nat) (d d' : DupCap) :
    (p.putDup x d (some d')).dups x = (p.dups x).map fun e => if e = d then d' else e := by
  rw [Part.putDup, Part.setDups, Part.dups, Part.modObs, spGet_spSet, if_pos rfl]
  exact flatMap_replace _ _ _

@[simp] theorem Part.putDup_leaves (p : Part) (x : Nat) (d : DupCap) (n : Option DupCap) : (p.putDup x d n).mem = p.mem ∧
    (p.putDup x d n).cores = p.cores ∧ (p.putDup x d n).obs.retired = p.obs.retired := ⟨rfl, rfl, rfl⟩

@[simp] theorem Part.putDup_sameAt (p : Part) (x : Nat) (d : DupCap) (n : Option DupCap) {j : Nat} : (p.putDup x d n).SameAt p j :=
  Part.sameAt_of_rd rfl

/-- A retired spare is the first of the list of its sector, with its finding (R491, R502). -/
theorem Part.retireSpare_retires (p : Part) (x k : Nat) :
    spGet [] (p.retireSpare x k).obs.retired x = k :: spGet [] p.obs.retired x ∧ (p.retireSpare x k).getB OBS_STICKY 2 = true ∧
    (p.retireSpare x k).mem = p.mem ∧ (p.retireSpare x k).cores = p.cores ∧ (p.retireSpare x k).obs.dups = p.obs.dups := by
  unfold Part.retireSpare
  dsimp only
  refine ⟨?_, Part.noteErr_finds _ (by decide) _, ?_, ?_, ?_⟩ <;> simp

theorem Part.retireSpare_off (p : Part) (x k : Nat) {j : Nat} (h : j < 0x2000000) (hj : j ∉ recordRegs) (hr : OBS_STAT_RETIRED ≠ j) :
    (p.retireSpare x k).rd j = p.rd j := by
  have hs : OBS_SSTATUS x ≠ j := by unfold OBS_SSTATUS secBase; omega
  have h1 := hj
  simp only [recordRegs, List.mem_cons, List.not_mem_nil, or_false, not_or] at h1
  simp [Part.retireSpare, h, hj, hr, hs, Ne.symm h1.2.2.1, Ne.symm h1.2.2.2.1]

section
variable (s : State) (sector : BitVec 2)

section
variable {spare : Nat} {err : BitVec 64} {d : DupCap} {o : DrainOp}

theorem dupCheck_becomes (hf : (s.p.dups sector.toNat).find? (fun d => d.stage == 1) = some d) (ho : d.drain = some o) (hl : s.p.live = true)
    (hs : (s.p.dupSpares s.fuses.spares sector.toNat).contains spare = true) :
    Becomes (.dupCheck sector spare err) s (if faulty (s.p.dupRows d o) err.toNat = d.captured o.fmt.bytes then
      (s.p.putDup sector.toNat d none).bump OBS_STAT_DUP 1
    else s.p.putDup sector.toNat d (some { d with stage := 2, spare := spare, result1 := faulty (s.p.dupRows d o) err.toNat })) := by
  change execDupCheck sector spare err s = _
  unfold execDupCheck State.run
  simp only [hf, ho, hl, hs, Bool.not_true, Bool.or_self, Bool.false_eq_true, if_false]

theorem dupCheck_agrees (hf : (s.p.dups sector.toNat).find? (fun d => d.stage == 1) = some d) (ho : d.drain = some o) (hl : s.p.live = true)
    (hs : (s.p.dupSpares s.fuses.spares sector.toNat).contains spare = true)
    (hg : faulty (s.p.dupRows d o) err.toNat = d.captured o.fmt.bytes) :
    ∃ q, Becomes (.dupCheck sector spare err) s q ∧ q.mem = s.p.mem ∧ q.cores = s.p.cores ∧
      q.dups sector.toNat = (s.p.dups sector.toNat).filter (fun e => e ≠ d) ∧ q.rd OBS_STAT_DUP = (s.p.rd OBS_STAT_DUP + 1) % 2 ^ 64 := by
  have hb := dupCheck_becomes s sector (err := err) hf ho hl hs
  rw [if_pos hg] at hb
  exact ⟨_, hb, by simp, by simp, s.p.putDup_none _ d, Part.rd_bump_same _ _ _⟩

theorem dupCheck_differs (hf : (s.p.dups sector.toNat).find? (fun d => d.stage == 1) = some d) (ho : d.drain = some o) (hl : s.p.live = true)
    (hs : (s.p.dupSpares s.fuses.spares sector.toNat).contains spare = true)
    (hg : faulty (s.p.dupRows d o) err.toNat ≠ d.captured o.fmt.bytes) :
    ∃ q, Becomes (.dupCheck sector spare err) s q ∧ q = { s.p with obs := q.obs } ∧ q.dups sector.toNat =
      (s.p.dups sector.toNat).map fun e => if e = d then { d with stage := 2, spare := spare, result1 := faulty (s.p.dupRows d o) err.toNat }
        else e := by
  have hb := dupCheck_becomes s sector (err := err) hf ho hl hs
  rw [if_neg hg] at hb
  exact ⟨_, hb, rfl, s.p.putDup_some _ d _⟩

/-- The second spare decides against the primary, against the first spare, or not at all (R491). -/
theorem dupArbitrate_decides (hf : (s.p.dups sector.toNat).find? (fun d => d.stage == 2) = some d) (ho : d.drain = some o) (hl : s.p.live = true)
    (hne : spare ≠ d.spare) (hs : (s.p.dupSpares s.fuses.spares sector.toNat).contains spare = true) :
    let got := faulty (s.p.dupRows d o) err.toNat
    ∃ q, Becomes (.dupArbitrate sector spare err) s q ∧ q.mem = s.p.mem ∧ q.cores = s.p.cores ∧
      q.dups sector.toNat = (s.p.dups sector.toNat).filter (fun e => e ≠ d) ∧
      q.rd OBS_STAT_DUP = (s.p.rd OBS_STAT_DUP + 1) % 2 ^ 64 ∧
      (got = d.result1 → q.getB OBS_STICKY 0 = true ∧ q.rd OBS_STAT_DUPMIS = (s.p.rd OBS_STAT_DUPMIS + 1) % 2 ^ 64) ∧
      (got ≠ d.result1 → got = d.captured o.fmt.bytes →
        q.getB OBS_STICKY 2 = true ∧ spGet [] q.obs.retired sector.toNat = d.spare :: spGet [] s.p.obs.retired sector.toNat) ∧
      (got ≠ d.result1 → got ≠ d.captured o.fmt.bytes → q.getB OBS_STICKY 0 = true ∧ q.rd OBS_STAT_DUPMIS = s.p.rd OBS_STAT_DUPMIS) := by
  intro got
  obtain ⟨r, hr⟩ : ∃ r, r = (s.p.putDup sector.toNat d none).bump OBS_STAT_DUP 1 := ⟨_, rfl⟩
  have hb : Becomes (.dupArbitrate sector spare err) s (if got = d.result1 then r.primaryWrong sector.toNat d
      else if got = d.captured o.fmt.bytes then r.retireSpare sector.toNat d.spare else r.undecided sector.toNat d) := by
    change execDupArbitrate sector spare err s = _
    unfold execDupArbitrate State.run
    simp only [hf, ho, hl, hs, hne, decide_false, Bool.not_true, Bool.or_self, Bool.false_eq_true, if_false]
    rw [hr]
  have hrk : r.mem = s.p.mem ∧ r.cores = s.p.cores ∧ r.dups sector.toNat = (s.p.dups sector.toNat).filter (fun e => e ≠ d) ∧
      r.rd OBS_STAT_DUP = (s.p.rd OBS_STAT_DUP + 1) % 2 ^ 64 ∧ r.rd OBS_STAT_DUPMIS = s.p.rd OBS_STAT_DUPMIS ∧
      r.obs.retired = s.p.obs.retired := by
    rw [hr]
    refine ⟨rfl, rfl, s.p.putDup_none _ d, Part.rd_bump_same _ _ _, ?_, rfl⟩
    simp (disch := decide)
  obtain ⟨k1, k2, k3, k4, k5, k6⟩ := hrk
  refine ⟨_, hb, ?_⟩
  by_cases h1 : got = d.result1
  · rw [if_pos h1]
    refine ⟨?_, ?_, ?_, ?_, fun _ => ⟨?_, ?_⟩, fun h => absurd h1 h, fun h => absurd h1 h⟩
    · simp [Part.primaryWrong, Part.note, Part.addPair, k1]
    · simp [Part.primaryWrong, Part.note, Part.addPair, k2]
    · rw [← k3]
      simp [Part.primaryWrong, Part.note, Part.addPair, Part.dups]
    · simp (disch := decide) [Part.primaryWrong, Part.note, Part.addPair, k4]
    · simp (disch := decide) [Part.primaryWrong, Part.note, Part.addPair, Part.err_sticky, Part.getB_stick_same]
    · simp (disch := decide) [Part.primaryWrong, Part.note, Part.addPair, k5]
  · rw [if_neg h1]
    by_cases h2 : got = d.captured o.fmt.bytes
    · rw [if_pos h2]
      obtain ⟨e1, e2, e3, e4, e5⟩ := r.retireSpare_retires sector.toNat d.spare
      refine ⟨e3.trans k1, e4.trans k2, ?_, ?_, fun h => absurd h h1, fun _ _ => ⟨e2, by rw [e1, k6]⟩, fun _ h => absurd h2 h⟩
      · rw [Part.dups, e5]
        exact k3
      · rw [Part.retireSpare_off _ _ _ (by decide) (by decide) (by decide), k4]
    · rw [if_neg h2]
      refine ⟨?_, ?_, ?_, ?_, fun h => absurd h h1, fun _ h => absurd h h2, fun _ _ => ⟨?_, ?_⟩⟩
      · simp [Part.undecided, Part.note, Part.addPair, k1]
      · simp [Part.undecided, Part.note, Part.addPair, k2]
      · rw [← k3]
        simp [Part.undecided, Part.note, Part.addPair, Part.dups]
      · simp (disch := decide) [Part.undecided, Part.note, Part.addPair, k4]
      · simp (disch := decide) [Part.undecided, Part.note, Part.addPair, Part.err_sticky, Part.getB_stick_same]
      · simp (disch := decide) [Part.undecided, Part.note, Part.addPair, k5]

end

section
variable {k : Packet} (hk : (s.p.fab.rx.find? fun k => k.cls == 3 && k.kind == 9) = some k) (hr : s.p.role ≠ 0)
include hk hr

/-- A notice that names a later frame is the one that is kept (R494). -/
theorem integrityNotice_later (h : s.p.obs.noticeFrom = [] ∨ s.p.obs.noticeFrame < leAt k.payload 0 8) :
    ∃ q, Becomes .integrityNoticeReceive s q ∧ q.fab = { s.p.fab with rx := s.p.fab.rx.erase k } ∧
      q.obs = { s.p.obs with noticeFrame := leAt k.payload 0 8, noticeFrom := [k.src] } ∧ q.mem = s.p.mem ∧ q.cores = s.p.cores := by
  have hno : (decide (s.p.role = 0) || (!s.p.obs.noticeFrom.isEmpty && decide (leAt k.payload 0 8 < s.p.obs.noticeFrame))) = false := by
    rcases h with h | h
    · simp [hr, h]
    · simp only [hr, decide_false, Bool.false_or, Bool.and_eq_false_iff, decide_eq_false_iff_not]
      exact .inr (by omega)
  have hnew : (s.p.obs.noticeFrom.isEmpty || decide (s.p.obs.noticeFrame < leAt k.payload 0 8)) = true := by
    rcases h with h | h <;> simp [h]
  have hb : ∃ v, Becomes .integrityNoticeReceive s (((s.p.takeRx k).modObs fun o =>
      { o with noticeFrame := leAt k.payload 0 8, noticeFrom := [k.src] }).wr OBS_NOTICE v) := by
    apply Exists.intro
    change execIntegrityNoticeReceive s = _
    unfold execIntegrityNoticeReceive State.run
    simp only [hk]
    have hrole : (s.p.takeRx k).role = s.p.role := rfl
    have hobs : (s.p.takeRx k).obs = s.p.obs := rfl
    rw [hrole, hobs, hno, hnew]
    simp only [Bool.false_eq_true, if_false, if_true, List.contains_nil]
    rfl
  obtain ⟨v, hb⟩ := hb
  exact ⟨_, hb, rfl, rfl, rfl, rfl⟩

theorem integrityNotice_earlier (h0 : s.p.obs.noticeFrom ≠ []) (h : leAt k.payload 0 8 < s.p.obs.noticeFrame) :
    Becomes .integrityNoticeReceive s { s.p with fab := { s.p.fab with rx := s.p.fab.rx.erase k } } := by
  have hyes : (decide (s.p.role = 0) || (!s.p.obs.noticeFrom.isEmpty && decide (leAt k.payload 0 8 < s.p.obs.noticeFrame))) = true := by
    simp [h0, h]
  change execIntegrityNoticeReceive s = _
  unfold execIntegrityNoticeReceive State.run
  simp only [hk]
  have hrole : (s.p.takeRx k).role = s.p.role := rfl
  have hobs : (s.p.takeRx k).obs = s.p.obs := rfl
  rw [hrole, hobs, hyes, if_pos rfl]
  rfl

end

section
variable {unit pattern : Nat} (hl : s.p.live = true) (hu : (s.p.testSpares s.fuses.spares sector.toNat).contains unit = true)
include hl hu

theorem selftestSlice_passes : ∃ q, Becomes (.selftestSlice sector true unit pattern true) s q ∧ q = { s.p with regs := q.regs } ∧
    q.rd OBS_STAT_SLICE = (s.p.rd OBS_STAT_SLICE + 1) % 2 ^ 64 := by
  have hb : Becomes (.selftestSlice sector true unit pattern true) s (s.p.bump OBS_STAT_SLICE 1) := by
    change execSelftestSlice sector true unit pattern true s = _
    unfold execSelftestSlice State.run
    simp only [hl, hu, if_true, Bool.not_true, Bool.or_self, Bool.false_eq_true, if_false]
  exact ⟨_, hb, rfl, Part.rd_bump_same _ _ _⟩

theorem selftestSlice_retires (hp : s.p.packagePattern pattern = false) :
    ∃ q, Becomes (.selftestSlice sector true unit pattern false) s q ∧ q.mem = s.p.mem ∧ q.cores = s.p.cores ∧
      spGet [] q.obs.retired sector.toNat = unit :: spGet [] s.p.obs.retired sector.toNat ∧ q.getB OBS_STICKY 2 = true := by
  have hb : Becomes (.selftestSlice sector true unit pattern false) s
      ((s.p.bump OBS_STAT_SLICE 1).fresh.2.retireSpare sector.toNat unit) := by
    have hp' : (s.p.bump OBS_STAT_SLICE 1).fresh.2.packagePattern pattern = false := hp
    change execSelftestSlice sector true unit pattern false s = _
    unfold execSelftestSlice State.run
    simp only [hl, hu, hp', if_true, Bool.not_true, Bool.or_self, Bool.false_and, Bool.false_eq_true, if_false]
  obtain ⟨e1, e2, e3, e4, -⟩ := (s.p.bump OBS_STAT_SLICE 1).fresh.2.retireSpare_retires sector.toNat unit
  exact ⟨_, hb, e3, e4, e1, e2⟩

end

theorem fullTestRequest_queues (hl : s.p.hif.linkUp = true) (hq : s.p.obs.testQueued = false) :
    ∃ q, Becomes .fullTestRequest s q ∧ q = { s.p with regs := q.regs, obs := { s.p.obs with testQueued := true } } ∧
      q.getB OBS_STATUS 3 = true ∧ q.getF OBS_TEST_STATUS 0 4 = 1 := by
  have hb : Becomes .fullTestRequest s (((s.p.putB OBS_STATUS 3 true).putF OBS_TEST_STATUS 0 4 1).modObs fun o => { o with testQueued := true }) := by
    change execFullTestRequest s = _
    unfold execFullTestRequest State.run Part.testRequest
    simp only [hl, hq, if_true, Bool.false_eq_true, if_false]
  refine ⟨_, hb, rfl, ?_, ?_⟩
  · simp (disch := decide) [Part.getB_putB_same]
  · simp (disch := decide) [Part.getF_putF_same]

theorem fullTestCancel_cancels (hl : s.p.hif.linkUp = true) (hq : s.p.obs.testQueued = true) :
    ∃ q, Becomes .fullTestCancel s q ∧ q = { s.p with regs := q.regs, obs := { s.p.obs with testQueued := false } } ∧
      q.getB OBS_STATUS 3 = false ∧ q.getF OBS_TEST_STATUS 0 4 = 7 := by
  have hb : Becomes .fullTestCancel s (((s.p.putB OBS_STATUS 3 false).putF OBS_TEST_STATUS 0 4 7).modObs fun o => { o with testQueued := false }) := by
    change execFullTestCancel s = _
    unfold execFullTestCancel State.run Part.testCancel
    simp only [hl, hq, if_true, Bool.not_true, Bool.false_eq_true, if_false]
  refine ⟨_, hb, rfl, ?_, ?_⟩
  · simp (disch := decide) [Part.getB_putB_same]
  · simp (disch := decide) [Part.getF_putF_same]

theorem fullTestCancel_none (hl : s.p.hif.linkUp = true) (hq : s.p.obs.testQueued = false) : Becomes .fullTestCancel s s.p := by
  change execFullTestCancel s = _
  unfold execFullTestCancel State.run Part.testCancel
  simp only [hl, hq, if_true, Bool.not_false]

theorem fullTestRequest_again (hl : s.p.hif.linkUp = true) (hq : s.p.obs.testQueued = true) : Becomes .fullTestRequest s s.p := by
  change execFullTestRequest s = _
  unfold execFullTestRequest State.run Part.testRequest
  simp only [hl, hq, if_true]

@[simp] theorem Part.toMasters_idInForce (p : Part) (kind ref : Nat) (bs : List Byte) :
    (p.toMasters kind ref bs).fab.idInForce = p.fab.idInForce :=
  Part.each_keeps (fun r => r.fab.idInForce) (fun r d => r.sendPacket d 3 kind ref 0 bs) (fun _ _ => rfl) _ _

@[simp] theorem Part.holdSend_leaves (p : Part) (source : Nat) : (p.holdSend source).cores = p.cores ∧ (p.holdSend source).obs = p.obs ∧
    (p.holdSend source).fab.idInForce = p.fab.idInForce := by
  rw [Part.holdSend, Part.showHold_fab]
  unfold Part.showHold
  dsimp only
  split <;> simp

/-- Saving a code partition writes memory, and of the hub nothing. -/
theorem Part.saveCode_keepsHub (p : Part) (c : Nat) :
    (p.saveCode c).cores = p.cores ∧ (p.saveCode c).obs = p.obs ∧ (p.saveCode c).fab = p.fab ∧
    ∀ j, j < 0x2000000 → (p.saveCode c).rd j = p.rd j := by
  unfold Part.saveCode
  dsimp only
  split
  · exact ⟨rfl, rfl, rfl, fun _ _ => rfl⟩
  · refine ⟨?_, ?_, ?_, fun j hj => ?_⟩
    · exact Part.each_keeps Part.cores _ (fun _ _ => by simp) _ _
    · exact Part.each_keeps Part.obs _ (fun _ _ => by simp) _ _
    · exact Part.each_keeps Part.fab _ (fun _ _ => by simp) _ _
    · exact Part.each_keeps (fun r => r.rd j) _ (fun _ _ => by simp [hj]) _ _

theorem fullTestRun_passes (hl : s.p.live = true) (hq : s.p.obs.testQueued = true) (hp : 3 ≤ s.p.phase)
    (hr : s.p.running = false ∨ s.p.getB TIK_STATUS 11 = true) :
    ∃ q, Becomes (.fullTestRun [] []) s q ∧ q.getB OBS_STATUS 3 = false ∧ q.getF OBS_TEST_STATUS 0 4 = 5 ∧ q.obs.testQueued = false ∧
      q.cores = s.p.cores ∧ ∀ d ∈ s.p.masters, (⟨0, s.p.chip, d, s.p.epoch, 3, 0, 7, 2, 0, []⟩ : Packet) ∈ q.fab.txq := by
  obtain ⟨r, hr'⟩ : ∃ r, r = ((s.p.holdSend 2).putB OBS_STATUS 3 false).modObs fun o => { o with testQueued := false } := ⟨_, rfl⟩
  obtain ⟨l, hl'⟩ : ∃ l, l = (List.range 8192).filter s.p.validCore := ⟨_, rfl⟩
  obtain ⟨w, hw⟩ : ∃ w, w = (r.each l Part.saveCode).each l Part.testArea := ⟨_, rfl⟩
  have hb : Becomes (.fullTestRun [] []) s ((w.wr OBS_TEST_STATUS 5).releaseSend 2) := by
    have hno : (!s.p.live || !s.p.obs.testQueued || decide (s.p.phase < 3) || (s.p.running && !s.p.getB TIK_STATUS 11)) = false := by
      rcases hr with h | h <;> simp [hl, hq, h, hp]
    change execFullTestRun [] [] s = _
    unfold execFullTestRun State.run
    dsimp only
    rw [hno, if_neg (by decide), ← hl', ← hr', ← hw]
    rfl
  have hwk : w.cores = r.cores ∧ w.obs = r.obs ∧ w.fab = r.fab ∧ ∀ j, j < 0x2000000 → w.rd j = r.rd j := by
    rw [hw]
    refine ⟨?_, ?_, ?_, fun j hj => ?_⟩
    · exact (Part.each_keeps Part.cores Part.testArea (fun _ _ => rfl) _ _).trans (Part.each_keeps Part.cores _ (fun p c => (p.saveCode_keepsHub c).1) _ _)
    · exact (Part.each_keeps Part.obs Part.testArea (fun _ _ => rfl) _ _).trans (Part.each_keeps Part.obs _ (fun p c => (p.saveCode_keepsHub c).2.1) _ _)
    · exact (Part.each_keeps Part.fab Part.testArea (fun _ _ => rfl) _ _).trans (Part.each_keeps Part.fab _ (fun p c => (p.saveCode_keepsHub c).2.2.1) _ _)
    · exact (Part.each_keeps (fun r => r.rd j) Part.testArea (fun _ _ => rfl) _ _).trans
        (Part.each_keeps (fun r => r.rd j) _ (fun p c => (p.saveCode_keepsHub c).2.2.2 j hj) _ _)
  obtain ⟨k1, k2, k3, k4⟩ := hwk
  have hrk : r.cores = s.p.cores ∧ r.obs.testQueued = false ∧ r.fab.idInForce = s.p.fab.idInForce ∧ r.getB OBS_STATUS 3 = false ∧
      r.rd TIK_MASTER = s.p.rd TIK_MASTER ∧ r.rd TIK_COUNT = s.p.rd TIK_COUNT := by
    rw [hr']
    simp (disch := decide) [Part.getB_putB_same]
  obtain ⟨r1, r2, r3, r4, r5, r6⟩ := hrk
  refine ⟨_, hb, ?_, ?_, ?_, ?_, fun d hd => ?_⟩
  · rw [(Part.releaseSend_sameAt _ _).2.1, (Part.wr_off _ _ _ (by decide)).2.1, Part.getB_congr 3 (k4 _ (by decide)), r4]
  · rw [(Part.releaseSend_sameAt _ _).2.2, Part.getF, Part.rd_wr_same]
    rfl
  · simp [Part.releaseSend, k2, r2]
  · simp [Part.releaseSend, k1, r1]
  · refine s.p.toMasters_sendsAs ?_ ?_ ?_ 7 2 [] hd
    · rw [(Part.wr_off _ _ _ (by decide)).1, k4 _ (by decide), r5]
    · rw [(Part.wr_off _ _ _ (by decide)).1, k4 _ (by decide), r6]
    · exact (congrArg Fabric.idInForce k3).trans r3

theorem fullTestRun_none (h : s.p.live = false ∨ s.p.obs.testQueued = false) (l m : List Nat) : Becomes (.fullTestRun l m) s s.p := by
  have hno : (!s.p.live || !s.p.obs.testQueued || decide (s.p.phase < 3) || (s.p.running && !s.p.getB TIK_STATUS 11)) = true := by
    rcases h with h | h <;> simp [h]
  change execFullTestRun l m s = _
  unfold execFullTestRun State.run
  dsimp only
  rw [hno, if_pos rfl]

end

/-- Settles O52: what each step of duplicate execution and of the self-test leaves. -/
theorem integrityChecks : Obligations.IntegrityChecks := by
  intro s sector p x
  exact ⟨fun spare err d o hf ho hl hs => ⟨dupCheck_agrees s sector hf ho hl hs, dupCheck_differs s sector hf ho hl hs⟩,
    fun spare err d o hf ho hl hne hs => dupArbitrate_decides s sector hf ho hl hne hs,
    fun k hk hr => ⟨integrityNotice_later s hk hr, integrityNotice_earlier s hk hr⟩,
    fun unit pattern hl hu => ⟨selftestSlice_passes s sector hl hu, selftestSlice_retires s sector hl hu⟩,
    fun hl hq => ⟨fullTestRequest_queues s hl hq, fullTestCancel_none s hl hq⟩,
    fun hl hq => ⟨fullTestCancel_cancels s hl hq, fullTestRequest_again s hl hq⟩, fullTestRun_passes s, fullTestRun_none s⟩

end Sys2Proof.Machine
end

section
/-!
PROOF. Freeze, scan and the TAP (R512 to R515, R546).
-/
namespace Sys2Proof.Machine

/-- A flooded message goes out on every up bundle but the one it came by, twice. -/
theorem Part.flood_floods (p : Part) (e : Option Nat) (corr : Nat) (m : CtlMsg) : Floods p (p.flood e corr m) p.cycle e corr m := by
  intro b n hb he hn
  have hup : p.bundleUp b = true := List.any_eq_true.2 ⟨n, List.mem_of_find?_eq_some hn, List.find?_some hn⟩
  have hmem : b ∈ (List.range 8).filter fun b => p.bundleUp b && e != some b := by
    simp [hb, hup, he]
  have hin : ∀ x ∈ p.ctlCopies corr m b, x ∈ (p.flood e corr m).fab.ctlOut := fun x hx =>
    List.mem_append_right _ (List.mem_flatMap.2 ⟨b, hmem, hx⟩)
  rw [Part.ctlCopies, hn] at hin
  exact ⟨hin _ (by simp), hin _ (by simp)⟩

/-- The ports of a part show alike in another. -/
def Part.SamePorts (r p : Part) : Prop := ∀ n, n < 34 → r.rd (FAB_PSTATUS n) = p.rd (FAB_PSTATUS n)

theorem bundlePorts_lt {b n : Nat} (hb : b < 8) (h : n ∈ bundlePorts b) : n < 34 := by
  have hall : ∀ b, b < 8 → ∀ n ∈ bundlePorts b, n < 34 := by decide
  exact hall b hb n h

/-- The port of a bundle that carries control messages is one whose state it shows. -/
theorem Part.SamePorts.ctlPort {r p : Part} (h : r.SamePorts p) {b : Nat} (hb : b < 8) : r.ctlPort b = p.ctlPort b := by
  have hc : ∀ l : List Nat, (∀ n ∈ l, n < 34) → l.find? r.portRuns = l.find? p.portRuns := by
    intro l
    induction l with
    | nil => exact fun _ => rfl
    | cons n l ih =>
      intro hl
      have hn : r.portRuns n = p.portRuns n := by
        unfold Part.portRuns Part.getF
        rw [h n (hl n List.mem_cons_self)]
      rw [List.find?_cons, List.find?_cons, hn, ih fun k hk => hl k (List.mem_cons_of_mem n hk)]
  exact hc _ fun n hn => bundlePorts_lt hb hn

/-- A flood of a part with the same ports is a flood of the part itself. -/
theorem Floods.of_same {p r q : Part} {t : Nat} {e : Option Nat} {corr : Nat} {m : CtlMsg} (h : Floods r q t e corr m)
    (hp : r.SamePorts p) {q' : Part} (hq : q'.fab.ctlOut = q.fab.ctlOut) : Floods p q' t e corr m := by
  intro b n hb he hn
  rw [hq]
  exact h b n hb he ((hp.ctlPort hb).trans hn)

/-- A trace record writes none of the status of the observation unit. -/
theorem Part.trace_obsStatus (p : Part) (b kind pair core a v : Nat) : (p.trace b kind pair core a v).SameAt p OBS_STATUS := by
  refine Part.sameAt_of_rd ?_
  have hd : traceDrop b ≠ OBS_STATUS := by
    unfold traceDrop SOBS_STAT_TDROP secBase OBS_STAT_TDROP OBS_STATUS
    split <;> omega
  unfold Part.trace
  dsimp only
  split
  · split
    · rw [Part.rd_stick_other _ _ (by decide) (by decide), Part.rd_bump_other _ _ hd]
    · simp
  · rfl

section
variable (p : Part) (source : Nat)

/-- A freeze that begins (R512). -/
theorem Part.freeze_freezes (h : p.obs.frozen = false) :
    let q := p.freeze source
    q.obs.frozen = true ∧ q.getB OBS_STATUS 5 = true ∧ q.power.freezeOut = true ∧ q.getB TIK_STATUS 11 = true ∧
      q.tick = { p.tick with stopAfter := true } ∧ q.mem = p.mem ∧ q.cores = p.cores ∧ q.live = false ∧ Floods p q p.cycle none 0 .freeze := by
  intro q
  obtain ⟨r, hr⟩ : ∃ r, r = (((p.modObs fun o => { o with frozen := true }).putB OBS_STATUS 5 true).stick OBS_STICKY 7).modPower
    fun w => { w with freezeOut := true } := ⟨_, rfl⟩
  obtain ⟨u, hu⟩ : ∃ u, u = (r.flood none 0 .freeze).modFab fun f => { f with frozenSeen := true } := ⟨_, rfl⟩
  obtain ⟨v, hv⟩ : ∃ v, v = if u.getB OBS_STATUS 4 then (u.putB OBS_STATUS 4 false).putF OBS_TEST_STATUS 0 4 7 else u := ⟨_, rfl⟩
  have hq : q = ((v.putB TIK_STATUS 11 true).modTick fun t => { t with stopAfter := true }).trace 4 8 0 0xFFFF source 0 := by
    change p.freezeFrom source none 0 = _
    unfold Part.freezeFrom
    dsimp only
    rw [if_neg (by simp [h]), hv, hu, hr]
  have hvk : v.obs.frozen = true ∧ v.getB OBS_STATUS 5 = true ∧ v.power.freezeOut = true ∧ v.tick = p.tick ∧ v.mem = p.mem ∧ v.cores = p.cores ∧
      v.fab.ctlOut = u.fab.ctlOut := by
    have huk : u.obs.frozen = true ∧ u.getB OBS_STATUS 5 = true ∧ u.power.freezeOut = true ∧ u.tick = p.tick ∧ u.mem = p.mem ∧
        u.cores = p.cores := by
      rw [hu, hr]
      simp (disch := decide) [Part.getB_putB_same]
    obtain ⟨u1, u2, u3, u4, u5, u6⟩ := huk
    rw [hv]
    split
    · simp (disch := decide) [Part.getB_putB_bit, u1, u2, u3, u4, u5, u6]
    · exact ⟨u1, u2, u3, u4, u5, u6, rfl⟩
  obtain ⟨v1, v2, v3, v4, v5, v6, v7⟩ := hvk
  have hfl : Floods r (r.flood none 0 .freeze) p.cycle none 0 .freeze := by
    have hc : r.cycle = p.cycle := by rw [hr]; simp
    exact hc ▸ r.flood_floods none 0 .freeze
  have hports : r.SamePorts p := fun n hn => by
    have hne : ∀ j, j < 0x800000 → j ≠ FAB_PSTATUS n := fun j hj => by unfold FAB_PSTATUS; omega
    rw [hr]
    simp [hne OBS_STATUS (by decide), hne OBS_STICKY (by decide), hne (OBS_STICKY + 4) (by decide)]
  have hfz : q.obs.frozen = true := by rw [hq]; simp [v1]
  have hst : (((v.putB TIK_STATUS 11 true).modTick fun t => { t with stopAfter := true }).trace 4 8 0 0xFFFF source 0).getB OBS_STATUS 5 = true := by
    rw [(Part.trace_obsStatus _ _ _ _ _ _ _).2.1]
    simp (disch := decide) [v2]
  refine ⟨hfz, hq ▸ hst, by rw [hq]; simp [v3], ?_, by rw [hq]; simp [v4], by rw [hq]; simp [v5], by rw [hq]; simp [v6], ?_,
    hfl.of_same hports ?_⟩
  · rw [hq, (Part.trace_off _ _ _ _ _ _ _ (by decide)).2.1]
    simp (disch := decide) [Part.getB_putB_same]
  · rw [Part.live, hfz, Bool.not_true, Bool.and_false]
  · rw [hq]
    simp only [Part.trace_keeps, Part.modTick_keeps, Part.putB_keeps]
    rw [v7, hu]
    rfl

theorem Part.freeze_again (h : p.obs.frozen = true) : p.freeze source = p := by
  rw [Part.freeze, Part.freezeFrom, if_pos h]

end

section
variable (s : State)

/-- What a freeze does, or does again. -/
theorem freezes_of {c : Instr} {source : Nat} (hb : Becomes c s (s.p.freeze source)) :
    (s.p.obs.frozen = false → ∃ q, Becomes c s q ∧ q.obs.frozen = true ∧ q.getB OBS_STATUS 5 = true ∧ q.power.freezeOut = true ∧
      q.getB TIK_STATUS 11 = true ∧ q.tick = { s.p.tick with stopAfter := true } ∧ q.mem = s.p.mem ∧ q.cores = s.p.cores ∧ q.live = false ∧
      Floods s.p q s.p.cycle none 0 .freeze) ∧
    (s.p.obs.frozen = true → Becomes c s s.p) :=
  ⟨fun h => ⟨_, hb, s.p.freeze_freezes source h⟩, fun h => by rwa [s.p.freeze_again source h] at hb⟩

theorem freeze_becomes (hl : s.p.hif.linkUp = true) : Becomes .freeze s (s.p.freeze 0) := by
  change execFreeze s = _
  unfold execFreeze State.run
  dsimp only
  rw [hl, if_pos rfl]

theorem freezeIn_becomes (hp : s.p.pgood = true) (h : s.p.getB OBS_FREEZE 2 = true) : Becomes .freezeIn s (s.p.freeze 1) := by
  have hyes : (s.p.power.up && s.p.getB OBS_FREEZE 2) = true := by
    rw [h, Bool.and_true]
    exact hp
  change execFreezeIn s = _
  unfold execFreezeIn State.run
  dsimp only
  rw [hyes, if_pos rfl]

theorem freeze_unlinked (hl : s.p.hif.linkUp = false) : Becomes .freeze s s.p ∧ Becomes .thaw s s.p ∧ Becomes (.scanRead false) s s.p := by
  refine ⟨?_, ?_, ?_⟩
  · change execFreeze s = _
    unfold execFreeze State.run
    dsimp only
    rw [hl, if_neg (by decide)]
  · change execThaw s = _
    unfold execThaw State.run
    dsimp only
    rw [hl, if_neg (by decide)]
  · change execScanRead false s = _
    unfold execScanRead State.run
    dsimp only
    rw [hl, if_neg (by decide), if_neg (by decide)]

/-- Discarding work, clearing scratchpads and the captures' end leave the observation unit's freeze. -/
theorem Part.discardWork_leaves (p : Part) : p.discardWork.obs = p.obs ∧ p.discardWork.power = p.power ∧ p.discardWork.fab = p.fab ∧
    ∀ j, j < 0x2000000 → p.discardWork.rd j = p.rd j := by
  have hev : p.evLeft.obs = p.obs ∧ p.evLeft.power = p.power ∧ p.evLeft.fab = p.fab ∧ ∀ j, j < 0x2000000 → p.evLeft.rd j = p.rd j := by
    unfold Part.evLeft
    refine ⟨?_, ?_, ?_, fun j hj => ?_⟩
    · exact Part.each_keeps Part.obs _ (fun _ _ => by dsimp only; split <;> simp) _ _
    · exact Part.each_keeps Part.power _ (fun _ _ => by dsimp only; split <;> simp) _ _
    · exact Part.each_keeps Part.fab _ (fun _ _ => by dsimp only; split <;> simp) _ _
    · refine Part.each_keeps (fun r => r.rd j) _ (fun _ e => ?_) _ _
      have hc : COR_STAT_EVLEFT e.1 ≠ j := by unfold COR_STAT_EVLEFT corBase secBase; omega
      dsimp only
      split
      · rfl
      · exact Part.rd_bump_other _ _ hc
  obtain ⟨e1, e2, e3, e4⟩ := hev
  have hs : ∀ s, ∀ j, j < 0x2000000 → SCH_STAT_LEFT s ≠ j := fun s j hj => by unfold SCH_STAT_LEFT secBase; omega
  obtain ⟨w, hw⟩ : ∃ w, w = ((p.evLeft.each sectors Part.schLeft).each sectors Part.schReset).each sectors fun p s =>
    p.modUnit s fun u => { u with smpQ := [], gatQ := [], scaQ := [], lkpQ := [], running := [], ahead := [] } := ⟨_, rfl⟩
  have hd : p.discardWork = { w with cores := [], press := [], optim := [], rack := [], buckets := [], tick :=
      { w.tick with arrived := [], signals := [], markerSent := false, markersFrom := [], coresStarted := false } } := by
    unfold Part.discardWork
    dsimp only
    rw [← hw]
    rfl
  have hget : ∀ {β : Type} (get : Part → β), (∀ p s, get (Part.schLeft p s) = get p) → (∀ p s, get (Part.schReset p s) = get p) →
      (∀ p s f, get (Part.modUnit p s f) = get p) → get w = get p.evLeft := fun get h1 h2 h3 => by
    rw [hw, Part.each_get get _ _ _ fun _ _ => h3 _ _ _, Part.each_get get _ _ _ h2, Part.each_get get _ _ _ h1]
  rw [hd]
  refine ⟨?_, ?_, ?_, fun j hj => ?_⟩
  · exact (hget Part.obs (fun _ _ => rfl) (fun _ _ => rfl) fun _ _ _ => rfl).trans e1
  · exact (hget Part.power (fun _ _ => rfl) (fun _ _ => rfl) fun _ _ _ => rfl).trans e2
  · exact (hget Part.fab (fun _ _ => rfl) (fun _ _ => rfl) fun _ _ _ => rfl).trans e3
  · exact (hget (fun r => r.rd j) (fun _ s => Part.rd_bump_other _ _ (hs s j hj)) (fun _ _ => rfl) fun _ _ _ => rfl).trans (e4 j hj)

theorem Part.dupTick_leaves (p : Part) : p.dupTick.obs.frozen = p.obs.frozen ∧ p.dupTick.obs.clearPending = p.obs.clearPending ∧
    p.dupTick.power = p.power ∧ ∀ j, j ≠ OBS_STAT_DUPSKIP → p.dupTick.rd j = p.rd j := by
  unfold Part.dupTick
  refine ⟨?_, ?_, ?_, fun j hj => ?_⟩
  · refine Part.each_get (fun r => r.obs.frozen) _ _ _ fun _ _ => ?_
    rfl
  · refine Part.each_get (fun r => r.obs.clearPending) _ _ _ fun _ _ => ?_
    rfl
  · refine Part.each_get Part.power _ _ _ fun _ _ => ?_
    rfl
  · refine Part.each_get (fun r => r.rd j) _ _ _ fun _ _ => ?_
    dsimp only
    rw [Part.rd_bump_other _ _ (Ne.symm hj), Part.setDups]
    exact (Part.modObs_sameAt _ _).1

theorem thaw_thaws (hl : s.p.hif.linkUp = true) (hf : s.p.obs.frozen = true) : ∃ q, Becomes .thaw s q ∧ q.obs.frozen = false ∧
    q.obs.clearPending = false ∧ q.getB OBS_STATUS 5 = false ∧ q.power.freezeOut = false ∧ q.getB TIK_STATUS 11 = true ∧ q.running = false := by
  obtain ⟨r, hr⟩ : ∃ r, r = ((s.p.modObs fun o => { o with frozen := false, clearPending := false }).putB OBS_STATUS 5 false).modPower
    fun w => { w with freezeOut := false } := ⟨_, rfl⟩
  obtain ⟨u, hu⟩ : ∃ u, u = if s.p.obs.clearPending then r.dupTick.discardWork.clearSpads else r.dupTick.discardWork := ⟨_, rfl⟩
  have hb : Becomes .thaw s ((((u.modFab fun f => { f with rx := f.rx.filter (!dataPacket ·), txq := f.txq.filter (!dataPacket ·) }).putB
      TIK_STATUS 11 true).putB TIK_STATUS 0 false).modTick fun t => { t with coresStarted := true, stopAfter := true }) := by
    change execThaw s = _
    unfold execThaw State.run Part.thaw
    dsimp only
    rw [hl, if_pos rfl, hf, if_neg (by decide), hu, hr]
  obtain ⟨d1, d2, d3, d4⟩ := r.dupTick_leaves
  obtain ⟨w1, w2, -, w4⟩ := r.dupTick.discardWork_leaves
  have huk : u.obs.frozen = false ∧ u.obs.clearPending = false ∧ u.getB OBS_STATUS 5 = false ∧ u.power.freezeOut = false := by
    have hw : r.dupTick.discardWork.obs.frozen = false ∧ r.dupTick.discardWork.obs.clearPending = false ∧
        r.dupTick.discardWork.getB OBS_STATUS 5 = false ∧ r.dupTick.discardWork.power.freezeOut = false := by
      refine ⟨?_, ?_, ?_, ?_⟩
      · rw [w1, d1, hr]
        rfl
      · rw [w1, d2, hr]
        rfl
      · rw [Part.getB_congr 5 ((w4 _ (by decide)).trans (d4 _ (by decide))), hr]
        simp (disch := decide) [Part.getB_putB_same]
      · rw [w2, d3, hr]
        rfl
    rw [hu]
    generalize r.dupTick.discardWork = x at hw
    split
    · exact hw
    · exact hw
  obtain ⟨u1, u2, u3, u4⟩ := huk
  refine ⟨_, hb, u1, u2, ?_, u4, ?_, ?_⟩
  · simp (disch := decide) [u3]
  · simp (disch := decide) [Part.getB_putB_bit, Part.getB_putB_same]
  · simp (disch := decide) [Part.running, Part.getB_putB_same]

theorem thaw_unfrozen (hl : s.p.hif.linkUp = true) (hf : s.p.obs.frozen = false) : Becomes .thaw s s.p := by
  change execThaw s = _
  unfold execThaw State.run Part.thaw
  dsimp only
  rw [hl, if_pos rfl, hf]
  rfl

theorem scanRead_shut (hl : s.p.hif.linkUp = true) (hf : s.p.obs.frozen = false) : ∃ q, Becomes (.scanRead false) s q ∧
    q.obs = { s.p.obs with scanOut := List.replicate 4096 0#8 } ∧ q.mem = s.p.mem ∧ q.cores = s.p.cores ∧
    q.rd HIF_STAT_ACCERR = (s.p.rd HIF_STAT_ACCERR + 1) % 2 ^ 64 := by
  obtain ⟨z, hz⟩ : ∃ z, z = List.replicate 4096 (0 : Byte) := ⟨_, rfl⟩
  have hb : Becomes (.scanRead false) s ((s.p.bump HIF_STAT_ACCERR 1).modObs fun o => { o with scanOut := z }) := by
    change execScanRead false s = _
    unfold execScanRead State.run Part.scanRead
    rw [← hz]
    simp only [hl, hf, if_true, Bool.false_eq_true, if_false]
  exact ⟨_, hb, by rw [hz]; rfl, rfl, rfl, Part.rd_bump_same _ _ _⟩

/-- A scan of a scratchpad shows the 4 KiB that the address lies in (R515). -/
theorem scanRead_spad (hl : s.p.hif.linkUp = true) (hf : s.p.obs.frozen = true) (h42 : bit (s.p.rd OBS_SCAN) 42 = false)
    (hc : s.p.validCore (s.p.getF OBS_SCAN 43 13) = true) (h0 : s.p.getF OBS_SCAN 59 2 = 0)
    (ho : s.p.getF OBS_SCAN 0 32 / 4096 * 4096 + 4096 ≤ spadBytes) :
    ∃ q, Becomes (.scanRead false) s q ∧ q.mem = s.p.mem ∧ q.cores = s.p.cores ∧
      q.obs = { s.p.obs with scanOut := s.p.scanSpad (s.p.getF OBS_SCAN 43 13) (s.p.getF OBS_SCAN 0 32 / 4096 * 4096) } := by
  obtain ⟨z, hz⟩ : ∃ z, z = s.p.scanSpad (s.p.getF OBS_SCAN 43 13) (s.p.getF OBS_SCAN 0 32 / 4096 * 4096) := ⟨_, rfl⟩
  have hw : ∀ u, s.p.fresh.2.scanWindow u = z := fun u => by
    have hx : s.p.fresh.2.scanWindow u = s.p.scanWindow u := rfl
    rw [hx, hz]
    unfold Part.getF at hc h0 ho ⊢
    unfold Part.scanWindow
    dsimp only
    rw [h42, hc, h0]
    simp only [Bool.false_eq_true, if_false, Bool.not_true]
    rw [if_pos ho]
  have hb : Becomes (.scanRead false) s (s.p.fresh.2.modObs fun o => { o with scanOut := z }) := by
    change execScanRead false s = _
    unfold execScanRead State.run Part.scanRead
    simp only [hl, hf, if_true, Bool.false_eq_true, if_false, hw]
  exact ⟨_, hb, rfl, rfl, by rw [hz]; rfl⟩

/-- What an instruction of the TAP does while the part has power. -/
theorem taps_of {c : Instr} {f : Part → Tap → Tap × Part} {ir : Nat} {sample driven : List Byte} {out : List Byte → Prop}
    (hc : exec c s = s.tapRun f) (ht : (f s.p s.p.power.tap).1 = ⟨ir, sample, driven, (f s.p s.p.power.tap).1.out⟩)
    (hm : (f s.p s.p.power.tap).2.mem = s.p.mem) (hk : (f s.p s.p.power.tap).2.cores = s.p.cores) (ho : out (f s.p s.p.power.tap).1.out) :
    (s.p.pgood = true → ∃ q, Becomes c s q ∧ out q.power.tap.out ∧ q.power.tap = ⟨ir, sample, driven, q.power.tap.out⟩ ∧ q.mem = s.p.mem ∧
      q.cores = s.p.cores) ∧
    (s.p.pgood = false → Becomes c s s.p) := by
  constructor
  · intro hp
    have hb : Becomes c s ((f s.p s.p.power.tap).2.modPower fun w => { w with tap := (f s.p s.p.power.tap).1 }) := by
      rw [Becomes, hc, State.tapRun, State.run]
      simp only [hp, Bool.not_true, Bool.false_eq_true, if_false]
    exact ⟨_, hb, ho, ht, hm, hk⟩
  · intro hp
    rw [Becomes, hc, State.tapRun, State.run]
    simp only [hp, Bool.not_false, if_true]

end

/-- Settles O53: freezes, thaws, scan reads, and each instruction of the TAP. -/
theorem freezeScanAndTap : Obligations.FreezeScanAndTap := by
  intro s cells p t freezes taps
  refine ⟨fun hl => freezes_of s (freeze_becomes s hl), fun hp h => freezes_of s (freezeIn_becomes s hp h), freeze_unlinked s, thaw_thaws s,
    fun hl hf => ⟨thaw_unfrozen s hl hf, scanRead_shut s hl hf⟩, scanRead_spad s, ?_, ?_, ?_, ?_, ?_, ?_, ?_, ?_, ?_⟩
  · exact taps_of s (out := fun o => o = leBytes 4 (idCode p.big)) (by change execIdcode s = _; rw [execIdcode]) rfl rfl rfl rfl
  · exact taps_of s (out := fun o => o = [0#8]) (by change execBypass s = _; rw [execBypass]) rfl rfl rfl rfl
  · exact taps_of s (out := fun _ => True) (by change execSamplePreload cells s = _; rw [execSamplePreload]) rfl rfl rfl trivial
  · exact taps_of s (out := fun _ => True) (by change execExtest cells s = _; rw [execExtest]) rfl rfl rfl trivial
  · exact taps_of s (out := fun o => o = [0#8]) (by change execClamp s = _; rw [execClamp]) rfl rfl rfl rfl
  · exact taps_of s (out := fun o => o = [0#8]) (by change execHighz s = _; rw [execHighz]) rfl rfl rfl rfl
  · exact taps_of s (out := fun _ => True) (by change execExtestPulse cells s = _; rw [execExtestPulse]) rfl rfl rfl trivial
  · exact taps_of s (out := fun _ => True) (by change execExtestTrain cells s = _; rw [execExtestTrain]) rfl rfl rfl trivial
  · have hm : s.p.scanRead.2.mem = s.p.mem ∧ s.p.scanRead.2.cores = s.p.cores := by
      unfold Part.scanRead
      split <;> exact ⟨rfl, rfl⟩
    refine taps_of s (f := fun p t => ({ t with ir := 8, driven := [], out := p.scanRead.1 }, p.scanRead.2))
      (out := fun o => s.p.obs.frozen = false → o = List.replicate 4096 0#8) rfl rfl hm.1 hm.2 fun hf => ?_
    have hs : s.p.scanRead = (List.replicate 4096 0, s.p.bump HIF_STAT_ACCERR 1) := by rw [Part.scanRead, hf, if_neg (by decide)]
    exact congrArg Prod.fst hs

end Sys2Proof.Machine
end

section
/-!
SUPPORT. What the host stores, how a command of a queue runs and ends, and what a sweep keeps of a queue (R391, R401 to R406).
-/
namespace Sys2Proof.Machine

section
variable (p : Part)

theorem Part.hostPut_eq (a : Nat) (bs : List Byte) (t : Bool) : p.hostPut a bs t = { p with
    hif := { p.hif with mem := putBytes p.hif.mem a bs, memPoison := (p.hostPut a bs t).hif.memPoison } } := by
  unfold Part.hostPut
  split
  · next h =>
    rw [List.isEmpty_iff] at h
    rw [h]
    rfl
  · rfl

/-- What the host stores in its own memory is there, and nothing else of the part changes. -/
theorem Part.hostStores_eq (l : List HostLine) : p.hostStores l = { p with
    hif := { p.hif with mem := (p.hostStores l).hif.mem, memPoison := (p.hostStores l).hif.memPoison } } := by
  unfold Part.hostStores
  induction l generalizing p with
  | nil => rfl
  | cons x l ih =>
    rw [Part.each_cons, ih, Part.hostPut_eq]

theorem Part.runCmd_runs {n op : Nat} {f : Part → HostCmd → Part} {c : HostCmd} (h : p.nextCmd n op = some c) (hb : c.bad = false) :
    p.runCmd n op f = f p c := by
  rw [Part.runCmd, h]
  simp only [hb, Bool.false_eq_true, if_false]

theorem Part.runCmd_none {n op : Nat} {f : Part → HostCmd → Part} (h : p.nextCmd n op = none) : p.runCmd n op f = p := by
  rw [Part.runCmd, h]

theorem Part.runCmd_bad {n op : Nat} {f : Part → HostCmd → Part} {c : HostCmd} (h : p.nextCmd n op = some c) (hb : c.bad = true) :
    p.runCmd n op f = p.endCmd n c 1 0 := by
  rw [Part.runCmd, h]
  simp only [hb, if_true]

end

/-- A command ends in a part that keeps the queues and the number of the frame: it ends for the part that it began in (R405). -/
theorem Part.endCmd_endsFor {p r : Part} (hq : r.hif.queues = p.hif.queues) (ht : r.rd TIK_COUNT = p.rd TIK_COUNT)
    (hf : r.rd TIK_FRAME_NO = p.rd TIK_FRAME_NO) {n : Nat} {c : HostCmd} (hc : c ∈ (p.cq n).cmds) (status result : Nat) :
    EndsCmd p (r.endCmd n c status result) n c status result := by
  have hcq : r.cq n = p.cq n := by rw [Part.cq, Part.cq, hq]
  have hends := r.endCmd_ends n status result (c := c) (by rw [hcq]; exact hc)
  have htc : r.tickCount = p.tickCount := ht
  have hfn : r.frameNo = p.frameNo := hf
  simpa only [EndsCmd, hcq, htc, hfn] using hends

/-- A sweep of the queues: commands may have ended, and of a queue the phase, the entries not returned and its error are as before. -/
def SameMarks (p q : Part) : Prop := ∀ n, (q.cq n).phase = (p.cq n).phase ∧ (q.cq n).unret = (p.cq n).unret ∧ (q.cq n).qerr = (p.cq n).qerr

theorem SameMarks.refl (p : Part) : SameMarks p p := fun _ => ⟨rfl, rfl, rfl⟩

theorem SameMarks.trans {p q r : Part} (h : SameMarks p q) (h' : SameMarks q r) : SameMarks p r := fun n =>
  ⟨(h' n).1.trans (h n).1, (h' n).2.1.trans (h n).2.1, (h' n).2.2.trans (h n).2.2⟩

theorem SameMarks.endOne (p : Part) (n : Nat) (c : HostCmd) (status result : Nat) : SameMarks p (p.endOne n c status result) := by
  intro m
  rw [Part.endOne_cq]
  split
  · next h => subst h; exact ⟨rfl, rfl, rfl⟩
  · exact ⟨rfl, rfl, rfl⟩

theorem SameMarks.sweep (fuel : Nat) (p : Part) (n : Nat) : SameMarks p (Part.sweep fuel p n) := by
  induction fuel generalizing p with
  | zero => exact SameMarks.refl p
  | succ fuel ih =>
    unfold Part.sweep
    split
    · exact SameMarks.refl p
    · split
      · exact (SameMarks.endOne _ _ _ _ _).trans (ih _)
      · split
        · exact SameMarks.refl p
        · exact (SameMarks.endOne _ _ _ _ _).trans (ih _)

theorem SameMarks.sweepAll (p : Part) : SameMarks p p.sweepAll := by
  unfold Part.sweepAll
  generalize List.range 8 = l
  induction l generalizing p with
  | nil => exact SameMarks.refl p
  | cons n l ih => exact (SameMarks.sweep _ p n).trans (ih _)

theorem Part.startable_first {p : Part} {n : Nat} {d : HostCmd} (h : p.startable n = some d) :
    (p.cq n).cmds.find? (fun c => !c.running) = some d := by
  unfold Part.startable at h
  dsimp only at h
  split at h
  · cases h
  · next e he =>
    split at h
    · cases h; exact he
    · cases h

/-- A queue whose first waiting command has a row of its own is left as it is by every sweep (R403). -/
theorem Part.sweep_waits (fuel : Nat) (p : Part) (n m : Nat)
    (h : ∀ d, (p.cq n).cmds.find? (fun c => !c.running) = some d → d.poisoned = false ∧ hostOps.contains d.op = true) :
    (Part.sweep fuel p m).cq n = p.cq n := by
  induction fuel generalizing p with
  | zero => rfl
  | succ fuel ih =>
    unfold Part.sweep
    split
    · rfl
    · next d hd =>
      by_cases hm : m = n
      · subst hm
        obtain ⟨h1, h2⟩ := h d (Part.startable_first hd)
        rw [h1, h2, if_neg (by decide), if_pos rfl]
      · have hcq : ∀ st res, (p.endOne m d st res).cq n = p.cq n := fun st res => by rw [Part.endOne_cq, if_neg hm]
        split
        · rw [ih _ (by rw [hcq]; exact h), hcq]
        · split
          · rfl
          · rw [ih _ (by rw [hcq]; exact h), hcq]

theorem Part.sweepAll_waits (p : Part) (n : Nat)
    (h : ∀ d, (p.cq n).cmds.find? (fun c => !c.running) = some d → d.poisoned = false ∧ hostOps.contains d.op = true) :
    p.sweepAll.cq n = p.cq n := by
  unfold Part.sweepAll
  generalize List.range 8 = l
  induction l generalizing p with
  | nil => rfl
  | cons m l ih =>
    have hs := Part.sweep_waits ((p.cq m).cmds.length + 1) p n m h
    rw [Part.each_cons, ih _ (by rw [hs]; exact h), hs]

end Sys2Proof.Machine
end

section
/-!
PROOF. Command queues and completion records (R401, R403, R406, R407).
-/
namespace Sys2Proof.Machine

section
variable (s : State) (queue : BitVec 3) (host : List HostLine)

theorem sqDoorbell_becomes (tail : BitVec 16) (hl : s.p.hif.linkUp = true) :
    Becomes (.sqDoorbell queue tail host) s ((s.p.hostStores host).setTail queue.toNat tail.toNat) := by
  change execSqDoorbell queue tail host s = _
  unfold execSqDoorbell State.run
  dsimp only
  rw [hl, if_pos rfl]

theorem sqDoorbell_unlinked (tail : BitVec 16) (hl : s.p.hif.linkUp = false) : Becomes (.sqDoorbell queue tail host) s (s.p.hostStores host) := by
  change execSqDoorbell queue tail host s = _
  unfold execSqDoorbell State.run
  dsimp only
  rw [hl, if_neg (by decide)]

theorem Part.sqSize_wr (p : Part) (o v n : Nat) (h : o ≠ HIF_Q_CFG n) : (p.wr o v).sqSize n = p.sqSize n := by
  unfold Part.sqSize
  rw [(Part.wr_off _ _ _ h).2.2]

theorem Part.crSize_wr (p : Part) (o v n : Nat) (h : o ≠ HIF_Q_CFG n) : (p.wr o v).crSize n = p.crSize n := by
  unfold Part.crSize
  rw [(Part.wr_off _ _ _ h).2.2]

theorem Part.cqOn_wr (p : Part) (o v n : Nat) (h : o ≠ HIF_Q_CFG n) : (p.wr o v).cqOn n = p.cqOn n := by
  unfold Part.cqOn
  rw [(Part.wr_off _ _ _ h).2.1]

end

section
variable (p : Part) {n : Nat} (hn : n < 8)

@[simp] theorem Part.setCq_sameAt (n : Nat) (x : CmdQueue) {j : Nat} : (p.setCq n x).SameAt p j := Part.sameAt_of_rd rfl

@[simp] theorem Part.cq_wr (o v n : Nat) : (p.wr o v).cq n = p.cq n := rfl

@[simp] theorem Part.cq_hifStick (i n : Nat) : (p.hifStick i).cq n = p.cq n := (CountsOnly.stick p i).cq n

/-- A tail past the ring puts the queue in error (R401). -/
theorem Part.setTail_past {t : Nat} (hv : t < 2 ^ 64) (ht : p.sqSize n ≤ t) : (p.setTail n t).rd (HIF_SQ_TAIL n) = t ∧
    ((p.setTail n t).cq n).qerr = true ∧ (p.setTail n t).getB HIF_STICKY 7 = true ∧ ((p.setTail n t).cq n).cmds = (p.cq n).cmds ∧
    (p.setTail n t).mem = p.mem := by
  have hs : (p.wr (HIF_SQ_TAIL n) t).sqSize n ≤ t := by
    rw [Part.sqSize_wr _ _ _ _ (by unfold HIF_SQ_TAIL HIF_Q_CFG; omega)]
    exact ht
  unfold Part.setTail
  dsimp only
  rw [if_pos hs]
  have h1 : HIF_STICKY ≠ HIF_SQ_TAIL n := by unfold HIF_STICKY HIF_SQ_TAIL; omega
  have h2 : HIF_STICKY + 4 ≠ HIF_SQ_TAIL n := by unfold HIF_STICKY HIF_SQ_TAIL; omega
  refine ⟨?_, ?_, ?_, ?_, ?_⟩
  · rw [Part.hifStick, (Part.stick_off _ _ _ h1 h2).1, (Part.setCq_sameAt _ _ _).1, Part.rd_wr_same, Nat.mod_eq_of_lt hv]
  · rw [Part.cq_hifStick, Part.cq_setCq, if_pos rfl]
  · rw [Part.hifStick, Part.getB_stick_same _ _ (by decide)]
  · rw [Part.cq_hifStick, Part.cq_setCq, if_pos rfl]
    rfl
  · simp [Part.hifStick, Part.setCq]

/-- Fetching writes the head of its queue alone, and adds commands (R401). -/
theorem Part.fetchLoop_keeps (fuel : Nat) (n : Nat) : (∀ j, j ≠ HIF_SQ_HEAD n → (Part.fetchLoop fuel p n).rd j = p.rd j) ∧
    SameMarks p (Part.fetchLoop fuel p n) := by
  induction fuel generalizing p with
  | zero => exact ⟨fun _ _ => rfl, SameMarks.refl p⟩
  | succ fuel ih =>
    unfold Part.fetchLoop
    dsimp only
    split
    · exact ⟨fun _ _ => rfl, SameMarks.refl p⟩
    · obtain ⟨hr, hm⟩ := ih (((p.setCq n { p.cq n with cmds := (p.cq n).cmds ++ [HostCmd.mk
          (p.hostLine (p.getF (HIF_SQ_BASE n) 12 52 * 4096 + 64 * p.getF (HIF_SQ_HEAD n) 0 16)).1 ((p.getF (HIF_SQ_HEAD n) 0 16 + 1) % p.sqSize n)
          (p.hostLine (p.getF (HIF_SQ_BASE n) 12 52 * 4096 + 64 * p.getF (HIF_SQ_HEAD n) 0 16)).2 false 0 0 0 0] }).wr (HIF_SQ_HEAD n)
          ((p.getF (HIF_SQ_HEAD n) 0 16 + 1) % p.sqSize n)))
      refine ⟨fun j hj => (hr j hj).trans ?_, SameMarks.trans (fun m => ?_) hm⟩
      · rw [Part.rd_wr_other _ _ (Ne.symm hj)]
        rfl
      · rw [Part.cq_wr, Part.cq_setCq]
        split
        · next h => subst h; exact ⟨rfl, rfl, rfl⟩
        · exact ⟨rfl, rfl, rfl⟩

theorem Part.fetchQueue_keeps (n : Nat) : (∀ j, j ≠ HIF_SQ_HEAD n → (p.fetchQueue n).rd j = p.rd j) ∧ SameMarks p (p.fetchQueue n) := by
  unfold Part.fetchQueue
  split
  · exact p.fetchLoop_keeps _ n
  · exact ⟨fun _ _ => rfl, SameMarks.refl p⟩

include hn

theorem QueueWork.fetchQueue : QueueWork p (p.fetchQueue n) := by
  unfold Part.fetchQueue
  exact QueueWork.ite _ (QueueWork.fetchLoop _ _ hn) (QueueWork.refl p)

/-- A tail within the ring: the queue fetches (R401). -/
theorem Part.setTail_within {t : Nat} (hv : t < 2 ^ 64) (ht : t < p.sqSize n) :
    p.setTail n t = ((p.wr (HIF_SQ_TAIL n) t).fetchQueue n).sweepAll ∧ (p.setTail n t).rd (HIF_SQ_TAIL n) = t ∧
    ((p.setTail n t).cq n).qerr = (p.cq n).qerr ∧ (p.setTail n t).mem = p.mem ∧ (p.setTail n t).cores = p.cores := by
  have hs : ¬t ≥ (p.wr (HIF_SQ_TAIL n) t).sqSize n := by
    rw [Part.sqSize_wr _ _ _ _ (by unfold HIF_SQ_TAIL HIF_Q_CFG; omega)]
    omega
  have he : p.setTail n t = ((p.wr (HIF_SQ_TAIL n) t).fetchQueue n).sweepAll := by
    unfold Part.setTail
    dsimp only
    rw [if_neg hs]
  obtain ⟨hr, hm⟩ := (p.wr (HIF_SQ_TAIL n) t).fetchQueue_keeps n
  obtain ⟨hq, -⟩ := (QueueWork.fetchQueue (p.wr (HIF_SQ_TAIL n) t) hn).trans (QueueWork.sweepAll _)
  obtain ⟨-, hsr, -, -⟩ := CmdsEnd.sweepAll ((p.wr (HIF_SQ_TAIL n) t).fetchQueue n)
  refine ⟨he, ?_, ?_, ?_, ?_⟩
  · rw [he, hsr _ (by unfold HIF_SQ_TAIL HIF_STAT_CMD; omega) (by unfold HIF_SQ_TAIL HIF_STICKY; omega)
      (by unfold HIF_SQ_TAIL HIF_FRAME_ERR; omega), hr _ (by unfold HIF_SQ_TAIL HIF_SQ_HEAD; omega), Part.rd_wr_same, Nat.mod_eq_of_lt hv]
  · rw [he, (SameMarks.sweepAll _ n).2.2, (hm n).2.2, Part.cq_wr]
  · rw [he, hq]
    rfl
  · rw [he, hq]
    rfl

/-- A queue that may fetch and has one new command of a row of its own holds that command (R401). -/
theorem Part.setTail_fetches {t : Nat} (h16 : t < 2 ^ 16) (ht : t < p.sqSize n) (hc : p.getB HIF_CTRL 0 = true) (hq : p.cqOn n = true)
    (he : (p.cq n).qerr = false) (hb : p.hostBus = true) (hx : (p.cq n).cmds = []) (hne : p.getF (HIF_SQ_HEAD n) 0 16 ≠ t)
    (hnext : (p.getF (HIF_SQ_HEAD n) 0 16 + 1) % p.sqSize n = t)
    (hp : (p.hostLine (p.getF (HIF_SQ_BASE n) 12 52 * 4096 + 64 * p.getF (HIF_SQ_HEAD n) 0 16)).2 = false)
    (ho : hostOps.contains (HostCmd.mk (p.hostLine (p.getF (HIF_SQ_BASE n) 12 52 * 4096 + 64 * p.getF (HIF_SQ_HEAD n) 0 16)).1 t false false
      0 0 0 0).op = true) :
    ((p.setTail n t).cq n).cmds =
      [HostCmd.mk (p.hostLine (p.getF (HIF_SQ_BASE n) 12 52 * 4096 + 64 * p.getF (HIF_SQ_HEAD n) 0 16)).1 t false false 0 0 0 0] ∧
    (p.setTail n t).rd (HIF_SQ_HEAD n) = t := by
  obtain ⟨he', -⟩ := p.setTail_within hn (lt_of_lt_of_le h16 (by decide)) ht
  obtain ⟨c, hcc⟩ : ∃ c, c = HostCmd.mk (p.hostLine (p.getF (HIF_SQ_BASE n) 12 52 * 4096 + 64 * p.getF (HIF_SQ_HEAD n) 0 16)).1 t false false
    0 0 0 0 := ⟨_, rfl⟩
  obtain ⟨u, hu⟩ : ∃ u, u = p.wr (HIF_SQ_TAIL n) t := ⟨_, rfl⟩
  have hoff : ∀ {j : Nat}, HIF_SQ_TAIL n ≠ j → u.SameAt p j := fun h => hu ▸ Part.wr_off _ _ _ h
  have hHead := (hoff (j := HIF_SQ_HEAD n) (by unfold HIF_SQ_TAIL HIF_SQ_HEAD; omega)).2.2
  have hBase := (hoff (j := HIF_SQ_BASE n) (by unfold HIF_SQ_TAIL HIF_SQ_BASE; omega)).2.2
  have hCfg := hoff (j := HIF_Q_CFG n) (by unfold HIF_SQ_TAIL HIF_Q_CFG; omega)
  have hSize : u.sqSize n = p.sqSize n := by unfold Part.sqSize; rw [hCfg.2.2]
  have hOn : u.cqOn n = true := by
    unfold Part.cqOn at hq ⊢
    rw [hCfg.2.1, hq]
  have hBus : u.hostBus = true := by
    have hs := (hoff (j := HIF_STATUS) (by unfold HIF_SQ_TAIL HIF_STATUS; omega)).2.1
    unfold Part.hostBus at hb ⊢
    rw [hs, hu]
    exact hb
  have hCtl : u.getB HIF_CTRL 0 = true := by rw [(hoff (j := HIF_CTRL) (by unfold HIF_SQ_TAIL HIF_CTRL; omega)).2.1, hc]
  have hTail : u.getF (HIF_SQ_TAIL n) 0 16 = t := by
    rw [hu, Part.getF, Part.rd_wr_same, Nat.mod_eq_of_lt (lt_of_lt_of_le h16 (by decide)), fld]
    simpa using h16
  have hLine : ∀ a, u.hostLine a = p.hostLine a := fun a => by rw [hu]; rfl
  have hcq : u.cq n = p.cq n := by rw [hu]; rfl
  obtain ⟨v, hv⟩ : ∃ v, v = (u.setCq n { u.cq n with cmds := [c] }).wr (HIF_SQ_HEAD n) t := ⟨_, rfl⟩
  have hvHead : v.getF (HIF_SQ_HEAD n) 0 16 = t := by
    rw [hv, Part.getF, Part.rd_wr_same, Nat.mod_eq_of_lt (lt_of_lt_of_le h16 (by decide)), fld]
    simpa using h16
  have hvTail : v.getF (HIF_SQ_TAIL n) 0 16 = t := by
    rw [hv, (Part.wr_off _ _ _ (by unfold HIF_SQ_TAIL HIF_SQ_HEAD; omega)).2.2, (Part.setCq_sameAt _ _ _).2.2, hTail]
  have hfetch : u.fetchQueue n = v := by
    have hgo : (u.getB HIF_CTRL 0 && u.cqOn n && !(u.cq n).qerr && u.hostBus) = true := by rw [hCtl, hOn, hcq, he, hBus]; rfl
    rw [Part.fetchQueue, if_pos hgo, show (65536 : Nat) = 65534 + 1 + 1 from rfl, Part.fetchLoop]
    dsimp only
    rw [hHead, hTail, if_neg hne, hBase, hLine, hSize, hnext, hp, hcq, hx, List.nil_append, ← hcc, ← hcq, ← hv, Part.fetchLoop]
    dsimp only
    rw [hvHead, hvTail, if_pos rfl]
  have hvcq : (v.cq n).cmds = [c] := by rw [hv, Part.cq_wr, Part.cq_setCq, if_pos rfl]
  have hkeep := v.sweepAll_waits n fun d hd => by
    rw [hvcq, List.find?_cons, hcc] at hd
    cases hd
    exact ⟨rfl, ho⟩
  obtain ⟨-, hsr, -, -⟩ := CmdsEnd.sweepAll v
  rw [he', ← hu, hfetch, ← hcc]
  refine ⟨by rw [hkeep, hvcq], ?_⟩
  rw [hsr _ (by unfold HIF_SQ_HEAD HIF_STAT_CMD; omega) (by unfold HIF_SQ_HEAD HIF_STICKY; omega)
    (by unfold HIF_SQ_HEAD HIF_FRAME_ERR; omega), hv, Part.rd_wr_same, Nat.mod_eq_of_lt (lt_of_lt_of_le h16 (by decide))]

/-- A disabled queue drops what has not started, and reads as zero once it has nothing left (R401). -/
theorem Part.disableQueue_drops : (p.disableQueue n).cqOn n = false ∧ ((p.disableQueue n).cq n).cmds = (p.cq n).cmds.filter (·.running) ∧
    (∀ m, m ≠ n → (p.disableQueue n).cq m = p.cq m) ∧
    ((∀ c ∈ (p.cq n).cmds, c.running = false) → (p.cq n).ended = [] →
      (p.disableQueue n).rd (HIF_SQ_HEAD n) = 0 ∧ (p.disableQueue n).rd (HIF_SQ_TAIL n) = 0 ∧
      (p.disableQueue n).rd (HIF_CR_HEAD n) = 0 ∧ (p.disableQueue n).rd (HIF_CR_TAIL n) = 0) := by
  obtain ⟨u, hu⟩ : ∃ u, u = (p.putB (HIF_Q_CFG n) 31 false).setCq n { p.cq n with cmds := (p.cq n).cmds.filter (·.running) } := ⟨_, rfl⟩
  have hd : p.disableQueue n = u.settle n := by rw [hu]; rfl
  have hucq : u.cq n = { p.cq n with cmds := (p.cq n).cmds.filter (·.running) } := by rw [hu, Part.cq_setCq, if_pos rfl]
  have huo : ∀ m, m ≠ n → u.cq m = p.cq m := fun m h => by rw [hu, Part.cq_setCq, if_neg (Ne.symm h)]; rfl
  have huon : u.cqOn n = false := by
    rw [hu, Part.cqOn, (Part.setCq_sameAt _ _ _).2.1, Part.getB_putB_same _ _ _ _ (by decide)]
  rw [hd]
  by_cases hs : (u.cqOn n || (u.cq n).cmds.any (·.running) || !(u.cq n).ended.isEmpty) = true
  · have hset : u.settle n = u := by unfold Part.settle; exact if_pos hs
    rw [hset]
    refine ⟨huon, by rw [hucq], huo, fun hr he => ?_⟩
    have hnil : (p.cq n).cmds.filter (·.running) = [] := List.filter_eq_nil_iff.2 fun c hc => by simp [hr c hc]
    rw [huon, hucq, hnil, he] at hs
    exact absurd hs Bool.false_ne_true
  · have hset : u.settle n = ((((u.setCq n .reset).wr (HIF_SQ_HEAD n) 0).wr (HIF_SQ_TAIL n) 0).wr (HIF_CR_HEAD n) 0).wr (HIF_CR_TAIL n) 0 := by
      unfold Part.settle
      exact if_neg hs
    have hnone : (p.cq n).cmds.filter (·.running) = [] := by
      rw [hucq] at hs
      simp only [Bool.or_eq_true, not_or, List.any_eq_true, not_exists] at hs
      obtain ⟨⟨-, hs⟩, -⟩ := hs
      refine List.filter_eq_nil_iff.2 fun c hc hrun => hs c ⟨List.mem_filter.2 ⟨hc, hrun⟩, hrun⟩
    rw [hset]
    refine ⟨?_, ?_, fun m h => ?_, fun _ _ => ⟨?_, ?_, ?_, ?_⟩⟩
    · rw [Part.cqOn_wr _ _ _ _ (by unfold HIF_CR_TAIL HIF_Q_CFG; omega), Part.cqOn_wr _ _ _ _ (by unfold HIF_CR_HEAD HIF_Q_CFG; omega),
        Part.cqOn_wr _ _ _ _ (by unfold HIF_SQ_TAIL HIF_Q_CFG; omega), Part.cqOn_wr _ _ _ _ (by unfold HIF_SQ_HEAD HIF_Q_CFG; omega)]
      exact huon
    · simp only [Part.cq_wr, Part.cq_setCq, if_true]
      rw [hnone]
      rfl
    · simp only [Part.cq_wr, Part.cq_setCq, if_neg (Ne.symm h)]
      exact huo m h
    · rw [Part.rd_wr_other _ _ (by unfold HIF_CR_TAIL HIF_SQ_HEAD; omega), Part.rd_wr_other _ _ (by unfold HIF_CR_HEAD HIF_SQ_HEAD; omega),
        Part.rd_wr_other _ _ (by unfold HIF_SQ_TAIL HIF_SQ_HEAD; omega), Part.rd_wr_same]
      rfl
    · rw [Part.rd_wr_other _ _ (by unfold HIF_CR_TAIL HIF_SQ_TAIL; omega), Part.rd_wr_other _ _ (by unfold HIF_CR_HEAD HIF_SQ_TAIL; omega),
        Part.rd_wr_same]
      rfl
    · rw [Part.rd_wr_other _ _ (by unfold HIF_CR_TAIL HIF_CR_HEAD; omega), Part.rd_wr_same]
      rfl
    · rw [Part.rd_wr_same]
      rfl

omit hn in
theorem Part.crSize_lt (n : Nat) : p.crSize n < 2 ^ 64 :=
  Nat.pow_lt_pow_right (by decide) (lt_of_lt_of_le (p.getF_lt _ _ _) (by decide))

/-- The head of a completion ring that the host writes frees the entries before it (R407). -/
theorem Part.setCrHead_frees {h : Nat} (hv : h < 2 ^ 64) : (p.setCrHead n h).rd (HIF_CR_HEAD n) = h ∧
    p.setCrHead n h = { p with regs := (p.setCrHead n h).regs, hif := (p.setCrHead n h).hif } ∧
    ((p.setCrHead n h).cq n).unret = (p.getF (HIF_CR_TAIL n) 0 16 + p.crSize n - h % p.crSize n) % p.crSize n := by
  obtain ⟨u, hu⟩ : ∃ u, u = (p.wr (HIF_CR_HEAD n) h).setCq n { p.cq n with
    unret := (p.getF (HIF_CR_TAIL n) 0 16 + p.crSize n - h % p.crSize n) % p.crSize n } := ⟨_, rfl⟩
  have hs : p.setCrHead n h = u.sweepAll := by
    unfold Part.setCrHead
    dsimp only
    rw [Part.crSize_wr _ _ _ _ (by unfold HIF_CR_HEAD HIF_Q_CFG; omega), (Part.wr_off _ _ _ (by unfold HIF_CR_HEAD HIF_CR_TAIL; omega)).2.2, hu]
    rfl
  obtain ⟨hq, -⟩ := QueueWork.sweepAll u
  obtain ⟨-, hr, -, -⟩ := CmdsEnd.sweepAll u
  rw [hs]
  refine ⟨?_, ?_, ?_⟩
  · rw [hr _ (by unfold HIF_CR_HEAD HIF_STAT_CMD; omega) (by unfold HIF_CR_HEAD HIF_STICKY; omega) (by unfold HIF_CR_HEAD HIF_FRAME_ERR; omega),
      hu, (Part.setCq_sameAt _ _ _).1, Part.rd_wr_same, Nat.mod_eq_of_lt hv]
  · have hf : u = { p with regs := u.regs, hif := u.hif } := by rw [hu]; rfl
    rw [hq, hf]
  · rw [(SameMarks.sweepAll u n).2.1, hu, Part.cq_setCq, if_pos rfl]

end

theorem length_completionBytes (n : Nat) (c : HostCmd) (b : Bool) : (completionBytes n c b).length = 64 := by
  simp only [completionBytes, List.length_append, length_leBytes]

section
variable (s : State) (queue : BitVec 3) (host : List HostLine)

theorem hostStores_keeps (p : Part) (l : List HostLine) {j : Nat} (n : Nat) : (p.hostStores l).rd j = p.rd j ∧
    (∀ i, (p.hostStores l).getB j i = p.getB j i) ∧ (∀ lo w, (p.hostStores l).getF j lo w = p.getF j lo w) ∧
    (p.hostStores l).cq n = p.cq n ∧ (p.hostStores l).mem = p.mem ∧ (p.hostStores l).cores = p.cores := by
  rw [Part.hostStores_eq]
  exact ⟨rfl, fun _ => rfl, fun _ _ => rfl, rfl, rfl, rfl⟩

theorem sqDoorbell_pastRing (tail : BitVec 16) (hl : s.p.hif.linkUp = true) (ht : s.p.sqSize queue.toNat ≤ tail.toNat) :
    ∃ q, Becomes (.sqDoorbell queue tail host) s q ∧ q.rd (HIF_SQ_TAIL queue.toNat) = tail.toNat ∧ (q.cq queue.toNat).qerr = true ∧
      q.getB HIF_STICKY 7 = true ∧ (q.cq queue.toNat).cmds = (s.p.cq queue.toNat).cmds ∧ q.mem = s.p.mem := by
  have hw : (s.p.hostStores host).sqSize queue.toNat ≤ tail.toNat := by
    rw [Part.hostStores_eq]
    exact ht
  obtain ⟨h1, h2, h3, h4, h5⟩ := (s.p.hostStores host).setTail_past (lt_of_lt_of_le tail.isLt (by decide)) hw
  refine ⟨_, sqDoorbell_becomes s queue host tail hl, h1, h2, h3, h4.trans ?_, h5.trans ?_⟩
  · rw [(hostStores_keeps s.p host (j := 0) queue.toNat).2.2.2.1]
  · rw [(hostStores_keeps s.p host (j := 0) queue.toNat).2.2.2.2.1]

theorem sqDoorbell_fetches (tail : BitVec 16) (hl : s.p.hif.linkUp = true) (ht : tail.toNat < s.p.sqSize queue.toNat) :
    ∃ q, Becomes (.sqDoorbell queue tail host) s q ∧ q.rd (HIF_SQ_TAIL queue.toNat) = tail.toNat ∧
      (q.cq queue.toNat).qerr = (s.p.cq queue.toNat).qerr ∧ q.mem = s.p.mem ∧ q.cores = s.p.cores ∧
      (s.p.getB HIF_CTRL 0 = true → s.p.cqOn queue.toNat = true → (s.p.cq queue.toNat).qerr = false → s.p.hostBus = true →
        (s.p.cq queue.toNat).cmds = [] →
        let head := s.p.getF (HIF_SQ_HEAD queue.toNat) 0 16
        let l := (s.p.hostStores host).hostLine (s.p.getF (HIF_SQ_BASE queue.toNat) 12 52 * 4096 + 64 * head)
        let c : HostCmd := ⟨l.1, tail.toNat, false, false, 0, 0, 0, 0⟩
        head ≠ tail.toNat → (head + 1) % s.p.sqSize queue.toNat = tail.toNat → l.2 = false → hostOps.contains c.op = true →
        (q.cq queue.toNat).cmds = [c] ∧ q.rd (HIF_SQ_HEAD queue.toNat) = tail.toNat) := by
  have hn : queue.toNat < 8 := queue.isLt
  obtain ⟨w, hw⟩ : ∃ w, w = s.p.hostStores host := ⟨_, rfl⟩
  have hF : ∀ j lo k, w.getF j lo k = s.p.getF j lo k := fun j => hw ▸ (hostStores_keeps s.p host (j := j) 0).2.2.1
  have hB : ∀ j i, w.getB j i = s.p.getB j i := fun j => hw ▸ (hostStores_keeps s.p host (j := j) 0).2.1
  obtain ⟨-, -, -, hcq, hmem, hcores⟩ := hostStores_keeps s.p host (j := 0) queue.toNat
  rw [← hw] at hcq hmem hcores
  have hsize : w.sqSize queue.toNat = s.p.sqSize queue.toNat := by rw [Part.sqSize, Part.sqSize, hF]
  have hbus : w.hostBus = s.p.hostBus := by rw [Part.hostBus, Part.hostBus, hB, hw, Part.hostStores_eq]
  obtain ⟨-, h1, h2, h3, h4⟩ := w.setTail_within hn (lt_of_lt_of_le tail.isLt (by decide)) (hsize ▸ ht)
  refine ⟨_, hw ▸ sqDoorbell_becomes s queue host tail hl, h1, by rw [h2, hcq], h3.trans hmem, h4.trans hcores, ?_⟩
  intro hc hq he hb hx head l c hne hnext hp ho
  have hhead : head = w.getF (HIF_SQ_HEAD queue.toNat) 0 16 := (hF _ _ _).symm
  have hl' : l = w.hostLine (w.getF (HIF_SQ_BASE queue.toNat) 12 52 * 4096 + 64 * w.getF (HIF_SQ_HEAD queue.toNat) 0 16) := by
    rw [hF, ← hhead, hw]
  have hon : w.cqOn queue.toNat = true := (hB _ _).trans hq
  have hcl : c = ⟨l.1, tail.toNat, false, false, 0, 0, 0, 0⟩ := rfl
  rw [hcl]
  rw [hcl] at ho
  rw [hhead] at hne hnext
  rw [hl'] at hp ho ⊢
  exact w.setTail_fetches hn tail.isLt (hsize ▸ ht) ((hB _ _).trans hc) hon (by rw [hcq, he]) (hbus.trans hb) (by rw [hcq, hx]) hne
    (hsize ▸ hnext) hp ho

theorem queueDisable_becomes (hl : s.p.hif.linkUp = true) : Becomes (.queueDisable queue) s (s.p.disableQueue queue.toNat) := by
  change execQueueDisable queue s = _
  unfold execQueueDisable State.run
  dsimp only
  rw [hl, if_pos rfl]

theorem queueWrites_unlinked (hl : s.p.hif.linkUp = false) : Becomes (.queueDisable queue) s s.p ∧ ∀ h, Becomes (.crHeadWrite queue h) s s.p := by
  constructor
  · change execQueueDisable queue s = _
    unfold execQueueDisable State.run
    dsimp only
    rw [hl, if_neg (by decide)]
  · intro h
    change execCrHeadWrite queue h s = _
    unfold execCrHeadWrite State.run
    dsimp only
    rw [hl, if_neg (by decide)]

theorem cmdNop_ends {c : HostCmd} (hc : s.p.nextCmd queue.toNat 0 = some c) : ∃ q, Becomes (.cmdNop queue) s q ∧
    EndsCmd s.p q queue.toNat c (if c.bad then 1 else 0) 0 ∧ q = { s.p with regs := q.regs, hif := q.hif } := by
  have hb : Becomes (.cmdNop queue) s (s.p.endCmd queue.toNat c (if c.bad then 1 else 0) 0) := by
    change execCmdNop queue s = _
    unfold execCmdNop State.run
    dsimp only
    cases hbad : c.bad with
    | true => rw [s.p.runCmd_bad hc hbad]; rfl
    | false => rw [s.p.runCmd_runs hc hbad]; rfl
  refine ⟨_, hb, s.p.endCmd_ends _ _ _ (Part.nextCmd_mem hc), ?_⟩
  obtain ⟨hq, -⟩ := QueueWork.endCmd s.p queue.toNat c (if c.bad then 1 else 0) 0
  generalize s.p.endCmd queue.toNat c (if c.bad then 1 else 0) 0 = q at hq ⊢
  rw [hq]

theorem cmdNop_none (h : s.p.nextCmd queue.toNat 0 = none) : Becomes (.cmdNop queue) s s.p := by
  change execCmdNop queue s = _
  unfold execCmdNop State.run
  dsimp only
  rw [s.p.runCmd_none h]

theorem completionRecord_writes {c : HostCmd} {rest : List HostCmd} (he : (s.p.cq queue.toNat).ended = c :: rest) (hb : s.p.hostBus = true)
    (hu : (s.p.cq queue.toNat).unret < s.p.crSize queue.toNat) (hon : s.p.cqOn queue.toNat = true) :
    let n := queue.toNat
    let t := s.p.getF (HIF_CR_TAIL n) 0 16
    let a := s.p.getF (HIF_CR_BASE n) 12 52 * 4096 + 64 * t
    ∃ q, Becomes (.completionRecordWrite queue) s q ∧ q = { s.p with regs := q.regs, hif := q.hif } ∧
      (∀ i, spGet 0#8 q.hif.mem i =
        if a ≤ i ∧ i < a + 64 then (completionBytes n c (s.p.cq n).phase).getD (i - a) 0#8 else spGet 0#8 s.p.hif.mem i) ∧
      q.rd (HIF_CR_TAIL n) = (t + 1) % s.p.crSize n ∧ (∃ l, (q.cq n).ended = rest ++ l) ∧ (q.cq n).unret = (s.p.cq n).unret + 1 ∧
      (q.cq n).phase = (if (t + 1) % s.p.crSize n = 0 then !(s.p.cq n).phase else (s.p.cq n).phase) := by
  intro n t a
  have hn : n < 8 := queue.isLt
  obtain ⟨x, hx⟩ : ∃ x, x = s.p.cq n := ⟨_, rfl⟩
  obtain ⟨r, hr⟩ : ∃ r, r = s.p.hostPut a (completionBytes n c x.phase) false := ⟨_, rfl⟩
  obtain ⟨u, hu'⟩ : ∃ u, u = (r.setCq n { x with
    ended := rest, unret := x.unret + 1, phase := if (t + 1) % s.p.crSize n = 0 then !x.phase else x.phase }).wr (HIF_CR_TAIL n)
      ((t + 1) % s.p.crSize n) := ⟨_, rfl⟩
  have hron : r.cqOn n = true := by rw [hr, Part.hostPut_eq]; exact hon
  have huon : u.cqOn n = true := by
    rw [hu', Part.cqOn_wr _ _ _ _ (by unfold HIF_CR_TAIL HIF_Q_CFG; omega), Part.cqOn, (Part.setCq_sameAt _ _ _).2.1]
    exact hron
  have hset : u.settle n = u := by
    unfold Part.settle
    rw [if_pos (by rw [huon]; rfl)]
  have hbec : Becomes (.completionRecordWrite queue) s u.sweepAll := by
    change execCompletionRecordWrite queue s = _
    unfold execCompletionRecordWrite State.run
    simp only [he, hb, Bool.not_true, Bool.false_or]
    rw [if_neg (by simpa using hu)]
    rw [← hset, hu', hr, hx]
  obtain ⟨hq, -⟩ := QueueWork.sweepAll u
  obtain ⟨-, hrd, -, hcq⟩ := CmdsEnd.sweepAll u
  obtain ⟨-, l, hl⟩ := hcq n
  have hucq : u.cq n = { x with
      ended := rest, unret := x.unret + 1, phase := if (t + 1) % s.p.crSize n = 0 then !x.phase else x.phase } := by
    rw [hu', Part.cq_wr, Part.cq_setCq, if_pos rfl]
  refine ⟨_, hbec, ?_, fun i => ?_, ?_, ⟨l, ?_⟩, ?_, ?_⟩
  · have hf : u = { s.p with regs := u.regs, hif := u.hif } := by
      have hrf : r = { s.p with regs := r.regs, hif := r.hif } := by rw [hr, Part.hostPut_eq]
      rw [hu', hrf]
      rfl
    rw [hq, hf]
  · have hm : u.sweepAll.hif.mem = putBytes s.p.hif.mem a (completionBytes n c x.phase) := by
      rw [hq, hu', hr, Part.hostPut_eq]
      rfl
    rw [hm, spGet_putBytes, length_completionBytes, hx]
  · rw [hrd _ (by unfold HIF_CR_TAIL HIF_STAT_CMD; omega) (by unfold HIF_CR_TAIL HIF_STICKY; omega)
      (by unfold HIF_CR_TAIL HIF_FRAME_ERR; omega), hu', Part.rd_wr_same]
    exact Nat.mod_eq_of_lt (lt_trans (Nat.mod_lt _ (Nat.two_pow_pos _)) (s.p.crSize_lt n))
  · rw [hl, hucq]
  · rw [(SameMarks.sweepAll u n).2.1, hucq, hx]
  · rw [(SameMarks.sweepAll u n).1, hucq, hx]

theorem completionRecord_waits (h : (s.p.cq queue.toNat).ended = [] ∨ s.p.hostBus = false ∨
    s.p.crSize queue.toNat ≤ (s.p.cq queue.toNat).unret) : Becomes (.completionRecordWrite queue) s s.p := by
  change execCompletionRecordWrite queue s = _
  unfold execCompletionRecordWrite State.run
  dsimp only
  split
  · rfl
  · next c rest he =>
    have hno : (!s.p.hostBus || decide ((s.p.cq queue.toNat).unret ≥ s.p.crSize queue.toNat)) = true := by
      rcases h with h | h | h
      · rw [he] at h
        cases h
      · simp [h]
      · simp [h]
    rw [if_pos hno]

theorem crHeadWrite_frees (head : BitVec 16) (hl : s.p.hif.linkUp = true) : ∃ q, Becomes (.crHeadWrite queue head) s q ∧
    q.rd (HIF_CR_HEAD queue.toNat) = head.toNat ∧ q = { s.p with regs := q.regs, hif := q.hif } ∧
    (q.cq queue.toNat).unret = (s.p.getF (HIF_CR_TAIL queue.toNat) 0 16 + s.p.crSize queue.toNat - head.toNat % s.p.crSize queue.toNat) %
      s.p.crSize queue.toNat := by
  have hb : Becomes (.crHeadWrite queue head) s (s.p.setCrHead queue.toNat head.toNat) := by
    change execCrHeadWrite queue head s = _
    unfold execCrHeadWrite State.run
    dsimp only
    rw [hl, if_pos rfl]
  exact ⟨_, hb, s.p.setCrHead_frees queue.isLt (lt_of_lt_of_le head.isLt (by decide))⟩

end

/-- Settles O40: doorbells, disabling, CMD_NOP, completion records, and the head that the host writes. -/
theorem hostQueues : Obligations.HostQueues := by
  intro s queue host p n x w
  exact ⟨fun tail => sqDoorbell_unlinked s queue host tail, fun tail => sqDoorbell_pastRing s queue host tail,
    fun tail => sqDoorbell_fetches s queue host tail, fun hl => ⟨_, queueDisable_becomes s queue hl, s.p.disableQueue_drops queue.isLt⟩,
    queueWrites_unlinked s queue, fun c => cmdNop_ends s queue, cmdNop_none s queue, fun c rest => completionRecord_writes s queue,
    completionRecord_waits s queue, fun head => crHeadWrite_frees s queue head⟩

end Sys2Proof.Machine
end

section
/-!
SUPPORT. What the reads and writes of memory leave of the registers of the hub (R293 to R297, R306).
-/
namespace Sys2Proof.Machine

section
variable (p : Part) {j : Nat} (h : j < 0x2000000) (hj : j ∉ recordRegs)
include h hj

theorem Part.noteErr_mem_sameAt (s i : Nat) (e : ErrRec) : (p.noteErr (MEM_STICKY s) i e).SameAt p j :=
  Part.noteErr_sameAt p h hj _ _ _ (by unfold MEM_STICKY secBase; omega) (by unfold MEM_STICKY secBase; omega)

@[simp] theorem Part.countCe_sameAt (k n : Nat) : (p.countCe k n).SameAt p j := by
  have h1 : MEM_STAT_CE (k / 2) ≠ j := by unfold MEM_STAT_CE secBase; omega
  have h2 : MEM_STAT_CE2 (k / 2) ≠ j := by unfold MEM_STAT_CE2 secBase; omega
  refine Part.sameAt_of_rd ?_
  unfold Part.countCe
  dsimp only
  repeat' split
  all_goals simp [(Part.noteErr_mem_sameAt _ h hj _ _ _).1, h1, h2]

@[simp] theorem Part.readLine_sameAt (k g q a : Nat) : (p.readLine k g q a).2.SameAt p j := by
  have hr : MEM_STAT_RD (p.stack a / 2) ≠ j := by unfold MEM_STAT_RD secBase; omega
  have hp : MEM_STAT_PREAD (p.stack a / 2) ≠ j := by unfold MEM_STAT_PREAD secBase; omega
  have hu : MEM_STAT_UE (p.stack a / 2) ≠ j := by unfold MEM_STAT_UE secBase; omega
  have he : MEM_ERRLOG (p.stack a / 2) ≠ j := by unfold MEM_ERRLOG secBase; omega
  refine Part.sameAt_of_rd ?_
  unfold Part.readLine
  dsimp only
  split
  · simp [hr]
  · split
    · simp [hr]
    · simp [h, hj, hr]
    · simp [h, (Part.noteErr_mem_sameAt _ h hj _ _ _).1, Part.errLog, hr, hp, he]
    · simp [h, (Part.noteErr_mem_sameAt _ h hj _ _ _).1, Part.errLog, hr, hu, he]

end

section
variable (p : Part) {j : Nat} (h : j < 0x2000000) (hj : j ∉ recordRegs) (hf : TIK_FAIL_CAUSE ≠ j)
include h hj hf

@[simp] theorem Part.failCause_sameAt (c : Nat) : (p.failCause c).SameAt p j := by
  refine Part.sameAt_of_rd ?_
  unfold Part.failCause
  dsimp only
  repeat' split
  all_goals simp [h, hj, hf]

@[simp] theorem Part.journalLine_sameAt (g q a : Nat) : (p.journalLine g q a).2.SameAt p j := by
  have hs : MEM_STICKY (p.stack a / 2) ≠ j := by unfold MEM_STICKY secBase; omega
  have hs' : MEM_STICKY (p.stack a / 2) + 4 ≠ j := by unfold MEM_STICKY secBase; omega
  have hu : MEM_JOURNAL_USE (p.stack a / 2) ≠ j := by unfold MEM_JOURNAL_USE secBase; omega
  have hc : MEM_STAT_JOURNAL (p.stack a / 2) ≠ j := by unfold MEM_STAT_JOURNAL secBase; omega
  refine Part.sameAt_of_rd ?_
  unfold Part.journalLine
  dsimp only
  repeat' split
  all_goals simp [h, hj, hf, hs, hs', hu, hc, Part.putJournal]

@[simp] theorem Part.writeLine_sameAt (g q a : Nat) (bs : List Byte) (t : Option Nat) : (p.writeLine g q a bs t).SameAt p j := by
  refine Part.sameAt_of_rd ?_
  unfold Part.writeLine
  dsimp only
  split <;> simp [h, hj, hf]

@[simp] theorem Part.writePart_sameAt (g q a : Nat) (bs : List Byte) (t : Option Nat) : (p.writePart g q a bs t).SameAt p j := by
  refine Part.sameAt_of_rd ?_
  unfold Part.writePart
  dsimp only
  split <;> simp [h, hj, hf]

@[simp] theorem Part.writeInLine_sameAt (g q a : Nat) (bs : List Byte) (t : Option Nat) : (p.writeInLine g q a bs t).SameAt p j := by
  refine Part.sameAt_of_rd ?_
  unfold Part.writeInLine
  split <;> simp [h, hj, hf]

theorem Part.storeLoop_sameAt (fuel g q a : Nat) (bs : List Byte) (t : Option Nat) : (Part.storeLoop fuel p g q a bs t).SameAt p j := by
  refine Part.sameAt_of_rd ?_
  induction fuel generalizing p a bs with
  | zero => rfl
  | succ fuel ih =>
    unfold Part.storeLoop
    dsimp only
    split
    · rfl
    · rw [ih]
      split <;> simp [h, hj, hf]

@[simp] theorem Part.store_sameAt (g q a : Nat) (bs : List Byte) (t : Option Nat) : (p.store g q a bs t).SameAt p j :=
  p.storeLoop_sameAt h hj hf _ g q a bs t

end

end Sys2Proof.Machine
end

section
/-!
PROOF. Copies, submissions, QUIESCE and RESUME (R391, R397, R399, R403, R404, R408, R437).
-/
namespace Sys2Proof.Machine

/-- The queues and the numbers that a completion record carries are as before (R405). -/
def SameCmds (p q : Part) : Prop := q.hif.queues = p.hif.queues ∧ q.rd TIK_COUNT = p.rd TIK_COUNT ∧ q.rd TIK_FRAME_NO = p.rd TIK_FRAME_NO

theorem SameCmds.trans {p q r : Part} (h : SameCmds p q) (h' : SameCmds q r) : SameCmds p r :=
  ⟨h'.1.trans h.1, h'.2.1.trans h.2.1, h'.2.2.trans h.2.2⟩

theorem SameCmds.ends {p q : Part} (h : SameCmds p q) {n : Nat} {c : HostCmd} (hc : c ∈ (p.cq n).cmds) (status result : Nat) :
    EndsCmd p (q.endCmd n c status result) n c status result := Part.endCmd_endsFor h.1 h.2.1 h.2.2 hc status result

section
variable (p : Part)

theorem SameCmds.hostStores (l : List HostLine) : SameCmds p (p.hostStores l) := by
  rw [Part.hostStores_eq]
  exact ⟨rfl, rfl, rfl⟩

theorem SameCmds.hostPut (a : Nat) (bs : List Byte) (t : Bool) : SameCmds p (p.hostPut a bs t) := by
  rw [Part.hostPut_eq]
  exact ⟨rfl, rfl, rfl⟩

theorem SameCmds.hostDenied (w : Bool) (a : Nat) : SameCmds p (p.hostDenied w a) := by
  unfold Part.hostDenied
  dsimp only
  cases w <;> simp only [Bool.false_eq_true, if_false, if_true] <;> split <;> simp (disch := decide) [SameCmds, Part.hifStick]

theorem SameCmds.hostWriteLine (a : Nat) (bs : List Byte) (t : Bool) : SameCmds p (p.hostWriteLine a bs t).2 := by
  unfold Part.hostWriteLine
  dsimp only
  split
  · exact SameCmds.hostDenied p true a
  · split
    · simp (disch := decide) [SameCmds, Part.hifStick]
    · cases t <;> simp (disch := decide) [SameCmds, Part.hifStick]

/-- A copy in moves at most its lines, and keeps the queues (R403). -/
theorem Part.copyInLoop_moves (n h a : Nat) (x : CopySum) : SameCmds p (Part.copyInLoop n p h a x).2 ∧
    (Part.copyInLoop n p h a x).1.moved ≤ x.moved + n := by
  induction n generalizing p h a x with
  | zero => exact ⟨⟨rfl, rfl, rfl⟩, le_rfl⟩
  | succ n ih =>
    have hw := SameCmds.hostWriteLine p a (p.hostLine h).1 (p.hostLine h).2
    unfold Part.copyInLoop
    dsimp only
    obtain ⟨hc, hm⟩ := ih (p.hostWriteLine a (p.hostLine h).1 (p.hostLine h).2).2 (h + 64) (a + 64)
      (if (p.hostWriteLine a (p.hostLine h).1 (p.hostLine h).2).1 then { x with moved := x.moved + 1, poison := x.poison || (p.hostLine h).2 }
        else { x with refused := true })
    refine ⟨hw.trans hc, hm.trans ?_⟩
    split <;> (dsimp only; omega)

/-- What locks a line against the host is as before (R416). -/
theorem SameAccess.slotLocked {p q : Part} (h : SameAccess p q) (a : Nat) : q.slotLocked a = p.slotLocked a := by
  have hr : q.running = p.running := h.getB 0 (o := TIK_STATUS) (.inl (by decide))
  have hcfg : ∀ c, c < 16 → offStore (HIF_IN_CFG c) := fun c hc => .inl (by unfold HIF_IN_CFG HIF_STICKY HIF_FRAME_ERR HIF_STAT_MEMWR; omega)
  have hbas : ∀ c, c < 16 → offStore (HIF_IN_BASE c) := fun c hc => .inl (by unfold HIF_IN_BASE HIF_STICKY HIF_FRAME_ERR HIF_STAT_MEMWR; omega)
  rw [Bool.eq_iff_iff, Part.slotLocked_iff, Part.slotLocked_iff, hr]
  refine and_congr_right fun _ => exists_congr fun c => and_congr_right fun hc => ?_
  simp only [Part.slotAt, Part.slotBytes, Part.inBaseOf, Part.inOn, Part.heldBlocks, h.1, h.getB _ (hcfg c hc), h.getF _ _ (hcfg c hc),
    h.getF _ _ (hbas c hc)]

theorem SameAccess.refl : SameAccess p p := ⟨rfl, rfl, fun _ _ => rfl⟩

theorem SameAccess.trans {p q r : Part} (h : SameAccess p q) (h' : SameAccess q r) : SameAccess p r :=
  ⟨h'.1.trans h.1, h'.2.1.trans h.2.1, fun j hj => (h'.2.2 j hj).trans (h.2.2 j hj)⟩

theorem fitBytes_hostLine (h : Nat) : fitBytes 64 (p.hostLine h).1 = (p.hostLine h).1 := by
  simp [fitBytes, Part.hostLine]

/-- The line at `a` is one that the host may write, and that neither a held block nor the journal takes (R397, R306, R416). -/
def Part.hostOpen (p : Part) (a : Nat) : Prop := p.hostMay true a = true ∧ p.slotLocked a = false ∧ p.attr a 5 = false

/-- A copy in of lines that are all allowed moves them all, byte for byte (R403). -/
theorem Part.copyInLoop_allowed (n h a : Nat) (x : CopySum) (hx : x.poison = false)
    (hl : ∀ i, i < n → p.hostOpen (a + 64 * i) ∧ (p.hostLine (h + 64 * i)).2 = false) :
    let r := Part.copyInLoop n p h a x
    r.1 = { x with moved := x.moved + n } ∧ r.2.cores = p.cores ∧
      ∀ y, r.2.byteAt y = if a ≤ y ∧ y < a + 64 * n then spGet 0#8 p.hif.mem (h + (y - a)) else p.byteAt y := by
  induction n generalizing p h a x with
  | zero => exact ⟨rfl, rfl, fun y => by rw [if_neg (by omega)]; rfl⟩
  | succ n ih =>
    obtain ⟨⟨hm, hs, hj⟩, ht⟩ := hl 0 (by omega)
    rw [Nat.mul_zero, Nat.add_zero] at hm hs hj ht
    obtain ⟨q, hq, hcores, hmem, -⟩ := p.hostWriteLine_stores a (p.hostLine h).1 false hm hs hj
    have hsame := p.hostWriteLine_sameAccess a (p.hostLine h).1 false hm hs hj hq
    have hstep : Part.copyInLoop (n + 1) p h a x = Part.copyInLoop n q (h + 64) (a + 64) { x with moved := x.moved + 1 } := by
      rw [Part.copyInLoop]
      dsimp only
      rw [ht, hq]
      simp [hx]
    have hrest : ∀ i, i < n → q.hostOpen (a + 64 + 64 * i) ∧ (q.hostLine (h + 64 + 64 * i)).2 = false := by
      intro i hi
      obtain ⟨ho, hp⟩ := hl (i + 1) (by omega)
      rw [show a + 64 + 64 * i = a + 64 * (i + 1) by ring, show h + 64 + 64 * i = h + 64 * (i + 1) by ring, Part.hostOpen, hsame.hostMay,
        hsame.slotLocked, hsame.attr, Part.hostLine, hsame.1]
      exact ⟨ho, hp⟩
    obtain ⟨hsum, hc, hb⟩ := ih q (h + 64) (a + 64) { x with moved := x.moved + 1 } hx hrest
    have hbyte : ∀ y, q.byteAt y = if a ≤ y ∧ y < a + 64 then spGet 0#8 p.hif.mem (h + (y - a)) else p.byteAt y := by
      intro y
      have hlen : (p.hostLine h).1.length = 64 := by simp [Part.hostLine]
      rw [Part.byteAt_congr hmem, fitBytes_hostLine]
      split
      · next hy =>
        obtain ⟨i, rfl⟩ : ∃ i, y = a + i := ⟨y - a, by omega⟩
        have hi : i < 64 := by omega
        rw [show p.hostToken a false = none from rfl, (p.putLine_data a hlen).2 i hi, Nat.add_sub_cancel_left]
        simp [Part.hostLine, hi]
      · next hy => exact p.putLine_outside a _ hlen hy
    dsimp only
    rw [hstep]
    refine ⟨by rw [hsum]; simp only [CopySum.mk.injEq, and_true]; omega, hc.trans hcores, fun y => ?_⟩
    rw [hb, hsame.1]
    by_cases h1 : a + 64 ≤ y ∧ y < a + 64 + 64 * n
    · rw [if_pos h1, if_pos (by omega)]
      congr 1
      omega
    · rw [if_neg h1, hbyte]
      by_cases h2 : a ≤ y ∧ y < a + 64
      · rw [if_pos h2, if_pos (by omega)]
      · rw [if_neg h2, if_neg (by omega)]

end

/-- The registers that describe a region of HBM (R302). -/
def rgnRegs (n : Nat) : List Nat := [MEM_RGN_ATTR 0 n, MEM_RGN_BASE 0 n, MEM_RGN_LIMIT 0 n]

/-- A region of HBM allows what it allowed while its registers are as before (R302, R303). -/
theorem Part.attr_congr {p q : Part} (h : ∀ n, n < 64 → ∀ j ∈ rgnRegs n, q.rd j = p.rd j) (a i : Nat) : q.attr a i = p.attr a i := by
  have hregion : q.region a = p.region a := List.find?_congr fun n hn => by
    have hn := h n (List.mem_range.1 hn)
    rw [Part.getB_congr 0 (hn (MEM_RGN_ATTR 0 n) (by simp [rgnRegs])), Part.getF_congr 12 28 (hn (MEM_RGN_BASE 0 n) (by simp [rgnRegs])),
      Part.getF_congr 12 28 (hn (MEM_RGN_LIMIT 0 n) (by simp [rgnRegs]))]
  unfold Part.attr
  rw [hregion]
  split
  · next n hn =>
    rw [Part.getB_congr i (h n (List.mem_range.1 (List.mem_of_find?_eq_some hn)) (MEM_RGN_ATTR 0 n) (by simp [rgnRegs]))]
  · rfl

theorem rgnRegs_range {n j : Nat} (hn : n < 64) (hj : j ∈ rgnRegs n) : 0x2542000 ≤ j ∧ j < 0x2543000 := by
  simp only [rgnRegs, MEM_RGN_ATTR, MEM_RGN_BASE, MEM_RGN_LIMIT, secBase, List.mem_cons, List.not_mem_nil, or_false] at hj
  omega

section
variable {p q : Part} (h : ∀ j, offStore j → (∀ s, j ≠ MEM_STAT_RD s) → q.rd j = p.rd j)
include h

/-- The host may read what it could read while only the counts of lines read change (R397). -/
theorem Part.hostMay_congr (w : Bool) (a : Nat) : q.hostMay w a = p.hostMay w a := by
  have hattr : ∀ i, q.attr a i = p.attr a i := Part.attr_congr (fun n hn j hj => by
    have hr := rgnRegs_range hn hj
    exact h j (.inr (by omega)) fun s => by simp only [MEM_STAT_RD, secBase]; omega) a
  have hslice : isHbm a = true → q.getF (MEM_SLICE 0 (a >>> 30)) 0 3 = p.getF (MEM_SLICE 0 (a >>> 30)) 0 3 := fun ha => by
    have ha : a >>> 30 < 512 := by
      have hlt : a < 0x8000000000 := of_decide_eq_true ha
      rw [Nat.shiftRight_eq_div_pow]
      omega
    exact Part.getF_congr _ _ (h _ (.inr (by simp only [MEM_SLICE, secBase]; omega))
      (fun s => by simp only [MEM_SLICE, MEM_STAT_RD, secBase]; omega))
  have hst : ∀ s, q.getB (MEM_STATUS s) 0 = p.getB (MEM_STATUS s) 0 := fun s => Part.getB_congr 0
    (h _ (.inr (by simp only [MEM_STATUS, secBase]; omega)) (fun t => by simp only [MEM_STATUS, MEM_STAT_RD, secBase]; omega))
  have hm : q.hostMapped a = p.hostMapped a := by
    cases ha : isHbm a
    · simp [Part.hostMapped, ha]
    · simp only [Part.hostMapped, Part.stack, hslice ha, hst]
  have hc : q.rd HIF_CTRL = p.rd HIF_CTRL := h _ (.inl (by decide)) (fun s => by simp only [HIF_CTRL, MEM_STAT_RD, secBase]; omega)
  have hr : q.rd TIK_STATUS = p.rd TIK_STATUS := h _ (.inl (by decide)) (fun s => by simp only [TIK_STATUS, MEM_STAT_RD, secBase]; omega)
  simp only [Part.hostMay, hm, Part.running, hattr, Part.getB_congr 2 hc, Part.getB_congr 0 hr]

end

section
variable (p : Part)

/-- What the host reads of a clean line that it may read: the bytes, and the count of its stack (R397). -/
theorem Part.hostReadLine_clean (a : Nat) (hm : p.hostMay false a = true) (hr : p.mem.ready = true)
    (hc : rsDecode (spGet 0 p.mem.chk a) = .clean) : ∃ q, p.hostReadLine a = (some (p.rawBytes a 64, false), q) ∧ q.mem = p.mem ∧
      q.hif = p.hif ∧ q.cores = p.cores ∧ SameCmds p q ∧ ∀ j, offStore j → (∀ s, j ≠ MEM_STAT_RD s) → q.rd j = p.rd j := by
  have he : p.readLine 1 10 0 a = ((p.rawBytes a 64, none), (p.bump (MEM_STAT_RD (p.stack a / 2)) 1).addPair 0 fun x => { x with hbm := x.hbm + 64 }) := by
    unfold Part.readLine
    dsimp only
    simp [hr, hc, Part.rawBytes]
  have hn : ∀ s, MEM_STAT_RD s ≠ TIK_COUNT ∧ MEM_STAT_RD s ≠ TIK_FRAME_NO := fun s => by
    simp only [MEM_STAT_RD, secBase, TIK_COUNT, TIK_FRAME_NO]; omega
  refine ⟨(p.bump (MEM_STAT_RD (p.stack a / 2)) 1).addPair 0 fun x => { x with hbm := x.hbm + 64 }, ?_, by simp, by simp, by simp,
    ⟨by simp, by simp [(hn _).1], by simp [(hn _).2]⟩, fun j _ hj => by simp [Ne.symm (hj _)]⟩
  rw [Part.hostReadLine, hm]
  simp only [Bool.not_true, Bool.false_eq_true, if_false, he]
  rfl

theorem Part.rawBytes_getD (a : Nat) {i : Nat} (hi : i < 64) : (p.rawBytes a 64).getD i 0#8 = p.byteAt (a + i) := by
  simp [Part.rawBytes, Part.byteAt, hi]

/-- A copy out of lines that are all allowed and clean moves them all, byte for byte (R403). -/
theorem Part.copyOutLoop_allowed (n h a : Nat) (x : CopySum) (hx : x.poison = false) (hr : p.mem.ready = true)
    (hl : ∀ i, i < n → p.hostMay false (a + 64 * i) = true ∧ rsDecode (spGet 0 p.mem.chk (a + 64 * i)) = .clean) :
    let r := Part.copyOutLoop n p h a x
    r.1 = { x with moved := x.moved + n } ∧ r.2.cores = p.cores ∧ r.2.mem = p.mem ∧ SameCmds p r.2 ∧
      ∀ y, spGet 0#8 r.2.hif.mem y = if h ≤ y ∧ y < h + 64 * n then p.byteAt (a + (y - h)) else spGet 0#8 p.hif.mem y := by
  induction n generalizing p h a x with
  | zero => exact ⟨rfl, rfl, rfl, ⟨rfl, rfl, rfl⟩, fun y => by rw [if_neg (by omega)]; rfl⟩
  | succ n ih =>
    obtain ⟨hm, hc⟩ := hl 0 (by omega)
    rw [Nat.mul_zero, Nat.add_zero] at hm hc
    obtain ⟨q, hq, hmem, hhif, hcores, hcmds, hrd⟩ := p.hostReadLine_clean a hm hr hc
    have hstep : Part.copyOutLoop (n + 1) p h a x =
        Part.copyOutLoop n (q.hostPut h (p.rawBytes a 64) false) (h + 64) (a + 64) { x with moved := x.moved + 1 } := by
      rw [Part.copyOutLoop, hq]
      simp [hx]
    have hput := q.hostPut_eq h (p.rawBytes a 64) false
    have hpc := SameCmds.hostPut q h (p.rawBytes a 64) false
    generalize q.hostPut h (p.rawBytes a 64) false = w at hstep hput hpc
    have hwmem : w.mem = p.mem := by rw [hput]; exact hmem
    have hwrd : ∀ j, w.rd j = q.rd j := fun j => by rw [hput]; rfl
    have hrest : ∀ i, i < n → w.hostMay false (a + 64 + 64 * i) = true ∧ rsDecode (spGet 0 w.mem.chk (a + 64 + 64 * i)) = .clean := by
      intro i hi
      rw [show a + 64 + 64 * i = a + 64 * (i + 1) by ring, hwmem, Part.hostMay_congr fun j hj hs => (hwrd j).trans (hrd j hj hs)]
      exact hl (i + 1) (by omega)
    obtain ⟨hsum, hcor, hmm, hcm, hb⟩ := ih w (h + 64) (a + 64) { x with moved := x.moved + 1 } hx (by rw [hwmem]; exact hr) hrest
    have hbyte : ∀ y, spGet 0#8 w.hif.mem y = if h ≤ y ∧ y < h + 64 then p.byteAt (a + (y - h)) else spGet 0#8 p.hif.mem y := by
      intro y
      rw [hput]
      dsimp only
      rw [spGet_putBytes, hhif, show (p.rawBytes a 64).length = 64 by simp [Part.rawBytes]]
      split
      · next hy => exact p.rawBytes_getD a (by omega)
      · rfl
    dsimp only
    rw [hstep]
    refine ⟨by rw [hsum]; simp only [CopySum.mk.injEq, and_true]; omega, hcor.trans (by rw [hput]; exact hcores), hmm.trans hwmem,
      (hcmds.trans hpc).trans hcm, fun y => ?_⟩
    rw [hb, Part.byteAt_congr hwmem]
    by_cases h1 : h + 64 ≤ y ∧ y < h + 64 + 64 * n
    · rw [if_pos h1, if_pos (by omega)]
      congr 1
      omega
    · rw [if_neg h1, hbyte]
      by_cases h2 : h ≤ y ∧ y < h + 64
      · rw [if_pos h2, if_pos (by omega)]
      · rw [if_neg h2, if_neg (by omega)]

end

theorem clocked_hostStores (p : Part) (l : List HostLine) : (p.hostStores l).clocked = p.clocked := by
  rw [Part.hostStores_eq]
  rfl

namespace QueueWork

variable {p q : Part} (h : QueueWork p q)
include h

theorem mem : q.mem = p.mem := by rw [h.1]

theorem cores : q.cores = p.cores := by rw [h.1]

theorem tick : q.tick = p.tick := by rw [h.1]

theorem accepted : q.hif.accepted = p.hif.accepted := by rw [h.1]

theorem hostMem : q.hif.mem = p.hif.mem := by rw [h.1]

theorem whole : q = { p with regs := q.regs, hif := q.hif } := by
  obtain ⟨he, -⟩ := h
  rw [he]

end QueueWork

section
variable (s : State) (queue : BitVec 3) (host : List HostLine) {c : HostCmd} (hb : c.bad = false)
include hb

section
variable (hc : s.p.clocked = true)
include hc

theorem copyIn_refused (hn : (s.p.hostStores host).nextCmd queue.toNat 1 = some c) (hok : copyOk c = false) :
    Becomes (.copyIn queue host) s ((s.p.hostStores host).endCmd queue.toNat c 1 0) := by
  change execCopyIn queue host s = _
  unfold execCopyIn State.run
  dsimp only
  rw [Part.runCopy, Part.runCmd_runs _ hn hb, clocked_hostStores, hc, hok]
  rfl

theorem copyIn_becomes (hn : (s.p.hostStores host).nextCmd queue.toNat 1 = some c) (hok : copyOk c = true) :
    let r := Part.copyInLoop (c.arg 2 / 64) (s.p.hostStores host) (c.arg 0) (c.arg 1) ⟨0, false, false⟩
    Becomes (.copyIn queue host) s (r.2.endCmd queue.toNat c r.1.status (64 * r.1.moved)) := by
  change execCopyIn queue host s = _
  unfold execCopyIn State.run
  dsimp only
  rw [Part.runCopy, Part.runCmd_runs _ hn hb, clocked_hostStores, hc, hok]
  rfl

theorem copyOut_refused (hn : s.p.nextCmd queue.toNat 2 = some c) (hok : copyOk c = false) :
    Becomes (.copyOut queue) s (s.p.endCmd queue.toNat c 1 0) := by
  change execCopyOut queue s = _
  unfold execCopyOut State.run
  dsimp only
  rw [Part.runCopy, Part.runCmd_runs _ hn hb, hc, hok]
  rfl

theorem copyOut_becomes (hn : s.p.nextCmd queue.toNat 2 = some c) (hok : copyOk c = true) :
    let r := Part.copyOutLoop (c.arg 2 / 64) s.p (c.arg 0) (c.arg 1) ⟨0, false, false⟩
    Becomes (.copyOut queue) s (r.2.endCmd queue.toNat c r.1.status (64 * r.1.moved)) := by
  change execCopyOut queue s = _
  unfold execCopyOut State.run
  dsimp only
  rw [Part.runCopy, Part.runCmd_runs _ hn hb, hc, hok]
  rfl

end

end

theorem hostStores_sameAccess (p : Part) (l : List HostLine) (a : Nat) : (p.hostStores l).hostMay true a = p.hostMay true a ∧
    (p.hostStores l).slotLocked a = p.slotLocked a ∧ (p.hostStores l).attr a 5 = p.attr a 5 := by
  rw [Part.hostStores_eq]
  exact ⟨rfl, rfl, rfl⟩

/-- What a copy in ends with, for operands in range and out of range (R403). -/
theorem copyIn_ends (s : State) (queue : BitVec 3) (host : List HostLine) : let p := s.p
    let n := queue.toNat
    let w := p.hostStores host
    ∀ c, w.nextCmd n 1 = some c → c.bad = false → p.clocked = true →
      let k := c.arg 2 / 64
      (copyOk c = false → ∃ q, Becomes (.copyIn queue host) s q ∧ EndsCmd p q n c 1 0 ∧ q.mem = p.mem) ∧
      (copyOk c = true → ∃ q st m, Becomes (.copyIn queue host) s q ∧ m ≤ k ∧ (st = 0 ∨ st = 2 ∨ st = 3) ∧ EndsCmd p q n c st (64 * m)) ∧
      (copyOk c = true → (∀ i, i < k → p.hostMay true (c.arg 1 + 64 * i) = true ∧ p.slotLocked (c.arg 1 + 64 * i) = false ∧
          p.attr (c.arg 1 + 64 * i) 5 = false ∧ (w.hostLine (c.arg 0 + 64 * i)).2 = false) →
        ∃ q, Becomes (.copyIn queue host) s q ∧ EndsCmd p q n c 0 (64 * k) ∧ q.cores = p.cores ∧
          ∀ x, q.byteAt x = if c.arg 1 ≤ x ∧ x < c.arg 1 + 64 * k then spGet 0#8 w.hif.mem (c.arg 0 + (x - c.arg 1)) else p.byteAt x) := by
  intro p n w c hn hb hck k
  obtain ⟨-, -, -, -, hmem, hcores⟩ := hostStores_keeps p host (j := 0) n
  have hs := SameCmds.hostStores p host
  have hc : c ∈ (p.cq n).cmds := by
    have h := Part.nextCmd_mem hn
    rwa [Part.cq, hs.1] at h
  refine ⟨fun hok => ⟨_, copyIn_refused s queue host hb hck hn hok, hs.ends hc 1 0, (QueueWork.endCmd w n c 1 0).mem.trans hmem⟩,
    fun hok => ?_, fun hok hl => ?_⟩
  · obtain ⟨hk, hm⟩ := w.copyInLoop_moves k (c.arg 0) (c.arg 1) ⟨0, false, false⟩
    refine ⟨_, _, _, copyIn_becomes s queue host hb hck hn hok, by rwa [Nat.zero_add] at hm, ?_, (hs.trans hk).ends hc _ _⟩
    unfold CopySum.status
    split
    · exact .inr (.inl rfl)
    · split
      · exact .inr (.inr rfl)
      · exact .inl rfl
  · obtain ⟨hsum, hcor, hbyte⟩ := w.copyInLoop_allowed k (c.arg 0) (c.arg 1) ⟨0, false, false⟩ rfl fun i hi => by
      obtain ⟨h1, h2, h3⟩ := hostStores_sameAccess p host (c.arg 1 + 64 * i)
      obtain ⟨l1, l2, l3, l4⟩ := hl i hi
      exact ⟨⟨h1.trans l1, h2.trans l2, h3.trans l3⟩, l4⟩
    obtain ⟨hk, -⟩ := w.copyInLoop_moves k (c.arg 0) (c.arg 1) ⟨0, false, false⟩
    have hbec := copyIn_becomes s queue host hb hck hn hok
    dsimp only at hbec
    rw [hsum] at hbec
    have hq := QueueWork.endCmd (Part.copyInLoop k w (c.arg 0) (c.arg 1) ⟨0, false, false⟩).2 n c 0 (64 * k)
    refine ⟨_, by simpa [CopySum.status] using hbec, (hs.trans hk).ends hc _ _, hq.cores.trans (hcor.trans hcores), fun x => ?_⟩
    rw [Part.byteAt_congr hq.mem, hbyte, Part.byteAt_congr hmem]

/-- What a copy out ends with, for operands in range and out of range (R403). -/
theorem copyOut_ends (s : State) (queue : BitVec 3) : let p := s.p
    let n := queue.toNat
    ∀ c, p.nextCmd n 2 = some c → c.bad = false → p.clocked = true →
      let k := c.arg 2 / 64
      (copyOk c = false → ∃ q, Becomes (.copyOut queue) s q ∧ EndsCmd p q n c 1 0 ∧ q.mem = p.mem) ∧
      (copyOk c = true → (∀ i, i < k → p.hostMay false (c.arg 1 + 64 * i) = true ∧ rsDecode (spGet 0 p.mem.chk (c.arg 1 + 64 * i)) = .clean) →
        p.mem.ready = true →
        ∃ q, Becomes (.copyOut queue) s q ∧ EndsCmd p q n c 0 (64 * k) ∧ q.mem = p.mem ∧ q.cores = p.cores ∧
          ∀ x, spGet 0#8 q.hif.mem x =
            if c.arg 0 ≤ x ∧ x < c.arg 0 + 64 * k then p.byteAt (c.arg 1 + (x - c.arg 0)) else spGet 0#8 p.hif.mem x) := by
  intro p n c hn hb hck k
  have hc := Part.nextCmd_mem hn
  refine ⟨fun hok => ⟨_, copyOut_refused s queue hb hck hn hok, p.endCmd_ends n 1 0 hc, (QueueWork.endCmd p n c 1 0).mem⟩, fun hok hl hr => ?_⟩
  obtain ⟨hsum, hcor, hmem, hk, hbyte⟩ := p.copyOutLoop_allowed k (c.arg 0) (c.arg 1) ⟨0, false, false⟩ rfl hr hl
  have hbec := copyOut_becomes s queue hb hck hn hok
  dsimp only at hbec
  rw [hsum] at hbec
  have hq := QueueWork.endCmd (Part.copyOutLoop k p (c.arg 0) (c.arg 1) ⟨0, false, false⟩).2 n c 0 (64 * k)
  refine ⟨_, by simpa [CopySum.status] using hbec, hk.ends hc _ _, hq.mem.trans hmem, hq.cores.trans hcor, fun x => ?_⟩
  rw [hq.hostMem, hbyte]

section
variable {α : Type}

theorem insertBy_perm (le : α → α → Bool) (x : α) (l : List α) : (insertBy le x l).Perm (x :: l) := by
  induction l with
  | nil => exact List.Perm.refl _
  | cons y r ih =>
    unfold insertBy
    split
    · exact (ih.cons y).trans (List.Perm.swap x y r)
    · exact List.Perm.refl _

/-- A list of `k` blocks of 64 is cut into its blocks. -/
theorem chunks_eq (k : Nat) (l : List α) (h : l.length = 64 * k) :
    chunks 64 k l = (List.range k).map fun i => (l.drop (64 * i)).take 64 := by
  induction k generalizing l with
  | zero => rfl
  | succ k ih =>
    have hne : l.isEmpty = false := by
      rw [List.isEmpty_eq_false_iff]
      rintro rfl
      simp at h
    rw [chunks, hne, ih _ (by rw [List.length_drop]; omega), List.range_succ_eq_map]
    simp only [Bool.false_eq_true, if_false, List.map_cons, List.map_map, Nat.mul_zero, List.drop_zero, List.drop_drop]
    congr 1
    refine List.map_congr_left fun i _ => ?_
    rw [Function.comp, show 64 + 64 * i = 64 * (i + 1) by ring]

end

theorem acceptInto_perm (l new : List Accepted) : (acceptInto l new).Perm (new ++ l) := by
  induction new generalizing l with
  | nil => exact List.Perm.refl _
  | cons x new ih =>
    exact (ih _).trans (((insertBy_perm _ x l).append_left new).trans List.perm_middle)

theorem Part.length_hostRead (p : Part) (a k : Nat) : (p.hostRead a (64 * k)).1.length = 64 * k := by
  have hk : ceilDiv (64 * k) 64 = k := by unfold ceilDiv; omega
  have hl : ∀ i, (p.hostLine (a + 64 * i)).1.length = 64 := fun i => by simp [Part.hostLine]
  unfold Part.hostRead
  dsimp only
  rw [hk, List.length_take, List.length_flatMap, List.map_map]
  simp only [Function.comp_def, hl, List.map_const', List.length_range, List.sum_replicate, smul_eq_mul]
  omega

/-- The operands of a submission are in range and name no reserved bit (R403). -/
def submitOk (c : HostCmd) : Prop :=
  c.arg 0 % 64 = 0 ∧ fld (c.arg 1) 16 16 = 0 ∧ fld (c.arg 1) 48 16 = 0 ∧ fld (c.arg 1) 32 16 ≠ 0 ∧ fld (c.arg 1) 32 16 ≤ 16384

section
variable (s : State) (queue : BitVec 3) (host : List HostLine) {c : HostCmd}
  (hn : (s.p.hostStores host).nextCmd queue.toNat 3 = some c) (hb : c.bad = false)
include hn hb

theorem hostSubmit_refused (h : ¬submitOk c) : Becomes (.hostSubmit queue host) s ((s.p.hostStores host).endCmd queue.toNat c 1 0) := by
  have hc : c.arg 0 % 64 ≠ 0 ∨ (fld (c.arg 1) 16 16 != 0 || fld (c.arg 1) 48 16 != 0) = true ∨ fld (c.arg 1) 32 16 = 0 ∨
      fld (c.arg 1) 32 16 > 16384 := by
    unfold submitOk at h
    simp only [Bool.or_eq_true, bne_iff_ne]
    omega
  change execHostSubmit queue host s = _
  unfold execHostSubmit State.run
  dsimp only
  rw [Part.runCmd_runs _ hn hb, if_pos hc]

section
variable (h : submitOk c)
include h

theorem submitOk_range : ¬(c.arg 0 % 64 ≠ 0 ∨ (fld (c.arg 1) 16 16 != 0 || fld (c.arg 1) 48 16 != 0) = true ∨ fld (c.arg 1) 32 16 = 0 ∨
    fld (c.arg 1) 32 16 > 16384) := by
  unfold submitOk at h
  simp only [Bool.or_eq_true, bne_iff_ne]
  omega

theorem hostSubmit_poisoned (hr : ((s.p.hostStores host).hostRead (c.arg 0) (64 * fld (c.arg 1) 32 16)).2 = true) :
    Becomes (.hostSubmit queue host) s ((s.p.hostStores host).endCmd queue.toNat c 3 0) := by
  change execHostSubmit queue host s = _
  unfold execHostSubmit State.run
  dsimp only
  rw [Part.runCmd_runs _ hn hb, if_neg (submitOk_range s queue host hn hb h), if_pos hr]

section
variable (hr : ((s.p.hostStores host).hostRead (c.arg 0) (64 * fld (c.arg 1) 32 16)).2 = false)
include hr

theorem hostSubmit_late (hf : c.arg 2 ≤ (s.p.hostStores host).frameNo) :
    Becomes (.hostSubmit queue host) s ((s.p.hostStores host).endCmd queue.toNat c 4 0) := by
  change execHostSubmit queue host s = _
  unfold execHostSubmit State.run
  dsimp only
  rw [Part.runCmd_runs _ hn hb, if_neg (submitOk_range s queue host hn hb h), hr, if_neg Bool.false_ne_true, if_pos hf]

variable (hf : (s.p.hostStores host).frameNo < c.arg 2)
include hf

theorem hostSubmit_waits (hroom : 16384 < (s.p.hostStores host).hif.accepted.length + fld (c.arg 1) 32 16) :
    Becomes (.hostSubmit queue host) s (s.p.hostStores host) := by
  change execHostSubmit queue host s = _
  unfold execHostSubmit State.run
  dsimp only
  rw [Part.runCmd_runs _ hn hb, if_neg (submitOk_range s queue host hn hb h), hr, if_neg Bool.false_ne_true, if_neg (by omega), if_pos hroom]

/-- The descriptors of a submission, in their order (R403). -/
def submitted (p : Part) (n : Nat) (c : HostCmd) : List Accepted :=
  (chunks 64 (fld (c.arg 1) 32 16) (p.hostRead (c.arg 0) (64 * fld (c.arg 1) 32 16)).1).map fun d =>
    Accepted.mk n (c.arg 2) (c.arg 1 % 65536) d

theorem hostSubmit_accepts (hroom : (s.p.hostStores host).hif.accepted.length + fld (c.arg 1) 32 16 ≤ 16384) :
    Becomes (.hostSubmit queue host) s (((s.p.hostStores host).modHif fun x =>
      { x with accepted := acceptInto x.accepted (submitted (s.p.hostStores host) queue.toNat c) }).endCmd queue.toNat c 0
        (fld (c.arg 1) 32 16)) := by
  change execHostSubmit queue host s = _
  unfold execHostSubmit State.run
  dsimp only
  rw [Part.runCmd_runs _ hn hb, if_neg (submitOk_range s queue host hn hb h), hr, if_neg Bool.false_ne_true, if_neg (by omega), if_neg (by omega)]
  rfl

end

end

end

theorem submitted_eq (p : Part) (n : Nat) (c : HostCmd) : submitted p n c = (List.range (fld (c.arg 1) 32 16)).map fun i =>
    ⟨n, c.arg 2, c.arg 1 % 65536, ((p.hostRead (c.arg 0) (64 * fld (c.arg 1) 32 16)).1.drop (64 * i)).take 64⟩ := by
  rw [submitted, chunks_eq _ _ (p.length_hostRead _ _), List.map_map]
  rfl

section
variable (s : State) (queue : BitVec 3) (host : List HostLine) {c : HostCmd}
  (hn : (s.p.hostStores host).nextCmd queue.toNat 3 = some c)

theorem accepted_hostStores (p : Part) (l : List HostLine) : (p.hostStores l).hif.accepted = p.hif.accepted := by
  rw [Part.hostStores_eq]

include hn

/-- A submission that is not taken ends with its status, and the accepted descriptors are as before. -/
theorem submission_ends (status : Nat) : EndsCmd s.p ((s.p.hostStores host).endCmd queue.toNat c status 0) queue.toNat c status 0 ∧
    ((s.p.hostStores host).endCmd queue.toNat c status 0).hif.accepted = s.p.hif.accepted := by
  have hs := SameCmds.hostStores s.p host
  have hc : c ∈ (s.p.cq queue.toNat).cmds := by
    have h := Part.nextCmd_mem hn
    rwa [Part.cq, hs.1] at h
  exact ⟨hs.ends hc status 0, (QueueWork.endCmd _ _ c status 0).accepted.trans (accepted_hostStores s.p host)⟩

/-- A submission that is taken ends with status 0 and the number of its descriptors, which have joined the accepted ones. -/
theorem submission_taken (k : Nat) (new : List Accepted) : let q := ((s.p.hostStores host).modHif fun x =>
      { x with accepted := acceptInto x.accepted new }).endCmd queue.toNat c 0 k
    EndsCmd s.p q queue.toNat c 0 k ∧ q.mem = s.p.mem ∧ q.cores = s.p.cores ∧ q.hif.accepted.Perm (new ++ s.p.hif.accepted) := by
  intro q
  obtain ⟨-, -, -, -, hmem, hcores⟩ := hostStores_keeps s.p host (j := 0) queue.toNat
  have hs := SameCmds.hostStores s.p host
  have hc : c ∈ (s.p.cq queue.toNat).cmds := by
    have h := Part.nextCmd_mem hn
    rwa [Part.cq, hs.1] at h
  have ha := accepted_hostStores s.p host
  unfold q
  clear q
  generalize s.p.hostStores host = w at hs hmem hcores ha
  have hq := QueueWork.endCmd (w.modHif fun x => { x with accepted := acceptInto x.accepted new }) queue.toNat c 0 k
  refine ⟨SameCmds.ends ?_ hc 0 k, hq.mem.trans hmem, hq.cores.trans hcores, ?_⟩
  · exact hs.trans ⟨rfl, rfl, rfl⟩
  · rw [hq.accepted, Part.modHif]
    dsimp only
    rw [ha]
    exact acceptInto_perm _ _

end

/-- What a submission ends with (R403, R404, R408). -/
theorem hostSubmit_ends (s : State) (queue : BitVec 3) (host : List HostLine) : let p := s.p
    let n := queue.toNat
    let w := p.hostStores host
    ∀ c, w.nextCmd n 3 = some c → c.bad = false →
      let k := fld (c.arg 1) 32 16
      let r := w.hostRead (c.arg 0) (64 * k)
      (¬submitOk c → ∃ q, Becomes (.hostSubmit queue host) s q ∧ EndsCmd p q n c 1 0 ∧ q.hif.accepted = p.hif.accepted) ∧
      (submitOk c → r.2 = true → ∃ q, Becomes (.hostSubmit queue host) s q ∧ EndsCmd p q n c 3 0 ∧ q.hif.accepted = p.hif.accepted) ∧
      (submitOk c → r.2 = false → c.arg 2 ≤ p.frameNo →
        ∃ q, Becomes (.hostSubmit queue host) s q ∧ EndsCmd p q n c 4 0 ∧ q.hif.accepted = p.hif.accepted) ∧
      (submitOk c → r.2 = false → p.frameNo < c.arg 2 → p.hif.accepted.length + k ≤ 16384 →
        ∃ q, Becomes (.hostSubmit queue host) s q ∧ EndsCmd p q n c 0 k ∧ q.mem = p.mem ∧ q.cores = p.cores ∧
          q.hif.accepted.length = p.hif.accepted.length + k ∧ (∀ a ∈ p.hif.accepted, a ∈ q.hif.accepted) ∧
          ∀ i, i < k → (⟨n, c.arg 2, c.arg 1 % 65536, (r.1.drop (64 * i)).take 64⟩ : Accepted) ∈ q.hif.accepted) ∧
      (submitOk c → r.2 = false → p.frameNo < c.arg 2 → 16384 < p.hif.accepted.length + k → Becomes (.hostSubmit queue host) s w) := by
  intro p n w c hn hb k r
  have hfr : w.frameNo = p.frameNo := (SameCmds.hostStores p host).2.2
  have hacc : w.hif.accepted.length = p.hif.accepted.length := by rw [accepted_hostStores]
  have hend := submission_ends s queue host hn
  refine ⟨fun h => ⟨_, hostSubmit_refused s queue host hn hb h, hend 1⟩, fun h hr => ⟨_, hostSubmit_poisoned s queue host hn hb h hr, hend 3⟩,
    fun h hr hf => ⟨_, hostSubmit_late s queue host hn hb h hr (by rw [hfr]; exact hf), hend 4⟩, fun h hr hf hroom => ?_,
    fun h hr hf hroom => hostSubmit_waits s queue host hn hb h hr (by rw [hfr]; exact hf) (by rw [hacc]; exact hroom)⟩
  obtain ⟨hends, hmem, hcores, hperm⟩ := submission_taken s queue host hn k (submitted w n c)
  refine ⟨_, hostSubmit_accepts s queue host hn hb h hr (by rw [hfr]; exact hf) (by rw [hacc]; exact hroom), hends, hmem, hcores, ?_,
    fun a ha => ?_, fun i hi => ?_⟩
  · rw [hperm.length_eq, List.length_append, submitted_eq, List.length_map, List.length_range, Nat.add_comm]
  · rw [hperm.mem_iff, List.mem_append]
    exact .inr ha
  · rw [hperm.mem_iff, List.mem_append, submitted_eq]
    exact .inl (List.mem_map_of_mem (List.mem_range.2 hi))

/-- A stored value that is not the default is an entry of the list. -/
theorem mem_of_spGet {α : Type} {d : α} {m : Sparse α} {k : Nat} (h : spGet d m k ≠ d) : (k, spGet d m k) ∈ m := by
  induction m with
  | nil => exact absurd rfl h
  | cons e m ih =>
    obtain ⟨k', v⟩ := e
    unfold spGet at h ⊢
    split at h
    · next hk =>
      rw [if_pos hk, hk]
      exact List.mem_cons_self
    · next hk =>
      rw [if_neg hk]
      exact List.mem_cons_of_mem _ (ih h)

theorem Part.mem_runningCmds {p : Part} {n : Nat} {r : HostCmd} (hr : r ∈ (p.cq n).cmds) (h : r.running = true) : r ∈ p.runningCmds := by
  have hne : p.cq n ≠ .reset := fun e => by
    rw [e] at hr
    exact List.not_mem_nil hr
  exact List.mem_flatMap.2 ⟨_, mem_of_spGet hne, List.mem_filter.2 ⟨hr, h⟩⟩

/-- What the next command of a queue is: one that may start, of the operation asked for, that no poison touched (R403). -/
theorem Part.nextCmd_startable {p : Part} {n op : Nat} {c : HostCmd} (h : p.nextCmd n op = some c) :
    p.startable n = some c ∧ c.poisoned = false ∧ c.op = op := by
  unfold Part.nextCmd at h
  split at h
  · next d hd =>
    split at h
    · next hc =>
      cases h
      simpa [hd] using hc
    · cases h
  · cases h

/-- QUIESCE starts while no other QUIESCE runs (R403). -/
theorem Part.quiesce_alone {p : Part} {n : Nat} {c : HostCmd} (h : p.nextCmd n 0x20 = some c) (hp : ∀ r ∈ p.runningCmds, r.poisoned = false)
    (m : Nat) {r : HostCmd} (hr : r ∈ (p.cq m).cmds) (hrun : r.running = true) : r.op ≠ 0x20 := by
  obtain ⟨hs, hpois, hop⟩ := Part.nextCmd_startable h
  intro hrop
  have hin := Part.mem_runningCmds hr hrun
  unfold Part.startable at hs
  dsimp only at hs
  split at hs
  · cases hs
  · split at hs
    · next d _ hgo =>
      cases hs
      simp only [HostCmd.serial, hpois, hop, Bool.and_eq_true, Bool.or_eq_true] at hgo
      obtain ⟨⟨-, hany⟩, -⟩ := hgo
      rcases hany with hany | hany
      · exact absurd hany (by decide)
      · rw [Bool.not_eq_true', List.any_eq_false] at hany
        exact hany r hin (by simp [HostCmd.serial, hp r hin, hrop])
    · cases hs

/-- The completion of the QUIESCE that runs in one queue, once ticks have stopped (R404). -/
def Part.endQuiesce (p : Part) (m : Nat) : Part :=
  match (p.cq m).cmds.find? (fun c => c.running && c.op == 0x20) with
  | some c => p.endCmd m c 0 p.tickCount
  | none => p

theorem EndsCmd.later {p q r : Part} {n : Nat} {c : HostCmd} {status result : Nat} (h : EndsCmd p q n c status result) (h' : CmdsEnd q r) :
    EndsCmd p r n c status result := by
  obtain ⟨hlen, l, r', hended⟩ := h
  obtain ⟨-, -, -, hq⟩ := h'
  obtain ⟨hlen', l', hended'⟩ := hq n
  exact ⟨lt_of_le_of_lt hlen' hlen, l, r' ++ l', by rw [hended', hended]; simp⟩

theorem Part.endQuiesce_work (p : Part) (m : Nat) : CmdsEnd p (p.endQuiesce m) ∧ QueueWork p (p.endQuiesce m) := by
  unfold Part.endQuiesce
  split
  · exact ⟨CmdsEnd.endCmd _ _ _ _ _, QueueWork.endCmd _ _ _ _ _⟩
  · exact ⟨CmdsEnd.refl p, QueueWork.refl p⟩

theorem Part.endQuiesces_work (l : List Nat) (p : Part) : CmdsEnd p (p.each l Part.endQuiesce) ∧ QueueWork p (p.each l Part.endQuiesce) := by
  induction l generalizing p with
  | nil => exact ⟨CmdsEnd.refl p, QueueWork.refl p⟩
  | cons m l ih =>
    rw [Part.each_cons]
    exact ⟨(p.endQuiesce_work m).1.trans (ih _).1, (p.endQuiesce_work m).2.trans (ih _).2⟩

/-- The one QUIESCE that runs ends when the queues are gone through. -/
theorem Part.endQuiesces_ends {n : Nat} {c : HostCmd} (l : List Nat) (p : Part) (hl : n ∈ l)
    (hn : (p.cq n).cmds.find? (fun c => c.running && c.op == 0x20) = some c)
    (hm : ∀ m, m ≠ n → (p.cq m).cmds.find? (fun c => c.running && c.op == 0x20) = none) :
    EndsCmd p (p.each l Part.endQuiesce) n c 0 p.tickCount := by
  induction l with
  | nil => cases hl
  | cons m l ih =>
    rw [Part.each_cons]
    by_cases h : m = n
    · subst h
      have he : p.endQuiesce m = p.endCmd m c 0 p.tickCount := by rw [Part.endQuiesce, hn]
      rw [he]
      exact (p.endCmd_ends m 0 p.tickCount (List.mem_of_find?_eq_some hn)).later (Part.endQuiesces_work l _).1
    · have he : p.endQuiesce m = p := by rw [Part.endQuiesce, hm m h]
      rw [he]
      exact ih ((List.mem_cons.1 hl).resolve_left (Ne.symm h))

theorem Part.startCmd_cq (p : Part) (n : Nat) (c : HostCmd) (m : Nat) : ((p.startCmd n c).cq m).cmds =
    if n = m then (p.cq n).cmds.map (fun d => if d == c then { d with running := true } else d) else (p.cq m).cmds := by
  unfold Part.startCmd
  dsimp only
  rw [Part.cq_setCq]
  split <;> rfl

theorem Part.startCmd_in {p : Part} {n : Nat} {c : HostCmd} (hc : c ∈ (p.cq n).cmds) : { c with running := true } ∈ ((p.startCmd n c).cq n).cmds := by
  rw [Part.startCmd_cq, if_pos rfl]
  exact List.mem_map.2 ⟨c, hc, by rw [if_pos (beq_self_eq_true c)]⟩

section
variable {p : Part} {n : Nat} {c : HostCmd} (h : p.nextCmd n 0x20 = some c) (hp : ∀ r ∈ p.runningCmds, r.poisoned = false)
include h hp

theorem Part.quiesce_runs : ((p.startCmd n c).cq n).cmds.find? (fun c => c.running && c.op == 0x20) = some { c with running := true } := by
  have hc := Part.nextCmd_mem h
  obtain ⟨-, -, hop⟩ := Part.nextCmd_startable h
  have hc' : ({ c with running := true } : HostCmd).op = 0x20 := hop
  rw [Part.startCmd_cq, if_pos rfl, List.find?_map]
  cases hf : (p.cq n).cmds.find? ((fun c => c.running && c.op == 0x20) ∘ fun d => if d == c then { d with running := true } else d) with
  | none =>
    have hno := List.find?_eq_none.1 hf c hc
    simp [hc'] at hno
  | some d =>
    have hd := List.find?_some hf
    have hin := List.mem_of_find?_eq_some hf
    by_cases he : d = c
    · subst he
      simp
    · simp [he] at hd
      exact absurd hd.2 (Part.quiesce_alone h hp n hin hd.1)

theorem Part.quiesce_others {m : Nat} (hm : m ≠ n) : ((p.startCmd n c).cq m).cmds.find? (fun c => c.running && c.op == 0x20) = none := by
  rw [Part.startCmd_cq, if_neg (Ne.symm hm), List.find?_eq_none]
  intro r hr hd
  simp only [Bool.and_eq_true, beq_iff_eq] at hd
  exact Part.quiesce_alone h hp m hr hd.1 hd.2

end

theorem Part.quiesceDone_eq (p : Part) (hq : p.tick.quiesced = true) (hs : p.tick.stopAfter = true) (ht : p.tick.token = none) :
    p.quiesceDone = (p.modTick fun t => { t with quiesced := false }).each (List.range 8) Part.endQuiesce := by
  unfold Part.quiesceDone
  rw [hq, hs, ht, if_neg (by decide)]
  rfl

theorem Part.quiesceDone_waits (p : Part) (h : p.tick.stopAfter = false ∨ p.tick.token ≠ none) : p.quiesceDone = p := by
  unfold Part.quiesceDone
  rw [if_pos]
  rcases h with h | h
  · simp [h]
  · simp [Option.isSome_iff_ne_none.2 h]

section
variable (s : State) (queue : BitVec 3) {c : HostCmd} (hb : c.bad = false)
include hb

section
variable (hn : s.p.nextCmd queue.toNat 0x20 = some c)
include hn

theorem quiesce_refused (hr : s.p.role ≠ 1) : Becomes (.quiesce queue) s (s.p.endCmd queue.toNat c 5 0) := by
  change execQuiesce queue s = _
  unfold execQuiesce State.run
  dsimp only
  rw [Part.runCmd_runs _ hn hb, if_pos hr]

theorem quiesce_becomes (hr : s.p.role = 1) :
    Becomes (.quiesce queue) s ((s.p.startCmd queue.toNat c).modTick fun t => { t with quiesced := true }).quiesceDone := by
  change execQuiesce queue s = _
  unfold execQuiesce State.run
  dsimp only
  rw [Part.runCmd_runs _ hn hb, if_neg (not_not.2 hr)]

/-- Ticks have stopped: the command ends with the number of the tick (R404). -/
theorem quiesce_ends (hr : s.p.role = 1) (hs : s.p.tick.stopAfter = true) (ht : s.p.tick.token = none)
    (hp : ∀ r ∈ s.p.runningCmds, r.poisoned = false) :
    ∃ q, Becomes (.quiesce queue) s q ∧ EndsCmd s.p q queue.toNat c 0 s.p.tickCount ∧ q.tick = { s.p.tick with quiesced := false } := by
  have hbec := quiesce_becomes s queue hb hn hr
  rw [Part.quiesceDone_eq ((s.p.startCmd queue.toNat c).modTick fun t => { t with quiesced := true }) rfl hs ht] at hbec
  obtain ⟨r, hrr⟩ : ∃ r, r = ((s.p.startCmd queue.toNat c).modTick fun t => { t with quiesced := true }).modTick fun t =>
    { t with quiesced := false } := ⟨_, rfl⟩
  rw [← hrr] at hbec
  have hcq : ∀ m, r.cq m = (s.p.startCmd queue.toNat c).cq m := fun m => by rw [hrr]; rfl
  have htick : r.tick = { s.p.tick with quiesced := false } := by rw [hrr]; rfl
  have htc : r.tickCount = s.p.tickCount := by rw [hrr]; rfl
  have hfr : r.frameNo = s.p.frameNo := by rw [hrr]; rfl
  have hends := Part.endQuiesces_ends (List.range 8) r (List.mem_range.2 queue.isLt)
    (by rw [hcq]; exact Part.quiesce_runs hn hp) (fun m hm => by rw [hcq]; exact Part.quiesce_others hn hp hm)
  refine ⟨_, hbec, ?_, (Part.endQuiesces_work _ r).2.tick.trans htick⟩
  obtain ⟨hlen, l, x, hended⟩ := hends
  have hkeep : (r.cq queue.toNat).cmds.length = (s.p.cq queue.toNat).cmds.length ∧
      (r.cq queue.toNat).ended = (s.p.cq queue.toNat).ended := by
    rw [hcq, Part.startCmd_cq, if_pos rfl, List.length_map, Part.startCmd, Part.cq_setCq, if_pos rfl]
    exact ⟨rfl, rfl⟩
  rw [hkeep.1] at hlen
  rw [hkeep.2, htc, hfr] at hended
  exact ⟨hlen, l, x, hended⟩

end

section
variable (hn : s.p.nextCmd queue.toNat 0x21 = some c) (hc : s.p.clocked = true)
include hn hc

theorem resume_refused (hr : s.p.role ≠ 1) : Becomes (.resume queue) s (s.p.endCmd queue.toNat c 5 0) := by
  change execResume queue s = _
  unfold execResume State.run
  dsimp only
  rw [Part.runCmd_runs _ hn hb, hc, if_neg (by decide), if_pos hr]

theorem resume_becomes (hr : s.p.role = 1) :
    Becomes (.resume queue) s (s.p.resumeTicks.endCmd queue.toNat c 0 (s.p.tickCount + 1)) := by
  change execResume queue s = _
  unfold execResume State.run
  dsimp only
  rw [Part.runCmd_runs _ hn hb, hc, if_neg (by decide), if_neg (not_not.2 hr)]

end

end

theorem Part.resumeTicks_stopped (p : Part) (h : p.tick.stopAfter = true) : p.resumeTicks.getB TIK_STATUS 11 = false ∧
    p.resumeTicks.tick = { p.tick with stopAfter := false, quiesced := false, resumeReplay := decide (p.tickCount ≠ 0) } := by
  have hb : (p.tickCount != 0) = decide (p.tickCount ≠ 0) := by
    rw [Bool.eq_iff_iff, bne_iff_ne, decide_eq_true_iff]
  unfold Part.resumeTicks
  rw [h, if_neg (by decide), ← hb]
  exact ⟨by simp [Part.getB_putB_same], by simp⟩

theorem Part.resumeTicks_going (p : Part) (h : p.tick.stopAfter = false) : p.resumeTicks = p := by
  unfold Part.resumeTicks
  rw [h]
  rfl

theorem SameCmds.resumeTicks (p : Part) : SameCmds p p.resumeTicks := by
  unfold Part.resumeTicks
  split
  · exact ⟨rfl, rfl, rfl⟩
  · exact ⟨by simp, by simp (disch := decide), by simp (disch := decide)⟩

theorem resume_ends (s : State) (queue : BitVec 3) {c : HostCmd} (hn : s.p.nextCmd queue.toNat 0x21 = some c) (hb : c.bad = false)
    (hc : s.p.clocked = true) (hr : s.p.role = 1) :
    ∃ q, Becomes (.resume queue) s q ∧ EndsCmd s.p q queue.toNat c 0 (s.p.tickCount + 1) ∧ q.mem = s.p.mem ∧ q.cores = s.p.cores ∧
      (s.p.tick.stopAfter = false → q.tick = s.p.tick) ∧
      (s.p.tick.stopAfter = true → q.getB TIK_STATUS 11 = false ∧
        q.tick = { s.p.tick with stopAfter := false, quiesced := false, resumeReplay := decide (s.p.tickCount ≠ 0) }) := by
  have hq := QueueWork.endCmd s.p.resumeTicks queue.toNat c 0 (s.p.tickCount + 1)
  refine ⟨_, resume_becomes s queue hb hn hc hr, (SameCmds.resumeTicks s.p).ends (Part.nextCmd_mem hn) _ _,
    hq.mem.trans (Part.resumeTicks_frame _).1, hq.cores.trans (Part.resumeTicks_frame _).2, fun h => ?_, fun h => ?_⟩
  · rw [hq.tick, Part.resumeTicks_going _ h]
  · obtain ⟨hbit, htick⟩ := s.p.resumeTicks_stopped h
    exact ⟨(Part.getB_congr 11 (hq.2 _ (by unfold offQueues; decide))).trans hbit, hq.tick.trans htick⟩

/-- Settles O41: what a copy, a submission, QUIESCE and RESUME end with, and what they move. -/
theorem hostCommands : Obligations.HostCommands := by
  refine ⟨fun s queue host => ⟨copyIn_ends s queue host, copyOut_ends s queue, hostSubmit_ends s queue host⟩, fun s queue =>
    ⟨fun c hn hb => ⟨fun hr => ?_, fun hr hw => ?_, quiesce_ends s queue hb hn⟩, fun c hn hb hc => ⟨fun hr => ?_, resume_ends s queue hn hb hc⟩⟩⟩
  · exact ⟨_, quiesce_refused s queue hb hn hr, s.p.endCmd_ends _ _ _ (Part.nextCmd_mem hn), (QueueWork.endCmd s.p _ c 5 0).whole⟩
  · have hbec := quiesce_becomes s queue hb hn hr
    rw [Part.quiesceDone_waits ((s.p.startCmd queue.toNat c).modTick fun t => { t with quiesced := true }) hw] at hbec
    exact ⟨_, hbec, rfl, Part.startCmd_in (Part.nextCmd_mem hn)⟩
  · exact ⟨_, resume_refused s queue hb hn hc hr, s.p.endCmd_ends _ _ _ (Part.nextCmd_mem hn), (QueueWork.endCmd s.p _ c 5 0).whole⟩

end Sys2Proof.Machine
end

section
/-!
SUPPORT. A store of a few bytes into one line of HBM, and what a running clock leaves of the region map (R294 to R296, R302).
-/
namespace Sys2Proof.Machine

theorem Part.clockTo_attr (p : Part) (t a i : Nat) : (p.clockTo t).attr a i = p.attr a i := by
  refine Part.attr_congr (fun n hn j hj => ?_) a i
  have hr := rgnRegs_range hn hj
  refine p.clockTo_rd t (fun hin => ?_) (by unfold HIF_STAT_CRWAIT; omega)
  have hcore : ∀ c x, x < 0x400 → j ≠ corBase c + x := fun c x hx => by simp only [corBase, secBase]; omega
  simp only [Part.cycleCounts, Core.cycleCounts, List.mem_append, List.mem_flatMap, List.mem_map] at hin
  rcases hin with hin | ⟨s, -, k, -, rfl⟩
  · split at hin
    · cases hin
    · simp only [List.mem_append, List.mem_flatMap, List.mem_map] at hin
      rcases hin with ⟨e, -, hin | hin⟩ | ⟨s, -, rfl⟩
      · split at hin
        · exact hcore _ _ (by decide) (List.mem_singleton.1 hin)
        · exact hcore _ _ (by decide) (List.mem_singleton.1 hin)
        · exact hcore _ _ (by decide) (List.mem_singleton.1 hin)
        · cases hin
      · split at hin
        · cases hin
        · exact hcore _ _ (by decide) (List.mem_singleton.1 hin)
      · simp only [SCH_STAT_BP, secBase] at hr
        omega
  · simp only [MEM_STAT_THROTTLE, secBase] at hr
    omega

/-- Bytes written within a line, data: the line's other bytes are as before. -/
theorem splice_getD {old bs : List Byte} {o i : Nat} (hl : old.length = 64) (ho : o + bs.length ≤ 64) (hi : i < 64) :
    (old.take o ++ bs ++ old.drop (o + bs.length)).getD i 0#8 = if o ≤ i ∧ i < o + bs.length then bs.getD (i - o) 0#8 else old.getD i 0#8 := by
  simp only [List.getD_eq_getElem?_getD, List.getElem?_append, List.length_append, List.length_take, List.getElem?_take, List.getElem?_drop, hl]
  rw [Nat.min_eq_left (by omega)]
  split
  · split
    · next h1 h2 => rw [if_neg (by omega)]
    · next h1 h2 => rw [if_pos (by omega)]
  · next h1 =>
    rw [if_neg (by omega)]
    congr 2
    omega

section
variable (p : Part) (g q a : Nat) (bs : List Byte) (hr : p.mem.ready = true) (hc : rsDecode (spGet 0 p.mem.chk (a / 64 * 64)) = .clean)
  (hj : p.attr (a / 64 * 64) 5 = false) (ho : a % 64 + bs.length ≤ 64)
include hr hc hj ho

/-- A store of a few bytes into a clean line that is not journalled changes those bytes alone. -/
theorem Part.writePart_byteAt (x : Nat) : (p.writePart g q a bs none).byteAt x =
    if a ≤ x ∧ x < a + bs.length then bs.getD (x - a) 0#8 else p.byteAt x := by
  obtain ⟨hread, hmem⟩ := p.readLine_clean 1 g q (a / 64 * 64) hr hc
  have hattr : (p.readLine 1 g q (a / 64 * 64)).2.attr (a / 64 * 64) 5 = false := by
    refine (Part.attr_congr (fun n hn j hj => ?_) _ _).trans hj
    have hrg := rgnRegs_range hn hj
    have hne : MEM_STAT_RD (p.stack (a / 64 * 64) / 2) ≠ j := by unfold MEM_STAT_RD secBase; omega
    simp [Part.readLine, hr, hc, hne]
  have hlen : (p.rawBytes (a / 64 * 64) 64).length = 64 := by simp [Part.rawBytes]
  have hlen' : ((p.rawBytes (a / 64 * 64) 64).take (a % 64) ++ bs ++ (p.rawBytes (a / 64 * 64) 64).drop (a % 64 + bs.length)).length = 64 := by
    simp only [List.length_append, List.length_take, List.length_drop, hlen]
    omega
  unfold Part.writePart
  dsimp only
  simp only [hread]
  rw [Part.byteAt_congr (Part.writeLine_plain _ g q _ _ none hattr).1, Part.byteAt_congr (Part.putLine_mem_congr hmem _ _ _)]
  by_cases hx : a / 64 * 64 ≤ x ∧ x < a / 64 * 64 + 64
  · obtain ⟨i, rfl⟩ : ∃ i, x = a / 64 * 64 + i := ⟨x - a / 64 * 64, by omega⟩
    have hi : i < 64 := by omega
    rw [(p.putLine_data _ hlen').2 i hi, splice_getD hlen ho hi, p.rawBytes_getD _ hi]
    by_cases h : a % 64 ≤ i ∧ i < a % 64 + bs.length
    · rw [if_pos h, if_pos (by omega)]
      congr 1
      omega
    · rw [if_neg h, if_neg (by omega)]
  · rw [p.putLine_outside _ _ hlen' hx, if_neg (by omega)]

theorem Part.store_inLine (hh : isHbm a = true) (h0 : 0 < bs.length) (h64 : bs.length < 64) (x : Nat) : (p.store g q a bs none).byteAt x =
    if a ≤ x ∧ x < a + bs.length then bs.getD (x - a) 0#8 else p.byteAt x := by
  have hne : bs.isEmpty = false := by
    rw [List.isEmpty_eq_false_iff]
    rintro rfl
    exact absurd h0 (by decide)
  have hn : bs.length ≤ 64 - a % 64 := by omega
  have hs : p.store g q a bs none = p.writePart g q a bs none := by
    unfold Part.store
    rw [Part.storeLoop]
    dsimp only
    rw [hne, hh, if_neg Bool.false_ne_true, if_pos rfl, if_pos rfl, List.take_of_length_le hn, List.drop_of_length_le hn, Part.writeInLine,
      if_neg (by omega), Part.storeLoop]
    rfl
  rw [hs, p.writePart_byteAt g q a bs hr hc hj ho]

end

end Sys2Proof.Machine
end

section
/-!
PROOF. Inbox blocks and the status record (R409, R410, R412, R413, R416).
-/
namespace Sys2Proof.Machine

section
variable (s : State) (channel : BitVec 4)

theorem inCommit_becomes (word : BitVec 64) (hl : s.p.hif.linkUp = true) :
    Becomes (.inCommit channel word) s (s.p.commitWord channel.toNat word.toNat) := by
  change execInCommit channel word s = _
  unfold execInCommit State.run
  dsimp only
  rw [hl, if_pos rfl]

theorem inCommit_unlinked (word : BitVec 64) (hl : s.p.hif.linkUp = false) : Becomes (.inCommit channel word) s s.p := by
  change execInCommit channel word s = _
  unfold execInCommit State.run
  dsimp only
  rw [hl, if_neg Bool.false_ne_true]

end

section
variable (p : Part) (c w : Nat)

/-- A commit word that names a free slot and index of an enabled channel is held for its frame (R412). -/
theorem Part.commitWord_holds {f : Nat} (hf : p.wordFrame (fld w 40 24) = some f) (ho : p.inOn c = true) (hz : fld w 12 4 = 0)
    (hs : fld w 0 12 < 2 ^ p.getF (HIF_IN_CFG c) 8 5) (hi : fld w 32 8 ≤ 254) (hl : fld w 16 16 ≠ 0)
    (hlen : fld w 16 16 ≤ p.getF (HIF_IN_CFG c) 0 8 * 128)
    (hfree : ∀ b ∈ p.heldBlocks c, b.slot ≠ fld w 0 12 ∧ ¬(b.frame = f ∧ b.index = fld w 32 8)) :
    p.commitWord c w = p.setBlocks c (p.heldBlocks c ++
      [⟨fld w 0 12, f, fld w 32 8, 32 * fld w 16 16, false, decide (f < p.frameNo), p.getF (HIF_IN_CFG c) 56 8⟩]) := by
  have hany : (p.heldBlocks c).any (fun b => b.slot == fld w 0 12 || (b.frame == f && b.index == fld w 32 8)) = false := by
    rw [List.any_eq_false]
    intro b hb
    obtain ⟨h1, h2⟩ := hfree b hb
    simpa [h1] using h2
  have hs' : ¬fld w 0 12 ≥ 2 ^ fld (p.rd (HIF_IN_CFG c)) 8 5 := Nat.not_le.2 hs
  have hlen' : ¬fld w 16 16 > fld (p.rd (HIF_IN_CFG c)) 0 8 * 128 := Nat.not_lt.2 hlen
  have hi' : ¬fld w 32 8 > 254 := by omega
  rw [(commitsBy_commitWord p c w).2 f hf]
  refine if_neg ?_
  rw [hany, ho, hz, decide_eq_false hs', decide_eq_false hi', decide_eq_false hlen', decide_eq_false hl]
  exact Bool.false_ne_true

/-- A commit word of a channel that is off, of another form or for a slot that is held is refused (R412). -/
theorem Part.commitWord_refuses (h : p.inOn c = false ∨ fld w 12 4 ≠ 0 ∨ 254 < fld w 32 8 ∨ fld w 16 16 = 0 ∨
    ∃ b ∈ p.heldBlocks c, b.slot = fld w 0 12) : p.commitWord c w = p.badCommit := by
  obtain ⟨hnone, hsome⟩ := commitsBy_commitWord p c w
  cases hf : p.wordFrame (fld w 40 24) with
  | none => exact hnone hf
  | some f =>
    rw [hsome f hf]
    refine if_pos ?_
    rcases h with h | h | h | h | ⟨b, hb, hs⟩
    · simp [h]
    · simp [h]
    · simp [h]
    · simp [h]
    · have hany : (p.heldBlocks c).any (fun b => b.slot == fld w 0 12 || (b.frame == f && b.index == fld w 32 8)) = true :=
        List.any_eq_true.2 ⟨b, hb, by rw [hs, beq_self_eq_true, Bool.true_or]⟩
      rw [hany, Bool.or_true]

theorem Part.badCommit_counts : p.badCommit.hif = p.hif ∧ p.badCommit.mem = p.mem ∧ p.badCommit.getB HIF_STICKY 6 = true ∧
    p.badCommit.rd HIF_STAT_BADCOMMIT = (p.rd HIF_STAT_BADCOMMIT + 1) % 2 ^ 64 := by
  unfold Part.badCommit
  refine ⟨by simp, by simp, ?_, ?_⟩
  · rw [Part.noteErr, (Part.err_sameAt _ (by decide) (by decide) _).2.1, Part.getB_stick_same _ _ (by decide)]
  · rw [(Part.noteErr_sameAt _ (by decide) (by decide) _ _ _ (by decide) (by decide)).1, Part.rd_bump_same]

end

section
variable (p : Part) {j : Nat} (h : j < 0x2000000) (hj : j ∉ recordRegs)
include h hj

@[simp] theorem Part.signalIn_sameAt (pair c ev : Nat) : (p.signalIn pair c ev).SameAt p j := by
  refine Part.sameAt_of_rd ?_
  unfold Part.signalIn
  split <;> simp [h, hj]

end

@[simp] theorem Part.signalIn_hif (p : Part) (pair c ev : Nat) : (p.signalIn pair c ev).hif = p.hif ∧ (p.signalIn pair c ev).cycle = p.cycle := by
  simp [Part.signalIn]

section
variable (p : Part) (c : Nat) (b : HeldBlock)

/-- The entry of the delivery table of a held block (R413). -/
def HeldBlock.entry (b : HeldBlock) : List Byte := leBytes 4 b.slot ++ leBytes 4 b.len ++ leBytes 8 b.frame

/-- The part once a held block has been delivered, before the count (R413). -/
def Part.deliver : Part :=
  let q := (p.clockTo (p.tick.frameStart + 128)).store 10 0 ((p.clockTo (p.tick.frameStart + 128)).inBaseOf c + 16 * b.index) b.entry none
  (q.setBlocks c ((q.heldBlocks c).map fun x => if x == b then { x with delivered := true } else x)).signalIn 0
    (fld (q.rd (HIF_IN_CFG c)) 13 13) (fld (q.rd (HIF_IN_CFG c)) 26 5)

theorem HeldBlock.length_entry : b.entry.length = 16 := by simp [HeldBlock.entry]

theorem Part.inBaseOf_clockTo (t : Nat) (hc : c < 16) : (p.clockTo t).inBaseOf c = p.inBaseOf c :=
  (Part.clockTo_off p t (by unfold HIF_IN_BASE; omega) (by unfold HIF_IN_BASE HIF_STAT_CRWAIT; omega)).2.2 0 40

theorem Part.deliver_keeps (hc : c < 16) : (p.deliver c b).cycle = max p.cycle (p.tick.frameStart + 128) ∧
    (p.deliver c b).heldBlocks c = (p.heldBlocks c).map (fun x => if x = b then { x with delivered := true } else x) ∧
    (p.deliver c b).rd HIF_STAT_BLOCK = p.rd HIF_STAT_BLOCK := by
  unfold Part.deliver
  refine ⟨by simp [Part.setBlocks], ?_, ?_⟩
  · have hb : ∀ (q : Part) l, (q.setBlocks c l).heldBlocks c = l := fun q l => by simp [Part.setBlocks, Part.heldBlocks]
    rw [Part.heldBlocks, (Part.signalIn_hif _ _ _ _).1]
    refine (hb _ _).trans ?_
    simp [Part.heldBlocks]
  · rw [(Part.signalIn_sameAt _ (by decide) (by decide) _ _ _).1]
    refine Eq.trans (b := _) (by rw [Part.setBlocks, (Part.modHif_sameAt _ _).1]) ?_
    rw [(Part.store_sameAt _ (by decide) (by decide) (by decide) _ _ _ _ _).1, (Part.clockTo_off _ _ (by decide) (by decide)).1]

theorem Part.deliver_byteAt (hc : c < 16) (hal : p.inBaseOf c % 4096 = 0) (hh : isHbm (p.inBaseOf c + 16 * b.index) = true)
    (hr : p.mem.ready = true) (hcl : rsDecode (spGet 0 p.mem.chk ((p.inBaseOf c + 16 * b.index) / 64 * 64)) = .clean)
    (hj : p.attr ((p.inBaseOf c + 16 * b.index) / 64 * 64) 5 = false) (x : Nat) : (p.deliver c b).byteAt x =
      if p.inBaseOf c + 16 * b.index ≤ x ∧ x < p.inBaseOf c + 16 * b.index + 16 then b.entry.getD (x - (p.inBaseOf c + 16 * b.index)) 0#8
      else p.byteAt x := by
  have hm : (p.clockTo (p.tick.frameStart + 128)).mem = p.mem := by simp
  have hs := Part.store_inLine (p.clockTo (p.tick.frameStart + 128)) 10 0 (p.inBaseOf c + 16 * b.index) b.entry (by rw [hm]; exact hr)
    (by rw [hm]; exact hcl) (by rw [Part.clockTo_attr]; exact hj) (by rw [b.length_entry]; omega) hh (by rw [b.length_entry]; decide)
    (by rw [b.length_entry]; decide) x
  rw [b.length_entry, Part.byteAt_congr hm] at hs
  rw [← hs, ← p.inBaseOf_clockTo c (p.tick.frameStart + 128) hc]
  exact Part.byteAt_congr (by simp [Part.deliver, Part.setBlocks]) x

end

/-- The block of the lowest index is delivered with its entry of the delivery table (R413). -/
theorem blockDelivery_delivers (s : State) (channel : BitVec 4) (b : HeldBlock) (hw : s.p.working = true) (ho : s.p.inOn channel.toNat = true)
    (hu : s.p.tick.unwinding = false) (hn : s.p.nextBlock channel.toNat = some b) :
    Becomes (.blockDelivery channel) s ((s.p.deliver channel.toNat b).bump HIF_STAT_BLOCK 1) := by
  change execBlockDelivery channel s = _
  unfold execBlockDelivery State.run
  dsimp only
  rw [hw, ho, hu, hn, if_neg (by decide)]
  rfl

section
variable (s : State)

theorem statusRecordWrite_none (hd : s.p.hif.statusDue = false) : Becomes .statusRecordWrite s s.p := by
  change execStatusRecordWrite s = _
  unfold execStatusRecordWrite State.run
  dsimp only
  rw [hd]
  rfl

theorem statusRecordWrite_skips (hd : s.p.hif.statusDue = true) (hb : s.p.hostBus = false) :
    Becomes .statusRecordWrite s ((s.p.modHif fun h => { h with statusDue := false }).bump HIF_STAT_STATUSSKIP 1) := by
  have hb' : (s.p.modHif fun h => { h with statusDue := false }).hostBus = false := hb
  change execStatusRecordWrite s = _
  unfold execStatusRecordWrite State.run
  dsimp only
  rw [hd, hb']
  rfl

/-- The part once its status record, cut into lines, is in host memory. -/
def Part.putRecord (p : Part) (a : Nat) (r : List Byte) : Part :=
  ((p.hostPut (a + 128) (r.drop 128) false).hostPut (a + 64) ((r.drop 64).take 64) false).hostPut a (r.take 64) false

theorem statusRecordWrite_writes (hd : s.p.hif.statusDue = true) (hb : s.p.hostBus = true) :
    Becomes .statusRecordWrite s
      ((s.p.modHif fun h => { h with statusDue := false }).putRecord (s.p.getF HIF_STATUS_ADDR 8 56 * 256) s.p.statusRecord) := by
  obtain ⟨u, hu⟩ : ∃ u, u = s.p.modHif fun h => { h with statusDue := false } := ⟨_, rfl⟩
  have hb' : u.hostBus = true := by rw [hu]; exact hb
  have ha : u.getF HIF_STATUS_ADDR 8 56 = s.p.getF HIF_STATUS_ADDR 8 56 := by rw [hu]; exact (Part.modHif_sameAt _ _).2.2 8 56
  have hr : u.statusRecord = s.p.statusRecord := by
    have hrd : ∀ j, u.rd j = s.p.rd j := fun j => by rw [hu]; exact (Part.modHif_sameAt _ _).1
    have hh : ∀ c, u.heldBlocks c = s.p.heldBlocks c := fun c => by rw [hu]; rfl
    have hs : u.hif.summary = s.p.hif.summary := by rw [hu]; rfl
    simp only [Part.statusRecord, Part.tickCount, Part.frameNo, hrd, hh, hs]
  change execStatusRecordWrite s = _
  unfold execStatusRecordWrite State.run
  dsimp only
  rw [hd, if_neg (by decide), ← hu, hb', if_neg (by decide), ha, hr]
  rfl

end

section
variable (p : Part) (a : Nat) (r : List Byte)

theorem Part.putRecord_eq : p.putRecord a r = { p with
    hif := { p.hif with mem := (p.putRecord a r).hif.mem, memPoison := (p.putRecord a r).hif.memPoison } } := by
  unfold Part.putRecord
  rw [Part.hostPut_eq, Part.hostPut_eq, Part.hostPut_eq]

theorem Part.putRecord_mem (hl : r.length = 192) (x : Nat) :
    spGet 0#8 (p.putRecord a r).hif.mem x = if a ≤ x ∧ x < a + 192 then r.getD (x - a) 0#8 else spGet 0#8 p.hif.mem x := by
  have hm : (p.putRecord a r).hif.mem =
      putBytes (putBytes (putBytes p.hif.mem (a + 128) (r.drop 128)) (a + 64) ((r.drop 64).take 64)) a (r.take 64) := by
    unfold Part.putRecord
    rw [Part.hostPut_eq, Part.hostPut_eq, Part.hostPut_eq]
  rw [hm, spGet_putBytes, spGet_putBytes, spGet_putBytes]
  simp only [List.length_take, List.length_drop, hl, List.getD_eq_getElem?_getD, List.getElem?_take, List.getElem?_drop]
  by_cases h0 : a ≤ x ∧ x < a + 64
  · rw [if_pos (by omega), if_pos (by omega), if_pos (by omega)]
  · rw [if_neg (by omega)]
    by_cases h1 : a + 64 ≤ x ∧ x < a + 128
    · rw [if_pos (by omega), if_pos (by omega), if_pos (by omega)]
      congr 2
      omega
    · rw [if_neg (by omega)]
      by_cases h2 : a + 128 ≤ x ∧ x < a + 192
      · rw [if_pos (by omega), if_pos (by omega), show 128 + (x - (a + 128)) = x - a by omega]
      · rw [if_neg (by omega), if_neg (by omega)]

theorem length_flatMap_leBytes (f : Nat → Nat) (k n : Nat) : ((List.range n).flatMap fun i => leBytes k (f i)).length = n * k := by
  rw [List.length_flatMap]
  simp only [length_leBytes, List.map_const', List.sum_replicate, List.length_range, smul_eq_mul]

theorem Part.length_statusRecord : p.statusRecord.length = 192 := by
  have h8 : ((List.range 8).flatMap fun o => leBytes 4 (p.rd (HIF_OUT_IDX o))).length = 32 := length_flatMap_leBytes _ 4 8
  have h16 : ((List.range 16).flatMap fun c => leBytes 2 (p.heldBlocks c).length).length = 32 := length_flatMap_leBytes _ 2 16
  rw [Part.statusRecord]
  repeat rw [List.length_append]
  rw [h8, h16]
  repeat rw [length_leBytes]

end

/-- Settles O42: what a commit word, a delivery and the write of the status record do. -/
theorem inboxAndStatusRecord : Obligations.InboxAndStatusRecord := by
  intro s channel
  refine ⟨fun word f hl hf ho hz hs hi hlen hle hfree => ?_, fun word hl h => ?_, fun word hl => inCommit_unlinked s channel word hl,
    fun b hw ho hu hn => ?_, statusRecordWrite_none s, fun hd hb => ?_, fun hd hb => ?_⟩
  · have hbec := inCommit_becomes s channel word hl
    rw [s.p.commitWord_holds _ _ hf ho hz hs hi hlen hle hfree] at hbec
    refine ⟨_, hbec, rfl, by simp [Part.setBlocks, Part.heldBlocks], fun d hd => ?_⟩
    simp [Part.setBlocks, Part.heldBlocks, Ne.symm hd]
  · have hbec := inCommit_becomes s channel word hl
    rw [s.p.commitWord_refuses _ _ h] at hbec
    exact ⟨_, hbec, s.p.badCommit_counts⟩
  · obtain ⟨hcycle, hheld, hcount⟩ := s.p.deliver_keeps channel.toNat b channel.isLt
    refine ⟨_, blockDelivery_delivers s channel b hw ho hu hn, hheld, hcycle, by rw [Part.rd_bump_same, hcount], fun hal hh hr hcl hj x => ?_⟩
    exact (Part.byteAt_congr (by simp) x).trans (s.p.deliver_byteAt _ b channel.isLt hal hh hr hcl hj x)
  · exact ⟨_, statusRecordWrite_skips s hd hb, rfl, by rw [Part.rd_bump_same]; rfl⟩
  · have hput := Part.putRecord_eq (s.p.modHif fun h => { h with statusDue := false }) (s.p.getF HIF_STATUS_ADDR 8 56 * 256) s.p.statusRecord
    exact ⟨_, statusRecordWrite_writes s hd hb, hput, Part.putRecord_mem _ _ _ s.p.length_statusRecord⟩

end Sys2Proof.Machine
end

section
/-!
SUPPORT. Applying register writes keeps the command queues, the number of the tick and the number of the frame (R440, R441, R445).
-/
namespace Sys2Proof.Machine

/-- What the tick and barrier unit keeps of the frame in progress, and the pulses on TICK_OUT: no failure of a frame and no freeze writes
any of it. -/
def Part.beat (p : Part) : (Option Token × Option Nat × Option Nat) × (Nat × Nat × Nat) × (Bool × Bool) × Nat :=
  ((p.tick.token, p.tick.edge, p.tick.treeEdge), (p.tick.frameStart, p.tick.frameLen, p.tick.frameStretch),
    (p.tick.guardDone, p.tick.coresStarted), p.power.tickOut)

section
variable (p : Part)

@[simp] theorem Part.err_beat (e : ErrRec) : (p.err e).beat = p.beat := by simp [Part.beat]

@[simp] theorem Part.noteErr_beat (o i : Nat) (e : ErrRec) : (p.noteErr o i e).beat = p.beat := by simp [Part.beat]

@[simp] theorem Part.failCause_beat (c : Nat) : (p.failCause c).beat = p.beat := by
  unfold Part.failCause
  dsimp only
  repeat' split
  all_goals simp [Part.beat, Part.sendStatus]

@[simp] theorem Part.countCe_beat (k n : Nat) : (p.countCe k n).beat = p.beat := by
  unfold Part.countCe
  dsimp only
  repeat' split
  all_goals simp [Part.beat]

@[simp] theorem Part.putHbm_beat (a : Nat) (bs : List Byte) (t : Option Nat) : (p.putHbm a bs t).beat = p.beat := by simp [Part.beat, Part.putHbm]

@[simp] theorem Part.readLine_beat (k g q a : Nat) : (p.readLine k g q a).2.beat = p.beat := by
  have hc : ∀ (r : Part) i j, (r.countCe i j).beat = r.beat := fun r i j => r.countCe_beat i j
  unfold Part.readLine
  dsimp only
  repeat' split
  all_goals simp [Part.beat] at hc ⊢
  simp [hc]

@[simp] theorem Part.journalLine_beat (g q a : Nat) : (p.journalLine g q a).2.beat = p.beat := by
  have hf : ∀ (r : Part) c, (r.failCause c).beat = r.beat := fun r c => r.failCause_beat c
  have hr : ∀ (r : Part) k g q a, (r.readLine k g q a).2.beat = r.beat := fun r k g q a => r.readLine_beat k g q a
  have hp : ∀ (r : Part) a bs t, (r.putHbm a bs t).beat = r.beat := fun r a bs t => r.putHbm_beat a bs t
  unfold Part.journalLine
  dsimp only
  repeat' split
  all_goals simp [Part.beat, Part.putJournal] at hf hr hp ⊢
  all_goals simp [hf, hr, hp]

@[simp] theorem Part.rawLine_beat (a : Nat) (bs : List Byte) (t : Option Nat) : (p.rawLine a bs t).beat = p.beat := by simp [Part.beat]

@[simp] theorem Part.addPair_beat (k : Nat) (f : PairAcc → PairAcc) : (p.addPair k f).beat = p.beat := rfl

@[simp] theorem Part.writeLine_beat (g q a : Nat) (bs : List Byte) (t : Option Nat) : (p.writeLine g q a bs t).beat = p.beat := by
  unfold Part.writeLine
  dsimp only
  split <;> simp

@[simp] theorem Part.writePart_beat (g q a : Nat) (bs : List Byte) (t : Option Nat) : (p.writePart g q a bs t).beat = p.beat := by
  unfold Part.writePart
  dsimp only
  split <;> simp

@[simp] theorem Part.writeInLine_beat (g q a : Nat) (bs : List Byte) (t : Option Nat) : (p.writeInLine g q a bs t).beat = p.beat := by
  unfold Part.writeInLine
  split <;> simp

theorem Part.writeGran_beat (a : Nat) (bs : List Byte) (t : Option Nat) : (p.writeGran a bs t).beat = p.beat := by
  unfold Part.writeGran
  dsimp only
  split
  · rfl
  · split <;> rfl

@[simp] theorem Part.store_beat (g q a : Nat) (bs : List Byte) (t : Option Nat) : (p.store g q a bs t).beat = p.beat := by
  unfold Part.store
  rw [Part.storeLoop_get Part.beat (by simp) Part.writeGran_beat]

@[simp] theorem Part.load_beat (g q a n : Nat) : (p.load g q a n).2.beat = p.beat := by
  unfold Part.load
  exact Part.loadLoop_get Part.beat (by simp) _ p g q a n

end

/-- The host interface, the numbers of the tick and of the frame, the clock and the frame in progress are as before. -/
structure SameHost (p q : Part) : Prop where
  hif : q.hif = p.hif
  count : q.rd TIK_COUNT = p.rd TIK_COUNT
  frameNo : q.rd TIK_FRAME_NO = p.rd TIK_FRAME_NO
  cycle : q.cycle = p.cycle
  beat : q.beat = p.beat

theorem SameHost.cmds {p q : Part} (h : SameHost p q) : SameCmds p q := ⟨by rw [h.hif], h.count, h.frameNo⟩

theorem SameHost.trans {p q r : Part} (h : SameHost p q) (h' : SameHost q r) : SameHost p r :=
  ⟨h'.hif.trans h.hif, h'.count.trans h.count, h'.frameNo.trans h.frameNo, h'.cycle.trans h.cycle, h'.beat.trans h.beat⟩

theorem SameHost.refl (p : Part) : SameHost p p := ⟨rfl, rfl, rfl, rfl, rfl⟩

theorem SameHost.modTxn (p : Part) (f : Txn → Txn) : SameHost p (p.modTxn f) := ⟨rfl, rfl, rfl, rfl, rfl⟩

theorem SameHost.modTick (p : Part) (f : Tick → Tick) (h : (p.modTick f).beat = p.beat) : SameHost p (p.modTick f) := ⟨rfl, rfl, rfl, rfl, h⟩

theorem SameHost.ite (b : Prop) [Decidable b] {p q r : Part} (hq : SameHost p q) (hr : SameHost p r) : SameHost p (if b then q else r) := by
  split
  · exact hq
  · exact hr

theorem SameHost.each {α : Type} {f : Part → α → Part} (l : List α) (h : ∀ x ∈ l, ∀ p, SameHost p (f p x)) (p : Part) : SameHost p (p.each l f) := by
  induction l generalizing p with
  | nil => exact refl p
  | cons x l ih =>
    rw [Part.each_cons]
    exact (h x (by simp) p).trans (ih (fun y hy => h y (by simp [hy])) _)

section
variable (p : Part) {j : Nat} (h : j < 0x2000000) (hj : j ∉ recordRegs)
include h hj

theorem Part.loadLoop_sameAt (n g q a len : Nat) : (Part.loadLoop n p g q a len).2.SameAt p j := by
  refine Part.sameAt_of_rd ?_
  induction n generalizing p a len with
  | zero => rfl
  | succ n ih =>
    unfold Part.loadLoop Part.readPiece
    dsimp only
    split
    · rfl
    · rw [ih]
      split
      · rw [(Part.readLine_sameAt p h hj _ _ _ _).1]
      · rfl

@[simp] theorem Part.load_sameAt (g q a len : Nat) : (p.load g q a len).2.SameAt p j := by
  unfold Part.load
  exact p.loadLoop_sameAt h hj _ g q a len

end

section
variable (p : Part)

theorem SameHost.load (g q a len : Nat) : SameHost p (p.load g q a len).2 :=
  ⟨by simp, (Part.load_sameAt p (by decide) (by decide) _ _ _ _).1, (Part.load_sameAt p (by decide) (by decide) _ _ _ _).1, by simp, by simp⟩

theorem SameHost.store (g q a : Nat) (bs : List Byte) (t : Option Nat) : SameHost p (p.store g q a bs t) :=
  ⟨by simp, (Part.store_sameAt p (by decide) (by decide) (by decide) _ _ _ _ _).1, (Part.store_sameAt p (by decide) (by decide) (by decide) _ _ _ _ _).1,
    by simp, by simp⟩

theorem SameHost.wr {o : Nat} (v : Nat) (h : o ≠ TIK_COUNT) (h' : o ≠ TIK_FRAME_NO) : SameHost p (p.wr o v) :=
  ⟨rfl, Part.rd_wr_other _ _ h, Part.rd_wr_other _ _ h', rfl, rfl⟩

theorem SameHost.putF {o : Nat} (lo w v : Nat) (h : o ≠ TIK_COUNT) (h' : o ≠ TIK_FRAME_NO) : SameHost p (p.putF o lo w v) :=
  ⟨by simp, (Part.putF_off p o lo w v h).1, (Part.putF_off p o lo w v h').1, by simp, by simp [Part.beat]⟩

theorem SameHost.putB {o : Nat} (i : Nat) (v : Bool) (h : o ≠ TIK_COUNT) (h' : o ≠ TIK_FRAME_NO) : SameHost p (p.putB o i v) :=
  ⟨by simp, (Part.putB_off p o i v h).1, (Part.putB_off p o i v h').1, by simp, by simp [Part.beat]⟩

theorem SameHost.bump {o : Nat} (k : Nat) (h : o ≠ TIK_COUNT) (h' : o ≠ TIK_FRAME_NO) : SameHost p (p.bump o k) :=
  ⟨by simp, (Part.bump_off p o k h).1, (Part.bump_off p o k h').1, by simp, by simp [Part.beat]⟩

theorem SameHost.err (e : ErrRec) : SameHost p (p.err e) :=
  ⟨by simp, (Part.err_sameAt p (by decide) (by decide) e).1, (Part.err_sameAt p (by decide) (by decide) e).1, by simp, by simp⟩

theorem SameHost.putHbm (a : Nat) (bs : List Byte) (t : Option Nat) : SameHost p (p.putHbm a bs t) :=
  ⟨by simp [Part.putHbm], (Part.putHbm_off p a bs t (by decide)).1, (Part.putHbm_off p a bs t (by decide)).1,
    by simp [Part.putHbm], by simp⟩

/-- A register whose row takes no write at a tick keeps its value when a staged write names it (R440). -/
theorem Part.putRwt_fixed {j : Nat} {r : RegRow} (hr : regAt j = some r) (h0 : r.rwt = 0) (hj : j < FAB_RT 0 0) (off v : Nat) :
    (p.putRwt off v).rd j = p.rd j := by
  by_cases h : off = j
  · subst h
    have hm : p.rwtAt off r = 0 := by
      have hsmall : FAB_RT 0 0 < 0x2000000 := by decide
      unfold Part.rwtAt
      dsimp only
      rw [if_neg (by omega)]
      split
      · rfl
      · rw [if_neg (by omega), if_neg (by omega), h0]
    unfold Part.putRwt
    rw [hr]
    dsimp only
    rw [hm, Nat.and_zero, Nat.or_zero, Part.rd_wr_same, Nat.sub_zero, Nat.and_two_pow_sub_one_eq_mod, Nat.mod_mod, Nat.mod_eq_of_lt (p.rd_lt _)]
  · unfold Part.putRwt
    split
    · rfl
    · exact Part.rd_wr_other _ _ h

theorem regAt_numbers : ∃ r r', regAt TIK_COUNT = some r ∧ r.rwt = 0 ∧ regAt TIK_FRAME_NO = some r' ∧ r'.rwt = 0 :=
  ⟨_, _, rfl, rfl, rfl, rfl⟩

theorem SameHost.putRwt (off v : Nat) : SameHost p (p.putRwt off v) := by
  obtain ⟨r, r', hr, h0, hr', h0'⟩ := regAt_numbers
  refine ⟨?_, p.putRwt_fixed hr h0 (by decide) off v, p.putRwt_fixed hr' h0' (by decide) off v, ?_, ?_⟩
  all_goals
    unfold Part.putRwt
    split <;> simp [Part.beat]

theorem SameHost.putStaged (x : Staged) : SameHost p (p.putStaged x) := by
  cases x with
  | reg off width v => exact SameHost.putRwt p off v
  | image ss mask off bs => exact SameHost.refl p

theorem SameHost.dropRsv : SameHost p p.dropRsv :=
  SameHost.each _ (fun t _ q => SameHost.ite _ (SameHost.each _ (fun s _ r =>
    SameHost.putF r 53 11 0 (by unfold TBL_TMAP secBase TIK_COUNT; omega) (by unfold TBL_TMAP secBase TIK_FRAME_NO; omega)) q)
    (SameHost.refl q)) p

/-- The part that staged writes are put into: a full graft starts from the reset values (R439). -/
def Part.staging (p : Part) (full : Bool) : Part := if full then p.dropRwt else p

theorem SameHost.stagedRegs (full : Bool) (l : List Staged) : SameHost (p.staging full) (p.stagedRegs full l) := by
  unfold Part.stagedRegs
  dsimp only
  have h := (SameHost.each l (fun x _ q => SameHost.putStaged q x) (p.staging full)).trans (SameHost.dropRsv _)
  exact SameHost.ite _ (h.trans (SameHost.wr _ _ (by decide) (by decide))) h

theorem SameHost.readMap (m : Nat) : SameHost p (p.readMap m).2 := by
  unfold Part.readMap
  dsimp only
  exact SameHost.load p _ _ _ _

theorem SameHost.copyMaps (ts : List Nat) : SameHost p (p.copyMaps ts) := by
  unfold Part.copyMaps
  refine SameHost.each _ (fun t _ q => ?_) p
  dsimp only
  exact SameHost.ite _ ((SameHost.readMap q _).trans ⟨rfl, rfl, rfl, rfl, rfl⟩) ⟨rfl, rfl, rfl, rfl, rfl⟩

theorem SameHost.withStaged (full : Bool) (l : List Staged) : SameHost (p.staging full) (p.withStaged full l) :=
  (SameHost.stagedRegs p full l).trans (SameHost.copyMaps _ _)

theorem SameHost.putImage (x : Staged) : SameHost p (p.putImage x) := by
  cases x with
  | reg off width v => exact SameHost.refl p
  | image ss mask off bs => exact SameHost.each _ (fun c _ q => SameHost.store q _ _ _ _ _) p

theorem SameHost.rcDropTable (t : Nat) : SameHost p (p.rcDropTable t) := by
  unfold Part.rcDropTable
  refine SameHost.each _ (fun _ _ _ => ?_) p
  exact ⟨rfl, rfl, rfl, rfl, rfl⟩

theorem SameHost.zeroLines (a n : Nat) : SameHost p (p.zeroLines a n) := SameHost.each _ (fun _ _ q => SameHost.putHbm q _ _ _) p

theorem SameHost.tableChanged (full : Bool) (t : Nat) : SameHost p (p.tableChanged full t) := by
  have hp : SameHost p (if full then (p.rcDropTable t).each sectors fun q s => q.putF (TBL_TPEND s t) 63 1 0 else p.rcDropTable t) :=
    SameHost.ite _ ((SameHost.rcDropTable p t).trans (SameHost.each _ (fun s _ q => SameHost.putF q _ _ _
      (by unfold TBL_TPEND secBase TIK_COUNT; omega) (by unfold TBL_TPEND secBase TIK_FRAME_NO; omega)) _)) (SameHost.rcDropTable p t)
  unfold Part.tableChanged
  dsimp only
  refine SameHost.ite _ hp (SameHost.ite _ ?_ ?_)
  · exact (hp.trans (SameHost.zeroLines _ _ _)).trans (SameHost.zeroLines _ _ _)
  · exact hp.trans (SameHost.zeroLines _ _ _)

theorem SameHost.startPowers (s n : Nat) : SameHost p (p.startPowers s n) := by
  unfold Part.startPowers
  exact ((SameHost.wr _ _ (by unfold OPT_PPOW1 secBase TIK_COUNT; omega) (by unfold OPT_PPOW1 secBase TIK_FRAME_NO; omega)).trans
    (SameHost.wr _ _ (by unfold OPT_PPOW2 secBase TIK_COUNT; omega) (by unfold OPT_PPOW2 secBase TIK_FRAME_NO; omega))).trans
    (SameHost.wr _ _ (by unfold OPT_PSTEP secBase TIK_COUNT; omega) (by unfold OPT_PSTEP secBase TIK_FRAME_NO; omega))

/-- A value that a filter of the entries leaves in place. -/
theorem spGet_filter {α : Type} (d : α) (m : Sparse α) (k : Nat) (f : Nat × α → Bool) (h : ∀ e ∈ m, e.1 = k → f e = true) :
    spGet d (m.filter f) k = spGet d m k := by
  induction m with
  | nil => rfl
  | cons e m ih =>
    have hm := ih fun x hx => h x (List.mem_cons_of_mem e hx)
    by_cases he : e.1 = k
    · rw [List.filter_cons_of_pos (h e List.mem_cons_self he), spGet, spGet, if_pos he, if_pos he]
    · cases hf : f e with
      | true => rw [List.filter_cons_of_pos hf, spGet, spGet, if_neg he, if_neg he, hm]
      | false => rw [List.filter_cons_of_neg (by simp [hf]), hm, spGet, if_neg he]

theorem Part.rd_altClear {j : Nat} (h : j < FAB_ALT 0 ∨ FAB_ALT 1024 ≤ j) : p.altClear.rd j = p.rd j := by
  unfold Part.altClear Part.rd
  dsimp only
  rw [spGet_filter]
  intro e _ he
  rw [he]
  simp only [Bool.not_eq_true', Bool.and_eq_false_iff, decide_eq_false_iff_not]
  omega

theorem SameHost.altClear : SameHost p p.altClear := ⟨rfl, p.rd_altClear (.inl (by decide)), p.rd_altClear (.inl (by decide)), rfl, rfl⟩

theorem SameHost.readMembers : SameHost p p.readMembers.2 := by
  unfold Part.readMembers
  dsimp only
  exact SameHost.load p _ _ _ _

theorem SameHost.copyMembers : SameHost p p.copyMembers := by
  have h := SameHost.readMembers p
  unfold Part.copyMembers
  dsimp only
  refine SameHost.ite _ ?_ (SameHost.refl p)
  cases p.readMembers.1 with
  | none => exact h.trans ((SameHost.putB _ _ _ (by decide) (by decide)).trans (SameHost.err _ _))
  | some l => exact h.trans (SameHost.modTick _ _ rfl)

theorem SameHost.takeGrafts (full : Bool) (gs : List GraftId) (unsigned : Bool) : SameHost p (p.takeGrafts full gs unsigned) := by
  unfold Part.takeGrafts
  dsimp only
  refine SameHost.trans (SameHost.trans ?_ (SameHost.putB _ _ _ (by decide) (by decide))) (SameHost.putB _ _ _ (by decide) (by decide))
  refine SameHost.each gs (fun g _ q => ?_) p
  exact (((SameHost.wr q _ (by decide) (by decide)).trans (SameHost.wr _ _ (by decide) (by decide))).trans
    (SameHost.putF _ _ _ _ (by decide) (by decide))).trans ⟨rfl, rfl, rfl, rfl, rfl⟩

theorem Part.takeGrafts_id (full : Bool) (gs : List GraftId) (u : Bool) {g : GraftId} (hg : gs = [g]) :
    (p.takeGrafts full gs u).rd TIK_GRAFT_ID = g.id % 2 ^ 64 := by
  subst hg
  unfold Part.takeGrafts
  simp (disch := decide) [Part.rd_wr_same]

theorem traceHead_ne (b : Nat) : traceHead b ≠ TIK_COUNT ∧ traceHead b ≠ TIK_FRAME_NO := by
  unfold traceHead SOBS_TRACE_HEAD OBS_TRACE_HEAD secBase TIK_COUNT TIK_FRAME_NO
  split <;> omega

theorem SameHost.validReads (full : Bool) (l : List Staged) : SameHost p (p.validReads full l) := by
  have h := SameHost.each ((p.mapsCopied (p.stagedRegs full l) full).filter fun t =>
    ((p.stagedRegs full l).tbl t).valid && ((p.stagedRegs full l).tbl t).mode == 3)
    (fun t _ q => SameHost.readMap q ((p.stagedRegs full l).rd (TBL_TMAP 0 t))) p
  unfold Part.validReads
  exact SameHost.ite _ (h.trans (SameHost.load _ _ _ _ _)) h

/-- What applying staged writes leaves, and what it leads to: the numbers of the frame in progress go into TIK_TXN_APPLIED, a full graft
is the one that is applied, and a part that no longer takes ticks waits at zero (R440, R445). -/
theorem Part.applyStaged_applies (full : Bool) (l : List Staged) (gs : List GraftId) (u : Bool) : ∃ r, p.applyStaged full l gs u = r.holdAtZero ∧
    SameHost (p.staging full) r ∧ r.rd TIK_TXN_APPLIED = (p.staging full).rd TIK_FRAME_NO ∧ (full = true → r.txn.applied = true) ∧
    (∀ g, gs = [g] → r.rd TIK_GRAFT_ID = g.id % 2 ^ 64) := by
  unfold Part.applyStaged
  extract_lets old p1 changed p2 p3 p4 spans p5 p6 p7 p8 p9 p10
  have h1 : SameHost (p.staging full) p1 := (SameHost.withStaged p full l).trans (SameHost.each _ (fun x _ q => SameHost.putImage q x) _)
  have h2 : SameHost p1 p2 := SameHost.each _ (fun t _ q => SameHost.tableChanged q full t) _
  have h3 : SameHost p2 p3 := SameHost.each _ (fun s _ q => SameHost.each _ (fun n _ r => SameHost.startPowers r s n) q) _
  have h4 : SameHost p3 p4 := SameHost.ite _ (SameHost.altClear _) (SameHost.refl _)
  have h5 : SameHost p4 p5 := SameHost.ite _ (SameHost.wr _ _ (by decide) (by decide)) (SameHost.refl _)
  have h6 : SameHost p5 p6 := SameHost.ite _ (SameHost.putF _ _ _ _ (by decide) (by decide)) (SameHost.refl _)
  have h7 : SameHost p6 p7 := SameHost.ite _ (SameHost.copyMembers _) (SameHost.refl _)
  have h8 : SameHost p7 p8 := SameHost.each _ (fun b _ q =>
    SameHost.ite _ (SameHost.wr _ _ (traceHead_ne b).1 (traceHead_ne b).2) (SameHost.refl _)) _
  have h9 : SameHost p8 p9 := SameHost.ite _ (SameHost.putF _ _ _ _ (by decide) (by decide)) (SameHost.refl _)
  have h10 : SameHost p9 p10 := (SameHost.takeGrafts p9 full gs u).trans (SameHost.modTxn _ _)
  have hr : SameHost (p.staging full) ((p10.bump TIK_STAT_TXN 1).wr TIK_TXN_APPLIED (p10.rd TIK_FRAME_NO)) :=
    (((((((((h1.trans h2).trans h3).trans h4).trans h5).trans h6).trans h7).trans h8).trans h9).trans h10).trans
      ((SameHost.bump _ _ (by decide) (by decide)).trans (SameHost.wr _ _ (by decide) (by decide)))
  have hfr : p10.rd TIK_FRAME_NO = (p.staging full).rd TIK_FRAME_NO := by
    rw [← hr.frameNo, Part.rd_wr_other _ _ (by decide), Part.rd_bump_other _ _ (by decide)]
  refine ⟨_, rfl, hr, ?_, fun hf => ?_, fun g hg => ?_⟩
  · rw [Part.rd_wr_same, Nat.mod_eq_of_lt (p10.rd_lt _), hfr]
  · unfold p10
    simp [hf]
  · rw [Part.rd_wr_other _ _ (by decide), Part.rd_bump_other _ _ (by decide)]
    unfold p10
    rw [(Part.modTxn_sameAt _ _).1, p9.takeGrafts_id full gs u hg]

end

section
variable (p : Part)

/-- A part that takes ticks is left alone (R445). -/
theorem Part.holdAtZero_running (h : p.getB TIK_CTRL 0 = true) : p.holdAtZero = p := by rw [Part.holdAtZero, if_pos h]

/-- A part that takes no ticks waits at tick 0, in phase 4 (R445). -/
theorem Part.holdAtZero_waits (h : p.getB TIK_CTRL 0 = false) : p.holdAtZero.tickCount = 0 ∧ p.holdAtZero.phase = 4 := by
  have hrd : ({ p.wr TIK_COUNT 0 with cores := [] } : Part).rd TIK_COUNT = (p.wr TIK_COUNT 0).rd TIK_COUNT := rfl
  rw [Part.holdAtZero, h, if_neg Bool.false_ne_true]
  unfold Part.tickCount Part.phase
  constructor
  · rw [(Part.modTick_sameAt _ _).1, (Part.putB_off _ _ _ _ (by decide)).1, (Part.putF_off _ _ _ _ _ (by decide)).1, hrd, Part.rd_wr_same]
    rfl
  · rw [(Part.modTick_sameAt _ _).2.2, Part.getF_putB _ _ _ _ (by decide) (by decide), Part.getF_putF_same _ _ _ _ _ (by decide)]
    rfl

theorem Part.holdAtZero_keeps : p.holdAtZero.hif = p.hif ∧ p.holdAtZero.txn = p.txn ∧ p.holdAtZero.mem = p.mem := by
  unfold Part.holdAtZero
  split <;> simp

theorem Part.holdAtZero_off {j : Nat} (h : TIK_COUNT ≠ j) (h' : TIK_STATUS ≠ j) : p.holdAtZero.SameAt p j := by
  have hrd : ({ p.wr TIK_COUNT 0 with cores := [] } : Part).rd j = (p.wr TIK_COUNT 0).rd j := rfl
  refine Part.sameAt_of_rd ?_
  unfold Part.holdAtZero
  split
  · rfl
  · rw [(Part.modTick_sameAt _ _).1, (Part.putB_off _ _ _ _ h').1, (Part.putF_off _ _ _ _ _ h').1, hrd, Part.rd_wr_other _ _ h]

end

end Sys2Proof.Machine
end

section
/-!
PROOF. GRAFT_LOAD and its tick-path stage (R19, R351, R423, R424, R435, R436, R439 to R441, R449).
-/
namespace Sys2Proof.Machine

section
variable (p : Part)

theorem SameHost.stick {o : Nat} (i : Nat) (h : o ≠ TIK_COUNT ∧ o + 4 ≠ TIK_COUNT) (h' : o ≠ TIK_FRAME_NO ∧ o + 4 ≠ TIK_FRAME_NO) :
    SameHost p (p.stick o i) :=
  ⟨by simp, (Part.stick_off p o i h.1 h.2).1, (Part.stick_off p o i h'.1 h'.2).1, by simp, by simp [Part.beat]⟩

theorem SameHost.txnFail (e : TxnErr) : SameHost p (p.txnFail e) := by
  have h : SameHost p ((p.wr TIK_TXN_ERR e.word).bump TIK_STAT_TXNFAIL 1) :=
    (SameHost.wr _ _ (by decide) (by decide)).trans (SameHost.bump _ _ (by decide) (by decide))
  unfold Part.txnFail
  exact SameHost.ite _ (SameHost.wr _ _ (by decide) (by decide))
    (SameHost.ite _ ((h.trans (SameHost.putB _ _ _ (by decide) (by decide))).trans (SameHost.err _ _)) (h.trans (SameHost.err _ _)))

theorem Part.txnFail_txn (e : TxnErr) : (p.txnFail e).txn = p.txn := by
  unfold Part.txnFail
  dsimp only
  repeat' split
  all_goals simp

/-- A failed command shows its code (R449). -/
theorem Part.txnFail_shows (e : TxnErr) : (p.txnFail e).rd TIK_TXN_ERR = e.word % 2 ^ 64 := by
  unfold Part.txnFail
  dsimp only
  split
  · exact Part.rd_wr_same _ _ _
  · split
    · rw [(Part.err_sameAt _ (by decide) (by decide) _).1, (Part.putB_off _ _ _ _ (by decide)).1, (Part.bump_off _ _ _ (by decide)).1,
        Part.rd_wr_same]
    · rw [(Part.err_sameAt _ (by decide) (by decide) _).1, (Part.bump_off _ _ _ (by decide)).1, Part.rd_wr_same]

theorem Part.txnFail_off {j : Nat} (h : j < 0x2000000) (hj : j ∉ recordRegs) (h1 : TIK_TXN_ERR ≠ j) (h2 : TIK_STAT_TXNFAIL ≠ j)
    (h3 : TIK_STICKY ≠ j) (e : TxnErr) : (p.txnFail e).SameAt p j := by
  refine Part.sameAt_of_rd ?_
  unfold Part.txnFail
  dsimp only
  repeat' split
  all_goals simp [h, hj, h1, h2, h3]

end

/-- A transaction command, or a load of a graft, that fails with a code: it ends with its status and the code, which TIK_TXN_ERR shows, and
the transaction and the cores are as before (R449). -/
def TxnFails (p q : Part) (n : Nat) (c : HostCmd) (m : Mem) (e : TxnErr) : Prop :=
  EndsCmd p q n c e.status e.word ∧ q.rd TIK_TXN_ERR = e.word % 2 ^ 64 ∧ q.txn = p.txn ∧ q.mem = m ∧ q.cores = p.cores

theorem QueueWork.txn {p q : Part} (h : QueueWork p q) : q.txn = p.txn := by rw [h.1]

theorem QueueWork.fab {p q : Part} (h : QueueWork p q) : q.fab = p.fab := by rw [h.1]

theorem Part.txnRefuse_fails {p r : Part} (h : SameCmds p r) (ht : r.txn = p.txn) (hc : r.cores = p.cores) {n : Nat} {c : HostCmd}
    (hin : c ∈ (p.cq n).cmds) (e : TxnErr) : TxnFails p (r.txnRefuse n c e) n c r.mem e := by
  have hq := QueueWork.endCmd (r.txnFail e) n c e.status e.word
  refine ⟨(h.trans (SameHost.txnFail r e).cmds).ends hin _ _, ?_, ?_, ?_, ?_⟩
  · exact (hq.2 _ (by unfold offQueues; decide)).trans (r.txnFail_shows e)
  · exact hq.txn.trans ((r.txnFail_txn e).trans ht)
  · exact hq.mem.trans (r.txnFail_frame e).1
  · exact hq.cores.trans ((r.txnFail_frame e).2.trans hc)

section
variable (p : Part) (n : Nat) (c : HostCmd) (bs : List Byte)

theorem Part.loadContainer_unreadable {e : TxnErr} (h : readContainer bs = .error e) : p.loadContainer n c bs = p.txnRefuse n c e := by
  rw [Part.loadContainer, h]

section
variable {x : Container} (h : readContainer bs = .ok x)
include h

theorem Part.loadContainer_type (ht : x.ty ≠ 1) : p.loadContainer n c bs = p.txnRefuse n c (.of 1) := by
  rw [Part.loadContainer, h]
  dsimp only
  rw [if_pos ht]

variable (ht : x.ty = 1)
include ht

theorem Part.loadContainer_busy (hf : x.full = true) (hs : p.txnState ≠ 0) : p.loadContainer n c bs = p.txnRefuse n c (.of 7) := by
  rw [Part.loadContainer, h]
  dsimp only
  rw [if_neg (not_not.2 ht), if_pos ⟨hf, hs⟩]

theorem Part.loadContainer_closed (hf : x.full = false) (hs : p.txnState ≠ 1) : p.loadContainer n c bs = p.txnRefuse n c (.of 12) := by
  rw [Part.loadContainer, h]
  dsimp only
  rw [if_neg (not_not.2 ht), if_neg (by simp [hf]), if_neg (by simp [hf]), if_pos (by simp [hf, hs])]

variable (hfull : x.full = true → p.txnState = 0 ∧ p.running = false) (hpart : x.full = false → p.txnState = 1)
include hfull hpart

theorem Part.loadContainer_goesOn : ¬x.ty ≠ 1 ∧ ¬(x.full = true ∧ p.txnState ≠ 0) ∧ ¬(x.full = true ∧ p.running = true) ∧
    ¬((!x.full) = true ∧ p.txnState ≠ 1) :=
  ⟨not_not.2 ht, fun hc => hc.2 (hfull hc.1).1, fun hc => Bool.false_ne_true ((hfull hc.1).2.symm.trans hc.2),
    fun hc => hc.2 (hpart (by simpa using hc.1))⟩

theorem Part.loadContainer_unfit {e : TxnErr} (hc : p.checkContainer x = .error e) : p.loadContainer n c bs = p.txnRefuse n c e := by
  obtain ⟨h1, h2, h3, h4⟩ := p.loadContainer_goesOn bs h ht hfull hpart
  rw [Part.loadContainer, h]
  dsimp only
  rw [if_neg h1, if_neg h2, if_neg h3, if_neg h4, hc]

theorem Part.loadContainer_fits {slot : Nat} (hc : p.checkContainer x = .ok slot) : p.loadContainer n c bs =
    if x.full then p.loadFull n c x slot (sha256 bs) else p.loadPartial n c x slot (sha256 bs) := by
  obtain ⟨h1, h2, h3, h4⟩ := p.loadContainer_goesOn bs h ht hfull hpart
  rw [Part.loadContainer, h]
  dsimp only
  rw [if_neg h1, if_neg h2, if_neg h3, if_neg h4, hc]

end

section
variable (x : Container) (slot : Nat) (digest : List Byte) {l : List Staged} (hl : containerWrites x = .ok l)
include hl

theorem Part.loadFull_invalid {e : TxnErr} (hv : (p.validReads true l).validate true l = some e) :
    p.loadFull n c x slot digest = (p.validReads true l).txnRefuse n c e := by
  rw [Part.loadFull, hl]
  dsimp only
  rw [hv]

/-- The part once a full graft has replaced the one it had (R439). -/
def Part.replaced (p : Part) (x : Container) (slot : Nat) (digest : List Byte) (l : List Staged) : Part :=
  (p.applyStaged true l [⟨x.graftId, x.version, slot, digest⟩] false).putB TIK_GRAFT_STATUS 1 false

theorem Part.loadFull_replaces (hv : (p.validReads true l).validate true l = none) : ∃ r, p.loadFull n c x slot digest =
    (r.startProbes.startCmd n c).modTxn (fun t => { t with loadPending := some n }) ∧
    (r = (p.validReads true l).replaced x slot digest l ∨
      r = ((p.validReads true l).replaced x slot digest l).sendPairing ((p.validReads true l).replaced x slot digest l) 0) := by
  rw [Part.loadFull, hl]
  dsimp only
  rw [hv]
  dsimp only
  by_cases h : ((p.validReads true l).replaced x slot digest l).getB TWN_CTRL 0 = true
  · refine ⟨_, ?_, .inr rfl⟩
    rw [Part.replaced] at h
    rw [if_pos h]
    rfl
  · refine ⟨_, ?_, .inl rfl⟩
    rw [Part.replaced] at h
    rw [if_neg h]
    rfl

theorem Part.loadPartial_stages (hg : p.gradeFault l = none) (hu : p.txn.used + x.staging ≤ stagingBytes) : p.loadPartial n c x slot digest =
    ((p.stage l x.staging).modTxn fun t => { t with grafts := t.grafts ++ [⟨x.graftId, x.version, slot, digest⟩] }).endCmd n c 0
      (p.txn.used + x.staging) := by
  rw [Part.loadPartial, hl]
  dsimp only
  rw [hg]
  dsimp only
  rw [if_neg (Nat.not_lt.2 hu)]
  rfl

end

end

section
variable (p : Part) (x : Container) (slot : Nat) (digest : List Byte) (l : List Staged)

theorem SameHost.replaced_hif : (p.replaced x slot digest l).hif = p.hif := by
  obtain ⟨r, he, hs, -⟩ := p.applyStaged_applies true l [⟨x.graftId, x.version, slot, digest⟩] false
  have hr : r.hif = p.hif := hs.1
  unfold Part.replaced
  rw [he]
  simp [r.holdAtZero_keeps.1, hr]

/-- A full graft is applied, is the one that TIK_GRAFT_ID names, and is not complete yet (R439). -/
theorem Part.replaced_shows : (p.replaced x slot digest l).txn.applied = true ∧ (p.replaced x slot digest l).rd TIK_GRAFT_ID = x.graftId % 2 ^ 64 ∧
    (p.replaced x slot digest l).getB TIK_GRAFT_STATUS 1 = false := by
  obtain ⟨r, he, -, -, happ, hid⟩ := p.applyStaged_applies true l [⟨x.graftId, x.version, slot, digest⟩] false
  unfold Part.replaced
  rw [he]
  refine ⟨?_, ?_, Part.getB_putB_same _ _ _ _ (by decide)⟩
  · simp [r.holdAtZero_keeps.2.1, happ rfl]
  · rw [(Part.putB_off _ _ _ _ (by decide)).1, (r.holdAtZero_off (by decide) (by decide)).1, hid _ rfl]

theorem Part.startProbes_keeps : p.startProbes.hif = p.hif ∧ p.startProbes.txn = p.txn := by
  unfold Part.startProbes
  dsimp only
  repeat' split
  all_goals simp [Part.flood]

theorem Part.startProbes_off {j : Nat} (h : FAB_STATUS ≠ j) : p.startProbes.SameAt p j := by
  refine Part.sameAt_of_rd ?_
  unfold Part.startProbes
  dsimp only
  repeat' split
  all_goals simp [Part.flood, h]

/-- The load goes on to its stage: the probes start, and the command runs on (R351). -/
theorem Part.stageStarts {r : Part} {n : Nat} {c : HostCmd} (hc : c ∈ (r.cq n).cmds) :
    let q := (r.startProbes.startCmd n c).modTxn fun t => { t with loadPending := some n }
    q.txn.loadPending = some n ∧ { c with running := true } ∈ (q.cq n).cmds ∧ q.txn.applied = r.txn.applied ∧
      q.getB TIK_GRAFT_STATUS 1 = r.getB TIK_GRAFT_STATUS 1 ∧ q.rd TIK_GRAFT_ID = r.rd TIK_GRAFT_ID := by
  have hcq : (r.startProbes.cq n).cmds = (r.cq n).cmds := by rw [Part.cq, r.startProbes_keeps.1, Part.cq]
  have hs : ∀ j, (r.startProbes.startCmd n c).SameAt r.startProbes j := fun j => Part.setCq_sameAt _ _ _
  refine ⟨rfl, Part.startCmd_in (p := r.startProbes) (by rw [hcq]; exact hc), ?_, ?_, ?_⟩
  · have h := r.startProbes_keeps.2
    change r.startProbes.txn.applied = _
    rw [h]
  · rw [(Part.modTxn_sameAt _ _).2.1, (hs _).2.1, (r.startProbes_off (by decide)).2.1]
  · rw [(Part.modTxn_sameAt _ _).1, (hs _).1, (r.startProbes_off (by decide)).1]

theorem Part.sendPairing_keeps (q : Part) (t : Nat) : (p.sendPairing q t).hif = p.hif ∧ (p.sendPairing q t).txn = p.txn ∧
    ∀ j, (p.sendPairing q t).SameAt p j := ⟨rfl, rfl, fun _ => Part.sameAt_of_rd rfl⟩

theorem Part.validReads_keeps (full : Bool) : (p.validReads full l).txn = p.txn ∧ (p.validReads full l).cores = p.cores := by
  unfold Part.validReads
  extract_lets q maps p1 role
  have hp : p1.txn = p.txn ∧ p1.cores = p.cores :=
    ⟨Part.each_get (fun r => r.txn) _ _ _ fun r t => by simp [Part.readMap], Part.each_get (fun r => r.cores) _ _ _ fun r t => by simp [Part.readMap]⟩
  split
  · exact ⟨by simp [hp.1], by simp [hp.2]⟩
  · exact hp

end

section
variable {s : State} {queue : BitVec 3} {host : List HostLine} {c : HostCmd} (hn : (s.p.hostStores host).nextCmd queue.toNat 0x10 = some c)
  (hb : c.bad = false) (hck : (s.p.hostStores host).clocked = true)
include hn hb hck

theorem graftLoad_unaligned (ha : c.arg 0 % 64 ≠ 0 ∨ c.arg 1 % 64 ≠ 0) :
    Becomes (.graftLoad queue host) s ((s.p.hostStores host).endCmd queue.toNat c 1 0) := by
  change execGraftLoad queue host s = _
  unfold execGraftLoad State.run
  dsimp only
  rw [Part.runCmd_runs _ hn hb, hck, if_neg (by decide), if_pos ha]

variable (ha : ¬(c.arg 0 % 64 ≠ 0 ∨ c.arg 1 % 64 ≠ 0))
include ha

theorem graftLoad_running (ht : (s.p.hostStores host).txnState = 0) (hr : (s.p.hostStores host).running = true) :
    Becomes (.graftLoad queue host) s ((s.p.hostStores host).txnRefuse queue.toNat c (.of 12)) := by
  change execGraftLoad queue host s = _
  unfold execGraftLoad State.run
  dsimp only
  rw [Part.runCmd_runs _ hn hb, hck, if_neg (by decide), if_neg ha, if_pos ⟨ht, hr⟩]

variable (hs : ¬((s.p.hostStores host).txnState = 0 ∧ (s.p.hostStores host).running = true))
include hs

theorem graftLoad_size (hl : c.arg 1 < 320 ∨ c.arg 1 > 20 * 2 ^ 20) :
    Becomes (.graftLoad queue host) s ((s.p.hostStores host).txnRefuse queue.toNat c (.of 1)) := by
  change execGraftLoad queue host s = _
  unfold execGraftLoad State.run
  dsimp only
  rw [Part.runCmd_runs _ hn hb, hck, if_neg (by decide), if_neg ha, if_neg hs, if_pos hl]

variable (hl : ¬(c.arg 1 < 320 ∨ c.arg 1 > 20 * 2 ^ 20))
include hl

theorem graftLoad_poisoned (hr : ((s.p.hostStores host).hostRead (c.arg 0) (c.arg 1)).2 = true) :
    Becomes (.graftLoad queue host) s ((s.p.hostStores host).endCmd queue.toNat c 3 0) := by
  change execGraftLoad queue host s = _
  unfold execGraftLoad State.run
  dsimp only
  rw [Part.runCmd_runs _ hn hb, hck, if_neg (by decide), if_neg ha, if_neg hs, if_neg hl, hr, if_pos rfl]

theorem graftLoad_reads (hr : ((s.p.hostStores host).hostRead (c.arg 0) (c.arg 1)).2 = false) :
    Becomes (.graftLoad queue host) s ((s.p.hostStores host).loadContainer queue.toNat c ((s.p.hostStores host).hostRead (c.arg 0) (c.arg 1)).1) := by
  change execGraftLoad queue host s = _
  unfold execGraftLoad State.run
  dsimp only
  rw [Part.runCmd_runs _ hn hb, hck, if_neg (by decide), if_neg ha, if_neg hs, if_neg hl, hr, if_neg Bool.false_ne_true]

end

/-- Writes are staged and their command ends: with the bytes in use, which TIK_TXN_USED shows (R441). -/
theorem Part.stage_ends (p : Part) (l : List Staged) (k : Nat) (f : Txn → Txn) {n : Nat} {c : HostCmd} (hc : c ∈ (p.cq n).cmds) :
    let q := ((p.stage l k).modTxn f).endCmd n c 0 (p.txn.used + k)
    EndsCmd p q n c 0 (p.txn.used + k) ∧ q.txn = f { p.txn with staged := p.txn.staged ++ l, used := p.txn.used + k } ∧
      q.rd TIK_TXN_USED = (p.txn.used + k) % 2 ^ 64 ∧ q.mem = p.mem ∧ q.cores = p.cores ∧ q.txnState = p.txnState := by
  obtain ⟨r, hr⟩ : ∃ r, r = (p.stage l k).modTxn f := ⟨_, rfl⟩
  have hs : SameCmds p r := by
    rw [hr]
    exact (SameHost.trans (SameHost.wr p _ (by decide) (by decide)) ⟨rfl, rfl, rfl, rfl, rfl⟩).cmds
  have hq := QueueWork.endCmd r n c 0 (p.txn.used + k)
  dsimp only
  rw [← hr]
  refine ⟨hs.ends hc _ _, hq.txn.trans (by rw [hr]; rfl), ?_, hq.mem.trans (by rw [hr]; rfl), hq.cores.trans (by rw [hr]; rfl), ?_⟩
  · rw [hq.2 _ (by unfold offQueues; decide), hr, (Part.modTxn_sameAt _ _).1, Part.stage, (Part.modTxn_sameAt _ _).1, Part.rd_wr_same]
  · rw [Part.txnState, Part.getF_congr 0 2 (hq.2 _ (by unfold offQueues; decide)), hr, (Part.modTxn_sameAt _ _).2.2, Part.stage,
      (Part.modTxn_sameAt _ _).2.2, (Part.wr_off _ _ _ (by decide)).2.2]
    rfl

section
variable {s : State} {queue : BitVec 3} {host : List HostLine} {c : HostCmd} (hn : (s.p.hostStores host).nextCmd queue.toNat 0x10 = some c)
include hn

/-- What a load fails with, of the part with what the host stored. -/
theorem graftLoad_fails {r : Part} {e : TxnErr} (hbec : Becomes (.graftLoad queue host) s (r.txnRefuse queue.toNat c e))
    (h : SameCmds (s.p.hostStores host) r) (ht : r.txn = (s.p.hostStores host).txn) (hc : r.cores = (s.p.hostStores host).cores) :
    ∃ q, Becomes (.graftLoad queue host) s q ∧ TxnFails (s.p.hostStores host) q queue.toNat c r.mem e :=
  ⟨_, hbec, Part.txnRefuse_fails h ht hc (Part.nextCmd_mem hn) e⟩

section
variable {x : Container} {slot : Nat} {l : List Staged} (hw : containerWrites x = .ok l) {bs : List Byte}
include hw

theorem fullLoad_fails {e : TxnErr} (hbec : Becomes (.graftLoad queue host) s ((s.p.hostStores host).loadFull queue.toNat c x slot (sha256 bs)))
    (hv : ((s.p.hostStores host).validReads true l).validate true l = some e) :
    ∃ q, Becomes (.graftLoad queue host) s q ∧
      TxnFails (s.p.hostStores host) q queue.toNat c ((s.p.hostStores host).validReads true l).mem e := by
  rw [Part.loadFull_invalid _ _ _ x slot _ hw hv] at hbec
  obtain ⟨ht, hc⟩ := (s.p.hostStores host).validReads_keeps l true
  exact graftLoad_fails hn hbec (SameHost.validReads _ true l).cmds ht hc

/-- A full graft that passes replaces the graft, and its load goes on to the stage (R439). -/
theorem fullLoad_goesOn (hbec : Becomes (.graftLoad queue host) s ((s.p.hostStores host).loadFull queue.toNat c x slot (sha256 bs)))
    (hv : ((s.p.hostStores host).validReads true l).validate true l = none) :
    ∃ q, Becomes (.graftLoad queue host) s q ∧ q.txn.loadPending = some queue.toNat ∧ { c with running := true } ∈ (q.cq queue.toNat).cmds ∧
      q.getB TIK_GRAFT_STATUS 1 = false ∧ q.rd TIK_GRAFT_ID = x.graftId % 2 ^ 64 ∧ q.txn.applied = true := by
  have hc := Part.nextCmd_mem hn
  obtain ⟨r, he, hr⟩ := Part.loadFull_replaces (s.p.hostStores host) queue.toNat c x slot (sha256 bs) hw hv
  have hhif := SameHost.replaced_hif ((s.p.hostStores host).validReads true l) x slot (sha256 bs) l
  obtain ⟨happ, hid, hst⟩ := ((s.p.hostStores host).validReads true l).replaced_shows x slot (sha256 bs) l
  have hcq := (SameHost.validReads (s.p.hostStores host) true l).1
  generalize ((s.p.hostStores host).validReads true l).replaced x slot (sha256 bs) l = u at hr hhif happ hid hst
  have hu : r.hif = u.hif ∧ r.txn = u.txn ∧ r.SameAt u TIK_GRAFT_STATUS ∧ r.SameAt u TIK_GRAFT_ID := by
    rcases hr with rfl | rfl
    · exact ⟨rfl, rfl, Part.sameAt_of_rd rfl, Part.sameAt_of_rd rfl⟩
    · obtain ⟨h1, h2, h3⟩ := u.sendPairing_keeps u 0
      exact ⟨h1, h2, h3 _, h3 _⟩
  obtain ⟨h1, h2, h3, h4⟩ := hu
  obtain ⟨k1, k2, k3, k4, k5⟩ := Part.stageStarts (r := r) (n := queue.toNat) (c := c) (by rw [Part.cq, h1, hhif, hcq]; exact hc)
  rw [he] at hbec
  exact ⟨_, hbec, k1, k2, k4.trans ((h3.2.1 1).trans hst), k5.trans (h4.1.trans hid), k3.trans (by rw [h2, happ])⟩

/-- A partial graft is staged, and its load ends with the bytes in use (R441). -/
theorem partialLoad_stages (hbec : Becomes (.graftLoad queue host) s ((s.p.hostStores host).loadPartial queue.toNat c x slot (sha256 bs)))
    (hg : (s.p.hostStores host).gradeFault l = none) (hu : (s.p.hostStores host).txn.used + x.staging ≤ stagingBytes) :
    let p := s.p.hostStores host
    ∃ q, Becomes (.graftLoad queue host) s q ∧ EndsCmd p q queue.toNat c 0 (p.txn.used + x.staging) ∧ q.txn.staged = p.txn.staged ++ l ∧
      q.rd TIK_TXN_USED = (p.txn.used + x.staging) % 2 ^ 64 ∧ q.mem = p.mem ∧ q.cores = p.cores := by
  intro p
  rw [Part.loadPartial_stages _ _ _ x slot _ hw hg hu] at hbec
  obtain ⟨h1, h2, h3, h4, h5, -⟩ := p.stage_ends l x.staging
    (fun t => { t with grafts := t.grafts ++ [⟨x.graftId, x.version, slot, sha256 bs⟩] }) (Part.nextCmd_mem hn)
  exact ⟨_, hbec, h1, by rw [h2], h3, h4, h5⟩

end

end

section
variable (p : Part)

theorem Part.pickParents_eq : p.pickParents = { p with regs := p.pickParents.regs } := by
  unfold Part.pickParents
  split
  · rfl
  · split <;> rfl

theorem Part.pickParents_off {j : Nat} (h : FAB_TREE ≠ j) (h' : TIK_TOKEN_LAT ≠ j) : p.pickParents.SameAt p j := by
  refine Part.sameAt_of_rd ?_
  unfold Part.pickParents
  split
  · simp [h, h']
  · split <;> simp [h, h']

theorem Part.pickParents_modTxn (f : Txn → Txn) : (p.modTxn f).pickParents = p.pickParents.modTxn f := by
  unfold Part.pickParents
  rw [show (p.modTxn f).role = p.role from rfl, show (p.modTxn f).fab = p.fab from rfl]
  split
  · rfl
  · split <;> rfl

theorem Part.setDelayComp_keeps : p.setDelayComp = { p with regs := p.setDelayComp.regs } ∧
    ∀ j, TIK_DELAY_COMP ≠ j → p.setDelayComp.SameAt p j := by
  unfold Part.setDelayComp
  split
  · exact ⟨rfl, fun j h => Part.wr_off _ _ _ h⟩
  · exact ⟨rfl, fun _ _ => Part.sameAt_of_rd rfl⟩

/-- A record that is informative freezes nothing. -/
theorem Part.err_informs (e : ErrRec) (h : e.severity = 0) : (p.err e).fab = p.fab := by
  unfold Part.err
  dsimp only
  split
  · rfl
  · split
    · simp
    · rw [if_neg (by rw [h]; omega)]
      simp

theorem Part.runningOp_mem {op n : Nat} {c : HostCmd} (h : p.runningOp op = some (n, c)) : c ∈ (p.cq n).cmds := by
  obtain ⟨m, -, hm⟩ := List.exists_of_findSome?_eq_some h
  obtain ⟨d, hd, he⟩ := Option.map_eq_some_iff.1 hm
  cases he
  exact List.mem_of_find?_eq_some hd

/-- The part once the parents are chosen: the probes are over (R351). -/
def Part.stageDone (p : Part) : Part := p.pickParents.modFab fun f => { f with probing := false }

theorem Part.endStage_slow (n : Nat) (c : HostCmd) (h : p.stageDone.rd TIK_LEAD < p.stageDone.rd TIK_TOKEN_LAT) :
    p.endStage n c = p.stageDone.txnRefuse n c (.of 10) := by
  unfold Part.endStage
  exact if_pos h

theorem Part.endStage_ready (n : Nat) (c : HostCmd) (h : p.stageDone.rd TIK_TOKEN_LAT ≤ p.stageDone.rd TIK_LEAD) :
    p.endStage n c = ((p.stageDone.setDelayComp.putB FAB_STATUS 2 true).putB TIK_GRAFT_STATUS 1 true).endCmd n c 0 0 := by
  unfold Part.endStage
  exact if_neg (Nat.not_lt.2 h)

theorem SameHost.stageDone : SameHost p p.stageDone := by
  refine SameHost.trans (q := p.pickParents) ⟨?_, (p.pickParents_off (by decide) (by decide)).1, (p.pickParents_off (by decide) (by decide)).1, ?_, ?_⟩
    ⟨rfl, rfl, rfl, rfl, rfl⟩
  all_goals rw [p.pickParents_eq]
  rfl

theorem Part.stageDone_keeps : p.stageDone.txn = p.txn ∧ p.stageDone.fab = { p.fab with probing := false } ∧ p.stageDone.mem = p.mem ∧
    p.stageDone.cores = p.cores := by
  unfold Part.stageDone
  rw [p.pickParents_eq]
  exact ⟨rfl, rfl, rfl, rfl⟩

theorem Part.stageDone_off {j : Nat} (h : FAB_TREE ≠ j) (h' : TIK_TOKEN_LAT ≠ j) : p.stageDone.SameAt p j :=
  Part.sameAt_of_rd ((Part.modFab_sameAt _ _).1.trans (p.pickParents_off h h').1)

/-- The latency is longer than the lead: the load fails with code 10 (R351). -/
theorem Part.endStage_fails {n : Nat} {c : HostCmd} (hc : c ∈ (p.cq n).cmds) (h : p.stageDone.rd TIK_LEAD < p.stageDone.rd TIK_TOKEN_LAT) :
    TxnFails p (p.endStage n c) n c p.mem (.of 10) ∧ (p.endStage n c).fab = { p.fab with probing := false } ∧
      (p.endStage n c).rd TIK_TOKEN_LAT = p.stageDone.rd TIK_TOKEN_LAT ∧ (p.endStage n c).getB TIK_STICKY 4 = true ∧
      (p.endStage n c).getB TIK_GRAFT_STATUS 1 = p.getB TIK_GRAFT_STATUS 1 := by
  obtain ⟨ht, hfab, hm, hcor⟩ := p.stageDone_keeps
  have hf := Part.txnRefuse_fails (SameHost.stageDone p).cmds ht hcor hc (.of 10)
  have hq := QueueWork.endCmd (p.stageDone.txnFail (.of 10)) n c (TxnErr.of 10).status (TxnErr.of 10).word
  have hoff := p.stageDone_off (j := TIK_GRAFT_STATUS) (by decide) (by decide)
  rw [p.endStage_slow n c h]
  rw [hm] at hf
  generalize p.stageDone = d at hf hq hfab hoff
  have hfail : d.txnFail (.of 10) = (((d.wr TIK_TXN_ERR (TxnErr.of 10).word).bump TIK_STAT_TXNFAIL 1).putB TIK_STICKY 4 true).err (mkErr 13 4 0) := rfl
  refine ⟨hf, ?_, ?_, ?_, ?_⟩
  · rw [Part.txnRefuse, hq.fab, hfail, Part.err_informs _ _ rfl, ← hfab]
    simp
  · rw [Part.txnRefuse, hq.2 _ (by unfold offQueues; decide),
      (Part.txnFail_off _ (by decide) (by decide) (by decide) (by decide) (by decide) _).1]
  · rw [Part.txnRefuse, Part.getB_congr 4 (hq.2 _ (by unfold offQueues; decide)), hfail, (Part.err_sameAt _ (by decide) (by decide) _).2.1,
      Part.getB_putB_same _ _ _ _ (by decide)]
  · rw [Part.txnRefuse, Part.getB_congr 1 (hq.2 _ (by unfold offQueues; decide)),
      (Part.txnFail_off _ (by decide) (by decide) (by decide) (by decide) (by decide) _).2.1, hoff.2.1]

/-- The latency is within the lead: the load ends and the graft is complete (R351). -/
theorem Part.endStage_completes {n : Nat} {c : HostCmd} (hc : c ∈ (p.cq n).cmds)
    (h : p.stageDone.rd TIK_TOKEN_LAT ≤ p.stageDone.rd TIK_LEAD) : let q := p.endStage n c
    EndsCmd p q n c 0 0 ∧ q.txn = p.txn ∧ q.fab = { p.fab with probing := false } ∧ q.rd TIK_TOKEN_LAT = p.stageDone.rd TIK_TOKEN_LAT ∧
      q.mem = p.mem ∧ q.cores = p.cores ∧ q.getB FAB_STATUS 2 = true ∧ q.getB TIK_GRAFT_STATUS 1 = true := by
  obtain ⟨ht, hfab, hm, hcor⟩ := p.stageDone_keeps
  have hsd := SameHost.stageDone p
  dsimp only
  rw [p.endStage_ready n c h]
  generalize p.stageDone = d at ht hfab hm hcor hsd
  obtain ⟨he, hoff⟩ := d.setDelayComp_keeps
  obtain ⟨r, hr⟩ : ∃ r, r = (d.setDelayComp.putB FAB_STATUS 2 true).putB TIK_GRAFT_STATUS 1 true := ⟨_, rfl⟩
  have hcmds : SameHost p r := by
    rw [hr]
    refine ((hsd.trans ⟨?_, (hoff _ (by decide)).1, (hoff _ (by decide)).1, ?_, ?_⟩).trans (SameHost.putB _ _ _ (by decide) (by decide))).trans
      (SameHost.putB _ _ _ (by decide) (by decide))
    all_goals rw [he]
    rfl
  have hq := QueueWork.endCmd r n c 0 0
  rw [← hr]
  refine ⟨hcmds.cmds.ends hc 0 0, ?_, ?_, ?_, ?_, ?_, ?_, ?_⟩
  · rw [hq.txn, hr, ← ht, he]
    rfl
  · rw [hq.fab, hr, ← hfab, he]
    rfl
  · rw [hq.2 _ (by unfold offQueues; decide), hr, (Part.putB_off _ _ _ _ (by decide)).1, (Part.putB_off _ _ _ _ (by decide)).1, (hoff _ (by decide)).1]
  · rw [hq.mem, hr, ← hm, he]
    rfl
  · rw [hq.cores, hr, ← hcor, he]
    rfl
  · rw [Part.getB_congr 2 (hq.2 _ (by unfold offQueues; decide)), hr, (Part.putB_off _ _ _ _ (by decide)).2.1, Part.getB_putB_same _ _ _ _ (by decide)]
  · rw [Part.getB_congr 1 (hq.2 _ (by unfold offQueues; decide)), hr, Part.getB_putB_same _ _ _ _ (by decide)]

end

theorem tickPathStageEnd_becomes (s : State) {m n : Nat} {c : HostCmd} (hp : s.p.txn.loadPending = some m)
    (hr : s.p.runningOp 0x10 = some (n, c)) (ht : s.p.getB TWN_CTRL 0 = false) :
    Becomes .tickPathStageEnd s ((s.p.modTxn fun t => { t with loadPending := none }).endStage n c) := by
  change execTickPathStageEnd s = _
  unfold execTickPathStageEnd State.run
  dsimp only
  rw [hp, hr, ht]
  rfl

/-- What the end of the tick-path stage makes of a load, where no twin is configured (R351). -/
theorem tickPathStageEnd_ends (s : State) (m n : Nat) (c : HostCmd) : let p := s.p
    let lat := p.pickParents.rd TIK_TOKEN_LAT
    p.txn.loadPending = some m → p.runningOp 0x10 = some (n, c) → p.getB TWN_CTRL 0 = false →
    ∃ q, Becomes .tickPathStageEnd s q ∧ q.txn = { p.txn with loadPending := none } ∧ q.fab = { p.fab with probing := false } ∧
      q.rd TIK_TOKEN_LAT = lat ∧ q.mem = p.mem ∧ q.cores = p.cores ∧
      (p.rd TIK_LEAD < lat → EndsCmd p q n c 6 (TxnErr.of 10).word ∧ q.getB TIK_STICKY 4 = true ∧
        q.getB TIK_GRAFT_STATUS 1 = p.getB TIK_GRAFT_STATUS 1) ∧
      (lat ≤ p.rd TIK_LEAD → EndsCmd p q n c 0 0 ∧ q.getB FAB_STATUS 2 = true ∧ q.getB TIK_GRAFT_STATUS 1 = true) := by
  intro p lat hp hr ht
  have hbec := tickPathStageEnd_becomes s hp hr ht
  have hc := p.runningOp_mem hr
  obtain ⟨u, hu⟩ : ∃ u, u = p.modTxn fun t => { t with loadPending := none } := ⟨_, rfl⟩
  have hcu : c ∈ (u.cq n).cmds := by rw [hu]; exact hc
  have hsame : u.mem = p.mem ∧ u.cores = p.cores ∧ u.fab = p.fab ∧ u.txn = { p.txn with loadPending := none } := by
    rw [hu]
    exact ⟨rfl, rfl, rfl, rfl⟩
  have hg : u.getB TIK_GRAFT_STATUS 1 = p.getB TIK_GRAFT_STATUS 1 := by rw [hu]; exact (Part.modTxn_sameAt _ _).2.1 1
  have hends : ∀ q st res, EndsCmd u q n c st res → EndsCmd p q n c st res := fun q st res h => by rw [hu] at h; exact h
  have hlat : u.stageDone.rd TIK_TOKEN_LAT = lat := by
    rw [hu, Part.stageDone, Part.pickParents_modTxn, (Part.modFab_sameAt _ _).1, (Part.modTxn_sameAt _ _).1]
  have hlead : u.stageDone.rd TIK_LEAD = p.rd TIK_LEAD := by
    rw [(u.stageDone_off (by decide) (by decide)).1, hu, (Part.modTxn_sameAt _ _).1]
  change Becomes .tickPathStageEnd s ((p.modTxn fun t => { t with loadPending := none }).endStage n c) at hbec
  rw [← hu] at hbec
  obtain ⟨hm, hcor, hfab, htxn⟩ := hsame
  by_cases h : p.rd TIK_LEAD < lat
  · obtain ⟨⟨he, -, ht, hmem, hcores⟩, hf, hl, hstick, hgs⟩ := u.endStage_fails hcu (by rw [hlat, hlead]; exact h)
    exact ⟨_, hbec, ht.trans htxn, by rw [hf, hfab], hl.trans hlat, hmem.trans hm, hcores.trans hcor,
      fun _ => ⟨hends _ _ _ he, hstick, hgs.trans hg⟩, fun h' => absurd h (Nat.not_lt.2 h')⟩
  · obtain ⟨he, ht, hf, hl, hmem, hcores, hfs, hgs⟩ := u.endStage_completes hcu (by rw [hlat, hlead]; exact Nat.not_lt.1 h)
    exact ⟨_, hbec, ht.trans htxn, by rw [hf, hfab], hl.trans hlat, hmem.trans hm, hcores.trans hcor, fun h' => absurd h' h,
      fun _ => ⟨hends _ _ _ he, hfs, hgs⟩⟩

section
variable {s : State} {queue : BitVec 3} {host : List HostLine} {c : HostCmd} (hn : (s.p.hostStores host).nextCmd queue.toNat 0x10 = some c)
include hn

/-- A load that is not read, or not taken, ends with its status and stages nothing. -/
theorem graftLoad_ends {status : Nat} (hbec : Becomes (.graftLoad queue host) s ((s.p.hostStores host).endCmd queue.toNat c status 0)) :
    ∃ q, Becomes (.graftLoad queue host) s q ∧ EndsCmd (s.p.hostStores host) q queue.toNat c status 0 ∧ q.txn = (s.p.hostStores host).txn ∧
      q.mem = (s.p.hostStores host).mem := by
  have hq := QueueWork.endCmd (s.p.hostStores host) queue.toNat c status 0
  exact ⟨_, hbec, Part.endCmd_ends _ _ _ _ (Part.nextCmd_mem hn), hq.txn, hq.mem⟩

/-- A load that the part refuses as it stands fails with its code, and the memory is as before too. -/
theorem graftLoad_refused {e : TxnErr} (hbec : Becomes (.graftLoad queue host) s ((s.p.hostStores host).txnRefuse queue.toNat c e)) :
    ∃ q, Becomes (.graftLoad queue host) s q ∧ TxnFails (s.p.hostStores host) q queue.toNat c (s.p.hostStores host).mem e :=
  graftLoad_fails hn hbec ⟨rfl, rfl, rfl⟩ rfl rfl

end

/-- Settles O43: how GRAFT_LOAD reads, refuses, stages or replaces, and how its stage ends it. -/
theorem graftLoads : Obligations.GraftLoads := by
  refine ⟨fun s queue host c => ?_, tickPathStageEnd_ends⟩
  intro p n r loads failsWith fails hn hb hck
  refine ⟨fun ha => ?_, fun h1 h2 ht hr => graftLoad_refused hn (graftLoad_running hn hb hck (by omega) ht hr), fun h1 h2 hs => ?_⟩
  · obtain ⟨q, hq, he, ht, hm⟩ := graftLoad_ends hn (graftLoad_unaligned hn hb hck ha)
    exact ⟨q, hq, he, ht, hm⟩
  have ha : ¬(c.arg 0 % 64 ≠ 0 ∨ c.arg 1 % 64 ≠ 0) := by omega
  have hs' : ¬(p.txnState = 0 ∧ p.running = true) := fun h => hs.elim (fun k => k h.1) fun k => Bool.false_ne_true (k.symm.trans h.2)
  refine ⟨fun hl => graftLoad_refused hn (graftLoad_size hn hb hck ha hs' hl), fun hl hl' => ?_⟩
  have hsize : ¬(c.arg 1 < 320 ∨ c.arg 1 > 20 * 2 ^ 20) := by omega
  refine ⟨fun hr => ?_, fun hr => ?_⟩
  · obtain ⟨q, hq, he, ht, -⟩ := graftLoad_ends hn (graftLoad_poisoned hn hb hck ha hs' hsize hr)
    exact ⟨q, hq, he, ht⟩
  have hbec := graftLoad_reads hn hb hck ha hs' hsize hr
  change Becomes _ s (p.loadContainer n c r.1) at hbec
  refine ⟨fun e he => ?_, fun x hx => ⟨fun ht => ?_, fun ht hf hst => ?_, fun ht hf hst => ?_, fun ht hfull hpart => ⟨fun e he => ?_,
    fun slot l hok hw => ⟨fun hf => ⟨fun e hv => ?_, fun hv => ?_⟩, fun hf hg hu => ?_⟩⟩⟩⟩
  · rw [p.loadContainer_unreadable n c _ he] at hbec
    exact graftLoad_refused hn hbec
  · rw [p.loadContainer_type n c _ hx ht] at hbec
    exact graftLoad_refused hn hbec
  · rw [p.loadContainer_busy n c _ hx ht hf hst] at hbec
    exact graftLoad_refused hn hbec
  · rw [p.loadContainer_closed n c _ hx ht hf hst] at hbec
    exact graftLoad_refused hn hbec
  · rw [p.loadContainer_unfit n c _ hx ht hfull hpart he] at hbec
    exact graftLoad_refused hn hbec
  all_goals rw [p.loadContainer_fits n c _ hx ht hfull hpart hok, hf] at hbec
  · exact fullLoad_fails hn hw hbec hv
  · exact fullLoad_goesOn hn hw hbec hv
  · exact partialLoad_stages hn hw hbec hg hu

end Sys2Proof.Machine
end

section
/-!
PROOF. Transactions (R439 to R445, R447, R449).
-/
namespace Sys2Proof.Machine

section
variable (p : Part)

theorem SameHost.txnIdle : SameHost p p.txnIdle := by
  exact ((SameHost.putF p 0 2 0 (o := TIK_TXN_STATE) (by decide) (by decide)).trans
    (SameHost.wr _ 0 (o := TIK_TXN_USED) (by decide) (by decide))).trans ⟨rfl, rfl, rfl, rfl, rfl⟩

/-- A closed transaction holds nothing (R440). -/
theorem Part.txnIdle_closes : p.txnIdle.txnState = 0 ∧ p.txnIdle.rd TIK_TXN_USED = 0 ∧ p.txnIdle.txn = { p.txn with
    staged := [], grafts := [], unsigned := false, used := 0, armedFor := 0, validating := none, tokenSeen := false } := by
  unfold Part.txnIdle Part.txnState
  refine ⟨?_, ?_, by simp⟩
  · rw [(Part.modTxn_sameAt _ _).2.2, (Part.wr_off _ _ _ (by decide)).2.2, Part.getF_putF_same _ _ _ _ _ (by decide)]
    rfl
  · rw [(Part.modTxn_sameAt _ _).1, Part.rd_wr_same]
    rfl

theorem Part.txnIdle_keeps : p.txnIdle.mem = p.mem ∧ p.txnIdle.cores = p.cores ∧ p.txnIdle.fab = p.fab ∧
    ∀ j, TIK_TXN_STATE ≠ j → TIK_TXN_USED ≠ j → p.txnIdle.SameAt p j := by
  unfold Part.txnIdle
  refine ⟨by simp, by simp, by simp, fun j h h' => Part.sameAt_of_rd ?_⟩
  rw [(Part.modTxn_sameAt _ _).1, Part.rd_wr_other _ _ h', (Part.putF_off _ _ _ _ _ h).1]

/-- The state of the transaction is none of the registers that work on the queues writes. -/
theorem QueueWork.txnState {p q : Part} (h : QueueWork p q) : q.txnState = p.txnState :=
  Part.getF_congr 0 2 (h.2 TIK_TXN_STATE (by unfold offQueues; decide))

theorem Part.txnRefuse_txnState (n : Nat) (c : HostCmd) (e : TxnErr) : (p.txnRefuse n c e).txnState = p.txnState := by
  rw [Part.txnRefuse, (QueueWork.endCmd _ n c e.status e.word).txnState]
  exact (p.txnFail_off (by decide) (by decide) (by decide) (by decide) (by decide) e).2.2 0 2

/-- A transaction command that the part refuses as it stands: the code is shown and nothing else changes (R449). -/
theorem Part.txnRefuse_refuses {p r : Part} (h : SameCmds p r) (ht : r.txn = p.txn) (hs : r.txnState = p.txnState) (hm : r.mem = p.mem)
    (hc : r.cores = p.cores) {n : Nat} {c : HostCmd} (hin : c ∈ (p.cq n).cmds) (e : TxnErr) : let q := r.txnRefuse n c e
    EndsCmd p q n c e.status e.word ∧ q.rd TIK_TXN_ERR = e.word % 2 ^ 64 ∧ q.txn = p.txn ∧ q.txnState = p.txnState ∧ q.mem = p.mem ∧
      q.cores = p.cores := by
  obtain ⟨h1, h2, h3, h4, h5⟩ := Part.txnRefuse_fails h ht hc hin e
  exact ⟨h1, h2, h3, (r.txnRefuse_txnState n c e).trans hs, h4.trans hm, h5⟩

end

/-- A tick that a commit may not name (R442, log 92). -/
def Part.lateTick (p : Part) (t : Nat) : Bool :=
  if p.running then t < p.tickCount + 2 else !(t == 0 || (p.getB TIK_STATUS 11 && t == p.tickCount + 1))

theorem Part.lateTick_iff (p : Part) (t : Nat) : p.lateTick t = true ↔ (p.running = true ∧ t < p.tickCount + 2) ∨
    (p.running = false ∧ t ≠ 0 ∧ ¬(p.getB TIK_STATUS 11 = true ∧ t = p.tickCount + 1)) := by
  unfold Part.lateTick
  cases p.running with
  | true => simp
  | false => simp only [Bool.false_eq_true, if_false, Bool.not_eq_true', Bool.or_eq_false_iff, Bool.and_eq_false_iff, beq_eq_false_iff_ne,
      false_and, true_and, false_or, not_and, ne_eq, or_iff_not_imp_left, Bool.not_eq_false, not_false_eq_true, true_imp_iff]

section
variable {s : State} {queue : BitVec 3} {c : HostCmd} (hb : c.bad = false)
include hb

section
variable (hn : s.p.nextCmd queue.toNat 0x11 = some c)
include hn

theorem txnBegin_refused (h : s.p.txnState ≠ 0 ∨ s.p.txn.loadPending ≠ none) :
    Becomes (.txnBegin queue) s (s.p.txnRefuse queue.toNat c (.of 12)) := by
  change execTxnBegin queue s = _
  unfold execTxnBegin State.run
  dsimp only
  rw [Part.runCmd_runs _ hn hb, if_pos (h.imp_right Option.isSome_iff_ne_none.2)]

theorem txnBegin_opens (h : s.p.txnState = 0) (h' : s.p.txn.loadPending = none) :
    Becomes (.txnBegin queue) s ((s.p.txnIdle.putF TIK_TXN_STATE 0 2 1).endCmd queue.toNat c 0 0) := by
  change execTxnBegin queue s = _
  unfold execTxnBegin State.run
  dsimp only
  rw [Part.runCmd_runs _ hn hb, if_neg (by simp [h, h'])]

end

section
variable (hn : s.p.nextCmd queue.toNat 0x13 = some c)
include hn

theorem txnCommit_closed (h : s.p.txnState ≠ 1) : Becomes (.txnCommit queue) s (s.p.txnRefuse queue.toNat c (.of 12)) := by
  change execTxnCommit queue s = _
  unfold execTxnCommit State.run
  dsimp only
  rw [Part.runCmd_runs _ hn hb, if_pos h]

theorem txnCommit_late (h : s.p.txnState = 1) (hl : s.p.lateTick (c.arg 0) = true) :
    Becomes (.txnCommit queue) s (s.p.txnRefuse queue.toNat c (.of 11)) := by
  change execTxnCommit queue s = _
  unfold execTxnCommit State.run
  dsimp only
  rw [Part.runCmd_runs _ hn hb, if_neg (not_not.2 h)]
  exact congrArg (fun r => (.next { s with p := r } : Answer)) (if_pos hl)

theorem txnCommit_goes (h : s.p.txnState = 1) (hl : s.p.lateTick (c.arg 0) = false)
    (ht : (s.p.withStaged false s.p.txn.staged).getB TWN_CTRL 0 = false) : Becomes (.txnCommit queue) s
      (((s.p.putF TIK_TXN_STATE 0 2 2).modTxn fun x => { x with validating := some (queue.toNat, c.arg 0), armedFor := c.arg 0 }).startCmd
        queue.toNat c) := by
  have hp : s.p.pairingChanges (s.p.withStaged false s.p.txn.staged) = false := by
    rw [Part.pairingChanges, ht, Bool.false_and]
  change execTxnCommit queue s = _
  unfold execTxnCommit State.run
  dsimp only
  rw [Part.runCmd_runs _ hn hb, if_neg (not_not.2 h), hp]
  exact congrArg (fun r => (.next { s with p := r } : Answer)) (if_neg (by rw [← Bool.not_eq_true] at hl; exact hl))

end

section
variable (hn : s.p.nextCmd queue.toNat 0x14 = some c)
include hn

theorem txnRollback_none (h : s.p.txnState = 0) : Becomes (.txnRollback queue) s (s.p.txnRefuse queue.toNat c (.of 12)) := by
  change execTxnRollback queue s = _
  unfold execTxnRollback State.run
  dsimp only
  rw [Part.runCmd_runs _ hn hb, if_pos h]

theorem txnRollback_late (h : s.p.txnState = 3) (ht : s.p.txn.tokenSeen = true) :
    Becomes (.txnRollback queue) s (s.p.txnRefuse queue.toNat c (.of 11)) := by
  change execTxnRollback queue s = _
  unfold execTxnRollback State.run
  dsimp only
  rw [Part.runCmd_runs _ hn hb, if_neg (by omega), if_pos ⟨h, ht⟩]

/-- The part before its transaction is dropped: a validation in progress ends first, and the packets for its tick are let go (R442). -/
def Part.abandoned (p : Part) : Part :=
  let r := if p.txnState = 2 then p.abandonValidation (.of 12) 6 else p
  r.each (r.pairPackets p.txn.armedFor) Part.takeRx

theorem txnRollback_drops (h : s.p.txnState ≠ 0) (ht : ¬(s.p.txnState = 3 ∧ s.p.txn.tokenSeen = true)) :
    Becomes (.txnRollback queue) s ((s.p.abandoned.txnIdle.bump TIK_STAT_ROLLBACK 1).endCmd queue.toNat c 0 s.p.txn.used) := by
  change execTxnRollback queue s = _
  unfold execTxnRollback State.run
  dsimp only
  rw [Part.runCmd_runs _ hn hb, if_neg h, if_neg ht]
  rfl

end

end

section
variable {s : State} {queue : BitVec 3} {host : List HostLine} {c : HostCmd} (hb : c.bad = false)
  (hn : (s.p.hostStores host).nextCmd queue.toNat 0x12 = some c)
include hb hn

theorem txnStage_badArgs (ha : c.arg 0 % 64 ≠ 0 ∨ c.arg 1 = 0 ∨ c.arg 1 > 2 ^ 20) :
    Becomes (.txnStage queue host) s ((s.p.hostStores host).endCmd queue.toNat c 1 0) := by
  change execTxnStage queue host s = _
  unfold execTxnStage State.run
  dsimp only
  rw [Part.runCmd_runs _ hn hb, if_pos ha]

variable (ha : ¬(c.arg 0 % 64 ≠ 0 ∨ c.arg 1 = 0 ∨ c.arg 1 > 2 ^ 20))
include ha

theorem txnStage_closed (h : (s.p.hostStores host).txnState ≠ 1) :
    Becomes (.txnStage queue host) s ((s.p.hostStores host).txnRefuse queue.toNat c (.of 12)) := by
  change execTxnStage queue host s = _
  unfold execTxnStage State.run
  dsimp only
  rw [Part.runCmd_runs _ hn hb, if_neg ha, if_pos h]

variable (h : (s.p.hostStores host).txnState = 1)
include h

theorem txnStage_signedOnly (hs : (s.p.hostStores host).mgt.signedOnly = true) :
    Becomes (.txnStage queue host) s ((s.p.hostStores host).txnRefuse queue.toNat c (.of 3)) := by
  change execTxnStage queue host s = _
  unfold execTxnStage State.run
  dsimp only
  rw [Part.runCmd_runs _ hn hb, if_neg ha, if_neg (not_not.2 h), if_pos hs]

variable (hs : (s.p.hostStores host).mgt.signedOnly = false)
include hs

theorem txnStage_poisoned (hr : ((s.p.hostStores host).hostRead (c.arg 0) (16 * c.arg 1)).2 = true) :
    Becomes (.txnStage queue host) s ((s.p.hostStores host).endCmd queue.toNat c 3 0) := by
  change execTxnStage queue host s = _
  unfold execTxnStage State.run
  dsimp only
  rw [Part.runCmd_runs _ hn hb, if_neg ha, if_neg (not_not.2 h), hs, if_neg Bool.false_ne_true, hr, if_pos rfl]

variable (hr : ((s.p.hostStores host).hostRead (c.arg 0) (16 * c.arg 1)).2 = false)
include hr

theorem txnStage_unreadable {e : TxnErr} (hl : regEntries 0xFFFF ((s.p.hostStores host).hostRead (c.arg 0) (16 * c.arg 1)).1 = .error e) :
    Becomes (.txnStage queue host) s ((s.p.hostStores host).txnRefuse queue.toNat c e) := by
  change execTxnStage queue host s = _
  unfold execTxnStage State.run
  dsimp only
  rw [Part.runCmd_runs _ hn hb, if_neg ha, if_neg (not_not.2 h), hs, if_neg Bool.false_ne_true, hr, if_neg Bool.false_ne_true, hl]

variable {l : List Staged} (hl : regEntries 0xFFFF ((s.p.hostStores host).hostRead (c.arg 0) (16 * c.arg 1)).1 = .ok l)
include hl

theorem txnStage_offGrade {e : TxnErr} (hg : (s.p.hostStores host).gradeFault l = some e) :
    Becomes (.txnStage queue host) s ((s.p.hostStores host).txnRefuse queue.toNat c e) := by
  change execTxnStage queue host s = _
  unfold execTxnStage State.run
  dsimp only
  rw [Part.runCmd_runs _ hn hb, if_neg ha, if_neg (not_not.2 h), hs, if_neg Bool.false_ne_true, hr, if_neg Bool.false_ne_true, hl]
  dsimp only
  rw [hg]

variable (hg : (s.p.hostStores host).gradeFault l = none)
include hg

theorem txnStage_full (hu : stagingBytes < (s.p.hostStores host).txn.used + 16 * c.arg 1) :
    Becomes (.txnStage queue host) s ((s.p.hostStores host).txnRefuse queue.toNat c (.of 6)) := by
  change execTxnStage queue host s = _
  unfold execTxnStage State.run
  dsimp only
  rw [Part.runCmd_runs _ hn hb, if_neg ha, if_neg (not_not.2 h), hs, if_neg Bool.false_ne_true, hr, if_neg Bool.false_ne_true, hl]
  dsimp only
  rw [hg]
  dsimp only
  rw [if_pos hu]

theorem txnStage_stages (hu : (s.p.hostStores host).txn.used + 16 * c.arg 1 ≤ stagingBytes) :
    Becomes (.txnStage queue host) s ((((s.p.hostStores host).stage l (16 * c.arg 1)).modTxn fun t => { t with unsigned := true }).endCmd
      queue.toNat c 0 ((s.p.hostStores host).txn.used + 16 * c.arg 1)) := by
  change execTxnStage queue host s = _
  unfold execTxnStage State.run
  dsimp only
  rw [Part.runCmd_runs _ hn hb, if_neg ha, if_neg (not_not.2 h), hs, if_neg Bool.false_ne_true, hr, if_neg Bool.false_ne_true, hl]
  dsimp only
  rw [hg]
  dsimp only
  rw [if_neg (Nat.not_lt.2 hu)]
  rfl

end

/-- A command that ends for a part ends for one with the same queues and numbers (R405). -/
theorem EndsCmd.ofSame {p r q : Part} {n : Nat} {c : HostCmd} {status result : Nat} (h : EndsCmd r q n c status result) (hs : SameCmds p r) :
    EndsCmd p q n c status result := by
  have hcq : r.cq n = p.cq n := by rw [Part.cq, Part.cq, hs.1]
  have htc : r.tickCount = p.tickCount := hs.2.1
  have hfr : r.frameNo = p.frameNo := hs.2.2
  unfold EndsCmd at h ⊢
  rwa [hcq, htc, hfr] at h

section
variable (s : State) (queue : BitVec 3) (host : List HostLine) (c : HostCmd)

/-- What a command of a queue fails with, for an instruction: its code, and everything else as before. -/
def Refuses (s : State) (i : Instr) (n : Nat) (c : HostCmd) (e : TxnErr) : Prop := ∃ q, Becomes i s q ∧ EndsCmd s.p q n c e.status e.word ∧
  q.rd TIK_TXN_ERR = e.word % 2 ^ 64 ∧ q.txn = s.p.txn ∧ q.txnState = s.p.txnState ∧ q.mem = s.p.mem ∧ q.cores = s.p.cores

theorem Refuses.of {s : State} {i : Instr} {n op : Nat} {c : HostCmd} {e : TxnErr} (hbec : Becomes i s (s.p.txnRefuse n c e))
    (hn : s.p.nextCmd n op = some c) : Refuses s i n c e :=
  ⟨_, hbec, Part.txnRefuse_refuses ⟨rfl, rfl, rfl⟩ rfl rfl rfl rfl (Part.nextCmd_mem hn) e⟩

theorem hostStores_txn (p : Part) (l : List HostLine) : (p.hostStores l).txn = p.txn ∧ (p.hostStores l).txnState = p.txnState ∧
    (p.hostStores l).mgt = p.mgt ∧ ∀ x, (p.hostStores l).gradeFault x = p.gradeFault x := by
  rw [Part.hostStores_eq]
  exact ⟨rfl, rfl, rfl, fun _ => rfl⟩

theorem nextCmd_hostStores {p : Part} {l : List HostLine} {n op : Nat} {c : HostCmd} (h : (p.hostStores l).nextCmd n op = some c) :
    c ∈ (p.cq n).cmds := by
  have hm := Part.nextCmd_mem h
  rwa [(hostStores_keeps p l (j := 0) n).2.2.2.1] at hm

theorem Refuses.ofStores {s : State} {i : Instr} {l : List HostLine} {n op : Nat} {c : HostCmd} {e : TxnErr}
    (hbec : Becomes i s ((s.p.hostStores l).txnRefuse n c e)) (hn : (s.p.hostStores l).nextCmd n op = some c) : Refuses s i n c e := by
  obtain ⟨-, -, -, -, hm, hc⟩ := hostStores_keeps s.p l (j := 0) n
  obtain ⟨ht, hs, -, -⟩ := hostStores_txn s.p l
  exact ⟨_, hbec, Part.txnRefuse_refuses (SameCmds.hostStores _ _) ht hs hm hc (nextCmd_hostStores hn) e⟩

/-- What opening a transaction does (R440). -/
theorem txnBegin_ends (hn : s.p.nextCmd queue.toNat 0x11 = some c) (hb : c.bad = false) :
    (s.p.txnState ≠ 0 ∨ s.p.txn.loadPending ≠ none → Refuses s (.txnBegin queue) queue.toNat c (.of 12)) ∧
    (s.p.txnState = 0 → s.p.txn.loadPending = none → ∃ q, Becomes (.txnBegin queue) s q ∧ EndsCmd s.p q queue.toNat c 0 0 ∧ q.txnState = 1 ∧
      q.txn.staged = [] ∧ q.txn.used = 0 ∧ q.rd TIK_TXN_USED = 0 ∧ q.mem = s.p.mem ∧ q.cores = s.p.cores) := by
  refine ⟨fun h => Refuses.of (txnBegin_refused hb hn h) hn, fun h h' => ?_⟩
  obtain ⟨-, hu, ht⟩ := s.p.txnIdle_closes
  obtain ⟨hm, hcor, -, -⟩ := s.p.txnIdle_keeps
  have hs := SameHost.txnIdle s.p
  have hbec := txnBegin_opens hb hn h h'
  generalize s.p.txnIdle = u at hu ht hm hcor hs hbec
  have hq := QueueWork.endCmd (u.putF TIK_TXN_STATE 0 2 1) queue.toNat c 0 0
  refine ⟨_, hbec, (hs.trans (SameHost.putF u 0 2 1 (o := TIK_TXN_STATE) (by decide) (by decide))).cmds.ends (Part.nextCmd_mem hn) 0 0, ?_, ?_, ?_, ?_, ?_, ?_⟩
  · rw [hq.txnState, Part.txnState, Part.getF_putF_same _ _ _ _ _ (by decide)]
    rfl
  · rw [hq.txn]
    simp [ht]
  · rw [hq.txn]
    simp [ht]
  · rw [hq.2 _ (by unfold offQueues; decide), (Part.putF_off _ _ _ _ _ (by decide)).1, hu]
  · rw [hq.mem]
    simp [hm]
  · rw [hq.cores]
    simp [hcor]

/-- What staging register writes does (R441). -/
theorem txnStage_ends (hn : (s.p.hostStores host).nextCmd queue.toNat 0x12 = some c) (hb : c.bad = false) :
    let p := s.p
    let n := queue.toNat
    let k := c.arg 1
    let r := (p.hostStores host).hostRead (c.arg 0) (16 * k)
    (c.arg 0 % 64 ≠ 0 ∨ k = 0 ∨ 2 ^ 20 < k → ∃ q, Becomes (.txnStage queue host) s q ∧ EndsCmd p q n c 1 0 ∧ q.txn = p.txn) ∧
    (c.arg 0 % 64 = 0 → k ≠ 0 → k ≤ 2 ^ 20 →
      (p.txnState ≠ 1 → Refuses s (.txnStage queue host) n c (.of 12)) ∧
      (p.txnState = 1 → p.mgt.signedOnly = true → Refuses s (.txnStage queue host) n c (.of 3)) ∧
      (p.txnState = 1 → p.mgt.signedOnly = false →
        (r.2 = true → ∃ q, Becomes (.txnStage queue host) s q ∧ EndsCmd p q n c 3 0 ∧ q.txn = p.txn) ∧
        (r.2 = false → (∀ e, regEntries 0xFFFF r.1 = .error e → Refuses s (.txnStage queue host) n c e) ∧
          ∀ l, regEntries 0xFFFF r.1 = .ok l →
            (∀ e, p.gradeFault l = some e → Refuses s (.txnStage queue host) n c e) ∧
            (p.gradeFault l = none → stagingBytes < p.txn.used + 16 * k → Refuses s (.txnStage queue host) n c (.of 6)) ∧
            (p.gradeFault l = none → p.txn.used + 16 * k ≤ stagingBytes →
              ∃ q, Becomes (.txnStage queue host) s q ∧ EndsCmd p q n c 0 (p.txn.used + 16 * k) ∧ q.txnState = 1 ∧
                q.txn = { p.txn with staged := p.txn.staged ++ l, used := p.txn.used + 16 * k, unsigned := true } ∧
                q.rd TIK_TXN_USED = (p.txn.used + 16 * k) % 2 ^ 64 ∧ q.mem = p.mem ∧ q.cores = p.cores)))) := by
  intro p n k r
  obtain ⟨ht, hst, hmgt, hgr⟩ := hostStores_txn s.p host
  have hc := nextCmd_hostStores hn
  have hends : ∀ {st}, Becomes (.txnStage queue host) s ((s.p.hostStores host).endCmd n c st 0) →
      ∃ q, Becomes (.txnStage queue host) s q ∧ EndsCmd p q n c st 0 ∧ q.txn = p.txn := fun {st} hbec =>
    ⟨_, hbec, (SameCmds.hostStores s.p host).ends hc st 0, (QueueWork.endCmd (s.p.hostStores host) n c st 0).txn.trans ht⟩
  refine ⟨fun ha => hends (txnStage_badArgs hb hn ha), fun h1 h2 h3 => ?_⟩
  have ha : ¬(c.arg 0 % 64 ≠ 0 ∨ c.arg 1 = 0 ∨ c.arg 1 > 2 ^ 20) := by omega
  refine ⟨fun h => Refuses.ofStores (txnStage_closed hb hn ha (by rw [hst]; exact h)) hn,
    fun h hs => Refuses.ofStores (txnStage_signedOnly hb hn ha (by rw [hst]; exact h) (by rw [hmgt]; exact hs)) hn, fun h hs => ?_⟩
  have h' : (s.p.hostStores host).txnState = 1 := by rw [hst]; exact h
  have hs' : (s.p.hostStores host).mgt.signedOnly = false := by rw [hmgt]; exact hs
  refine ⟨fun hr => hends (txnStage_poisoned hb hn ha h' hs' hr), fun hr => ⟨fun e hl => Refuses.ofStores
    (txnStage_unreadable hb hn ha h' hs' hr hl) hn, fun l hl => ⟨fun e hg => ?_, fun hg hu => ?_, fun hg hu => ?_⟩⟩⟩
  · exact Refuses.ofStores (txnStage_offGrade hb hn ha h' hs' hr hl (by rw [hgr]; exact hg)) hn
  · exact Refuses.ofStores (txnStage_full hb hn ha h' hs' hr hl (by rw [hgr]; exact hg) (by rw [ht]; exact hu)) hn
  · obtain ⟨-, -, -, -, hm, hcor⟩ := hostStores_keeps s.p host (j := 0) n
    have hcmds := SameCmds.hostStores s.p host
    have hbec := txnStage_stages hb hn ha h' hs' hr hl (by rw [hgr]; exact hg) (by rw [ht]; exact hu)
    obtain ⟨he, hx, hused, hmem, hcores, hstate⟩ := (s.p.hostStores host).stage_ends l (16 * c.arg 1) (fun t => { t with unsigned := true })
      (Part.nextCmd_mem hn)
    rw [ht] at he hx hused
    refine ⟨_, by rw [ht] at hbec; exact hbec, ?_, ?_, hx, hused, ?_, ?_⟩
    · exact he.ofSame hcmds
    · rw [ht] at hstate
      exact hstate.trans h'
    · rw [ht] at hmem
      exact hmem.trans hm
    · rw [ht] at hcores
      exact hcores.trans hcor

end

section
variable (s : State) (queue : BitVec 3) (c : HostCmd)

/-- What a commit does (R442). -/
theorem txnCommit_ends (hn : s.p.nextCmd queue.toNat 0x13 = some c) (hb : c.bad = false) :
    let p := s.p
    let n := queue.toNat
    let t := c.arg 0
    let late : Prop := (p.running = true ∧ t < p.tickCount + 2) ∨
      (p.running = false ∧ t ≠ 0 ∧ ¬(p.getB TIK_STATUS 11 = true ∧ t = p.tickCount + 1))
    (p.txnState ≠ 1 → Refuses s (.txnCommit queue) n c (.of 12)) ∧
    (p.txnState = 1 → late → Refuses s (.txnCommit queue) n c (.of 11)) ∧
    (p.txnState = 1 → ¬late → (p.withStaged false p.txn.staged).getB TWN_CTRL 0 = false →
      ∃ q, Becomes (.txnCommit queue) s q ∧ q.txnState = 2 ∧ q.txn = { p.txn with validating := some (n, t), armedFor := t } ∧
        { c with running := true } ∈ (q.cq n).cmds ∧ q.mem = p.mem ∧ q.cores = p.cores ∧ q.fab = p.fab) := by
  intro p n t late
  have hlate : p.lateTick t = true ↔ late := p.lateTick_iff t
  refine ⟨fun h => Refuses.of (txnCommit_closed hb hn h) hn, fun h hl => Refuses.of (txnCommit_late hb hn h (hlate.2 hl)) hn, fun h hl ht => ?_⟩
  have hbec := txnCommit_goes hb hn h (by rw [← Bool.not_eq_true]; exact fun hc => hl (hlate.1 hc)) ht
  refine ⟨_, hbec, ?_, by simp [Part.startCmd, Part.setCq, p, n, t], ?_, by simp [p], by simp [p], by simp [Part.startCmd, Part.setCq, p]⟩
  · rw [Part.txnState, Part.startCmd, (Part.setCq_sameAt _ _ _).2.2, (Part.modTxn_sameAt _ _).2.2, Part.getF_putF_same _ _ _ _ _ (by decide)]
    rfl
  · refine Part.startCmd_in ?_
    rw [Part.cq, Part.modTxn]
    simp only [Part.putF_keeps]
    exact Part.nextCmd_mem hn

end

section
variable {s : State} {m t n : Nat} {c : HostCmd} (hv : s.p.txn.validating = some (m, t)) (hr : s.p.runningOp 0x13 = some (n, c))
include hv hr

/-- The part once a validation has failed: the transaction is open again (R443). -/
def Part.reopened (p : Part) (e : TxnErr) : Part :=
  let p := (p.putF TIK_TXN_STATE 0 2 1).modTxn fun x => { x with validating := none }
  if e.code = 9 then p.stick TWN_STICKY 4 else p

theorem txnValidationDone_fails {e : TxnErr} (he : (s.p.validReads false s.p.txn.staged).validateTxn t = some e) :
    Becomes .txnValidationDone s (((s.p.validReads false s.p.txn.staged).reopened e).txnRefuse n c e) := by
  change execTxnValidationDone s = _
  unfold execTxnValidationDone State.run
  dsimp only
  rw [hv, hr]
  dsimp only
  rw [he]
  rfl

variable (he : (s.p.validReads false s.p.txn.staged).validateTxn t = none)
include he

theorem txnValidationDone_applies (ht : t = 0) :
    Becomes .txnValidationDone s ((s.p.validReads false s.p.txn.staged).applyTxn.endCmd n c 0 0) := by
  change execTxnValidationDone s = _
  unfold execTxnValidationDone State.run
  dsimp only
  rw [hv, hr]
  dsimp only
  rw [he]
  dsimp only
  rw [if_pos ht]

/-- The part once a transaction is armed for a tick (R443). -/
def Part.armed (p : Part) (t : Nat) : Part :=
  let p := ((p.putF TIK_TXN_STATE 0 2 3).wr TIK_TXN_T t).modTxn fun x => { x with validating := none, armedFor := t }
  if p.getB TIK_STATUS 11 && !p.running && t == p.tickCount + 1 && p.role == 1 then p.resumeTicks else p

theorem txnValidationDone_arms (ht : t ≠ 0) :
    Becomes .txnValidationDone s (((s.p.validReads false s.p.txn.staged).armed t).endCmd n c 0 t) := by
  change execTxnValidationDone s = _
  unfold execTxnValidationDone State.run
  dsimp only
  rw [hv, hr]
  dsimp only
  rw [he]
  dsimp only
  rw [if_neg ht]
  rfl

end

theorem txnValidationDone_idle (s : State) (hv : s.p.txn.validating = none) : Becomes .txnValidationDone s s.p := by
  change execTxnValidationDone s = _
  unfold execTxnValidationDone State.run
  dsimp only
  rw [hv]

section
variable (p : Part)

theorem Part.reopened_keeps (e : TxnErr) : SameHost p (p.reopened e) ∧ (p.reopened e).txn = { p.txn with validating := none } ∧
    (p.reopened e).txnState = 1 ∧ (p.reopened e).mem = p.mem ∧ (p.reopened e).cores = p.cores := by
  have h1 : SameHost p ((p.putF TIK_TXN_STATE 0 2 1).modTxn fun x => { x with validating := none }) :=
    (SameHost.putF p 0 2 1 (o := TIK_TXN_STATE) (by decide) (by decide)).trans ⟨rfl, rfl, rfl, rfl, rfl⟩
  have hs : ((p.putF TIK_TXN_STATE 0 2 1).modTxn fun x => { x with validating := none }).txnState = 1 := by
    rw [Part.txnState, (Part.modTxn_sameAt _ _).2.2, Part.getF_putF_same _ _ _ _ _ (by decide)]
    rfl
  unfold Part.reopened
  dsimp only
  split
  · refine ⟨h1.trans (SameHost.stick _ _ (by decide) (by decide)), by simp, ?_, by simp, by simp⟩
    rw [Part.txnState, (Part.stick_off _ _ _ (by decide) (by decide)).2.2]
    exact hs
  · exact ⟨h1, by simp, hs, by simp, by simp⟩

theorem SameHost.resumeTicks : SameHost p p.resumeTicks := by
  unfold Part.resumeTicks
  exact SameHost.ite _ (SameHost.refl p) ((SameHost.putB p 11 false (o := TIK_STATUS) (by decide) (by decide)).trans ⟨rfl, rfl, rfl, rfl, rfl⟩)

theorem Part.resumeTicks_off {j : Nat} (h : TIK_STATUS ≠ j) : p.resumeTicks.SameAt p j ∧ p.resumeTicks.txn = p.txn := by
  unfold Part.resumeTicks
  split
  · exact ⟨Part.sameAt_of_rd rfl, rfl⟩
  · exact ⟨Part.sameAt_of_rd (by simp [h]), by simp⟩

theorem Part.armed_keeps (t : Nat) : SameHost p (p.armed t) ∧ (p.armed t).txn = { p.txn with validating := none, armedFor := t } ∧
    (p.armed t).txnState = 3 ∧ (p.armed t).rd TIK_TXN_T = t % 2 ^ 64 ∧ (p.armed t).mem = p.mem ∧ (p.armed t).cores = p.cores := by
  obtain ⟨r, hr⟩ : ∃ r, r = ((p.putF TIK_TXN_STATE 0 2 3).wr TIK_TXN_T t).modTxn fun x => { x with validating := none, armedFor := t } := ⟨_, rfl⟩
  have h1 : SameHost p r := by
    rw [hr]
    exact ((SameHost.putF p 0 2 3 (o := TIK_TXN_STATE) (by decide) (by decide)).trans
      (SameHost.wr _ t (o := TIK_TXN_T) (by decide) (by decide))).trans ⟨rfl, rfl, rfl, rfl, rfl⟩
  have hs : r.txnState = 3 := by
    rw [hr, Part.txnState, (Part.modTxn_sameAt _ _).2.2, (Part.wr_off _ _ _ (by decide)).2.2, Part.getF_putF_same _ _ _ _ _ (by decide)]
    rfl
  have ht : r.rd TIK_TXN_T = t % 2 ^ 64 := by rw [hr, (Part.modTxn_sameAt _ _).1, Part.rd_wr_same]
  have hx : r.txn = { p.txn with validating := none, armedFor := t } ∧ r.mem = p.mem ∧ r.cores = p.cores := by rw [hr]; simp
  obtain ⟨hx, hm, hc⟩ := hx
  unfold Part.armed
  dsimp only
  rw [← hr]
  split
  · refine ⟨h1.trans (SameHost.resumeTicks r), (r.resumeTicks_off (j := TIK_TXN_T) (by decide)).2.trans hx, ?_,
      (r.resumeTicks_off (by decide)).1.1.trans ht, by simp [hm], by simp [hc]⟩
    exact ((r.resumeTicks_off (j := TIK_TXN_STATE) (by decide)).1.2.2 0 2).trans hs
  · exact ⟨h1, hx, hs, ht, hm, hc⟩

/-- A part that waits at zero keeps the numbers when it takes ticks, or when its tick is zero already. -/
theorem SameCmds.holdAtZero {r : Part} (h : SameHost p r) (h0 : r.getB TIK_CTRL 0 = true ∨ p.tickCount = 0) : SameCmds p r.holdAtZero := by
  cases hc : r.getB TIK_CTRL 0 with
  | true =>
    rw [r.holdAtZero_running hc]
    exact h.cmds
  | false =>
    have hz : p.tickCount = 0 := h0.resolve_left (by rw [hc]; exact Bool.false_ne_true)
    refine ⟨by rw [r.holdAtZero_keeps.1, h.1], ?_, (r.holdAtZero_off (by decide) (by decide)).1.trans h.frameNo⟩
    exact (r.holdAtZero_waits hc).1.trans hz.symm

theorem SameHost.takeRxs (l : List Packet) : SameHost p (p.each l Part.takeRx) := by
  refine SameHost.each l (fun _ _ _ => ?_) p
  exact ⟨rfl, rfl, rfl, rfl, rfl⟩

theorem SameHost.takePairing (t : Nat) : SameHost p (p.takePairing t) := by
  unfold Part.takePairing
  split
  · exact SameHost.refl p
  · dsimp only
    split
    · exact SameHost.takeRxs p _
    · exact (SameHost.takeRxs p _).trans ⟨rfl, rfl, rfl, rfl, rfl⟩

theorem SameHost.codeAt (x : List (Nat × Nat)) : SameHost p (p.modTick fun t => { t with codeAt := x }) := SameHost.modTick p _ rfl

/-- A transaction that is applied: it is closed, its frame is shown, and a part that takes no ticks waits at zero (R443, R445). -/
theorem Part.applyTxn_applies : ∃ r, SameHost p r ∧ r.rd TIK_TXN_APPLIED = p.rd TIK_FRAME_NO ∧
    p.applyTxn = (r.holdAtZero.wr TIK_TXN_T (p.rd TIK_COUNT)).txnIdle := by
  unfold Part.applyTxn
  extract_lets x q p1 p2
  have h1 : SameHost p p1 := SameHost.ite _ ((SameHost.takePairing p _).trans (SameHost.putF _ _ _ _ (by decide) (by decide))) (SameHost.refl p)
  have h2 : SameHost p p2 := h1.trans (SameHost.codeAt p1 _)
  obtain ⟨r, he, hs, hf, -⟩ := p2.applyStaged_applies false x.staged x.grafts x.unsigned
  refine ⟨r, h2.trans hs, hf.trans h2.frameNo, ?_⟩
  rw [he, h2.count]

end

section
variable {s : State} {m t n : Nat} {c : HostCmd} (hv : s.p.txn.validating = some (m, t)) (hr : s.p.runningOp 0x13 = some (n, c))
include hv hr

/-- A transaction that does not pass is open again, and its commit ends with the code (R443, R449). -/
theorem txnValidationDone_ends {e : TxnErr} (he : (s.p.validReads false s.p.txn.staged).validateTxn t = some e) :
    ∃ q, Becomes .txnValidationDone s q ∧ EndsCmd s.p q n c e.status e.word ∧ q.txnState = 1 ∧ q.txn = { s.p.txn with validating := none } ∧
      q.rd TIK_TXN_ERR = e.word % 2 ^ 64 ∧ q.mem = (s.p.validReads false s.p.txn.staged).mem ∧ q.cores = s.p.cores := by
  have hbec := txnValidationDone_fails hv hr he
  have hs := SameHost.validReads s.p false s.p.txn.staged
  obtain ⟨ht, hc⟩ := s.p.validReads_keeps s.p.txn.staged false
  generalize s.p.validReads false s.p.txn.staged = v at hbec hs ht hc
  obtain ⟨k1, k2, k3, k4, k5⟩ := v.reopened_keeps e
  generalize v.reopened e = r at hbec k1 k2 k3 k4 k5
  obtain ⟨f1, f2, f3, f4, f5⟩ := Part.txnRefuse_fails (p := r) ⟨rfl, rfl, rfl⟩ rfl rfl (n := n) (c := c)
    (by rw [Part.cq, (hs.trans k1).1]; exact s.p.runningOp_mem hr) e
  refine ⟨_, hbec, f1.ofSame (hs.trans k1).cmds, (r.txnRefuse_txnState n c e).trans k3, ?_, f2, f4.trans k4, f5.trans (k5.trans hc)⟩
  rw [f3, k2, ht]

variable (he : (s.p.validReads false s.p.txn.staged).validateTxn t = none)
include he

/-- A transaction for a tick to come is armed (R443). -/
theorem txnValidationDone_armed (h0 : t ≠ 0) :
    ∃ q, Becomes .txnValidationDone s q ∧ EndsCmd s.p q n c 0 t ∧ q.txnState = 3 ∧ q.rd TIK_TXN_T = t % 2 ^ 64 ∧
      q.txn = { s.p.txn with validating := none, armedFor := t } ∧ q.mem = (s.p.validReads false s.p.txn.staged).mem ∧ q.cores = s.p.cores := by
  have hbec := txnValidationDone_arms hv hr he h0
  have hs := SameHost.validReads s.p false s.p.txn.staged
  obtain ⟨ht, hc⟩ := s.p.validReads_keeps s.p.txn.staged false
  generalize s.p.validReads false s.p.txn.staged = v at hbec hs ht hc
  obtain ⟨k1, k2, k3, k4, k5, k6⟩ := v.armed_keeps t
  have hq := QueueWork.endCmd (v.armed t) n c 0 t
  refine ⟨_, hbec, (hs.trans k1).cmds.ends (s.p.runningOp_mem hr) 0 t, hq.txnState.trans k3, ?_, ?_, hq.mem.trans k5, hq.cores.trans (k6.trans hc)⟩
  · rw [hq.2 _ (by unfold offQueues; decide), k4]
  · rw [hq.txn, k2, ht]

/-- A transaction for no tick is applied at once (R443, R445). -/
theorem txnValidationDone_applied (h0 : t = 0) :
    ∃ q, Becomes .txnValidationDone s q ∧ q.txnState = 0 ∧ q.txn.staged = [] ∧ q.rd TIK_TXN_APPLIED = s.p.frameNo ∧
      (q.getB TIK_CTRL 0 = true ∨ s.p.tickCount = 0 → EndsCmd s.p q n c 0 0) ∧ (q.getB TIK_CTRL 0 = false → q.tickCount = 0 ∧ q.phase = 4) := by
  have hbec := txnValidationDone_applies hv hr he h0
  have hs := SameHost.validReads s.p false s.p.txn.staged
  generalize s.p.validReads false s.p.txn.staged = v at hbec hs
  obtain ⟨r, k1, k2, k3⟩ := v.applyTxn_applies
  have hhold : r.getB TIK_CTRL 0 = true ∨ s.p.tickCount = 0 → SameCmds s.p r.holdAtZero := SameCmds.holdAtZero s.p (hs.trans k1)
  have hwait := r.holdAtZero_waits
  have hz : ∀ {j}, TIK_COUNT ≠ j → TIK_STATUS ≠ j → r.holdAtZero.SameAt r j := r.holdAtZero_off
  obtain ⟨w, hw⟩ : ∃ w, w = r.holdAtZero := ⟨_, rfl⟩
  rw [← hw] at hhold hwait hz k3
  obtain ⟨c1, -, c3⟩ := (w.wr TIK_TXN_T (v.rd TIK_COUNT)).txnIdle_closes
  obtain ⟨-, -, -, c4⟩ := (w.wr TIK_TXN_T (v.rd TIK_COUNT)).txnIdle_keeps
  have hcmds : SameHost w v.applyTxn := by
    rw [k3]
    exact (SameHost.wr w _ (o := TIK_TXN_T) (by decide) (by decide)).trans (SameHost.txnIdle _)
  have hrest : ∀ j, TIK_TXN_STATE ≠ j → TIK_TXN_USED ≠ j → TIK_TXN_T ≠ j → v.applyTxn.SameAt w j := fun j h1 h2 h3 => by
    rw [k3]
    exact Part.sameAt_of_rd ((c4 j h1 h2).1.trans (Part.rd_wr_other _ _ h3))
  rw [← k3] at c1 c3
  have hq := QueueWork.endCmd v.applyTxn n c 0 0
  have hoff : ∀ j, offQueues j → TIK_TXN_STATE ≠ j → TIK_TXN_USED ≠ j → TIK_TXN_T ≠ j → (v.applyTxn.endCmd n c 0 0).rd j = w.rd j :=
    fun j h h1 h2 h3 => (hq.2 j h).trans (hrest j h1 h2 h3).1
  have hctl : (v.applyTxn.endCmd n c 0 0).getB TIK_CTRL 0 = r.getB TIK_CTRL 0 :=
    (Part.getB_congr 0 (hoff _ (by unfold offQueues; decide) (by decide) (by decide) (by decide))).trans ((hz (by decide) (by decide)).2.1 0)
  refine ⟨_, hbec, hq.txnState.trans c1, ?_, ?_, fun h => ?_, fun h => ?_⟩
  · rw [hq.txn, c3]
  · rw [hoff _ (by unfold offQueues; decide) (by decide) (by decide) (by decide), (hz (by decide) (by decide)).1, k2]
    exact hs.frameNo
  · rw [hctl] at h
    exact ((hhold h).trans hcmds.cmds).ends (s.p.runningOp_mem hr) 0 0
  · rw [hctl] at h
    obtain ⟨h1, h2⟩ := hwait h
    have hrun := hoff TIK_STATUS (by unfold offQueues; decide) (by decide) (by decide) (by decide)
    exact ⟨(hoff TIK_COUNT (by unfold offQueues; decide) (by decide) (by decide) (by decide)).trans h1, (Part.getF_congr 2 3 hrun).trans h2⟩

end

section
variable (p : Part)

theorem find?_erase_of_not {α : Type} [DecidableEq α] {f : α → Bool} {d : α} (h : f d = false) (l : List α) :
    (l.erase d).find? f = l.find? f := by
  induction l with
  | nil => rfl
  | cons x l ih =>
    by_cases hx : x = d
    · subst hx
      rw [List.erase_cons_head, List.find?_cons, h]
    · rw [List.erase_cons_tail (by simpa using hx), List.find?_cons, List.find?_cons, ih]

/-- The next command of a queue is in it, of a row of its own (R403). -/
def Part.waitsFor (p : Part) (n : Nat) (c : HostCmd) : Prop :=
  (p.cq n).cmds.find? (fun c => !c.running) = some c ∧ c.poisoned = false ∧ hostOps.contains c.op = true

/-- The end of a command that runs leaves the next one of a queue in it (R403). -/
theorem Part.waitsFor_endCmd {n m : Nat} {c d : HostCmd} (hw : p.waitsFor n c) (hd : d.running = true) (status result : Nat) :
    (p.endCmd m d status result).waitsFor n c := by
  obtain ⟨hfirst, hpois, hop⟩ := hw
  have hcq : ((p.endOne m d status result).cq n).cmds.find? (fun c => !c.running) = some c := by
    rw [Part.endOne_cq]
    split
    · next h =>
      subst h
      exact (find?_erase_of_not (by simp [hd]) _).trans hfirst
    · exact hfirst
  refine ⟨?_, hpois, hop⟩
  rw [Part.endCmd, Part.sweepAll_waits _ n fun x hx => ?_]
  · exact hcq
  · rw [hcq] at hx
    cases hx
    exact ⟨hpois, hop⟩

theorem Part.runningOp_running {op n : Nat} {c : HostCmd} (h : p.runningOp op = some (n, c)) : c.running = true := by
  obtain ⟨m, -, hm⟩ := List.exists_of_findSome?_eq_some h
  obtain ⟨d, hd, he⟩ := Option.map_eq_some_iff.1 hm
  cases he
  exact (by simpa using List.find?_some hd : c.running = true ∧ c.op = op).1

/-- What dropping a transaction leaves: the commit that was validated may have ended, and no more of the queues has changed (R442). -/
def Part.Dropped (p r : Part) : Prop := (∀ n, (r.cq n).cmds.length ≤ (p.cq n).cmds.length ∧ ∃ l, (r.cq n).ended = (p.cq n).ended ++ l) ∧
  (∀ n c, p.waitsFor n c → r.waitsFor n c) ∧
  (r.rd TIK_COUNT = p.rd TIK_COUNT ∧ r.rd TIK_FRAME_NO = p.rd TIK_FRAME_NO ∧ r.rd TIK_STAT_ROLLBACK = p.rd TIK_STAT_ROLLBACK) ∧
  r.mem = p.mem ∧ r.cores = p.cores

theorem Part.Dropped.trans {p q r : Part} (h : p.Dropped q) (h' : q.Dropped r) : p.Dropped r := by
  obtain ⟨h1, h2, ⟨h3, h4, h5⟩, h6, h7⟩ := h
  obtain ⟨k1, k2, ⟨k3, k4, k5⟩, k6, k7⟩ := h'
  refine ⟨fun n => ?_, fun n c hw => k2 n c (h2 n c hw), ⟨k3.trans h3, k4.trans h4, k5.trans h5⟩, k6.trans h6, k7.trans h7⟩
  obtain ⟨hlen, l, hl⟩ := h1 n
  obtain ⟨klen, l', kl⟩ := k1 n
  exact ⟨klen.trans hlen, l ++ l', by rw [kl, hl, List.append_assoc]⟩

/-- A part with the same host interface, numbers and memory drops nothing. -/
theorem Part.Dropped.of_same {p r : Part} (h : SameHost p r) (hr : r.rd TIK_STAT_ROLLBACK = p.rd TIK_STAT_ROLLBACK) (hm : r.mem = p.mem)
    (hc : r.cores = p.cores) : p.Dropped r := by
  have hcq : ∀ n, r.cq n = p.cq n := fun n => by rw [Part.cq, h.1, Part.cq]
  exact ⟨fun n => by rw [hcq]; exact ⟨le_rfl, [], (List.append_nil _).symm⟩, fun n c hw => by rw [Part.waitsFor, hcq]; exact hw,
    ⟨h.count, h.frameNo, hr⟩, hm, hc⟩

theorem Part.Dropped.endCmd {m : Nat} {d : HostCmd} (hd : d.running = true) (status result : Nat) :
    p.Dropped (p.endCmd m d status result) := by
  have hq := QueueWork.endCmd p m d status result
  obtain ⟨-, -, -, hn⟩ := CmdsEnd.endCmd p m d status result
  exact ⟨hn, fun n c hw => p.waitsFor_endCmd hw hd status result, ⟨hq.2 _ (by unfold offQueues; decide), hq.2 _ (by unfold offQueues; decide),
    hq.2 _ (by unfold offQueues; decide)⟩, hq.mem, hq.cores⟩

theorem Part.Dropped.abandonValidation (e : TxnErr) (status : Nat) : p.Dropped (p.abandonValidation e status) := by
  obtain ⟨r, hr⟩ : ∃ r, r = (p.putF TIK_TXN_STATE 0 2 1).modTxn fun t => { t with validating := none } := ⟨_, rfl⟩
  have hs : p.Dropped r := by
    refine Part.Dropped.of_same ?_ ?_ (by rw [hr]; simp) (by rw [hr]; simp)
    · rw [hr]
      exact (SameHost.putF p 0 2 1 (o := TIK_TXN_STATE) (by decide) (by decide)).trans ⟨rfl, rfl, rfl, rfl, rfl⟩
    · rw [hr, (Part.modTxn_sameAt _ _).1, (Part.putF_off _ _ _ _ _ (by decide)).1]
  unfold Part.abandonValidation
  dsimp only
  rw [← hr]
  cases hrun : r.runningOp 0x13 with
  | none => exact hs
  | some x =>
    have hf : r.Dropped (r.txnFail e) := Part.Dropped.of_same (SameHost.txnFail r e)
      (r.txnFail_off (by decide) (by decide) (by decide) (by decide) (by decide) e).1 (r.txnFail_frame e).1 (r.txnFail_frame e).2
    exact (hs.trans hf).trans (Part.Dropped.endCmd _ (r.runningOp_running hrun) _ _)

theorem Part.Dropped.abandoned : p.Dropped p.abandoned := by
  have hrx : ∀ (q : Part) l, q.Dropped (q.each l Part.takeRx) := fun q l =>
    Part.Dropped.of_same (SameHost.takeRxs q l) (Part.each_get (fun r => r.rd TIK_STAT_ROLLBACK) _ _ _ fun _ _ => rfl)
      (Part.each_get (fun r => r.mem) _ _ _ fun _ _ => rfl) (Part.each_get (fun r => r.cores) _ _ _ fun _ _ => rfl)
  unfold Part.abandoned
  dsimp only
  split
  · exact (Part.Dropped.abandonValidation p _ _).trans (hrx _ _)
  · exact hrx _ _

theorem Part.nextCmd_waitsFor {n op : Nat} {c : HostCmd} (h : p.nextCmd n op = some c) (ho : hostOps.contains op = true) : p.waitsFor n c := by
  obtain ⟨hs, hpois, hop⟩ := Part.nextCmd_startable h
  exact ⟨Part.startable_first hs, hpois, by rw [hop]; exact ho⟩

theorem EndsCmd.afterDrop {p r q : Part} {n : Nat} {c : HostCmd} {status result : Nat} (h : EndsCmd r q n c status result) (hd : p.Dropped r) :
    EndsCmd p q n c status result := by
  obtain ⟨h1, -, ⟨h3, h4, -⟩, -⟩ := hd
  obtain ⟨hlen, l, hl⟩ := h1 n
  obtain ⟨hlen', l', r', hended⟩ := h
  have htc : r.tickCount = p.tickCount := h3
  have hfr : r.frameNo = p.frameNo := h4
  rw [htc, hfr, hl] at hended
  exact ⟨lt_of_lt_of_le hlen' hlen, l ++ l', r', by simp [hended]⟩

end

/-- What a rollback does (R442). -/
theorem txnRollback_ends (s : State) (queue : BitVec 3) (c : HostCmd) (hn : s.p.nextCmd queue.toNat 0x14 = some c) (hb : c.bad = false) :
    let p := s.p
    let n := queue.toNat
    (p.txnState = 0 → Refuses s (.txnRollback queue) n c (.of 12)) ∧
    (p.txnState = 3 → p.txn.tokenSeen = true → Refuses s (.txnRollback queue) n c (.of 11)) ∧
    (p.txnState = 1 ∨ p.txnState = 2 ∨ (p.txnState = 3 ∧ p.txn.tokenSeen = false) →
      ∃ q, Becomes (.txnRollback queue) s q ∧ EndsCmd p q n c 0 p.txn.used ∧ q.txnState = 0 ∧ q.txn.staged = [] ∧ q.txn.grafts = [] ∧
        q.txn.used = 0 ∧ q.txn.validating = none ∧ q.rd TIK_STAT_ROLLBACK = (p.rd TIK_STAT_ROLLBACK + 1) % 2 ^ 64 ∧ q.mem = p.mem ∧
        q.cores = p.cores) := by
  intro p n
  refine ⟨fun h => Refuses.of (txnRollback_none hb hn h) hn, fun h ht => Refuses.of (txnRollback_late hb hn h ht) hn, fun h => ?_⟩
  have h0 : s.p.txnState ≠ 0 := by
    rcases h with h | h | ⟨h, -⟩
    all_goals exact fun hc => absurd (hc.symm.trans h) (by decide)
  have h3 : ¬(s.p.txnState = 3 ∧ s.p.txn.tokenSeen = true) := by
    rintro ⟨hc, hseen⟩
    rcases h with h | h | ⟨-, h⟩
    · exact absurd (hc.symm.trans h) (by decide)
    · exact absurd (hc.symm.trans h) (by decide)
    · exact Bool.false_ne_true (h.symm.trans hseen)
  have hbec := txnRollback_drops hb hn h0 h3
  have hd := Part.Dropped.abandoned p
  obtain ⟨-, hw, ⟨-, -, hroll⟩, hm, hcor⟩ := id hd
  obtain ⟨hc, -⟩ := hw n c (p.nextCmd_waitsFor hn (by decide))
  change Becomes _ s ((p.abandoned.txnIdle.bump TIK_STAT_ROLLBACK 1).endCmd n c 0 p.txn.used) at hbec
  generalize p.abandoned = d at hbec hd hroll hm hcor hc
  obtain ⟨c1, -, c3⟩ := d.txnIdle_closes
  obtain ⟨k1, k2, -, k4⟩ := d.txnIdle_keeps
  have hs : SameHost d (d.txnIdle.bump TIK_STAT_ROLLBACK 1) := (SameHost.txnIdle d).trans (SameHost.bump _ 1 (o := TIK_STAT_ROLLBACK) (by decide) (by decide))
  have hq := QueueWork.endCmd (d.txnIdle.bump TIK_STAT_ROLLBACK 1) n c 0 p.txn.used
  have ht : (d.txnIdle.bump TIK_STAT_ROLLBACK 1).txn = d.txnIdle.txn := by simp
  refine ⟨_, hbec, (hs.cmds.ends (List.mem_of_find?_eq_some hc) 0 p.txn.used).afterDrop hd, ?_, ?_, ?_, ?_, ?_, ?_, ?_, ?_⟩
  · rw [hq.txnState, Part.txnState, (Part.bump_off _ _ _ (by decide)).2.2]
    exact c1
  · rw [hq.txn, ht, c3]
  · rw [hq.txn, ht, c3]
  · rw [hq.txn, ht, c3]
  · rw [hq.txn, ht, c3]
  · rw [hq.2 _ (by unfold offQueues; decide), Part.rd_bump_same, (k4 _ (by decide) (by decide)).1, hroll]
  · rw [hq.mem]
    simp [k1, hm]
  · rw [hq.cores]
    simp [k2, hcor]

/-- Settles O44: how a transaction opens, takes writes, is committed, validated, armed or applied, or rolled back. -/
theorem transactions : Obligations.Transactions := by
  intro s queue host c
  exact ⟨txnBegin_ends s queue c, txnStage_ends s queue host c, txnCommit_ends s queue c, fun m t hv hr =>
    ⟨fun e he => txnValidationDone_ends hv hr he, fun he => ⟨txnValidationDone_applied hv hr he, txnValidationDone_armed hv hr he⟩⟩,
    txnValidationDone_idle s, txnRollback_ends s queue c⟩

end Sys2Proof.Machine
end

section
/-!
SUPPORT. What keeps the pace of the part: the clock, the frame in progress and whether ticks are on (R17, R18, R445).
-/
namespace Sys2Proof.Machine

/-- The registers that say whether and which tick the part takes, and whether a transaction is armed for it. -/
def pacedRegs : List Nat := [TIK_CTRL, TIK_COUNT, TIK_TXN_STATE]

theorem pacedRegs_hub : ∀ j ∈ pacedRegs, j < 0x2000000 ∧ j ∉ recordRegs ∧ TIK_FAIL_CAUSE ≠ j := by decide

theorem not_paced_above {o : Nat} (h : 0x20411 ≤ o) : o ∉ pacedRegs := by
  simp only [pacedRegs, TIK_CTRL, TIK_COUNT, TIK_TXN_STATE, List.mem_cons, List.not_mem_nil, or_false]
  omega

theorem not_paced_below {o : Nat} (h : o < 0x20000) : o ∉ pacedRegs := by
  simp only [pacedRegs, TIK_CTRL, TIK_COUNT, TIK_TXN_STATE, List.mem_cons, List.not_mem_nil, or_false]
  omega

/-- The clock, the frame in progress and the registers of the tick are as before, and a frozen part is frozen still. -/
structure Paced (p q : Part) : Prop where
  cycle : q.cycle = p.cycle
  beat : q.beat = p.beat
  frozen : p.obs.frozen = true → q.obs.frozen = true
  regs : ∀ j ∈ pacedRegs, q.rd j = p.rd j

theorem Paced.refl (p : Part) : Paced p p := ⟨rfl, rfl, id, fun _ _ => rfl⟩

theorem Paced.trans {p q r : Part} (h : Paced p q) (h' : Paced q r) : Paced p r :=
  ⟨h'.cycle.trans h.cycle, h'.beat.trans h.beat, fun hf => h'.frozen (h.frozen hf), fun j hj => (h'.regs j hj).trans (h.regs j hj)⟩

theorem Paced.ite (b : Prop) [Decidable b] {p q r : Part} (hq : Paced p q) (hr : Paced p r) : Paced p (if b then q else r) := by
  split
  · exact hq
  · exact hr

theorem Paced.each {α : Type} {f : Part → α → Part} (l : List α) (h : ∀ x ∈ l, ∀ p, Paced p (f p x)) (p : Part) : Paced p (p.each l f) := by
  induction l generalizing p with
  | nil => exact refl p
  | cons x l ih =>
    rw [Part.each_cons]
    exact (h x (by simp) p).trans (ih (fun y hy => h y (by simp [hy])) _)

section
variable (p : Part)

theorem Paced.modTick (f : Tick → Tick) (h : (p.modTick f).beat = p.beat) : Paced p (p.modTick f) := ⟨rfl, h, id, fun _ _ => rfl⟩

theorem Paced.modObs (f : Obs → Obs) (h : ∀ o, (f o).frozen = o.frozen) : Paced p (p.modObs f) :=
  ⟨rfl, rfl, fun hf => (h p.obs).trans hf, fun _ _ => rfl⟩

theorem Paced.modHif (f : Hif → Hif) : Paced p (p.modHif f) := ⟨rfl, rfl, id, fun _ _ => rfl⟩

theorem Paced.modMgt (f : Mgt → Mgt) : Paced p (p.modMgt f) := ⟨rfl, rfl, id, fun _ _ => rfl⟩

theorem Paced.wr {o : Nat} (v : Nat) (h : o ∉ pacedRegs) : Paced p (p.wr o v) :=
  ⟨rfl, rfl, id, fun _ hj => Part.rd_wr_other _ _ fun he => h (he ▸ hj)⟩

theorem Paced.putF {o : Nat} (lo w v : Nat) (h : o ∉ pacedRegs) : Paced p (p.putF o lo w v) := Paced.wr p _ h

theorem Paced.putB {o : Nat} (i : Nat) (v : Bool) (h : o ∉ pacedRegs) : Paced p (p.putB o i v) := Paced.putF p _ _ _ h

theorem Paced.bump {o : Nat} (k : Nat) (h : o ∉ pacedRegs) : Paced p (p.bump o k) := Paced.wr p _ h

theorem Paced.bump32 {o : Nat} (k : Nat) (h : o ∉ pacedRegs) : Paced p (p.bump32 o k) := Paced.wr p _ h

theorem Paced.stick {o : Nat} (i : Nat) (h : o ∉ pacedRegs) (h' : o + 4 ∉ pacedRegs) : Paced p (p.stick o i) :=
  (Paced.putB p _ _ h).trans (Paced.putB _ _ _ h')

theorem Part.trace_frozen (b kind pair core a v : Nat) : (p.trace b kind pair core a v).obs.frozen = p.obs.frozen := by simp

theorem Part.freezeFrom_frozen {p : Part} (h : p.obs.frozen = true) (n : Nat) (e : Option Nat) (corr : Nat) : p.freezeFrom n e corr = p := by
  rw [Part.freezeFrom, if_pos h]

theorem Part.err_frozen (e : ErrRec) (h : p.obs.frozen = true) : (p.err e).obs.frozen = true := by
  unfold Part.err
  dsimp only
  split
  · exact h
  · split
    · simp [h]
    · split
      · rw [Part.freeze, Part.freezeFrom_frozen (by simp [h])]
        simp [h]
      · simp [h]

theorem Paced.err (e : ErrRec) : Paced p (p.err e) :=
  ⟨by simp, by simp, p.err_frozen e, fun j hj => (Part.err_sameAt p (pacedRegs_hub j hj).1 (pacedRegs_hub j hj).2.1 e).1⟩

theorem Paced.noteErr {o : Nat} (i : Nat) (e : ErrRec) (h : o ∉ pacedRegs) (h' : o + 4 ∉ pacedRegs) : Paced p (p.noteErr o i e) :=
  (Paced.stick p _ h h').trans (Paced.err _ _)

theorem Paced.failCause (c : Nat) : Paced p (p.failCause c) := by
  refine ⟨by simp, by simp, fun h => ?_, fun j hj => (Part.failCause_sameAt p (pacedRegs_hub j hj).1 (pacedRegs_hub j hj).2.1 (pacedRegs_hub j hj).2.2 c).1⟩
  have he : ∀ (r : Part) e, r.obs.frozen = true → (r.err e).obs.frozen = true := fun r e => r.err_frozen e
  unfold Part.failCause
  dsimp only
  repeat' split
  all_goals simp [Part.sendStatus, he, h]

theorem Paced.trace (b kind pair core a v : Nat) : Paced p (p.trace b kind pair core a v) := by
  refine ⟨by simp, by simp [Part.beat], fun h => by simp [h], fun j hj => ?_⟩
  exact (Part.trace_sameAt p (pacedRegs_hub j hj).1 (pacedRegs_hub j hj).2.1 _ _ _ _ _ _).1

end

section
variable (p : Part) (h : p.obs.frozen = true)
include h

theorem Part.countCe_frozen (k n : Nat) : (p.countCe k n).obs.frozen = true := by
  have he : ∀ (r : Part) o i e, r.obs.frozen = true → (r.noteErr o i e).obs.frozen = true := fun r o i e hr => Part.err_frozen _ _ (by simpa using hr)
  unfold Part.countCe
  dsimp only
  repeat' split
  all_goals simp [h, he]

theorem Part.readLine_frozen (k g q a : Nat) : (p.readLine k g q a).2.obs.frozen = true := by
  have he : ∀ (r : Part) o i e, r.obs.frozen = true → (r.noteErr o i e).obs.frozen = true := fun r o i e hr => Part.err_frozen _ _ (by simpa using hr)
  have hc : ∀ (r : Part) i j, r.obs.frozen = true → (r.countCe i j).obs.frozen = true := fun r i j hr => r.countCe_frozen hr i j
  unfold Part.readLine
  dsimp only
  repeat' split
  all_goals simp [h, he, hc, Part.addPair, Part.putHbm]

theorem Part.failCause_frozen (c : Nat) : (p.failCause c).obs.frozen = true := (Paced.failCause p c).frozen h

theorem Part.journalLine_frozen (g q a : Nat) : (p.journalLine g q a).2.obs.frozen = true := by
  have hf : ∀ (r : Part) c, r.obs.frozen = true → (r.failCause c).obs.frozen = true := fun r c hr => r.failCause_frozen hr c
  have hr : ∀ (r : Part) k g q a, r.obs.frozen = true → (r.readLine k g q a).2.obs.frozen = true := fun r k g q a hr => r.readLine_frozen hr k g q a
  unfold Part.journalLine
  dsimp only
  repeat' split
  all_goals simp [h, hf, hr, Part.putJournal]

theorem Part.writeLine_frozen (g q a : Nat) (bs : List Byte) (t : Option Nat) : (p.writeLine g q a bs t).obs.frozen = true := by
  have hj := p.journalLine_frozen h g q a
  unfold Part.writeLine
  dsimp only
  split <;> simp [hj, Part.addPair, Part.putHbm]

theorem Part.writePart_frozen (g q a : Nat) (bs : List Byte) (t : Option Nat) : (p.writePart g q a bs t).obs.frozen = true := by
  unfold Part.writePart
  dsimp only
  split
  · exact p.readLine_frozen h _ _ _ _
  · exact Part.writeLine_frozen _ (p.readLine_frozen h _ _ _ _) _ _ _ _ _

theorem Part.writeInLine_frozen (g q a : Nat) (bs : List Byte) (t : Option Nat) : (p.writeInLine g q a bs t).obs.frozen = true := by
  unfold Part.writeInLine
  split
  · exact p.writeLine_frozen h _ _ _ _ _
  · exact p.writePart_frozen h _ _ _ _ _

theorem Part.storeLoop_frozen (n g q a : Nat) (bs : List Byte) (t : Option Nat) : (Part.storeLoop n p g q a bs t).obs.frozen = true := by
  induction n generalizing p a bs with
  | zero => exact h
  | succ n ih =>
    unfold Part.storeLoop
    dsimp only
    split
    · exact h
    · refine ih _ ?_ _ _
      split
      · exact p.writeInLine_frozen h _ _ _ _ _
      · unfold Part.writeGran
        dsimp only
        repeat' split
        all_goals exact h

theorem Part.loadLoop_frozen (n g q a len : Nat) : (Part.loadLoop n p g q a len).2.obs.frozen = true := by
  induction n generalizing p a len with
  | zero => exact h
  | succ n ih =>
    unfold Part.loadLoop Part.readPiece
    dsimp only
    split
    · exact h
    · refine ih _ ?_ _ _
      split
      · exact p.readLine_frozen h _ _ _ _
      · exact h

end

section
variable (p : Part)

theorem Paced.store (g q a : Nat) (bs : List Byte) (t : Option Nat) : Paced p (p.store g q a bs t) :=
  ⟨by simp, by simp, fun h => p.storeLoop_frozen h _ _ _ _ _ _, fun j hj =>
    (Part.store_sameAt p (pacedRegs_hub j hj).1 (pacedRegs_hub j hj).2.1 (pacedRegs_hub j hj).2.2 _ _ _ _ _).1⟩

theorem Paced.load (g q a n : Nat) : Paced p (p.load g q a n).2 :=
  ⟨by simp, by simp, fun h => by unfold Part.load; exact p.loadLoop_frozen h _ _ _ _ _, fun j hj =>
    (Part.load_sameAt p (pacedRegs_hub j hj).1 (pacedRegs_hub j hj).2.1 _ _ _ _).1⟩

theorem Paced.loadN (g q a n : Nat) : Paced p (p.loadN g q a n).2 := Paced.load p g q a n

theorem Paced.putHbm (a : Nat) (bs : List Byte) (t : Option Nat) : Paced p (p.putHbm a bs t) :=
  ⟨by simp [Part.putHbm], by simp, fun h => by simp [Part.putHbm, h], fun j hj => (Part.putHbm_off p a bs t (pacedRegs_hub j hj).1).1⟩

theorem Paced.whole {q : Part} (h : q =
    { p with mem := q.mem, mctl := q.mctl, sched := q.sched, units := q.units, cores := q.cores, hif := q.hif, fab := q.fab, twin := q.twin,
             press := q.press, optim := q.optim, rack := q.rack, buckets := q.buckets }) : Paced p q := by
  rw [h]
  exact ⟨rfl, rfl, id, fun _ _ => rfl⟩

theorem Paced.dropRegs (f : Nat → Bool) (h : ∀ j ∈ pacedRegs, f j = false) : Paced p (p.dropRegs f) := by
  refine ⟨rfl, rfl, id, fun j hj => ?_⟩
  unfold Part.dropRegs Part.rd spClear
  dsimp only
  rw [spGet_filter]
  intro e _ he
  rw [he, h j hj]
  rfl

end

end Sys2Proof.Machine
end

section
/-!
SUPPORT. The steps of a tick keep its pace (R9, R28 to R39, R306).
-/
namespace Sys2Proof.Machine

section
variable (p : Part)

theorem Paced.telemetryLatch : Paced p p.telemetryLatch := by
  have hE : ∀ i, MGT_TEL_E i ∉ pacedRegs := fun i => not_paced_above (by unfold MGT_TEL_E; omega)
  have hT : ∀ i, MGT_TEL_T i ∉ pacedRegs := fun i => not_paced_above (by unfold MGT_TEL_T; omega)
  unfold Part.telemetryLatch
  dsimp only
  refine Paced.ite _ (Paced.refl p) ((Paced.trans ?_ (Paced.putF _ _ _ _ (by decide))).trans (Paced.modMgt _ _))
  exact (Paced.wr p _ (by decide)).trans (Paced.each _ (fun i _ q => (Paced.wr q _ (hE i)).trans (Paced.wr _ _ (hT i))) _)

theorem Paced.pairFlag (i b : Nat) (c : Bool) : Paced p (if c then p.putB (OBS_PAIR_FLAGS i) b true else p) :=
  Paced.ite _ (Paced.putB p _ _ (not_paced_above (by unfold OBS_PAIR_FLAGS; omega))) (Paced.refl p)

theorem Paced.pairCounts (i : Nat) (a : PairAcc) :
    Paced p ((((p.bump (OBS_PAIR_MAC i) a.mac).bump (OBS_PAIR_VEC i) a.vec).bump (OBS_PAIR_HBM i) a.hbm).bump (OBS_PAIR_FAB i) a.fab) := by
  have hM : OBS_PAIR_MAC i ∉ pacedRegs := not_paced_above (by unfold OBS_PAIR_MAC; omega)
  have hV : OBS_PAIR_VEC i ∉ pacedRegs := not_paced_above (by unfold OBS_PAIR_VEC; omega)
  have hH : OBS_PAIR_HBM i ∉ pacedRegs := not_paced_above (by unfold OBS_PAIR_HBM; omega)
  have hB : OBS_PAIR_FAB i ∉ pacedRegs := not_paced_above (by unfold OBS_PAIR_FAB; omega)
  exact (((Paced.bump p _ hM).trans (Paced.bump _ _ hV)).trans (Paced.bump _ _ hH)).trans (Paced.bump _ _ hB)

theorem Paced.addHalves {o : Nat} (hi lo : Nat) (h : o ∉ pacedRegs) : Paced p (p.addHalves o hi lo) := Paced.wr p _ h

theorem Paced.addEntry (i : Nat) (a : PairAcc) : Paced p (p.addEntry i a) := by
  have hD : OBS_PAIR_PCONS_DMIS i ∉ pacedRegs := not_paced_above (by unfold OBS_PAIR_PCONS_DMIS; omega)
  unfold Part.addEntry
  exact (((Paced.pairFlag p i 31 a.poisoned).trans (Paced.pairFlag _ i 30 a.mismatch)).trans (Paced.pairCounts _ i a)).trans (Paced.addHalves _ _ _ hD)

theorem Paced.addOutlook (c e : Nat) : Paced p (p.addOutlook c e) := by
  unfold Part.addOutlook Part.addHalves
  extract_lets i p1 p2 p3
  have h1 : Paced p p1 := Paced.wr p _ (not_paced_above (by unfold OBS_PAIR_SEL_EST; omega))
  have h2 : Paced p1 p2 := Paced.wr p1 _ (not_paced_above (by unfold OBS_PAIR_SIG_AUDSIG; omega))
  have h3 : Paced p2 p3 := Paced.wr p2 _ (not_paced_above (by unfold OBS_PAIR_AUD_MISS; omega))
  exact ((h1.trans h2).trans h3).trans (Paced.bump p3 _ (not_paced_above (by unfold OBS_PAIR_MTR_N; omega)))

theorem Paced.pairTable : Paced p p.pairTable := by
  unfold Part.pairTable
  extract_lets p1 p2 p3
  have h1 : Paced p p1 := Paced.dropRegs p _ (by decide)
  have h2 : Paced p1 p2 := Paced.each _ (fun e _ q => Paced.addEntry q _ _) p1
  have h3 : Paced p2 p3 := Paced.each _ (fun c _ q => Paced.each _ (fun e _ r => Paced.addOutlook r c e) q) p2
  exact ((h1.trans h2).trans h3).trans (Paced.modObs p3 _ fun _ => rfl)

theorem Paced.hostPut (a : Nat) (bs : List Byte) (t : Bool) : Paced p (p.hostPut a bs t) := Paced.ite _ (Paced.refl p) (Paced.modHif p _)

theorem Paced.errorRing : Paced p p.errorRing := by
  unfold Part.errorRing
  dsimp only
  exact (Paced.ite _ (Paced.each _ (fun e _ q => Paced.hostPut q _ _ _) p) (Paced.refl p)).trans (Paced.modObs _ _ fun _ => rfl)

theorem Paced.setDups (s : Nat) (l : List DupCap) : Paced p (p.setDups s l) := Paced.modObs p _ fun _ => rfl

theorem Paced.dupTick : Paced p p.dupTick := by
  unfold Part.dupTick
  refine Paced.each _ (fun s _ q => ?_) p
  exact (Paced.setDups q _ _).trans (Paced.bump _ _ (by decide))

theorem Paced.clearFrameRegs : Paced p p.clearFrameRegs := Paced.dropRegs p _ (by decide)

theorem Paced.codeAt (l : List (Nat × Nat)) : Paced p (p.modTick fun t => { t with codeAt := l }) := Paced.modTick p _ rfl

theorem Paced.unwinding (b : Bool) : Paced p (p.modTick fun t => { t with unwinding := b }) := Paced.modTick p _ rfl

theorem Paced.closeFrame : Paced p p.closeFrame := by
  unfold Part.closeFrame
  extract_lets p1 sum p2 p3
  have h1 : Paced p p1 := (((Paced.telemetryLatch p).trans (Paced.pairTable _)).trans (Paced.errorRing _)).trans (Paced.dupTick _)
  have h2 : Paced p1 p2 := Paced.modHif p1 _
  have h3 : Paced p2 p3 := Paced.wr p2 _ (by decide)
  have h4 := (Paced.modObs p3 (fun o => { o with poisonJobs := [] }) fun _ => rfl).trans (Paced.clearFrameRegs _)
  exact (((h1.trans h2).trans h3).trans h4).trans (Paced.codeAt _ [])

theorem Paced.schCommit (ends : Bool) (s : Nat) : Paced p (p.schCommit ends s) := by
  have hU : SCH_DELAY_USE s ∉ pacedRegs := not_paced_above (by unfold SCH_DELAY_USE secBase; omega)
  unfold Part.schCommit
  extract_lets p1 l keep p2 p3
  have h1 : Paced p p1 := Paced.ite _ (Paced.bump p _ (not_paced_above (by unfold SCH_ST_BASE secBase; omega))) (Paced.refl p)
  have h2 : Paced p1 p2 := Paced.ite _ (Paced.refl p1) (Paced.bump p1 _ (not_paced_above (by unfold SCH_STAT_LEFT secBase; omega)))
  have h3 : Paced p2 p3 := Paced.whole p2 rfl
  exact ((h1.trans h2).trans h3).trans (Paced.wr p3 _ hU)

theorem Paced.schReplay (s : Nat) : Paced p (p.schReplay s) := by
  have hU : SCH_DELAY_USE s ∉ pacedRegs := not_paced_above (by unfold SCH_DELAY_USE secBase; omega)
  unfold Part.schReplay
  extract_lets p1
  have h1 : Paced p p1 := Paced.whole p rfl
  exact h1.trans (Paced.wr p1 _ hU)

theorem Paced.optPowers : Paced p p.optPowers := by
  unfold Part.optPowers
  refine Paced.each _ (fun s _ q => ?_) p
  dsimp only
  refine Paced.each _ (fun n _ r => ?_) q
  exact ((Paced.wr r _ (not_paced_above (by unfold OPT_PPOW1 secBase; omega))).trans
    (Paced.wr _ _ (not_paced_above (by unfold OPT_PPOW2 secBase; omega)))).trans (Paced.bump _ _ (not_paced_above (by unfold OPT_PSTEP secBase; omega)))

theorem Paced.seasonAdvance : Paced p p.seasonAdvance := by
  unfold Part.seasonAdvance
  exact Paced.ite _ (Paced.wr p _ (by decide)) (Paced.wr p _ (by decide))

theorem Paced.vintageSwitch : Paced p p.vintageSwitch := by
  unfold Part.vintageSwitch
  extract_lets p1 ts
  have h1 : Paced p p1 := Paced.bump32 p _ (by decide)
  exact h1.trans (Paced.each _ (fun t _ q => Paced.each _ (fun s _ r =>
    Paced.putF r _ _ _ (not_paced_above (by unfold TBL_TPEND secBase; omega))) q) p1)

theorem Paced.lateDrop (c : Nat) (b : HeldBlock) : Paced p (p.lateDrop c b) :=
  (Paced.bump p _ (by decide)).trans (Paced.noteErr _ _ _ (by decide) (by decide))

theorem Paced.inboxCommit (f c : Nat) : Paced p (p.inboxCommit f c) := by
  unfold Part.inboxCommit
  exact (Paced.modHif p _).trans (Paced.each _ (fun b _ q => Paced.lateDrop q c b) _)

theorem Paced.inboxReplay (c : Nat) : Paced p (p.inboxReplay c) := by
  unfold Part.inboxReplay
  exact Paced.modHif p _

theorem Paced.outboxCommit {o : Nat} (ho : o < 8) : Paced p (p.outboxCommit o) := by
  have h := Paced.loadN p 10 0 (p.getF (HIF_OUT_CFG o) 0 40) 4
  unfold Part.outboxCommit
  refine Paced.ite _ (Paced.refl p) ?_
  dsimp only
  exact Paced.ite _ h (h.trans (Paced.wr _ _ (not_paced_below (by unfold HIF_OUT_IDX; omega))))

theorem Paced.outboxAck (o : Nat) : Paced p (p.outboxAck o) := Paced.ite _ (Paced.store p _ _ _ _ _) (Paced.refl p)

theorem Paced.commitTick (ends : Bool) : Paced p (p.commitTick ends) := by
  unfold Part.commitTick
  extract_lets f learning switches p1 p2 p3 a b c p4
  have h1 : Paced p p1 := (Paced.bump p _ (by decide)).trans (Paced.putF _ _ _ _ (by decide))
  have h2 : Paced p1 p2 := Paced.each _ (fun s _ q => Paced.schCommit q ends s) p1
  have h3 : Paced p2 p3 := Paced.ite _ (Paced.optPowers p2) (Paced.refl p2)
  have ha : Paced p3 a := (Paced.wr p3 _ (by decide)).trans (Paced.each _ (fun c _ q => Paced.inboxCommit q f c) _)
  have hb : Paced a b := Paced.modHif a _
  have hc : Paced b c := Paced.ite _ (Paced.vintageSwitch b) (Paced.refl b)
  have h4 : Paced p3 p4 := Paced.ite _ (((ha.trans hb).trans hc).trans (Paced.seasonAdvance c)) (Paced.refl p3)
  exact (((h1.trans h2).trans h3).trans h4).trans (Paced.each _ (fun o ho q => Paced.outboxCommit q (List.mem_range.1 ho)) p4)

theorem Paced.altSwitch : Paced p p.altSwitch := by
  have hf : ∀ (q : Part) d, Paced q (q.fabErr 6 d 0) := fun q d => Paced.noteErr q _ _ (by decide) (by decide)
  unfold Part.altSwitch
  dsimp only
  split
  · exact Paced.refl p
  · refine (Paced.wr p _ (by decide)).trans (Paced.each _ (fun d _ q => ?_) _)
    refine Paced.ite _ (hf q d) ((Paced.putB q _ _ (not_paced_above ?_)).trans (Paced.bump _ _ (by decide)))
    unfold FAB_ALT
    omega

theorem Paced.replayTick : Paced p p.replayTick := by
  unfold Part.replayTick
  extract_lets p1 p2 p3 p4
  have h1 : Paced p p1 := Paced.bump p _ (by decide)
  have h2 : Paced p1 p2 := Paced.putF p1 _ _ _ (by decide)
  have h3 : Paced p2 p3 := (Paced.each _ (fun s _ q => Paced.each _ (fun e _ r => Paced.putHbm r _ _ _) q) p2).trans
    (Paced.each _ (fun s _ q => Paced.schReplay q s) _)
  have h4 : Paced p3 p4 := (Paced.altSwitch p3).trans (Paced.each _ (fun c _ q => Paced.inboxReplay q c) _)
  exact (((h1.trans h2).trans h3).trans h4).trans (Paced.unwinding p4 true)

theorem Paced.loaderSees : Paced p p.loaderSees := by
  unfold Part.loaderSees
  exact (Paced.modMgt p _).trans (Paced.putB _ _ _ (by decide))

theorem Paced.hostLimit : Paced p p.hostLimit := by
  unfold Part.hostLimit
  exact ((Paced.modMgt p _).trans (Paced.loaderSees _)).trans (Paced.putF _ _ _ _ (by decide))

end

end Sys2Proof.Machine
end

section
/-!
SUPPORT. A tick ends one frame and begins the next (R18 to R22, R28, R51).
-/
namespace Sys2Proof.Machine

/-- The work of the frame in the units that keep none of it over a tick. -/
def Part.work (p : Part) : (Sparse Press × Sparse Optim) × (Sparse Rack × Sparse Bucket) × Sparse Core := ((p.press, p.optim), (p.rack, p.buckets), p.cores)

/-- Nothing of a frame has begun: no unit holds work, and a core is as at reset or waits for the clear of its scratchpad (R51, R53). -/
structure Part.Begun (q : Part) : Prop where
  started : q.tick.coresStarted = false
  press : q.press = []
  optim : q.optim = []
  rack : q.rack = []
  buckets : q.buckets = []
  cores : ∀ c, q.core c = Core.reset ∨ q.core c = { Core.reset with st := .clearing }

theorem Part.Begun.of_same {p q : Part} (h : p.Begun) (hs : q.tick.coresStarted = p.tick.coresStarted) (hw : q.work = p.work) : q.Begun := by
  obtain ⟨h1, h2, h3, h4, h5, h6⟩ := h
  simp only [Part.work, Prod.mk.injEq] at hw
  obtain ⟨⟨w1, w2⟩, ⟨w3, w4⟩, w5⟩ := hw
  refine ⟨hs.trans h1, w1.trans h2, w2.trans h3, w3.trans h4, w4.trans h5, fun c => ?_⟩
  rw [Part.core, w5]
  exact h6 c

section
variable (p : Part)

theorem Paced.modSch (s : Nat) (f : Sched → Sched) : Paced p (p.modSch s f) := Paced.whole p rfl

theorem Paced.modUnit (s : Nat) (f : Units → Units) : Paced p (p.modUnit s f) := Paced.whole p rfl

theorem Paced.schReset (s : Nat) : Paced p (p.schReset s) := by
  unfold Part.schReset
  exact Paced.modSch p s _

theorem Paced.evLeft : Paced p p.evLeft := by
  unfold Part.evLeft
  refine Paced.each _ (fun e _ q => ?_) p
  exact Paced.ite _ (Paced.refl q) (Paced.bump q _ (not_paced_above (by unfold COR_STAT_EVLEFT corBase secBase; omega)))

theorem Paced.schLeft (s : Nat) : Paced p (p.schLeft s) := by
  unfold Part.schLeft
  exact Paced.bump p _ (not_paced_above (by unfold SCH_STAT_LEFT secBase; omega))

theorem Paced.discardWork_bumps : Paced p ((p.evLeft.each sectors Part.schLeft).each sectors Part.schReset) := by
  exact ((Paced.evLeft p).trans (Paced.each _ (fun s _ q => Paced.schLeft q s) _)).trans (Paced.each _ (fun s _ q => Paced.schReset q s) _)

theorem Paced.noWork : Paced p { p with cores := [], press := [], optim := [], rack := [], buckets := [] } := ⟨rfl, rfl, id, fun _ _ => rfl⟩

/-- What the discard of the outstanding work leaves (R28): the pace of the part but the start of the cores, and no work. -/
theorem Part.discardWork_discards : ∃ r, Paced p r ∧
    p.discardWork = r.modTick (fun t => { t with arrived := [], signals := [], markerSent := false, markersFrom := [], coresStarted := false }) ∧
    r.press = [] ∧ r.optim = [] ∧ r.rack = [] ∧ r.buckets = [] ∧ r.cores = [] := by
  unfold Part.discardWork
  extract_lets p1 p2 p3
  have h1 : Paced p p1 := Paced.discardWork_bumps p
  have h2 : Paced p1 p2 := Paced.each _ (fun s _ q => Paced.modUnit q s _) p1
  have h3 : Paced p2 p3 := Paced.noWork p2
  exact ⟨p3, (h1.trans h2).trans h3, rfl, rfl, rfl, rfl, rfl, rfl⟩

theorem Part.clear_cores (l : List Nat) (h : ∀ c, p.core c = Core.reset ∨ p.core c = { Core.reset with st := .clearing }) (c : Nat) :
    (p.each l fun p c => p.modCore c fun k => { k with st := .clearing }).core c = Core.reset ∨
      (p.each l fun p c => p.modCore c fun k => { k with st := .clearing }).core c = { Core.reset with st := .clearing } := by
  induction l generalizing p with
  | nil => exact h c
  | cons a l ih =>
    rw [Part.each_cons]
    refine ih _ fun d => ?_
    rw [Part.modCore, Part.core_setCore]
    split
    · rcases h a with ha | ha <;> exact .inr (by rw [ha])
    · exact h d

theorem Paced.modCore (c : Nat) (f : Core → Core) : Paced p (p.modCore c f) := ⟨rfl, rfl, id, fun _ _ => rfl⟩

/-- The new frame's work begins with none of the old (R51, R53). -/
theorem Part.beginWork_begins : p.beginWork.Begun ∧ p.beginWork.cycle = p.cycle ∧ (∀ j ∈ pacedRegs, p.beginWork.rd j = p.rd j) ∧
    (p.obs.frozen = true → p.beginWork.obs.frozen = true) ∧ p.beginWork.beat = (p.modTick fun t => { t with coresStarted := false }).beat := by
  obtain ⟨r, hr, he, h1, h2, h3, h4, h5⟩ := p.discardWork_discards
  obtain ⟨u, hu⟩ : ∃ u, u = p.discardWork.clearSpads := ⟨_, rfl⟩
  have hb : p.beginWork = u.each u.roleCores fun p c => p.modCore c fun k => { k with st := .clearing } := by rw [hu]; rfl
  have hp : Paced u p.beginWork := hb ▸ Paced.each _ (fun c _ q => Paced.modCore q c _) u
  have hsame : ∀ get : Part → Sparse Press × Sparse Optim × Sparse Rack × Sparse Bucket,
      (∀ (q : Part) c f, get (q.modCore c f) = get q) → get p.beginWork = get u := fun get hg => by
    rw [hb, Part.each_get get _ _ _ fun q c => hg q c _]
  have hw := hsame (fun q => (q.press, q.optim, q.rack, q.buckets)) fun _ _ _ => rfl
  have hue : u = { p.discardWork with mem := u.mem } := by rw [hu]; rfl
  rw [he] at hue
  have huw : u.press = [] ∧ u.optim = [] ∧ u.rack = [] ∧ u.buckets = [] ∧ u.cores = [] := by
    rw [hue]
    exact ⟨h1, h2, h3, h4, h5⟩
  obtain ⟨w1, w2, w3, w4, w5⟩ := huw
  simp only [Prod.mk.injEq] at hw
  obtain ⟨b1, b2, b3, b4⟩ := hw
  have hbt : u.beat = (r.modTick fun t => { t with coresStarted := false }).beat := by rw [hue]; rfl
  have hbt' : p.beginWork.beat = (p.modTick fun t => { t with coresStarted := false }).beat := by
    have hrb := hr.beat
    simp only [Part.beat, Prod.mk.injEq] at hrb
    rw [hp.beat, hbt]
    simp [Part.beat, hrb]
  refine ⟨⟨?_, b1.trans w1, b2.trans w2, b3.trans w3, b4.trans w4, fun c => ?_⟩, ?_, fun j hj => ?_, fun hf => hp.frozen ?_, hbt'⟩
  · exact congrArg (fun b => b.2.2.1.2) hbt'
  · rw [hb]
    exact u.clear_cores _ (fun d => .inl (by rw [Part.core, w5]; rfl)) c
  · rw [hp.cycle, hue]
    exact hr.cycle
  · rw [hp.regs j hj, hue]
    exact hr.regs j hj
  · rw [hue]
    exact hr.frozen hf

end

end Sys2Proof.Machine
end

section
/-!
PROOF. A tick is applied (R18 to R22, R28, R51, R53).
-/
namespace Sys2Proof.Machine

section
variable (p : Part)

/-- The cycle and the pulses on TICK_OUT. -/
def Part.pulse (p : Part) : Nat × Nat := (p.cycle, p.power.tickOut)

theorem Paced.pulse {p q : Part} (h : Paced p q) : q.pulse = p.pulse := by
  have hb := h.beat
  simp only [Part.beat, Prod.mk.injEq] at hb
  rw [Part.pulse, Part.pulse, h.cycle, hb.2.2.2]

theorem Part.holdAtZero_pulse : p.holdAtZero.pulse = p.pulse := by
  unfold Part.holdAtZero
  split
  · rfl
  · simp [Part.pulse]

theorem Part.applyTxn_pulse : p.applyTxn.pulse = p.pulse := by
  obtain ⟨r, hs, -, he⟩ := p.applyTxn_applies
  have hb := hs.beat
  simp only [Part.beat, Prod.mk.injEq] at hb
  have hi : ∀ q : Part, q.txnIdle.pulse = q.pulse := fun q => by
    unfold Part.txnIdle
    simp [Part.pulse]
  rw [he, hi]
  change r.holdAtZero.pulse = _
  rw [r.holdAtZero_pulse, Part.pulse, Part.pulse, hs.cycle, hb.2.2.2]

/-- What the tick and barrier unit holds once the frame that a token announced has begun (R42): the beat of a new frame. -/
theorem Part.tickStatus_renews (t : TokenMsg) : (p.tickStatus t).cycle = p.cycle ∧ (∀ j ∈ pacedRegs, (p.tickStatus t).rd j = p.rd j) ∧
    (p.tickStatus t).beat = ((none, none, none), (p.cycle, t.len, t.stretch), (false, p.tick.coresStarted), p.power.tickOut) := by
  unfold Part.tickStatus
  extract_lets marked p1 p2 p3 p4 p5
  have h1 : Paced p p1 := Paced.ite _ ((Paced.putB p _ _ (by decide)).trans (Paced.bump _ _ (by decide))) (Paced.refl p)
  have h2 : Paced p1 p2 := ((Paced.putF p1 _ _ _ (by decide)).trans (Paced.putB _ _ _ (by decide))).trans (Paced.putF _ _ _ _ (by decide))
  have h3 : Paced p2 p3 := (Paced.putB p2 _ _ (by decide)).trans (Paced.putB _ _ _ (by decide))
  have h4 : Paced p3 p4 := Paced.ite _ (Paced.putB p3 _ _ (by decide)) (Paced.putB p3 _ _ (by decide))
  have h5 : Paced p4 p5 := (Paced.wr p4 _ (by decide)).trans (Paced.bump _ _ (by decide))
  have h := ((((h1.trans h2).trans h3).trans h4).trans h5)
  have hb := h.beat
  simp only [Part.beat, Prod.mk.injEq] at hb
  refine ⟨h.cycle, fun j hj => ((Part.modTick_sameAt _ _).1).trans (h.regs j hj), ?_⟩
  simp [Part.beat, hb, h.cycle]

theorem Part.outboxAck_work (o : Nat) : (p.outboxAck o).work = p.work := by
  unfold Part.outboxAck
  split
  · simp [Part.work]
  · rfl

theorem Part.trace_work (b kind pair core a v : Nat) : (p.trace b kind pair core a v).work = p.work := by simp [Part.work]

theorem Part.failCause_work (c : Nat) : (p.failCause c).work = p.work := by simp [Part.work]

theorem QueueWork.paced {p q : Part} (h : QueueWork p q) : Paced p q := by
  obtain ⟨he, hr⟩ := h
  refine ⟨by rw [he], by rw [he]; rfl, fun hf => by rw [he]; exact hf, fun j hj => hr j ?_⟩
  have hall : ∀ j ∈ pacedRegs, offQueues j := by
    unfold offQueues
    decide
  exact hall j hj

theorem QueueWork.work {p q : Part} (h : QueueWork p q) : q.work = p.work := by rw [h.1]; rfl

theorem Part.quiesceDone_paced : Paced p p.quiesceDone ∧ p.quiesceDone.work = p.work := by
  by_cases hq : p.tick.quiesced = true ∧ p.tick.stopAfter = true ∧ p.tick.token = none
  · obtain ⟨h1, h2, h3⟩ := hq
    rw [p.quiesceDone_eq h1 h2 h3]
    have hw := ((p.modTick fun t => { t with quiesced := false }).endQuiesces_work (List.range 8)) |>.2
    exact ⟨(Paced.modTick p _ rfl).trans hw.paced, hw.work⟩
  · have he : p.quiesceDone = p := by
      unfold Part.quiesceDone
      rw [if_pos]
      cases h1 : p.tick.quiesced with
      | false => rfl
      | true =>
        cases h2 : p.tick.stopAfter with
        | false => rfl
        | true => simpa [h1, h2, Option.isSome_iff_ne_none] using hq
    rw [he]
    exact ⟨Paced.refl p, rfl⟩

/-- A new frame waits for no tick, from the present cycle on. -/
theorem Part.holdAtZero_renewed {x : Nat × Nat × Nat} {y : Bool × Bool} {n : Nat} (h : p.beat = ((none, none, none), x, y, n)) :
    p.holdAtZero.cycle = p.cycle ∧ p.holdAtZero.beat = p.beat ∧ p.holdAtZero.obs = p.obs := by
  simp only [Part.beat, Prod.mk.injEq] at h
  unfold Part.holdAtZero
  split
  · exact ⟨rfl, rfl, rfl⟩
  · simp [Part.beat, h]

theorem Part.Begun.holdAtZero {p : Part} (h : p.Begun) : p.holdAtZero.Begun := by
  obtain ⟨h1, h2, h3, h4, h5, h6⟩ := h
  unfold Part.holdAtZero
  split
  · exact ⟨h1, h2, h3, h4, h5, h6⟩
  · refine ⟨by simp [h1], by simp [h2], by simp [h3], by simp [h4], by simp [h5], fun c => .inl ?_⟩
    simp [Part.core]
    rfl

/-- The work of the new frame begins, but not on a part that is frozen (R512). -/
theorem Part.frameWork_begins {w : Option Token × Option Nat × Option Nat} {x : Nat × Nat × Nat} {g c : Bool} {n : Nat}
    (hb : p.beat = (w, x, (g, c), n)) : ∀ {q : Part}, q = (if p.obs.frozen then p.modObs fun o => { o with clearPending := true } else p.beginWork) →
      q.cycle = p.cycle ∧ (∀ j ∈ pacedRegs, q.rd j = p.rd j) ∧ (∃ b, q.beat = (w, x, (g, b), n)) ∧ (q.obs.frozen = false → q.Begun) := by
  rintro q rfl
  cases hf : p.obs.frozen with
  | true =>
    rw [if_pos rfl]
    refine ⟨rfl, fun _ _ => rfl, ⟨c, hb⟩, fun hn => ?_⟩
    rw [show (p.modObs fun o => { o with clearPending := true }).obs.frozen = p.obs.frozen from rfl, hf] at hn
    cases hn
  | false =>
    rw [if_neg Bool.false_ne_true]
    obtain ⟨hbe, hbc, hbr, -, hbb⟩ := p.beginWork_begins
    refine ⟨hbc, hbr, ⟨false, ?_⟩, fun _ => hbe⟩
    simp only [Part.beat, Prod.mk.injEq] at hb
    rw [hbb]
    simp [Part.beat, hb]

/-- An armed transaction is applied at its tick, with the cycle and the pulses as they are (R443). -/
theorem Part.armed_applies (t : TokenMsg) : ∀ {r : Part}, r = (if !t.replay && p.txnState == 3 && p.txn.armedFor ≤ t.count then p.applyTxn else p) →
    r.pulse = p.pulse ∧ (p.txnState ≠ 3 → r = p) := by
  rintro r rfl
  split
  · rename_i hc
    simp only [Bool.and_eq_true, beq_iff_eq] at hc
    exact ⟨p.applyTxn_pulse, fun hn => absurd hc.1.2 hn⟩
  · exact ⟨rfl, fun _ => rfl⟩

/-- What follows the begin of the frame keeps its pace and its work: the read indices of outboxes, two trace records, the failure of a
wrong count and the end of a QUIESCE (R21, R408, R417). -/
theorem Part.afterBegin_keeps (wrong : Bool) {p8 p9 p10 : Part} (e8 : p8 = p.each (List.range 8) Part.outboxAck)
    (e9 : p9 = (p8.trace 4 1 0 0xFFFF p8.tickCount p8.frameNo).trace 4 2 0 0xFFFF 0 0) (e10 : p10 = if wrong then p9.failCause 7 else p9) :
    Paced p p10.quiesceDone ∧ p10.quiesceDone.work = p.work := by
  have h8 : Paced p p8 := e8 ▸ Paced.each _ (fun o _ q => Paced.outboxAck q o) p
  have h9 : Paced p8 p9 := e9 ▸ (Paced.trace p8 _ _ _ _ _ _).trans (Paced.trace _ _ _ _ _ _ _)
  have h10 : Paced p9 p10 := e10 ▸ Paced.ite _ (Paced.failCause p9 7) (Paced.refl p9)
  have w8 : p8.work = p.work := e8 ▸ Part.each_get Part.work _ _ _ fun q o => q.outboxAck_work o
  have w9 : p9.work = p8.work := e9 ▸ (Part.trace_work _ _ _ _ _ _ _).trans (Part.trace_work _ _ _ _ _ _ _)
  have w10 : p10.work = p9.work := by
    rw [e10]
    split
    · exact p9.failCause_work 7
    · rfl
  obtain ⟨hq, hqw⟩ := p10.quiesceDone_paced
  exact ⟨((h8.trans h9).trans h10).trans hq, hqw.trans (w10.trans (w9.trans w8))⟩

theorem Paced.ctlTick (s : Nat) : Paced p (p.ctlTick s) := by
  unfold Part.ctlTick
  exact Paced.whole _ rfl

theorem Paced.twinTick (b : Bool) : Paced p (p.twinTick b) := by
  unfold Part.twinTick
  exact Paced.whole _ rfl

/-- A tick is applied, up to the hold of a part that takes none (R18 to R22, R28): the present cycle begins the frame of the token. -/
theorem Part.applyTick_holds (t : TokenMsg) : ∃ r : Part, p.applyTick t = r.holdAtZero ∧
    (∃ b, r.beat = ((none, none, none), (p.cycle, t.len, t.stretch), (false, b), p.power.tickOut)) ∧ r.cycle = p.cycle ∧
    (p.txnState ≠ 3 → r.rd TIK_CTRL = p.rd TIK_CTRL ∧ r.tickCount = t.count % 2 ^ 64) ∧ (r.obs.frozen = false → r.Begun) := by
  unfold Part.applyTick
  extract_lets ends wrong p1 p2 p3 p4 p5 p6 p7 p8 p9 p10
  have h1 : Paced p p1 := Paced.closeFrame p
  have h2 : Paced p1 p2 := Paced.ite _ (Paced.replayTick p1) (Paced.commitTick p1 ends)
  have h3 : Paced p2 p3 := (Paced.each _ (fun s _ q => Paced.ctlTick q s) p2).trans (Paced.twinTick _ t.replay)
  have h03 := (h1.trans h2).trans h3
  have hx3 : p3.txnState = p.txnState := by
    unfold Part.txnState Part.getF
    rw [h03.regs _ (by decide)]
  have h4 : p4.txnState = p3.txnState := (Part.wr_off p3 TIK_COUNT t.count (by decide)).2.2 _ _
  obtain ⟨h45, h54⟩ := p4.armed_applies t (r := p5) rfl
  have h5 : p5.pulse = p.pulse := h45.trans h03.pulse
  replace h54 := fun hn : p.txnState ≠ 3 => h54 (h4.trans hx3 ▸ hn)
  simp only [Part.pulse, Prod.mk.injEq] at h5
  obtain ⟨hft, hfr, hfb⟩ := p5.fabTick.tickStatus_renews t
  have h6 : Paced (p5.fabTick.tickStatus t) p6 := Paced.hostLimit _
  have hc6 : p6.cycle = p.cycle := h6.cycle.trans (hft.trans h5.1)
  have hb6 : ∃ b, p6.beat = ((none, none, none), (p.cycle, t.len, t.stretch), (false, b), p.power.tickOut) :=
    ⟨_, by rw [h6.beat, hfb, ← h5.1, ← h5.2]; rfl⟩
  have hr6 : ∀ j ∈ pacedRegs, p6.rd j = p5.rd j := fun j hj => (h6.regs j hj).trans (hfr j hj)
  obtain ⟨b', hb6⟩ := hb6
  obtain ⟨hc7, hr7, ⟨b, hb7⟩, hw7⟩ := p6.frameWork_begins hb6 (q := p7) rfl
  obtain ⟨h11, hw11⟩ := p7.afterBegin_keeps wrong (p8 := p8) rfl (p9 := p9) rfl (p10 := p10) rfl
  refine ⟨p10.quiesceDone, rfl, ⟨b, h11.beat.trans hb7⟩, h11.cycle.trans (hc7.trans hc6), fun hx => ?_, fun hf => ?_⟩
  · have hr : ∀ j ∈ pacedRegs, p10.quiesceDone.rd j = p4.rd j := fun j hj => by rw [h11.regs j hj, hr7 j hj, hr6 j hj, h54 hx]
    constructor
    · rw [hr _ (by decide), Part.rd_wr_other _ _ (by decide), h03.regs _ (by decide)]
    · rw [Part.tickCount, hr _ (by decide), Part.rd_wr_same]
  · have hf7 : p7.obs.frozen = false := by
      cases hp : p7.obs.frozen with
      | false => rfl
      | true => exact absurd ((h11.frozen hp).symm.trans hf) (by decide)
    refine (hw7 hf7).of_same ?_ hw11
    have hb := h11.beat
    simp only [Part.beat, Prod.mk.injEq] at hb
    exact hb.2.2.1.2

/-- A tick is applied (R18 to R22, R28): the present cycle begins the frame that the token announced. -/
theorem Part.applyTick_begins (t : TokenMsg) :
    (∃ b, (p.applyTick t).beat = ((none, none, none), (p.cycle, t.len, t.stretch), (false, b), p.power.tickOut)) ∧
    (p.applyTick t).cycle = p.cycle ∧
    (p.txnState ≠ 3 → p.getB TIK_CTRL 0 = true → (p.applyTick t).tickCount = t.count % 2 ^ 64) ∧
    ((p.applyTick t).obs.frozen = false → (p.applyTick t).Begun) := by
  obtain ⟨r, he, ⟨b, hb⟩, hc, hn, hf⟩ := p.applyTick_holds t
  obtain ⟨hzc, hzb, hzo⟩ := r.holdAtZero_renewed hb
  rw [he]
  refine ⟨⟨b, hzb.trans hb⟩, hzc.trans hc, fun hx hrun => ?_, fun hz => (hf ((congrArg Obs.frozen hzo).symm.trans hz)).holdAtZero⟩
  obtain ⟨hctrl, hcnt⟩ := hn hx
  rw [Part.holdAtZero_running _ (by rw [← hrun, Part.getB, Part.getB, hctrl]), hcnt]

end

section
variable (s : State) (k : Token)

/-- A tick that is applied at a cycle, when the clock has gone there, begins the frame of its token at that cycle. -/
theorem Part.applyTick_at {p r : Part} {at' : Nat} (hc : r.cycle = max p.cycle at') (hx : r.txnState = p.txnState)
    (hb : r.getB TIK_CTRL 0 = p.getB TIK_CTRL 0) :
    let q := r.applyTick k.msg
    q.cycle = max p.cycle at' ∧ q.tick.token = none ∧ q.tick.edge = none ∧ q.tick.treeEdge = none ∧ q.tick.frameStart = q.cycle ∧
      (p.txnState ≠ 3 → p.getB TIK_CTRL 0 = true → q.tickCount = k.msg.count % 2 ^ 64) ∧ q.tick.frameLen = k.msg.len ∧
        q.tick.frameStretch = k.msg.stretch ∧ q.tick.guardDone = false ∧
      (q.obs.frozen = false → q.tick.coresStarted = false ∧ q.press = [] ∧ q.optim = [] ∧ q.rack = [] ∧ q.buckets = [] ∧
        ∀ c, q.core c = Core.reset ∨ q.core c = { Core.reset with st := .clearing }) := by
  intro q
  obtain ⟨⟨b, hbeat⟩, hcyc, hcnt, hwork⟩ := r.applyTick_begins k.msg
  simp only [Part.beat, Prod.mk.injEq] at hbeat
  obtain ⟨⟨h1, h2, h3⟩, ⟨h4, h5, h6⟩, ⟨h7, -⟩, -⟩ := hbeat
  refine ⟨hcyc.trans hc, h1, h2, h3, h4.trans hcyc.symm, fun h h' => hcnt (hx ▸ h) (hb.trans h'), h5, h6, h7, fun hf => ?_⟩
  obtain ⟨w1, w2, w3, w4, w5, w6⟩ := hwork hf
  exact ⟨w1, w2, w3, w4, w5, w6⟩

end

section
variable {s : State} {k : Token} (hc : s.p.clocked = true) (ht : s.p.tick.token = some k)
include hc ht

theorem tickApply_byToken (hm : s.p.getB TIK_CTRL 1 = true) : Becomes .tickApply s ((s.p.clockTo k.due).applyTick k.msg) := by
  change execTickApply s = _
  unfold execTickApply State.run
  dsimp only
  rw [ht]
  dsimp only
  rw [hc, hm, if_neg (by decide), if_pos rfl]

theorem tickApply_byEdge (hm : s.p.getB TIK_CTRL 1 = false) {e : Nat} (he : s.p.tick.treeEdge = some e) :
    Becomes .tickApply s ((s.p.clockTo e).applyTick k.msg) := by
  change execTickApply s = _
  unfold execTickApply State.run
  dsimp only
  rw [ht]
  dsimp only
  rw [hc, hm, if_neg (by decide), if_neg Bool.false_ne_true, he]

theorem tickFallback_falls (hm : s.p.getB TIK_CTRL 1 = false) (he : s.p.tick.treeEdge = none) : Becomes .tickFallback s (s.p.fallback k) := by
  change execTickFallback s = _
  unfold execTickFallback State.run
  dsimp only
  rw [ht]
  dsimp only
  rw [hc, hm, he, if_neg (by decide)]

end

theorem Part.clockTo_paced (p : Part) (t : Nat) {j : Nat} (hj : j ∈ pacedRegs) : (p.clockTo t).SameAt p j := by
  have hall : ∀ j ∈ pacedRegs, j ≠ HIF_STAT_CRWAIT := by decide
  exact Part.clockTo_off p t (pacedRegs_hub j hj).1 (hall j hj)

/-- Settles O22: applying a tick begins the frame that its token announced, at the cycle of the tick. -/
theorem ticksApply : Obligations.TicksApply := by
  intro s k p begins hc ht
  have hx : ∀ t, (p.clockTo t).txnState = p.txnState := fun t => (p.clockTo_paced t (j := TIK_TXN_STATE) (by decide)).2.2 _ _
  have hb : ∀ t, (p.clockTo t).getB TIK_CTRL 0 = p.getB TIK_CTRL 0 := fun t => (p.clockTo_paced t (j := TIK_CTRL) (by decide)).2.1 _
  have hat : ∀ t, begins ((p.clockTo t).applyTick k.msg) t := fun t => Part.applyTick_at k (p.clockTo_cycle t) (hx t) (hb t)
  refine ⟨fun hm => ⟨_, tickApply_byToken hc ht hm, hat k.due⟩, fun e hm he => ⟨_, tickApply_byEdge hc ht hm he, hat e⟩,
    fun hm he => ⟨_, tickFallback_falls hc ht hm he, ?_⟩⟩
  refine Part.applyTick_at k ?_ (((p.clockTo (k.due + 64)).putB_off TIK_STICKY 0 true (by decide)).2.2 _ _ |>.trans (hx _))
    (((p.clockTo (k.due + 64)).putB_off TIK_STICKY 0 true (by decide)).2.1 _ |>.trans (hb _))
  simp [p]

end Sys2Proof.Machine
end

section
/-!
PROOF. Edges on TICK_IN (R18, R20, R306).
-/
namespace Sys2Proof.Machine

/-- The pulse that an edge on TICK_IN sends on (R18). -/
def Part.edgeOut (p : Part) : Part := p.modPower fun w => { w with tickOut := w.tickOut + 1 }

section
variable (p : Part)

/-- An edge that is held waits for its token (R20). -/
theorem Part.holdEdge_holds (h : p.tick.edge = none) : p.holdEdge = p.modTick fun t => { t with edge := some p.cycle } := by
  rw [Part.holdEdge, h, if_neg (by decide)]

theorem Part.edgeOut_reads (j : Nat) : p.edgeOut.SameAt p j := Part.sameAt_of_rd rfl

theorem Part.strayEdge_counts : p.strayEdge.tick = p.tick ∧ p.strayEdge.cycle = p.cycle ∧
    p.strayEdge.getF TIK_STATUS 24 8 = min 255 (p.getF TIK_STATUS 24 8 + 1) := by
  unfold Part.strayEdge
  refine ⟨by simp, by simp, ?_⟩
  rw [Part.getF_putF_same _ _ _ _ _ (by decide)]
  omega

/-- A tick that falls 64 cycles late (R20) begins the frame of its token. -/
theorem Part.fallback_begins (k : Token) : (p.fallback k).cycle = max p.cycle (k.due + 64) ∧ (p.fallback k).tick.token = none ∧
    (p.fallback k).tick.edge = none ∧ (p.fallback k).tick.treeEdge = none ∧ (p.fallback k).power.tickOut = p.power.tickOut := by
  unfold Part.fallback
  obtain ⟨⟨b, hb⟩, hc, -, -⟩ := ((p.clockTo (k.due + 64)).putB TIK_STICKY 0 true).applyTick_begins k.msg
  simp only [Part.beat, Prod.mk.injEq] at hb
  obtain ⟨⟨h1, h2, h3⟩, -, -, h4⟩ := hb
  exact ⟨hc.trans (by simp), h1, h2, h3, h4.trans (by simp)⟩

end

section
variable {s : State} (hc : s.p.clocked = true)
include hc

theorem tickInEdge_passes (hm : s.p.getB TIK_CTRL 1 = true) : Becomes .tickInEdge s s.p.edgeOut := by
  change execTickInEdge s = _
  unfold execTickInEdge State.run
  dsimp only
  rw [hc, if_neg (by decide), ← Part.edgeOut, (s.p.edgeOut_reads TIK_CTRL).2.1, hm, Bool.true_or, if_pos rfl]

theorem journalUnwindDone_ends : Becomes .journalUnwindDone s (s.p.modTick fun t => { t with unwinding := false }) := by
  change execJournalUnwindDone s = _
  unfold execJournalUnwindDone State.run
  dsimp only
  rw [hc, if_pos rfl]

theorem strayEdgeDiscard_discards {e : Nat} (he : s.p.tick.edge = some e) : ∃ q, Becomes .strayEdgeDiscard s q ∧
    q.tick = { s.p.tick with edge := none } ∧ q.cycle = max s.p.cycle (e + s.p.rd TIK_LEAD) ∧
    q.getF TIK_STATUS 24 8 = min 255 (s.p.getF TIK_STATUS 24 8 + 1) := by
  obtain ⟨r, hr⟩ : ∃ r, r = (s.p.clockTo (e + s.p.rd TIK_LEAD)).modTick fun t => { t with edge := none } := ⟨_, rfl⟩
  obtain ⟨h1, h2, h3⟩ := r.strayEdge_counts
  refine ⟨r.strayEdge, ?_, h1.trans (by rw [hr]; simp), h2.trans (by rw [hr]; simp), h3.trans ?_⟩
  · change execStrayEdgeDiscard s = _
    unfold execStrayEdgeDiscard State.run
    dsimp only
    rw [he]
    dsimp only
    rw [hc, if_neg (by decide), hr]
  · rw [hr, (Part.modTick_sameAt _ _).2.2, (Part.clockTo_off s.p _ (by decide) (by decide)).2.2]

variable (hm : s.p.getB TIK_CTRL 1 = false) (hon : s.p.getB TIK_CTRL 0 = true)
include hm hon

theorem tickInEdge_held (ht : s.p.tick.token = none) (he : s.p.tick.edge = none) :
    Becomes .tickInEdge s (s.p.edgeOut.modTick fun t => { t with edge := some s.p.cycle }) := by
  have ht' : s.p.edgeOut.tick.token = none := ht
  change execTickInEdge s = _
  unfold execTickInEdge State.run
  dsimp only
  rw [hc, if_neg (by decide), ← Part.edgeOut, (s.p.edgeOut_reads TIK_CTRL).2.1, (s.p.edgeOut_reads TIK_CTRL).2.1, hm, hon, if_neg (by decide), ht']
  dsimp only
  rw [s.p.edgeOut.holdEdge_holds he]
  rfl

variable {k : Token} (ht : s.p.tick.token = some k) (he : s.p.tick.treeEdge = none)
include ht he

theorem tickInEdge_dated (hl : s.p.cycle + s.p.rd TIK_DELAY_COMP ≤ k.due + 64) : ∃ q, Becomes .tickInEdge s q ∧
    q.tick = { s.p.tick with treeEdge := some (s.p.cycle + s.p.rd TIK_DELAY_COMP) } ∧ q.power.tickOut = s.p.power.tickOut + 1 ∧
    q.getB TIK_STICKY 1 = (s.p.getB TIK_STICKY 1 || decide (4 < cycleGap (s.p.cycle + s.p.rd TIK_DELAY_COMP) k.due)) := by
  have ht' : s.p.edgeOut.tick.token = some k := ht
  have he' : s.p.edgeOut.tick.treeEdge = none := he
  have hy : s.p.edgeOut.cycle = s.p.cycle := rfl
  obtain ⟨e, hE⟩ : ∃ e, e = s.p.cycle + s.p.rd TIK_DELAY_COMP := ⟨_, rfl⟩
  obtain ⟨r, hr⟩ : ∃ r, r = if cycleGap e k.due > 4 then s.p.edgeOut.putB TIK_STICKY 1 true else s.p.edgeOut := ⟨_, rfl⟩
  have hrk : r.tick = s.p.tick ∧ r.power.tickOut = s.p.power.tickOut + 1 ∧
      r.getB TIK_STICKY 1 = (s.p.getB TIK_STICKY 1 || decide (4 < cycleGap e k.due)) := by
    rw [hr]
    by_cases hg : cycleGap e k.due > 4
    · rw [if_pos hg, Part.getB_putB_same _ _ _ _ (by decide), decide_eq_true hg, Bool.or_true]
      exact ⟨by simp [Part.edgeOut], by simp [Part.edgeOut], rfl⟩
    · rw [if_neg hg, decide_eq_false hg, Bool.or_false]
      exact ⟨rfl, rfl, (s.p.edgeOut_reads TIK_STICKY).2.1 1⟩
  obtain ⟨r1, r2, r3⟩ := hrk
  rw [← hE] at hl ⊢
  refine ⟨r.modTick fun t => { t with treeEdge := some e }, ?_, by rw [← r1]; rfl, r2, ((Part.modTick_sameAt _ _).2.1 1).trans r3⟩
  change execTickInEdge s = _
  unfold execTickInEdge State.run
  dsimp only
  rw [hc, if_neg (by decide), ← Part.edgeOut, (s.p.edgeOut_reads TIK_CTRL).2.1, (s.p.edgeOut_reads TIK_CTRL).2.1, hm, hon, if_neg (by decide), ht']
  dsimp only
  rw [he', hy, (s.p.edgeOut_reads TIK_DELAY_COMP).1, ← hE, if_neg (by decide), if_neg (by omega), ← hr]

theorem tickInEdge_late (hl : k.due + 64 < s.p.cycle + s.p.rd TIK_DELAY_COMP) : ∃ q, Becomes .tickInEdge s q ∧
    q.cycle = max s.p.cycle (k.due + 64) ∧ q.tick.token = none ∧ q.tick.treeEdge = none ∧ q.tick.edge = some q.cycle ∧
    q.power.tickOut = s.p.power.tickOut + 1 := by
  have ht' : s.p.edgeOut.tick.token = some k := ht
  have he' : s.p.edgeOut.tick.treeEdge = none := he
  have hy : s.p.edgeOut.cycle = s.p.cycle := rfl
  obtain ⟨f1, f2, f3, f4, f5⟩ := s.p.edgeOut.fallback_begins k
  refine ⟨(s.p.edgeOut.fallback k).modTick fun t => { t with edge := some (s.p.edgeOut.fallback k).cycle }, ?_, f1, f2, f4, rfl, f5⟩
  change execTickInEdge s = _
  unfold execTickInEdge State.run
  dsimp only
  rw [hc, if_neg (by decide), ← Part.edgeOut, (s.p.edgeOut_reads TIK_CTRL).2.1, (s.p.edgeOut_reads TIK_CTRL).2.1, hm, hon, if_neg (by decide), ht']
  dsimp only
  rw [he', hy, (s.p.edgeOut_reads TIK_DELAY_COMP).1, if_neg (by decide), if_pos hl, Part.holdEdge_holds _ f3]

end

/-- Settles O21: what an edge on TICK_IN does, with and without a token, and what ends the wait for one. -/
theorem tickEdges : Obligations.TickEdges := by
  intro s p hc
  exact ⟨fun hm => tickInEdge_passes hc hm, fun hm hon ht he => tickInEdge_held hc hm hon ht he,
    fun k hm hon ht he hl => tickInEdge_dated hc hm hon ht he hl, fun k hm hon ht he hl => tickInEdge_late hc hm hon ht he hl,
    fun e he => strayEdgeDiscard_discards hc he, journalUnwindDone_ends hc⟩

end Sys2Proof.Machine
end

section
/-!
PROOF. Statuses, stretches, holds and the standby (R25, R26, R35, R42, R44, R47, R529).
-/
namespace Sys2Proof.Machine

section
variable {s : State} {k : Packet}

theorem Part.takeRx_reads (p : Part) (q : Packet) (j : Nat) : (p.takeRx q).SameAt p j := Part.sameAt_of_rd rfl

section
variable (hr : s.p.role ≠ 0) (hk : s.p.flagPacket 4 = some k)
include hr hk

theorem frameStatusReceive_keeps (hn : leAt k.payload 0 8 = s.p.tickCount) (ht : s.p.tick.tokenSent ≤ s.p.tickCount) (hm : k.src ∈ s.p.tick.members)
    (hu : ∀ x ∈ s.p.tick.statuses, x.chip ≠ k.src) :
    Becomes .frameStatusReceive s ((s.p.takeRx k).modTick fun t => { t with statuses := t.statuses ++
      [⟨k.src, leAt k.payload 8 1 == 0, leAt k.payload 9 1, bit (leAt k.payload 10 1) 0⟩] }) := by
  have hfind : (s.p.tick.statuses.find? fun y => y.chip == k.src) = none :=
    List.find?_eq_none.2 fun x hx => by simpa using hu x hx
  have hkeep : ∀ x : Status, x.chip = k.src → (s.p.takeRx k).keepStatus x = (s.p.takeRx k).modTick fun t => { t with statuses := t.statuses ++ [x] } := by
    intro x hx
    have hf : ((s.p.takeRx k).tick.statuses.find? fun y => y.chip == x.chip) = none := hx ▸ hfind
    rw [Part.keepStatus, hf]
  have hcond : (decide (leAt k.payload 0 8 ≠ (s.p.takeRx k).tickCount) || decide ((s.p.takeRx k).tick.tokenSent > (s.p.takeRx k).tickCount) ||
      !(s.p.takeRx k).tick.members.contains k.src) = false := by
    have h1 : (s.p.takeRx k).tickCount = s.p.tickCount := rfl
    have h2 : (s.p.takeRx k).tick = s.p.tick := rfl
    rw [h1, h2, Bool.or_eq_false_iff, Bool.or_eq_false_iff]
    exact ⟨⟨by simp [hn], by simp [ht]⟩, by simpa using hm⟩
  change execFrameStatusReceive s = _
  unfold execFrameStatusReceive State.run
  dsimp only
  rw [hk]
  dsimp only
  rw [if_neg hr, if_neg (by rw [hcond]; decide), hkeep _ rfl]

theorem frameStatusReceive_late (h : leAt k.payload 0 8 ≠ s.p.tickCount ∨ s.p.tickCount < s.p.tick.tokenSent ∨ k.src ∉ s.p.tick.members) :
    ∃ q, Becomes .frameStatusReceive s q ∧ q.tick = s.p.tick ∧ q.fab = { s.p.fab with rx := s.p.fab.rx.erase k } ∧
      q.rd TIK_STAT_LATE = (s.p.rd TIK_STAT_LATE + 1) % 2 ^ 64 := by
  have hcond : (decide (leAt k.payload 0 8 ≠ (s.p.takeRx k).tickCount) || decide ((s.p.takeRx k).tick.tokenSent > (s.p.takeRx k).tickCount) ||
      !(s.p.takeRx k).tick.members.contains k.src) = true := by
    have h1 : (s.p.takeRx k).tickCount = s.p.tickCount := rfl
    have h2 : (s.p.takeRx k).tick = s.p.tick := rfl
    rw [h1, h2]
    simpa [or_assoc] using h
  refine ⟨(s.p.takeRx k).bump TIK_STAT_LATE 1, ?_, by simp [Part.takeRx], by simp [Part.takeRx], ?_⟩
  · change execFrameStatusReceive s = _
    unfold execFrameStatusReceive State.run
    dsimp only
    rw [hk]
    dsimp only
    rw [if_neg hr, if_pos hcond]
  · rw [Part.rd_bump_same, (s.p.takeRx_reads k TIK_STAT_LATE).1]

end

theorem stretchRequestReceive_keeps (hr : s.p.role ≠ 0) (hk : s.p.flagPacket 5 = some k) :
    Becomes .stretchRequestReceive s ((s.p.takeRx k).modTick fun t => { t with stretch := max t.stretch (leAt k.payload 0 4 % 2 ^ 27) }) := by
  change execStretchRequestReceive s = _
  unfold execStretchRequestReceive State.run
  dsimp only
  rw [hk]
  dsimp only
  simp only [if_neg hr]

theorem Part.setHolds_sets (p : Part) (l : List Hold) : (p.setHolds l).tick.holds = l ∧ (p.setHolds l).tick.lapses = p.tick.lapses := by
  unfold Part.setHolds
  dsimp only
  repeat' split
  all_goals exact ⟨rfl, by simp⟩

/-- The last hold gone, the cycles of the hold are counted (R44, R47). -/
theorem Part.setHolds_ends (p : Part) (h : p.tick.holds ≠ []) :
    (p.setHolds []).rd TIK_STAT_HOLD = (p.rd TIK_STAT_HOLD + (p.cycle - p.tick.holdSince)) % 2 ^ 64 := by
  have he : p.tick.holds.isEmpty = false := by simpa using h
  unfold Part.setHolds
  dsimp only
  rw [he, if_neg (by decide), if_pos (by decide), (Part.modTick_sameAt _ _).1, (Part.modTick_sameAt _ _).1, Part.rd_bump_same]

theorem holdPacketReceive_holds (hr : s.p.role ≠ 0) (hk : s.p.flagPacket 6 = some k) :
    ∃ q, Becomes .holdPacketReceive s q ∧ q.fab = { s.p.fab with rx := s.p.fab.rx.erase k } ∧
      q.tick.holds = (s.p.tick.holds.filter fun h => !(h.chip == k.src && h.source == k.ref)) ++ [⟨k.src, k.ref, s.p.cycle⟩] := by
  refine ⟨_, ?_, ?_, ((s.p.takeRx k).setHolds_sets _).1⟩
  · change execHoldPacketReceive s = _
    unfold execHoldPacketReceive State.run
    dsimp only
    rw [hk]
    dsimp only
    rw [if_neg hr]
  · simp [Part.takeRx]

theorem releasePacketReceive_releases (hk : s.p.flagPacket 7 = some k) :
    let left := s.p.tick.holds.filter fun h => !(h.chip == k.src && h.source == k.ref)
    ∃ q, Becomes .releasePacketReceive s q ∧ q.fab = { s.p.fab with rx := s.p.fab.rx.erase k } ∧ q.tick.holds = left ∧
      (s.p.tick.holds ≠ [] → left = [] → q.rd TIK_STAT_HOLD = (s.p.rd TIK_STAT_HOLD + (s.p.cycle - s.p.tick.holdSince)) % 2 ^ 64) := by
  intro left
  refine ⟨(s.p.takeRx k).setHolds left, ?_, by simp [Part.takeRx], ((s.p.takeRx k).setHolds_sets _).1, fun hne hl => ?_⟩
  · change execReleasePacketReceive s = _
    unfold execReleasePacketReceive State.run
    dsimp only
    rw [hk]
  · rw [hl]
    exact (s.p.takeRx k).setHolds_ends hne

theorem holdLapse_lapses {chip source : Nat} {h : Hold} (hr : s.p.role = 1)
    (hf : (s.p.tick.holds.find? fun x => x.chip == chip && x.source == source) = some h) :
    ∃ q, Becomes (.holdLapse chip source) s q ∧ q.tick.holds = s.p.tick.holds.erase h ∧ q.tick.lapses = s.p.tick.lapses + 1 ∧
      q.cycle = max s.p.cycle (h.heard + 1000000) := by
  obtain ⟨r, hre⟩ : ∃ r, r = s.p.clockTo (h.heard + 1000000) := ⟨_, rfl⟩
  have hrk : r.tick = s.p.tick ∧ r.cycle = max s.p.cycle (h.heard + 1000000) := by rw [hre]; simp
  obtain ⟨rt, rc⟩ := hrk
  have hh := r.setHolds_sets (r.tick.holds.erase h)
  rw [rt] at hh
  obtain ⟨h1, h2⟩ := hh
  refine ⟨((r.setHolds (r.tick.holds.erase h)).modTick fun t => { t with lapses := t.lapses + 1 }).err { mkErr 13 130 0 with loc0 := chip, loc1 := source },
    ?_, ?_, ?_, by simp [rc]⟩
  · change execHoldLapse chip source s = _
    unfold execHoldLapse State.run
    dsimp only
    rw [hf]
    dsimp only
    rw [if_neg (by simp [hr]), ← hre]
  · simpa [rt] using h1
  · simp [rt, h2]

theorem standbyTakeover_takes (hr : s.p.role = 2) (hc : s.p.clocked = true) (hi : s.p.inFrame = true) (hh : s.p.getB TIK_STATUS 11 = false)
    (hl : s.p.tick.holds = []) (ht : s.p.tick.token = none) :
    ∃ q, Becomes .standbyTakeover s q ∧ q.role = 1 ∧ q.tick = { s.p.tick with resumeReplay := true, stopAfter := false } ∧ q.mem = s.p.mem ∧
      q.cycle = max s.p.cycle (s.p.tick.tokenSeenAt + s.p.getF TIK_REPLAY 8 8 * 10 * (s.p.tick.frameLen + s.p.tick.frameStretch)) := by
  obtain ⟨r, hre⟩ : ∃ r, r = s.p.clockTo (s.p.tick.tokenSeenAt + s.p.getF TIK_REPLAY 8 8 * 10 * (s.p.tick.frameLen + s.p.tick.frameStretch)) := ⟨_, rfl⟩
  refine ⟨(r.putF TIK_STATUS 5 2 1).modTick fun t => { t with resumeReplay := true, stopAfter := false }, ?_, ?_, ?_, ?_, ?_⟩
  · change execStandbyTakeover s = _
    unfold execStandbyTakeover State.run
    dsimp only
    rw [hr, hc, hi, hh, hl, ht, if_neg (by decide), ← hre]
  · rw [Part.role, (Part.modTick_sameAt _ _).2.2, Part.getF_putF_same _ _ _ _ _ (by decide)]
    rfl
  · have hrt : r.tick = s.p.tick := by rw [hre]; simp
    simp [hrt]
  · rw [hre]; simp
  · rw [hre]; simp

theorem holdRepeat_repeats (hc : s.p.clocked = true) (hs : s.p.getB PWR_STATUS 2 = true) (ht : s.p.mgt.thermHold = false) :
    ∃ q, Becomes .holdRepeat s q ∧ q.cycle = max s.p.cycle s.p.power.repeatAt ∧ q.power.repeatAt = s.p.power.repeatAt + 100000 ∧
      ∀ d ∈ s.p.masters, (⟨0, s.p.chip, d, s.p.epoch, 3, 0, 6, 0, 0, []⟩ : Packet) ∈ q.fab.txq := by
  obtain ⟨r, hre⟩ : ∃ r, r = s.p.clockTo s.p.power.repeatAt := ⟨_, rfl⟩
  have hon : ∀ j, j < 0x2000000 → j ≠ HIF_STAT_CRWAIT → r.SameAt s.p j := fun j h h' => hre ▸ Part.clockTo_off s.p _ h h'
  have hrk : r.mgt = s.p.mgt ∧ r.power = s.p.power ∧ r.fab = s.p.fab := by rw [hre]; simp
  obtain ⟨rm, rp, rf⟩ := hrk
  obtain ⟨u, hu⟩ : ∃ u, u = r.modPower fun w => { w with repeatAt := w.repeatAt + holdPeriod } := ⟨_, rfl⟩
  have hrep : r.repeatHolds s.p.power.repeatAt = u.holdSend 0 := by
    have hb : (r.getB PWR_STATUS 2 && decide (r.power.repeatAt ≤ s.p.power.repeatAt)) = true := by
      rw [(hon PWR_STATUS (by decide) (by decide)).2.1, hs, rp]
      simp
    unfold Part.repeatHolds
    dsimp only
    have hth : (u.holdSend 0).mgt.thermHold = false := by
      rw [hu]
      simp [rm, ht]
    rw [if_pos hb, ← hu, hth, if_neg (by simp)]
  have hdue : s.p.repeatsDue = [s.p.power.repeatAt] := by
    rw [Part.repeatsDue, hs, ht]
    rfl
  have hmin : minList [s.p.power.repeatAt] = s.p.power.repeatAt := rfl
  refine ⟨u.holdSend 0, ?_, ?_, ?_, fun d hd => ?_⟩
  · change execHoldRepeat s = _
    unfold execHoldRepeat State.run
    dsimp only
    rw [hc, hdue, if_neg (by simp), hmin, ← hre, hrep]
  · rw [hu, hre]; simp
  · rw [hu]
    simp [rp, holdPeriod]
  · rw [Part.holdSend, Part.showHold_fab]
    refine Part.toMasters_sendsAs s.p ?_ ?_ ?_ 6 0 [] hd
    · rw [hu, (Part.modPower_sameAt _ _).1, (hon TIK_MASTER (by decide) (by decide)).1]
    · rw [hu, (Part.modPower_sameAt _ _).1, (hon TIK_COUNT (by decide) (by decide)).1]
    · rw [hu, ← rf]
      rfl

end

/-- Settles O24: what the tick master and the standby keep of statuses, stretches and holds, and how the standby takes over. -/
theorem statusesAndHolds : Obligations.StatusesAndHolds := by
  intro s p
  exact ⟨fun k hr hk => ⟨fun hn ht hm hu => frameStatusReceive_keeps hr hk hn ht hm hu, frameStatusReceive_late hr hk⟩,
    fun k hr hk => stretchRequestReceive_keeps hr hk, fun k hr hk => holdPacketReceive_holds hr hk,
    fun k hk => releasePacketReceive_releases hk, fun chip source h hr hf => holdLapse_lapses hr hf,
    fun hr hc hi hh hl ht => standbyTakeover_takes hr hc hi hh hl ht, fun hc hs ht => holdRepeat_repeats hc hs ht⟩

end Sys2Proof.Machine
end

section
/-!
PROOF. Phases, the commit point and the guard boundary (R24, R25, R28).
-/
namespace Sys2Proof.Machine

section
variable (p : Part)

theorem Part.overrun_marks : p.overrun.tick = { p.tick with overrun := true } ∧ p.overrun.getF TIK_STATUS 2 3 = p.getF TIK_STATUS 2 3 ∧
    p.overrun.getB TIK_STATUS 1 = p.getB TIK_STATUS 1 ∧
    p.overrun.cycle = p.cycle ∧ p.overrun.mem = p.mem ∧ p.overrun.cores = p.cores := by
  unfold Part.overrun
  split
  · rename_i h
    exact ⟨by rw [← h], rfl, rfl, rfl, rfl, rfl⟩
  · refine ⟨by simp, ?_, ?_, by simp, by simp, by simp⟩
    · rw [(Part.modTick_sameAt _ _).2.2, Part.getF_putF_field _ _ _ _ _ _ _ (by decide) (by decide)]
    · rw [(Part.modTick_sameAt _ _).2.1, Part.getB_putF_bit _ _ _ _ _ _ (by decide) (by decide)]

/-- A phase whose work completed after its offset is overrun (R24). -/
theorem Part.overrunPast_marks (off : Nat) : ∀ {q : Part}, q = (if p.frameCycle > off then p.overrun else p) →
    q.tick = { p.tick with overrun := p.tick.overrun || decide (off < p.frameCycle) } ∧ q.getF TIK_STATUS 2 3 = p.getF TIK_STATUS 2 3 ∧
      q.cycle = p.cycle ∧ q.mem = p.mem ∧ q.cores = p.cores := by
  rintro q rfl
  by_cases h : p.frameCycle > off
  · obtain ⟨h1, h2, -, h4⟩ := p.overrun_marks
    rw [if_pos h, decide_eq_true h, Bool.or_true]
    exact ⟨h1, h2, h4⟩
  · rw [if_neg h, decide_eq_false h, Bool.or_false]
    exact ⟨rfl, rfl, rfl, rfl, rfl⟩

/-- A phase begins, no earlier than its offset (R24). -/
theorem Part.enterPhase_enters {ph : Nat} (hp : ph < 8) (off : Nat) : (p.enterPhase ph off).phase = ph ∧
    (p.enterPhase ph off).cycle = max p.cycle (p.tick.frameStart + off) ∧
    (p.enterPhase ph off).tick = { p.tick with overrun := p.tick.overrun || decide (off < p.frameCycle) } ∧
    (p.enterPhase ph off).mem = p.mem ∧ (p.enterPhase ph off).cores = p.cores := by
  obtain ⟨u, hu⟩ : ∃ u, u = if p.frameCycle > off then p.overrun else p := ⟨_, rfl⟩
  obtain ⟨h1, -, h3, h4, h5⟩ := p.overrunPast_marks off hu
  have hs : u.tick.frameStart = p.tick.frameStart := by rw [h1]
  unfold Part.enterPhase
  dsimp only
  rw [← hu, hs]
  refine ⟨?_, by simp [h3], by simp [h1], by simp [h4], by simp [h5]⟩
  rw [Part.phase, (Part.trace_off _ _ _ _ _ _ _ (by decide)).2.2, Part.getF_putF_same _ _ _ _ _ (by decide)]
  omega

end

section
variable {s : State} (hc : s.p.clocked = true)
include hc

theorem phaseStart_reduce (h0 : s.p.phase = 0) (hd : s.p.computeDone = true) :
    Becomes (.phaseStart 1) s ((s.p.modTick fun t => { t with done0 := some s.p.frameCycle }).enterPhase 1 (s.p.rd (TIK_OFFS_C s.p.kind))) := by
  change execPhaseStart 1 s = _
  unfold execPhaseStart State.run
  dsimp only
  rw [hc, if_neg (by decide), if_pos ⟨rfl, h0⟩, hd, if_neg (by decide)]

theorem phaseStart_commit (h1 : s.p.phase = 1) (hd : s.p.reduceDone = true) :
    Becomes (.phaseStart 2) s ((s.p.modTick fun t => { t with done1 := some s.p.frameCycle }).enterPhase 2 (s.p.rd (TIK_OFFS_D s.p.kind))) := by
  change execPhaseStart 2 s = _
  unfold execPhaseStart State.run
  dsimp only
  rw [hc, if_neg (by decide), if_neg (by simp), if_pos ⟨rfl, h1⟩, hd, if_neg (by decide)]

theorem phaseStart_waits (h0 : s.p.phase = 0) (hd : s.p.computeDone = false) :
    Becomes (.phaseStart 1) s (if s.p.frameCycle > s.p.rd (TIK_OFFS_C s.p.kind) then s.p.overrun else s.p) := by
  change execPhaseStart 1 s = _
  unfold execPhaseStart State.run
  dsimp only
  rw [hc, if_neg (by decide), if_pos ⟨rfl, h0⟩, hd, Bool.not_false, if_pos rfl]

/-- The commit point (R25): the part is ready, and sends its pass unless the frame has failed. -/
theorem commitPoint_commits (h2 : s.p.phase = 2) (hs : s.p.getB TIK_STATUS 1 = false) (h : s.p.computeDone = true) (h' : s.p.reduceDone = true)
    (h'' : s.p.commitDone = true) : ∃ q, Becomes .commitPoint s q ∧ q.getB TIK_STATUS 1 = true ∧ q.tick.done2 = some s.p.frameCycle ∧
      q.mem = s.p.mem ∧ q.cores = s.p.cores ∧
      (s.p.tick.cause = 0 → q.tick.sent = 1 ∧
        ∀ d ∈ s.p.masters, (⟨0, s.p.chip, d, s.p.epoch, 3, 0, 4, 0, 0, s.p.statusBytes true 0⟩ : Packet) ∈ q.fab.txq) ∧
      (s.p.tick.cause ≠ 0 → q.tick.sent = s.p.tick.sent ∧ q.fab = s.p.fab) := by
  obtain ⟨r, hr⟩ : ∃ r, r = (s.p.putB TIK_STATUS 1 true).modTick fun t => { t with done2 := some s.p.frameCycle } := ⟨_, rfl⟩
  have hb : Becomes .commitPoint s (if r.tick.cause = 0 then r.sendStatus true 0 else r) := by
    change execCommitPoint s = _
    unfold execCommitPoint State.run
    dsimp only
    rw [hc, h2, hs, h, h', h'', if_neg (by decide), ← hr]
  have hrb : r.getB TIK_STATUS 1 = true := by rw [hr, (Part.modTick_sameAt _ _).2.1, Part.getB_putB_same _ _ _ _ (by decide)]
  have hrk : r.tick = { s.p.tick with done2 := some s.p.frameCycle } ∧ r.mem = s.p.mem ∧ r.cores = s.p.cores ∧ r.fab = s.p.fab ∧ r.obs = s.p.obs := by
    rw [hr]; simp
  obtain ⟨rt, rm, rc, rf, ro⟩ := hrk
  have hon : ∀ j, TIK_STATUS ≠ j → r.rd j = s.p.rd j := fun j hj => by rw [hr, (Part.modTick_sameAt _ _).1, (Part.putB_off _ _ _ _ hj).1]
  have hbytes : r.statusBytes true 0 = s.p.statusBytes true 0 := by
    have hm : r.getB TIK_STATUS 10 = s.p.getB TIK_STATUS 10 := by
      rw [hr, (Part.modTick_sameAt _ _).2.1, Part.getB_putB_bit _ _ _ _ _ (by decide) (by decide)]
    rw [Part.statusBytes, Part.statusBytes, hm, ro, Part.tickCount, Part.tickCount, hon _ (by decide)]
  by_cases hcause : s.p.tick.cause = 0
  · rw [if_pos (by rw [rt]; exact hcause)] at hb
    refine ⟨_, hb, ?_, ?_, ?_, ?_, fun _ => ⟨rfl, fun d hd => ?_⟩, fun hn => absurd hcause hn⟩
    · rw [Part.sendStatus, (Part.modTick_sameAt _ _).2.1, (Part.toMasters_sameAt _ _ _ _).2.1, hrb]
    · simp [Part.sendStatus, rt]
    · simp [Part.sendStatus, rm]
    · simp [Part.sendStatus, rc]
    · rw [← hbytes]
      exact Part.toMasters_sendsAs s.p (hon _ (by decide)) (hon _ (by decide)) (by rw [rf]) 4 0 _ hd
  · rw [if_neg (by rw [rt]; exact hcause)] at hb
    exact ⟨_, hb, hrb, by rw [rt], rm, rc, fun h => absurd h hcause, fun _ => ⟨by rw [rt], rf⟩⟩

end

section
variable (p : Part)

theorem Paced.overrun : Paced p p.overrun := by
  unfold Part.overrun
  exact Paced.ite _ (Paced.refl p) ((Paced.putF p _ _ _ (by decide)).trans (Paced.modTick _ _ rfl))

theorem Paced.modFab (f : Fabric → Fabric) : Paced p (p.modFab f) := ⟨rfl, rfl, id, fun _ _ => rfl⟩

theorem Paced.toMasters (kind ref : Nat) (bs : List Byte) : Paced p (p.toMasters kind ref bs) :=
  Paced.each _ (fun d _ q => Paced.modFab q _) p

theorem Paced.lateWork : Paced p p.lateWork := Paced.ite _ (Paced.overrun p) (Paced.refl p)

theorem Paced.fabErr (i a b : Nat) : Paced p (p.fabErr i a b) := Paced.noteErr p _ _ (by decide) (by decide)

theorem Paced.lossNotice (d : Nat) : Paced p (p.lossNotice d) := by
  unfold Part.lossNotice
  exact Paced.modFab p _

theorem Paced.fabricEndCheck : Paced p p.fabricEndCheck := by
  unfold Part.fabricEndCheck
  extract_lets held p1
  have h1 : Paced p p1 := Paced.ite _ (((Paced.bump p _ (by decide)).trans (Paced.fabErr _ _ _ _)).trans (Paced.failCause _ _))
    (Paced.ite _ ((Paced.fabErr p _ _ _).trans (Paced.failCause _ _)) (Paced.refl p))
  exact h1.trans (Paced.each _ (fun d _ q => Paced.lossNotice q d) p1)

theorem Paced.noAck : Paced p p.noAck := by
  unfold Part.noAck
  exact ((Paced.bump p _ (by decide)).trans (Paced.stick _ _ (by decide) (by decide))).trans (Paced.failCause _ _)

theorem Paced.addPair (k : Nat) (f : PairAcc → PairAcc) : Paced p (p.addPair k f) := Paced.modObs p _ fun _ => rfl

theorem Paced.note (n : Nat) (f : Note → Note) : Paced p (p.note n f) := by
  unfold Part.note
  exact Paced.modObs p _ fun _ => rfl

theorem Paced.undecided (s : Nat) (d : DupCap) : Paced p (p.undecided s d) := by
  unfold Part.undecided
  exact (((Paced.stick p _ (by decide) (by decide)).trans (Paced.err _ _)).trans (Paced.addPair _ _ _)).trans (Paced.note _ _ _)

theorem Paced.dupAbandon : Paced p p.dupAbandon := by
  unfold Part.dupAbandon
  refine Paced.each _ (fun s _ q => ?_) p
  dsimp only
  exact (Paced.setDups q _ _).trans (Paced.each _ (fun d _ r => Paced.ite _ (Paced.bump r _ (by decide)) (Paced.undecided r s d)) _)

theorem Paced.sendNotices : Paced p p.sendNotices := by
  unfold Part.sendNotices
  exact (Paced.each _ (fun n _ q => Paced.toMasters q _ _ _) p).trans (Paced.modObs _ _ fun _ => rfl)

theorem Paced.stretchCompute : Paced p p.stretchCompute := by
  unfold Part.stretchCompute
  refine Paced.ite _ (Paced.refl p) ?_
  extract_lets len g p1
  have h1 : Paced p p1 := Paced.putF p _ _ _ (by decide)
  split
  extract_lets p2 extT p3 ext p4
  have h2 : Paced p1 p2 := Paced.ite _ (Paced.putB p1 _ _ (by decide)) (Paced.refl p1)
  have h3 : Paced p2 p3 := Paced.modMgt p2 _
  have h4 : Paced p3 p4 := Paced.wr p3 _ (by decide)
  exact Paced.ite _ ((h1.trans h2).trans h3) ((((h1.trans h2).trans h3).trans h4).trans ((Paced.bump p4 _ (by decide)).trans (Paced.toMasters _ _ _ _)))

theorem Part.dupAbandon_cause : p.dupAbandon.tick.cause = p.tick.cause := by
  unfold Part.dupAbandon
  refine Part.each_get (fun q => q.tick.cause) _ _ _ fun q s => ?_
  refine (Part.each_get (fun q => q.tick.cause) _ _ _ fun r d => ?_).trans rfl
  split
  · simp
  · simp [Part.undecided, Part.note, Part.addPair]

theorem Part.stretchCompute_tick : p.stretchCompute.tick = p.tick := by
  unfold Part.stretchCompute
  dsimp only
  repeat' split
  all_goals simp

theorem Part.sendNotices_tick : p.sendNotices.tick = p.tick := by
  unfold Part.sendNotices
  exact Part.each_get (fun q => q.tick) _ _ _ fun q n => by simp

theorem Part.letGo_sch (l : List Nat) {x : Nat} (h : x ∈ l) : ((p.each l fun p s => p.modSch s Sched.letGo).sch x).held = [] ∧
    ((p.each l fun p s => p.modSch s Sched.letGo).sch x).subs = [] ∧ ((p.each l fun p s => p.modSch s Sched.letGo).sch x).inbound = [] := by
  have hkeep : ∀ (l : List Nat) (q : Part), ((q.sch x).held = [] ∧ (q.sch x).subs = [] ∧ (q.sch x).inbound = []) →
      ((q.each l fun p s => p.modSch s Sched.letGo).sch x).held = [] ∧
      ((q.each l fun p s => p.modSch s Sched.letGo).sch x).subs = [] ∧ ((q.each l fun p s => p.modSch s Sched.letGo).sch x).inbound = [] := by
    intro l
    induction l with
    | nil => exact fun q hq => hq
    | cons a l ih =>
      intro q hq
      rw [Part.each_cons]
      refine ih _ ?_
      rw [Part.modSch, Part.sch_setSch]
      split
      · exact ⟨rfl, rfl, rfl⟩
      · exact hq
  induction l generalizing p with
  | nil => cases h
  | cons a l ih =>
    rw [Part.each_cons]
    rcases List.mem_cons.1 h with rfl | h
    · refine hkeep l _ ?_
      rw [Part.modSch, Part.sch_setSch, if_pos rfl]
      exact ⟨rfl, rfl, rfl⟩
    · exact ih _ h

/-- The work that goes with a failed frame, and the tick unit that keeps what it knows of it. -/
def Part.spared (p : Part) : Tick × (Sparse Press × Sparse Optim) × Sparse Rack × Sparse Bucket := (p.tick, (p.press, p.optim), p.rack, p.buckets)

theorem Part.discardFailed_eq : ∃ (r : Part) (f : Fabric → Fabric), p.discardFailed = (r.modFab f).modTick (fun t => { t with signals := [] }) ∧
    Paced p r ∧ r.spared = (p.tick, ([], []), [], []) ∧
    ∀ x, x < 4 → (r.sch x).held = [] ∧ (r.sch x).subs = [] ∧ (r.sch x).inbound = [] := by
  unfold Part.discardFailed
  extract_lets p1 p2 p3 p4
  have h1 : Paced p p1 := ⟨rfl, rfl, id, fun _ _ => rfl⟩
  have h2 : Paced p1 p2 := Paced.each _ (fun s _ q => Paced.modUnit q s _) p1
  have h3 : Paced p2 p3 := (Paced.each _ (fun s _ q => Paced.schLeft q s) p2).trans (Paced.each _ (fun s _ q => Paced.modSch q s _) _)
  refine ⟨p3, _, rfl, (h1.trans h2).trans h3, ?_, fun x hx => Part.letGo_sch _ _ ?_⟩
  · have e3 : p3.spared = (p2.each sectors Part.schLeft).spared := Part.each_get Part.spared _ _ _ fun q s => rfl
    have e2 : (p2.each sectors Part.schLeft).spared = p2.spared := Part.each_get Part.spared _ _ _ fun q s => by simp [Part.spared, Part.schLeft]
    have e1 : p2.spared = p1.spared := Part.each_get Part.spared _ _ _ fun q s => rfl
    rw [e3, e2, e1]
    rfl
  · have hall : ∀ x, x < 4 → x ∈ sectors := by decide
    exact hall x hx

/-- What a failed frame discards at moment G (R28). -/
theorem Part.discardFailed_discards : Paced p p.discardFailed ∧ p.discardFailed.tick = { p.tick with signals := [] } ∧
    p.discardFailed.press = [] ∧ p.discardFailed.optim = [] ∧ p.discardFailed.rack = [] ∧ p.discardFailed.buckets = [] ∧
    ∀ x, x < 4 → (p.discardFailed.sch x).held = [] ∧ (p.discardFailed.sch x).subs = [] ∧ (p.discardFailed.sch x).inbound = [] := by
  obtain ⟨r, f, he, hp, hs, hx⟩ := p.discardFailed_eq
  simp only [Part.spared, Prod.mk.injEq] at hs
  obtain ⟨ht, ⟨hpr, hop⟩, hra, hbu⟩ := hs
  rw [he]
  exact ⟨hp.trans ((Paced.modFab r f).trans (Paced.modTick _ _ rfl)), by rw [← ht]; rfl, hpr, hop, hra, hbu, hx⟩

/-- What moment G leaves of the part (R24, R28). -/
structure GuardEnds (p q : Part) : Prop where
  done : q.tick.guardDone = true
  cycle : q.cycle = max p.cycle (p.tick.frameStart + p.rd (TIK_OFFS_G p.kind))
  short : p.getB TIK_STATUS 1 = false ∨ p.orderKept = false →
    q.tick.cause ≠ 0 ∧ q.tick.signals = [] ∧ q.press = [] ∧ q.optim = [] ∧ q.rack = [] ∧ q.buckets = [] ∧
      ∀ x, x < 4 → (q.sch x).held = [] ∧ (q.sch x).subs = [] ∧ (q.sch x).inbound = []

theorem Part.lateWork_keeps : p.lateWork.getB TIK_STATUS 1 = p.getB TIK_STATUS 1 ∧ p.lateWork.sched = p.sched := by
  unfold Part.lateWork
  split
  · obtain ⟨-, -, h, -⟩ := p.overrun_marks
    refine ⟨h, ?_⟩
    unfold Part.overrun
    split <;> simp
  · exact ⟨rfl, rfl⟩

/-- What moment G sees of the frame once the guard is done: its commit point and the order of its scheduler, as they were. -/
theorem Part.guard_sees {r : Part} (hr : r = (((p.lateWork.putF TIK_STATUS 2 3 3).modTick fun t => { t with guardDone := true }).trace 4 2 0 0xFFFF 3 0)) :
    r.tick.guardDone = true ∧ r.cycle = p.cycle ∧ r.getB TIK_STATUS 1 = p.getB TIK_STATUS 1 ∧ r.orderKept = p.orderKept := by
  obtain ⟨hb, hs⟩ := p.lateWork_keeps
  have hk : ∀ q : Part, q.sched = p.sched → q.orderKept = p.orderKept := fun q hq => by simp only [Part.orderKept, Part.sch, hq]
  rw [hr]
  refine ⟨by simp, by simp [(Paced.lateWork p).cycle], ?_, hk _ (by simp [hs])⟩
  rw [(Part.trace_off _ _ _ _ _ _ _ (by decide)).2.1, (Part.modTick_sameAt _ _).2.1, Part.getB_putF_bit _ _ _ _ _ _ (by decide) (by decide), hb]

/-- The end of moment G (R28): a failed frame is discarded. -/
theorem Part.guard_discards {r u : Part} {short : Bool} (hr : r = if short then p.failCause 1 else p)
    (hu : u = r.dupAbandon.stretchCompute.sendNotices) : ∀ {q : Part}, q = (if u.tick.cause != 0 then u.discardFailed else u) → Paced p q ∧
      (short = true → q.tick.cause ≠ 0 ∧ q.tick.signals = [] ∧ q.press = [] ∧ q.optim = [] ∧ q.rack = [] ∧ q.buckets = [] ∧
        ∀ x, x < 4 → (q.sch x).held = [] ∧ (q.sch x).subs = [] ∧ (q.sch x).inbound = []) := by
  rintro q rfl
  have hp : Paced p u := by
    have h1 : Paced p r := hr ▸ Paced.ite _ (Paced.failCause p 1) (Paced.refl p)
    exact hu ▸ h1.trans (((Paced.dupAbandon r).trans (Paced.stretchCompute _)).trans (Paced.sendNotices _))
  obtain ⟨hd, ht, hw⟩ := u.discardFailed_discards
  refine ⟨Paced.ite _ (hp.trans hd) hp, fun hs => ?_⟩
  have hcause : u.tick.cause ≠ 0 := by
    rw [hu, Part.sendNotices_tick, Part.stretchCompute_tick, Part.dupAbandon_cause, hr, hs, if_pos rfl, Part.failCause_cause]
    split <;> omega
  rw [if_pos (by simpa using hcause)]
  exact ⟨by rw [ht]; exact hcause, by rw [ht], hw⟩

end

/-- Moment G (R24, R28): the guard is done, and a frame that is short of its commit point fails and its work is discarded. -/
theorem guardBoundary_guards {s : State} (hc : s.p.clocked = true) (hi : s.p.inFrame = true) (hg : s.p.tick.guardDone = false) :
    ∃ q, Becomes .guardBoundary s q ∧ GuardEnds s.p q := by
  change ∃ q, execGuardBoundary s = .next { s with p := q } ∧ GuardEnds s.p q
  unfold execGuardBoundary State.run
  beta_reduce
  rw [hc, hi, hg, if_neg (by decide)]
  refine ⟨_, rfl, ?_⟩
  extract_lets p1 p2 p3 p4 short open' late p5 p6 p7 p8 p9 p10 p11
  have h1 : p1.getB TIK_STATUS 1 = s.p.getB TIK_STATUS 1 ∧ p1.orderKept = s.p.orderKept := by
    refine ⟨(Part.clockTo_off s.p _ (by decide) (by decide)).2.1 _, ?_⟩
    have hs : p1.sched = s.p.sched := by simp [p1]
    simp only [Part.orderKept, Part.sch, hs]
  obtain ⟨h2, h3, h4, h5⟩ := p1.guard_sees (r := p4) rfl
  have g5 : Paced p4 p5 := Paced.fabricEndCheck p4
  have g6 : Paced p5 p6 := Paced.ite _ ((Paced.stick p5 _ (by decide) (by decide)).trans (Paced.failCause _ _)) (Paced.refl p5)
  have g7 : Paced p6 p7 := Paced.ite _ (Paced.noAck p6) (Paced.refl p6)
  have g8 : Paced p7 p8 := Paced.ite _ (Paced.stick p7 _ (by decide) (by decide)) (Paced.refl p7)
  have g9 : Paced p8 p9 := by
    refine Paced.ite _ (Paced.each _ (fun s _ q => ?_) p8) (Paced.refl p8)
    exact Paced.ite _ (Paced.stick q _ (not_paced_above (by unfold TBL_STICKY secBase; omega)) (not_paced_above (by unfold TBL_STICKY secBase; omega)))
      (Paced.refl q)
  obtain ⟨g10, hcut⟩ := p9.guard_discards (r := p10) rfl (u := p11) rfl rfl
  have hall := ((((g5.trans g6).trans g7).trans g8).trans g9).trans g10
  have hbeat := hall.beat
  simp only [Part.beat, Prod.mk.injEq] at hbeat
  refine ⟨hbeat.2.2.1.1.trans h2, hall.cycle.trans (h3.trans (s.p.clockTo_cycle _)), fun hs => hcut ?_⟩
  unfold short
  rw [h4, h5, h1.1, h1.2]
  rcases hs with h | h <;> simp [h]

/-- Settles O23: the phases of a frame, its commit point and moment G. -/
theorem framePhases : Obligations.FramePhases := by
  intro s p hc
  refine ⟨fun h0 hd => ⟨_, phaseStart_reduce hc h0 hd, ?_⟩, fun h1 hd => ⟨_, phaseStart_commit hc h1 hd, ?_⟩, fun h0 hd => ⟨_, phaseStart_waits hc h0 hd, ?_⟩,
    fun h2 hs h h' h'' => commitPoint_commits hc h2 hs h h' h'', fun hi hg => ?_⟩
  · exact (p.modTick fun t => { t with done0 := some p.frameCycle }).enterPhase_enters (ph := 1) (by decide) _
  · exact (p.modTick fun t => { t with done1 := some p.frameCycle }).enterPhase_enters (ph := 2) (by decide) _
  · obtain ⟨h1, h2, -, h4, h5⟩ := p.overrunPast_marks (p.rd (TIK_OFFS_C p.kind)) rfl
    exact ⟨h2.trans h0, h4, h5, by rw [h1]⟩
  · obtain ⟨q, hb, hq⟩ := guardBoundary_guards hc hi hg
    exact ⟨q, hb, hq.done, hq.cycle, hq.short⟩

end Sys2Proof.Machine
end

section
/-!
PROOF. The tick master's tokens, and the tokens and notices that arrive (R17, R18, R20, R21, R26, R33, R42, R44, R350, R352).
-/
namespace Sys2Proof.Machine

section
variable (p : Part)

/-- An error of severity 0 freezes nothing (R512), and so keeps the tick unit. -/
theorem Part.err_informs_tick (e : ErrRec) (h : e.severity = 0) : (p.err e).tick = p.tick := by
  unfold Part.err
  dsimp only
  split
  · rfl
  · split
    · simp
    · rw [if_neg (by rw [h]; omega)]
      simp

theorem Part.txnFail_informs (e : TxnErr) : (p.txnFail e).fab = p.fab ∧ (p.txnFail e).tick = p.tick ∧ (p.txnFail e).cycle = p.cycle := by
  have hk : ∀ (r : Part) b n, r.fab = p.fab ∧ r.tick = p.tick ∧ r.cycle = p.cycle →
      (r.err (mkErr b n 0)).fab = p.fab ∧ (r.err (mkErr b n 0)).tick = p.tick ∧ (r.err (mkErr b n 0)).cycle = p.cycle := fun r b n h =>
    ⟨(r.err_informs _ rfl).trans h.1, (r.err_informs_tick _ rfl).trans h.2.1, by simp [h.2.2]⟩
  obtain ⟨q, hq⟩ : ∃ q, q = p.txnFail e := ⟨_, rfl⟩
  rw [← hq]
  unfold Part.txnFail at hq
  dsimp only at hq
  split at hq
  · rw [hq]
    simp
  · split at hq
    · rw [hq]
      refine hk _ 13 4 ?_
      simp
    · rw [hq]
      refine hk _ 13 _ ?_
      simp

theorem Part.abandonValidation_keeps (e : TxnErr) (status : Nat) : (p.abandonValidation e status).fab = p.fab ∧
    (p.abandonValidation e status).tick = p.tick ∧ (p.abandonValidation e status).cycle = p.cycle := by
  unfold Part.abandonValidation
  extract_lets r
  have hr : r.fab = p.fab ∧ r.tick = p.tick ∧ r.cycle = p.cycle := by simp [r]
  obtain ⟨h1, h2, h3⟩ := hr
  split
  · exact ⟨h1, h2, h3⟩
  · rename_i n c _
    obtain ⟨f1, f2, f3⟩ := r.txnFail_informs e
    obtain ⟨hq, -⟩ := QueueWork.endCmd (r.txnFail e) n c status e.word
    rw [hq]
    exact ⟨f1.trans h1, f2.trans h2, f3.trans h3⟩

/-- A token that finds a transaction changes nothing of the fabric, the tick unit and the clock (R443, R447). -/
theorem Part.tokenMeetsTxn_keeps (t : TokenMsg) : (p.tokenMeetsTxn t).fab = p.fab ∧ (p.tokenMeetsTxn t).tick = p.tick ∧
    (p.tokenMeetsTxn t).cycle = p.cycle := by
  have hstep : ∀ r : Part, r.fab = p.fab ∧ r.tick = p.tick ∧ r.cycle = p.cycle →
      let q := if r.txnState = 3 ∧ r.txn.armedFor ≤ t.count ∧ !t.replay then r.modTxn fun x => { x with tokenSeen := true } else r
      q.fab = p.fab ∧ q.tick = p.tick ∧ q.cycle = p.cycle := fun r h => by
    dsimp only
    split
    · exact h
    · exact h
  unfold Part.tokenMeetsTxn
  refine hstep _ ?_
  split
  · split
    · exact p.abandonValidation_keeps _ _
    · exact ⟨rfl, rfl, rfl⟩
  · exact ⟨rfl, rfl, rfl⟩

/-- A token meets a part whose transaction is not under validation (R443). -/
theorem Part.tokenMeetsTxn_idle (t : TokenMsg) (h : p.txn.validating = none) :
    p.tokenMeetsTxn t = { p with txn := (p.tokenMeetsTxn t).txn } := by
  unfold Part.tokenMeetsTxn
  rw [h]
  dsimp only
  split <;> rfl

theorem Part.endShow_regs : p.endShow = { p with regs := p.endShow.regs } ∧ p.endShow.getB TIK_STATUS 9 = false ∧
    ∀ j, TIK_STATUS ≠ j → TIK_STAT_HOLD ≠ j → p.endShow.rd j = p.rd j := by
  unfold Part.endShow
  split
  · refine ⟨by split <;> rfl, Part.getB_putB_same _ _ _ _ (by decide), fun j h h' => ?_⟩
    rw [(Part.putB_off _ _ _ _ h).1]
    split
    · exact (Part.bump_off _ _ _ h').1
    · rfl
  · rename_i h
    exact ⟨rfl, by simpa using h, fun _ _ _ => rfl⟩

/-- The held bit of a token ends the show of the hold and sets the mark (R44). -/
theorem Part.tokenHeld_keeps (t : TokenMsg) : p.tokenHeld t = { p with regs := (p.tokenHeld t).regs } ∧
    (t.held = true → (p.tokenHeld t).getB TIK_STATUS 9 = false ∧ (p.tokenHeld t).getB TIK_STATUS 10 = true) ∧
    ∀ j, TIK_STATUS ≠ j → TIK_STAT_HOLD ≠ j → (p.tokenHeld t).rd j = p.rd j := by
  obtain ⟨h1, h2, h3⟩ := p.endShow_regs
  unfold Part.tokenHeld
  cases ht : t.held with
  | false =>
    rw [if_neg Bool.false_ne_true]
    exact ⟨rfl, fun h => absurd h Bool.false_ne_true, fun _ _ _ => rfl⟩
  | true =>
    rw [if_pos rfl]
    refine ⟨?_, fun _ => ⟨?_, Part.getB_putB_same _ _ _ _ (by decide)⟩, fun j h h' => ?_⟩
    · conv_lhs => rw [h1]
      rfl
    · rw [Part.getB_putB_bit _ _ _ _ _ (by decide) (by decide), h2]
    · rw [(Part.putB_off _ _ _ _ h).1, h3 j h h']

/-- The part as it takes a token, but for the token itself (R18, R21): hold and transaction have met it, and a wrong count is noted. -/
def Part.meetToken (p : Part) (t : TokenMsg) : Part :=
  let u := (p.tokenHeld t).tokenMeetsTxn t
  if t.count != u.tickCount + 1 then u.putB TIK_STICKY 3 true else u

theorem Part.meetToken_keeps (t : TokenMsg) : (p.meetToken t).fab = p.fab ∧ (p.meetToken t).tick = p.tick ∧ (p.meetToken t).cycle = p.cycle := by
  obtain ⟨hh, -⟩ := p.tokenHeld_keeps t
  obtain ⟨h1, h2, h3⟩ := (p.tokenHeld t).tokenMeetsTxn_keeps t
  have hq : (p.tokenHeld t).fab = p.fab ∧ (p.tokenHeld t).tick = p.tick ∧ (p.tokenHeld t).cycle = p.cycle := by
    rw [hh]
    exact ⟨rfl, rfl, rfl⟩
  obtain ⟨q1, q2, q3⟩ := hq
  rw [q1] at h1
  rw [q2] at h2
  rw [q3] at h3
  unfold Part.meetToken
  dsimp only
  split
  · simp [h1, h2, h3]
  · exact ⟨h1, h2, h3⟩

/-- A token that no other waits before, on a part that has seen no edge yet, waits for its tick (R18, R20). -/
theorem Part.receiveToken_waits (t : TokenMsg) (a : Nat) (ht : p.tick.token = none) (he : p.tick.edge = none) (hc : p.getB TIK_CTRL 0 = true)
    (hr : p.role ≠ 2) : p.receiveToken t a = (p.meetToken t).modTick fun k =>
      { k with token := some ⟨t, (p.meetToken t).tokenDue a⟩, countErr := t.count != ((p.tokenHeld t).tokenMeetsTxn t).tickCount + 1 } := by
  have hx : p.expireEdge a = p := by rw [Part.expireEdge, he]
  have hs : p.standbySees t a = p := by rw [Part.standbySees, if_pos hr]
  obtain ⟨-, htick, -⟩ := p.meetToken_keeps t
  have hw : ∀ d, (p.meetToken t).heldSkew d = p.meetToken t := fun d => by rw [Part.heldSkew, htick, he]
  unfold Part.receiveToken
  rw [ht, hc, if_neg (by decide), hx, hs]
  extract_lets u wrong v w
  have hv : v = p.meetToken t := rfl
  have hwv : w = (p.meetToken t).modTick fun k => { k with token := some ⟨t, (p.meetToken t).tokenDue a⟩, countErr := wrong } := by
    unfold w
    rw [hv, hw]
  have hno : w.tick.edge = none := by rw [hwv, ← he, ← htick]; rfl
  rw [hno, if_neg (by decide), hwv]

/-- The tick master has recorded what the statuses of the frame were, and all that the next token says is as before (R17, R26, R47). -/
structure Tallied (p q : Part) : Prop where
  paced : Paced p q
  id : q.fab.idInForce = p.fab.idInForce
  held : q.tick.heldFrame = p.tick.heldFrame
  stretch : q.tick.stretch = p.tick.stretch
  regs : ∀ j, j < 0x2000000 → j ∉ recordRegs → TIK_FAIL_CAUSE ≠ j → q.rd j = p.rd j
  role : q.role = p.role

theorem Tallied.refl (p : Part) : Tallied p p := ⟨Paced.refl p, rfl, rfl, rfl, fun _ _ _ _ => rfl, rfl⟩

theorem Tallied.trans {p q r : Part} (h : Tallied p q) (h' : Tallied q r) : Tallied p r :=
  ⟨h.paced.trans h'.paced, h'.id.trans h.id, h'.held.trans h.held, h'.stretch.trans h.stretch,
    fun j h1 h2 h3 => (h'.regs j h1 h2 h3).trans (h.regs j h1 h2 h3), h'.role.trans h.role⟩

theorem Tallied.failCause (v : Nat) : Tallied p (p.wr TIK_FAIL_CAUSE v) :=
  ⟨Paced.wr p _ (by decide), by simp, by simp, by simp, fun _ _ _ h => Part.rd_wr_other _ _ h, (Part.wr_off p _ _ (by decide)).2.2 _ _⟩

/-- A field reads as its bits. -/
theorem Part.getF_of_getB {p q : Part} {o lo w : Nat} (h : ∀ i, lo ≤ i → i < lo + w → q.getB o i = p.getB o i) : q.getF o lo w = p.getF o lo w := by
  unfold Part.getF
  refine Nat.eq_of_testBit_eq fun i => ?_
  rw [fld_testBit, fld_testBit]
  by_cases hi : i < w
  · have hb := h (lo + i) (by omega) (by omega)
    rw [Part.getB, Part.getB, bit_eq_testBit, bit_eq_testBit] at hb
    rw [hb]
  · rw [decide_eq_false hi, Bool.false_and, Bool.false_and]

theorem Tallied.err (e : ErrRec) : Tallied p (p.err e) :=
  ⟨Paced.err p e, by simp, by simp, by simp, fun j h h' _ => (Part.err_sameAt p h h' e).1,
    Part.getF_of_getB fun i h h' => p.err_status e (by omega) (by omega)⟩

theorem Tallied.ite (b : Prop) [Decidable b] {p q r : Part} (hq : Tallied p q) (hr : Tallied p r) : Tallied p (if b then q else r) := by
  split
  · exact hq
  · exact hr

theorem Tallied.frameCause : Tallied p p.frameCause := by
  obtain ⟨q, hq⟩ : ∃ q, q = p.frameCause := ⟨_, rfl⟩
  rw [← hq]
  unfold Part.frameCause at hq
  dsimp only at hq
  split at hq
  · exact hq ▸ Tallied.refl p
  · rw [hq]
    exact Tallied.ite _ ((Tallied.failCause p _).trans (Tallied.err _ _)) (Tallied.failCause p _)

theorem Tallied.countSilent (b : Bool) : Tallied p (p.countSilent b) := by
  unfold Part.countSilent
  exact ⟨Paced.modTick p _ rfl, rfl, rfl, rfl, fun _ _ _ _ => rfl, rfl⟩

/-- A part that has sent the token of its next tick, and waits for the tick itself (R17, R26, R33). -/
structure TokenSent (p q : Part) (t : TokenMsg) : Prop where
  token : ∃ d, q.tick.token = some ⟨t, d⟩
  sent : q.tick.tokenSent = p.tickCount + 1
  statuses : q.tick.statuses = []
  count : t.count = p.tickCount + 1
  master : t.master = p.chip
  held : t.held = p.tick.heldFrame
  commit : p.tick.resumeReplay = false → (∀ m ∈ p.tick.members, p.passed m = true) → t.replay = false
  replay : (p.tickCount ≠ 0 ∨ p.inFrame = true) → (p.tick.resumeReplay = true ∨ ∃ m ∈ p.tick.members, p.passed m = false) → t.replay = true
  len : p.txnState ≠ 3 → t.len = p.rd TIK_FRAME_LEN ∧ t.stretch = min p.tick.stretch (10 ^ 8 - p.rd TIK_FRAME_LEN)
  cycle : q.cycle = p.cycle
  floods : Floods p q p.cycle none 0 (.token t)

theorem Part.declareLosses_keeps (l : List Nat) : (p.each l Part.declareLoss).tick = p.tick ∧ (p.each l Part.declareLoss).cycle = p.cycle ∧
    ∀ j, (p.each l Part.declareLoss).rd j = p.rd j := by
  have h : ∀ {β : Type} (get : Part → β), (∀ (q : Part) f, get (q.modFab f) = get q) → get (p.each l Part.declareLoss) = get p := fun get hg =>
    Part.each_get get _ _ _ fun q x => Part.each_get get _ _ _ fun r d => hg r _
  exact ⟨h (fun q => q.tick) fun _ _ => rfl, h (fun q => q.cycle) fun _ _ => rfl, fun j => h (fun q => q.rd j) fun _ _ => rfl⟩

theorem Part.sendToken_sends (ht : p.tick.token = none) (he : p.tick.edge = none) (hc : p.getB TIK_CTRL 0 = true) (hr : p.role = 1) :
    ∃ t, TokenSent p p.sendToken t := by
  unfold Part.sendToken
  extract_lets count first replay r lost runs halt len stretch t u v
  have hpr : Tallied p r := (Tallied.ite _ (Tallied.frameCause p) (Tallied.refl p)).trans (Tallied.countSilent _ _)
  have hb := hpr.paced.beat
  simp only [Part.beat, Prod.mk.injEq] at hb
  obtain ⟨⟨b1, b2, -⟩, -⟩ := hb
  obtain ⟨lt, lc, lr⟩ := r.declareLosses_keeps lost
  have hvr : ∀ j, v.rd j = r.rd j := fun j => ((Part.modTick_sameAt _ _).1).trans (((Part.flood_sameAt _ _ _ _).1).trans (lr j))
  have hvt : v.tick.token = none ∧ v.tick.edge = none ∧ v.cycle = p.cycle := by
    have hu : u.tick = r.tick ∧ u.cycle = r.cycle := ⟨lt, lc⟩
    refine ⟨?_, ?_, hu.2.trans hpr.paced.cycle⟩
    · exact (congrArg Tick.token hu.1).trans (b1.trans ht)
    · exact (congrArg Tick.edge hu.1).trans (b2.trans he)
  obtain ⟨v1, v2, v3⟩ := hvt
  have hvc : v.getB TIK_CTRL 0 = true := by
    rw [← hc]
    unfold Part.getB
    rw [hvr, hpr.paced.regs _ (by decide)]
  have hvo : v.role ≠ 2 := by
    have h : v.role = r.role := by unfold Part.role Part.getF; rw [hvr]
    rw [h, hpr.role, hr]
    decide
  obtain ⟨m1, m2, m3⟩ := v.meetToken_keeps t
  refine ⟨t, ?_⟩
  rw [v.receiveToken_waits t _ v1 v2 hvc hvo]
  refine ⟨⟨_, rfl⟩, congrArg Tick.tokenSent m2, congrArg Tick.statuses m2, rfl, hpr.id, hpr.held, fun hq hall => ?_, fun hs hn => ?_, fun hx => ?_,
    m3.trans v3, ?_⟩
  · change replay = false
    unfold replay
    rw [hq, List.all_eq_true.2 hall, Bool.not_true, Bool.or_false, Bool.and_false]
  · have hf : first = false := by
      unfold first
      rcases hs with hs | hs
      · rw [beq_false_of_ne hs, Bool.false_and]
      · rw [hs, Bool.not_true, Bool.and_false]
    change replay = true
    unfold replay
    rw [hf, Bool.not_false, Bool.true_and, Bool.or_eq_true]
    refine hn.imp_right fun ⟨m, hm, hp⟩ => ?_
    rw [Bool.not_eq_true', List.all_eq_false]
    exact ⟨m, hm, by rw [hp]; decide⟩
  · have hx' : r.txnState ≠ 3 := by
      have h : r.txnState = p.txnState := by unfold Part.txnState Part.getF; rw [hpr.paced.regs _ (by decide)]
      rw [h]
      exact hx
    have hl : len = p.rd TIK_FRAME_LEN := by
      rw [← hpr.regs TIK_FRAME_LEN (by decide) (by decide) (by decide)]
      unfold len Part.nextLen
      rw [if_neg (by simp [hx'])]
    exact ⟨hl, by rw [← hl, ← hpr.stretch]⟩
  · have hfl := (r.each lost Part.declareLoss).flood_floods none 0 (.token t)
    rw [lc, hpr.paced.cycle] at hfl
    refine hfl.of_same (fun n hn => (lr _).trans (hpr.regs _ ?_ ?_ ?_)) (congrArg Fabric.ctlOut m1)
    · unfold FAB_PSTATUS
      omega
    · simp only [recordRegs, List.mem_cons, List.not_mem_nil, or_false, not_or, FAB_PSTATUS, TIK_STATUS, OBS_STATUS, OBS_STICKY, OBS_TEST_STATUS,
        OBS_STAT_ERRDROP, OBS_ERR_SEQ, OBS_STAT_ERRREC, OBS_STAT_TDROP]
      omega
    · unfold TIK_FAIL_CAUSE FAB_PSTATUS
      omega

end

end Sys2Proof.Machine
end

section
/-!
PROOF. The tick master announces and issues ticks (R17, R26, R33, R42, R44, R544).
-/
namespace Sys2Proof.Machine

theorem Part.SamePorts.of_rd {r p : Part} (h : ∀ j, 0x801000 ≤ j → j < 0x802000 → r.rd j = p.rd j) : r.SamePorts p := fun n hn =>
  h _ (by unfold FAB_PSTATUS; omega) (by unfold FAB_PSTATUS; omega)

section
variable {s : State} (hr : s.p.role = 1) (hc : s.p.clocked = true)
include hr hc

/-- The cycle at which the tick master sends what it announces next (R17). -/
def Part.atToken (p : Part) : Part := p.clockTo (p.frameEnd - p.rd TIK_LEAD)

theorem tickIssue_issues (hi : s.p.tick.issued < s.p.tick.tokenSent) : Becomes .tickIssue s { s.p.clockTo (s.p.tick.tokenSentAt + s.p.rd TIK_LEAD) with
    tick := { s.p.tick with issued := s.p.tick.tokenSent }, power := { s.p.power with tickOut := s.p.power.tickOut + 1 } } := by
  obtain ⟨r, hre⟩ : ∃ r, r = s.p.clockTo (s.p.tick.tokenSentAt + s.p.rd TIK_LEAD) := ⟨_, rfl⟩
  have hrk : r.tick = s.p.tick ∧ r.power = s.p.power := by rw [hre]; simp
  obtain ⟨rt, rp⟩ := hrk
  change execTickIssue s = _
  unfold execTickIssue State.run
  dsimp only
  rw [hr, hc, if_neg (by simpa using hi), ← hre, ← rt, ← rp]
  rfl

variable (hg : s.p.getB TIK_GRAFT_STATUS 1 = true) (hon : s.p.getB TIK_CTRL 0 = true) (hs : s.p.tick.stopAfter = false)
  (ht : s.p.tick.token = none) (hn : s.p.tick.tokenSent ≤ s.p.tickCount)
include hg hon hs ht hn

theorem tickTokenSend_sends (hh : s.p.tick.holds = []) : Becomes .tickTokenSend s s.p.atToken.sendToken := by
  have hh' : (s.p.clockTo (s.p.frameEnd - s.p.rd TIK_LEAD)).tick.holds = [] := by rw [← hh]; simp
  change execTickTokenSend s = _
  unfold execTickTokenSend State.run
  dsimp only
  rw [hr, hc, hg, hon, hs, ht, if_neg (by simpa using hn), hh']
  rfl

theorem tickTokenSend_notices (hh : s.p.tick.holds ≠ []) (hd : s.p.tick.holdNoticed = false) :
    Becomes .tickTokenSend s (((s.p.atToken.flood none 0 .holdNotice).showHold).modTick fun t => { t with holdNoticed := true }) := by
  have hh' : (s.p.clockTo (s.p.frameEnd - s.p.rd TIK_LEAD)).tick.holds.isEmpty = false := by simpa using hh
  have hd' : (s.p.clockTo (s.p.frameEnd - s.p.rd TIK_LEAD)).tick.holdNoticed = false := by simpa using hd
  change execTickTokenSend s = _
  unfold execTickTokenSend State.run
  dsimp only
  rw [hr, hc, hg, hon, hs, ht, if_neg (by simpa using hn), hh', if_neg (by decide), hd', if_neg (by decide)]
  rfl

end

section
variable (p : Part)

theorem Part.atToken_keeps : p.atToken.tick = p.tick ∧ p.atToken.fab = p.fab ∧ p.atToken.cycle = max p.cycle (p.frameEnd - p.rd TIK_LEAD) ∧
    ∀ j, j < 0x2000000 → j ≠ HIF_STAT_CRWAIT → p.atToken.rd j = p.rd j := by
  unfold Part.atToken
  exact ⟨by simp, by simp, by simp, fun j h h' => (Part.clockTo_off p _ h h').1⟩

theorem Part.atToken_ports : p.atToken.SamePorts p :=
  Part.SamePorts.of_rd fun j h h' => p.atToken_keeps.2.2.2 j (by omega) (by unfold HIF_STAT_CRWAIT; omega)

/-- The hold is shown, and marked for the supply (R44). -/
theorem Part.showHold_shows : p.showHold.getB TIK_STATUS 9 = true ∧ p.showHold.getB TIK_STATUS 10 = true ∧ p.showHold.tick.token = p.tick.token := by
  unfold Part.showHold
  dsimp only
  refine ⟨?_, Part.getB_putB_same _ _ _ _ (by decide), ?_⟩
  · rw [Part.getB_putB_bit _ _ _ _ _ (by decide) (by decide), Part.getB_putB_same _ _ _ _ (by decide)]
  · split <;> simp

end

/-- Settles O19: what the tick master announces and issues, and when. -/
theorem tickMaster : Obligations.TickMaster := by
  intro s p
  obtain ⟨a1, a2, a3, a4⟩ := p.atToken_keeps
  have hcount : p.atToken.tickCount = p.tickCount := a4 _ (by decide) (by decide)
  have hget : ∀ j lo w, j < 0x2000000 → j ≠ HIF_STAT_CRWAIT → p.atToken.getF j lo w = p.getF j lo w := fun j lo w h h' => by
    unfold Part.getF
    rw [a4 j h h']
  refine ⟨fun hr hc hg hon hs ht hn => ⟨fun hh he => ?_, fun hh hd => ?_⟩, fun hr hc hi => tickIssue_issues hr hc hi⟩
  · obtain ⟨t, h⟩ := p.atToken.sendToken_sends (a1 ▸ ht) (a1 ▸ he) (by rw [← hon, Part.getB, Part.getB, a4 _ (by decide) (by decide)])
      ((hget TIK_STATUS 5 2 (by decide) (by decide)).trans hr)
    obtain ⟨d, hd⟩ := h.token
    have hpass : p.atToken.passed = p.passed := by
      funext m
      rw [Part.passed, Part.passed, a1]
    have hin : p.atToken.inFrame = p.inFrame := by rw [Part.inFrame, Part.inFrame, Part.phase, Part.phase, hget _ _ _ (by decide) (by decide)]
    have hlen := h.len
    have hcm := h.commit
    have hrp := h.replay
    rw [Part.txnState, hget _ _ _ (by decide) (by decide), a4 _ (by decide) (by decide), a1] at hlen
    rw [hpass, a1] at hcm
    rw [hpass, a1, hcount, hin] at hrp
    refine ⟨_, t, d, tickTokenSend_sends hr hc hg hon hs ht hn hh, hd, h.sent.trans (by rw [hcount]), h.statuses, h.count.trans (by rw [hcount]),
      h.master.trans ?_, h.held.trans (by rw [a1]), hcm, hrp, hlen, h.cycle.trans a3, ?_⟩
    · rw [Part.chip, Part.chip, a2]
    · rw [h.cycle]
      exact h.floods.of_same p.atToken_ports rfl
  · obtain ⟨s1, s2, s3⟩ := (p.atToken.flood none 0 .holdNotice).showHold_shows
    refine ⟨_, tickTokenSend_notices hr hc hg hon hs ht hn hh hd, ?_, rfl, ((Part.modTick_sameAt _ _).2.1 _).trans s1,
      ((Part.modTick_sameAt _ _).2.1 _).trans s2, ?_⟩
    · exact s3.trans ((congrArg Tick.token a1).trans ht)
    · have hcy : ((p.atToken.flood none 0 .holdNotice).showHold.modTick fun t => { t with holdNoticed := true }).cycle = p.atToken.cycle := by simp
      rw [hcy]
      exact (p.atToken.flood_floods none 0 .holdNotice).of_same p.atToken_ports (congrArg Fabric.ctlOut (Part.showHold_fab _))

end Sys2Proof.Machine
end

section
/-!
PROOF. Tokens and hold notices that arrive (R18, R20, R21, R44, R350, R352).
-/
namespace Sys2Proof.Machine

section
variable (p : Part)

theorem Part.loadLat_keeps : p.loadLat = { p with regs := p.loadLat.regs } ∧
    ∀ j, TIK_TOKEN_LAT ≠ j → TIK_DELAY_COMP ≠ j → p.loadLat.rd j = p.rd j := by
  unfold Part.loadLat
  dsimp only
  obtain ⟨h1, h2⟩ := (p.wr TIK_TOKEN_LAT (latVia (if p.fab.standbyTree then p.fab.probesStandby else p.fab.probes) (p.parent p.fab.standbyTree))).setDelayComp_keeps
  exact ⟨h1.trans rfl, fun j h h' => ((h2 j h').1).trans (Part.rd_wr_other _ _ h)⟩

/-- The part follows the tree that a token came by (R350, R352), and forgets a freeze where it takes part in ticks no more. -/
theorem Part.follow_keeps (st : Bool) : p.follow st = { p with regs := (p.follow st).regs, fab := { p.fab with standbyTree := st } } ∧
    (p.fab.standbyTree = st → p.follow st = p) ∧ ∀ j, TIK_TOKEN_LAT ≠ j → TIK_DELAY_COMP ≠ j → (p.follow st).rd j = p.rd j := by
  unfold Part.follow
  by_cases h : p.fab.standbyTree = st
  · subst h
    rw [if_pos (by simp)]
    exact ⟨rfl, fun _ => rfl, fun _ _ _ => rfl⟩
  · obtain ⟨h1, h2⟩ := (p.modFab fun f => { f with standbyTree := st }).loadLat_keeps
    rw [if_neg (by simpa using Ne.symm h)]
    exact ⟨h1.trans rfl, fun h' => absurd h' h, fun j a b => h2 j a b⟩

theorem Part.freezeOver_on (h : p.getB TIK_CTRL 0 = true) : p.freezeOver = p := by rw [Part.freezeOver, if_pos h]

section
variable (t : TokenMsg) (h : p.txn.validating = none)
include h

/-- The registers of the part once hold and transaction have met a token (R44, R443): only the hold has changed. -/
theorem Part.heldMet_keeps : let u := (p.tokenHeld t).tokenMeetsTxn t
    u.mem = p.mem ∧ u.cores = p.cores ∧ (∀ j, u.rd j = (p.tokenHeld t).rd j) ∧ u.tickCount = p.tickCount := by
  intro u
  obtain ⟨h1, -, h3⟩ := p.tokenHeld_keeps t
  have hv : (p.tokenHeld t).txn.validating = none := by rw [h1]; exact h
  have hm := (p.tokenHeld t).tokenMeetsTxn_idle t hv
  have hq : (p.tokenHeld t).mem = p.mem ∧ (p.tokenHeld t).cores = p.cores := by
    rw [h1]
    exact ⟨rfl, rfl⟩
  have hrd : ∀ j, u.rd j = (p.tokenHeld t).rd j := fun j => congrArg (fun q => q.rd j) hm
  exact ⟨(congrArg Part.mem hm).trans hq.1, (congrArg Part.cores hm).trans hq.2, hrd, (hrd _).trans (h3 _ (by decide) (by decide))⟩

theorem Part.meetToken_regs : (p.meetToken t).mem = p.mem ∧ (p.meetToken t).cores = p.cores ∧
    (∀ j, TIK_STATUS ≠ j → TIK_STAT_HOLD ≠ j → TIK_STICKY ≠ j → (p.meetToken t).rd j = p.rd j) ∧
    (t.held = true → (p.meetToken t).getB TIK_STATUS 9 = false ∧ (p.meetToken t).getB TIK_STATUS 10 = true) ∧
    (t.count ≠ p.tickCount + 1 → (p.meetToken t).getB TIK_STICKY 3 = true) := by
  obtain ⟨u1, u2, u3, u4⟩ := p.heldMet_keeps t h
  obtain ⟨-, hh, hr⟩ := p.tokenHeld_keeps t
  obtain ⟨u, hu⟩ : ∃ u, u = (p.tokenHeld t).tokenMeetsTxn t := ⟨_, rfl⟩
  have hm : p.meetToken t = if t.count != u.tickCount + 1 then u.putB TIK_STICKY 3 true else u := by rw [hu]; rfl
  rw [← hu] at u1 u2 u3 u4
  have hb : ∀ i, u.getB TIK_STATUS i = (p.tokenHeld t).getB TIK_STATUS i := fun i => by rw [Part.getB, Part.getB, u3]
  rw [hm, u4]
  by_cases hw : t.count = p.tickCount + 1
  · rw [if_neg (by simp [hw])]
    exact ⟨u1, u2, fun j a b _ => (u3 j).trans (hr j a b), fun ht => by rw [hb, hb]; exact hh ht, fun hn => absurd hw hn⟩
  · rw [if_pos (by simpa using hw)]
    refine ⟨by simp [u1], by simp [u2], fun j a b c => ?_, fun ht => ?_, fun _ => Part.getB_putB_same _ _ _ _ (by decide)⟩
    · rw [(Part.putB_off _ _ _ _ c).1, u3, hr j a b]
    · rw [(Part.putB_off u TIK_STICKY 3 true (by decide)).2.1, (Part.putB_off u TIK_STICKY 3 true (by decide)).2.1, hb, hb]
      exact hh ht

end

end

section
variable {s : State} {bundle : Nat} {h : CtlHead} (hr : s.p.role ≠ 1) (hc : s.p.clocked = true) (hb : bundle < 8) (hu : s.p.bundleUp bundle = true)

/-- The first copy of a message is taken, and the second copy of one that was not (R350). -/
theorem Part.takeCtl_fresh (p : Part) {m : CtlMsg} (hf : p.fresh2 bundle h m) :
    p.takeCtl bundle h m = some (p.modFab fun f => { f with firstCopy := spSet none f.firstCopy bundle (if h.second then none else some m) }) := by
  unfold Part.takeCtl
  rw [if_neg]
  intro hx
  simp only [Bool.and_eq_true, beq_iff_eq] at hx
  exact hf hx.1 hx.2

theorem Part.takeCtl_second (p : Part) {m : CtlMsg} (h2 : h.second = true) (hf : spGet none p.fab.firstCopy bundle = some m) :
    p.takeCtl bundle h m = none := by
  unfold Part.takeCtl
  rw [if_pos (by rw [h2, hf]; simp)]

section
variable {t : TokenMsg}

/-- The tree that a token comes by (R35, R352). -/
def Part.tokenTree (p : Part) (t : TokenMsg) : Bool := t.master == p.getF TIK_MASTER 16 16 && t.master != p.getF TIK_MASTER 0 16

theorem tickToken_other (hp : bundle ≠ s.p.parent (s.p.tokenTree t)) : Becomes (.tickToken ⟨bundle, h⟩ t) s s.p := by
  have hcond : (decide (s.p.role = 1) || !s.p.clocked || decide (bundle ≠ s.p.parent (s.p.tokenTree t)) || decide (bundle ≥ 8) || !s.p.bundleUp bundle) =
      true := by simp [hp]
  change execTickToken ⟨bundle, h⟩ t s = _
  unfold execTickToken State.run
  dsimp only
  rw [if_pos (by rw [← Part.tokenTree, hcond])]

include hr hc hb hu

theorem tickToken_taken (hp : bundle = s.p.parent (s.p.tokenTree t)) {r : Part} (ht : s.p.takeCtl bundle h (.token t) = some r) :
    Becomes (.tickToken ⟨bundle, h⟩ t) s
      ((((r.follow (s.p.tokenTree t)).freezeOver).flood (some bundle) (passOn h) (.token t)).receiveToken t (r.ctlTime h)) := by
  have hcond : (decide (s.p.role = 1) || !s.p.clocked || decide (bundle ≠ s.p.parent (s.p.tokenTree t)) || decide (bundle ≥ 8) || !s.p.bundleUp bundle) =
      false := by simp [hr, hc, hb, hu, ← hp]
  change execTickToken ⟨bundle, h⟩ t s = _
  unfold execTickToken State.run
  dsimp only
  rw [if_neg (by rw [← Part.tokenTree, hcond]; decide), ht]
  rfl

theorem tickToken_second (hp : bundle = s.p.parent (s.p.tokenTree t)) (ht : s.p.takeCtl bundle h (.token t) = none) :
    Becomes (.tickToken ⟨bundle, h⟩ t) s s.p := by
  have hcond : (decide (s.p.role = 1) || !s.p.clocked || decide (bundle ≠ s.p.parent (s.p.tokenTree t)) || decide (bundle ≥ 8) || !s.p.bundleUp bundle) =
      false := by simp [hr, hc, hb, hu, ← hp]
  change execTickToken ⟨bundle, h⟩ t s = _
  unfold execTickToken State.run
  dsimp only
  rw [if_neg (by rw [← Part.tokenTree, hcond]; decide), ht]

end

section
variable {t : TokenMsg}
include hr hc hb hu

/-- A token that comes by the parent bundle is taken and goes on (R18, R20, R21, R44). -/
theorem tickToken_arrives (hp : bundle = s.p.parent (s.p.tokenTree t)) (hf : s.p.fresh2 bundle h (.token t)) (h0 : s.p.role = 0)
    (hon : s.p.getB TIK_CTRL 0 = true) (ht : s.p.tick.token = none) (he : s.p.tick.edge = none) (hv : s.p.txn.validating = none) :
    let at' := s.p.cycle - (h.corr + if h.second = true then 4 else 0)
    ∃ q due, Becomes (.tickToken ⟨bundle, h⟩ t) s q ∧ q.mem = s.p.mem ∧ q.cores = s.p.cores ∧ q.cycle = s.p.cycle ∧
      q.tick.token = some ⟨t, due⟩ ∧
      due = (if q.getB TIK_CTRL 1 = true then at' + q.rd TIK_DELAY_COMP else at' + q.rd TIK_LEAD - q.rd TIK_TOKEN_LAT) ∧
      (s.p.fab.standbyTree = s.p.tokenTree t → ∀ r, r ≠ TIK_STATUS → r ≠ TIK_STICKY → r ≠ TIK_STAT_HOLD → q.rd r = s.p.rd r) ∧
      (t.count ≠ s.p.tickCount + 1 → q.getB TIK_STICKY 3 = true ∧ q.tick.countErr = true) ∧
      (t.count = s.p.tickCount + 1 → q.tick.countErr = false) ∧
      (t.held = true → q.getB TIK_STATUS 9 = false ∧ q.getB TIK_STATUS 10 = true) ∧
      Floods s.p q s.p.cycle (some bundle) (passOn h) (.token t) := by
  intro at'
  obtain ⟨w, hw⟩ : ∃ w, w = s.p.modFab fun f => { f with firstCopy := spSet none f.firstCopy bundle (if h.second then none else some (.token t)) } := ⟨_, rfl⟩
  have hbec := tickToken_taken hr hc hb hu hp (s.p.takeCtl_fresh hf)
  obtain ⟨f1, f2, f3⟩ := w.follow_keeps (s.p.tokenTree t)
  obtain ⟨r, hre⟩ : ∃ r, r = w.follow (s.p.tokenTree t) := ⟨_, rfl⟩
  rw [← hre] at f1 f2 f3
  have hrd : ∀ j, TIK_TOKEN_LAT ≠ j → TIK_DELAY_COMP ≠ j → r.rd j = s.p.rd j := fun j a b => (f3 j a b).trans (by rw [hw]; rfl)
  have hrk : r.mem = s.p.mem ∧ r.cores = s.p.cores ∧ r.cycle = s.p.cycle ∧ r.tick = s.p.tick ∧ r.txn = s.p.txn := by
    rw [f1, hw]
    exact ⟨rfl, rfl, rfl, rfl, rfl⟩
  obtain ⟨r1, r2, r3, r4, r5⟩ := hrk
  have hro : r.getB TIK_CTRL 0 = true := by rw [← hon, Part.getB, Part.getB, hrd _ (by decide) (by decide)]
  rw [← hw, ← hre, r.freezeOver_on hro] at hbec
  obtain ⟨v, hve⟩ : ∃ v, v = r.flood (some bundle) (passOn h) (.token t) := ⟨_, rfl⟩
  have hvk : v.mem = r.mem ∧ v.cores = r.cores ∧ v.cycle = r.cycle ∧ v.tick = r.tick ∧ v.txn = r.txn ∧ ∀ j, v.rd j = r.rd j := by
    rw [hve]
    exact ⟨rfl, rfl, rfl, rfl, rfl, fun _ => rfl⟩
  obtain ⟨v1, v2, v3, v4, v5, v6⟩ := hvk
  have hvr : v.role ≠ 2 := by
    have hx : v.role = s.p.role := by rw [Part.role, Part.role, Part.getF, Part.getF, v6, hrd _ (by decide) (by decide)]
    rw [hx, h0]
    decide
  have hwait := v.receiveToken_waits t (w.ctlTime h) (by rw [v4, r4, ht]) (by rw [v4, r4, he]) (by rw [← hro, Part.getB, Part.getB, v6]) hvr
  rw [← hve, hwait] at hbec
  obtain ⟨m1, m2, m3⟩ := v.meetToken_keeps t
  obtain ⟨-, -, -, hcnt⟩ := v.heldMet_keeps t (by rw [v5, r5, hv])
  obtain ⟨k1, k2, k3, k4, k5⟩ := v.meetToken_regs t (by rw [v5, r5, hv])
  have hvc : v.tickCount = s.p.tickCount := (v6 _).trans (hrd _ (by decide) (by decide))
  have hat : w.ctlTime h = at' := by rw [hw]; rfl
  refine ⟨_, (v.meetToken t).tokenDue at', hbec, k1.trans (v1.trans r1), k2.trans (v2.trans r2), m3.trans (v3.trans r3), ?_, rfl, fun hst j a b c => ?_,
    fun hn => ⟨k5 (by rw [hvc]; exact hn), ?_⟩, fun hn => ?_, k4, ?_⟩
  · rw [← hat]
    rfl
  · have hrw : r = w := f2 (by rw [← hst, hw]; rfl)
    refine (k3 j (Ne.symm a) (Ne.symm c) (Ne.symm b)).trans ((v6 j).trans ?_)
    rw [hrw, hw]
    rfl
  · rw [hcnt, hvc]
    simpa using hn
  · rw [hcnt, hvc]
    simpa using hn
  · have hfl := r.flood_floods (some bundle) (passOn h) (.token t)
    rw [r3, ← hve] at hfl
    exact hfl.of_same (Part.SamePorts.of_rd fun j a b => hrd j (by unfold TIK_TOKEN_LAT; omega) (by unfold TIK_DELAY_COMP; omega))
      (congrArg Fabric.ctlOut m1)

end

theorem holdNotice_other (hp : bundle ≠ s.p.parent s.p.fab.standbyTree) : Becomes (.holdNotice ⟨bundle, h⟩) s s.p := by
  change execHoldNotice ⟨bundle, h⟩ s = _
  unfold execHoldNotice State.run
  dsimp only
  rw [if_pos (by simp [hp])]

include hr hc hb hu

/-- A hold notice that comes by the parent bundle is shown and goes on (R44). -/
theorem holdNotice_arrives (hp : bundle = s.p.parent s.p.fab.standbyTree) (hf : s.p.fresh2 bundle h .holdNotice) :
    ∃ q, Becomes (.holdNotice ⟨bundle, h⟩) s q ∧ q.getB TIK_STATUS 9 = true ∧ q.getB TIK_STATUS 10 = true ∧ q.mem = s.p.mem ∧
      q.cores = s.p.cores ∧ Floods s.p q s.p.cycle (some bundle) (passOn h) .holdNotice := by
  obtain ⟨w, hw⟩ : ∃ w, w = s.p.modFab fun f => { f with firstCopy := spSet none f.firstCopy bundle (if h.second then none else some .holdNotice) } := ⟨_, rfl⟩
  have hwk : w.mem = s.p.mem ∧ w.cores = s.p.cores ∧ w.cycle = s.p.cycle ∧ ∀ j, w.rd j = s.p.rd j := by
    rw [hw]
    exact ⟨rfl, rfl, rfl, fun _ => rfl⟩
  obtain ⟨w1, w2, w3, w4⟩ := hwk
  obtain ⟨h1, h2, -⟩ := w.showHold_shows
  have hfl := w.showHold.flood_floods (some bundle) (passOn h) .holdNotice
  refine ⟨w.showHold.flood (some bundle) (passOn h) .holdNotice, ?_, ((Part.flood_sameAt _ _ _ _).2.1 _).trans h1,
    ((Part.flood_sameAt _ _ _ _).2.1 _).trans h2, by simp [w1], by simp [w2], ?_⟩
  · change execHoldNotice ⟨bundle, h⟩ s = _
    unfold execHoldNotice State.run
    dsimp only
    rw [if_neg (by simp [hr, hc, hb, hu, ← hp]), s.p.takeCtl_fresh hf, ← hw]
  · have hcy : w.showHold.cycle = s.p.cycle := by simp [w3]
    rw [hcy] at hfl
    exact hfl.of_same (Part.SamePorts.of_rd fun j a b => ((w.showHold_off (by unfold TIK_STATUS; omega)).1).trans (w4 j)) rfl

end

/-- Settles O20: the tokens and the hold notices that arrive, what they leave and where they go on. -/
theorem tokensAndNotices : Obligations.TokensAndNotices := by
  intro s bundle h p at' hr hc hb hu
  refine ⟨fun t => ?_, fun hp hf => holdNotice_arrives hr hc hb hu hp hf, fun hp => holdNotice_other hp⟩
  intro st
  refine ⟨fun hp hf h0 hon ht he hv => tickToken_arrives hr hc hb hu hp hf h0 hon ht he hv, fun h2 hf => ?_, fun hp => tickToken_other hp⟩
  by_cases hp : bundle = p.parent st
  · exact tickToken_second hr hc hb hu hp (p.takeCtl_second h2 hf)
  · exact tickToken_other hp

end Sys2Proof.Machine
end

section
/-!
SUPPORT. What the steps of the scheduler leave of queues, cores and registers (R165, R168 to R172, R184).
-/
namespace Sys2Proof.Machine

/-- Only queues have closed, and preloads have been found complete. -/
structure Closes (p q : Part) : Prop where
  whole : q = { p with sched := q.sched }
  sch : ∀ y, q.sch y = { p.sch y with queues := (q.sch y).queues, loaded := (q.sch y).loaded }
  queue : ∀ y i, q.queue y i = p.queue y i ∨ q.queue y i = { p.queue y i with closed := true }
  loaded : ∀ y, (p.sch y).loaded = true → (q.sch y).loaded = true

/-- A queue takes nothing more: it is closed, or a submission to it after its close was refused (R165, R170). -/
def Part.shut (p : Part) (s j : Nat) : Prop := (p.queue s j).closed = true ∨ (p.queue s j).violated = true

namespace Closes

theorem refl (p : Part) : Closes p p := ⟨rfl, fun _ => rfl, fun _ _ => .inl rfl, fun _ => id⟩

theorem trans {p q r : Part} (h : Closes p q) (h' : Closes q r) : Closes p r := by
  refine ⟨?_, fun y => ?_, fun y i => ?_, fun y hl => h'.loaded y (h.loaded y hl)⟩
  · rw [h'.whole, h.whole]
  · rw [h'.sch y, h.sch y]
  · rcases h.queue y i with e | e <;> rcases h'.queue y i with e' | e'
    · exact .inl (e'.trans e)
    · exact .inr (by rw [e', e])
    · exact .inr (by rw [e', e])
    · exact .inr (by rw [e', e])

theorem ite (b : Prop) [Decidable b] {p q r : Part} (hq : Closes p q) (hr : Closes p r) : Closes p (if b then q else r) := by
  split
  · exact hq
  · exact hr

theorem each {α : Type} {f : Part → α → Part} (l : List α) (h : ∀ x p, Closes p (f p x)) (p : Part) : Closes p (p.each l f) := by
  induction l generalizing p with
  | nil => exact refl p
  | cons x l ih =>
    rw [Part.each_cons]
    exact (h x p).trans (ih _)

variable {p q : Part} (h : Closes p q)
include h

theorem cores : q.cores = p.cores := by rw [h.whole]

theorem mem : q.mem = p.mem := by rw [h.whole]

theorem cycle : q.cycle = p.cycle := by rw [h.whole]

theorem queueOn (s j : Nat) : q.queueOn s j = p.queueOn s j := by rw [h.whole]; rfl

theorem ready (y i : Nat) : (q.queue y i).ready = (p.queue y i).ready ∧ (q.queue y i).waiting = (p.queue y i).waiting := by
  rcases h.queue y i with e | e <;> rw [e] <;> exact ⟨rfl, rfl⟩

theorem shut {s j : Nat} (hs : p.shut s j) : q.shut s j := by
  unfold Part.shut at hs ⊢
  rcases h.queue s j with e | e
  · rw [e]; exact hs
  · rw [e]; exact .inl rfl

end Closes

section
variable (p : Part) (s j : Nat)

theorem Part.closeQueue_shuts : (p.closeQueue s j).shut s j := by
  unfold Part.closeQueue Part.shut
  dsimp only
  split
  · rename_i h
    simpa using h
  · rw [Part.queue_setQueue, if_pos rfl]
    exact .inl rfl

theorem Part.queue_modSch (y i : Nat) (f : Sched → Sched) (h : (f (p.sch s)).queues = (p.sch s).queues) : (p.modSch s f).queue y i = p.queue y i := by
  unfold Part.queue Part.modSch
  rw [Part.sch_setSch]
  split
  · rename_i e
    subst e
    rw [h]
  · rfl

theorem Part.queue_setQueue_other (y i : Nat) (x : Queue) (h : ¬ (s = y ∧ j = i)) : (p.setQueue s j x).queue y i = p.queue y i := by
  unfold Part.queue Part.setQueue Part.modSch
  rw [Part.sch_setSch]
  split
  · rename_i e
    subst e
    rw [spGet_spSet, if_neg fun hj => h ⟨rfl, hj⟩]
  · rfl

theorem Closes.closeQueue : Closes p (p.closeQueue s j) := by
  unfold Part.closeQueue
  refine Closes.ite _ (Closes.refl p) ⟨rfl, fun y => ?_, fun y i => ?_, fun y => ?_⟩
  · rw [Part.setQueue, Part.modSch, Part.sch_setSch]
    split
    · rename_i e
      rw [← e]
    · rfl
  · by_cases h : s = y ∧ j = i
    · obtain ⟨rfl, rfl⟩ := h
      exact .inr (by rw [Part.queue_setQueue, if_pos rfl])
    · exact .inl (p.queue_setQueue_other s j y i _ h)
  · rw [Part.setQueue, Part.modSch, Part.sch_setSch]
    split
    · rename_i e
      rw [← e]
      exact id
    · exact id

theorem Closes.closeLoaded : Closes p (p.closeLoaded s) := Closes.each _ (fun _ q => Closes.ite _ (Closes.closeQueue q _ _) (Closes.refl q)) p

theorem Closes.closeOn : Closes p (p.closeOn s j) := Closes.each _ (fun _ q => Closes.ite _ (Closes.closeQueue q _ _) (Closes.refl q)) p

theorem Closes.markLoaded : Closes p (p.modSch s fun h => { h with loaded := true }) := by
  refine ⟨rfl, fun y => ?_, fun y i => .inl (p.queue_modSch s y i _ rfl), fun y => ?_⟩
  · rw [Part.modSch, Part.sch_setSch]
    split
    · rename_i e
      rw [← e]
    · rfl
  · rw [Part.modSch, Part.sch_setSch]
    split
    · exact fun _ => rfl
    · exact id

theorem Closes.preloadEnd : Closes p (p.preloadEnd s) :=
  Closes.ite _ (Closes.refl p) ((Closes.markLoaded p s).trans (Closes.closeLoaded _ s))

/-- What a step over a list of queues does to one of them, when the rest of the steps only close queues. -/
theorem Part.each_shuts {f : Part → Nat → Part} {l : List Nat} (hj : j ∈ l) (hf : ∀ i q, Closes q (f q i)) (h : ∀ q, Closes p q → (f q j).shut s j) :
    (p.each l f).shut s j := by
  induction l generalizing p with
  | nil => cases hj
  | cons i l ih =>
    rw [Part.each_cons]
    rcases List.mem_cons.1 hj with rfl | hj
    · exact (Closes.each l hf _).shut (h p (Closes.refl p))
    · exact ih (f p i) hj fun q hq => h q ((hf i p).trans hq)

end

end Sys2Proof.Machine
end

section
/-!
PROOF. Preload, submissions and hand-overs (R168, R169, R172 to R174, R184).
-/
namespace Sys2Proof.Machine

section
variable (p : Part) (s q : Nat)

@[simp] theorem Part.schErr_sched (i pair : Nat) : (p.schErr s i pair).sched = p.sched := by simp [Part.schErr, Part.noteErr]

@[simp] theorem Part.schDrop_sched (i pair : Nat) : (p.schDrop s i pair).sched = p.sched := by simp [Part.schDrop]

/-- What a descriptor that enters a queue changes in the schedulers: queues and the count of submissions. -/
structure Enters (p r : Part) : Prop where
  mem : r.mem = p.mem
  cores : r.cores = p.cores
  cycle : r.cycle = p.cycle
  sch : ∀ y, r.sch y = { p.sch y with queues := (r.sch y).queues, nextN := (r.sch y).nextN }

theorem Enters.refl (p : Part) : Enters p p := ⟨rfl, rfl, rfl, fun _ => rfl⟩

theorem Enters.trans {p q r : Part} (h : Enters p q) (h' : Enters q r) : Enters p r :=
  ⟨h'.mem.trans h.mem, h'.cores.trans h.cores, h'.cycle.trans h.cycle, fun y => by rw [h'.sch y, h.sch y]⟩

theorem Enters.setQueue (x : Queue) : Enters p (p.setQueue s q x) := by
  refine ⟨rfl, rfl, rfl, fun y => ?_⟩
  rw [Part.setQueue, Part.modSch, Part.sch_setSch]
  split
  · rename_i e
    rw [← e]
  · rfl

theorem Enters.count : Enters p (p.modSch s fun h => { h with nextN := h.nextN + 1 }) := by
  refine ⟨rfl, rfl, rfl, fun y => ?_⟩
  rw [Part.modSch, Part.sch_setSch]
  split
  · rename_i e
    rw [← e]
  · rfl

theorem Enters.ofSched {r : Part} (hm : r.mem = p.mem) (hc : r.cores = p.cores) (hy : r.cycle = p.cycle) (hs : r.sched = p.sched) : Enters p r :=
  ⟨hm, hc, hy, fun y => by rw [Part.sch_congr hs]⟩

/-- A descriptor that becomes ready stands last in its queue (R172, R175). -/
theorem Part.becomeReady_enters (d : Desc) : Enters p (p.becomeReady s q d) ∧
    ∃ st, ((p.becomeReady s q d).queue s q).ready = (p.queue s q).ready ++ [{ d with stale := st }] ∧
      ((p.becomeReady s q d).queue s q).waiting = (p.queue s q).waiting := by
  unfold Part.becomeReady
  extract_lets stale x r
  have hr : Enters p r := Enters.setQueue p s q _
  have hq : (r.queue s q).ready = (p.queue s q).ready ++ [{ d with stale := stale }] ∧ (r.queue s q).waiting = (p.queue s q).waiting := by
    unfold r
    rw [Part.queue_setQueue, if_pos rfl]
    exact ⟨rfl, rfl⟩
  split
  · have hs : (r.schErr s 3 (dTag d.bytes)).queue s q = r.queue s q := by
      unfold Part.queue
      rw [Part.sch_congr (r.schErr_sched s 3 _)]
    exact ⟨hr.trans (Enters.ofSched r (by simp) (by simp) (by simp [Part.schErr, Part.noteErr]) (by simp)), stale, by rw [hs]; exact hq⟩
  · exact ⟨hr, stale, hq⟩

section
variable (bytes : List Byte) (counted : Bool) (ho : p.queueOn s q = true) (hc : (p.queue s q).closed = false) (hv : (p.queue s q).violated = false)
include ho hc hv

/-- What a descriptor that its queue takes meets: the queue as it was, and the count of submissions gone on (R168). -/
theorem Part.enterQueue_takes : ∃ r, Enters p r ∧ r.queue s q = p.queue s q ∧
    (dWait bytes = none → p.enterQueue s q bytes counted = r.becomeReady s q ⟨(p.sch s).nextN, bytes, false⟩) ∧
    (∀ j, dWait bytes = some j → p.dcVal s j = 0 → p.enterQueue s q bytes counted = r.becomeReady s q ⟨(p.sch s).nextN, bytes, false⟩) ∧
    ∀ j, dWait bytes = some j → p.dcVal s j ≠ 0 → p.enterQueue s q bytes counted =
      r.setQueue s q { p.queue s q with waiting := (p.queue s q).waiting ++ [⟨(p.sch s).nextN, bytes, false⟩] } := by
  obtain ⟨u, hu⟩ : ∃ u, u = p.modSch s fun h => { h with nextN := h.nextN + 1 } := ⟨_, rfl⟩
  obtain ⟨r, hr⟩ : ∃ r, r = if counted then u else u.bump (SCH_STAT_SUBMIT s) 1 := ⟨_, rfl⟩
  have hru : r.mem = u.mem ∧ r.cores = u.cores ∧ r.cycle = u.cycle ∧ r.sched = u.sched := by
    rw [hr]
    split <;> simp
  obtain ⟨r1, r2, r3, r4⟩ := hru
  have hpr : Enters p r := (hu ▸ Enters.count p s : Enters p u).trans (Enters.ofSched u r1 r2 r3 r4)
  have hq : r.queue s q = p.queue s q := by
    have h1 : r.queue s q = u.queue s q := by unfold Part.queue; rw [Part.sch_congr r4]
    rw [h1, hu, Part.queue_modSch _ _ _ _ _ rfl]
  have hdc : ∀ j, r.dcVal s j = p.dcVal s j := fun j => by unfold Part.dcVal; rw [hpr.sch s]
  refine ⟨r, hpr, hq, fun hw => ?_, fun j hw hz => ?_, fun j hw hz => ?_⟩
  all_goals
    unfold Part.enterQueue
    dsimp only
    rw [ho, hc, hv, if_neg (by decide), if_neg (by decide), hw, ← hu, ← hr]
  · exact if_pos ((hdc j).trans hz)
  · exact if_neg fun h => hz ((hdc j).symm.trans h)

/-- A descriptor that its queue takes is ready, or waits on its counter (R168, R170, R172). -/
theorem Part.enterQueue_enters : Enters p (p.enterQueue s q bytes counted) ∧
    (dWait bytes = none → ∃ st, ((p.enterQueue s q bytes counted).queue s q).ready = (p.queue s q).ready ++ [⟨(p.sch s).nextN, bytes, st⟩] ∧
      ((p.enterQueue s q bytes counted).queue s q).waiting = (p.queue s q).waiting) ∧
    ∀ j, dWait bytes = some j → p.dcVal s j ≠ 0 →
      ((p.enterQueue s q bytes counted).queue s q).waiting = (p.queue s q).waiting ++ [⟨(p.sch s).nextN, bytes, false⟩] ∧
      ((p.enterQueue s q bytes counted).queue s q).ready = (p.queue s q).ready := by
  obtain ⟨r, hr, hq, h1, h2, h3⟩ := p.enterQueue_takes s q bytes counted ho hc hv
  obtain ⟨he, hb⟩ := r.becomeReady_enters s q ⟨(p.sch s).nextN, bytes, false⟩
  rw [hq] at hb
  refine ⟨?_, fun hw => ?_, fun j hw hz => ?_⟩
  · cases hw : dWait bytes with
    | none => rw [h1 hw]; exact hr.trans he
    | some j =>
      by_cases hz : p.dcVal s j = 0
      · rw [h2 j hw hz]; exact hr.trans he
      · rw [h3 j hw hz]; exact hr.trans (Enters.setQueue r s q _)
  · rw [h1 hw]
    exact hb
  · rw [h3 j hw hz, Part.queue_setQueue, if_pos rfl]
    exact ⟨rfl, rfl⟩

end

/-- A queue is configured by no reset value (R16). -/
theorem regReset_schQcfg {j : Nat} (hj : j < 16384) : regReset (SCH_QCFG s j) = 0 := by
  have ho : (SCH_QCFG s j - 0x2000000) % 0x800000 = 0x410000 + 8 * j := by
    unfold SCH_QCFG secBase
    omega
  have hnone : secResets.find? (·.at (0x410000 + 8 * j)) = none := by
    refine List.find?_eq_none.2 fun r hr => ?_
    simp only [secResets, List.mem_cons, List.not_mem_nil, or_false] at hr
    rcases hr with rfl | rfl | rfl | rfl | rfl | rfl | rfl <;> simp [RegRow.at] <;> omega
  unfold regReset
  dsimp only
  rw [if_neg (by unfold SCH_QCFG secBase; omega), ho, if_neg (by omega), hnone]

/-- The queue that a register configures is one of those the graft has configured. -/
theorem Part.mem_cfgQueues {j : Nat} (h : p.getB (SCH_QCFG s j) 15 = true) (hj : j < 16384) : j ∈ p.cfgQueues s := by
  have hne : ∃ e ∈ p.regs, e.1 = SCH_QCFG s j := by
    by_contra hn
    have h0 : p.rd (SCH_QCFG s j) = 0 := by
      rw [Part.rd, spGet_absent fun e he hk => hn ⟨e, he, hk⟩, regReset_schQcfg s hj]
      rfl
    rw [Part.getB, h0] at h
    exact absurd h (by decide)
  obtain ⟨e, he, h1⟩ := hne
  refine List.mem_filterMap.2 ⟨e, he, ?_⟩
  rw [h1, if_pos (by unfold SCH_QCFG; simp; omega)]
  unfold SCH_QCFG
  simp

theorem Part.cfgQueues_lt {j : Nat} (h : j ∈ p.cfgQueues s) : j < 16384 := by
  obtain ⟨e, -, he⟩ := List.mem_filterMap.1 h
  split at he
  · rename_i hr
    have hlt := of_decide_eq_true (Bool.and_eq_true _ _ ▸ hr).2
    unfold SCH_QCFG at hlt
    have hj := Option.some.inj he
    unfold SCH_QCFG at hj
    omega
  · cases he

/-- A register of the scheduler's tables counts no cycle: it lies below the memory controllers' and is not the count of held entries. -/
theorem Part.clockTo_table (n : Nat) {j : Nat} (h0 : 0x2000000 ≤ j) (h1 : 0x400000 ≤ (j - 0x2000000) % 0x800000)
    (h2 : (j - 0x2000000) % 0x800000 < 0x540000) (h3 : (j - 0x2000000) % 0x800000 ≠ 0x400058) : (p.clockTo n).SameAt p j := by
  have hcore : ∀ c x, x < 0x400 → j ≠ corBase c + x := fun c x hx => by
    unfold corBase secBase
    omega
  have hsec : ∀ y, j ≠ SCH_STAT_BP y ∧ j ≠ MEM_STAT_THROTTLE y := fun y => by
    unfold SCH_STAT_BP MEM_STAT_THROTTLE secBase
    omega
  refine Part.sameAt_of_rd (p.clockTo_rd n ?_ (by unfold HIF_STAT_CRWAIT; omega))
  unfold Part.cycleCounts
  simp only [List.mem_append, not_or, List.mem_flatMap, List.mem_map, not_exists, not_and]
  refine ⟨?_, fun y _ i _ => (hsec y).2.symm⟩
  split
  · simp
  · simp only [List.mem_append, not_or, List.mem_flatMap, List.mem_map, not_exists, not_and]
    refine ⟨fun e _ => ?_, fun y _ => (hsec y).1.symm⟩
    simp only [Core.cycleCounts, List.mem_append, not_or]
    constructor
    · split <;> simp [COR_STAT_ASK, COR_STAT_WAIT, COR_STAT_HERD, hcore]
    · split <;> simp [COR_STAT_FTQ, hcore]

end

section
variable (p : Part) (s : Nat)

/-- The queue of a descriptor that waits no more is shut when its close counter loads as zero (R172). -/
theorem Part.closeLoaded_shuts {j : Nat} (hj : j ∈ p.cfgQueues s) (ho : p.queueOn s j = true) (hc : p.getB (SCH_QCFG s j) 15 = true)
    (hz : p.getF (SCH_DC_INIT s p.kind (p.getF (SCH_QCFG s j) 0 14 / 2)) (16 * (p.getF (SCH_QCFG s j) 0 14 % 2)) 16 = 0) :
    (p.closeLoaded s).shut s j := by
  refine p.each_shuts s j hj (fun i q => Closes.ite _ (Closes.closeQueue q _ _) (Closes.refl q)) fun q hq => ?_
  have hreg : q.regs = p.regs := by rw [hq.whole]
  have hcond : (q.queueOn s j && q.getB (SCH_QCFG s j) 15 &&
      q.getF (SCH_DC_INIT s q.kind (q.getF (SCH_QCFG s j) 0 14 / 2)) (16 * (q.getF (SCH_QCFG s j) 0 14 % 2)) 16 == 0) = true := by
    rw [hq.queueOn s j, hq.whole]
    change (p.queueOn s j && p.getB (SCH_QCFG s j) 15 &&
      p.getF (SCH_DC_INIT s p.kind (p.getF (SCH_QCFG s j) 0 14 / 2)) (16 * (p.getF (SCH_QCFG s j) 0 14 % 2)) 16 == 0) = true
    rw [ho, hc, hz]
    rfl
  dsimp only
  rw [if_pos hcond]
  exact q.closeQueue_shuts s j

/-- A queue closes when its close counter has reached zero (R172). -/
theorem Part.closeOn_shuts {j k : Nat} (hk : k ∈ p.cfgQueues s) (ho : p.queueOn s k = true) (hc : p.getB (SCH_QCFG s k) 15 = true)
    (hj : p.getF (SCH_QCFG s k) 0 14 = j) : (p.closeOn s j).shut s k := by
  refine p.each_shuts s k hk (fun i q => Closes.ite _ (Closes.closeQueue q _ _) (Closes.refl q)) fun q hq => ?_
  have hcond : (q.queueOn s k && q.getB (SCH_QCFG s k) 15 && q.getF (SCH_QCFG s k) 0 14 == j) = true := by
    rw [hq.queueOn s k, hq.whole]
    change (p.queueOn s k && p.getB (SCH_QCFG s k) 15 && p.getF (SCH_QCFG s k) 0 14 == j) = true
    rw [ho, hc, hj]
    simp
  rw [if_pos hcond]
  exact q.closeQueue_shuts s k

end

end Sys2Proof.Machine
end

section
/-!
PROOF. Preload, submissions and hand-overs, step by step (R168, R169, R172 to R174, R184).
-/
namespace Sys2Proof.Machine

section
variable (p : Part) (s : Nat)

theorem Part.sch_modSch_same (f : Sched → Sched) : (p.modSch s f).sch s = f (p.sch s) := by rw [Part.modSch, Part.sch_setSch, if_pos rfl]

theorem Part.delayPut_cores (q : Nat) (bs : List Byte) : (p.delayPut s q bs).cores = p.cores := by simp [Part.delayPut]

/-- A descriptor that is delayed stands in the delay list of its sector (R168). -/
theorem Part.delayPut_sch (q : Nat) (bs : List Byte) : ((p.delayPut s q bs).sch s).subs = (p.sch s).subs ∧
    ((p.delayPut s q bs).sch s).delay.length = (p.sch s).delay.length + 1 := by
  unfold Part.delayPut
  extract_lets slot e r u
  have hr : r.sch s = p.sch s := Part.sch_congr (by simp [r]) s
  have hu : u.sch s = { p.sch s with delay := (p.sch s).delay ++ [e] } := by unfold u; rw [Part.sch_modSch_same, hr]
  have hq : ∀ v k, ((u.wr (SCH_DELAY_USE s) v).bump (SCH_STAT_SUBMIT s) k).sch s = u.sch s := fun v k => rfl
  rw [hq, hu]
  exact ⟨rfl, by simp⟩

theorem Part.enterDelay_cores (q : Nat) (bs : List Byte) : (p.enterDelay s q bs).cores = p.cores := by
  unfold Part.enterDelay
  split
  · exact p.delayPut_cores s q bs
  · simp

theorem Part.submitLocal_cores (src : SubSrc) (name pair : Nat) (bs : List Byte) (b : Bool) : (p.submitLocal src name pair bs b).cores = p.cores := by
  unfold Part.submitLocal
  dsimp only
  repeat' split
  · simp
  · exact p.enterDelay_cores _ _ _
  · simp
  · simp

theorem Part.preloadEntry_cores (base i : Nat) : (p.preloadEntry s base i).cores = p.cores := by
  unfold Part.preloadEntry
  dsimp only
  split
  · simp
  · rw [Part.submitLocal_cores]
    simp

theorem Part.preloadHost_cores (a : Accepted) : (p.preloadHost s a).cores = p.cores := by
  unfold Part.preloadHost
  split
  · exact p.submitLocal_cores _ _ _ _ _
  · rfl

/-- A preload is complete when none of its descriptors waits: the queues whose counter loads as zero close (R172, R184). -/
theorem Part.preloadEnd_loads (hp : (p.sch s).preloaded = true) (hl : (p.sch s).loaded = false) (hw : p.preloadWaits s = false) :
    p.preloadEnd s = (p.modSch s fun h => { h with loaded := true }).closeLoaded s := by
  unfold Part.preloadEnd
  dsimp only
  rw [hp, hl, hw, if_neg (by decide)]

theorem Part.preloadWaits_congr {q : Part} (h : ∀ y, (q.sch y).subs = (p.sch y).subs) : q.preloadWaits s = p.preloadWaits s := by
  unfold Part.preloadWaits
  rw [h]
  simp only [h]

end

section
variable {s : State} {sector : BitVec 2}

/-- The part once the list of its preload and the host's descriptors have been submitted (R184, R408). -/
def Part.preloads (p : Part) (x : Nat) : Part :=
  let r := p.rd (SCH_PRELOAD x p.kind)
  let p := p.each (List.range (fld r 48 15)) fun p i => p.preloadEntry x (fld r 0 40) i
  p.each p.hif.accepted fun p a => p.preloadHost x a

theorem preload_becomes (hr : s.p.schRuns sector.toNat = true) (hu : s.p.tick.unwinding = false) (hp : (s.p.sch sector.toNat).preloaded = false) :
    Becomes (.preload sector) s ((((s.p.clockTo (s.p.tick.frameStart + 128)).preloads sector.toNat).modSch sector.toNat
      fun h => { h with preloaded := true }).preloadEnd sector.toNat) := by
  change execPreload sector s = _
  unfold execPreload State.run
  beta_reduce
  refine congrArg (fun r => (.next { s with p := r } : Answer)) (if_neg ?_)
  rw [hr, hu, hp]
  decide

theorem Part.preloads_cores (p : Part) (x : Nat) : (p.preloads x).cores = p.cores := by
  unfold Part.preloads
  dsimp only
  rw [Part.each_get (fun q => q.cores) _ _ _ fun q a => q.preloadHost_cores x a,
    Part.each_get (fun q => q.cores) _ _ _ fun q i => q.preloadEntry_cores x _ i]

theorem Part.preloads_none (p : Part) (x : Nat) (h : fld (p.rd (SCH_PRELOAD x p.kind)) 48 15 = 0) (ha : p.hif.accepted = []) : p.preloads x = p := by
  unfold Part.preloads
  dsimp only
  rw [h, List.range_zero, Part.each_nil, ha, Part.each_nil]

/-- The kind and the phase of the frame do not change with the cycle. -/
theorem Part.clockTo_frame (p : Part) (n : Nat) : (p.clockTo n).kind = p.kind ∧ (p.clockTo n).phase = p.phase := by
  have h : ∀ j lo w, j < 0x2000000 → j ≠ HIF_STAT_CRWAIT → (p.clockTo n).getF j lo w = p.getF j lo w := fun j lo w h h' =>
    (Part.clockTo_off p n h h').2.2 lo w
  have hlt := p.getF_lt TIK_SEASON_POS 16 4
  constructor
  · unfold Part.kind
    rw [h TIK_SEASON_POS _ _ (by decide) (by decide), h _ _ _ (by unfold TIK_SPAN; omega) (by unfold TIK_SPAN HIF_STAT_CRWAIT; omega)]
  · exact h TIK_STATUS _ _ (by decide) (by decide)

/-- Whether a queue takes descriptors does not change with the cycle (R164). -/
theorem Part.clockTo_queueOn (p : Part) (n x j : Nat) (hj : j < 16384) : (p.clockTo n).queueOn x j = p.queueOn x j := by
  obtain ⟨hk, hp⟩ := p.clockTo_frame n
  unfold Part.queueOn Part.schOn Part.inFrame
  rw [hk, hp, (p.clockTo_table n (j := SCH_CTRL x) (by unfold SCH_CTRL secBase; omega) (by unfold SCH_CTRL secBase; omega)
    (by unfold SCH_CTRL secBase; omega) (by unfold SCH_CTRL secBase; omega)).2.1, (p.clockTo_table n (j := SCH_QCFG x j)
    (by unfold SCH_QCFG secBase; omega) (by unfold SCH_QCFG secBase; omega) (by unfold SCH_QCFG secBase; omega) (by unfold SCH_QCFG secBase; omega)).2.1]

/-- Preload (R184): it runs once, and with nothing to wait for it closes the queues whose counter loads as zero (R172). -/
theorem preload_preloads (hr : s.p.schRuns sector.toNat = true) (hu : s.p.tick.unwinding = false) (hp : (s.p.sch sector.toNat).preloaded = false) :
    ∃ q, Becomes (.preload sector) s q ∧ (q.sch sector.toNat).preloaded = true ∧ q.cores = s.p.cores ∧
      (fld (s.p.rd (SCH_PRELOAD sector.toNat s.p.kind)) 48 15 = 0 → s.p.hif.accepted = [] →
        q.cycle = max s.p.cycle (s.p.tick.frameStart + 128) ∧ q.mem = s.p.mem ∧
        ((s.p.sch sector.toNat).loaded = false → s.p.preloadWaits sector.toNat = false → (q.sch sector.toNat).loaded = true ∧
          ∀ j ∈ s.p.cfgQueues sector.toNat, s.p.queueOn sector.toNat j = true → s.p.getB (SCH_QCFG sector.toNat j) 15 = true →
            s.p.getF (SCH_DC_INIT sector.toNat s.p.kind (s.p.getF (SCH_QCFG sector.toNat j) 0 14 / 2))
              (16 * (s.p.getF (SCH_QCFG sector.toNat j) 0 14 % 2)) 16 = 0 →
            q.shut sector.toNat j)) := by
  obtain ⟨x, hx⟩ : ∃ x, x = sector.toNat := ⟨_, rfl⟩
  have hx4 : x < 4 := hx ▸ sector.isLt
  have hbec := preload_becomes hr hu hp
  rw [← hx] at hbec hp ⊢
  obtain ⟨r, hre⟩ : ∃ r, r = s.p.clockTo (s.p.tick.frameStart + 128) := ⟨_, rfl⟩
  obtain ⟨v, hv⟩ : ∃ v, v = (r.preloads x).modSch x fun h => { h with preloaded := true } := ⟨_, rfl⟩
  rw [← hre, ← hv] at hbec
  have hcl := Closes.preloadEnd v x
  have hvp : (v.sch x).preloaded = true := by rw [hv, Part.sch_modSch_same]
  refine ⟨_, hbec, ?_, ?_, fun hz ha => ?_⟩
  · rw [hcl.sch x]
    exact hvp
  · rw [hcl.cores, hv]
    exact (r.preloads_cores x).trans (by rw [hre]; simp)
  · have hk : r.kind = s.p.kind := hre ▸ (s.p.clockTo_frame _).1
    have hk4 : s.p.kind < 4 := s.p.getF_lt _ 16 2
    have htab : ∀ j, 0x2000000 ≤ j → 0x400000 ≤ (j - 0x2000000) % 0x800000 → (j - 0x2000000) % 0x800000 < 0x540000 →
        (j - 0x2000000) % 0x800000 ≠ 0x400058 → r.SameAt s.p j := fun j h0 h1 h2 h3 => hre ▸ s.p.clockTo_table _ h0 h1 h2 h3
    have hnone : r.preloads x = r := by
      refine r.preloads_none x ?_ (by rw [hre]; simpa using ha)
      rw [hk, (htab _ (by unfold SCH_PRELOAD secBase; omega) (by unfold SCH_PRELOAD secBase; omega) (by unfold SCH_PRELOAD secBase; omega)
        (by unfold SCH_PRELOAD secBase; omega)).1]
      exact hz
    rw [hnone] at hv
    refine ⟨?_, ?_, fun hl hw => ?_⟩
    · rw [hcl.cycle, hv, hre]
      simp [Part.modSch, Part.setSch]
    · rw [hcl.mem, hv, hre]
      simp [Part.modSch, Part.setSch]
    · have hvs : ∀ y, (v.sch y).subs = (s.p.sch y).subs := fun y => by
        have h1 : ∀ y, r.sch y = s.p.sch y := fun y => by rw [hre]; simp
        rw [hv, Part.modSch, Part.sch_setSch]
        split
        · rename_i e
          rw [← e, h1]
        · rw [h1]
      have hvl : (v.sch x).loaded = false := by
        rw [hv, Part.sch_modSch_same, hre]
        simpa using hl
      have hvw : v.preloadWaits x = false := (s.p.preloadWaits_congr x hvs).trans hw
      rw [v.preloadEnd_loads x hvp hvl hvw]
      obtain ⟨u, hu⟩ : ∃ u, u = v.modSch x fun h => { h with loaded := true } := ⟨_, rfl⟩
      rw [← hu]
      refine ⟨(Closes.closeLoaded u x).loaded x (by rw [hu, Part.sch_modSch_same]), fun j hj ho hc h0 => ?_⟩
      have hj4 := s.p.cfgQueues_lt x hj
      have hud : u.rd = r.rd ∧ u.queueOn x j = r.queueOn x j ∧ u.kind = r.kind := by
        rw [hu, hv]
        exact ⟨rfl, rfl, rfl⟩
      obtain ⟨ud, uo, uk⟩ := hud
      have hqc : r.SameAt s.p (SCH_QCFG x j) := htab _ (by unfold SCH_QCFG secBase; omega) (by unfold SCH_QCFG secBase; omega)
        (by unfold SCH_QCFG secBase; omega) (by unfold SCH_QCFG secBase; omega)
      have hub : u.getB (SCH_QCFG x j) 15 = true := by rw [Part.getB, ud, ← hc]; exact hqc.2.1 15
      have huf : u.getF (SCH_QCFG x j) 0 14 = s.p.getF (SCH_QCFG x j) 0 14 := by rw [Part.getF, ud]; exact hqc.2.2 0 14
      have hf14 := s.p.getF_lt (SCH_QCFG x j) 0 14
      refine u.closeLoaded_shuts x (u.mem_cfgQueues x hub hj4) ?_ hub ?_
      · rw [uo, hre, Part.clockTo_queueOn _ _ _ _ hj4, ho]
      · rw [huf, uk, hk, Part.getF, ud]
        refine Eq.trans ((htab _ ?_ ?_ ?_ ?_).2.2 _ _) h0 <;> unfold SCH_DC_INIT secBase <;> omega

/-- A submission that can be judged is taken first when it is the oldest (R168). -/
theorem Part.takeSub_first (p : Part) {x : Nat} {u : Sub} {rest : List Sub} (hs : (p.sch x).subs = u :: rest) (hr : p.subReady x u = true) :
    p.takeSub x = some (u, p.modSch x fun h => { h with subs := rest }) := by
  unfold Part.takeSub
  dsimp only
  rw [hs, Part.takeSub.go, hr, if_pos rfl]
  rfl

theorem descEnterQueue_becomes {u : Sub} {rest : List Sub} (hw : s.p.working = true) (hs : (s.p.sch sector.toNat).subs = u :: rest)
    (hr : s.p.subReady sector.toNat u = true) : Becomes (.descEnterQueue sector) s
      (((s.p.modSch sector.toNat fun h => { h with subs := rest }).arrive sector.toNat u).each sectors Part.preloadEnd) := by
  change execDescEnterQueue sector s = _
  unfold execDescEnterQueue State.run
  dsimp only
  rw [hw, if_neg (by decide), s.p.takeSub_first hs hr]

/-- A submission that its queue takes enters it (R168, R170, R172). -/
theorem descEnterQueue_enters {u : Sub} {rest : List Sub} (hw : s.p.working = true) (hs : (s.p.sch sector.toNat).subs = u :: rest)
    (h0 : dCtrl u.bytes 0 = false) (ho : s.p.queueOn sector.toNat u.queue = true) (hc : (s.p.queue sector.toNat u.queue).closed = false)
    (hv : (s.p.queue sector.toNat u.queue).violated = false) (hl : (s.p.queue sector.toNat u.queue).held < s.p.queueSlots sector.toNat u.queue) :
    let x := sector.toNat
    ∃ q, Becomes (.descEnterQueue sector) s q ∧ (q.sch x).subs = rest ∧ q.cores = s.p.cores ∧ q.mem = s.p.mem ∧
      (dWait u.bytes = none → ∃ st, (q.queue x u.queue).ready = (s.p.queue x u.queue).ready ++ [⟨(s.p.sch x).nextN, u.bytes, st⟩] ∧
        (q.queue x u.queue).waiting = (s.p.queue x u.queue).waiting) ∧
      ∀ j, dWait u.bytes = some j → s.p.dcVal x j ≠ 0 →
        (q.queue x u.queue).waiting = (s.p.queue x u.queue).waiting ++ [⟨(s.p.sch x).nextN, u.bytes, false⟩] ∧
        (q.queue x u.queue).ready = (s.p.queue x u.queue).ready := by
  intro x
  have hr : s.p.subReady x u = true := by
    unfold Part.subReady
    dsimp only
    rw [if_neg (by rw [h0]; decide), ho, hc, hv]
    simpa using hl
  have hbec := descEnterQueue_becomes hw hs hr
  obtain ⟨w, hwe⟩ : ∃ w, w = s.p.modSch x fun h => { h with subs := rest } := ⟨_, rfl⟩
  have hwq : ∀ i, w.queue x i = s.p.queue x i := fun i => by rw [hwe]; exact s.p.queue_modSch x x i _ rfl
  have hws : w.sch x = { s.p.sch x with subs := rest } := by rw [hwe, Part.sch_modSch_same]
  have hwd : ∀ j, w.dcVal x j = s.p.dcVal x j := fun j => by rw [Part.dcVal, hws]; rfl
  have hwn : (w.sch x).nextN = (s.p.sch x).nextN := by rw [hws]
  have hwo : w.queueOn x u.queue = true := by rw [← ho, hwe]; rfl
  have ha : w.arrive x u = w.enterQueue x u.queue u.bytes false := by rw [Part.arrive, if_neg (by rw [h0]; decide)]
  obtain ⟨he, hn, hj⟩ := w.enterQueue_enters x u.queue u.bytes false hwo (by rw [hwq]; exact hc) (by rw [hwq]; exact hv)
  rw [hwq, hwn] at hn
  simp only [hwq, hwn, hwd] at hj
  rw [← hwe, ha] at hbec
  have hcl := Closes.each sectors (fun y q => Closes.preloadEnd q y) (w.enterQueue x u.queue u.bytes false)
  obtain ⟨hq1, hq2⟩ := hcl.ready x u.queue
  refine ⟨_, hbec, ?_, hcl.cores.trans (he.cores.trans (by rw [hwe]; rfl)), hcl.mem.trans (he.mem.trans (by rw [hwe]; rfl)), fun h => ?_, fun j h hz => ?_⟩
  · rw [hcl.sch x, he.sch x, hws]
  · rw [hq1, hq2]
    exact hn h
  · rw [hq1, hq2]
    exact hj j h hz

/-- A delayed submission goes into the delay list (R168, R182). -/
theorem descEnterQueue_delays {u : Sub} {rest : List Sub} (hw : s.p.working = true) (hs : (s.p.sch sector.toNat).subs = u :: rest)
    (h0 : dCtrl u.bytes 0 = true) (ho : s.p.schOn sector.toNat = true) (hf : s.p.delayFull sector.toNat = false) :
    let x := sector.toNat
    ∃ q, Becomes (.descEnterQueue sector) s q ∧ (q.sch x).subs = rest ∧ q.cores = s.p.cores ∧
      (q.sch x).delay.length = (s.p.sch x).delay.length + 1 := by
  intro x
  have hr : s.p.subReady x u = true := by
    unfold Part.subReady
    dsimp only
    rw [h0, if_pos rfl, hf, Bool.and_false, Bool.not_false]
  have hbec := descEnterQueue_becomes hw hs hr
  obtain ⟨w, hwe⟩ : ∃ w, w = s.p.modSch x fun h => { h with subs := rest } := ⟨_, rfl⟩
  have hws : w.sch x = { s.p.sch x with subs := rest } := by rw [hwe, Part.sch_modSch_same]
  have hwo : w.schOn x = true := by rw [← ho, hwe]; rfl
  have ha : w.arrive x u = w.delayPut x u.queue u.bytes := by rw [Part.arrive, h0, if_pos rfl, Part.enterDelay, hwo, if_pos rfl]
  rw [← hwe, ha] at hbec
  have hd : ((w.delayPut x u.queue u.bytes).sch x).subs = rest ∧ ((w.delayPut x u.queue u.bytes).sch x).delay.length = (s.p.sch x).delay.length + 1 := by
    obtain ⟨h1, h2⟩ := w.delayPut_sch x u.queue u.bytes
    rw [h1, h2, hws]
    exact ⟨rfl, rfl⟩
  have hcl := Closes.each sectors (fun y q => Closes.preloadEnd q y) (w.delayPut x u.queue u.bytes)
  refine ⟨_, hbec, ?_, hcl.cores.trans ((w.delayPut_cores x u.queue u.bytes).trans (by rw [hwe]; rfl)), ?_⟩
  · rw [hcl.sch x]
    exact hd.1
  · rw [hcl.sch x]
    exact hd.2

/-- A submission from another part takes a place of the buffer (R169). -/
theorem remoteSubmission_buffers {k b : Packet} (hk : s.p.remoteSub sector.toNat = some (k, b)) (hl : s.p.live = true)
    (hn : (s.p.sch sector.toNat).inbound.length < 64) (hp : b.poison = 0) (hb : descBad (b.payload.take 64) false = false)
    (hd : dCtrl (b.payload.take 64) 0 = false) :
    let x := sector.toNat
    ∃ q, Becomes (.remoteSubmission sector) s q ∧ q.fab = { s.p.fab with rx := (s.p.fab.rx.erase k).erase b } ∧ q.cores = s.p.cores ∧
      q.mem = s.p.mem ∧ q.regs = s.p.regs ∧
      (q.sch x).inbound = (s.p.sch x).inbound ++ [⟨leAt k.payload 0 2 % 16384, .remote, b.payload.take 64⟩] := by
  intro x
  refine ⟨(s.p.modFab fun f => { f with rx := (f.rx.erase k).erase b }).modSch x fun h =>
    { h with inbound := h.inbound ++ [⟨leAt k.payload 0 2 % 16384, .remote, b.payload.take 64⟩] }, ?_, rfl, rfl, rfl, rfl, ?_⟩
  · change execRemoteSubmission sector s = _
    unfold execRemoteSubmission State.run
    dsimp only
    rw [hk]
    dsimp only
    rw [hl, if_neg (by simpa using hn), if_neg (by simp [hp]), hb, if_neg (by decide), hd, Bool.false_and, if_neg (by decide)]
  · rw [Part.sch_modSch_same]
    rfl

end

section
variable {p q : Part} (hm : q.mem = p.mem)
include hm

theorem Part.writeGran_congr (a : Nat) (bs : List Byte) (t : Option Nat) : (q.writeGran a bs t).mem = (p.writeGran a bs t).mem := by
  have hg : q.granPoison a = p.granPoison a := by rw [Part.granPoison, Part.granPoison, hm]
  unfold Part.writeGran
  dsimp only
  rw [hg]
  split
  · exact hm
  · cases t <;> simp only [hm]

/-- A store above HBM goes into windows: what it leaves of the memory comes from the memory alone (R112). -/
theorem Part.storeLoop_windows (n g k a : Nat) (bs : List Byte) (t : Option Nat) (ha : hbmTop ≤ a) :
    (Part.storeLoop n q g k a bs t).mem = (Part.storeLoop n p g k a bs t).mem := by
  have hh : ∀ x, hbmTop ≤ x → isHbm x = false := fun x hx => decide_eq_false (Nat.not_lt.2 hx)
  induction n generalizing p q a bs with
  | zero => exact hm
  | succ n ih =>
    unfold Part.storeLoop
    dsimp only
    rw [hh a ha]
    split
    · exact hm
    · exact ih (Part.writeGran_congr hm a _ t) _ _ (Nat.le_add_right_of_le ha)

theorem Part.spadStore_congr (c a : Nat) (bs : List Byte) : (q.spadStore c a bs).mem = (p.spadStore c a bs).mem :=
  Part.storeLoop_windows hm _ _ _ _ _ _ (by unfold spadAddr; omega)

end

section
variable {s : State} {core : BitVec 13} (hw : s.p.working = true) (hk : (s.p.core core.toNat).st = .inAsk)
include hw hk

/-- The core that asks and whose queues are done receives the end of work (R174). -/
theorem descHandover_ends (he : s.p.endOfWork core.toNat = true) :
    let c := core.toNat
    ∃ q, Becomes (.descHandover core) s q ∧ OnlyCore s.p q c ∧ (q.core c).st = .running ∧ (q.core c).endSeen = true ∧
      (q.core c).reg (s.p.core c).askRd = if (s.p.core c).askRd = 0 then 0 else 0xFFFFFFFF := by
  intro c
  have hc : (s.p.returnEnd c).core c = { (s.p.core c).setReg (s.p.core c).askRd 0xFFFFFFFF with st := .running, endSeen := true } := by
    rw [Part.returnEnd, Part.modCore_eq, Part.core_setCore, if_pos rfl]
  refine ⟨s.p.returnEnd c, ?_, ⟨rfl, fun d hd => ?_⟩, by rw [hc], by rw [hc], ?_⟩
  · change execDescHandover core s = _
    unfold execDescHandover State.run
    dsimp only
    rw [hw, hk, if_neg (by decide), he, if_pos rfl]
  · rw [Part.returnEnd, Part.modCore_eq, Part.core_setCore, if_neg (Ne.symm hd)]
  · rw [hc]
    change ((s.p.core c).setReg (s.p.core c).askRd 0xFFFFFFFF).reg (s.p.core c).askRd = _
    rw [Core.reg_setReg]
    by_cases h0 : (s.p.core c).askRd = 0
    · rw [if_neg (fun h => h.2 h0), if_pos h0, h0]
      rfl
    · rw [if_pos ⟨rfl, h0⟩, if_neg h0]
      exact Nat.mod_eq_of_lt (by decide)

/-- The core that asks receives the descriptor with its ticket (R173). -/
theorem descHandover_hands {j : Nat} {d : Desc} (he : s.p.endOfWork core.toNat = false) (hn : s.p.nextDesc core.toNat = some (j, d))
    (hm : s.p.mustWait core.toNat (s.p.core core.toNat).seq [] [((s.p.core core.toNat).askAddr, (s.p.core core.toNat).askAddr + 64)] = false) :
    let c := core.toNat
    let y := coreSector c
    let k := s.p.core c
    ∃ q, Becomes (.descHandover core) s q ∧ (q.core c).st = .running ∧ (∀ e, e ≠ c → q.core e = s.p.core e) ∧
      (q.core c).reg k.askRd = (if k.askRd = 0 then 0 else (16384 * y + j) % 2 ^ 32) ∧
      (∀ r, r ≠ k.askRd → (q.core c).reg r = k.reg r) ∧ q.ticket c = s.p.ticket c + 1 ∧
      (q.queue y j).ready = (s.p.queue y j).ready.erase d ∧ q.mem = (s.p.spadStore c k.askAddr d.bytes).mem := by
  intro c y k
  obtain ⟨w, hwe⟩ : ∃ w, w = s.p.setQueue y j { s.p.queue y j with ready := (s.p.queue y j).ready.erase d } := ⟨_, rfl⟩
  obtain ⟨u, hu⟩ : ∃ u, u = w.modSch y fun h => { h with h := spSet 0 h.h (c % 2048) (w.ticket c + 1) } := ⟨_, rfl⟩
  obtain ⟨v, hv⟩ : ∃ v, v = u.spadStore c k.askAddr d.bytes := ⟨_, rfl⟩
  have hwt : w.ticket c = s.p.ticket c := by
    rw [Part.ticket, Part.ticket, hwe, Part.setQueue, Part.sch_modSch_same]
  have hvk : (∀ e, v.core e = s.p.core e) ∧ v.sched = u.sched := by
    rw [hv, hu, hwe]
    exact ⟨fun e => by simp [Part.setQueue, Part.modSch, Part.setSch, Part.core], by simp⟩
  obtain ⟨vc, vs⟩ := hvk
  obtain ⟨r, hr⟩ : ∃ r, r = v.modCore c fun k => { (k.setReg k.askRd (16384 * y + j)) with st := .running } := ⟨_, rfl⟩
  obtain ⟨q, hq⟩ : ∃ q, q = (r.bump (SCH_STAT_HANDOVER y) 1).trace y 9 k.pair c (16384 * y + j) (dTicket d.bytes) := ⟨_, rfl⟩
  have hqk : (∀ e, q.core e = r.core e) ∧ q.sched = u.sched ∧ q.mem = v.mem := by
    rw [hq]
    exact ⟨fun e => by simp, by rw [← vs, hr]; simp [Part.setCore], by rw [hr]; simp [Part.setCore]⟩
  obtain ⟨qc, qs, qm⟩ := hqk
  have hrc : r.core c = { (k.setReg k.askRd (16384 * y + j)) with st := .running } := by
    rw [hr, Part.modCore_eq, Part.core_setCore, if_pos rfl, vc]
  have hreg : ∀ x, (q.core c).reg x = (k.setReg k.askRd (16384 * y + j)).reg x := fun x => by rw [qc, hrc]; rfl
  refine ⟨q, ?_, by rw [qc, hrc], fun e he => ?_, ?_, fun x hx => ?_, ?_, ?_, ?_⟩
  · change execDescHandover core s = _
    unfold execDescHandover State.run
    dsimp only
    rw [hw, hk, if_neg (by decide), he, if_neg (by decide), hn]
    dsimp only
    rw [hm, if_neg (by decide), ← hwe, ← hu, ← hv, ← hr, ← hq]
  · rw [qc, hr, Part.modCore_eq, Part.core_setCore, if_neg (Ne.symm he), vc]
  · rw [hreg, Core.reg_setReg]
    by_cases h0 : k.askRd = 0
    · rw [if_neg (fun h => h.2 h0), if_pos h0, h0]
      rfl
    · rw [if_pos ⟨rfl, h0⟩, if_neg h0]
  · rw [hreg, Core.reg_setReg, if_neg fun h => hx h.1.symm]
  · rw [Part.ticket, Part.sch_congr qs, hu, Part.sch_modSch_same, spGet_spSet, if_pos rfl, hwt]
  · have h1 : q.queue y j = u.queue y j := by unfold Part.queue; rw [Part.sch_congr qs]
    rw [h1, hu, Part.queue_modSch _ _ _ _ _ rfl, hwe, Part.queue_setQueue, if_pos rfl]
  · rw [qm, hv]
    refine Part.spadStore_congr ?_ c _ _
    rw [hu, hwe]
    rfl

end

/-- Settles O25: preload, the submissions that enter their queues or the delay lists, and the hand-over of descriptors. -/
theorem schedulerEvents : Obligations.SchedulerEvents := by
  intro s sector p x
  refine ⟨fun hr hu hp => ?_, fun u rest hw hs h0 ho hc hv hl => descEnterQueue_enters hw hs h0 ho hc hv hl,
    fun u rest hw hs h0 ho hf => descEnterQueue_delays hw hs h0 ho hf, fun k b hk hl hn hp hb hd => remoteSubmission_buffers hk hl hn hp hb hd,
    fun core => ?_⟩
  · obtain ⟨q, hb, h1, h2, h3⟩ := preload_preloads hr hu hp
    exact ⟨q, hb, h1, h2, h3⟩
  · intro c y k hw hk
    exact ⟨fun he => descHandover_ends hw hk he, fun j d he hn hm => descHandover_hands hw hk he hn hm⟩

end Sys2Proof.Machine
end

section
/-!
PROOF. Releases of completions, counters and delayed descriptors (R171, R172, R177, R178, R180, R182).
-/
namespace Sys2Proof.Machine

/-- Completions stay held, and flows go on from the same number: what a release leaves of both beside its own (R177, R180). -/
structure Flowing (p q : Part) : Prop where
  cores : q.cores = p.cores
  held : ∀ y, (q.sch y).held = (p.sch y).held
  next : ∀ y g, (spGet .reset (q.sch y).flows g).next = (spGet .reset (p.sch y).flows g).next

namespace Flowing

theorem refl (p : Part) : Flowing p p := ⟨rfl, fun _ => rfl, fun _ _ => rfl⟩

theorem trans {p q r : Part} (h : Flowing p q) (h' : Flowing q r) : Flowing p r :=
  ⟨h'.cores.trans h.cores, fun y => (h'.held y).trans (h.held y), fun y g => (h'.next y g).trans (h.next y g)⟩

theorem ite (b : Prop) [Decidable b] {p q r : Part} (hq : Flowing p q) (hr : Flowing p r) : Flowing p (if b then q else r) := by
  split
  · exact hq
  · exact hr

theorem each {α : Type} {f : Part → α → Part} (l : List α) (h : ∀ x p, Flowing p (f p x)) (p : Part) : Flowing p (p.each l f) := by
  induction l generalizing p with
  | nil => exact refl p
  | cons x l ih =>
    rw [Part.each_cons]
    exact (h x p).trans (ih _)

theorem ofSched {p q : Part} (hc : q.cores = p.cores) (hs : q.sched = p.sched) : Flowing p q :=
  ⟨hc, fun y => by rw [Part.sch_congr hs], fun y g => by rw [Part.sch_congr hs]⟩

theorem modSch (p : Part) (s : Nat) (f : Sched → Sched) (hh : (f (p.sch s)).held = (p.sch s).held)
    (hn : ∀ g, (spGet .reset (f (p.sch s)).flows g).next = (spGet .reset (p.sch s).flows g).next) : Flowing p (p.modSch s f) := by
  refine ⟨rfl, fun y => ?_, fun y g => ?_⟩
  · rw [Part.modSch, Part.sch_setSch]
    split
    · rename_i e
      rw [← e, hh]
    · rfl
  · rw [Part.modSch, Part.sch_setSch]
    split
    · rename_i e
      rw [← e, hn]
    · rfl

theorem ofEnters {p q : Part} (h : Enters p q) : Flowing p q :=
  ⟨h.cores, fun y => by rw [h.sch y], fun y g => by rw [h.sch y]⟩

variable (p : Part) (s : Nat)

theorem schDrop (i pair : Nat) : Flowing p (p.schDrop s i pair) := ofSched (by simp) (by simp)

end Flowing

section
variable (p : Part) (s q : Nat)

/-- A descriptor that comes to a queue, taken or refused, changes queues and the count of submissions alone (R168, R170). -/
theorem Enters.enterQueue (bytes : List Byte) (counted : Bool) : Enters p (p.enterQueue s q bytes counted) := by
  have hdrop : ∀ (r : Part) i pair, Enters r (r.schDrop s i pair) := fun r i pair =>
    Enters.ofSched r (by simp) (by simp) (by simp [Part.schDrop, Part.schErr, Part.noteErr]) (by simp)
  by_cases ho : p.queueOn s q = true
  · by_cases hc : (p.queue s q).closed = false ∧ (p.queue s q).violated = false
    · exact (p.enterQueue_enters s q bytes counted ho hc.1 hc.2).1
    · unfold Part.enterQueue
      dsimp only
      rw [ho, if_neg (by decide), if_pos (by simpa [-not_and, not_and_or] using hc)]
      exact (Enters.setQueue p s q _).trans (hdrop _ _ _)
  · unfold Part.enterQueue
    dsimp only
    rw [if_pos (by simpa using ho)]
    exact hdrop p _ _

theorem Flowing.delayPut (bs : List Byte) : Flowing p (p.delayPut s q bs) := by
  unfold Part.delayPut
  extract_lets slot e r u
  have hr : Flowing p r := Flowing.ofSched (by simp [r]) (by simp [r])
  have hu : Flowing r u := Flowing.modSch r s _ rfl fun _ => rfl
  exact (hr.trans hu).trans (Flowing.ofSched (by simp) (by simp))

theorem Flowing.enterDelay (bs : List Byte) : Flowing p (p.enterDelay s q bs) :=
  Flowing.ite _ (Flowing.delayPut p s q bs) (Flowing.schDrop p s _ _)

theorem Flowing.submitLocal (src : SubSrc) (name pair : Nat) (bs : List Byte) (b : Bool) : Flowing p (p.submitLocal src name pair bs b) := by
  unfold Part.submitLocal
  dsimp only
  refine Flowing.ite _ (Flowing.schDrop p _ _ _) (Flowing.ite _ (Flowing.enterDelay p _ _ _) (Flowing.ite _ ?_ ?_))
  · exact Flowing.ofEnters (Enters.enterQueue p _ _ _ _)
  · exact Flowing.modSch p _ _ rfl fun _ => rfl

theorem Flowing.forward (d : Completion) : Flowing p (p.forward s d) := by
  unfold Part.forward
  dsimp only
  exact Flowing.ite _ (Flowing.refl p) (Flowing.ite _ (Flowing.submitLocal p _ _ _ _ _) (Flowing.ofSched rfl rfl))

theorem Flowing.decrement (d : Completion) (i : Nat) : Flowing p (p.decrement d i) := by
  have hdec : ∀ pair y j, Flowing p (p.decDc pair y j) := fun pair y j => by
    unfold Part.decDc
    refine Flowing.ite _ (Flowing.ofSched (by simp) (by simp)) (Flowing.modSch p _ _ rfl fun _ => rfl)
  unfold Part.decrement
  dsimp only
  exact Flowing.ite _ (Flowing.refl p) (Flowing.ite _ (hdec _ _ _) (Flowing.ofSched rfl rfl))

/-- A flow that has run over is broken: the mark that the window check leaves (R178). -/
def Sched.breakFlow (f : Nat) (h : Sched) : Sched := { h with flows := spSet .reset h.flows f { spGet .reset h.flows f with broken := true } }

theorem Sched.breakFlow_next (f g : Nat) (h : Sched) : (spGet .reset (h.breakFlow f).flows g).next = (spGet .reset h.flows g).next := by
  unfold Sched.breakFlow
  dsimp only
  rw [spGet_spSet]
  split
  · rename_i e
    rw [e]
  · rfl

theorem Part.flowOverrun_eq (f pair : Nat) : p.flowOverrun s f pair = (p.modSch s (Sched.breakFlow f)).schErr s 5 pair := rfl

theorem Flowing.flowOverrun (f pair : Nat) : Flowing p (p.flowOverrun s f pair) := by
  rw [Part.flowOverrun_eq]
  exact (Flowing.modSch p s (Sched.breakFlow f) rfl fun g => Sched.breakFlow_next f g _).trans
    (Flowing.ofSched (by simp [Part.schErr, Part.noteErr]) (by simp))

/-- A held completion is outside its window by the number its flow stands at (R177). -/
theorem Flowing.outsideWindow {p q : Part} (h : Flowing p q) (d : List Byte) : q.outsideWindow s d = p.outsideWindow s d := by
  unfold Part.outsideWindow
  split
  · rw [h.next]
  · rfl

theorem Flowing.windowCheck_flows : ∃ r, r = p.modSch s (fun h => { h with held := h.held.filter fun d => !p.outsideWindow s d.bytes }) ∧
    Flowing r (p.windowCheck s) := by
  refine ⟨_, rfl, ?_⟩
  have hf : ((p.sch s).held.filter fun d => !((p.sch s).held.filter fun d => p.outsideWindow s d.bytes).contains d) =
      (p.sch s).held.filter fun d => !p.outsideWindow s d.bytes := List.filter_congr fun d hd => by
    congr 1
    rw [Bool.eq_iff_iff, List.contains_iff_mem, List.mem_filter]
    exact and_iff_right hd
  unfold Part.windowCheck
  dsimp only
  have hm : (p.modSch s fun h => { h with held := h.held.filter fun d => !((p.sch s).held.filter fun d => p.outsideWindow s d.bytes).contains d }) =
      p.modSch s fun h => { h with held := h.held.filter fun d => !p.outsideWindow s d.bytes } := by
    unfold Part.modSch
    dsimp only
    rw [hf]
  rw [hm]
  exact Flowing.each _ (fun d q => Flowing.flowOverrun q s _ _) _

/-- The window check leaves the counters and the part's name (R178). -/
theorem Part.windowCheck_dc (y j : Nat) : (p.windowCheck s).dcVal y j = p.dcVal y j ∧ (p.windowCheck s).chip = p.chip := by
  have hm : ∀ (r : Part) (f : Sched → Sched), (f (r.sch s)).dc = (r.sch s).dc → (r.modSch s f).dcVal y j = r.dcVal y j := fun r f hf => by
    unfold Part.dcVal Part.modSch
    rw [Part.sch_setSch]
    split
    · rename_i e
      rw [← e, hf]
    · rfl
  have hf : ∀ (r : Part) f pair, (r.flowOverrun s f pair).dcVal y j = r.dcVal y j := fun r f pair => by
    rw [Part.flowOverrun_eq]
    have h0 : ((r.modSch s (Sched.breakFlow f)).schErr s 5 pair).dcVal y j = (r.modSch s (Sched.breakFlow f)).dcVal y j := by
      unfold Part.dcVal
      rw [Part.sch_congr (Part.schErr_sched ..)]
    rw [h0, hm r (Sched.breakFlow f) rfl]
  have hc : ∀ (r : Part) f pair, (r.flowOverrun s f pair).chip = r.chip := fun r f pair => by
    rw [Part.flowOverrun_eq]
    simp [Part.chip, Part.schErr, Part.noteErr]
  unfold Part.windowCheck
  dsimp only
  constructor
  · rw [Part.each_get (fun r => r.dcVal y j) _ _ _ fun r d => hf r _ _]
    exact hm p _ rfl
  · rw [Part.each_get (fun r => r.chip) _ _ _ fun r d => hc r _ _]
    rfl

end

/-- A completion leaves the held ones, and its flow goes on behind its number (R177, R178). -/
def Sched.release (d : Completion) (h : Sched) : Sched :=
  { h with held := h.held.erase d,
           flows := (dFlow d.bytes).elim h.flows fun g =>
             spSet .reset h.flows g { spGet .reset h.flows g with next := (dSeq d.bytes + 1) % 65536 } }

/-- The part after the release of a completion (R177, R178, R180, R182). -/
def Part.releaseCompletion (p : Part) (x : Nat) (d : Completion) : Part :=
  ((((((p.modSch x (Sched.release d)).windowCheck x).forward x d).decrement d 0).decrement d 1).bump (SCH_STAT_RELEASE x) 1)

theorem completionRelease_becomes {s : State} {sector : BitVec 2} {flow : BitVec 12} {d : Completion}
    (hf : (s.p.sch sector.toNat).held.find? (s.p.releasable sector.toNat flow.toNat) = some d) (hr : s.p.schRuns sector.toNat = true) :
    Becomes (.completionRelease sector flow) s (s.p.releaseCompletion sector.toNat d) := by
  change execCompletionRelease sector flow s = _
  unfold execCompletionRelease State.run
  dsimp only
  rw [hf]
  dsimp only
  rw [hr, if_neg (by decide)]
  unfold Part.releaseCompletion Sched.release
  cases dFlow d.bytes <;> rfl

section
variable (p : Part) (x : Nat) (d : Completion)

theorem Part.releaseCompletion_flows : ∃ r, r = (p.modSch x (Sched.release d)).modSch x (fun h =>
      { h with held := h.held.filter fun e => !(p.modSch x (Sched.release d)).outsideWindow x e.bytes }) ∧ Flowing r (p.releaseCompletion x d) := by
  obtain ⟨r, hr, hw⟩ := Flowing.windowCheck_flows (p.modSch x (Sched.release d)) x
  refine ⟨r, hr, ?_⟩
  unfold Part.releaseCompletion
  exact (((hw.trans (Flowing.forward _ x d)).trans (Flowing.decrement _ d 0)).trans (Flowing.decrement _ d 1)).trans
    (Flowing.ofSched (by simp) (by simp))

/-- Held completions outside the window of their flow are gone once one is released (R178). -/
theorem Part.releaseCompletion_held : ((p.releaseCompletion x d).sch x).held =
    ((p.sch x).held.erase d).filter fun e => !(p.releaseCompletion x d).outsideWindow x e.bytes := by
  obtain ⟨r, hr, hq⟩ := p.releaseCompletion_flows x d
  have hw : ∀ e, (p.releaseCompletion x d).outsideWindow x e = (p.modSch x (Sched.release d)).outsideWindow x e := fun e => by
    rw [hq.outsideWindow x, hr]
    unfold Part.outsideWindow
    rw [Part.sch_modSch_same]
  rw [hq.held, hr, Part.sch_modSch_same, Part.sch_modSch_same]
  exact List.filter_congr fun e _ => by rw [hw]

theorem Part.releaseCompletion_cores : (p.releaseCompletion x d).cores = p.cores := by
  obtain ⟨r, hr, hq⟩ := p.releaseCompletion_flows x d
  rw [hq.cores, hr]
  rfl

theorem Part.releaseCompletion_next {g : Nat} (h : dFlow d.bytes = some g) :
    (spGet .reset ((p.releaseCompletion x d).sch x).flows g).next = (dSeq d.bytes + 1) % 65536 := by
  obtain ⟨r, hr, hq⟩ := p.releaseCompletion_flows x d
  rw [hq.next, hr, Part.sch_modSch_same, Part.sch_modSch_same]
  unfold Sched.release
  rw [h]
  dsimp only [Option.elim]
  rw [spGet_spSet, if_pos rfl]

/-- A completion that decrements one counter of this part takes one from it (R180). -/
theorem Part.releaseCompletion_dcVal (h1 : dCtrl d.bytes 1 = false) (h2 : dCtrl d.bytes 2 = true) (h3 : dCtrl d.bytes 3 = false)
    (hc : leAt d.bytes 16 4 >>> 16 = p.chip) (hv : p.dcVal (fld (leAt d.bytes 16 4) 14 2) (leAt d.bytes 16 4 % 16384) ≠ 0) :
    (p.releaseCompletion x d).dcVal (fld (leAt d.bytes 16 4) 14 2) (leAt d.bytes 16 4 % 16384) =
      p.dcVal (fld (leAt d.bytes 16 4) 14 2) (leAt d.bytes 16 4 % 16384) - 1 := by
  obtain ⟨w, hw⟩ : ∃ w, w = leAt d.bytes 16 4 := ⟨_, rfl⟩
  rw [← hw] at hc hv ⊢
  obtain ⟨r, hr⟩ : ∃ r, r = (p.modSch x (Sched.release d)).windowCheck x := ⟨_, rfl⟩
  have hdc : r.dcVal (fld w 14 2) (w % 16384) = p.dcVal (fld w 14 2) (w % 16384) := by
    rw [hr, (Part.windowCheck_dc _ x _ _).1]
    unfold Part.dcVal Part.modSch
    rw [Part.sch_setSch]
    split
    · rename_i e
      rw [← e]
      rfl
    · rfl
  have hchip : w >>> 16 = r.chip := by rw [hc, hr, (Part.windowCheck_dc _ x 0 0).2]; rfl
  have hfw : r.forward x d = r := by
    unfold Part.forward
    dsimp only
    rw [h1]
    rfl
  have hd0 : r.decrement d 0 = r.modSch (fld w 14 2) (fun h =>
      { h with dc := spSet 0 h.dc (w % 16384) (p.dcVal (fld w 14 2) (w % 16384) - 1),
               dcZero := if p.dcVal (fld w 14 2) (w % 16384) = 1 then h.dcZero ++ [w % 16384] else h.dcZero }) := by
    unfold Part.decrement
    rw [Nat.mul_zero, Nat.add_zero, Nat.add_zero, h2, ← hw]
    dsimp only
    rw [if_neg (by decide), if_pos hchip]
    unfold Part.decDc
    dsimp only
    rw [hdc, if_neg hv]
  have hd1 : ∀ u : Part, u.decrement d 1 = u := fun u => by
    unfold Part.decrement
    dsimp only
    rw [h3]
    rfl
  have hq : p.releaseCompletion x d = (r.decrement d 0).bump (SCH_STAT_RELEASE x) 1 := by
    unfold Part.releaseCompletion
    rw [← hr, hfw, hd1]
  have hb : (p.releaseCompletion x d).sched = (r.decrement d 0).sched := by rw [hq]; simp
  unfold Part.dcVal at hv ⊢
  rw [Part.sch_congr hb, hd0, Part.sch_modSch_same]
  dsimp only
  rw [spGet_spSet, if_pos rfl]
  rfl

end

section
variable (p : Part) (x : Nat)

/-- What the release of the counters that reached zero does (R172). -/
def Part.dcRelease (p : Part) (x j : Nat) (rest : List Nat) : Part :=
  ((p.modSch x fun h => { h with dcZero := rest }).each (p.waitingOn x j) fun p q =>
    (p.setQueue x q.1 { p.queue x q.1 with waiting := (p.queue x q.1).waiting.erase q.2 }).becomeReady x q.1 q.2).closeOn x j

theorem dcZeroRelease_becomes {s : State} {sector : BitVec 2} {j : Nat} {rest : List Nat} (h : (s.p.sch sector.toNat).dcZero = j :: rest)
    (hw : s.p.working = true) : Becomes (.dcZeroRelease sector) s (s.p.dcRelease sector.toNat j rest) := by
  change execDcZeroRelease sector s = _
  unfold execDcZeroRelease State.run
  dsimp only
  rw [h]
  dsimp only
  rw [hw, if_neg (by decide)]
  rfl

theorem Enters.each {α : Type} {f : Part → α → Part} (l : List α) (h : ∀ y p, Enters p (f p y)) (p : Part) : Enters p (p.each l f) := by
  induction l generalizing p with
  | nil => exact Enters.refl p
  | cons y l ih =>
    rw [Part.each_cons]
    exact (h y p).trans (ih _)

theorem Enters.wake (q : Nat × Desc) : Enters p ((p.setQueue x q.1 { p.queue x q.1 with waiting := (p.queue x q.1).waiting.erase q.2 }).becomeReady x q.1 q.2) :=
  (Enters.setQueue p x q.1 _).trans (Part.becomeReady_enters _ x q.1 q.2).1

theorem Part.dcRelease_keeps (j : Nat) (rest : List Nat) : ((p.dcRelease x j rest).sch x).dcZero = rest ∧
    (p.dcRelease x j rest).cores = p.cores ∧ (p.dcRelease x j rest).mem = p.mem := by
  obtain ⟨u, hu⟩ : ∃ u, u = p.modSch x fun h => { h with dcZero := rest } := ⟨_, rfl⟩
  have hz : (u.sch x).dcZero = rest ∧ u.cores = p.cores ∧ u.mem = p.mem := by
    rw [hu, Part.sch_modSch_same]
    exact ⟨rfl, rfl, rfl⟩
  unfold Part.dcRelease
  rw [← hu]
  have he := Enters.each (p.waitingOn x j) (fun q r => Enters.wake r x q) u
  have hc := Closes.closeOn (u.each (p.waitingOn x j) fun p q =>
    (p.setQueue x q.1 { p.queue x q.1 with waiting := (p.queue x q.1).waiting.erase q.2 }).becomeReady x q.1 q.2) x j
  exact ⟨by rw [hc.sch, he.sch]; exact hz.1, hc.cores.trans (he.cores.trans hz.2.1), hc.mem.trans (he.mem.trans hz.2.2)⟩

/-- The one descriptor that waited on the counter leaves the waiting ones and stands last of the ready ones (R172). -/
theorem Part.dcRelease_wakes {j k : Nat} {rest : List Nat} {d : Desc} (h : p.waitingOn x j = [(k, d)]) :
    ∃ st, ((p.dcRelease x j rest).queue x k).waiting = (p.queue x k).waiting.erase d ∧
      ((p.dcRelease x j rest).queue x k).ready = (p.queue x k).ready ++ [⟨d.n, d.bytes, st⟩] := by
  obtain ⟨u, hu⟩ : ∃ u, u = p.modSch x fun h => { h with dcZero := rest } := ⟨_, rfl⟩
  have hq : u.queue x k = p.queue x k := by rw [hu, Part.queue_modSch _ _ _ _ _ rfl]
  obtain ⟨-, st, h1, h2⟩ := Part.becomeReady_enters (u.setQueue x k { u.queue x k with waiting := (u.queue x k).waiting.erase d }) x k d
  unfold Part.dcRelease
  rw [← hu, h, Part.each_cons, Part.each_nil]
  obtain ⟨hr, hw⟩ := (Closes.closeOn ((u.setQueue x k { u.queue x k with waiting := (u.queue x k).waiting.erase d }).becomeReady x k d) x j).ready x k
  refine ⟨st, ?_, ?_⟩
  · rw [hw, h2, Part.queue_setQueue, if_pos rfl, hq]
  · rw [hr, h1, Part.queue_setQueue, if_pos rfl, hq]

theorem Part.dcRelease_shuts {j k : Nat} {rest : List Nat} (h : p.waitingOn x j = []) (hk : k ∈ p.cfgQueues x) (ho : p.queueOn x k = true)
    (hc : p.getB (SCH_QCFG x k) 15 = true) (hj : p.getF (SCH_QCFG x k) 0 14 = j) : (p.dcRelease x j rest).shut x k := by
  unfold Part.dcRelease
  rw [h, Part.each_nil]
  exact Part.closeOn_shuts _ x hk ho hc hj

end

/-- A queue takes descriptors by the registers of the tick master and its own two (R164). -/
theorem Part.queueOn_congr {p q : Part} {x k : Nat} (h : ∀ j, j < 0x2000000 → q.SameAt p j) (hc : q.SameAt p (SCH_CTRL x))
    (hq : q.SameAt p (SCH_QCFG x k)) : q.queueOn x k = p.queueOn x k := by
  have hlt := p.getF_lt TIK_SEASON_POS 16 4
  have hk : q.kind = p.kind := by
    unfold Part.kind
    rw [(h TIK_SEASON_POS (by decide)).2.2, (h _ (by unfold TIK_SPAN; omega)).2.2]
  unfold Part.queueOn Part.schOn Part.inFrame Part.phase
  rw [hk, (h TIK_STATUS (by decide)).2.2, hc.2.1, hq.2.1]

section
variable (p : Part) (x : Nat) (e : DelayEntry)

/-- The cycle at which a delayed descriptor enters its queue (R184). -/
def Part.delayCycle (p : Part) (x : Nat) (e : DelayEntry) : Nat := p.tick.frameStart + p.releaseCycle x e

/-- What the release of a delayed descriptor reads at its cycle (R184). -/
def Part.delayRead (p : Part) (x : Nat) (e : DelayEntry) : (List Byte × Option Nat) × Part :=
  (p.clockTo (p.delayCycle x e)).load 12 0 (p.getF (SCH_DELAY x) 0 40 + 64 * e.slot) 64

/-- The delay list without its entry, with its use in the register (R184). -/
def Part.delayTake (p : Part) (x : Nat) (e : DelayEntry) : Part :=
  (p.modSch x fun h => { h with delay := h.delay.erase e }).wr (SCH_DELAY_USE x)
    ((p.modSch x fun h => { h with delay := h.delay.erase e }).sch x).delay.length

theorem Part.delayTake_keeps : ((p.delayTake x e).sch x).delay = (p.sch x).delay.erase e ∧ (p.delayTake x e).cores = p.cores ∧
    (p.delayTake x e).cycle = p.cycle ∧ ((p.delayTake x e).sch x).nextN = (p.sch x).nextN ∧ ∀ k, (p.delayTake x e).queue x k = p.queue x k := by
  obtain ⟨u, hu⟩ : ∃ u, u = p.modSch x fun h => { h with delay := h.delay.erase e } := ⟨_, rfl⟩
  have hs : (u.sch x) = { p.sch x with delay := (p.sch x).delay.erase e } := by rw [hu, Part.sch_modSch_same]
  have hq : ∀ k, u.queue x k = p.queue x k := fun k => by rw [hu, Part.queue_modSch _ _ _ _ _ rfl]
  have hc : u.cores = p.cores ∧ u.cycle = p.cycle := by rw [hu]; exact ⟨rfl, rfl⟩
  unfold Part.delayTake
  rw [← hu]
  refine ⟨?_, by simp [hc.1], by simp [hc.2], ?_, fun k => ?_⟩
  · simp [hs]
  · simp [hs]
  · rw [← hq]
    unfold Part.queue
    simp

theorem Part.delayTake_queueOn {k : Nat} (hk : k < 16384) :
    ((p.delayTake x e).bump (SCH_STAT_DELAY x) 1).queueOn x k = p.queueOn x k := by
  have hsame : ∀ j, SCH_DELAY_USE x ≠ j → SCH_STAT_DELAY x ≠ j → ((p.delayTake x e).bump (SCH_STAT_DELAY x) 1).SameAt p j := fun j h1 h2 =>
    Part.sameAt_of_rd (by rw [Part.rd_bump_other _ _ h2]; unfold Part.delayTake; rw [Part.rd_wr_other _ _ h1]; rfl)
  refine Part.queueOn_congr (fun j hj => hsame j ?_ ?_) (hsame _ ?_ ?_) (hsame _ ?_ ?_)
  all_goals
    simp only [SCH_DELAY_USE, SCH_STAT_DELAY, SCH_CTRL, SCH_QCFG, secBase]
    omega

end

section
variable {s : State} {sector : BitVec 2} {e : DelayEntry} {rest : List DelayEntry}

/-- The part after a delayed descriptor has been released (R184). -/
def Part.delayRelease (p : Part) (x : Nat) (e : DelayEntry) : Part :=
  if (p.delayRead x e).1.2.isSome then ((p.delayRead x e).2.delayTake x e).schDrop x 7 0
  else (((p.delayRead x e).2.delayTake x e).bump (SCH_STAT_DELAY x) 1).enterQueue x e.queue (p.delayRead x e).1.1 true

theorem delayRelease_becomes (hd : s.p.dueNow sector.toNat = e :: rest) (hr : s.p.schRuns sector.toNat = true) (hu : s.p.tick.unwinding = false)
    (hl : (s.p.sch sector.toNat).loaded = true) (hq : s.p.queueFull sector.toNat e.queue = false) :
    Becomes (.delayRelease sector) s (s.p.delayRelease sector.toNat e) := by
  have ht : ∀ n, ((s.p.clockTo n).getF (SCH_DELAY sector.toNat) 0 40) = s.p.getF (SCH_DELAY sector.toNat) 0 40 := fun n =>
    (s.p.clockTo_table n (by unfold SCH_DELAY secBase; omega) (by unfold SCH_DELAY secBase; omega) (by unfold SCH_DELAY secBase; omega)
      (by unfold SCH_DELAY secBase; omega)).2.2 0 40
  change execDelayRelease sector s = _
  unfold execDelayRelease State.run
  dsimp only
  rw [hd]
  dsimp only
  rw [hr, hu, hl, hq, if_neg (by decide), ht]
  unfold Part.delayRelease Part.delayTake Part.delayRead Part.delayCycle
  generalize Part.load _ 12 0 _ 64 = l
  obtain ⟨⟨d, t⟩, u⟩ := l
  dsimp only
  cases t with
  | none => rw [if_neg (by decide)]
  | some _ => rw [if_pos (by rfl)]

variable (p : Part) (x : Nat)

theorem Part.delayRead_keeps : (p.delayRead x e).2.cores = p.cores ∧ (p.delayRead x e).2.cycle = max p.cycle (p.delayCycle x e) ∧
    (∀ y, (p.delayRead x e).2.sch y = p.sch y) := by
  unfold Part.delayRead
  simp

theorem Part.delayRelease_keeps : ((p.delayRelease x e).sch x).delay = (p.sch x).delay.erase e ∧
    (p.delayRelease x e).cores = p.cores ∧ (p.delayRelease x e).cycle = max p.cycle (p.delayCycle x e) := by
  obtain ⟨hc, hy, hs⟩ := p.delayRead_keeps (e := e) x
  obtain ⟨td, tc, ty, -, -⟩ := (p.delayRead x e).2.delayTake_keeps x e
  have he : Enters ((p.delayRead x e).2.delayTake x e) (p.delayRelease x e) := by
    unfold Part.delayRelease
    split
    · exact Enters.ofSched _ (by simp [Part.schDrop, Part.schErr, Part.noteErr]) (by simp) (by simp [Part.schDrop, Part.schErr, Part.noteErr]) (by simp)
    · exact (Enters.ofSched _ (by simp) (by simp) (by simp) (by simp)).trans (Enters.enterQueue _ x _ _ true)
  refine ⟨?_, he.cores.trans (tc.trans hc), he.cycle.trans (ty.trans hy)⟩
  rw [he.sch, ← hs]
  exact td

/-- A descriptor read whole enters its queue behind the ready ones (R184). -/
theorem Part.delayRelease_ready (hlt : e.queue < 16384) (ho : (p.delayRead x e).2.queueOn x e.queue = true) (hn : (p.delayRead x e).1.2 = none)
    (hc : (p.queue x e.queue).closed = false) (hv : (p.queue x e.queue).violated = false) (hw : dWait (p.delayRead x e).1.1 = none) :
    ∃ st, ((p.delayRelease x e).queue x e.queue).ready =
      (p.queue x e.queue).ready ++ [⟨(p.sch x).nextN, (p.delayRead x e).1.1, st⟩] := by
  obtain ⟨-, -, hs⟩ := p.delayRead_keeps (e := e) x
  obtain ⟨-, -, -, tn, tq⟩ := (p.delayRead x e).2.delayTake_keeps x e
  obtain ⟨r, hr⟩ : ∃ r, r = ((p.delayRead x e).2.delayTake x e).bump (SCH_STAT_DELAY x) 1 := ⟨_, rfl⟩
  have hsch : ∀ y, r.sch y = ((p.delayRead x e).2.delayTake x e).sch y := fun y => by rw [hr]; simp
  have hq : r.queue x e.queue = p.queue x e.queue := by
    unfold Part.queue at tq ⊢
    rw [hsch, tq, hs]
  have hon : r.queueOn x e.queue = true := by rw [hr, Part.delayTake_queueOn _ x e hlt, ho]
  obtain ⟨st, h1, -⟩ := (r.enterQueue_enters x e.queue (p.delayRead x e).1.1 true hon (by rw [hq, hc]) (by rw [hq, hv])).2.1 hw
  refine ⟨st, ?_⟩
  unfold Part.delayRelease
  rw [hn, if_neg (by decide), ← hr, h1, hq, hsch, tn, hs]

end

/-- Settles O26: each release is taken apart into what it removes, what the rest of it leaves alone and what it lets in. -/
theorem schedulerReleases : Obligations.SchedulerReleases := by
  intro s sector p x
  refine ⟨fun flow d hf hr => ?_, fun flow hf => ?_, fun j rest hz hw => ?_, fun e rest hd hr hu hl hq hlt => ?_⟩
  · exact ⟨_, completionRelease_becomes hf hr, p.releaseCompletion_held x d, p.releaseCompletion_cores x d,
      fun g hg => p.releaseCompletion_next x d hg, fun h1 h2 h3 hc hv => p.releaseCompletion_dcVal x d h1 h2 h3 hc hv⟩
  · change execCompletionRelease sector flow s = _
    unfold execCompletionRelease State.run
    dsimp only
    rw [hf]
  · obtain ⟨h1, h2, h3⟩ := p.dcRelease_keeps x j rest
    exact ⟨_, dcZeroRelease_becomes hz hw, h1, h2, h3, fun k d hk => p.dcRelease_wakes x hk,
      fun hn k hk ho hc hj => p.dcRelease_shuts x hn hk ho hc hj⟩
  · intro at' l
    have hat : at' = p.delayCycle x e := rfl
    have hread : l = p.delayRead x e := rfl
    clear_value l at'
    subst hat hread
    obtain ⟨h1, h2, h3⟩ := p.delayRelease_keeps (e := e) x
    exact ⟨_, delayRelease_becomes hd hr hu hl hq, h1, h2, h3, fun ho hn hc hv hw => p.delayRelease_ready x hlt ho hn hc hv hw⟩

end Sys2Proof.Machine
end

section
/-!
SUPPORT. What the fabric's own steps leave of a port that carries no packets (R325, R338, R344, R345, R352).
-/
namespace Sys2Proof.Machine

theorem bundlePorts_ports (b n : Nat) (h : n ∈ bundlePorts b) : n < 34 := by
  unfold bundlePorts at h
  split at h <;> simp at h <;> omega

/-- A port of a bundle. -/
theorem mem_bundlePorts {n : Nat} (h : n < 34) : n ∈ bundlePorts (portBundle n) := by
  unfold bundlePorts portBundle
  split
  · rw [if_pos (by omega)]
    simp
    omega
  · rw [if_neg (by decide)]
    simp
    omega

theorem Part.SamePorts.portRuns {p q : Part} (h : q.SamePorts p) {n : Nat} (hn : n < 34) : q.portRuns n = p.portRuns n := by
  unfold Part.portRuns Part.getF
  rw [h n hn]

theorem Part.SamePorts.pstate {p q : Part} (h : q.SamePorts p) {n : Nat} (hn : n < 34) : q.pstate n = p.pstate n := by
  unfold Part.pstate Part.getF
  rw [h n hn]

theorem Part.SamePorts.bundleUp {p q : Part} (h : q.SamePorts p) (b : Nat) : q.bundleUp b = p.bundleUp b := by
  unfold Part.bundleUp
  have hall : ∀ n ∈ bundlePorts b, q.portRuns n = p.portRuns n := fun n hn => h.portRuns (bundlePorts_ports b n hn)
  rw [Bool.eq_iff_iff, List.any_eq_true, List.any_eq_true]
  exact ⟨fun ⟨n, hn, he⟩ => ⟨n, hn, (hall n hn).symm.trans he⟩, fun ⟨n, hn, he⟩ => ⟨n, hn, (hall n hn).trans he⟩⟩

/-- The memory, the cores, the states of the ports, the set bits of FAB_STICKY and what port `n` keeps are left. -/
structure Spares (n : Nat) (p q : Part) : Prop where
  mem : q.mem = p.mem
  cores : q.cores = p.cores
  status : q.SamePorts p
  sticky : ∀ i < 64, p.getB FAB_STICKY i = true → q.getB FAB_STICKY i = true
  port : q.port n = p.port n

/-- The registers that a step of the fabric counts and notes in, besides the states of the ports and FAB_STICKY. -/
def besidesPorts (j : Nat) : Prop := (∀ m < 34, j ≠ FAB_PSTATUS m) ∧ j ≠ FAB_STICKY

namespace Spares

theorem refl (n : Nat) (p : Part) : Spares n p p := ⟨rfl, rfl, fun _ _ => rfl, fun _ _ h => h, rfl⟩

theorem trans {n : Nat} {p q r : Part} (h : Spares n p q) (h' : Spares n q r) : Spares n p r :=
  ⟨h'.mem.trans h.mem, h'.cores.trans h.cores, fun m hm => (h'.status m hm).trans (h.status m hm), fun i hi hs => h'.sticky i hi (h.sticky i hi hs),
    h'.port.trans h.port⟩

theorem ite {n : Nat} (b : Prop) [Decidable b] {p q r : Part} (hq : Spares n p q) (hr : Spares n p r) : Spares n p (if b then q else r) := by
  split
  · exact hq
  · exact hr

/-- A step that writes no state of a port and nothing of FAB_STICKY, and leaves what port `n` keeps. -/
theorem ofRd {n : Nat} {p q : Part} (hm : q.mem = p.mem) (hc : q.cores = p.cores) (hr : ∀ j, (∃ m < 34, j = FAB_PSTATUS m) ∨ j = FAB_STICKY → q.rd j = p.rd j)
    (hp : q.port n = p.port n) : Spares n p q :=
  ⟨hm, hc, fun m h => hr _ (.inl ⟨m, h, rfl⟩), fun i _ h => (Part.getB_congr i (hr _ (.inr rfl))).trans h, hp⟩

theorem port_congr {p q : Part} (n : Nat) (h : q.fab.ports = p.fab.ports) : q.port n = p.port n := by
  unfold Part.port
  rw [h]

section
variable (n : Nat) (p : Part)

theorem modFab (f : Fabric → Fabric) (h : (f p.fab).ports = p.fab.ports) : Spares n p (p.modFab f) :=
  ofRd rfl rfl (fun _ _ => rfl) (port_congr n h)

theorem wr {o : Nat} (v : Nat) (h : besidesPorts o) : Spares n p (p.wr o v) :=
  ofRd (by simp) (by simp) (fun j hj => Part.rd_wr_other _ _ (by rcases hj with ⟨m, hm, rfl⟩ | rfl; exacts [h.1 m hm, h.2])) (port_congr n (by simp))

theorem bump {o : Nat} (k : Nat) (h : besidesPorts o) : Spares n p (p.bump o k) :=
  ofRd (by simp) (by simp) (fun j hj => Part.rd_bump_other _ _ (by rcases hj with ⟨m, hm, rfl⟩ | rfl; exacts [h.1 m hm, h.2])) (port_congr n (by simp))

theorem putB {o : Nat} (i : Nat) (b : Bool) (h : besidesPorts o) : Spares n p (p.putB o i b) :=
  ofRd (by simp) (by simp) (fun j hj => Part.rd_putB_other _ _ _ (by rcases hj with ⟨m, hm, rfl⟩ | rfl; exacts [h.1 m hm, h.2])) (port_congr n (by simp))

theorem err (e : ErrRec) (h : e.severity = 0) : Spares n p (p.err e) := by
  refine ofRd (by simp) (by simp) (fun j hj => Part.rd_err_besides ?_ p e) (port_congr n (by rw [p.err_informs e h]))
  rcases hj with ⟨m, hm, rfl⟩ | rfl
  · unfold besidesRecords TIK_STATUS FAB_PSTATUS SOBS_STAT_TDROP secBase
    exact ⟨by omega, by omega, fun b => by omega⟩
  · unfold besidesRecords TIK_STATUS FAB_STICKY SOBS_STAT_TDROP secBase
    exact ⟨by omega, by omega, fun b => by omega⟩

theorem stick {i : Nat} (hi : i < 64) : Spares n p (p.stick FAB_STICKY i) := by
  refine ⟨by simp, by simp, fun m hm => Part.rd_stick_other _ _ ?_ ?_, fun k hk hs => ?_, port_congr n (by simp)⟩
  · unfold FAB_STICKY FAB_PSTATUS; omega
  · unfold FAB_STICKY FAB_PSTATUS; omega
  · by_cases h : i = k
    · rw [← h, Part.getB_stick_same _ _ hi]
    · rw [Part.getB_stick_bit _ _ h hk, hs]

theorem fabErr {i : Nat} (hi : i < 64) (l0 l1 : Nat) : Spares n p (p.fabErr i l0 l1) := (stick n p hi).trans (err n _ _ rfl)

end

end Spares

/-- A fabric event shows in FAB_STICKY (R347). -/
theorem Part.fabErr_sticky (p : Part) {i : Nat} (hi : i < 64) (l0 l1 : Nat) : (p.fabErr i l0 l1).getB FAB_STICKY i = true :=
  (Spares.err 0 (p.stick FAB_STICKY i) _ rfl).sticky i hi (p.getB_stick_same _ hi)

theorem besidesPorts_of_lt {j : Nat} (h : j < 0x800008) : besidesPorts j := by
  unfold besidesPorts FAB_PSTATUS FAB_STICKY
  exact ⟨fun m _ => by omega, by omega⟩

theorem besidesPorts_of_hub {j : Nat} (h : 0x800008 < j) (h' : j < 0x801000) : besidesPorts j := by
  unfold besidesPorts FAB_PSTATUS FAB_STICKY
  exact ⟨fun m _ => by omega, by omega⟩

/-- A counter of a port: a register of its block other than its state. -/
theorem besidesPorts_of_port {k : Nat} (x : Nat) (h : k % 64 ≠ 4) (h' : 0x801000 ≤ k) : besidesPorts (k + 0x40 * x) := by
  unfold besidesPorts FAB_PSTATUS FAB_STICKY
  exact ⟨fun m _ => by omega, by omega⟩

namespace Spares
variable (n : Nat) (p : Part)

theorem loadLat : Spares n p p.loadLat := by
  obtain ⟨hw, hr⟩ := p.loadLat_keeps
  refine ofRd (by rw [hw]) (by rw [hw]) (fun j hj => hr j ?_ ?_) (port_congr n (by rw [hw]))
  · rcases hj with ⟨m, hm, rfl⟩ | rfl
    · unfold TIK_TOKEN_LAT FAB_PSTATUS; omega
    · decide
  · rcases hj with ⟨m, hm, rfl⟩ | rfl
    · unfold TIK_DELAY_COMP FAB_PSTATUS; omega
    · decide

theorem reroute (st : Bool) : Spares n p (p.reroute st) := by
  unfold Part.reroute
  extract_lets done q
  split
  refine ite _ (refl n p) ?_
  have hq : Spares n p q := modFab n p _ (by split <;> rfl)
  exact ite _ ((hq.trans (loadLat n q)).trans (putB n _ 5 true (besidesPorts_of_lt (by decide)))) hq

variable (hr : n < 34 → p.portRuns n = false)
include hr

theorem putOnPort {m : Nat} (hlt : m < 34) (hm : p.portRuns m = true) (w : Waiting) : Spares n p (p.putOnPort m w) := by
  have hne : m ≠ n := fun h => by rw [h, hr (h ▸ hlt)] at hm; cases hm
  have hset : ∀ (q : Part) x, Spares n q (q.setPort m x) := fun q x => ofRd rfl rfl (fun _ _ => rfl) (by
    unfold Part.port Part.setPort Part.modFab
    dsimp only
    rw [spGet_spSet, if_neg hne])
  unfold Part.putOnPort
  dsimp only
  split
  · exact (hset p _).trans (bump n _ 1 (besidesPorts_of_port m (by decide) (by decide)))
  · exact ((modFab n p _ rfl).trans (hset _ _)).trans (bump n _ 1 (besidesPorts_of_port m (by decide) (by decide)))

theorem sendWaiting (w : Waiting) : Spares n p (p.sendWaiting w) := by
  have hq : Spares n p (p.queueFor w) := modFab n p _ rfl
  unfold Part.sendWaiting
  refine ite _ ((bump n p 1 (besidesPorts_of_hub (by decide) (by decide))).trans (fabErr n _ (by decide) _ _)) (ite _ hq ?_)
  split
  · rename_i m ho
    have hm := List.mem_of_find?_eq_some ho
    have hruns := (List.mem_filter.1 hm).2
    simp only [Bool.and_eq_true] at hruns
    exact putOnPort n p hr (bundlePorts_ports _ m (List.mem_filter.1 hm).1) hruns.1.1 w
  · exact hq

theorem sendAll (l : List Waiting) : Spares n p (p.each l Part.sendWaiting) := by
  induction l generalizing p with
  | nil => exact refl n p
  | cons w l ih =>
    rw [Part.each_cons]
    have h := sendWaiting n p hr w
    exact h.trans (ih _ fun hn => (h.status.portRuns hn).trans (hr hn))

theorem drainFwd (b : Nat) : Spares n p (p.drainFwd b) := by
  unfold Part.drainFwd
  dsimp only
  have h : Spares n p (p.modFab fun f => { f with fwd := f.fwd.filter fun e => e.bundle != b }) := modFab n p _ rfl
  exact h.trans (sendAll n _ (fun hn => (h.status.portRuns hn).trans (hr hn)) _)

theorem portLost : Spares n p (p.portLost n) := by
  unfold Part.portLost
  dsimp only
  have h : Spares n p (if p.bundleUp (portBundle n) then p else p.drainFwd (portBundle n)) := ite _ (refl n p) (drainFwd n p hr _)
  exact (h.trans (reroute n _ false)).trans (reroute n _ true)

end Spares

/-- With nothing that waits, a bundle's draining does nothing (R338). -/
theorem Part.drainFwd_none (p : Part) (b : Nat) (h : p.fab.fwd = []) : p.drainFwd b = p := by
  unfold Part.drainFwd Part.modFab
  dsimp only
  rw [h, List.filter_nil, List.filter_nil, Part.each_nil]
  obtain ⟨fab, hf⟩ : ∃ fab, fab = p.fab := ⟨_, rfl⟩
  rw [← hf] at h ⊢
  rw [← h, hf]

end Sys2Proof.Machine
end

section
/-!
PROOF. The link layer of a port (R325, R344, R345).
-/
namespace Sys2Proof.Machine

section
variable (p : Part) (n : Nat)

@[simp] theorem Part.port_setPort_same (x : Port) : (p.setPort n x).port n = x := by
  unfold Part.port Part.setPort Part.modFab
  dsimp only
  rw [spGet_spSet, if_pos rfl]

theorem Part.port_setPort_other (x : Port) {m : Nat} (h : m ≠ n) : (p.setPort n x).port m = p.port m := by
  unfold Part.port Part.setPort Part.modFab
  dsimp only
  rw [spGet_spSet, if_neg h.symm]

@[simp] theorem Part.pstate_setPort (x : Port) (m : Nat) : (p.setPort n x).pstate m = p.pstate m := rfl

theorem Part.pstate_setPstate {st : Nat} (h : st < 16) : (p.setPstate n st).pstate n = st := by
  unfold Part.setPstate Part.pstate
  rw [Part.getF_putF_same _ _ _ _ _ (by decide)]
  exact Nat.mod_eq_of_lt h

@[simp] theorem Part.setPstate_fab (st : Nat) : (p.setPstate n st).fab = p.fab := by simp [Part.setPstate]

theorem Part.setPstate_sticky (st i : Nat) : (p.setPstate n st).getB FAB_STICKY i = p.getB FAB_STICKY i :=
  Part.getB_congr i (p.rd_putF_other _ _ _ (by unfold FAB_PSTATUS FAB_STICKY; omega))

/-- A port that is up carries packets (R325). -/
theorem Part.portRuns_false {st : Nat} (h : p.pstate n = st) (hst : st ≠ 5) : p.portRuns n = false := by
  unfold Part.portRuns
  unfold Part.pstate at h
  rw [h]
  simp [hst]

/-- A port in fast retrain: the retrains of the frame are counted, and the third one is a full one (R345). -/
def Port.slow (x : Port) : Port := { x with fasts := x.fasts + 1, full := decide (3 ≤ x.fasts + 1) }

/-- A port that has come up: the resends of its packets count anew (R345). -/
def Port.risen (x : Port) : Port := { x with full := false, replay := x.replay.map fun e => { e with resent := 0 } }

end

/-- What a step leaves for good: the memory, the cores and the set bits of FAB_STICKY; with the state and the content of port `n`. -/
structure PortAt (n st : Nat) (x : Port) (p q : Part) : Prop where
  state : q.pstate n = st
  port : q.port n = x
  mem : q.mem = p.mem
  cores : q.cores = p.cores
  sticky : ∀ i < 64, p.getB FAB_STICKY i = true → q.getB FAB_STICKY i = true

namespace PortAt
variable {n st : Nat} {x : Port} {p q r : Part}

theorem spares (h : PortAt n st x p q) (hn : n < 34) (hs : Spares n q r) : PortAt n st x p r :=
  ⟨(hs.status.pstate hn).trans h.state, hs.port.trans h.port, hs.mem.trans h.mem, hs.cores.trans h.cores,
    fun i hi hb => hs.sticky i hi (h.sticky i hi hb)⟩

theorem idle (h : PortAt n st x p q) (hst : st ≠ 5) : q.portRuns n = false := q.portRuns_false n h.state hst

theorem before {p' : Part} (h : PortAt n st x p q) (hm : p.mem = p'.mem) (hc : p.cores = p'.cores)
    (hs : ∀ i < 64, p'.getB FAB_STICKY i = true → p.getB FAB_STICKY i = true) : PortAt n st x p' q :=
  ⟨h.state, h.port, h.mem.trans hm, h.cores.trans hc, fun i hi hb => h.sticky i hi (hs i hi hb)⟩

/-- A port given a state and a content. -/
theorem set (n : Nat) (x : Port) (p : Part) (hst : st < 16) : PortAt n st x p ((p.setPort n x).setPstate n st) := by
  refine ⟨Part.pstate_setPstate _ n hst, ?_, by simp, by simp, fun i _ h => ?_⟩
  · rw [Spares.port_congr n (congrArg Fabric.ports (Part.setPstate_fab _ n st)), Part.port_setPort_same]
  · rw [Part.setPstate_sticky]
    exact h

theorem set' (n : Nat) (x : Port) (p : Part) (hst : st < 16) : PortAt n st x p ((p.setPstate n st).setPort n x) := by
  refine ⟨Part.pstate_setPstate _ n hst, Part.port_setPort_same _ n x, by simp, by simp, fun i _ h => ?_⟩
  change (p.setPstate n st).getB FAB_STICKY i = true
  rw [Part.setPstate_sticky]
  exact h

end PortAt

section
variable (p : Part) (n : Nat)

/-- Nothing waits for a bundle when a port is lost: none waits afterwards. -/
theorem Part.portLost_fwd (h : p.fab.fwd = []) : (p.portLost n).fab.fwd = [] := by
  have hr : ∀ (r : Part) st, r.fab.fwd = [] → (r.reroute st).fab.fwd = [] := fun r st hf => by
    unfold Part.reroute
    extract_lets done q
    have hq : q.fab.fwd = [] := by
      unfold q Part.modFab
      dsimp only
      split <;> exact hf
    split
    split
    · exact hf
    · split
      · have hl : q.loadLat.fab = q.fab := by rw [q.loadLat_keeps.1]
        simp [hl, hq]
      · exact hq
  unfold Part.portLost
  dsimp only
  rw [Part.drainFwd_none p _ h, ite_self]
  exact hr _ _ (hr _ _ h)

/-- A fast retrain starts (R345). -/
theorem Part.fastRetrain_retrains (hn : n < 34) (h : p.pstate n = 5) :
    PortAt n 6 (p.port n).slow p (p.fastRetrain n) ∧ (p.fab.fwd = [] → (p.fastRetrain n).fab.fwd = []) := by
  obtain ⟨r, hr⟩ : ∃ r, r = ((p.setPstate n 6).setPort n (p.port n).slow).bump (FAB_PSTAT_RETRAIN n) 1 := ⟨_, rfl⟩
  have hq : p.fastRetrain n = r.portLost n := by
    unfold Part.fastRetrain
    rw [if_neg (not_not.2 h), hr]
    rfl
  have hat : PortAt n 6 (p.port n).slow p r := by
    rw [hr]
    exact (PortAt.set' n (p.port n).slow p (by decide)).spares hn (Spares.bump n _ 1 (besidesPorts_of_port n (by decide) (by decide)))
  rw [hq]
  refine ⟨hat.spares hn (Spares.portLost n r fun _ => hat.idle (by decide)), fun hf => r.portLost_fwd n ?_⟩
  rw [hr]
  simp [Part.setPort, Part.setPstate, hf]

theorem Part.fastRetrain_off (h : p.pstate n ≠ 5) : p.fastRetrain n = p := if_pos h

/-- A port comes up again (R345). -/
theorem Part.comeUp_rises (hn : n < 34) : ∃ r, PortAt n 5 (p.port n).risen p r ∧ r.getF (FAB_PSTATUS n) 4 4 = 15 ∧ r.fab.fwd = p.fab.fwd ∧
    p.comeUp n = r.drainFwd (portBundle n) := by
  obtain ⟨u, hu⟩ : ∃ u, u = (p.putF (FAB_PSTATUS n) 4 4 15).setPstate n 5 := ⟨_, rfl⟩
  obtain ⟨v, hv⟩ : ∃ v, v = u.bump (FAB_PSTAT_RETRY n) (u.port n).replay.length := ⟨_, rfl⟩
  have hfab : u.fab = p.fab := by rw [hu]; simp
  have hlanes : u.getF (FAB_PSTATUS n) 4 4 = 15 := by
    rw [hu]
    unfold Part.setPstate
    rw [Part.getF_putF_field _ _ _ _ _ _ _ (by decide) (by decide), Part.getF_putF_same _ _ _ _ _ (by decide)]
    rfl
  have hstate : u.pstate n = 5 := by rw [hu, Part.pstate_setPstate _ n (by decide)]
  have hs : Spares n u v := by rw [hv]; exact Spares.bump n u _ (besidesPorts_of_port n (by decide) (by decide))
  have hvfab : v.fab = p.fab := by rw [hv, ← hfab]; simp
  have hkeep : u.mem = p.mem ∧ u.cores = p.cores ∧ ∀ i, u.getB FAB_STICKY i = p.getB FAB_STICKY i := by
    refine ⟨by rw [hu]; simp, by rw [hu]; simp, fun i => ?_⟩
    rw [hu, Part.setPstate_sticky]
    exact Part.getB_congr i (p.rd_putF_other _ _ _ (by unfold FAB_PSTATUS FAB_STICKY; omega))
  obtain ⟨um, uc, us⟩ := hkeep
  refine ⟨v.setPort n (p.port n).risen, ⟨?_, Part.port_setPort_same _ n _, hs.mem.trans um, hs.cores.trans uc, fun i hi h => ?_⟩, ?_, ?_, ?_⟩
  · exact (hs.status.pstate hn).trans hstate
  · exact hs.sticky i hi ((us i).trans h)
  · change v.getF (FAB_PSTATUS n) 4 4 = 15
    rw [Part.getF_congr _ _ (hs.status n hn), hlanes]
  · exact (congrArg (fun f : Fabric => f.fwd) hvfab : v.fab.fwd = p.fab.fwd)
  · unfold Part.comeUp
    rw [← hu]
    dsimp only
    rw [← hv, Spares.port_congr n (congrArg Fabric.ports hvfab)]
    rfl

/-- With nothing that waits for its bundle, the port that comes up holds what it held (R345). -/
theorem Part.comeUp_alone (hn : n < 34) (hf : p.fab.fwd = []) :
    PortAt n 5 (p.port n).risen p (p.comeUp n) ∧ (p.comeUp n).getF (FAB_PSTATUS n) 4 4 = 15 := by
  obtain ⟨r, hr, hl, hw, hq⟩ := p.comeUp_rises n hn
  rw [hq, r.drainFwd_none _ (hw.trans hf)]
  exact ⟨hr, hl⟩

theorem Part.comeUp_state (hn : n < 34) : (p.comeUp n).pstate n = 5 ∧ (p.comeUp n).mem = p.mem ∧ (p.comeUp n).cores = p.cores := by
  obtain ⟨r, hr, -, -, hq⟩ := p.comeUp_rises n hn
  have hs := Spares.drainFwd 34 r (fun h => absurd h (by decide)) (portBundle n)
  rw [hq]
  exact ⟨(hs.status.pstate hn).trans hr.state, hs.mem.trans hr.mem, hs.cores.trans hr.cores⟩

/-- A port that fails holds nothing more, and the event shows (R345, R347). -/
theorem Part.failPort_fails {st : Nat} (hn : n < 34) (hst : st < 16) (h5 : st ≠ 5) :
    PortAt n st Port.reset p (p.failPort n st) ∧ (p.failPort n st).getB FAB_STICKY 2 = true := by
  obtain ⟨r, hr⟩ : ∃ r, r = ((p.setPort n .reset).setPstate n st).fabErr 2 n 0 := ⟨_, rfl⟩
  have hat : PortAt n st .reset p r := by
    rw [hr]
    exact (PortAt.set n .reset p hst).spares hn (Spares.fabErr n _ (by decide) _ _)
  have h2 : r.getB FAB_STICKY 2 = true := by rw [hr]; exact Part.fabErr_sticky _ (by decide) _ _
  unfold Part.failPort
  extract_lets b left u
  have hu : u = r := hr.symm
  rw [hu]
  have hs : Spares n r (((r.modFab fun f => { f with fwd := left ++ f.fwd }).drainFwd b).portLost n) := by
    have h1 : Spares n r (r.modFab fun f => { f with fwd := left ++ f.fwd }) := Spares.modFab n r _ rfl
    have hd := h1.trans (Spares.drainFwd n _ (fun hn => (h1.status.portRuns hn).trans (hat.idle h5)) b)
    exact hd.trans (Spares.portLost n _ fun hn => (hd.status.portRuns hn).trans (hat.idle h5))
  exact ⟨hat.spares hn hs, hs.sticky 2 (by decide) h2⟩

/-- What a port records of its neighbour (R329, R330), and the events of a neighbour that is not the expected one. -/
theorem Part.takeIdentity_takes (hn : n < 34) (b : Neighbour) :
    (p.takeIdentity n b).fab = p.fab ∧ PortAt n (p.pstate n) (p.port n) p (p.takeIdentity n b) ∧
      (p.takeIdentity n b).getF (FAB_PSTATUS n) 16 16 = b.chip % 65536 ∧ (p.takeIdentity n b).getF (FAB_PSTATUS n) 8 6 = b.port % 64 ∧
      (p.takeIdentity n b).rd (FAB_PLAT n) = min b.latency 4095 ∧
      (p.identity n b = 1 → (p.takeIdentity n b).getB FAB_STICKY 10 = true) ∧ (p.identity n b = 2 → (p.takeIdentity n b).getB FAB_STICKY 0 = true) := by
  obtain ⟨u, hu⟩ : ∃ u, u = (p.putF (FAB_PSTATUS n) 16 16 b.chip).putF (FAB_PSTATUS n) 8 6 b.port := ⟨_, rfl⟩
  obtain ⟨v, hv⟩ : ∃ v, v = u.wr (FAB_PLAT n) (min b.latency 4095) := ⟨_, rfl⟩
  have hs : Spares n u v := by rw [hv]; exact Spares.wr n u _ (besidesPorts_of_port n (by decide) (by decide))
  have hfab : v.fab = p.fab := by rw [hv, hu]; simp
  have hstate : u.pstate n = p.pstate n := by
    rw [hu]
    unfold Part.pstate
    rw [Part.getF_putF_field _ _ _ _ _ _ _ (by decide) (by decide), Part.getF_putF_field _ _ _ _ _ _ _ (by decide) (by decide)]
  have hsticky : ∀ i, u.getB FAB_STICKY i = p.getB FAB_STICKY i := fun i => by
    rw [hu, Part.getB_congr i (Part.rd_putF_other _ _ _ _ (by unfold FAB_PSTATUS FAB_STICKY; omega)),
      Part.getB_congr i (Part.rd_putF_other _ _ _ _ (by unfold FAB_PSTATUS FAB_STICKY; omega))]
  have hat : PortAt n (p.pstate n) (p.port n) p v :=
    ⟨(hs.status.pstate hn).trans hstate, Spares.port_congr n (congrArg Fabric.ports hfab), by rw [hv, hu]; simp, by rw [hv, hu]; simp,
      fun i hi h => hs.sticky i hi ((hsticky i).trans h)⟩
  have hchip : v.getF (FAB_PSTATUS n) 16 16 = b.chip % 65536 ∧ v.getF (FAB_PSTATUS n) 8 6 = b.port % 64 := by
    rw [Part.getF_congr _ _ (hs.status n hn), Part.getF_congr _ _ (hs.status n hn), hu, Part.getF_putF_same _ _ _ _ _ (by decide),
      Part.getF_putF_field _ _ _ _ _ _ _ (by decide) (by decide), Part.getF_putF_same _ _ _ _ _ (by decide)]
    exact ⟨rfl, rfl⟩
  have hplat : v.rd (FAB_PLAT n) = min b.latency 4095 := by
    rw [hv, Part.rd_wr_same]
    omega
  have herr : ∀ i l0 l1, i < 64 → (v.fabErr i l0 l1).fab = p.fab ∧ PortAt n (p.pstate n) (p.port n) p (v.fabErr i l0 l1) ∧
      (v.fabErr i l0 l1).getF (FAB_PSTATUS n) 16 16 = b.chip % 65536 ∧ (v.fabErr i l0 l1).getF (FAB_PSTATUS n) 8 6 = b.port % 64 ∧
      (v.fabErr i l0 l1).rd (FAB_PLAT n) = min b.latency 4095 := fun i l0 l1 hi => by
    have he := Spares.fabErr n v hi l0 l1
    refine ⟨?_, hat.spares hn he, ?_, ?_, ?_⟩
    · exact (Part.err_informs _ _ rfl).trans ((by simp : (v.stick FAB_STICKY i).fab = v.fab).trans hfab)
    · rw [Part.getF_congr _ _ (he.status n hn), hchip.1]
    · rw [Part.getF_congr _ _ (he.status n hn), hchip.2]
    · have hb : besidesRecords (FAB_PLAT n) := by
        unfold besidesRecords TIK_STATUS FAB_PLAT SOBS_STAT_TDROP secBase
        exact ⟨by omega, by omega, fun b => by omega⟩
      refine (Part.rd_err_besides hb _ _).trans ((Part.rd_stick_other _ _ ?_ ?_).trans hplat)
      · unfold FAB_STICKY FAB_PLAT; omega
      · unfold FAB_STICKY FAB_PLAT; omega
  unfold Part.takeIdentity
  dsimp only
  have hid : v.identity n b = p.identity n b := by
    unfold Part.identity Part.expects Part.chip
    rw [hfab]
  rw [← hu, ← hv, hid]
  split
  · rename_i hi
    exact ⟨hfab, hat, hchip.1, hchip.2, hplat, fun h => by simp [hi] at h, fun h => by simp [hi] at h⟩
  · obtain ⟨h1, h2, h3, h4, h5⟩ := herr 10 n b.port (by decide)
    rename_i hi
    exact ⟨h1, h2, h3, h4, h5, fun _ => Part.fabErr_sticky v (by decide) _ _, fun h => by simp [hi] at h⟩
  · obtain ⟨h1, h2, h3, h4, h5⟩ := herr 0 ((v.chip <<< 16) + n) ((b.chip <<< 16) + b.port) (by decide)
    rename_i hi
    exact ⟨h1, h2, h3, h4, h5, fun h => absurd h hi, fun _ => Part.fabErr_sticky v (by decide) _ _⟩

end

section
variable {s : State} {port : Nat}

theorem linkAck_becomes {seq i : Nat} (h : ((s.p.port port).replay.findIdx? fun e => e.seq == seq) = some i) (hw : s.p.fab.fwd = []) :
    Becomes (.linkAck port seq) s (s.p.setPort port { s.p.port port with replay := (s.p.port port).replay.drop (i + 1) }) := by
  change execLinkAck port seq s = _
  unfold execLinkAck State.run
  dsimp only
  rw [h]
  exact congrArg (fun r => (.next { s with p := r } : Answer))
    (Part.drainFwd_none (s.p.setPort port { s.p.port port with replay := (s.p.port port).replay.drop (i + 1) }) _ hw)

/-- The port after a rejection: what stands from the packet rejected on has been sent once more (R344). -/
def Port.rejected (x : Port) (i : Nat) : Port :=
  { x with replay := x.replay.take i ++ (x.replay.drop i).map fun e => { e with resent := e.resent + 1 } }

theorem linkReject_becomes {seq i : Nat} {rest : List Sent} {r : Part} (h : ((s.p.port port).replay.findIdx? fun e => e.seq == seq) = some i)
    (hrest : rest = (s.p.port port).replay.drop i)
    (hr : r = (s.p.setPort port ((s.p.port port).rejected i)).bump (FAB_PSTAT_RETRY port) (resend rest).length) :
    Becomes (.linkReject port seq) s (if (resend rest).any fun e => e.resent ≥ 8 then r.fastRetrain port else r) := by
  change execLinkReject port seq s = _
  unfold execLinkReject State.run
  dsimp only
  rw [h, hr, hrest]
  rfl

/-- A packet sent once more has now been resent eight times exactly if it had been seven times (R345). -/
theorem resend_any (l : List Sent) : ((resend l).any fun e => e.resent ≥ 8) = true ↔ ∃ e ∈ l, 7 ≤ e.resent := by
  unfold resend
  simp

/-- A port with a lane that has lost lock carries no packet (R325). -/
theorem Part.lane_stops (p : Part) {lane : Nat} (hl : lane < 4) :
    (p.putB (FAB_PSTATUS port) (4 + lane) false).portRuns port = false := by
  unfold Part.portRuns
  rw [Bool.and_eq_false_iff]
  refine .inr (beq_eq_false_iff_ne.2 fun h => ?_)
  have hb := p.getB_putB_same (FAB_PSTATUS port) (4 + lane) false (by omega)
  rw [Part.getB, bit_eq_testBit] at hb
  have ht : (fld ((p.putB (FAB_PSTATUS port) (4 + lane) false).rd (FAB_PSTATUS port)) 4 4).testBit lane = true := by
    rw [show fld _ 4 4 = 15 from h]
    have hall : ∀ lane < 4, Nat.testBit 15 lane = true := by decide
    exact hall lane hl
  rw [fld_testBit] at ht
  simp [hb] at ht

theorem laneLosesLock_loses (hn : port < 34) (h : s.p.pstate port = 5) :
    ∃ q lane, Becomes (.laneLosesLock port) s q ∧ lane < 4 ∧ q.getB (FAB_PSTATUS port) (4 + lane) = false ∧ q.portRuns port = false ∧
      q.mem = s.p.mem ∧ q.cores = s.p.cores ∧ q.port port = s.p.port port ∧
      ∀ i < 64, i ≠ 4 + lane → q.getB (FAB_PSTATUS port) i = s.p.getB (FAB_PSTATUS port) i := by
  obtain ⟨lane, hlane⟩ : ∃ lane, lane = Config.freeNat s.p.fresh.1 % 4 := ⟨_, rfl⟩
  have hl : lane < 4 := by omega
  obtain ⟨r, hr⟩ : ∃ r, r = s.p.fresh.2.putB (FAB_PSTATUS port) (4 + lane) false := ⟨_, rfl⟩
  have hruns : r.portRuns port = false := by rw [hr]; exact Part.lane_stops _ hl
  have hs := Spares.portLost port r fun _ => hruns
  have hrd := hs.status port hn
  refine ⟨r.portLost port, lane, ?_, hl, ?_, ?_, ?_, ?_, ?_, fun i hi hne => ?_⟩
  · change execLaneLosesLock port s = _
    unfold execLaneLosesLock State.run
    dsimp only
    rw [if_neg (by simp [hn, h]), hr, hlane]
  · rw [Part.getB_congr _ hrd, hr, Part.getB_putB_same _ _ _ _ (by omega)]
  · exact (hs.status.portRuns hn).trans hruns
  · rw [hs.mem, hr]; simp
  · rw [hs.cores, hr]; simp
  · rw [hs.port, Spares.port_congr port (show r.fab.ports = s.p.fab.ports by rw [hr]; simp)]
  · rw [Part.getB_congr i hrd, hr, Part.getB_putB_bit _ _ _ _ _ hne.symm hi]
    exact Part.getB_congr i (by simp)

/-- A neighbour whose chain does not verify is not accepted (R331, R471). -/
theorem State.accepts_chain (s : State) (p : Part) {c : Credential} (h : c.chainOk = false) : s.accepts p port c = false := by
  unfold State.accepts credentialOk
  split
  · rfl
  · rw [h]
    rfl

section
variable (s : State) (n : Neighbour) (c : Credential)

/-- The part before a full retrain's authentication: its count starts anew, and the neighbour's identity is taken (R330, R345). -/
def State.retrained (s : State) (port : Nat) (n : Neighbour) : Part :=
  (s.p.setPort port { s.p.port port with fasts := 0 }).takeIdentity port n

variable (hn : port < 34) (h6 : s.p.pstate port = 6) (hf : (s.p.port port).full = true)

theorem State.retrained_at (hn : port < 34) : PortAt port (s.p.pstate port) { s.p.port port with fasts := 0 } s.p (s.retrained port n) ∧
    ((s.retrained port n).fab.fwd = s.p.fab.fwd) ∧ (s.p.identity port n = 2 → (s.retrained port n).getB FAB_STICKY 0 = true) := by
  obtain ⟨hfab, hat, -, -, -, -, h2⟩ := (s.p.setPort port { s.p.port port with fasts := 0 }).takeIdentity_takes port hn n
  rw [Part.port_setPort_same] at hat
  exact ⟨hat.before rfl rfl fun _ _ h => h, (congrArg (fun f : Fabric => f.fwd) hfab :), h2⟩

include h6 hf

theorem fullRetrainDone_fails : Becomes (.fullRetrainDone port ⟨false, n, c⟩) s (s.p.failPort port 9) := by
  change execFullRetrainDone port ⟨false, n, c⟩ s = _
  unfold execFullRetrainDone State.run
  dsimp only
  exact congrArg (fun r => (.next { s with p := r } : Answer)) ((if_neg (by rw [h6, hf]; decide)).trans (if_pos rfl))

theorem fullRetrainDone_miscables (hi : s.p.identity port n = 2) :
    Becomes (.fullRetrainDone port ⟨true, n, c⟩) s ((s.retrained port n).failPort port 7) := by
  change execFullRetrainDone port ⟨true, n, c⟩ s = _
  unfold execFullRetrainDone State.run
  dsimp only
  refine congrArg (fun r => (.next { s with p := r } : Answer)) ((if_neg (by rw [h6, hf]; decide)).trans ((if_neg (by decide)).trans ?_))
  exact if_pos (show Part.identity (s.p.setPort port _) port n = 2 from hi)

theorem fullRetrainDone_rises (hi : s.p.identity port n ≠ 2) (ha : s.p.getB FAB_CTRL 1 = false) :
    Becomes (.fullRetrainDone port ⟨true, n, c⟩) s ((s.retrained port n).comeUp port) := by
  change execFullRetrainDone port ⟨true, n, c⟩ s = _
  unfold execFullRetrainDone State.run
  dsimp only
  refine congrArg (fun r => (.next { s with p := r } : Answer)) ((if_neg (by rw [h6, hf]; decide)).trans ((if_neg (by decide)).trans ?_))
  refine (if_neg (show ¬ Part.identity (s.p.setPort port _) port n = 2 from hi)).trans
    (if_neg (show ¬ Part.getB (s.p.setPort port _) FAB_CTRL 1 = true from ?_))
  exact fun h => Bool.noConfusion (ha.symm.trans h)

theorem fullRetrainDone_judges (hi : s.p.identity port n ≠ 2) (ha : s.p.getB FAB_CTRL 1 = true) :
    let q := (s.retrained port n).beginAuth s.nv port
    let a := s.answerAuth q port c
    Becomes (.fullRetrainDone port ⟨true, n, c⟩) s
      (if s.accepts q port c then a.comeUp port else (a.fabErr 1 port (q.getF (FAB_PSTATUS port) 16 16)).failPort port 8) := by
  intro q a
  change execFullRetrainDone port ⟨true, n, c⟩ s = _
  unfold execFullRetrainDone State.run
  dsimp only
  refine congrArg (fun r => (.next { s with p := r } : Answer)) ((if_neg (by rw [h6, hf]; decide)).trans ((if_neg (by decide)).trans ?_))
  exact (if_neg (show ¬ Part.identity (s.p.setPort port _) port n = 2 from hi)).trans
    (if_pos (show Part.getB (s.p.setPort port _) FAB_CTRL 1 = true from ha))

end

/-- What authentication changes besides the port's content (R331): nothing that a step leaves for good. -/
theorem answerAuth_at (s : State) (p : Part) (c : Credential) (port st : Nat) (x : Port) {p' : Part} (h : PortAt port st x p' p) :
    ∃ y, PortAt port st y p' (s.answerAuth (p.beginAuth s.nv port) port c) := by
  refine ⟨_, ?_, Part.port_setPort_same _ port _, ?_, ?_, fun i hi hb => ?_⟩
  · exact (Part.getF_congr 0 4 (by simp [State.answerAuth, Part.beginAuth, Part.setPort, Part.anyBytes])).trans h.state
  · exact (by simp [State.answerAuth, Part.beginAuth] : _ = p.mem).trans h.mem
  · exact (by simp [State.answerAuth, Part.beginAuth] : _ = p.cores).trans h.cores
  · exact (Part.getB_congr i (by simp [State.answerAuth, Part.beginAuth, Part.setPort, Part.anyBytes])).trans (h.sticky i hi hb)

/-- A full retrain with authentication ends up, or not authenticated (R331, R345). -/
theorem fullRetrainDone_authenticates (s : State) (n : Neighbour) (c : Credential) (hn : port < 34) (h6 : s.p.pstate port = 6)
    (hf : (s.p.port port).full = true) (hi : s.p.identity port n ≠ 2) (ha : s.p.getB FAB_CTRL 1 = true) :
    ∃ q, Becomes (.fullRetrainDone port ⟨true, n, c⟩) s q ∧ q.mem = s.p.mem ∧ q.cores = s.p.cores ∧
      (q.pstate port = 5 ∨ q.pstate port = 8) ∧ (c.chainOk = false → q.pstate port = 8 ∧ q.getB FAB_STICKY 1 = true) := by
  obtain ⟨hat, -, -⟩ := s.retrained_at n hn
  obtain ⟨y, hy⟩ := answerAuth_at s _ c port _ _ hat
  refine ⟨_, fullRetrainDone_judges s n c h6 hf hi ha, ?_⟩
  obtain ⟨q, hq⟩ : ∃ q, q = (s.retrained port n).beginAuth s.nv port := ⟨_, rfl⟩
  rw [← hq] at hy ⊢
  obtain ⟨a, haq⟩ : ∃ a, a = s.answerAuth q port c := ⟨_, rfl⟩
  rw [← haq] at hy ⊢
  split
  · rename_i hacc
    obtain ⟨hp, hm, hc⟩ := a.comeUp_state port hn
    exact ⟨hm.trans hy.mem, hc.trans hy.cores, .inl hp, fun h => by rw [State.accepts_chain s q h] at hacc; cases hacc⟩
  · have he := hy.spares hn (Spares.fabErr port a (i := 1) (by decide) port (q.getF (FAB_PSTATUS port) 16 16))
    obtain ⟨hp, -⟩ := (a.fabErr 1 port (q.getF (FAB_PSTATUS port) 16 16)).failPort_fails port (st := 8) hn (by decide) (by decide)
    exact ⟨hp.mem.trans he.mem, hp.cores.trans he.cores, .inr hp.state, fun _ =>
      ⟨hp.state, hp.sticky 1 (by decide) (a.fabErr_sticky (by decide) _ _)⟩⟩

/-- A fast retrain that ended well, or whose partner began it while the port is up here (R345). -/
theorem fastRetrainDone_rises {r : Part} (hr : s.p.fastRetrain port = r) (h6 : r.pstate port = 6) (hf : (r.port port).full = false) :
    Becomes (.fastRetrainDone port true) s (r.comeUp port) := by
  change execFastRetrainDone port true s = _
  unfold execFastRetrainDone State.run
  dsimp only
  rw [hr, h6, hf, if_neg (by simp), if_pos (by rfl)]

theorem fastRetrainDone_fails (h6 : s.p.pstate port = 6) (hf : (s.p.port port).full = false) :
    Becomes (.fastRetrainDone port false) s
      ((s.p.setPort port { s.p.port port with full := true, fasts := 0 }).bump (FAB_PSTAT_RETRAIN port) 1) := by
  change execFastRetrainDone port false s = _
  unfold execFastRetrainDone State.run
  dsimp only
  rw [s.p.fastRetrain_off port (by rw [h6]; decide), h6, hf, if_neg (by simp), if_neg (by decide)]

end

/-- Settles O35: what each step does to the port, and that the steps of the other ports it sets off spare a port that carries no packets. -/
theorem linkEvents : Obligations.LinkEvents := by
  intro s port p hn slow
  refine ⟨fun seq i hi => ?_, fun h5 => ?_, fun h5 hne => ?_, fun h5 => laneLosesLock_loses hn h5, fun h6 hf => ⟨fun hw => ?_, ?_⟩,
    fun h5 hlt hw => ?_, fun n c h6 hf => ⟨fun hw hi ha => ?_, fun hi ha => fullRetrainDone_authenticates s n c hn h6 hf hi ha, fun hi => ?_, ?_⟩⟩
  · intro rest again
    have hup : ∀ x, (p.setPort port x).pstate port = p.pstate port := fun x => p.pstate_setPort port x port
    have hr : ∀ x, Spares port (p.setPort port x) ((p.setPort port x).bump (FAB_PSTAT_RETRY port) (resend rest).length) := fun x =>
      Spares.bump port _ _ (besidesPorts_of_port port (by decide) (by decide))
    obtain ⟨r, hrd⟩ : ∃ r, r = (p.setPort port again).bump (FAB_PSTAT_RETRY port) (resend rest).length := ⟨_, rfl⟩
    have hb := linkReject_becomes (rest := rest) (r := r) hi rfl hrd
    have hrs : Spares port (p.setPort port again) r := by rw [hrd]; exact hr again
    refine ⟨fun hw => ?_, fun hall => ?_, fun hex h5 => ?_⟩
    · exact ⟨_, linkAck_becomes hi hw, rfl, Part.port_setPort_same p port _, fun n hne => p.port_setPort_other port _ hne⟩
    · have hno : ¬ ((resend rest).any fun e => e.resent ≥ 8) = true := fun h => by
        obtain ⟨e, he, h7⟩ := (resend_any rest).1 h
        exact absurd (hall e he) (by omega)
      rw [if_neg hno] at hb
      refine ⟨r, hb, hrs.port.trans (Part.port_setPort_same p port again), ?_, hrs.mem, hrs.cores⟩
      exact hrs.status.pstate hn
    · rw [if_pos ((resend_any rest).2 hex)] at hb
      have h5r : r.pstate port = 5 := (hrs.status.pstate hn).trans h5
      obtain ⟨hat, -⟩ := r.fastRetrain_retrains port hn h5r
      refine ⟨r.fastRetrain port, hb, hat.state, hat.mem.trans hrs.mem, hat.cores.trans hrs.cores, ?_⟩
      rw [hat.port, hrs.port, Part.port_setPort_same]
      rfl
  · refine ⟨p.bump (FAB_PSTAT_STALL port) 1, ?_, rfl, Part.rd_bump_same _ _ _⟩
    change execReceiveStall port s = _
    unfold execReceiveStall State.run
    dsimp only
    rw [if_pos (by simp [hn]; exact h5)]
  · obtain ⟨hat, -⟩ := p.fastRetrain_retrains port hn h5
    refine ⟨p.fastRetrain port, ?_, hat.state, hat.mem, hat.cores, hat.port⟩
    change execAckTimeout port s = _
    unfold execAckTimeout State.run
    dsimp only
    rw [if_neg (by simpa using hne)]
  · obtain ⟨hat, hl⟩ := p.comeUp_alone port hn hw
    refine ⟨p.comeUp port, fastRetrainDone_rises (p.fastRetrain_off port (by rw [h6]; decide)) h6 hf, hat.state, hl, hat.port, hat.mem, hat.cores⟩
  · have hs := Spares.bump port (p.setPort port { p.port port with full := true, fasts := 0 }) 1
      (besidesPorts_of_port (k := 0x801038) port (by decide) (by decide))
    exact ⟨_, fastRetrainDone_fails h6 hf, (hs.status.pstate hn).trans h6, hs.port.trans (Part.port_setPort_same p port _), hs.mem, hs.cores⟩
  · obtain ⟨hat, hw'⟩ := p.fastRetrain_retrains port hn h5
    have hfull : ((p.fastRetrain port).port port).full = false := by
      rw [hat.port]
      unfold Port.slow
      simp
      omega
    obtain ⟨hup, -⟩ := (p.fastRetrain port).comeUp_alone port hn (hw' hw)
    refine ⟨_, fastRetrainDone_rises rfl hat.state hfull, hup.state, ?_, hup.mem.trans hat.mem, hup.cores.trans hat.cores⟩
    rw [hup.port, hat.port]
    rfl
  · obtain ⟨hat, hfw, -⟩ := s.retrained_at n hn
    obtain ⟨hup, -⟩ := (s.retrained port n).comeUp_alone port hn (hfw.trans hw)
    refine ⟨_, fullRetrainDone_rises s n c h6 hf hi ha, hup.state, ?_, hup.mem.trans hat.mem, hup.cores.trans hat.cores⟩
    rw [hup.port, hat.port]
    rfl
  · obtain ⟨hat, -, h0⟩ := s.retrained_at n hn
    obtain ⟨hfl, -⟩ := (s.retrained port n).failPort_fails port (st := 7) hn (by decide) (by decide)
    exact ⟨_, fullRetrainDone_miscables s n c h6 hf hi, hfl.state, hfl.port, hfl.sticky 0 (by decide) (h0 hi), hfl.mem.trans hat.mem,
      hfl.cores.trans hat.cores⟩
  · obtain ⟨hfl, h2⟩ := p.failPort_fails port (st := 9) hn (by decide) (by decide)
    exact ⟨_, fullRetrainDone_fails s n c h6 hf, hfl.state, hfl.port, h2, hfl.mem, hfl.cores⟩

end Sys2Proof.Machine
end

section
/-!
PROOF. Ports train, identify and authenticate (R327 to R331, R345, R351).
-/
namespace Sys2Proof.Machine

/-- A register that a port's clearing does not write. -/
def besidesClear (j : Nat) : Prop := ∀ m < 34, j ≠ FAB_PSTATUS m ∧ j ≠ FAB_PLAT m

/-- Ports have been cleared: besides their states and latencies and what they keep, nothing has changed. -/
structure Cleared (p q : Part) : Prop where
  fab : q.fab = { p.fab with ports := q.fab.ports }
  mem : q.mem = p.mem
  cores : q.cores = p.cores
  rd : ∀ j, besidesClear j → q.rd j = p.rd j

/-- A port is cleared, in a state. -/
def Part.portCleared (q : Part) (n st : Nat) : Prop := q.port n = Port.reset ∧ q.pstate n = st

namespace Cleared

theorem refl (p : Part) : Cleared p p := ⟨rfl, rfl, rfl, fun _ _ => rfl⟩

theorem trans {p q r : Part} (h : Cleared p q) (h' : Cleared q r) : Cleared p r :=
  ⟨by rw [h'.fab, h.fab], h'.mem.trans h.mem, h'.cores.trans h.cores, fun j hj => (h'.rd j hj).trans (h.rd j hj)⟩

variable (p : Part) {n : Nat} (st : Nat)

theorem clearPort (hn : n < 34) : Cleared p (p.clearPort n st) := by
  unfold Part.clearPort
  refine ⟨by simp [Part.setPort, Part.modFab], by simp, by simp, fun j hj => ?_⟩
  rw [Part.rd_wr_other _ _ (hj n hn).2.symm, Part.rd_wr_other _ _ (hj n hn).1.symm]
  rfl

end Cleared

section
variable (p : Part) (n st : Nat)

theorem Part.clearPort_port : (p.clearPort n st).port n = Port.reset := by
  unfold Part.clearPort
  rw [Spares.port_congr (p := p.setPort n .reset) n (by simp), Part.port_setPort_same]

theorem Part.clearPort_pstate (h : st < 16) : (p.clearPort n st).pstate n = st := by
  unfold Part.clearPort Part.pstate Part.getF
  rw [Part.rd_wr_other _ _ (by unfold FAB_PLAT FAB_PSTATUS; omega), Part.rd_wr_same]
  unfold fld
  omega

theorem Part.clearPort_other {m : Nat} (h : m ≠ n) : (p.clearPort n st).port m = p.port m ∧ (p.clearPort n st).pstate m = p.pstate m := by
  constructor
  · unfold Part.clearPort
    rw [Spares.port_congr (p := p.setPort n .reset) m (by simp), Part.port_setPort_other _ _ _ h]
  · unfold Part.clearPort Part.pstate
    rw [Part.getF_congr _ _ (Part.rd_wr_other _ _ (by unfold FAB_PLAT FAB_PSTATUS; omega)),
      Part.getF_congr _ _ (Part.rd_wr_other _ _ (by unfold FAB_PSTATUS; omega))]
    rfl

end

/-- Ports cleared one after the other, each in the state that the part gave it before (R328, R329). -/
theorem Cleared.each {p0 : Part} {f : Part → Nat → Part} (st : Nat → Nat) (hst : ∀ n, st n < 16)
    (hf : ∀ r n, Cleared p0 r → f r n = r.clearPort n (st n)) (l : List Nat) (hl : ∀ n ∈ l, n < 34) (p : Part) (h : Cleared p0 p) :
    Cleared p0 (p.each l f) ∧ ∀ n, n ∈ l ∨ p.portCleared n (st n) → (p.each l f).portCleared n (st n) := by
  induction l generalizing p with
  | nil => exact ⟨h, fun n hn => hn.resolve_left (by simp)⟩
  | cons m l ih =>
    rw [Part.each_cons, hf p m h]
    obtain ⟨h1, h2⟩ := ih (fun n hn => hl n (List.mem_cons_of_mem m hn)) _ (h.trans (Cleared.clearPort p (st m) (hl m List.mem_cons_self)))
    refine ⟨h1, fun n hn => h2 n ?_⟩
    by_cases hnm : n = m
    · subst hnm
      exact .inr ⟨p.clearPort_port n _, p.clearPort_pstate n _ (hst n)⟩
    · rcases hn with hn | hn
      · exact .inl ((List.mem_cons.1 hn).resolve_left hnm)
      · obtain ⟨hp, hs⟩ := p.clearPort_other m (st m) hnm
        exact .inr ⟨hp.trans hn.1, hs.trans hn.2⟩

theorem besidesClear_ctrl (n : Nat) : besidesClear (FAB_PCTRL n) ∧ besidesClear FAB_CTRL := by
  unfold besidesClear FAB_PCTRL FAB_PSTATUS FAB_PLAT FAB_CTRL
  exact ⟨fun m _ => by omega, fun m _ => by omega⟩

section
variable {s : State}

/-- The state of a port that starts to train (R328, R329). -/
def Part.trainState (p : Part) (topo n : Nat) : Nat :=
  if p.getB (FAB_PCTRL n) 0 then 0 else if decide (n ≥ 32) || decide (fld topo (4 * (n / 8)) 4 ≥ 1) then 2 else 1

theorem fabTrain_trains (h : s.p.getB FAB_CTRL 0 = false) :
    ∃ q, Becomes .fabTrain s q ∧ q.getB FAB_CTRL 0 = true ∧ q.chip = s.p.rd FAB_ID % 65536 ∧ q.fab.topoInForce = s.p.rd FAB_TOPO % 65536 ∧
      q.fab.bundles = [] ∧ q.mem = s.p.mem ∧ q.cores = s.p.cores ∧ ∀ n < 34, q.portCleared n (s.p.trainState (s.p.rd FAB_TOPO % 65536) n) := by
  obtain ⟨topo, htopo⟩ : ∃ t, t = s.p.rd FAB_TOPO % 65536 := ⟨_, rfl⟩
  obtain ⟨i, hi⟩ : ∃ t, t = s.p.rd FAB_ID % 65536 := ⟨_, rfl⟩
  obtain ⟨u, hu⟩ : ∃ u, u = s.p.putB FAB_CTRL 0 true := ⟨_, rfl⟩
  have hu' : ∀ j, FAB_CTRL ≠ j → u.rd j = s.p.rd j := fun j hj => by rw [hu, Part.rd_putB_other _ _ _ hj]
  have hr : u.rd FAB_ID % 65536 = i ∧ u.rd FAB_TOPO % 65536 = topo := by
    rw [hi, htopo]
    exact ⟨congrArg (· % 65536) (hu' _ (by decide)), congrArg (· % 65536) (hu' _ (by decide))⟩
  obtain ⟨v, hv⟩ : ∃ v, v = u.modFab fun f => { f with idInForce := i, topoInForce := topo, bundles := [] } := ⟨_, rfl⟩
  have hrd : ∀ j, FAB_CTRL ≠ j → v.rd j = s.p.rd j := fun j hj => by
    rw [hv]
    exact hu' j hj
  have hid : v.fab.idInForce = i ∧ v.fab.topoInForce = topo ∧ v.fab.bundles = [] := by
    rw [hv]
    exact ⟨rfl, rfl, rfl⟩
  have hkeep : v.mem = s.p.mem ∧ v.cores = s.p.cores := by rw [hv, hu]; simp
  have hctrl : v.getB FAB_CTRL 0 = true := by
    have hu0 : u.getB FAB_CTRL 0 = true := by rw [hu, Part.getB_putB_same _ _ _ _ (by decide)]
    rw [hv]
    exact hu0
  have hlt : ∀ n, s.p.trainState topo n < 16 := fun n => by
    unfold Part.trainState
    split
    · decide
    · split <;> decide
  have hstep : ∀ r n, Cleared v r → r.clearPort n (if r.getB (FAB_PCTRL n) 0 then 0 else if r.cabled n then 2 else 1) =
      r.clearPort n (s.p.trainState topo n) := fun r n hr => by
    have hb : r.getB (FAB_PCTRL n) 0 = s.p.getB (FAB_PCTRL n) 0 := Part.getB_congr 0
      ((hr.rd _ (besidesClear_ctrl n).1).trans (hrd _ (by unfold FAB_CTRL FAB_PCTRL; omega)))
    have hcab : r.cabled n = (decide (n ≥ 32) || decide (fld topo (4 * (n / 8)) 4 ≥ 1)) := by
      unfold Part.cabled
      rw [hr.fab, ← hid.2.1]
    unfold Part.trainState
    rw [hb, hcab]
  obtain ⟨hc, hall⟩ := Cleared.each (s.p.trainState topo) hlt hstep (List.range 34) (fun n hn => List.mem_range.1 hn) v (Cleared.refl v)
  refine ⟨_, ?_, (Part.getB_congr 0 (hc.rd _ (besidesClear_ctrl 0).2)).trans hctrl, ?_, ?_, ?_, hc.mem.trans hkeep.1, hc.cores.trans hkeep.2,
    fun n hn => ?_⟩
  · change execFabTrain s = _
    unfold execFabTrain State.run Part.fabTrain
    dsimp only
    rw [h, if_neg (by decide), ← hu, hr.1, hr.2, ← hv]
  · unfold Part.chip
    rw [hc.fab, ← hi]
    exact hid.1
  · rw [hc.fab, ← htopo]
    exact hid.2.1
  · rw [hc.fab]
    exact hid.2.2
  · rw [← htopo]
    exact hall n (.inl (List.mem_range.2 hn))

/-- A parent's change leaves the registers of the fabric, and what waits for a bundle (R352). -/
theorem Part.reroute_keeps (p : Part) (st : Bool) : (∀ j, 0x100000 ≤ j → (p.reroute st).rd j = p.rd j) ∧ (p.reroute st).fab.fwd = p.fab.fwd := by
  unfold Part.reroute
  extract_lets done q
  have hq : (∀ j, q.rd j = p.rd j) ∧ q.fab.fwd = p.fab.fwd := by
    refine ⟨fun j => rfl, ?_⟩
    unfold q Part.modFab
    dsimp only
    split <;> rfl
  split
  split
  · exact ⟨fun _ _ => rfl, rfl⟩
  · split
    · obtain ⟨hl, hr⟩ := q.loadLat_keeps
      refine ⟨fun j hj => ?_, ?_⟩
      · have hne : TIK_STICKY ≠ j ∧ TIK_TOKEN_LAT ≠ j ∧ TIK_DELAY_COMP ≠ j := by
          unfold TIK_STICKY TIK_TOKEN_LAT TIK_DELAY_COMP
          omega
        rw [Part.rd_putB_other _ _ _ hne.1, hr j hne.2.1 hne.2.2, hq.1]
      · have hf : q.loadLat.fab = q.fab := by rw [hl]
        simp [hf, hq.2]
    · exact ⟨fun j _ => hq.1 j, hq.2⟩

theorem fabTrainStop_stops : ∃ q, Becomes .fabTrainStop s q ∧ q.getB FAB_CTRL 0 = false ∧ q.fab.fwd = [] ∧ q.mem = s.p.mem ∧ q.cores = s.p.cores ∧
    ∀ n < 34, q.portCleared n (if s.p.getB (FAB_PCTRL n) 0 = true then 0 else 1) := by
  obtain ⟨u, hu⟩ : ∃ u, u = s.p.putB FAB_CTRL 0 false := ⟨_, rfl⟩
  have hkeep : u.mem = s.p.mem ∧ u.cores = s.p.cores ∧ u.getB FAB_CTRL 0 = false := by
    rw [hu]
    exact ⟨by simp, by simp, Part.getB_putB_same _ _ _ _ (by decide)⟩
  obtain ⟨hc, hall⟩ := Cleared.each (p0 := u) (f := fun p n => p.clearPort n (if p.getB (FAB_PCTRL n) 0 then 0 else 1))
    (fun n => if s.p.getB (FAB_PCTRL n) 0 = true then 0 else 1) (fun n => by split <;> decide)
    (fun r n hr => by
      have hb : r.getB (FAB_PCTRL n) 0 = s.p.getB (FAB_PCTRL n) 0 := Part.getB_congr 0
        ((hr.rd _ (besidesClear_ctrl n).1).trans (by rw [hu]; exact Part.rd_putB_other _ _ _ (by unfold FAB_CTRL FAB_PCTRL; omega)))
      rw [hb])
    (List.range 34) (fun n hn => List.mem_range.1 hn) u (Cleared.refl u)
  obtain ⟨v, hv⟩ : ∃ v, v = u.each (List.range 34) fun p n => p.clearPort n (if p.getB (FAB_PCTRL n) 0 then 0 else 1) := ⟨_, rfl⟩
  rw [← hv] at hc hall
  obtain ⟨w, hw⟩ : ∃ w, w = v.modFab fun f => { f with fwd := [] } := ⟨_, rfl⟩
  have hs : ∀ n, Spares n v ((w.reroute false).reroute true) := fun n => by
    rw [hw]
    exact ((Spares.modFab n v (fun f => { f with fwd := [] }) rfl).trans (Spares.reroute n _ false)).trans (Spares.reroute n _ true)
  obtain ⟨r1, f1⟩ := w.reroute_keeps false
  obtain ⟨r2, f2⟩ := (w.reroute false).reroute_keeps true
  refine ⟨(w.reroute false).reroute true, ?_, ?_, ?_, (hs 0).mem.trans (hc.mem.trans hkeep.1), (hs 0).cores.trans (hc.cores.trans hkeep.2.1),
    fun n hn => ?_⟩
  · change execFabTrainStop s = _
    unfold execFabTrainStop State.run Part.fabStop
    dsimp only
    rw [← hu, ← hv, ← hw]
  · rw [Part.getB_congr 0 ((r2 _ (by decide)).trans (r1 _ (by decide)))]
    refine (Part.getB_congr 0 ?_).trans hkeep.2.2
    rw [hw]
    exact hc.rd _ (besidesClear_ctrl 0).2
  · rw [f2, f1, hw]
    rfl
  · obtain ⟨hp, hst⟩ := hall n (.inl (List.mem_range.2 hn))
    exact ⟨(hs n).port.trans hp, ((hs n).status.pstate hn).trans hst⟩

theorem electricalTrainingDone_locks {port : Nat} (hn : port < 34) (h : s.p.pstate port = 2) :
    ∃ q, Becomes (.electricalTrainingDone port) s q ∧ q = { s.p with regs := q.regs } ∧ q.pstate port = 3 ∧ q.getF (FAB_PSTATUS port) 4 4 = 15 := by
  refine ⟨(s.p.putF (FAB_PSTATUS port) 4 4 15).setPstate port 3, ?_, rfl, Part.pstate_setPstate _ port (by decide), ?_⟩
  · change execElectricalTrainingDone port s = _
    unfold execElectricalTrainingDone State.run
    dsimp only
    rw [if_neg (by simp [hn, h])]
  · unfold Part.setPstate
    rw [Part.getF_putF_field _ _ _ _ _ _ _ (by decide) (by decide), Part.getF_putF_same _ _ _ _ _ (by decide)]
    rfl

/-- The neighbour that a torus port expects, on any index of the bundle (R327, R330). -/
def Part.goodNeighbour (p : Part) (port : Nat) (n : Neighbour) : Prop :=
  n.chip = p.expects (portBundle port) ∧ n.topo % 65536 = p.fab.topoInForce ∧ n.port < 32 ∧ n.port / 4 = portBundle port ^^^ 1

/-- What identity exchange finds of a neighbour (R330). -/
theorem Part.identity_cases (p : Part) (port : Nat) (n : Neighbour) : (32 ≤ port ∧ p.identity port n = 0) ∨
    (port < 32 ∧ ¬ p.goodNeighbour port n ∧ p.identity port n = 2) ∨
    (port < 32 ∧ p.goodNeighbour port n ∧ p.identity port n = if n.port % 4 ≠ port % 4 then 1 else 0) := by
  unfold Part.identity Part.goodNeighbour
  dsimp only
  by_cases hp : port ≥ 32
  · rw [if_pos hp]
    exact .inl ⟨hp, rfl⟩
  · rw [if_neg hp]
    have hlt : port < 32 := by omega
    by_cases hg : n.chip ≠ p.expects (portBundle port) ∨ n.topo % 65536 ≠ p.fab.topoInForce ∨ n.port ≥ 32 ∨ n.port / 4 ≠ portBundle port ^^^ 1
    · rw [if_pos hg]
      refine .inr (.inl ⟨hlt, fun ⟨h1, h2, h3, h4⟩ => ?_, rfl⟩)
      rcases hg with hg | hg | hg | hg
      · exact hg h1
      · exact hg h2
      · omega
      · exact hg h4
    · rw [if_neg hg]
      simp only [not_or, not_not, ge_iff_le, Nat.not_le] at hg
      exact .inr (.inr ⟨hlt, hg, rfl⟩)

/-- The state of a port once its neighbour is identified (R330). -/
def Part.identifiedState (p : Part) (port : Nat) (n : Neighbour) : Nat :=
  if p.identity port n = 2 then 7 else if p.getB FAB_CTRL 1 then 4 else 5

/-- The part with the neighbour's identity taken, and authentication begun where it is required (R330, R331). -/
def State.identified (s : State) (port : Nat) (n : Neighbour) : Part :=
  if s.p.identity port n ≠ 2 ∧ s.p.getB FAB_CTRL 1 = true then (s.p.takeIdentity port n).beginAuth s.nv port else s.p.takeIdentity port n

theorem identityExchange_becomes {port : Nat} (n : Neighbour) (hn : port < 34) (h : s.p.pstate port = 3) :
    Becomes (.identityExchange port n) s ((s.identified port n).setPstate port (s.p.identifiedState port n)) := by
  change execIdentityExchange port n s = _
  unfold execIdentityExchange State.run State.identified Part.identifiedState
  dsimp only
  rw [if_neg (by simp [hn, h])]
  by_cases hi : s.p.identity port n = 2
  · rw [if_pos hi, if_pos hi, if_neg (fun hx => hx.1 hi)]
  · by_cases ha : s.p.getB FAB_CTRL 1 = true
    · rw [if_neg hi, if_neg hi, if_pos ha, if_pos ha, if_pos ⟨hi, ha⟩]
    · rw [if_neg hi, if_neg hi, if_neg ha, if_neg ha, if_neg fun hx => ha hx.2]

/-- Authentication begins with a challenge of 32 bytes, under the policy in force (R331, R471). -/
theorem beginAuth_begins (p : Part) (nv : Nv) (port : Nat) : (p.beginAuth nv port).mem = p.mem ∧ (p.beginAuth nv port).cores = p.cores ∧
    (p.beginAuth nv port).regs = p.regs ∧ (∀ m, m ≠ port → (p.beginAuth nv port).port m = p.port m) ∧
    ∃ ch, ch.length = 32 ∧ (p.beginAuth nv port).port port =
      { p.port port with auth := some ⟨ch, nv.linkMinSvn, nv.linkOwnerMatch⟩, sent := (p.port port).sent ++ [ch] } := by
  unfold Part.beginAuth Part.anyBytes
  dsimp only
  have hport : ∀ m, p.fresh.2.port m = p.port m := fun m => Spares.port_congr m (by simp)
  refine ⟨by simp, by simp, by simp [Part.setPort], fun m hm => ?_, fitBytes 32 (Config.freeBytes p.fresh.1 32), ?_, ?_⟩
  · rw [Part.port_setPort_other _ _ _ hm, hport]
  · simp [fitBytes]
  · rw [Part.port_setPort_same, hport]

theorem State.identified_keeps {port : Nat} (n : Neighbour) (hn : port < 34) :
    (s.identified port n).mem = s.p.mem ∧ (s.identified port n).cores = s.p.cores ∧
      (∀ j, (s.identified port n).rd j = (s.p.takeIdentity port n).rd j) ∧ (∀ m, m ≠ port → (s.identified port n).port m = s.p.port m) ∧
      (s.p.getB FAB_CTRL 1 = false ∨ s.p.identity port n = 2 → (s.identified port n).port port = s.p.port port) ∧
      (s.p.getB FAB_CTRL 1 = true → s.p.identity port n ≠ 2 → ∃ ch, ch.length = 32 ∧ (s.identified port n).port port =
        { s.p.port port with auth := some ⟨ch, s.nv.linkMinSvn, s.nv.linkOwnerMatch⟩, sent := (s.p.port port).sent ++ [ch] }) := by
  obtain ⟨hf, hat, -⟩ := s.p.takeIdentity_takes port hn n
  have hp : ∀ m, (s.p.takeIdentity port n).port m = s.p.port m := fun m => Spares.port_congr m (congrArg Fabric.ports hf)
  unfold State.identified
  by_cases hb : s.p.identity port n ≠ 2 ∧ s.p.getB FAB_CTRL 1 = true
  · rw [if_pos hb]
    obtain ⟨hm, hc, hr, ho, ch, hl, hs⟩ := beginAuth_begins (s.p.takeIdentity port n) s.nv port
    refine ⟨hm.trans hat.mem, hc.trans hat.cores, fun j => by unfold Part.rd; rw [hr], fun m hm => (ho m hm).trans (hp m), fun hx => ?_,
      fun _ _ => ⟨ch, hl, by rw [hs, hp]⟩⟩
    rcases hx with hx | hx
    · exact absurd (hb.2.symm.trans hx) (by decide)
    · exact absurd hx hb.1
  · rw [if_neg hb]
    exact ⟨hat.mem, hat.cores, fun _ => rfl, fun m _ => hp m, fun _ => hp port, fun ha hi => absurd ⟨hi, ha⟩ hb⟩

theorem identityExchange_identifies {port : Nat} (n : Neighbour) (hn : port < 34) (h : s.p.pstate port = 3) :
    ∃ q, Becomes (.identityExchange port n) s q ∧ q.mem = s.p.mem ∧ q.cores = s.p.cores ∧
      (∀ m, m ≠ port → q.port m = s.p.port m) ∧ q.rd (FAB_PLAT port) = min n.latency 4095 ∧
      (s.p.getB FAB_CTRL 1 = false ∨ s.p.identity port n = 2 → q.port port = s.p.port port) ∧
      (s.p.getB FAB_CTRL 1 = true → s.p.identity port n ≠ 2 → ∃ ch, ch.length = 32 ∧
        q.port port = { s.p.port port with auth := some ⟨ch, s.nv.linkMinSvn, s.nv.linkOwnerMatch⟩, sent := (s.p.port port).sent ++ [ch] }) ∧
      q.getF (FAB_PSTATUS port) 16 16 = n.chip % 65536 ∧ q.getF (FAB_PSTATUS port) 8 6 = n.port % 64 ∧
      q.pstate port = s.p.identifiedState port n ∧ (s.p.identity port n = 1 → q.getB FAB_STICKY 10 = true) ∧
      (s.p.identity port n = 2 → q.getB FAB_STICKY 0 = true) := by
  obtain ⟨-, -, hchip, hport, hlat, h1, h2⟩ := s.p.takeIdentity_takes port hn n
  obtain ⟨hm, hc, hr, ho, ha, hb⟩ := State.identified_keeps (s := s) n hn
  have hst : s.p.identifiedState port n < 16 := by
    unfold Part.identifiedState
    split
    · decide
    · split <;> decide
  have hports : ∀ m, ((s.identified port n).setPstate port (s.p.identifiedState port n)).port m = (s.identified port n).port m := fun m =>
    Spares.port_congr m (congrArg Fabric.ports (Part.setPstate_fab _ port _))
  refine ⟨_, identityExchange_becomes n hn h, by simp [hm], by simp [hc], fun m hne => (hports m).trans (ho m hne), ?_,
    fun hx => (hports port).trans (ha hx), fun hx hy => ?_, ?_, ?_, Part.pstate_setPstate _ port hst, fun hx => ?_, fun hx => ?_⟩
  · unfold Part.setPstate
    rw [Part.rd_putF_other _ _ _ _ (by unfold FAB_PSTATUS FAB_PLAT; omega), hr, hlat]
  · obtain ⟨ch, hl, he⟩ := hb hx hy
    exact ⟨ch, hl, (hports port).trans he⟩
  · unfold Part.setPstate
    rw [Part.getF_putF_field _ _ _ _ _ _ _ (by decide) (by decide), Part.getF_congr _ _ (hr _), hchip]
  · unfold Part.setPstate
    rw [Part.getF_putF_field _ _ _ _ _ _ _ (by decide) (by decide), Part.getF_congr _ _ (hr _), hport]
  · rw [Part.setPstate_sticky, Part.getB_congr _ (hr _), h1 hx]
  · rw [Part.setPstate_sticky, Part.getB_congr _ (hr _), h2 hx]

/-- The part's answer to a challenge ends the authentication that had begun (R331). -/
theorem answerAuth_ends (p : Part) (c : Credential) (port : Nat) : (s.answerAuth p port c).mem = p.mem ∧ (s.answerAuth p port c).cores = p.cores ∧
    ((s.answerAuth p port c).port port).auth = none := by
  unfold State.answerAuth
  dsimp only
  rw [Part.port_setPort_same]
  exact ⟨rfl, rfl, rfl⟩

theorem portAuthenticate_judges {port : Nat} (c : Credential) (hn : port < 34) (h : s.p.pstate port = 4) :
    ∃ q, Becomes (.portAuthenticate port c) s q ∧ q.mem = s.p.mem ∧ q.cores = s.p.cores ∧ (q.port port).auth = none ∧
      (s.accepts s.p port c = true → q.pstate port = 5) ∧ (s.accepts s.p port c = false → q.pstate port = 8 ∧ q.getB FAB_STICKY 1 = true) := by
  obtain ⟨hm, hc, ha⟩ := answerAuth_ends (s := s) s.p c port
  obtain ⟨r, hr⟩ : ∃ r, r = s.answerAuth s.p port c := ⟨_, rfl⟩
  rw [← hr] at hm hc ha
  have hbec : Becomes (.portAuthenticate port c) s
      (if s.accepts s.p port c then r.setPstate port 5 else (r.setPstate port 8).fabErr 1 port (s.p.getF (FAB_PSTATUS port) 16 16)) := by
    change execPortAuthenticate port c s = _
    unfold execPortAuthenticate State.run
    dsimp only
    rw [if_neg (by simp [hn, h]), hr]
  have hport : ∀ st, (r.setPstate port st).port port = r.port port := fun st =>
    Spares.port_congr port (congrArg Fabric.ports (Part.setPstate_fab _ port st))
  refine ⟨_, hbec, ?_⟩
  by_cases hok : s.accepts s.p port c = true
  · rw [if_pos hok]
    exact ⟨by simp [hm], by simp [hc], by rw [hport, ha], fun _ => Part.pstate_setPstate _ port (by decide), fun hx => absurd (hok.symm.trans hx) (by decide)⟩
  · rw [if_neg hok]
    have hs := Spares.fabErr port (r.setPstate port 8) (i := 1) (by decide) port (s.p.getF (FAB_PSTATUS port) 16 16)
    refine ⟨hs.mem.trans (by simp [hm]), hs.cores.trans (by simp [hc]), by rw [hs.port, hport, ha], fun hx => absurd hx hok,
      fun _ => ⟨(hs.status.pstate hn).trans (Part.pstate_setPstate _ port (by decide)), Part.fabErr_sticky _ (by decide) _ _⟩⟩

theorem portRetrain_starts {port : Nat} (hn : port < 34) (h : 7 ≤ s.p.pstate port) :
    ∃ q, Becomes (.portRetrain port) s q ∧ PortAt port 6 { s.p.port port with full := true } s.p q := by
  obtain ⟨r, hr⟩ : ∃ r, r = if (bundlePorts (portBundle port)).any fun m => s.p.pstate m == 5 || s.p.pstate m == 6 then s.p
    else s.p.setBundle (portBundle port) .reset := ⟨_, rfl⟩
  have hrk : r.port port = s.p.port port ∧ r.mem = s.p.mem ∧ r.cores = s.p.cores ∧ ∀ i, r.getB FAB_STICKY i = s.p.getB FAB_STICKY i := by
    rw [hr]
    split <;> exact ⟨rfl, rfl, rfl, fun _ => rfl⟩
  obtain ⟨hp, hm, hc, hst⟩ := hrk
  have hat := PortAt.set' (st := 6) port { r.port port with full := true } r (by decide)
  have hat' := hat.spares hn (Spares.bump port _ 1 (besidesPorts_of_port (k := 0x801038) port (by decide) (by decide)))
  rw [hp] at hat'
  refine ⟨((r.setPstate port 6).setPort port { s.p.port port with full := true }).bump (FAB_PSTAT_RETRAIN port) 1, ?_,
    hat'.before hm hc fun i _ hb => (hst i).trans hb⟩
  change execPortRetrain port s = _
  unfold execPortRetrain State.run Part.startRetrain
  dsimp only
  rw [if_pos hn, if_neg (by omega), ← hr, hp]

end

section
variable {s : State} {bundle : Nat} {h : CtlHead} (standby : Bool) (latency hops : Nat)

/-- The fabric unit once a probe's copy is used (R350, R351). -/
def Part.probeTaken (p : Part) (bundle : Nat) (h : CtlHead) (standby : Bool) (latency hops : Nat) : Part :=
  let lat := latency + p.ctlHop bundle
  p.modFab fun f =>
    { f with firstCopy := spSet none f.firstCopy bundle (if h.second then none else some (.probe standby latency hops)),
             waves := spPut f.waves (b2n standby) (p.inWave (b2n standby) lat).2,
             probes := if f.probing && !standby then probeSeen f.probes bundle lat (hops + 1) else f.probes,
             probesStandby := if f.probing && standby then probeSeen f.probesStandby bundle lat (hops + 1) else f.probesStandby }

theorem tickPathProbe_becomes (hup : s.p.bundleUp bundle = true) (hb : bundle < 8) (hf : s.p.fresh2 bundle h (.probe standby latency hops)) :
    Becomes (.tickPathProbe ⟨bundle, h⟩ standby latency hops) s
      (if (s.p.inWave (b2n standby) (latency + s.p.ctlHop bundle)).1 then
        (s.p.probeTaken bundle h standby latency hops).flood (some bundle) (passOn h) (.probe standby (latency + s.p.ctlHop bundle) (hops + 1))
      else s.p.probeTaken bundle h standby latency hops) := by
  change execTickPathProbe ⟨bundle, h⟩ standby latency hops s = _
  unfold execTickPathProbe State.run
  dsimp only
  rw [if_neg (by simp [hup, hb]), s.p.takeCtl_fresh hf]
  rfl

theorem tickPathProbe_probes (hup : s.p.bundleUp bundle = true) (hb : bundle < 8) (hf : s.p.fresh2 bundle h (.probe standby latency hops)) :
    let p := s.p
    let lat := latency + p.ctlHop bundle
    ∃ q, Becomes (.tickPathProbe ⟨bundle, h⟩ standby latency hops) s q ∧ q = { p with fab := q.fab } ∧
      (p.fab.probing = false → q.fab.probes = p.fab.probes ∧ q.fab.probesStandby = p.fab.probesStandby) ∧
      (p.fab.probing = true → standby = false → p.fab.probes = [] →
        q.fab.probes = [(bundle, lat, hops + 1)] ∧ q.fab.probesStandby = p.fab.probesStandby) ∧
      (p.fab.probing = true → standby = true → p.fab.probesStandby = [] →
        q.fab.probesStandby = [(bundle, lat, hops + 1)] ∧ q.fab.probes = p.fab.probes) ∧
      ((p.fab.waves.find? fun e => e.1 == b2n standby) = none →
        Floods p q p.cycle (some bundle) (passOn h) (.probe standby lat (hops + 1))) := by
  intro p lat
  obtain ⟨r, hr⟩ : ∃ r, r = p.probeTaken bundle h standby latency hops := ⟨_, rfl⟩
  obtain ⟨q, hq⟩ : ∃ q, q = if (p.inWave (b2n standby) lat).1 then r.flood (some bundle) (passOn h) (.probe standby lat (hops + 1)) else r := ⟨_, rfl⟩
  have hkeep : q = { p with fab := q.fab } ∧ q.fab.probes = r.fab.probes ∧ q.fab.probesStandby = r.fab.probesStandby := by
    rw [hq, hr]
    split <;> exact ⟨rfl, rfl, rfl⟩
  obtain ⟨hwhole, hpr, hps⟩ := hkeep
  have hrp : r.fab.probes = (if p.fab.probing && !standby then probeSeen p.fab.probes bundle lat (hops + 1) else p.fab.probes) ∧
      r.fab.probesStandby = if p.fab.probing && standby then probeSeen p.fab.probesStandby bundle lat (hops + 1) else p.fab.probesStandby := by
    rw [hr]
    exact ⟨rfl, rfl⟩
  refine ⟨q, ?_, hwhole, fun hx => ?_, fun hx hsb he => ?_, fun hx hsb he => ?_, fun hw => ?_⟩
  · rw [hq, hr]
    exact tickPathProbe_becomes standby latency hops hup hb hf
  · rw [hpr, hps, hrp.1, hrp.2, hx]
    exact ⟨rfl, rfl⟩
  · rw [hpr, hps, hrp.1, hrp.2, hx, hsb, he]
    exact ⟨rfl, rfl⟩
  · rw [hpr, hps, hrp.1, hrp.2, hx, hsb, he]
    exact ⟨rfl, rfl⟩
  · have hbest : (p.inWave (b2n standby) lat).1 = true := by
      unfold Part.inWave
      rw [hw]
    rw [hq, if_pos hbest]
    have hcyc : r.cycle = p.cycle := by rw [hr]; rfl
    rw [← hcyc]
    exact (r.flood_floods (some bundle) (passOn h) (.probe standby lat (hops + 1))).of_same (by rw [hr]; exact fun _ _ => rfl) rfl

end

/-- Settles O33: each stage of a port's training, the ports' clearing taken one after the other, and the probe of a wave. -/
theorem fabricTraining : Obligations.FabricTraining := by
  intro s p
  refine ⟨fun h => ?_, ?_, fun port hn h => electricalTrainingDone_locks hn h, fun port n hn h => ?_, fun port c hn h => ?_, fun port hn h => ?_,
    fun bundle h standby latency hops hup hb hf => tickPathProbe_probes standby latency hops hup hb hf⟩
  · obtain ⟨q, hbec, h1, h2, h3, h4, h5, h6, h7⟩ := fabTrain_trains h
    refine ⟨q, hbec, h1, h2, h3, h4, h5, h6, fun n hn => ?_⟩
    obtain ⟨hp, hs⟩ := h7 n hn
    have hst : p.trainState (p.rd FAB_TOPO % 65536) n = if p.getB (FAB_PCTRL n) 0 = true then 0 else if q.cabled n = true then 2 else 1 := by
      unfold Part.trainState Part.cabled
      rw [h3]
    refine ⟨hp, q.portRuns_false n hs ?_, hs.trans hst⟩
    unfold Part.trainState
    split
    · decide
    · split <;> decide
  · obtain ⟨q, hbec, h1, h2, h3, h4, h5⟩ := fabTrainStop_stops (s := s)
    exact ⟨q, hbec, h1, h2, h3, h4, fun n hn => h5 n hn⟩
  · intro good
    obtain ⟨q, hbec, hm, hc, ho, hl, ha, hb, h1, h2, hst, h10, h0⟩ := identityExchange_identifies n hn h
    have hgood : good = p.goodNeighbour port n := rfl
    have hst5 : p.identity port n ≠ 2 → q.pstate port = if p.getB FAB_CTRL 1 = true then 4 else 5 := fun hi => hst.trans (if_neg hi)
    rw [hgood]
    have hne : 32 ≤ port ∨ p.goodNeighbour port n → p.identity port n ≠ 2 := fun hx => by
      rcases p.identity_cases port n with ⟨-, hi⟩ | ⟨hp, hg, -⟩ | ⟨-, -, hi⟩
      · rw [hi]; decide
      · exact absurd hx (not_or.2 ⟨by omega, hg⟩)
      · rw [hi]; split <;> decide
    have heq : port < 32 → ¬ p.goodNeighbour port n → p.identity port n = 2 := fun hp hg => by
      rcases p.identity_cases port n with ⟨hp', -⟩ | ⟨-, -, hi⟩ | ⟨-, hg', -⟩
      · omega
      · exact hi
      · exact absurd hg' hg
    refine ⟨q, hbec, hm, hc, ho, hl, fun hx => ha (hx.imp_right fun hg => heq hg.1 hg.2), fun hx hg => hb hx (hne hg), h1, h2, fun hg => hst5 (hne hg),
      fun hp hg hx => h10 ?_, fun hp hg => ⟨hst.trans (if_pos (heq hp hg)), h0 (heq hp hg)⟩⟩
    rcases p.identity_cases port n with ⟨hp', -⟩ | ⟨-, hg', -⟩ | ⟨-, -, hi⟩
    · omega
    · exact absurd hg hg'
    · rw [hi, if_pos hx]
  · intro ok
    obtain ⟨q, hbec, hm, hc, ha, h5, h8⟩ := portAuthenticate_judges c hn h
    refine ⟨q, hbec, hm, hc, ha, fun a hs hx => h5 ?_, fun hx => h8 ?_⟩
    · unfold State.accepts
      rw [hs]
      exact hx
    · unfold State.accepts
      split
      · rfl
      · rename_i a hs
        exact hx a hs
  · obtain ⟨q, hbec, hat⟩ := portRetrain_starts hn h
    exact ⟨q, hbec, hat.state, hat.port, hat.mem, hat.cores⟩

end Sys2Proof.Machine
end

section
/-!
PROOF. Packets, acknowledgements, accounting, losses and the freeze (R333 to R338, R342, R344, R347, R348, R353).
-/
namespace Sys2Proof.Machine

/-- What the delivery of packets leaves: the memory, the links' answers and the bundles, and the packets that wait for units, to which it adds. -/
structure Delivers (p q : Part) : Prop where
  mem : q.mem = p.mem
  linkOut : q.fab.linkOut = p.fab.linkOut
  bundles : q.fab.bundles = p.fab.bundles
  rx : ∀ k ∈ p.fab.rx, k ∈ q.fab.rx

namespace Delivers

theorem refl (p : Part) : Delivers p p := ⟨rfl, rfl, rfl, fun _ h => h⟩

theorem trans {p q r : Part} (h : Delivers p q) (h' : Delivers q r) : Delivers p r :=
  ⟨h'.mem.trans h.mem, h'.linkOut.trans h.linkOut, h'.bundles.trans h.bundles, fun k hk => h'.rx k (h.rx k hk)⟩

theorem ite (b : Prop) [Decidable b] {p q r : Part} (hq : Delivers p q) (hr : Delivers p r) : Delivers p (if b then q else r) := by
  split
  · exact hq
  · exact hr

theorem ofFab {p q : Part} (hm : q.mem = p.mem) (hf : q.fab = p.fab) : Delivers p q := ⟨hm, by rw [hf], by rw [hf], fun k h => by rw [hf]; exact h⟩

theorem each {α : Type} {f : Part → α → Part} (l : List α) (h : ∀ x p, Delivers p (f p x)) (p : Part) : Delivers p (p.each l f) := by
  induction l generalizing p with
  | nil => exact refl p
  | cons x l ih =>
    rw [Part.each_cons]
    exact (h x p).trans (ih _)

variable (p : Part)

theorem schDrop (s i pair : Nat) : Delivers p (p.schDrop s i pair) := by
  have he := Part.err_informs ((p.bump (SCH_STAT_DROP s) 1).stick (SCH_STICKY s) i)
    { { mkErr 0 i 0 with sector := s, pair := pair } with event := i } rfl
  exact ofFab (by simp) (he.trans (by simp))

/-- A forward is a descriptor without a delay (R168, R183): it comes to a queue's waiting submissions, or is dropped. -/
theorem forward (name pair : Nat) (bs : List Byte) : Delivers p (p.submitLocal .forward name pair bs false) := by
  unfold Part.submitLocal
  dsimp only
  rw [show (SubSrc.forward == SubSrc.forward) = true from by decide]
  by_cases hbad : descBad (withTag bs pair) true = true
  · rw [if_pos hbad]
    exact schDrop p _ _ _
  · have hd : dCtrl (withTag bs pair) 0 = false := by
      unfold descBad at hbad
      simpa using And.right (by simpa using hbad)
    rw [if_neg hbad, hd]
    exact ofFab rfl rfl

theorem decDc (pair s j : Nat) : Delivers p (p.decDc pair s j) := by
  unfold Part.decDc
  dsimp only
  refine ite _ ?_ (ofFab rfl rfl)
  have he := Part.err_informs ((p.bump (SCH_STAT_UNDERFLOW s) 1).stick (SCH_STICKY s) 0)
    { { mkErr 0 0 0 with sector := s, pair := pair } with event := 0 } rfl
  exact ofFab (by simp) (he.trans (by simp))

theorem signalIn (pair c ev : Nat) : Delivers p (p.signalIn pair c ev) :=
  ite _ (ofFab rfl rfl) (ofFab (by simp) (p.err_informs _ rfl))

theorem keep (k : Packet) : Delivers p (p.modFab fun f => { f with rx := f.rx ++ [k] }) :=
  ⟨rfl, rfl, rfl, fun _ h => List.mem_append_left _ h⟩

theorem hand (k : Packet) : Delivers p (p.hand k) := by
  unfold Part.hand
  dsimp only
  refine ite _ (refl p) (ite _ ?_ (keep p k))
  split
  · exact signalIn p _ _ _
  · exact decDc p _ _ _
  · exact forward p _ _ _
  · exact refl p
  · exact refl p
  · exact keep p k

theorem modFab (f : Fabric → Fabric) (h1 : (f p.fab).linkOut = p.fab.linkOut) (h2 : (f p.fab).bundles = p.fab.bundles)
    (h3 : (f p.fab).rx = p.fab.rx) : Delivers p (p.modFab f) :=
  ⟨rfl, h1, h2, fun k h => h3.symm ▸ h⟩

theorem holdFlag (k : Packet) : Delivers p (p.holdFlag k) := by
  unfold Part.holdFlag
  extract_lets w r
  have hr : Delivers p r := modFab p _ rfl rfl rfl
  exact hr.trans (ite _ (ofFab (by simp) (by simp)) (refl r))

theorem refillHold : Delivers p p.refillHold := by
  unfold Part.refillHold
  dsimp only
  exact (modFab p (fun f => { f with waitIn := f.waitIn.drop (4096 - p.heldFlags) }) rfl rfl rfl).trans (each _ (fun k q => holdFlag q k) _)

theorem deliverFlag (k : Packet) : Delivers p (p.deliverFlag k) := by
  unfold Part.deliverFlag
  extract_lets w w' r
  have hr : Delivers p r := modFab p _ rfl rfl rfl
  exact (hr.trans (hand r k)).trans (modFab _ _ rfl rfl rfl)

theorem deliverFlags (fuel src : Nat) : Delivers p (Part.deliverFlags fuel p src) := by
  induction fuel generalizing p with
  | zero => exact refl p
  | succ fuel ih =>
    unfold Part.deliverFlags
    dsimp only
    split
    · rename_i k _
      obtain ⟨w, hw⟩ : ∃ w, w = { spGet RxWin.reset p.fab.rxWin src with held := (spGet RxWin.reset p.fab.rxWin src).held.erase k } := ⟨_, rfl⟩
      obtain ⟨r, hr⟩ : ∃ r, r = p.modFab fun f => { f with rxWin := spSet .reset f.rxWin src w } := ⟨_, rfl⟩
      have hp : Delivers p r := by rw [hr]; exact modFab p _ rfl rfl rfl
      rw [← hw, ← hr]
      exact ((hp.trans (deliverFlag r k)).trans (refillHold _)).trans (ih _)
    · split
      · exact refl p
      · rename_i k _
        exact ((modFab p (fun f => { f with waitIn := f.waitIn.erase k }) rfl rfl rfl).trans (deliverFlag _ k)).trans (ih _)

end Delivers

section
variable (p : Part)

/-- A packet sampled is logged in the observation unit (R511). -/
theorem Part.samplePacket_keeps (kind peer : Nat) (k : Packet) : (p.samplePacket kind peer k).fab = p.fab ∧ (p.samplePacket kind peer k).tick = p.tick ∧
    (∀ j, besidesRecords j → OBS_STAT_TS ≠ j → (p.samplePacket kind peer k).rd j = p.rd j) ∧
    ∀ j, j < 0x100000 → (p.samplePacket kind peer k).rd j = p.rd j := by
  unfold Part.samplePacket
  dsimp only
  split
  · refine ⟨by simp, by simp, fun j hj hne => ?_, fun j hj => ?_⟩
    · rw [Part.rd_trace_besides hj, Part.rd_bump_other _ _ hne]
    · rw [(Part.trace_off _ _ _ _ _ _ _ hj).1, Part.rd_bump_other _ _ (by unfold OBS_STAT_TS; omega)]
  · exact ⟨rfl, rfl, fun _ _ _ => rfl, fun _ _ => rfl⟩

/-- A packet of one of the two lowest classes that is counted by its window's slot and not flagged (R342). -/
theorem counted_of_cls {k : Packet} (h : k.cls ≤ 1) : countedCls k = true ∧ flagged k = false ∧ k.cls ≠ 3 ∧ k.cls ≠ 2 ∧ k.cls ≠ 5 := by
  have h3 : (k.cls == 3) = false := beq_eq_false_iff_ne.2 (by omega)
  refine ⟨?_, ?_, by omega, by omega, by omega⟩
  · unfold countedCls
    rw [h3]
    simp
    omega
  · unfold flagged
    rw [h3]
    rfl

/-- A packet of the lowest classes is handed to its unit, unless guard discards it (R28, R337). -/
theorem Part.hand_keeps {k : Packet} (h : k.cls ≤ 1) (hd : p.dropsWork k = false) :
    p.hand k = p.modFab fun f => { f with rx := f.rx ++ [k] } := by
  unfold Part.hand
  dsimp only
  rw [hd, if_neg (by decide), if_neg (counted_of_cls h).2.2.1]

/-- Guard's discard looks at the phase and the tick unit (R28). -/
theorem Part.dropsWork_congr {q : Part} (k : Packet) (hs : q.rd TIK_STATUS = p.rd TIK_STATUS) (ht : q.tick = p.tick) :
    q.dropsWork k = p.dropsWork k := by
  unfold Part.dropsWork Part.phase
  rw [ht, Part.getF_congr _ _ hs]

/-- A packet of the lowest classes for this part comes to its unit (R333, R342). -/
theorem Part.eject_delivers {k : Packet} (h : k.cls ≤ 1) (hd : p.dropsWork k = false) :
    Delivers p (p.eject k) ∧ k ∈ (p.eject k).fab.rx := by
  obtain ⟨hc, hfl, h3, h2, h5⟩ := counted_of_cls h
  obtain ⟨r, hr⟩ : ∃ r, r = (p.bump FAB_STAT_EJ 1).samplePacket 6 k.src k := ⟨_, rfl⟩
  obtain ⟨sf, st, -, slow⟩ := (p.bump FAB_STAT_EJ 1).samplePacket_keeps 6 k.src k
  rw [← hr] at sf st slow
  have hpr : Delivers p r := Delivers.ofFab (by rw [hr]; simp) (sf.trans (by simp))
  have hpair : (k.cls == 5 && k.kind == 8) = false := by
    rw [beq_eq_false_iff_ne.2 h5]
    rfl
  obtain ⟨w, hw⟩ : ∃ w, w = spGet RxWin.reset r.fab.rxWin k.src := ⟨_, rfl⟩
  obtain ⟨w', hw'⟩ : ∃ w', w' = { w with arrived := spSet 0 w.arrived (k.window % 8) (spGet 0 w.arrived (k.window % 8) + 1) } := ⟨_, rfl⟩
  obtain ⟨u, hu⟩ : ∃ u, u = r.modFab fun f => { f with rxWin := spSet .reset f.rxWin k.src w' } := ⟨_, rfl⟩
  have hru : Delivers r u := by rw [hu]; exact Delivers.modFab r _ rfl rfl rfl
  have hdu : u.dropsWork k = false := by
    have hts : u.tick = p.tick ∧ u.rd TIK_STATUS = p.rd TIK_STATUS := by
      have h1 : r.tick = p.tick := st.trans (by simp)
      have h2 : r.rd TIK_STATUS = p.rd TIK_STATUS := (slow _ (by decide)).trans (Part.rd_bump_other _ _ (by decide))
      rw [hu]
      exact ⟨h1, h2⟩
    rw [p.dropsWork_congr k hts.2 hts.1, hd]
  have hq : p.eject k = Part.deliverFlags 16 (u.modFab fun f => { f with rx := f.rx ++ [k] }) k.src := by
    unfold Part.eject
    dsimp only
    rw [← hr, hpair]
    simp only [Bool.false_and, Bool.false_eq_true, if_false, hfl, hc, if_true, if_neg h2]
    rw [← hw, ← hw', ← hu, u.hand_keeps h hdu]
  rw [hq]
  have hkeep := Delivers.deliverFlags (u.modFab fun f => { f with rx := f.rx ++ [k] }) 16 k.src
  exact ⟨(hpr.trans hru).trans ((Delivers.keep u k).trans hkeep), hkeep.rx k (List.mem_append_right _ (List.mem_singleton.2 rfl))⟩

end

/-- What a packet on its way out leaves: all of the fabric unit but the ports, the bundles and what waits, and the memory and the cores. -/
structure Sends (p q : Part) : Prop where
  mem : q.mem = p.mem
  cores : q.cores = p.cores
  fab : q.fab = { p.fab with ports := q.fab.ports, bundles := q.fab.bundles }

section
variable (p : Part) {b n vc : Nat} {k : Packet}

/-- The port that a packet takes is one whose state and content the part shows (R338). -/
theorem Part.outPort_congr {q : Part} (hs : q.SamePorts p) (hp : q.fab.ports = p.fab.ports) : q.outPort b vc k = p.outPort b vc k := by
  have hport : q.port = p.port := funext fun n => Spares.port_congr n hp
  unfold Part.outPort
  rw [hport]
  have hf : (bundlePorts b).filter (fun n => q.portRuns n && (p.port n).replay.length < 16 && packetUnits k ≤ (p.port n).credit (n ≥ 32) k.cls vc) =
      (bundlePorts b).filter fun n => p.portRuns n && (p.port n).replay.length < 16 && packetUnits k ≤ (p.port n).credit (n ≥ 32) k.cls vc :=
    List.filter_congr fun n hn => by rw [hs.portRuns (bundlePorts_ports b n hn)]
  dsimp only
  rw [hf]

/-- A packet goes out on the port that has room for it, under the next number of its bundle (R338, R344). -/
theorem Part.sendOn_sends (hup : p.bundleUp b = true) (hw : ∀ w ∈ p.fab.fwd, w.bundle ≠ b) (ho : p.outPort b vc k = some n) :
    Sends p (p.sendOn b vc k) ∧
      ((p.sendOn b vc k).port n).replay = (p.port n).replay ++ [⟨(p.bundle (portBundle n)).tx, vc, 0, k⟩] := by
  have hany : (p.fab.fwd.any (·.bundle == b)) = false := by
    rw [List.any_eq_false]
    exact fun w h => by simpa using hw w h
  have hq : p.sendOn b vc k = p.putOnPort n ⟨b, vc, none, k⟩ := by
    unfold Part.sendOn Part.sendWaiting
    dsimp only
    rw [hup, hany, ho, if_neg (by decide), if_neg (by decide)]
  rw [hq]
  unfold Part.putOnPort
  dsimp only
  refine ⟨⟨by simp [Part.setBundle], by simp [Part.setBundle], by simp [Part.setPort, Part.setBundle, Part.modFab]⟩, ?_⟩
  have hb : ∀ (r : Part) o v, (r.bump o v).port n = r.port n := fun r o v => Spares.port_congr n (by simp)
  rw [hb, Part.port_setPort_same]

end

/-- Receiving a packet advances what a bundle has received, not what it sends (R344). -/
theorem Bundle.take_keeps (b : Bundle) (seq : Nat) : (b.take seq).tx = b.tx ∧ seq ∈ (b.take seq).rx := by
  have hadv : ∀ fuel (x : Bundle), (Bundle.advance fuel x).tx = x.tx ∧ (Bundle.advance fuel x).rx = x.rx := by
    intro fuel
    induction fuel with
    | zero => exact fun x => ⟨rfl, rfl⟩
    | succ fuel ih =>
      intro x
      unfold Bundle.advance
      split
      · exact ih _
      · exact ⟨rfl, rfl⟩
  obtain ⟨h1, h2⟩ := hadv 64 { b with rx := (seq :: b.rx).take 2048 }
  unfold Bundle.take
  exact ⟨h1, by rw [h2]; simp⟩

section
variable {s : State}

/-- The oldest packet that nothing holds back and that is counted and not flagged leaves the hub's queue (R337, R342). -/
theorem packetInject_becomes {k : Packet} (ht : s.p.getB TWN_CTRL 0 = false)
    (hk : (s.p.fab.txq.find? fun q => !s.p.windowShut q && !s.p.blockShut q && (s.p.phase != 3 || ctlPlane q)) = some k)
    (hm : k.dst = s.p.chip ∨ (s.p.win k.dst).n < 1048575) :
    Becomes .packetInject s ((s.p.modFab fun f => { f with txq := f.txq.erase k }).inject k) := by
  have hpump : s.p.twinPump = s.p := by
    unfold Part.twinPump
    rw [ht]
    rfl
  have hmark : s.p.markFirst k = s.p := by
    unfold Part.markFirst
    refine if_neg fun h => ?_
    simp only [Bool.and_eq_true, bne_iff_ne, decide_eq_true_eq] at h
    rcases hm with hd | hn
    · exact h.1.2 hd
    · exact absurd h.2 (by omega)
  have hopen : s.p.windowShut k = false := by
    have hf := List.find?_some hk
    simp only [Bool.and_eq_true, Bool.not_eq_true'] at hf
    exact hf.1.1
  change execPacketInject s = _
  unfold execPacketInject State.run
  dsimp only
  rw [hpump, hk]
  dsimp only
  rw [hmark, hopen, if_neg (by decide)]

theorem packetInject_local {k : Packet} (ht : s.p.getB TWN_CTRL 0 = false)
    (hk : (s.p.fab.txq.find? fun q => !s.p.windowShut q && !s.p.blockShut q && (s.p.phase != 3 || ctlPlane q)) = some k) (hc : k.cls ≤ 1)
    (hd : k.dst = s.p.chip) :
    Becomes .packetInject s { s.p with fab := { s.p.fab with txq := s.p.fab.txq.erase k, rx := s.p.fab.rx ++ [k] } } := by
  have hdrop : s.p.dropsWork k = false := by
    have hf := List.find?_some hk
    simp only [Bool.and_eq_true, Bool.or_eq_true, bne_iff_ne] at hf
    unfold Part.dropsWork
    rcases hf.2 with h | h
    · rw [beq_eq_false_iff_ne.2 h]
      simp
    · rw [h]
      simp
  have hbec := packetInject_becomes ht hk (.inl hd)
  obtain ⟨r, hr⟩ : ∃ r, r = s.p.modFab fun f => { f with txq := f.txq.erase k } := ⟨_, rfl⟩
  have hdr : r.dropsWork k = false := by rw [Part.dropsWork_congr s.p k (by rw [hr]; rfl) (by rw [hr]; rfl), hdrop]
  have hq : r.inject k = r.modFab fun f => { f with rx := f.rx ++ [k] } := by
    unfold Part.inject Part.deliverLocal
    rw [if_pos (by rw [hr]; exact hd), if_neg (counted_of_cls hc).2.2.2.1, r.hand_keeps hc hdr]
  rw [← hr, hq, hr] at hbec
  exact hbec

/-- A packet for another part goes out with the number of its window, on the first bundle of its path (R336, R337, R342). -/
theorem packetInject_out {k : Packet} {r n : Nat} (ht : s.p.getB TWN_CTRL 0 = false)
    (hk : (s.p.fab.txq.find? fun q => !s.p.windowShut q && !s.p.blockShut q && (s.p.phase != 3 || ctlPlane q)) = some k) (hc : k.cls ≤ 1)
    (hd : k.dst ≠ s.p.chip) (hz : k.route = 0) (hr : s.p.route k.dst = some r) (hw : (s.p.win k.dst).n < 1048575) :
    let p := s.p
    let b := r % 32 - 1
    let vc := p.firstVc (r % 32)
    let m := { k with window := (p.win k.dst).w % 256, route := r >>> 5 }
    p.bundleUp b = true → (∀ w ∈ p.fab.fwd, w.bundle ≠ b) → p.outPort b vc m = some n →
    ∃ q, Becomes .packetInject s q ∧ q.fab.txq = p.fab.txq.erase k ∧ q.mem = p.mem ∧ q.cores = p.cores ∧
      (q.port n).replay = (p.port n).replay ++ [⟨(p.bundle (portBundle n)).tx, vc, 0, m⟩] ∧
      (q.win k.dst).n = (p.win k.dst).n + 1 := by
  intro p b vc m hup hfw ho
  obtain ⟨hcnt, hfl, h3, h2, h5⟩ := counted_of_cls hc
  obtain ⟨u, hu⟩ : ∃ u, u = p.modFab fun f => { f with txq := f.txq.erase k } := ⟨_, rfl⟩
  obtain ⟨w, hwin⟩ : ∃ w, w = ((p.win k.dst).send u.fab.accounted k).2 := ⟨_, rfl⟩
  have hwn : w.n = (p.win k.dst).n + 1 := by
    rw [hwin]
    unfold TxWin.send
    rw [hfl]
    rfl
  have hpk : ((p.win k.dst).send u.fab.accounted k).1 = { k with window := (p.win k.dst).w % 256 } := by
    unfold TxWin.send
    rw [hfl]
    rfl
  obtain ⟨v, hv⟩ : ∃ v, v = ((u.setWin k.dst w).bump FAB_STAT_INJ 1).samplePacket 5 k.dst m := ⟨_, rfl⟩
  obtain ⟨sf, -, srd, -⟩ := ((u.setWin k.dst w).bump FAB_STAT_INJ 1).samplePacket_keeps 5 k.dst m
  rw [← hv] at sf srd
  have hvf : v.fab = { p.fab with txq := p.fab.txq.erase k, txWin := spSet .reset p.fab.txWin k.dst w } := by
    rw [sf, hu]
    simp [Part.setWin, Part.modFab]
  have hvk : v.mem = p.mem ∧ v.cores = p.cores := by
    rw [hv, hu]
    simp [Part.setWin]
  have hports : v.SamePorts p := fun x hx => by
    have hb : besidesRecords (FAB_PSTATUS x) := by
      unfold besidesRecords TIK_STATUS FAB_PSTATUS SOBS_STAT_TDROP secBase
      exact ⟨by omega, by omega, fun b => by omega⟩
    rw [srd _ hb (by unfold OBS_STAT_TS FAB_PSTATUS; omega), Part.rd_bump_other _ _ (by unfold FAB_STAT_INJ FAB_PSTATUS; omega), hu]
    rfl
  have hvc : v.firstVc (r % 32) = vc := by
    unfold vc Part.firstVc Part.crosses Part.chip
    rw [hvf]
  obtain ⟨hs, hrep⟩ := v.sendOn_sends (b := b) (n := n) (vc := vc) (k := m) ((hports.bundleUp b).trans hup) (by rw [hvf]; exact hfw)
    ((Part.outPort_congr p hports (by rw [hvf])).trans ho)
  have hq : u.inject k = v.sendOn b vc m := by
    have hroute : u.route k.dst = some r := by rw [hu]; exact hr
    have hchip : ¬ k.dst = u.chip := by rw [hu]; exact hd
    unfold Part.inject
    rw [if_neg hchip, if_neg h5, if_pos hz, hroute]
    dsimp only
    unfold Part.injectOn
    rw [hcnt, Bool.true_or, if_pos rfl]
    have hwu : u.win k.dst = p.win k.dst := by rw [hu]; rfl
    rw [hwu]
    dsimp only
    rw [hpk, ← hwin]
    unfold Part.launch
    dsimp only
    rw [show (((u.setWin k.dst w).bump FAB_STAT_INJ 1).samplePacket 5 k.dst { k with window := (p.win k.dst).w % 256, route := r >>> 5 }) = v from hv.symm]
    have hfv : (u.setWin k.dst w).firstVc (r % 32) = vc := by rw [hu]; rfl
    rw [hfv]
  have hbec := packetInject_becomes ht hk (.inr hw)
  rw [show (s.p.modFab fun f => { f with txq := f.txq.erase k }) = u from hu.symm, hq] at hbec
  refine ⟨v.sendOn b vc m, hbec, ?_, hs.mem.trans hvk.1, hs.cores.trans hvk.2, ?_, ?_⟩
  · rw [hs.fab, hvf]
  · rw [hrep]
    unfold Part.port Part.bundle
    rw [hvf]
  · unfold Part.win
    rw [hs.fab, hvf]
    dsimp only
    rw [spGet_spSet, if_pos rfl, hwn]
    rfl

section
variable {port seq vc : Nat} {k : Packet} (hn : port < 34) (hr : s.p.portRuns port = true)
include hn hr

theorem fabricPacketArrive_bad : Becomes (.fabricPacketArrive port ⟨seq, vc, false⟩ k) s
    ((s.p.bump (FAB_PSTAT_CRC port) 1).linkReply port false (seq % 4096)) := by
  change execFabricPacketArrive port ⟨seq, vc, false⟩ k s = _
  unfold execFabricPacketArrive State.run
  dsimp only
  rw [hr, if_neg (by simp [hn]), Bool.not_false, if_pos rfl]

theorem fabricPacketArrive_answered (h : seq % 4096 ∈ (s.p.bundle (portBundle port)).rx ∨ s.p.gap (portBundle port) (seq % 4096) = true) :
    Becomes (.fabricPacketArrive port ⟨seq, vc, true⟩ k) s
      (s.p.linkReply port (decide (seq % 4096 ∈ (s.p.bundle (portBundle port)).rx)) (seq % 4096)) := by
  change execFabricPacketArrive port ⟨seq, vc, true⟩ k s = _
  unfold execFabricPacketArrive State.run
  dsimp only
  rw [hr, if_neg (by simp [hn]), if_neg (by decide)]
  by_cases hx : seq % 4096 ∈ (s.p.bundle (portBundle port)).rx
  · rw [if_pos (List.contains_iff_mem.2 hx), decide_eq_true hx]
  · rw [if_neg (fun hc => hx (List.contains_iff_mem.1 hc)), if_pos (h.resolve_left hx), decide_eq_false hx]

/-- The part once a link has taken a packet that is in sequence (R344). -/
def Part.linkTaken (p : Part) (port seq : Nat) : Part :=
  ((p.setBundle (portBundle port) ((p.bundle (portBundle port)).take (seq % 4096))).linkReply port true (seq % 4096)).bump (FAB_PSTAT_RX port) 1

theorem fabricPacketArrive_taken (h : seq % 4096 ∉ (s.p.bundle (portBundle port)).rx) (hg : s.p.gap (portBundle port) (seq % 4096) = false) :
    Becomes (.fabricPacketArrive port ⟨seq, vc, true⟩ k) s ((s.p.linkTaken port seq).routePacket port vc k) := by
  change execFabricPacketArrive port ⟨seq, vc, true⟩ k s = _
  unfold execFabricPacketArrive State.run
  dsimp only
  rw [hr, if_neg (by simp [hn]), if_neg (by decide), if_neg (fun hc => h (List.contains_iff_mem.1 hc)), hg, if_neg (by decide)]
  rfl

end

section
variable (p : Part) (port seq : Nat)

/-- What a link that has taken a packet shows (R344). -/
theorem Part.linkTaken_keeps : (p.linkTaken port seq).fab =
      { p.fab with bundles := (p.linkTaken port seq).fab.bundles, linkOut := p.fab.linkOut ++ [⟨port, true, seq % 4096⟩] } ∧
    (p.linkTaken port seq).mem = p.mem ∧ (p.linkTaken port seq).tick = p.tick ∧
    (∀ j, FAB_PSTAT_RX port ≠ j → (p.linkTaken port seq).rd j = p.rd j) ∧ (∀ b, ((p.linkTaken port seq).bundle b).tx = (p.bundle b).tx) ∧
    seq % 4096 ∈ ((p.linkTaken port seq).bundle (portBundle port)).rx := by
  obtain ⟨htx, hrx⟩ := Bundle.take_keeps (p.bundle (portBundle port)) (seq % 4096)
  obtain ⟨x, hx⟩ : ∃ x, x = (p.bundle (portBundle port)).take (seq % 4096) := ⟨_, rfl⟩
  have hb : ∀ b, (p.linkTaken port seq).bundle b = if portBundle port = b then x else p.bundle b := fun b => by
    have hf : (p.linkTaken port seq).fab.bundles = spSet .reset p.fab.bundles (portBundle port) x := by
      unfold Part.linkTaken
      rw [hx]
      simp [Part.setBundle, Part.linkReply, Part.modFab]
    unfold Part.bundle
    rw [hf, spGet_spSet]
  refine ⟨?_, ?_, ?_, fun j hj => ?_, fun b => ?_, ?_⟩
  · unfold Part.linkTaken
    simp [Part.setBundle, Part.linkReply, Part.modFab]
  · unfold Part.linkTaken
    simp [Part.setBundle, Part.linkReply]
  · unfold Part.linkTaken
    simp [Part.setBundle, Part.linkReply]
  · unfold Part.linkTaken
    rw [Part.rd_bump_other _ _ hj]
    rfl
  · rw [hb]
    split
    · rename_i h
      rw [hx, htx, h]
    · rfl
  · rw [hb, if_pos rfl, hx]
    exact hrx

/-- Whether a packet is stale depends on the registers of the tick master alone (R335). -/
theorem Part.stale_congr {q : Part} (k : Packet) (h : ∀ j, j < 0x100000 → q.rd j = p.rd j) : q.stale k = p.stale k := by
  unfold Part.stale Part.epoch Part.running Part.tickCount
  rw [Part.getB_congr _ (h TIK_CTRL (by decide)), Part.getB_congr _ (h TIK_STATUS (by decide)), h TIK_COUNT (by decide)]

end

section
variable (p : Part) {n vc : Nat} {k : Packet}

theorem Part.routePacket_stale (h : p.stale k = true) : p.routePacket n vc k = p.bump FAB_STAT_EPOCH 1 := by
  unfold Part.routePacket
  dsimp only
  rw [if_pos h]

theorem Part.routePacket_here (hn : n < 32) (h : p.stale k = false) (hc : k.route % 32 = 0) (hd : k.dst = p.chip) (hb : badPacket k = false) :
    p.routePacket n vc k = p.eject { k with route := k.route >>> 5 } := by
  unfold Part.routePacket
  dsimp only
  rw [h, if_neg (by decide), if_neg (by simp; omega), if_pos hc, if_pos (by simp [hd, hb])]

theorem Part.routePacket_on (hn : n < 32) (h : p.stale k = false) (h1 : 1 ≤ k.route % 32) (h8 : k.route % 32 ≤ 8) :
    p.routePacket n vc k = (p.bump FAB_STAT_FWD 1).sendOn (k.route % 32 - 1) (p.nextVc n vc (k.route % 32))
      { k with route := k.route >>> 5 } := by
  unfold Part.routePacket
  dsimp only
  rw [h, if_neg (by decide), if_neg (by simp; omega), if_neg (by omega), if_pos h8]

end

section
variable {port seq vc : Nat} {k : Packet} (hn : port < 34) (hr : s.p.portRuns port = true) (h : seq % 4096 ∉ (s.p.bundle (portBundle port)).rx)
  (hg : s.p.gap (portBundle port) (seq % 4096) = false)
include hn hr h hg

/-- A packet in sequence for this part is acknowledged and comes to its unit (R333, R344). -/
theorem fabricPacketArrive_here (hp : port < 32) (hs : s.p.stale k = false) (hz : k.route % 32 = 0) (hd : k.dst = s.p.chip)
    (hb : badPacket k = false) (hc : k.cls ≤ 1) (hdrop : s.p.dropsWork k = false) :
    ∃ q, Becomes (.fabricPacketArrive port ⟨seq, vc, true⟩ k) s q ∧ { k with route := k.route >>> 5 } ∈ q.fab.rx ∧
      q.fab.linkOut = s.p.fab.linkOut ++ [⟨port, true, seq % 4096⟩] ∧ seq % 4096 ∈ (q.bundle (portBundle port)).rx ∧ q.mem = s.p.mem := by
  obtain ⟨hf, hm, ht, hrd, -, hrx⟩ := s.p.linkTaken_keeps port seq
  obtain ⟨r, hrr⟩ : ∃ r, r = s.p.linkTaken port seq := ⟨_, rfl⟩
  have hbec := fabricPacketArrive_taken (vc := vc) (k := k) hn hr h hg
  rw [← hrr] at hf hm ht hrd hrx hbec
  have hlow : ∀ j, j < 0x100000 → r.rd j = s.p.rd j := fun j hj => hrd j (by unfold FAB_PSTAT_RX; omega)
  obtain ⟨m, hmk⟩ : ∃ m, m = { k with route := k.route >>> 5 } := ⟨_, rfl⟩
  have hdr : r.dropsWork m = false := by
    rw [Part.dropsWork_congr s.p m (hlow _ (by decide)) ht, hmk]
    exact hdrop
  obtain ⟨he, hin⟩ := r.eject_delivers (k := m) (by rw [hmk]; exact hc) hdr
  rw [r.routePacket_here hp ((s.p.stale_congr k hlow).trans hs) hz (by unfold Part.chip; rw [hf]; exact hd) hb, ← hmk] at hbec
  refine ⟨_, hbec, hmk ▸ hin, ?_, ?_, he.mem.trans hm⟩
  · rw [he.linkOut, hf]
  · unfold Part.bundle at hrx ⊢
    rw [he.bundles]
    exact hrx

/-- A packet in sequence for another part goes on to the next bundle (R333, R336, R338). -/
theorem fabricPacketArrive_on {n : Nat} (hp : port < 32) (hs : s.p.stale k = false) (h1 : 1 ≤ k.route % 32) (h8 : k.route % 32 ≤ 8) :
    let o := k.route % 32 - 1
    let out := s.p.nextVc port vc (k.route % 32)
    let m := { k with route := k.route >>> 5 }
    s.p.bundleUp o = true → (∀ w ∈ s.p.fab.fwd, w.bundle ≠ o) → s.p.outPort o out m = some n →
    ∃ q, Becomes (.fabricPacketArrive port ⟨seq, vc, true⟩ k) s q ∧ q.fab.rx = s.p.fab.rx ∧ q.mem = s.p.mem ∧
      q.fab.linkOut = s.p.fab.linkOut ++ [⟨port, true, seq % 4096⟩] ∧
      (q.port n).replay = (s.p.port n).replay ++ [⟨(s.p.bundle (portBundle n)).tx, out, 0, m⟩] := by
  intro o out m hup hfw ho
  obtain ⟨hf, hm, -, hrd, htx, -⟩ := s.p.linkTaken_keeps port seq
  obtain ⟨r, hrr⟩ : ∃ r, r = s.p.linkTaken port seq := ⟨_, rfl⟩
  have hbec := fabricPacketArrive_taken (vc := vc) (k := k) hn hr h hg
  rw [← hrr] at hf hm hrd htx hbec
  have hlow : ∀ j, j < 0x100000 → r.rd j = s.p.rd j := fun j hj => hrd j (by unfold FAB_PSTAT_RX; omega)
  have hout : r.nextVc port vc (k.route % 32) = out := by
    unfold out Part.nextVc Part.crosses Part.chip
    rw [hf]
  obtain ⟨v, hv⟩ : ∃ v, v = r.bump FAB_STAT_FWD 1 := ⟨_, rfl⟩
  have hvf : v.fab = r.fab := by rw [hv]; simp
  have hports : v.SamePorts s.p := fun x hx => by
    rw [hv, Part.rd_bump_other _ _ (by unfold FAB_STAT_FWD FAB_PSTATUS; omega), hrd _ (by unfold FAB_PSTAT_RX FAB_PSTATUS; omega)]
  rw [r.routePacket_on hp ((s.p.stale_congr k hlow).trans hs) h1 h8, hout, ← hv] at hbec
  obtain ⟨hsd, hrep⟩ := v.sendOn_sends (b := o) (n := n) (vc := out) (k := m) ((hports.bundleUp o).trans hup) (by rw [hvf, hf]; exact hfw)
    ((Part.outPort_congr s.p hports (by rw [hvf, hf])).trans ho)
  refine ⟨_, hbec, ?_, hsd.mem.trans ?_, ?_, hrep.trans ?_⟩
  · rw [hsd.fab, hvf, hf]
  · rw [hv, ← hm]
    simp
  · rw [hsd.fab, hvf, hf]
  · have hp' : v.port n = s.p.port n := Spares.port_congr n (by rw [hvf, hf])
    have hb' : (v.bundle (portBundle n)).tx = (s.p.bundle (portBundle n)).tx := by
      rw [← htx (portBundle n)]
      unfold Part.bundle
      rw [hvf]
    rw [hp', hb']

theorem fabricPacketArrive_stale (hs : s.p.stale k = true) :
    ∃ q, Becomes (.fabricPacketArrive port ⟨seq, vc, true⟩ k) s q ∧ q.fab.rx = s.p.fab.rx ∧ q.fab.ports = s.p.fab.ports ∧
      q.fab.linkOut = s.p.fab.linkOut ++ [⟨port, true, seq % 4096⟩] ∧ q.mem = s.p.mem ∧
      q.rd FAB_STAT_EPOCH = (s.p.rd FAB_STAT_EPOCH + 1) % 2 ^ 64 := by
  obtain ⟨hf, hm, -, hrd, -, -⟩ := s.p.linkTaken_keeps port seq
  obtain ⟨r, hrr⟩ : ∃ r, r = s.p.linkTaken port seq := ⟨_, rfl⟩
  have hbec := fabricPacketArrive_taken (vc := vc) (k := k) hn hr h hg
  rw [← hrr] at hf hm hrd hbec
  have hlow : ∀ j, j < 0x100000 → r.rd j = s.p.rd j := fun j hj => hrd j (by unfold FAB_PSTAT_RX; omega)
  rw [r.routePacket_stale ((s.p.stale_congr k hlow).trans hs)] at hbec
  have hbf : (r.bump FAB_STAT_EPOCH 1).fab = r.fab := by simp
  refine ⟨_, hbec, ?_, ?_, ?_, ?_, ?_⟩
  · rw [hbf, hf]
  · rw [hbf, hf]
  · rw [hbf, hf]
  · rw [← hm]
    simp
  · rw [Part.rd_bump_same, hrd _ (by unfold FAB_PSTAT_RX FAB_STAT_EPOCH; omega)]

end

end

end Sys2Proof.Machine
end

section
/-!
PROOF. Accounting, loss notices and freezes that come by the fabric, and the settling of the fabric's packets (R342, R347, R348, R353).
-/
namespace Sys2Proof.Machine

section
variable (p : Part) (source : Nat) (e : Option Nat) (corr : Nat)

/-- A freeze that begins, asserted here or by a message of the fabric (R353, R512). -/
theorem Part.freezeFrom_freezes (h : p.obs.frozen = false) : (p.freezeFrom source e corr).obs.frozen = true ∧
    (p.freezeFrom source e corr).fab.frozenSeen = true ∧ (p.freezeFrom source e corr).tick = { p.tick with stopAfter := true } ∧
    (p.freezeFrom source e corr).mem = p.mem ∧ (p.freezeFrom source e corr).cores = p.cores ∧
    Floods p (p.freezeFrom source e corr) p.cycle e corr .freeze := by
  obtain ⟨r, hr⟩ : ∃ r, r = (((p.modObs fun o => { o with frozen := true }).putB OBS_STATUS 5 true).stick OBS_STICKY 7).modPower
    fun w => { w with freezeOut := true } := ⟨_, rfl⟩
  obtain ⟨u, hu⟩ : ∃ u, u = (r.flood e corr .freeze).modFab fun f => { f with frozenSeen := true } := ⟨_, rfl⟩
  obtain ⟨v, hv⟩ : ∃ v, v = if u.getB OBS_STATUS 4 then (u.putB OBS_STATUS 4 false).putF OBS_TEST_STATUS 0 4 7 else u := ⟨_, rfl⟩
  obtain ⟨q, hq⟩ : ∃ q, q = ((v.putB TIK_STATUS 11 true).modTick fun t => { t with stopAfter := true }).trace 4 8 0 0xFFFF source 0 := ⟨_, rfl⟩
  have hfz : p.freezeFrom source e corr = q := by
    unfold Part.freezeFrom
    dsimp only
    rw [if_neg (by simp [h]), hq, hv, hu, hr]
  have hrk : r.obs.frozen = true ∧ r.cycle = p.cycle ∧ r.tick = p.tick ∧ r.mem = p.mem ∧ r.cores = p.cores := by rw [hr]; simp
  obtain ⟨r1, r2, r3, r4, r5⟩ := hrk
  have hvk : v.obs.frozen = true ∧ v.tick = p.tick ∧ v.mem = p.mem ∧ v.cores = p.cores ∧ v.fab = u.fab := by
    have huk : u.obs.frozen = true ∧ u.tick = p.tick ∧ u.mem = p.mem ∧ u.cores = p.cores := by
      rw [hu]
      exact ⟨r1, r3, r4, r5⟩
    rw [hv]
    split <;> simp [huk]
  obtain ⟨v1, v3, v4, v5, v7⟩ := hvk
  have hports : r.SamePorts p := fun n hn => by
    have hne : ∀ j, j < 0x800000 → j ≠ FAB_PSTATUS n := fun j hj => by unfold FAB_PSTATUS; omega
    rw [hr]
    simp [hne OBS_STATUS (by decide), hne OBS_STICKY (by decide), hne (OBS_STICKY + 4) (by decide)]
  have hqf : q.fab = u.fab := by rw [hq, ← v7]; simp
  rw [hfz]
  refine ⟨by rw [hq]; simp [v1], by rw [hqf, hu]; rfl, by rw [hq]; simp [v3], by rw [hq]; simp [v4], by rw [hq]; simp [v5], ?_⟩
  rw [← r2]
  exact (r.flood_floods e corr .freeze).of_same hports (by rw [hqf, hu]; rfl)

/-- Packets sent one after the other stand in the hub's queue, and nothing else has changed. -/
theorem Part.each_sends {α : Type} (dst : α → Nat) (kind : Nat) (l : List α) (p : Part) :
    ∃ add, p.each l (fun p x => p.sendPacket (dst x) 3 kind 0 0 []) = { p with fab := { p.fab with txq := p.fab.txq ++ add } } ∧
      ∀ x ∈ l, (⟨0, p.chip, dst x, p.epoch, 3, 0, kind, 0, 0, []⟩ : Packet) ∈ add := by
  induction l generalizing p with
  | nil => exact ⟨[], by rw [Part.each_nil, List.append_nil], fun x hx => by cases hx⟩
  | cons x l ih =>
    obtain ⟨add, ha, hin⟩ := ih (p.sendPacket (dst x) 3 kind 0 0 [])
    refine ⟨⟨0, p.chip, dst x, p.epoch, 3, 0, kind, 0, 0, []⟩ :: add, ?_, fun y hy => ?_⟩
    · rw [Part.each_cons, ha]
      unfold Part.sendPacket Part.modFab
      dsimp only
      rw [List.append_assoc, List.singleton_append]
    · rcases List.mem_cons.1 hy with rfl | hy
      · exact List.mem_cons_self
      · exact List.mem_cons_of_mem _ (hin y hy)

end

section
variable {s : State}

theorem accountingSend_sends (hw : s.p.working = true) (hd : s.p.sendingDone = true) (hn : ∀ k ∈ s.p.fab.txq, ¬ (k.cls = 3 ∧ k.kind = 8)) :
    ∃ q, Becomes .accountingSend s q ∧ q = { s.p with fab := { s.p.fab with txq := q.fab.txq, accounted := true } } ∧
      ∀ e ∈ s.p.fab.txWin, e.2.counted = true → e.2.acctSent = false →
        (⟨0, s.p.chip, e.1, s.p.epoch, 3, 0, 8, 0, 0, []⟩ : Packet) ∈ q.fab.txq := by
  obtain ⟨l, hl⟩ : ∃ l, l = s.p.fab.txWin.filter fun e => e.2.counted && !e.2.acctSent := ⟨_, rfl⟩
  obtain ⟨add, ha, hin⟩ := Part.each_sends (fun e : Nat × TxWin => e.1) 8 l s.p
  have hno : (s.p.fab.txq.any fun q => q.cls == 3 && q.kind == 8) = false := by
    rw [List.any_eq_false]
    intro k hk hx
    simp only [Bool.and_eq_true, beq_iff_eq] at hx
    exact hn k hk hx
  refine ⟨{ s.p with fab := { s.p.fab with txq := s.p.fab.txq ++ add, accounted := true } }, ?_, rfl, fun e he hc hs => ?_⟩
  · change execAccountingSend s = _
    unfold execAccountingSend State.run
    dsimp only
    rw [hw, hd, hno, if_neg (by decide), ← hl, ha]
    rfl
  · refine List.mem_append_right _ (hin e ?_)
    rw [hl, List.mem_filter]
    exact ⟨he, by rw [hc, hs]; rfl⟩

theorem flagAckArrive_frees {k : Packet} (h : (s.p.fab.rx.find? fun q => q.cls == 1 && q.kind == 6) = some k) :
    ∃ q, Becomes .flagAckArrive s q ∧ q = { s.p with fab := { s.p.fab with rx := s.p.fab.rx.erase k, txWin := q.fab.txWin } } ∧
      q.win k.src = { s.p.win k.src with unacked := (s.p.win k.src).unacked.filter fun u => u.1 % 256 != k.ref } := by
  obtain ⟨w, hw⟩ : ∃ w, w = { s.p.win k.src with unacked := (s.p.win k.src).unacked.filter fun u => u.1 % 256 != k.ref } := ⟨_, rfl⟩
  refine ⟨(s.p.takeRx k).modFab fun f => { f with txWin := spSet .reset f.txWin k.src w }, ?_, rfl, ?_⟩
  · change execFlagAckArrive s = _
    unfold execFlagAckArrive State.run
    dsimp only
    rw [h, hw]
    rfl
  · rw [← hw]
    unfold Part.win Part.modFab
    dsimp only
    rw [spGet_spSet, if_pos rfl]

theorem lossNoticeArrive_marks {k : Packet} (h : (s.p.fab.rx.find? fun q => q.cls == 1 && q.kind == 7) = some k) :
    ∃ q, Becomes .lossNoticeArrive s q ∧ q = { s.p with fab := { s.p.fab with rx := s.p.fab.rx.erase k, lossFrom := q.fab.lossFrom } } ∧
      ∀ d, d ∈ q.fab.lossFrom ↔ d = k.src ∨ d ∈ s.p.fab.lossFrom := by
  obtain ⟨l, hl⟩ : ∃ l, l = if s.p.fab.lossFrom.contains k.src then s.p.fab.lossFrom else k.src :: s.p.fab.lossFrom := ⟨_, rfl⟩
  refine ⟨(s.p.takeRx k).modFab fun f => { f with lossFrom := l }, ?_, rfl, fun d => ?_⟩
  · change execLossNoticeArrive s = _
    unfold execLossNoticeArrive State.run
    dsimp only
    rw [h, hl]
    rfl
  · change d ∈ l ↔ _
    rw [hl]
    split
    · rename_i hc
      refine ⟨.inr, fun hd => hd.elim (fun he => ?_) id⟩
      rw [he]
      exact List.contains_iff_mem.1 hc
    · exact List.mem_cons

theorem fabricFreeze_freezes {bundle : Nat} {h : CtlHead} (hs : s.p.fab.frozenSeen = false) (hf : s.p.obs.frozen = false) (hb : bundle < 8)
    (hup : s.p.bundleUp bundle = true) :
    ∃ q, Becomes (.fabricFreeze ⟨bundle, h⟩) s q ∧ q.fab.frozenSeen = true ∧ q.mem = s.p.mem ∧ q.cores = s.p.cores ∧
      q.obs.frozen = s.p.getB OBS_FREEZE 1 ∧ q.tick.stopAfter = (s.p.getB OBS_FREEZE 1 || s.p.tick.stopAfter) ∧
      Floods s.p q s.p.cycle (some bundle) (passOn h) .freeze := by
  have hbec : Becomes (.fabricFreeze ⟨bundle, h⟩) s (if s.p.getB OBS_FREEZE 1 then s.p.freezeFrom 2 (some bundle) (passOn h)
      else (s.p.flood (some bundle) (passOn h) .freeze).modFab fun f => { f with frozenSeen := true }) := by
    change execFabricFreeze ⟨bundle, h⟩ s = _
    unfold execFabricFreeze State.run
    dsimp only
    rw [if_neg (by simp [hs, hup, hb])]
  refine ⟨_, hbec, ?_⟩
  cases hin : s.p.getB OBS_FREEZE 1 with
  | true =>
    rw [if_pos rfl]
    obtain ⟨h1, h2, h3, h4, h5, h6⟩ := s.p.freezeFrom_freezes 2 (some bundle) (passOn h) hf
    exact ⟨h2, h4, h5, h1, by rw [h3]; rfl, h6⟩
  | false =>
    rw [if_neg (by decide)]
    exact ⟨rfl, rfl, rfl, hf, rfl, (s.p.flood_floods (some bundle) (passOn h) .freeze).of_same (fun _ _ => rfl) rfl⟩

end

/-- Settles O34: where the hub and the router put a packet, what the link answers, and what the fabric's messages change. -/
theorem fabricPackets : Obligations.FabricPackets := by
  intro s p
  refine ⟨fun k ht hk hc => ⟨fun hd => ⟨_, packetInject_local ht hk hc hd, rfl⟩, fun r n hd hz hr hw => packetInject_out ht hk hc hd hz hr hw⟩,
    fun port seq vc k hn hr => ⟨?_, fun h => ?_, fun h hg => ⟨fun hp hs hz hd hb hc hdrop => ?_, fun n hp hs h1 h8 => ?_, fun hs => ?_⟩⟩,
    fun k hk => flagAckArrive_frees hk, fun hw hd hn => accountingSend_sends hw hd hn, fun k hk => lossNoticeArrive_marks hk,
    fun bundle h hs hf hb hup => fabricFreeze_freezes hs hf hb hup⟩
  · have hb : (p.bump (FAB_PSTAT_CRC port) 1).fab = p.fab := by simp
    refine ⟨_, fabricPacketArrive_bad hn hr, rfl, ?_, ?_, Part.rd_bump_same _ _ _⟩
    all_goals
      unfold Part.linkReply Part.modFab
      dsimp only
      rw [hb]
  · exact ⟨_, fabricPacketArrive_answered hn hr h, rfl, rfl⟩
  · obtain ⟨q, hbec, h1, h2, h3, h4⟩ := fabricPacketArrive_here (vc := vc) hn hr h hg hp hs hz hd hb hc hdrop
    exact ⟨q, hbec, h1, h2, h3, h4⟩
  · exact fabricPacketArrive_on hn hr h hg hp hs h1 h8
  · exact fabricPacketArrive_stale hn hr h hg hs

end Sys2Proof.Machine
end

section
/-!
PROOF. Scrub, refresh, sensors and training of the stacks (R293, R295, R317, R319, R535).
-/
namespace Sys2Proof.Machine

section
variable (p : Part)

/-- Where a stack's physical line lies is a matter of the slice map alone (R290, R291). -/
theorem Part.physAddr_congr {q : Part} (h : q.regs = p.regs) (fuel x n off : Nat) : q.physAddr fuel x n off = p.physAddr fuel x n off := by
  have hrd : ∀ j lo w, q.getF j lo w = p.getF j lo w := fun j lo w => Part.getF_congr lo w (by unfold Part.rd; rw [h])
  have hsh : ∀ n, q.share x n = p.share x n := fun n => by unfold Part.share; rw [hrd]
  induction fuel generalizing n off with
  | zero => rfl
  | succ fuel ih =>
    unfold Part.physAddr
    dsimp only
    rw [hsh, hrd, ih]

/-- What symbol errors make of the memory is a matter of the memory alone (R293). -/
theorem Part.strike_congr {q : Part} (h : q.mem = p.mem) (a : Nat) (errs : List (Nat × Nat)) : (q.strike a errs).mem = (p.strike a errs).mem := by
  unfold Part.strike
  generalize errs.filter _ = l
  induction l generalizing p q with
  | nil => exact h
  | cons e l ih =>
    rw [Part.each_cons, Part.each_cons]
    refine ih _ ?_
    dsimp only
    rw [h]

/-- The lines at which a sector's two scrubs stand (R295). -/
def Part.scrubAt (p : Part) (y : Nat) : Nat × Nat := ((p.ctl y).scrub0, (p.ctl y).scrub1)

theorem Part.scrubAt_congr {q : Part} (h : q.mctl = p.mctl) (y : Nat) : q.scrubAt y = p.scrubAt y := by
  unfold Part.scrubAt Part.ctl
  rw [h]

theorem Part.scrubAt_countCe (x n y : Nat) : (p.countCe x n).scrubAt y = p.scrubAt y := by
  unfold Part.countCe
  extract_lets s p1 p2 c k done hit p3
  have h2 : p2.mctl = p.mctl := by
    unfold p2 p1
    split <;> simp
  have h3 : p3.scrubAt y = p2.scrubAt y := by
    unfold p3 Part.scrubAt
    rw [Part.ctl_setCtl]
    split
    · rename_i e
      subst e
      split <;> rfl
    · rfl
  have hn : (if hit then p3.noteErr (MEM_STICKY s) 3 { mkErr 6 3 0 with sector := s, loc0 := x % 2 } else p3).scrubAt y = p3.scrubAt y := by
    split
    · exact p3.scrubAt_congr (by simp) y
    · rfl
  exact hn.trans (h3.trans (p.scrubAt_congr h2 y))

theorem Part.scrubAt_readLine (k g q a y : Nat) : (p.readLine k g q a).2.scrubAt y = p.scrubAt y := by
  unfold Part.readLine
  dsimp only
  split
  · exact p.scrubAt_congr (by simp) y
  · split
    · exact p.scrubAt_congr (by simp) y
    · exact (Part.scrubAt_countCe _ _ _ y).trans (p.scrubAt_congr (by simp) y)
    · exact p.scrubAt_congr (by simp [Part.errLog]) y
    · exact p.scrubAt_congr (by simp [Part.errLog, Part.putHbm]) y

theorem Part.scrubAt_scrubRead (a y : Nat) : (p.scrubRead a).scrubAt y = p.scrubAt y := by
  have hp : ∀ q : Part, q.scrubAt y = p.scrubAt y → ∀ bs, (q.putHbm a bs none).scrubAt y = p.scrubAt y := fun q h bs =>
    (q.scrubAt_congr (by simp [Part.putHbm]) y).trans h
  unfold Part.scrubRead
  dsimp only
  cases rsDecode (spGet 0 p.mem.chk a) with
  | corrected => exact hp _ (p.scrubAt_readLine 2 0 0 a y) _
  | _ => exact p.scrubAt_readLine 2 0 0 a y

theorem Part.scrubAt_scrubBare (x y : Nat) (errs : List (Nat × Nat)) : (p.scrubBare x errs).scrubAt y = p.scrubAt y := by
  have h1 : (p.bump (MEM_STAT_RD (x / 2)) 1).mctl = p.mctl := by simp
  unfold Part.scrubBare
  dsimp only
  split
  · exact p.scrubAt_congr h1 y
  · exact (Part.scrubAt_countCe _ _ _ y).trans (p.scrubAt_congr h1 y)
  · exact p.scrubAt_congr (by simp) y

/-- Scrub's read of a line, by what its check bytes tell (R293 to R295). -/
theorem Part.scrubRead_mem (a : Nat) (hr : p.mem.ready = true) :
    (rsDecode (spGet 0 p.mem.chk a) = .clean → (p.scrubRead a).mem = p.mem) ∧
    (∀ e, rsDecode (spGet 0 p.mem.chk a) = .corrected e → (p.scrubRead a).mem = (p.putLine a (rsCorrect e (p.rawBytes a 64)) none).mem) ∧
    (rsDecode (spGet 0 p.mem.chk a) = .uncorrectable → spGet 0 (p.scrubRead a).mem.chk a = poisonQ) := by
  unfold Part.scrubRead
  dsimp only
  refine ⟨fun h => ?_, fun e h => ?_, fun h => ?_⟩
  · rw [h]
    exact (p.readLine_clean 2 0 0 a hr h).2
  · have hm : (p.readLine 2 0 0 a).2.mem = p.mem := by simp [Part.readLine, hr, h]
    have hb : (p.readLine 2 0 0 a).1.1 = rsCorrect e (p.rawBytes a 64) := congrArg Prod.fst (p.readLine_corrected 2 0 0 a hr h).1
    rw [h]
    change ((p.readLine 2 0 0 a).2.putHbm a (p.readLine 2 0 0 a).1.1 none).mem = _
    rw [hb, Part.putHbm_mem, Part.putLine_mem_congr hm]
  · rw [h]
    exact (p.readLine_uncorrectable 2 0 0 a hr h).2

end

section
variable {s : State} {sector : BitVec 2} {ctl : BitVec 1}

/-- The scrub of a stack goes on to its next line (R295). -/
def Part.scrubOn (p : Part) (x : Nat) (ctl : BitVec 1) (next : Nat) : Part :=
  p.setCtl x (if ctl = 0 then { p.ctl x with scrub0 := next } else { p.ctl x with scrub1 := next })

/-- What scrub does with the line it has come to (R295). -/
def Part.scrubHere (p : Part) (h : Nat) (errs : List (Nat × Nat)) (line : Option Nat) : Part :=
  line.elim (p.scrubBare h errs) fun a => (p.strike a errs).scrubRead a

theorem patrolScrub_becomes (errs : List (Nat × Nat)) (ho : s.p.getF (MEM_SCRUB sector.toNat) (8 * ctl.toNat) 8 ≠ 0) (hr : s.p.mem.ready = true)
    (hc : s.p.getB (MEM_STATUS sector.toNat) 1 = false) {n : Nat}
    (hn : n = if ctl = 0 then (s.p.ctl sector.toNat).scrub0 else (s.p.ctl sector.toNat).scrub1) :
    Becomes (.patrolScrub sector ctl errs) s (((s.p.scrubOn sector.toNat ctl ((n + 1) % stackLines)).scrubHere (2 * sector.toNat + ctl.toNat) errs
      (s.p.scrubLine (2 * sector.toNat + ctl.toNat) n)).bump (MEM_STAT_SCRUB sector.toNat) 1) := by
  obtain ⟨u, hu⟩ : ∃ u, u = s.p.scrubOn sector.toNat ctl ((n + 1) % stackLines) := ⟨_, rfl⟩
  have hl : u.scrubLine (2 * sector.toNat + ctl.toNat) n = s.p.scrubLine (2 * sector.toNat + ctl.toNat) n := by
    unfold Part.scrubLine
    exact Part.physAddr_congr s.p (by rw [hu]; rfl) _ _ _ _
  change execPatrolScrub sector ctl errs s = _
  unfold execPatrolScrub State.run
  dsimp only
  rw [hr, hc, beq_eq_false_iff_ne.2 ho, if_neg (by decide), ← hn]
  unfold Part.scrubOn at hu
  rw [← hu, hl]
  unfold Part.scrubOn
  rw [← hu]
  unfold Part.scrubHere
  cases s.p.scrubLine (2 * sector.toNat + ctl.toNat) n <;> rfl

theorem Part.scrubHere_keeps (p : Part) (h : Nat) (errs : List (Nat × Nat)) (line : Option Nat) :
    (p.scrubHere h errs line).cores = p.cores ∧ ∀ y, (p.scrubHere h errs line).scrubAt y = p.scrubAt y := by
  unfold Part.scrubHere
  cases line with
  | none => exact ⟨by simp, fun y => p.scrubAt_scrubBare h y errs⟩
  | some a =>
    dsimp only [Option.elim]
    refine ⟨?_, fun y => ?_⟩
    · rw [← p.cores_strike a errs]
      unfold Part.scrubRead
      dsimp only
      split <;> simp
    · rw [Part.scrubAt_scrubRead]
      exact p.scrubAt_congr (by rw [p.strike_eq a errs]) y

theorem Part.scrubOn_at (p : Part) (x : Nat) (next : Nat) :
    if ctl = 0 then (p.scrubOn x ctl next).scrubAt x = (next, (p.ctl x).scrub1) else (p.scrubOn x ctl next).scrubAt x = ((p.ctl x).scrub0, next) := by
  unfold Part.scrubOn Part.scrubAt
  rw [Part.ctl_setCtl, if_pos rfl]
  by_cases h : ctl = 0
  · rw [if_pos h, if_pos h]
  · rw [if_neg h, if_neg h]

/-- A scrub of the next line of a stack (R293, R295). -/
theorem patrolScrub_scrubs (errs : List (Nat × Nat)) (ho : s.p.getF (MEM_SCRUB sector.toNat) (8 * ctl.toNat) 8 ≠ 0) (hr : s.p.mem.ready = true)
    (hc : s.p.getB (MEM_STATUS sector.toNat) 1 = false) :
    let p := s.p
    let x := sector.toNat
    let i := ctl.toNat
    let n := if ctl = 0 then (p.ctl x).scrub0 else (p.ctl x).scrub1
    ∃ q, Becomes (.patrolScrub sector ctl errs) s q ∧ q.cores = p.cores ∧
      (if ctl = 0 then (q.ctl x).scrub0 = (n + 1) % 2 ^ 30 ∧ (q.ctl x).scrub1 = (p.ctl x).scrub1
        else (q.ctl x).scrub1 = (n + 1) % 2 ^ 30 ∧ (q.ctl x).scrub0 = (p.ctl x).scrub0) ∧
      (p.scrubLine (2 * x + i) n = none → q.mem = p.mem) ∧
      (∀ a, p.scrubLine (2 * x + i) n = some a →
        let m := p.strike a errs
        (rsDecode (spGet 0 m.mem.chk a) = .clean → q.mem = m.mem) ∧
        (∀ e, rsDecode (spGet 0 m.mem.chk a) = .corrected e → q.mem = (m.putLine a (rsCorrect e (m.rawBytes a 64)) none).mem) ∧
        (rsDecode (spGet 0 m.mem.chk a) = .uncorrectable → spGet 0 q.mem.chk a = poisonQ)) := by
  intro p x i n
  obtain ⟨next, hnext⟩ : ∃ m, m = (n + 1) % stackLines := ⟨_, rfl⟩
  obtain ⟨u, hu⟩ : ∃ u, u = p.scrubOn x ctl next := ⟨_, rfl⟩
  obtain ⟨q, hq⟩ : ∃ q, q = u.scrubHere (2 * x + i) errs (p.scrubLine (2 * x + i) n) := ⟨_, rfl⟩
  have hbec := patrolScrub_becomes errs ho hr hc (n := n) rfl
  rw [show s.p.scrubOn sector.toNat ctl ((n + 1) % stackLines) = u by rw [hu, hnext]] at hbec
  obtain ⟨hcores, hat⟩ := u.scrubHere_keeps (2 * x + i) errs (p.scrubLine (2 * x + i) n)
  rw [← hq] at hcores hat
  have hbm : (q.bump (MEM_STAT_SCRUB x) 1).mem = q.mem ∧ (q.bump (MEM_STAT_SCRUB x) 1).cores = q.cores ∧
      (q.bump (MEM_STAT_SCRUB x) 1).ctl x = q.ctl x := by simp
  obtain ⟨bm, bc, bx⟩ := hbm
  have hum : u.mem = p.mem := by rw [hu]; rfl
  have hnx : next = (n + 1) % 2 ^ 30 := hnext
  refine ⟨q.bump (MEM_STAT_SCRUB x) 1, by rw [hq]; exact hbec, ?_, ?_, fun hl => ?_, fun a hl => ?_⟩
  · rw [bc, hcores, hu]
    rfl
  · have hon := p.scrubOn_at (ctl := ctl) x next
    rw [← hu, ← hat x] at hon
    rw [bx, ← hnx]
    by_cases h : ctl = 0
    · rw [if_pos h] at hon ⊢
      exact ⟨congrArg Prod.fst hon, congrArg Prod.snd hon⟩
    · rw [if_neg h] at hon ⊢
      exact ⟨congrArg Prod.snd hon, congrArg Prod.fst hon⟩
  · rw [bm, hq, hl, ← hum]
    unfold Part.scrubHere
    simp
  · intro m
    have hm : (u.strike a errs).mem = m.mem := Part.strike_congr p hum a errs
    have hraw : (u.strike a errs).rawBytes a 64 = m.rawBytes a 64 := by unfold Part.rawBytes; rw [hm]
    obtain ⟨h1, h2, h3⟩ := (u.strike a errs).scrubRead_mem a (by rw [Part.ready_strike, hum]; exact hr)
    have hqm : q.mem = ((u.strike a errs).scrubRead a).mem := by rw [hq, hl]; rfl
    rw [hm] at h1 h2 h3
    rw [bm, hqm]
    refine ⟨h1, fun e he => ?_, h3⟩
    rw [h2 e he, hraw, Part.putLine_mem_congr hm]

theorem hbmRefresh_refreshes (ht : s.p.power.hbmTrained = true) (hc : s.p.getB (MEM_STATUS sector.toNat) 1 = false) :
    let p := s.p
    let x := sector.toNat
    ∃ q, Becomes (.hbmRefresh sector ctl) s q ∧ q = { p with mctl := q.mctl } ∧ (∀ y, y ≠ x → q.ctl y = p.ctl y) ∧
      q.ctl x = (if ctl = 0 then { p.ctl x with refreshes := (p.ctl x).refreshes + 1 }
        else { p.ctl x with refreshes1 := (p.ctl x).refreshes1 + 1 }) := by
  intro p x
  refine ⟨p.modCtl x fun c => if ctl = 0 then { c with refreshes := c.refreshes + 1 } else { c with refreshes1 := c.refreshes1 + 1 }, ?_, rfl,
    fun y hy => ?_, ?_⟩
  · change execHbmRefresh sector ctl s = _
    unfold execHbmRefresh State.run
    dsimp only
    rw [ht, hc]
    rfl
  · rw [Part.modCtl, Part.ctl_setCtl, if_neg hy.symm]
  · rw [Part.modCtl, Part.ctl_setCtl, if_pos rfl]

theorem stackSensorRead_shows (celsius : Nat) (ht : s.p.power.hbmTrained = true) :
    let p := s.p
    let x := sector.toNat
    let i := ctl.toNat
    ∃ q, Becomes (.stackSensorRead sector ctl celsius) s q ∧ q = { p with regs := q.regs } ∧
      q.getF (MEM_TEMP x) (8 * i) 8 = min celsius 255 ∧ q.getB (MEM_STATUS x) (2 + i) = decide (85 < celsius) ∧
      q.getB (MEM_STATUS x) (4 + i) = decide (p.getF (MEM_THERM x) 0 8 < celsius) := by
  intro p x i
  have hi : i < 2 := ctl.isLt
  obtain ⟨u, hu⟩ : ∃ u, u = p.putF (MEM_TEMP x) (8 * i) 8 (min celsius 255) := ⟨_, rfl⟩
  obtain ⟨v, hv⟩ : ∃ v, v = u.putB (MEM_STATUS x) (2 + i) (decide (celsius > 85)) := ⟨_, rfl⟩
  have hth : v.getF (MEM_THERM x) 0 8 = p.getF (MEM_THERM x) 0 8 := by
    refine Part.getF_congr 0 8 ?_
    rw [hv, hu, Part.rd_putB_other _ _ _ (by unfold MEM_STATUS MEM_THERM; omega), Part.rd_putF_other _ _ _ _ (by unfold MEM_TEMP MEM_THERM; omega)]
  refine ⟨v.putB (MEM_STATUS x) (4 + i) (decide (celsius > v.getF (MEM_THERM x) 0 8)), ?_, ?_, ?_, ?_, ?_⟩
  · change execStackSensorRead sector ctl celsius s = _
    unfold execStackSensorRead State.run
    dsimp only
    rw [ht, if_neg (by decide), hv, hu]
  · rw [hv, hu]
    rfl
  · rw [Part.getF_congr _ _ (Part.rd_putB_other _ _ _ (by unfold MEM_STATUS MEM_TEMP; omega)), hv,
      Part.getF_congr _ _ (Part.rd_putB_other _ _ _ (by unfold MEM_STATUS MEM_TEMP; omega)), hu, Part.getF_putF_same _ _ _ _ _ (by omega)]
    omega
  · rw [Part.getB_putB_bit _ _ _ _ _ (by omega) (by omega), hv, Part.getB_putB_same _ _ _ _ (by omega)]
  · rw [Part.getB_putB_same _ _ _ _ (by omega), hth]

theorem hbmTrainingDone_trains (hm : s.p.mgt.ready = true) (ht : s.p.power.hbmTrained = false) (hs : s.p.getB PWR_STATUS 7 = false) :
    ∃ q, Becomes .hbmTrainingDone s q ∧ q.power = { s.p.power with hbmTrained := true } ∧ q.mem = s.p.mem ∧ q.cores = s.p.cores ∧
      q.getB PWR_STATUS 4 = !s.p.getB PWR_CTRL 0 := by
  obtain ⟨u, hu⟩ : ∃ u, u = (s.p.modPower fun w => { w with hbmTrained := true }).modHif fun h => { h with memInfoValid := true } := ⟨_, rfl⟩
  have hk : u.power = { s.p.power with hbmTrained := true } ∧ u.mem = s.p.mem ∧ u.cores = s.p.cores := by rw [hu]; exact ⟨rfl, rfl, rfl⟩
  refine ⟨u.setClock (!s.p.getB PWR_CTRL 0), ?_, ?_, by simp [hk], by simp [hk], ?_⟩
  · change execHbmTrainingDone s = _
    unfold execHbmTrainingDone State.run
    dsimp only
    rw [hm, ht, hs, if_neg (by decide), hu]
  · rw [Part.setClock_regs]
    exact hk.1
  · rw [Part.getB_congr 4 (Part.setClock_status _ _), Part.getB_putB_same _ _ _ _ (by decide)]

/-- Each stack's controller counts the lines zeroed, and shows that its stacks are ready (R319). -/
def Part.zeroCount (p : Part) (x : Nat) : Part := (p.putB (MEM_STATUS x) 0 true).bump (MEM_STAT_WR x) (2 * stackLines)

theorem Part.zeroCount_keeps (p : Part) (x : Nat) : (p.zeroCount x).mem = p.mem ∧ (p.zeroCount x).cores = p.cores ∧
    (p.zeroCount x).getB (MEM_STATUS x) 0 = true ∧ ∀ y, y < 4 → x < 4 → p.getB (MEM_STATUS y) 0 = true → (p.zeroCount x).getB (MEM_STATUS y) 0 = true := by
  have hne : ∀ y, MEM_STAT_WR x ≠ MEM_STATUS y := fun y => by unfold MEM_STAT_WR MEM_STATUS secBase; omega
  have hs : (p.zeroCount x).getB (MEM_STATUS x) 0 = true := by
    unfold Part.zeroCount
    rw [Part.getB_congr 0 (Part.rd_bump_other _ _ (hne x)), Part.getB_putB_same _ _ _ _ (by decide)]
  refine ⟨by simp [Part.zeroCount], by simp [Part.zeroCount], hs, fun y _ _ hy => ?_⟩
  by_cases h : y = x
  · rw [h, hs]
  · unfold Part.zeroCount
    rw [Part.getB_congr 0 (Part.rd_bump_other _ _ (hne y)), Part.getB_congr 0 (Part.rd_putB_other _ _ _ (by unfold MEM_STATUS secBase; omega)), hy]

theorem hbmZero_zeroes (ht : s.p.power.hbmTrained = true) (hr : s.p.mem.ready = false) :
    ∃ q, Becomes .hbmZero s q ∧ q.cores = s.p.cores ∧ q.mem.ready = true ∧ q.mem.chk = [] ∧ q.mem.granules = s.p.mem.granules ∧
      (∀ y, q.byteAt y = if y < hbmTop then 0#8 else s.p.byteAt y) ∧ (∀ y < 4, q.getB (MEM_STATUS y) 0 = true) ∧ q.getB HIF_STATUS 1 = true := by
  obtain ⟨m, hm⟩ : ∃ m : Mem, m = { s.p.mem with bytes := s.p.mem.bytes.filter (fun e => decide (hbmTop ≤ e.1)), chk := [], ready := true } := ⟨_, rfl⟩
  obtain ⟨u, hu⟩ : ∃ u : Part, u = { s.p with mem := m } := ⟨_, rfl⟩
  obtain ⟨v, hv⟩ : ∃ v, v = u.each sectors Part.zeroCount := ⟨_, rfl⟩
  have hvk : v.mem = m ∧ v.cores = s.p.cores ∧ ∀ y, y < 4 → v.getB (MEM_STATUS y) 0 = true := by
    have hmem : v.mem = u.mem := by rw [hv]; exact Part.each_get (fun r => r.mem) _ _ _ fun r x => (r.zeroCount_keeps x).1
    have hcor : v.cores = u.cores := by rw [hv]; exact Part.each_get (fun r => r.cores) _ _ _ fun r x => (r.zeroCount_keeps x).2.1
    refine ⟨by rw [hmem, hu], by rw [hcor, hu], fun y hy => ?_⟩
    have hstep : ∀ (r : Part) x, x < 4 → r.getB (MEM_STATUS y) 0 = true → (r.zeroCount x).getB (MEM_STATUS y) 0 = true := fun r x hx =>
      (r.zeroCount_keeps x).2.2.2 y hy hx
    have hself : ∀ (r : Part), (r.zeroCount y).getB (MEM_STATUS y) 0 = true := fun r => (r.zeroCount_keeps y).2.2.1
    rw [hv]
    simp only [sectors, Part.each_cons, Part.each_nil]
    have hcases : y = 0 ∨ y = 1 ∨ y = 2 ∨ y = 3 := by omega
    rcases hcases with rfl | rfl | rfl | rfl
    · exact hstep _ 3 (by decide) (hstep _ 2 (by decide) (hstep _ 1 (by decide) (hself _)))
    · exact hstep _ 3 (by decide) (hstep _ 2 (by decide) (hself _))
    · exact hstep _ 3 (by decide) (hself _)
    · exact hself _
  obtain ⟨vm, vc, vs⟩ := hvk
  refine ⟨(v.putB HIF_STATUS 1 true).modHif fun h => { h with memActive := true }, ?_, by simp [vc], by simp [vm, hm], by simp [vm, hm], by simp [vm, hm],
    fun y => ?_, fun y hy => ?_, ?_⟩
  · change execHbmZero s = _
    unfold execHbmZero State.run
    dsimp only
    rw [ht, hr, if_neg (by decide), ← hm, ← hu]
    rw [hv]
    rfl
  · have hb : ((v.putB HIF_STATUS 1 true).modHif fun h => { h with memActive := true }).byteAt y = spGet 0#8 m.bytes y := by
      unfold Part.byteAt
      simp [vm]
    rw [hb, hm]
    dsimp only
    by_cases h : y < hbmTop
    · rw [if_pos h]
      refine spGet_absent fun e he hk => ?_
      have hge := of_decide_eq_true (List.mem_filter.1 he).2
      omega
    · rw [if_neg h, spGet_filter]
      · rfl
      · intro e _ hk
        exact decide_eq_true (by omega)
  · have hne : HIF_STATUS ≠ MEM_STATUS y := by unfold HIF_STATUS MEM_STATUS secBase; omega
    exact (Part.getB_congr 0 (by simp [Part.rd_putB_other _ _ _ hne])).trans (vs y hy)
  · exact (Part.getB_congr 1 (by simp)).trans (Part.getB_putB_same v HIF_STATUS 1 true (by decide))

end

/-- Settles O31: a stack's scrub, refresh and sensor, and the training and zeroing of them all. -/
theorem memoryEvents : Obligations.MemoryEvents := by
  intro s sector ctl p x i
  exact ⟨fun errs ho hr hc => patrolScrub_scrubs errs ho hr hc, fun ht hc => hbmRefresh_refreshes ht hc, fun celsius ht => stackSensorRead_shows celsius ht,
    fun hm ht hs => hbmTrainingDone_trains hm ht hs, fun ht hr => hbmZero_zeroes ht hr⟩

end Sys2Proof.Machine
end

section
/-!
SUPPORT. What reads and writes of memory leave of the rest of the part (R243, R293, R296 to R299, R306, R375).
-/
namespace Sys2Proof.Machine

/-- A register that no read of memory writes: none of the observation unit, of the memory controllers, and of the counts of lost traces and of
row-cache invalidations. -/
def besidesAccess (j : Nat) : Prop :=
  (j < 0x100000 ∨ 0x101000 ≤ j) ∧ (∀ b, SOBS_STAT_TDROP b ≠ j) ∧ (∀ y, TBL_STAT_RC_INVAL y ≠ j) ∧ ∀ y k, 0x540000 ≤ k → k < 0x550000 → secBase y + k ≠ j

/-- A register of the hub below the observation unit is no matter of reads. -/
theorem besidesAccess_low {j : Nat} (h : j < 0x100000) : besidesAccess j := by
  unfold besidesAccess SOBS_STAT_TDROP TBL_STAT_RC_INVAL secBase
  exact ⟨.inl h, fun b => by omega, fun y => by omega, fun y k _ _ => by omega⟩

/-- What a read of memory leaves: besides registers, counts and records, a line that cannot be corrected becomes poison, and row caches let
go of it. -/
structure Loads (p q : Part) : Prop where
  whole : q = { p with free := q.free, regs := q.regs, units := q.units, mem := q.mem, mctl := q.mctl, obs := q.obs }
  unit : ∀ y, q.unit y = { p.unit y with rc := (q.unit y).rc }
  frozen : q.obs.frozen = p.obs.frozen
  rd : ∀ j, besidesAccess j → q.rd j = p.rd j

namespace Loads

theorem refl (p : Part) : Loads p p := ⟨rfl, fun _ => rfl, rfl, fun _ _ => rfl⟩

theorem trans {p q r : Part} (h : Loads p q) (h' : Loads q r) : Loads p r :=
  ⟨by rw [h'.whole, h.whole], fun y => by rw [h'.unit y, h.unit y], h'.frozen.trans h.frozen, fun j hj => (h'.rd j hj).trans (h.rd j hj)⟩

theorem ite (b : Prop) [Decidable b] {p q r : Part} (hq : Loads p q) (hr : Loads p r) : Loads p (if b then q else r) := by
  split
  · exact hq
  · exact hr

theorem each {α : Type} {f : Part → α → Part} (l : List α) (h : ∀ x p, Loads p (f p x)) (p : Part) : Loads p (p.each l f) := by
  induction l generalizing p with
  | nil => exact refl p
  | cons x l ih =>
    rw [Part.each_cons]
    exact (h x p).trans (ih _)

section
variable (p : Part)

theorem modObs (f : Obs → Obs) (h : (f p.obs).frozen = p.obs.frozen) : Loads p (p.modObs f) := ⟨rfl, fun _ => rfl, h, fun _ _ => rfl⟩

theorem addPair (k : Nat) (f : PairAcc → PairAcc) : Loads p (p.addPair k f) := modObs p _ rfl

theorem fresh : Loads p p.fresh.2 := ⟨rfl, fun _ => rfl, rfl, fun _ _ => rfl⟩

theorem setCtl (y : Nat) (c : MemCtl) : Loads p (p.setCtl y c) := ⟨rfl, fun _ => rfl, rfl, fun _ _ => rfl⟩

theorem putLine (a : Nat) (bs : List Byte) (t : Option Nat) : Loads p (p.putLine a bs t) := by
  cases t <;> exact ⟨rfl, fun _ => rfl, rfl, fun _ _ => rfl⟩

section
variable {o : Nat} (h : ∀ j, besidesAccess j → o ≠ j)
include h

theorem wr (v : Nat) : Loads p (p.wr o v) := ⟨rfl, fun y => by simp, by simp, fun j hj => Part.rd_wr_other _ _ (h j hj)⟩

theorem bump (v : Nat) : Loads p (p.bump o v) := wr p h _

theorem stick (h' : ∀ j, besidesAccess j → o + 4 ≠ j) (i : Nat) : Loads p (p.stick o i) :=
  (wr p h _).trans (wr _ h' _)

end

/-- A register of a memory controller. -/
theorem ofCtl (y k : Nat) (h0 : 0x540000 ≤ k) (h1 : k < 0x550000) : ∀ j, besidesAccess j → secBase y + k ≠ j := fun _ hj => hj.2.2.2 y k h0 h1

/-- A register of the observation unit. -/
theorem ofObs {o : Nat} (h0 : 0x100000 ≤ o) (h1 : o < 0x101000) : ∀ j, besidesAccess j → o ≠ j := fun j hj he => by
  have := hj.1
  omega

theorem trace (b kind pair core a v : Nat) : Loads p (p.trace b kind pair core a v) := by
  unfold Part.trace
  dsimp only
  refine ite _ (ite _ ?_ (modObs p _ rfl)) (refl p)
  have hd : ∀ j, besidesAccess j → traceDrop b ≠ j := fun j hj => by
    unfold traceDrop
    split
    · exact ofObs (by decide) (by decide) j hj
    · exact hj.2.1 b
  exact (bump p hd 1).trans (stick _ (ofObs (by decide) (by decide)) (ofObs (by decide) (by decide)) 6)

/-- A record of severity 0 freezes nothing (R512). -/
theorem err (e : ErrRec) (h : e.severity = 0) : Loads p (p.err e) := by
  unfold Part.err
  extract_lets same seq r p1 p2 p3 lvl
  refine ite _ (modObs p _ rfl) (ite _ ((bump p (ofObs (by decide) (by decide)) 1).trans
    (stick _ (ofObs (by decide) (by decide)) (ofObs (by decide) (by decide)) 5)) ?_)
  have hs : ¬ (lvl ≠ 0 ∧ r.severity ≥ lvl) := fun hl => by
    have : r.severity = 0 := h
    omega
  rw [if_neg hs]
  have h1 : Loads p p1 := modObs p _ rfl
  have h2 : Loads p1 p2 := (wr p1 (ofObs (by decide) (by decide)) seq).trans (bump _ (ofObs (by decide) (by decide)) 1)
  exact (h1.trans h2).trans (trace p2 _ _ _ _ _ _)

theorem memErr (y i : Nat) (e : ErrRec) (h : e.severity = 0) : Loads p (p.noteErr (MEM_STICKY y) i e) :=
  (stick p (ofCtl y 0x540008 (by decide) (by decide)) (ofCtl y 0x54000C (by decide) (by decide)) i).trans (err _ _ h)

theorem rcInvalidate (a n : Nat) : Loads p (p.rcInvalidate a n) := by
  unfold Part.rcInvalidate
  refine each _ (fun y q => ?_) p
  extract_lets u hit k
  refine ite _ (refl q) ?_
  have h1 : Loads q (q.setUnit y { u with rc := u.rc.filter fun e => !(hit e.2) }) := ⟨rfl, fun z => by
    rw [Part.unit_setUnit]
    split
    · rename_i e
      rw [← e]
    · rfl, rfl, fun _ _ => rfl⟩
  exact h1.trans (bump _ (fun j hj => hj.2.2.1 y) k)

theorem putHbm (a : Nat) (bs : List Byte) (t : Option Nat) : Loads p (p.putHbm a bs t) :=
  ((putLine p a bs t).trans (rcInvalidate _ a 64)).trans (bump _ (ofCtl _ 0x540048 (by decide) (by decide)) 1)

theorem errLog (x kind a : Nat) : Loads p (p.errLog x kind a) := wr p (ofCtl _ 0x540030 (by decide) (by decide)) _

theorem countCe (x n : Nat) : Loads p (p.countCe x n) := by
  unfold Part.countCe
  extract_lets y p1 p2 c k done hit p3
  have h1 : Loads p p1 := bump p (ofCtl y 0x540050 (by decide) (by decide)) 1
  have h2 : Loads p1 p2 := ite _ (bump p1 (ofCtl y 0x540058 (by decide) (by decide)) 1) (refl p1)
  have h3 : Loads p2 p3 := setCtl p2 y _
  exact ((h1.trans h2).trans h3).trans (ite _ (memErr p3 y 3 _ rfl) (refl p3))

theorem readLine (kind g k a : Nat) : Loads p (p.readLine kind g k a).2 := by
  unfold Part.readLine
  extract_lets x y p1 p2 bs w1 w2 e1 tk v1 v2 v3 e2
  have h1 : Loads p p1 := bump p (ofCtl y 0x540040 (by decide) (by decide)) 1
  have h2 : Loads p p2 := h1.trans (addPair p1 _ _)
  split
  · exact h2.trans (fresh p2)
  · split
    · exact h2
    · exact h2.trans (countCe p2 x _)
    · have h3 : Loads p2 w1 := bump p2 (ofCtl y 0x540068 (by decide) (by decide)) 1
      have h4 : Loads w1 w2 := errLog w1 x 3 a
      exact ((h2.trans h3).trans h4).trans (memErr w2 y 1 _ rfl)
    · have h3 : Loads p2 v1 := putHbm p2 a _ _
      have h4 : Loads v1 v2 := bump v1 (ofCtl y 0x540060 (by decide) (by decide)) 1
      have h5 : Loads v2 v3 := errLog v2 x kind a
      clear_value v3 v2 v1
      exact (((h2.trans h3).trans h4).trans h5).trans (memErr v3 y 0 _ rfl)

theorem loadLoop (fuel g k a len : Nat) : Loads p (Part.loadLoop fuel p g k a len).2 := by
  induction fuel generalizing p a len with
  | zero => exact refl p
  | succ fuel ih =>
    unfold Part.loadLoop Part.readPiece
    dsimp only
    split
    · exact refl p
    · refine Loads.trans ?_ (ih _ _ _)
      split
      · exact readLine p 1 g k _
      · exact refl p

theorem load (g k a len : Nat) : Loads p (p.load g k a len).2 := by
  unfold Part.load
  exact loadLoop p _ g k a len

theorem loadN (g k a n : Nat) : Loads p (p.loadN g k a n).2 := by
  unfold Part.loadN
  exact load p g k a n

theorem loadGrans (g k a len : Nat) : Loads p (p.loadGrans g k a len).2 := by
  unfold Part.loadGrans
  exact loadLoop p _ g k a len

end

end Loads

/-- What a write of memory leaves: as a read, and besides, a line that is not journalled may fail the frame and freeze the part, and a line of
a window waits to be sent to the twin. -/
structure Stores (p q : Part) : Prop where
  whole : q = { p with free := q.free, regs := q.regs, units := q.units, mem := q.mem, mctl := q.mctl, tick := q.tick, obs := q.obs, fab := q.fab,
                       twin := q.twin, power := q.power }
  fab : q.fab = { p.fab with txq := q.fab.txq, ctlOut := q.fab.ctlOut, frozenSeen := q.fab.frozenSeen }
  txq : p.fab.txq <+: q.fab.txq
  twin : q.twin = { p.twin with out := q.twin.out }
  tick : q.tick = { p.tick with cause := q.tick.cause, causes := q.tick.causes, sent := q.tick.sent, stopAfter := q.tick.stopAfter }
  unit : ∀ y, q.unit y = { p.unit y with rc := (q.unit y).rc }
  rd : ∀ j, besidesAccess j → j ≠ TIK_STATUS → j ≠ TIK_FAIL_CAUSE → q.rd j = p.rd j
  status : ∀ i < 64, i ≠ 11 → q.getB TIK_STATUS i = p.getB TIK_STATUS i

namespace Stores

theorem ofLoads {p q : Part} (h : Loads p q) : Stores p q := by
  refine ⟨by rw [h.whole], by rw [h.whole], by rw [h.whole], by rw [h.whole], by rw [h.whole], h.unit, fun j hj _ _ => h.rd j hj, fun i _ _ => ?_⟩
  exact Part.getB_congr i (h.rd _ (besidesAccess_low (by decide)))

theorem refl (p : Part) : Stores p p := ofLoads (Loads.refl p)

theorem trans {p q r : Part} (h : Stores p q) (h' : Stores q r) : Stores p r :=
  ⟨by rw [h'.whole, h.whole], by rw [h'.fab, h.fab], h.txq.trans h'.txq, by rw [h'.twin, h.twin], by rw [h'.tick, h.tick],
    fun y => by rw [h'.unit y, h.unit y], fun j hj h1 h2 => (h'.rd j hj h1 h2).trans (h.rd j hj h1 h2),
    fun i hi hn => (h'.status i hi hn).trans (h.status i hi hn)⟩

theorem ite (b : Prop) [Decidable b] {p q r : Part} (hq : Stores p q) (hr : Stores p r) : Stores p (if b then q else r) := by
  split
  · exact hq
  · exact hr

theorem each {α : Type} {f : Part → α → Part} (l : List α) (h : ∀ x p, Stores p (f p x)) (p : Part) : Stores p (p.each l f) := by
  induction l generalizing p with
  | nil => exact refl p
  | cons x l ih =>
    rw [Part.each_cons]
    exact (h x p).trans (ih _)

section
variable (p : Part)

theorem modObs (f : Obs → Obs) : Stores p (p.modObs f) :=
  ⟨rfl, rfl, List.prefix_refl _, rfl, rfl, fun _ => rfl, fun _ _ _ _ => rfl, fun _ _ _ => rfl⟩

theorem modPower (f : Power → Power) : Stores p (p.modPower f) :=
  ⟨rfl, rfl, List.prefix_refl _, rfl, rfl, fun _ => rfl, fun _ _ _ _ => rfl, fun _ _ _ => rfl⟩

theorem modTick (f : Tick → Tick) (h : f p.tick = { p.tick with
    cause := (f p.tick).cause, causes := (f p.tick).causes, sent := (f p.tick).sent, stopAfter := (f p.tick).stopAfter }) : Stores p (p.modTick f) :=
  ⟨rfl, rfl, List.prefix_refl _, rfl, h, fun _ => rfl, fun _ _ _ _ => rfl, fun _ _ _ => rfl⟩

theorem modFab (f : Fabric → Fabric) (h : f p.fab = { p.fab with ctlOut := (f p.fab).ctlOut, frozenSeen := (f p.fab).frozenSeen }) :
    Stores p (p.modFab f) :=
  ⟨rfl, by
    have ht : (f p.fab).txq = p.fab.txq := by rw [h]
    change f p.fab = { p.fab with txq := (f p.fab).txq, ctlOut := (f p.fab).ctlOut, frozenSeen := (f p.fab).frozenSeen }
    rw [ht]
    exact h, by
    change p.fab.txq <+: (f p.fab).txq
    rw [h], rfl, rfl, fun _ => rfl, fun _ _ _ _ => rfl, fun _ _ _ => rfl⟩

theorem sendPacket (d c k r poison : Nat) (bs : List Byte) : Stores p (p.sendPacket d c k r poison bs) :=
  ⟨rfl, rfl, List.prefix_append _ _, rfl, rfl, fun _ => rfl, fun _ _ _ _ => rfl, fun _ _ _ => rfl⟩

theorem modOut (f : Twin → Twin) (h : f p.twin = { p.twin with out := (f p.twin).out }) : Stores p (p.modTwin f) :=
  ⟨rfl, rfl, List.prefix_refl _, h, rfl, fun _ => rfl, fun _ _ _ _ => rfl, fun _ _ _ => rfl⟩

/-- A write of one of the registers that a failure of the frame writes. -/
theorem wrRest {o : Nat} (v : Nat) (h : ∀ j, besidesAccess j → j ≠ TIK_STATUS → j ≠ TIK_FAIL_CAUSE → o ≠ j)
    (hs : ∀ i < 64, i ≠ 11 → (p.wr o v).getB TIK_STATUS i = p.getB TIK_STATUS i) : Stores p (p.wr o v) :=
  ⟨rfl, by simp, by simp, by simp, by simp, fun y => by simp, fun j hj h1 h2 => Part.rd_wr_other _ _ (h j hj h1 h2), hs⟩

theorem stopped : Stores p (p.putB TIK_STATUS 11 true) :=
  wrRest p _ (fun _ _ h _ => h.symm) fun i hi hn => Part.getB_putB_bit p TIK_STATUS 11 i true hn.symm hi

theorem flood (e : Option Nat) (corr : Nat) (m : CtlMsg) : Stores p (p.flood e corr m) := by
  unfold Part.flood
  exact modFab p _ rfl

theorem freezeFrom (source : Nat) (e : Option Nat) (corr : Nat) : Stores p (p.freezeFrom source e corr) := by
  unfold Part.freezeFrom
  extract_lets p1 p2 p3 p4 p5 p6
  refine ite _ (refl p) ?_
  have h1 : Stores p p1 := modObs p _
  have h2 : Stores p1 p2 := ofLoads ((Loads.wr p1 (Loads.ofObs (by decide) (by decide)) _).trans
    (Loads.stick _ (Loads.ofObs (by decide) (by decide)) (Loads.ofObs (by decide) (by decide)) 7))
  have h3 : Stores p2 p3 := modPower p2 _
  have h4 : Stores p3 p4 := (flood p3 e corr .freeze).trans (modFab _ (fun f => { f with frozenSeen := true }) rfl)
  have h5 : Stores p4 p5 := ite _ (ofLoads ((Loads.wr p4 (Loads.ofObs (by decide) (by decide)) _).trans
    (Loads.wr _ (Loads.ofObs (by decide) (by decide)) _))) (refl p4)
  have h6 : Stores p5 p6 := (stopped p5).trans (modTick _ (fun t => { t with stopAfter := true }) rfl)
  exact (((((h1.trans h2).trans h3).trans h4).trans h5).trans h6).trans (ofLoads (Loads.trace p6 _ _ _ _ _ _))

theorem err (e : ErrRec) : Stores p (p.err e) := by
  unfold Part.err
  extract_lets same seq r p1 p2 p3 lvl
  refine ite _ (modObs p _) (ite _ (ofLoads ((Loads.bump p (Loads.ofObs (by decide) (by decide)) 1).trans
    (Loads.stick _ (Loads.ofObs (by decide) (by decide)) (Loads.ofObs (by decide) (by decide)) 5))) ?_)
  have h1 : Stores p p1 := modObs p _
  have h2 : Stores p1 p2 := ofLoads ((Loads.wr p1 (Loads.ofObs (by decide) (by decide)) seq).trans (Loads.bump _ (Loads.ofObs (by decide) (by decide)) 1))
  have h3 : Stores p2 p3 := ofLoads (Loads.trace p2 _ _ _ _ _ _)
  exact ((h1.trans h2).trans h3).trans (ite _ (freezeFrom p3 3 none 0) (refl p3))

theorem sendStatus (b : Bool) (c : Nat) : Stores p (p.sendStatus b c) :=
  (each _ (fun d q => sendPacket q d 3 4 0 0 _) p).trans (modTick _ (fun t => { t with sent := if b then 1 else 2 }) rfl)

theorem failCause (c : Nat) : Stores p (p.failCause c) := by
  unfold Part.failCause
  extract_lets first p1 p2 p3
  have h1 : Stores p p1 := modTick p (fun t =>
    { t with cause := if t.cause = 0 then c else t.cause, causes := spSet 0 t.causes c (spGet 0 t.causes c + 1) }) rfl
  have h2 : Stores p1 p2 := err p1 _
  have h3 : Stores p2 p3 := wrRest p2 _ (fun _ _ _ h => h.symm) fun i _ _ => Part.getB_congr i (Part.rd_wr_other _ _ (by decide))
  exact (h1.trans h2).trans (ite _ (h3.trans (ite _ (refl p3) (sendStatus p3 false c))) (refl p2))

theorem putJournal (s n : Nat) (e : JEntry) : Loads p (p.putJournal s n e) := by
  unfold Part.putJournal
  dsimp only
  exact (Loads.putHbm p _ _ none).trans (Loads.putHbm _ _ _ _)

theorem journalLine (g k a : Nat) : Stores p (p.journalLine g k a).2 := by
  unfold Part.journalLine
  extract_lets h s c filter n
  split
  · exact refl p
  split
  · exact refl p
  split
  · exact refl p
  split
  · exact (ofLoads (Loads.stick p (Loads.ofCtl s 0x540008 (by decide) (by decide)) (Loads.ofCtl s 0x54000C (by decide) (by decide)) 5)).trans (failCause _ 9)
  have h1 := Loads.readLine p 1 g k a
  obtain ⟨r, hr⟩ : ∃ r, r = p.readLine 1 g k a := ⟨_, rfl⟩
  rw [← hr] at h1 ⊢
  obtain ⟨⟨old, poison⟩, q⟩ := r
  dsimp only at h1 ⊢
  refine ofLoads ((((h1.trans (Loads.setCtl q s _)).trans (putJournal _ s n ⟨a, old, poison.isSome⟩)).trans
    (Loads.wr _ (Loads.ofCtl s 0x540028 (by decide) (by decide)) (n + 1))).trans (Loads.bump _ (Loads.ofCtl s 0x540090 (by decide) (by decide)) 1))

theorem rawLine (a : Nat) (bs : List Byte) (t : Option Nat) : Stores p (p.rawLine a bs t) := ite _ (modOut p _ rfl) (refl p)

theorem writeLine (g k a : Nat) (bs : List Byte) (t : Option Nat) : Stores p (p.writeLine g k a bs t) := by
  unfold Part.writeLine
  dsimp only
  have h := journalLine p g k a
  split
  · exact h
  · exact ((h.trans (ofLoads (Loads.putHbm _ a bs t))).trans (rawLine _ a bs t)).trans (modObs _ _)

theorem writeInLine (g k a : Nat) (bs : List Byte) (t : Option Nat) : Stores p (p.writeInLine g k a bs t) := by
  unfold Part.writeInLine Part.writePart
  dsimp only
  refine ite _ (writeLine p g k a bs t) ?_
  have h := ofLoads (Loads.readLine p 1 g k (a / 64 * 64))
  split
  · exact h
  · exact h.trans (writeLine _ g k _ _ t)

theorem writeGran (a : Nat) (bs : List Byte) (t : Option Nat) : Stores p (p.writeGran a bs t) := by
  unfold Part.writeGran
  dsimp only
  refine ite _ (refl p) ?_
  cases t <;> exact ofLoads ⟨rfl, fun _ => rfl, rfl, fun _ _ => rfl⟩

theorem storeLoop (fuel g k a : Nat) (bs : List Byte) (t : Option Nat) : Stores p (Part.storeLoop fuel p g k a bs t) := by
  induction fuel generalizing p a bs with
  | zero => exact refl p
  | succ fuel ih =>
    unfold Part.storeLoop
    dsimp only
    exact ite _ (refl p) ((ite _ (writeInLine p g k a _ t) (writeGran p a _ t)).trans (ih _ _ _))

theorem store (g k a : Nat) (bs : List Byte) (t : Option Nat) : Stores p (p.store g k a bs t) := storeLoop p _ g k a bs t

theorem storeGrans (fuel g k a : Nat) (gs : List (List Byte × Option Nat)) : Stores p (Part.storeGrans fuel p g k a gs) := by
  induction fuel generalizing p a gs with
  | zero => exact refl p
  | succ fuel ih =>
    unfold Part.storeGrans
    cases gs with
    | nil => exact refl p
    | cons x r =>
      dsimp only
      split
      · cases r with
        | nil => exact writeInLine p g k a _ _
        | cons y r => exact (writeInLine p g k a _ _).trans (ih _ _ _)
      · exact ite _ ((writeInLine p g k a _ _).trans (ih _ _ _)) ((writeGran p a _ _).trans (ih _ _ _))

theorem putGrans (g k a : Nat) (gs : List (List Byte × Option Nat)) : Stores p (p.putGrans g k a gs) := storeGrans p _ g k a gs

end

end Stores

end Sys2Proof.Machine
end

section
/-!
PROOF. The twin mirrors and restores (O37), first part: the end marker and its answer, loss declarations and the start of a restore.
-/
namespace Sys2Proof.Machine

section
variable {s : State} {k : Packet}

/-- An end marker behind records that are here and whose counts agree is acknowledged (R377). -/
theorem twinEndMarker_acknowledges (hk : (s.p.fab.rx.find? fun q => q.cls == 5 && q.kind == 2) = some k) (hm : s.p.mirrors = true)
    (hr : k.ref = s.p.twin.rxNext % 2 ^ 20) (h1 : leAt k.payload 0 8 = s.p.twin.rxRecs) (h2 : leAt k.payload 8 8 = s.p.twin.rxBytes) :
    Becomes .twinEndMarker s ((s.p.takeRx k).sendPacket (s.p.getF TWN_CTRL 16 16) 5 3 k.ref 0 []) := by
  change execTwinEndMarker s = _
  unfold execTwinEndMarker State.run
  dsimp only
  rw [hk]
  dsimp only
  rw [hm, Bool.not_true, if_neg (by decide), if_pos ⟨hr, h1, h2⟩]

/-- The answer to an end marker that does not agree with the records taken: a gap (R377). -/
def Part.gapAnswer (p : Part) (k : Packet) : Part :=
  ((p.takeRx k).sendPacket (p.getF TWN_CTRL 16 16) 5 4 k.ref 0 []).noteErr TWN_STICKY 2
    { mkErr 10 2 0 with loc0 := k.ref, loc1 := p.twin.rxNext }

theorem Part.gapAnswer_keeps (p : Part) (k : Packet) :
    (p.gapAnswer k).mem = p.mem ∧ (p.gapAnswer k).cores = p.cores ∧ (p.gapAnswer k).fab.rx = p.fab.rx.erase k ∧
    (⟨0, p.chip, p.getF TWN_CTRL 16 16, p.epoch, 5, 0, 4, k.ref, 0, []⟩ : Packet) ∈ (p.gapAnswer k).fab.txq ∧
    (p.gapAnswer k).getB TWN_STICKY 2 = true := by
  unfold Part.gapAnswer
  refine ⟨by simp, by simp, by simp only [Part.noteErr_fabFields]; rfl, ?_,
    Part.noteErr_sticks _ _ _ _ (by decide) (by decide) (by decide)⟩
  simp only [Part.noteErr_fabFields]
  exact (List.mem_append_right _ List.mem_cons_self)

theorem twinEndMarker_gap (hk : (s.p.fab.rx.find? fun q => q.cls == 5 && q.kind == 2) = some k) (hm : s.p.mirrors = true)
    (h : ¬ (k.ref = s.p.twin.rxNext % 2 ^ 20 ∧ leAt k.payload 0 8 = s.p.twin.rxRecs ∧ leAt k.payload 8 8 = s.p.twin.rxBytes))
    (h' : ¬ (k.ref ≠ s.p.twin.rxNext % 2 ^ 20 ∧ (s.p.twinPacket s.p.twin.rxNext).isSome = true)) :
    Becomes .twinEndMarker s (s.p.gapAnswer k) := by
  change execTwinEndMarker s = _
  unfold execTwinEndMarker State.run
  dsimp only
  rw [hk]
  dsimp only
  rw [hm, Bool.not_true, if_neg (by decide), if_neg h, if_neg h']
  rfl

/-- An end marker ahead of a record that is here waits for it. -/
theorem twinEndMarker_waits (hk : (s.p.fab.rx.find? fun q => q.cls == 5 && q.kind == 2) = some k) (hm : s.p.mirrors = true)
    (hr : k.ref ≠ s.p.twin.rxNext % 2 ^ 20) (hn : s.p.twinPacket s.p.twin.rxNext ≠ none) : Becomes .twinEndMarker s s.p := by
  change execTwinEndMarker s = _
  unfold execTwinEndMarker State.run
  dsimp only
  rw [hk]
  dsimp only
  rw [hm, Bool.not_true, if_neg (by decide), if_neg (fun h => hr h.1), if_pos ⟨hr, Option.isSome_iff_ne_none.2 hn⟩]

/-- The twin's answer decides the frame (R377). -/
theorem twinAckReceive_decides (hk : (s.p.fab.rx.find? fun q => q.cls == 5 && (q.kind == 3 || q.kind == 4)) = some k) (hl : s.p.live = true)
    (he : s.p.twin.endSent = true) :
    ∃ q, Becomes .twinAckReceive s q ∧ q.mem = s.p.mem ∧ q.cores = s.p.cores ∧ q.fab.rx = s.p.fab.rx.erase k ∧
      (k.kind = 3 → q.twin.ack = 1 ∧ q.tick = s.p.tick) ∧ (k.kind ≠ 3 → q.twin.ack = 2 ∧ q.tick.cause ≠ 0) := by
  have hq : Becomes .twinAckReceive s (if k.kind = 3
      then (s.p.takeRx k).modTwin (fun t => { t with ack := if k.kind = 3 then 1 else 2 })
      else ((s.p.takeRx k).modTwin fun t => { t with ack := if k.kind = 3 then 1 else 2 }).noAck) := by
    change execTwinAckReceive s = _
    unfold execTwinAckReceive State.run
    dsimp only
    rw [hk]
    dsimp only
    rw [hl, he, Bool.not_true, Bool.or_self, if_neg (by decide)]
  refine ⟨_, hq, ?_⟩
  by_cases h : k.kind = 3
  · rw [if_pos h, if_pos h]
    exact ⟨rfl, rfl, rfl, fun _ => ⟨rfl, rfl⟩, fun hn => absurd h hn⟩
  · rw [if_neg h, if_neg h]
    obtain ⟨w, hw⟩ : ∃ w, w = (s.p.takeRx k).modTwin fun t => { t with ack := 2 } := ⟨_, rfl⟩
    rw [← hw]
    unfold Part.noAck
    have hf := (Stores.failCause ((w.bump TWN_STAT_NOACK 1).stick TWN_STICKY 1) 8).fab
    refine ⟨by simp [hw], by simp [hw], by rw [hf, hw]; simp [Part.takeRx], fun hn => absurd hn h, fun _ => ⟨by simp [hw], ?_⟩⟩
    rw [Part.failCause_cause]
    split
    · decide
    · assumption

/-- A loss declaration (R380, R381). -/
theorem lossDeclarationReceive_records (hk : (s.p.fab.rx.find? fun q => q.cls == 3 && q.kind == 10) = some k) :
    ∃ q, Becomes .lossDeclarationReceive s q ∧ q.mem = s.p.mem ∧ q.cores = s.p.cores ∧ q.fab.rx = s.p.fab.rx.erase k ∧
      q.getB TIK_STATUS 11 = true ∧ q.getF TWN_STATUS 15 17 = 2 * leAt k.payload 0 2 + 1 ∧
      (s.p.getB TWN_CTRL 0 = true → s.p.getF TWN_CTRL 16 16 = leAt k.payload 0 2 → q.getF TWN_STATUS 0 3 = 2) := by
  obtain ⟨x, hx⟩ : ∃ x, x = leAt k.payload 0 2 := ⟨_, rfl⟩
  obtain ⟨w, hw⟩ : ∃ w, w = (s.p.takeRx k).noteErr TWN_STICKY 0 { mkErr 10 0 0 with loc0 := x } := ⟨_, rfl⟩
  obtain ⟨v, hv⟩ : ∃ v, v = (w.putF TWN_STATUS 15 17 (2 * x + 1)).putB TIK_STATUS 11 true := ⟨_, rfl⟩
  have hq : Becomes .lossDeclarationReceive s (if v.getB TWN_CTRL 0 && v.getF TWN_CTRL 16 16 == x then v.putF TWN_STATUS 0 3 2 else v) := by
    change execLossDeclarationReceive s = _
    unfold execLossDeclarationReceive State.run
    dsimp only
    rw [hk]
    dsimp only
    rw [hv, hw, hx]
  have hlt : 2 * x + 1 < 2 ^ 17 := by
    have := leAt_lt k.payload 0 2
    omega
  have hc : v.rd TWN_CTRL = s.p.rd TWN_CTRL := by
    rw [hv, Part.rd_putB_other _ _ _ (by decide), Part.rd_putF_other _ _ _ _ (by decide), hw,
      Part.rd_noteErr_besides (besidesRecords_hub (by decide) (by decide)) _ _ _ _ (by decide) (by decide)]
    rfl
  have hf : v.getF TWN_STATUS 15 17 = 2 * x + 1 := by
    rw [hv, Part.getF_congr _ _ (Part.rd_putB_other _ _ _ (by decide)), Part.getF_putF_same _ _ _ _ _ (by decide), Nat.mod_eq_of_lt hlt]
  have hb : v.getB TIK_STATUS 11 = true := by rw [hv, Part.getB_putB_same _ _ _ _ (by decide)]
  have hm : v.mem = s.p.mem ∧ v.cores = s.p.cores := by
    rw [hv, hw]
    simp
  have hr : v.fab.rx = s.p.fab.rx.erase k := by
    rw [hv, hw]
    simp [Part.takeRx]
  rw [← hx]
  refine ⟨_, hq, ?_⟩
  split
  · exact ⟨by simp [hm], by simp [hm], by simp [hr], (Part.getB_congr _ (Part.rd_putF_other _ _ _ _ (by decide))).trans hb,
      (Part.getF_putF_field _ _ _ _ _ _ _ (.inr (by decide)) (by decide)).trans hf, fun _ _ => Part.getF_putF_same _ _ _ _ _ (by decide)⟩
  · rename_i h
    refine ⟨hm.1, hm.2, hr, hb, hf, fun h1 h2 => absurd ?_ h⟩
    rw [Part.getB_congr _ hc, Part.getF_congr _ _ hc, h1, h2]
    simp

/-- A spare asks its twin for the windows (R382). -/
theorem twinRestore_asks (hc : s.p.getB TWN_CTRL 0 = true) (hh : s.p.running = false ∨ s.p.getB TIK_STATUS 11 = true)
    (hn : s.p.twin.restoring = false) (hb : s.p.bundleUp 8 = true) :
    Becomes .twinRestore s (((s.p.sendPacket (s.p.getF TWN_CTRL 16 16) 5 5 0 0 s.p.winBytes).putF TWN_STATUS 0 3 4).modTwin
      fun t => { t with restoring := true }) := by
  have hh' : (s.p.running && !s.p.getB TIK_STATUS 11) = false := by
    rcases hh with h | h <;> simp [h]
  change execTwinRestore s = _
  unfold execTwinRestore State.run Part.restoreStart
  rw [hc, hh', hn, hb, Bool.not_true, Bool.or_self, Bool.or_self, if_neg (by decide), if_neg (by decide)]

theorem Part.restoreFail_keeps (p : Part) :
    p.restoreFail.mem = p.mem ∧ p.restoreFail.cores = p.cores ∧ p.restoreFail.twin.restoring = false ∧ p.restoreFail.fab.rx = p.fab.rx ∧
    p.restoreFail.fab.txq = p.fab.txq ∧ p.restoreFail.getB TWN_STICKY 3 = true := by
  unfold Part.restoreFail
  exact ⟨by simp, by simp, by simp, by simp, by simp, Part.noteErr_sticks _ _ _ _ (by decide) (by decide) (by decide)⟩

/-- A restore without a bundle to the twin fails (R382). -/
theorem twinRestore_fails (hc : s.p.getB TWN_CTRL 0 = true) (hh : s.p.running = false ∨ s.p.getB TIK_STATUS 11 = true)
    (hn : s.p.twin.restoring = false) (hb : s.p.bundleUp 8 = false) : Becomes .twinRestore s s.p.restoreFail := by
  have hh' : (s.p.running && !s.p.getB TIK_STATUS 11) = false := by
    rcases hh with h | h <;> simp [h]
  change execTwinRestore s = _
  unfold execTwinRestore State.run Part.restoreStart
  rw [hc, hh', hn, hb, Bool.not_true, Bool.or_self, Bool.or_self, if_neg (by decide), Bool.not_false, if_pos rfl]

/-- Windows that are not those the twin holds are refused (R382). -/
theorem twinRestorePull_refuses (hk : (s.p.fab.rx.find? fun q => q.cls == 5 && q.kind == 5) = some k) (hs : s.p.getF TWN_STATUS 0 3 = 2)
    (hw : readWins k.payload ≠ s.p.twin.partner) :
    Becomes .twinRestorePull s ((s.p.takeRx k).sendPacket (s.p.getF TWN_CTRL 16 16) 5 7 0 0 (leBytes 32 0)).restoreFail := by
  have hw' : readWins k.payload ≠ (s.p.takeRx k).twin.partner := hw
  change execTwinRestorePull s = _
  unfold execTwinRestorePull State.run
  dsimp only
  rw [hk]
  dsimp only
  rw [hs, if_neg (by decide), if_pos hw']
  rfl

/-- What a twin that grants a restore has become once the windows went out. -/
def Part.windowsSent (p : Part) (k : Packet) : Part :=
  let p := p.takeRx k
  let ws := readWins k.payload
  let mine := readWins p.winBytes
  let p := p.putF TWN_STATUS 0 3 3
  let p := p.each ws fun p w => p.sendLines w.mirror w.base w.granules
  p.each mine fun p w => p.sendLines w.base w.mirror w.granules

/-- Lines that the twin returns. -/
def Part.windowLines (p : Part) (k : Packet) : Nat :=
  ((readWins k.payload ++ readWins (p.takeRx k).winBytes).map fun w => 64 * w.granules).foldl (· + ·) 0

/-- A twin grants a restore of the windows that it holds (R382). -/
theorem twinRestorePull_grants (hk : (s.p.fab.rx.find? fun q => q.cls == 5 && q.kind == 5) = some k) (hs : s.p.getF TWN_STATUS 0 3 = 2)
    (hw : readWins k.payload = s.p.twin.partner) :
    Becomes .twinRestorePull s ((s.p.windowsSent k).sendPacket ((s.p.windowsSent k).getF TWN_CTRL 16 16) 5 7 0 0
      (pad32 ((s.p.windowsSent k).restoreState (s.p.windowLines k)))) := by
  have hw' : ¬ readWins k.payload ≠ (s.p.takeRx k).twin.partner := fun h => h hw
  change execTwinRestorePull s = _
  unfold execTwinRestorePull State.run
  dsimp only
  rw [hk]
  dsimp only
  rw [hs, if_neg (by decide), if_neg hw']
  rfl

section
variable (p : Part)

/-- Reads of memory one after the other, whose results a list gathers. -/
theorem Loads.foldl {α β : Type} (f : β × Part → α → β × Part) (h : ∀ b p x, Loads p (f (b, p) x).2) (l : List α) (b : β) (p : Part) :
    Loads p (l.foldl f (b, p)).2 := by
  induction l generalizing b p with
  | nil => exact Loads.refl p
  | cons x l ih => exact (h b p x).trans (ih _ _)

/-- One line read for a restore. -/
def restoreRead (src dst : Nat) (q : List TwinRec × Part) (i : Nat) : List TwinRec × Part :=
  let r := q.2.readLine 1 9 0 (src + 64 * i)
  (q.1 ++ [⟨1, leBytes 8 (dst + 64 * i) ++ r.1.1, b2n r.1.2.isSome⟩], r.2)

theorem Part.sendLines_eq (src dst n : Nat) :
    p.sendLines src dst n =
      let r := (List.range (64 * n)).foldl (restoreRead src dst) ([], p)
      (r.2.each (packLines r.1.length r.1) fun p x => p.sendPacket (p.getF TWN_CTRL 16 16) 5 6 0 x.1 (pad32 x.2)).bump TWN_STAT_RESTORE
        (64 * r.1.length) := rfl

/-- What the sending of lines for a restore leaves. -/
def Part.restoreView (p : Part) : Sparse Core × List Packet × Nat × Nat := (p.cores, p.fab.rx, p.rd TWN_CTRL, p.rd TWN_STATUS)

theorem Stores.restoreView {p q : Part} (h : Stores p q) : q.restoreView = p.restoreView := by
  unfold Part.restoreView
  rw [h.rd TWN_CTRL (besidesAccess_low (by decide)) (by decide) (by decide), h.rd TWN_STATUS (besidesAccess_low (by decide)) (by decide) (by decide),
    h.fab, h.whole]

theorem Part.sendLines_view (src dst n : Nat) : (p.sendLines src dst n).restoreView = p.restoreView := by
  rw [Part.sendLines_eq]
  have h := Loads.foldl (restoreRead src dst) (fun _ w i => Loads.readLine w 1 9 0 (src + 64 * i)) (List.range (64 * n)) [] p
  obtain ⟨r, hr⟩ : ∃ r, r = (List.range (64 * n)).foldl (restoreRead src dst) ([], p) := ⟨_, rfl⟩
  rw [← hr] at h ⊢
  have h' := (Stores.ofLoads h).trans (Stores.each (packLines r.1.length r.1)
    (fun (x : Nat × List Byte) v => Stores.sendPacket v (v.getF TWN_CTRL 16 16) 5 6 0 x.1 (pad32 x.2)) r.2)
  rw [← h'.restoreView]
  unfold Part.restoreView
  dsimp only
  rw [Part.rd_bump_other _ _ (by decide), Part.rd_bump_other _ _ (by decide)]
  simp

theorem Part.windowsSent_view (k : Packet) : (p.windowsSent k).restoreView = ((p.takeRx k).putF TWN_STATUS 0 3 3).restoreView := by
  unfold Part.windowsSent
  dsimp only
  rw [Part.each_get Part.restoreView (fun p (w : MirWin) => p.sendLines w.base w.mirror w.granules) _ _ fun q w => Part.sendLines_view q _ _ _,
    Part.each_get Part.restoreView (fun p (w : MirWin) => p.sendLines w.mirror w.base w.granules) _ _ fun q w => Part.sendLines_view q _ _ _]

end

/-- The twin's part of a restore: a grant, or a refusal (R382). -/
theorem twinRestorePull_answers (hk : (s.p.fab.rx.find? fun q => q.cls == 5 && q.kind == 5) = some k) (hs : s.p.getF TWN_STATUS 0 3 = 2) :
    ∃ q a, Becomes .twinRestorePull s q ∧ q.cores = s.p.cores ∧ q.fab.rx = s.p.fab.rx.erase k ∧ a ∈ q.fab.txq ∧
      a.dst = s.p.getF TWN_CTRL 16 16 ∧ a.cls = 5 ∧ a.kind = 7 ∧
      (readWins k.payload = s.p.twin.partner → q.getF TWN_STATUS 0 3 = 3) ∧
      (readWins k.payload ≠ s.p.twin.partner → q.mem = s.p.mem ∧ a.payload = leBytes 32 0 ∧ q.getB TWN_STICKY 3 = true) := by
  by_cases hw : readWins k.payload = s.p.twin.partner
  · have hq := twinRestorePull_grants hk hs hw
    have h := Part.windowsSent_view s.p k
    obtain ⟨w, hv⟩ : ∃ w, w = s.p.windowsSent k := ⟨_, rfl⟩
    rw [← hv] at hq h
    obtain ⟨h1, h2, h3, h4⟩ : w.cores = ((s.p.takeRx k).putF TWN_STATUS 0 3 3).cores ∧ w.fab.rx = ((s.p.takeRx k).putF TWN_STATUS 0 3 3).fab.rx ∧
        w.rd TWN_CTRL = ((s.p.takeRx k).putF TWN_STATUS 0 3 3).rd TWN_CTRL ∧
        w.rd TWN_STATUS = ((s.p.takeRx k).putF TWN_STATUS 0 3 3).rd TWN_STATUS := by
      simpa only [Part.restoreView, Prod.mk.injEq] using h
    have hc : w.getF TWN_CTRL 16 16 = s.p.getF TWN_CTRL 16 16 := Part.getF_congr _ _ <|
      h3.trans (Part.rd_putF_other _ _ _ _ (by decide))
    have hst : w.getF TWN_STATUS 0 3 = 3 :=
      (Part.getF_congr _ _ h4).trans (Part.getF_putF_same _ _ _ _ _ (by decide))
    refine ⟨_, _, hq, ?_, ?_, List.mem_append_right _ List.mem_cons_self, hc, rfl, rfl, fun _ => ?_, fun hn => absurd hw hn⟩
    · exact h1.trans (by simp)
    · exact h2.trans (by simp [Part.takeRx])
    · exact (Part.getF_congr _ _ rfl).trans hst
  · obtain ⟨w, hv⟩ : ∃ w, w = (s.p.takeRx k).sendPacket (s.p.getF TWN_CTRL 16 16) 5 7 0 0 (leBytes 32 0) := ⟨_, rfl⟩
    have hq := twinRestorePull_refuses hk hs hw
    obtain ⟨h1, h2, -, h3, h4, h5⟩ := Part.restoreFail_keeps w
    rw [hv] at h1 h2 h3 h4 h5
    refine ⟨_, (⟨0, s.p.chip, s.p.getF TWN_CTRL 16 16, s.p.epoch, 5, 0, 7, 0, 0, leBytes 32 0⟩ : Packet), hq, h2, h3, ?_, rfl, rfl, rfl, fun h => absurd h hw, fun _ => ⟨h1, rfl, h5⟩⟩
    rw [h4]
    exact List.mem_append_right _ List.mem_cons_self

end

end Sys2Proof.Machine
end

section
/-!
PROOF. The twin mirrors and restores (O37), second part: the end of a restore, and the lines and jobs of the partner.
-/
namespace Sys2Proof.Machine

/-- An `each` whose steps leave a view of the part, each for the members of its list. -/
theorem Part.each_get_mem {α β : Type} (get : Part → β) (f : Part → α → Part) (l : List α) (p : Part)
    (h : ∀ x ∈ l, ∀ p, get (f p x) = get p) : get (p.each l f) = get p := by
  induction l generalizing p with
  | nil => rfl
  | cons x l ih =>
    rw [Part.each_cons, ih _ fun y hy => h y (List.mem_cons_of_mem _ hy), h x List.mem_cons_self]

/-- The part of a twin's state that goes to one sector (R382). -/
def Part.takeSector (bs : List Byte) (p : Part) (s : Nat) : Part :=
  let p := p.wr (SCH_ST_BASE s) (leAt bs 32 8)
  let p := p.each (List.range 8) fun p n =>
    ((p.wr (OPT_PPOW1 s n) (leAt bs (40 + 16 * n) 4)).wr (OPT_PPOW2 s n) (leAt bs (44 + 16 * n) 4)).wr (OPT_PSTEP s n)
      (leAt bs (48 + 16 * n) 8)
  p.each (List.range 256) fun p t => p.putF (TBL_TPEND s t) 63 1 (leAt bs (168 + t) 1)

section
variable (bs : List Byte) (p : Part)

theorem Part.takeState_eq : p.takeState bs =
    ((((p.wr TIK_COUNT (leAt bs 8 8)).wr TIK_FRAME_NO (leAt bs 16 8)).wr TIK_SEASON_POS (leAt bs 24 4)).wr TIK_VINTAGE (leAt bs 28 4)).each
      sectors (Part.takeSector bs) := rfl

/-- A register that the state of a sector does not hold. -/
theorem Part.rd_takeSector (s : Nat) {j : Nat} (h : SCH_ST_BASE s ≠ j) (h1 : ∀ n < 8, OPT_PPOW1 s n ≠ j) (h2 : ∀ n < 8, OPT_PPOW2 s n ≠ j)
    (h3 : ∀ n < 8, OPT_PSTEP s n ≠ j) (ht : ∀ t < 256, TBL_TPEND s t ≠ j) : (p.takeSector bs s).rd j = p.rd j := by
  unfold Part.takeSector
  dsimp only
  rw [Part.each_get_mem (fun p => p.rd j), Part.each_get_mem (fun p => p.rd j), Part.rd_wr_other _ _ h]
  · intro n hn w
    rw [List.mem_range] at hn
    rw [Part.rd_wr_other _ _ (h3 n hn), Part.rd_wr_other _ _ (h2 n hn), Part.rd_wr_other _ _ (h1 n hn)]
  · intro t h w
    exact Part.rd_putF_other _ _ _ _ (ht t (List.mem_range.1 h))

theorem Part.rd_takeSector_hub (s : Nat) {j : Nat} (h : j < 0x2000000) : (p.takeSector bs s).rd j = p.rd j := by
  apply Part.rd_takeSector
  all_goals intros; simp only [SCH_ST_BASE, OPT_PPOW1, OPT_PPOW2, OPT_PSTEP, TBL_TPEND, secBase]; omega

theorem Part.rd_takeSector_base (s : Nat) {y : Nat} (h : s ≠ y) : (p.takeSector bs s).rd (SCH_ST_BASE y) = p.rd (SCH_ST_BASE y) := by
  apply Part.rd_takeSector
  all_goals intros; simp only [SCH_ST_BASE, OPT_PPOW1, OPT_PPOW2, OPT_PSTEP, TBL_TPEND, secBase]; omega

theorem Part.rd_takeSector_same (s : Nat) : (p.takeSector bs s).rd (SCH_ST_BASE s) = leAt bs 32 8 := by
  have hb : ∀ w : Part, (w.each (List.range 8) fun p n =>
      ((p.wr (OPT_PPOW1 s n) (leAt bs (40 + 16 * n) 4)).wr (OPT_PPOW2 s n) (leAt bs (44 + 16 * n) 4)).wr (OPT_PSTEP s n)
        (leAt bs (48 + 16 * n) 8)).rd (SCH_ST_BASE s) = w.rd (SCH_ST_BASE s) := fun w => by
    apply Part.each_get_mem (fun p => p.rd (SCH_ST_BASE s))
    intro n _ v
    rw [Part.rd_wr_other _ _ ?_, Part.rd_wr_other _ _ ?_, Part.rd_wr_other _ _ ?_]
    all_goals simp only [SCH_ST_BASE, OPT_PPOW1, OPT_PPOW2, OPT_PSTEP, secBase]; omega
  unfold Part.takeSector
  dsimp only
  rw [Part.each_get_mem (fun p => p.rd (SCH_ST_BASE s)), hb, Part.rd_wr_same, Nat.mod_eq_of_lt (lt_of_lt_of_le (leAt_lt bs 32 8) (by decide))]
  intro t ht v
  refine Part.rd_putF_other _ _ _ _ ?_
  simp only [SCH_ST_BASE, TBL_TPEND, secBase]
  omega

/-- The base time of a sector, once the sectors of a list have taken theirs. -/
theorem Part.rd_takeSectors (l : List Nat) (y : Nat) :
    (p.each l (Part.takeSector bs)).rd (SCH_ST_BASE y) = if y ∈ l then leAt bs 32 8 else p.rd (SCH_ST_BASE y) := by
  induction l generalizing p with
  | nil => rfl
  | cons x l ih =>
    rw [Part.each_cons, ih]
    by_cases hy : y ∈ l
    · rw [if_pos hy, if_pos (List.mem_cons_of_mem _ hy)]
    rw [if_neg hy]
    by_cases hx : x = y
    · subst hx
      rw [if_pos List.mem_cons_self, Part.rd_takeSector_same]
    · rw [if_neg (fun h => (List.mem_cons.1 h).elim (fun e => hx e.symm) hy), Part.rd_takeSector_base _ _ _ hx]

theorem Part.rd_takeState_base {y : Nat} (h : y < 4) : (p.takeState bs).rd (SCH_ST_BASE y) = leAt bs 32 8 := by
  rw [Part.takeState_eq, Part.rd_takeSectors, if_pos]
  unfold sectors
  simp
  omega

theorem Part.rd_takeState_hub {j : Nat} (h : j < 0x2000000) : (p.takeState bs).rd j =
    ((((p.wr TIK_COUNT (leAt bs 8 8)).wr TIK_FRAME_NO (leAt bs 16 8)).wr TIK_SEASON_POS (leAt bs 24 4)).wr TIK_VINTAGE (leAt bs 28 4)).rd j := by
  rw [Part.takeState_eq, Part.each_get (fun p => p.rd j) _ _ _ fun w s => Part.rd_takeSector_hub bs w s h]

theorem Part.takeState_takes : (p.takeState bs).rd TIK_COUNT = leAt bs 8 8 ∧ (p.takeState bs).rd TIK_FRAME_NO = leAt bs 16 8 ∧
    (p.takeState bs).rd TIK_SEASON_POS = leAt bs 24 4 ∧ (p.takeState bs).rd TIK_VINTAGE = leAt bs 28 4 := by
  refine ⟨?_, ?_, ?_, ?_⟩ <;> rw [Part.rd_takeState_hub _ _ (by decide)]
  · rw [Part.rd_wr_other _ _ (by decide), Part.rd_wr_other _ _ (by decide), Part.rd_wr_other _ _ (by decide), Part.rd_wr_same,
      Nat.mod_eq_of_lt (lt_of_lt_of_le (leAt_lt bs 8 8) (by decide))]
  · rw [Part.rd_wr_other _ _ (by decide), Part.rd_wr_other _ _ (by decide), Part.rd_wr_same, Nat.mod_eq_of_lt (lt_of_lt_of_le (leAt_lt bs 16 8) (by decide))]
  · rw [Part.rd_wr_other _ _ (by decide), Part.rd_wr_same, Nat.mod_eq_of_lt (lt_of_lt_of_le (leAt_lt bs 24 4) (by decide))]
  · rw [Part.rd_wr_same, Nat.mod_eq_of_lt (lt_of_lt_of_le (leAt_lt bs 28 4) (by decide))]

theorem Part.takeState_cores : (p.takeState bs).cores = p.cores := by
  rw [Part.takeState_eq, Part.each_get (fun p => p.cores)]
  · simp
  · intro w s
    unfold Part.takeSector
    dsimp only
    rw [Part.each_get (fun p => p.cores) _ _ _ fun w s => by simp, Part.each_get (fun p => p.cores) _ _ _ fun w s => by simp]
    simp

end

section
variable {s : State} {k : Packet}

/-- The twin that granted a restore is done with it (R382). -/
theorem twinRestoreDone_ends (hk : (s.p.fab.rx.find? fun q => q.cls == 5 && q.kind == 7) = some k) (hs : s.p.getF TWN_STATUS 0 3 = 3) :
    Becomes .twinRestoreDone s ((s.p.takeRx k).putF TWN_STATUS 0 3 1) := by
  change execTwinRestoreDone s = _
  unfold execTwinRestoreDone State.run
  dsimp only
  rw [hk]
  dsimp only
  rw [if_pos hs]

theorem twinRestoreDone_fails (hk : (s.p.fab.rx.find? fun q => q.cls == 5 && q.kind == 7) = some k) (hs : s.p.getF TWN_STATUS 0 3 ≠ 3)
    (hr : s.p.twin.restoring = true) (h0 : leAt k.payload 0 4 = 0) : Becomes .twinRestoreDone s (s.p.takeRx k).restoreFail := by
  change execTwinRestoreDone s = _
  unfold execTwinRestoreDone State.run
  dsimp only
  rw [hk]
  dsimp only
  rw [if_neg hs, hr, Bool.not_true, if_neg (by decide), if_pos h0]

/-- The part at which the lines of a restore are written. -/
def Part.linesTaken (p : Part) (k : Packet) : Part :=
  let qs := p.fab.rx.filter fun q => q.cls == 5 && q.kind == 6
  let ls := qs.flatMap unpackLines
  let p := p.each (k :: qs) fun p q => p.takeRx q
  let p := p.each ls fun p l => p.putHbm l.1 l.2.1 l.2.2
  p.bump TWN_STAT_RESTORE (64 * ls.length)

/-- The spare goes on from its twin's state (R382). -/
theorem twinRestoreDone_takes (hk : (s.p.fab.rx.find? fun q => q.cls == 5 && q.kind == 7) = some k) (hs : s.p.getF TWN_STATUS 0 3 ≠ 3)
    (hr : s.p.twin.restoring = true) (h0 : leAt k.payload 0 4 ≠ 0)
    (hl : leAt k.payload 4 4 ≤ ((s.p.fab.rx.filter fun q => q.cls == 5 && q.kind == 6).flatMap unpackLines).length) :
    let p := (((s.p.linesTaken k).takeState k.payload).putF TWN_STATUS 0 3 1).modTwin fun t => { t with restoring := false }
    Becomes .twinRestoreDone s (p.sendPacket (p.getF TWN_CTRL 16 16) 5 7 0 0 (leBytes 32 1)) := by
  change execTwinRestoreDone s = _
  unfold execTwinRestoreDone State.run
  dsimp only
  rw [hk]
  dsimp only
  rw [if_neg hs, hr, Bool.not_true, if_neg (by decide), if_neg h0, if_neg (Nat.not_lt.2 hl)]
  rfl

theorem Part.linesTaken_cores (p : Part) (k : Packet) : (p.linesTaken k).cores = p.cores := by
  unfold Part.linesTaken
  dsimp only
  rw [(Part.bump_keeps ..).2.2.2.1, Part.each_get (fun p => p.cores) _ _ _ fun w l => by simp, Part.each_get (fun p => p.cores) _ _ _ fun w l => by simp]

theorem twinRestoreDone_answers (hk : (s.p.fab.rx.find? fun q => q.cls == 5 && q.kind == 7) = some k) :
    (s.p.getF TWN_STATUS 0 3 = 3 →
      ∃ q, Becomes .twinRestoreDone s q ∧ q.mem = s.p.mem ∧ q.fab.rx = s.p.fab.rx.erase k ∧ q.getF TWN_STATUS 0 3 = 1) ∧
    (s.p.getF TWN_STATUS 0 3 ≠ 3 → s.p.twin.restoring = true → leAt k.payload 0 4 = 0 →
      ∃ q, Becomes .twinRestoreDone s q ∧ q.mem = s.p.mem ∧ q.twin.restoring = false ∧ q.getB TWN_STICKY 3 = true) ∧
    (s.p.getF TWN_STATUS 0 3 ≠ 3 → s.p.twin.restoring = true → leAt k.payload 0 4 ≠ 0 →
      leAt k.payload 4 4 ≤ ((s.p.fab.rx.filter fun q => q.cls == 5 && q.kind == 6).flatMap unpackLines).length →
      ∃ q, Becomes .twinRestoreDone s q ∧ q.cores = s.p.cores ∧ q.twin.restoring = false ∧ q.getF TWN_STATUS 0 3 = 1 ∧
        q.rd TIK_COUNT = leAt k.payload 8 8 ∧ q.rd TIK_FRAME_NO = leAt k.payload 16 8 ∧ q.rd TIK_SEASON_POS = leAt k.payload 24 4 ∧
        q.rd TIK_VINTAGE = leAt k.payload 28 4 ∧ ∀ y < 4, q.rd (SCH_ST_BASE y) = leAt k.payload 32 8) := by
  refine ⟨fun hs => ⟨_, twinRestoreDone_ends hk hs, by simp, by simp [Part.takeRx], Part.getF_putF_same _ _ _ _ _ (by decide)⟩,
    fun hs hr h0 => ?_, fun hs hr h0 hl => ?_⟩
  · obtain ⟨h1, -, h3, -, -, h6⟩ := Part.restoreFail_keeps (s.p.takeRx k)
    exact ⟨_, twinRestoreDone_fails hk hs hr h0, h1, h3, h6⟩
  · have hq := twinRestoreDone_takes hk hs hr h0 hl
    obtain ⟨v, hv⟩ : ∃ v, v = (s.p.linesTaken k).takeState k.payload := ⟨_, rfl⟩
    obtain ⟨h1, h2, h3, h4⟩ := Part.takeState_takes k.payload (s.p.linesTaken k)
    have h5 := fun y (hy : y < 4) => Part.rd_takeState_base k.payload (s.p.linesTaken k) hy
    have h6 := (Part.takeState_cores k.payload (s.p.linesTaken k)).trans (s.p.linesTaken_cores k)
    rw [← hv] at hq h1 h2 h3 h4 h5 h6
    have hrd : ∀ j, TWN_STATUS ≠ j → (v.putF TWN_STATUS 0 3 1).rd j = v.rd j := fun j hj => Part.rd_putF_other _ _ _ _ hj
    refine ⟨_, hq, (by simp [h6]), rfl, (Part.getF_congr _ _ rfl).trans (Part.getF_putF_same v TWN_STATUS 0 3 1 (by decide)),
      (hrd _ (by decide)).trans h1, (hrd _ (by decide)).trans h2, (hrd _ (by decide)).trans h3, (hrd _ (by decide)).trans h4,
      fun y hy => (hrd _ ?_).trans (h5 y hy)⟩
    simp only [SCH_ST_BASE, secBase, TWN_STATUS]
    omega

end

end Sys2Proof.Machine
end

section
/-!
SUPPORT. What the units leave of the rest of the part while they work on memory (R235, R243, R247, R272 to R281, R298).
-/
namespace Sys2Proof.Machine

/-- What work on memory leaves, whatever registers it writes. -/
structure Works (p q : Part) : Prop where
  whole : q = { p with cycle := q.cycle, free := q.free, regs := q.regs, units := q.units, mem := q.mem, mctl := q.mctl, tick := q.tick, obs := q.obs, fab := q.fab,
                       twin := q.twin, power := q.power }
  fab : q.fab = { p.fab with txq := q.fab.txq, ctlOut := q.fab.ctlOut, frozenSeen := q.fab.frozenSeen }
  txq : p.fab.txq <+: q.fab.txq
  twin : q.twin = { p.twin with out := q.twin.out }
  tick : q.tick = { p.tick with cause := q.tick.cause, causes := q.tick.causes, sent := q.tick.sent, stopAfter := q.tick.stopAfter }
  unit : ∀ y, q.unit y = { p.unit y with rc := (q.unit y).rc }

namespace Works

theorem ofStores {p q : Part} (h : Stores p q) : Works p q := ⟨by
    rw [h.whole], h.fab, h.txq, h.twin, h.tick, h.unit⟩

theorem ofLoads {p q : Part} (h : Loads p q) : Works p q := ofStores (Stores.ofLoads h)

theorem refl (p : Part) : Works p p := ofStores (Stores.refl p)

theorem trans {p q r : Part} (h : Works p q) (h' : Works q r) : Works p r :=
  ⟨by rw [h'.whole, h.whole], by rw [h'.fab, h.fab], h.txq.trans h'.txq, by rw [h'.twin, h.twin], by rw [h'.tick, h.tick],
    fun y => by rw [h'.unit y, h.unit y]⟩

theorem ite (b : Prop) [Decidable b] {p q r : Part} (hq : Works p q) (hr : Works p r) : Works p (if b then q else r) := by
  split
  · exact hq
  · exact hr

theorem each {α : Type} {f : Part → α → Part} (l : List α) (h : ∀ x p, Works p (f p x)) (p : Part) : Works p (p.each l f) := by
  induction l generalizing p with
  | nil => exact refl p
  | cons x l ih =>
    rw [Part.each_cons]
    exact (h x p).trans (ih _)

/-- Work done item by item, whose results are gathered. -/
theorem foldl {α β : Type} (f : β × Part → α → β × Part) (h : ∀ b p x, Works p (f (b, p) x).2) (l : List α) (b : β) (p : Part) :
    Works p (l.foldl f (b, p)).2 := by
  induction l generalizing b p with
  | nil => exact refl p
  | cons x l ih => exact (h b p x).trans (ih _ _)

section
variable {p q : Part} (h : Works p q)
include h

theorem cores : q.cores = p.cores := by rw [h.whole]

theorem rx : q.fab.rx = p.fab.rx := by rw [h.fab]

theorem buckets : q.buckets = p.buckets := by rw [h.whole]

theorem signals : q.tick.signals = p.tick.signals := by rw [h.tick]

end

section
variable (p : Part)

theorem wr (o v : Nat) : Works p (p.wr o v) :=
  ⟨rfl, by simp, by simp, by simp, by simp, fun y => by simp⟩

theorem bump (o n : Nat) : Works p (p.bump o n) := wr p o _

theorem stick (o i : Nat) : Works p (p.stick o i) := (wr p o _).trans (wr _ (o + 4) _)

theorem modObs (f : Obs → Obs) : Works p (p.modObs f) := ofStores (Stores.modObs p f)

theorem addPair (k : Nat) (f : PairAcc → PairAcc) : Works p (p.addPair k f) := modObs p _

theorem err (e : ErrRec) : Works p (p.err e) := ofStores (Stores.err p e)

theorem noteErr (o i : Nat) (e : ErrRec) : Works p (p.noteErr o i e) := (stick p o i).trans (err _ _)

theorem events (o : Nat) (e : Events) : Works p (p.events o e) := ite _ (refl p) ((wr p o _).trans (wr _ (o + 4) _))

theorem clockTo (n : Nat) : Works p (p.clockTo n) :=
  ⟨by
    rw [Part.clockTo_eq], by simp, by simp, by simp, by simp, fun y => by simp⟩

theorem toSpad (a : Nat) : Works p (p.toSpad a) := ite _ (clockTo p _) (refl p)

theorem consume (s agent core pair token : Nat) : Works p (p.consume s agent core pair token) := by
  unfold Part.consume
  extract_lets p1 p2 p3
  have h1 : Works p p1 := stick p _ 2
  have h2 : Works p1 p2 := addPair p1 pair _
  exact ite _ ((h1.trans h2).trans (bump p2 _ 1)) (((h1.trans h2).trans (modObs p2 _)).trans (err _ _))

theorem load (g k a n : Nat) : Works p (p.load g k a n).2 := ofLoads (Loads.load p g k a n)

theorem loadN (g k a n : Nat) : Works p (p.loadN g k a n).2 := ofLoads (Loads.loadN p g k a n)

theorem store (g k a : Nat) (bs : List Byte) (t : Option Nat) : Works p (p.store g k a bs t) := ofStores (Stores.store p g k a bs t)

theorem unitStore (g k a : Nat) (bs : List Byte) (t : Option Nat) : Works p (p.unitStore g k a bs t) := (toSpad p a).trans (store _ g k a bs t)

theorem unitGrans (g k a : Nat) (gs : List (List Byte × Option Nat)) : Works p (p.unitGrans g k a gs) :=
  (toSpad p a).trans (ofStores (Stores.putGrans _ g k a gs))

theorem quiet {f : Part → Part} (h : Works p (f p)) : Works p (p.quiet f) :=
  ⟨by
    unfold Part.quiet Part.modTwin
    dsimp only
    conv_lhs => rw [h.whole], h.fab, h.txq, by
    change { (f p).twin with out := p.twin.out } = _
    rw [h.twin]
    rfl, h.tick, h.unit⟩

theorem quietStore (g k a : Nat) (bs : List Byte) (t : Option Nat) : Works p (p.quiet fun p => p.store g k a bs t) := quiet p (store p g k a bs t)

theorem bitmapPut (k : Nat) (T : Tbl) (b i : Nat) (v : Bool) : Works p (p.bitmapPut k T b i v) := by
  unfold Part.bitmapPut
  dsimp only
  exact (loadN p 4 k _ 1).trans (quietStore _ 4 k _ _ none)

theorem tierRow (g k : Nat) (T : Tbl) (r : Nat) : Works p (p.tierRow g k T r).2 := by
  unfold Part.tierRow
  split
  · exact refl p
  · exact loadN p g k _ 4

end

end Works

end Sys2Proof.Machine
end

section
/-!
PROOF. The twin mirrors and restores (O37), last part: the lines and jobs of the partner.
-/
namespace Sys2Proof.Machine

namespace Works

section
variable (p : Part)

theorem optUpdate (s n k : Nat) (pl : OptPlace) (g : List Nat) (u : Option Upset) : Works p (p.optUpdate s n k pl g u).2 := by
  unfold Part.optUpdate
  extract_lets o rd
  have hr : ∀ w b a, Works w (rd w b a).2 := fun w b a => by
    change Works w (if b = true then _ else _ : (List Nat × Option Nat) × Part).2
    split
    · exact load w 6 k a _
    · exact refl w
  clear_value rd
  have h1 := hr p true pl.master
  have h2 := hr (rd p true pl.master).2 o.v1 pl.mom1
  have h3 := hr (rd (rd p true pl.master).2 o.v1 pl.mom1).2 o.v2 pl.mom2
  have h := (h1.trans h2).trans h3
  dsimp only
  split
  · exact h
  · refine (h.trans (quiet _ ?_)).trans (events _ _ _)
    exact (store _ 6 k _ _ none).trans ((ite _ (store _ 6 k _ _ none) (refl _)).trans (ite _ (store _ 6 k _ _ none) (refl _)))

theorem markRow (k : Nat) (T : Tbl) (i : Nat) : Works p (p.markRow k T i) := (bitmapPut p k T _ i true).trans (bitmapPut _ k T _ i false)

theorem workingCopy (s u k : Nat) (T : Tbl) (kind x mi : Nat) (ms : List Nat) : Works p (p.workingCopy s u k T kind x mi ms) := by
  unfold Part.workingCopy
  extract_lets mode keep lane next put scaled
  have hp : ∀ w a bs, Works w (put w a bs) := fun w a bs => quietStore w 6 k _ bs none
  have hs : ∀ w a b i, Works w (scaled w a b i) := fun w a b i => by
    have h1 := events w (OPT_FMT_STICKY s) (scaledRow lane mode keep ms).2
    have h2 := fun v : Part => ite ((scaledRow lane mode keep ms).1.2.2 = 1) (bump v (OPT_STAT_NANROW s) 1)
      (ite ((scaledRow lane mode keep ms).1.2.2 = 2) (bump v (OPT_STAT_ZROW s) 1) (refl v))
    exact (((h1.trans (h2 _)).trans (hp _ _ _)).trans (hp _ _ _)).trans (markRow _ k T i)
  clear_value scaled put
  split
  · have h := tierRow p 6 k T x
    dsimp only
    split
    · exact ((h.trans (events _ _ _)).trans (hp _ _ _)).trans (markRow _ k T x)
    · exact h.trans (hs _ _ _ _)
    · exact h.trans (bump _ _ 1)
  · exact hs p _ _ _
  · exact hs p _ _ _

theorem optSkip (s k a b t : Nat) : Works p (p.optSkip s k a b t) :=
  ((bump p _ 1).trans (consume _ s 6 0xFFFF k t)).trans (noteErr _ _ 0 _)

theorem rowJob (s u : Nat) (T : Tbl) (kind x mi k : Nat) (known : Bool) (g : List Nat) (poison : Option Nat) (up : Option Upset) :
    Works p (p.rowJob s u T kind x mi k known g poison up).2 := by
  unfold Part.rowJob
  split
  · exact optSkip p s _ _ x _
  · have h := optUpdate p s (p.getF (OPT_TCFG s T.t) 1 3) k (p.rowPlace s T mi) g up
    split
    · rename_i e
      rw [e] at h
      exact h.trans (optSkip _ s _ _ x _)
    · rename_i e
      rw [e] at h
      exact ((h.trans (ite _ (workingCopy _ s u k T kind x mi _) (refl _))).trans (bump _ _ 1)).trans (bump _ _ _)

theorem emitDense (s u : Nat) (d : BlockDesc) (e t : Nat) (f : Fmt) (ms : List Nat) : Works p (p.emitDense s u d e t f ms) :=
  (events p _ _).trans (quietStore _ 6 0 _ _ none)

theorem emitPair (s u : Nat) (d : BlockDesc) (e i : Nat) (f : Fmt) (ms : List Nat) : Works p (p.emitPair s u d e i f ms) := by
  unfold Part.emitPair
  extract_lets
  exact (events p _ _).trans (quietStore _ 6 0 _ _ none)

theorem emitTile (s u : Nat) (d : BlockDesc) (t : Nat) (ms : List Nat) (ok : Bool) : Works p (p.emitTile s u d t ms ok) := by
  refine each _ (fun e w => ?_) p
  split
  · exact refl w
  · exact ite _ (emitDense w s u d e t _ ms) (ite _ ((load w 6 0 _ 4096).trans (emitPair _ s u d e _ _ _)) (refl w))

theorem tileJob (s u : Nat) (d : BlockDesc) (t : Nat) (g : List Nat) (poison : Option Nat) (ok : Bool) :
    Works p (p.tileJob s u d t g poison ok).2 := by
  unfold Part.tileJob
  split
  · exact optSkip p s _ _ t _
  · have h := optUpdate p s d.prog 0 (d.place t) g none
    split
    · rename_i e
      rw [e] at h
      exact h.trans (optSkip _ s _ _ t _)
    · rename_i e
      rw [e] at h
      exact ((h.trans (emitTile _ s u d t _ ok)).trans (bump _ _ 1)).trans (bump _ _ 1024)

theorem blockDesc (s c i : Nat) : Works p (p.blockDesc s c i).2 := load p 6 0 _ 128

theorem mirrorJob (h : List Byte) (g : List Nat) : Works p (p.mirrorJob h g) := by
  unfold Part.mirrorJob
  extract_lets kind u s T mi known
  refine ite _ (refl p) (ite _ ?_ ?_)
  · exact (blockDesc p s _ _).trans (tileJob _ s u _ _ g none _)
  · exact rowJob p s u T kind _ mi 0 known g none none

end

end Works

/-- A line of the partner goes to its mirror, where a window covers it (R373, R375). -/
def Part.mirrorLine (p : Part) (l : Nat × List Byte × Option Nat) : Part :=
  match p.inMirror l.1 with
  | some a => (p.writeLine 9 0 a l.2.1 l.2.2).bump TWN_STAT_RAW 1
  | none => p

theorem Works.mirrorLine (p : Part) (l : Nat × List Byte × Option Nat) : Works p (p.mirrorLine l) := by
  unfold Part.mirrorLine
  split
  · exact (Works.ofStores (Stores.writeLine p 9 0 _ _ _)).trans (Works.bump _ _ 1)
  · exact Works.refl p

theorem Part.mirrorLine_outside {p : Part} {l : Nat × List Byte × Option Nat} (h : p.inMirror l.1 = none) : p.mirrorLine l = p := by
  unfold Part.mirrorLine
  rw [h]

/-- Lines outside every window leave the part. -/
theorem Part.each_mirrorLine_outside {p : Part} {ls : List (Nat × List Byte × Option Nat)} (h : ∀ l ∈ ls, p.inMirror l.1 = none) :
    p.each ls Part.mirrorLine = p := by
  induction ls with
  | nil => rfl
  | cons l ls ih =>
    rw [Part.each_cons, Part.mirrorLine_outside (h l List.mem_cons_self)]
    exact ih fun l hl => h l (List.mem_cons_of_mem _ hl)

/-- What the unit has taken (R376). -/
theorem Part.tookRecord_takes (p : Part) (qs : List Packet) (n : Nat) :
    (p.tookRecord qs n).cores = p.cores ∧ (p.tookRecord qs n).mem = p.mem ∧
    (p.tookRecord qs n).twin = { p.twin with rxNext := p.twin.rxNext + qs.length, rxRecs := p.twin.rxRecs + 1, rxBytes := p.twin.rxBytes + n } := by
  have ht : (p.each qs fun p q => p.takeRx q).twin = p.twin := Part.each_get (fun p => p.twin) _ _ _ fun _ _ => rfl
  have hc : (p.each qs fun p q => p.takeRx q).cores = p.cores := Part.each_get (fun p => p.cores) _ _ _ fun _ _ => rfl
  have hm : (p.each qs fun p q => p.takeRx q).mem = p.mem := Part.each_get (fun p => p.mem) _ _ _ fun _ _ => rfl
  exact ⟨hc, hm, by rw [← ht]; rfl⟩

section
variable {s : State} {k : Packet}

theorem twinRawLines_takes (hk : s.p.twinPacket s.p.twin.rxNext = some k) (hm : s.p.mirrors = true) (h1 : k.kind = 1) :
    Becomes .twinRawLines s ((s.p.tookRecord [k] (72 * (unpackLines k).length)).each (unpackLines k) Part.mirrorLine) := by
  change execTwinRawLines s = _
  unfold execTwinRawLines State.run
  dsimp only
  rw [hk]
  dsimp only
  rw [hm, h1, if_neg (by decide)]
  rfl

/-- The lines of the next record go to the mirror (R375). -/
theorem twinRawLines_writes (hk : s.p.twinPacket s.p.twin.rxNext = some k) (hm : s.p.mirrors = true) (h1 : k.kind = 1) :
    ∃ q, Becomes .twinRawLines s q ∧ q.cores = s.p.cores ∧ q.fab.rx = s.p.fab.rx.erase k ∧ q.twin.rxNext = s.p.twin.rxNext + 1 ∧
      q.twin.rxRecs = s.p.twin.rxRecs + 1 ∧ q.twin.rxBytes = s.p.twin.rxBytes + 72 * (unpackLines k).length ∧
      ((∀ l ∈ unpackLines k, s.p.inMirror l.1 = none) → q.mem = s.p.mem) := by
  obtain ⟨hc, hme, ht⟩ := s.p.tookRecord_takes [k] (72 * (unpackLines k).length)
  have hq := twinRawLines_takes hk hm h1
  have hr : (s.p.tookRecord [k] (72 * (unpackLines k).length)).fab.rx = s.p.fab.rx.erase k := rfl
  obtain ⟨w, hw⟩ : ∃ w, w = s.p.tookRecord [k] (72 * (unpackLines k).length) := ⟨_, rfl⟩
  rw [← hw] at hc hme ht hq hr
  have h := Works.each (unpackLines k) (fun l w => Works.mirrorLine w l) w
  refine ⟨_, hq, h.cores.trans hc, h.rx.trans hr, by rw [h.twin, ht]; rfl, by rw [h.twin, ht], by rw [h.twin, ht], fun ho => ?_⟩
  rw [Part.each_mirrorLine_outside fun l hl => ?_, hme]
  unfold Part.inMirror
  rw [ht]
  exact ho l hl

/-- The bytes of a job record. -/
def recordOf (qs : List Packet) (n : Nat) : List Byte := (qs.flatMap (·.payload)).take n

theorem twinJobRecord_runs {qs : List Packet} (hk : s.p.twinPacket s.p.twin.rxNext = some k) (hm : s.p.mirrors = true) (h0 : k.kind = 0)
    (hj : Part.jobPackets 64 s.p s.p.twin.rxNext (s.p.jobLen k.payload) = some qs) :
    Becomes .twinJobRecord s (((s.p.tookRecord qs (s.p.jobLen k.payload)).mirrorJob ((recordOf qs (s.p.jobLen k.payload)).take 16)
      (elems 4 ((recordOf qs (s.p.jobLen k.payload)).drop 16))).bump TWN_STAT_JOBS 1) := by
  change execTwinJobRecord s = _
  unfold execTwinJobRecord State.run
  dsimp only
  rw [hk]
  dsimp only
  rw [hm, h0, if_neg (by decide), hj]
  rfl

/-- The packets of a record begin with the next in sequence. -/
theorem Part.jobPackets_head {p : Part} {n left fuel : Nat} {qs : List Packet} (hk : p.twinPacket n = some k) (hl : left ≠ 0)
    (h : Part.jobPackets (fuel + 1) p n left = some qs) : ∃ rest, qs = k :: rest := by
  unfold Part.jobPackets at h
  rw [if_neg hl, hk] at h
  obtain ⟨rest, -, rfl⟩ := Option.map_eq_some_iff.1 h
  exact ⟨rest, rfl⟩

theorem leAt_take {bs : List Byte} {n lo m : Nat} (h : lo + m ≤ n) : leAt (bs.take n) lo m = leAt bs lo m := by
  unfold leAt
  rw [List.drop_take, List.take_take, Nat.min_eq_left (by omega)]

theorem leAt_append_left {as bs : List Byte} {lo m : Nat} (h : lo + m ≤ as.length) : leAt (as ++ bs) lo m = leAt as lo m := by
  unfold leAt
  rw [List.drop_append_of_le_length (by omega), List.take_append_of_le_length (by rw [List.length_drop]; omega)]

/-- A skipped job leaves the mirror (R281). -/
theorem Part.mirrorJob_skipped {p : Part} {h : List Byte} (g : List Nat) (hs : bit (leAt h 1 1) 0 = true) : p.mirrorJob h g = p := by
  unfold Part.mirrorJob
  dsimp only
  rw [if_pos hs]

theorem twinJobRecord_applies {qs : List Packet} (hk : s.p.twinPacket s.p.twin.rxNext = some k) (hm : s.p.mirrors = true) (h0 : k.kind = 0)
    (hj : Part.jobPackets 64 s.p s.p.twin.rxNext (s.p.jobLen k.payload) = some qs) :
    ∃ q, Becomes .twinJobRecord s q ∧ q.cores = s.p.cores ∧ q.twin.rxNext = s.p.twin.rxNext + qs.length ∧
      q.twin.rxRecs = s.p.twin.rxRecs + 1 ∧ q.twin.rxBytes = s.p.twin.rxBytes + s.p.jobLen k.payload ∧
      (bit (leAt k.payload 1 1) 0 = true → q.mem = s.p.mem) := by
  have hl : 16 ≤ s.p.jobLen k.payload := by
    unfold Part.jobLen
    split
    · exact le_refl 16
    · split <;> omega
  have hq := twinJobRecord_runs hk hm h0 hj
  obtain ⟨rest, hrest⟩ := Part.jobPackets_head hk (by omega) hj
  obtain ⟨n, hn⟩ : ∃ n, n = s.p.jobLen k.payload := ⟨_, rfl⟩
  rw [← hn] at hl hq ⊢
  obtain ⟨hc, hme, ht⟩ := s.p.tookRecord_takes qs n
  obtain ⟨w, hw⟩ : ∃ w, w = s.p.tookRecord qs n := ⟨_, rfl⟩
  rw [← hw] at hc hme ht hq
  have h := (Works.mirrorJob w ((recordOf qs n).take 16) (elems 4 ((recordOf qs n).drop 16))).trans (Works.bump _ TWN_STAT_JOBS 1)
  refine ⟨_, hq, h.cores.trans hc, by rw [h.twin, ht], by rw [h.twin, ht], by rw [h.twin, ht], fun hb => ?_⟩
  have hb' : bit (leAt ((recordOf qs n).take 16) 1 1) 0 = true := by
    have hp : 2 ≤ k.payload.length := by
      by_contra hp
      have h0 : (k.payload.drop 1).take 1 = [] := by rw [List.drop_eq_nil_of_le (by omega), List.take_nil]
      rw [leAt, h0] at hb
      exact absurd hb (by decide)
    rw [leAt_take (by decide), recordOf, leAt_take (by omega), hrest, List.flatMap_cons, leAt_append_left (by omega), hb]
  simp [Part.mirrorJob_skipped _ hb', hme]

end

/-- Settles O37: each step's answer in full, the rest from what reads and writes of memory leave. -/
theorem twinMirror : Obligations.TwinMirror := by
  unfold Obligations.TwinMirror
  intro s p
  refine ⟨fun k qs hk hm h0 hj => twinJobRecord_applies hk hm h0 hj, fun k hk hm h1 => twinRawLines_writes hk hm h1,
    fun k hk hm hr => ?_, fun k hk hm hr => ⟨fun hn => twinEndMarker_waits hk hm hr hn, fun hn => ?_⟩,
    fun k hk hl he => twinAckReceive_decides hk hl he, fun k hk => lossDeclarationReceive_records hk, fun hc hh hn => ?_,
    fun k hk hs => twinRestorePull_answers hk hs, fun k hk => twinRestoreDone_answers hk⟩
  · intro good
    by_cases hg : good
    · exact ⟨_, twinEndMarker_acknowledges hk hm hr hg.1 hg.2, rfl, rfl, rfl,
        fun _ => List.mem_append_right _ List.mem_cons_self, fun hn => absurd hg hn⟩
    · obtain ⟨h1, h2, h3, h4, h5⟩ := p.gapAnswer_keeps k
      exact ⟨_, twinEndMarker_gap hk hm (fun h => hg h.2) (fun h => h.1 hr), h1, h2, h3, fun h => absurd h hg, fun _ => ⟨h4, h5⟩⟩
  · obtain ⟨h1, h2, -, h4, h5⟩ := p.gapAnswer_keeps k
    exact ⟨_, twinEndMarker_gap hk hm (fun h => hr h.1) (fun h => by simp [p, hn] at h), h1, h2, h5, h4⟩
  · cases hb : p.bundleUp 8 with
    | true =>
      refine ⟨_, twinRestore_asks hc hh hn hb, rfl, rfl, fun _ => ⟨rfl, ?_, ?_⟩, fun h => absurd h (by decide)⟩
      · exact (Part.getF_congr _ _ rfl).trans (Part.getF_putF_same _ TWN_STATUS 0 3 4 (by decide))
      · exact List.mem_append_right _ List.mem_cons_self
    | false =>
      obtain ⟨h1, h2, h3, -, -, h6⟩ := p.restoreFail_keeps
      exact ⟨_, twinRestore_fails hc hh hn hb, h1, h2, fun h => absurd h (by decide), fun _ => ⟨h3, h6⟩⟩

end Sys2Proof.Machine
end

section
/-!
PROOF. Racking moves data (O32).
-/
namespace Sys2Proof.Machine

section
variable {p q : Part}

/-- Above HBM nothing but memory's content decides what is read, and the read leaves the part. -/
theorem Part.loadLoop_above (h : q.mem = p.mem) (fuel g k : Nat) {a : Nat} (ha : isHbm a = false) (len : Nat) :
    (Part.loadLoop fuel q g k a len).1 = (Part.loadLoop fuel p g k a len).1 ∧ (Part.loadLoop fuel q g k a len).2 = q := by
  induction fuel generalizing a len with
  | zero => exact ⟨rfl, rfl⟩
  | succ fuel ih =>
    unfold Part.loadLoop Part.readPiece
    dsimp only
    rw [ha, if_neg Bool.false_ne_true, if_neg Bool.false_ne_true, if_neg Bool.false_ne_true]
    split
    · exact ⟨rfl, rfl⟩
    · have hr : ∀ b m, q.rawBytes b m = p.rawBytes b m := fun b m => by unfold Part.rawBytes; rw [h]
      have hp : q.granPoison a = p.granPoison a := by unfold Part.granPoison; rw [h]
      have ht : q.granToken a = p.granToken a := by unfold Part.granToken; rw [hr]
      obtain ⟨h1, h2⟩ := ih (a := a + min (32 - a % 32) len) (by simp [isHbm] at ha ⊢; omega) (len - min (32 - a % 32) len)
      rw [hr, hp, ht]
      exact ⟨by rw [h1], h2⟩

theorem Part.loadGrans_above (h : q.mem = p.mem) (g k : Nat) {a : Nat} (ha : isHbm a = false) (len : Nat) :
    (q.loadGrans g k a len).1 = (p.loadGrans g k a len).1 ∧ (q.loadGrans g k a len).2 = q := by
  obtain ⟨h1, h2⟩ := Part.loadLoop_above h (len / 32 + 2) g k ha len
  unfold Part.loadGrans
  exact ⟨congrArg toGrans h1, h2⟩

/-- Above HBM a write's bytes are decided by memory's content alone. -/
theorem Part.putGrans_above (h : q.mem = p.mem) (g k : Nat) {a : Nat} (ha : isHbm a = false) (gs : List (List Byte × Option Nat)) :
    (q.putGrans g k a gs).mem = (p.putGrans g k a gs).mem := by
  have hw : ∀ (q p : Part) b bs t, q.mem = p.mem → (q.writeGran b bs t).mem = (p.writeGran b bs t).mem := fun q p b bs t h => by
    unfold Part.writeGran Part.granPoison
    rw [h]
    split
    · exact h
    · cases t <;> simp
  unfold Part.putGrans
  generalize gs.length + 1 = fuel
  induction fuel generalizing p q a gs with
  | zero => exact h
  | succ fuel ih =>
    unfold Part.storeGrans
    cases gs with
    | nil => exact h
    | cons x r =>
      dsimp only
      rw [ha, Bool.false_and, if_neg Bool.false_ne_true, if_neg Bool.false_ne_true, if_neg Bool.false_ne_true, if_neg Bool.false_ne_true]
      exact ih (hw q p _ _ _ h) (by simp [isHbm] at ha ⊢; omega) r

theorem Part.unitGrans_above (h : q.mem = p.mem) (g k : Nat) {a : Nat} (ha : isHbm a = false) (gs : List (List Byte × Option Nat)) :
    (q.unitGrans g k a gs).mem = (p.putGrans g k a gs).mem :=
  Part.putGrans_above ((q.toSpad_frame a).1.trans h) g k ha gs

end

section
variable {p : Part} {x tag : Nat} {t : Transfer}

theorem Part.xfer_tag (h : p.xfer x tag = some t) : t.tag = tag := by
  have := List.find?_some h
  simpa using this

/-- A transfer replaced is found by its tag. -/
theorem Part.xfer_setXfer {t' : Transfer} (h : p.xfer x tag = some t) (ht : t'.tag = tag) : (p.setXfer x t').xfer x tag = some t' := by
  unfold Part.xfer Part.setXfer at *
  dsimp only
  rw [Part.rck_setRck, if_pos rfl]
  dsimp only
  generalize (p.rck x).transfers = l at h
  induction l with
  | nil => simp at h
  | cons y l ih =>
    rw [List.map_cons, List.find?_cons]
    rw [List.find?_cons] at h
    by_cases hy : y.tag = tag
    · rw [if_pos (hy.trans ht.symm)]
      simp [ht]
    · have hn : (y.tag == tag) = false := beq_eq_false_iff_ne.2 hy
      rw [hn] at h
      rw [if_neg (fun e => hy (e.trans ht)), hn]
      exact ih h

theorem Part.xfer_congr {p q : Part} (h : q.rack = p.rack) (x tag : Nat) : q.xfer x tag = p.xfer x tag := by
  unfold Part.xfer Part.rck
  rw [h]

/-- Asking for units leaves the stage of the transfer (R313). -/
theorem Part.pullUnits_keeps (fuel : Nat) (h : p.xfer x tag = some t) :
    (Part.pullUnits fuel p x t).mem = p.mem ∧ (Part.pullUnits fuel p x t).cores = p.cores ∧ (Part.pullUnits fuel p x t).fab.rx = p.fab.rx ∧
    ((Part.pullUnits fuel p x t).xfer x tag).map (·.stage) = some t.stage := by
  have hd : p.mem = p.mem ∧ p.cores = p.cores ∧ p.fab.rx = p.fab.rx ∧ (p.xfer x tag).map (·.stage) = some t.stage :=
    ⟨rfl, rfl, rfl, by rw [h]; rfl⟩
  induction fuel generalizing p t with
  | zero => exact hd
  | succ fuel ih =>
    unfold Part.pullUnits
    split
    · exact hd
    · split
      · exact hd
      · rename_i u rest hu _
        dsimp only
        obtain ⟨t', ht'⟩ : ∃ t', t' = { t with units := rest, waiting := t.waiting ++ [t.place u] } := ⟨_, rfl⟩
        have hst : t'.stage = t.stage := by rw [ht']
        have hx := Part.xfer_setXfer h (t' := t') (by
          rw [ht']
          exact Part.xfer_tag (t := t) h)
        rw [← ht']
        generalize hw : ((p.setXfer x t').sendPacket (gChip t.src) 0 1 (rackRef x t.tag (t.place u).1) 0 (leBytes 8 (t.src + (t.place u).2.1) ++
          leBytes 4 (t.place u).2.2 ++ leBytes 4 t.pair ++ leBytes 16 0)).sentFor t.pair 32 = w
        have hwx : w.xfer x tag = some t' := by
          rw [← hw]
          exact hx
        obtain ⟨h1, h2, h3, h4⟩ := ih hwx ⟨rfl, rfl, rfl, by rw [hwx]; rfl⟩
        refine ⟨h1.trans ?_, h2.trans ?_, h3.trans ?_, by rw [h4, hst]⟩ <;> rw [← hw] <;> rfl

theorem Part.signalTo_rx (p : Part) (pair chip c ev : Nat) : (p.signalTo pair chip c ev).fab.rx = p.fab.rx := by
  unfold Part.signalTo Part.signalIn
  split
  · split
    · rfl
    · exact (Works.err p _).rx
  · rfl

theorem Part.rackSignals_rx (p : Part) (c pair dst ev sig : Nat) : (p.rackSignals c pair dst ev sig).fab.rx = p.fab.rx := by
  unfold Part.rackSignals
  dsimp only
  split
  · rfl
  · split
    · rfl
    · have h1 : (if bit sig 0 = true then p.signal c ev else p).fab.rx = p.fab.rx := by
        split <;> rfl
      split
      · exact (Part.signalTo_rx _ _ _ _ _).trans h1
      · exact h1

/-- Signals on their way stay. -/
theorem Part.signalTo_signals (p : Part) (pair chip c ev : Nat) : p.tick.signals <+: (p.signalTo pair chip c ev).tick.signals := by
  unfold Part.signalTo Part.signalIn
  split
  · split
    · exact List.prefix_append _ _
    · rw [(Works.err p _).signals]
  · exact List.prefix_refl _

/-- The signals of a transfer (R130). -/
theorem Part.rackSignals_sends (p : Part) (c pair dst ev sig : Nat) :
    (bit sig 0 = true ∨ (sig ≠ 0 ∧ p.inSpadOf dst = false) → (c, ev) ∈ (p.rackSignals c pair dst ev sig).tick.signals) ∧
    (bit sig 1 = true → p.inSpadOf dst = true → gChip dst = p.chip → p.hasRole (windowCore (gLocal dst)) = true →
      (windowCore (gLocal dst), ev) ∈ (p.rackSignals c pair dst ev sig).tick.signals) := by
  have hs : ∀ q : Part, (c, ev) ∈ (q.signal c ev).tick.signals := fun q => List.mem_append_right _ List.mem_cons_self
  have h0 : ∀ i, bit sig i = true → sig ≠ 0 := fun i h e => by
    rw [e] at h
    simp [bit] at h
  unfold Part.rackSignals
  extract_lets chip dc w
  refine ⟨fun h => ?_, fun h hi hc hr => ?_⟩
  · rw [if_neg (h.elim (h0 0) (·.1))]
    split
    · exact hs p
    · rename_i hn
      have hb : bit sig 0 = true := h.resolve_right fun h => hn (by simp [h.2])
      rw [show w = p.signal c ev from if_pos hb]
      split
      · exact (Part.signalTo_signals _ pair chip dc ev).subset (hs p)
      · exact hs p
  · rw [if_neg (h0 1 h), hi, Bool.not_true, Bool.false_or]
    split
    · rename_i he
      have : dc = c := by
        simp at he
        exact he.2
      rw [← this]
      exact List.mem_append_right _ List.mem_cons_self
    · have hw : w.chip = p.chip ∧ w.hasRole dc = p.hasRole dc := by
        unfold w
        split <;> exact ⟨rfl, rfl⟩
      unfold Part.signalTo Part.signalIn
      rw [if_pos (hc.trans hw.1.symm), if_pos (hw.2.trans hr)]
      exact List.mem_append_right _ List.mem_cons_self

theorem Works.refuseRemote (p : Part) (a pair : Nat) (b : Bool) : Works p (p.refuseRemote a pair b) :=
  Works.ite _ (Works.err p _) (((Works.bump p _ 1).trans (Works.stick _ _ 4)).trans (Works.err _ _))

theorem Part.refuseRemote_keeps (p : Part) (a pair : Nat) (b : Bool) : (p.refuseRemote a pair b).mem = p.mem ∧ (p.refuseRemote a pair b).fab.txq = p.fab.txq := by
  unfold Part.refuseRemote Part.refuseExternal Part.denied
  dsimp only
  split <;> simp

end

end Sys2Proof.Machine
end

section
/-!
PROOF. Racking moves data (O32): the racking engine's steps.
-/
namespace Sys2Proof.Machine

theorem Part.serves_working {p : Part} (h : p.serves = true) : p.working = true := by
  unfold Part.serves at h
  simp_all

section
variable {s : State} {k : Packet} {x : Nat} {t : Transfer}

/-- A unit moves within the part (R312). -/
theorem rackUnitReadDone_moves {sector : BitVec 2} {tag : Nat} {u : Nat × Nat × Nat} {rest : List (Nat × Nat × Nat)}
    (ht : s.p.xfer sector.toNat tag = some t) (hs : s.p.serves = true) (h0 : t.stage = 0) (hu : t.units = u :: rest) :
    let l := s.p.loadGrans 7 t.pair (gLocal t.src + u.2.1) u.2.2
    let t' := ({ t with units := rest } : Transfer).carry l.1
    Becomes (.rackUnitReadDone sector tag) s ((l.2.rackWrite sector.toNat t' u.2.1 l.1).setXfer sector.toNat t') := by
  intro l t'
  have hst : (t.stage = 1 || !s.p.serves) = false := by simp [h0, hs]
  change execRackUnitReadDone sector tag s = _
  unfold execRackUnitReadDone State.run
  dsimp only
  rw [ht]
  dsimp only
  rw [if_pos (Part.serves_working hs)]
  unfold Part.moveUnit
  rw [if_neg (by omega), hst, if_neg Bool.false_ne_true, hu]
  dsimp only
  have h2 : (decide (t.stage = 2) && decide (t.waiting.length ≥ 32)) = false := by simp [h0]
  rw [h2, if_neg Bool.false_ne_true, if_pos]
  exact h0

theorem Works.rackWrite (p : Part) (s : Nat) (t : Transfer) (off : Nat) (gs : List (List Byte × Option Nat)) : Works p (p.rackWrite s t off gs) :=
  (Works.unitGrans p 7 t.pair _ gs).trans (Works.bump _ _ _)

theorem rackUnitReadDone_leaves {sector : BitVec 2} {tag : Nat} {u : Nat × Nat × Nat} {rest : List (Nat × Nat × Nat)}
    (ht : s.p.xfer sector.toNat tag = some t) (hs : s.p.serves = true) (h0 : t.stage = 0) (hu : t.units = u :: rest) :
    ∃ q t', Becomes (.rackUnitReadDone sector tag) s q ∧ q.cores = s.p.cores ∧ q.xfer sector.toNat tag = some t' ∧ t'.units = rest ∧
      t'.waiting = t.waiting ∧ t'.stage = 0 ∧
      (isHbm (gLocal t.src + u.2.1) = false → isHbm (gLocal t.dst + u.2.1) = false →
        q.mem = (s.p.putGrans 7 t.pair (gLocal t.dst + u.2.1) (s.p.loadGrans 7 t.pair (gLocal t.src + u.2.1) u.2.2).1).mem) := by
  have hq := rackUnitReadDone_moves ht hs h0 hu
  obtain ⟨l, hl⟩ : ∃ l, l = s.p.loadGrans 7 t.pair (gLocal t.src + u.2.1) u.2.2 := ⟨_, rfl⟩
  have hw : Works s.p l.2 := hl ▸ Works.ofLoads (Loads.loadGrans s.p 7 t.pair _ _)
  obtain ⟨t', ht'⟩ : ∃ t', t' = ({ t with units := rest } : Transfer).carry l.1 := ⟨_, rfl⟩
  have h : Works s.p (l.2.rackWrite sector.toNat t' u.2.1 l.1) := hw.trans (Works.rackWrite _ _ _ _ _)
  rw [← hl] at hq ⊢
  dsimp only at hq
  rw [← ht'] at hq
  refine ⟨_, t', hq, h.cores, ?_, by rw [ht']; rfl, by rw [ht']; rfl, by rw [ht']; exact h0, fun ha hb => ?_⟩
  · refine Part.xfer_setXfer (t := t) ?_ (by rw [ht']; exact Part.xfer_tag (t := t) ht)
    rw [← ht]
    exact Part.xfer_congr (by rw [h.whole]) _ _
  · have hsame : l.2 = s.p := hl ▸ (Part.loadGrans_above (p := s.p) rfl 7 t.pair ha u.2.2).2
    rw [hsame]
    have hd : t'.dst = t.dst ∧ t'.pair = t.pair := by
      rw [ht']
      exact ⟨rfl, rfl⟩
    change ((s.p.unitGrans 7 t'.pair (gLocal t'.dst + u.2.1) l.1).bump (RCK_STAT_BYTES sector.toNat) (32 * l.1.length)).mem = _
    simp only [Part.bump_keeps]
    rw [hd.1, hd.2]
    exact Part.unitGrans_above rfl 7 t.pair hb l.1

/-- What another part's open finds of its range (R304, R313). -/
def Part.rackOpens (p : Part) (k : Packet) : Bool :=
  let g := leAt k.payload 0 8
  gChip g == p.chip && (if leAt k.payload 16 1 == 1 then p.rackInOk (gLocal g) (leAt k.payload 8 4) else p.rackSrcOk (gLocal g) (leAt k.payload 8 4))

theorem remoteRackOpen_replies (hk : s.p.waiting 0 0 = some k) :
    Becomes .remoteRackOpen s ((if s.p.rackOpens k = true then s.p.takeRx k else
      (s.p.takeRx k).refuseRemote (gLocal (leAt k.payload 0 8)) (leAt k.payload 12 4) (leAt k.payload 16 1 == 1)).sendPacket k.src 1 0 k.ref 0
        (leBytes 32 (b2n (s.p.rackOpens k)))) := by
  change execRemoteRackOpen s = _
  unfold execRemoteRackOpen State.run
  dsimp only
  rw [hk]
  rfl

theorem remoteRackOpen_leaves (hk : s.p.waiting 0 0 = some k) :
    ∃ q, Becomes .remoteRackOpen s q ∧ q.mem = s.p.mem ∧ q.cores = s.p.cores ∧ q.fab.rx = s.p.fab.rx.erase k ∧
      ∃ a, a ∈ q.fab.txq ∧ a.dst = k.src ∧ a.cls = 1 ∧ a.kind = 0 ∧ a.ref = k.ref ∧ a.payload = leBytes 32 (b2n (s.p.rackOpens k)) := by
  obtain ⟨w, hw⟩ : ∃ w, w = if s.p.rackOpens k = true then s.p.takeRx k else
      (s.p.takeRx k).refuseRemote (gLocal (leAt k.payload 0 8)) (leAt k.payload 12 4) (leAt k.payload 16 1 == 1) := ⟨_, rfl⟩
  have hq := remoteRackOpen_replies hk
  have h : Works (s.p.takeRx k) w := hw ▸ Works.ite _ (Works.refl _) (Works.refuseRemote _ _ _ _)
  have hm : w.mem = s.p.mem := by
    rw [hw]
    split
    · rfl
    · exact (Part.refuseRemote_keeps ..).1
  rw [← hw] at hq
  exact ⟨_, hq, hm, h.cores, h.rx, _, List.mem_append_right _ List.mem_cons_self, rfl, rfl, rfl, rfl, rfl⟩

section
variable (hk : s.p.waiting 1 0 = some k) (ht : s.p.xfer (refSector k.ref) (refTag k.ref) = some t) (h1 : t.stage = 1)
include hk ht h1

/-- What the answer to an open makes of its transfer (R313). -/
theorem rackOpenReply_becomes : Becomes .rackOpenReply s
    (if leAt k.payload 0 1 = 1 then
      if gChip t.src = s.p.chip then (s.p.takeRx k).setXfer (refSector k.ref) { t with stage := 2 }
      else Part.pullUnits 32 ((s.p.takeRx k).setXfer (refSector k.ref) { t with stage := 3 }) (refSector k.ref) { t with stage := 3 }
    else
      ((((s.p.takeRx k).setRck (refSector k.ref)
        { s.p.rck (refSector k.ref) with transfers := (s.p.rck (refSector k.ref)).transfers.filter fun y => y.tag != t.tag }).rckErr
          (refSector k.ref) 3 t.core t.pair (if gChip t.src = s.p.chip then t.dst else t.src)).rackRefuse (refSector k.ref) t.core t.pair t.dst
            t.ev t.sig)) := by
  have ht' : (s.p.takeRx k).xfer (refSector k.ref) (refTag k.ref) = some t := ht
  change execRackOpenReply s = _
  unfold execRackOpenReply State.run
  dsimp only
  rw [hk]
  dsimp only
  rw [ht']
  dsimp only
  rw [if_neg (fun h => h h1)]
  rfl

theorem rackOpenReply_leaves :
    ∃ q, Becomes .rackOpenReply s q ∧ q.mem = s.p.mem ∧ q.cores = s.p.cores ∧ q.fab.rx = s.p.fab.rx.erase k ∧
      (leAt k.payload 0 1 = 1 → gChip t.src = s.p.chip → q.xfer (refSector k.ref) (refTag k.ref) = some { t with stage := 2 }) ∧
      (leAt k.payload 0 1 = 1 → gChip t.src ≠ s.p.chip → (q.xfer (refSector k.ref) (refTag k.ref)).map (·.stage) = some 3) ∧
      (leAt k.payload 0 1 ≠ 1 → (q.rck (refSector k.ref)).transfers = (s.p.rck (refSector k.ref)).transfers.filter fun z => z.tag != t.tag) := by
  refine ⟨_, rackOpenReply_becomes hk ht h1, ?_⟩
  obtain ⟨y, hy⟩ : ∃ y, y = refSector k.ref := ⟨_, rfl⟩
  have ht' : (s.p.takeRx k).xfer y (refTag k.ref) = some t := hy ▸ ht
  rw [← hy]
  by_cases ha : leAt k.payload 0 1 = 1
  · rw [if_pos ha]
    by_cases hc : gChip t.src = s.p.chip
    · rw [if_pos hc]
      exact ⟨rfl, rfl, rfl, fun _ _ => Part.xfer_setXfer ht' (Part.xfer_tag (t := t) ht'), fun _ h => absurd hc h, fun h => absurd ha h⟩
    · rw [if_neg hc]
      obtain ⟨t', hte⟩ : ∃ t' : Transfer, t' = { t with stage := 3 } := ⟨_, rfl⟩
      have hx := Part.xfer_setXfer (t' := t') ht' (by rw [hte]; exact Part.xfer_tag (t := t) ht')
      rw [← hte]
      obtain ⟨h2, h3, h4, h5⟩ := Part.pullUnits_keeps 32 hx
      exact ⟨h2, h3, h4, fun _ h => absurd h hc, fun _ _ => h5.trans (by rw [hte]), fun h => absurd ha h⟩
  · rw [if_neg ha]
    refine ⟨by simp, by simp, ?_, fun h => absurd h ha, fun h => absurd h ha, fun _ => ?_⟩
    · unfold Part.rackRefuse Part.rckErr
      rw [(Works.bump _ _ _).rx, Part.rackSignals_rx, (Works.noteErr _ _ _ _).rx]
      rfl
    · unfold Part.rackRefuse Part.rckErr Part.rck
      simp [Part.setRck, spGet_spSet]

end

/-- A pull is answered with the unit whole, or refused (R304, R313). -/
theorem rackPullRequest_becomes (hk : s.p.waiting 0 1 = some k) (hu : s.p.tick.unwinding = false) :
    let a := gLocal (leAt k.payload 0 8)
    let len := leAt k.payload 8 4
    let l := (s.p.takeRx k).loadGrans 11 (leAt k.payload 12 4) a len
    Becomes .rackPullRequest s (if s.p.rackSrcOk a len = false then (s.p.takeRx k).refuseRemote a (leAt k.payload 12 4) false
      else (l.2.sendPacket k.src 1 1 k.ref (rackFlags 0 l.1) (rackBytes l.1)).sentFor (leAt k.payload 12 4) len) := by
  intro a len l
  have hs : s.p.serves = true := by
    unfold Part.serves
    rw [hu]
    unfold Part.waiting at hk
    split at hk
    · simp_all
    · simp at hk
  change execRackPullRequest s = _
  unfold execRackPullRequest State.run
  dsimp only
  rw [if_pos hs, hk]
  dsimp only
  cases hr : s.p.rackSrcOk a len
  · rw [if_pos rfl]
    refine congrArg (fun p => (.next { s with p := p } : Answer)) (if_pos ?_)
    change (!s.p.rackSrcOk a len) = true
    rw [hr]
    rfl
  · rw [if_neg (by simp : ¬ true = false)]
    refine congrArg (fun p => (.next { s with p := p } : Answer)) (if_neg ?_)
    change ¬ (!s.p.rackSrcOk a len) = true
    rw [hr]
    simp

theorem rackPullRequest_leaves (hk : s.p.waiting 0 1 = some k) (hu : s.p.tick.unwinding = false) :
    let a := gLocal (leAt k.payload 0 8)
    let len := leAt k.payload 8 4
    ∃ q, Becomes .rackPullRequest s q ∧ q.cores = s.p.cores ∧ q.fab.rx = s.p.fab.rx.erase k ∧
      (s.p.rackSrcOk a len = true → ∃ b, b ∈ q.fab.txq ∧ b.dst = k.src ∧ b.cls = 1 ∧ b.kind = 1 ∧ b.ref = k.ref ∧
        (isHbm a = false → b.payload = rackBytes (s.p.loadGrans 11 (leAt k.payload 12 4) a len).1)) ∧
      (s.p.rackSrcOk a len = false → q.fab.txq = s.p.fab.txq ∧ q.mem = s.p.mem) := by
  intro a len
  have hq := rackPullRequest_becomes hk hu
  obtain ⟨l, hl⟩ : ∃ l, l = (s.p.takeRx k).loadGrans 11 (leAt k.payload 12 4) a len := ⟨_, rfl⟩
  have hw : Works (s.p.takeRx k) l.2 := hl ▸ Works.ofLoads (Loads.loadGrans _ 11 _ _ _)
  dsimp only at hq
  rw [← hl] at hq
  refine ⟨_, hq, ?_⟩
  cases hr : s.p.rackSrcOk a len
  · rw [if_pos rfl]
    have h := Works.refuseRemote (s.p.takeRx k) a (leAt k.payload 12 4) false
    have h' := Part.refuseRemote_keeps (s.p.takeRx k) a (leAt k.payload 12 4) false
    exact ⟨h.cores, h.rx, fun h => absurd h (by decide), fun _ => ⟨h'.2, h'.1⟩⟩
  · rw [if_neg (by decide)]
    refine ⟨hw.cores, hw.rx, fun _ => ⟨_, List.mem_append_right _ List.mem_cons_self, rfl, rfl, rfl, rfl, fun ha => ?_⟩, fun h => absurd h (by decide)⟩
    rw [hl]
    exact congrArg rackBytes (Part.loadGrans_above (p := s.p) (q := s.p.takeRx k) rfl 11 _ ha len).1

end

end Sys2Proof.Machine
end

section
/-!
PROOF. Racking moves data (O32): what other parts ask for, and the end of a transfer.
-/
namespace Sys2Proof.Machine

section
variable {s : State} {k : Packet} {t : Transfer}

/-- A pushed unit is written whole and acknowledged, or discarded whole (R304, R313). -/
theorem rackPushUnit_becomes (hk : s.p.waiting 2 0 = some k) :
    let a := gLocal (leAt k.payload 0 8)
    let len := leAt k.payload 8 4
    Becomes .rackPushUnit s (if s.p.rackInOk a len = false then (s.p.takeRx k).refuseRemote a (leAt k.payload 12 4) true
      else ((s.p.takeRx k).unitGrans 11 (leAt k.payload 12 4) a (payloadGrans k.poison 1 ((k.payload.drop 32).take len))).sendPacket k.src 1 5
        (leAt k.payload 16 4) 0 (leBytes 32 0)) := by
  intro a len
  change execRackPushUnit s = _
  unfold execRackPushUnit State.run
  dsimp only
  rw [hk]
  dsimp only
  cases hr : s.p.rackInOk a len
  · rw [if_pos rfl]
    refine congrArg (fun p => (.next { s with p := p } : Answer)) (if_pos ?_)
    change (!s.p.rackInOk a len) = true
    rw [hr]
    rfl
  · rw [if_neg (by simp : ¬ true = false)]
    refine congrArg (fun p => (.next { s with p := p } : Answer)) (if_neg ?_)
    change ¬ (!s.p.rackInOk a len) = true
    rw [hr]
    simp

theorem rackPushUnit_leaves (hk : s.p.waiting 2 0 = some k) :
    let a := gLocal (leAt k.payload 0 8)
    let len := leAt k.payload 8 4
    ∃ q, Becomes .rackPushUnit s q ∧ q.cores = s.p.cores ∧ q.fab.rx = s.p.fab.rx.erase k ∧
      (s.p.rackInOk a len = true → (∃ b ∈ q.fab.txq, b.dst = k.src ∧ b.cls = 1 ∧ b.kind = 5 ∧ b.ref = leAt k.payload 16 4) ∧
        (isHbm a = false →
          q.mem = (s.p.putGrans 11 (leAt k.payload 12 4) a (payloadGrans k.poison 1 ((k.payload.drop 32).take len))).mem)) ∧
      (s.p.rackInOk a len = false → q.fab.txq = s.p.fab.txq ∧ q.mem = s.p.mem) := by
  intro a len
  refine ⟨_, rackPushUnit_becomes hk, ?_⟩
  cases hr : s.p.rackInOk a len
  · rw [if_pos rfl]
    have h := Works.refuseRemote (s.p.takeRx k) a (leAt k.payload 12 4) true
    have h' := Part.refuseRemote_keeps (s.p.takeRx k) a (leAt k.payload 12 4) true
    exact ⟨h.cores, h.rx, fun h => absurd h (by decide), fun _ => ⟨h'.2, h'.1⟩⟩
  · rw [if_neg (by simp : ¬ true = false)]
    have h := Works.unitGrans (s.p.takeRx k) 11 (leAt k.payload 12 4) a (payloadGrans k.poison 1 ((k.payload.drop 32).take len))
    have hm := fun ha => Part.unitGrans_above (p := s.p) (q := s.p.takeRx k) rfl 11 (leAt k.payload 12 4) (a := a) ha
      (payloadGrans k.poison 1 ((k.payload.drop 32).take len))
    obtain ⟨w, hw⟩ : ∃ w, w = (s.p.takeRx k).unitGrans 11 (leAt k.payload 12 4) a (payloadGrans k.poison 1 ((k.payload.drop 32).take len)) := ⟨_, rfl⟩
    rw [← hw] at h hm ⊢
    exact ⟨h.cores, h.rx, fun _ => ⟨⟨_, List.mem_append_right _ List.mem_cons_self, rfl, rfl, rfl, rfl⟩, hm⟩, fun h => absurd h (by decide)⟩

/-- The destination has a unit of a push (R314). -/
theorem rackPushAck_becomes (hk : s.p.waiting 1 5 = some k) (ht : s.p.xfer (refSector k.ref) (refTag k.ref) = some t) :
    Becomes .rackPushAck s ((s.p.takeRx k).setXfer (refSector k.ref) { t with waiting := t.waiting.filter fun u => u.1 != k.ref >>> 15 }) := by
  have ht' : (s.p.takeRx k).xfer (refSector k.ref) (refTag k.ref) = some t := ht
  change execRackPushAck s = _
  unfold execRackPushAck State.run
  dsimp only
  rw [hk]
  dsimp only
  rw [ht']

/-- The transfer at its end, its signals still to be sent. -/
def Part.rackEnded (p : Part) (x : Nat) (t : Transfer) : Part :=
  let w := p.setRck x { p.rck x with transfers := (p.rck x).transfers.filter fun y => y.tag != t.tag }
  if t.poisonSeen then w.rckErr x 4 t.core t.pair t.src else w

theorem rackComplete_becomes {sector : BitVec 2} {tag : Nat} (ht : s.p.xfer sector.toNat tag = some t) (hw : s.p.working = true)
    (h1 : t.stage ≠ 1) (hu : t.units = []) (hn : t.waiting = []) :
    Becomes (.rackComplete sector tag) s (((s.p.rackEnded sector.toNat t).rackSignals t.core t.pair t.dst t.ev t.sig).bump
      (RCK_STAT_XFER sector.toNat) 1) := by
  have htag := Part.xfer_tag ht
  have hc : (!s.p.working || t.stage = 1 || !t.units.isEmpty || !t.waiting.isEmpty) = false := by simp [hw, h1, hu, hn]
  change execRackComplete sector tag s = _
  unfold execRackComplete State.run
  dsimp only
  rw [ht]
  dsimp only
  rw [hc, if_neg Bool.false_ne_true, ← htag]
  rfl

theorem Part.rackEnded_keeps (p : Part) (x : Nat) (t : Transfer) :
    (p.rackEnded x t).mem = p.mem ∧ (p.rackEnded x t).cores = p.cores ∧
    ((p.rackEnded x t).rck x).transfers = (p.rck x).transfers.filter (fun y => y.tag != t.tag) := by
  unfold Part.rackEnded
  dsimp only
  split <;> simp [Part.rckErr, Part.setRck, Part.rck, spGet_spSet]

/-- The end of a transfer leaves who may be signalled. -/
theorem Part.rackEnded_signals (p : Part) (x : Nat) (t : Transfer) (g c : Nat) :
    (p.rackEnded x t).chip = p.chip ∧ (p.rackEnded x t).inSpadOf g = p.inSpadOf g ∧ (p.rackEnded x t).hasRole c = p.hasRole c := by
  unfold Part.rackEnded
  dsimp only
  split
  · have hc := (Works.noteErr (p.setRck x { p.rck x with transfers := (p.rck x).transfers.filter fun y => y.tag != t.tag }) (RCK_STICKY x) 4
      { mkErr 7 4 0 with sector := x, core := t.core, pair := t.pair, addr := t.src })
    obtain ⟨w, hw⟩ : ∃ w, w = (p.setRck x { p.rck x with transfers := (p.rck x).transfers.filter fun y => y.tag != t.tag }).rckErr x 4 t.core t.pair t.src := ⟨_, rfl⟩
    have h1 : w.chip = p.chip := by
      rw [hw]
      unfold Part.chip Part.rckErr
      rw [hc.fab]
      rfl
    have h2 : w.big = p.big := by
      rw [hw]
      simp [Part.rckErr]
    have h3 : ∀ j, besidesRecords j → RCK_STICKY x ≠ j → RCK_STICKY x + 4 ≠ j → w.rd j = p.rd j := fun j hj h h' => by
      rw [hw]
      exact Part.rd_noteErr_besides hj _ _ _ _ h h'
    have h4 : ∀ j, j < 0x100000 → j ≠ TIK_STATUS → w.rd j = p.rd j := fun j hj ht =>
      h3 j (besidesRecords_hub hj ht) (by unfold RCK_STICKY secBase; omega) (by unfold RCK_STICKY secBase; omega)
    have h5 : w.rd (COR_CTRL c) = p.rd (COR_CTRL c) := h3 _ (besidesRecords_core (by decide)) (by simp only [RCK_STICKY, COR_CTRL, corBase, secBase]; omega)
      (by simp only [RCK_STICKY, COR_CTRL, corBase, secBase]; omega)
    rw [← hw]
    refine ⟨h1, ?_, ?_⟩
    · unfold Part.inSpadOf Part.inWindow Part.validCore Part.coresPerSector
      rw [h1, h2]
    · have hk : w.kind = p.kind := by
        unfold Part.kind
        rw [Part.getF_congr _ _ (h4 TIK_SEASON_POS (by decide) (by decide)),
          Part.getF_congr _ _ (h4 (TIK_SPAN _) (by have := Part.getF_lt p TIK_SEASON_POS 16 4; unfold TIK_SPAN; omega) (by unfold TIK_SPAN TIK_STATUS; omega))]
      unfold Part.hasRole Part.validCore Part.coresPerSector
      rw [h2, hk, Part.getB_congr _ h5, Part.getB_congr _ h5]
  · exact ⟨rfl, rfl, rfl⟩

theorem rackComplete_leaves {sector : BitVec 2} {tag : Nat} (ht : s.p.xfer sector.toNat tag = some t) (hw : s.p.working = true)
    (h1 : t.stage ≠ 1) (hu : t.units = []) (hn : t.waiting = []) :
    ∃ q, Becomes (.rackComplete sector tag) s q ∧ q.mem = s.p.mem ∧ q.cores = s.p.cores ∧
      (q.rck sector.toNat).transfers = ((s.p.rck sector.toNat).transfers.filter fun y => y.tag != tag) ∧
      (bit t.sig 0 = true ∨ (t.sig ≠ 0 ∧ s.p.inSpadOf t.dst = false) → (t.core, t.ev) ∈ q.tick.signals) ∧
      (bit t.sig 1 = true → s.p.inSpadOf t.dst = true → gChip t.dst = s.p.chip → s.p.hasRole (windowCore (gLocal t.dst)) = true →
        (windowCore (gLocal t.dst), t.ev) ∈ q.tick.signals) := by
  have hq := rackComplete_becomes ht hw h1 hu hn
  obtain ⟨h2, h3, h4⟩ := s.p.rackEnded_keeps sector.toNat t
  obtain ⟨h5, h6, h7⟩ := s.p.rackEnded_signals sector.toNat t t.dst (windowCore (gLocal t.dst))
  obtain ⟨w, hwd⟩ : ∃ w, w = s.p.rackEnded sector.toNat t := ⟨_, rfl⟩
  rw [← hwd] at hq h2 h3 h4 h5 h6 h7
  obtain ⟨h8, h9⟩ := w.rackSignals_sends t.core t.pair t.dst t.ev t.sig
  rw [h5, h6, h7] at h9
  rw [h6] at h8
  refine ⟨_, hq, by simp [h2], by simp [h3], ?_, h8, h9⟩
  rw [← Part.xfer_tag ht, ← h4]
  exact congrArg Rack.transfers (Part.rck_congr (by simp) _)

/-- A word of a granule that is not poison (R293, R308). -/
theorem Part.loadN_gran (p : Part) (g k : Nat) {a : Nat} (hb : isHbm a = false) (h4 : a % 4 = 0) (hg : p.granPoison a = false) :
    p.loadN g k a 4 = ((leNat (p.rawBytes a 4), none), p) := by
  have hm : min (32 - a % 32) 4 = 4 := by omega
  unfold Part.loadN Part.load
  rw [show (4 : Nat) / 32 + 2 = 1 + 1 from rfl]
  unfold Part.loadLoop Part.readPiece
  rw [if_neg (by decide), hb]
  dsimp only
  rw [if_neg Bool.false_ne_true, if_neg Bool.false_ne_true, hm, hg, if_neg Bool.false_ne_true]
  simp [Part.loadLoop, firstPoison]

theorem remoteLdg_refused (hk : s.p.irrRequest = some k) (h3 : k.kind = 3) (hm : s.p.mayRead (gLocal (leAt k.payload 0 8)) 4 = false) :
    Becomes .remoteLdgStg s (((s.p.takeRx k).refuseRemote (gLocal (leAt k.payload 0 8)) (leAt k.payload 12 4) false).sendPacket k.src 1 3 k.ref 0
      (leBytes 32 (2 ^ 32))) := by
  change execRemoteLdgStg s = _
  unfold execRemoteLdgStg State.run
  dsimp only
  rw [hk]
  dsimp only
  rw [if_pos h3]
  refine congrArg (fun p => (.next { s with p := p } : Answer)) (if_pos ?_)
  change (!s.p.mayRead _ 4) = true
  rw [hm]
  rfl

/-- What a word read for another part leaves, and what it returns. -/
theorem remoteLdg_reads (hk : s.p.irrRequest = some k) (h3 : k.kind = 3) (hm : s.p.mayRead (gLocal (leAt k.payload 0 8)) 4 = true) :
    let a := gLocal (leAt k.payload 0 8)
    let l := ((s.p.takeRx k).bump (MEM_STAT_LDG (s.p.checkSector a)) 1).loadN 11 (leAt k.payload 12 4) a 4
    Becomes .remoteLdgStg s ((l.2.sendPacket k.src 1 3 k.ref (b2n l.1.2.isSome) (match l.1.2 with
      | some t => tokenBytes t
      | none => leBytes 32 l.1.1)).sentFor (leAt k.payload 12 4) 32) := by
  intro a l
  change execRemoteLdgStg s = _
  unfold execRemoteLdgStg State.run
  dsimp only
  rw [hk]
  dsimp only
  rw [if_pos h3]
  refine congrArg (fun p => (.next { s with p := p } : Answer)) ((if_neg ?_).trans ?_)
  · change ¬ (!s.p.mayRead _ 4) = true
    rw [hm]
    decide
  · rfl

/-- An LDG of another part (R304, R308, R309). -/
theorem remoteLdg_answers (hk : s.p.irrRequest = some k) (h3 : k.kind = 3) :
    let a := gLocal (leAt k.payload 0 8)
    ∃ q, Becomes .remoteLdgStg s q ∧ q.cores = s.p.cores ∧ q.fab.rx = s.p.fab.rx.erase k ∧
      (s.p.mayRead a 4 = false → q.mem = s.p.mem ∧
        ∃ b, b ∈ q.fab.txq ∧ b.dst = k.src ∧ b.cls = 1 ∧ b.kind = 3 ∧ b.ref = k.ref ∧ b.payload = leBytes 32 (2 ^ 32)) ∧
      (s.p.mayRead a 4 = true → a % 4 = 0 → isHbm a = false → s.p.granPoison a = false → q.mem = s.p.mem ∧
        ∃ b, b ∈ q.fab.txq ∧ b.dst = k.src ∧ b.cls = 1 ∧ b.kind = 3 ∧ b.ref = k.ref ∧ b.payload = leBytes 32 (leNat (s.p.rawBytes a 4))) := by
  intro a
  cases hm : s.p.mayRead a 4
  · have h := Works.refuseRemote (s.p.takeRx k) a (leAt k.payload 12 4) false
    exact ⟨_, remoteLdg_refused hk h3 hm, h.cores, h.rx,
      fun _ => ⟨(Part.refuseRemote_keeps ..).1, _, List.mem_append_right _ List.mem_cons_self, rfl, rfl, rfl, rfl, rfl⟩, fun h => absurd h (by decide)⟩
  · have hq := remoteLdg_reads hk h3 hm
    dsimp only at hq
    obtain ⟨w, hw⟩ : ∃ w, w = (s.p.takeRx k).bump (MEM_STAT_LDG (s.p.checkSector a)) 1 := ⟨_, rfl⟩
    obtain ⟨l, hl⟩ : ∃ l, l = w.loadN 11 (leAt k.payload 12 4) a 4 := ⟨_, rfl⟩
    rw [← hw, ← hl] at hq
    have hws : Works (s.p.takeRx k) w := hw ▸ Works.bump _ _ 1
    have h := hws.trans (hl ▸ Works.loadN w 11 (leAt k.payload 12 4) a 4 : Works w l.2)
    refine ⟨_, hq, h.cores, h.rx, fun h => absurd h (by decide), fun _ h4 hb hg => ?_⟩
    have hwm : w.mem = s.p.mem := by
      rw [hw]
      rfl
    have hr : w.rawBytes a 4 = s.p.rawBytes a 4 := by
      unfold Part.rawBytes
      rw [hwm]
    have hlv : l = ((leNat (s.p.rawBytes a 4), none), w) := by
      rw [hl, Part.loadN_gran w 11 _ hb h4 (by unfold Part.granPoison; rw [hwm]; exact hg), hr]
    rw [hlv]
    exact ⟨hwm, _, List.mem_append_right _ List.mem_cons_self, rfl, rfl, rfl, rfl, rfl⟩

/-- An STG of another part is stored where its map allows, and answered (R304, R309). -/
theorem remoteStg_becomes (hk : s.p.irrRequest = some k) (h4 : k.kind = 4) :
    let a := gLocal (leAt k.payload 0 8)
    let ok := s.p.mayInbound a 4
    Becomes .remoteLdgStg s ((if ok = true then ((s.p.takeRx k).bump (MEM_STAT_LDG (s.p.checkSector a)) 1).unitStore 11 (leAt k.payload 12 4) a
        (leBytes 4 (leAt k.payload 8 4)) none
      else (s.p.takeRx k).refuseRemote a (leAt k.payload 12 4) true).sendPacket k.src 1 4 k.ref 0 (leBytes 32 (if ok = true then 0 else 2 ^ 32))) := by
  intro a ok
  change execRemoteLdgStg s = _
  unfold execRemoteLdgStg State.run
  dsimp only
  rw [hk]
  dsimp only
  rw [if_neg (by omega)]
  rfl

theorem remoteStg_answers (hk : s.p.irrRequest = some k) (hk4 : k.kind = 4) :
    let a := gLocal (leAt k.payload 0 8)
    ∃ q, Becomes .remoteLdgStg s q ∧ q.cores = s.p.cores ∧ q.fab.rx = s.p.fab.rx.erase k ∧
      (∃ b, b ∈ q.fab.txq ∧ b.dst = k.src ∧ b.cls = 1 ∧ b.kind = 4 ∧ b.ref = k.ref ∧
        b.payload = leBytes 32 (if s.p.mayInbound a 4 = true then 0 else 2 ^ 32)) ∧
      (s.p.mayInbound a 4 = false → q.mem = s.p.mem) ∧
      (s.p.mayInbound a 4 = true → a % 4 = 0 → isHbm a = false → s.p.granPoison a = false →
        ∀ y, q.byteAt y = if a ≤ y ∧ y < a + 4 then (leBytes 4 (leAt k.payload 8 4)).getD (y - a) 0#8 else s.p.byteAt y) := by
  intro a
  have hq := remoteStg_becomes hk hk4
  dsimp only at hq
  obtain ⟨w, hw⟩ : ∃ w, w = if s.p.mayInbound a 4 = true then ((s.p.takeRx k).bump (MEM_STAT_LDG (s.p.checkSector a)) 1).unitStore 11
      (leAt k.payload 12 4) a (leBytes 4 (leAt k.payload 8 4)) none else (s.p.takeRx k).refuseRemote a (leAt k.payload 12 4) true := ⟨_, rfl⟩
  have h : Works (s.p.takeRx k) w := hw ▸ Works.ite _ ((Works.bump _ _ 1).trans (Works.unitStore _ 11 _ _ _ none)) (Works.refuseRemote _ _ _ _)
  rw [← hw] at hq
  refine ⟨_, hq, h.cores, h.rx, ⟨_, List.mem_append_right _ List.mem_cons_self, rfl, rfl, rfl, rfl, rfl⟩, fun hm => ?_, fun hm h4 hb hg y => ?_⟩
  · rw [hm, if_neg Bool.false_ne_true] at hw
    change w.mem = _
    rw [hw]
    exact (Part.refuseRemote_keeps ..).1
  · rw [hm, if_pos rfl] at hw
    refine (Part.byteAt_congr (show _ = w.mem from rfl) y).trans ?_
    obtain ⟨v, hv⟩ : ∃ v, v = ((s.p.takeRx k).bump (MEM_STAT_LDG (s.p.checkSector a)) 1).toSpad a := ⟨_, rfl⟩
    have hvm : v.mem = s.p.mem := by
      rw [hv, (Part.toSpad_frame ..).1]
      rfl
    have hst := Part.store_gran v 11 (leAt k.payload 12 4) a (leBytes 4 (leAt k.payload 8 4)) hb (List.ne_nil_of_length_pos (by simp))
      (by rw [length_leBytes]; omega) (by simp) (by unfold Part.granPoison; rw [hvm]; exact hg)
    unfold Part.unitStore at hw
    rw [← hv, hst] at hw
    rw [hw, Part.byteAt, spGet_putBytes, length_leBytes]
    simp only [hvm, Part.byteAt]

end

/-- Settles O32: each step's answer in full, the rest from what reads and writes of memory leave. -/
theorem rackingEvents : Obligations.RackingEvents := by
  unfold Obligations.RackingEvents
  intro s sector tag p x answers
  exact ⟨fun t u rest ht hs h0 hu => rackUnitReadDone_leaves ht hs h0 hu, fun k hk => remoteRackOpen_leaves hk,
    fun k t hk ht h1 => rackOpenReply_leaves hk ht h1, fun k hk hu => rackPullRequest_leaves hk hu, fun k hk => rackPushUnit_leaves hk,
    fun k t hk ht => ⟨_, rackPushAck_becomes hk ht, rfl, Part.xfer_setXfer (t := t) ht (Part.xfer_tag (t := t) ht)⟩,
    fun t ht hw h1 hu hn => rackComplete_leaves ht hw h1 hu hn, fun k hk h3 => remoteLdg_answers hk h3, fun k hk h4 => remoteStg_answers hk h4⟩

end Sys2Proof.Machine
end

section
/-!
PROOF. Buckets of the reduction (O36).
-/
namespace Sys2Proof.Machine

/-- What the reduction's reads, writes and sends leave: the cores, what has arrived, and the buckets, but for the mark of a poisoned output. -/
structure Reduces (p q : Part) : Prop where
  cores : q.cores = p.cores
  rx : q.fab.rx = p.fab.rx
  bkt : ∀ b, q.bkt b = { p.bkt b with poisonSeen := (q.bkt b).poisonSeen }

theorem Part.bkt_congr {p q : Part} (h : q.buckets = p.buckets) (b : Nat) : q.bkt b = p.bkt b := by
  unfold Part.bkt
  rw [h]

namespace Reduces

theorem ofSame {p q : Part} (hc : q.cores = p.cores) (hr : q.fab.rx = p.fab.rx) (hb : q.buckets = p.buckets) : Reduces p q :=
  ⟨hc, hr, fun b => by rw [Part.bkt_congr hb]⟩

theorem ofWorks {p q : Part} (h : Works p q) : Reduces p q := ofSame h.cores h.rx h.buckets

theorem refl (p : Part) : Reduces p p := ofSame rfl rfl rfl

theorem trans {p q r : Part} (h : Reduces p q) (h' : Reduces q r) : Reduces p r :=
  ⟨h'.cores.trans h.cores, h'.rx.trans h.rx, fun b => by rw [h'.bkt b, h.bkt b]⟩

theorem each {α : Type} {f : Part → α → Part} (l : List α) (h : ∀ x p, Reduces p (f p x)) (p : Part) : Reduces p (p.each l f) := by
  induction l generalizing p with
  | nil => exact refl p
  | cons x l ih =>
    rw [Part.each_cons]
    exact (h x p).trans (ih _)

section
variable (p : Part)

theorem redPoison (b t : Nat) : Reduces p (p.redPoison b t) := by
  unfold Part.redPoison
  extract_lets x w v
  split
  · exact refl p
  · have h1 : Reduces p w := ⟨rfl, rfl, fun a => by
      unfold w
      rw [Part.bkt_setBkt]
      split
      · rename_i e
        subst e
        rfl
      · rfl⟩
    exact (h1.trans (ofWorks (Works.consume w _ 8 0xFFFF _ t))).trans (ofWorks (Works.noteErr v RED_STICKY 1 _))

theorem redOut (b a : Nat) (gs : List (List Byte × Option Nat)) : Reduces p (p.redOut b a gs) := by
  unfold Part.redOut
  have h := ofWorks (Works.ofStores (Stores.putGrans p 8 (p.bktPair b) a gs))
  dsimp only
  split
  · exact h.trans (redPoison _ b _)
  · exact h

end

end Reduces

/-- What sending blocks leaves. -/
structure Posts (p q : Part) : Prop where
  whole : q = { p with regs := q.regs, obs := q.obs, fab := q.fab }
  rx : q.fab.rx = p.fab.rx
  chip : q.fab.idInForce = p.fab.idInForce
  txq : p.fab.txq <+: q.fab.txq
  rd : ∀ j, j ≠ RED_STAT_TX → q.rd j = p.rd j

namespace Posts

theorem refl (p : Part) : Posts p p := ⟨rfl, rfl, rfl, List.prefix_refl _, fun _ _ => rfl⟩

theorem trans {p q r : Part} (h : Posts p q) (h' : Posts q r) : Posts p r :=
  ⟨by rw [h'.whole, h.whole], h'.rx.trans h.rx, h'.chip.trans h.chip, h.txq.trans h'.txq, fun j hj => (h'.rd j hj).trans (h.rd j hj)⟩

theorem each {α : Type} {f : Part → α → Part} (l : List α) (h : ∀ x p, Posts p (f p x)) (p : Part) : Posts p (p.each l f) := by
  induction l generalizing p with
  | nil => exact refl p
  | cons x l ih =>
    rw [Part.each_cons]
    exact (h x p).trans (ih _)

theorem reduces {p q : Part} (h : Posts p q) : Reduces p q := Reduces.ofSame (by rw [h.whole]) h.rx (by rw [h.whole])

theorem mem {p q : Part} (h : Posts p q) : q.mem = p.mem := by rw [h.whole]

section
variable (p : Part)

theorem sendPacket (d c k r t : Nat) (bs : List Byte) : Posts p (p.sendPacket d c k r t bs) :=
  ⟨rfl, rfl, rfl, List.prefix_append _ _, fun _ _ => rfl⟩

theorem sendBlock (d k t : Nat) (bs : List Byte) : Posts p (p.sendBlock d k t bs).2 := by
  unfold Part.sendBlock
  extract_lets b w segs n
  have h : Posts p w := ⟨rfl, rfl, rfl, List.prefix_refl _, fun _ _ => rfl⟩
  exact h.trans (each _ (fun (x : Nat × List Byte) v => sendPacket v d 2 k _ _ x.2) w)

/-- A block with bytes goes out in at least one packet (R334). -/
theorem sendBlock_sends (d k t : Nat) {bs : List Byte} (h : bs ≠ []) :
    ∃ a ∈ (p.sendBlock d k t bs).2.fab.txq, a.dst = d ∧ a.cls = 2 ∧ a.kind = k := by
  unfold Part.sendBlock
  extract_lets b w segs n
  obtain ⟨c, l, hl⟩ : ∃ c l, segs = c :: l := by
    refine ⟨bs.take 2048, chunks 2048 63 (bs.drop 2048), ?_⟩
    have he : bs.isEmpty = false := by simpa using h
    unfold segs
    rw [chunks, he]
    rfl
  have hn : List.range n = 0 :: (List.range l.length).map Nat.succ := by
    unfold n
    rw [hl, List.length_cons, List.range_succ_eq_map]
  dsimp only
  rw [hl, hn, List.zip_cons_cons, Part.each_cons]
  refine ⟨_, (each _ (fun (x : Nat × List Byte) v => sendPacket v d 2 k (b <<< 12 + x.1 <<< 6 + (n - 1)) (fld t (64 * x.1) 64) x.2) _).txq.subset
    (List.mem_append_right _ List.mem_cons_self), rfl, rfl, rfl⟩

theorem sentFor (k n : Nat) : Posts p (p.sentFor k n) := ⟨rfl, rfl, rfl, List.prefix_refl _, fun _ _ => rfl⟩

theorem bump (n : Nat) : Posts p (p.bump RED_STAT_TX n) :=
  ⟨by simp [Part.bump, Part.wr], by simp, by simp, by simp, fun j hj => Part.rd_bump_other _ _ hj.symm⟩

theorem redSend (fuel b d k st step first sc per gw n : Nat) (gs : List (List Byte × Option Nat)) :
    Posts p (Part.redSend fuel p b d k st step first sc per gw n gs) := by
  induction fuel generalizing p first n gs with
  | zero => exact refl p
  | succ fuel ih =>
    unfold Part.redSend
    split
    · exact refl p
    · extract_lets m mine bytes
      exact (((sendBlock p d k (granFlags mine) bytes).trans (bump _ bytes.length)).trans (sentFor _ _ _)).trans (ih _ _ _ _)

/-- Elements go out in at least one packet. -/
theorem redSend_sends (fuel b d k st step first sc per gw : Nat) {n : Nat} (gs : List (List Byte × Option Nat)) (hn : 0 < n) :
    ∃ a ∈ (Part.redSend (fuel + 1) p b d k st step first sc per gw n gs).fab.txq, a.dst = d ∧ a.cls = 2 ∧ a.kind = k := by
  unfold Part.redSend
  rw [if_neg (by omega)]
  extract_lets m mine bytes
  have hb : bytes ≠ [] := by
    refine List.ne_nil_of_length_pos ?_
    unfold bytes
    rw [List.length_append]
    simp [redHeader]
  obtain ⟨a, ha, hd⟩ := sendBlock_sends p d k (granFlags mine) hb
  clear_value bytes mine m
  dsimp only
  generalize (p.sendBlock d k (granFlags mine) bytes).2 = v at ha ⊢
  refine ⟨a, List.IsPrefix.subset (Posts.txq ?_) ha, hd⟩
  exact ((bump v bytes.length).trans (sentFor _ _ _)).trans (redSend _ fuel b d k st step _ sc per gw _ _)

theorem redSendChunk (b i t s a n : Nat) : Posts p (p.redSendChunk b i t s a n) := redSend p _ b _ 3 i t _ 0 16384 8 n _

theorem sendBits (b d k st first sc : Nat) (bits : List Bool) (t : Option Nat) : Posts p (p.sendBits b d k st first sc bits t) :=
  redSend p _ b d k st 0 first sc 524288 256 _ _

end

end Posts

end Sys2Proof.Machine
end

section
/-!
PROOF. Buckets of the reduction (O36): starts, steps and completion.
-/
namespace Sys2Proof.Machine

theorem Part.nextReduce_congr {p q : Part} (h : q.rd RED_BOX = p.rd RED_BOX) (i : Nat) : q.nextReduce i = p.nextReduce i := by
  unfold Part.nextReduce Part.boxM
  simp only [Part.getF_congr _ _ h]

theorem Loads.redInput (p : Part) (b : Nat) : Loads p (p.redInput b).2 := by
  unfold Part.redInput
  extract_lets
  exact Loads.loadGrans p 8 _ _ _

namespace Reduces

section
variable (p : Part)

theorem redLoad (b a n : Nat) : Reduces p (p.redLoad b a n).2 := ofWorks (Works.load p 8 _ a _)

theorem redStore (b a : Nat) (v : List Nat) (t : Option Nat) : Reduces p (p.redStore b a v t) := ofWorks (Works.store p 8 _ a _ t)

theorem events (o : Nat) (e : Events) : Reduces p (p.events o e) := ofWorks (Works.events p o e)

theorem bump (o n : Nat) : Reduces p (p.bump o n) := ofWorks (Works.bump p o n)

theorem ite (c : Prop) [Decidable c] {p q r : Part} (hq : Reduces p q) (hr : Reduces p r) : Reduces p (if c then q else r) := by
  split
  · exact hq
  · exact hr

theorem oneBitMemory (b : Nat) : Reduces p (p.oneBitMemory b) := by
  unfold Part.oneBitMemory
  extract_lets n aux eo want
  have h := ofWorks (Works.load p 8 (p.bktPair b) (aux + 4 * n + eo) 32)
  dsimp only
  exact ite _ h ((((h.trans (ofWorks (Works.store _ 8 _ aux _ none))).trans (ofWorks (Works.store _ 8 _ _ want none))).trans
    (bump _ _ 1)).trans (ofWorks (Works.noteErr _ _ 2 _)))

end

end Reduces

/-- What a step of bucket `b` leaves of the part: its cores and what has arrived. -/
structure Stays (p q : Part) : Prop where
  cores : q.cores = p.cores
  rx : q.fab.rx = p.fab.rx

namespace Stays

theorem of {p q : Part} (h : Reduces p q) : Stays p q := ⟨h.cores, h.rx⟩

theorem trans {p q r : Part} (h : Stays p q) (h' : Stays q r) : Stays p r := ⟨h'.cores.trans h.cores, h'.rx.trans h.rx⟩

theorem refl (p : Part) : Stays p p := ⟨rfl, rfl⟩

theorem setBkt (p : Part) (b : Nat) (x : Bucket) : Stays p (p.setBkt b x) := ⟨rfl, rfl⟩

theorem each {α : Type} {f : Part → α → Part} (l : List α) (h : ∀ x p, Stays p (f p x)) (p : Part) : Stays p (p.each l f) := by
  induction l generalizing p with
  | nil => exact refl p
  | cons x l ih =>
    rw [Part.each_cons]
    exact (h x p).trans (ih _)

theorem ite (c : Prop) [Decidable c] {p q r : Part} (hq : Stays p q) (hr : Stays p r) : Stays p (if c then q else r) := by
  split
  · exact hq
  · exact hr

end Stays

section
variable (p : Part) (b : Nat)

/-- A chunk of the one-bit result leaves how far its bucket is (R367). -/
theorem Part.oneBitOut_keeps (a sc : Nat) (bits : List Bool) (t : Option Nat) :
    Stays p (p.oneBitOut b a sc bits t) ∧ ((p.oneBitOut b a sc bits t).bkt b).stage = (p.bkt b).stage ∧
    ((p.oneBitOut b a sc bits t).bkt b).sent = (p.bkt b).sent ∧ ((p.oneBitOut b a sc bits t).bkt b).got = (p.bkt b).got := by
  unfold Part.oneBitOut
  have h := Reduces.redOut p b a (granBytes 4 (oneBitVals sc bits) fun _ => t)
  refine ⟨(Stays.of h).trans (Stays.setBkt _ _ _), ?_⟩
  rw [Part.bkt_setBkt, if_pos rfl, h.bkt b]
  exact ⟨rfl, rfl, rfl⟩

/-- A bucket that does not yet own its chunk takes no result (R367). -/
theorem Part.oneBitOwner_waits {p : Part} {b : Nat} (h : (p.bkt b).stage ≠ 12) : p.oneBitOwner b = p := by
  unfold Part.oneBitOwner
  dsimp only
  rw [if_pos (by simp [h])]

/-- The owner waits for more contributions, or sends its result and waits for the last outputs (R367). -/
theorem Part.oneBitOwner_cases : p.oneBitOwner b = p ∨
    Stays p (p.oneBitOwner b) ∧ ((p.oneBitOwner b).bkt b).stage = 13 ∧ ((p.oneBitOwner b).bkt b).sent = true := by
  obtain ⟨w, hw⟩ : ∃ w, w = p.oneBitOwner b := ⟨_, rfl⟩
  rw [← hw]
  unfold Part.oneBitOwner at hw
  extract_lets x n chips whole keep rows eoAt at hw
  split at hw
  · exact .inl hw
  right
  generalize foldSeq keep rows = fs at hw
  obtain ⟨acc, e1⟩ := fs
  dsimp -zeta only at hw
  have hl := Reduces.redLoad p b eoAt n
  generalize p.redLoad b eoAt n = l at hl hw
  obtain ⟨⟨eo, t⟩, p1⟩ := l
  dsimp -zeta only at hl hw
  extract_lets tok p2 p3 p4 r gather y p5 p6 at hw
  have h4 : Reduces p p4 := ((hl.trans (Reduces.redStore p1 b eoAt _ tok)).trans
    (Reduces.ite _ (Reduces.refl p2) (Reduces.events p2 _ _))).trans (Reduces.bump p3 _ _)
  have h6 : Reduces p5 p6 := Reduces.ite _ (Reduces.each _ (fun c v => (Posts.sendBits v b c 6 9 _ _ _ tok).reduces) p5) (Reduces.refl p5)
  have h5 : (p5.bkt b).stage = 13 ∧ (p5.bkt b).sent = true := by
    unfold p5
    rw [Part.bkt_setBkt, if_pos rfl]
    exact ⟨rfl, rfl⟩
  obtain ⟨h7, h8, h9, -⟩ := p6.oneBitOut_keeps b
    (p6.getF (RED_BKT_OUT b) 0 40 + if gather = true then 4 * r * n else 0)
    (oneBitSplit keep (mapEv (fun q => addB32 keep q.1 q.2) (acc.zip eo)).1).1.1 (oneBitSplit keep (mapEv (fun q => addB32 keep q.1 q.2) (acc.zip eo)).1).1.2.1 tok
  rw [← hw, h6.bkt b] at h8 h9
  rw [← hw] at h7
  exact ⟨(((Stays.of h4).trans (Stays.setBkt p4 b _)).trans (Stays.of h6)).trans h7, h8.trans h5.1, h9.trans h5.2⟩

/-- A one-bit bucket that starts sends its signs, and waits as an owner (R366). -/
theorem Part.oneBitSend_starts : Stays p (p.oneBitSend b) ∧
    (((p.oneBitSend b).bkt b).stage = 12 ∨ ((p.oneBitSend b).bkt b).stage = 13 ∧ ((p.oneBitSend b).bkt b).sent = true) := by
  obtain ⟨w, hw⟩ : ∃ w, w = p.oneBitSend b := ⟨_, rfl⟩
  rw [← hw]
  unfold Part.oneBitSend at hw
  extract_lets p1 n keep aux at hw
  have h1 : Reduces p p1 := Reduces.oneBitMemory p b
  have h2 := Reduces.redLoad p1 b (p1.getF (RED_BKT_IN b) 0 40) n
  generalize p1.redLoad b (p1.getF (RED_BKT_IN b) 0 40) n = l at h2 hw
  obtain ⟨⟨g, t1⟩, p2⟩ := l
  dsimp -zeta only at h2 hw
  have h3 := Reduces.redLoad p2 b aux n
  generalize p2.redLoad b aux n = l at h3 hw
  obtain ⟨⟨es, t2⟩, p3⟩ := l
  dsimp -zeta only at h3 hw
  extract_lets tok p4 p5 p6 k p7 p8 at hw
  have h6 : Reduces p p6 := (((h1.trans h2).trans h3).trans (Reduces.redStore p3 b aux _ tok)).trans
    ((Reduces.ite _ (Reduces.refl p4) (Reduces.events p4 _ _)).trans (Reduces.bump p5 _ _))
  have h7 : Stays p6 p7 := Stays.each _ (fun r v => Stays.ite _ (Stays.setBkt v b _)
    (Stays.of (Posts.sendBits v b _ 5 8 _ _ _ tok).reduces)) p6
  obtain ⟨v, hv⟩ : ∃ v, v = p7.setBkt b { p8 with stage := 12 } := ⟨_, rfl⟩
  have h8 : Stays p v := ((Stays.of h6).trans h7).trans (hv ▸ Stays.setBkt p7 b _)
  have hs : (v.bkt b).stage = 12 := by
    rw [hv, Part.bkt_setBkt, if_pos rfl]
  have hw' : w = v.oneBitOwner b := by rw [hw, hv]
  rw [hw']
  rcases v.oneBitOwner_cases b with h | ⟨h, h9, h10⟩
  · rw [h]
    exact ⟨h8, .inl hs⟩
  · exact ⟨h8.trans h, .inr ⟨h9, h10⟩⟩

end

section
variable {s : State} {b : Nat}

/-- A bucket starts in its order (R360). -/
theorem bucketStart_becomes (hs : s.p.serves = true) (hp : s.p.phase ≠ 0) (ho : s.p.bktOn b = true) (hr : s.p.bktPress b = true)
    (h0 : (s.p.bkt b).stage = 0) (ha : ∀ a < b, s.p.bktOn a = true → s.p.bktPress a = true → (s.p.bkt a).stage ≠ 0) :
    Becomes (.bucketStart b) s (if s.p.bktOneBit b = true then (s.p.setBkt b { s.p.bkt b with stage := 11 }).oneBitSend b
      else (s.p.redInput b).2.setBkt b { (s.p.redInput b).2.bkt b with
        stage := (s.p.redInput b).2.nextReduce 0, step := 0, vals := (s.p.redInput b).1.1, poison := (s.p.redInput b).1.2 }) := by
  have hb : ((List.range b).any fun a => (s.p.bktOn a && s.p.bktPress a) && (s.p.bkt a).stage == 0) = false := by
    rw [List.any_eq_false]
    intro a hm h
    rw [Bool.and_eq_true, Bool.and_eq_true, beq_iff_eq] at h
    exact ha a (List.mem_range.1 hm) h.1.1 h.1.2 h.2
  have hc : (!s.p.serves || s.p.phase = 0 || !(s.p.bktOn b && s.p.bktPress b) || (s.p.bkt b).stage ≠ 0 ||
      (List.range b).any fun a => (s.p.bktOn a && s.p.bktPress a) && (s.p.bkt a).stage == 0) = false := by
    rw [hb]
    simp [hs, hp, ho, hr, h0]
  change execBucketStart b s = _
  unfold execBucketStart State.run
  dsimp only
  rw [hc, if_neg Bool.false_ne_true]

theorem bucketStart_starts (hs : s.p.serves = true) (hp : s.p.phase ≠ 0) (ho : s.p.bktOn b = true) (hr : s.p.bktPress b = true)
    (h0 : (s.p.bkt b).stage = 0) (ha : ∀ a < b, s.p.bktOn a = true → s.p.bktPress a = true → (s.p.bkt a).stage ≠ 0) :
    (s.p.bktOneBit b = false → ∃ q, Becomes (.bucketStart b) s q ∧ q.cores = s.p.cores ∧ q.bkt b = { s.p.bkt b with
      stage := s.p.nextReduce 0, step := 0, vals := (s.p.redInput b).1.1, poison := (s.p.redInput b).1.2 }) ∧
    (s.p.bktOneBit b = true → ∃ q, Becomes (.bucketStart b) s q ∧ q.cores = s.p.cores ∧
      ((q.bkt b).stage = 12 ∨ (q.bkt b).stage = 13 ∧ (q.bkt b).sent = true)) := by
  have hq := bucketStart_becomes hs hp ho hr h0 ha
  refine ⟨fun h1 => ?_, fun h1 => ?_⟩
  · rw [h1, if_neg Bool.false_ne_true] at hq
    have h := Loads.redInput s.p b
    obtain ⟨w, hw⟩ : ∃ w, w = (s.p.redInput b).2 := ⟨_, rfl⟩
    rw [← hw] at hq h
    refine ⟨_, hq, (Works.ofLoads h).cores, ?_⟩
    rw [Part.bkt_setBkt, if_pos rfl, Part.bkt_congr (Works.ofLoads h).buckets,
      Part.nextReduce_congr (h.rd RED_BOX (besidesAccess_low (by decide)))]
  · rw [h1, if_pos rfl] at hq
    obtain ⟨h2, h3⟩ := (s.p.setBkt b { s.p.bkt b with stage := 11 }).oneBitSend_starts b
    exact ⟨_, hq, h2.cores, h3⟩

section
variable (hs : s.p.serves = true) (ho : s.p.bktOn b = true) (hn : (s.p.bkt b).sent = false)
include hs ho hn

theorem reduceStep_ring {i : Nat} (hi : i < 4) (hst : (s.p.bkt b).stage = 2 + i) : Becomes (.reduceStep b) s (s.p.reduceRing b i) := by
  change execReduceStep b s = _
  unfold execReduceStep State.run
  dsimp only
  rw [hs, ho, hn, Bool.not_true, Bool.or_self, Bool.or_self, if_neg Bool.false_ne_true, hst]
  obtain rfl | rfl | rfl | rfl : i = 0 ∨ i = 1 ∨ i = 2 ∨ i = 3 := by omega
  all_goals rfl

theorem reduceStep_final (hst : (s.p.bkt b).stage = 6) : Becomes (.reduceStep b) s (s.p.finalRound b) := by
  change execReduceStep b s = _
  unfold execReduceStep State.run
  dsimp only
  rw [hs, ho, hn, Bool.not_true, Bool.or_self, Bool.or_self, if_neg Bool.false_ne_true, hst]
  rfl

end

/-- The first step of a ring: nothing to add, and this part's own chunk to send (R361). -/
theorem Part.reduceRing_first {p : Part} {i : Nat} (h0 : (p.bkt b).step = 0) (hm : 1 < p.boxM i) :
    p.reduceRing b i =
      let n := (p.bktRange b i).2 / p.boxM i
      let w := p.redSendChunk b i 0 (p.bktRange b i).1 (((p.boxPos p.chip i + p.boxM i - 0 % p.boxM i) % p.boxM i) * n) n
      w.setBkt b { w.bkt b with step := 1 } := by
  unfold Part.reduceRing
  dsimp only
  rw [h0, if_neg (by simp), if_pos (show 0 + 1 < p.boxM i from hm)]
  rw [if_neg (Nat.lt_irrefl 0)]

/-- The first step of a ring sends this part's own chunk (R361). -/
theorem reduceStep_sends (hs : s.p.serves = true) (ho : s.p.bktOn b = true) (hn : (s.p.bkt b).sent = false) {i : Nat} (hi : i < 4)
    (hst : (s.p.bkt b).stage = 2 + i) (h0 : (s.p.bkt b).step = 0) (hm : 1 < s.p.boxM i) :
    ∃ q, Becomes (.reduceStep b) s q ∧ q.cores = s.p.cores ∧ q.mem = s.p.mem ∧ q.bkt b = { s.p.bkt b with step := 1 } ∧
      (0 < (s.p.bktRange b i).2 / s.p.boxM i → ∃ a ∈ q.fab.txq, a.dst = s.p.ringNext i ∧ a.cls = 2 ∧ a.kind = 3) := by
  have hq := reduceStep_ring hs ho hn hi hst
  rw [Part.reduceRing_first h0 hm] at hq
  have h := Posts.redSendChunk s.p b i 0 (s.p.bktRange b i).1
    (((s.p.boxPos s.p.chip i + s.p.boxM i - 0 % s.p.boxM i) % s.p.boxM i) * ((s.p.bktRange b i).2 / s.p.boxM i)) ((s.p.bktRange b i).2 / s.p.boxM i)
  have hb := Part.bkt_congr (show (s.p.redSendChunk b i 0 _ _ _).buckets = s.p.buckets by rw [h.whole]) b
  refine ⟨_, hq, h.reduces.cores, h.mem, ?_, fun hp => ?_⟩
  · rw [Part.bkt_setBkt, if_pos rfl, hb]
  · exact Posts.redSend_sends s.p _ b (s.p.ringNext i) 3 i 0 _ 0 16384 8 _ hp

/-- The final rounding writes the owner's range, and ends the bucket's sending unless a gather follows (R363). -/
theorem Part.finalRound_rounds (p : Part) (b : Nat) : Stays p (p.finalRound b) ∧
    ((p.finalRound b).bkt b).written = (p.bkt b).written + (p.bktRange b 4).2 ∧ ((p.finalRound b).bkt b).vals = [] ∧
    (p.getB (RED_BKT_CFG b) 13 = false → ((p.finalRound b).bkt b).sent = true) := by
  obtain ⟨q, hq⟩ : ∃ q, q = p.finalRound b := ⟨_, rfl⟩
  rw [← hq]
  unfold Part.finalRound at hq
  extract_lets x w cfg keep mode tok lane conv per gather at hq
  generalize p.bktRange b 4 = r at hq ⊢
  obtain ⟨s0, n⟩ := r
  dsimp -zeta only at hq ⊢
  extract_lets gs p1 y y' at hq
  have h : Reduces p p1 := (Reduces.events p _ _).trans (Reduces.redOut _ b _ gs)
  have hy : y'.written = (p.bkt b).written + n ∧ y'.vals = [] := by
    refine ⟨?_, rfl⟩
    change (p1.bkt b).written + n = _
    rw [h.bkt b]
  split at hq
  · rename_i st hst
    rw [hq]
    refine ⟨(Stays.of h).trans (Stays.setBkt p1 b _), ?_⟩
    rw [Part.bkt_setBkt, if_pos rfl]
    refine ⟨hy.1, hy.2, fun hg => absurd hst ?_⟩
    have hg' : gather = false := hg
    rw [hg', if_neg Bool.false_ne_true]
    simp
  · rw [hq]
    refine ⟨(Stays.of h).trans (Stays.setBkt p1 b _), ?_⟩
    rw [Part.bkt_setBkt, if_pos rfl]
    exact ⟨hy.1, hy.2, fun _ => rfl⟩

/-- A bucket is complete once its last block is sent and its outputs are written (R365). -/
theorem bucketComplete_completes (hs : s.p.serves = true) (ho : s.p.bktOn b = true) (h2 : 2 ≤ (s.p.bkt b).stage) (h14 : (s.p.bkt b).stage ≠ 14)
    (hn : (s.p.bkt b).sent = true) (hw : s.p.bktOutputs b ≤ (s.p.bkt b).written) :
    Becomes (.bucketComplete b) s ((s.p.setBkt b { s.p.bkt b with stage := 14 }).bump RED_STAT_BKT 1) := by
  have hc : (!s.p.working || !s.p.bktOn b || (s.p.bkt b).stage < 2 || (s.p.bkt b).stage = 14 || !(s.p.bkt b).sent ||
      (s.p.bkt b).written < s.p.bktOutputs b) = false := by
    simp [Part.serves_working hs, ho, h14, hn]
    omega
  change execBucketComplete b s = _
  unfold execBucketComplete State.run
  dsimp only
  rw [hc, if_neg Bool.false_ne_true]

/-- A block that is not expected changes neither memory nor buckets (R370). -/
theorem Part.bktMismatch_keeps (p : Part) (b src : Nat) :
    (p.bktMismatch b src).mem = p.mem ∧ (p.bktMismatch b src).buckets = p.buckets ∧ Stays p (p.bktMismatch b src) := by
  have h := Works.noteErr p RED_STICKY 3 { mkErr 9 3 0 with loc0 := b, loc1 := src }
  exact ⟨by simp [Part.bktMismatch], h.buckets, Stays.of (Reduces.ofWorks h)⟩

section
variable {k : Packet} (hs : s.p.serves = true) (hb : leAt k.payload 0 2 = b)
include hs hb

/-- The state in which the bytes of a ring block are written (R364). -/
def Part.ringStored (p : Part) (k : Packet) : Part :=
  let b := leAt k.payload 0 2
  let h := leAt k.payload 2 1
  let first := leAt k.payload 4 4
  let p := (p.takeRx k).bump RED_STAT_RX k.payload.length
  if h < 4 then p.putGrans 8 (p.bktPair b) (p.bktScratch b h + 4 * (first - (p.bktRange b h).1)) (blockGrans k)
  else
    let p := p.redOut b (p.getF (RED_BKT_OUT b) 0 40 + p.bktWidth b 7 * first) (blockGrans k)
    p.setBkt b { p.bkt b with written := (p.bkt b).written + leAt k.payload 8 4 }

theorem reduceBlockArrive_takes (hk : s.p.redBlock [3, 4] = some k) :
    ∃ q, Becomes .reduceBlockArrive s q ∧ q.cores = s.p.cores ∧ q.fab.rx = s.p.fab.rx.erase k ∧
      (s.p.ringBlockOk k = false → q.mem = s.p.mem ∧ q.buckets = s.p.buckets) ∧
      (s.p.ringBlockOk k = true →
        (q.bkt b).got = (leAt k.payload 2 1, leAt k.payload 3 1, leAt k.payload 4 4, leAt k.payload 8 4) :: (s.p.bkt b).got) := by
  have hw := Part.serves_working hs
  cases ho : s.p.ringBlockOk k
  · have hq : Becomes .reduceBlockArrive s ((s.p.takeRx k).bktMismatch (leAt k.payload 0 2) k.src) := by
      change execReduceBlockArrive s = _
      unfold execReduceBlockArrive State.run
      dsimp only
      rw [hk]
      dsimp only
      rw [hw, ho, Bool.not_true, if_neg Bool.false_ne_true, Bool.not_false, if_pos rfl]
    obtain ⟨h1, h2, h3⟩ := (s.p.takeRx k).bktMismatch_keeps (leAt k.payload 0 2) k.src
    exact ⟨_, hq, h3.cores, h3.rx, fun _ => ⟨h1, h2⟩, fun h => absurd h (by decide)⟩
  · have hq : Becomes .reduceBlockArrive s ((s.p.ringStored k).setBkt b { (s.p.ringStored k).bkt b with
        got := (leAt k.payload 2 1, leAt k.payload 3 1, leAt k.payload 4 4, leAt k.payload 8 4) :: ((s.p.ringStored k).bkt b).got }) := by
      rw [← hb]
      change execReduceBlockArrive s = _
      unfold execReduceBlockArrive State.run
      dsimp only
      rw [hk]
      dsimp only
      rw [hw, ho, Bool.not_true, if_neg Bool.false_ne_true, if_neg Bool.false_ne_true]
      rfl
    have hst : Stays (s.p.takeRx k) (s.p.ringStored k) ∧ ((s.p.ringStored k).bkt b).got = (s.p.bkt b).got := by
      unfold Part.ringStored
      extract_lets b' h first w v src
      have h1 : Reduces (s.p.takeRx k) w := Reduces.bump _ _ _
      split
      · have h2 := h1.trans (Reduces.ofWorks (Works.ofStores (Stores.putGrans w 8 (w.bktPair b') (w.bktScratch b' h + 4 * (first - (w.bktRange b' h).1))
          (blockGrans k))))
        exact ⟨Stays.of h2, by rw [h2.bkt b]; rfl⟩
      · have h2 := h1.trans (Reduces.redOut w b' (w.getF (RED_BKT_OUT b') 0 40 + w.bktWidth b' 7 * first) (blockGrans k))
        have hv : (v.bkt b).got = (s.p.bkt b).got := by
          unfold v
          rw [h2.bkt b]
          rfl
        refine ⟨(Stays.of h2).trans (Stays.setBkt v b' _), ?_⟩
        rw [Part.bkt_setBkt, if_pos hb]
        change (v.bkt (leAt k.payload 0 2)).got = _
        rw [hb]
        exact hv
    refine ⟨_, hq, hst.1.cores, hst.1.rx, fun h => absurd h (by decide), fun _ => ?_⟩
    rw [Part.bkt_setBkt, if_pos rfl, hst.2]

/-- A contribution that this part does not take (R370, R367). -/
def Part.contribRefused (p : Part) (k : Packet) : Bool :=
  let x := p.bkt (leAt k.payload 0 2)
  !p.bitBlockOk k p.chip || leAt k.payload 2 1 ≠ 8 || x.stage = 13 || x.contribs.any (fun c => c.src == k.src && c.first == leAt k.payload 4 4)

/-- The contribution that a packet brings. -/
def contribOf (k : Packet) : OneBit :=
  ⟨k.src, leAt k.payload 4 4, unpackBits (leAt k.payload 8 4) ((blockGrans k).flatMap (·.1)), leAt k.payload 16 4, firstPoison (blockGrans k)⟩

/-- The part with the contribution recorded. -/
def Part.contribKept (p : Part) (k : Packet) : Part :=
  let x := p.bkt (leAt k.payload 0 2)
  ((p.takeRx k).bump RED_STAT_RX k.payload.length).setBkt (leAt k.payload 0 2) { x with contribs := x.contribs ++ [contribOf k] }

theorem onebitContribArrive_becomes (hk : s.p.redBlock [5] = some k) :
    Becomes .onebitContribArrive s (if s.p.contribRefused k = true then (s.p.takeRx k).bktMismatch b k.src
      else (s.p.contribKept k).oneBitOwner b) := by
  rw [← hb]
  change execOnebitContribArrive s = _
  unfold execOnebitContribArrive State.run
  dsimp only
  rw [hk]
  dsimp only
  rw [Part.serves_working hs, Bool.not_true, if_neg Bool.false_ne_true]
  rfl

theorem onebitContribArrive_takes (hk : s.p.redBlock [5] = some k) :
    ∃ q, Becomes .onebitContribArrive s q ∧ q.cores = s.p.cores ∧ q.fab.rx = s.p.fab.rx.erase k ∧
      (s.p.bitBlockOk k s.p.chip = false → q.mem = s.p.mem ∧ q.buckets = s.p.buckets) ∧
      (s.p.bitBlockOk k s.p.chip = true → leAt k.payload 2 1 = 8 → (s.p.bkt b).stage < 12 →
        (∀ c ∈ (s.p.bkt b).contribs, ¬ (c.src = k.src ∧ c.first = leAt k.payload 4 4)) →
        ∃ o, (q.bkt b).contribs = (s.p.bkt b).contribs ++ [o] ∧ o.src = k.src ∧ o.first = leAt k.payload 4 4 ∧ o.scale = leAt k.payload 16 4) := by
  have hq := onebitContribArrive_becomes hs hb hk
  refine ⟨_, hq, ?_⟩
  cases hr : s.p.contribRefused k
  · rw [if_neg Bool.false_ne_true]
    have hok : s.p.bitBlockOk k s.p.chip = true := by
      unfold Part.contribRefused at hr
      simp only [Bool.or_eq_false_iff, Bool.not_eq_false'] at hr
      exact hr.1.1.1
    have hkept : Stays (s.p.takeRx k) (s.p.contribKept k) := (Stays.of (Reduces.bump _ _ _)).trans (Stays.setBkt _ _ _)
    have hkb : (s.p.contribKept k).bkt b = { s.p.bkt b with contribs := (s.p.bkt b).contribs ++ [contribOf k] } := by
      unfold Part.contribKept
      dsimp only
      rw [hb, Part.bkt_setBkt, if_pos rfl]
    have hst : Stays (s.p.takeRx k) ((s.p.contribKept k).oneBitOwner b) := by
      rcases (s.p.contribKept k).oneBitOwner_cases b with h | ⟨h, -, -⟩
      · rw [h]
        exact hkept
      · exact hkept.trans h
    refine ⟨hst.cores, hst.rx, fun h => absurd (hok.symm.trans h) (by decide), fun _ _ h12 _ => ⟨contribOf k, ?_, rfl, rfl, rfl⟩⟩
    rw [Part.oneBitOwner_waits (by rw [hkb]; exact Nat.ne_of_lt h12), hkb]
  · rw [if_pos rfl]
    obtain ⟨h1, h2, h3⟩ := (s.p.takeRx k).bktMismatch_keeps b k.src
    refine ⟨h3.cores, h3.rx, fun _ => ⟨h1, h2⟩, fun hok h8 h12 hc => absurd hr ?_⟩
    have ha : ((s.p.bkt b).contribs.any fun c => c.src == k.src && c.first == leAt k.payload 4 4) = false := by
      rw [List.any_eq_false]
      intro c hm h
      rw [Bool.and_eq_true, beq_iff_eq, beq_iff_eq] at h
      exact hc c hm h
    unfold Part.contribRefused
    dsimp only
    rw [hb, ha, hok, h8]
    simp
    omega

/-- A chunk of the result that this part does not take (R370, R367). -/
def Part.resultRefused (p : Part) (k : Packet) : Bool :=
  let b := leAt k.payload 0 2
  !p.bitBlockOk k k.src || leAt k.payload 2 1 ≠ 9 || !p.getB (RED_BKT_CFG b) 13 || k.src = p.chip ||
    (p.bkt b).got.any (fun g => g.2.2.1 == leAt k.payload 4 4)

/-- The part with the chunk recorded. -/
def Part.resultKept (p : Part) (k : Packet) : Part :=
  let x := p.bkt (leAt k.payload 0 2)
  ((p.takeRx k).bump RED_STAT_RX k.payload.length).setBkt (leAt k.payload 0 2)
    { x with got := (9, 0, leAt k.payload 4 4, leAt k.payload 8 4) :: x.got }

theorem onebitResultArrive_becomes (hk : s.p.redBlock [6] = some k) :
    Becomes .onebitResultArrive s (if s.p.resultRefused k = true then (s.p.takeRx k).bktMismatch b k.src
      else (s.p.resultKept k).oneBitOut b ((s.p.resultKept k).getF (RED_BKT_OUT b) 0 40 + 4 * leAt k.payload 4 4) (leAt k.payload 16 4)
        (unpackBits (leAt k.payload 8 4) ((blockGrans k).flatMap (·.1))) (firstPoison (blockGrans k))) := by
  rw [← hb]
  change execOnebitResultArrive s = _
  unfold execOnebitResultArrive State.run
  dsimp only
  rw [hk]
  dsimp only
  rw [Part.serves_working hs, Bool.not_true, if_neg Bool.false_ne_true]
  rfl

theorem onebitResultArrive_takes (hk : s.p.redBlock [6] = some k) :
    ∃ q, Becomes .onebitResultArrive s q ∧ q.cores = s.p.cores ∧ q.fab.rx = s.p.fab.rx.erase k ∧
      (s.p.bitBlockOk k k.src = false → q.mem = s.p.mem ∧ q.buckets = s.p.buckets) ∧
      (s.p.bitBlockOk k k.src = true → leAt k.payload 2 1 = 9 → s.p.getB (RED_BKT_CFG b) 13 = true → k.src ≠ s.p.chip →
        (∀ g ∈ (s.p.bkt b).got, g.2.2.1 ≠ leAt k.payload 4 4) →
        (q.bkt b).got = (9, 0, leAt k.payload 4 4, leAt k.payload 8 4) :: (s.p.bkt b).got) := by
  have hq := onebitResultArrive_becomes hs hb hk
  refine ⟨_, hq, ?_⟩
  cases hr : s.p.resultRefused k
  · rw [if_neg Bool.false_ne_true]
    have hok : s.p.bitBlockOk k k.src = true := by
      unfold Part.resultRefused at hr
      simp only [Bool.or_eq_false_iff, Bool.not_eq_false'] at hr
      exact hr.1.1.1.1
    have hkept : Stays (s.p.takeRx k) (s.p.resultKept k) := (Stays.of (Reduces.bump _ _ _)).trans (Stays.setBkt _ _ _)
    have hkb : ((s.p.resultKept k).bkt b).got = (9, 0, leAt k.payload 4 4, leAt k.payload 8 4) :: (s.p.bkt b).got := by
      unfold Part.resultKept
      dsimp only
      rw [hb, Part.bkt_setBkt, if_pos rfl]
    obtain ⟨h1, -, -, h4⟩ := (s.p.resultKept k).oneBitOut_keeps b ((s.p.resultKept k).getF (RED_BKT_OUT b) 0 40 + 4 * leAt k.payload 4 4)
      (leAt k.payload 16 4) (unpackBits (leAt k.payload 8 4) ((blockGrans k).flatMap (·.1))) (firstPoison (blockGrans k))
    have hst := hkept.trans h1
    exact ⟨hst.cores, hst.rx, fun h => absurd (hok.symm.trans h) (by decide), fun _ _ _ _ _ => h4.trans hkb⟩
  · rw [if_pos rfl]
    obtain ⟨h1, h2, h3⟩ := (s.p.takeRx k).bktMismatch_keeps b k.src
    refine ⟨h3.cores, h3.rx, fun _ => ⟨h1, h2⟩, fun hok h9 hg hc hn => absurd hr ?_⟩
    have ha : ((s.p.bkt b).got.any fun g => g.2.2.1 == leAt k.payload 4 4) = false := by
      rw [List.any_eq_false]
      intro g hm h
      exact hn g hm (beq_iff_eq.1 h)
    unfold Part.resultRefused
    dsimp only
    rw [hb, ha, hok, h9, hg]
    simp [hc]

end

end

/-- Settles O36: each step of a bucket in full, the rest from what reads, writes and sends of the reduction leave. -/
theorem reduction : Obligations.Reduction := by
  unfold Obligations.Reduction
  intro s b p hs
  refine ⟨fun hp ho hr h0 ha => bucketStart_starts hs hp ho hr h0 ha, fun ho hn => ⟨fun i hi hst h0 hm => reduceStep_sends hs ho hn hi hst h0 hm,
    fun hst => ?_⟩, fun k hk hb => reduceBlockArrive_takes hs hb hk, fun k hk hb => onebitContribArrive_takes hs hb hk,
    fun k hk hb => onebitResultArrive_takes hs hb hk, fun ho h2 h14 hn hw => ?_⟩
  · obtain ⟨h1, h2, h3, h4⟩ := p.finalRound_rounds b
    exact ⟨_, reduceStep_final hs ho hn hst, h1.cores, h2, h3, h4⟩
  · refine ⟨_, bucketComplete_completes hs ho h2 h14 hn hw, rfl, ?_, fun a ha => ?_, ?_⟩
    · simp [p]
    · simp [p, Ne.symm ha]
    · exact Part.rd_bump_same _ _ _

end Sys2Proof.Machine
end

section
/-!
PROOF. The scatter press (O29): the sort, contributions and end markers.
-/
namespace Sys2Proof.Machine

/-- What the press leaves while it merges: the cores, the registers of the hub but for what a failed frame writes, and of each press all but
its logs, its runs and its jobs. -/
structure Merges (p q : Part) : Prop where
  cores : q.cores = p.cores
  hub : ∀ j < 0x100000, j ≠ TIK_STATUS → j ≠ TIK_FAIL_CAUSE → q.rd j = p.rd j
  status : ∀ i < 64, i ≠ 11 → q.getB TIK_STATUS i = p.getB TIK_STATUS i
  prs : ∀ y, q.prs y = { p.prs y with logged := (q.prs y).logged, stopped := (q.prs y).stopped, owner := (q.prs y).owner,
                                      composed := (q.prs y).composed, jobs := (q.prs y).jobs }

theorem Part.prs_congr {p q : Part} (h : q.press = p.press) (y : Nat) : q.prs y = p.prs y := by
  unfold Part.prs
  rw [h]

theorem Stores.prs {p q : Part} (h : Stores p q) (y : Nat) : q.prs y = p.prs y := by
  have hp : q.press = p.press := by rw [h.whole]
  exact Part.prs_congr hp y

namespace Merges

theorem ofStores {p q : Part} (h : Stores p q) : Merges p q :=
  ⟨by rw [h.whole], fun j hj => h.rd j (besidesAccess_low hj), h.status, fun y => by rw [h.prs]⟩

theorem ofLoads {p q : Part} (h : Loads p q) : Merges p q := ofStores (Stores.ofLoads h)

theorem refl (p : Part) : Merges p p := ofStores (Stores.refl p)

theorem trans {p q r : Part} (h : Merges p q) (h' : Merges q r) : Merges p r :=
  ⟨h'.cores.trans h.cores, fun j hj h1 h2 => (h'.hub j hj h1 h2).trans (h.hub j hj h1 h2), fun i hi hn => (h'.status i hi hn).trans (h.status i hi hn),
    fun y => by rw [h'.prs y, h.prs y]⟩

theorem ite (b : Prop) [Decidable b] {p q r : Part} (hq : Merges p q) (hr : Merges p r) : Merges p (if b then q else r) := by
  split
  · exact hq
  · exact hr

theorem each {α : Type} {f : Part → α → Part} (l : List α) (h : ∀ x p, Merges p (f p x)) (p : Part) : Merges p (p.each l f) := by
  induction l generalizing p with
  | nil => exact refl p
  | cons x l ih =>
    rw [Part.each_cons]
    exact (h x p).trans (ih _)

/-- The part is still in its frame, of the same kind. -/
theorem frame {p q : Part} (h : Merges p q) : q.pressOn = p.pressOn ∧ q.inFrame = p.inFrame := by
  have hk : q.kind = p.kind := by
    unfold Part.kind
    have hs := Part.getF_congr 16 4 (h.hub TIK_SEASON_POS (by decide) (by decide) (by decide))
    have hl := Part.getF_lt p TIK_SEASON_POS 16 4
    rw [hs, Part.getF_congr 16 2 (h.hub (TIK_SPAN _) (by unfold TIK_SPAN; omega) (by unfold TIK_SPAN TIK_STATUS; omega)
      (by unfold TIK_SPAN TIK_FAIL_CAUSE; omega))]
  have hp : q.phase = p.phase := Part.getF_of_getB fun i h1 h2 => h.status i (by omega) (by omega)
  unfold Part.pressOn Part.inFrame
  rw [hk, hp]
  exact ⟨rfl, rfl⟩

section
variable (p : Part)

theorem modObs (f : Obs → Obs) : Merges p (p.modObs f) := ofStores (Stores.modObs p f)

theorem ofFab (f : Fabric → Fabric) : Merges p (p.modFab f) := ⟨rfl, fun _ _ _ _ => rfl, fun _ _ _ => rfl, fun _ => rfl⟩

theorem err (e : ErrRec) : Merges p (p.err e) := ofStores (Stores.err p e)

theorem modPrs (s : Nat) (f : Press → Press) (h : f (p.prs s) = { p.prs s with
    logged := (f (p.prs s)).logged, stopped := (f (p.prs s)).stopped, owner := (f (p.prs s)).owner, composed := (f (p.prs s)).composed,
    jobs := (f (p.prs s)).jobs }) : Merges p (p.modPrs s f) :=
  ⟨rfl, fun _ _ _ _ => rfl, fun _ _ _ => rfl, fun y => by
    unfold Part.modPrs
    rw [Part.prs_setPrs]
    split
    · rename_i e
      rw [← e]
      exact h
    · rfl⟩

theorem sendBlock (d k t : Nat) (bs : List Byte) : Merges p (p.sendBlock d k t bs).2 := by
  unfold Part.sendBlock
  extract_lets b w segs n
  exact (ofFab p _).trans (each _ (fun (x : Nat × List Byte) v => ofFab v _) w)

section
variable {o : Nat} (h : 0x100000 ≤ o)
include h

theorem wr (v : Nat) : Merges p (p.wr o v) :=
  ⟨by simp, fun j hj _ _ => Part.rd_wr_other _ _ (by omega), fun i _ _ => Part.getB_congr i (Part.rd_wr_other _ _ (by unfold TIK_STATUS; omega)),
    fun y => by simp⟩

theorem bump (n : Nat) : Merges p (p.bump o n) := wr p h _

theorem stick (i : Nat) : Merges p (p.stick o i) := (wr p h _).trans (wr _ (Nat.le_add_right_of_le h) _)

theorem peak (n : Nat) : Merges p (p.peak o n) := ite _ (wr p h n) (refl p)

theorem noteErr (i : Nat) (e : ErrRec) : Merges p (p.noteErr o i e) := (stick p h i).trans (err _ _)

theorem events (e : Events) : Merges p (p.events o e) := ite _ (refl p) ((wr p h _).trans (wr _ (Nat.le_add_right_of_le h) _))

end

theorem consume (s g c k t : Nat) : Merges p (p.consume s g c k t) := by
  unfold Part.consume
  extract_lets p1 p2 p3
  have h1 : Merges p p1 := stick p (by unfold MEM_STICKY secBase; omega) 2
  have h2 : Merges p1 p2 := modObs p1 _
  exact ite _ ((h1.trans h2).trans (bump p2 (by unfold MEM_STAT_PCONS secBase; omega) 1)) (((h1.trans h2).trans (modObs p2 _)).trans (err _ _))

theorem prsPoison (s k t key tok : Nat) : Merges p (p.prsPoison s k t key tok) :=
  (consume p s 5 0xFFFF k tok).trans (noteErr _ (by unfold PRS_STICKY secBase; omega) 3 _)

theorem prsEvents (s : Nat) (e : Events) : Merges p (p.prsEvents s e) := events p (by unfold PRS_FMT_STICKY secBase; omega) e

theorem runLimit (s : Nat) : Merges p (p.runLimit s) :=
  (modPrs p s (fun h => { h with stopped := true }) rfl).trans (noteErr _ (by unfold PRS_STICKY secBase; omega) 2 _)

theorem logRecord (s k : Nat) (bs : List Byte) : Merges p (p.logRecord s k bs) := by
  unfold Part.logRecord
  extract_lets n
  refine ite _ (refl p) (ite _ (runLimit p s) ?_)
  exact (ofStores (Stores.store p 5 k (p.stagingAt s n) (pressRecord bs) none)).trans
    (modPrs (p.store 5 k (p.stagingAt s n) (pressRecord bs) none) s (fun h => { h with logged := h.logged + 1 }) rfl)

theorem ownRecord (s : Nat) (c : Contribution) : Merges p (p.ownRecord s c) :=
  (ite _ (refl p) (logRecord p s _ _)).trans (modPrs _ s (fun x => { x with owner := x.owner ++ [c] }) rfl)

theorem addPair (k : Nat) (f : PairAcc → PairAcc) : Merges p (p.addPair k f) := modObs p _

theorem sentFor (k n : Nat) : Merges p (p.sentFor k n) := addPair p k _

theorem sendContrib (s o : Nat) (c : Contribution) : Merges p (p.sendContrib s o c) := by
  unfold Part.sendContrib
  split
  · exact ownRecord p _ c
  · extract_lets bs
    have h := sendBlock p o 1 (contribFlags c) bs
    dsimp only
    generalize (p.sendBlock o 1 (contribFlags c) bs).2 = v at h ⊢
    exact (h.trans (bump v (o := PRS_STAT_OUT s) (by unfold PRS_STAT_OUT secBase; omega) 1)).trans (sentFor _ _ _)

end

end Merges

section
variable (p : Part)

/-- Rows read one after the other from the staging area. -/
theorem Loads.stagedRows (s n : Nat) (l : List Nat) : Loads p (p.stagedRows s n l).2 := by
  unfold Part.stagedRows
  exact Loads.foldl _ (fun _ w _ => Loads.load w 5 _ _ _) l [] p

theorem Part.place_congr {p q : Part} (h : q.txn = p.txn) (T : Tbl) (k : Nat) : q.place T k = p.place T k := by
  unfold Part.place Part.tmap
  rw [h]

/-- The part when the run of a key has been merged, and its contribution (R261). -/
theorem Part.mergeKey_sends (s : Nat) (recs : List Nat) (h : fld (recs.headD 0) 24 32 < (p.tbl (fld (recs.headD 0) 56 8)).rows) :
    ∃ w c, Merges p w ∧ w.press = p.press ∧ w.chip = p.chip ∧ c.table = fld (recs.headD 0) 56 8 ∧
      c.row = (p.place (p.tbl (fld (recs.headD 0) 56 8)) (fld (recs.headD 0) 24 32)).2 ∧ c.chip = p.chip ∧ c.sector = s ∧
      p.mergeKey s recs = w.sendContrib s (p.place (p.tbl (fld (recs.headD 0) 56 8)) (fld (recs.headD 0) 24 32)).1 c := by
  unfold Part.mergeKey
  extract_lets head t key T p1 unsorted
  rw [if_neg (Nat.not_le.2 h)]
  have m1 : Merges p p1 := Merges.peak p (by unfold PRS_STAT_HOT secBase; omega) recs.length
  have w1 : Works p p1 := Works.ite _ (Works.wr p _ _) (Works.refl p)
  have h2 := Loads.stagedRows p1 s T.dim (recs.map fun r => fld r 0 20)
  generalize p1.stagedRows s T.dim (recs.map fun r => fld r 0 20) = l at h2 ⊢
  obtain ⟨rows, p2⟩ := l
  dsimp -zeta only at h2 ⊢
  extract_lets vals bad slot pair tok p3 p4 p5
  have m3 : Merges p2 p3 := by
    unfold p3
    cases tok
    · exact Merges.prsEvents p2 s _
    · exact Merges.prsPoison p2 s pair t key _
  have w3 : Works p2 p3 := by
    unfold p3
    cases tok
    · exact Works.events p2 _ _
    · exact (Works.consume p2 s 5 0xFFFF pair _).trans (Works.noteErr _ _ 3 _)
  have m5 : Merges p3 p5 := ((Merges.bump p3 (by unfold PRS_STAT_ADDS secBase; omega) _).trans
    (Merges.bump _ (by unfold PRS_STAT_CONTRIB secBase; omega) 1)).trans
      (Merges.ite _ (Merges.bump p4 (by unfold PRS_STAT_UNSORTED secBase; omega) _) (Merges.refl p4))
  have w5 : Works p3 p5 := ((Works.bump p3 _ _).trans (Works.bump _ _ 1)).trans (Works.ite _ (Works.bump p4 _ _) (Works.refl p4))
  have hw : Works p p5 := ((w1.trans (Works.ofLoads h2)).trans w3).trans w5
  have hc : p5.chip = p.chip := by
    unfold Part.chip
    rw [hw.fab]
  have hp := Part.place_congr (show p5.txn = p.txn by rw [hw.whole]) T key
  refine ⟨p5, _, ((m1.trans (Merges.ofLoads h2)).trans m3).trans m5, by rw [hw.whole], hc, ?_, ?_, ?_, ?_, by rw [hp]⟩
  · rfl
  · rfl
  · exact hc
  · rfl

theorem Merges.mergeKey (s : Nat) (recs : List Nat) : Merges p (p.mergeKey s recs) := by
  by_cases h : fld (recs.headD 0) 24 32 < (p.tbl (fld (recs.headD 0) 56 8)).rows
  · obtain ⟨w, c, hw, -, -, -, -, -, -, he⟩ := p.mergeKey_sends s recs h
    rw [he]
    exact hw.trans (Merges.sendContrib w s _ c)
  · unfold Part.mergeKey
    dsimp only
    rw [if_pos (Nat.not_lt.1 h)]
    exact Merges.peak p (by unfold PRS_STAT_HOT secBase; omega) recs.length

end

section
variable {s : State} {sector : BitVec 2}

/-- The order in which a sector's entries are merged (R260, R269). -/
def Part.pressOrder (p : Part) (x : Nat) : List (Nat × List Nat) :=
  let off (r : Nat) : Bool := p.getB (PRS_TCFG x (fld r 56 8)) 0
  groupAdj (fun r => r >>> 24) (sortBy (fun a b => if off a && off b then a >>> 24 ≤ b >>> 24 else a ≤ b) (p.prs x).recs)

theorem pressSortStart_merges (hs : s.p.serves = true) (hp : s.p.phase ≠ 0) (ho : s.p.pressOn = true) (hn : (s.p.prs sector.toNat).sent = false) :
    Becomes (.pressSortStart sector) s ((s.p.each (s.p.pressOrder sector.toNat) fun p g => p.mergeKey sector.toNat g.2).modPrs sector.toNat
      fun h => { h with sent := true, recs := [] }) := by
  have hc : (!s.p.serves || s.p.phase = 0 || !s.p.pressOn || (s.p.prs sector.toNat).sent) = false := by simp [hs, hp, ho, hn]
  change execPressSortStart sector s = _
  unfold execPressSortStart State.run
  dsimp only
  rw [hc, if_neg Bool.false_ne_true]
  rfl

theorem Part.working_inFrame {p : Part} (h : p.working = true) : p.inFrame = true := by
  unfold Part.working at h
  unfold Part.inFrame
  rw [Bool.and_eq_true, decide_eq_true_eq] at h
  simp
  omega

theorem Part.prs_modPrs_same (p : Part) (x : Nat) (f : Press → Press) : (p.modPrs x f).prs x = f (p.prs x) := by
  unfold Part.modPrs
  rw [Part.prs_setPrs, if_pos rfl]

/-- A contribution of the part's own goes to the run of its home sector (R263). -/
theorem Part.sendContrib_own (p : Part) (s : Nat) (c : Contribution) :
    ((p.sendContrib s p.chip c).prs (c.row % 4)).owner = (p.prs (c.row % 4)).owner ++ [c] := by
  have hl : ∀ (q : Part) x k bs, ((q.logRecord x k bs).prs x).owner = (q.prs x).owner := fun q x k bs => by
    unfold Part.logRecord Part.runLimit
    dsimp only
    split
    · rfl
    · split
      · simp only [Part.noteErr_keeps]
        rw [Part.prs_modPrs_same]
      · rw [Part.prs_modPrs_same, (Stores.store q 5 k _ _ none).prs]
  unfold Part.sendContrib Part.ownRecord
  rw [if_pos rfl, Part.prs_modPrs_same]
  dsimp only
  congr 1
  split
  · rfl
  · exact hl p _ _ _

theorem pressSortStart_leaves (hw : s.p.working = true) (hu : s.p.tick.unwinding = false) (hp : s.p.phase ≠ 0) (ho : s.p.pressOn = true)
    (hn : (s.p.prs sector.toNat).sent = false) :
    ∃ q, Becomes (.pressSortStart sector) s q ∧ (q.prs sector.toNat).sent = true ∧
      ((s.p.prs sector.toNat).ownerDone = false → (s.p.prs sector.toNat).composedDone = false →
        q.pressStage sector.toNat = if q.markersIn = true then 4 else 3) ∧ (q.prs sector.toNat).recs = [] ∧ q.cores = s.p.cores ∧
      ((s.p.prs sector.toNat).recs = [] → q = { s.p with press := q.press }) ∧
      ∀ r, (s.p.prs sector.toNat).recs = [r] → (s.p.place (s.p.tbl (fld r 56 8)) (fld r 24 32)).1 = s.p.chip →
        fld r 24 32 < (s.p.tbl (fld r 56 8)).rows →
        ∃ c, (q.prs (c.row % 4)).owner = (s.p.prs (c.row % 4)).owner ++ [c] ∧ c.table = fld r 56 8 ∧
          c.row = (s.p.place (s.p.tbl (fld r 56 8)) (fld r 24 32)).2 ∧ c.chip = s.p.chip ∧ c.sector = sector.toNat := by
  have hs : s.p.serves = true := by simp [Part.serves, hw, hu]
  obtain ⟨x, hx⟩ : ∃ x, x = sector.toNat := ⟨_, rfl⟩
  have hq := pressSortStart_merges hs hp ho hn
  rw [← hx] at hq hn ⊢
  obtain ⟨v, hv⟩ : ∃ v, v = s.p.each (s.p.pressOrder x) fun p g => p.mergeKey x g.2 := ⟨_, rfl⟩
  have hm : Merges s.p v := by
    rw [hv]
    exact Merges.each (f := fun p (g : Nat × List Nat) => p.mergeKey x g.2) (s.p.pressOrder x) (fun g w => Merges.mergeKey w x g.2) s.p
  rw [← hv] at hq
  obtain ⟨w, hwd⟩ : ∃ w, w = v.modPrs x fun h => { h with sent := true, recs := [] } := ⟨_, rfl⟩
  have hwx : w.prs x = { v.prs x with sent := true, recs := [] } := by
    rw [hwd, Part.prs_modPrs_same]
  have hwc : w.cores = v.cores ∧ w.pressOn = v.pressOn ∧ w.inFrame = v.inFrame := by
    rw [hwd]
    exact ⟨rfl, rfl, rfl⟩
  have hwo : ∀ y, (w.prs y).owner = (v.prs y).owner := fun y => by
    rw [hwd, Part.modPrs, Part.prs_setPrs]
    split
    · rename_i e
      rw [← e]
    · rfl
  have hwe : w = { v with press := w.press } := by
    rw [hwd]
    rfl
  rw [← hwd] at hq
  refine ⟨w, hq, by rw [hwx], fun h1 h2 => ?_, by rw [hwx], hwc.1.trans hm.cores, fun h0 => ?_, fun r hr hc hk => ?_⟩
  · have h3 : (v.prs x).ownerDone = false := by rw [hm.prs, h1]
    have h4 : (v.prs x).composedDone = false := by rw [hm.prs, h2]
    unfold Part.pressStage
    dsimp only
    rw [hwx]
    dsimp only
    rw [hwc.2.1, hwc.2.2, hm.frame.1, hm.frame.2, ho, Part.working_inFrame hw, h4, h3, if_neg (by decide), if_neg Bool.false_ne_true,
      if_neg Bool.false_ne_true, if_pos rfl]
  · have : v = s.p := by
      rw [hv]
      unfold Part.pressOrder
      rw [h0]
      rfl
    rw [← this]
    exact hwe
  · have hve : v = s.p.mergeKey x [r] := by
      rw [hv]
      unfold Part.pressOrder
      rw [hr]
      rfl
    obtain ⟨u, c, -, hup, huc, h1, h2, h3, h4, h5⟩ := s.p.mergeKey_sends x [r] hk
    refine ⟨c, ?_, h1, h2, h3, h4⟩
    have hco : (s.p.place (s.p.tbl (fld ([r].headD 0) 56 8)) (fld ([r].headD 0) 24 32)).1 = u.chip := hc.trans huc.symm
    rw [hwo, hve, h5, hco, Part.sendContrib_own, Part.prs_congr hup]

end

end Sys2Proof.Machine
end

section
/-!
PROOF. The scatter press (O29): what arrives.
-/
namespace Sys2Proof.Machine

section
variable (p : Part) (s k : Nat) (bs : List Byte)

theorem Part.prs_modPrs_other (p : Part) {x y : Nat} (f : Press → Press) (h : y ≠ x) : (p.modPrs x f).prs y = p.prs y := by
  unfold Part.modPrs
  rw [Part.prs_setPrs, if_neg (Ne.symm h)]

theorem Part.runLimit_stops : (p.runLimit s).prs s = { p.prs s with stopped := true } ∧ (∀ y, y ≠ s → (p.runLimit s).prs y = p.prs y) ∧
    (p.runLimit s).mem = p.mem ∧ (p.runLimit s).fab.rx = p.fab.rx := by
  unfold Part.runLimit
  have h := Works.noteErr (p.modPrs s fun h => { h with stopped := true }) (PRS_STICKY s) 2 { mkErr 4 2 0 with sector := s }
  have hp : ∀ y, ((p.modPrs s fun h => { h with stopped := true }).noteErr (PRS_STICKY s) 2 { mkErr 4 2 0 with sector := s }).prs y =
      (p.modPrs s fun h => { h with stopped := true }).prs y := Part.prs_congr (by rw [h.whole])
  exact ⟨by rw [hp, Part.prs_modPrs_same], fun y hy => by rw [hp, Part.prs_modPrs_other p _ hy], by simp [Part.modPrs], h.rx⟩

/-- What the record log takes, and what it leaves (R268). -/
theorem Part.logRecord_logs :
    (p.logRecord s k bs).prs s = { p.prs s with logged := ((p.logRecord s k bs).prs s).logged, stopped := ((p.logRecord s k bs).prs s).stopped } ∧
    (∀ y, y ≠ s → (p.logRecord s k bs).prs y = p.prs y) ∧ (p.logRecord s k bs).fab.rx = p.fab.rx ∧
    ((p.prs s).stopped = false → 16 * (p.prs s).logged + 16 ≤ p.stagingRoom s →
      ((p.logRecord s k bs).prs s).logged = (p.prs s).logged + 1 ∧ ((p.logRecord s k bs).prs s).stopped = false) ∧
    (p.stagingRoom s < 16 * (p.prs s).logged + 16 → (p.logRecord s k bs).mem = p.mem ∧ ((p.logRecord s k bs).prs s).stopped = true) := by
  unfold Part.logRecord
  dsimp only
  split
  · rename_i h
    exact ⟨rfl, fun _ _ => rfl, rfl, fun hn => absurd (h.symm.trans hn) (by decide), fun _ => ⟨rfl, h⟩⟩
  · rename_i hn
    split
    · rename_i h
      obtain ⟨h1, h2, h3, h4⟩ := p.runLimit_stops s
      exact ⟨by rw [h1], h2, h4, fun _ hl => absurd hl (Nat.not_le.2 h), fun _ => ⟨h3, by rw [h1]⟩⟩
    · rename_i h
      obtain ⟨w, hw⟩ : ∃ w, w = p.store 5 k (p.stagingAt s (16 * (p.prs s).logged)) (pressRecord bs) none := ⟨_, rfl⟩
      have hs : Stores p w := by
        rw [hw]
        exact Stores.store p 5 k _ _ none
      rw [← hw, Part.prs_modPrs_same, hs.prs]
      have hf : (p.prs s).stopped = false := by simpa using hn
      refine ⟨rfl, fun y hy => by rw [Part.prs_modPrs_other w _ hy, hs.prs], ?_, fun _ _ => ⟨rfl, hf⟩, fun hl => absurd hl h⟩
      change w.fab.rx = _
      rw [hs.fab]

end

section
variable {s : State} {sector : BitVec 2} {k : Packet}

theorem contributionArrive_records (hk : (s.p.fab.rx.find? fun q => q.cls == 2 && q.kind == 1 && leAt q.payload 4 4 % 4 == sector.toNat) = some k)
    (hw : s.p.working = true) :
    Becomes (.contributionArrive sector) s (((s.p.takeRx k).ownRecord sector.toNat (readContrib k)).bump (PRS_STAT_IN sector.toNat) 1) := by
  change execContributionArrive sector s = _
  unfold execContributionArrive State.run
  dsimp only
  rw [hk]
  dsimp only
  rw [hw, Bool.not_true, if_neg Bool.false_ne_true]

/-- A contribution of another part is recorded (R263, R268). -/
theorem Part.ownRecord_records (p : Part) (x : Nat) (c : Contribution) :
    (p.ownRecord x c).prs x = { p.prs x with
      owner := (p.prs x).owner ++ [c], logged := ((p.ownRecord x c).prs x).logged, stopped := ((p.ownRecord x c).prs x).stopped } ∧
    (∀ y, y ≠ x → (p.ownRecord x c).prs y = p.prs y) ∧ (p.ownRecord x c).fab.rx = p.fab.rx ∧
    ((p.prs x).sent = true → (p.ownRecord x c).mem = p.mem ∧ ((p.ownRecord x c).prs x).logged = (p.prs x).logged ∧
      ((p.ownRecord x c).prs x).stopped = (p.prs x).stopped) ∧
    ((p.prs x).sent = false → (p.prs x).stopped = false → 16 * (p.prs x).logged + 16 ≤ p.stagingRoom x →
      ((p.ownRecord x c).prs x).logged = (p.prs x).logged + 1 ∧ ((p.ownRecord x c).prs x).stopped = false) ∧
    ((p.prs x).sent = false → p.stagingRoom x < 16 * (p.prs x).logged + 16 →
      (p.ownRecord x c).mem = p.mem ∧ ((p.ownRecord x c).prs x).stopped = true) := by
  unfold Part.ownRecord
  dsimp only
  by_cases hs : (p.prs x).sent = true
  · rw [if_pos hs, Part.prs_modPrs_same]
    exact ⟨rfl, fun y hy => Part.prs_modPrs_other p _ hy, rfl, fun _ => ⟨rfl, rfl, rfl⟩, fun h => absurd (hs.symm.trans h) (by decide),
      fun h => absurd (hs.symm.trans h) (by decide)⟩
  · rw [if_neg hs]
    obtain ⟨h1, h2, h3, h4, h5⟩ := p.logRecord_logs x c.pair (contribBytes c)
    generalize p.logRecord x c.pair (contribBytes c) = w at h1 h2 h3 h4 h5 ⊢
    rw [Part.prs_modPrs_same]
    refine ⟨?_, fun y hy => by rw [Part.prs_modPrs_other w _ hy, h2 y hy], h3, fun h => absurd h hs, fun _ => h4, fun _ => h5⟩
    rw [h1]

theorem contributionArrive_leaves (hk : (s.p.fab.rx.find? fun q => q.cls == 2 && q.kind == 1 && leAt q.payload 4 4 % 4 == sector.toNat) = some k)
    (hw : s.p.working = true) :
    let p := s.p
    let x := sector.toNat
    ∃ q, Becomes (.contributionArrive sector) s q ∧ q.fab.rx = p.fab.rx.erase k ∧ q.cores = p.cores ∧
      q.prs x = { p.prs x with owner := (p.prs x).owner ++ [readContrib k], logged := (q.prs x).logged, stopped := (q.prs x).stopped } ∧
      (∀ y, y ≠ x → q.prs y = p.prs y) ∧
      ((p.prs x).sent = true → q.mem = p.mem ∧ (q.prs x).logged = (p.prs x).logged ∧ (q.prs x).stopped = (p.prs x).stopped) ∧
      ((p.prs x).sent = false → (p.prs x).stopped = false → 16 * (p.prs x).logged + 16 ≤ p.stagingRoom x →
        (q.prs x).logged = (p.prs x).logged + 1 ∧ (q.prs x).stopped = false) ∧
      ((p.prs x).sent = false → p.stagingRoom x < 16 * (p.prs x).logged + 16 → q.mem = p.mem ∧ (q.prs x).stopped = true) := by
  intro p x
  have hq := contributionArrive_records hk hw
  obtain ⟨h1, h2, h3, h4, h5, h6⟩ := (s.p.takeRx k).ownRecord_records x (readContrib k)
  have hm := Merges.ownRecord (s.p.takeRx k) x (readContrib k)
  obtain ⟨w, hwd⟩ : ∃ w, w = (s.p.takeRx k).ownRecord x (readContrib k) := ⟨_, rfl⟩
  have hq' : Becomes (.contributionArrive sector) s (w.bump (PRS_STAT_IN x) 1) := by
    rw [hwd]
    exact hq
  rw [← hwd] at h1 h2 h3 h4 h5 h6 hm
  have hb : ∀ y, (w.bump (PRS_STAT_IN x) 1).prs y = w.prs y := fun y => by simp
  have hbm : (w.bump (PRS_STAT_IN x) 1).mem = w.mem := by simp
  refine ⟨_, hq', (Works.bump w _ 1).rx.trans h3, (Works.bump w _ 1).cores.trans hm.cores, ?_⟩
  rw [hb, hbm]
  exact ⟨h1, fun y hy => (hb y).trans (h2 y hy), h4, h5, h6⟩

/-- The part tells its peers that it has sent its last (R264). -/
theorem pressEndMarker_tells (hw : s.p.working = true) (ho : s.p.pressOn = true) (hs : s.p.pressSent = true) (hm : s.p.tick.markerSent = false) :
    ∃ q, Becomes .pressEndMarker s q ∧ q = { s.p with fab := q.fab, tick := { s.p.tick with markerSent := true } } ∧
      ∀ d ∈ s.p.pressPeers, (⟨0, s.p.chip, d, s.p.epoch, 3, 0, 3, 0, 0, []⟩ : Packet) ∈ q.fab.txq := by
  have hc : (!s.p.working || !s.p.pressOn || !s.p.pressSent || s.p.tick.markerSent) = false := by simp [hw, ho, hs, hm]
  have hq : Becomes .pressEndMarker s ((s.p.each s.p.pressPeers fun p d => p.sendPacket d 3 3 0 0 []).modTick fun t =>
      { t with markerSent := true }) := by
    change execPressEndMarker s = _
    unfold execPressEndMarker State.run
    dsimp only
    rw [hc, if_neg Bool.false_ne_true]
  obtain ⟨add, he, ha⟩ := Part.each_sends (fun d : Nat => d) 3 s.p.pressPeers s.p
  rw [he] at hq
  exact ⟨_, hq, rfl, fun d hd => List.mem_append_right _ (ha d hd)⟩

/-- An end marker of another part (R264). -/
theorem pressEndMarkerArrive_marks (hk : (s.p.fab.rx.find? fun q => q.cls == 3 && q.kind == 3) = some k) (hw : s.p.working = true) :
    ∃ q, Becomes .pressEndMarkerArrive s q ∧
      q = { s.p with fab := { s.p.fab with rx := s.p.fab.rx.erase k }, tick := { s.p.tick with markersFrom := q.tick.markersFrom } } ∧
      ∀ d, d ∈ q.tick.markersFrom ↔ d = k.src ∨ d ∈ s.p.tick.markersFrom := by
  have hq : Becomes .pressEndMarkerArrive s ((s.p.takeRx k).modTick fun t =>
      { t with markersFrom := if t.markersFrom.contains k.src then t.markersFrom else k.src :: t.markersFrom }) := by
    change execPressEndMarkerArrive s = _
    unfold execPressEndMarkerArrive State.run
    dsimp only
    rw [hk]
    dsimp only
    rw [hw, Bool.not_true, if_neg Bool.false_ne_true]
  refine ⟨_, hq, rfl, fun d => ?_⟩
  change d ∈ (if s.p.tick.markersFrom.contains k.src = true then s.p.tick.markersFrom else k.src :: s.p.tick.markersFrom) ↔ _
  split
  · rename_i h
    refine ⟨.inr, fun hd => hd.elim (fun e => ?_) id⟩
    rw [e]
    exact List.contains_iff_mem.1 h
  · exact List.mem_cons

end

end Sys2Proof.Machine
end

section
/-!
PROOF. The scatter press (O29): the owner run and the composed run.
-/
namespace Sys2Proof.Machine

theorem length_insertBy {α : Type} (le : α → α → Bool) (x : α) (l : List α) : (insertBy le x l).length = l.length + 1 := by
  induction l with
  | nil => rfl
  | cons y l ih =>
    unfold insertBy
    split
    · rw [List.length_cons, ih, List.length_cons]
    · rfl

theorem length_sortBy {α : Type} (le : α → α → Bool) (l : List α) : (sortBy le l).length = l.length := by
  have h : ∀ acc : List α, (l.foldl (fun acc x => insertBy le x acc) acc).length = acc.length + l.length := by
    induction l with
    | nil => exact fun _ => rfl
    | cons x l ih =>
      intro acc
      rw [List.foldl_cons, ih, length_insertBy, List.length_cons]
      omega
  unfold sortBy
  rw [h]
  simp

theorem Part.serves_of_working {p : Part} (hw : p.working = true) (hu : p.tick.unwinding = false) : p.serves = true := by
  simp [Part.serves, hw, hu]

namespace Merges

section
variable (p : Part)

theorem tierRow (g k : Nat) (T : Tbl) (r : Nat) : Merges p (p.tierRow g k T r).2 := by
  unfold Part.tierRow
  split
  · exact refl p
  · exact ofLoads (Loads.loadN p g k _ 4)

theorem job (s : Nat) (j : RowJob) : Merges p (p.modPrs s fun h => { h with jobs := h.jobs ++ [j] }) :=
  modPrs p s (fun h => { h with jobs := h.jobs ++ [j] }) rfl

theorem composeRecord (s : Nat) (c : Composed) : Merges p (p.composeRecord s c) :=
  (ite _ (refl p) (logRecord p s _ _)).trans (modPrs _ s (fun h => { h with composed := h.composed ++ [c] }) rfl)

theorem routeRow (s : Nat) (j : RowJob) : Merges p (p.routeRow s j) := by
  unfold Part.routeRow
  extract_lets T
  have h := tierRow p 5 j.pair T j.x
  generalize p.tierRow 5 j.pair T j.x = l at h ⊢
  obtain ⟨⟨tier, dt⟩, w⟩ := l
  dsimp -zeta only at h ⊢
  extract_lets j' give
  have hg : ∀ v a b, Merges v (give v a b) := fun v a b => composeRecord v _ _
  clear_value give
  refine ite _ (h.trans (job w s j')) ?_
  split
  · exact h.trans (bump w (by unfold PRS_STAT_MISSING secBase; omega) 1)
  · exact ((h.trans (hg w 0 _)).trans (hg _ 1 _)).trans (bump _ (by unfold PRS_STAT_COMPOSED secBase; omega) 2)
  · exact h.trans (job w s j')

theorem ownerRow (s : Nat) (cs : List Contribution) : Merges p (p.ownerRow s cs) := by
  unfold Part.ownerRow
  obtain _ | ⟨c, tl⟩ := cs
  · exact refl p
  · dsimp -zeta only
    generalize foldSeq (p.prsKeep s) ((c :: tl).map fun x => x.vals) = f
    obtain ⟨v, e⟩ := f
    extract_lets bad w
    have h : Merges p w := bump p (by unfold PRS_STAT_ADDS secBase; omega) _
    clear_value w bad
    cases bad
    rotate_left
    · exact (h.trans (ite _ (prsPoison w s _ _ _ _) (refl w))).trans (routeRow _ s _)
    · exact (h.trans (prsEvents w s _)).trans (routeRow _ s _)

theorem composedRow (s : Nat) (cs : List Composed) : Merges p (p.composedRow s cs) := by
  unfold Part.composedRow
  obtain _ | ⟨c, tl⟩ := cs
  · exact refl p
  · dsimp -zeta only
    generalize foldTree (p.prsKeep s) ((c :: tl).map fun x => x.vals) = f
    obtain ⟨v, e⟩ := f
    dsimp -zeta only
    extract_lets bad w w' pair
    have h : Merges p w := bump p (by unfold PRS_STAT_ADDS secBase; omega) _
    have h' : Merges w w' := by
      unfold w'
      generalize bad = d
      cases d
      · exact prsEvents w s _
      · exact ite _ (prsPoison w s _ _ _ _) (refl w)
    exact (h.trans h').trans (job w' s _)

theorem masterIndex (k : Nat) (T : Tbl) (kind x : Nat) : Merges p (p.masterIndex k T kind x).2 := by
  unfold Part.masterIndex
  split
  · split
    · exact refl p
    · exact tierRow p 6 k T x
  · exact refl p
  · exact refl p

theorem gradRow (s : Nat) (j : RowJob) : Merges p (p.gradRow s j) := by
  unfold Part.gradRow
  extract_lets T
  have h := masterIndex p j.pair T j.kind j.x
  generalize p.masterIndex j.pair T j.kind j.x = l at h ⊢
  obtain ⟨mi, w⟩ := l
  dsimp -zeta only at h ⊢
  split
  · exact h.trans (ofStores (Stores.store w 5 j.pair _ _ _))
  · split
    · exact h.trans (prsPoison w s _ _ _ _)
    · exact h

end

end Merges

theorem Part.spill_short (p : Part) (s : Nat) {recs : List (List Byte)} (h : recs.length ≤ 524288) : p.spill s recs = (true, p) := by
  unfold Part.spill
  dsimp only
  rw [if_pos h]

section
variable {p : Part} {x : Nat} {c : Contribution}

/-- A table's description is that of its registers. -/
theorem Part.tbl_congr {q : Part} (hc : q.chip = p.chip) {t : Nat} (h : ∀ j, secBase 0 + 0x490000 + 0x40 * t ≤ j → j < secBase 0 + 0x490040 + 0x40 * t → q.rd j = p.rd j) :
    q.tbl t = p.tbl t := by
  unfold Part.tbl
  dsimp only
  rw [hc, h (TBL_TCFG 0 t) (by unfold TBL_TCFG; omega) (by unfold TBL_TCFG; omega), Part.getF_congr 0 40 (h (TBL_TBASE0 0 t) ?_ ?_),
    Part.getF_congr 0 40 (h (TBL_TBASE1 0 t) ?_ ?_), Part.getF_congr 0 40 (h (TBL_TDIR 0 t) ?_ ?_), Part.getF_congr 0 32 (h (TBL_TSIZE 0 t) ?_ ?_),
    Part.getF_congr 40 24 (h (TBL_TSIZE 0 t) ?_ ?_), Part.getF_congr 0 32 (h (TBL_TSLOTS 0 t) ?_ ?_),
    Part.getF_congr 32 32 (h (TBL_TSLOTS 0 t) ?_ ?_), h (TBL_TMAP 0 t) ?_ ?_, Part.getF_congr 0 40 (h (TBL_TDEF 0 t) ?_ ?_)]
  all_goals simp only [TBL_TBASE0, TBL_TBASE1, TBL_TDIR, TBL_TSIZE, TBL_TSLOTS, TBL_TMAP, TBL_TDEF]; omega

/-- One contribution of a row that a tier 0 slot holds becomes the row's job (R265 to R267). -/
theorem Part.ownerRow_single (hp : c.poison = none) (ht : c.table < 256) (hn : (p.tbl c.table).tiered = false) (hr : c.row < (p.tbl c.table).slots0) :
    p.ownerRow x [c] = (p.bump (PRS_STAT_ADDS x) 0).modPrs x fun h => { h with jobs := h.jobs ++ [⟨c.table, 0, c.row, c.pair, c.vals, none⟩] } := by
  have hb : ([c].find? fun y => y.poison.isSome) = none := by simp [hp]
  have hT : (p.bump (PRS_STAT_ADDS x) 0).tbl c.table = p.tbl c.table := Part.tbl_congr (by simp [Part.chip]) fun j h1 h2 =>
    Part.rd_bump_other _ _ (by unfold PRS_STAT_ADDS; unfold secBase at *; omega)
  unfold Part.ownerRow
  dsimp only
  rw [hb]
  dsimp only
  have he : (p.bump (PRS_STAT_ADDS x) 0).prsEvents x (foldSeq (p.prsKeep x) [c.vals]).2 = p.bump (PRS_STAT_ADDS x) 0 := rfl
  change ((p.bump (PRS_STAT_ADDS x) 0).prsEvents x (foldSeq (p.prsKeep x) [c.vals]).2).routeRow x ⟨c.table, 0, c.row, c.pair, c.vals, none⟩ = _
  rw [he]
  unfold Part.routeRow Part.tierRow
  dsimp only
  rw [hT, hn, Bool.not_false, if_pos rfl]
  dsimp only
  rw [if_neg (by decide), if_pos hr]

end

section
variable {s : State} {sector : BitVec 2}

/-- The runs of an owner merge, one to a row (R265). -/
def Part.ownerRuns (p : Part) (x : Nat) : List (Nat × List Contribution) :=
  groupAdj (fun c : Contribution => (c.table <<< 32) + c.row) (sortBy contribLe (p.prs x).owner)

theorem ownerMerge_folds (hs : s.p.serves = true) (ho : s.p.pressOn = true) (hm : s.p.markersIn = true)
    (hn : (s.p.prs sector.toNat).ownerDone = false) (hl : (s.p.prs sector.toNat).stopped = false)
    (h5 : (s.p.prs sector.toNat).owner.length ≤ 524288) :
    Becomes (.ownerMerge sector) s ((s.p.each (s.p.ownerRuns sector.toNat) fun p g => p.ownerRow sector.toNat g.2).modPrs sector.toNat
      fun h => { h with ownerDone := true, owner := [] }) := by
  have hc : (!s.p.serves || !s.p.pressOn || !s.p.markersIn || (s.p.prs sector.toNat).ownerDone || (s.p.prs sector.toNat).stopped) = false := by
    simp [hs, ho, hm, hn, hl]
  have hsp := s.p.spill_short sector.toNat (recs := (sortBy contribLe (s.p.prs sector.toNat).owner).map contribBytes)
    (by rw [List.length_map, length_sortBy]; exact h5)
  change execOwnerMerge sector s = _
  unfold execOwnerMerge State.run
  dsimp only
  rw [hc, if_neg Bool.false_ne_true, hsp]
  dsimp only
  rw [if_neg (by decide)]
  rfl

/-- The stage of a press whose work is past a point, in a frame that goes on. -/
theorem Part.pressStage_of {p : Part} {x : Nat} (ho : p.pressOn = true) (hf : p.inFrame = true) :
    ((p.prs x).composedDone = true → p.pressStage x = 6) ∧ ((p.prs x).composedDone = false → (p.prs x).ownerDone = true → p.pressStage x = 5) := by
  unfold Part.pressStage
  dsimp only
  rw [ho, hf, if_neg (by decide)]
  exact ⟨fun h => if_pos h, fun h h' => by rw [h, if_neg Bool.false_ne_true, if_pos h']⟩

theorem ownerMerge_leaves (hw : s.p.working = true) (hu : s.p.tick.unwinding = false) (ho : s.p.pressOn = true) (hm : s.p.markersIn = true)
    (hn : (s.p.prs sector.toNat).ownerDone = false) (hl : (s.p.prs sector.toNat).stopped = false)
    (h5 : (s.p.prs sector.toNat).owner.length ≤ 524288) :
    let p := s.p
    let x := sector.toNat
    ∃ q, Becomes (.ownerMerge sector) s q ∧ ((p.prs x).composedDone = false → q.pressStage x = 5) ∧ (q.prs x).ownerDone = true ∧
      (q.prs x).owner = [] ∧ q.cores = p.cores ∧
      ∀ c, (p.prs x).owner = [c] → c.poison = none → c.table < 256 → (p.tbl c.table).tiered = false → c.row < (p.tbl c.table).slots0 →
        q.mem = p.mem ∧ (q.prs x).jobs = (p.prs x).jobs ++ [⟨c.table, 0, c.row, c.pair, c.vals, none⟩] := by
  intro p x
  have hq := ownerMerge_folds (Part.serves_of_working hw hu) ho hm hn hl h5
  obtain ⟨v, hv⟩ : ∃ v, v = p.each (p.ownerRuns x) fun p g => p.ownerRow x g.2 := ⟨_, rfl⟩
  have hmg : Merges p v := by
    rw [hv]
    exact Merges.each (f := fun p (g : Nat × List Contribution) => p.ownerRow x g.2) (p.ownerRuns x) (fun g w => Merges.ownerRow w x g.2) p
  obtain ⟨w, hwd⟩ : ∃ w, w = v.modPrs x fun h => { h with ownerDone := true, owner := [] } := ⟨_, rfl⟩
  have hq' : Becomes (.ownerMerge sector) s w := by
    rw [hwd, hv]
    exact hq
  have hwx : w.prs x = { v.prs x with ownerDone := true, owner := [] } := by rw [hwd, Part.prs_modPrs_same]
  obtain ⟨hwc, hwo, hwf, hwm⟩ : w.cores = v.cores ∧ w.pressOn = v.pressOn ∧ w.inFrame = v.inFrame ∧ w.mem = v.mem := by
    rw [hwd]
    exact ⟨rfl, rfl, rfl, rfl⟩
  refine ⟨w, hq', fun hc => ?_, by rw [hwx], by rw [hwx], hwc.trans hmg.cores, fun c hc hp ht htn hr => ?_⟩
  · refine (Part.pressStage_of (hwo.trans (hmg.frame.1.trans ho)) (hwf.trans (hmg.frame.2.trans (Part.working_inFrame hw)))).2 ?_ (by rw [hwx])
    rw [hwx]
    change (v.prs x).composedDone = false
    rw [hmg.prs, hc]
  · have hve : v = p.ownerRow x [c] := by
      rw [hv]
      unfold Part.ownerRuns
      rw [hc]
      rfl
    rw [hwm, hwx, hve, Part.ownerRow_single hp ht htn hr]
    exact ⟨by simp [Part.modPrs], by rw [Part.prs_modPrs_same]; simp⟩

/-- The runs of a composed run, one to a row of a sub-table (R266). -/
def Part.composedRuns (p : Part) (x : Nat) : List (Nat × List Composed) :=
  groupAdj (fun c : Composed => (c.table <<< 28) + (c.sub <<< 27) + c.subRow) (sortBy composedLe (p.prs x).composed)

/-- Whether a job's row goes to a gradient array (R267). -/
def Part.isGrad (p : Part) (j : RowJob) : Bool := (p.tbl j.table).mode == 1

/-- The part when a composed run has written its rows. -/
def Part.composedWritten (p : Part) (x : Nat) : Part :=
  let p := p.each (p.composedRuns x) fun p g => p.composedRow x g.2
  let q := p.each ((p.prs x).jobs.filter p.isGrad) fun p j => p.gradRow x j
  q.modPrs x fun h => { h with composedDone := true, composed := [], jobs := h.jobs.filter fun j => !(p.isGrad j) }

theorem composedRun_merges (hs : s.p.serves = true) (ho : s.p.pressOn = true)
    (hr : ∀ y < 4, (s.p.prs y).ownerDone = true ∧ (s.p.prs y).cleared = true) (hn : (s.p.prs sector.toNat).composedDone = false)
    (hl : (s.p.prs sector.toNat).stopped = false) (h5 : (s.p.prs sector.toNat).composed.length ≤ 524288) :
    Becomes (.composedRun sector) s (s.p.composedWritten sector.toNat) := by
  have hrd : (sectors.all fun y => (s.p.prs y).ownerDone && (s.p.prs y).cleared) = true := by
    rw [List.all_eq_true]
    intro y hy
    have hy4 : y < 4 := by
      simp [sectors] at hy
      omega
    rw [(hr y hy4).1, (hr y hy4).2]
    rfl
  have hc : (!s.p.serves || !s.p.pressOn || !(sectors.all fun y => (s.p.prs y).ownerDone && (s.p.prs y).cleared) ||
      (s.p.prs sector.toNat).composedDone || (s.p.prs sector.toNat).stopped) = false := by
    rw [hrd]
    simp [hs, ho, hn, hl]
  have hsp := s.p.spill_short sector.toNat (recs := (sortBy composedLe (s.p.prs sector.toNat).composed).map composedBytes)
    (by rw [List.length_map, length_sortBy]; exact h5)
  change execComposedRun sector s = _
  unfold execComposedRun State.run
  dsimp only
  rw [hc, if_neg Bool.false_ne_true, hsp]
  dsimp only
  rw [if_neg (by decide)]
  rfl

/-- What a composed run leaves. -/
theorem Part.composedWritten_keeps (p : Part) (x : Nat) :
    ((p.composedWritten x).prs x).composedDone = true ∧ ((p.composedWritten x).prs x).composed = [] ∧ (p.composedWritten x).cores = p.cores ∧
    (p.composedWritten x).pressOn = p.pressOn ∧ (p.composedWritten x).inFrame = p.inFrame := by
  unfold Part.composedWritten
  extract_lets v w
  have h1 : Merges p v :=
    Merges.each (f := fun p (g : Nat × List Composed) => p.composedRow x g.2) (p.composedRuns x) (fun g w => Merges.composedRow w x g.2) p
  have h2 : Merges v w := Merges.each (f := fun p j => p.gradRow x j) _ (fun j u => Merges.gradRow u x j) v
  have h := h1.trans h2
  clear_value w
  rw [Part.prs_modPrs_same]
  exact ⟨rfl, rfl, h.cores, h.frame.1, h.frame.2⟩

/-- With nothing composed and no row for a gradient array, the run leaves memory and jobs. -/
theorem Part.composedWritten_idle {p : Part} {x : Nat} (h0 : (p.prs x).composed = []) (hj : ∀ j ∈ (p.prs x).jobs, (p.tbl j.table).mode ≠ 1) :
    (p.composedWritten x).mem = p.mem ∧ ((p.composedWritten x).prs x).jobs = (p.prs x).jobs := by
  have hr : p.composedRuns x = [] := by
    unfold Part.composedRuns
    rw [h0]
    rfl
  have hg : ∀ j ∈ (p.prs x).jobs, p.isGrad j = false := fun j hm => beq_eq_false_iff_ne.2 (hj j hm)
  have hf : (p.prs x).jobs.filter p.isGrad = [] := by
    rw [List.filter_eq_nil_iff]
    intro j hm h
    exact absurd (h.symm.trans (hg j hm)) (by decide)
  unfold Part.composedWritten
  dsimp only
  rw [hr, Part.each_nil, hf, Part.each_nil, Part.prs_modPrs_same]
  refine ⟨rfl, ?_⟩
  dsimp only
  rw [List.filter_eq_self]
  intro j hm
  rw [hg j hm]
  rfl

end

/-- Settles O29: each step of the press in full, the rest from what its merges leave. -/
theorem scatterPress : Obligations.ScatterPress := by
  unfold Obligations.ScatterPress
  intro s sector p x hw
  refine ⟨fun hu hp ho hn => pressSortStart_leaves hw hu hp ho hn, fun k hk => contributionArrive_leaves hk hw,
    fun ho hs hm => pressEndMarker_tells hw ho hs hm, fun k hk => pressEndMarkerArrive_marks hk hw,
    fun hu ho hm hn hl h5 => ownerMerge_leaves hw hu ho hm hn hl h5, fun hu ho hr hn hl h5 => ?_⟩
  obtain ⟨h1, h2, h3, h4, h6⟩ := p.composedWritten_keeps x
  exact ⟨_, composedRun_merges (Part.serves_of_working hw hu) ho hr hn hl h5,
    (Part.pressStage_of (h4.trans ho) (h6.trans (Part.working_inFrame hw))).1 h1, h1, h2, h3, fun h0 hj => Part.composedWritten_idle h0 hj⟩

end Sys2Proof.Machine
end

section
/-!
SUPPORT. What the request units leave of the rest of the part while they read rows and write results (R189 to R216, R231 to R243).
-/
namespace Sys2Proof.Machine

/-- What reads on behalf of a unit leave: the cores, the fabric, the twin, and of every sector the queued and the running requests. -/
structure Reads (p q : Part) : Prop where
  cores : q.cores = p.cores
  fab : q.fab = p.fab
  twin : q.twin = p.twin
  unit : ∀ y, q.unit y = { p.unit y with
    nextRef := (q.unit y).nextRef, rc := (q.unit y).rc, rcLookups := (q.unit y).rcLookups, ahead := (q.unit y).ahead }

namespace Reads

theorem refl (p : Part) : Reads p p := ⟨rfl, rfl, rfl, fun _ => rfl⟩

theorem trans {p q r : Part} (h : Reads p q) (h' : Reads q r) : Reads p r :=
  ⟨h'.cores.trans h.cores, h'.fab.trans h.fab, h'.twin.trans h.twin, fun y => by rw [h'.unit y, h.unit y]⟩

theorem ite (b : Prop) [Decidable b] {p q r : Part} (hq : Reads p q) (hr : Reads p r) : Reads p (if b then q else r) := by
  split
  · exact hq
  · exact hr

theorem each {α : Type} {f : Part → α → Part} (l : List α) (h : ∀ x p, Reads p (f p x)) (p : Part) : Reads p (p.each l f) := by
  induction l generalizing p with
  | nil => exact refl p
  | cons x l ih =>
    rw [Part.each_cons]
    exact (h x p).trans (ih _)

theorem ofLoads {p q : Part} (h : Loads p q) : Reads p q :=
  ⟨by rw [h.whole], by rw [h.whole], by rw [h.whole], fun y => by rw [h.unit y]⟩

section
variable (p : Part)

theorem wr (o v : Nat) : Reads p (p.wr o v) := ⟨by simp, by simp, by simp, fun y => by simp⟩

theorem bump (o n : Nat) : Reads p (p.bump o n) := wr p o _

theorem stick (o i : Nat) : Reads p (p.stick o i) := (wr p o _).trans (wr _ (o + 4) _)

theorem peak (o v : Nat) : Reads p (p.peak o v) := ite _ (wr p o v) (refl p)

theorem noteErr (o i : Nat) (e : ErrRec) (h : e.severity = 0) : Reads p (p.noteErr o i e) :=
  (stick p o i).trans (ofLoads (Loads.err _ { e with event := i } h))

theorem events (o : Nat) (e : Events) : Reads p (p.events o e) := ite _ (refl p) ((wr p o _).trans (wr _ (o + 4) _))

theorem setUnit (x : Nat) (u : Units)
    (h : u = { p.unit x with nextRef := u.nextRef, rc := u.rc, rcLookups := u.rcLookups, ahead := u.ahead }) : Reads p (p.setUnit x u) :=
  ⟨rfl, rfl, rfl, fun y => by
    rw [Part.unit_setUnit]
    split
    · rename_i e
      subst e
      exact h
    · rfl⟩

theorem load (g k a n : Nat) : Reads p (p.load g k a n).2 := ofLoads (Loads.load p g k a n)

theorem loadN (g k a n : Nat) : Reads p (p.loadN g k a n).2 := ofLoads (Loads.loadN p g k a n)

theorem loadList (g k a n : Nat) : Reads p (p.loadList g k a n).2 := load p g k a (4 * n)

theorem tierRow (g k : Nat) (T : Tbl) (r : Nat) : Reads p (p.tierRow g k T r).2 := by
  unfold Part.tierRow
  split
  · exact refl p
  · exact loadN p g k _ 4

theorem defaultRow (g k : Nat) (T : Tbl) : Reads p (p.defaultRow g k T).2 := load p g k _ _

theorem readScaled (g k : Nat) (T : Tbl) (a b : Nat) : Reads p (p.readScaled g k T a b).2 := (load p g k _ _).trans (loadN _ g k _ 4)

theorem tblPoison (s k t key token : Nat) : Reads p (p.tblPoison s k t key token) := noteErr p _ 2 _ rfl

theorem tblEvents (s : Nat) (e : Events) : Reads p (p.tblEvents s e) := (events p _ e).trans (bump _ _ _)

/-- A row that a table does not have (R235). -/
theorem missingRow (s g k : Nat) (T : Tbl) (r : Nat) (bad : Bool) :
    Reads p ((if bad then (p.bump (TBL_TSTAT_MISS s T.t) 1).noteErr (TBL_STICKY s) 3 { mkErr 3 3 0 with sector := s, pair := k, loc0 := T.t, loc1 := r }
      else p.bump (TBL_TSTAT_MISS s T.t) 1).defaultRow g k T).2 :=
  ((bump p _ 1).trans (ite _ (noteErr _ _ 3 _ rfl) (refl _))).trans (defaultRow _ g k T)

theorem readRow (s g k : Nat) (T : Tbl) (c r : Nat) : Reads p (p.readRow s g k T c r).2 := by
  unfold Part.readRow
  have h1 := tierRow p g k T r
  generalize p.tierRow g k T r = l at h1 ⊢
  obtain ⟨⟨tier, dir⟩, w⟩ := l
  dsimp only at h1 ⊢
  refine h1.trans ?_
  cases dir with
  | some t => exact refl w
  | none =>
    cases tier with
    | full slot => exact load w g k _ _
    | scaled slot => exact readScaled w g k T _ _
    | composed => exact (readScaled w g k T _ _).trans (readScaled _ g k T _ _)
    | missing bad => exact missingRow w s g k T r bad

theorem rcLookup (s : Nat) (T : Tbl) (owner key : Nat) : Reads p (p.rcLookup s T owner key).2 := by
  unfold Part.rcLookup
  split
  · exact refl p
  · dsimp only
    split
    · exact setUnit p s _ rfl
    · exact setUnit p s _ rfl

theorem rcFill (s : Nat) (T : Tbl) (owner key : Nat) (r : RowRead) : Reads p (p.rcFill s T owner key r) := by
  unfold Part.rcFill
  refine ite _ (refl p) (each _ (fun g p => ?_) p)
  refine ite _ (refl p) ?_
  extract_lets i ev p1 p2
  have h : Reads p p2 := (setUnit p s _ rfl).trans (bump p1 _ 1)
  exact ite _ (h.trans (bump p2 _ 1)) h

theorem fetchRow (s g k : Nat) (T : Tbl) (key r : Nat) (nc : Bool) : Reads p (p.fetchRow s g k T key r nc).2 := by
  unfold Part.fetchRow
  have h1 : Reads p (if nc then ((none : Option (List Byte)), p) else p.rcLookup s T p.chip key).2 := by
    split
    · exact refl p
    · exact rcLookup p s T _ key
  generalize (if nc then ((none : Option (List Byte)), p) else p.rcLookup s T p.chip key) = l at h1 ⊢
  obtain ⟨hit, w⟩ := l
  dsimp only at h1 ⊢
  refine h1.trans ?_
  cases hit with
  | some bs => exact refl w
  | none =>
    have h2 := (readRow w s g k T (w.curCopy T) r).trans (tblEvents _ s (w.readRow s g k T (w.curCopy T) r).1.events)
    exact h2.trans (ite _ (refl _) (rcFill _ s T _ key _))

end

end Reads

/-- What a unit that serves a request leaves: the cores, what the fabric delivered, and of every sector the queued and the running
requests. -/
structure Serves (p q : Part) : Prop where
  cores : q.cores = p.cores
  rx : q.fab.rx = p.fab.rx
  txq : p.fab.txq <+: q.fab.txq
  unit : ∀ y, q.unit y = { p.unit y with
    nextRef := (q.unit y).nextRef, rc := (q.unit y).rc, rcLookups := (q.unit y).rcLookups, ahead := (q.unit y).ahead }

namespace Serves

theorem ofReads {p q : Part} (h : Reads p q) : Serves p q :=
  ⟨h.cores, by rw [h.fab], by rw [h.fab], h.unit⟩

theorem ofWorks {p q : Part} (h : Works p q) : Serves p q :=
  ⟨h.cores, h.rx, h.txq, fun y => by rw [h.unit y]⟩

theorem refl (p : Part) : Serves p p := ofReads (Reads.refl p)

theorem trans {p q r : Part} (h : Serves p q) (h' : Serves q r) : Serves p r :=
  ⟨h'.cores.trans h.cores, h'.rx.trans h.rx, h.txq.trans h'.txq, fun y => by rw [h'.unit y, h.unit y]⟩

theorem ite (b : Prop) [Decidable b] {p q r : Part} (hq : Serves p q) (hr : Serves p r) : Serves p (if b then q else r) := by
  split
  · exact hq
  · exact hr

theorem each {α : Type} {f : Part → α → Part} (l : List α) (h : ∀ x p, Serves p (f p x)) (p : Part) : Serves p (p.each l f) := by
  induction l generalizing p with
  | nil => exact refl p
  | cons x l ih =>
    rw [Part.each_cons]
    exact (h x p).trans (ih _)

/-- Work done item by item, whose results are gathered. -/
theorem foldl {α β : Type} (f : β × Part → α → β × Part) (h : ∀ b p x, Serves p (f (b, p) x).2) (l : List α) (b : β) (p : Part) :
    Serves p (l.foldl f (b, p)).2 := by
  induction l generalizing b p with
  | nil => exact refl p
  | cons x l ih => exact (h b p x).trans (ih _ _)

section
variable {p q : Part} (h : Serves p q)
include h

theorem running (y : Nat) : (q.unit y).running = (p.unit y).running := by rw [h.unit y]

theorem queued (y u : Nat) : (q.unit y).queued u = (p.unit y).queued u := by
  rw [h.unit y]
  rfl

end

section
variable (p : Part)

theorem bump (o n : Nat) : Serves p (p.bump o n) := ofReads (Reads.bump p o n)

theorem stick (o i : Nat) : Serves p (p.stick o i) := ofReads (Reads.stick p o i)

theorem peak (o v : Nat) : Serves p (p.peak o v) := ofReads (Reads.peak p o v)

theorem err (e : ErrRec) : Serves p (p.err e) := ofWorks (Works.err p e)

theorem noteErr (o i : Nat) (e : ErrRec) : Serves p (p.noteErr o i e) := ofWorks (Works.noteErr p o i e)

theorem modPrs (s : Nat) (f : Press → Press) : Serves p (p.modPrs s f) := ⟨rfl, rfl, List.prefix_refl _, fun _ => rfl⟩

theorem sendPacket (d c k r poison : Nat) (bs : List Byte) : Serves p (p.sendPacket d c k r poison bs) :=
  ⟨rfl, rfl, List.prefix_append _ _, fun _ => rfl⟩

theorem sentFor (k n : Nat) : Serves p (p.sentFor k n) := ofWorks (Works.addPair p k _)

theorem load (g k a n : Nat) : Serves p (p.load g k a n).2 := ofReads (Reads.load p g k a n)

theorem loadList (g k a n : Nat) : Serves p (p.loadList g k a n).2 := ofReads (Reads.loadList p g k a n)

theorem unitStore (g k a : Nat) (bs : List Byte) (t : Option Nat) : Serves p (p.unitStore g k a bs t) := ofWorks (Works.unitStore p g k a bs t)

theorem denied (s : Nat) : Serves p (p.denied s) := (bump p _ 1).trans (stick _ _ 4)

theorem refuseExternal (a k : Nat) : Serves p (p.refuseExternal a k) := err p _

theorem reportDest (s a n k : Nat) : Serves p (p.reportDest s a n k) :=
  ite _ (refl p) (ite _ (denied p s) (ite _ (refuseExternal p a k) (refl p)))

theorem reportSrc (s a n : Nat) : Serves p (p.reportSrc s a n) := ite _ (refl p) (denied p s)

theorem gseRefuse (s : Nat) (q : Ureq) (i : Nat) : Serves p (p.gseRefuse s q i) := noteErr p _ i _

theorem tblRefuse (s : Nat) (q : Ureq) (i : Nat) : Serves p (p.tblRefuse s q i) := noteErr p _ i _

theorem consume (s g c k t : Nat) : Serves p (p.consume s g c k t) := ofWorks (Works.consume p s g c k t)

theorem poisonNote (s t a : Nat) (q : Ureq) : Serves p (p.poisonNote s t a q) := by
  unfold Part.poisonNote
  dsimp only
  split
  · exact noteErr p _ 3 _
  · exact noteErr p _ 2 _
  · exact noteErr p _ 3 _

theorem poisonReq (s g t a : Nat) (q : Ureq) : Serves p (p.poisonReq s g t a q).2 := (consume p s g q.core q.pair t).trans (poisonNote _ s t a q)

theorem tableCheck (s : Nat) (q : Ureq) : Serves p (p.tableCheck s q).2 := by
  unfold Part.tableCheck
  split
  · exact tblRefuse p s q 1
  · split
    · exact tblRefuse p s q 0
    · exact refl p

theorem askRows (s k flags : Nat) (T : Tbl) (fs : List RowFetch) : Serves p (p.askRows s k flags T fs).2 := by
  cases fs with
  | nil => exact refl p
  | cons f r =>
    have h1 : Serves p (p.rowRef s ((f :: r).length * T.w0 > 2016)).2 := ofReads (Reads.setUnit p s _ rfl)
    exact h1.trans ((sendPacket _ _ _ _ _ _ _).trans (sentFor _ k _))

theorem askAll (s k flags : Nat) (T : Tbl) (gs : List (List RowFetch)) : Serves p (p.askAll s k flags T gs).2 :=
  foldl _ (fun _ p g => askRows p s k flags T g) gs [] p

/-- One key: an invalid one, a hit, a join or a fetch of its own (R211). -/
theorem planKey (s : Nat) (T : Tbl) (nc : Bool) (key : Nat) (outs : List Nat) : Serves p (p.planKey s T nc key outs).2 := by
  unfold Part.planKey
  extract_lets base w
  have h1 : Serves p w := bump p _ _
  refine h1.trans ?_
  clear_value w
  split
  · exact bump w _ _
  · dsimp -zeta only
    extract_lets f use p3
    subst p3
    have h2 : Serves w (if use then w.rcLookup s T (w.place T key).1 key else ((none : Option (List Byte)), w)).2 := by
      split
      · exact ofReads (Reads.rcLookup w s T _ key)
      · exact refl w
    generalize (if use then w.rcLookup s T (w.place T key).1 key else ((none : Option (List Byte)), w)) = l at h2 ⊢
    obtain ⟨hit, v⟩ := l
    dsimp only at h2 ⊢
    refine h2.trans ?_
    cases hit with
    | some bs => exact bump v _ 1
    | none =>
      dsimp only
      split
      · exact bump v _ 1
      · exact (bump v _ 1).trans (ite _ (bump _ _ 1) (refl _))

theorem planRows (s k : Nat) (T : Tbl) (nc : Bool) (keys : List Nat) : Serves p (p.planRows s k T nc keys).2 := by
  unfold Part.planRows
  have h1 := foldl (fun (q : List RowFetch × Part) (k : Nat × List Nat) => (q.1 ++ [(q.2.planKey s T nc k.1 k.2).1], (q.2.planKey s T nc k.1 k.2).2))
    (fun _ p k => planKey p s T nc k.1 k.2) (distinctKeys keys) [] p
  refine h1.trans ?_
  exact (askAll _ s k (2 * b2n nc) T _).trans (peak _ _ _)

end

end Serves

end Sys2Proof.Machine
end

section
/-!
PROOF. Sampler, gather, scatter and lookup requests start (O27): gathers and lookups.
-/
namespace Sys2Proof.Machine

/-- What a unit makes of a request as it starts: it leaves its own request, and one that is accepted counts `n`. -/
structure Accepts (p : Part) (k : Ureq) (n : Nat) (l : RunReq × Part) : Prop where
  req : l.1.req = k
  done : l.1.status = 0 → l.1.done = n
  part : Serves p l.2

namespace Accepts

variable {p : Part} {k : Ureq} {n : Nat}

theorem trans {q : Part} {l : RunReq × Part} (hp : Serves p q) (h : Accepts q k n l) : Accepts p k n l := ⟨h.req, h.done, hp.trans h.part⟩

theorem ite (b : Prop) [Decidable b] {l m : RunReq × Part} (hl : Accepts p k n l) (hm : Accepts p k n m) : Accepts p k n (if b then l else m) := by
  split
  · exact hl
  · exact hm

theorem refused {q : Part} (h : Serves p q) : Accepts p k n (refusedReq k, q) := ⟨rfl, fun h => absurd h (Nat.succ_ne_zero _), h⟩

theorem poisoned (s g t a : Nat) : Accepts p k n (p.poisonReq s g t a k) := ⟨rfl, fun h => absurd h (Nat.succ_ne_zero _), Serves.poisonReq p s g t a k⟩

theorem ran {q : Part} (st f r : Nat) (fs : List RowFetch) (h : List Byte) (hq : Serves p q) : Accepts p k n (⟨k, st, n, f, r, fs, h⟩, q) :=
  ⟨rfl, fun _ => rfl, hq⟩

theorem startGather (x : Nat) : Accepts p k (gCount k.desc) (p.startGather x k) := by
  unfold Part.startGather
  have h1 := Serves.tableCheck p x k
  generalize p.tableCheck x k = l at h1 ⊢
  obtain ⟨okT, w⟩ := l
  dsimp only at h1 ⊢
  refine trans h1 ?_
  refine ite _ (refused ((Serves.reportSrc w _ _ _).trans (Serves.gseRefuse _ x k 0))) ?_
  refine ite _ (refused ((Serves.denied w x).trans (Serves.gseRefuse _ x k 0))) ?_
  refine ite _ (refused ((Serves.reportDest w _ _ _ _).trans (Serves.gseRefuse _ x k 1))) ?_
  have h2 := Serves.loadList w 3 k.pair (addrAt k.desc 8) (gCount k.desc)
  generalize w.loadList 3 k.pair (addrAt k.desc 8) (gCount k.desc) = l at h2 ⊢
  obtain ⟨⟨ids, t⟩, v⟩ := l
  refine trans h2 ?_
  cases t with
  | some t => exact poisoned _ _ _ _
  | none => exact ran _ _ _ _ _ (Serves.planRows v x k.pair _ _ ids)

theorem startLookup (x : Nat) : Accepts p k (lCount k.desc) (p.startLookup x k) := by
  unfold Part.startLookup
  have h1 := Serves.tableCheck p x k
  generalize p.tableCheck x k = l at h1 ⊢
  obtain ⟨okT, w⟩ := l
  dsimp only at h1 ⊢
  refine trans h1 ?_
  refine ite _ (refused (Serves.refl w)) ?_
  refine ite _ (refused (((Serves.reportSrc w _ _ _).trans (Serves.reportSrc _ _ _ _)).trans
    ((Serves.ite _ (Serves.reportSrc _ _ _ _) (Serves.refl _)).trans (Serves.tblRefuse _ x k 0)))) ?_
  refine ite _ (refused ((Serves.denied w x).trans (Serves.tblRefuse _ x k 0))) ?_
  refine ite _ (refused ((Serves.reportDest w _ _ _ _).trans (Serves.tblRefuse _ x k 0))) ?_
  have h2 := Serves.loadList w 4 k.pair (addrAt k.desc 24) (lBags k.desc + 1)
  generalize w.loadList 4 k.pair (addrAt k.desc 24) (lBags k.desc + 1) = l at h2 ⊢
  obtain ⟨⟨offs, t0⟩, v⟩ := l
  refine trans h2 ?_
  cases t0 with
  | some t => exact poisoned _ _ _ _
  | none =>
    refine ite _ (refused (Serves.tblRefuse v x k 0)) ?_
    have h3 := Serves.loadList v 4 k.pair (addrAt k.desc 16) (lCount k.desc)
    generalize v.loadList 4 k.pair (addrAt k.desc 16) (lCount k.desc) = l at h3 ⊢
    obtain ⟨⟨keys, t1⟩, u⟩ := l
    refine trans h3 ?_
    dsimp only
    have h4 : Serves u (if bit (leAt k.desc 1 1) 2 = true then u.loadList 4 k.pair (addrAt k.desc 32) (lCount k.desc) else (([], none), u)).2 := by
      split
      · exact Serves.loadList u 4 k.pair _ _
      · exact Serves.refl u
    generalize (if bit (leAt k.desc 1 1) 2 = true then u.loadList 4 k.pair (addrAt k.desc 32) (lCount k.desc) else (([], none), u)) = l at h4 ⊢
    obtain ⟨⟨wgts, t2⟩, u'⟩ := l
    refine trans h4 ?_
    match t1, t2 with
    | some t, _ => exact poisoned _ _ _ _
    | none, some t => exact poisoned _ _ _ _
    | none, none => exact ran _ _ _ _ _ (Serves.planRows u' x k.pair _ _ keys)

end Accepts

end Sys2Proof.Machine
end

section
/-!
PROOF. Sampler, gather, scatter and lookup requests start (O27): tiles, row scatters and the sampler.
-/
namespace Sys2Proof.Machine

namespace Serves

variable (p : Part)

theorem readTileAt (k a : Nat) (dense : Bool) : Serves p (p.readTileAt k a dense).2 := by
  unfold Part.readTileAt
  have h1 := load p 3 k a 8
  generalize p.load 3 k a 8 = l at h1 ⊢
  obtain ⟨⟨hb, t⟩, w⟩ := l
  refine h1.trans ?_
  cases t with
  | some t => exact refl w
  | none =>
    dsimp only
    split
    · exact refl w
    · rename_i h _
      have h2 : Serves w (w.loadGrans 3 k (a + 8) (32 * h.len)).2.fresh.2 :=
        ofReads (Reads.ofLoads ((Loads.loadGrans w 3 k _ _).trans (Loads.fresh _)))
      split
      · exact h2
      · split
        · exact h2
        · exact h2

theorem readTiles (k a pitch n : Nat) (dense : Bool) : Serves p (p.readTiles k a pitch n dense).2 :=
  foldl _ (fun _ p t => readTileAt p k (a + t * pitch) dense) (List.range n) [] p

theorem putRow (k a : Nat) (gs : List (List Byte × Option Nat)) : Serves p (p.putRow k a gs) := by
  unfold Part.putRow
  induction gs generalizing p a with
  | nil => exact refl p
  | cons g gs ih => exact (unitStore p 3 k a g.1 g.2).trans (ih _ _)

theorem putTiles (x : Nat) (q : Ureq) (tiles : List TileRead) : Serves p (p.putTiles x q tiles).2 := by
  unfold Part.putTiles
  extract_lets d note
  have hn : ∀ (p : Part) (i a tok : Nat), Serves p (note p i a tok) := fun p i a tok => noteErr p _ i _
  clear_value note
  refine foldl _ (fun b p y => ?_) _ false p
  dsimp -zeta only
  split
  · exact (ite _ (hn p 2 _ 0) (refl p)).trans (hn _ 3 _ _)
  · rename_i l _
    extract_lets _ base p1 p2
    have h1 : Serves p p2 := (each _ (fun y p => putRow p q.pair _ _) p).trans (bump p1 _ 1)
    clear_value p2
    split
    · exact h1.trans (hn p2 3 _ _)
    · exact h1

theorem storeTile (x : Nat) (q : Ureq) (form : Nat) (f : Fmt) (rows t : Nat) : Serves p (p.storeTile x q form f rows t).2 := by
  unfold Part.storeTile
  extract_lets d w src dst
  generalize hl : List.foldl _ _ (List.range rows) = l
  have h1 : Serves p l.2 := by
    rw [← hl]
    exact foldl _ (fun _ p i => load p 3 q.pair _ _) _ [] p
  obtain ⟨got, v⟩ := l
  refine h1.trans ?_
  dsimp only
  cases firstPoison got with
  | some tok => exact (unitStore v 3 q.pair dst _ _).trans ((noteErr _ _ 3 _).trans (bump _ _ 1))
  | none => exact ((unitStore v 3 q.pair dst _ _).trans (bump _ _ 1)).trans (ite _ (refl _) (bump _ _ 1))

theorem pressAccept (x : Nat) (T : Tbl) (key slot k : Nat) (vals : List Nat) (t : Option Nat) : Serves p (p.pressAccept x T key slot k vals t) := by
  unfold Part.pressAccept
  extract_lets p1 p2 p3
  have h1 : Serves p p1 := ofWorks (Works.store p 5 k _ _ t)
  have h2 : Serves p1 p2 := modPrs p1 x _
  have h3 : Serves p2 p3 := ite _ (bump p2 _ 1) (refl p2)
  exact ((h1.trans h2).trans h3).trans (bump p3 _ 1)

theorem scatterRows (x : Nat) (q : Ureq) (T : Tbl) (f : Fmt) (slot : Nat) (keys : List Nat) : Serves p (p.scatterRows x q T f slot keys).2 := by
  refine foldl _ (fun b p k => ?_) _ false p
  dsimp only
  have h1 := load p 3 q.pair (addrAt q.desc 16 + k.1 * gParam q.desc 0) (T.dim * f.bytes)
  generalize p.load 3 q.pair (addrAt q.desc 16 + k.1 * gParam q.desc 0) (T.dim * f.bytes) = l at h1 ⊢
  obtain ⟨⟨bs, t⟩, w⟩ := l
  cases t with
  | some t => exact h1.trans ((poisonNote w x t _ q).trans (pressAccept _ x T _ _ _ _ _))
  | none => exact h1.trans (pressAccept w x T _ _ _ _ _)

end Serves

end Sys2Proof.Machine
end

section
/-!
PROOF. Sampler, gather, scatter and lookup requests start (O27): the steps.
-/
namespace Sys2Proof.Machine

/-- The oldest request of a unit has started: it left its queue and runs (R189). -/
def Part.RunsOldest (p q : Part) (x unit : Nat) (k : Ureq) (rest : List Ureq) (f : RunReq → Prop) : Prop :=
  ∃ r, (q.unit x).queued unit = rest ∧ (q.unit x).running = (p.unit x).running ++ [r] ∧ { r.req with slot := k.slot } = k ∧
    q.cores = p.cores ∧ (k.poison.isSome = true → r.status = 3 ∧ q.mem = p.mem) ∧ (k.poison = none → f r)


@[simp] theorem Units.running_setQueued (u : Units) (unit : Nat) (l : List Ureq) : (u.setQueued unit l).running = u.running := by
  unfold Units.setQueued
  split <;> rfl

section
variable {p w : Part} {x unit : Nat} {k : Ureq} {rest : List Ureq} {f : RunReq → Prop} {r : RunReq}

/-- A request off its queue, with whatever its unit did on its behalf, joins the running ones. -/
theorem Part.runReq_started (hu : unit < 4) (hw : Serves (p.setUnit x ((p.unit x).setQueued unit rest)) w) (hr : { r.req with slot := k.slot } = k)
    (hp : k.poison.isSome = true → r.status = 3 ∧ w.mem = p.mem) (hf : k.poison = none → f r) :
    p.RunsOldest (w.runReq x r) x unit k rest f := by
  have hq := hw.queued x unit
  have hn := hw.running x
  rw [Part.unit_setUnit, if_pos rfl] at hq hn
  unfold Part.runReq
  refine ⟨r, ?_, ?_, hr, ?_, fun h => ⟨(hp h).1, ?_⟩, hf⟩
  · rw [Part.modUnit_eq, Part.unit_setUnit, if_pos rfl]
    exact hq.trans (Units.queued_setQueued _ hu _ _)
  · rw [Part.modUnit_eq, Part.unit_setUnit, if_pos rfl]
    exact congrArg (· ++ [r]) (hn.trans (Units.running_setQueued _ _ _))
  · rw [(Part.modUnit_frame w x _).2]
    exact hw.cores
  · rw [(Part.modUnit_frame w x _).1]
    exact (hp h).2

/-- A request whose descriptor is poison runs with status 3 (R300). -/
theorem Part.poisonReq_started (hu : unit < 4) (g : Nat) {t : Nat} (hk : k.poison = some t) :
    let l := (p.setUnit x ((p.unit x).setQueued unit rest)).poisonReq x g t 0 k
    p.RunsOldest (l.2.runReq x l.1) x unit k rest f := by
  refine Part.runReq_started hu (Serves.poisonReq _ x g t 0 k) rfl (fun _ => ⟨rfl, ?_⟩) fun h => absurd (hk.symm.trans h) (by simp)
  rw [(Part.poisonReq_frame _ _ _ _ _ _).1]
  rfl

/-- What a request that is not refused counts, once its unit has taken it (R189, R193). -/
theorem Part.takeReq_started {op n : Nat} {g : Part → Ureq → RunReq × Part} (hu : unit < 4) (hq : (p.unit x).queued unit = k :: rest)
    (hs : p.serves = true) (ha : (p.unit x).active unit < 32)
    (ho : unit = 3 ∨ (if op = 0 then leAt k.desc 0 1 != 1 else leAt k.desc 0 1 == 1) = true)
    (hg : ∀ w, Accepts w k n (g w k)) (hf : ∀ w, (g w k).1.status = 0 ∧ (g w k).1.done = n ∨ (g w k).1.status ≠ 0 → f (g w k).1) :
    p.RunsOldest (p.takeReq x unit op g) x unit k rest f := by
  unfold Part.takeReq
  dsimp only
  rw [hq]
  dsimp only
  have hb : (!p.serves || decide ((p.unit x).active unit ≥ 32) ||
      (unit != 3 && !(if op = 0 then leAt k.desc 0 1 != 1 else leAt k.desc 0 1 == 1))) = false := by
    rw [hs, decide_eq_false (Nat.not_le.2 ha)]
    rcases ho with h | h
    · rw [h]
      rfl
    · rw [h]
      simp
  rw [hb, if_neg Bool.false_ne_true]
  cases hk : k.poison with
  | some t => exact Part.poisonReq_started hu _ hk
  | none =>
    obtain ⟨h1, h2, h3⟩ := hg (p.setUnit x ((p.unit x).setQueued unit rest))
    refine Part.runReq_started hu h3 (by rw [h1]) (fun h => absurd h (by simp [hk])) fun _ => hf _ ?_
    by_cases h0 : (g (p.setUnit x ((p.unit x).setQueued unit rest)) k).1.status = 0
    · exact .inl ⟨h0, h2 h0⟩
    · exact .inr h0

end

/-- A lookup of an op that is none is refused (R237). -/
theorem Part.startLookup_unknown {k : Ureq} (p : Part) (x : Nat) (h : leAt k.desc 0 1 ≠ 0) : (p.startLookup x k).1.status = 2 := by
  unfold Part.startLookup
  dsimp only
  split
  · rfl
  · rw [if_pos]
    · rfl
    · simp [Part.lookupOk, h]

section
variable {s : State} {sector : BitVec 2} {k : Ureq} {rest : List Ureq}

theorem rowGatherStart_starts (hq : (s.p.unit sector.toNat).queued 1 = k :: rest) (ha : (s.p.unit sector.toNat).active 1 < 32)
    (hs : s.p.serves = true) (ho : leAt k.desc 0 1 ≠ 1)
    (hr : s.p.roomFor sector.toNat (s.p.tbl (gSpec k.desc % 256)) (gFlag k.desc 2) (addrAt k.desc 8) (gCount k.desc) = true) :
    ∃ q, Becomes (.rowGatherStart sector) s q ∧ s.p.RunsOldest q sector.toNat 1 k rest fun r =>
      (leAt k.desc 0 1 ≠ 0 → r.status = 2) ∧ (r.status = 0 → r.done = gCount k.desc) := by
  refine ⟨s.p.takeReq sector.toNat 1 0 _, ?_, Part.takeReq_started (n := gCount k.desc) (by decide) hq hs ha (.inr (by rw [if_pos rfl]; simpa using ho)) (g := fun p q =>
    if leAt q.desc 0 1 = 0 then p.startGather sector.toNat q else (refusedReq q, p.gseRefuse sector.toNat q 0)) (fun w => ?_) fun w h => ?_⟩
  · change execRowGatherStart sector s = _
    unfold execRowGatherStart State.run
    have hq' : (s.p.unit sector.toNat).gatQ = k :: rest := hq
    dsimp only
    rw [hq']
    dsimp only
    exact congrArg (fun p => (.next { s with p := p } : Answer)) (if_neg (by rw [hr]; exact Bool.false_ne_true))
  · exact Accepts.ite _ (Accepts.startGather _) (Accepts.refused (Serves.gseRefuse w _ k 0))
  · refine ⟨fun h0 => ?_, fun h0 => h.elim (·.2) fun h => absurd h0 h⟩
    rw [if_neg h0]
    rfl

theorem pooledLookupStart_starts (hq : (s.p.unit sector.toNat).queued 3 = k :: rest) (ha : (s.p.unit sector.toNat).active 3 < 32)
    (hs : s.p.serves = true)
    (hr : s.p.roomFor sector.toNat (s.p.tbl (leAt k.desc 2 2 % 256)) (bit (leAt k.desc 1 1) 4) (addrAt k.desc 16) (lCount k.desc) = true) :
    ∃ q, Becomes (.pooledLookupStart sector) s q ∧ s.p.RunsOldest q sector.toNat 3 k rest fun r =>
      (leAt k.desc 0 1 ≠ 0 → r.status = 2) ∧ (r.status = 0 → r.done = lCount k.desc) := by
  refine ⟨s.p.takeReq sector.toNat 3 0 _, ?_, Part.takeReq_started (n := lCount k.desc) (by decide) hq hs ha (.inl rfl)
    (g := fun p q => p.startLookup sector.toNat q) (fun w => Accepts.startLookup _) fun w h => ?_⟩
  · change execPooledLookupStart sector s = _
    unfold execPooledLookupStart State.run
    have hq' : (s.p.unit sector.toNat).lkpQ = k :: rest := hq
    dsimp only
    rw [hq']
    dsimp only
    exact congrArg (fun p => (.next { s with p := p } : Answer)) (if_neg (by rw [hr]; exact Bool.false_ne_true))
  · exact ⟨fun h0 => Part.startLookup_unknown w sector.toNat h0, fun h0 => h.elim (·.2) fun h => absurd h0 h⟩

theorem tileFetchStart_starts (hq : (s.p.unit sector.toNat).queued 1 = k :: rest) (ha : (s.p.unit sector.toNat).active 1 < 32)
    (hs : s.p.serves = true) (ho : leAt k.desc 0 1 = 1) :
    ∃ q, Becomes (.tileFetchStart sector) s q ∧ s.p.RunsOldest q sector.toNat 1 k rest fun r => r.status = 0 → r.done = gCount k.desc := by
  refine ⟨_, rfl, Part.takeReq_started (n := gCount k.desc) (by decide) hq hs ha (.inr ?_) (fun w => ?_) fun w h h0 => h.elim (·.2) fun h => absurd h0 h⟩
  · rw [if_neg (by decide)]
    simpa using ho
  · dsimp only
    refine Accepts.ite _ (Accepts.refused (Serves.gseRefuse w _ k 0)) ?_
    refine Accepts.ite _ (Accepts.refused ((Serves.denied w _).trans (Serves.gseRefuse _ _ k 0))) ?_
    refine Accepts.ite _ (Accepts.refused (Serves.gseRefuse w _ k 0)) ?_
    refine Accepts.ite _ (Accepts.refused ((Serves.reportDest w _ _ _ _).trans (Serves.gseRefuse _ _ k 1))) ?_
    exact Accepts.ran _ _ _ _ _ ((Serves.readTiles w _ _ _ _ _).trans (Serves.putTiles _ _ k _))

theorem tileStoreStart_starts (hq : (s.p.unit sector.toNat).queued 2 = k :: rest) (ha : (s.p.unit sector.toNat).active 2 < 32)
    (hs : s.p.serves = true) (ho : leAt k.desc 0 1 = 1) :
    ∃ q, Becomes (.tileStoreStart sector) s q ∧ s.p.RunsOldest q sector.toNat 2 k rest fun r => r.status = 0 → r.done = gCount k.desc := by
  refine ⟨_, rfl, Part.takeReq_started (n := gCount k.desc) (by decide) hq hs ha (.inr ?_) (fun w => ?_) fun w h h0 => h.elim (·.2) fun h => absurd h0 h⟩
  · rw [if_neg (by decide)]
    simpa using ho
  · dsimp only
    split
    · exact Accepts.refused (Serves.gseRefuse w _ k 0)
    · refine Accepts.ite _ (Accepts.refused ((Serves.reportSrc w _ _ _).trans (Serves.gseRefuse _ _ k 0))) ?_
      refine Accepts.ite _ (Accepts.refused ((Serves.reportDest w _ _ _ _).trans (Serves.gseRefuse _ _ k 1))) ?_
      exact Accepts.ran _ _ _ _ _ (Serves.foldl _ (fun _ p t => Serves.storeTile p _ k _ _ _ t) _ _ w)

end

end Sys2Proof.Machine
end

section
/-!
PROOF. Sampler, gather, scatter and lookup requests start (O27): row scatters and the sampler.
-/
namespace Sys2Proof.Machine

section
variable {s : State} {sector : BitVec 2} {k : Ureq} {rest : List Ureq}

theorem rowScatterStart_starts (hq : (s.p.unit sector.toNat).queued 2 = k :: rest) (ha : (s.p.unit sector.toNat).active 2 < 32)
    (hs : s.p.serves = true) (ho : leAt k.desc 0 1 ≠ 1) :
    ∃ q, Becomes (.rowScatterStart sector) s q ∧ s.p.RunsOldest q sector.toNat 2 k rest fun r =>
      (leAt k.desc 0 1 ≠ 0 → r.status = 2) ∧ (r.status = 0 → r.done = gCount k.desc) := by
  refine ⟨_, rfl, Part.takeReq_started (n := gCount k.desc) (by decide) hq hs ha (.inr (by rw [if_pos rfl]; simpa using ho)) (fun w => ?_) fun w h => ?_⟩
  · dsimp -zeta only
    extract_lets d T bits v
    refine Accepts.ite _ (Accepts.refused (Serves.gseRefuse w _ k 0)) ?_
    have h1 : Serves w v := Serves.each bits (fun i p => Serves.noteErr p _ i _) w
    refine Accepts.trans h1 ?_
    clear_value v
    have h2 := Serves.tableCheck v sector.toNat k
    generalize v.tableCheck sector.toNat k = l at h2 ⊢
    obtain ⟨okT, u⟩ := l
    refine Accepts.trans h2 ?_
    dsimp only at h2 ⊢
    split
    · refine Accepts.ite _ (Accepts.refused (Serves.refl u)) ?_
      have h3 := Serves.loadList u 3 k.pair (addrAt d 8) (gCount d)
      generalize u.loadList 3 k.pair (addrAt d 8) (gCount d) = l at h3 ⊢
      obtain ⟨⟨keys, t⟩, m⟩ := l
      refine Accepts.trans h3 ?_
      cases t with
      | some t => exact Accepts.poisoned _ _ _ _
      | none => exact Accepts.ran _ _ _ _ _ ((Serves.scatterRows m _ k _ _ _ _).trans (Serves.bump _ _ _))
    · exact Accepts.refused (Serves.refl u)
    · exact Accepts.refused (((Serves.reportSrc u _ _ _).trans (Serves.reportSrc _ _ _ _)).trans (Serves.gseRefuse _ _ k 0))
  · refine ⟨fun h0 => ?_, fun h0 => h.elim (·.2) fun h => absurd h0 h⟩
    dsimp only
    rw [if_pos h0]
    rfl

end

section
variable (p : Part) (y : Nat) (u : Units)

theorem Part.covered_setUnit (fuel a top i : Nat) : Part.covered fuel (p.setUnit y u) a top i = Part.covered fuel p a top i := by
  induction fuel generalizing a with
  | zero => rfl
  | succ fuel ih =>
    unfold Part.covered
    simp only [ih]
    rfl

/-- The rules of the sampler read registers alone (R198). -/
theorem Part.sampleRefusal_setUnit (x : Nat) (d : List Byte) : (p.setUnit y u).sampleRefusal x d = p.sampleRefusal x d := by
  unfold Part.sampleRefusal
  simp only [Part.covered_setUnit]
  rfl

end

section
variable (p : Part) (x : Nat) (k : Ureq)

theorem Serves.selectEdges (k : Nat) (g : Graph) (m f d first tmax : Nat) (draw : Nat → Nat) :
    Serves p (p.selectEdges k g m f d first tmax draw).2 := by
  unfold Part.selectEdges
  split
  · exact Serves.refl p
  · exact Serves.loadList p 2 k _ _
  · exact Serves.loadList p 2 k _ _
  · exact Serves.refl p

theorem Serves.sampleVertex (k : Nat) (g : Graph) (m f tmax : Nat) (draw : Nat → Nat) (v : Nat) :
    Serves p (p.sampleVertex k g m f tmax draw v).2 := by
  unfold Part.sampleVertex
  split
  · exact Serves.refl p
  · have h1 := Serves.load p 2 k (g.vidx + 8 * v) 16
    generalize p.load 2 k (g.vidx + 8 * v) 16 = l at h1 ⊢
    obtain ⟨⟨bs, t0⟩, w⟩ := l
    refine h1.trans ?_
    cases t0 with
    | some t => exact Serves.refl w
    | none =>
      dsimp only
      split
      · exact Serves.refl w
      · have h2 := Serves.selectEdges w k g m f (leAt bs 8 5 - leAt bs 0 5) (leAt bs 0 5) tmax draw
        generalize w.selectEdges k g m f (leAt bs 8 5 - leAt bs 0 5) (leAt bs 0 5) tmax draw = l at h2 ⊢
        obtain ⟨⟨pos, trunc, inelig, t1⟩, u⟩ := l
        refine h2.trans ?_
        dsimp only
        split
        · exact Serves.refl u
        · exact Serves.foldl _ (fun _ p i => Serves.ofReads (Reads.loadN p 2 k _ 4)) pos [] u

theorem Serves.sampleHop (k : Nat) (g : Graph) (m f tmax : Nat) (draw : Nat → Nat → Nat) (front : List Nat) :
    Serves p (p.sampleHop k g m f tmax draw front).2 := by
  induction front generalizing p with
  | nil => exact Serves.refl p
  | cons v r ih =>
    unfold Part.sampleHop
    have h1 := Serves.sampleVertex p k g m f tmax (draw v) v
    generalize p.sampleVertex k g m f tmax (draw v) v = l at h1 ⊢
    obtain ⟨y, w⟩ := l
    refine h1.trans ?_
    dsimp only
    split
    · exact Serves.refl w
    · exact ih w

theorem Serves.countHop (xs : List VertexSample) : Serves p (p.countHop x xs) :=
  ((Serves.bump p _ _).trans (Serves.bump _ _ _)).trans (Serves.bump _ _ _)

theorem Serves.keepSet (front : List Nat) : Serves p (p.keepSet x k front) := Serves.unitStore p 2 k.pair _ _ none

/-- A hop leaves what any work on memory leaves, and stops a request for space or for poison alone (R200, R207). -/
theorem sampleStep_works (g : Graph) (r : SampleRun) (h : Nat) :
    Serves r.part (sampleStep x k g r h).part ∧ (r.status ≠ 2 → (sampleStep x k g r h).status ≠ 2) := by
  unfold sampleStep
  split
  · exact ⟨Serves.refl _, id⟩
  · have h1 := Serves.sampleHop r.part k.pair g (fld (leAt k.desc 3 1) (2 * (h - 1)) 2) (leAt k.desc (4 + 2 * (h - 1)) 2) (leAt k.desc 56 4)
      (fun v i => sampleDraw r.part.seed r.part.frameNo (leAt k.desc 48 8) v h i) r.front
    extract_lets d p0 mode f draw
    generalize p0.sampleHop k.pair g mode f (leAt d 56 4) draw r.front = l at h1 ⊢
    obtain ⟨xs, w⟩ := l
    dsimp -zeta only at h1 ⊢
    extract_lets p1 bad p2 p3 r1 nbrs new front p4 r2 block p5 p6 p7
    have h2 : Serves r.part p1 := h1.trans (Serves.countHop w x xs)
    have h3 : Serves p1 p2 := Serves.ite _ (Serves.refl p1) ((Serves.bump p1 _ bad).trans (Serves.stick _ _ 2))
    have h4 : Serves p2 p3 := Serves.ite _ (Serves.refl p2) (Serves.err p2 _)
    have h5 : Serves r.part p3 := (h2.trans h3).trans h4
    have h6 : Serves p3 p4 := (Serves.bump p3 _ _).trans (Serves.keepSet _ x k front)
    have h7 : Serves p4 p7 := ((Serves.unitStore p4 2 k.pair _ _ none).trans (Serves.unitStore p5 2 k.pair _ _ none)).trans (Serves.bump p6 _ _)
    split
    · exact ⟨h5, fun _ => by simp⟩
    · split
      · exact ⟨h5.trans h6, fun _ => by simp⟩
      · exact ⟨(h5.trans h6).trans h7, id⟩

theorem sampleHops_works (g : Graph) (hs : List Nat) (r : SampleRun) :
    Serves r.part (hs.foldl (fun r h => sampleStep x k g r (h + 1)) r).part ∧
      (r.status ≠ 2 → (hs.foldl (fun r h => sampleStep x k g r (h + 1)) r).status ≠ 2) := by
  induction hs generalizing r with
  | nil => exact ⟨Serves.refl _, id⟩
  | cons h hs ih =>
    obtain ⟨h1, h2⟩ := sampleStep_works x k g r (h + 1)
    obtain ⟨h3, h4⟩ := ih (sampleStep x k g r (h + 1))
    exact ⟨h1.trans h3, fun h => h4 (h2 h)⟩

theorem Part.runSample_runs : (p.runSample x k).1.req = { k with slot := some (p.unit x).freePlace } ∧ (p.runSample x k).1.status ≠ 2 ∧
    Serves p (p.runSample x k).2 := by
  unfold Part.runSample
  have h1 := Serves.loadList p 2 k.pair (addrAt k.desc 16) (leAt k.desc 12 4)
  extract_lets d g q
  generalize p.loadList 2 q.pair (addrAt d 16) (leAt d 12 4) = l at h1 ⊢
  obtain ⟨⟨seeds, t⟩, w⟩ := l
  dsimp -zeta only at h1 ⊢
  cases t with
  | some t => exact ⟨rfl, by simp [Part.poisonReq], h1.trans (Serves.poisonReq w x 2 t _ q)⟩
  | none =>
    dsimp -zeta only
    extract_lets f0 p1 p2 r p3 p4
    have h2 : Serves w p1 := (Serves.bump w _ _).trans (Serves.keepSet _ x q f0)
    split
    · exact ⟨rfl, by simp, (h1.trans h2).trans (Serves.bump p1 _ 1)⟩
    · obtain ⟨h3, h4⟩ := sampleHops_works x q g (List.range (leAt d 2 1)) ⟨p2, 0, false, f0, 64, [], none, false⟩
      have h5 : Serves p1 p2 := Serves.unitStore p1 2 q.pair _ _ none
      have h6 : Serves r.part p3 := by
        unfold p3
        split
        · exact (Serves.consume _ x 2 q.core q.pair _).trans (Serves.poisonNote _ x _ _ q)
        · exact Serves.refl _
      have h7 : Serves p3 p4 := Serves.ite _ (Serves.bump p3 _ 1) (Serves.refl p3)
      exact ⟨rfl, h4 (by simp), (((h1.trans h2).trans h5).trans h3).trans (h6.trans h7)⟩

theorem Part.refuseSample_refuses (bits : List Nat) : (p.refuseSample x k bits).1.req = k ∧ (p.refuseSample x k bits).1.status = 2 ∧
    Serves p (p.refuseSample x k bits).2 := by
  refine ⟨rfl, rfl, ?_⟩
  unfold Part.refuseSample
  extract_lets d p1 p2 p3 p4 p5
  have h1 : Serves p p1 := Serves.reportDest p x _ _ _
  have h2 : Serves p1 p2 := (Serves.reportDest p1 x _ _ _).trans (Serves.reportSrc _ x _ _)
  have h3 : Serves p2 p3 := Serves.ite _ (Serves.refl p2) (Serves.denied p2 x)
  have h4 : Serves p3 p4 := Serves.each bits (fun i p => Serves.stick p _ i) p3
  exact (((h1.trans h2).trans h3).trans h4).trans (Serves.err p4 _)

end

section
variable {s : State} {sector : BitVec 2} {k : Ureq} {rest : List Ureq}

/-- The sampler takes its oldest request (R189). -/
theorem sampleRequestStart_takes (hq : (s.p.unit sector.toNat).queued 0 = k :: rest) (ha : (s.p.unit sector.toNat).active 0 < 8)
    (hs : s.p.serves = true) {w : Part} (hw : w = s.p.setUnit sector.toNat ((s.p.unit sector.toNat).setQueued 0 rest)) {l : RunReq × Part}
    (hl : l = match k.poison with
      | some t => w.poisonReq sector.toNat 2 t 0 k
      | none => if (w.sampleRefusal sector.toNat k.desc).isEmpty then w.runSample sector.toNat k
        else w.refuseSample sector.toNat k (w.sampleRefusal sector.toNat k.desc)) :
    Becomes (.sampleRequestStart sector) s (l.2.runReq sector.toNat l.1) := by
  change execSampleRequestStart sector s = _
  unfold execSampleRequestStart State.run
  have hq' : (s.p.unit sector.toNat).smpQ = k :: rest := hq
  dsimp only
  rw [hq']
  dsimp only
  have hb : (!s.p.serves || decide ((s.p.unit sector.toNat).active 0 ≥ 8)) = false := by
    rw [hs, decide_eq_false (Nat.not_le.2 ha)]
    rfl
  have hw' : (s.p.modUnit sector.toNat fun u => { u with smpQ := rest }) = w := hw.symm
  rw [hb, if_neg Bool.false_ne_true, hw']
  rw [hl]
  cases k.poison with
  | some t => rfl
  | none => rfl

theorem sampleRequestStart_starts (hq : (s.p.unit sector.toNat).queued 0 = k :: rest) (ha : (s.p.unit sector.toNat).active 0 < 8)
    (hs : s.p.serves = true) :
    ∃ q, Becomes (.sampleRequestStart sector) s q ∧ s.p.RunsOldest q sector.toNat 0 k rest fun r =>
      r.status = 2 ↔ s.p.sampleRefusal sector.toNat k.desc ≠ [] := by
  obtain ⟨w, hw⟩ : ∃ w, w = s.p.setUnit sector.toNat ((s.p.unit sector.toNat).setQueued 0 rest) := ⟨_, rfl⟩
  refine ⟨_, sampleRequestStart_takes hq ha hs hw rfl, ?_⟩
  cases hk : k.poison with
  | some t =>
    rw [hw]
    exact Part.poisonReq_started (by decide) 2 hk
  | none =>
    have hr : w.sampleRefusal sector.toNat k.desc = s.p.sampleRefusal sector.toNat k.desc := by
      rw [hw]
      exact Part.sampleRefusal_setUnit s.p _ _ _ _
    dsimp only
    rw [hr]
    have hn : ∀ {P : Prop}, k.poison.isSome = true → P := fun h => absurd h (by simp [hk])
    by_cases he : s.p.sampleRefusal sector.toNat k.desc = []
    · rw [if_pos (by rw [he]; rfl)]
      obtain ⟨h1, h2, h3⟩ := Part.runSample_runs w sector.toNat k
      exact Part.runReq_started (by decide) (hw ▸ h3) (by rw [h1]) hn fun _ => ⟨fun h => absurd h h2, fun h => absurd he h⟩
    · rw [if_neg (by simpa using he)]
      obtain ⟨h1, h2, h3⟩ := Part.refuseSample_refuses w sector.toNat k (s.p.sampleRefusal sector.toNat k.desc)
      exact Part.runReq_started (by decide) (hw ▸ h3) (by rw [h1]) hn fun _ => ⟨fun _ => he, fun _ => h2⟩

end

/-- Settles O27: a unit takes its oldest request while it has room, and what it makes of it leaves the queues and the running requests. -/
theorem requestStarts : Obligations.RequestStarts := by
  unfold Obligations.RequestStarts
  intro s sector k rest p x op starts hs
  have conclude : ∀ {c : Instr} {unit room : Nat} {f : RunReq → Prop},
      ((p.unit x).queued unit = k :: rest → (p.unit x).active unit < room → ∃ q, Becomes c s q ∧ p.RunsOldest q x unit k rest f) →
      starts c unit room f := fun h hq ha => by
    obtain ⟨q, hb, r, hr⟩ := h hq ha
    exact ⟨q, r, hb, hr⟩
  exact ⟨conclude fun hq ha => sampleRequestStart_starts hq ha hs,
    fun ho hr => conclude fun hq ha => rowGatherStart_starts hq ha hs ho hr,
    fun ho => conclude fun hq ha => tileFetchStart_starts hq ha hs ho,
    fun ho => conclude fun hq ha => tileStoreStart_starts hq ha hs ho,
    fun ho => conclude fun hq ha => rowScatterStart_starts hq ha hs ho,
    fun hr => conclude fun hq ha => pooledLookupStart_starts hq ha hs hr⟩

end Sys2Proof.Machine
end

section
/-!
PROOF. Rows arrive, requests complete, the row cache and levelling (O28): the cache's counts, the level pass and completions.
-/
namespace Sys2Proof.Machine

theorem spGet_map {α : Type} (d : α) (m : Sparse α) (f : α → α) (h : f d = d) (i : Nat) :
    spGet d (m.map fun e => (e.1, f e.2)) i = f (spGet d m i) := by
  induction m with
  | nil => exact h.symm
  | cons e m ih =>
    simp only [List.map_cons, spGet]
    split
    · rfl
    · exact ih

section
variable {s : State} {sector : BitVec 2}

theorem rcHalve_halves (h : 2 ^ s.p.getF (TBL_RC_CFG sector.toNat) 0 5 ≤ (s.p.unit sector.toNat).rcLookups) :
    ∃ q, Becomes (.rcHalve sector) s q ∧ q = { s.p with units := q.units } ∧ (∀ y, y ≠ sector.toNat → q.unit y = s.p.unit y) ∧
      (q.unit sector.toNat).rcLookups = (s.p.unit sector.toNat).rcLookups - 2 ^ s.p.getF (TBL_RC_CFG sector.toNat) 0 5 ∧
      ∀ i, spGet .empty (q.unit sector.toNat).rc i =
        { spGet .empty (s.p.unit sector.toNat).rc i with freq := (spGet .empty (s.p.unit sector.toNat).rc i).freq / 2 } := by
  refine ⟨s.p.setUnit sector.toNat _, congrArg (fun p => (.next { s with p := p } : Answer)) (if_neg (Nat.not_lt.2 h)), rfl, fun y hy => ?_, ?_, fun i => ?_⟩
  · rw [Part.unit_setUnit, if_neg hy.symm]
  · rw [Part.unit_setUnit, if_pos rfl]
  · rw [Part.unit_setUnit, if_pos rfl]
    exact spGet_map .empty _ (fun e : RcEntry => { e with freq := e.freq / 2 }) rfl i

end

/-- What levelling leaves: the cores, what the fabric delivered and what goes to the twin (R249, R375). -/
structure Levels (p q : Part) : Prop where
  cores : q.cores = p.cores
  rx : q.fab.rx = p.fab.rx
  out : q.twin.out = p.twin.out

namespace Levels

theorem refl (p : Part) : Levels p p := ⟨rfl, rfl, rfl⟩

theorem trans {p q r : Part} (h : Levels p q) (h' : Levels q r) : Levels p r := ⟨h'.cores.trans h.cores, h'.rx.trans h.rx, h'.out.trans h.out⟩

theorem ofReads {p q : Part} (h : Reads p q) : Levels p q := ⟨h.cores, by rw [h.fab], by rw [h.twin]⟩

theorem each {α : Type} {f : Part → α → Part} (l : List α) (h : ∀ x p, Levels p (f p x)) (p : Part) : Levels p (p.each l f) := by
  induction l generalizing p with
  | nil => exact refl p
  | cons x l ih =>
    rw [Part.each_cons]
    exact (h x p).trans (ih _)

section
variable (p : Part)

theorem quiet {f : Part → Part} (h : Works p (f p)) : Levels p (p.quiet f) := ⟨(Works.quiet p h).cores, (Works.quiet p h).rx, rfl⟩

theorem bitmapPut (k : Nat) (T : Tbl) (b i : Nat) (v : Bool) : Levels p (p.bitmapPut k T b i v) := by
  unfold Part.bitmapPut
  dsimp only
  exact (ofReads (Reads.loadN p 4 k _ 1)).trans (quiet _ (Works.store _ 4 k _ _ none))

theorem bitPlaces (T : Tbl) (i : Nat) : Reads p (p.bitPlaces T i).2 := by
  unfold Part.bitPlaces
  dsimp only
  split
  · have h := Reads.tierRow p 4 0 T i
    generalize p.tierRow 4 0 T i = l at h ⊢
    obtain ⟨⟨tier, t⟩, w⟩ := l
    dsimp only at h ⊢
    split
    · exact h
    · exact h
    · exact h
    · exact h
  · split
    · exact Reads.refl p
    · exact Reads.refl p

theorem levelRow (x : Nat) (T : Tbl) (i : Nat) : Levels p (p.levelRow x T i) := by
  unfold Part.levelRow
  have h1 := bitPlaces p T i
  generalize p.bitPlaces T i = l at h1 ⊢
  obtain ⟨pl, w⟩ := l
  cases pl with
  | none => exact ofReads h1
  | some places =>
    refine (ofReads h1).trans ?_
    dsimp -zeta only
    extract_lets p1 p2
    have h2 : Levels w p1 := each places (fun y p => by
      have h := Reads.load p 4 0 (T.at (T.base (p.curCopy T) + y.1)) y.2
      generalize p.load 4 0 (T.at (T.base (p.curCopy T) + y.1)) y.2 = l at h ⊢
      exact (ofReads h).trans (quiet _ (Works.store _ 4 0 _ _ _))) w
    have h3 : Levels p1 p2 := bitmapPut p1 0 T _ i false
    split
    · exact h2.trans h3
    · exact (h2.trans h3).trans (ofReads (Reads.bump p2 _ 1))

end

end Levels

section
variable {s : State} {sector : BitVec 2}

/-- With nothing pending no sector has a bit to level (R250). -/
theorem Part.pendingBits_levelled {p : Part} (h : p.levelled = true) {T : Tbl} (hT : T ∈ p.versionedTables) (x : Nat) : p.pendingBits x T = [] := by
  have h0 : p.setBits T (1 - p.roleD T.t) = [] := List.isEmpty_iff.1 (List.all_eq_true.1 h T hT)
  unfold Part.pendingBits
  rw [h0]
  split
  · rfl
  · rfl

theorem levelPass_levels (hr : s.p.levelRuns sector.toNat = true) :
    ∃ q, Becomes (.levelPass sector) s q ∧ q.cores = s.p.cores ∧ q.fab.rx = s.p.fab.rx ∧ q.twin.out = s.p.twin.out ∧
      (s.p.levelled = true → s.p.versionedTables.flatMap s.p.brokenLines = [] → q = s.p) := by
  refine ⟨_, congrArg (fun p => (.next { s with p := p } : Answer)) (if_neg (by rw [hr]; exact Bool.false_ne_true)), ?_⟩
  cases hb : (s.p.versionedTables.flatMap s.p.brokenLines).head? with
  | some a =>
    have h := Reads.ofLoads (Loads.readLine s.p 1 4 0 a)
    exact ⟨h.cores, by rw [h.fab], by rw [h.twin], fun _ he => by simp [he] at hb⟩
  | none =>
    dsimp only
    split
    · rename_i T i hf
      have h := Levels.levelRow s.p sector.toNat T i
      refine ⟨h.cores, h.rx, h.out, fun hl _ => ?_⟩
      obtain ⟨T', hT, hi⟩ := List.exists_of_findSome?_eq_some hf
      rw [Part.pendingBits_levelled hl hT] at hi
      simp at hi
    · exact ⟨rfl, rfl, rfl, fun _ _ => rfl⟩

end

end Sys2Proof.Machine
end

section
/-!
PROOF. Rows arrive, requests complete, the row cache and levelling (O28): completions and rows that arrive.
-/
namespace Sys2Proof.Machine

section
variable {p q : Part}

/-- Above HBM a write's bytes are decided by memory's content alone. -/
theorem Part.store_above (h : q.mem = p.mem) (g k : Nat) {a : Nat} (ha : isHbm a = false) (bs : List Byte) (t : Option Nat) :
    (q.store g k a bs t).mem = (p.store g k a bs t).mem := by
  have hw : ∀ (q p : Part) b bs t, q.mem = p.mem → (q.writeGran b bs t).mem = (p.writeGran b bs t).mem := fun q p b bs t h => by
    unfold Part.writeGran Part.granPoison
    rw [h]
    split
    · exact h
    · cases t <;> simp
  unfold Part.store
  generalize bs.length / 32 + 2 = fuel
  induction fuel generalizing p q a bs with
  | zero => exact h
  | succ fuel ih =>
    unfold Part.storeLoop
    split
    · exact h
    · dsimp only
      rw [ha, if_neg Bool.false_ne_true, if_neg Bool.false_ne_true, if_neg Bool.false_ne_true]
      exact ih (hw q p _ _ _ h) (by simp [isHbm] at ha ⊢; omega) _

theorem Part.unitStore_above (h : q.mem = p.mem) (g k : Nat) {a : Nat} (ha : isHbm a = false) (bs : List Byte) (t : Option Nat) :
    (q.unitStore g k a bs t).mem = (p.store g k a bs t).mem := Part.store_above ((q.toSpad_frame a).1.trans h) g k ha bs t

end

section
variable (p : Part) (x : Nat) (r : RunReq)

theorem Works.poolOut (b lo hi : Nat) : Works p (p.poolOut x r b lo hi) := by
  unfold Part.poolOut
  extract_lets d T keep drop wAt keys used poison out mode p1
  have h1 : Works p p1 := Works.ite _ (Works.bump p _ 1) (Works.refl p)
  clear_value p1 poison used keys keep
  generalize poolBag keep drop T.dim keys = l
  obtain ⟨acc, e⟩ := l
  dsimp -zeta only
  generalize (if out = .b32 then (acc, Events.none) else _) = m
  obtain ⟨vals, e2⟩ := m
  dsimp -zeta only
  extract_lets p2
  have h2 : Works p1 p2 := Works.unitStore p1 4 _ _ _ _
  refine (h1.trans h2).trans ?_
  cases poison with
  | some t => exact Works.consume p2 x 4 _ _ t
  | none => exact (Works.events p2 _ _).trans (Works.bump _ _ _)

theorem Works.poolAll : Works p (p.poolAll x r) := Works.ite _ (Works.refl p) (Works.each _ (fun b p => Works.poolOut p x r b _ _) p)

/-- What the completion of a request writes: its record and its results (R191, R193, R205, R238). -/
theorem Works.finishReq : Works p (p.finishReq x r).2 := by
  unfold Part.finishReq
  extract_lets d pair known p1 p2 a p3 p4 p5 p6 p7
  have h1 : Works p p1 := Works.ite _ (Works.refl p) (Works.unitStore p 2 pair _ _ none)
  have h2 : Works p p2 := Works.poolAll p x r
  have h3 : Works p2 p3 := Works.ite _ (Works.unitStore p2 4 pair a _ none) (Works.refl p2)
  have h4 : Works p3 p4 := (Works.bump p3 _ 1).trans (Works.bump _ _ _)
  have h5 : Works p p5 := Works.ite _ (Works.unitStore p 3 pair _ _ none) (Works.refl p)
  have h6 : Works p5 p7 := (Works.bump p5 _ 1).trans (Works.ite _ (Works.bump p6 _ _) (Works.refl p6))
  split
  · exact h1.trans (Works.bump p1 _ 1)
  · exact (h2.trans h3).trans h4
  · exact h5.trans h6

theorem Part.finishReq_mem (hu : r.req.unit = 1 ∨ r.req.unit = 2) (hp : r.req.poison = none) (h0 : gFlag r.req.desc 0 = true)
    (hr : p.recordOk x r.req.desc = true) (ha : isHbm (addrAt r.req.desc 40) = false) :
    (p.finishReq x r).2.mem = (p.store 3 r.req.pair (addrAt r.req.desc 40) (recordBytes r) none).mem := by
  unfold Part.finishReq
  split
  · rename_i h
    rcases hu with e | e <;> simp [e] at h
  · rename_i h
    rcases hu with e | e <;> simp [e] at h
  · dsimp only
    rw [hp, h0, hr, if_pos (show (Option.isNone none && true && true) = true from rfl), ← Part.unitStore_above rfl 3 r.req.pair ha (recordBytes r) none]
    split
    · simp only [Part.bump_keeps]
    · simp only [Part.bump_keeps]

/-- The signals of a request that completes (R191). -/
theorem Part.reqSignals_signals (k : Ureq) (n : Option Nat) : (p.reqSignals x k n).units = p.units ∧
    ∀ ev, k.ev = some ev → (k.core, ev) ∈ (p.reqSignals x k n).tick.signals := by
  unfold Part.reqSignals
  extract_lets w
  have h1 : w.units = p.units := by
    unfold w
    split
    · rfl
    · rfl
  have h2 : ∀ ev, k.ev = some ev → (k.core, ev) ∈ w.tick.signals := fun ev he => by
    unfold w
    rw [he]
    exact List.mem_append_right _ (List.mem_singleton.2 rfl)
  split
  · split
    · exact ⟨h1, fun ev he => List.mem_append_left _ (h2 ev he)⟩
    · exact ⟨h1, h2⟩
  · exact ⟨h1, h2⟩

end

section
variable {s : State} {sector : BitVec 2} {req : Nat} {r : RunReq}

theorem unitRequestComplete_completes (hf : (s.p.unit sector.toNat).running.find? (fun r => r.req.id == req) = some r) (hw : s.p.working = true)
    (ha : r.fetches.all (·.arrived) = true) :
    ∃ q, Becomes (.unitRequestComplete sector req) s q ∧ q.cores = s.p.cores ∧
      (q.unit sector.toNat).running = ((s.p.unit sector.toNat).running.filter fun y => y.req.id != req) ∧
      (∀ ev, r.req.ev = some ev → (r.req.core, ev) ∈ q.tick.signals) ∧
      (r.req.unit = 1 ∨ r.req.unit = 2 → r.req.poison = none → gFlag r.req.desc 0 = true → s.p.recordOk sector.toNat r.req.desc = true →
        isHbm (addrAt r.req.desc 40) = false →
        q.mem = (s.p.store 3 r.req.pair (addrAt r.req.desc 40) (recordBytes r) none).mem) := by
  obtain ⟨w, hw'⟩ : ∃ w, w = s.p.modUnit sector.toNat fun u => { u with running := u.running.filter fun q => q.req.id != req } := ⟨_, rfl⟩
  refine ⟨(w.finishReq sector.toNat r).2.reqSignals sector.toNat r.req (if r.req.poison.isSome then none else (w.finishReq sector.toNat r).1), ?_, ?_⟩
  · have hb : (!s.p.working || r.fetches.any fun f => !f.arrived) = false := by
      rw [hw]
      simpa using ha
    change execUnitRequestComplete sector req s = _
    unfold execUnitRequestComplete State.run
    dsimp only
    rw [hf]
    dsimp only
    rw [hb, if_neg Bool.false_ne_true, ← hw']
  · have h1 := Works.finishReq w sector.toNat r
    have hm := Part.finishReq_mem w sector.toNat r
    generalize w.finishReq sector.toNat r = l at h1 hm ⊢
    obtain ⟨notify, v⟩ := l
    dsimp only at h1 hm ⊢
    obtain ⟨h2, h3⟩ := Part.reqSignals_signals v sector.toNat r.req (if r.req.poison.isSome then none else notify)
    refine ⟨?_, ?_, h3, fun hu hp h0 hr ha => ?_⟩
    · rw [(Part.reqSignals_frame v _ _ _).2, h1.cores, hw']
      rfl
    · have hu : ∀ q : Part, q.units = v.units → q.unit sector.toNat = v.unit sector.toNat := fun q h => by
        unfold Part.unit
        rw [h]
      rw [hu _ h2, h1.unit, hw', Part.modUnit_eq, Part.unit_setUnit, if_pos rfl]
    · rw [(Part.reqSignals_frame v _ _ _).1, hm hu hp h0 (by
        rw [hw']
        exact hr) ha]
      exact Part.store_above (by
        rw [hw']
        rfl) 3 _ ha _ none

end

end Sys2Proof.Machine
end

section
/-!
PROOF. Rows arrive, requests complete, the row cache and levelling (O28): a row that is here.
-/
namespace Sys2Proof.Machine

section
variable {p : Part} {x req i : Nat} {r : RunReq} {f : RowFetch} {bs : List Byte}

/-- A fetch of a running request takes its row: the part with that fetch marked (R212). -/
def Part.rowTaken (p : Part) (x req i : Nat) (f : RowFetch) : Part :=
  p.modUnit x fun u => { u with running := u.running.map fun y =>
    if y.req.id = req then { y with fetches := y.fetches.set i { f with arrived := true } } else y }

/-- A row of the part's own that is here, clean, goes to the fetch that waits for it (R212). -/
theorem Part.arriveRow_here (h1 : f.row = some bs) (h2 : f.poison = none) (h3 : f.kind = 0) (h4 : f.remote = false) :
    p.arriveRow x r i f =
      if r.req.unit == 3 then p.rowTaken x r.req.id i f else (p.rowTaken x r.req.id i f).putRows x r (p.tbl f.table) f ⟨bs, none, [], false, .none⟩ := by
  obtain ⟨table, owner, key, outs, remote, ref, pos, kind, arrived, row, poison⟩ := f
  dsimp only at h1 h2 h3 h4
  subst h1 h2 h3 h4
  rfl

/-- A row of a gather that is here is written to the outputs that take it (R212). -/
theorem Works.putRows (p : Part) (x : Nat) (r : RunReq) (T : Tbl) (f : RowFetch) (row : RowRead) : Works p (p.putRows x r T f row) := by
  unfold Part.putRows
  dsimp only
  exact (Works.each f.outs (fun i p => Works.unitStore p 3 _ _ _ _) p).trans (Works.bump _ _ _)

end

section
variable {s : State} {sector : BitVec 2} {req fetch : Nat} {r : RunReq} {f : RowFetch} {bs : List Byte}

theorem rowArrive_takes (hs : s.p.serves = true) (ha : (s.p.rowReplies f).all (fun k => !k.payload.isEmpty) = true) (h0 : req ≠ 0)
    (hr : (s.p.unit sector.toNat).running.find? (fun r => r.req.id == req) = some r) (hf : r.fetches[fetch]? = some f) (hn : f.arrived = false) :
    Becomes (.rowArrive sector req fetch) s (s.p.arriveRow sector.toNat r fetch f) := by
  change execRowArrive sector req fetch s = _
  unfold execRowArrive State.run
  dsimp only
  have hn' : (s.p.rowReplies f).find? (fun q => q.payload.isEmpty) = none := by
    rw [List.find?_eq_none]
    intro k hk
    simpa using List.all_eq_true.1 ha k hk
  rw [hs, if_neg (show ¬(!true) = true by decide), if_neg h0, hr]
  dsimp only
  rw [hf]
  dsimp only
  rw [hn, if_neg Bool.false_ne_true, Part.takeRefusal, hn']

theorem rowArrive_gives (hs : s.p.serves = true) (ha : (s.p.rowReplies f).all (fun k => !k.payload.isEmpty) = true) (h0 : req ≠ 0)
    (hr : (s.p.unit sector.toNat).running.find? (fun r => r.req.id == req) = some r) (hf : r.fetches[fetch]? = some f) (hn : f.arrived = false)
    (h1 : f.row = some bs) (h2 : f.poison = none) (h3 : f.kind = 0) (h4 : f.remote = false) :
    ∃ q, Becomes (.rowArrive sector req fetch) s q ∧ q.cores = s.p.cores ∧
      (q.unit sector.toNat).running = ((s.p.unit sector.toNat).running.map fun y =>
        if y.req.id = req then { y with fetches := y.fetches.set fetch { f with arrived := true } } else y) ∧
      (r.req.unit = 3 → q.mem = s.p.mem) ∧
      (∀ i, r.req.unit = 1 → f.outs = [i] → isHbm (addrAt r.req.desc 16 + i * gParam r.req.desc 0) = false →
        q.mem = (s.p.store 3 r.req.pair (addrAt r.req.desc 16 + i * gParam r.req.desc 0)
          ((bs.drop (gatherCols (s.p.tbl f.table) r.req.desc).1).take (gatherCols (s.p.tbl f.table) r.req.desc).2) none).mem) := by
  have hid : r.req.id = req := by simpa using List.find?_some hr
  refine ⟨_, rowArrive_takes hs ha h0 hr hf hn, ?_⟩
  rw [Part.arriveRow_here h1 h2 h3 h4, hid]
  obtain ⟨w, hw⟩ : ∃ w, w = s.p.rowTaken sector.toNat req fetch f := ⟨_, rfl⟩
  have hc : w.cores = s.p.cores := by rw [hw]; rfl
  have hm : w.mem = s.p.mem := by rw [hw]; rfl
  have hu : (w.unit sector.toNat).running = ((s.p.unit sector.toNat).running.map fun y =>
      if y.req.id = req then { y with fetches := y.fetches.set fetch { f with arrived := true } } else y) := by
    rw [hw, Part.rowTaken, Part.modUnit_eq, Part.unit_setUnit, if_pos rfl]
  rw [← hw]
  by_cases h : r.req.unit = 3
  · rw [if_pos (by simpa using h)]
    exact ⟨hc, hu, fun _ => hm, fun i h' => absurd (h.symm.trans h') (by decide)⟩
  · rw [if_neg (by simpa using h)]
    have hp := Works.putRows w sector.toNat r (s.p.tbl f.table) f ⟨bs, none, [], false, .none⟩
    refine ⟨hp.cores.trans hc, ?_, fun h' => absurd h' h, fun i _ ho hb => ?_⟩
    · rw [hp.unit]
      exact hu
    · unfold Part.putRows
      dsimp only
      rw [ho]
      simp only [Part.bump_keeps]
      exact Part.unitStore_above hm 3 _ hb _ none

end

end Sys2Proof.Machine
end

section
/-!
PROOF. Rows arrive, requests complete, the row cache and levelling (O28): the owner answers a row request.
-/
namespace Sys2Proof.Machine

/-- A packet that answers a row request: rows, or for one of run-ahead the mark of a drop (R211, R307). -/
def AnswersRows (k a : Packet) : Prop :=
  a.dst = k.src ∧ a.cls = 1 ∧ a.ref = k.ref ∧ (a.kind = 2 ∨ a.kind = 8) ∧ (bit k.poison 8 = false → a.kind = 2)

/-- A row request has been answered, and nothing else sent. -/
structure Answered (p q : Part) (k : Packet) : Prop where
  cores : q.cores = p.cores
  rx : q.fab.rx = p.fab.rx
  sends : ∃ l, l ≠ [] ∧ q.fab.txq = p.fab.txq ++ l ∧ ∀ a ∈ l, AnswersRows k a

namespace Answered

variable {p w : Part} {k : Packet}

/-- Reads before an answer send nothing. -/
theorem reads {q : Part} (h : Reads p w) (h' : Answered w q k) : Answered p q k :=
  ⟨h'.cores.trans h.cores, by rw [h'.rx, h.fab], by rw [← h.fab]; exact h'.sends⟩

theorem sendPacket (p : Part) {kind : Nat} (poison : Nat) (bs : List Byte) (hk : kind = 2 ∨ kind = 8 ∧ bit k.poison 8 = true) :
    Answered p (p.sendPacket k.src 1 kind k.ref poison bs) k :=
  ⟨rfl, rfl, [_], by simp, rfl, fun a ha => by
    rw [List.mem_singleton.1 ha]
    refine ⟨rfl, rfl, rfl, hk.imp id (·.1), fun h => hk.elim id fun h' => absurd (h.symm.trans h'.2) (by decide)⟩⟩

theorem sendRows (p : Part) (pair w : Nat) (rows : List RowRead) : Answered p (p.sendRows k pair w rows) k := by
  have hone : ∀ (p : Part) (y : List Byte × Nat), AnswersRows k ⟨0, p.chip, k.src, p.epoch, 1, 0, 2, k.ref, y.2, y.1⟩ :=
    fun _ _ => ⟨rfl, rfl, rfl, .inl rfl, fun _ => rfl⟩
  unfold Part.sendRows replyPackets
  extract_lets at' mask flags bytes
  split
  · refine ⟨rfl, rfl, _, List.cons_ne_nil _ _, List.append_assoc _ [_] [_], fun a ha => ?_⟩
    rcases List.mem_cons.1 ha with rfl | ha
    · exact hone p (bytes, flags)
    · rw [List.mem_singleton.1 ha]
      exact hone _ (mask, 0)
  · refine ⟨rfl, rfl, [_], List.cons_ne_nil _ _, rfl, fun a ha => ?_⟩
    rw [List.mem_singleton.1 ha]
    exact hone p (mask ++ bytes, flags <<< 1)

theorem refuseRows (p : Part) (pair s i : Nat) : Answered p (p.refuseRows k pair s i) k :=
  reads (Reads.noteErr p _ i _ rfl) (sendPacket _ 0 [] (.inl rfl))

end Answered

namespace Reads

variable (p : Part)

theorem serveRow (pair : Nat) (T : Tbl) (nc : Bool) (key : Nat) : Reads p (p.serveRow pair T nc key).2 := by
  unfold Part.serveRow
  extract_lets r
  have h1 := fetchRow p (r % 4) 11 pair T key r nc
  generalize p.fetchRow (r % 4) 11 pair T key r nc = l at h1 ⊢
  obtain ⟨⟨row, b⟩, w⟩ := l
  dsimp only at h1 ⊢
  split
  · exact (h1.trans (bump w _ 1)).trans (tblPoison _ _ pair T.t key _)
  · exact h1.trans (bump w _ 1)

theorem serveRows (pair : Nat) (T : Tbl) (nc : Bool) (keys : List Nat) : Reads p (p.serveRows pair T nc keys).2 := by
  induction keys generalizing p with
  | nil => exact refl p
  | cons key keys ih => exact (serveRow p pair T nc key).trans (ih _)

theorem denied (s : Nat) : Reads p (p.denied s) := (bump p _ 1).trans (stick _ _ 4)

end Reads

section
variable (p : Part) (k : Packet)

theorem Part.serveAhead_answers (pair : Nat) (T : Tbl) (key : Nat) (h : bit k.poison 8 = true) : Answered p (p.serveAhead k pair T key) k := by
  unfold Part.serveAhead
  dsimp only
  split
  · exact Answered.reads (Reads.serveRow p pair T false key) (Answered.sendRows _ _ _ _)
  · exact Answered.reads (Reads.bump p _ 1) (Answered.sendPacket _ 0 [] (.inr ⟨rfl, h⟩))

/-- The owner answers a row request: with rows, without any where it refuses, or with a mark (R211, R225, R304, R307). -/
theorem Part.serveRequest_answers : Answered p (p.serveRequest k) k := by
  unfold Part.serveRequest
  extract_lets T flags pair keys home s0
  split
  · exact Answered.refuseRows p pair s0 1
  split
  · exact Answered.refuseRows p pair s0 0
  split
  · rename_i h
    refine Part.serveAhead_answers p k pair T _ ?_
    rw [bit_eq_testBit, fld_testBit] at h
    rw [bit_eq_testBit]
    exact (Bool.and_eq_true_iff.1 h).2
  split
  · exact Answered.reads (Reads.denied p s0) (Answered.refuseRows _ pair s0 0)
  · exact Answered.reads (Reads.serveRows p pair T _ keys) (Answered.sendRows _ _ _ _)

end

theorem remoteRowRequest_answers {s : State} {k : Packet} (hk : (s.p.fab.rx.find? fun q => q.cls == 0 && q.kind == 2) = some k)
    (hs : s.p.serves = true) :
    ∃ q l, Becomes .remoteRowRequest s q ∧ q.cores = s.p.cores ∧ q.fab.rx = s.p.fab.rx.erase k ∧ q.fab.txq = s.p.fab.txq ++ l ∧ l ≠ [] ∧
      ∀ a ∈ l, AnswersRows k a := by
  obtain ⟨h1, h2, l, h3, h4, h5⟩ := Part.serveRequest_answers (s.p.takeRx k) k
  refine ⟨(s.p.takeRx k).serveRequest k, l, ?_, h1, h2, h4, h3, h5⟩
  change execRemoteRowRequest s = _
  unfold execRemoteRowRequest State.run
  dsimp only
  rw [hk]
  exact congrArg (fun p => (.next { s with p := p } : Answer)) (if_pos hs)

end Sys2Proof.Machine
end

section
/-!
PROOF. Rows arrive, requests complete, the row cache and levelling (O28): run-ahead.
-/
namespace Sys2Proof.Machine

section
variable (p : Part)

theorem Serves.aheadKey (x : Nat) (T : Tbl) (pair key : Nat) : Serves p (p.aheadKey x T pair key) := by
  unfold Part.aheadKey
  generalize p.place T key = o
  obtain ⟨owner, r⟩ := o
  dsimp -zeta only
  extract_lets remote u w
  have h1 : Serves p w := (Serves.bump p _ 1).trans (Serves.peak _ _ _)
  clear_value w
  split
  · exact Serves.refl p
  split
  · have h2 := Serves.askRows w x pair 1 T [⟨T.t, owner, key, [], true, 0, 0, 0, false, none, none⟩]
    generalize w.askRows x pair 1 T [⟨T.t, owner, key, [], true, 0, 0, 0, false, none, none⟩] = l at h2 ⊢
    exact (h1.trans h2).trans (Serves.ofReads (Reads.setUnit l.2 x _ rfl))
  split
  · have h2 := Reads.readRow w x 3 pair T (w.curCopy T) r
    generalize w.readRow x 3 pair T (w.curCopy T) r = l at h2 ⊢
    exact h1.trans (Serves.ofReads ((h2.trans (Reads.tblEvents _ x _)).trans (Reads.rcFill _ x T owner key _)))
  · exact h1.trans ((Serves.bump w _ 1).trans (Serves.bump _ _ 1))

/-- A request for one row (R211): the fetch keeps its row and takes the packet's tag. -/
theorem Part.askRows_one (x pair flags : Nat) (T : Tbl) (f : RowFetch) :
    ∃ g, (p.askRows x pair flags T [f]).1 = [g] ∧ g.owner = f.owner ∧ g.key = f.key ∧ g.arrived = f.arrived ∧
      ((p.askRows x pair flags T [f]).2.unit x).ahead = (p.unit x).ahead ∧
      ∃ a ∈ (p.askRows x pair flags T [f]).2.fab.txq, a.dst = g.owner ∧ a.cls = 0 ∧ a.kind = 2 ∧ a.ref = g.ref := by
  refine ⟨_, rfl, rfl, rfl, rfl, ?_, _, List.mem_append_right _ (List.mem_singleton.2 rfl), rfl, rfl, rfl, rfl⟩
  change ((p.modUnit x fun u => { u with nextRef := (p.unit x).nextRef + 1 }).unit x).ahead = _
  rw [Part.modUnit_eq, Part.unit_setUnit, if_pos rfl]

/-- Run-ahead asks the owner of a row that it may read ahead and that is neither cached nor in flight (R214). -/
theorem Part.aheadKey_asks {x : Nat} {T : Tbl} (pair : Nat) {key : Nat} (hk : key < T.rows) (ho : (p.place T key).1 ≠ p.chip)
    (hn : (p.unit x).outstanding < 12288) (hc : p.remoteCacheable T = true) (hr : p.rcOn x = true)
    (hf : (p.unit x).inFlight T.t (p.place T key).1 key = false)
    (hs : ((List.range T.segs).all fun g => (p.rcFind x T (p.place T key).1 key g).isSome) = false) :
    ∃ f, ((p.aheadKey x T pair key).unit x).ahead = (p.unit x).ahead ++ [f] ∧ f.owner = (p.place T key).1 ∧ f.key = key ∧ f.arrived = false ∧
      ∃ a ∈ (p.aheadKey x T pair key).fab.txq, a.dst = f.owner ∧ a.cls = 0 ∧ a.kind = 2 ∧ a.ref = f.ref := by
  have hrem : ((p.place T key).1 != p.chip) = true := by simpa using ho
  have hold : p.rcHolds x T (p.place T key).1 key = false := by
    unfold Part.rcHolds
    rw [hs, Bool.and_false]
  obtain ⟨w, hw⟩ : ∃ w, w = (p.bump (GSE_STAT_RA x) 1).peak (GSE_STAT_PEAK x) ((p.unit x).outstanding + 1) := ⟨_, rfl⟩
  have hu : (w.unit x).ahead = (p.unit x).ahead := by
    rw [hw]
    unfold Part.peak
    split
    · simp
    · simp
  unfold Part.aheadKey
  dsimp only
  rw [if_neg (by simp [hk, hold, hn, hc, hr, hf]), if_pos hrem, ← hw]
  obtain ⟨f, h1, h2, h3, h4, h5, a, ha, h6⟩ := w.askRows_one x pair 1 T ⟨T.t, (p.place T key).1, key, [], true, 0, 0, 0, false, none, none⟩
  refine ⟨f, ?_, h2, h3, h4, a, ha, h6⟩
  rw [Part.modUnit_eq, Part.unit_setUnit, if_pos rfl, h1]
  exact congrArg (· ++ [f]) (h5.trans hu)

end

/-- One gather of run-ahead: the rows that its list names (R214). -/
def Part.aheadGather (x : Nat) (p : Part) (q : Ureq) : Part :=
  let d := q.desc
  if !p.tableOk (gSpec d) || !p.srcOk (addrAt d 8) (4 * gCount d) || gCount d > 8192 || gFlag d 2 then p
  else
    let T := p.tbl (gSpec d)
    let ((ids, t), p) := p.loadList 3 q.pair (addrAt d 8) (gCount d)
    if t.isSome then p else p.each (dedupAdj (sortBy (· ≤ ·) ids)) fun p k => p.aheadKey x T q.pair k

theorem Serves.aheadGather (x : Nat) (p : Part) (q : Ureq) : Serves p (p.aheadGather x q) := by
  unfold Part.aheadGather
  dsimp only
  have h1 := Serves.loadList p 3 q.pair (addrAt q.desc 8) (gCount q.desc)
  generalize p.loadList 3 q.pair (addrAt q.desc 8) (gCount q.desc) = l at h1 ⊢
  exact Serves.ite _ (Serves.refl p) (h1.trans (Serves.ite _ (Serves.refl _) (Serves.each _ (fun k p => Serves.aheadKey p x _ q.pair k) _)))

/-- A gather that names one row runs ahead of that row alone. -/
theorem Part.aheadGather_one {p w : Part} (x : Nat) {q : Ureq} {key : Nat} (ht : p.tableOk (gSpec q.desc) = true)
    (hs : p.srcOk (addrAt q.desc 8) (4 * gCount q.desc) = true) (hn : gCount q.desc ≤ 8192) (hf : gFlag q.desc 2 = false)
    (hl : p.loadList 3 q.pair (addrAt q.desc 8) (gCount q.desc) = (([key], none), w)) :
    p.aheadGather x q = w.aheadKey x (p.tbl (gSpec q.desc)) q.pair key := by
  unfold Part.aheadGather
  dsimp only
  have hb : (!p.tableOk (gSpec q.desc) || !p.srcOk (addrAt q.desc 8) (4 * gCount q.desc) || decide (gCount q.desc > 8192) || gFlag q.desc 2) = false := by
    rw [ht, hs, hf, decide_eq_false (Nat.not_lt.2 hn)]
    rfl
  have ho : dedupAdj (sortBy (fun a b => decide (a ≤ b)) [key]) = [key] := rfl
  rw [hb, if_neg Bool.false_ne_true, hl]
  dsimp only
  rw [ho, Part.each_cons, Part.each_nil, if_neg (by simp)]

theorem Part.loadList_ahead (p : Part) (g k a n x : Nat) : ((p.loadList g k a n).2.unit x).ahead = (p.unit x).ahead := by
  have h := Loads.load p g k a (4 * n)
  change ((p.load g k a (4 * n)).2.unit x).ahead = _
  rw [h.unit x]

section
variable {s : State} {sector : BitVec 2}

theorem runAheadFetch_runs (hs : s.p.serves = true) (hc : s.p.getB (GSE_CTRL sector.toNat) 0 = true) :
    Becomes (.runAheadFetch sector) s (s.p.each
      (((s.p.unit sector.toNat).gatQ.filter fun q => leAt q.desc 0 1 == 0 && q.poison.isNone).take (s.p.getF (GSE_CTRL sector.toNat) 4 4))
      (Part.aheadGather sector.toNat)) := by
  change execRunAheadFetch sector s = _
  unfold execRunAheadFetch State.run
  dsimp only
  rw [hs, hc]
  rfl

end

/-- Settles O28: each event of the units by itself; what a reading unit leaves is collected in `Reads` and `Serves`. -/
theorem requestEvents : Obligations.RequestEvents := by
  unfold Obligations.RequestEvents
  intro s sector p x
  refine ⟨fun req fetch r f bs hs ha h0 hr hf hn h1 h2 h3 h4 => rowArrive_gives hs ha h0 hr hf hn h1 h2 h3 h4,
    fun k hk hs => remoteRowRequest_answers hk hs, fun hs hc => ?_, fun req r hf hw ha => unitRequestComplete_completes hf hw ha,
    rcHalve_halves, levelPass_levels⟩
  have hg := Serves.each (((p.unit x).gatQ.filter fun q => leAt q.desc 0 1 == 0 && q.poison.isNone).take (p.getF (GSE_CTRL x) 4 4))
    (fun q p => Serves.aheadGather x p q) p
  refine ⟨_, runAheadFetch_runs hs hc, hg.cores, hg.queued x, hg.running x, ?_⟩
  intro k hk
  rw [hk, Part.each_cons, Part.each_nil]
  intro d T l p1 ht hsrc hn hf key hl hkey ho hout hcache hon _ hfl hseg
  have hl' : p.loadList 3 k.pair (addrAt d 8) (gCount d) = (([key], none), p1) := Prod.ext hl rfl
  rw [Part.aheadGather_one (p := p) x ht hsrc hn hf hl', ← Part.loadList_ahead p 3 k.pair (addrAt d 8) (gCount d) x]
  have hchip : p1.chip = p.chip := congrArg Fabric.idInForce (Reads.loadList p 3 k.pair (addrAt d 8) (gCount d)).fab
  exact Part.aheadKey_asks p1 k.pair hkey (hchip ▸ ho) hout hcache hon hfl hseg

end Sys2Proof.Machine
end
